-- ==== Sys2Proof/Word.lean ====
section
/-! DEFINITION. The word types of the package: a 32-bit register or lane word (R43), a byte, and the sparse
map type that holds everything addressed by a number. -/

namespace Sys2Proof

/-- A 32-bit word (R43, R71). -/
abbrev Word := BitVec 32

/-- A byte. -/
abbrev Byte := BitVec 8

/-- A sparse map: the entries that differ from their default, keys strictly rising. -/
abbrev Sparse (α : Type) := List (Nat × α)

end Sys2Proof
end

