-- ==== Sys2Proof/OperandTypes.lean ====
section
/-! DEFINITION. The operands that commands carry: where a command acts, and what arrives with it. -/

namespace Sys2Proof

/-- A tile: the Osier die 0-7 and the tile index 0-63 (R70). -/
structure TileAt where
  die : Nat
  tile : Nat
  deriving DecidableEq, Repr

/-- A memory error met by an access: which 64-bit word of the access (or which lane of an accumulator row), and
whether it is uncorrectable (R85, R97). -/
structure EccHit where
  word : Nat
  ue : Bool
  deriving DecidableEq, Repr

/-- One 32-byte line of a mesh flit, with its poison (R135). -/
structure FLine where
  data : BitVec 256
  poi : Bool
  deriving DecidableEq, Repr

/-- A mesh flit: 128 bytes as four lines (R200). -/
structure Flit where
  lines : List FLine
  deriving DecidableEq, Repr

/-- Wires that flip in one unit interval of a wire slot, in one module (R331): data wires 0-63, check wires 64-71; or
sideband wires in pool order. -/
structure LinkErr where
  ui : Nat
  module : Nat
  wires : List Nat
  deriving DecidableEq, Repr

/-- What a wire slot meets on its way: main-code and sideband errors, errors on test-pattern wires (R333), and by how many cycles the receiver's
expected CC slips against the sender's before it (R337). -/
structure RxErr where
  main : List LinkErr
  sb : List LinkErr
  test : Nat
  slip : Nat
  deriving DecidableEq, Repr

/-- What T3 found of one wire (R342): an error at the centre, its eye margin in 1/256 UI. -/
structure WireTest where
  module : Nat
  wire : Nat
  err : Bool
  margin : Nat
  deriving DecidableEq, Repr

/-- What the fetch of a bundle meets (R104): its block is not VALID, or the memory word errs. -/
inductive FetchErr where
  | invalid | ue | ce
  deriving DecidableEq, Repr

/-- A Seber cell (Tables 12-2 and 12-3, R389): header fields, the header's SEQ field, 256 payload bytes as eight lines, and the
trailer's CRC, ACK and CREDIT. -/
structure Cell where
  typ : Nat
  cls : Nat
  src : Nat
  dst : Nat
  epoch : Nat := 0
  fin : Bool := false
  relay : Bool := false
  poi : Bool := false
  rdie : Nat := 0
  off : Nat := 0
  seq : Nat := 0
  lines : List FLine := []
  crc : Nat := 0
  ack : Nat := 0
  credit : Nat := 0
  deriving DecidableEq, Repr

/-- What a ring or threshold loop saw in its window (R365, R366, R368): line bits equal to 1 out of 2^20, the code its target lies
at, the present fraction of the peak, the means of the samples decided 1 and 0, the extinction ratio, and PRBS31 errors. -/
structure Window where
  ones : Nat
  want : Nat
  now : Nat
  mean1 : Nat
  mean0 : Nat
  er : Nat
  errs : Nat
  deriving DecidableEq, Repr

/-- A Twine frame as its receiver sees it (Table 13-2): type, source and destination die, sequence, page and register, byte enables, data,
epoch, the ring its copy came on, and the CRC-16 it carries (R422). -/
structure TwFrame where
  typ : Nat
  src : Nat
  dst : Nat
  seq : Nat
  page : Nat
  off : Nat
  be : Nat := 15
  data : Nat
  epoch : Nat
  copy : Bool := false
  crc : Nat := 0
  deriving DecidableEq, Repr

/-- A sensor's sample (R490): raw code, whether it lies in the sensor's valid span, temperature in quarter degrees. -/
structure Sample where
  raw : Nat
  span : Bool
  temp : Int
  deriving DecidableEq, Repr

/-- What a loader finds in an image (Tables 6-10, R226, R266, R267): whether its signature verifies and by which key slot, ARITH_CLASS, grade, pod size and
count, whether the package ID lies in its topology, its image ID, the width keys of its variants; per Osier die its footprint, the retired and the
borrowable granules, and the granules that peers offer; then what the variant writes: register words in order (page, offset,
value), granule contents by 42-bit address, and tile code as load-mode deliveries (die, column, header, lines). -/
structure Image where
  slot : Nat
  sig : Bool
  cls : Nat
  grade : Nat
  size : Nat
  count : Nat
  inside : Bool
  id : Nat
  keys : List Nat
  need : List Nat
  retired : List Nat
  mayLend : List Nat
  offered : List Nat
  writes : List (Nat × Nat × Nat) := []
  data : List (Nat × FLine) := []
  code : List (Nat × Nat × Nat × List FLine) := []
  deriving DecidableEq, Repr

/-- What a JTAG access names (R533, Table 17-4): the ID code of a die, a register word, a line of tile memory, an accumulator entry, a bundle, a
line of HBM (die * 4 + stack, line), a line of a collective buffer, a word of a Hoop's stored profiles, a secret. -/
inductive JtagAt where
  | idcode (die : Nat)
  | reg (page off : Nat)
  | tmem (at' : TileAt) (line : Nat)
  | acc (at' : TileAt) (row lane : Nat)
  | imem (at' : TileAt) (bundle : Nat)
  | hbm (mc line : Nat)
  | cbuf (die addr : Nat)
  | flash (hoop word : Nat)
  | secret (hoop : Nat)
  deriving DecidableEq, Repr

end Sys2Proof
end

