-- ==== Sys2Proof/Syntax.lean ====
section
/-! DEFINITION. The commands of the package: one constructor per row of spec/opcode_table.json, in the table's order.
The table gives the rows no operand fields; each constructor carries what the rule of its row names. -/

namespace Sys2Proof

/-- A command (R41 to R555; the rule of each row is cited). -/
inductive Instr where
  /-- BAR0_WRITE (R51): A register write without a row of its own is checked against the epoch fence, key, size and aliveness, then takes effect or is staged. -/
  | bar0Write (hoop page off val be : Nat)
  /-- MULTIWORD_LOW_READ (R44): A read of the lowest word of a multi-word field copies its higher words into the page's holding register for the reading Hoop. -/
  | multiwordLowRead (hoop page off len : Nat) (ue : Bool)
  /-- NO_ANSWER (R46): A BAR0 read that the die has not answered within 1.5 µs completes with 0xFFFF_FFFF and is counted as a rejected access. -/
  | noAnswer (hoop page off : Nat)
  /-- KEY_UNLOCK (R53): A write to PG_CTRL.UNLOCK opens the page's key with 0x5EB3 and closes it with any other value. -/
  | keyUnlock (hoop page val : Nat)
  /-- SOFT_RESET (R554): A write of 1 to PG_CTRL.SOFT_RESET takes the block down and resets it as Table 2-7 gives, keeping the header. -/
  | softReset (hoop page val : Nat)
  /-- SOFT_RESET_COMPLETE (R554): When the reset, stop or reboot ends, SOFT_RESET clears and the block runs again if ENABLE is 1. -/
  | softResetComplete (page : Nat)
  /-- FSTAT_CLEAR (R448): A W1C write to PG_FSTAT clears the source bits and discards their pending repeat counts. -/
  | fstatClear (hoop page val : Nat)
  /-- SNAPSHOT_REQUEST (R60): A write of PKG_SNAP_CTRL.REQ sets BUSY, fixes the target tick and sends it to all twenty dies. -/
  | snapshotRequest (hoop val : Nat)
  /-- SNAP_FRAME (R61): A die receives the snapshot target tick; if the tick has already begun it latches at once and sets LATE. -/
  | snapFrame (die hoop : Nat)
  /-- SNAPSHOT_LATCH (R60): At the start of the target tick a die copies its pages into the shadow windows, sets PG_SNAP and reports. -/
  | snapshotLatch (hoop : Nat)
  /-- SNAPSHOT_COMPLETE (R60): When every die has reported, the active Hoop writes PKG_SNAP_STAT and PKG_SNAP_TICK and clears BUSY. -/
  | snapshotComplete (hoop : Nat)
  /-- SNAPSHOT_TIMEOUT (R62): 1 ms after the target tick the active Hoop completes the snapshot without the dies that have not reported and sets MISSING. -/
  | snapshotTimeout (hoop : Nat)
  /-- STAGE_OPEN (R65): A write of PKG_STAGE_CTRL.OPEN = 1 opens staging. -/
  | stageOpen (hoop : Nat)
  /-- STAGE_CLOSE (R67): Clearing OPEN without COMMIT discards every stage buffer and reports FAIL with cause DISCARDED. -/
  | stageClose (hoop : Nat)
  /-- COMMIT (R66): A write of PKG_STAGE_CTRL.COMMIT sets STATE to PREP and sends a prepare to all twenty dies. -/
  | commit (hoop val : Nat)
  /-- PREPARE (R66): A die receives a prepare, freezes its stage buffers and answers success or failure. -/
  | prepare (die : Nat)
  /-- STAGE_ANS (R66): The active Hoop takes a die's answer; once all twenty have succeeded it sets MARKED and sends the commit mark. -/
  | stageAns (die : Nat)
  /-- COMMIT_ACK_TIMEOUT (R67): 100 µs after the prepare without all answers, the Hoop has every die discard and reports FAIL with ACK_TIMEOUT. -/
  | commitAckTimeout
  /-- COMMIT_MARK (R66): A die receives the commit mark on the cadence tree and arms its frozen entries for the next frame boundary. -/
  | commitMark (die : Nat)
  /-- COMMIT_APPLY (R66): At the first frame boundary after the mark every die applies its frozen entries in order, and the package sets DONE and returns to IDLE. -/
  | commitApply
  /-- STAGE_DISCARD (R67): A die receives a discard and empties its stage buffers, frozen or not. -/
  | stageDiscard (die : Nat)
  /-- FROZEN_BUFFER_TIMEOUT (R67): A die whose buffers have stayed frozen for 1 ms without a mark discards them on its own. -/
  | frozenBufferTimeout (die : Nat)
  /-- TAG_SAVE (R59): A write of PKG_TAG_CTRL.SAVE starts writing the package tag into the profile stores of both Hoop dies. -/
  | tagSave (hoop val : Nat)
  /-- TAG_SAVE_COMPLETE (R59): The tag save finishes, or fails and sets SAVE_ERR and TAG_SAVE_ERR. -/
  | tagSaveComplete (ok : Bool)
  /-- TILE_ENABLE (R109): A write of OS_TG_ENABLE places tiles in OFF or IDLE; the change waits for a running tile's next entry to IDLE. -/
  | tileEnable (hoop page val : Nat)
  /-- ACC_MODE_WRITE (R96): A write of OS_TG_ACC_MODE changes an IDLE tile's weave and zeroes its accumulator memory, or is held until the tile enters IDLE. -/
  | accModeWrite (hoop page val : Nat)
  /-- TILE_ZERO (R110): A write of OS_TG_ZERO starts zeroing an IDLE tile's memories, registers and generator state. -/
  | tileZero (hoop page val : Nat)
  /-- TILE_ZERO_COMPLETE (R110): Zeroing of the tile completes within 4,096 enabled cycles and its REQ bit clears. -/
  | tileZeroComplete (at' : TileAt)
  /-- TG_COUNTER_CLEAR (R109): A write of OS_TG_CNT_CLR zeroes the row's four counters. -/
  | tgCounterClear (hoop page val : Nat)
  /-- EMPTY_BUNDLE (R114): A bundle with no enabled slot issues, occupies its cycle and undergoes loop evaluation. -/
  | emptyBundle (at' : TileAt) (hdr bad : Nat) (last : Bool)
  /-- INVALID_BLOCK_ISSUE (R104): A bundle issued from an invalid or uncorrectable instruction block executes as the empty bundle, sets TAINT and raises IMEM_INVALID or IMEM_UE. -/
  | invalidBlockIssue (at' : TileAt) (err : FetchErr)
  /-- RESULT_LAND (R75): An instruction's result is written into its register at its latency, merged under R78. -/
  | resultLand (at' : TileAt)
  /-- RESIDENT_CHUNK_READ (R87): In each cycle after an RLOAD issues, one 512-byte chunk, and finally the scale area, is read and written into the resident buffer. -/
  | residentChunkRead (at' : TileAt)
  /-- MMA_ROW_UPDATE (R90): The MU adds or writes its 128 results into the accumulator row at u + 10 or u + 14. -/
  | mmaRowUpdate (at' : TileAt)
  /-- LOAD_DELIVERY (R263): In load mode, an IDLE tile at the header's row takes the header and data flits into tile or instruction memory. -/
  | loadDelivery (die col : Nat)
  /-- TILE_ENTER_HELD (R127): After SYNC, the tile enters HELD in the first cycle in which all its issued results have landed. -/
  | tileEnterHeld (at' : TileAt)
  /-- TILE_ENTER_IDLE (R129): After END, the tile enters IDLE once all its results have landed and empties its loop stack. -/
  | tileEnterIdle (at' : TileAt)
  /-- SLI (R120): Loads a 32-bit immediate into a scalar register. -/
  | sli (at' : TileAt) (d imm : Nat) (last : Bool)
  /-- SADD (R120): Adds two scalar registers modulo 2^32. -/
  | sadd (at' : TileAt) (d a b : Nat) (last : Bool)
  /-- SADDI (R120): Adds an immediate to a scalar register modulo 2^32. -/
  | saddi (at' : TileAt) (d a imm : Nat) (last : Bool)
  /-- SSUB (R120): Subtracts two scalar registers modulo 2^32. -/
  | ssub (at' : TileAt) (d a b : Nat) (last : Bool)
  /-- SMUL (R120): Writes the low 32 bits of the product of two scalar registers. -/
  | smul (at' : TileAt) (d a b : Nat) (last : Bool)
  /-- SMULI (R120): Writes the low 32 bits of a scalar times an immediate. -/
  | smuli (at' : TileAt) (d a imm : Nat) (last : Bool)
  /-- SAND (R120): Bitwise AND of two scalar registers. -/
  | sand (at' : TileAt) (d a b : Nat) (last : Bool)
  /-- SANDI (R120): Bitwise AND of a scalar and an immediate. -/
  | sandi (at' : TileAt) (d a imm : Nat) (last : Bool)
  /-- SOR (R120): Bitwise OR of two scalar registers. -/
  | sor (at' : TileAt) (d a b : Nat) (last : Bool)
  /-- SORI (R120): Bitwise OR of a scalar and an immediate. -/
  | sori (at' : TileAt) (d a imm : Nat) (last : Bool)
  /-- SXOR (R120): Bitwise XOR of two scalar registers. -/
  | sxor (at' : TileAt) (d a b : Nat) (last : Bool)
  /-- SXORI (R120): Bitwise XOR of a scalar and an immediate. -/
  | sxori (at' : TileAt) (d a imm : Nat) (last : Bool)
  /-- SSHL (R120): Shifts a scalar left by a register amount. -/
  | sshl (at' : TileAt) (d a b : Nat) (last : Bool)
  /-- SSHLI (R120): Shifts a scalar left by an immediate amount. -/
  | sshli (at' : TileAt) (d a imm : Nat) (last : Bool)
  /-- SSHR (R120): Shifts a scalar right with zero fill by a register amount. -/
  | sshr (at' : TileAt) (d a b : Nat) (last : Bool)
  /-- SSHRI (R120): Shifts a scalar right with zero fill by an immediate amount. -/
  | sshri (at' : TileAt) (d a imm : Nat) (last : Bool)
  /-- SSRA (R120): Shifts a scalar right with sign fill by a register amount. -/
  | ssra (at' : TileAt) (d a b : Nat) (last : Bool)
  /-- SSRAI (R120): Shifts a scalar right with sign fill by an immediate amount. -/
  | ssrai (at' : TileAt) (d a imm : Nat) (last : Bool)
  /-- SMIN (R120): Writes the signed minimum of two scalars. -/
  | smin (at' : TileAt) (d a b : Nat) (last : Bool)
  /-- SMAX (R120): Writes the signed maximum of two scalars. -/
  | smax (at' : TileAt) (d a b : Nat) (last : Bool)
  /-- SSLT (R120): Writes 1 if one scalar is less than another, signed. -/
  | sslt (at' : TileAt) (d a b : Nat) (last : Bool)
  /-- SSLTU (R120): Writes 1 if one scalar is less than another, unsigned. -/
  | ssltu (at' : TileAt) (d a b : Nat) (last : Bool)
  /-- ALI (R120): Loads a 22-bit immediate into an address register. -/
  | ali (at' : TileAt) (d imm : Nat) (last : Bool)
  /-- AADDI (R120): Adds an immediate to an address register modulo 2^22. -/
  | aaddi (at' : TileAt) (d a imm : Nat) (last : Bool)
  /-- AADD (R121): Adds a scalar to an address register, setting TAINT if the scalar is poisoned. -/
  | aadd (at' : TileAt) (d a b : Nat) (last : Bool)
  /-- AMOV (R121): Copies a scalar into an address register, setting TAINT if it is poisoned. -/
  | amov (at' : TileAt) (d a : Nat) (last : Bool)
  /-- SRDA (R120): Reads an address register into a scalar. -/
  | srda (at' : TileAt) (d a : Nat) (last : Bool)
  /-- LOOP (R123): Opens a counted loop with START, END and TRIP, or skips its body when TRIP is 0. -/
  | loop (at' : TileAt) (endAt trip : Nat) (last : Bool)
  /-- CSET (R126): Writes a loop counter register from a scalar without changing the trip count. -/
  | cset (at' : TileAt) (d a : Nat) (last : Bool)
  /-- SRDC (R120): Reads a loop counter into a scalar. -/
  | srdc (at' : TileAt) (d a : Nat) (last : Bool)
  /-- PXKEY (R101): Sets the Philox key from two scalars. -/
  | pxkey (at' : TileAt) (a b : Nat) (last : Bool)
  /-- PXSTEP (R101): Sets the Philox step counter from two scalars. -/
  | pxstep (at' : TileAt) (a b : Nat) (last : Bool)
  /-- PXINC (R101): Adds an immediate to the Philox step counter. -/
  | pxinc (at' : TileAt) (imm : Nat) (last : Bool)
  /-- SCYC (R122): Reads the tile's run-cycle count into a scalar. -/
  | scyc (at' : TileAt) (d : Nat) (last : Bool)
  /-- SYNC (R127): Stops further issue and names a sync point, entry address and loop-keeping flag. -/
  | sync (at' : TileAt) (entry id : Nat) (keep last : Bool)
  /-- END (R129): Ends the tile's program; the tile enters IDLE when its results have landed. -/
  | tileEnd (at' : TileAt) (last : Bool)
  /-- VLD (R130): Loads a 512-byte vector from tile memory into the unmasked lanes of a vector register. -/
  | vld (at' : TileAt) (r b offset m inc : Nat) (post : Bool) (hits : List EccHit) (last : Bool)
  /-- VST (R132): Stores the unmasked lanes of a vector register to tile memory as a merged write. -/
  | vst (at' : TileAt) (r b offset m inc : Nat) (post : Bool) (hits : List EccHit) (last : Bool)
  /-- VLDBC (R130): Broadcasts a 4-byte word into every lane of a vector register. -/
  | vldbc (at' : TileAt) (r b offset m inc : Nat) (post : Bool) (hits : List EccHit) (last : Bool)
  /-- SLD (R130): Loads a 4-byte word into a scalar register. -/
  | sld (at' : TileAt) (r b offset inc : Nat) (post : Bool) (hits : List EccHit) (last : Bool)
  /-- SST (R130): Stores a scalar register as a 4-byte word. -/
  | sst (at' : TileAt) (r b offset inc : Nat) (post : Bool) (hits : List EccHit) (last : Bool)
  /-- SLD2 (R130): Loads an 8-byte pair into two scalar registers. -/
  | sld2 (at' : TileAt) (r b offset inc : Nat) (post : Bool) (hits : List EccHit) (last : Bool)
  /-- SST2 (R130): Stores two scalar registers as an 8-byte pair. -/
  | sst2 (at' : TileAt) (r b offset inc : Nat) (post : Bool) (hits : List EccHit) (last : Bool)
  /-- NM_SEND (R135): Reads up to four lines from tile memory and presents a 128-byte flit to the router. -/
  | nmSend (at' : TileAt) (sa slen sinc : Nat) (hits : List EccHit) (last : Bool)
  /-- NM_RECEIVE (R136): Takes the flit presented by the router into tile or instruction memory. -/
  | nmReceive (at' : TileAt) (ra rlen rinc : Nat) (rimem : Bool) (hits : List EccHit) (last : Bool)
  /-- VMOV (R141): Copies a vector register. -/
  | vmov (at' : TileAt) (d a m : Nat) (last : Bool)
  /-- VIADD (R141): Adds two vectors lane by lane modulo 2^32. -/
  | viadd (at' : TileAt) (d a b m : Nat) (last : Bool)
  /-- VISUB (R141): Subtracts two vectors lane by lane modulo 2^32. -/
  | visub (at' : TileAt) (d a b m : Nat) (last : Bool)
  /-- VIMUL (R141): Writes the low 32 bits of the lane products. -/
  | vimul (at' : TileAt) (d a b m : Nat) (last : Bool)
  /-- VIMIN (R141): Writes the signed lane minimum. -/
  | vimin (at' : TileAt) (d a b m : Nat) (last : Bool)
  /-- VIMAX (R141): Writes the signed lane maximum. -/
  | vimax (at' : TileAt) (d a b m : Nat) (last : Bool)
  /-- VAND (R141): Bitwise AND of two vectors. -/
  | vand (at' : TileAt) (d a b m : Nat) (last : Bool)
  /-- VOR (R141): Bitwise OR of two vectors. -/
  | vor (at' : TileAt) (d a b m : Nat) (last : Bool)
  /-- VXOR (R141): Bitwise XOR of two vectors. -/
  | vxor (at' : TileAt) (d a b m : Nat) (last : Bool)
  /-- VANDN (R141): Bitwise AND of one vector with the complement of another. -/
  | vandn (at' : TileAt) (d a b m : Nat) (last : Bool)
  /-- VSHL (R141): Shifts each lane left by a per-lane amount. -/
  | vshl (at' : TileAt) (d a b m : Nat) (last : Bool)
  /-- VSHR (R141): Shifts each lane right with zero fill by a per-lane amount. -/
  | vshr (at' : TileAt) (d a b m : Nat) (last : Bool)
  /-- VSRA (R141): Shifts each lane right with sign fill by a per-lane amount. -/
  | vsra (at' : TileAt) (d a b m : Nat) (last : Bool)
  /-- VSHLI (R141): Shifts each lane left by an immediate. -/
  | vshli (at' : TileAt) (d a m imm : Nat) (last : Bool)
  /-- VSHRI (R141): Shifts each lane right with zero fill by an immediate. -/
  | vshri (at' : TileAt) (d a m imm : Nat) (last : Bool)
  /-- VSRAI (R141): Shifts each lane right with sign fill by an immediate. -/
  | vsrai (at' : TileAt) (d a m imm : Nat) (last : Bool)
  /-- VSEL (R141): Selects each lane from one of two vectors by a mask. -/
  | vsel (at' : TileAt) (d a b c m : Nat) (last : Bool)
  /-- VBCS (R141): Broadcasts a scalar into every lane. -/
  | vbcs (at' : TileAt) (d a m : Nat) (last : Bool)
  /-- VEXT (R141): Extracts one lane into a scalar. -/
  | vext (at' : TileAt) (d a imm xa : Nat) (xen last : Bool)
  /-- VINS (R141): Inserts a scalar into one lane and keeps the others. -/
  | vins (at' : TileAt) (d a imm xa : Nat) (xen last : Bool)
  /-- VROT (R141): Rotates the lanes of a vector by an immediate. -/
  | vrot (at' : TileAt) (d a m imm : Nat) (last : Bool)
  /-- VLANE (R141): Writes each lane's own index. -/
  | vlane (at' : TileAt) (d m : Nat) (last : Bool)
  /-- VFABS (R141): Clears each lane's sign bit. -/
  | vfabs (at' : TileAt) (d a m : Nat) (last : Bool)
  /-- VFNEG (R141): Inverts each lane's sign bit. -/
  | vfneg (at' : TileAt) (d a m : Nat) (last : Bool)
  /-- VCMPF (R142): Compares FP32 lanes into a mask register. -/
  | vcmpf (at' : TileAt) (d a b m imm : Nat) (last : Bool)
  /-- VCMPI (R141): Compares integer lanes into a mask register. -/
  | vcmpi (at' : TileAt) (d a b m imm : Nat) (last : Bool)
  /-- MAND (R141): AND of two mask registers. -/
  | mand (at' : TileAt) (d a b m : Nat) (last : Bool)
  /-- MOR (R141): OR of two mask registers. -/
  | mor (at' : TileAt) (d a b m : Nat) (last : Bool)
  /-- MXOR (R141): XOR of two mask registers. -/
  | mxor (at' : TileAt) (d a b m : Nat) (last : Bool)
  /-- MANDN (R141): AND of one mask with the complement of another. -/
  | mandn (at' : TileAt) (d a b m : Nat) (last : Bool)
  /-- MFROMV (R141): Sets each mask bit where the vector lane is non-zero. -/
  | mfromv (at' : TileAt) (d a m : Nat) (last : Bool)
  /-- MTOV (R141): Writes 1 or 0 into each lane from a mask. -/
  | mtov (at' : TileAt) (d a m : Nat) (last : Bool)
  /-- VFADD (R172): FP32 addition of each lane, rounded once. -/
  | vfadd (at' : TileAt) (d a b m rnd : Nat) (last : Bool)
  /-- VFSUB (R172): FP32 subtraction of each lane, rounded once. -/
  | vfsub (at' : TileAt) (d a b m rnd : Nat) (last : Bool)
  /-- VFMUL (R172): FP32 multiplication of each lane, rounded once. -/
  | vfmul (at' : TileAt) (d a b m rnd : Nat) (last : Bool)
  /-- VFFMA (R172): FP32 fused multiply-add of each lane with one rounding. -/
  | vffma (at' : TileAt) (d a b c m rnd : Nat) (last : Bool)
  /-- VFMAX (R143): Writes the larger FP32 value of each lane pair. -/
  | vfmax (at' : TileAt) (d a b m : Nat) (last : Bool)
  /-- VFMIN (R143): Writes the smaller FP32 value of each lane pair. -/
  | vfmin (at' : TileAt) (d a b m : Nat) (last : Bool)
  /-- VBADD (R172): BF16 addition of each half, rounded once. -/
  | vbadd (at' : TileAt) (d a b m rnd : Nat) (last : Bool)
  /-- VBMUL (R172): BF16 multiplication of each half, rounded once. -/
  | vbmul (at' : TileAt) (d a b m rnd : Nat) (last : Bool)
  /-- VBFMA (R172): BF16 fused multiply-add of each half with one rounding. -/
  | vbfma (at' : TileAt) (d a b c m rnd : Nat) (last : Bool)
  /-- VCVTN (R145): Narrows FP32 or INT32 lanes into one part of a packed format. -/
  | vcvtn (at' : TileAt) (d a b c m rnd fmt part imm xa : Nat) (sat xen last : Bool)
  /-- VCVTW (R147): Widens one part of a packed format to FP32 or INT32. -/
  | vcvtw (at' : TileAt) (d a b m fmt part imm xa : Nat) (xen last : Bool)
  /-- VCVTI (R170): Converts FP32 lanes to INT32. -/
  | vcvti (at' : TileAt) (d a m rnd : Nat) (sat last : Bool)
  /-- VCVTF (R170): Converts INT32 lanes to FP32. -/
  | vcvtf (at' : TileAt) (d a m rnd : Nat) (last : Bool)
  /-- VMXS (R148): Computes four E8M0 block scales into one lane. -/
  | vmxs (at' : TileAt) (d a m fmt imm xa : Nat) (xen last : Bool)
  /-- VEXP2 (R149): Computes 2^x on the transcendental unit. -/
  | vexp2 (at' : TileAt) (d a m : Nat) (last : Bool)
  /-- VLOG2 (R149): Computes log2 x on the transcendental unit. -/
  | vlog2 (at' : TileAt) (d a m : Nat) (last : Bool)
  /-- VRCP (R149): Computes 1/x on the transcendental unit. -/
  | vrcp (at' : TileAt) (d a m : Nat) (last : Bool)
  /-- VRSQRT (R149): Computes 1/sqrt x on the transcendental unit. -/
  | vrsqrt (at' : TileAt) (d a m : Nat) (last : Bool)
  /-- VSQRT (R149): Computes sqrt x on the transcendental unit. -/
  | vsqrt (at' : TileAt) (d a m : Nat) (last : Bool)
  /-- VTANH (R149): Computes tanh x on the transcendental unit. -/
  | vtanh (at' : TileAt) (d a m : Nat) (last : Bool)
  /-- VSINT (R149): Computes sin(2πx) on the transcendental unit. -/
  | vsint (at' : TileAt) (d a m : Nat) (last : Bool)
  /-- VCOST (R149): Computes cos(2πx) on the transcendental unit. -/
  | vcost (at' : TileAt) (d a m : Nat) (last : Bool)
  /-- VRAND (R150): Fills unmasked lanes with Philox words for consecutive element indices. -/
  | vrand (at' : TileAt) (d a b m : Nat) (last : Bool)
  /-- VACR (R151): Reads an accumulator row into a vector register, with final rounding in close weave. -/
  | vacr (at' : TileAt) (d m rnd imm xa : Nat) (xen : Bool) (hits : List EccHit) (last : Bool)
  /-- VACRR (R151): Reads one raw part of a close-weave accumulator row. -/
  | vacrr (at' : TileAt) (d m part imm xa : Nat) (xen : Bool) (hits : List EccHit) (last : Bool)
  /-- VACW (R151): Writes an open-weave accumulator row from a vector register. -/
  | vacw (at' : TileAt) (a m imm xa : Nat) (xen last : Bool)
  /-- VACWR (R95): Writes one raw part of a close-weave row, applied to the entry when the tag part is written. -/
  | vacwr (at' : TileAt) (a m part imm xa : Nat) (xen last : Bool)
  /-- MMA (R155): Multiplies a streamed vector by a resident buffer and accumulates into an accumulator row. -/
  | mma (at' : TileAt) (sa xa row buf sfmt ca : Nat) (spost xen ovw cpost : Bool) (hits : List EccHit) (last : Bool)
  /-- RLOAD (R154): Loads a resident block and its scales into a resident buffer, recording its format. -/
  | rload (at' : TileAt) (sa buf fmt ca : Nat) (post cpost : Bool) (hits : List EccHit) (last : Bool)
  /-- FRAME_CHECK (R198): Every 4,096 frames a die compares the tree's frame count with its own and reports a failure, raising ALIGN_FAIL. -/
  | frameCheck (die count : Nat)
  /-- CADENCE_MESSAGE (R444): A die receives a cadence-tree message and acts on it only if its epoch is at least the highest seen. -/
  | cadenceMessage (die : Nat) (good : Bool)
  /-- CADENCE_APPLY (R195): A new N takes effect in all dies at the frame boundary the tree message names. -/
  | cadenceApply
  /-- ALIGN_ISSUE (R196): The active Hoop sends ALIGN on the cadence tree while no Osier die is RUNNING. -/
  | alignIssue (hoop delay : Nat)
  /-- ALIGN_EFFECT (R196): On the sixteenth REFCLK_SYS edge after ALIGN arrives, a die starts frame 0, sets CC and N and sets its crossings, then reports ALIGN_OK. -/
  | alignEffect (silent : List Nat)
  /-- ALIGN_ATTEMPT_TIMEOUT (R198): An ALIGN attempt in which some die has not reported ALIGN_OK within 1 ms fails, and firmware makes a further attempt. -/
  | alignAttemptTimeout
  /-- MESH_FLIT_FORWARD (R200): A flit at a router input leaves on the outputs that the cycle's route entry selects. -/
  | meshFlitForward (die node : Nat) (par : List (Nat × Nat)) (ecc : Option Bool)
  /-- DIE_READY (R210): A die becomes ready once every enabled tile is HELD and its engines have reached their sync markers; its route index stops. -/
  | dieReady (die : Nat)
  /-- DIE_ARRIVAL (R210): A ready die arrives once its event-counter conditions, border condition and no pending stop all hold. -/
  | dieArrival (die : Nat)
  /-- SYNC_NOTICE (R211): A die learns other dies' readiness and arrival from the sync field and computes L0, L1 and L. -/
  | syncNotice (die : Nat)
  /-- SYNC_RELEASE (R212): At the first enabled cycle at or after L + 60 whose CC is a multiple of 8, every die releases: tiles run, phase and segments start, counters adjust. -/
  | syncRelease
  /-- SYNC_TIMEOUT (R215): A die ready for OS_SYNC_TMO.MS without release raises SYNC_TIMEOUT once and keeps holding. -/
  | syncTimeout (die : Nat)
  /-- PROGRAM_ARM (R216): A write of OS_PROG_CTRL.ARM makes a loaded die arrive at the start sync, or moves DONE back to LOADED. -/
  | programArm (hoop page val : Nat)
  /-- PROGRAM_LOADED (R217): The loader's write of OS_PROG_CTRL.LOADED moves the die from EMPTY to LOADED. -/
  | programLoaded (hoop page val : Nat)
  /-- PROGRAM_END (R218): Once every tile is IDLE after END and the engines have finished, the die sends its end notice; at release STATE becomes DONE. -/
  | programEnd (die : Nat)
  /-- PROGRAM_STOP (R219): A write of OS_PROG_CTRL.STOP sends every tile to IDLE, stops the route memory and aborts the engines. -/
  | programStop (hoop page val : Nat)
  /-- STOP_COMPLETE (R219): When the engines have returned to IDLE, STATE becomes LOADED, ARM clears and STOP reads 0. -/
  | stopComplete (die : Nat)
  /-- WALE_PROGRAM_SLOT (R221): In each program slot a port sends the flit from the slot-plan source, or EMPTY if the source is none. -/
  | waleProgramSlot (die port : Nat)
  /-- SIDE_FLIT_SERVICE (R223): A side slot or spare wire slot carries the waiting side flit chosen by class priority and age. -/
  | sideFlitService (page : Nat) (hits : List EccHit)
  /-- IMAGE_LOAD (R226): The loader checks an image for signature, class, topology, variant and fit, and writes it only if all pass. -/
  | imageLoad (hoop : Nat) (im : Image)
  /-- TABLE_WRITE (R230): A write of OS_TBL_DATA writes the selected sync, phase, route or slot-plan entry and clears LOADED, unless STATE is RUNNING or DONE. -/
  | tableWrite (hoop page val : Nat)
  /-- EVENT_DOORBELL (R209): A write of OS_EVT_ADD adds the amount to the named event counter. -/
  | eventDoorbell (hoop page val : Nat)
  /-- OS_COUNTER_CLEAR (R230): A write of OS_CNT_CLR zeroes the mesh, overbooking, route and hold and wait counters. -/
  | osCounterClear (hoop page val : Nat)
  /-- ST_NOP (R247): A NOP descriptor starts and only its WAIT counts. -/
  | stNop (die eng : Nat) (ue : Bool)
  /-- ST_RD (R249): An RD descriptor reads HBM units and presents them on the lane's edge port. -/
  | stRd (die eng : Nat)
  /-- ST_WR (R249): A WR descriptor takes units from the edge port and writes them to HBM. -/
  | stWr (die eng : Nat)
  /-- RDW (R249): An RDW descriptor reads local HBM into a Wale flit on its port. -/
  | rdw (die eng : Nat)
  /-- WRW (R249): A WRW descriptor writes a received Wale flit into local HBM. -/
  | wrw (die eng : Nat)
  /-- MW (R249): An MW descriptor moves units from the mesh into a Wale flit. -/
  | mw (die eng : Nat)
  /-- WM (R249): A WM descriptor moves a received Wale flit onto the mesh. -/
  | wm (die eng : Nat)
  /-- SLOAD (R249): An SLOAD descriptor loads descriptors from local HBM into the engine's schedule memory. -/
  | sload (die eng : Nat) (ue2 : Bool)
  /-- BREAD (R259): A BREAD descriptor sends a Memory-class request to copy borrowed memory into local HBM. -/
  | bread (die eng : Nat) (ue2 : Bool) (stk : Option Bool)
  /-- BWRITE (R259): A BWRITE descriptor copies local HBM into borrowed memory in a lender package. -/
  | bwrite (die eng : Nat) (ue2 : Bool) (stk stk2 : Option Bool) (hits : List EccHit)
  /-- LOADT (R264): A LOADT descriptor sends load deliveries from local HBM to a tile in load mode. -/
  | loadt (die eng : Nat) (ue2 : Bool)
  /-- ST_ENDSEG (R248): An ENDSEG descriptor marks the engine's sync marker for its segment. -/
  | stEndseg (die eng : Nat)
  /-- TRANSACTION_ISSUE (R247): At t_j a running descriptor issues its next transaction, resolved through the Stake table. -/
  | transactionIssue (die eng : Nat) (stk : Option Bool)
  /-- READ_UNIT_RELEASE (R234): The return buffer releases a program read unit exactly E_L enabled cycles after issue. -/
  | readUnitRelease (die eng : Nat) (late : List Nat) (hits : List EccHit)
  /-- REFRESH_RATE_CHANGE (R238): The stack sensor passing 85 °C, or staying below 83 °C for 10 ms, doubles or restores the refresh rate and raises MC_HOT. -/
  | refreshRateChange (die stack temp : Nat)
  /-- PATROL_SCRUB (R242): The controller reads each unit in the side share, rewriting corrected words and poisoning uncorrectable ones. -/
  | patrolScrub (die stack : Nat) (hits : List EccHit)
  /-- NEIGHBOUR_REQUEST (R252): An owner die takes a request word arriving in a program slot and enters the read or write into its controller. -/
  | neighbourRequest (die port : Nat)
  /-- LENDER_REQUEST (R259): A lender die serves a Memory-class request from its side share and returns the data in cells. -/
  | lenderRequest (die peer lgran off : Nat) (write : Bool) (count : Nat) (data : List FLine) (hits : List EccHit) (stk : Option Bool)
  /-- BORROW_COMPLETE (R260): A borrowed operation completes when its last byte is written, or fails and writes poison, and increments its event counter. -/
  | borrowComplete (die eng n : Nat) (granted : Bool) (data : List FLine) (stk : Option Bool)
  /-- BORROW_TIMEOUT (R260): A borrowed operation not complete within ST_BORROW_TMO fails and completes, raising ST_BORROW_TMO. -/
  | borrowTimeout (die eng n : Nat)
  /-- HOST_WINDOW_ACCESS (R261): A BAR2 access is resolved by the home die's Stake table and served in side shares, or completes with Unsupported Request. -/
  | hostWindowAccess (hoop off len : Nat) (write : Bool) (data : List Byte) (hits : List EccHit) (stk : Option Bool)
  /-- STAKE_WRITE (R257): A write of ST_STAKE_DATA changes a Stake entry from the next enabled cycle. -/
  | stakeWrite (hoop page val : Nat)
  /-- ST_SCHED_WRITE (R269): A write of ST_SCHED_DATA writes a schedule word while STATE is EMPTY or LOADED. -/
  | stSchedWrite (hoop page val : Nat)
  /-- ST_COUNTER_CLEAR (R269): A write of ST_CNT_CLR zeroes ST_TX_CNT and PEAK. -/
  | stCounterClear (hoop page val : Nat)
  /-- MC_COUNTER_CLEAR (R268): A write of MC_CNT_CLR zeroes the controller counters. -/
  | mcCounterClear (hoop page val : Nat)
  /-- ENGINE_ABORT_DONE (R270): An aborting engine returns to IDLE once nothing is outstanding. -/
  | engineAbortDone (die eng : Nat)
  /-- CE_NOP (R275): A collective NOP descriptor counts only WAIT. -/
  | ceNop (die : Nat) (ue : Bool)
  /-- EDIN (R276): Takes units from an edge port into the collective buffer, combined by CMB. -/
  | edin (die : Nat)
  /-- EDOUT (R276): Presents buffer units at an edge port. -/
  | edout (die : Nat)
  /-- WIN (R276): Takes Wale flits from a port into the buffer, combined by CMB. -/
  | win (die : Nat)
  /-- WOUT (R276): Sends buffer data as Wale flits on a port. -/
  | wout (die : Nat)
  /-- LCOMB (R279): Combines two buffer regions in place by CMB. -/
  | lcomb (die : Nat) (ue2 : Bool)
  /-- GRID (R280): Computes grid bytes from FP32 partial blocks. -/
  | ceGrid (die : Nat) (ue2 : Bool)
  /-- PACK (R280): Converts FP32 partials on their grid to INT64. -/
  | cePack (die : Nat) (ue2 : Bool)
  /-- ROUND (R280): Rounds INT64 sums on their grid to FP32 or BF16. -/
  | roundGrid (die : Nat) (ue2 : Bool)
  /-- RND96 (R280): Rounds 96-bit planar blocks to FP32. -/
  | rnd96 (die : Nat) (ue2 : Bool)
  /-- SEND (R281): Opens a send of cells from the buffer to the rank's carrier package. -/
  | ceSend (die : Nat)
  /-- RECV (R282): Opens a receive of cells from a rank into a buffer region. -/
  | ceRecv (die : Nat)
  /-- CE_ENDSEG (R278): Marks the collective engine's sync marker for its segment. -/
  | ceEndseg (die : Nat)
  /-- CE_ITEM (R276): At t_j a running collective descriptor handles its next item. -/
  | ceItem (die : Nat) (hits : List EccHit)
  /-- SEBER_TRANSMIT_SLOT (R284): An X program slot naming code 16 as source carries up to five payloads drawn round-robin from open sends with room. -/
  | seberTransmitSlot (die : Nat) (hits : List EccHit)
  /-- SEBER_DELIVERY_SLOT (R284): An X delivery slot takes the oldest buffered flit, or a null flit, and its payloads are combined into their receives. -/
  | seberDeliverySlot (die : Nat) (hits : List EccHit)
  /-- CE_ABORT_DONE (R296): The engine returns to IDLE once every handed payload is acknowledged or its sub-link has failed. -/
  | ceAbortDone (die : Nat)
  /-- RANK_TABLE_WRITE (R286): A write of CE_RANK_DATA sets the carrier and validity of a rank, only while not RUNNING or through a commit. -/
  | rankTableWrite (hoop page val : Nat)
  /-- CE_SCHED_WRITE (R298): A write of CE_SCHED_DATA writes a schedule word while STATE is EMPTY or LOADED. -/
  | ceSchedWrite (hoop page val : Nat)
  /-- CE_COUNTER_CLEAR (R298): A write of CE_CNT_CLR zeroes the collective counters. -/
  | ceCounterClear (hoop page val : Nat)
  /-- PKG_TIME_ARM (R305): A write of PKG_TIME_CTRL.ARM arms zeroing of package time at the next accepted EPOCH_IN edge. -/
  | pkgTimeArm (hoop val : Nat)
  /-- EPOCH_IN_EDGE (R306): An accepted EPOCH_IN edge zeroes an armed counter or stores OFFSET and checks it against TOL. -/
  | epochInEdge (tick : Nat)
  /-- EPOCH_STUCK (R546): EPOCH_IN held high for 10 ms sets STUCK, freezes the check and raises EPOCH_STUCK. -/
  | epochStuck
  /-- BORDER_ARRIVAL (R310): A die receives a border arrival cell and, once all members have arrived, forms T_r. -/
  | borderArrival (die pkg seq id tick : Nat)
  /-- BORDER_RELEASE (R311): The border barrier releases at the start of tick T_r, or at receipt of the last arrival if that is later, setting LATE. -/
  | borderRelease (die : Nat)
  /-- AUDIT_COLLECT (R320): Within 100 µs of L0 the active Hoop collects the latches, acknowledges them and sends an audit record. -/
  | auditCollect
  /-- DLAT_ACK (R328): A write of ST_DLAT_ACK clears FULL in ST0's latch. -/
  | dlatAck (hoop page val : Nat)
  /-- BREAKPOINT_RELEASE (R322): A write of 1 to PKG_BREAK_STAT.HIT clears HIT and EN in every die, and the package releases. -/
  | breakpointRelease (hoop val : Nat)
  /-- WALE_IDLE_FLIT (R336): A receiver takes an IDLE flit and decodes its sideband. -/
  | waleIdleFlit (page : Nat) (err : RxErr)
  /-- WALE_SIDE_FLIT (R336): A receiver takes a SIDE flit and passes it toward its leaving die. -/
  | waleSideFlit (page : Nat) (err : RxErr)
  /-- WALE_PROG_FLIT (R336): A receiver takes a PROG flit, corrects it under the main code and buffers it for release. -/
  | waleProgFlit (page : Nat) (err : RxErr)
  /-- WALE_NULL_FLIT (R336): A receiver takes a collective engine's NULL flit, which counts as a flit. -/
  | waleNullFlit (page : Nat) (err : RxErr)
  /-- WALE_EMPTY_FLIT (R336): A receiver takes an EMPTY flit, which counts as no flit. -/
  | waleEmptyFlit (page : Nat) (err : RxErr)
  /-- WALE_TRAIN_FLIT (R345): A flit of KIND TRAIN received in ALIVE or WIDTH sends the port end into TRAIN. -/
  | waleTrainFlit (page : Nat)
  /-- WALE_TOKEN_FLIT (R341): A TOKEN flit in WIDTH is compared with the local width token; 64 equal tokens give ALIVE. -/
  | waleTokenFlit (page n : Nat)
  /-- PROGRAM_FLIT_RELEASE (R340): A buffered program flit is released at enabled cycle c + 12, or c + 18 on X. -/
  | programFlitRelease (page : Nat)
  /-- RETRAIN (R341): A write of WL_CTRL.RETRAIN sends the port end into TRAIN. -/
  | retrain (hoop page val : Nat)
  /-- HOLD_REQ (R341): A write of WL_CTRL.HOLD_REQ sends the port end into HOLD. -/
  | holdReq (hoop page val : Nat)
  /-- TRAINING_PHASE_DONE (R342): A training phase completes and the next begins; after T5 the end enters WIDTH, or HOLD if the width cannot be repaired. -/
  | trainingPhaseDone (page : Nat) (found : List WireTest) (eyes : List Nat) (slack : Nat)
  /-- WALE_TRAIN_FAIL (R341): WL_TRAIN_TMO expires in TRAIN or WIDTH and the end enters HOLD. -/
  | waleTrainFail (page : Nat)
  /-- CLOCK_LOSS (R341): The forwarded clock lost for 0.5 µs in ALIVE or WIDTH sends the end into TRAIN. -/
  | clockLoss (page : Nat)
  /-- HOLD_PATTERN (R341): The HOLD pattern received for 1 µs sends the end into HOLD. -/
  | holdPattern (page : Nat)
  /-- REPAIR_WRITE (R353): A write of WL_REPAIR_DATA sets a repair entry in OFF, TRAIN or HOLD, or through a staged commit. -/
  | repairWrite (hoop page val : Nat)
  /-- WL_COUNTER_CLEAR (R353): A write of WL_CNT_CLR zeroes the port counters. -/
  | wlCounterClear (hoop page val : Nat)
  /-- PLANE_ENABLE (R356): A write of WF_PLANE_EN opens or closes fibre planes' transmit gates and parks or releases their lanes. -/
  | planeEnable (hoop page val : Nat)
  /-- INPUT_LIT (R363): A lane whose input is lit, for 100 µs when DARK, leaves PARKED or DARK for ACQUIRE. -/
  | inputLit (weft fib k dir since : Nat)
  /-- INPUT_DARK (R363): A lane whose input goes dark enters DARK and holds its heater code. -/
  | inputDark (weft fib k dir : Nat)
  /-- ACQUIRE_DONE (R363): An acquisition sweep finds a resonance and moves the lane to LOCKED or SLIP, or ends after 2 ms without one. -/
  | acquireDone (weft fib k dir : Nat) (found : Bool) (code peak pow : Nat)
  /-- ACQUIRE_RETRY (R363): A lane that found no resonance is swept again after 10 ms. -/
  | acquireRetry (weft fib k dir : Nat)
  /-- FIB_SLIP (R360): A write of WF_FIB_SLIP moves the block boundary of lanes in SLIP one bit later. -/
  | fibSlip (hoop page val : Nat)
  /-- BLOCK_LOCK (R360): 64 consecutive valid headers set SYNC_OK and move the lane to LOCKED. -/
  | blockLock (weft fib k : Nat)
  /-- LOCK_LOSS (R361): 16 invalid headers in 64 blocks clear SYNC_OK and send the lane into SLIP. -/
  | lockLoss (weft fib k bad : Nat)
  /-- WORD_ALIGN_ROUND (R362): Hoop firmware reads WF_FIB_SYNC and slips each lane still searching. -/
  | wordAlignRound (weft fib : Nat)
  /-- REACQ_TX (R364): A WF_FIB_REACQ.TX bit reacquires a transmit lane, refused while the lane carries cells. -/
  | reacqTx (hoop page val : Nat)
  /-- REACQ_RX (R364): A WF_FIB_REACQ.RX bit reacquires a receive lane in LOCKED or FROZEN. -/
  | reacqRx (hoop page val : Nat)
  /-- ADAPTATION_WINDOW_END (R365): At each 2^20-bit window end a lane checks mark density and steps its ring lock and threshold trim. -/
  | adaptationWindowEnd (weft fib k dir : Nat) (v : Window)
  /-- PLAUSIBILITY_CHECK (R367): A heater that moved more than STEP codes in 10 ms freezes the lane at its earlier code. -/
  | plausibilityCheck (weft fib k dir : Nat)
  /-- CAL_RECOMPUTE (R369): Firmware interpolates calibration values for a die whose sensors moved 1 °C and writes the shadow bank. -/
  | calRecompute (die : Nat)
  /-- CAL_COMMIT (R370): A write of WF_CAL_CTRL.COMMIT checks the shadow bank against its limits and arms the exchange or rejects it. -/
  | calCommit (hoop page val : Nat) (ecc : Option Bool)
  /-- CAL_BANK_EXCHANGE (R370): At the next frame boundary the shadow and active banks exchange. -/
  | calBankExchange (die : Nat)
  /-- RD_CAL_COMMIT (R370): A write of RD_CAL_CTRL.COMMIT checks and commits a Reed die's shadow bias and heater values. -/
  | rdCalCommit (hoop page val : Nat)
  /-- RECAL (R372): A write of RD_CAL_CTRL.RECAL has firmware measure each ON laser, set the bias for target output and commit. -/
  | recal (hoop page val : Nat)
  /-- LOOPBACK_IDENTITY (R374): A λ0 identity block is checked against the package ID and plane, setting or clearing LOOP_OK. -/
  | loopbackIdentity (weft fib word n : Nat)
  /-- LOOPBACK_TIMEOUT (R375): A plane without LOOP_OK 1 s after its λ0 laser turns ON is disabled. -/
  | loopbackTimeout (weft fib : Nat)
  /-- LASER_GROUP_START (R377): Every 5 ms the Reed die starts the next four lasers in WARM. -/
  | laserGroupStart (reed : Nat)
  /-- LASER_WARM_END (R377): A warm laser whose output has stayed within 5 % for 1 ms becomes ON, and a spare switches in. -/
  | laserWarmEnd (reed k out : Nat)
  /-- LASER_ON_WRITE (R376): A write of RD_L_CTRL.ON turns a laser on or off, dropped while LIGHT_OK is 0. -/
  | laserOnWrite (hoop page val : Nat)
  /-- ALL_OFF (R383): A write of RD_CTRL.ALL_OFF turns every laser of the die off or lets them follow their ON bits. -/
  | allOff (hoop page val : Nat)
  /-- RD_LASER_FAIL (R378): A laser below the failure threshold for 100 µs, or with an open or short driver, is turned off and reported not ON. -/
  | rdLaserFail (reed k since out : Nat) (driver : Bool)
  /-- RD_PWR_LOW (R378): Output below LOW_PCT for 10 ms raises RD_PWR_LOW. -/
  | rdPwrLow (reed k since out : Nat)
  /-- SPARE (R379): A write of RD_L_CTRL.SPARE starts sparing a working bank-A laser. -/
  | spare (hoop page val : Nat)
  /-- RD_SWITCH_FAIL (R383): A bank switch not reached within 1 ms treats the laser as failed. -/
  | rdSwitchFail (reed k : Nat)
  /-- FIB_COUNTER_CLEAR (R382): A write of WF_FIB_CNT_CLR zeroes the fibre counters. -/
  | fibCounterClear (hoop page val : Nat)
  /-- SEBER_ENABLE (R391): A write of SB_COM_CTRL.EN enables or disables every sub-link of the Weft die. -/
  | seberEnable (hoop page val : Nat)
  /-- SEBER_TRAIN_SEND (R391): In SEEK a sub-link sends TRAIN on every LOCKED lane every SB_SEEK_INT.MS. -/
  | seberTrainSend (weft sub : Nat)
  /-- TRAIN_CELL (R392): A received TRAIN is validated, answered, and moves SEEK to LOCKED or LOCKED and ALIVE back to SEEK. -/
  | trainCell (weft sub fib : Nat) (c : Cell)
  /-- IDLE_CELL (R391): An IDLE cell updates lane state; 64 good cells in LOCKED make the sub-link ALIVE. -/
  | idleCell (weft sub fib n : Nat) (c : Cell)
  /-- LOCKED_TIMEOUT (R391): 1 ms in LOCKED without 64 good cells returns the sub-link to SEEK. -/
  | lockedTimeout (weft sub : Nat)
  /-- DATA_CELL (R395): A received DATA cell is checked, kept in the window or discarded, and acknowledged cumulatively. -/
  | dataCell (weft sub fib : Nat) (c : Cell)
  /-- ACK_CELL (R399): A received ACK advances OLDEST and records which later cells are held. -/
  | ackCell (weft sub fib : Nat) (c : Cell)
  /-- NAK_CELL (R398): A received NAK starts retransmission of the named cells within 1 µs. -/
  | nakCell (weft sub fib : Nat) (c : Cell) (ues : List Nat) (ces : Nat)
  /-- CREDIT_CELL (R403): A received CREDIT cell updates the class credit limits. -/
  | creditCell (weft sub fib : Nat) (c : Cell)
  /-- LANESET_CELL (R407): A LANESET request or commit is served, answered with LSACK, or refused by COLLIDE. -/
  | lanesetCell (weft sub fib : Nat) (c : Cell)
  /-- LSACK_CELL (R407): An LSACK makes the new map the transmit map with the new epoch. -/
  | lsackCell (weft sub fib : Nat) (c : Cell)
  /-- COLLIDE_CELL (R408): A COLLIDE makes the higher-ID end abandon its change and raise SB_COLLIDE. -/
  | collideCell (weft sub fib : Nat) (c : Cell)
  /-- RELAY_CELL (R415): A RELAY cell is moved to the forward queue and resent as DATA from the same-pod Weft die. -/
  | relayCell (weft sub fib : Nat) (c : Cell)
  /-- DRAIN_CELL (R391): A received DRAIN sends the sub-link into DRAINING. -/
  | drainCell (weft sub fib : Nat) (c : Cell)
  /-- RESERVED_CELL (R388): A cell of reserved type is discarded and counted. -/
  | reservedCell (weft sub fib : Nat) (c : Cell)
  /-- CELL_TRANSMIT (R396): The sender places a new sequenced cell on the next map lane once window and credit allow. -/
  | cellTransmit (weft sub : Nat)
  /-- CELL_DELIVERY (R402): A held cell is delivered to the Osier die once ordering allows and releases its pool slot. -/
  | cellDelivery (weft sub cls n : Nat) (hits : List EccHit)
  /-- ACK_TIMEOUT (R399): A cell not acknowledged within SB_ACK_TMO is retransmitted with the later unheld cells. -/
  | ackTimeout (weft sub : Nat) (ues : List Nat) (ces : Nat)
  /-- PERIODIC_ACK (R399): A receiver holding out-of-order cells sends an ACK at least every 1 µs. -/
  | periodicAck (weft sub : Nat)
  /-- PERIODIC_CREDIT (R405): A CREDIT cell goes out on each sub-link at least every 10 µs. -/
  | periodicCredit (weft sub : Nat)
  /-- BULK_GRANT (R405): When 64 shared slots are free, the receiver grants Bulk credit round-robin to ALIVE sub-links below the cap. -/
  | bulkGrant (weft : Nat)
  /-- LANESET_REPEAT (R407): An unanswered request or commit is repeated every 2 µs and abandoned after 50 repeats. -/
  | lanesetRepeat (weft sub : Nat)
  /-- RETIREMENT_WINDOW_END (R412): At each retirement window end a lane's CRC failures are compared with the warning and retirement thresholds. -/
  | retirementWindowEnd (weft sub fib : Nat)
  /-- SB_LANE_RETURN (R413): A retired lane that has passed its clean test pattern is asked back into the map. -/
  | sbLaneReturn (weft sub fib : Nat)
  /-- SB_FAILED (R411): An empty map or unacknowledged OLDEST for SB_FAIL_TMO sends the sub-link into FAILED. -/
  | sbFailed (weft sub : Nat)
  /-- SB_DRAIN (R391): A write of SB_CTRL.DRAIN sends an ALIVE sub-link into DRAINING. -/
  | sbDrain (hoop page val : Nat)
  /-- DRAIN_COMPLETE (R391): With queue and replay empty and the peer's DRAIN acknowledged, the sub-link returns to DARK. -/
  | drainComplete (weft sub : Nat)
  /-- SB_DRAIN_TMO (R391): DRAINING not complete within SB_FAIL_TMO sends the sub-link into FAILED. -/
  | sbDrainTmo (weft sub : Nat)
  /-- SB_RESET (R391): A write of SB_CTRL.RESET returns the sub-link to DARK and discards its held cells. -/
  | sbReset (hoop page val : Nat)
  /-- SB_LANE_DROP (R409): A write of SB_LANE_CTRL.DROP drops the selected lane with REASON 3. -/
  | sbLaneDrop (hoop page val : Nat)
  /-- SB_LANE_RETURN_WRITE (R413): A write of SB_LANE_CTRL.RETURN lets a lane retired 8 times return. -/
  | sbLaneReturnWrite (hoop page val : Nat)
  /-- SB_COUNTER_CLEAR (R420): A write of SB_CNT_CLR or SB_COM_CNT_CLR zeroes the Seber counters. -/
  | sbCounterClear (hoop page val : Nat)
  /-- TWINE_WRITE_FRAME (R423): A die accepts a WRITE frame in SEQ order and applies the register write. -/
  | twineWriteFrame (f : TwFrame)
  /-- TWINE_READ_FRAME (R423): A die accepts a READ frame and returns READ_RESP. -/
  | twineReadFrame (f : TwFrame)
  /-- READ_RESP_FRAME (R423): A Hoop die takes read data and completes the pending BAR0 read. -/
  | readRespFrame (hoop : Nat)
  /-- FAULT_FRAME (R458): A Hoop die takes a fault record and writes it into its log. -/
  | faultFrame (hoop : Nat) (good flashOk : Bool)
  /-- SENSOR_FRAME (R491): A Hoop die takes sensor readings and Twine counters from a die. -/
  | sensorFrame (hoop die : Nat)
  /-- NOTICE_FRAME (R378): A die takes a NOTICE of another die's event, such as laser state or ALIGN_OK. -/
  | noticeFrame (die : Nat)
  /-- TWINE_GAP_SKIP (R423): A SEQ gap open for 4 µs is skipped, the held frames are accepted and TWINE_LOSS is raised. -/
  | twineGapSkip (src dst : Nat)
  /-- HOP_DOWN (R424): A die receiving no symbol on a hop for 1 µs marks the hop down. -/
  | hopDown (die hop : Nat)
  /-- LEASE_GRANT (R429): An accepted GRANT makes the Hoop ACTIVE with the new epoch, sets its lease timer and sends EPOCH_RAISE. -/
  | leaseGrant (hoop : Nat)
  /-- LEASE_RENEW (R429): An accepted RENEW resets the lease timer to 250 ms. -/
  | leaseRenew (hoop : Nat)
  /-- LEASE_STANDBY (R429): An accepted STANDBY command makes the Hoop STANDBY. -/
  | leaseStandby (hoop : Nat)
  /-- LEASE_EXPIRED (R430): The lease timer reaching zero in ACTIVE moves the die to FENCED and gates its transmitters. -/
  | leaseExpired (hoop : Nat)
  /-- RENEWAL_REQUEST (R431): Every 50 ms an ACTIVE Hoop requests renewal with its MSI-X vector. -/
  | renewalRequest (hoop : Nat)
  /-- TAKEOVER_DONE (R433): Once the live items are read after a grant, TAKEOVER_DONE is set and the vector is sent. -/
  | takeoverDone (hoop : Nat)
  /-- EPOCH_RAISE (R434): A die receives EPOCH_RAISE and raises PG_EPOCH of every page, closing open keys. -/
  | epochRaise (die : Nat)
  /-- OVERLAP_END (R435): 2 ms after promotion OVERLAP clears and the Hoop may drive the tree and send discards. -/
  | overlapEnd (hoop : Nat)
  /-- HEARTBEAT_SEND (R437): Each non-failed Hoop sends a HEARTBEAT frame every 10 ms. -/
  | heartbeatSend (hoop : Nat)
  /-- HEARTBEAT (R437): A Hoop receives the peer's heartbeat and records its role and epochs. -/
  | heartbeat (hoop : Nat)
  /-- HOOP_PEER_LOST (R437): Three missed heartbeats clear PEER_ALIVE. -/
  | hoopPeerLost (hoop : Nat)
  /-- SOLO_HOLDOFF (R439): HP0 starts the SOLO hold-off after 30 s without lease commands at either Hoop. -/
  | soloHoldoff
  /-- SOLO_ENTRY (R439): At the end of the 2 s hold-off HP0 takes a higher epoch, enters SOLO and sends EPOCH_RAISE. -/
  | soloEntry
  /-- WDOG_KICK (R440): A write of HP_WDOG.KICK restarts the watchdog. -/
  | wdogKick (hoop page val : Nat)
  /-- WDOG_EXPIRED (R440): A watchdog not kicked in time moves the die to FAILED and gates its transmitters. -/
  | wdogExpired (hoop : Nat)
  /-- HOOP_REBOOT_DONE (R440): A rebooted Hoop die enters STANDBY and sends its first heartbeat. -/
  | hoopRebootDone (hoop : Nat) (ok : Bool)
  /-- MIRROR_SEND (R441): The acting Hoop sends a mirror image after a change or once per second. -/
  | mirrorSend (hoop : Nat)
  /-- MIRROR_FRAME (R442): The standby writes 32 bytes of mirror into the bank, invalidating it on the first frame. -/
  | mirrorFrame (hoop : Nat) (good : Bool)
  /-- MIRROR_COMMIT (R442): The standby marks the bank valid if CRC, sequence and epoch pass, else raises MIRROR_ERR. -/
  | mirrorCommit (hoop : Nat) (good : Bool)
  /-- MIRROR_RESYNC (R446): A write of HP_MIR_CTRL.RESYNC has the acting Hoop send a full image now. -/
  | mirrorResync (hoop page val : Nat)
  /-- HP_COUNTER_CLEAR (R446): A write of HP_CNT_CLR zeroes the HP_TOP counters. -/
  | hpCounterClear (hoop page val : Nat)
  /-- REPEAT_RECORD (R448): FAULT_COAL.MS after the last record of a source with pending detections, a REPEAT record is built. -/
  | repeatRecord (page src : Nat)
  /-- CONTAIN_EXPIRY (R453): A CONTAIN timer ending isolates the page's block and sends an ESCALATED record. -/
  | containExpiry (page src : Nat)
  /-- HALT_EXPIRY (R455): A HALT timer ending sends a HALT NOTICE to every die. -/
  | haltExpiry (page src : Nat)
  /-- HALT_NOTICE (R455): A die acting on its first HALT NOTICE goes dark and into reset; Hoop dies return to Stage 1 and record FAULT_HALT. -/
  | haltNotice (die : Nat)
  /-- FAULT_ACK (R456): A write of FAULT_ACK.GO on the acting Hoop carries an acknowledgment to the page, or reports NOT_ACTING. -/
  | faultAck (hoop page val : Nat)
  /-- ACK_AT_PAGE (R457): The page judges the acknowledgment at its own tick: cancels the timer, or reports LATE, NO_TIMER or FENCED. -/
  | ackAtPage (hoop : Nat)
  /-- ACK_NO_ANSWER (R457): No page answer within 100 µs sets RESULT to NO_ANSWER. -/
  | ackNoAnswer (hoop : Nat)
  /-- FAULT_INT_CLEAR (R459): Clearing FAULT_INT.PEND sets it again and resends the vector if NEW is non-zero. -/
  | faultIntClear (hoop page val : Nat)
  /-- FAULT_PIN_CLEAR (R460): A write of FAULT_PIN.CLR zeroes OPEN. -/
  | faultPinClear (hoop page val : Nat)
  /-- FAULT_COAL_WRITE (R448): A write of FAULT_COAL.MS on the acting Hoop is copied to every die within 1 ms. -/
  | faultCoalWrite (hoop page val : Nat)
  /-- CRASH_LOG_CLEAR (R464): A write of FAULT_CRASH.CLR erases the flash crash log. -/
  | crashLogClear (hoop page val : Nat)
  /-- FAULT_COUNTER_CLEAR (R464): A write of FAULT_CNT_CLR zeroes FAULT_CNT. -/
  | faultCounterClear (hoop page val : Nat)
  /-- PERST (R466): PERST_N resets the Hoop die's PCIe core, DMA channels and Slew queues. -/
  | perst (hoop : Nat)
  /-- PCIE_WIN_WRITE (R468): A write of PCIE_WIN.BASE moves the BAR2 window for later requests. -/
  | pcieWinWrite (hoop page val : Nat)
  /-- CMD_DATA_WRITE (R472): A TLP to a command queue's DATA region appends words to its packing register. -/
  | cmdDataWrite (hoop q off' : Nat) (data : List Byte) (poi : Bool)
  /-- CMD_DATA_END_WRITE (R472): A TLP to the DATA_END region appends words and ends the packet. -/
  | cmdDataEndWrite (hoop q off' : Nat) (data : List Byte) (poi : Bool)
  /-- CMD_STATUS_READ (R472): An 8-byte read at a command queue's offset 0 returns free lines, OVERRUN, DROP and accepted packets. -/
  | cmdStatusRead (hoop q off' len : Nat)
  /-- EVENT_POP (R479): A POP returns the next line of the drain bank and frees it. -/
  | eventPop (hoop q off' len : Nat) (par : List Nat)
  /-- EVENT_PEEK (R479): A PEEK returns the next line without freeing it. -/
  | eventPeek (hoop q off' len : Nat) (par : List Nat)
  /-- CMD_QUEUE_READ (R480): The consumer reads the next command line through its internal port, advancing RD. -/
  | cmdQueueRead (hoop q : Nat) (par : List Nat)
  /-- BANK_SWAP (R471): When the drain bank has no unfreed line and the fill bank holds one, the banks swap. -/
  | bankSwap (hoop q : Nat)
  /-- EVENT_PACKET_OFFER (R477): The Hoop offers a whole packet to an event queue, refused if it does not fit in the fill bank. -/
  | eventPacketOffer (hoop q : Nat) (ws : List Nat) (now : Nat)
  /-- SLEW_PTR (R478): Pointer copies that differ reset the queue in the next cycle. -/
  | slewPtr (hoop q : Nat)
  /-- SQ_MARK (R480): A MARK sets the mark at the read pointer. -/
  | sqMark (hoop page val : Nat)
  /-- SQ_REWIND (R480): A REWIND sets the read pointer to the mark or the release pointer. -/
  | sqRewind (hoop page val : Nat)
  /-- SQ_RELEASE (R480): A RELEASE frees every line up to the read pointer. -/
  | sqRelease (hoop page val : Nat)
  /-- WM_HIT_CLEAR (R482): Clearing SQ_WM.HIT zeroes CNT and sets HIT again if LEVEL is still at the mark. -/
  | wmHitClear (hoop page val : Nat)
  /-- SQ_FLUSH (R483): A write of SQ_CTRL.FLUSH frees an event queue's lines and discards the rest of any packet in progress. -/
  | sqFlush (hoop page val : Nat)
  /-- FLUSH_TRUNC (R483): A flush not ended within SQ_FLUSH_TMO ends, sets TRUNC and enters DROP. -/
  | flushTrunc (hoop q : Nat)
  /-- SQ_RESET (R483): A write of SQ_CTRL.RESET resets a command queue as R478 without SLEW_PTR. -/
  | sqReset (hoop page val : Nat)
  /-- SQ_COUNTER_CLEAR (R488): A write of SQ_CNT_CLR zeroes the queue counters. -/
  | sqCounterClear (hoop page val : Nat)
  /-- DMA_DESCRIPTOR (R484): A DMA channel takes the next descriptor packet, marks and starts moving data, or ends it with FORMAT. -/
  | dmaDescriptor (hoop chan : Nat)
  /-- DMA_COMPLETE (R485): A finished descriptor is released, its events are added and its completion record is written. -/
  | dmaComplete (hoop chan : Nat) (data : List Byte) (poi : Bool) (err moved : Nat) (hits : List EccHit) (stk : Option Bool)
  /-- DMA_RESTART (R485): A PCIE_DMA_CTRL.RESTART bit restarts a stopped channel at its descriptor. -/
  | dmaRestart (hoop page val : Nat)
  /-- DMA_ENABLE (R485): A write of PCIE_DMA_CTRL.EN enables channels, and clearing a bit aborts its descriptor. -/
  | dmaEnable (hoop page val : Nat)
  /-- PTM_DIALOGUE (R465): Each PTM dialogue latches host time and PKG_TICK into PCIE_PTM. -/
  | ptmDialogue (hoop host : Nat)
  /-- HUABEL_NEXT_WRITE (R486): A write of PCIE_MODE.HUABEL_NEXT stores the mode in flash for the next RESET_N. -/
  | huabelNextWrite (hoop page val : Nat)
  /-- PCIE_COUNTER_CLEAR (R487): A write of PCIE_CNT_CLR zeroes the PCIe counters. -/
  | pcieCounterClear (hoop page val : Nat)
  /-- SENSOR_SAMPLE (R491): Each die samples its sensors at 1 ms or 50 µs and sends them to both Hoops. -/
  | sensorSample (die : Nat) (samples : List Sample)
  /-- TEMP_WARN (R494): A sensor at or above its warning threshold for 10 ms sets the warning notice. -/
  | tempWarn (die : Nat)
  /-- TEMP_WARN_CLEAR (R494): All sensors below warning minus 2 °C for 10 ms clear the notice. -/
  | tempWarnClear (die : Nat)
  /-- THROTTLE (R496): N_T below 64 for 10 ms raises THROTTLE. -/
  | throttle
  /-- SENSOR_FORCE_SET (R499): A write of TH_FORCE.SET marks a sensor substituted. -/
  | sensorForceSet (hoop page val : Nat)
  /-- SENSOR_FORCE_CLR (R499): A write of TH_FORCE.CLR returns a sensor to live if its failure criteria have not held for 1,000 samples. -/
  | sensorForceClr (hoop page val : Nat)
  /-- POWER_UPDATE (R500): At the end of each millisecond the acting Hoop averages P and updates N_P. -/
  | powerUpdate (watts : Nat) (badRail : Bool)
  /-- OVERCURRENT (R501): VDD_OS current above TH_OCP.A for 10 µs lowers N_P by 8. -/
  | overcurrent (die amps : Nat)
  /-- SAFE_CLEAR (R504): A write of TH_SAFE.CLR leaves SAFE if no cause remains. -/
  | safeClear (hoop page val : Nat)
  /-- DRIVER_LIMIT_WRITE (R195): A write of TH_DRV_LIMIT changes the driver's request to N. -/
  | driverLimitWrite (hoop page val : Nat)
  /-- THERMAL_TRIP (R506): The trip net going low stops and resets the non-Hoop dies, turns the lasers off and records TRIP. -/
  | thermalTrip (die comp : Nat)
  /-- BOARD_TRIP (R550): The board pulling THERMTRIP_N low trips the package with die 0x1F. -/
  | boardTrip
  /-- TRIP_RESTART (R507): When comparators re-arm, sensors are below restart for 1 s and 10 s have passed, the latch releases to Stage 1. -/
  | tripRestart (armed high : Bool)
  /-- AGE_LOG_RETRY (R509): Every 10 s held ageing-log records are retried. -/
  | ageLogRetry (hoop : Nat)
  /-- AGEING_SAMPLE (R510): Each power-on hour a Hoop reads every ageing monitor and appends it to its log. -/
  | ageingSample (hoop : Nat) (vals : List (Nat × Nat × Option Nat))
  /-- AGE_LOG_CLEAR (R513): A write of AGE_LOG.CLR erases the Hoop die's ageing log. -/
  | ageLogClear (hoop page val : Nat)
  /-- TH_COUNTER_CLEAR (R512): A write of TH_CNT_CLR zeroes TH_FAIL_CNT, PEAK and REFUSED. -/
  | thCounterClear (hoop page val : Nat)
  /-- STAGE_0_ENTRY (R514): Power good on every rail enters Stage 0 with trip comparators live. -/
  | stage0Entry
  /-- SECURE_BOOT (R527): The boot ROM verifies firmware image A, then B, or enters FAILED. -/
  | secureBoot (hoop : Nat) (a b : Nat × Bool × Nat) (selftest : Bool)
  /-- START_GO (R515): A write of PKG_START.GO releases the start or continues a held stage. -/
  | startGo (hoop val : Nat)
  /-- STAGE_2_ENTRY (R514): Compute dies leave reset, ALIGN is issued and links and HBM PHYs train. -/
  | stage2Entry
  /-- STAGE_3_ENTRY (R514): LIGHT_OK is set, lasers start and planes are enabled from the profile. -/
  | stage3Entry
  /-- STAGE_4_ENTRY (R514): Seber is enabled and READY is set. -/
  | stage4Entry
  /-- STAGE_LATE (R516): A stage not reached by its deadline sets its LATE bit. -/
  | stageLate (stage : Nat)
  /-- I3C_READ (R520): The I3C target answers a PLDM sensor read and releases ALERT_N. -/
  | i3cRead (sensor : Nat)
  /-- PROF_SEL_CHANGE (R523): A filtered change of PROF_SEL after sampling is reported. -/
  | profSelChange (level : Nat)
  /-- PROFILE_STAGING_LOAD (R536): A write of PR_CTRL.LOAD copies a stored profile into the staging buffer. -/
  | profileStagingLoad (hoop page val : Nat)
  /-- PROFILE_SAVE (R526): A write of PR_CTRL.SAVE checks the staging buffer and saves it in both Hoop dies' flash. -/
  | profileSave (hoop page val : Nat)
  /-- KEY_PROGRAM (R529): A write of SEC_KEY_CTRL.PROGRAM fuses SEC_KEYHASH into the selected slot. -/
  | keyProgram (hoop page val : Nat) (ok : Bool)
  /-- KEY_REVOKE (R529): A write of a SEC_KEY_CTRL.REVOKE bit revokes a key slot. -/
  | keyRevoke (hoop page val : Nat) (ok : Bool)
  /-- LIFECYCLE_REQUEST (R530): A write of SEC_LC.REQ moves the fused lifecycle forward, erasing secrets on RETURNED. -/
  | lifecycleRequest (hoop page val : Nat) (owner ok0 ok1 : Bool)
  /-- DEBUG_REQUEST (R531): A write of SEC_DBG.REQ lowers the level or starts a raise that needs the key or a signed response. -/
  | debugRequest (hoop page val : Nat)
  /-- DEBUG_RESPONSE (R531): The write of the last word of SEC_RESP submits a signed response, which raises the level or fails. -/
  | debugResponse (hoop page val : Nat) (good : Bool)
  /-- VENDOR_SCRUB_DONE (R532): The memory scrub for VENDOR entry or exit completes and the level change takes effect. -/
  | vendorScrubDone
  /-- JTAG_ACCESS (R533): A JTAG read or write of a block is allowed or refused by class, lifecycle and debug level. -/
  | jtagAccess (tgt : JtagAt) (wr : Option Nat)
  /-- JTAG_SKIP (R534): A write of SEC_JTAG.SKIP bypasses chosen segments of the JTAG chain. -/
  | jtagSkip (hoop page val : Nat)
  /-- RESET_ASSERT (R548): A filtered RESET_N assertion resets every die and turns the lasers off. -/
  | resetAssert
  /-- RESET_RELEASE (R548): The filtered release of RESET_N starts package time, samples PROF_SEL and begins the start. -/
  | resetRelease (unstable : Bool)
  /-- RAIL_FAULT (R544): A rail outside its DC band for 5 µs halts the package. -/
  | railFault (rail die : Nat)
  /-- REFCLK_LOSS (R544): REFCLK_SYS missing for 2 µs freezes package time and halts the package. -/
  | refclkLoss
  /-- AON_FAULT (R544): A fault on VDD_AON or VDD_HP resets the whole package without a record. -/
  | aonFault
  /-- EPOCH_OUT_PULSE (R547): At each positive multiple of 100,000,000 ticks EPOCH_OUT rises for 1,000 ticks. -/
  | epochOutPulse
  /-- HBM_PHY_TRAINED (R514): HBM PHY training, started at Stage 2 or by a soft reset of the MC page, completes and MC_STAT.TRAINED becomes 1. -/
  | hbmPhyTrained (die stack : Nat)
  /-- QUIET_WINDOW (R237): At a quiet window of the loaded image, a unit calibrates: the HBM PHYs of the booked pseudo-channels, and the sensor trims, which raise TRIM_REJECT if a trim lies outside its limit. -/
  | quietWindow (die : Nat) (pcs : List Nat) (len : Nat) (reject : Bool)
  /-- CA_PARITY_ERROR (R268): A stack reports a command or address parity error; the controller retries the command and raises MC_CA_PARITY. -/
  | caParityError (die stack : Nat)
  /-- LINK_LEFT_L0 (R487): The PCIe link leaves L0 without PERST_N, which updates PCIE_LINK and raises PCIE_LINK_DOWN. -/
  | linkLeftL0 (hoop speed width : Nat) (flit up : Bool)
  /-- AER_ERROR (R487): The endpoint detects an AER correctable or uncorrectable error, or an IDE integrity failure; it counts it and raises PCIE_CE, PCIE_UE or PCIE_IDE. -/
  | aerError (hoop kind : Nat)
  /-- VDD_AON_IN_BAND (R540): Once VDD_AON is within its band, each Osier die drives VID_OSd[4:0] from fuses and the always-on domains start. -/
  | vddAonInBand (codes : List Nat)
  /-- STUCK_CLEAR (R546): After EPOCH_IN has been stuck high, two low samples clear STUCK so that the next accepted edge resumes the check. -/
  | stuckClear
  /-- FIRMWARE_MEMORY_UE (R425): An uncorrectable error in a Hoop die's own firmware memory moves the die to FAILED and gates its transmitters. -/
  | firmwareMemoryUe (hoop : Nat)
  /-- PROFILE_SAVE_COMPLETE (R526): A profile save finishes in the flash of both Hoop dies; PR_CTRL.SAVE clears, and ERR is set with PROF_SAVE_ERR if one die did not complete it. -/
  | profileSaveComplete (ok0 ok1 : Bool)
  /-- DOE_MAILBOX (R528): The host sends an SPDM or IDE_KM request through the endpoint's DOE mailbox, and the Hoop answers with its certificates and signed measurements or exchanges IDE keys. -/
  | doeMailbox (hoop : Nat)
  deriving DecidableEq, Repr

end Sys2Proof
end

