-- ==== Sys2Proof/Decode.lean ====
section
/-! DEFINITION. The words of the package: the commands that a 256-bit bundle of a tile spells (R111-R120, R123, R127, R130, R134, R139, R144, R149-R151, R153).
The opcode table gives its rows no bits, so no word of the table spells a command. -/

namespace Sys2Proof

/-- The command that a word spells by the table's bits (log entry 61). -/
def decodeTableWord (_nbits _w : Nat) : Option Instr := none

/-! The slots of a bundle. Reserved bits are ignored (R117); memory errors that an access meets stand in no bundle. -/

/-- Bits `lo` to `lo + n - 1` of a slot. -/
def field (w lo n : Nat) : Nat := w / 2 ^ lo % 2 ^ n

/-- The SC slot (Tables 4-4 and 4-5). -/
def decodeSc (a : TileAt) (w : Nat) (last : Bool) : Option Instr :=
  let f := field w
  let t := Nat.testBit w
  match f 42 6 with
  | 0x01 => some (.sli a (f 37 5) (f 0 32) last)
  | 0x02 => some (.sadd a (f 37 5) (f 32 5) (f 0 5) last)
  | 0x03 => some (.saddi a (f 37 5) (f 32 5) (f 0 32) last)
  | 0x04 => some (.ssub a (f 37 5) (f 32 5) (f 0 5) last)
  | 0x05 => some (.smul a (f 37 5) (f 32 5) (f 0 5) last)
  | 0x06 => some (.smuli a (f 37 5) (f 32 5) (f 0 32) last)
  | 0x08 => some (.sand a (f 37 5) (f 32 5) (f 0 5) last)
  | 0x09 => some (.sandi a (f 37 5) (f 32 5) (f 0 32) last)
  | 0x0A => some (.sor a (f 37 5) (f 32 5) (f 0 5) last)
  | 0x0B => some (.sori a (f 37 5) (f 32 5) (f 0 32) last)
  | 0x0C => some (.sxor a (f 37 5) (f 32 5) (f 0 5) last)
  | 0x0D => some (.sxori a (f 37 5) (f 32 5) (f 0 32) last)
  | 0x10 => some (.sshl a (f 37 5) (f 32 5) (f 0 5) last)
  | 0x11 => some (.sshli a (f 37 5) (f 32 5) (f 0 32) last)
  | 0x12 => some (.sshr a (f 37 5) (f 32 5) (f 0 5) last)
  | 0x13 => some (.sshri a (f 37 5) (f 32 5) (f 0 32) last)
  | 0x14 => some (.ssra a (f 37 5) (f 32 5) (f 0 5) last)
  | 0x15 => some (.ssrai a (f 37 5) (f 32 5) (f 0 32) last)
  | 0x18 => some (.smin a (f 37 5) (f 32 5) (f 0 5) last)
  | 0x19 => some (.smax a (f 37 5) (f 32 5) (f 0 5) last)
  | 0x1A => some (.sslt a (f 37 5) (f 32 5) (f 0 5) last)
  | 0x1B => some (.ssltu a (f 37 5) (f 32 5) (f 0 5) last)
  | 0x20 => some (.ali a (f 37 5) (f 0 32) last)
  | 0x21 => some (.aaddi a (f 37 5) (f 32 5) (f 0 32) last)
  | 0x22 => some (.aadd a (f 37 5) (f 32 5) (f 0 5) last)
  | 0x23 => some (.amov a (f 37 5) (f 32 5) last)
  | 0x24 => some (.srda a (f 37 5) (f 32 5) last)
  | 0x28 => some (.loop a (f 16 13) (f 0 16) last)
  | 0x29 => some (.cset a (f 37 5) (f 32 5) last)
  | 0x2A => some (.srdc a (f 37 5) (f 32 5) last)
  | 0x30 => some (.pxkey a (f 32 5) (f 0 5) last)
  | 0x31 => some (.pxstep a (f 32 5) (f 0 5) last)
  | 0x32 => some (.pxinc a (f 0 32) last)
  | 0x33 => some (.scyc a (f 37 5) last)
  | 0x38 => some (.sync a (f 0 13) (f 13 8) (t 21) last)
  | 0x3F => some (.tileEnd a last)
  | _ => none

/-- The LS slot (Tables 4-7 and 4-8). -/
def decodeLs (a : TileAt) (w : Nat) (last : Bool) : Option Instr :=
  let f := field w
  let t := Nat.testBit w
  match f 42 6 with
  | 0x01 => some (.vld a (f 36 6) (f 32 4) (f 10 22) (f 6 4) (f 0 5) (t 5) [] last)
  | 0x02 => some (.vst a (f 36 6) (f 32 4) (f 10 22) (f 6 4) (f 0 5) (t 5) [] last)
  | 0x04 => some (.vldbc a (f 36 6) (f 32 4) (f 10 22) (f 6 4) (f 0 5) (t 5) [] last)
  | 0x08 => some (.sld a (f 36 6) (f 32 4) (f 10 22) (f 0 5) (t 5) [] last)
  | 0x09 => some (.sst a (f 36 6) (f 32 4) (f 10 22) (f 0 5) (t 5) [] last)
  | 0x0A => some (.sld2 a (f 36 6) (f 32 4) (f 10 22) (f 0 5) (t 5) [] last)
  | 0x0B => some (.sst2 a (f 36 6) (f 32 4) (f 10 22) (f 0 5) (t 5) [] last)
  | _ => none

/-- The VX slot (Tables 4-10 to 4-15, R149, R150). -/
def decodeVx (a : TileAt) (w : Nat) (last : Bool) : Option Instr :=
  let f := field w
  let t := Nat.testBit w
  match f 56 8 with
  | 0x01 => some (.vmov a (f 50 6) (f 44 6) (f 28 4) last)
  | 0x02 => some (.viadd a (f 50 6) (f 44 6) (f 38 6) (f 28 4) last)
  | 0x03 => some (.visub a (f 50 6) (f 44 6) (f 38 6) (f 28 4) last)
  | 0x04 => some (.vimul a (f 50 6) (f 44 6) (f 38 6) (f 28 4) last)
  | 0x05 => some (.vimin a (f 50 6) (f 44 6) (f 38 6) (f 28 4) last)
  | 0x06 => some (.vimax a (f 50 6) (f 44 6) (f 38 6) (f 28 4) last)
  | 0x08 => some (.vand a (f 50 6) (f 44 6) (f 38 6) (f 28 4) last)
  | 0x09 => some (.vor a (f 50 6) (f 44 6) (f 38 6) (f 28 4) last)
  | 0x0A => some (.vxor a (f 50 6) (f 44 6) (f 38 6) (f 28 4) last)
  | 0x0B => some (.vandn a (f 50 6) (f 44 6) (f 38 6) (f 28 4) last)
  | 0x0C => some (.vshl a (f 50 6) (f 44 6) (f 38 6) (f 28 4) last)
  | 0x0D => some (.vshr a (f 50 6) (f 44 6) (f 38 6) (f 28 4) last)
  | 0x0E => some (.vsra a (f 50 6) (f 44 6) (f 38 6) (f 28 4) last)
  | 0x10 => some (.vshli a (f 50 6) (f 44 6) (f 28 4) (f 0 13) last)
  | 0x11 => some (.vshri a (f 50 6) (f 44 6) (f 28 4) (f 0 13) last)
  | 0x12 => some (.vsrai a (f 50 6) (f 44 6) (f 28 4) (f 0 13) last)
  | 0x14 => some (.vsel a (f 50 6) (f 44 6) (f 38 6) (f 32 6) (f 28 4) last)
  | 0x15 => some (.vbcs a (f 50 6) (f 44 6) (f 28 4) last)
  | 0x16 => some (.vext a (f 50 6) (f 44 6) (f 0 13) (f 13 4) (t 17) last)
  | 0x17 => some (.vins a (f 50 6) (f 44 6) (f 0 13) (f 13 4) (t 17) last)
  | 0x18 => some (.vrot a (f 50 6) (f 44 6) (f 28 4) (f 0 13) last)
  | 0x19 => some (.vlane a (f 50 6) (f 28 4) last)
  | 0x1A => some (.vfabs a (f 50 6) (f 44 6) (f 28 4) last)
  | 0x1B => some (.vfneg a (f 50 6) (f 44 6) (f 28 4) last)
  | 0x20 => some (.vcmpf a (f 50 6) (f 44 6) (f 38 6) (f 28 4) (f 0 13) last)
  | 0x21 => some (.vcmpi a (f 50 6) (f 44 6) (f 38 6) (f 28 4) (f 0 13) last)
  | 0x24 => some (.mand a (f 50 6) (f 44 6) (f 38 6) (f 28 4) last)
  | 0x25 => some (.mor a (f 50 6) (f 44 6) (f 38 6) (f 28 4) last)
  | 0x26 => some (.mxor a (f 50 6) (f 44 6) (f 38 6) (f 28 4) last)
  | 0x27 => some (.mandn a (f 50 6) (f 44 6) (f 38 6) (f 28 4) last)
  | 0x28 => some (.mfromv a (f 50 6) (f 44 6) (f 28 4) last)
  | 0x29 => some (.mtov a (f 50 6) (f 44 6) (f 28 4) last)
  | 0x30 => some (.vfadd a (f 50 6) (f 44 6) (f 38 6) (f 28 4) (f 26 2) last)
  | 0x31 => some (.vfsub a (f 50 6) (f 44 6) (f 38 6) (f 28 4) (f 26 2) last)
  | 0x32 => some (.vfmul a (f 50 6) (f 44 6) (f 38 6) (f 28 4) (f 26 2) last)
  | 0x33 => some (.vffma a (f 50 6) (f 44 6) (f 38 6) (f 32 6) (f 28 4) (f 26 2) last)
  | 0x34 => some (.vfmax a (f 50 6) (f 44 6) (f 38 6) (f 28 4) last)
  | 0x35 => some (.vfmin a (f 50 6) (f 44 6) (f 38 6) (f 28 4) last)
  | 0x38 => some (.vbadd a (f 50 6) (f 44 6) (f 38 6) (f 28 4) (f 26 2) last)
  | 0x39 => some (.vbmul a (f 50 6) (f 44 6) (f 38 6) (f 28 4) (f 26 2) last)
  | 0x3A => some (.vbfma a (f 50 6) (f 44 6) (f 38 6) (f 32 6) (f 28 4) (f 26 2) last)
  | 0x40 => some (.vcvtn a (f 50 6) (f 44 6) (f 38 6) (f 32 6) (f 28 4) (f 26 2) (f 21 4) (f 18 3) (f 0 13) (f 13 4) (t 25) (t 17) last)
  | 0x41 => some (.vcvtw a (f 50 6) (f 44 6) (f 38 6) (f 28 4) (f 21 4) (f 18 3) (f 0 13) (f 13 4) (t 17) last)
  | 0x42 => some (.vcvti a (f 50 6) (f 44 6) (f 28 4) (f 26 2) (t 25) last)
  | 0x43 => some (.vcvtf a (f 50 6) (f 44 6) (f 28 4) (f 26 2) last)
  | 0x44 => some (.vmxs a (f 50 6) (f 44 6) (f 28 4) (f 21 4) (f 0 13) (f 13 4) (t 17) last)
  | 0x50 => some (.vexp2 a (f 50 6) (f 44 6) (f 28 4) last)
  | 0x51 => some (.vlog2 a (f 50 6) (f 44 6) (f 28 4) last)
  | 0x52 => some (.vrcp a (f 50 6) (f 44 6) (f 28 4) last)
  | 0x53 => some (.vrsqrt a (f 50 6) (f 44 6) (f 28 4) last)
  | 0x54 => some (.vsqrt a (f 50 6) (f 44 6) (f 28 4) last)
  | 0x55 => some (.vtanh a (f 50 6) (f 44 6) (f 28 4) last)
  | 0x56 => some (.vsint a (f 50 6) (f 44 6) (f 28 4) last)
  | 0x57 => some (.vcost a (f 50 6) (f 44 6) (f 28 4) last)
  | 0x58 => some (.vrand a (f 50 6) (f 44 6) (f 38 6) (f 28 4) last)
  | 0x60 => some (.vacr a (f 50 6) (f 28 4) (f 26 2) (f 0 13) (f 13 4) (t 17) [] last)
  | 0x61 => some (.vacrr a (f 50 6) (f 28 4) (f 18 3) (f 0 13) (f 13 4) (t 17) [] last)
  | 0x62 => some (.vacw a (f 44 6) (f 28 4) (f 0 13) (f 13 4) (t 17) last)
  | 0x63 => some (.vacwr a (f 44 6) (f 28 4) (f 18 3) (f 0 13) (f 13 4) (t 17) last)
  | _ => none

/-- The MX slot (Table 4-16). -/
def decodeMx (a : TileAt) (w : Nat) (last : Bool) : Option Instr :=
  let f := field w
  let t := Nat.testBit w
  match f 44 4 with
  | 0x1 => some (.mma a (f 40 4) (f 35 4) (f 22 12) (f 21 1) (f 16 4) (f 8 4) (t 39) (t 34) (t 20) (t 7) [] last)
  | 0x2 => some (.rload a (f 40 4) (f 21 1) (f 16 4) (f 8 4) (t 39) (t 7) [] last)
  | _ => none

/-- The NM slot (Table 4-9): it has no opcode, and each half stands alone (R134). -/
def decodeNm (a : TileAt) (w : Nat) : List (Bool → Instr) :=
  let f := field w
  (if w.testBit 39 then [fun last => .nmSend a (f 35 4) (f 33 2) (f 29 4) [] last] else []) ++
  (if w.testBit 19 then [fun last => .nmReceive a (f 15 4) (f 13 2) (f 8 4) (w.testBit 12) [] last] else [])

/-- The commands that a tile's bundle spells, in slot order, the last one marked (Tables 4-1 and 4-2). Reserved header bits make the bundle illegal as a
whole; enabled slots with an unassigned opcode, one bit a slot, stand in an EMPTY_BUNDLE beside the slots that execute (R114, R158). -/
def decodeBundle (a : TileAt) (w : Nat) : List Instr :=
  let hdr := field w 0 8
  if 32 ≤ hdr then [.emptyBundle a hdr 0 true]
  else
    let slots : List (Nat × (Bool → Option Instr)) :=
      [(0, decodeSc a (field w 8 48)), (1, decodeLs a (field w 56 48)), (3, decodeVx a (field w 144 64)), (4, decodeMx a (field w 208 48))]
    let on := slots.filter fun x => hdr.testBit x.1
    let bad := (on.filter fun x => (x.2 true).isNone).foldl (fun m x => m + 2 ^ x.1) 0
    let nm := if hdr.testBit 2 then decodeNm a (field w 104 40) else []
    let good (p : Nat → Bool) : List (Bool → Instr) := (on.filter fun x => p x.1 && (x.2 true).isSome).map fun x last => (x.2 last).getD (.emptyBundle a 0 0 last)
    let cs := good (fun i => decide (i < 2)) ++ nm ++ good (fun i => decide (2 < i))
    match cs.reverse with
    | [] => [.emptyBundle a 0 bad true]
    | c :: r => (if bad = 0 then [] else [.emptyBundle a 0 bad false]) ++ (r.reverse.map fun d => d false) ++ [c true]

end Sys2Proof
end

