-- ==== Sys2Proof/Config.lean ====
section
/-! DEFINITION. The free values: what the spec leaves open and the machine goes on with. Each is an opaque constant
applied to State's counter, so that nothing can be proved about its value. -/

namespace Sys2Proof.Config

/-- Word `i` of a value the spec does not state (a nonce, an unstated timing, contents left undefined). -/
opaque freeWord : Nat → BitVec 32

/-- A number the spec leaves open. -/
opaque freeNat : Nat → Nat

/-- The scale byte that an MMA takes from an offset past the end of its scale line (R156 gives none). -/
opaque scaleOver : Nat → BitVec 8

/-- The ID code of a die's JTAG segment (R533 names it and gives no value). -/
opaque idcode : Nat → Nat

/-- A calibration value in flash (Table 11-3): die, generation 0-3, set 0-4 (35, 50, 65, 80, 95 °C), item key. -/
opaque calSet : Nat → Nat → Nat → Nat → Nat

end Sys2Proof.Config
end

