-- ==== Sys2Proof/Machine/HostTypes.lean ====
section
/-! DEFINITION. The state of the host interface (15_host_interface.md) beside its registers. -/

namespace Sys2Proof.Machine

/-- A Slew line (R470, R475): seven payload words and the tag's fields. -/
structure SqLine where
  words : List Nat
  fin : Bool
  first : Bool
  poi : Bool
  vbytes : Nat
  resync : Bool
  pkt : Nat
  seq : Nat
  deriving DecidableEq, Repr

/-- A Slew queue (R470-R483). `fill` holds the fill bank's lines and `used` the ordinary lines it has taken, `trunc` whether its
reserved line is used; `drain` holds the drain bank's unfreed lines, `freed` how many it has freed; `rd` and `mark` count lines past the
release pointer. `reg` is the packing register; `inside` and `lines` tell the packet being written; `rest` what an offered packet
has yet to enter; `fresh` that no line has been written since the queue was reset. -/
structure Sq where
  fill : List SqLine := []
  used : Nat := 0
  trunc : Bool := false
  drain : List SqLine := []
  freed : Nat := 0
  bank : Nat := 1
  rd : Nat := 0
  mark : Option Nat := none
  reg : List Nat := []
  regPoi : Bool := false
  inside : Bool := false
  lines : Nat := 0
  rest : List Nat := []
  drop : Bool := false
  flushing : Option Nat := none
  resync : Bool := false
  pkt : Nat := 0
  seq : Nat := 0
  accepted : Nat := 0
  wmPrev : Nat := 0
  fresh : Bool := true
  deriving DecidableEq, Repr

/-- A DMA channel (R484, R485): the descriptor it runs, and whether it skips the rest of a malformed packet. -/
structure Dma where
  active : Option (List Nat) := none
  skip : Bool := false
  deriving DecidableEq, Repr

/-- An acknowledgment on its way to a page (R456): the Hoop, page, source, epoch and the tick it left. -/
structure Ack where
  hoop : Nat
  page : Nat
  src : Nat
  epoch : Nat
  tick : Nat
  deriving DecidableEq, Repr

/-- A write of a DMA channel into host memory (R485): Hoop, host address, bytes, whether the TLP is poisoned. -/
structure HostWr where
  hoop : Nat
  addr : Nat
  data : List Byte
  poi : Bool
  deriving DecidableEq, Repr

end Sys2Proof.Machine
end

