-- ==== Sys2Proof/Machine/Numerics.lean ====
section
/-! DEFINITION. The number formats, the roundings and the exact arithmetic of 05_number_formats.md, and the
transcendental functions and the Philox generator of 03_osier_tiles.md. Every value is an exact dyadic number
until the one rounding that the rule names. -/

namespace Sys2Proof.Machine

/-- A number as the arithmetic sees it: NaN, an infinity with its sign, or a finite `(-1)^s * m * 2^e` (R160). -/
inductive FV where
  | nan
  | inf (s : Bool)
  | fin (s : Bool) (m : Nat) (e : Int)
  deriving DecidableEq, Repr

/-- A floating-point encoding without its sign (Table 5-1): exponent bits, fraction bits, bias, the largest finite
code, whether it has infinities, and the canonical NaN code (R161) where it has one. -/
structure FFmt where
  eb : Nat
  fb : Nat
  bias : Nat
  maxCode : Nat
  hasInf : Bool
  nanCode : Option Nat
  deriving DecidableEq, Repr

def fp32 : FFmt := ⟨8, 23, 127, 0x7F7FFFFF, true, some 0x7FC00000⟩
def bf16 : FFmt := ⟨8, 7, 127, 0x7F7F, true, some 0x7FC0⟩
def fp16 : FFmt := ⟨5, 10, 15, 0x7BFF, true, some 0x7E00⟩
def e4m3 : FFmt := ⟨4, 3, 7, 0x7E, false, some 0x7F⟩
def e5m2 : FFmt := ⟨5, 2, 15, 0x7B, true, some 0x7F⟩
def e3m2 : FFmt := ⟨3, 2, 3, 0x1F, false, none⟩
def e2m3 : FFmt := ⟨2, 3, 1, 0x1F, false, none⟩
def e2m1 : FFmt := ⟨2, 1, 1, 0x7, false, none⟩

/-- The exponent of the smallest subnormal: the spacing at zero. -/
def FFmt.emin (f : FFmt) : Int := 1 - (f.bias : Int) - (f.fb : Int)

/-- The sign bit's weight. -/
def FFmt.signBit (f : FFmt) : Nat := 2 ^ (f.eb + f.fb)

/-- The value of a code (R160, Table 5-1). -/
def FFmt.decode (f : FFmt) (code : Nat) : FV :=
  let s := decide (code / f.signBit % 2 = 1)
  let c := code % f.signBit
  let ef := c / 2 ^ f.fb
  let fr := c % 2 ^ f.fb
  if c > f.maxCode then
    if f.hasInf && decide (fr = 0) then .inf s else .nan
  else if ef = 0 then .fin s fr f.emin
  else .fin s (fr + 2 ^ f.fb) (f.emin + ef - 1)

/-- `floor (log2 m)` of a non-zero magnitude `m * 2^e`: the E(x) of 05_number_formats.md. -/
def expOf (m : Nat) (e : Int) : Int := (Nat.log2 m : Int) + e

/-- The rounding modes of Table 4-10 and R167 (`stoch r` carries the lane's random word). -/
inductive Rnd where
  | rne
  | rtz
  | stoch (r : Nat)
  deriving DecidableEq, Repr

/-- Round `m * 2^e` to a multiple of `2^t` (R166, R167): the multiple's integer. The stochastic case takes
`F = floor (2^32 * d / u)`. -/
def roundTo (md : Rnd) (m : Nat) (e t : Int) : Nat :=
  if t ≤ e then m * 2 ^ (e - t).toNat
  else
    let k := (t - e).toNat
    let q := m / 2 ^ k
    let r := m % 2 ^ k
    match md with
    | .rtz => q
    | .rne => if 2 * r > 2 ^ k then q + 1 else if 2 * r = 2 ^ k then q + q % 2 else q
    | .stoch w => if w + 2 ^ 32 * r / 2 ^ k ≥ 2 ^ 32 then q + 1 else q

/-- The code of `m * 2^e` rounded to the format with an unbounded exponent range above: codes beyond
`maxCode` are overflows (R165). -/
def FFmt.roundCode (f : FFmt) (md : Rnd) (m : Nat) (e : Int) : Nat :=
  if m = 0 then 0
  else
    let t := max f.emin (expOf m e - f.fb)
    (t - f.emin).toNat * 2 ^ f.fb + roundTo md m e t

/-- The canonical NaN; a format without NaN encodes +0 (R168). -/
def FFmt.nan (f : FFmt) : Nat := f.nanCode.getD 0

/-- The code of infinity in a format that has one. -/
def FFmt.infCode (f : FFmt) : Nat := (2 ^ f.eb - 1) * 2 ^ f.fb

/-- Put a sign on a magnitude code. -/
def FFmt.signed (f : FFmt) (s : Bool) (c : Nat) : Nat := if s then f.signBit + c else c

/-- Round a value to an IEEE format under RND 0 or 1, with the overflow rules of IEEE 754 (R172, R185, R188). -/
def FFmt.encodeIeee (f : FFmt) (md : Rnd) : FV → Nat
  | .nan => f.nan
  | .inf s => f.signed s f.infCode
  | .fin s m e =>
    let c := f.roundCode md m e
    if c > f.maxCode then f.signed s (if md = .rtz then f.maxCode else f.infCode) else f.signed s c

/-- Narrowing conversion with Table 5-3's outcomes (R165, R168). -/
def FFmt.narrow (f : FFmt) (md : Rnd) (sat : Bool) : FV → Nat
  | .nan => f.nan
  | .inf s =>
    if f.nanCode.isNone then f.signed s f.maxCode
    else if sat then f.signed s f.maxCode
    else if f.hasInf then f.signed s f.infCode else f.nan
  | .fin s m e =>
    let c := f.roundCode md m e
    if c > f.maxCode then
      if f.nanCode.isNone || sat || decide (md = .rtz) then f.signed s f.maxCode
      else if f.hasInf then f.signed s f.infCode else f.nan
    else f.signed s c

/-- Multiply by `2^k` exactly. -/
def FV.scale (k : Int) : FV → FV
  | .fin s m e => .fin s m (e + k)
  | v => v

/-- The signed integer of a finite value in units of `2^t`, with `t` not above its exponent. -/
def intAt (s : Bool) (m : Nat) (e t : Int) : Int :=
  let v : Int := (m * 2 ^ (e - t).toNat : Nat)
  if s then -v else v

/-- The value of a signed integer in units of `2^t`; a zero is +0. -/
def ofInt (v t : Int) : FV := .fin (decide (v < 0)) v.natAbs t

def FV.neg : FV → FV
  | .nan => .nan
  | .inf s => .inf (!s)
  | .fin s m e => .fin (!s) m e

/-- Exact product, with IEEE 754's rules for infinities and signed zeros (R172). -/
def FV.mul : FV → FV → FV
  | .nan, _ => .nan
  | _, .nan => .nan
  | .inf s, .inf t => .inf (s != t)
  | .inf s, .fin t m _ => if m = 0 then .nan else .inf (s != t)
  | .fin s m _, .inf t => if m = 0 then .nan else .inf (s != t)
  | .fin s m e, .fin t n g => .fin (s != t) (m * n) (e + g)

/-- Exact sum: an exact zero is -0 only when both operands are -0 (IEEE 754, RND 0 and 1). -/
def FV.add : FV → FV → FV
  | .nan, _ => .nan
  | _, .nan => .nan
  | .inf s, .inf t => if s = t then .inf s else .nan
  | .inf s, .fin _ _ _ => .inf s
  | .fin _ _ _, .inf t => .inf t
  | .fin s m e, .fin t n g =>
    let lo := min e g
    let v := intAt s m e lo + intAt t n g lo
    if v = 0 then .fin (s && t && decide (m = 0) && decide (n = 0)) 0 0 else ofInt v lo

def FV.isNan : FV → Bool
  | .nan => true
  | _ => false

/-- `a < b` for values that are not NaN; the two zeros are equal (R142). -/
def FV.lt : FV → FV → Bool
  | .nan, _ => false
  | _, .nan => false
  | .inf s, .inf t => s && !t
  | .inf s, .fin _ _ _ => s
  | .fin _ _ _, .inf t => !t
  | .fin s m e, .fin t n g => decide (intAt s m e (min e g) < intAt t n g (min e g))

/-- Equality of values; NaN equals nothing, -0 equals +0 (R142). -/
def FV.eqv (a b : FV) : Bool := !a.isNan && !b.isNan && !a.lt b && !b.lt a

/-- FP32 operand of a lane. -/
def f32 (w : Word) : FV := fp32.decode w.toNat

/-- An FP32 result. -/
def toF32 (md : Rnd) (v : FV) : Word := BitVec.ofNat 32 (fp32.encodeIeee md v)

/-- RND 1 is toward zero, every other code to nearest even; RND 2 and 3 are judged illegal where they are. -/
def rndOf (r : Nat) : Rnd := if r = 1 then .rtz else .rne

/-- VFADD, VFSUB, VFMUL, VFFMA (R172). -/
def faddW (md : Rnd) (a b : Word) : Word := toF32 md ((f32 a).add (f32 b))
def fsubW (md : Rnd) (a b : Word) : Word := toF32 md ((f32 a).add (f32 b).neg)
def fmulW (md : Rnd) (a b : Word) : Word := toF32 md ((f32 a).mul (f32 b))
def ffmaW (md : Rnd) (a b c : Word) : Word := toF32 md (((f32 a).mul (f32 b)).add (f32 c))

/-- VFMAX and VFMIN (R143): -0 below +0, one NaN gives the other operand. -/
def fltTotal (a b : Word) : Bool :=
  (f32 a).lt (f32 b) || ((f32 a).eqv (f32 b) && a.msb && !b.msb)
def fmaxW (a b : Word) : Word :=
  if (f32 a).isNan then (if (f32 b).isNan then 0x7FC00000#32 else b)
  else if (f32 b).isNan then a
  else if fltTotal a b then b else a
def fminW (a b : Word) : Word :=
  if (f32 a).isNan then (if (f32 b).isNan then 0x7FC00000#32 else b)
  else if (f32 b).isNan then a
  else if fltTotal b a then b else a

/-- One BF16 half from an operation on values (R172). -/
def bfHalf (op : FV → FV → FV → FV) (md : Rnd) (a b c : Nat) : Nat :=
  bf16.encodeIeee md (op (bf16.decode a) (bf16.decode b) (bf16.decode c))

/-- A BF16 instruction computes both halves independently (R143). -/
def bfLane (op : FV → FV → FV → FV) (md : Rnd) (a b c : Word) : Word :=
  BitVec.ofNat 32 (bfHalf op md (a.toNat % 65536) (b.toNat % 65536) (c.toNat % 65536)
    + 65536 * bfHalf op md (a.toNat / 65536) (b.toNat / 65536) (c.toNat / 65536))

/-! Integer conversions (R170). -/

/-- The two's-complement value of a word. -/
def sInt (w : Word) : Int := w.toInt

/-- VCVTI: FP32 to INT32 under RND 0 or 1. -/
def cvtI (md : Rnd) (sat : Bool) (w : Word) : Word :=
  match f32 w with
  | .nan => 0#32
  | .inf s => if sat && !s then 0x7FFFFFFF#32 else 0x80000000#32
  | .fin s m e =>
    let q : Int := (roundTo md m e 0 : Nat)
    let v := if s then -q else q
    if v < -(2 ^ 31) || v > 2 ^ 31 - 1 then (if sat && !s then 0x7FFFFFFF#32 else 0x80000000#32)
    else BitVec.ofInt 32 v

/-- VCVTF: INT32 to FP32 under RND 0 or 1. -/
def cvtF (md : Rnd) (w : Word) : Word := toF32 md (ofInt (sInt w) 0)

/-- VCVTN to INT8 from an INT32 lane. -/
def cvtInt8 (sat : Bool) (w : Word) : Nat :=
  if sat then (BitVec.ofInt 8 (max (-128) (min 127 (sInt w)))).toNat else w.toNat % 256

/-! Transcendental functions (R99, R149): fixed point with 320 fraction bits, one rounding at the end. -/

/-- pi and ln 2 in units of 2^-320. -/
def piFix : Nat := 6710401180212168915155840974220003240804194089427148950727106424351713218671805380099500388914039
def ln2Fix : Nat := 1480553391661173448385607439722553250922680800745876974795605978609098082859138712941075737848984

def fixBits : Nat := 320
def fixOne : Int := 2 ^ fixBits

/-- Fixed-point product, rounded down. -/
def fixMul (a b : Int) : Int := a * b / fixOne

/-- `x * (1 + sum of terms)` where each term is the one before times `y / d k`: the Taylor series used below. -/
def taylor (y : Int) (d : Nat → Int) : Nat → Nat → Int → Int → Int
  | 0, _, _, acc => acc
  | n + 1, k, t, acc =>
    let t' := fixMul t y / d k
    taylor y d n (k + 1) t' (acc + t')

/-- e^y for |y| < 1. -/
def expFix (y : Int) : Int := taylor y (fun k => (k : Int)) 80 1 fixOne fixOne

/-- sin(z)/z as a series in z^2: 1 - z^2/6 + ... -/
def sincFix (z2 : Int) : Int := taylor (-z2) (fun k => ((2 * k) * (2 * k + 1) : Nat)) 60 1 fixOne fixOne

/-- cos z as a series in z^2. -/
def cosFix (z2 : Int) : Int := taylor (-z2) (fun k => ((2 * k - 1) * (2 * k) : Nat)) 60 1 fixOne fixOne

/-- sinh(z)/z and cosh z as series in z^2. -/
def sinhcFix (z2 : Int) : Int := taylor z2 (fun k => ((2 * k) * (2 * k + 1) : Nat)) 60 1 fixOne fixOne
def coshFix (z2 : Int) : Int := taylor z2 (fun k => ((2 * k - 1) * (2 * k) : Nat)) 60 1 fixOne fixOne

/-- 2 atanh(z)/z as the sum of 2 z^(2k)/(2k+1). -/
def atanhcFix (z2 : Int) : Nat → Nat → Int → Int → Int
  | 0, _, _, acc => acc
  | n + 1, k, p, acc =>
    let p' := fixMul p z2
    atanhcFix z2 n (k + 1) p' (acc + 2 * p' / (2 * (k : Int) + 1))

/-- A finite value in fixed point (truncated below 2^-320). -/
def toFix (s : Bool) (m : Nat) (e : Int) : Int :=
  let v : Int :=
    if 0 ≤ e + fixBits then ((m * 2 ^ (e + fixBits).toNat : Nat) : Int)
    else ((m / 2 ^ (-(e + fixBits)).toNat : Nat) : Int)
  if s then -v else v

/-- Round a TU result once to 24 bits with an unbounded exponent range, then apply R149's small and large rules. -/
def tuRound (s : Bool) (m : Nat) (e : Int) : Word :=
  if m = 0 then BitVec.ofNat 32 (fp32.signed s 0)
  else
    let t := expOf m e - 23
    let q := roundTo .rne m e t
    let x := expOf q t
    if x < -126 then BitVec.ofNat 32 (fp32.signed s 0)
    else if x > 127 then BitVec.ofNat 32 (fp32.signed s fp32.infCode)
    else BitVec.ofNat 32 (fp32.signed s (fp32.roundCode .rne q t))

/-- A fixed-point magnitude times `2^k`, rounded as a TU result. -/
def tuFix (s : Bool) (v k : Int) : Word := tuRound s v.natAbs (k - fixBits)

/-- The canonical NaN and the two infinities in FP32. -/
def nan32 : Word := 0x7FC00000#32
def inf32 : Word := 0x7F800000#32
def ninf32 : Word := 0xFF800000#32

/-- The TU reads a subnormal input as a zero of its sign (R149). -/
def tuIn (w : Word) : FV :=
  match f32 w with
  | .fin s m e => if m < 2 ^ 23 then .fin s 0 0 else .fin s m e
  | v => v

/-- 2^x. -/
def exp2Fin (s : Bool) (m : Nat) (e : Int) : Word :=
  if m = 0 then 0x3F800000#32
  else if expOf m e ≥ 9 then (if s then 0#32 else inf32)
  else
    let x := toFix s m e
    let n := (x + fixOne / 2) / fixOne
    let f := x - n * fixOne
    tuFix false (expFix (fixMul f ln2Fix)) n

def tuExp2 (w : Word) : Word :=
  match tuIn w with
  | .nan => nan32
  | .inf s => if s then 0#32 else inf32
  | .fin s m e => exp2Fin s m e

/-- log2 of a positive value: `k` plus log2 of a mantissa near 1. -/
def log2Fin (m : Nat) (e : Int) : Word :=
  let x := expOf m e
  -- c = m / 2^(log2 m), halved when above 3/2, so that c lies in (3/4, 3/2]
  let l := Nat.log2 m
  let big := decide (2 * m > 3 * 2 ^ l)
  let k := if big then x + 1 else x
  let denN : Nat := if big then 2 ^ (l + 1) else 2 ^ l
  let den : Int := (denN : Int)
  let num : Int := (m : Int)
  let z := (num - den) * fixOne / (num + den)
  let a := fixMul z (atanhcFix (fixMul z z) 120 1 fixOne (2 * fixOne))
  let v := k * fixOne + a * fixOne / ln2Fix
  tuFix (decide (v < 0)) v 0

def tuLog2 (w : Word) : Word :=
  match tuIn w with
  | .nan => nan32
  | .inf s => if s then nan32 else inf32
  | .fin s m e => if m = 0 then ninf32 else if s then nan32 else log2Fin m e

/-- 1/x: the quotient carried far enough to round exactly (an inexact quotient never lies on a tie). -/
def tuRcp (w : Word) : Word :=
  match tuIn w with
  | .nan => nan32
  | .inf s => BitVec.ofNat 32 (fp32.signed s 0)
  | .fin s m e =>
    if m = 0 then (if s then ninf32 else inf32)
    else
      let q := 2 ^ 100 / m
      let q' := if 2 ^ 100 % m = 0 then 2 * q else 2 * q + 1
      tuRound s q' (-101 - e)

/-- The integer square root of `v`, bit by bit from bit `n - 1` down. -/
def isqrt (v : Nat) : Nat → Nat → Nat
  | 0, r => r
  | n + 1, r => isqrt v n (if (r + 2 ^ n) * (r + 2 ^ n) ≤ v then r + 2 ^ n else r)

/-- The square root of `m * 2^e` with a sticky last bit. -/
def sqrtDy (m : Nat) (e : Int) : Nat × Int :=
  let sh : Nat := if e % 2 = 0 then 100 else 101
  let v := m * 2 ^ sh
  let r := isqrt v 160 0
  (if r * r = v then 2 * r else 2 * r + 1, (e - sh) / 2 - 1)

def tuSqrt (w : Word) : Word :=
  match tuIn w with
  | .nan => nan32
  | .inf s => if s then nan32 else inf32
  | .fin s m e =>
    if m = 0 then BitVec.ofNat 32 (fp32.signed s 0)
    else if s then nan32
    else let r := sqrtDy m e; tuRound false r.1 r.2

/-- 1/sqrt x as sqrt of 2^200/m, with a sticky bit for the division. -/
def tuRsqrt (w : Word) : Word :=
  match tuIn w with
  | .nan => nan32
  | .inf s => if s then nan32 else 0#32
  | .fin s m e =>
    if m = 0 then (if s then ninf32 else inf32)
    else if s then nan32
    else
      let q := 2 ^ 200 / m
      let q' := if 2 ^ 200 % m = 0 then 2 * q else 2 * q + 1
      let r := sqrtDy q' (-201 - e)
      tuRound false r.1 r.2

/-- tanh x. -/
def tanhFin (s : Bool) (m : Nat) (e : Int) : Word :=
  if m = 0 then BitVec.ofNat 32 (fp32.signed s 0)
  else if expOf m e < 0 then
    -- x * (sinh(x)/x) / cosh x, relative to x
    let z := toFix false m e
    let z2 := fixMul z z
    let g := sinhcFix z2 * fixOne / coshFix z2
    tuRound s (m * g.natAbs) (e - fixBits)
  else if expOf m e ≥ 5 then BitVec.ofNat 32 (fp32.signed s 0x3F800000)
  else
    -- (1 - q) / (1 + q), q = e^(-2x) = 2^(-2x/ln 2)
    let y := -(2 * toFix false m e) * fixOne / ln2Fix
    let n : Int := (y + fixOne / 2) / fixOne
    let f := y - n * fixOne
    let q := expFix (fixMul f ln2Fix) / (2 ^ (-n).toNat : Nat)
    tuFix s ((fixOne - q) * fixOne / (fixOne + q)) 0

def tuTanh (w : Word) : Word :=
  match tuIn w with
  | .nan => nan32
  | .inf s => BitVec.ofNat 32 (fp32.signed s 0x3F800000)
  | .fin s m e => tanhFin s m e

/-- Reduce a magnitude in turns to quarter turns: quadrant 0-3 and the exact remainder `n * 2^e` with value in
`[-1/8, 1/8]` of a turn. Arguments whose exponent is at least 0 are whole turns. -/
def quarter (m : Nat) (e : Int) : Nat × Int :=
  if e ≥ -2 then ((m * 2 ^ (e + 2).toNat) % 4, 0)
  else
    let u : Nat := 2 ^ (-2 - e).toNat
    let q := (2 * m + u) / (2 * u)
    (q % 4, (m : Int) - (q * u : Nat))

/-- sin(2 pi r) for a remainder `r = n * 2^e`, relative to r. -/
def sinRem (s : Bool) (n e : Int) : Word :=
  let z := fixMul (2 * piFix) (toFix (decide (n < 0)) n.natAbs e)
  let g := fixMul (sincFix (fixMul z z)) (2 * piFix)
  tuRound (s != decide (n < 0)) (n.natAbs * g.natAbs) (e - fixBits)

/-- cos(2 pi r) for a remainder. -/
def cosRem (s : Bool) (n e : Int) : Word :=
  let z := fixMul (2 * piFix) (toFix (decide (n < 0)) n.natAbs e)
  tuFix s (cosFix (fixMul z z)) 0

/-- A zero SINT result carries the sign of x (03_osier_tiles.md, Table 3-11). -/
def tuSint (w : Word) : Word :=
  match tuIn w with
  | .nan => nan32
  | .inf _ => nan32
  | .fin s m e =>
    if m = 0 then BitVec.ofNat 32 (fp32.signed s 0)
    else
      let r := quarter m e
      if r.1 % 2 = 0 && decide (r.2 = 0) then BitVec.ofNat 32 (fp32.signed s 0)
      else if r.1 = 0 then sinRem s r.2 e
      else if r.1 = 1 then cosRem s r.2 e
      else if r.1 = 2 then sinRem (!s) r.2 e
      else cosRem (!s) r.2 e

/-- A zero COST result is +0. -/
def tuCost (w : Word) : Word :=
  match tuIn w with
  | .nan => nan32
  | .inf _ => nan32
  | .fin _ m e =>
    if m = 0 then 0x3F800000#32
    else
      let r := quarter m e
      if r.1 % 2 = 1 && decide (r.2 = 0) then 0#32
      else if r.1 = 0 then cosRem false r.2 e
      else if r.1 = 1 then sinRem true r.2 e
      else if r.1 = 2 then cosRem true r.2 e
      else sinRem false r.2 e

/-! The Philox generator (R100). -/

/-- The four words of a Philox block. -/
structure Px4 where
  w0 : Word
  w1 : Word
  w2 : Word
  w3 : Word
  deriving DecidableEq, Repr

/-- The high 32 bits of a product. -/
def mulHi (a b : Word) : Word := BitVec.ofNat 32 (a.toNat * b.toNat / 2 ^ 32)

/-- One round of Philox-4x32. -/
def philoxRound (c : Px4) (k0 k1 : Word) : Px4 :=
  ⟨mulHi 0xCD9E8D57#32 c.w2 ^^^ c.w1 ^^^ k0, 0xCD9E8D57#32 * c.w2,
   mulHi 0xD2511F53#32 c.w0 ^^^ c.w3 ^^^ k1, 0xD2511F53#32 * c.w0⟩

/-- `n` rounds with the key increments. -/
def philoxN : Nat → Px4 → Word → Word → Px4
  | 0, c, _, _ => c
  | n + 1, c, k0, k1 => philoxN n (philoxRound c k0 k1) (k0 + 0x9E3779B9#32) (k1 + 0xBB67AE85#32)

/-- philox4x32_10. -/
def philox (c : Px4) (k0 k1 : Word) : Px4 := philoxN 10 c k0 k1

/-- Word `i` of a block. -/
def Px4.word (p : Px4) (i : Nat) : Word :=
  if i % 4 = 0 then p.w0 else if i % 4 = 1 then p.w1 else if i % 4 = 2 then p.w2 else p.w3

/-- The random word of element `e` of tensor `t` (R100, R173). -/
def pxWord (key step : BitVec 64) (t e : Word) : Word :=
  (philox ⟨BitVec.ofNat 32 (e.toNat / 4), t, step.truncate 32, (step >>> 32).truncate 32⟩
    (key.truncate 32) ((key >>> 32).truncate 32)).word (e.toNat % 4)

end Sys2Proof.Machine
end

