-- ==== Sys2Proof/Machine/Sparse.lean ====
section
/-! DEFINITION. Reading and writing a sparse map in its one canonical form: keys strictly rising and no entry
equal to what an unlisted key reads as, so that equal maps are equal data. -/

namespace Sys2Proof.Machine

variable {α : Type}

/-- The value at key `k`; an unlisted key reads as `d k`. -/
def look (d : Nat → α) : Sparse α → Nat → α
  | [], k => d k
  | (a, v) :: r, k => if k = a then v else if k < a then d k else look d r k

/-- Put `v` at `k`, keeping the canonical form: writing the default removes the entry. -/
def put [DecidableEq α] (d : Nat → α) : Sparse α → Nat → α → Sparse α
  | [], k, v => if v = d k then [] else [(k, v)]
  | (a, w) :: r, k, v =>
    if k = a then (if v = d k then r else (k, v) :: r)
    else if k < a then (if v = d k then (a, w) :: r else (k, v) :: (a, w) :: r)
    else (a, w) :: put d r k v

/-- Keys strictly rising from `lo` on, no entry at its default. -/
def wfFrom [DecidableEq α] (d : Nat → α) : Nat → Sparse α → Bool
  | _, [] => true
  | lo, (a, v) :: r => decide (lo ≤ a) && decide (v ≠ d a) && wfFrom d (a + 1) r

/-- The canonical form. -/
def swf [DecidableEq α] (d : Nat → α) (m : Sparse α) : Bool := wfFrom d 0 m

/-- Forget every entry whose key lies in `[lo, hi)`: those keys read as their default again. -/
def forget (m : Sparse α) (lo hi : Nat) : Sparse α :=
  m.filter fun e => !(decide (lo ≤ e.1) && decide (e.1 < hi))

/-- Forget every entry whose key satisfies `f`. -/
def forgetIf (m : Sparse α) (f : Nat → Bool) : Sparse α := m.filter fun e => !f e.1

/-- The entries whose key lies in `[lo, hi)`. -/
def slice (m : Sparse α) (lo hi : Nat) : Sparse α :=
  m.filter fun e => decide (lo ≤ e.1) && decide (e.1 < hi)

/-- A byte memory nothing has written reads 0 (DESIGN CHOICE, unsafe: log entry 5). -/
def zeroByte : Nat → Byte := fun _ => 0#8

/-- The byte at address `a`. -/
def getByte (m : Sparse Byte) (a : Nat) : Byte := look zeroByte m a

/-- Put one byte. -/
def setByte (m : Sparse Byte) (a : Nat) (b : Byte) : Sparse Byte := put zeroByte m a b

/-- `n` bytes from `a`, little-endian, as a number. -/
def getBytes (m : Sparse Byte) (a : Nat) : Nat → Nat
  | 0 => 0
  | n + 1 => (getByte m a).toNat + 256 * getBytes m (a + 1) n

/-- Write the low `n` bytes of `v` from `a`, little-endian. -/
def setBytes (m : Sparse Byte) (a : Nat) : Nat → Nat → Sparse Byte
  | 0, _ => m
  | n + 1, v => setBytes (setByte m a (BitVec.ofNat 8 v)) (a + 1) n (v / 256)

/-- `n` bytes from `a` as a list. -/
def bytesAt (m : Sparse Byte) (a n : Nat) : List Byte := (List.range n).map fun i => getByte m (a + i)

/-- Write a list of bytes from `a`. -/
def putBytes (m : Sparse Byte) (a : Nat) : List Byte → Sparse Byte
  | [] => m
  | b :: r => putBytes (setByte m a b) (a + 1) r

end Sys2Proof.Machine
end

