-- ==== Sys2Proof/Machine/TileTypes.lean ====
section
/-! DEFINITION. The state of one Osier tile (03_osier_tiles.md, 04_tile_isa.md): its register files, memories,
results that have issued and not landed, and the accesses of the coming cycles. -/

namespace Sys2Proof.Machine

/-- The states of Table 3-3. -/
inductive TileSt where
  | idle | run | held | off
  deriving DecidableEq, Repr

/-- A vector lane or a scalar: 32 bits and a poison bit (Table 3-4). -/
structure Cellw where
  val : Word
  poi : Bool
  deriving DecidableEq, Repr

/-- A write to some bits of one vector lane (R78). -/
structure LaneW where
  lane : Nat
  bits : Word
  val : Word
  poi : Bool
  deriving DecidableEq, Repr

/-- A write to one 32-byte line of tile memory: bytes by offset, and whether any comes from a poisoned source (R133). -/
structure LineW where
  line : Nat
  bytes : List (Nat × Byte)
  poi : Bool
  deriving DecidableEq, Repr

/-- An accumulator entry (R92, R178): 96 bits of which open weave uses the low 32, the grid tag and poison. -/
structure AccE where
  n : BitVec 96
  tag : Nat
  poi : Bool
  deriving DecidableEq, Repr

/-- A raw word held for a later tag write (R95). -/
structure RawW where
  val : Word
  poi : Bool
  deriving DecidableEq, Repr

/-- An open counted loop (R123); `iter` is the hardware's own iteration count (R126). -/
structure LoopE where
  start : Nat
  last : Nat
  trip : Nat
  iter : Nat
  deriving DecidableEq, Repr

/-- A result on its way to a register or memory (R75). -/
inductive Res where
  | vec (r : Nat) (ws : List LaneW)
  | mask (r : Nat) (which val : BitVec 128)
  | scal (r : Nat) (v : Word) (p : Bool)
  | addr (r : Nat) (v : BitVec 22)
  | loopc (c : Nat) (v : BitVec 16) (hw : Bool)
  | pxKey (v : BitVec 64)
  | pxStep (v : BitVec 64)
  | mem (ws : List LineW)
  deriving DecidableEq, Repr

/-- A result, the cycle in which it lands and its slot in the order MX 0, VX 1, NM 2, LS 3, SC 4 (R77). -/
structure Pend where
  due : Nat
  slot : Nat
  res : Res
  deriving DecidableEq, Repr

/-- An MMA between its operand cycle and its row update (R90): the exact operands, the row, the weave and the memory errors the row meets. -/
structure MmaOp where
  due : Nat
  row : Nat
  ovw : Bool
  int8 : Bool
  close : Bool
  kdim : Nat
  a : List FV
  b : List (List FV)
  es : Option Int
  ec : List (Option Int)
  poi : Bool
  hits : List EccHit
  deriving DecidableEq, Repr

/-- An access of a coming cycle: to tile memory (Table 3-7) or to accumulator memory (R94). -/
inductive Access where
  | vld (r a : Nat) (m : BitVec 128)
  | vldbc (r a : Nat) (m : BitVec 128)
  | sld (r a : Nat)
  | sld2 (r a : Nat)
  | store (ws : List LineW)
  | nmSend (a n : Nat)
  | nmRecv (a n : Nat) (rimem : Bool)
  | rchunk (buf a off : Nat)
  | rscale (buf a len : Nat)
  | mma (a : Nat) (sa : Option Nat) (soff row buf sfmt rfmt : Nat) (ovw close : Bool)
  | vacr (r row : Nat) (m : BitVec 128) (lat : Nat) (md : Rnd) (close : Bool)
  | vacrr (r row part : Nat) (m : BitVec 128)
  | vacw (row : Nat) (ws : List LaneW)
  | vacwr (row part : Nat) (ws : List LaneW)
  deriving DecidableEq, Repr

/-- An access with its cycle, its issuing slot and the memory errors it meets. -/
structure AccessAt where
  cyc : Nat
  slot : Nat
  acc : Access
  hits : List EccHit
  deriving DecidableEq, Repr

/-- A resident buffer (R87): 8 KiB of elements and 512 bytes of scales, the format recorded at issue, whether it was
loaded since the tile left IDLE (R157), and the poison of Table 3-12. -/
structure ResBuf where
  data : Sparse Byte
  scales : Sparse Byte
  fmt : Nat
  loaded : Bool
  poi : Bool
  deriving DecidableEq, Repr

def ResBuf.empty : ResBuf := ⟨[], [], 0, false, false⟩

/-- What a tile reports to its row: events of sources 6 to 11, memory errors, poisoned
lines, a flit sent, a receive that found none, a flit that met no receive. -/
inductive TEv where
  | conflict (src cyc : Nat)
  | ecc (mem : Nat) (ue : Bool) (line : Nat)
  | poisonLine
  | flitOut (cyc : Nat) (f : Flit)
  | recvEmpty
  | flitLost
  deriving DecidableEq, Repr

/-- A pending sync point or program end (R127, R129). -/
structure HaltReq where
  isEnd : Bool
  entry : Nat
  id : Nat
  keep : Bool
  deriving DecidableEq, Repr

/-- One tile. -/
structure Tile where
  st : TileSt := .off
  v : Sparse Cellw := []
  mr : Sparse (BitVec 128) := []
  s : Sparse Cellw := []
  a : Sparse (BitVec 22) := []
  c : Sparse (BitVec 16) := []
  pxKey : BitVec 64 := 0
  pxStep : BitVec 64 := 0
  pc : Nat := 0
  lastPc : Nat := 0
  loops : List LoopE := []
  taint : Bool := false
  clk : Nat := 0
  next : Nat := 0
  runBase : Nat := 0
  cur : Nat := 0
  skip : Option Nat := none
  halt : Option HaltReq := none
  heldId : Nat := 0
  mem : Sparse Byte := []
  memPoi : Sparse Bool := []
  acc : Sparse AccE := []
  accClose : Bool := false
  accHold : List (Nat × Nat × List AccE) := []
  raw : Sparse RawW := []
  imem : Sparse (BitVec 256) := []
  imemValid : Nat := 0xFFFFFFFF
  imemWritten : Sparse Bool := []
  buf0 : ResBuf := ResBuf.empty
  buf1 : ResBuf := ResBuf.empty
  scaleLine : List Byte := []
  scalePoi : List Bool := []
  pend : List Pend := []
  accs : List AccessAt := []
  mmas : List MmaOp := []
  tuFree : Nat := 0
  rlFree : Nat := 0
  mmaFree : Nat := 0
  flitIn : List (Nat × Flit) := []
  zeroing : Bool := false
  evs : List TEv := []
  deriving DecidableEq, Repr

/-- A tile after RESET_N (R110): OFF. Registers and memories read 0, which the spec leaves undefined (DESIGN CHOICE,
log entry 5); every instruction block reads VALID (Table 3-14). -/
def Tile.reset : Tile := {}

end Sys2Proof.Machine
end

