-- ==== Sys2Proof/Machine/DieTypes.lean ====
section
/-! DEFINITION. The package's clock and the static schedule of one Osier die (06_static_schedule.md): tables, phase,
readiness and arrival, notices, and the flits of the Rand mesh. -/

namespace Sys2Proof.Machine

/-- Time. `slots` CCLK cycles have passed; `tick` is wall time in 10 ns ticks since the release of RESET_N and `sub`
the CCLK cycles of the present tick; `frame` and `j` place the cycle in its frame (R191), `n` is the cadence in force
(R192) and `cc` the enabled cycles since ALIGN (R193). `base` is the tick at which package time was zero (R305);
`frozen` holds package time while REFCLK_SYS is missing (R544). -/
structure Clock where
  tick : Nat := 0
  sub : Nat := 0
  frame : Nat := 0
  j : Nat := 0
  n : Nat := 64
  cc : Nat := 0
  base : Nat := 0
  frozen : Option Nat := none
  deriving DecidableEq, Repr

/-- A flit at a router's input in a cycle: inputs 0 N, 1 E, 2 S, 3 W, 4 T (R199, R200); one that an edge
endpoint offers says whether the collective engine does (R206). -/
structure MeshFlit where
  die : Nat
  node : Nat
  port : Nat
  cyc : Nat
  flit : Flit
  ce : Option Bool := none
  deriving DecidableEq, Repr

/-- A flit at an edge endpoint: edge port (Table 6-6), whether the collective engine is selected, the cycle. -/
structure EdgeFlit where
  die : Nat
  edge : Nat
  ce : Bool
  cyc : Nat
  flit : Flit
  deriving DecidableEq, Repr

/-- What a die has learnt of another (R211, Table 10-5): its readiness cycle, the cycle and tick at which its counter
conditions were met, its arrival, sync ID and END. -/
structure Notice where
  die : Nat
  ready : Nat
  met : Option (Nat × Nat)
  arrive : Option Nat
  id : Nat
  isEnd : Bool
  deriving DecidableEq, Repr

/-- The schedule state of one Osier die: the tables (R201, R207, R208, R221), the phase in force and its first cycle,
the cycle from which run cycles count and those counted before, readiness (its cycle, tick and package time) and arrival at the present sync point
with the cycles in which its conditions were met, the counter increments that sync conditions do not see yet (counter, value before, the cycle from
which it is seen; R209), what it knows of the other dies, and what keeps it from arriving. -/
structure OsDie where
  routes : Sparse Nat := []
  phases : Sparse Nat := []
  syncs : Sparse Nat := []
  plans : Sparse Nat := []
  phase : Nat := 0
  phaseOn : Bool := false
  phaseCc : Nat := 0
  runCc : Nat := 0
  runAcc : Nat := 0
  ready : Option Nat := none
  readyTick : Nat := 0
  readyTime : Nat := 0
  fresh : List (Nat × Nat × Nat) := []
  metA : Option Nat := none
  metB : Option Nat := none
  metTick : Nat := 0
  freeAt : Nat := 0
  arrive : Option Nat := none
  condLast : Nat := 0
  waitId : Nat := 0
  waitEnd : Bool := false
  notices : List Notice := []
  mismatch : Bool := false
  tmoSaid : Bool := false
  stopping : Bool := false
  noArrive : Bool := false
  doubt : Bool := false
  brkHit : Bool := false
  latched : Bool := false
  sent : Bool := false
  deriving DecidableEq, Repr

def OsDie.reset : OsDie := {}

/-- The cadence tree (R195, R196, R444): each die's highest epoch, the N on its way with the frame it names, the dies it travels to with its
sender's epoch, whether one has taken it, the attempt of ALIGN under way with its reports, and for each die the frame count its last frame check
passed at, since the ALIGN. -/
structure CadSt where
  epochs : Sparse Nat := []
  nextN : Option (Nat × Nat) := none
  msgs : List (Nat × Nat) := []
  taken : Bool := false
  since : Nat := 0
  aligning : Bool := false
  alignAt : Option Nat := none
  alignOk : List Nat := []
  alignFailed : Bool := false
  attempts : Nat := 0
  checked : List Nat := []
  deriving DecidableEq, Repr

end Sys2Proof.Machine
end

