-- ==== Sys2Proof/Machine/EngineTypes.lean ====
section
/-! DEFINITION. The engines of an Osier die: HBM units on their way (R231-R245), the sixteen stream engines (R243-R254),
the collective engine (R271-R288), barriers, digests and audit (R308-R321). -/

namespace Sys2Proof.Machine

/-- A descriptor that has started (R247, R275): its schedule index, its word and second word, its start cycle and the
next transaction or item. -/
structure Desc where
  idx : Nat
  word : BitVec 128
  word2 : BitVec 128
  start : Nat
  j : Nat
  deriving DecidableEq, Repr

/-- Where a read unit goes when it is released (Table 7-6). -/
inductive Sink where
  | edge (port : Nat)
  | wale (port : Nat)
  | sched (index : Nat)
  | load (col hdr : Nat)
  deriving DecidableEq, Repr

/-- What a read releases at once from the return buffer (R234): the die and engine that issued it, its release cycle, the schedule index, the
sink, the lines as read, the stack and the stack-local units, for a neighbour's unit the port, arrival cycle and place in the flit,
its digest register with the package address, the event counter its release increments, and for a load delivery the flits that lost their lane
cycle (0 is the header; R250). -/
structure RUnit where
  die : Nat
  eng : Nat
  cyc : Nat
  idx : Nat
  lane : Nat
  sink : Sink
  lines : List FLine
  mc : Option Nat
  us : List Nat
  nb : Option (Nat × Nat × Nat)
  dig : Option (Nat × Nat)
  evt : Option Nat
  gone : List Nat := []
  deriving DecidableEq, Repr

/-- A load delivery on its way down a column (R262, R263): the cycle of its header at the north edge, the header word, the data flits' lines, and the
flits that are missing. -/
structure LoadRun where
  die : Nat
  col : Nat
  cyc : Nat
  hdr : Nat
  lines : List FLine
  gone : List Nat
  deriving DecidableEq, Repr

/-- What becomes of a unit taken from an edge port or a Wale slot. -/
inductive WSink where
  | hbm (mc line : Nat)
  | nb (port : Nat) (word : Nat)
  | none
  | wale (port slot : Nat)
  deriving DecidableEq, Repr

/-- A unit to be taken in cycle `cyc` and to enter its controller in cycle `entry` (Table 7-6); `lines` is filled when it
is taken. A lost unit is written as a poisoned line (R250). -/
structure WUnit where
  die : Nat
  eng : Nat
  cyc : Nat
  entry : Nat
  idx : Nat
  lane : Nat
  sink : WSink
  lines : Option (List FLine)
  lost : Bool
  dig : Option (Nat × Nat)
  evt : Option Nat
  deriving DecidableEq, Repr

/-- An outstanding transaction (R244, R245): schedule index, how many it counts as, the cycle up to which it is
outstanding and the cycle of its last unit. -/
structure Txn where
  idx : Nat
  n : Nat
  ends : Nat
  last : Nat
  deriving DecidableEq, Repr

/-- A borrowed operation in flight (R259): its schedule index, BWRITE or BREAD, lender package and granule, both
addresses, its length in units, the tick at which it times out and its event counter. -/
structure Borrow where
  idx : Nat
  write : Bool
  peer : Nat
  lgran : Nat
  addr : Nat
  addr2 : Nat
  count : Nat
  tmo : Nat
  evt : Option Nat
  deriving DecidableEq, Repr

/-- A digest register (R316): sum, base, poison count, and the halves of lines not yet whole. -/
structure Dig where
  sum : BitVec 64 := 0
  base : Nat := 0
  pcnt : Nat := 0
  halves : List (Nat × List FLine) := []
  deriving DecidableEq, Repr

/-- A stream engine. `pc` is the next schedule index and `prev` the cycle from which its WAIT counts; `ended` is set once
an ENDSEG has started. -/
structure Eng where
  sched : Sparse (BitVec 128) := []
  segs : Sparse Nat := []
  on : Bool := false
  pc : Nat := 0
  prev : Nat := 0
  ended : Option Nat := none
  running : List Desc := []
  out : List Txn := []
  borrow : List Borrow := []
  digs : Sparse Dig := []
  abort : Bool := false
  deriving DecidableEq, Repr

def Eng.reset : Eng := {}

/-- A Wale flit in its engine's staging buffer (R243), offered for a program slot: port, source code, cycle, lines, and the descriptor it
belongs to (R221, R250). -/
structure Offer where
  die : Nat
  port : Nat
  src : Nat
  cyc : Nat
  lines : List FLine
  idx : Nat
  deriving DecidableEq, Repr

/-- A request word waiting for its slot (R251, R252). -/
structure ReqW where
  die : Nat
  port : Nat
  eng : Nat
  cyc : Nat
  word : Nat
  idx : Nat
  deriving DecidableEq, Repr

/-- A program flit released to its destination code in a cycle (R221, R340). -/
structure Arrival where
  die : Nat
  port : Nat
  dest : Nat
  cyc : Nat
  lines : List FLine
  deriving DecidableEq, Repr

/-- A request word that reached its owner (R252): the port, the cycle of arrival, the word, the flit's lines, and the requester's descriptor, which
a failure of the return names (R254). -/
structure NbReq where
  die : Nat
  port : Nat
  cyc : Nat
  word : Nat
  lines : List FLine
  idx : Nat
  deriving DecidableEq, Repr

/-- An open send (R281). -/
structure CeSend where
  idx : Nat
  rank : Nat
  pkg : Nat
  addr : Nat
  count : Nat
  next : Nat
  evt : Option Nat
  serial : Nat
  deriving DecidableEq, Repr

/-- An open receive (R282): the offsets combined so far; `nth` is its place among the receives posted for the package. -/
structure CeRecv where
  idx : Nat
  rank : Nat
  pkg : Nat
  addr : Nat
  count : Nat
  cmb : Nat
  got : List Nat
  evt : Option Nat
  nth : Nat
  deriving DecidableEq, Repr

/-- A static write on its way into the buffer (Table 8-5): the cycle from which it is seen, the byte address of its
unit, the combine mode, the lines, or one byte with its poison for a grid byte, and the uncorrectable 64-bit words among those it is combined with. -/
structure CeWrite where
  cyc : Nat
  addr : Nat
  cmb : Nat
  lines : List FLine
  byte : Option (Nat × Bool)
  bad : List Nat
  deriving DecidableEq, Repr

/-- A use of the static path (R277): the cycle, the port (edge 0-31, Wale slots received 32-34, sent 35-37), unit reads and writes, the
descriptor. -/
structure CeUse where
  cyc : Nat
  port : Option Nat
  rd : Nat
  wr : Nat
  idx : Nat
  deriving DecidableEq, Repr

/-- The collective engine. `posted` and `messages` count, per source package, receives posted and messages ended since
program start (R283); `unacked` counts, per wavelength, payloads handed and not yet acknowledged (R296). -/
structure Ce where
  sched : Sparse (BitVec 128) := []
  segs : Sparse Nat := []
  on : Bool := false
  pc : Nat := 0
  prev : Nat := 0
  ended : Option Nat := none
  running : List Desc := []
  sends : List CeSend := []
  recvs : List CeRecv := []
  served : Nat := 0
  serial : Nat := 0
  ranks : Sparse Nat := []
  writes : List CeWrite := []
  uses : List CeUse := []
  lastDone : Nat := 0
  posted : Sparse Nat := []
  messages : Sparse Nat := []
  unacked : Sparse Nat := []
  abort : Bool := false
  deriving DecidableEq, Repr

def Ce.reset : Ce := {}

/-- A border arrival held by a die (R310): member, sequence, sync ID and tick. -/
structure BArr where
  pkg : Nat
  seq : Nat
  id : Nat
  tick : Nat
  deriving DecidableEq, Repr

/-- The border barrier of a die (R308-R311): sequence, arrivals held, its own arrival tick, T_r with the span of the arrivals and the last
package, and whether it has released or can never be met. -/
structure Border where
  seq : Nat := 0
  held : List BArr := []
  own : Option Nat := none
  sent : Bool := false
  tr : Option Nat := none
  span : Nat := 0
  last : Nat := 0
  late : Bool := false
  released : Option Nat := none
  bad : Bool := false
  deriving DecidableEq, Repr

/-- What was true at L0 of an audit sync (Table 9-7), kept with the latch until the record is sent. -/
structure AuditAt where
  lseq : Nat
  id : Nat
  tick : Nat
  runCyc : Nat
  step : Nat
  taint : Bool
  deriving DecidableEq, Repr

/-- A die's copy of PKG_BREAK and PKG_BREAK_STEP (R322, R323). -/
structure BreakAt where
  en : Bool := false
  mode : Nat := 0
  id : Nat := 0
  count : Nat := 0
  step : Nat := 0
  deriving DecidableEq, Repr

/-- ST0's latch with what was true at its L0 and the latches lost since (R319), the die's copies of the fields of package page 2 that steer sync
logic, and its breakpoint counter (R314, R322). -/
structure AudSt where
  latch : Sparse (BitVec 64) := []
  pcnt : Sparse Nat := []
  held : Option AuditAt := none
  lost : Nat := 0
  step : Nat := 0
  brk : BreakAt := {}
  brkCount : Nat := 0
  deriving DecidableEq, Repr

/-- The package side of audit and time: latches lost before the next record, EPOCH_IN. -/
structure PkgT where
  lost : Nat := 0
  lastEdge : Option Nat := none
  epochHigh : Option Nat := none
  deriving DecidableEq, Repr

end Sys2Proof.Machine
end

