-- ==== Sys2Proof/Machine/LinkTypes.lean ====
section
/-! DEFINITION. The state of a Wale port end (10_wale_links.md): what is on its wires, its buffers, repair maps and
training. -/

namespace Sys2Proof.Machine

/-- The kinds of wire slot (Table 10-4). -/
inductive WKind where
  | idle | side | prog | null | empty | train | token | reserved
  deriving DecidableEq, Repr

/-- A payload tag of the X port (Table 10-6) with its 256 payload bytes as eight lines. -/
structure PTag where
  pkg : Nat
  offset : Nat
  last : Bool
  poi : Bool
  lines : List FLine
  deriving DecidableEq, Repr

/-- What a side flit carries (R223, R417): a Memory-class request (package, address, units asked for, and whether it writes; R259) or answer
(whether it was granted), a Sync-class payload for a package, a cell, host or management data. -/
inductive SideWhat where
  | memReq (pkg addr count : Nat) (write : Bool)
  | memAns (pkg : Nat) (ok : Bool)
  | sync (pkg : Nat)
  | cell (c : Cell)
  | other (n : Nat)
  deriving DecidableEq, Repr

/-- A wire slot's flit: kind, whether it carries an enabled cycle's slot, the cycle it was sent in with the four bits of it that travel (CCL) and the
sync field (Table 10-5), the lines with LPOIS, the request word with its descriptor's index, payloads, the X credit bit, the ROOM field, a side flit's
class and leaving die. -/
structure WireFlit where
  kind : WKind
  cyc : Bool
  cc : Nat
  ccl : Nat := 0
  sync : Nat := 0
  lines : List FLine := []
  req : Option (Nat × Nat) := none
  tags : List PTag := []
  credit : Bool := false
  room : Nat := 0
  sclass : Nat := 0
  sdie : Nat := 0
  what : SideWhat := .other 0
  deriving DecidableEq, Repr

/-- A slot whose program flit is dropped at a stop (R219): it carries none, and no request word. -/
def WireFlit.dropped (f : WireFlit) : WireFlit :=
  { f with kind := if f.kind = .prog then .empty else f.kind, lines := if f.kind = .prog then [] else f.lines, req := none }

/-- A side flit waiting at a port (R223): class 0 Seber relay, 1 lending, 2 Slew queue and management, 3 host DMA; the
die at which it leaves; what it carries. -/
structure SideFlit where
  cls : Nat
  die : Nat
  what : SideWhat
  lines : List FLine
  deriving DecidableEq, Repr

/-- One end of a Wale port, by its WL page. `wire` is what travels toward it, `rx` its receive buffer (R340), `xbuf` the
delivery buffer of an Osier die's X adapter (R338) or what a Weft die has taken from X, `drawn` the cycle of the last delivery slot, `side` its waiting
side flits with the count of consecutive services (R223). `sent` is the cycle whose slot last left, `spare` the CCLK cycle in which a spare wire slot
was last used and how many (R336), `off` how far the expected CC is from the sender's (R337), `asked` a retrain asked for in the present round
(R344). -/
structure WlEnd where
  wire : List WireFlit := []
  rx : List WireFlit := []
  xbuf : List (List PTag) := []
  xcredit : Nat := 0
  owed : Nat := 0
  room : Nat := 0
  side : List SideFlit := []
  sideIn : List SideFlit := []
  sinceLow : Nat := 0
  drawn : Option Nat := none
  sent : Option Nat := none
  spare : Nat × Nat := (0, 0)
  off : Nat := 0
  asked : Bool := false
  repairs : Sparse Nat := []
  failed : List (Nat × Nat) := []
  gen : Nat := 0
  entered : Nat := 0
  matched : Nat := 0
  wires : Sparse Nat := []
  hist : Sparse (List Nat) := []
  deriving DecidableEq, Repr

def WlEnd.reset : WlEnd := {}

/-! Optical lanes (11_weft_reed_optics.md). -/

/-- Lane states (Table 11-2). -/
inductive LaneSt where
  | parked | acquire | slip | locked | dark | frozen
  deriving DecidableEq, Repr

/-- An optical lane: state, whether its input is lit, block lock, adaptation, its ring and threshold, when its sweep or lock
began, sweeps that found nothing, when it went dark with its OPT_LOS still owed, the tick before which firmware repeats no failed alignment (R362),
recent heater codes, error counts. -/
structure Lane where
  st : LaneSt := .parked
  lit : Bool := false
  sync : Bool := false
  dfrz : Bool := false
  calm : Nat := 0
  dens : Nat := 0
  slips : Nat := 0
  heat : Nat := 0
  peak : Nat := 0
  pow : Nat := 0
  now : Nat := 0
  thr : Nat := 0
  eye : Nat := 0
  er : Nat := 0
  since : Nat := 0
  sweeping : Bool := false
  sweeps : Nat := 0
  darkAt : Option Nat := none
  alignAt : Nat := 0
  hist : List (Nat × Nat) := []
  hdrErr : Nat := 0
  testErr : Nat := 0
  testBits : Nat := 0
  deriving DecidableEq, Repr

/-- The loopback of a fibre (R373-R375): matching identity blocks in a row, the tick since which it has been clean, identity blocks sent by its transmit
lane and the tick from which that lane sends, whether the one second of R375 no longer applies. -/
structure FibSt where
  idRun : Nat := 0
  clean : Nat := 0
  sent : Nat := 0
  loopAt : Option Nat := none
  spent : Bool := false
  deriving DecidableEq, Repr

/-- A Weft die beside its lanes: a commit armed, the temperature excursion reported, when laser 0 turned ON; the temperatures of the last recomputation
and of the last commit, and when that was (R369). -/
structure WfSt where
  armed : Bool := false
  clamp : Bool := false
  on0 : Option Nat := none
  newT : List Int := []
  calT : List Int := []
  calAt : Option Nat := none
  deriving DecidableEq, Repr

/-- A Reed die: when LIGHT_OK was set and how many groups have started, a commit armed; calibration temperatures as a Weft die has them (R369); RECALs. -/
structure RdSt where
  lightAt : Option Nat := none
  groups : Nat := 0
  armed : Bool := false
  newT : List Int := []
  calT : List Int := []
  calAt : Option Nat := none
  recals : Nat := 0
  deriving DecidableEq, Repr

/-- A wavelength of a Reed die: when its laser entered WARM, when a sparing began, whether its temperature excursion is
reported. -/
structure LaserSt where
  since : Nat := 0
  failAt : Nat := 0
  clamp : Bool := false
  deriving DecidableEq, Repr

/-! Seber (12_seber_link.md). -/

/-- A cell in the replay store (R400): when it was last sent and whether the collective engine of the die handed it. -/
structure Replay where
  cell : Cell
  sent : Nat
  ce : Bool
  deriving DecidableEq, Repr

/-- A held cell of the receive pool (R402). -/
structure Held where
  seq : Nat
  cell : Cell
  deriving DecidableEq, Repr

/-- An open map change (R406, R407): LANESET kind, direction, map, epoch, reason; whether this end began
it, repeats and the tick of the next. -/
structure LsOpen where
  commit : Bool
  dir : Nat
  map : Nat
  epoch : Nat
  reason : Nat
  mine : Bool
  reps : Nat
  next : Nat
  deriving DecidableEq, Repr

/-- A lane of a sub-link: retirement and its counters (R412, R413), the credit class its next trailer carries. -/
structure SbLane where
  retired : Bool := false
  warn : Bool := false
  reason : Nat := 0
  cnt : Nat := 0
  allowed : Bool := false
  now : Nat := 0
  last : Nat := 0
  bits0 : Nat := 0
  errs0 : Nat := 0
  h : Option Nat := none
  rot : Nat := 0
  swOut : Bool := false
  ruleOut : Bool := false
  deriving DecidableEq, Repr

/-- A sub-link beside its registers: the queue and replay store, transmit credit limits and counts by class, the receive side's
pool, numbers received past CUMACK, limits granted, its timers, and the lanes whose test pattern waits for a new epoch (R407). -/
structure SubLink where
  queue : List (Cell × Bool) := []
  replay : List Replay := []
  txLim : List Nat := []
  txCnt : List Nat := []
  sinceBulk : Nat := 0
  lane : Nat := 15
  peerHeld : List Nat := []
  pool : List Held := []
  got : List Nat := []
  nakd : List Nat := []
  rxLim : List Nat := []
  granted : Nat := 0
  lanes : Sparse SbLane := []
  change : Option LsOpen := none
  heard : Option Nat := none
  misAt : Option Nat := none
  trainAt : Nat := 0
  entered : Nat := 0
  good : Nat := 0
  txEmptyAt : Option Nat := none
  rxEmptyAt : Option Nat := none
  oldAt : Nat := 0
  peerDrain : Bool := false
  untest : Nat := 0
  deriving DecidableEq, Repr

/-! The Twine ring (13_hoop_pair.md). -/

/-- What a NOTICE frame carries: laser `k` of a Reed die ON or not, a die's ALIGN_OK or its failure. -/
inductive Note where
  | laser (reed k : Nat) (on : Bool)
  | align (die : Nat) (ok : Bool)
  | brk (b : BreakAt) (count : Bool)
  deriving DecidableEq, Repr

end Sys2Proof.Machine
end

