-- ==== Sys2Proof/Machine/MgmtTypes.lean ====
section
/-! DEFINITION. The state of the management side beside its registers: the Twine ring and the Hoop pair (13_hoop_pair.md), sensors,
power and ageing (16_thermal_power_ageing.md), flash, fuses and the staged start (17_startup_profiles_security.md), snapshots and
staged commits (02_register_pages.md). -/

namespace Sys2Proof.Machine
open Sys2Proof

/-- A HEARTBEAT frame on its way to Hoop `dst` (Table 13-5). -/
structure HbFrame where
  dst : Nat
  role : Nat
  pend : Bool
  recent : Bool
  mir : Nat
  epoch : Nat
  seen : Nat
  ms : Nat
  deriving DecidableEq, Repr

/-- A MIRROR or MIRROR_COMMIT frame on its way to Hoop `dst` (R442, Table 13-8). -/
inductive MirFrame where
  | data (dst bank off epoch : Nat) (bytes : List Nat)
  | commit (dst bank seq epoch len crc : Nat)
  deriving DecidableEq, Repr

/-- A Hoop die beside its registers: the tick its lease ends and its next renewal request, its last accepted lease command, the end
of the overlap, when it was granted, heartbeats sent, heard and missed, what its peer reported of lease commands, the SOLO hold-off, the last
watchdog kick, a reboot, its mirror banks, its last ageing sample and retry, MC_CE_CNT and the RECALs of each laser bank as it last sampled them (R510). -/
structure HoopSt where
  leaseEnd : Nat := 0
  renewAt : Nat := 0
  cmdAt : Option Nat := none
  overlapEnd : Nat := 0
  granted : Option Nat := none
  hbSent : Nat := 0
  hbHeard : Nat := 0
  hbMiss : Nat := 0
  peerCmd : Option Nat := none
  peerRole : Nat := 0
  soloAt : Option Nat := none
  kick : Nat := 0
  rebootAt : Option Nat := none
  bank0 : Sparse Nat := []
  bank1 : Sparse Nat := []
  mirSeq : Nat := 0
  mirAt : Nat := 0
  mirDue : Bool := false
  ageAt : Nat := 0
  retryAt : Nat := 0
  ceSeen : Sparse Nat := []
  biasSeen : Sparse Nat := []
  deriving DecidableEq, Repr

/-- The expected sequence number of a (SRC, DST) pair, frames held ahead of it and since when (R423). -/
structure TwPair where
  next : Nat := 0
  held : List TwFrame := []
  gapAt : Nat := 0
  deriving DecidableEq, Repr

/-- Read data on its way back to a Hoop (R45, R46). -/
structure Resp where
  hoop : Nat
  page : Nat
  off : Nat
  data : Nat
  deriving DecidableEq, Repr

/-- The Twine ring: sequence numbers, read data, heartbeats, mirror frames and EPOCH_RAISE frames on their way, hops each die has
found down, frames each die has discarded since its last SENSOR frame. -/
structure RingSt where
  pairs : Sparse TwPair := []
  resps : List Resp := []
  hbs : List HbFrame := []
  mirs : List MirFrame := []
  raises : List (Nat × Nat) := []
  hops : List (Nat × Nat) := []
  crcs : Sparse Nat := []
  gaps : Sparse Nat := []
  deriving DecidableEq, Repr

/-- A snapshot that a Hoop has begun (R60): sequence, target tick, dies to which the frame travels, dies that hold it, dies that have
reported, whether one was late. -/
structure SnapRun where
  seq : Nat
  target : Nat
  sent : List Nat
  holds : List Nat
  done : List Nat
  late : Bool
  deriving DecidableEq, Repr

/-- A staged commit (R66, R67): the tick of its prepare, dies to which the prepare, the mark and a discard travel and those of them whose prepare left
ahead of the discard, dies frozen with the tick since which, answers on their way and taken, dies whose entries are armed, the frame on whose
boundary the last commit applied with the words (page, offset) it wrote there (R69). -/
structure CommitRun where
  at' : Nat := 0
  prep : List Nat := []
  frozen : List (Nat × Nat) := []
  answers : List (Nat × Nat) := []
  taken : List (Nat × Nat) := []
  mark : List Nat := []
  armed : List Nat := []
  markAt : Nat := 0
  discard : List Nat := []
  ahead : List Nat := []
  boundary : Nat := 0
  applied : List (Nat × Nat) := []
  deriving DecidableEq, Repr

/-- A sensor (R489-R499): raw code, temperature in quarter degrees, 0 live, 1 failed or 2 forced; consecutive equal codes, samples far
from every live neighbour, samples in which no criterion held; since when it stays at or above its warning. -/
structure Sensor where
  raw : Nat := 0
  temp : Int := 0
  sub : Nat := 0
  same : Nat := 0
  away : Nat := 0
  good : Nat := 0
  hot : Option Nat := none
  deriving DecidableEq, Repr

/-- The sampling of a die: the last sample, whether it samples every 50 µs, and since when every sensor lies 5 °C below its threshold, and 2 °C below its warning. -/
structure DieTh where
  last : Nat := 0
  fast : Bool := false
  cool : Option Nat := none
  cold : Option Nat := none
  deriving DecidableEq, Repr

/-- The package's controllers beside their registers: the end of the relaxation limit, the last rise and the last overcurrent step, THROTTLE's two
10 ms intervals, the end of the last power millisecond, SAFE's causes as they stand now, the trip: since when, its comparators, since when every sensor is below restart. -/
structure ThPkg where
  relax : Nat := 0
  rise : Nat := 0
  ovc : Option Nat := none
  ntLow : Option Nat := none
  ntSaid : Bool := false
  qZero : Option Nat := none
  pwrAt : Nat := 0
  badRail : Bool := false
  tripAt : Option Nat := none
  comps : List (Nat × Nat) := []
  below : Option Nat := none
  deriving DecidableEq, Repr

/-- The fit of an ageing monitor as its die's page shows it (R511). -/
structure Fit where
  valid : Bool := false
  conf : Nat := 0
  eol : Nat := 0xFFFFFFFF
  value : Nat := 0
  n : Nat := 0
  limit : Option Nat := none
  warned : Bool := false
  deriving DecidableEq, Repr

/-- A sample of an ageing monitor (R510): die, monitor, power-on hour, value. -/
structure AgeRec where
  die : Nat
  mon : Nat
  hour : Nat
  val : Nat
  deriving DecidableEq, Repr

/-- What a Hoop die keeps without power: the words of its four profiles (slot * 128 + word), PR_OVERRIDE, the package tag, its
ageing log with each laser bank's hours ON, power-on hours, trips, and its fuses: key hashes, revocations, keys held, lifecycle, least security version. -/
structure Flash where
  profs : Sparse Nat := []
  ovIdx : Nat := 0
  ovEn : Bool := false
  ovOnce : Bool := false
  tag : Sparse Nat := []
  age : List AgeRec := []
  lit : Sparse Nat := []
  spared : Nat := 0
  hours : Nat := 0
  trips : Nat := 0
  huabel : Bool := false
  keys : Sparse Nat := []
  revoked : Nat := 0
  fused : Nat := 0
  life : Nat := 0
  minSvn : Nat := 0
  grade : Nat := 0
  deriving DecidableEq, Repr

/-- A profile (Table 17-3). -/
structure Prof where
  grade : Nat := 0
  weave : Nat := 0
  auto : Bool := false
  cluster : Bool := false
  id : Nat := 0
  size : Nat := 1
  count : Nat := 1
  cap : Nat := 2000
  throt : Nat := 0
  warn : Nat := 0
  k : Nat := 32
  planes : Nat := 0
  deriving DecidableEq, Repr

/-- The staged start (R514-R518): power good, Huabel mode, PROF_SEL_CHANGE raised, each Hoop's staging buffer (hoop * 128 + word), the start point, whether it proceeds, whether it holds at a stage's entry, whether the work of
the present stage has begun, the profile in use and its stored words, when LIGHT_OK was set, the debug level's pending change, and saves under way. -/
structure StartSt where
  rails : Bool := false
  huabel : Bool := false
  selSaid : Bool := false
  bufs : Sparse Nat := []
  t0 : Nat := 0
  going : Bool := false
  held : Bool := false
  work : Bool := false
  prof : Prof := {}
  words : List Nat := []
  light : Nat := 0
  scrub : Option (Nat × Nat) := none
  refuse : Nat := 0
  respLvl : Nat := 0
  save : Option (Nat × Nat × List Nat) := none
  tagSave : Option (List Nat) := none
  alert : Bool := false
  deriving DecidableEq, Repr

end Sys2Proof.Machine
end

