-- ==== Sys2Proof/Machine/Fields.lean ====
section
/-! DEFINITION. The register fields of every page, one definition each, from the register tables of the spec
(Tables 2-3, 2-5, 3-14, 6-12, 7-10, 7-12, 8-11, 9-9, 9-10, 10-12, 11-8, 11-10, 11-12, 11-13, 12-10, 12-11, 13-11,
14-10, 15-11, 15-13, 16-9, 16-11, 17-6, 17-8, 17-9 and R59): offset, lowest bit, width, access code and the value
after RESET_N where the table gives a number (0 where it names live, fused, flash or profile state: log entry 3). -/

namespace Sys2Proof.Machine

/-- The access codes of Table 0-5 (R13). -/
inductive Acc where
  | ro | rw | w1c | w1s | rwe | rwk
  deriving DecidableEq, Repr

/-- A register field: offset in its page, lowest bit, width, access code, reset value. A field wider than 32 bits
continues in the following registers (R44). -/
structure Fld where
  off : Nat
  lo : Nat
  w : Nat
  acc : Acc
  rst : Nat
  deriving DecidableEq, Repr

/-- The `i`-th register of a run of equal registers. -/
def Fld.idx (f : Fld) (i : Nat) : Fld := { f with off := f.off + 4 * i }

/-- The kinds of page (Table 2-2): `hdr` stands for the header that every page opens with. -/
inductive Blk where
  | hdr | os | tg | mc | st | ce | wl | th | age | wf | fib | sb | sbk | rd | rdl | hp | pcie | fault | pr | sec | sq | pkg0 | pkg1 | pkg2
  deriving DecidableEq, Repr

namespace R


/-- PG_ID.TYPE (R49). -/
def PG_ID_TYPE : Fld := ⟨0x0, 0, 16, .ro, 0⟩

/-- PG_ID.INSTANCE (R49). -/
def PG_ID_INSTANCE : Fld := ⟨0x0, 16, 8, .ro, 0⟩

/-- PG_ID.VERSION (R49). -/
def PG_ID_VERSION : Fld := ⟨0x0, 24, 8, .ro, 1⟩

/-- PG_CAPS.NSRC (R49). -/
def PG_CAPS_NSRC : Fld := ⟨0x4, 0, 6, .ro, 0⟩

/-- PG_CAPS.STAGE_CAP (R49). -/
def PG_CAPS_STAGE_CAP : Fld := ⟨0x4, 8, 1, .ro, 0⟩

/-- PG_CAPS.KEY_CAP (R49). -/
def PG_CAPS_KEY_CAP : Fld := ⟨0x4, 9, 1, .ro, 0⟩

/-- PG_CTRL.ENABLE (R49). -/
def PG_CTRL_ENABLE : Fld := ⟨0x8, 0, 1, .rwe, 0⟩

/-- PG_CTRL.SOFT_RESET (R49). -/
def PG_CTRL_SOFT_RESET : Fld := ⟨0x8, 1, 1, .rwe, 0⟩

/-- PG_CTRL.UNLOCK (R49). -/
def PG_CTRL_UNLOCK : Fld := ⟨0x8, 16, 16, .rwe, 0⟩

/-- PG_STATUS.ALIVE (R49). -/
def PG_STATUS_ALIVE : Fld := ⟨0xC, 0, 1, .ro, 0⟩

/-- PG_STATUS.KEY_OPEN (R49). -/
def PG_STATUS_KEY_OPEN : Fld := ⟨0xC, 1, 1, .ro, 0⟩

/-- PG_STATUS.STAGE_PEND (R49). -/
def PG_STATUS_STAGE_PEND : Fld := ⟨0xC, 2, 1, .ro, 0⟩

/-- PG_STATUS.STAGE_OVF (R49). -/
def PG_STATUS_STAGE_OVF : Fld := ⟨0xC, 3, 1, .ro, 0⟩

/-- PG_STATUS.FENCE_REJ (R49). -/
def PG_STATUS_FENCE_REJ : Fld := ⟨0xC, 4, 1, .w1c, 0⟩

/-- PG_STATUS.REJ (R49). -/
def PG_STATUS_REJ : Fld := ⟨0xC, 5, 1, .w1c, 0⟩

/-- PG_STATUS.BLOCK (R49). -/
def PG_STATUS_BLOCK : Fld := ⟨0xC, 16, 16, .ro, 0⟩

/-- PG_FSTAT.SRC (R49). -/
def PG_FSTAT_SRC : Fld := ⟨0x10, 0, 32, .w1c, 0⟩

/-- PG_FMASK.MASK (R49). -/
def PG_FMASK_MASK : Fld := ⟨0x14, 0, 32, .rwe, 0⟩

/-- PG_FSEV0.SEV (R49). -/
def PG_FSEV0_SEV : Fld := ⟨0x18, 0, 32, .rwe, 0⟩

/-- PG_FSEV1.SEV (R49). -/
def PG_FSEV1_SEV : Fld := ⟨0x1C, 0, 32, .rwe, 0⟩

/-- PG_FTIMER.GRACE_MS (R49). -/
def PG_FTIMER_GRACE_MS : Fld := ⟨0x20, 0, 14, .rwe, 200⟩

/-- PG_EPOCH.EPOCH (R49). -/
def PG_EPOCH_EPOCH : Fld := ⟨0x24, 0, 32, .ro, 0⟩

/-- PG_SNAP.SEQ (R49). -/
def PG_SNAP_SEQ : Fld := ⟨0x28, 0, 16, .ro, 0⟩

/-- PG_SNAP.LATE (R49). -/
def PG_SNAP_LATE : Fld := ⟨0x28, 16, 1, .ro, 0⟩

/-- PG_SNAP.VALID (R49). -/
def PG_SNAP_VALID : Fld := ⟨0x28, 17, 1, .ro, 0⟩

/-- PG_TAG (R49). -/
def PG_TAG : Fld := ⟨0x40, 0, 512, .rw, 0⟩

/-- OS_IDENT.ARITH_CLASS (R230). -/
def OS_IDENT_ARITH_CLASS : Fld := ⟨0x100, 0, 16, .ro, 2817⟩

/-- OS_IDENT.DIE (R230). -/
def OS_IDENT_DIE : Fld := ⟨0x100, 16, 3, .ro, 0⟩

/-- OS_IDENT.GRADE (R230). -/
def OS_IDENT_GRADE : Fld := ⟨0x100, 19, 1, .ro, 0⟩

/-- OS_PROG_CTRL.ARM (R230). -/
def OS_PROG_CTRL_ARM : Fld := ⟨0x104, 0, 1, .rwe, 0⟩

/-- OS_PROG_CTRL.STOP (R230). -/
def OS_PROG_CTRL_STOP : Fld := ⟨0x104, 1, 1, .rwe, 0⟩

/-- OS_PROG_CTRL.LOADED (R230). -/
def OS_PROG_CTRL_LOADED : Fld := ⟨0x104, 2, 1, .rwe, 0⟩

/-- OS_PROG_STAT.STATE (R230). -/
def OS_PROG_STAT_STATE : Fld := ⟨0x108, 0, 2, .ro, 0⟩

/-- OS_PROG_STAT.HELD (R230). -/
def OS_PROG_STAT_HELD : Fld := ⟨0x108, 2, 1, .ro, 0⟩

/-- OS_PROG_STAT.SYNC_ID (R230). -/
def OS_PROG_STAT_SYNC_ID : Fld := ⟨0x108, 8, 8, .ro, 0⟩

/-- OS_IMAGE_ID (R230). -/
def OS_IMAGE_ID : Fld := ⟨0x10C, 0, 64, .rwe, 0⟩

/-- OS_CC (R230). -/
def OS_CC : Fld := ⟨0x118, 0, 64, .ro, 0⟩

/-- OS_RUN_CYC (R230). -/
def OS_RUN_CYC : Fld := ⟨0x120, 0, 64, .ro, 0⟩

/-- OS_HOLD_CYC (R230). -/
def OS_HOLD_CYC : Fld := ⟨0x128, 0, 64, .ro, 0⟩

/-- OS_WAIT_CYC (R230). -/
def OS_WAIT_CYC : Fld := ⟨0x130, 0, 64, .ro, 0⟩

/-- OS_SYNC_CNT (R230). -/
def OS_SYNC_CNT : Fld := ⟨0x138, 0, 32, .ro, 0⟩

/-- OS_SYNC_LAST.ID (R230). -/
def OS_SYNC_LAST_ID : Fld := ⟨0x13C, 0, 8, .ro, 0⟩

/-- OS_SYNC_LAST.LAST_DIE (R230). -/
def OS_SYNC_LAST_LAST_DIE : Fld := ⟨0x13C, 8, 3, .ro, 0⟩

/-- OS_SYNC_LAST.LAST_COND (R230). -/
def OS_SYNC_LAST_LAST_COND : Fld := ⟨0x13C, 12, 2, .ro, 0⟩

/-- OS_SYNC_LAST.WAIT8 (R230). -/
def OS_SYNC_LAST_WAIT8 : Fld := ⟨0x13C, 16, 16, .ro, 0⟩

/-- OS_SYNC_TMO.MS (R230). -/
def OS_SYNC_TMO_MS : Fld := ⟨0x140, 0, 14, .rwe, 1000⟩

/-- OS_HOLD_TICKS (R230). -/
def OS_HOLD_TICKS : Fld := ⟨0x144, 0, 32, .ro, 0⟩

/-- OS_CAD.N (R230). -/
def OS_CAD_N : Fld := ⟨0x148, 0, 7, .ro, 64⟩

/-- OS_CAD.ALIGN_OK (R230). -/
def OS_CAD_ALIGN_OK : Fld := ⟨0x148, 8, 1, .ro, 0⟩

/-- OS_CAD.ALIGN_CNT (R230). -/
def OS_CAD_ALIGN_CNT : Fld := ⟨0x148, 16, 8, .ro, 0⟩

/-- OS_TBL_SEL.TABLE (R230). -/
def OS_TBL_SEL_TABLE : Fld := ⟨0x14C, 0, 2, .rwe, 0⟩

/-- OS_TBL_SEL.UNIT (R230). -/
def OS_TBL_SEL_UNIT : Fld := ⟨0x14C, 2, 6, .rwe, 0⟩

/-- OS_TBL_SEL.INDEX (R230). -/
def OS_TBL_SEL_INDEX : Fld := ⟨0x14C, 8, 12, .rwe, 0⟩

/-- OS_TBL_SEL.HIGH (R230). -/
def OS_TBL_SEL_HIGH : Fld := ⟨0x14C, 20, 1, .rwe, 0⟩

/-- OS_TBL_DATA (R230). -/
def OS_TBL_DATA : Fld := ⟨0x150, 0, 32, .rwe, 0⟩

/-- OS_EVT_ADD.CNT (R230). -/
def OS_EVT_ADD_CNT : Fld := ⟨0x154, 0, 4, .rwe, 0⟩

/-- OS_EVT_ADD.AMOUNT (R230). -/
def OS_EVT_ADD_AMOUNT : Fld := ⟨0x154, 16, 16, .rwe, 0⟩

/-- OS_MESH_LAST.ROUTER (R230). -/
def OS_MESH_LAST_ROUTER : Fld := ⟨0x158, 0, 6, .ro, 0⟩

/-- OS_MESH_LAST.PORT (R230). -/
def OS_MESH_LAST_PORT : Fld := ⟨0x158, 8, 3, .ro, 0⟩

/-- OS_MESH_LAST.SOURCE (R230). -/
def OS_MESH_LAST_SOURCE : Fld := ⟨0x158, 12, 4, .ro, 0⟩

/-- OS_MESH_LAST.CYCLE (R230). -/
def OS_MESH_LAST_CYCLE : Fld := ⟨0x158, 16, 16, .ro, 0⟩

/-- OS_MESH_CNT (R230). -/
def OS_MESH_CNT : Fld := ⟨0x15C, 0, 32, .ro, 0⟩

/-- OS_OVB_LAST.PC (R230). -/
def OS_OVB_LAST_PC : Fld := ⟨0x160, 0, 8, .ro, 0⟩

/-- OS_OVB_LAST.BYTES (R230). -/
def OS_OVB_LAST_BYTES : Fld := ⟨0x160, 8, 15, .ro, 0⟩

/-- OS_OVB_CNT (R230). -/
def OS_OVB_CNT : Fld := ⟨0x164, 0, 32, .ro, 0⟩

/-- OS_OVB_LIMIT.BYTES (R230). -/
def OS_OVB_LIMIT_BYTES : Fld := ⟨0x168, 0, 16, .ro, 0⟩

/-- OS_ROUTE_CE_CNT (R230). -/
def OS_ROUTE_CE_CNT : Fld := ⟨0x16C, 0, 32, .ro, 0⟩

/-- OS_CNT_CLR.CLR (R230). -/
def OS_CNT_CLR_CLR : Fld := ⟨0x170, 0, 1, .w1s, 0⟩

/-- OS_EVT_CNT (R230). -/
def OS_EVT_CNT : Fld := ⟨0x180, 0, 32, .ro, 0⟩

/-- OS_TG_ENABLE.TILE_EN (R109). -/
def OS_TG_ENABLE_TILE_EN : Fld := ⟨0x100, 0, 8, .rwe, 0⟩

/-- OS_TG_ACC_MODE.CLOSE (R109). -/
def OS_TG_ACC_MODE_CLOSE : Fld := ⟨0x104, 0, 8, .rwe, 0⟩

/-- OS_TG_STATE.ST (R109). -/
def OS_TG_STATE_ST : Fld := ⟨0x108, 0, 16, .ro, 65535⟩

/-- OS_TG_TAINT.TAINT (R109). -/
def OS_TG_TAINT_TAINT : Fld := ⟨0x10C, 0, 8, .ro, 0⟩

/-- OS_TG_PC_SEL.TILE (R109). -/
def OS_TG_PC_SEL_TILE : Fld := ⟨0x110, 0, 3, .rwe, 0⟩

/-- OS_TG_PC.PC (R109). -/
def OS_TG_PC_PC : Fld := ⟨0x114, 0, 13, .ro, 0⟩

/-- OS_TG_PC.LOOP_DEPTH (R109). -/
def OS_TG_PC_LOOP_DEPTH : Fld := ⟨0x114, 13, 2, .ro, 0⟩

/-- OS_TG_PC.LOOP_FULL (R109). -/
def OS_TG_PC_LOOP_FULL : Fld := ⟨0x114, 15, 1, .ro, 0⟩

/-- OS_TG_ZERO.REQ (R109). -/
def OS_TG_ZERO_REQ : Fld := ⟨0x118, 0, 8, .w1s, 0⟩

/-- OS_TG_CE_CNT (R109). -/
def OS_TG_CE_CNT : Fld := ⟨0x120, 0, 32, .ro, 0⟩

/-- OS_TG_UE_CNT (R109). -/
def OS_TG_UE_CNT : Fld := ⟨0x124, 0, 32, .ro, 0⟩

/-- OS_TG_POISON_CNT (R109). -/
def OS_TG_POISON_CNT : Fld := ⟨0x128, 0, 32, .ro, 0⟩

/-- OS_TG_CONFLICT_CNT (R109). -/
def OS_TG_CONFLICT_CNT : Fld := ⟨0x12C, 0, 32, .ro, 0⟩

/-- OS_TG_CNT_CLR.CLR (R109). -/
def OS_TG_CNT_CLR_CLR : Fld := ⟨0x130, 0, 1, .w1s, 0⟩

/-- OS_TG_CONFLICT_LAST.TILE (R109). -/
def OS_TG_CONFLICT_LAST_TILE : Fld := ⟨0x134, 0, 3, .ro, 0⟩

/-- OS_TG_CONFLICT_LAST.SOURCE (R109). -/
def OS_TG_CONFLICT_LAST_SOURCE : Fld := ⟨0x134, 4, 4, .ro, 0⟩

/-- OS_TG_CONFLICT_LAST.CYCLE (R109). -/
def OS_TG_CONFLICT_LAST_CYCLE : Fld := ⟨0x134, 8, 24, .ro, 0⟩

/-- OS_TG_ECC_LAST.TILE (R109). -/
def OS_TG_ECC_LAST_TILE : Fld := ⟨0x138, 0, 3, .ro, 0⟩

/-- OS_TG_ECC_LAST.MEM (R109). -/
def OS_TG_ECC_LAST_MEM : Fld := ⟨0x138, 3, 2, .ro, 0⟩

/-- OS_TG_ECC_LAST.UE (R109). -/
def OS_TG_ECC_LAST_UE : Fld := ⟨0x138, 5, 1, .ro, 0⟩

/-- OS_TG_ECC_LAST.LINE (R109). -/
def OS_TG_ECC_LAST_LINE : Fld := ⟨0x138, 8, 17, .ro, 0⟩

/-- OS_TG_IMEM_VALID (R109). -/
def OS_TG_IMEM_VALID : Fld := ⟨0x140, 0, 32, .ro, 4294967295⟩

/-- MC_ENV.CYC (R268). -/
def MC_ENV_CYC : Fld := ⟨0x100, 0, 10, .ro, 480⟩

/-- MC_STAT.TRAINED (R268). -/
def MC_STAT_TRAINED : Fld := ⟨0x104, 0, 1, .ro, 0⟩

/-- MC_STAT.REF2X (R268). -/
def MC_STAT_REF2X : Fld := ⟨0x104, 1, 1, .ro, 0⟩

/-- MC_STAT.TEMP (R268). -/
def MC_STAT_TEMP : Fld := ⟨0x104, 8, 8, .ro, 0⟩

/-- MC_CE_CNT (R268). -/
def MC_CE_CNT : Fld := ⟨0x108, 0, 32, .ro, 0⟩

/-- MC_UE_CNT (R268). -/
def MC_UE_CNT : Fld := ⟨0x10C, 0, 32, .ro, 0⟩

/-- MC_LATE_CNT (R268). -/
def MC_LATE_CNT : Fld := ⟨0x110, 0, 32, .ro, 0⟩

/-- MC_POISON_RD_CNT (R268). -/
def MC_POISON_RD_CNT : Fld := ⟨0x114, 0, 32, .ro, 0⟩

/-- MC_ERR_ADDR (R268). -/
def MC_ERR_ADDR : Fld := ⟨0x118, 0, 37, .ro, 0⟩

/-- MC_ERR_ADDR.SRC (R268). -/
def MC_ERR_ADDR_SRC : Fld := ⟨0x118, 40, 2, .ro, 0⟩

/-- MC_SCRUB.EN (R268). -/
def MC_SCRUB_EN : Fld := ⟨0x120, 0, 1, .rwe, 1⟩

/-- MC_SCRUB.INTERVAL_H (R268). -/
def MC_SCRUB_INTERVAL_H : Fld := ⟨0x120, 8, 8, .rwe, 24⟩

/-- MC_SIDE_BYTES (R268). -/
def MC_SIDE_BYTES : Fld := ⟨0x124, 0, 32, .ro, 0⟩

/-- MC_CNT_CLR.CLR (R268). -/
def MC_CNT_CLR_CLR : Fld := ⟨0x128, 0, 1, .w1s, 0⟩

/-- ST_STATE.ST (R269). -/
def ST_STATE_ST : Fld := ⟨0x100, 0, 2, .ro, 0⟩

/-- ST_STATE.SEG (R269). -/
def ST_STATE_SEG : Fld := ⟨0x100, 8, 8, .ro, 0⟩

/-- ST_OUTST.NOW (R269). -/
def ST_OUTST_NOW : Fld := ⟨0x104, 0, 9, .ro, 0⟩

/-- ST_OUTST.PEAK (R269). -/
def ST_OUTST_PEAK : Fld := ⟨0x104, 16, 9, .ro, 0⟩

/-- ST_OUTST.BORROW (R269). -/
def ST_OUTST_BORROW : Fld := ⟨0x104, 25, 4, .ro, 0⟩

/-- ST_SCHED_SEL.INDEX (R269). -/
def ST_SCHED_SEL_INDEX : Fld := ⟨0x108, 0, 14, .rwe, 0⟩

/-- ST_SCHED_SEL.WORD (R269). -/
def ST_SCHED_SEL_WORD : Fld := ⟨0x108, 14, 2, .rwe, 0⟩

/-- ST_SCHED_DATA (R269). -/
def ST_SCHED_DATA : Fld := ⟨0x10C, 0, 32, .rwe, 0⟩

/-- ST_TX_CNT (R269). -/
def ST_TX_CNT : Fld := ⟨0x110, 0, 32, .ro, 0⟩

/-- ST_ERR_LAST.INDEX (R269). -/
def ST_ERR_LAST_INDEX : Fld := ⟨0x114, 0, 13, .ro, 0⟩

/-- ST_ERR_LAST.SRC (R269). -/
def ST_ERR_LAST_SRC : Fld := ⟨0x114, 16, 4, .ro, 0⟩

/-- ST_DIG_SEL.REG (R269). -/
def ST_DIG_SEL_REG : Fld := ⟨0x118, 0, 4, .rwe, 0⟩

/-- ST_DIG (R269). -/
def ST_DIG : Fld := ⟨0x120, 0, 64, .rwe, 0⟩

/-- ST_DIG_BASE (R269). -/
def ST_DIG_BASE : Fld := ⟨0x128, 0, 42, .rwe, 0⟩

/-- ST_BORROW_TMO.MS (R269). -/
def ST_BORROW_TMO_MS : Fld := ⟨0x130, 0, 14, .rwe, 50⟩

/-- ST_CNT_CLR.CLR (R269). -/
def ST_CNT_CLR_CLR : Fld := ⟨0x134, 0, 1, .w1s, 0⟩

/-- ST_STAKE_SEL.GRANULE (R269). -/
def ST_STAKE_SEL_GRANULE : Fld := ⟨0x180, 0, 16, .rwe, 0⟩

/-- ST_STAKE_DATA (R269). -/
def ST_STAKE_DATA : Fld := ⟨0x184, 0, 32, .rwe, 0⟩

/-- ST_STAKE_CNT.BORROWED (R269). -/
def ST_STAKE_CNT_BORROWED : Fld := ⟨0x188, 0, 16, .ro, 0⟩

/-- ST_STAKE_CNT.LENT (R269). -/
def ST_STAKE_CNT_LENT : Fld := ⟨0x188, 16, 16, .ro, 0⟩

/-- ST_STAKE_CE_CNT (R269). -/
def ST_STAKE_CE_CNT : Fld := ⟨0x18C, 0, 32, .ro, 0⟩

/-- ST_DIG_PCNT (R328). -/
def ST_DIG_PCNT : Fld := ⟨0x138, 0, 32, .rwe, 0⟩

/-- ST_DLAT_STAT.ID (R328). -/
def ST_DLAT_STAT_ID : Fld := ⟨0x140, 0, 8, .ro, 0⟩

/-- ST_DLAT_STAT.FULL (R328). -/
def ST_DLAT_STAT_FULL : Fld := ⟨0x140, 8, 1, .ro, 0⟩

/-- ST_DLAT_STAT.OVR (R328). -/
def ST_DLAT_STAT_OVR : Fld := ⟨0x140, 9, 1, .w1c, 0⟩

/-- ST_DLAT_STAT.SEQ (R328). -/
def ST_DLAT_STAT_SEQ : Fld := ⟨0x140, 16, 16, .ro, 0⟩

/-- ST_DLAT_SEL.REG (R328). -/
def ST_DLAT_SEL_REG : Fld := ⟨0x144, 0, 4, .rwe, 0⟩

/-- ST_DLAT (R328). -/
def ST_DLAT : Fld := ⟨0x148, 0, 64, .ro, 0⟩

/-- ST_DLAT_PCNT (R328). -/
def ST_DLAT_PCNT : Fld := ⟨0x150, 0, 32, .ro, 0⟩

/-- ST_DLAT_ACK.ACK (R328). -/
def ST_DLAT_ACK_ACK : Fld := ⟨0x154, 0, 1, .w1s, 0⟩

/-- CE_STATE.ST (R298). -/
def CE_STATE_ST : Fld := ⟨0x100, 0, 2, .ro, 0⟩

/-- CE_STATE.SEG (R298). -/
def CE_STATE_SEG : Fld := ⟨0x100, 8, 8, .ro, 0⟩

/-- CE_STATE.SENDS (R298). -/
def CE_STATE_SENDS : Fld := ⟨0x100, 16, 5, .ro, 0⟩

/-- CE_STATE.RECVS (R298). -/
def CE_STATE_RECVS : Fld := ⟨0x100, 24, 5, .ro, 0⟩

/-- CE_SCHED_SEL.INDEX (R298). -/
def CE_SCHED_SEL_INDEX : Fld := ⟨0x104, 0, 14, .rwe, 0⟩

/-- CE_SCHED_SEL.WORD (R298). -/
def CE_SCHED_SEL_WORD : Fld := ⟨0x104, 14, 2, .rwe, 0⟩

/-- CE_SCHED_DATA (R298). -/
def CE_SCHED_DATA : Fld := ⟨0x108, 0, 32, .rwe, 0⟩

/-- CE_RANK_SEL.RANK (R298). -/
def CE_RANK_SEL_RANK : Fld := ⟨0x10C, 0, 8, .rwe, 0⟩

/-- CE_RANK_DATA.PKG (R298). -/
def CE_RANK_DATA_PKG : Fld := ⟨0x110, 0, 8, .rwe, 0⟩

/-- CE_RANK_DATA.VALID (R298). -/
def CE_RANK_DATA_VALID : Fld := ⟨0x110, 8, 1, .rwe, 0⟩

/-- CE_SLOT.SLOT_A (R298). -/
def CE_SLOT_SLOT_A : Fld := ⟨0x114, 0, 8, .rwe, 0⟩

/-- CE_SLOT.SLOT_B (R298). -/
def CE_SLOT_SLOT_B : Fld := ⟨0x114, 8, 8, .rwe, 0⟩

/-- CE_SLOT.TWO (R298). -/
def CE_SLOT_TWO : Fld := ⟨0x114, 16, 1, .rwe, 0⟩

/-- CE_TX_BYTES (R298). -/
def CE_TX_BYTES : Fld := ⟨0x118, 0, 64, .ro, 0⟩

/-- CE_RX_BYTES (R298). -/
def CE_RX_BYTES : Fld := ⟨0x120, 0, 64, .ro, 0⟩

/-- CE_RX_DROP (R298). -/
def CE_RX_DROP : Fld := ⟨0x128, 0, 32, .ro, 0⟩

/-- CE_ERR_LAST.INDEX (R298). -/
def CE_ERR_LAST_INDEX : Fld := ⟨0x12C, 0, 13, .ro, 0⟩

/-- CE_ERR_LAST.SRC (R298). -/
def CE_ERR_LAST_SRC : Fld := ⟨0x12C, 16, 4, .ro, 0⟩

/-- CE_ERR_LAST.RANK (R298). -/
def CE_ERR_LAST_RANK : Fld := ⟨0x12C, 20, 8, .ro, 0⟩

/-- CE_BUF_CE_CNT (R298). -/
def CE_BUF_CE_CNT : Fld := ⟨0x130, 0, 32, .ro, 0⟩

/-- CE_CNT_CLR.CLR (R298). -/
def CE_CNT_CLR_CLR : Fld := ⟨0x134, 0, 1, .w1s, 0⟩

/-- WL_CTRL.RETRAIN (R353). -/
def WL_CTRL_RETRAIN : Fld := ⟨0x100, 0, 1, .rwe, 0⟩

/-- WL_CTRL.SCRATCH (R353). -/
def WL_CTRL_SCRATCH : Fld := ⟨0x100, 1, 1, .rwe, 0⟩

/-- WL_CTRL.WIDTH8 (R353). -/
def WL_CTRL_WIDTH8 : Fld := ⟨0x100, 2, 1, .rwe, 0⟩

/-- WL_CTRL.HALF (R353). -/
def WL_CTRL_HALF : Fld := ⟨0x100, 3, 1, .rwe, 0⟩

/-- WL_CTRL.HOLD_REQ (R353). -/
def WL_CTRL_HOLD_REQ : Fld := ⟨0x100, 4, 1, .rwe, 0⟩

/-- WL_STAT.STATE (R353). -/
def WL_STAT_STATE : Fld := ⟨0x104, 0, 3, .ro, 0⟩

/-- WL_STAT.W8 (R353). -/
def WL_STAT_W8 : Fld := ⟨0x104, 3, 1, .ro, 0⟩

/-- WL_STAT.HALF (R353). -/
def WL_STAT_HALF : Fld := ⟨0x104, 4, 1, .ro, 0⟩

/-- WL_STAT.LEADER (R353). -/
def WL_STAT_LEADER : Fld := ⟨0x104, 5, 1, .ro, 0⟩

/-- WL_STAT.BONDED (R353). -/
def WL_STAT_BONDED : Fld := ⟨0x104, 6, 1, .ro, 0⟩

/-- WL_STAT.SUPERSEDED (R353). -/
def WL_STAT_SUPERSEDED : Fld := ⟨0x104, 7, 1, .w1c, 0⟩

/-- WL_STAT.PHASE (R353). -/
def WL_STAT_PHASE : Fld := ⟨0x104, 8, 3, .ro, 0⟩

/-- WL_STAT.SLACK (R353). -/
def WL_STAT_SLACK : Fld := ⟨0x104, 16, 8, .ro, 0⟩

/-- WL_TOKEN.LOCAL (R353). -/
def WL_TOKEN_LOCAL : Fld := ⟨0x108, 0, 16, .ro, 0⟩

/-- WL_TOKEN.REMOTE (R353). -/
def WL_TOKEN_REMOTE : Fld := ⟨0x108, 16, 16, .ro, 0⟩

/-- WL_REPAIR_SEL.DIR (R353). -/
def WL_REPAIR_SEL_DIR : Fld := ⟨0x10C, 0, 1, .rwe, 0⟩

/-- WL_REPAIR_SEL.MODULE (R353). -/
def WL_REPAIR_SEL_MODULE : Fld := ⟨0x10C, 1, 4, .rwe, 0⟩

/-- WL_REPAIR_SEL.ENTRY (R353). -/
def WL_REPAIR_SEL_ENTRY : Fld := ⟨0x10C, 5, 2, .rwe, 0⟩

/-- WL_REPAIR_DATA.WIRE (R353). -/
def WL_REPAIR_DATA_WIRE : Fld := ⟨0x110, 0, 7, .rwk, 127⟩

/-- WL_REPAIR_DATA.BYE (R353). -/
def WL_REPAIR_DATA_BYE : Fld := ⟨0x110, 8, 2, .ro, 0⟩

/-- WL_POOL.FREE (R353). -/
def WL_POOL_FREE : Fld := ⟨0x114, 0, 7, .ro, 0⟩

/-- WL_POOL.REPAIRS (R353). -/
def WL_POOL_REPAIRS : Fld := ⟨0x114, 8, 7, .ro, 0⟩

/-- WL_POOL.SBW (R353). -/
def WL_POOL_SBW : Fld := ⟨0x114, 16, 5, .ro, 0⟩

/-- WL_CE_CNT (R353). -/
def WL_CE_CNT : Fld := ⟨0x118, 0, 32, .ro, 0⟩

/-- WL_UE_CNT (R353). -/
def WL_UE_CNT : Fld := ⟨0x11C, 0, 32, .ro, 0⟩

/-- WL_SB_CE_CNT (R353). -/
def WL_SB_CE_CNT : Fld := ⟨0x120, 0, 32, .ro, 0⟩

/-- WL_SB_UE_CNT (R353). -/
def WL_SB_UE_CNT : Fld := ⟨0x124, 0, 32, .ro, 0⟩

/-- WL_WIRE_SEL.MODULE (R353). -/
def WL_WIRE_SEL_MODULE : Fld := ⟨0x128, 0, 4, .rwe, 0⟩

/-- WL_WIRE_SEL.WIRE (R353). -/
def WL_WIRE_SEL_WIRE : Fld := ⟨0x128, 4, 7, .rwe, 0⟩

/-- WL_WIRE_CNT (R353). -/
def WL_WIRE_CNT : Fld := ⟨0x12C, 0, 32, .ro, 0⟩

/-- WL_WIRE_THR.COUNT (R353). -/
def WL_WIRE_THR_COUNT : Fld := ⟨0x130, 0, 16, .rwe, 64⟩

/-- WL_WIRE_THR.WINDOW_MS (R353). -/
def WL_WIRE_THR_WINDOW_MS : Fld := ⟨0x130, 16, 16, .rwe, 1000⟩

/-- WL_WIRE_LAST.MODULE (R353). -/
def WL_WIRE_LAST_MODULE : Fld := ⟨0x134, 0, 4, .ro, 0⟩

/-- WL_WIRE_LAST.WIRE (R353). -/
def WL_WIRE_LAST_WIRE : Fld := ⟨0x134, 4, 7, .ro, 0⟩

/-- WL_WIRE_LAST.NOSPARE (R353). -/
def WL_WIRE_LAST_NOSPARE : Fld := ⟨0x134, 16, 1, .ro, 0⟩

/-- WL_SLIP_CNT (R353). -/
def WL_SLIP_CNT : Fld := ⟨0x138, 0, 32, .ro, 0⟩

/-- WL_TRAIN_TMO.US (R353). -/
def WL_TRAIN_TMO_US : Fld := ⟨0x13C, 0, 14, .rwe, 1000⟩

/-- WL_TRAIN_CNT.ROUNDS (R353). -/
def WL_TRAIN_CNT_ROUNDS : Fld := ⟨0x140, 0, 16, .ro, 0⟩

/-- WL_TRAIN_CNT.MISMATCH (R353). -/
def WL_TRAIN_CNT_MISMATCH : Fld := ⟨0x140, 16, 16, .ro, 0⟩

/-- WL_TEST_ERR (R353). -/
def WL_TEST_ERR : Fld := ⟨0x144, 0, 32, .ro, 0⟩

/-- WL_EYE (R353). -/
def WL_EYE : Fld := ⟨0x150, 0, 32, .ro, 0⟩

/-- WL_EYE_MIN.MIN (R353). -/
def WL_EYE_MIN_MIN : Fld := ⟨0x160, 0, 8, .rwk, 64⟩

/-- WL_CNT_CLR.CLR (R353). -/
def WL_CNT_CLR_CLR : Fld := ⟨0x164, 0, 1, .w1s, 0⟩

/-- TH_SEL.SENSOR (R512). -/
def TH_SEL_SENSOR : Fld := ⟨0x100, 0, 5, .rwe, 0⟩

/-- TH_READ.RAW (R512). -/
def TH_READ_RAW : Fld := ⟨0x104, 0, 12, .ro, 0⟩

/-- TH_READ.TEMP (R512). -/
def TH_READ_TEMP : Fld := ⟨0x104, 16, 10, .ro, 0⟩

/-- TH_READ.SUBST (R512). -/
def TH_READ_SUBST : Fld := ⟨0x104, 28, 1, .ro, 0⟩

/-- TH_READ.FORCED (R512). -/
def TH_READ_FORCED : Fld := ⟨0x104, 29, 1, .ro, 0⟩

/-- TH_MAX.TEMP (R512). -/
def TH_MAX_TEMP : Fld := ⟨0x108, 0, 10, .ro, 0⟩

/-- TH_MAX.SENSOR (R512). -/
def TH_MAX_SENSOR : Fld := ⟨0x108, 16, 5, .ro, 0⟩

/-- TH_MAX.FAST (R512). -/
def TH_MAX_FAST : Fld := ⟨0x108, 24, 1, .ro, 0⟩

/-- TH_STAT.WARN (R512). -/
def TH_STAT_WARN : Fld := ⟨0x10C, 0, 1, .ro, 0⟩

/-- TH_STAT.NOLIVE (R512). -/
def TH_STAT_NOLIVE : Fld := ⟨0x10C, 1, 1, .ro, 0⟩

/-- TH_STAT.FAILED (R512). -/
def TH_STAT_FAILED : Fld := ⟨0x10C, 8, 8, .ro, 0⟩

/-- TH_ADJ.THROT_LOWER (R512). -/
def TH_ADJ_THROT_LOWER : Fld := ⟨0x110, 0, 6, .rwk, 0⟩

/-- TH_ADJ.WARN_LOWER (R512). -/
def TH_ADJ_WARN_LOWER : Fld := ⟨0x110, 8, 6, .rwk, 0⟩

/-- TH_LIMITS.THROT (R512). -/
def TH_LIMITS_THROT : Fld := ⟨0x114, 0, 8, .ro, 0⟩

/-- TH_LIMITS.WARN (R512). -/
def TH_LIMITS_WARN : Fld := ⟨0x114, 8, 8, .ro, 0⟩

/-- TH_LIMITS.TRIP (R512). -/
def TH_LIMITS_TRIP : Fld := ⟨0x114, 16, 8, .ro, 0⟩

/-- TH_LIMITS.RESTART (R512). -/
def TH_LIMITS_RESTART : Fld := ⟨0x114, 24, 8, .ro, 0⟩

/-- TH_LIMITS_HBM (R512). -/
def TH_LIMITS_HBM : Fld := ⟨0x118, 0, 32, .ro, 0⟩

/-- TH_FORCE.SENSOR (R512). -/
def TH_FORCE_SENSOR : Fld := ⟨0x11C, 0, 5, .rwk, 0⟩

/-- TH_FORCE.SET (R512). -/
def TH_FORCE_SET : Fld := ⟨0x11C, 8, 1, .rwk, 0⟩

/-- TH_FORCE.CLR (R512). -/
def TH_FORCE_CLR : Fld := ⟨0x11C, 9, 1, .rwk, 0⟩

/-- TH_OCP.A (R512). -/
def TH_OCP_A : Fld := ⟨0x120, 0, 14, .rwk, 800⟩

/-- TH_FAIL_CNT (R512). -/
def TH_FAIL_CNT : Fld := ⟨0x124, 0, 32, .ro, 0⟩

/-- TH_PKG_TEMP.TEMP (R512). -/
def TH_PKG_TEMP_TEMP : Fld := ⟨0x180, 0, 10, .ro, 0⟩

/-- TH_PKG_TEMP.SENSOR (R512). -/
def TH_PKG_TEMP_SENSOR : Fld := ⟨0x180, 16, 9, .ro, 0⟩

/-- TH_PKG_TEMP.SUBST (R512). -/
def TH_PKG_TEMP_SUBST : Fld := ⟨0x180, 25, 1, .ro, 0⟩

/-- TH_PKG_EXCESS.QH (R512). -/
def TH_PKG_EXCESS_QH : Fld := ⟨0x184, 0, 8, .ro, 0⟩

/-- TH_PKG_EXCESS.Q (R512). -/
def TH_PKG_EXCESS_Q : Fld := ⟨0x184, 8, 8, .ro, 0⟩

/-- TH_PKG_EXCESS.RELAX_MS (R512). -/
def TH_PKG_EXCESS_RELAX_MS : Fld := ⟨0x184, 16, 8, .ro, 0⟩

/-- TH_PKG_N.NT (R512). -/
def TH_PKG_N_NT : Fld := ⟨0x188, 0, 7, .ro, 64⟩

/-- TH_PKG_N.NP (R512). -/
def TH_PKG_N_NP : Fld := ⟨0x188, 8, 7, .ro, 64⟩

/-- TH_PKG_N.ND (R512). -/
def TH_PKG_N_ND : Fld := ⟨0x188, 16, 7, .ro, 64⟩

/-- TH_PKG_N.N (R512). -/
def TH_PKG_N_N : Fld := ⟨0x188, 24, 7, .ro, 64⟩

/-- TH_PKG_K.K (R512). -/
def TH_PKG_K_K : Fld := ⟨0x18C, 0, 7, .rwk, 32⟩

/-- TH_DRV_LIMIT.N (R512). -/
def TH_DRV_LIMIT_N : Fld := ⟨0x190, 0, 7, .rwe, 64⟩

/-- TH_CAP.W (R512). -/
def TH_CAP_W : Fld := ⟨0x194, 0, 13, .rwk, 0⟩

/-- TH_PWR.AVG (R512). -/
def TH_PWR_AVG : Fld := ⟨0x198, 0, 13, .ro, 0⟩

/-- TH_PWR.PEAK (R512). -/
def TH_PWR_PEAK : Fld := ⟨0x198, 16, 13, .ro, 0⟩

/-- TH_PKG_STATE.STATE (R512). -/
def TH_PKG_STATE_STATE : Fld := ⟨0x19C, 0, 3, .ro, 1⟩

/-- TH_SAFE.N (R512). -/
def TH_SAFE_N : Fld := ⟨0x1A0, 0, 7, .rwk, 32⟩

/-- TH_SAFE.FORCE (R512). -/
def TH_SAFE_FORCE : Fld := ⟨0x1A0, 8, 1, .rwe, 0⟩

/-- TH_SAFE.CLR (R512). -/
def TH_SAFE_CLR : Fld := ⟨0x1A0, 9, 1, .w1s, 0⟩

/-- TH_SAFE.CAUSE (R512). -/
def TH_SAFE_CAUSE : Fld := ⟨0x1A0, 16, 3, .ro, 0⟩

/-- TH_TRIP_LAST.DIE (R512). -/
def TH_TRIP_LAST_DIE : Fld := ⟨0x1A4, 0, 5, .ro, 0⟩

/-- TH_TRIP_LAST.WHERE (R512). -/
def TH_TRIP_LAST_WHERE : Fld := ⟨0x1A4, 5, 2, .ro, 0⟩

/-- TH_TRIP_LAST.CNT (R512). -/
def TH_TRIP_LAST_CNT : Fld := ⟨0x1A4, 16, 16, .ro, 0⟩

/-- TH_NV.OK (R512). -/
def TH_NV_OK : Fld := ⟨0x1A8, 0, 1, .ro, 0⟩

/-- TH_NV.REFUSED (R512). -/
def TH_NV_REFUSED : Fld := ⟨0x1A8, 16, 16, .ro, 0⟩

/-- TH_CNT_CLR.CLR (R512). -/
def TH_CNT_CLR_CLR : Fld := ⟨0x1AC, 0, 1, .w1s, 0⟩

/-- AGE_SEL.MON (R513). -/
def AGE_SEL_MON : Fld := ⟨0x100, 0, 6, .rwe, 0⟩

/-- AGE_MON.CLASS (R513). -/
def AGE_MON_CLASS : Fld := ⟨0x104, 0, 4, .ro, 0⟩

/-- AGE_MON.CONF (R513). -/
def AGE_MON_CONF : Fld := ⟨0x104, 8, 8, .ro, 0⟩

/-- AGE_MON.VALID (R513). -/
def AGE_MON_VALID : Fld := ⟨0x104, 16, 1, .ro, 0⟩

/-- AGE_EOL.HOURS (R513). -/
def AGE_EOL_HOURS : Fld := ⟨0x108, 0, 32, .ro, 4294967295⟩

/-- AGE_VALUE (R513). -/
def AGE_VALUE : Fld := ⟨0x10C, 0, 32, .ro, 0⟩

/-- AGE_LIMIT.L (R513). -/
def AGE_LIMIT_L : Fld := ⟨0x110, 0, 16, .rwk, 0⟩

/-- AGE_SAMPLES.N (R513). -/
def AGE_SAMPLES_N : Fld := ⟨0x114, 0, 16, .ro, 0⟩

/-- AGE_WORST.MON (R513). -/
def AGE_WORST_MON : Fld := ⟨0x118, 0, 6, .ro, 0⟩

/-- AGE_WORST.CONF (R513). -/
def AGE_WORST_CONF : Fld := ⟨0x118, 8, 8, .ro, 0⟩

/-- AGE_WORST_EOL (R513). -/
def AGE_WORST_EOL : Fld := ⟨0x11C, 0, 32, .ro, 4294967295⟩

/-- AGE_WARN_H.H (R513). -/
def AGE_WARN_H_H : Fld := ⟨0x120, 0, 32, .rwe, 8760⟩

/-- AGE_HOURS (R513). -/
def AGE_HOURS : Fld := ⟨0x180, 0, 32, .ro, 0⟩

/-- AGE_LOG.PENDING (R513). -/
def AGE_LOG_PENDING : Fld := ⟨0x184, 0, 8, .ro, 0⟩

/-- AGE_LOG.DROPPED (R513). -/
def AGE_LOG_DROPPED : Fld := ⟨0x184, 8, 16, .ro, 0⟩

/-- AGE_LOG.CLR (R513). -/
def AGE_LOG_CLR : Fld := ⟨0x184, 24, 1, .rwk, 0⟩

/-- WF_IDENT.DIE (R381). -/
def WF_IDENT_DIE : Fld := ⟨0x100, 0, 3, .ro, 0⟩

/-- WF_IDENT.REED (R381). -/
def WF_IDENT_REED : Fld := ⟨0x100, 3, 1, .ro, 0⟩

/-- WF_PLANE_EN.EN (R381). -/
def WF_PLANE_EN_EN : Fld := ⟨0x104, 0, 16, .rwe, 0⟩

/-- WF_CAL_CTRL.COMMIT (R381). -/
def WF_CAL_CTRL_COMMIT : Fld := ⟨0x108, 0, 1, .w1s, 0⟩

/-- WF_CAL_CTRL.GEN (R381). -/
def WF_CAL_CTRL_GEN : Fld := ⟨0x108, 8, 4, .rwk, 0⟩

/-- WF_CAL_STAT.BANK (R381). -/
def WF_CAL_STAT_BANK : Fld := ⟨0x10C, 0, 1, .ro, 0⟩

/-- WF_CAL_STAT.REJ (R381). -/
def WF_CAL_STAT_REJ : Fld := ⟨0x10C, 1, 1, .w1c, 0⟩

/-- WF_CAL_STAT.REJ_ITEM (R381). -/
def WF_CAL_STAT_REJ_ITEM : Fld := ⟨0x10C, 8, 8, .ro, 0⟩

/-- WF_CAL_STAT.COMMIT_CNT (R381). -/
def WF_CAL_STAT_COMMIT_CNT : Fld := ⟨0x10C, 16, 16, .ro, 0⟩

/-- WF_CAL_SEL.FIB (R381). -/
def WF_CAL_SEL_FIB : Fld := ⟨0x110, 0, 4, .rwe, 0⟩

/-- WF_CAL_SEL.K (R381). -/
def WF_CAL_SEL_K : Fld := ⟨0x110, 4, 4, .rwe, 0⟩

/-- WF_CAL_SEL.DIR (R381). -/
def WF_CAL_SEL_DIR : Fld := ⟨0x110, 8, 1, .rwe, 0⟩

/-- WF_CAL_SEL.ITEM (R381). -/
def WF_CAL_SEL_ITEM : Fld := ⟨0x110, 9, 3, .rwe, 0⟩

/-- WF_CAL_DATA (R381). -/
def WF_CAL_DATA : Fld := ⟨0x114, 0, 16, .rwe, 0⟩

/-- WF_CAL_LIM.HEAT (R381). -/
def WF_CAL_LIM_HEAT : Fld := ⟨0x118, 0, 12, .rwk, 256⟩

/-- WF_CAL_LIM.DRV (R381). -/
def WF_CAL_LIM_DRV : Fld := ⟨0x118, 12, 8, .rwk, 32⟩

/-- WF_CAL_LIM.SWEEP (R381). -/
def WF_CAL_LIM_SWEEP : Fld := ⟨0x118, 20, 12, .rwk, 512⟩

/-- WF_CAL_LIM2.EYE_MIN (R381). -/
def WF_CAL_LIM2_EYE_MIN : Fld := ⟨0x11C, 0, 10, .rwk, 40⟩

/-- WF_RING_PLAUS.STEP (R381). -/
def WF_RING_PLAUS_STEP : Fld := ⟨0x120, 0, 12, .rwk, 48⟩

/-- WF_LOS.THR (R381). -/
def WF_LOS_THR : Fld := ⟨0x124, 0, 16, .rwk, 20⟩

/-- WF_LOOP_WIN.MS (R381). -/
def WF_LOOP_WIN_MS : Fld := ⟨0x128, 0, 16, .rwe, 10⟩

/-- WF_LASER_ON.ON (R381). -/
def WF_LASER_ON_ON : Fld := ⟨0x12C, 0, 16, .ro, 0⟩

/-- WF_FIB_STAT.PLANE (R382). -/
def WF_FIB_STAT_PLANE : Fld := ⟨0x100, 0, 7, .ro, 0⟩

/-- WF_FIB_STAT.LOOP_OK (R382). -/
def WF_FIB_STAT_LOOP_OK : Fld := ⟨0x100, 8, 1, .ro, 0⟩

/-- WF_FIB_STAT.DARK (R382). -/
def WF_FIB_STAT_DARK : Fld := ⟨0x100, 9, 1, .ro, 0⟩

/-- WF_FIB_STAT.GATE (R382). -/
def WF_FIB_STAT_GATE : Fld := ⟨0x100, 10, 1, .ro, 0⟩

/-- WF_FIB_STAT.REFUSED (R382). -/
def WF_FIB_STAT_REFUSED : Fld := ⟨0x100, 16, 16, .ro, 0⟩

/-- WF_FIB_SYNC.SYNC (R382). -/
def WF_FIB_SYNC_SYNC : Fld := ⟨0x104, 0, 16, .ro, 0⟩

/-- WF_FIB_SLIP.SLIP (R382). -/
def WF_FIB_SLIP_SLIP : Fld := ⟨0x108, 0, 16, .w1s, 0⟩

/-- WF_FIB_REACQ.TX (R382). -/
def WF_FIB_REACQ_TX : Fld := ⟨0x10C, 0, 16, .w1s, 0⟩

/-- WF_FIB_REACQ.RX (R382). -/
def WF_FIB_REACQ_RX : Fld := ⟨0x10C, 16, 16, .w1s, 0⟩

/-- WF_FIB_MODE.TX (R382). -/
def WF_FIB_MODE_TX : Fld := ⟨0x110, 0, 16, .ro, 0⟩

/-- WF_FIB_MODE.RX (R382). -/
def WF_FIB_MODE_RX : Fld := ⟨0x110, 16, 16, .ro, 0⟩

/-- WF_FIB_LOOP.RX_PKG (R382). -/
def WF_FIB_LOOP_RX_PKG : Fld := ⟨0x114, 0, 8, .ro, 0⟩

/-- WF_FIB_LOOP.RX_PLANE (R382). -/
def WF_FIB_LOOP_RX_PLANE : Fld := ⟨0x114, 8, 7, .ro, 0⟩

/-- WF_FIB_LOOP.ID_OK (R382). -/
def WF_FIB_LOOP_ID_OK : Fld := ⟨0x114, 15, 1, .ro, 0⟩

/-- WF_FIB_LOOP.ERR (R382). -/
def WF_FIB_LOOP_ERR : Fld := ⟨0x114, 16, 16, .ro, 0⟩

/-- WF_LSEL.K (R382). -/
def WF_LSEL_K : Fld := ⟨0x118, 0, 4, .rwe, 0⟩

/-- WF_LSEL.DIR (R382). -/
def WF_LSEL_DIR : Fld := ⟨0x118, 4, 1, .rwe, 0⟩

/-- WF_LANE_STAT.STATE (R382). -/
def WF_LANE_STAT_STATE : Fld := ⟨0x11C, 0, 3, .ro, 0⟩

/-- WF_LANE_STAT.SYNC_OK (R382). -/
def WF_LANE_STAT_SYNC_OK : Fld := ⟨0x11C, 3, 1, .ro, 0⟩

/-- WF_LANE_STAT.DFRZ (R382). -/
def WF_LANE_STAT_DFRZ : Fld := ⟨0x11C, 4, 1, .ro, 0⟩

/-- WF_LANE_STAT.DENS (R382). -/
def WF_LANE_STAT_DENS : Fld := ⟨0x11C, 8, 8, .ro, 0⟩

/-- WF_LANE_STAT.SLIPS (R382). -/
def WF_LANE_STAT_SLIPS : Fld := ⟨0x11C, 16, 7, .ro, 0⟩

/-- WF_LANE_HEAT.CODE (R382). -/
def WF_LANE_HEAT_CODE : Fld := ⟨0x120, 0, 12, .ro, 0⟩

/-- WF_LANE_HEAT.PEAK (R382). -/
def WF_LANE_HEAT_PEAK : Fld := ⟨0x120, 16, 12, .ro, 0⟩

/-- WF_LANE_LOCK.TGT (R382). -/
def WF_LANE_LOCK_TGT : Fld := ⟨0x124, 0, 8, .ro, 128⟩

/-- WF_LANE_LOCK.NOW (R382). -/
def WF_LANE_LOCK_NOW : Fld := ⟨0x124, 8, 8, .ro, 0⟩

/-- WF_LANE_LOCK.PEAK (R382). -/
def WF_LANE_LOCK_PEAK : Fld := ⟨0x124, 16, 16, .ro, 0⟩

/-- WF_LANE_TRIM.THR (R382). -/
def WF_LANE_TRIM_THR : Fld := ⟨0x128, 0, 10, .ro, 0⟩

/-- WF_LANE_TRIM.EYE (R382). -/
def WF_LANE_TRIM_EYE : Fld := ⟨0x128, 16, 10, .ro, 0⟩

/-- WF_LANE_TX.DRV (R382). -/
def WF_LANE_TX_DRV : Fld := ⟨0x12C, 0, 8, .ro, 0⟩

/-- WF_LANE_TX.ER (R382). -/
def WF_LANE_TX_ER : Fld := ⟨0x12C, 16, 8, .ro, 0⟩

/-- WF_LANE_HDR_ERR (R382). -/
def WF_LANE_HDR_ERR : Fld := ⟨0x130, 0, 32, .ro, 0⟩

/-- WF_LANE_TEST_ERR (R382). -/
def WF_LANE_TEST_ERR : Fld := ⟨0x134, 0, 32, .ro, 0⟩

/-- WF_LANE_TEST_BITS (R382). -/
def WF_LANE_TEST_BITS : Fld := ⟨0x138, 0, 32, .ro, 0⟩

/-- WF_FIB_CNT_CLR.CLR (R382). -/
def WF_FIB_CNT_CLR_CLR : Fld := ⟨0x13C, 0, 1, .w1s, 0⟩

/-- SB_COM_CTRL.EN (R419). -/
def SB_COM_CTRL_EN : Fld := ⟨0x100, 0, 1, .rwe, 0⟩

/-- SB_COM_CTRL.CLUSTER (R419). -/
def SB_COM_CTRL_CLUSTER : Fld := ⟨0x100, 1, 1, .rwe, 0⟩

/-- SB_COM_ID.PKG_ID (R419). -/
def SB_COM_ID_PKG_ID : Fld := ⟨0x104, 0, 8, .ro, 0⟩

/-- SB_COM_ID.POD_SIZE (R419). -/
def SB_COM_ID_POD_SIZE : Fld := ⟨0x104, 8, 5, .rwe, 16⟩

/-- SB_COM_ID.POD_COUNT (R419). -/
def SB_COM_ID_POD_COUNT : Fld := ⟨0x104, 16, 5, .rwe, 1⟩

/-- SB_POOL.FREE (R419). -/
def SB_POOL_FREE : Fld := ⟨0x108, 0, 16, .ro, 30720⟩

/-- SB_POOL.BULK_FREE (R419). -/
def SB_POOL_BULK_FREE : Fld := ⟨0x108, 16, 16, .ro, 25088⟩

/-- SB_REPLAY.FREE (R419). -/
def SB_REPLAY_FREE : Fld := ⟨0x10C, 0, 16, .ro, 30720⟩

/-- SB_REPLAY.FWD_Q (R419). -/
def SB_REPLAY_FWD_Q : Fld := ⟨0x10C, 16, 9, .ro, 0⟩

/-- SB_RET_WIN.LOG2 (R419). -/
def SB_RET_WIN_LOG2 : Fld := ⟨0x110, 0, 5, .rwk, 24⟩

/-- SB_RET_THR.RETIRE (R419). -/
def SB_RET_THR_RETIRE : Fld := ⟨0x114, 0, 16, .rwk, 38⟩

/-- SB_RET_THR.WARN (R419). -/
def SB_RET_THR_WARN : Fld := ⟨0x114, 16, 16, .rwk, 2⟩

/-- SB_RTN.LOG2_BITS (R419). -/
def SB_RTN_LOG2_BITS : Fld := ⟨0x118, 0, 6, .rwk, 36⟩

/-- SB_RTN.ERR (R419). -/
def SB_RTN_ERR : Fld := ⟨0x118, 8, 8, .rwk, 0⟩

/-- SB_SEEK_INT.MS (R419). -/
def SB_SEEK_INT_MS : Fld := ⟨0x11C, 0, 14, .rwe, 10⟩

/-- SB_FWD_CNT (R419). -/
def SB_FWD_CNT : Fld := ⟨0x120, 0, 32, .ro, 0⟩

/-- SB_MISROUTE_CNT (R419). -/
def SB_MISROUTE_CNT : Fld := ⟨0x124, 0, 32, .ro, 0⟩

/-- SB_MEM_CE_CNT (R419). -/
def SB_MEM_CE_CNT : Fld := ⟨0x128, 0, 32, .ro, 0⟩

/-- SB_COM_CNT_CLR.CLR (R419). -/
def SB_COM_CNT_CLR_CLR : Fld := ⟨0x12C, 0, 1, .w1s, 0⟩

/-- SB_CTRL.RESET (R420). -/
def SB_CTRL_RESET : Fld := ⟨0x100, 0, 1, .w1s, 0⟩

/-- SB_CTRL.DRAIN (R420). -/
def SB_CTRL_DRAIN : Fld := ⟨0x100, 1, 1, .w1s, 0⟩

/-- SB_CTRL.AUTO_RET (R420). -/
def SB_CTRL_AUTO_RET : Fld := ⟨0x100, 2, 1, .rwe, 1⟩

/-- SB_CTRL.AUTO_RTN (R420). -/
def SB_CTRL_AUTO_RTN : Fld := ⟨0x100, 3, 1, .rwe, 1⟩

/-- SB_STAT.STATE (R420). -/
def SB_STAT_STATE : Fld := ⟨0x104, 0, 3, .ro, 0⟩

/-- SB_STAT.TXEMPTY (R420). -/
def SB_STAT_TXEMPTY : Fld := ⟨0x104, 3, 1, .ro, 0⟩

/-- SB_STAT.RXEMPTY (R420). -/
def SB_STAT_RXEMPTY : Fld := ⟨0x104, 4, 1, .ro, 0⟩

/-- SB_STAT.LS_BUSY (R420). -/
def SB_STAT_LS_BUSY : Fld := ⟨0x104, 5, 1, .ro, 0⟩

/-- SB_STAT.PEER_ID (R420). -/
def SB_STAT_PEER_ID : Fld := ⟨0x104, 8, 8, .ro, 0⟩

/-- SB_STAT.PEER_GEN (R420). -/
def SB_STAT_PEER_GEN : Fld := ⟨0x104, 16, 16, .ro, 0⟩

/-- SB_MAP.TX (R420). -/
def SB_MAP_TX : Fld := ⟨0x108, 0, 16, .ro, 0⟩

/-- SB_MAP.RX (R420). -/
def SB_MAP_RX : Fld := ⟨0x108, 16, 16, .ro, 0⟩

/-- SB_EPOCH.TX (R420). -/
def SB_EPOCH_TX : Fld := ⟨0x10C, 0, 4, .ro, 0⟩

/-- SB_EPOCH.RX (R420). -/
def SB_EPOCH_RX : Fld := ⟨0x10C, 4, 4, .ro, 0⟩

/-- SB_TSEQ.NEXT (R420). -/
def SB_TSEQ_NEXT : Fld := ⟨0x110, 0, 16, .ro, 0⟩

/-- SB_TSEQ.OLDEST (R420). -/
def SB_TSEQ_OLDEST : Fld := ⟨0x110, 16, 16, .ro, 0⟩

/-- SB_RSEQ.CUMACK (R420). -/
def SB_RSEQ_CUMACK : Fld := ⟨0x114, 0, 16, .ro, 0⟩

/-- SB_RSEQ.HELD (R420). -/
def SB_RSEQ_HELD : Fld := ⟨0x114, 16, 16, .ro, 0⟩

/-- SB_TXCRED.SYNC (R420). -/
def SB_TXCRED_SYNC : Fld := ⟨0x118, 0, 7, .ro, 0⟩

/-- SB_TXCRED.LINK (R420). -/
def SB_TXCRED_LINK : Fld := ⟨0x118, 8, 6, .ro, 0⟩

/-- SB_TXCRED.MEM (R420). -/
def SB_TXCRED_MEM : Fld := ⟨0x118, 16, 9, .ro, 0⟩

/-- SB_BULK.TX_AVAIL (R420). -/
def SB_BULK_TX_AVAIL : Fld := ⟨0x11C, 0, 13, .ro, 0⟩

/-- SB_BULK.RX_GRANT (R420). -/
def SB_BULK_RX_GRANT : Fld := ⟨0x11C, 16, 13, .ro, 0⟩

/-- SB_BULK_CAP.CELLS (R420). -/
def SB_BULK_CAP_CELLS : Fld := ⟨0x120, 0, 13, .rwe, 4096⟩

/-- SB_ACK_TMO.US (R420). -/
def SB_ACK_TMO_US : Fld := ⟨0x124, 0, 8, .rwe, 4⟩

/-- SB_FAIL_TMO.MS (R420). -/
def SB_FAIL_TMO_MS : Fld := ⟨0x128, 0, 14, .rwe, 100⟩

/-- SB_TX_CELLS (R420). -/
def SB_TX_CELLS : Fld := ⟨0x130, 0, 64, .ro, 0⟩

/-- SB_RX_CELLS (R420). -/
def SB_RX_CELLS : Fld := ⟨0x138, 0, 64, .ro, 0⟩

/-- SB_RETX_CNT (R420). -/
def SB_RETX_CNT : Fld := ⟨0x140, 0, 32, .ro, 0⟩

/-- SB_NAK_CNT.SENT (R420). -/
def SB_NAK_CNT_SENT : Fld := ⟨0x144, 0, 16, .ro, 0⟩

/-- SB_NAK_CNT.RECEIVED (R420). -/
def SB_NAK_CNT_RECEIVED : Fld := ⟨0x144, 16, 16, .ro, 0⟩

/-- SB_ACKTMO_CNT (R420). -/
def SB_ACKTMO_CNT : Fld := ⟨0x148, 0, 32, .ro, 0⟩

/-- SB_DUP_CNT (R420). -/
def SB_DUP_CNT : Fld := ⟨0x14C, 0, 32, .ro, 0⟩

/-- SB_CRC_CNT (R420). -/
def SB_CRC_CNT : Fld := ⟨0x150, 0, 32, .ro, 0⟩

/-- SB_LS_CNT.APPLIED (R420). -/
def SB_LS_CNT_APPLIED : Fld := ⟨0x154, 0, 16, .ro, 0⟩

/-- SB_LS_CNT.COLLIDED (R420). -/
def SB_LS_CNT_COLLIDED : Fld := ⟨0x154, 16, 16, .ro, 0⟩

/-- SB_DISCARD_CNT (R420). -/
def SB_DISCARD_CNT : Fld := ⟨0x158, 0, 32, .ro, 0⟩

/-- SB_LSEL.FIB (R420). -/
def SB_LSEL_FIB : Fld := ⟨0x160, 0, 4, .rwe, 0⟩

/-- SB_LANE_STAT.TX_MAP (R420). -/
def SB_LANE_STAT_TX_MAP : Fld := ⟨0x164, 0, 1, .ro, 0⟩

/-- SB_LANE_STAT.RX_MAP (R420). -/
def SB_LANE_STAT_RX_MAP : Fld := ⟨0x164, 1, 1, .ro, 0⟩

/-- SB_LANE_STAT.RETIRED (R420). -/
def SB_LANE_STAT_RETIRED : Fld := ⟨0x164, 2, 1, .ro, 0⟩

/-- SB_LANE_STAT.WARN (R420). -/
def SB_LANE_STAT_WARN : Fld := ⟨0x164, 3, 1, .ro, 0⟩

/-- SB_LANE_STAT.REASON (R420). -/
def SB_LANE_STAT_REASON : Fld := ⟨0x164, 4, 3, .ro, 0⟩

/-- SB_LANE_STAT.RETIRE_CNT (R420). -/
def SB_LANE_STAT_RETIRE_CNT : Fld := ⟨0x164, 16, 16, .ro, 0⟩

/-- SB_LANE_CRC.NOW (R420). -/
def SB_LANE_CRC_NOW : Fld := ⟨0x168, 0, 16, .ro, 0⟩

/-- SB_LANE_CRC.LAST (R420). -/
def SB_LANE_CRC_LAST : Fld := ⟨0x168, 16, 16, .ro, 0⟩

/-- SB_LANE_CTRL.DROP (R420). -/
def SB_LANE_CTRL_DROP : Fld := ⟨0x16C, 0, 1, .w1s, 0⟩

/-- SB_LANE_CTRL.RETURN (R420). -/
def SB_LANE_CTRL_RETURN : Fld := ⟨0x16C, 1, 1, .w1s, 0⟩

/-- SB_LS_LAST.MAP (R420). -/
def SB_LS_LAST_MAP : Fld := ⟨0x170, 0, 16, .ro, 0⟩

/-- SB_LS_LAST.EPOCH (R420). -/
def SB_LS_LAST_EPOCH : Fld := ⟨0x170, 16, 4, .ro, 0⟩

/-- SB_LS_LAST.DIR (R420). -/
def SB_LS_LAST_DIR : Fld := ⟨0x170, 20, 1, .ro, 0⟩

/-- SB_LS_LAST.REASON (R420). -/
def SB_LS_LAST_REASON : Fld := ⟨0x170, 24, 3, .ro, 0⟩

/-- SB_LS_LAST.LOCAL (R420). -/
def SB_LS_LAST_LOCAL : Fld := ⟨0x170, 27, 1, .ro, 0⟩

/-- SB_CNT_CLR.CLR (R420). -/
def SB_CNT_CLR_CLR : Fld := ⟨0x174, 0, 1, .w1s, 0⟩

/-- RD_IDENT.DIE (R383). -/
def RD_IDENT_DIE : Fld := ⟨0x100, 0, 1, .ro, 0⟩

/-- RD_IDENT.FEEDS (R383). -/
def RD_IDENT_FEEDS : Fld := ⟨0x100, 8, 8, .ro, 0⟩

/-- RD_CTRL.LIGHT_OK (R383). -/
def RD_CTRL_LIGHT_OK : Fld := ⟨0x104, 0, 1, .ro, 0⟩

/-- RD_CTRL.AUTO_SPARE (R383). -/
def RD_CTRL_AUTO_SPARE : Fld := ⟨0x104, 1, 1, .rwe, 1⟩

/-- RD_CTRL.ALL_OFF (R383). -/
def RD_CTRL_ALL_OFF : Fld := ⟨0x104, 2, 1, .rwe, 0⟩

/-- RD_STAT.ON (R383). -/
def RD_STAT_ON : Fld := ⟨0x108, 0, 16, .ro, 0⟩

/-- RD_STAT.BANK_B (R383). -/
def RD_STAT_BANK_B : Fld := ⟨0x108, 16, 16, .ro, 0⟩

/-- RD_PWR_TGT.MW (R383). -/
def RD_PWR_TGT_MW : Fld := ⟨0x10C, 0, 10, .rwk, 250⟩

/-- RD_PWR_TGT.FAIL_PCT (R383). -/
def RD_PWR_TGT_FAIL_PCT : Fld := ⟨0x10C, 16, 8, .rwk, 60⟩

/-- RD_PWR_TGT.LOW_PCT (R383). -/
def RD_PWR_TGT_LOW_PCT : Fld := ⟨0x10C, 24, 8, .rwk, 90⟩

/-- RD_CAL_CTRL.COMMIT (R383). -/
def RD_CAL_CTRL_COMMIT : Fld := ⟨0x110, 0, 1, .w1s, 0⟩

/-- RD_CAL_CTRL.RECAL (R383). -/
def RD_CAL_CTRL_RECAL : Fld := ⟨0x110, 1, 1, .w1s, 0⟩

/-- RD_CAL_CTRL.REJ (R383). -/
def RD_CAL_CTRL_REJ : Fld := ⟨0x110, 2, 1, .w1c, 0⟩

/-- RD_CAL_CTRL.LIM (R383). -/
def RD_CAL_CTRL_LIM : Fld := ⟨0x110, 8, 8, .rwk, 10⟩

/-- RD_CAL_CTRL.HLIM (R383). -/
def RD_CAL_CTRL_HLIM : Fld := ⟨0x110, 16, 12, .rwk, 64⟩

/-- RD_WARM.MS (R383). -/
def RD_WARM_MS : Fld := ⟨0x114, 0, 8, .rwk, 20⟩

/-- RD_L_CTRL.ON (R383). -/
def RD_L_CTRL_ON : Fld := ⟨0x100, 0, 1, .rwe, 0⟩

/-- RD_L_CTRL.SPARE (R383). -/
def RD_L_CTRL_SPARE : Fld := ⟨0x100, 1, 1, .w1s, 0⟩

/-- RD_L_STAT.STATE (R383). -/
def RD_L_STAT_STATE : Fld := ⟨0x104, 0, 3, .ro, 0⟩

/-- RD_L_STAT.BANK (R383). -/
def RD_L_STAT_BANK : Fld := ⟨0x104, 4, 1, .ro, 0⟩

/-- RD_L_STAT.A_FAIL (R383). -/
def RD_L_STAT_A_FAIL : Fld := ⟨0x104, 5, 1, .ro, 0⟩

/-- RD_L_STAT.B_FAIL (R383). -/
def RD_L_STAT_B_FAIL : Fld := ⟨0x104, 6, 1, .ro, 0⟩

/-- RD_L_PWR.OUT (R383). -/
def RD_L_PWR_OUT : Fld := ⟨0x108, 0, 12, .ro, 0⟩

/-- RD_L_BIAS.ACT (R383). -/
def RD_L_BIAS_ACT : Fld := ⟨0x10C, 0, 10, .ro, 0⟩

/-- RD_L_BIAS.SHADOW (R383). -/
def RD_L_BIAS_SHADOW : Fld := ⟨0x10C, 16, 10, .rwe, 0⟩

/-- RD_L_BIASMAX.MAX (R383). -/
def RD_L_BIASMAX_MAX : Fld := ⟨0x110, 0, 10, .rwk, 900⟩

/-- RD_L_HEAT.ACT (R383). -/
def RD_L_HEAT_ACT : Fld := ⟨0x114, 0, 12, .ro, 0⟩

/-- RD_L_HEAT.SHADOW (R383). -/
def RD_L_HEAT_SHADOW : Fld := ⟨0x114, 16, 12, .rwe, 0⟩

/-- RD_L_TEMP.C (R383). -/
def RD_L_TEMP_C : Fld := ⟨0x118, 0, 8, .ro, 0⟩

/-- RD_L_HOURS_A (R383). -/
def RD_L_HOURS_A : Fld := ⟨0x11C, 0, 32, .ro, 0⟩

/-- RD_L_HOURS_B (R383). -/
def RD_L_HOURS_B : Fld := ⟨0x120, 0, 32, .ro, 0⟩

/-- RD_L_SPARE_US (R383). -/
def RD_L_SPARE_US : Fld := ⟨0x124, 0, 32, .ro, 0⟩

/-- HP_IDENT.HOOP (R446). -/
def HP_IDENT_HOOP : Fld := ⟨0x100, 0, 1, .ro, 0⟩

/-- HP_IDENT.SOLO_CAP (R446). -/
def HP_IDENT_SOLO_CAP : Fld := ⟨0x100, 8, 1, .ro, 0⟩

/-- HP_ROLE.ROLE (R446). -/
def HP_ROLE_ROLE : Fld := ⟨0x104, 0, 3, .ro, 0⟩

/-- HP_ROLE.OVERLAP (R446). -/
def HP_ROLE_OVERLAP : Fld := ⟨0x104, 3, 1, .ro, 0⟩

/-- HP_ROLE.TAKEOVER_DONE (R446). -/
def HP_ROLE_TAKEOVER_DONE : Fld := ⟨0x104, 4, 1, .ro, 0⟩

/-- HP_ROLE.SOLO_PEND (R446). -/
def HP_ROLE_SOLO_PEND : Fld := ⟨0x104, 5, 1, .ro, 0⟩

/-- HP_ROLE.PEER_ALIVE (R446). -/
def HP_ROLE_PEER_ALIVE : Fld := ⟨0x104, 8, 1, .ro, 0⟩

/-- HP_ROLE.PEER_ROLE (R446). -/
def HP_ROLE_PEER_ROLE : Fld := ⟨0x104, 9, 3, .ro, 0⟩

/-- HP_ROLE.CHANGES (R446). -/
def HP_ROLE_CHANGES : Fld := ⟨0x104, 16, 16, .ro, 0⟩

/-- HP_LEASE_CMD.EPOCH (R446). -/
def HP_LEASE_CMD_EPOCH : Fld := ⟨0x108, 0, 32, .rwe, 0⟩

/-- HP_LEASE_CMD.CMD (R446). -/
def HP_LEASE_CMD_CMD : Fld := ⟨0x10C, 0, 2, .rwe, 0⟩

/-- HP_LEASE_STAT.EPOCH (R446). -/
def HP_LEASE_STAT_EPOCH : Fld := ⟨0x110, 0, 32, .ro, 0⟩

/-- HP_LEASE_SEEN (R446). -/
def HP_LEASE_SEEN : Fld := ⟨0x114, 0, 32, .ro, 0⟩

/-- HP_LEASE_TMR.REMAIN_MS (R446). -/
def HP_LEASE_TMR_REMAIN_MS : Fld := ⟨0x118, 0, 16, .ro, 0⟩

/-- HP_LEASE_TMR.RENEW_CNT (R446). -/
def HP_LEASE_TMR_RENEW_CNT : Fld := ⟨0x118, 16, 16, .ro, 0⟩

/-- HP_LEASE_CFG.VEC (R446). -/
def HP_LEASE_CFG_VEC : Fld := ⟨0x11C, 0, 8, .rwe, 0⟩

/-- HP_LEASE_CFG.REJ_CNT (R446). -/
def HP_LEASE_CFG_REJ_CNT : Fld := ⟨0x11C, 16, 16, .ro, 0⟩

/-- HP_HB.PERIOD_MS (R446). -/
def HP_HB_PERIOD_MS : Fld := ⟨0x120, 0, 8, .ro, 10⟩

/-- HP_HB.MISS (R446). -/
def HP_HB_MISS : Fld := ⟨0x120, 8, 8, .ro, 3⟩

/-- HP_HB.MISSED (R446). -/
def HP_HB_MISSED : Fld := ⟨0x120, 16, 16, .ro, 0⟩

/-- HP_SOLO.EN (R446). -/
def HP_SOLO_EN : Fld := ⟨0x124, 0, 1, .rwk, 0⟩

/-- HP_SOLO.NODRV_S (R446). -/
def HP_SOLO_NODRV_S : Fld := ⟨0x124, 8, 8, .ro, 30⟩

/-- HP_SOLO.HOLD_S (R446). -/
def HP_SOLO_HOLD_S : Fld := ⟨0x124, 16, 8, .ro, 2⟩

/-- HP_SOLO.CNT (R446). -/
def HP_SOLO_CNT : Fld := ⟨0x124, 24, 8, .ro, 0⟩

/-- HP_WDOG.KICK (R446). -/
def HP_WDOG_KICK : Fld := ⟨0x128, 0, 1, .w1s, 0⟩

/-- HP_WDOG.MS (R446). -/
def HP_WDOG_MS : Fld := ⟨0x128, 8, 8, .rwk, 100⟩

/-- HP_MIR_STAT.CUR (R446). -/
def HP_MIR_STAT_CUR : Fld := ⟨0x12C, 0, 1, .ro, 0⟩

/-- HP_MIR_STAT.VALID0 (R446). -/
def HP_MIR_STAT_VALID0 : Fld := ⟨0x12C, 1, 1, .ro, 0⟩

/-- HP_MIR_STAT.VALID1 (R446). -/
def HP_MIR_STAT_VALID1 : Fld := ⟨0x12C, 2, 1, .ro, 0⟩

/-- HP_MIR_STAT.PEND (R446). -/
def HP_MIR_STAT_PEND : Fld := ⟨0x12C, 3, 1, .ro, 0⟩

/-- HP_MIR_STAT.ERR_CNT (R446). -/
def HP_MIR_STAT_ERR_CNT : Fld := ⟨0x12C, 16, 16, .ro, 0⟩

/-- HP_MIR_SEQ (R446). -/
def HP_MIR_SEQ : Fld := ⟨0x130, 0, 32, .ro, 0⟩

/-- HP_MIR_CTRL.RESYNC (R446). -/
def HP_MIR_CTRL_RESYNC : Fld := ⟨0x134, 0, 1, .w1s, 0⟩

/-- HP_TWINE_STAT.HOP_UP (R446). -/
def HP_TWINE_STAT_HOP_UP : Fld := ⟨0x138, 0, 20, .ro, 0⟩

/-- HP_TWINE_STAT.BROKEN (R446). -/
def HP_TWINE_STAT_BROKEN : Fld := ⟨0x138, 20, 1, .ro, 0⟩

/-- HP_TWINE_STAT.SPLIT (R446). -/
def HP_TWINE_STAT_SPLIT : Fld := ⟨0x138, 21, 1, .ro, 0⟩

/-- HP_TWINE_CRC (R446). -/
def HP_TWINE_CRC : Fld := ⟨0x13C, 0, 32, .ro, 0⟩

/-- HP_TWINE_LOSS (R446). -/
def HP_TWINE_LOSS : Fld := ⟨0x140, 0, 32, .ro, 0⟩

/-- HP_CAD.DRIVING (R446). -/
def HP_CAD_DRIVING : Fld := ⟨0x144, 0, 1, .ro, 0⟩

/-- HP_CAD.N (R446). -/
def HP_CAD_N : Fld := ⟨0x144, 8, 7, .ro, 64⟩

/-- HP_CNT_CLR.CLR (R446). -/
def HP_CNT_CLR_CLR : Fld := ⟨0x148, 0, 1, .w1s, 0⟩

/-- PCIE_IDENT.DEVICE_ID (R487). -/
def PCIE_IDENT_DEVICE_ID : Fld := ⟨0x100, 0, 16, .ro, 0⟩

/-- PCIE_LINK.SPEED (R487). -/
def PCIE_LINK_SPEED : Fld := ⟨0x104, 0, 4, .ro, 0⟩

/-- PCIE_LINK.WIDTH (R487). -/
def PCIE_LINK_WIDTH : Fld := ⟨0x104, 4, 5, .ro, 0⟩

/-- PCIE_LINK.FLIT (R487). -/
def PCIE_LINK_FLIT : Fld := ⟨0x104, 9, 1, .ro, 0⟩

/-- PCIE_LINK.UP (R487). -/
def PCIE_LINK_UP : Fld := ⟨0x104, 10, 1, .ro, 0⟩

/-- PCIE_WIN.BASE (R487). -/
def PCIE_WIN_BASE : Fld := ⟨0x108, 0, 12, .rwe, 0⟩

/-- PCIE_MODE.HUABEL (R487). -/
def PCIE_MODE_HUABEL : Fld := ⟨0x10C, 0, 1, .ro, 0⟩

/-- PCIE_MODE.HUABEL_NEXT (R487). -/
def PCIE_MODE_HUABEL_NEXT : Fld := ⟨0x10C, 1, 1, .rwk, 0⟩

/-- PCIE_DMA_CTRL.EN (R487). -/
def PCIE_DMA_CTRL_EN : Fld := ⟨0x110, 0, 8, .rwe, 0⟩

/-- PCIE_DMA_CTRL.RESTART (R487). -/
def PCIE_DMA_CTRL_RESTART : Fld := ⟨0x110, 8, 8, .w1s, 0⟩

/-- PCIE_DMA_CTRL.STOPPED (R487). -/
def PCIE_DMA_CTRL_STOPPED : Fld := ⟨0x110, 16, 8, .ro, 0⟩

/-- PCIE_CE_CNT (R487). -/
def PCIE_CE_CNT : Fld := ⟨0x114, 0, 32, .ro, 0⟩

/-- PCIE_UE_CNT (R487). -/
def PCIE_UE_CNT : Fld := ⟨0x118, 0, 32, .ro, 0⟩

/-- PCIE_UR_CNT (R487). -/
def PCIE_UR_CNT : Fld := ⟨0x11C, 0, 32, .ro, 0⟩

/-- PCIE_DMA_BYTES (R487). -/
def PCIE_DMA_BYTES : Fld := ⟨0x120, 0, 64, .ro, 0⟩

/-- PCIE_PTM.HOST (R487). -/
def PCIE_PTM_HOST : Fld := ⟨0x128, 0, 64, .ro, 0⟩

/-- PCIE_PTM.TICK (R487). -/
def PCIE_PTM_TICK : Fld := ⟨0x130, 0, 64, .ro, 0⟩

/-- PCIE_CNT_CLR.CLR (R487). -/
def PCIE_CNT_CLR_CLR : Fld := ⟨0x138, 0, 1, .w1s, 0⟩

/-- FAULT_CFG.Q_EN (R464). -/
def FAULT_CFG_Q_EN : Fld := ⟨0x100, 0, 1, .rwe, 1⟩

/-- FAULT_CFG.QUEUE (R464). -/
def FAULT_CFG_QUEUE : Fld := ⟨0x100, 8, 7, .rwe, 65⟩

/-- FAULT_CFG.VEC (R464). -/
def FAULT_CFG_VEC : Fld := ⟨0x100, 16, 8, .rwe, 1⟩

/-- FAULT_CFG.PIN_SEV (R464). -/
def FAULT_CFG_PIN_SEV : Fld := ⟨0x100, 24, 2, .rwe, 1⟩

/-- FAULT_COAL.MS (R464). -/
def FAULT_COAL_MS : Fld := ⟨0x104, 0, 14, .rwe, 100⟩

/-- FAULT_LOG_PTR.WR (R464). -/
def FAULT_LOG_PTR_WR : Fld := ⟨0x108, 0, 12, .ro, 0⟩

/-- FAULT_LOG_SEQ (R464). -/
def FAULT_LOG_SEQ : Fld := ⟨0x10C, 0, 32, .ro, 0⟩

/-- FAULT_LOG_SEL.SLOT (R464). -/
def FAULT_LOG_SEL_SLOT : Fld := ⟨0x110, 0, 12, .rwe, 0⟩

/-- FAULT_LOG_RD.RD (R464). -/
def FAULT_LOG_RD_RD : Fld := ⟨0x118, 0, 12, .rwe, 0⟩

/-- FAULT_LOG_DATA (R464). -/
def FAULT_LOG_DATA : Fld := ⟨0x120, 0, 256, .ro, 0⟩

/-- FAULT_ACK.DIE (R464). -/
def FAULT_ACK_DIE : Fld := ⟨0x140, 0, 5, .rwe, 0⟩

/-- FAULT_ACK.PAGE (R464). -/
def FAULT_ACK_PAGE : Fld := ⟨0x140, 5, 9, .rwe, 0⟩

/-- FAULT_ACK.SOURCE (R464). -/
def FAULT_ACK_SOURCE : Fld := ⟨0x140, 14, 5, .rwe, 0⟩

/-- FAULT_ACK.GO (R464). -/
def FAULT_ACK_GO : Fld := ⟨0x140, 31, 1, .rwe, 0⟩

/-- FAULT_ACK_STAT.RESULT (R464). -/
def FAULT_ACK_STAT_RESULT : Fld := ⟨0x144, 0, 3, .ro, 0⟩

/-- FAULT_INT.PEND (R464). -/
def FAULT_INT_PEND : Fld := ⟨0x148, 0, 1, .w1c, 0⟩

/-- FAULT_INT.NEW (R464). -/
def FAULT_INT_NEW : Fld := ⟨0x148, 16, 16, .ro, 0⟩

/-- FAULT_PIN.CLR (R464). -/
def FAULT_PIN_CLR : Fld := ⟨0x14C, 0, 1, .w1s, 0⟩

/-- FAULT_PIN.ASSERT (R464). -/
def FAULT_PIN_ASSERT : Fld := ⟨0x14C, 1, 1, .ro, 0⟩

/-- FAULT_PIN.HALTED (R464). -/
def FAULT_PIN_HALTED : Fld := ⟨0x14C, 2, 1, .ro, 0⟩

/-- FAULT_PIN.OPEN (R464). -/
def FAULT_PIN_OPEN : Fld := ⟨0x14C, 16, 16, .ro, 0⟩

/-- FAULT_CNT.QFULL (R464). -/
def FAULT_CNT_QFULL : Fld := ⟨0x150, 0, 16, .ro, 0⟩

/-- FAULT_CNT.OVF (R464). -/
def FAULT_CNT_OVF : Fld := ⟨0x150, 16, 16, .ro, 0⟩

/-- FAULT_CRASH.COUNT (R464). -/
def FAULT_CRASH_COUNT : Fld := ⟨0x154, 0, 11, .ro, 0⟩

/-- FAULT_CRASH.CLR (R464). -/
def FAULT_CRASH_CLR : Fld := ⟨0x154, 16, 1, .rwk, 0⟩

/-- FAULT_CNT_CLR.CLR (R464). -/
def FAULT_CNT_CLR_CLR : Fld := ⟨0x158, 0, 1, .w1s, 0⟩

/-- PR_STAT.IN_USE (R536). -/
def PR_STAT_IN_USE : Fld := ⟨0x100, 0, 2, .ro, 0⟩

/-- PR_STAT.SOURCE (R536). -/
def PR_STAT_SOURCE : Fld := ⟨0x100, 2, 2, .ro, 0⟩

/-- PR_STAT.VALID (R536). -/
def PR_STAT_VALID : Fld := ⟨0x100, 4, 4, .ro, 0⟩

/-- PR_STAT.PIN_SAMPLED (R536). -/
def PR_STAT_PIN_SAMPLED : Fld := ⟨0x100, 8, 2, .ro, 0⟩

/-- PR_STAT.PIN_NOW (R536). -/
def PR_STAT_PIN_NOW : Fld := ⟨0x100, 10, 2, .ro, 0⟩

/-- PR_STAT.UNSTABLE (R536). -/
def PR_STAT_UNSTABLE : Fld := ⟨0x100, 12, 1, .ro, 0⟩

/-- PR_OVERRIDE.IDX (R536). -/
def PR_OVERRIDE_IDX : Fld := ⟨0x104, 0, 2, .rwk, 0⟩

/-- PR_OVERRIDE.EN (R536). -/
def PR_OVERRIDE_EN : Fld := ⟨0x104, 8, 1, .rwk, 0⟩

/-- PR_OVERRIDE.ONCE (R536). -/
def PR_OVERRIDE_ONCE : Fld := ⟨0x104, 9, 1, .rwk, 0⟩

/-- PR_SEL.PROF (R536). -/
def PR_SEL_PROF : Fld := ⟨0x108, 0, 2, .rwe, 0⟩

/-- PR_SEL.WORD (R536). -/
def PR_SEL_WORD : Fld := ⟨0x108, 2, 7, .rwe, 0⟩

/-- PR_DATA (R536). -/
def PR_DATA : Fld := ⟨0x10C, 0, 32, .rwk, 0⟩

/-- PR_CTRL.LOAD (R536). -/
def PR_CTRL_LOAD : Fld := ⟨0x110, 0, 1, .w1s, 0⟩

/-- PR_CTRL.SAVE (R536). -/
def PR_CTRL_SAVE : Fld := ⟨0x110, 1, 1, .rwk, 0⟩

/-- PR_CTRL.ERR (R536). -/
def PR_CTRL_ERR : Fld := ⟨0x110, 2, 1, .w1c, 0⟩

/-- SEC_LC.STATE (R536). -/
def SEC_LC_STATE : Fld := ⟨0x100, 0, 2, .ro, 0⟩

/-- SEC_LC.REQ (R536). -/
def SEC_LC_REQ : Fld := ⟨0x100, 8, 2, .rwk, 0⟩

/-- SEC_BOOT.IMAGE (R536). -/
def SEC_BOOT_IMAGE : Fld := ⟨0x104, 0, 1, .ro, 0⟩

/-- SEC_BOOT.SVN (R536). -/
def SEC_BOOT_SVN : Fld := ⟨0x104, 8, 8, .ro, 0⟩

/-- SEC_BOOT.MIN_SVN (R536). -/
def SEC_BOOT_MIN_SVN : Fld := ⟨0x104, 16, 8, .ro, 0⟩

/-- SEC_KEY_SEL.SLOT (R536). -/
def SEC_KEY_SEL_SLOT : Fld := ⟨0x108, 0, 3, .rwe, 0⟩

/-- SEC_KEY_CTRL.PROGRAM (R536). -/
def SEC_KEY_CTRL_PROGRAM : Fld := ⟨0x10C, 0, 1, .rwk, 0⟩

/-- SEC_KEY_CTRL.REVOKE (R536). -/
def SEC_KEY_CTRL_REVOKE : Fld := ⟨0x10C, 8, 8, .rwk, 0⟩

/-- SEC_KEY_CTRL.FUSED (R536). -/
def SEC_KEY_CTRL_FUSED : Fld := ⟨0x10C, 16, 8, .ro, 0⟩

/-- SEC_KEYHASH (R536). -/
def SEC_KEYHASH : Fld := ⟨0x110, 0, 384, .rwk, 0⟩

/-- SEC_DBG.LEVEL (R536). -/
def SEC_DBG_LEVEL : Fld := ⟨0x140, 0, 2, .ro, 0⟩

/-- SEC_DBG.REQ (R536). -/
def SEC_DBG_REQ : Fld := ⟨0x140, 4, 2, .rwe, 0⟩

/-- SEC_DBG.SCRUB (R536). -/
def SEC_DBG_SCRUB : Fld := ⟨0x140, 8, 1, .ro, 0⟩

/-- SEC_DBG.FAIL (R536). -/
def SEC_DBG_FAIL : Fld := ⟨0x140, 9, 1, .w1c, 0⟩

/-- SEC_CHAL (R536). -/
def SEC_CHAL : Fld := ⟨0x150, 0, 384, .ro, 0⟩

/-- SEC_RESP (R536). -/
def SEC_RESP : Fld := ⟨0x180, 0, 768, .rwe, 0⟩

/-- SEC_JTAG.SKIP (R536). -/
def SEC_JTAG_SKIP : Fld := ⟨0x1E0, 0, 20, .rwe, 0⟩

/-- SQ_CFG.WM (R488). -/
def SQ_CFG_WM : Fld := ⟨0x100, 0, 10, .rwe, 256⟩

/-- SQ_CFG.WM_INT (R488). -/
def SQ_CFG_WM_INT : Fld := ⟨0x100, 16, 1, .rwe, 0⟩

/-- SQ_CFG.VEC (R488). -/
def SQ_CFG_VEC : Fld := ⟨0x100, 24, 8, .rwe, 0⟩

/-- SQ_STAT.LEVEL (R488). -/
def SQ_STAT_LEVEL : Fld := ⟨0x104, 0, 10, .ro, 0⟩

/-- SQ_STAT.EMPTY (R488). -/
def SQ_STAT_EMPTY : Fld := ⟨0x104, 10, 1, .ro, 1⟩

/-- SQ_STAT.FULL (R488). -/
def SQ_STAT_FULL : Fld := ⟨0x104, 11, 1, .ro, 0⟩

/-- SQ_STAT.DROP (R488). -/
def SQ_STAT_DROP : Fld := ⟨0x104, 12, 1, .ro, 0⟩

/-- SQ_STAT.FLUSHING (R488). -/
def SQ_STAT_FLUSHING : Fld := ⟨0x104, 13, 1, .ro, 0⟩

/-- SQ_STAT.DRAIN_BANK (R488). -/
def SQ_STAT_DRAIN_BANK : Fld := ⟨0x104, 14, 1, .ro, 0⟩

/-- SQ_STAT.OVERRUN (R488). -/
def SQ_STAT_OVERRUN : Fld := ⟨0x104, 16, 1, .w1c, 0⟩

/-- SQ_STAT.PTR_RESET (R488). -/
def SQ_STAT_PTR_RESET : Fld := ⟨0x104, 17, 1, .w1c, 0⟩

/-- SQ_STAT.TRUNC (R488). -/
def SQ_STAT_TRUNC : Fld := ⟨0x104, 18, 1, .w1c, 0⟩

/-- SQ_WM.HIT (R488). -/
def SQ_WM_HIT : Fld := ⟨0x108, 0, 1, .w1c, 0⟩

/-- SQ_WM.CNT (R488). -/
def SQ_WM_CNT : Fld := ⟨0x108, 8, 8, .ro, 0⟩

/-- SQ_WM.LAST (R488). -/
def SQ_WM_LAST : Fld := ⟨0x108, 16, 10, .ro, 0⟩

/-- SQ_PTR.WR (R488). -/
def SQ_PTR_WR : Fld := ⟨0x10C, 0, 9, .ro, 0⟩

/-- SQ_PTR.RD (R488). -/
def SQ_PTR_RD : Fld := ⟨0x10C, 16, 9, .ro, 0⟩

/-- SQ_PTR2.REL (R488). -/
def SQ_PTR2_REL : Fld := ⟨0x110, 0, 9, .ro, 0⟩

/-- SQ_PTR2.MK (R488). -/
def SQ_PTR2_MK : Fld := ⟨0x110, 16, 9, .ro, 0⟩

/-- SQ_PTR2.MK_VALID (R488). -/
def SQ_PTR2_MK_VALID : Fld := ⟨0x110, 25, 1, .ro, 0⟩

/-- SQ_CONS.MARK (R488). -/
def SQ_CONS_MARK : Fld := ⟨0x114, 0, 1, .w1s, 0⟩

/-- SQ_CONS.REWIND (R488). -/
def SQ_CONS_REWIND : Fld := ⟨0x114, 1, 1, .w1s, 0⟩

/-- SQ_CONS.RELEASE (R488). -/
def SQ_CONS_RELEASE : Fld := ⟨0x114, 2, 1, .w1s, 0⟩

/-- SQ_CTRL.FLUSH (R488). -/
def SQ_CTRL_FLUSH : Fld := ⟨0x118, 0, 1, .w1s, 0⟩

/-- SQ_CTRL.RESET (R488). -/
def SQ_CTRL_RESET : Fld := ⟨0x118, 1, 1, .w1s, 0⟩

/-- SQ_FLUSH_TMO.US (R488). -/
def SQ_FLUSH_TMO_US : Fld := ⟨0x11C, 0, 16, .rwe, 100⟩

/-- SQ_PKT.PKT (R488). -/
def SQ_PKT_PKT : Fld := ⟨0x120, 0, 16, .ro, 0⟩

/-- SQ_SEQ (R488). -/
def SQ_SEQ : Fld := ⟨0x124, 0, 32, .ro, 0⟩

/-- SQ_CNT_OVR (R488). -/
def SQ_CNT_OVR : Fld := ⟨0x128, 0, 32, .ro, 0⟩

/-- SQ_CNT_REFUSED (R488). -/
def SQ_CNT_REFUSED : Fld := ⟨0x12C, 0, 16, .ro, 0⟩

/-- SQ_CNT_RESET (R488). -/
def SQ_CNT_RESET : Fld := ⟨0x12C, 16, 16, .ro, 0⟩

/-- SQ_CNT_PARITY (R488). -/
def SQ_CNT_PARITY : Fld := ⟨0x130, 0, 32, .ro, 0⟩

/-- SQ_CNT_DROP (R488). -/
def SQ_CNT_DROP : Fld := ⟨0x134, 0, 32, .ro, 0⟩

/-- SQ_CNT_LINES (R488). -/
def SQ_CNT_LINES : Fld := ⟨0x138, 0, 64, .ro, 0⟩

/-- SQ_CNT_CLR.CLR (R488). -/
def SQ_CNT_CLR_CLR : Fld := ⟨0x140, 0, 1, .w1s, 0⟩

/-- PKG_IDENT.PKG_ID (R58). -/
def PKG_IDENT_PKG_ID : Fld := ⟨0x100, 0, 8, .ro, 0⟩

/-- PKG_IDENT.GRADE (R58). -/
def PKG_IDENT_GRADE : Fld := ⟨0x100, 8, 1, .ro, 0⟩

/-- PKG_IDENT.FUSE_GRADE (R58). -/
def PKG_IDENT_FUSE_GRADE : Fld := ⟨0x100, 9, 1, .ro, 0⟩

/-- PKG_IDENT.ARITH_CLASS (R58). -/
def PKG_IDENT_ARITH_CLASS : Fld := ⟨0x100, 16, 16, .ro, 2817⟩

/-- PKG_STAGE.STAGE (R58). -/
def PKG_STAGE_STAGE : Fld := ⟨0x104, 0, 3, .ro, 0⟩

/-- PKG_STAGE.READY (R58). -/
def PKG_STAGE_READY : Fld := ⟨0x104, 3, 1, .ro, 0⟩

/-- PKG_STAGE.ACTIVE_HOOP (R58). -/
def PKG_STAGE_ACTIVE_HOOP : Fld := ⟨0x104, 4, 1, .ro, 0⟩

/-- PKG_SNAP_CTRL.REQ (R58). -/
def PKG_SNAP_CTRL_REQ : Fld := ⟨0x110, 0, 1, .w1s, 0⟩

/-- PKG_SNAP_CTRL.BUSY (R58). -/
def PKG_SNAP_CTRL_BUSY : Fld := ⟨0x110, 1, 1, .ro, 0⟩

/-- PKG_SNAP_CTRL.LEAD (R58). -/
def PKG_SNAP_CTRL_LEAD : Fld := ⟨0x110, 16, 16, .rwe, 1000⟩

/-- PKG_SNAP_STAT.SEQ (R58). -/
def PKG_SNAP_STAT_SEQ : Fld := ⟨0x114, 0, 16, .ro, 0⟩

/-- PKG_SNAP_STAT.LATE (R58). -/
def PKG_SNAP_STAT_LATE : Fld := ⟨0x114, 16, 1, .ro, 0⟩

/-- PKG_SNAP_STAT.MISSING (R58). -/
def PKG_SNAP_STAT_MISSING : Fld := ⟨0x114, 17, 1, .ro, 0⟩

/-- PKG_SNAP_STAT.LATE_CNT (R58). -/
def PKG_SNAP_STAT_LATE_CNT : Fld := ⟨0x114, 24, 8, .ro, 0⟩

/-- PKG_SNAP_TICK (R58). -/
def PKG_SNAP_TICK : Fld := ⟨0x118, 0, 64, .ro, 0⟩

/-- PKG_SNAP_MISS (R58). -/
def PKG_SNAP_MISS : Fld := ⟨0x128, 0, 20, .ro, 0⟩

/-- PKG_STAGE_CTRL.OPEN (R58). -/
def PKG_STAGE_CTRL_OPEN : Fld := ⟨0x120, 0, 1, .rwe, 0⟩

/-- PKG_STAGE_CTRL.COMMIT (R58). -/
def PKG_STAGE_CTRL_COMMIT : Fld := ⟨0x120, 1, 1, .rwe, 0⟩

/-- PKG_STAGE_STAT.STATE (R58). -/
def PKG_STAGE_STAT_STATE : Fld := ⟨0x124, 0, 2, .ro, 0⟩

/-- PKG_STAGE_STAT.DONE (R58). -/
def PKG_STAGE_STAT_DONE : Fld := ⟨0x124, 2, 1, .w1c, 0⟩

/-- PKG_STAGE_STAT.FAIL (R58). -/
def PKG_STAGE_STAT_FAIL : Fld := ⟨0x124, 3, 1, .w1c, 0⟩

/-- PKG_STAGE_STAT.FAIL_DIE (R58). -/
def PKG_STAGE_STAT_FAIL_DIE : Fld := ⟨0x124, 4, 5, .ro, 0⟩

/-- PKG_STAGE_STAT.FAIL_CAUSE (R58). -/
def PKG_STAGE_STAT_FAIL_CAUSE : Fld := ⟨0x124, 9, 3, .ro, 0⟩

/-- PKG_STAGE_STAT.COMMIT_SEQ (R58). -/
def PKG_STAGE_STAT_COMMIT_SEQ : Fld := ⟨0x124, 16, 16, .ro, 0⟩

/-- PKG_REJ_CNT (R58). -/
def PKG_REJ_CNT : Fld := ⟨0x130, 0, 32, .ro, 0⟩

/-- PKG_REJ_LAST.OFFSET (R58). -/
def PKG_REJ_LAST_OFFSET : Fld := ⟨0x134, 0, 26, .ro, 0⟩

/-- PKG_REJ_LAST.CAUSE (R58). -/
def PKG_REJ_LAST_CAUSE : Fld := ⟨0x134, 28, 4, .ro, 0⟩

/-- PKG_START.GO (R536). -/
def PKG_START_GO : Fld := ⟨0x140, 0, 1, .w1s, 0⟩

/-- PKG_START.AUTO (R536). -/
def PKG_START_AUTO : Fld := ⟨0x140, 1, 1, .ro, 0⟩

/-- PKG_START.HOLD_AT (R536). -/
def PKG_START_HOLD_AT : Fld := ⟨0x140, 2, 3, .rwe, 0⟩

/-- PKG_START_STAT.FAIL (R536). -/
def PKG_START_STAT_FAIL : Fld := ⟨0x144, 0, 1, .w1c, 0⟩

/-- PKG_START_STAT.FAIL_STAGE (R536). -/
def PKG_START_STAT_FAIL_STAGE : Fld := ⟨0x144, 1, 3, .ro, 0⟩

/-- PKG_START_STAT.FAIL_CAUSE (R536). -/
def PKG_START_STAT_FAIL_CAUSE : Fld := ⟨0x144, 4, 4, .ro, 0⟩

/-- PKG_START_STAT.LATE (R536). -/
def PKG_START_STAT_LATE : Fld := ⟨0x144, 8, 4, .w1c, 0⟩

/-- PKG_STAGE_MS (R536). -/
def PKG_STAGE_MS : Fld := ⟨0x148, 0, 32, .ro, 0⟩

/-- PKG_TAG (R59). -/
def PKG_TAG : Fld := ⟨0x100, 0, 2048, .rw, 0⟩

/-- PKG_TAG_CTRL.SAVE (R59). -/
def PKG_TAG_CTRL_SAVE : Fld := ⟨0x200, 0, 1, .rwe, 0⟩

/-- PKG_TAG_CTRL.SAVE_ERR (R59). -/
def PKG_TAG_CTRL_SAVE_ERR : Fld := ⟨0x200, 1, 1, .w1c, 0⟩

/-- PKG_TICK (R327). -/
def PKG_TICK : Fld := ⟨0x100, 0, 64, .ro, 0⟩

/-- PKG_TIME_CTRL.ARM (R327). -/
def PKG_TIME_CTRL_ARM : Fld := ⟨0x108, 0, 1, .w1s, 0⟩

/-- PKG_TIME_CTRL.ARMED (R327). -/
def PKG_TIME_CTRL_ARMED : Fld := ⟨0x108, 1, 1, .ro, 0⟩

/-- PKG_TIME_CTRL.ZEROED (R327). -/
def PKG_TIME_CTRL_ZEROED : Fld := ⟨0x108, 2, 1, .ro, 0⟩

/-- PKG_TIME_CTRL.CHECK_EN (R327). -/
def PKG_TIME_CTRL_CHECK_EN : Fld := ⟨0x108, 3, 1, .rwe, 1⟩

/-- PKG_TIME_CTRL.TOL (R327). -/
def PKG_TIME_CTRL_TOL : Fld := ⟨0x108, 8, 8, .rwe, 2⟩

/-- PKG_TIME_STAT.OFFSET (R327). -/
def PKG_TIME_STAT_OFFSET : Fld := ⟨0x10C, 0, 16, .ro, 0⟩

/-- PKG_TIME_STAT.STUCK (R327). -/
def PKG_TIME_STAT_STUCK : Fld := ⟨0x10C, 16, 1, .ro, 0⟩

/-- PKG_TIME_STAT.SLIP_CNT (R327). -/
def PKG_TIME_STAT_SLIP_CNT : Fld := ⟨0x10C, 24, 8, .ro, 0⟩

/-- PKG_EPOCH_IGN (R327). -/
def PKG_EPOCH_IGN : Fld := ⟨0x110, 0, 32, .ro, 0⟩

/-- PKG_EPOCH_CNT (R327). -/
def PKG_EPOCH_CNT : Fld := ⟨0x114, 0, 32, .ro, 0⟩

/-- PKG_STEP (R327). -/
def PKG_STEP : Fld := ⟨0x120, 0, 64, .rwe, 0⟩

/-- PKG_SEED (R327). -/
def PKG_SEED : Fld := ⟨0x128, 0, 64, .rwe, 0⟩

/-- PKG_DSEED (R327). -/
def PKG_DSEED : Fld := ⟨0x130, 0, 64, .rwe, 0⟩

/-- PKG_BORDER.LEAD (R327). -/
def PKG_BORDER_LEAD : Fld := ⟨0x138, 0, 16, .rwe, 2000⟩

/-- PKG_BORDER_SEQ (R327). -/
def PKG_BORDER_SEQ : Fld := ⟨0x13C, 0, 32, .ro, 0⟩

/-- PKG_BORDER_LAST.SPAN (R327). -/
def PKG_BORDER_LAST_SPAN : Fld := ⟨0x140, 0, 16, .ro, 0⟩

/-- PKG_BORDER_LAST.LATE (R327). -/
def PKG_BORDER_LAST_LATE : Fld := ⟨0x140, 16, 1, .ro, 0⟩

/-- PKG_BORDER_LAST.LAST_PKG (R327). -/
def PKG_BORDER_LAST_LAST_PKG : Fld := ⟨0x140, 24, 8, .ro, 0⟩

/-- PKG_BORDER_LATE_CNT (R327). -/
def PKG_BORDER_LATE_CNT : Fld := ⟨0x144, 0, 32, .ro, 0⟩

/-- PKG_BREAK.ID (R327). -/
def PKG_BREAK_ID : Fld := ⟨0x148, 0, 8, .rwe, 0⟩

/-- PKG_BREAK.EN (R327). -/
def PKG_BREAK_EN : Fld := ⟨0x148, 8, 1, .rwe, 0⟩

/-- PKG_BREAK.MODE (R327). -/
def PKG_BREAK_MODE : Fld := ⟨0x148, 9, 1, .rwe, 0⟩

/-- PKG_BREAK.COUNT (R327). -/
def PKG_BREAK_COUNT : Fld := ⟨0x148, 16, 16, .rwe, 0⟩

/-- PKG_BREAK_STAT.HIT (R327). -/
def PKG_BREAK_STAT_HIT : Fld := ⟨0x14C, 0, 1, .w1c, 0⟩

/-- PKG_BREAK_STAT.ID (R327). -/
def PKG_BREAK_STAT_ID : Fld := ⟨0x14C, 8, 8, .ro, 0⟩

/-- PKG_BREAK_STEP (R327). -/
def PKG_BREAK_STEP : Fld := ⟨0x150, 0, 64, .rwe, 0⟩

/-- PKG_AUDIT_MASK (R327). -/
def PKG_AUDIT_MASK : Fld := ⟨0x160, 0, 32, .rwe, 0⟩

/-- PKG_STEP_MASK (R327). -/
def PKG_STEP_MASK : Fld := ⟨0x180, 0, 32, .rwe, 0⟩

/-- PKG_AUDIT_CTRL.EN (R327). -/
def PKG_AUDIT_CTRL_EN : Fld := ⟨0x1A0, 0, 1, .rwe, 0⟩

/-- PKG_AUDIT_CTRL.QUEUE (R327). -/
def PKG_AUDIT_CTRL_QUEUE : Fld := ⟨0x1A0, 8, 7, .rwe, 64⟩

/-- PKG_AUDIT_STAT.SEQ (R327). -/
def PKG_AUDIT_STAT_SEQ : Fld := ⟨0x1A4, 0, 16, .ro, 0⟩

/-- PKG_AUDIT_STAT.LOST_CNT (R327). -/
def PKG_AUDIT_STAT_LOST_CNT : Fld := ⟨0x1A4, 16, 16, .ro, 0⟩


end R

/-- The fields of the hdr pages. -/
def flds_hdr : List Fld :=
  [R.PG_ID_TYPE, R.PG_ID_INSTANCE, R.PG_ID_VERSION, R.PG_CAPS_NSRC, R.PG_CAPS_STAGE_CAP, R.PG_CAPS_KEY_CAP, R.PG_CTRL_ENABLE, R.PG_CTRL_SOFT_RESET, R.PG_CTRL_UNLOCK, R.PG_STATUS_ALIVE, R.PG_STATUS_KEY_OPEN, R.PG_STATUS_STAGE_PEND, R.PG_STATUS_STAGE_OVF, R.PG_STATUS_FENCE_REJ, R.PG_STATUS_REJ, R.PG_STATUS_BLOCK, R.PG_FSTAT_SRC, R.PG_FMASK_MASK, R.PG_FSEV0_SEV, R.PG_FSEV1_SEV] ++
  [R.PG_FTIMER_GRACE_MS, R.PG_EPOCH_EPOCH, R.PG_SNAP_SEQ, R.PG_SNAP_LATE, R.PG_SNAP_VALID, R.PG_TAG]

/-- The fields of the os pages. -/
def flds_os : List Fld :=
  [R.OS_IDENT_ARITH_CLASS, R.OS_IDENT_DIE, R.OS_IDENT_GRADE, R.OS_PROG_CTRL_ARM, R.OS_PROG_CTRL_STOP, R.OS_PROG_CTRL_LOADED, R.OS_PROG_STAT_STATE, R.OS_PROG_STAT_HELD, R.OS_PROG_STAT_SYNC_ID, R.OS_IMAGE_ID, R.OS_CC, R.OS_RUN_CYC, R.OS_HOLD_CYC, R.OS_WAIT_CYC, R.OS_SYNC_CNT, R.OS_SYNC_LAST_ID, R.OS_SYNC_LAST_LAST_DIE, R.OS_SYNC_LAST_LAST_COND, R.OS_SYNC_LAST_WAIT8, R.OS_SYNC_TMO_MS] ++
  [R.OS_HOLD_TICKS, R.OS_CAD_N, R.OS_CAD_ALIGN_OK, R.OS_CAD_ALIGN_CNT, R.OS_TBL_SEL_TABLE, R.OS_TBL_SEL_UNIT, R.OS_TBL_SEL_INDEX, R.OS_TBL_SEL_HIGH, R.OS_TBL_DATA, R.OS_EVT_ADD_CNT, R.OS_EVT_ADD_AMOUNT, R.OS_MESH_LAST_ROUTER, R.OS_MESH_LAST_PORT, R.OS_MESH_LAST_SOURCE, R.OS_MESH_LAST_CYCLE, R.OS_MESH_CNT, R.OS_OVB_LAST_PC, R.OS_OVB_LAST_BYTES, R.OS_OVB_CNT, R.OS_OVB_LIMIT_BYTES] ++
  [R.OS_ROUTE_CE_CNT, R.OS_CNT_CLR_CLR] ++
  ((List.range 16).map (Fld.idx R.OS_EVT_CNT))

/-- The fields of the tg pages. -/
def flds_tg : List Fld :=
  [R.OS_TG_ENABLE_TILE_EN, R.OS_TG_ACC_MODE_CLOSE, R.OS_TG_STATE_ST, R.OS_TG_TAINT_TAINT, R.OS_TG_PC_SEL_TILE, R.OS_TG_PC_PC, R.OS_TG_PC_LOOP_DEPTH, R.OS_TG_PC_LOOP_FULL, R.OS_TG_ZERO_REQ, R.OS_TG_CE_CNT, R.OS_TG_UE_CNT, R.OS_TG_POISON_CNT, R.OS_TG_CONFLICT_CNT, R.OS_TG_CNT_CLR_CLR, R.OS_TG_CONFLICT_LAST_TILE, R.OS_TG_CONFLICT_LAST_SOURCE, R.OS_TG_CONFLICT_LAST_CYCLE, R.OS_TG_ECC_LAST_TILE, R.OS_TG_ECC_LAST_MEM, R.OS_TG_ECC_LAST_UE] ++
  [R.OS_TG_ECC_LAST_LINE] ++
  ((List.range 8).map (Fld.idx R.OS_TG_IMEM_VALID))

/-- The fields of the mc pages. -/
def flds_mc : List Fld :=
  [R.MC_ENV_CYC, R.MC_STAT_TRAINED, R.MC_STAT_REF2X, R.MC_STAT_TEMP, R.MC_CE_CNT, R.MC_UE_CNT, R.MC_LATE_CNT, R.MC_POISON_RD_CNT, R.MC_ERR_ADDR, R.MC_ERR_ADDR_SRC, R.MC_SCRUB_EN, R.MC_SCRUB_INTERVAL_H, R.MC_SIDE_BYTES, R.MC_CNT_CLR_CLR]

/-- The fields of the st pages. -/
def flds_st : List Fld :=
  [R.ST_STATE_ST, R.ST_STATE_SEG, R.ST_OUTST_NOW, R.ST_OUTST_PEAK, R.ST_OUTST_BORROW, R.ST_SCHED_SEL_INDEX, R.ST_SCHED_SEL_WORD, R.ST_SCHED_DATA, R.ST_TX_CNT, R.ST_ERR_LAST_INDEX, R.ST_ERR_LAST_SRC, R.ST_DIG_SEL_REG, R.ST_DIG, R.ST_DIG_BASE, R.ST_BORROW_TMO_MS, R.ST_CNT_CLR_CLR, R.ST_STAKE_SEL_GRANULE, R.ST_STAKE_DATA, R.ST_STAKE_CNT_BORROWED, R.ST_STAKE_CNT_LENT] ++
  [R.ST_STAKE_CE_CNT, R.ST_DIG_PCNT, R.ST_DLAT_STAT_ID, R.ST_DLAT_STAT_FULL, R.ST_DLAT_STAT_OVR, R.ST_DLAT_STAT_SEQ, R.ST_DLAT_SEL_REG, R.ST_DLAT, R.ST_DLAT_PCNT, R.ST_DLAT_ACK_ACK]

/-- The fields of the ce pages. -/
def flds_ce : List Fld :=
  [R.CE_STATE_ST, R.CE_STATE_SEG, R.CE_STATE_SENDS, R.CE_STATE_RECVS, R.CE_SCHED_SEL_INDEX, R.CE_SCHED_SEL_WORD, R.CE_SCHED_DATA, R.CE_RANK_SEL_RANK, R.CE_RANK_DATA_PKG, R.CE_RANK_DATA_VALID, R.CE_SLOT_SLOT_A, R.CE_SLOT_SLOT_B, R.CE_SLOT_TWO, R.CE_TX_BYTES, R.CE_RX_BYTES, R.CE_RX_DROP, R.CE_ERR_LAST_INDEX, R.CE_ERR_LAST_SRC, R.CE_ERR_LAST_RANK, R.CE_BUF_CE_CNT] ++
  [R.CE_CNT_CLR_CLR]

/-- The fields of the wl pages. -/
def flds_wl : List Fld :=
  [R.WL_CTRL_RETRAIN, R.WL_CTRL_SCRATCH, R.WL_CTRL_WIDTH8, R.WL_CTRL_HALF, R.WL_CTRL_HOLD_REQ, R.WL_STAT_STATE, R.WL_STAT_W8, R.WL_STAT_HALF, R.WL_STAT_LEADER, R.WL_STAT_BONDED, R.WL_STAT_SUPERSEDED, R.WL_STAT_PHASE, R.WL_STAT_SLACK, R.WL_TOKEN_LOCAL, R.WL_TOKEN_REMOTE, R.WL_REPAIR_SEL_DIR, R.WL_REPAIR_SEL_MODULE, R.WL_REPAIR_SEL_ENTRY, R.WL_REPAIR_DATA_WIRE, R.WL_REPAIR_DATA_BYE] ++
  [R.WL_POOL_FREE, R.WL_POOL_REPAIRS, R.WL_POOL_SBW, R.WL_CE_CNT, R.WL_UE_CNT, R.WL_SB_CE_CNT, R.WL_SB_UE_CNT, R.WL_WIRE_SEL_MODULE, R.WL_WIRE_SEL_WIRE, R.WL_WIRE_CNT, R.WL_WIRE_THR_COUNT, R.WL_WIRE_THR_WINDOW_MS, R.WL_WIRE_LAST_MODULE, R.WL_WIRE_LAST_WIRE, R.WL_WIRE_LAST_NOSPARE, R.WL_SLIP_CNT, R.WL_TRAIN_TMO_US, R.WL_TRAIN_CNT_ROUNDS, R.WL_TRAIN_CNT_MISMATCH, R.WL_TEST_ERR] ++
  ((List.range 4).map (Fld.idx R.WL_EYE)) ++
  [R.WL_EYE_MIN_MIN, R.WL_CNT_CLR_CLR]

/-- The fields of the th pages. -/
def flds_th : List Fld :=
  [R.TH_SEL_SENSOR, R.TH_READ_RAW, R.TH_READ_TEMP, R.TH_READ_SUBST, R.TH_READ_FORCED, R.TH_MAX_TEMP, R.TH_MAX_SENSOR, R.TH_MAX_FAST, R.TH_STAT_WARN, R.TH_STAT_NOLIVE, R.TH_STAT_FAILED, R.TH_ADJ_THROT_LOWER, R.TH_ADJ_WARN_LOWER, R.TH_LIMITS_THROT, R.TH_LIMITS_WARN, R.TH_LIMITS_TRIP, R.TH_LIMITS_RESTART, R.TH_LIMITS_HBM, R.TH_FORCE_SENSOR, R.TH_FORCE_SET] ++
  [R.TH_FORCE_CLR, R.TH_OCP_A, R.TH_FAIL_CNT, R.TH_PKG_TEMP_TEMP, R.TH_PKG_TEMP_SENSOR, R.TH_PKG_TEMP_SUBST, R.TH_PKG_EXCESS_QH, R.TH_PKG_EXCESS_Q, R.TH_PKG_EXCESS_RELAX_MS, R.TH_PKG_N_NT, R.TH_PKG_N_NP, R.TH_PKG_N_ND, R.TH_PKG_N_N, R.TH_PKG_K_K, R.TH_DRV_LIMIT_N, R.TH_CAP_W, R.TH_PWR_AVG, R.TH_PWR_PEAK, R.TH_PKG_STATE_STATE, R.TH_SAFE_N] ++
  [R.TH_SAFE_FORCE, R.TH_SAFE_CLR, R.TH_SAFE_CAUSE, R.TH_TRIP_LAST_DIE, R.TH_TRIP_LAST_WHERE, R.TH_TRIP_LAST_CNT, R.TH_NV_OK, R.TH_NV_REFUSED, R.TH_CNT_CLR_CLR]

/-- The fields of the age pages. -/
def flds_age : List Fld :=
  [R.AGE_SEL_MON, R.AGE_MON_CLASS, R.AGE_MON_CONF, R.AGE_MON_VALID, R.AGE_EOL_HOURS, R.AGE_VALUE, R.AGE_LIMIT_L, R.AGE_SAMPLES_N, R.AGE_WORST_MON, R.AGE_WORST_CONF, R.AGE_WORST_EOL, R.AGE_WARN_H_H, R.AGE_HOURS, R.AGE_LOG_PENDING, R.AGE_LOG_DROPPED, R.AGE_LOG_CLR]

/-- The fields of the wf pages. -/
def flds_wf : List Fld :=
  [R.WF_IDENT_DIE, R.WF_IDENT_REED, R.WF_PLANE_EN_EN, R.WF_CAL_CTRL_COMMIT, R.WF_CAL_CTRL_GEN, R.WF_CAL_STAT_BANK, R.WF_CAL_STAT_REJ, R.WF_CAL_STAT_REJ_ITEM, R.WF_CAL_STAT_COMMIT_CNT, R.WF_CAL_SEL_FIB, R.WF_CAL_SEL_K, R.WF_CAL_SEL_DIR, R.WF_CAL_SEL_ITEM, R.WF_CAL_DATA, R.WF_CAL_LIM_HEAT, R.WF_CAL_LIM_DRV, R.WF_CAL_LIM_SWEEP, R.WF_CAL_LIM2_EYE_MIN, R.WF_RING_PLAUS_STEP, R.WF_LOS_THR] ++
  [R.WF_LOOP_WIN_MS, R.WF_LASER_ON_ON]

/-- The fields of the fib pages. -/
def flds_fib : List Fld :=
  [R.WF_FIB_STAT_PLANE, R.WF_FIB_STAT_LOOP_OK, R.WF_FIB_STAT_DARK, R.WF_FIB_STAT_GATE, R.WF_FIB_STAT_REFUSED, R.WF_FIB_SYNC_SYNC, R.WF_FIB_SLIP_SLIP, R.WF_FIB_REACQ_TX, R.WF_FIB_REACQ_RX, R.WF_FIB_MODE_TX, R.WF_FIB_MODE_RX, R.WF_FIB_LOOP_RX_PKG, R.WF_FIB_LOOP_RX_PLANE, R.WF_FIB_LOOP_ID_OK, R.WF_FIB_LOOP_ERR, R.WF_LSEL_K, R.WF_LSEL_DIR, R.WF_LANE_STAT_STATE, R.WF_LANE_STAT_SYNC_OK, R.WF_LANE_STAT_DFRZ] ++
  [R.WF_LANE_STAT_DENS, R.WF_LANE_STAT_SLIPS, R.WF_LANE_HEAT_CODE, R.WF_LANE_HEAT_PEAK, R.WF_LANE_LOCK_TGT, R.WF_LANE_LOCK_NOW, R.WF_LANE_LOCK_PEAK, R.WF_LANE_TRIM_THR, R.WF_LANE_TRIM_EYE, R.WF_LANE_TX_DRV, R.WF_LANE_TX_ER, R.WF_LANE_HDR_ERR, R.WF_LANE_TEST_ERR, R.WF_LANE_TEST_BITS, R.WF_FIB_CNT_CLR_CLR]

/-- The fields of the sb pages. -/
def flds_sb : List Fld :=
  [R.SB_COM_CTRL_EN, R.SB_COM_CTRL_CLUSTER, R.SB_COM_ID_PKG_ID, R.SB_COM_ID_POD_SIZE, R.SB_COM_ID_POD_COUNT, R.SB_POOL_FREE, R.SB_POOL_BULK_FREE, R.SB_REPLAY_FREE, R.SB_REPLAY_FWD_Q, R.SB_RET_WIN_LOG2, R.SB_RET_THR_RETIRE, R.SB_RET_THR_WARN, R.SB_RTN_LOG2_BITS, R.SB_RTN_ERR, R.SB_SEEK_INT_MS, R.SB_FWD_CNT, R.SB_MISROUTE_CNT, R.SB_MEM_CE_CNT, R.SB_COM_CNT_CLR_CLR]

/-- The fields of the sbk pages. -/
def flds_sbk : List Fld :=
  [R.SB_CTRL_RESET, R.SB_CTRL_DRAIN, R.SB_CTRL_AUTO_RET, R.SB_CTRL_AUTO_RTN, R.SB_STAT_STATE, R.SB_STAT_TXEMPTY, R.SB_STAT_RXEMPTY, R.SB_STAT_LS_BUSY, R.SB_STAT_PEER_ID, R.SB_STAT_PEER_GEN, R.SB_MAP_TX, R.SB_MAP_RX, R.SB_EPOCH_TX, R.SB_EPOCH_RX, R.SB_TSEQ_NEXT, R.SB_TSEQ_OLDEST, R.SB_RSEQ_CUMACK, R.SB_RSEQ_HELD, R.SB_TXCRED_SYNC, R.SB_TXCRED_LINK] ++
  [R.SB_TXCRED_MEM, R.SB_BULK_TX_AVAIL, R.SB_BULK_RX_GRANT, R.SB_BULK_CAP_CELLS, R.SB_ACK_TMO_US, R.SB_FAIL_TMO_MS, R.SB_TX_CELLS, R.SB_RX_CELLS, R.SB_RETX_CNT, R.SB_NAK_CNT_SENT, R.SB_NAK_CNT_RECEIVED, R.SB_ACKTMO_CNT, R.SB_DUP_CNT, R.SB_CRC_CNT, R.SB_LS_CNT_APPLIED, R.SB_LS_CNT_COLLIDED, R.SB_DISCARD_CNT, R.SB_LSEL_FIB, R.SB_LANE_STAT_TX_MAP, R.SB_LANE_STAT_RX_MAP] ++
  [R.SB_LANE_STAT_RETIRED, R.SB_LANE_STAT_WARN, R.SB_LANE_STAT_REASON, R.SB_LANE_STAT_RETIRE_CNT, R.SB_LANE_CRC_NOW, R.SB_LANE_CRC_LAST, R.SB_LANE_CTRL_DROP, R.SB_LANE_CTRL_RETURN, R.SB_LS_LAST_MAP, R.SB_LS_LAST_EPOCH, R.SB_LS_LAST_DIR, R.SB_LS_LAST_REASON, R.SB_LS_LAST_LOCAL, R.SB_CNT_CLR_CLR]

/-- The fields of the rd pages. -/
def flds_rd : List Fld :=
  [R.RD_IDENT_DIE, R.RD_IDENT_FEEDS, R.RD_CTRL_LIGHT_OK, R.RD_CTRL_AUTO_SPARE, R.RD_CTRL_ALL_OFF, R.RD_STAT_ON, R.RD_STAT_BANK_B, R.RD_PWR_TGT_MW, R.RD_PWR_TGT_FAIL_PCT, R.RD_PWR_TGT_LOW_PCT, R.RD_CAL_CTRL_COMMIT, R.RD_CAL_CTRL_RECAL, R.RD_CAL_CTRL_REJ, R.RD_CAL_CTRL_LIM, R.RD_CAL_CTRL_HLIM, R.RD_WARM_MS]

/-- The fields of the rdl pages. -/
def flds_rdl : List Fld :=
  [R.RD_L_CTRL_ON, R.RD_L_CTRL_SPARE, R.RD_L_STAT_STATE, R.RD_L_STAT_BANK, R.RD_L_STAT_A_FAIL, R.RD_L_STAT_B_FAIL, R.RD_L_PWR_OUT, R.RD_L_BIAS_ACT, R.RD_L_BIAS_SHADOW, R.RD_L_BIASMAX_MAX, R.RD_L_HEAT_ACT, R.RD_L_HEAT_SHADOW, R.RD_L_TEMP_C, R.RD_L_HOURS_A, R.RD_L_HOURS_B, R.RD_L_SPARE_US]

/-- The fields of the hp pages. -/
def flds_hp : List Fld :=
  [R.HP_IDENT_HOOP, R.HP_IDENT_SOLO_CAP, R.HP_ROLE_ROLE, R.HP_ROLE_OVERLAP, R.HP_ROLE_TAKEOVER_DONE, R.HP_ROLE_SOLO_PEND, R.HP_ROLE_PEER_ALIVE, R.HP_ROLE_PEER_ROLE, R.HP_ROLE_CHANGES, R.HP_LEASE_CMD_EPOCH, R.HP_LEASE_CMD_CMD, R.HP_LEASE_STAT_EPOCH, R.HP_LEASE_SEEN, R.HP_LEASE_TMR_REMAIN_MS, R.HP_LEASE_TMR_RENEW_CNT, R.HP_LEASE_CFG_VEC, R.HP_LEASE_CFG_REJ_CNT, R.HP_HB_PERIOD_MS, R.HP_HB_MISS, R.HP_HB_MISSED] ++
  [R.HP_SOLO_EN, R.HP_SOLO_NODRV_S, R.HP_SOLO_HOLD_S, R.HP_SOLO_CNT, R.HP_WDOG_KICK, R.HP_WDOG_MS, R.HP_MIR_STAT_CUR, R.HP_MIR_STAT_VALID0, R.HP_MIR_STAT_VALID1, R.HP_MIR_STAT_PEND, R.HP_MIR_STAT_ERR_CNT, R.HP_MIR_SEQ, R.HP_MIR_CTRL_RESYNC, R.HP_TWINE_STAT_HOP_UP, R.HP_TWINE_STAT_BROKEN, R.HP_TWINE_STAT_SPLIT, R.HP_TWINE_CRC, R.HP_TWINE_LOSS, R.HP_CAD_DRIVING, R.HP_CAD_N] ++
  [R.HP_CNT_CLR_CLR]

/-- The fields of the pcie pages. -/
def flds_pcie : List Fld :=
  [R.PCIE_IDENT_DEVICE_ID, R.PCIE_LINK_SPEED, R.PCIE_LINK_WIDTH, R.PCIE_LINK_FLIT, R.PCIE_LINK_UP, R.PCIE_WIN_BASE, R.PCIE_MODE_HUABEL, R.PCIE_MODE_HUABEL_NEXT, R.PCIE_DMA_CTRL_EN, R.PCIE_DMA_CTRL_RESTART, R.PCIE_DMA_CTRL_STOPPED, R.PCIE_CE_CNT, R.PCIE_UE_CNT, R.PCIE_UR_CNT, R.PCIE_DMA_BYTES, R.PCIE_PTM_HOST, R.PCIE_PTM_TICK, R.PCIE_CNT_CLR_CLR]

/-- The fields of the fault pages. -/
def flds_fault : List Fld :=
  [R.FAULT_CFG_Q_EN, R.FAULT_CFG_QUEUE, R.FAULT_CFG_VEC, R.FAULT_CFG_PIN_SEV, R.FAULT_COAL_MS, R.FAULT_LOG_PTR_WR, R.FAULT_LOG_SEQ, R.FAULT_LOG_SEL_SLOT, R.FAULT_LOG_RD_RD, R.FAULT_LOG_DATA, R.FAULT_ACK_DIE, R.FAULT_ACK_PAGE, R.FAULT_ACK_SOURCE, R.FAULT_ACK_GO, R.FAULT_ACK_STAT_RESULT, R.FAULT_INT_PEND, R.FAULT_INT_NEW, R.FAULT_PIN_CLR, R.FAULT_PIN_ASSERT, R.FAULT_PIN_HALTED] ++
  [R.FAULT_PIN_OPEN, R.FAULT_CNT_QFULL, R.FAULT_CNT_OVF, R.FAULT_CRASH_COUNT, R.FAULT_CRASH_CLR, R.FAULT_CNT_CLR_CLR]

/-- The fields of the pr pages. -/
def flds_pr : List Fld :=
  [R.PR_STAT_IN_USE, R.PR_STAT_SOURCE, R.PR_STAT_VALID, R.PR_STAT_PIN_SAMPLED, R.PR_STAT_PIN_NOW, R.PR_STAT_UNSTABLE, R.PR_OVERRIDE_IDX, R.PR_OVERRIDE_EN, R.PR_OVERRIDE_ONCE, R.PR_SEL_PROF, R.PR_SEL_WORD, R.PR_DATA, R.PR_CTRL_LOAD, R.PR_CTRL_SAVE, R.PR_CTRL_ERR]

/-- The fields of the sec pages. -/
def flds_sec : List Fld :=
  [R.SEC_LC_STATE, R.SEC_LC_REQ, R.SEC_BOOT_IMAGE, R.SEC_BOOT_SVN, R.SEC_BOOT_MIN_SVN, R.SEC_KEY_SEL_SLOT, R.SEC_KEY_CTRL_PROGRAM, R.SEC_KEY_CTRL_REVOKE, R.SEC_KEY_CTRL_FUSED, R.SEC_KEYHASH, R.SEC_DBG_LEVEL, R.SEC_DBG_REQ, R.SEC_DBG_SCRUB, R.SEC_DBG_FAIL, R.SEC_CHAL, R.SEC_RESP, R.SEC_JTAG_SKIP]

/-- The fields of the sq pages. -/
def flds_sq : List Fld :=
  [R.SQ_CFG_WM, R.SQ_CFG_WM_INT, R.SQ_CFG_VEC, R.SQ_STAT_LEVEL, R.SQ_STAT_EMPTY, R.SQ_STAT_FULL, R.SQ_STAT_DROP, R.SQ_STAT_FLUSHING, R.SQ_STAT_DRAIN_BANK, R.SQ_STAT_OVERRUN, R.SQ_STAT_PTR_RESET, R.SQ_STAT_TRUNC, R.SQ_WM_HIT, R.SQ_WM_CNT, R.SQ_WM_LAST, R.SQ_PTR_WR, R.SQ_PTR_RD, R.SQ_PTR2_REL, R.SQ_PTR2_MK, R.SQ_PTR2_MK_VALID] ++
  [R.SQ_CONS_MARK, R.SQ_CONS_REWIND, R.SQ_CONS_RELEASE, R.SQ_CTRL_FLUSH, R.SQ_CTRL_RESET, R.SQ_FLUSH_TMO_US, R.SQ_PKT_PKT, R.SQ_SEQ, R.SQ_CNT_OVR, R.SQ_CNT_REFUSED, R.SQ_CNT_RESET, R.SQ_CNT_PARITY, R.SQ_CNT_DROP, R.SQ_CNT_LINES, R.SQ_CNT_CLR_CLR]

/-- The fields of the pkg0 pages. -/
def flds_pkg0 : List Fld :=
  [R.PKG_IDENT_PKG_ID, R.PKG_IDENT_GRADE, R.PKG_IDENT_FUSE_GRADE, R.PKG_IDENT_ARITH_CLASS, R.PKG_STAGE_STAGE, R.PKG_STAGE_READY, R.PKG_STAGE_ACTIVE_HOOP, R.PKG_SNAP_CTRL_REQ, R.PKG_SNAP_CTRL_BUSY, R.PKG_SNAP_CTRL_LEAD, R.PKG_SNAP_STAT_SEQ, R.PKG_SNAP_STAT_LATE, R.PKG_SNAP_STAT_MISSING, R.PKG_SNAP_STAT_LATE_CNT, R.PKG_SNAP_TICK, R.PKG_SNAP_MISS, R.PKG_STAGE_CTRL_OPEN, R.PKG_STAGE_CTRL_COMMIT, R.PKG_STAGE_STAT_STATE, R.PKG_STAGE_STAT_DONE] ++
  [R.PKG_STAGE_STAT_FAIL, R.PKG_STAGE_STAT_FAIL_DIE, R.PKG_STAGE_STAT_FAIL_CAUSE, R.PKG_STAGE_STAT_COMMIT_SEQ, R.PKG_REJ_CNT, R.PKG_REJ_LAST_OFFSET, R.PKG_REJ_LAST_CAUSE, R.PKG_START_GO, R.PKG_START_AUTO, R.PKG_START_HOLD_AT, R.PKG_START_STAT_FAIL, R.PKG_START_STAT_FAIL_STAGE, R.PKG_START_STAT_FAIL_CAUSE, R.PKG_START_STAT_LATE] ++
  ((List.range 4).map (Fld.idx R.PKG_STAGE_MS))

/-- The fields of the pkg1 pages. -/
def flds_pkg1 : List Fld :=
  [R.PKG_TAG, R.PKG_TAG_CTRL_SAVE, R.PKG_TAG_CTRL_SAVE_ERR]

/-- The fields of the pkg2 pages. -/
def flds_pkg2 : List Fld :=
  [R.PKG_TICK, R.PKG_TIME_CTRL_ARM, R.PKG_TIME_CTRL_ARMED, R.PKG_TIME_CTRL_ZEROED, R.PKG_TIME_CTRL_CHECK_EN, R.PKG_TIME_CTRL_TOL, R.PKG_TIME_STAT_OFFSET, R.PKG_TIME_STAT_STUCK, R.PKG_TIME_STAT_SLIP_CNT, R.PKG_EPOCH_IGN, R.PKG_EPOCH_CNT, R.PKG_STEP, R.PKG_SEED, R.PKG_DSEED, R.PKG_BORDER_LEAD, R.PKG_BORDER_SEQ, R.PKG_BORDER_LAST_SPAN, R.PKG_BORDER_LAST_LATE, R.PKG_BORDER_LAST_LAST_PKG, R.PKG_BORDER_LATE_CNT] ++
  [R.PKG_BREAK_ID, R.PKG_BREAK_EN, R.PKG_BREAK_MODE, R.PKG_BREAK_COUNT, R.PKG_BREAK_STAT_HIT, R.PKG_BREAK_STAT_ID, R.PKG_BREAK_STEP] ++
  ((List.range 8).map (Fld.idx R.PKG_AUDIT_MASK)) ++
  ((List.range 8).map (Fld.idx R.PKG_STEP_MASK)) ++
  [R.PKG_AUDIT_CTRL_EN, R.PKG_AUDIT_CTRL_QUEUE, R.PKG_AUDIT_STAT_SEQ, R.PKG_AUDIT_STAT_LOST_CNT]

/-- The fields of a kind of page. -/
def blkFields : Blk → List Fld
  | .hdr => flds_hdr
  | .os => flds_os
  | .tg => flds_tg
  | .mc => flds_mc
  | .st => flds_st
  | .ce => flds_ce
  | .wl => flds_wl
  | .th => flds_th
  | .age => flds_age
  | .wf => flds_wf
  | .fib => flds_fib
  | .sb => flds_sb
  | .sbk => flds_sbk
  | .rd => flds_rd
  | .rdl => flds_rdl
  | .hp => flds_hp
  | .pcie => flds_pcie
  | .fault => flds_fault
  | .pr => flds_pr
  | .sec => flds_sec
  | .sq => flds_sq
  | .pkg0 => flds_pkg0
  | .pkg1 => flds_pkg1
  | .pkg2 => flds_pkg2


end Sys2Proof.Machine
end

