-- ==== Sys2Proof/Machine/PageMap.lean ====
section
/-! DEFINITION. The page map (Table 2-2), each page's identity, capabilities and default severities, and the value
every field reads after RESET_N. -/

namespace Sys2Proof.Machine

/-- A page by number: die * 512 + page (R41). -/
def pg (die page : Nat) : Nat := die * 512 + page

def dieOf (p : Nat) : Nat := p / 512
def pageOf (p : Nat) : Nat := p % 512

def isOsier (d : Nat) : Bool := decide (d < 8)
def isWeft (d : Nat) : Bool := decide (8 ≤ d) && decide (d < 16)
def isReed (d : Nat) : Bool := decide (d = 0x10) || decide (d = 0x11)
def isHoop (d : Nat) : Bool := decide (d = 0x12) || decide (d = 0x13)

/-! Wale topology (Table 1-3). Ports 0 E, 1 W, 2 V, 3 X, 4 H. -/

/-- The WL page of a port end of an Osier die. -/
def wlPg (d port : Nat) : Nat := pg d (0x40 + port)

/-- The WL page at the other end of a link. -/
def walePeer (p : Nat) : Option Nat :=
  let d := dieOf p
  let q := pageOf p
  if d < 8 then
    match q - 0x40 with
    | 0 => if d % 4 < 3 then some (wlPg (d + 1) 1) else none
    | 1 => if 0 < d % 4 then some (wlPg (d - 1) 0) else none
    | 2 => some (wlPg ((d + 4) % 8) 2)
    | 3 => some (pg (8 + d) 0x40)
    | 4 => if d = 0 then some (pg 0x12 0x70) else if d = 4 then some (pg 0x12 0x71)
           else if d = 3 then some (pg 0x13 0x70) else if d = 7 then some (pg 0x13 0x71) else none
    | _ => none
  else if d < 16 then some (wlPg (d - 8) 3)
  else if d = 0x12 then some (wlPg (if q = 0x70 then 0 else 4) 4)
  else if d = 0x13 then some (wlPg (if q = 0x70 then 3 else 7) 4)
  else none

/-- The end with the lower die index leads; on X and H the Osier die does (R344). -/
def wlLeads (p : Nat) : Bool := match walePeer p with
  | some q => if isOsier (dieOf p) && isOsier (dieOf q) then decide (dieOf p < dieOf q) else isOsier (dieOf p)
  | none => false

/-- The block of a page (Table 2-2); none for an unoccupied die or an unassigned page (R47). -/
def pageBlk (p : Nat) : Option Blk :=
  let d := dieOf p
  let q := pageOf p
  if d < 8 then
    if q = 0 then some .os else if 1 ≤ q && q ≤ 8 then some .tg
    else if 0x10 ≤ q && q ≤ 0x12 then some .mc else if 0x20 ≤ q && q ≤ 0x2F then some .st
    else if q = 0x30 then some .ce else if 0x40 ≤ q && q ≤ 0x44 then some .wl
    else if q = 0x50 then some .th else if q = 0x60 then some .age else none
  else if d < 16 then
    if q = 0 then some .wf else if 0x10 ≤ q && q ≤ 0x1F then some .fib
    else if q = 0x20 then some .sb else if 0x21 ≤ q && q ≤ 0x2F then some .sbk
    else if q = 0x40 then some .wl else if q = 0x50 then some .th else if q = 0x60 then some .age else none
  else if d < 18 then
    if q = 0 then some .rd else if 0x10 ≤ q && q ≤ 0x1F then some .rdl
    else if q = 0x50 then some .th else if q = 0x60 then some .age else none
  else if d < 20 then
    if q = 0 then some .hp else if q = 0x10 then some .pcie else if q = 0x20 then some .fault
    else if q = 0x30 then some .pr else if q = 0x40 then some .sec else if q = 0x50 then some .th
    else if q = 0x60 then some .age else if q = 0x70 || q = 0x71 then some .wl
    else if 0x100 ≤ q && q ≤ 0x14F then some .sq else none
  else if d = 0x1F then
    if q = 0 then some .pkg0 else if q = 1 then some .pkg1 else if q = 2 then some .pkg2 else none
  else none

/-- The pages of a die, in order. -/
def diePages (d : Nat) : List Nat := (List.range 512).filterMap fun q =>
  if (pageBlk (pg d q)).isSome then some (pg d q) else none

/-- Block type code (Table 2-2). -/
def Blk.code : Blk → Nat
  | .hdr => 0 | .os => 1 | .tg => 2 | .mc => 3 | .st => 4 | .ce => 5 | .wl => 6 | .th => 7 | .wf => 8 | .fib => 9
  | .sb => 0xA | .sbk => 0xA | .rd => 0xB | .rdl => 0xB | .hp => 0xC | .sq => 0xD | .fault => 0xE | .pcie => 0xF
  | .pr => 0x10 | .sec => 0x11 | .age => 0x12 | .pkg0 => 0x13 | .pkg1 => 0x13 | .pkg2 => 0x13

/-- Instance of a page (Table 2-2). -/
def pageInst (b : Blk) (p : Nat) : Nat :=
  let q := pageOf p
  match b with
  | .tg => q - 1
  | .mc => q - 0x10
  | .st => q - 0x20
  | .wl => if isWeft (dieOf p) then 3 else if isHoop (dieOf p) then q - 0x70 else q - 0x40
  | .fib => q - 0x10
  | .sbk => q - 0x20
  | .rd => 0x10
  | .rdl => q - 0x10
  | .sq => q - 0x100
  | .pkg1 => 1
  | .pkg2 => 2
  | _ => 0

/-- Number of fault sources (the owning chapters). -/
def nsrc (b : Blk) (p : Nat) : Nat :=
  match b with
  | .tg => 12 | .os => 11 | .mc => 5 | .st => 11 | .ce => 10 | .wl => 11 | .wf => 4 | .fib => 10 | .rd => 3 | .rdl => 6
  | .sb => 5 | .sbk => 13 | .hp => 11 | .fault => 6 | .pcie => 8 | .sq => 6 | .age => 3 | .pr => 5 | .sec => 5
  | .th => if isHoop (dieOf p) then 8 else 3
  | .pkg0 => 4 | .pkg1 => 1 | .pkg2 => 6 | .hdr => 0

/-- PG_CAPS.STAGE_CAP. -/
def stageCap (b : Blk) : Bool :=
  match b with
  | .os | .mc | .st | .ce | .wl | .wf | .fib | .rd | .rdl | .sb | .sbk | .th | .pkg2 => true
  | _ => false

/-- PG_CAPS.KEY_CAP. -/
def keyCap (b : Blk) : Bool :=
  match b with
  | .wl | .wf | .rd | .rdl | .sb | .hp | .fault | .pcie | .th | .age | .pr | .sec => true
  | _ => false

/-- The default severity of a source: 0 LOG, 1 NOTIFY, 2 CONTAIN, 3 HALT (R463, Table 14-7, Table 17-7 and the tables
of chapters 15 and 16). -/
def defSev (b : Blk) (src : Nat) : Nat :=
  let log : List Nat := match b with
    | .tg => [0, 2, 4] | .os => [7] | .mc => [0, 3, 4] | .st => [1] | .ce => [3] | .wl => [0, 4, 10] | .wf => [0, 3]
    | .fib => [0, 4, 5] | .rdl => [4, 5] | .sb => [0, 2] | .sbk => [0, 1, 3, 4, 7] | .hp => [2, 9] | .fault => [0, 5]
    | .pcie => [1, 3] | .sq => [3] | .th => [2, 3, 4] | .age => [1] | .pr => [2] | _ => []
  if log.contains src then 0
  else match b with
    | .wl => if src = 8 then 2 else 1
    | .pkg0 => if src = 2 || src = 3 then 3 else 1
    | _ => 1

/-- The default severities of sources `from` to `from + 15`, packed as PG_FSEV0 and PG_FSEV1 hold them. -/
def sevWord (b : Blk) (p base : Nat) : Nat :=
  (List.range 16).foldl (fun acc i => if base + i < nsrc b p then acc + defSev b (base + i) * 4 ^ i else acc) 0

/-- The Reed die that feeds a Weft die (R18): RD0 feeds WF0, WF1, WF4, WF5. -/
def reedOf (w : Nat) : Nat := if w % 4 < 2 then 0 else 1

/-- The thresholds of a die's own sensors in °C (Table 16-2): throttle start, warning, trip, restart. -/
def thLimits (d : Nat) : Nat × Nat × Nat × Nat :=
  if isOsier d then (95, 90, 110, 80) else if isWeft d then (90, 85, 105, 85)
  else if isReed d then (75, 70, 90, 70) else (0, 100, 110, 90)

/-- The thresholds of an HBM stack sensor (Table 16-2), in the same order. -/
def hbmLimits : Nat × Nat × Nat × Nat := (90, 85, 100, 85)

/-- Reset values that depend on the page (Table 2-3, R18, R28, and the register tables): by offset and lowest bit. -/
def pageRst (b : Blk) (p off lo : Nat) : Option Nat :=
  let d := dieOf p
  if off < 0x100 then
    match off, lo with
    | 0, 0 => some b.code
    | 0, 16 => some (pageInst b p)
    | 4, 0 => some (nsrc b p)
    | 4, 8 => some (if stageCap b then 1 else 0)
    | 4, 9 => some (if keyCap b then 1 else 0)
    | 0x18, 0 => some (sevWord b p 0)
    | 0x1C, 0 => some (sevWord b p 16)
    | _, _ => none
  else
    match b, off, lo with
    | .os, 0x100, 16 => some d
    | .os, 0x168, 0 => some 16384
    | .wl, 0x104, 6 => none
    | .wf, 0x100, 0 => some (d - 8)
    | .wf, 0x100, 3 => some (reedOf (d - 8))
    | .fib, 0x100, 0 => some ((d - 8) * 16 + pageInst b p)
    | .rd, 0x100, 0 => some (d - 0x10)
    | .rd, 0x100, 8 => some (if d = 0x10 then 0x33 else 0xCC)
    | .hp, 0x100, 0 => some (d - 0x12)
    | .hp, 0x100, 8 => some (if d = 0x12 then 1 else 0)
    | .hp, 0x124, 0 => some (if d = 0x12 then 1 else 0)
    | .th, 0x114, 0 => some (thLimits d).1
    | .th, 0x114, 8 => some (thLimits d).2.1
    | .th, 0x114, 16 => some (thLimits d).2.2.1
    | .th, 0x114, 24 => some (thLimits d).2.2.2
    | .th, 0x118, 0 => if isOsier d then some (90 + 85 * 256 + 100 * 65536 + 85 * 16777216) else none
    | _, _, _ => none

/-- The key of a field of page `p` in the register file. -/
def Fld.key (f : Fld) (p : Nat) : Nat := (p * 4096 + f.off) * 32 + f.lo

/-- The page of a key. -/
def keyPage (k : Nat) : Nat := k / 131072

/-- The field at a key, if the page has one there. -/
def fieldAt (b : Blk) (r : Nat) : Option Fld :=
  (if r < 0x2000 then flds_hdr else blkFields b).find? fun f => decide (f.off * 32 + f.lo = r)

/-- What a field reads after RESET_N: the register file's default. -/
def resetVal (k : Nat) : Nat :=
  let p := keyPage k
  match pageBlk p with
  | none => 0
  | some b =>
    let r := k % 131072
    match pageRst b p (r / 32 / 4 * 4) (r - r / 32 / 4 * 4 * 32) with
    | some v => v
    | none => ((fieldAt b r).map Fld.rst).getD 0

end Sys2Proof.Machine
end

