-- ==== Sys2Proof/Machine/PageTypes.lean ====
section
/-! DEFINITION. What a register page holds beside its fields (02_register_pages.md), and fault records and their
log (14_faults.md). -/

namespace Sys2Proof.Machine

/-- A staged write (R65): offset, word, byte enables and the epoch it carries. -/
structure StageE where
  off : Nat
  val : Word
  epoch : Nat
  deriving DecidableEq, Repr

/-- A holding register (R44): the multi-word field last read at its lowest word, and the value copied then. -/
structure HoldReg where
  off : Nat
  lo : Nat
  val : Nat
  deriving DecidableEq, Repr

/-- A running grace timer (R452): source, the tick at which it ends, CONTAIN or HALT. -/
structure GTimer where
  src : Nat
  ends : Nat
  halt : Bool
  deriving DecidableEq, Repr

/-- How far a page's block is up: never brought up (R55), running, taken down (R56), in soft reset (R554). -/
inductive PageUp where
  | never | up | down | isolated | resetting
  deriving DecidableEq, Repr

/-- A page beside its register fields: how far it is up, its stage buffer, its two holding registers, the words of its shadow window that are not 0,
pending repeat counts and the tick of each source's last record, grace timers running, and sources whose timer has ended. -/
structure PageSt where
  up : PageUp := .never
  stage : List StageE := []
  hold0 : Option HoldReg := none
  hold1 : Option HoldReg := none
  shadow : List (Nat × Nat) := []
  pendRep : Sparse Nat := []
  lastRec : Sparse Nat := []
  lastDet : Sparse (Nat × Nat) := []
  timers : List GTimer := []
  ended : List Nat := []
  deriving DecidableEq, Repr

/-- The kinds of record (Table 14-1). -/
inductive RecKind where
  | detect | rep | escalated | acked
  deriving DecidableEq, Repr

/-- A fault record (Table 14-1). -/
structure FaultRec where
  tick : Nat
  die : Nat
  page : Nat
  source : Nat
  sev : Nat
  kind : RecKind
  epoch : Nat
  count : Nat
  status : Nat
  last : Nat
  extra : Nat
  deriving DecidableEq, Repr

/-- A Hoop die's fault log beside its registers (R458, R459): its slots by number, how many are unread, the crash log in flash, and the last record
offered to an event queue. -/
structure FLog where
  slots : Sparse (Option FaultRec) := []
  unread : Nat := 0
  crash : List FaultRec := []
  lastQ : Option FaultRec := none
  deriving DecidableEq, Repr

/-- Faults of the whole package: records in flight to a Hoop, each Hoop's log, HALT NOTICEs on their way to a die with the identity of the record
that began them, and the FAULT_COAL.MS copy each die holds. -/
structure FaultSt where
  flight : List (Nat × FaultRec) := []
  logs : Sparse FLog := []
  haltNotices : List (Nat × Nat) := []
  coal : Sparse Nat := []
  deriving DecidableEq, Repr

end Sys2Proof.Machine
end

