-- ==== Sys2Proof/Machine/State.lean ====
section
/-! DEFINITION. The state of the package: plain data, everything the spec gives it, and the queue of commands. -/

namespace Sys2Proof.Machine
open Sys2Proof

/-- Why the machine stops. No meaning of this model raises a fault; the constructor names what would: a state that no
rule of the spec describes. -/
inductive Fault where
  /-- Raised by nobody: kept so that the type is inhabited. Safe: a stop. -/
  | unreachable
  deriving DecidableEq, Repr

/-- Why a command has no meaning. -/
inductive Refusal where
  /-- Raised by an arm of `exec` whose command is not modelled. Safe: a stop. -/
  | notModelled (mnemonic : String)
  deriving DecidableEq, Repr

/-- A completion of a host read (R261): the bytes, whether the poisoned-TLP bit is set, Unsupported Request. -/
structure Cpl where
  hoop : Nat
  data : List Byte
  poi : Bool
  ur : Bool
  deriving DecidableEq, Repr

/-- LOAD_STATUS (R226, R267): NO_FIT with its shortfall in bytes. -/
inductive LoadStatus where
  | ok | signatureFail | classMismatch | topologyMismatch | variantMissing
  | noFit (bytes : Nat)
  deriving DecidableEq, Repr

/-- What leaves the package and has no place inside it, newest last: MSI-X messages by Hoop and vector, read
completions, and Seber cells by sub-link (Weft die * 16 + k) and fibre, DMA writes into host memory,
I3C and JTAG answers (none: unavailable or refused), LOAD_STATUS, and DOE answers. -/
structure OutSt where
  msix : List (Nat × Nat) := []
  cpls : List Cpl := []
  cells : List (Nat × Nat × Cell) := []
  hostWr : List HostWr := []
  i3c : List (Option Int) := []
  jtag : List (Option Nat) := []
  loads : List LoadStatus := []
  doe : List (Nat × Nat) := []
  deriving DecidableEq, Repr

/-- The pins (R523, R540, R548): the filtered RESET_N, the filtered PROF_SEL level, the VID codes once driven. -/
structure PinSt where
  resetN : Bool := false
  profSel : Nat := 0
  vid : List Nat := []
  vidOn : Bool := false
  deriving DecidableEq, Repr

/-- The package. -/
structure State where
  clk : Clock := {}
  regs : Sparse Nat := []
  pages : Sparse PageSt := []
  flt : FaultSt := {}
  tiles : Sparse Tile := []
  osd : Sparse OsDie := []
  cad : CadSt := {}
  mesh : List MeshFlit := []
  edges : List EdgeFlit := []
  hbm : Sparse FLine := []
  stake : Sparse Nat := []
  stakeOld : List (Nat × Nat × Nat) := []
  sideRem : Sparse Nat := []
  cool : Sparse (Option Nat) := []
  scrubAt : Sparse Nat := []
  ovb : Sparse (List (Nat × Nat)) := []
  ovbOver : Sparse Nat := []
  quiet : Sparse (Nat × Nat) := []
  engs : Sparse Eng := []
  reads : List RUnit := []
  loads : List LoadRun := []
  units : List WUnit := []
  offers : List Offer := []
  reqs : List ReqW := []
  nbq : List NbReq := []
  arrivals : List Arrival := []
  ces : Sparse Ce := []
  cbuf : Sparse FLine := []
  borders : Sparse Border := []
  aud : Sparse AudSt := []
  pkgt : PkgT := {}
  wl : Sparse WlEnd := []
  lanes : Sparse Lane := []
  fibs : Sparse FibSt := []
  wfs : Sparse WfSt := []
  rds : Sparse RdSt := []
  lasers : Sparse LaserSt := []
  cal : Sparse Nat := []
  calSh : Sparse Nat := []
  subs : Sparse SubLink := []
  grantAt : Sparse Nat := []
  sbGen : Nat := 0
  notes : List (Nat × Note) := []
  sqs : Sparse Sq := []
  dmas : Sparse Dma := []
  acks : List Ack := []
  pins : PinSt := {}
  hoops : Sparse HoopSt := []
  ring : RingSt := {}
  snaps : Sparse (Option SnapRun) := []
  com : CommitRun := {}
  sens : Sparse Sensor := []
  dth : Sparse DieTh := []
  thp : ThPkg := {}
  fits : Sparse Fit := []
  agePend : Sparse (List AgeRec) := []
  flash : Sparse Flash := []
  start : StartSt := {}
  out : OutSt := {}
  freeCtr : Nat := 0
  pending : List Instr := []
  deriving DecidableEq, Repr

/-- The package right after RESET_N: every page down, every field at its reset value, memory with nothing listed. -/
def State.reset : State := {}

end Sys2Proof.Machine
end

