-- ==== Sys2Proof/Machine/Formats.lean ====
section
/-! DEFINITION. Packed parts, MX scales and the matrix products: the element positions of Table 5-2, the
conversions of R145 to R148 and R162 to R171, and the open- and close-weave sums of R176 to R187. -/

namespace Sys2Proof.Machine

/-- Format codes of Table 4-3: element bits, parts, and whether VCVTN and VCVTW accept them. -/
def fmtBits (f : Nat) : Nat :=
  if f = 0 || f = 12 then 32 else if f = 1 || f = 2 then 16 else if f = 7 || f = 8 then 6
  else if f = 9 then 4 else 8

def fmtParts (f : Nat) : Nat :=
  if f = 0 || f = 12 then 1 else if f = 1 || f = 2 then 2 else if f = 9 then 8 else 4

/-- The bytes of a part (Table 4-3). -/
def fmtPartSize (f : Nat) : Nat := 512 / fmtParts f

/-- VCVTN and VCVTW accept every format but FP32, INT32 and the reserved codes (R145, R147). -/
def fmtPacked (f : Nat) : Bool := decide (1 ≤ f) && decide (f ≤ 11)

/-- The MX formats 0x5 to 0xA (R148). -/
def fmtMx (f : Nat) : Bool := decide (5 ≤ f) && decide (f ≤ 10)

/-- The floating-point encoding of a format code. -/
def fmtFp (f : Nat) : Option FFmt :=
  match f with
  | 0 => some fp32 | 1 => some bf16 | 2 => some fp16 | 3 => some e4m3 | 4 => some e5m2
  | 5 => some e4m3 | 6 => some e5m2 | 7 => some e3m2 | 8 => some e2m3 | 9 => some e2m1
  | _ => none

/-- The K group of a format (Table 3-8): K, or 0 where the MU does not accept it. -/
def fmtK (f : Nat) : Nat :=
  if f = 1 || f = 2 then 32 else if f = 9 then 128 else if 3 ≤ f && f ≤ 11 then 64 else 0

/-- The exponent of an MX format's largest finite value (R164). -/
def fmtEmax (f : Nat) : Int :=
  match f with
  | 5 => 8 | 6 => 15 | 7 => 4 | 8 => 2 | 9 => 2 | _ => 0

/-- The bit at which element `l` of part `q` starts in a 512-byte image (Table 5-2). -/
def elemBit (f q l : Nat) : Nat :=
  match fmtBits f with
  | 32 => 32 * l
  | 16 => 8 * (256 * q + 2 * l)
  | 6 => 8 * (64 * (2 * q + l / 64)) + 6 * (l % 64)
  | 4 => 4 * (128 * q + l)
  | _ => 8 * (128 * q + l)

/-- The value of an element code, an MX scale applied (R160, R163, R169). -/
def elemVal (f code scale : Nat) : FV :=
  let v : FV :=
    match fmtFp f with
    | some g => g.decode code
    | none => if f = 10 then ofInt (BitVec.ofNat 8 code).toInt (-6) else ofInt (BitVec.ofNat 8 code).toInt 0
  if fmtMx f then (if scale = 255 then .nan else v.scale ((scale : Int) - 127)) else v

/-- The code of one element of a narrowing conversion (R145, R165 to R170). `w` is the source lane. -/
def narrowCode (f : Nat) (md : Rnd) (sat : Bool) (scale : Nat) (w : Word) : Nat :=
  if f = 11 then cvtInt8 sat w
  else if fmtMx f && decide (scale = 255) then 0
  else
    let y := if fmtMx f then (f32 w).scale (127 - (scale : Int)) else f32 w
    match fmtFp f with
    | some g => g.narrow md sat y
    | none =>
      match y with
      | .nan => 0
      | .inf s => (BitVec.ofInt 8 (if s then -127 else 127)).toNat
      | .fin s m e =>
        let i : Int := (min 127 (roundTo md m e (-6)) : Nat)
        (BitVec.ofInt 8 (if s then -i else i)).toNat

/-- The lane value of one widened element (R147, R171). -/
def widenWord (f code scale : Nat) : Word :=
  if f = 11 then (BitVec.ofNat 8 code).signExtend 32
  else toF32 .rne (elemVal f code scale)

/-- The E8M0 scale of a block from its included lanes (R164). -/
def mxScale (f : Nat) (ls : List Word) : Nat :=
  let vs := ls.map f32
  if vs.any (fun v => match v with | .fin _ _ _ => false | _ => true) then 255
  else
    let es := vs.filterMap fun v => match v with | .fin _ m e => if m = 0 then none else some (expOf m e) | _ => none
    match es.max? with
    | none => 0x7F
    | some x => (max 0 (min 254 (x - fmtEmax f + 127))).toNat

/-! Streamed vectors and resident columns (R162). -/

/-- `n` bits at bit `b` of a byte list, as a number. -/
def bitsOf (bs : List Byte) (b n : Nat) : Nat :=
  ((bs.drop (b / 8)).take 5).foldr (fun x acc => x.toNat + 256 * acc) 0 / 2 ^ (b % 8) % 2 ^ n

/-- Element `k` of a packed column of K elements: 6-bit columns pack 64 elements in 48 bytes. -/
def colElem (f : Nat) (bs : List Byte) (k : Nat) : Nat := bitsOf bs (k * fmtBits f) (fmtBits f)

/-- The elements of a streamed vector or resident column with their scales (`k / 32`-th scale byte). -/
def colVals (f : Nat) (bs scales : List Byte) : List FV :=
  (List.range (fmtK f)).map fun k => elemVal f (colElem f bs k) ((scales.getD (k / 32) 0x7F#8).toNat)

/-- Bytes of one resident column: 8 KiB, or 6 KiB for 6-bit formats, over 128 columns (Table 3-8). -/
def colBytes (f : Nat) : Nat := if f = 7 || f = 8 then 48 else 64

/-- Chunks of a resident load and its total latency n (Table 3-8). -/
def rloadChunks (f : Nat) : Nat := if f = 7 || f = 8 then 12 else 16
def rloadN (f : Nat) : Nat := rloadChunks f + (if fmtMx f then 1 else 0)

/-- Bytes of scale area read by a resident load (R154): 256, or 512 for MXFP4. -/
def scaleBytes (f : Nat) : Nat := if f = 9 then 512 else 256

/-- Whether a streamed and a resident format pair (Table 3-8, R157): one group, or 6-bit with 8-bit, INT8 alone. -/
def mmaPair (a b : Nat) : Bool :=
  decide (fmtK a = fmtK b) && decide (fmtK a ≠ 0) && (decide (a = 11) == decide (b = 11))

/-- The products of one column. -/
def colProds (a b : List FV) : List FV := (a.zip b).map fun p => p.1.mul p.2

/-- The exact sum of a column's products with the rules of R177. -/
def sumProds (ps : List FV) : FV :=
  match ps with
  | [] => .fin false 0 0
  | p :: r => r.foldl FV.add p

/-- The exponent of a vector's largest element over its non-zero finite elements (R180, R182). For an MX operand the
spec takes the largest block scale - 127 + emax. -/
def vecMaxExp (f : Nat) (vals : List FV) (scales : List Nat) : Option Int :=
  if vals.all (fun v => match v with | .fin _ m _ => decide (m = 0) | _ => false) then none
  else if fmtMx f then (scales.map fun x => (x : Int) - 127 + fmtEmax f).max?
  else (vals.filterMap fun v => match v with | .fin _ m e => if m = 0 then none else some (expOf m e) | _ => none).max?

/-- `trunc0 (x / 2^t)` of a finite value (R181, R188). -/
def trunc0 (v : FV) (t : Int) : Int :=
  match v with
  | .fin s m e => let q : Int := (roundTo .rtz m e t : Nat); if s then -q else q
  | _ => 0

/-- An overrun entry holds N = 0 (R178). -/
def accOverrun (poi : Bool) : AccE := ⟨0#96, 0x1FF, poi⟩

/-- One entry's update by a close-weave MMA (R181, R182, R184): `es`, `ec` the maximum exponents of the streamed
vector and the resident column. -/
def closeUpdate (ovw : Bool) (kdim : Nat) (es ec : Option Int) (ps : List FV) (poi : Bool) (e : AccE) : AccE :=
  let p := poi || (e.poi && !ovw)
  if e.tag = 0x1FF then accOverrun p
  else if e.tag = 0 then accOverrun p
  else if ps.any (fun v => match v with | .fin _ _ _ => false | _ => true) then accOverrun p
  else
    let top : Int := (e.tag : Int) - 256
    let high : Bool :=
      match es, ec with
      | some x, some y => decide (x + y + 2 + (Nat.log2 kdim : Int) > top - 16)
      | _, _ => false
    if high then accOverrun p
    else
      let q := (ps.map fun v => trunc0 v (top - 95)).foldl (· + ·) 0
      let qw := BitVec.ofInt 96 q
      ⟨if ovw then qw else e.n + qw, e.tag, p⟩

/-- One entry's update by an open-weave MMA (R176, R177). -/
def openUpdate (ovw int8 : Bool) (ps : List FV) (poi : Bool) (e : AccE) : AccE :=
  let p := poi || (e.poi && !ovw)
  if int8 then
    let q : Int := (ps.map fun v => trunc0 v 0).foldl (· + ·) 0
    let w : Word := BitVec.ofInt 32 q
    let r := if ovw then w else (e.n.truncate 32 : Word) + w
    ⟨r.zeroExtend 96, e.tag, p⟩
  else
    let s := sumProds ps
    let r := if ovw then toF32 .rne s else toF32 .rne ((f32 (e.n.truncate 32)).add s)
    ⟨r.zeroExtend 96, e.tag, p⟩

/-- The exact value of a close-weave entry (Table 5-4). -/
def accValue (e : AccE) : FV :=
  if e.tag = 0x1FF then .nan
  else if e.tag = 0 then .fin false 0 0
  else ofInt e.n.toInt ((e.tag : Int) - 256 - 95)

/-- VACR's final rounding (R185). -/
def accRound (md : Rnd) (e : AccE) : Word :=
  if e.tag ≠ 0x1FF && decide (e.n = 0#96) then 0#32 else toF32 md (accValue e)

/-- Combining two close-weave partials (R186). -/
def combine96 (g1 : Nat) (n1 : BitVec 96) (g2 : Nat) (n2 : BitVec 96) : Nat × BitVec 96 :=
  if g1 = 0x1FF || g2 = 0x1FF then (0x1FF, 0#96)
  else if g1 = 0 then (g2, if g2 = 0 then 0#96 else n2)
  else if g2 = 0 then (g1, n1)
  else if g1 = g2 then (g1, n1 + n2)
  else (0x1FF, 0#96)

/-- The grid byte of a block of partials (R187); `none` stands for an overrun partial. -/
def gridByte (ps : List (Option FV)) : Nat :=
  let bad := ps.any fun p => match p with
    | none => true
    | some .nan => true
    | some (.inf _) => true
    | some (.fin _ m e) => decide (m ≠ 0) && decide (expOf m e ≥ 127)
  if bad then 255
  else
    let es := ps.filterMap fun p => match p with
      | some (.fin _ m e) => if m = 0 then none else some (expOf m e)
      | _ => none
    match es.max? with
    | none => 0
    | some x => (max x (-127) + 128).toNat

/-- The transported integer of a partial on grid `g` (R188). -/
def packGrid (g : Nat) (v : FV) : BitVec 64 := BitVec.ofInt 64 (trunc0 v ((g : Int) - 182))

/-- The value of a transported sum on grid `g` (R188), before its one rounding. -/
def unpackGrid (g : Nat) (m : BitVec 64) : FV :=
  if g = 0 then .fin false 0 0 else if g = 255 then .nan else ofInt m.toInt ((g : Int) - 182)

end Sys2Proof.Machine
end

