-- ==== Sys2Proof/Machine/Tile.lean ====
section
/-! DEFINITION. What a tile does in one enabled cycle, whatever its instructions are: results land (R75-R78, R107),
banks and accumulator rows are accessed (R81-R97), and a bundle is assembled slot by slot (R114-R116, R125, R158). -/

namespace Sys2Proof.Machine

/-! Registers. -/

def cellZero : Nat → Cellw := fun _ => ⟨0#32, false⟩
def accZero : Nat → AccE := fun _ => ⟨0#96, 0, false⟩

/-- A close-weave entry from its raw parts (R95, R178): an empty or overrun entry holds N = 0. -/
def accRaw (n : BitVec 96) (tag : Nat) (poi : Bool) : AccE := ⟨if tag = 0 || tag = 0x1FF then 0#96 else n, tag, poi⟩
def rawZero : Nat → RawW := fun _ => ⟨0#32, false⟩
def noPoison : Nat → Bool := fun _ => false
def emptyBundle : Nat → BitVec 256 := fun _ => 0#256

/-- Lane `l` of `v r`. -/
def Tile.lane (t : Tile) (r l : Nat) : Cellw := look cellZero t.v (r * 128 + l)

/-- Scalar `s r`. -/
def Tile.sc (t : Tile) (r : Nat) : Cellw := look cellZero t.s r

/-- Address register `a r`. -/
def Tile.ad (t : Tile) (r : Nat) : BitVec 22 := look (fun _ => 0#22) t.a r

/-- Loop register `c r`. -/
def Tile.lc (t : Tile) (r : Nat) : BitVec 16 := look (fun _ => 0#16) t.c r

/-- Mask `m r`; m0 reads all ones (Table 3-4). -/
def Tile.mask (t : Tile) (r : Nat) : BitVec 128 :=
  if r = 0 then BitVec.allOnes 128 else look (fun _ => 0#128) t.mr r

def Tile.putLane (t : Tile) (r l : Nat) (c : Cellw) : Tile := { t with v := put cellZero t.v (r * 128 + l) c }
def Tile.putSc (t : Tile) (r : Nat) (c : Cellw) : Tile := { t with s := put cellZero t.s r c }
def Tile.putAd (t : Tile) (r : Nat) (v : BitVec 22) : Tile := { t with a := put (fun _ => 0#22) t.a r v }
def Tile.putLc (t : Tile) (r : Nat) (v : BitVec 16) : Tile := { t with c := put (fun _ => 0#16) t.c r v }

/-- Writes to m0 are discarded (Table 3-4). -/
def Tile.putMask (t : Tile) (r : Nat) (v : BitVec 128) : Tile :=
  if r = 0 then t else { t with mr := put (fun _ => 0#128) t.mr r v }

def Tile.event (t : Tile) (e : TEv) : Tile := { t with evs := t.evs ++ [e] }

/-- The tile's run-cycle count at cycle `c` (R122). -/
def Tile.runCount (t : Tile) (c : Nat) : Nat := c - t.runBase

/-- An event of sources 6 to 11 at cycle `c` (R158). -/
def Tile.conflict (t : Tile) (src c : Nat) : Tile := t.event (.conflict src (t.runCount c))

/-- An illegal slot or a busy unit: the event and TAINT (Table 4-17). -/
def Tile.bad (t : Tile) (src : Nat) : Tile := { t.conflict src t.next with taint := true }

/-! Tile memory (R81-R85). -/

/-- The 32-byte line of an address and the bank of a line (R81). -/
def lineOf (a : Nat) : Nat := a % 2 ^ 22 / 32
def bankOf (line : Nat) : Nat := line % 32

def Tile.linePoi (t : Tile) (line : Nat) : Bool := look noPoison t.memPoi line

/-- Write one line's bytes; the line is poisoned if a written byte is, or if it was and some byte stays (R133). A
tainted tile poisons everything it writes (R107). Lines written from a poisoned source or under TAINT are counted (Table 3-14); a clean partial
write of a line that stays poisoned is not (DESIGN CHOICE, log entry 67). -/
def Tile.putLine (t : Tile) (w : LineW) : Tile :=
  let bad := w.poi || (t.taint && !w.bytes.isEmpty)
  let p := bad || (t.linePoi w.line && decide (w.bytes.length < 32))
  let m := w.bytes.foldl (fun m b => setByte m (w.line * 32 + b.1) b.2) t.mem
  let t := { t with mem := m, memPoi := put noPoison t.memPoi w.line p }
  if bad then t.event .poisonLine else t

/-- A line as a bank delivers it: its 32 bytes, and the poison of each of its four 64-bit words. -/
structure LineR where
  bytes : List Byte
  poi : List Bool
  deriving DecidableEq, Repr

/-- Whether any word of the line is poisoned. -/
def LineR.any (x : LineR) : Bool := x.poi.any id

/-- The poison of the word that holds byte `o`. -/
def LineR.at' (x : LineR) (o : Nat) : Bool := x.poi.getD (o % 32 / 8) true

/-- A line read from its bank: zeros with poison where the bank conflicts, and in each uncorrectable word (R84, R85, Table 3-12);
`hits` names the access's 64-bit words in error, the first line's words first. -/
def Tile.readLine (t : Tile) (conf : List Nat) (hits : List EccHit) (idx line : Nat) : LineR :=
  if conf.contains (bankOf line) then ⟨List.replicate 32 0#8, List.replicate 4 true⟩
  else
    let ue (w : Nat) : Bool := hits.any fun h => h.ue && decide (h.word = idx * 4 + w)
    ⟨(List.range 32).map fun i => if ue (i / 8) then 0#8 else getByte t.mem (line * 32 + i),
     (List.range 4).map fun w => t.linePoi line || ue w⟩

/-- The four bytes at `o` of a byte list, little-endian. -/
def word32 (bs : List Byte) (o : Nat) : Word :=
  BitVec.ofNat 32 ((bs.getD o 0#8).toNat + 256 * (bs.getD (o + 1) 0#8).toNat
    + 65536 * (bs.getD (o + 2) 0#8).toNat + 16777216 * (bs.getD (o + 3) 0#8).toNat)

/-- The bytes of a word, little-endian. -/
def wordBytes (w : Word) : List Byte := (List.range 4).map fun i => BitVec.ofNat 8 (w.toNat / 256 ^ i)

/-- The lines an access touches (Table 3-7); an accumulator access touches none. A receive touches its banks whether or not it finds a flit
(DESIGN CHOICE, log entry 67). -/
def Access.lines : Access → List Nat
  | .vld _ a _ => (List.range 16).map (lineOf a + ·)
  | .vldbc _ a _ => [lineOf a]
  | .sld _ a => [lineOf a]
  | .sld2 _ a => [lineOf a]
  | .store ws => ws.map LineW.line
  | .nmSend a n => (List.range n).map (lineOf a + ·)
  | .nmRecv a n im => if im then [] else (List.range n).map (lineOf a + ·)
  | .rchunk _ a _ => (List.range 16).map (lineOf a + ·)
  | .rscale _ a _ => (List.range 16).map (lineOf a + ·)
  | .mma a sa _ _ _ _ _ _ _ => [lineOf a, lineOf a + 1] ++ (sa.map lineOf).toList
  | _ => []

/-- A whole line written from a flit's line (R136). -/
def lineWhole (line : Nat) (f : FLine) : LineW :=
  ⟨line, (List.range 32).map fun i => (i, (f.data >>> (8 * i)).truncate 8), f.poi⟩

/-- Write one bundle of instruction memory: the first write to a block clears its VALID bit, and the bit returns once
each of its 256 bundles has been written since (R103). -/
def Tile.writeBundle (t : Tile) (a : Nat) (d : BitVec 256) : Tile :=
  let b := a % 8192 / 256
  let w := if t.imemValid.testBit b then forget t.imemWritten (b * 256) (b * 256 + 256) else t.imemWritten
  let v := if t.imemValid.testBit b then t.imemValid - 2 ^ b else t.imemValid
  let w := put noPoison w (a % 8192) true
  let full := decide (256 ≤ (slice w (b * 256) (b * 256 + 256)).length)
  { t with imem := put emptyBundle t.imem (a % 8192) d,
           imemWritten := if full then forget w (b * 256) (b * 256 + 256) else w,
           imemValid := if full then v + 2 ^ b else v }

/-- The banks touched more than once in a cycle (R84). -/
def conflictBanks (as : List AccessAt) : List Nat :=
  let bs := as.flatMap fun x => (x.acc.lines).map bankOf
  (List.range 32).filter fun b => decide (2 ≤ (bs.filter (· = b)).length)

/-! Landing (R75-R78). -/

/-- The register a result writes, for R77's comparison: memory writes never meet there. -/
def Res.target : Res → Option (Nat × Nat)
  | .vec r _ => some (0, r)
  | .mask r _ _ => some (1, r)
  | .scal r _ _ => some (2, r)
  | .addr r _ => some (3, r)
  | .loopc r _ _ => some (4, r)
  | .pxKey _ => some (5, 0)
  | .pxStep _ => some (6, 0)
  | .mem _ => none

/-- Write some bits of a lane; a lane written in part keeps its own poison too (R78). -/
def mergeLane (old : Cellw) (w : LaneW) (taint : Bool) : Cellw :=
  ⟨(w.val &&& w.bits) ||| (old.val &&& ~~~w.bits),
   w.poi || taint || (old.poi && decide (w.bits ≠ BitVec.allOnes 32))⟩

/-- One result lands. In a tile with TAINT every scalar is poisoned, those of SRDA, SRDC and SCYC too: R107 says every result, R121 that these never are
(DEDUCED, log entry 67). -/
def Tile.land (t : Tile) : Res → Tile
  | .vec r ws => ws.foldl (fun t w => t.putLane r w.lane (mergeLane (t.lane r w.lane) w t.taint)) t
  | .mask r which val => t.putMask r ((val &&& which) ||| (t.mask r &&& ~~~which))
  | .scal r v p => t.putSc r ⟨v, p || t.taint⟩
  | .addr r v => t.putAd r v
  | .loopc c v _ => t.putLc c v
  | .pxKey v => { t with pxKey := v }
  | .pxStep v => { t with pxStep := v }
  | .mem ws => ws.foldl Tile.putLine t

/-- Whether `p` loses its register to another result of the same cycle: the lower slot number wins (R77) and the loop hardware wins over CSET (R126).
R77 does not decide between two results of one slot: the later-issued one is kept (DESIGN CHOICE, log entry 67). -/
def loses (all : List (Nat × Pend)) (i : Nat) (p : Pend) : Bool :=
  match p.res.target with
  | none => false
  | some g => all.any fun (j, q) =>
      decide (q.res.target = some g) && decide (j ≠ i) &&
        (decide (q.slot < p.slot) || (decide (q.slot = p.slot) &&
          (match p.res, q.res with
           | .loopc _ _ false, .loopc _ _ true => true
           | .loopc _ _ true, .loopc _ _ false => false
           | _, _ => decide (i < j))))

/-- Every result due for cycle `c` lands at the end of the cycle before; a discarded one raises REG_CONFLICT (source 8) in that cycle (Table 3-6). -/
def Tile.landAll (t : Tile) (c : Nat) : Tile :=
  let due := t.pend.filter fun p => decide (p.due ≤ c)
  let num := (List.range due.length).zip due
  let t := { t with pend := t.pend.filter fun p => decide (c < p.due) }
  num.foldl (fun t ip => if loses num ip.1 ip.2 then t.conflict 8 (c - 1) else t.land ip.2.res) t

/-! The accesses of a cycle. -/

def Tile.acE (t : Tile) (row l : Nat) : AccE := look accZero t.acc (row * 128 + l)
def Tile.putAcE (t : Tile) (row l : Nat) (e : AccE) : Tile := { t with acc := put accZero t.acc (row * 128 + l) e }
def Tile.accRow (t : Tile) (row : Nat) : List AccE := (List.range 128).map (t.acE row)

/-- A row as a VU read of cycle `c` sees it: a VU write of the cycle before is not yet visible (R75, Table 3-5). -/
def Tile.accSeen (t : Tile) (c row : Nat) : List AccE :=
  match t.accHold.find? fun h => decide (h.1 = row) && decide (h.2.1 = c) with
  | some h => h.2.2
  | none => t.accRow row

def Tile.later (t : Tile) (due slot : Nat) (r : Res) : Tile := { t with pend := t.pend ++ [⟨due, slot, r⟩] }

/-- Memory-error events of an access (R85, R97): each hit is counted with its line or row. -/
def Tile.eccEvents (t : Tile) (mem line : Nat) (hits : List EccHit) : Tile :=
  hits.foldl (fun t h => t.event (.ecc mem h.ue (line + h.word / 4))) t

def Tile.buf (t : Tile) (i : Nat) : ResBuf := if i = 0 then t.buf0 else t.buf1
def Tile.putBuf (t : Tile) (i : Nat) (b : ResBuf) : Tile := if i = 0 then { t with buf0 := b } else { t with buf1 := b }

/-- The lanes selected by a mask. -/
def maskLanes (m : BitVec 128) : List Nat := (List.range 128).filter fun l => m.getLsbD l

/-- Load results for a mask of lanes taken from a 512-byte image (R133). -/
def vldRes (m : BitVec 128) (ls : List LineR) : List LaneW :=
  (maskLanes m).map fun l =>
    let x := ls.getD (l / 8) ⟨[], []⟩
    ⟨l, BitVec.allOnes 32, word32 x.bytes (4 * (l % 8)), x.at' (4 * (l % 8))⟩

/-- An uncorrectable entry of an accumulator access is poisoned (R97); a hit's word is the lane. -/
def accHit (hits : List EccHit) (l : Nat) : Bool := hits.any fun h => h.ue && decide (h.word = l)

/-- The entries of a row that an access found uncorrectable are poisoned where they stand (R97). -/
def Tile.poisonRow (t : Tile) (row : Nat) (hits : List EccHit) : Tile :=
  hits.foldl (fun t h => if h.ue && decide (h.word < 128) then t.putAcE row h.word { t.acE row h.word with poi := true } else t) t

/-- A VU write to a row that the MU writes in the same cycle is lost (R94, source 7). -/
def Tile.mmaWrites (t : Tile) (c row : Nat) : Bool := t.mmas.any fun m => decide (m.due = c) && decide (m.row = row)

/-- A byte of the held scale line at offset `o` (R156). The spec does not say what a scale that runs past the line's end reads: a free value (log
entry 67). -/
def Tile.scaleByte (t : Tile) (o : Nat) : Byte := if o < 32 then t.scaleLine.getD o 0x7F#8 else Config.scaleOver o

/-- The MU's operands for an MMA whose operand cycle is `c` (R88, R89, R155, R156). `hits`: words 0-7 the streamed vector, 8-11 the scale line, from 16 on
the entries of the row as the update reads it. -/
def Tile.mmaFetch (t : Tile) (c : Nat) (conf : List Nat) (hits : List EccHit)
    (a : Nat) (sa : Option Nat) (soff row bufNo sfmt rfmt : Nat) (ovw close : Bool) : Tile :=
  let l0 := t.readLine conf hits 0 (lineOf a)
  let l1 := t.readLine conf hits 1 (lineOf a + 1)
  let t := match sa with
    | none => t
    | some s => let x := t.readLine conf hits 2 (lineOf s); { t with scaleLine := x.bytes, scalePoi := x.poi }
  let b := t.buf bufNo
  let n := fmtK sfmt / 32
  let ss := if fmtMx sfmt then (List.range n).map fun i => t.scaleByte (soff + i) else []
  let sp := (List.range n).any fun i => t.scalePoi.getD ((soff + i) / 8) false
  let av := colVals sfmt (l0.bytes ++ l1.bytes) ss
  let cb := colBytes rfmt
  let rs (j : Nat) : List Byte := if fmtMx rfmt then (List.range n).map fun i => getByte b.scales (j * n + i) else []
  let bv := (List.range 128).map fun j => colVals rfmt (bytesAt b.data (j * cb) cb) (rs j)
  let es := vecMaxExp sfmt av (ss.map BitVec.toNat)
  let ec := ((List.range 128).zip bv).map fun x => vecMaxExp rfmt x.2 ((rs x.1).map BitVec.toNat)
  let p := l0.any || l1.any || b.poi || t.taint || (fmtMx sfmt && sp)
  let rowHits := (hits.filter fun h => decide (16 ≤ h.word)).map fun h => (⟨h.word - 16, h.ue⟩ : EccHit)
  { t with mmas := t.mmas ++ [⟨c + (if close then 13 else 9), row, ovw, decide (sfmt = 11), close, fmtK sfmt, av, bv,
                               es, ec, p, rowHits⟩] }

/-- One access in its cycle `c`; `conf` are the conflicting banks. -/
def Tile.access (t : Tile) (c : Nat) (conf : List Nat) (x : AccessAt) : Tile :=
  match x.acc with
  | .vld r a m =>
    let ls := (List.range 16).map fun i => t.readLine conf x.hits i (lineOf a + i)
    (t.later (c + 2) x.slot (.vec r (vldRes m ls))).eccEvents 0 (lineOf a) x.hits
  | .vldbc r a m =>
    let ln := t.readLine conf x.hits 0 (lineOf a)
    let w := word32 ln.bytes (a % 32)
    (t.later (c + 2) x.slot (.vec r ((maskLanes m).map fun l => ⟨l, BitVec.allOnes 32, w, ln.at' a⟩))).eccEvents 0 (lineOf a) x.hits
  | .sld r a =>
    let ln := t.readLine conf x.hits 0 (lineOf a)
    (t.later (c + 2) x.slot (.scal r (word32 ln.bytes (a % 32)) (ln.at' a))).eccEvents 0 (lineOf a) x.hits
  | .sld2 r a =>
    let ln := t.readLine conf x.hits 0 (lineOf a)
    ((t.later (c + 2) x.slot (.scal r (word32 ln.bytes (a % 32)) (ln.at' a))).later (c + 2) x.slot
      (.scal (r + 1) (word32 ln.bytes (a % 32 + 4)) (ln.at' a))).eccEvents 0 (lineOf a) x.hits
  | .store ws =>
    (t.later (c + 2) x.slot (.mem (ws.filter fun w => !conf.contains (bankOf w.line)))).eccEvents 0
      ((ws.head?.map LineW.line).getD 0) x.hits
  | .nmRecv a n im =>
    match t.flitIn.find? fun f => decide (f.1 = c) with
    | none => t.event .recvEmpty
    | some f =>
      let t := { t with flitIn := t.flitIn.filter fun g => decide (g.1 ≠ c) }
      let ls := (List.range n).zip f.2.lines
      if im then ls.foldl (fun t x => t.writeBundle (a / 128 % 2048 * 4 + x.1) x.2.data) t
      else
        let ws := ls.map fun x => lineWhole (lineOf a + x.1) x.2
        (t.later (c + 2) x.slot (.mem (ws.filter fun w => !conf.contains (bankOf w.line)))).eccEvents 0 (lineOf a) x.hits
  | .nmSend a n =>
    let ls := (List.range 4).map fun i =>
      if i < n then
        let ln := t.readLine conf x.hits i (lineOf a + i)
        (⟨BitVec.ofNat 256 (ln.bytes.foldr (fun b acc => b.toNat + 256 * acc) 0), ln.any || t.taint⟩ : FLine)
      else ⟨0#256, t.taint⟩  -- R135: clear poison; R107: all that a tainted tile sends is poisoned (DEDUCED, log entry 67)
    (t.event (.flitOut (c + 1) ⟨ls⟩)).eccEvents 0 (lineOf a) x.hits
  | .rchunk bi a off =>
    let ls := (List.range 16).map fun i => t.readLine conf x.hits i (lineOf a + i)
    let b := t.buf bi
    (t.putBuf bi { b with data := putBytes b.data off (ls.flatMap LineR.bytes),
                          poi := b.poi || ls.any LineR.any || t.taint }).eccEvents 0 (lineOf a) x.hits
  | .rscale bi a len =>
    let ls := (List.range 16).map fun i => t.readLine conf x.hits i (lineOf a + i)
    let b := t.buf bi
    (t.putBuf bi { b with scales := putBytes b.scales 0 ((ls.flatMap LineR.bytes).take len),
                          poi := b.poi || ls.any LineR.any || t.taint }).eccEvents 0 (lineOf a) x.hits
  | .mma a sa soff row bi sf rf ovw close =>
    let t := (t.mmaFetch c conf x.hits a sa soff row bi sf rf ovw close).eccEvents 0 (lineOf a) (x.hits.filter fun h => decide (h.word < 8))
    match sa with
    | none => t
    | some s => t.eccEvents 0 (lineOf s) ((x.hits.filter fun h => decide (8 ≤ h.word) && decide (h.word < 12)).map fun h => ⟨h.word - 8, h.ue⟩)
  | .vacr r row m lat md close =>
    let es := t.accSeen c row
    let ws := (maskLanes m).map fun l =>
      let e := es.getD l ⟨0#96, 0, false⟩
      (⟨l, BitVec.allOnes 32, if close then accRound md e else e.n.truncate 32, e.poi || accHit x.hits l⟩ : LaneW)
    ((t.later (c + lat - 1) x.slot (.vec r ws)).poisonRow row x.hits).eccEvents 1 row (x.hits.map fun h => ⟨0, h.ue⟩)
  | .vacrr r row part m =>
    let es := t.accSeen c row
    let ws := (maskLanes m).map fun l =>
      let e := es.getD l ⟨0#96, 0, false⟩
      let w : Word := if part = 3 then BitVec.ofNat 32 e.tag else (e.n >>> (32 * part)).truncate 32
      (⟨l, BitVec.allOnes 32, w, e.poi || accHit x.hits l⟩ : LaneW)
    ((t.later (c + 2) x.slot (.vec r ws)).poisonRow row x.hits).eccEvents 1 row (x.hits.map fun h => ⟨0, h.ue⟩)
  | .vacw row ws =>
    if t.mmaWrites c row then t.conflict 7 c
    else
      let old := t.accRow row
      let t := ws.foldl (fun t w => t.putAcE row w.lane ⟨w.val.zeroExtend 96, 0, w.poi || t.taint⟩) t
      { t with accHold := [(row, c + 1, old)] }
  | .vacwr row part ws =>
    if t.mmaWrites c row then t.conflict 7 c
    else if part = 3 then
      let old := t.accRow row
      let t := ws.foldl (fun t w =>
        let g (p : Nat) : RawW := look rawZero t.raw ((row * 3 + p) * 128 + w.lane)
        let tag := w.val.toNat % 512
        t.putAcE row w.lane (accRaw ((g 2).val ++ (g 1).val ++ (g 0).val) tag (w.poi || (g 0).poi || (g 1).poi || (g 2).poi || t.taint))) t
      { t with accHold := [(row, c + 1, old)] }
    else
      ws.foldl (fun t w => { t with raw := put rawZero t.raw ((row * 3 + part) * 128 + w.lane) ⟨w.val, w.poi || t.taint⟩ }) t

/-- Resident chunks are written at the end of their read cycle, after an MMA of that cycle has read (R87, R88). -/
def isChunk (x : AccessAt) : Bool :=
  match x.acc with
  | .rchunk .. => true
  | .rscale .. => true
  | _ => false

/-- The row update of an MMA (R90, R176, R181): each of the 128 entries on the row as it stands. An update that reads the row meets its memory errors
(R97). -/
def Tile.mmaUpdate (t : Tile) (m : MmaOp) : Tile :=
  let t := if m.ovw then t else (t.poisonRow m.row m.hits).eccEvents 1 m.row (m.hits.map fun h => ⟨0, h.ue⟩)
  (List.range 128).foldl (fun t j =>
    let ps := colProds m.a (m.b.getD j [])
    let e := t.acE m.row j
    t.putAcE m.row j
      (if m.close then closeUpdate m.ovw m.kdim m.es (m.ec.getD j none) ps (m.poi || t.taint) e
       else openUpdate m.ovw m.int8 ps (m.poi || t.taint) e)) t

/-- One enabled cycle of a tile: landings, accesses, resident chunks, row updates. However many banks conflict in a cycle, they are one event, and of
several events of one cycle OS_TG_CONFLICT_LAST keeps the last in the order REG_CONFLICT, BANK_CONFLICT, ACC_CONFLICT, then the slots' in the order of their
commands (DESIGN CHOICE, log entry 67). -/
def Tile.cycle (t : Tile) (c : Nat) : Tile :=
  let t := t.landAll c
  let now := t.accs.filter fun x => decide (x.cyc ≤ c)
  let conf := conflictBanks now
  let t := { t with accs := t.accs.filter fun x => decide (c < x.cyc) }
  let t := if conf.isEmpty then t else t.conflict 6 c
  let t := (now.filter fun x => !isChunk x).foldl (fun t x => t.access c conf x) t
  let t := (now.filter isChunk).foldl (fun t x => t.access c conf x) t
  let lost := t.flitIn.filter fun f => decide (f.1 ≤ c)
  let t := { t with flitIn := t.flitIn.filter fun f => decide (c < f.1) }
  let t := lost.foldl (fun t _ => t.event .flitLost) t
  let ms := t.mmas.filter fun m => decide (m.due ≤ c)
  let t := { t with mmas := t.mmas.filter fun m => decide (c < m.due) }
  let t := ms.foldl Tile.mmaUpdate t
  { t with clk := c, accHold := t.accHold.filter fun h => decide (c < h.2.1) }

/-- Bring the tile to cycle `c`. Nothing stays in flight longer than the fuel given. -/
def Tile.settleN : Nat → Tile → Nat → Tile
  | 0, t, c => { t with clk := max t.clk c }
  | n + 1, t, c => if c ≤ t.clk then t else Tile.settleN n (t.cycle (t.clk + 1)) c

/-- No result takes longer than 17 cycles to land (Table 3-5), a memory write one more to be seen. -/
def Tile.settle (t : Tile) (c : Nat) : Tile := Tile.settleN 32 t c

/-- The cycle by which an access's result has landed (R127). -/
def AccessAt.doneAt (x : AccessAt) : Nat :=
  match x.acc with
  | .store _ => x.cyc + 1
  | .nmSend _ _ => x.cyc + 1
  | .nmRecv _ _ _ => x.cyc + 1
  | .rchunk _ _ _ => x.cyc
  | .rscale _ _ _ => x.cyc
  | .mma _ _ _ _ _ _ _ _ close => x.cyc + (if close then 13 else 9)
  | .vacr _ _ _ lat _ _ => x.cyc + lat - 1
  | .vacw _ _ => x.cyc + 1
  | .vacwr _ _ _ => x.cyc + 1
  | _ => x.cyc + 2

/-- The first cycle in which every issued result has landed (R127). -/
def Tile.quietAt (t : Tile) : Nat :=
  let a := t.pend.foldl (fun n p => max n (match p.res with | .mem _ => p.due - 1 | _ => p.due)) t.next
  let a := t.accs.foldl (fun n x => max n x.doneAt) a
  t.mmas.foldl (fun n m => max n m.due) a

/-- Whether anything is still in flight. -/
def Tile.busy (t : Tile) : Bool := !(t.pend.isEmpty && t.accs.isEmpty && t.mmas.isEmpty)

/-! A bundle, slot by slot. -/

/-- The slots of a bundle, as bits of `cur`. -/
inductive Slot where
  | sc | ls | nm | nmr | vx | mx
  deriving DecidableEq, Repr

/-- The place of a slot in the order MX, VX, NM, LS, SC (R77). -/
def Slot.num : Slot → Nat
  | .mx => 0 | .vx => 1 | .nm => 2 | .nmr => 2 | .ls => 3 | .sc => 4

/-- The bit of `cur` a slot occupies; the two halves of the NM slot may both be enabled (R134). -/
def Slot.bit : Slot → Nat
  | .mx => 0 | .vx => 1 | .nm => 2 | .ls => 3 | .sc => 4 | .nmr => 5

/-- The VALID bit of a bundle's block (R103). -/
def Tile.blockValid (t : Tile) (pc : Nat) : Bool := Nat.testBit t.imemValid (pc / 256)

/-- Whether a slot can issue now: the tile is in RUN, has not met SYNC or END, has not issued that slot in this bundle,
and its block is VALID (R73, R104, R127). -/
def Tile.ready (t : Tile) (sl : Slot) : Bool :=
  decide (t.st = .run) && (t.halt.isNone || decide (t.cur ≠ 0)) && !Nat.testBit t.cur sl.bit && t.blockValid t.pc

/-- The first slot of a bundle brings the tile to its issue cycle. -/
def Tile.openBundle (t : Tile) : Tile :=
  if t.cur = 0 then { t.settle t.next with lastPc := t.pc } else t

/-- The loops that end at bundle `q` (R125): the loops left, the next address if one returns, and the loop register
write of a return. `iter` counts the iterations; the register takes it (log entry 8). -/
def loopEval (q : Nat) : List LoopE → List LoopE × Option (Nat × Nat × Nat)
  | [] => ([], none)
  | l :: r =>
    if l.last = q then
      if l.iter + 1 < l.trip then ({ l with iter := l.iter + 1 } :: r, some (l.start, r.length, l.iter + 1))
      else loopEval q r
    else (l :: r, none)

/-- The end of a bundle: loop evaluation, the next address, the next cycle (R102, R125). -/
def Tile.closeBundle (t : Tile) : Tile :=
  let q := t.pc
  let ev := loopEval q t.loops
  let t := { t with loops := ev.1 }
  let t := match ev.2 with
    | some (st, d, it) => { t.later (t.next + 1) 4 (.loopc d (BitVec.ofNat 16 it) true) with pc := st }
    | none => { t with pc := match t.skip with | some x => x % 0x2000 | none => (q + 1) % 0x2000 }
  { t with cur := 0, skip := none, next := t.next + 1 }

/-- Issue one slot of the tile's present bundle: `f` is what the slot does; `last` closes the bundle. A slot that cannot
issue changes nothing. -/
def Tile.issue (t : Tile) (sl : Slot) (last : Bool) (f : Tile → Tile) : Tile :=
  if t.ready sl then
    let t := f t.openBundle
    let t := { t with cur := t.cur + 2 ^ sl.bit }
    if last then t.closeBundle else t
  else t

/-- A slot judged illegal does nothing else (R159, source 11). -/
def Tile.illegal (t : Tile) : Tile := t.bad 11

/-- A busy unit (source 10). -/
def Tile.unitBusy (t : Tile) : Tile := t.bad 10

/-- Schedule an access for the cycle after issue (R82, R94). -/
def Tile.access1 (t : Tile) (sl : Slot) (hits : List EccHit) (a : Access) : Tile :=
  { t with accs := t.accs ++ [⟨t.next + 1, sl.num, a, hits⟩] }

/-- Write an address register with latency 1. -/
def Tile.advance (t : Tile) (sl : Slot) (r : Nat) (by' : Int) : Tile :=
  t.later (t.next + 1) sl.num (.addr r (BitVec.ofInt 22 ((t.ad r).toNat + by')))

/-- The transition from IDLE to RUN at bundle 0 in cycle `c` (R73, R107, R122, R156, R157). -/
def Tile.start (t : Tile) (c : Nat) : Tile :=
  { t with st := .run, pc := 0, taint := false, clk := c - 1, next := c, runBase := c, cur := 0, halt := none,
           skip := none, loops := [], scaleLine := List.replicate 32 0x7F#8, scalePoi := [],
           buf0 := { t.buf0 with loaded := false }, buf1 := { t.buf1 with loaded := false },
           tuFree := 0, rlFree := 0, mmaFree := 0, pend := [], accs := [], mmas := [], accHold := [] }

end Sys2Proof.Machine
end

