-- ==== Sys2Proof/Machine/Ops.lean ====
section
/-! DEFINITION. The named operations every meaning is built from: register fields, time, fault detection (R447-R452)
and running a tile. -/

namespace Sys2Proof.Machine

/-! Register fields. -/

/-- The value of a field. -/
def State.rd (s : State) (p : Nat) (f : Fld) : Nat := look resetVal s.regs (f.key p)

/-- Set a field; a value wider than the field keeps its low bits. -/
def State.wr (s : State) (p : Nat) (f : Fld) (v : Nat) : State :=
  { s with regs := put resetVal s.regs (f.key p) (v % 2 ^ f.w) }

/-- Set a one-bit field. -/
def State.wb (s : State) (p : Nat) (f : Fld) (b : Bool) : State := s.wr p f (if b then 1 else 0)

/-- Whether a one-bit field is set. -/
def State.bit (s : State) (p : Nat) (f : Fld) : Bool := decide (s.rd p f = 1)

/-- Add to a saturating counter. -/
def State.addSat (s : State) (p : Nat) (f : Fld) (n : Nat) : State := s.wr p f (min (s.rd p f + n) (2 ^ f.w - 1))

/-- Count one. -/
def State.inc (s : State) (p : Nat) (f : Fld) : State := s.addSat p f 1

/-- Add to a wrapping counter. -/
def State.addWrap (s : State) (p : Nat) (f : Fld) (n : Nat) : State := s.wr p f (s.rd p f + n)

/-- Set bit `i` of a field. -/
def State.setBit (s : State) (p : Nat) (f : Fld) (i : Nat) : State := s.wr p f (s.rd p f ||| 2 ^ i)

/-- Clear bit `i` of a field. -/
def State.clrBit (s : State) (p : Nat) (f : Fld) (i : Nat) : State :=
  s.wr p f (if (s.rd p f).testBit i then s.rd p f - 2 ^ i else s.rd p f)

/-- Put a bit. -/
def State.putBit (s : State) (p : Nat) (f : Fld) (i : Nat) (b : Bool) : State := if b then s.setBit p f i else s.clrBit p f i

/-- A write raises the page's epoch before its fields act (R51); a rise closes the key (R53). -/
def State.epochUp (s : State) (p epoch : Nat) : State :=
  if s.rd p R.PG_EPOCH_EPOCH < epoch then (s.wr p R.PG_EPOCH_EPOCH epoch).wb p R.PG_STATUS_KEY_OPEN false else s

/-- Zero a list of fields. -/
def State.zero (s : State) (p : Nat) (fs : List Fld) : State := fs.foldl (fun s f => s.wr p f 0) s

/-- The block registers of a page return to their reset values, but for those whose offsets are kept (R554). -/
def State.resetRegs (s : State) (p : Nat) (kept : List Fld) : State :=
  { s with regs := forgetIf s.regs fun k =>
      decide (keyPage k = p) && decide (0x100 * 32 ≤ k % 131072) && !(kept.any fun f => decide (f.key p = k)) }

/-! Pages. -/

def pageZero : Nat → PageSt := fun _ => {}

def State.page (s : State) (p : Nat) : PageSt := look pageZero s.pages p

def State.setPage (s : State) (p : Nat) (x : PageSt) : State := { s with pages := put pageZero s.pages p x }

/-- PG_STATUS.ALIVE: the block runs. -/
def State.alive (s : State) (p : Nat) : Bool := decide ((s.page p).up = .up)

/-- Bring a page's block up, down, or elsewhere. -/
def State.setUp (s : State) (p : Nat) (u : PageUp) : State := s.setPage p { s.page p with up := u }

/-- The package pages, the Hoop's own pages. -/
def pkg0 : Nat := pg 0x1F 0
def pkg1 : Nat := pg 0x1F 1
def pkg2 : Nat := pg 0x1F 2
def hpTop (h : Nat) : Nat := pg (0x12 + h) 0
def faultPg (h : Nat) : Nat := pg (0x12 + h) 0x20
def osTop (d : Nat) : Nat := pg d 0
def rowPg (d r : Nat) : Nat := pg d (1 + r)
def mcPg (d k : Nat) : Nat := pg d (0x10 + k)
def stPg (d e : Nat) : Nat := pg d (0x20 + e)
def cePg (d : Nat) : Nat := pg d 0x30
def sbPg (w : Nat) : Nat := pg (8 + w) 0x20
def subPg (w k : Nat) : Nat := pg (8 + w) (0x20 + k)
def fibPg (w f : Nat) : Nat := pg (8 + w) (0x10 + f)

/-! Roles (Table 13-4). -/

def roleStandby : Nat := 0
def roleActive : Nat := 1
def roleFenced : Nat := 2
def roleFailed : Nat := 3
def roleSolo : Nat := 4

def State.role (s : State) (h : Nat) : Nat := s.rd (hpTop h) R.HP_ROLE_ROLE

/-- Whether a Hoop acts for the package (ACTIVE or SOLO). -/
def State.acts (s : State) (h : Nat) : Bool := decide (s.role h = roleActive) || decide (s.role h = roleSolo)

/-- The acting Hoop. -/
def State.acting (s : State) : Option Nat := if s.acts 0 then some 0 else if s.acts 1 then some 1 else none

/-! Time. -/

/-- CCLK cycles in a tick: 16 for grade S, 14 for grade L (Table 0-1), by the grade in force (R522). -/
def State.ratio (s : State) : Nat := if s.rd pkg0 R.PKG_IDENT_GRADE = 1 then 14 else 16

/-- Enabled cycles among the first `x` CCLK cycles after a frame boundary at cadence `n` (R192). -/
def enabledIn (n x : Nat) : Nat := x / 64 * n + x % 64 * n / 64

/-- `k` CCLK cycles pass at the cadence in force. -/
def Clock.pass (c : Clock) (ratio k : Nat) : Clock :=
  { c with tick := c.tick + (c.sub + k) / ratio, sub := (c.sub + k) % ratio,
           frame := c.frame + (c.j + k) / 64, j := (c.j + k) % 64,
           cc := c.cc + (enabledIn c.n (c.j + k) - enabledIn c.n c.j) }

/-- The CCLK cycles after which `d` more cycles have been enabled. -/
def Clock.forEnabled (c : Clock) (d : Nat) : Nat :=
  if d = 0 || c.n = 0 then 0
  else
    let t := enabledIn c.n c.j + d
    let f := (t - 1) / c.n
    let r := t - f * c.n
    f * 64 + (r * 64 + c.n - 1) / c.n - c.j

/-- Whether the present CCLK cycle is enabled (R192). -/
def Clock.live (c : Clock) : Bool := decide (enabledIn c.n c.j < enabledIn c.n (c.j + 1))

/-- The first enabled cycle after the present CCLK cycle (Table 6-1, R209). -/
def Clock.seen (c : Clock) : Nat := if c.live then c.cc + 1 else c.cc

def State.passSlots (s : State) (k : Nat) : State := { s with clk := s.clk.pass s.ratio k }

/-- Time is at least tick `t` (log entry 2). -/
def State.toTick (s : State) (t : Nat) : State :=
  if t ≤ s.clk.tick then s else s.passSlots ((t - s.clk.tick) * s.ratio - s.clk.sub)

/-- Time is at least the enabled cycle `c`: the CCLK cycle in which CC is `c` and the program domain runs (log entry 2). -/
def State.toCc (s : State) (c : Nat) : State :=
  if c < s.clk.cc || (decide (c = s.clk.cc) && s.clk.live) then s else s.passSlots (s.clk.forEnabled (c + 1 - s.clk.cc) - 1)

/-- Package time (R305): the ticks since its zero, or where it froze (R544). -/
def State.pkgTick (s : State) : Nat := s.clk.frozen.getD (s.clk.tick - s.clk.base)

/-- Ticks in a microsecond and a millisecond (R11). -/
def usTicks : Nat := 100
def msTicks : Nat := 100000

/-! Reading a register word (R43, R44). -/

/-- The bits of a field that fall into the 32-bit word at `off`. -/
def Fld.partIn (f : Fld) (off v : Nat) : Nat :=
  let start := f.off * 8 + f.lo
  let base := off * 8
  if start ≤ base then v / 2 ^ (base - start) % 2 ^ 32 else v * 2 ^ (start - base) % 2 ^ 32

/-- Whether a field has bits in the word at `off`. -/
def Fld.meets (f : Fld) (off : Nat) : Bool :=
  decide (f.off * 8 + f.lo < off * 8 + 32) && decide (off * 8 < f.off * 8 + f.lo + f.w)

/-- The fields of a page with bits in the word at `off`. -/
def fieldsIn (b : Blk) (off : Nat) : List Fld :=
  (if off < 0x100 then flds_hdr else blkFields b).filter fun f => f.meets off

/-! Tiles, dies. -/

def tileZero : Nat → Tile := fun _ => Tile.reset
def osdZero : Nat → OsDie := fun _ => OsDie.reset

def State.tile (s : State) (d t : Nat) : Tile := look tileZero s.tiles (d * 64 + t)
def State.setTile (s : State) (d t : Nat) (x : Tile) : State := { s with tiles := put tileZero s.tiles (d * 64 + t) x }
def State.od (s : State) (d : Nat) : OsDie := look osdZero s.osd d
def State.setOd (s : State) (d : Nat) (x : OsDie) : State := { s with osd := put osdZero s.osd d x }

/-- OS_RUN_CYC (Table 6-12). -/
def State.runCyc (s : State) (d : Nat) : Nat :=
  let o := s.od d
  if s.rd (osTop d) R.OS_PROG_STAT_STATE = 2 && o.ready.isNone then o.runAcc + (s.clk.cc - o.runCc) else o.runAcc

/-! What PG_STATUS.BLOCK needs of the collective engine and of a queue. -/

/-- Bits `lo` to `lo + n - 1` of a number. -/
def bits (v lo n : Nat) : Nat := v / 2 ^ lo % 2 ^ n
def natZero : Nat → Nat := fun _ => 0
def ceZero : Nat → Ce := fun _ => Ce.reset
def State.ce (s : State) (d : Nat) : Ce := look ceZero s.ces d
def State.setCe (s : State) (d : Nat) (x : Ce) : State := { s with ces := put ceZero s.ces d x }
def dbits (w : BitVec 128) (lo n : Nat) : Nat := bits w.toNat lo n
def Desc.cCount (x : Desc) : Nat := if dbits x.word 16 20 = 0 then 2 ^ 20 else dbits x.word 16 20

/-- The first cycle in which the engine has reached its sync marker (R278). -/
def State.ceMark (s : State) (d : Nat) : Option Nat :=
  let x := s.ce d
  if !x.on then some 0
  else match x.ended with
    | none => none
    | some c => if x.running.all fun r => decide (r.j = r.cCount) then some (max c x.lastDone) else none

/-- CE_STATE.ST. -/
def State.ceCode (s : State) (d : Nat) : Nat :=
  let x := s.ce d
  if x.abort then 3 else if !x.on then 0
  else match s.ceMark d with
    | some c => if c ≤ s.clk.cc then 2 else 1
    | none => 1
def sqZero : Nat → Sq := fun _ => {}
def State.sq (s : State) (h q : Nat) : Sq := look sqZero s.sqs (h * 80 + q)

/-- LEVEL: lines written and not freed (R481). -/
def Sq.level (x : Sq) : Nat := x.fill.length + x.drain.length

/-- PG_STATUS.BLOCK where the owning chapter gives one. -/
def State.blockStatus (s : State) (p : Nat) (b : Blk) : Nat :=
  let d := dieOf p
  match b with
  | .tg =>
    (List.range 8).foldl (fun acc c =>
      let t := s.tile d ((pageOf p - 1) * 8 + c)
      acc + (if t.st = .run || t.st = .held then 2 ^ c else 0) + (if t.taint then 256 * 2 ^ c else 0)) 0
  | .os => s.rd p R.OS_PROG_STAT_STATE + 4 * s.rd p R.OS_PROG_STAT_HELD
  | .ce => s.ceCode d
  | .wl => s.rd p R.WL_STAT_STATE
  | .fib => s.rd p R.WF_FIB_STAT_LOOP_OK
  | .rdl => s.rd p R.RD_L_STAT_STATE
  | .sbk => s.rd p R.SB_STAT_STATE
  | .hp => s.rd p R.HP_ROLE_ROLE
  | .sq => (s.sq (d - 0x12) (pageOf p - 0x100)).level
  | _ => 0

/-- PG_STATUS as a word. -/
def State.status (s : State) (p : Nat) : Nat :=
  (if s.alive p then 1 else 0) + 2 * s.rd p R.PG_STATUS_KEY_OPEN
    + (if (s.page p).stage.isEmpty then 0 else 4) + 8 * s.rd p R.PG_STATUS_STAGE_OVF
    + 16 * s.rd p R.PG_STATUS_FENCE_REJ + 32 * s.rd p R.PG_STATUS_REJ
    + 65536 * ((pageBlk p).elim 0 (s.blockStatus p ·))

/-- A word of stored fields. -/
def State.word (s : State) (p off : Nat) : Nat :=
  match pageBlk p with
  | none => 0
  | some b => (fieldsIn b off).foldl (fun acc f => acc + f.partIn off (s.rd p f)) 0

/-! Faults (R447-R452). -/

/-- The severity a source has now; the two sources of package page 0 that R544 fixes stay HALT. -/
def State.sevOf (s : State) (p src : Nat) : Nat :=
  if p = pkg0 && (src = 2 || src = 3) then 3
  else (if src < 16 then s.rd p R.PG_FSEV0_SEV / 4 ^ src else s.rd p R.PG_FSEV1_SEV / 4 ^ (src - 16)) % 4

/-- On pages of Hoop dies and on the package page set CONTAIN acts as NOTIFY (R453). -/
def sevActed (p sev : Nat) : Nat := if sev = 2 && (isHoop (dieOf p) || decide (dieOf p = 0x1F)) then 1 else sev

/-- The detail words of a record (Table 14-2). -/
def State.detail (s : State) (p src : Nat) : Nat × Nat :=
  let d := dieOf p
  match pageBlk p with
  | some .tg => (if 6 ≤ src then s.word p 0x134 else s.word p 0x138, s.runCyc d)
  | some .os =>
    (if src ≤ 2 || src = 6 then s.word p 0x158 else if src = 3 then s.word p 0x160
     else if src = 4 || src = 5 then s.word p 0x13C else 0, s.runCyc d)
  | some .mc => (s.word p 0x104, s.word p 0x118 + 2 ^ 32 * s.word p 0x11C)
  | some .st => (s.word p 0x114, s.runCyc d)
  | some .ce => (s.word p 0x12C, s.runCyc d)
  | some .wl =>
    -- WL_STAT with LEADER and BONDED, which no register holds
    (s.word p 0x134, s.word p 0x108 + 2 ^ 32 * (s.word p 0x104 + (if wlLeads p then 2 ^ 5 else 0) + if (walePeer p).isSome then 2 ^ 6 else 0))
  | some .rdl => (s.word p 0x104, s.word p 0x108 + 2 ^ 32 * s.word p 0x10C)
  | some .hp => (s.word p 0x104, s.word p 0x114 + 2 ^ 32 * s.word p 0x138)
  | some .pkg2 => (s.word p 0x140, s.word p 0x10C)
  | some .fault => (s.word p 0x144, 0)
  | _ => (0, 0)

/-- The detail words of a later record of a source (R448, R453, R457): the block's registers as they are, and where Table 14-2 names what the detection
concerned, those of the last detection. -/
def State.detailAgain (s : State) (p src : Nat) : Nat × Nat :=
  match pageBlk p with
  | some .tg | some .os | some .mc | some .st | some .ce | some .wl | some .rdl | some .hp => s.detail p src
  | _ => look (fun _ => (0, 0)) (s.page p).lastDet src

/-- A record of page `p` now (R450). -/
def State.mkRec (s : State) (p src sev : Nat) (k : RecKind) (count last extra : Nat) : FaultRec :=
  ⟨s.pkgTick, dieOf p, pageOf p, src, sev, k, s.rd p R.PG_EPOCH_EPOCH, min count 255, s.status p, last % 2 ^ 32, extra % 2 ^ 64⟩

/-- A record leaves for both Hoop dies (R449). -/
def State.sendRec (s : State) (r : FaultRec) : State :=
  { s with flt := { s.flt with flight := s.flt.flight ++ [(0, r), (1, r)] } }

/-- The die's copy of FAULT_COAL.MS (R448). -/
def State.coalOf (s : State) (d : Nat) : Nat := look (fun _ => 100) s.flt.coal d

/-- A DETECT record starts a grace timer for a CONTAIN or HALT source that has none running (R452); the sources R544 fixes start
none. -/
def State.startGrace (s : State) (p src sev : Nat) : State :=
  let x := s.page p
  if 2 ≤ sev && !(decide (p = pkg0) && (src = 2 || src = 3)) && !(x.timers.any fun g => decide (g.src = src)) then
    let ms := max 1 (min 10000 (s.rd p R.PG_FTIMER_GRACE_MS))
    s.setPage p { x with timers := x.timers ++ [⟨src, s.clk.tick + ms * msTicks, decide (sev = 3)⟩],
                         ended := x.ended.filter (· ≠ src) }
  else s

/-- A detection of source `src` of page `p` with its detail words (R447, R448). -/
def State.raiseX (s : State) (p src last extra : Nat) : State :=
  if (s.rd p R.PG_FMASK_MASK).testBit src then s
  else if (s.rd p R.PG_FSTAT_SRC).testBit src then
    let x := s.page p
    s.setPage p { x with pendRep := put (fun _ => 0) x.pendRep src (look (fun _ => 0) x.pendRep src + 1),
                         lastDet := put (fun _ => (0, 0)) x.lastDet src (last, extra) }
  else
    let sev := sevActed p (s.sevOf p src)
    let s := s.setBit p R.PG_FSTAT_SRC src
    let s := s.sendRec (s.mkRec p src sev .detect 1 last extra)
    let x := s.page p
    let s := s.setPage p { x with lastRec := put (fun _ => 0) x.lastRec src s.clk.tick,
                                  lastDet := put (fun _ => (0, 0)) x.lastDet src (last, extra) }
    s.startGrace p src sev

/-- A detection with the detail words of Table 14-2. -/
def State.raise (s : State) (p src : Nat) : State :=
  let x := s.detail p src
  s.raiseX p src x.1 x.2

/-! Messages out. -/

/-- Send an MSI-X vector through a Hoop's endpoint. -/
def State.msix (s : State) (h v : Nat) : State := { s with out := { s.out with msix := s.out.msix ++ [(h, v)] } }

/-! Free values. -/

/-- Draw a free number. -/
def State.draw (s : State) : State × Nat := ({ s with freeCtr := s.freeCtr + 1 }, Config.freeNat s.freeCtr)

/-! Running a tile. -/

/-- An event of a mesh source (0 to 2, 6) at a router port (R202-R204, Table 6-12). -/
def State.meshEvent (s : State) (d src node port : Nat) : State :=
  let p := osTop d
  let s := s.wr p R.OS_MESH_LAST_ROUTER node
  let s := s.wr p R.OS_MESH_LAST_PORT port
  let s := s.wr p R.OS_MESH_LAST_SOURCE src
  let s := s.wr p R.OS_MESH_LAST_CYCLE (s.runCyc d)
  (s.inc p R.OS_MESH_CNT).raise p src

/-- One event a tile reports: counters, last-event registers and detection in its row's page. -/
def State.tileEvent (s : State) (d t : Nat) (e : TEv) : State :=
  let p := rowPg d (t / 8)
  match e with
  | .conflict src cyc =>
    let s := s.inc p R.OS_TG_CONFLICT_CNT
    let s := s.wr p R.OS_TG_CONFLICT_LAST_TILE (t % 8)
    let s := s.wr p R.OS_TG_CONFLICT_LAST_SOURCE src
    let s := s.wr p R.OS_TG_CONFLICT_LAST_CYCLE cyc
    s.raise p src
  | .ecc mem ue line =>
    let s := s.inc p (if ue then R.OS_TG_UE_CNT else R.OS_TG_CE_CNT)
    let s := s.wr p R.OS_TG_ECC_LAST_TILE (t % 8)
    let s := s.wr p R.OS_TG_ECC_LAST_MEM mem
    let s := s.wb p R.OS_TG_ECC_LAST_UE ue
    let s := s.wr p R.OS_TG_ECC_LAST_LINE line
    s.raise p (2 * mem + if ue then 1 else 0)
  | .poisonLine => s.inc p R.OS_TG_POISON_CNT
  | .flitOut cyc f => { s with mesh := s.mesh ++ [⟨d, t, 4, cyc, f, none⟩] }
  | .recvEmpty => s.meshEvent d 2 t 4
  | .flitLost => s.meshEvent d 1 t 4

/-- Take the events a tile has collected. -/
def State.drainTile (s : State) (d t : Nat) : State :=
  let x := s.tile d t
  x.evs.foldl (fun s e => s.tileEvent d t e) (s.setTile d t { x with evs := [] })

/-- Run a tile function on one tile, then take its events. -/
def State.onTile (s : State) (d t : Nat) (f : Tile → Tile) : State :=
  (s.setTile d t (f (s.tile d t))).drainTile d t

/-- Whether a tile exists (R70). -/
def tileOk (a : TileAt) : Bool := decide (a.die < 8) && decide (a.tile < 64)

/-- Whether a tile's row page and die are up; a row that is isolated or in reset issues nothing (R453). -/
def State.tileUp (s : State) (a : TileAt) : Bool := tileOk a && s.alive (rowPg a.die (a.tile / 8))

/-- Issue one slot of a tile's present bundle, in the tile's own cycle. -/
def State.issue (s : State) (a : TileAt) (sl : Slot) (last : Bool) (f : Tile → Tile) : State :=
  if s.tileUp a && (s.tile a.die a.tile).ready sl then
    (s.toCc (s.tile a.die a.tile).next).onTile a.die a.tile fun t => t.issue sl last f
  else s

end Sys2Proof.Machine
end

