-- ==== Sys2Proof/Machine/Memory.lean ====
section
/-! DEFINITION. What the engines of an Osier die share: HBM and its controllers (R231-R242), the Stake table
(R255-R257), event counters (R209), the HBM budget (R224) and digests (R316). -/

namespace Sys2Proof.Machine

def lineZero : Nat → FLine := fun _ => ⟨0#256, false⟩
def poisonLine : FLine := ⟨0#256, true⟩
def engZero : Nat → Eng := fun _ => Eng.reset
def wlZero : Nat → WlEnd := fun _ => WlEnd.reset
def borderZero : Nat → Border := fun _ => {}
def audZero : Nat → AudSt := fun _ => {}
def digZero : Nat → Dig := fun _ => {}

def State.eng (s : State) (d e : Nat) : Eng := look engZero s.engs (d * 16 + e)
def State.setEng (s : State) (d e : Nat) (x : Eng) : State := { s with engs := put engZero s.engs (d * 16 + e) x }
def State.wle (s : State) (p : Nat) : WlEnd := look wlZero s.wl p
def State.setWle (s : State) (p : Nat) (x : WlEnd) : State := { s with wl := put wlZero s.wl p x }
def State.bord (s : State) (d : Nat) : Border := look borderZero s.borders d
def State.setBord (s : State) (d : Nat) (x : Border) : State := { s with borders := put borderZero s.borders d x }
def State.au (s : State) (d : Nat) : AudSt := look audZero s.aud d
def State.setAu (s : State) (d : Nat) (x : AudSt) : State := { s with aud := put audZero s.aud d x }


/-- A two's-complement field of `n` bits. -/
def sbits (v lo n : Nat) : Int := (BitVec.ofNat n (v / 2 ^ lo)).toInt

/-- OS_PROG_STAT.STATE of a die (Table 6-12). -/
def State.prog (s : State) (d : Nat) : Nat := s.rd (osTop d) R.OS_PROG_STAT_STATE
def stEmpty : Nat := 0
def stLoaded : Nat := 1
def stRunning : Nat := 2
def stDone : Nat := 3

/-- The package's own ID (R27). -/
def State.pkgId (s : State) : Nat := s.rd pkg0 R.PKG_IDENT_PKG_ID

/-- The eight Osier dies. -/
def osDies : List Nat := List.range 8

/-- Whether any Osier die is RUNNING. -/
def State.anyRunning (s : State) : Bool := osDies.any fun d => decide (s.prog d = stRunning)

/-- The port (E, W or V) that joins two Osier dies. -/
def portTo (d o : Nat) : Option Nat := [0, 1, 2].find? fun k => decide ((walePeer (wlPg d k)).map dieOf = some o)

/-- Whether a port end is ALIVE: both ends are (R341). -/
def State.portAlive (s : State) (p : Nat) : Bool :=
  decide (s.rd p R.WL_STAT_STATE = 3) && (match walePeer p with | some q => decide (s.rd q R.WL_STAT_STATE = 3) | none => false)

/-- Lines of a Wale flit at a port's width: 40, or 20 at 8 modules (R220). -/
def State.flitLines (s : State) (p : Nat) : Nat := if s.bit p R.WL_STAT_W8 then 20 else 40

/-! HBM. -/

/-- The stack `mc` = die * 4 + stack; its page. -/
def mcPage (mc : Nat) : Nat := mcPg (mc / 4) (mc % 4)

/-- The pseudo-channel of a stack-local unit (R232). -/
def pchan (u : Nat) : Nat := (u % 64) ^^^ (u / 2 ^ 15 % 64)

/-- The key of a unit's pseudo-channel: die * 256 + stack * 64 + P (Table 6-12). -/
def pcKey (mc u : Nat) : Nat := mc / 4 * 256 + mc % 4 * 64 + pchan u

/-- Its bank, row and column unit (R232). -/
def unitBank (u : Nat) : Nat := (u / 2 ^ 6 % 64) ^^^ (u / 2 ^ 21 % 64)
def unitRow (u : Nat) : Nat := u / 2 ^ 15 % 2 ^ 15
def unitColumn (u : Nat) : Nat := u / 2 ^ 12 % 8

/-- The bits of a stream-engine schedule entry that some form of it gives a meaning (Tables 7-2, 7-4). -/
def stTop : Nat := 117

def State.hline (s : State) (mc line : Nat) : FLine := look lineZero s.hbm (mc * 2 ^ 32 + line)

/-- Store a line; a poisoned line keeps no data (R241). -/
def State.putHline (s : State) (mc line : Nat) (f : FLine) : State :=
  { s with hbm := put lineZero s.hbm (mc * 2 ^ 32 + line % 2 ^ 32) (if f.poi then poisonLine else f) }

/-- A unit of four lines. -/
def State.hunit (s : State) (mc u : Nat) : List FLine := (List.range 4).map fun i => s.hline mc (4 * u + i)

def State.putHunit (s : State) (mc u : Nat) (ls : List FLine) : State :=
  ((List.range 4).zip ls).foldl (fun s x => s.putHline mc (4 * u + x.1) x.2) s

/-- Whether a controller can serve: its page is alive and its PHY trained (R236). -/
def State.mcUp (s : State) (mc : Nat) : Bool := s.alive (mcPage mc) && s.bit (mcPage mc) R.MC_STAT_TRAINED

/-- An event of MC sources 0 to 2 with its address (Table 7-10). -/
def State.mcEvent (s : State) (mc src addr : Nat) : State :=
  let p := mcPage mc
  let s := s.wr p R.MC_ERR_ADDR addr
  let s := s.wr p R.MC_ERR_ADDR_SRC src
  let s := s.inc p (if src = 0 then R.MC_CE_CNT else if src = 1 then R.MC_UE_CNT else R.MC_LATE_CNT)
  s.raise p src

/-- The lines a controller reads from the units `us`: errors of the read (R240) by 32-byte word, stored poison (R241). A controller that cannot
serve reads poisoned zeros. -/
def State.mcRead (s : State) (mc : Nat) (us : List Nat) (ls : List FLine) (hits : List EccHit) : State × List FLine :=
  if !s.mcUp mc then (s, ls.map fun _ => poisonLine)
  else
    let s := s.addSat (mcPage mc) R.MC_POISON_RD_CNT (ls.filter FLine.poi).length
    let hits := hits.filter fun h => decide (h.word < ls.length)
    let s := hits.foldl (fun s h => s.mcEvent mc (if h.ue then 1 else 0) (us.getD (h.word / 4) 0 * 128 + 32 * (h.word % 4))) s
    (s, ls.zipIdx.map fun x => if hits.any (fun h => h.ue && decide (h.word = x.2)) then poisonLine else x.1)

/-- Whether a program read unit issued in cycle `t` misses its release (R235-R237): the controller cannot serve, or the unit fell into a quiet window of
its pseudo-channel; `late` says so of one whose pseudo-channel was once over its budget. -/
def State.unitLate (s : State) (mc u t : Nat) (late : Bool) : Bool :=
  let q := look (fun _ => (0, 0)) s.quiet (pcKey mc u)
  !s.mcUp mc || (decide (q.1 ≤ t) && decide (t < q.2)) || (late && decide (look natZero s.ovbOver (pcKey mc u) = 1))

/-- What a program read releases (R234, R235): each late unit raises MC_LATE and is poisoned zeros; `late` numbers the units that come late where they
may. -/
def State.mcDeliver (s : State) (mc t : Nat) (us : List Nat) (ls : List FLine) (hits : List EccHit) (late : List Nat) : State × List FLine :=
  let bad := us.zipIdx.filter fun x => s.unitLate mc x.1 t (late.contains x.2)
  let x := s.mcRead mc us ls (hits.filter fun h => !(bad.any fun b => decide (b.2 = h.word / 4)))
  (bad.foldl (fun s b => s.mcEvent mc 2 (b.1 * 128)) x.1,
   x.2.zipIdx.map fun l => if bad.any (fun b => decide (b.2 = l.2 / 4)) then poisonLine else l.1)

/-- Side service counts its bytes in whole KiB, the rest kept (MC_SIDE_BYTES). -/
def State.sideBytes (s : State) (mc n : Nat) : State :=
  let k := look natZero s.sideRem mc + n
  ({ s with sideRem := put natZero s.sideRem mc (k % 1024) }).addWrap (mcPage mc) R.MC_SIDE_BYTES (k / 1024)

/-- A reading of a stack's sensor while its refresh is doubled: 83 degrees C or more starts the 10 ms anew (R238). -/
def State.refreshSeen (s : State) (die stack temp : Nat) : State :=
  let mc := die * 4 + stack
  if s.bit (mcPg die stack) R.MC_STAT_REF2X then
    if temp < 83 then
      (match look (fun _ => none) s.cool mc with
        | none => { s with cool := put (fun _ => none) s.cool mc (some s.clk.tick) }
        | some _ => s)
    else { s with cool := put (fun _ => none) s.cool mc none }
  else s

/-! The Stake table. -/

/-- Where an access goes (R255, R256): a local unit, a neighbour's unit over a port, or nowhere with a fault source. -/
inductive Place where
  | here (mc u : Nat)
  | nbr (port mc u : Nat)
  | bad (src : Nat)
  deriving DecidableEq, Repr

/-- The entry of a granule as written. -/
def State.stakeNow (s : State) (d g : Nat) : Nat := look natZero s.stake (d * 65536 + g % 65536)

/-- The entry as lookups find it: a write takes effect from the next enabled cycle (R257). -/
def State.stakeE (s : State) (d g : Nat) : Nat :=
  match s.stakeOld.find? fun x => decide (x.1 = d * 65536 + g % 65536) && decide (s.clk.cc < x.2.2) with
  | some x => x.2.1
  | none => s.stakeNow d g

/-- ST_STAKE_DATA written, without its reserved bits (Table 7-8, R257). -/
def State.stakeWrite (s : State) (d g v : Nat) : State :=
  { s with stake := put natZero s.stake (d * 65536 + g % 65536) (v % 2 ^ 28),
           stakeOld := (s.stakeOld.filter fun x => decide (s.clk.cc < x.2.2)) ++ [(d * 65536 + g % 65536, s.stakeNow d g, s.clk.seen)] }
def skKind (e : Nat) : Nat := bits e 0 2
def skStack (e : Nat) : Nat := bits e 2 2
def skGran (e : Nat) : Nat := bits e 4 11
def skDie (e : Nat) : Nat := bits e 15 3
def skLgran (e : Nat) : Nat := bits e 2 16
def skLent (e : Nat) : Bool := decide (bits e 18 1 = 1)
def skWp (e : Nat) : Bool := decide (bits e 19 1 = 1)
def skPeer (e : Nat) : Nat := bits e 20 8

/-- The stack-local unit of a package address under an entry (R255). -/
def skUnit (e addr : Nat) : Nat := skGran e * 2 ^ 19 + bits addr 7 19

/-- Resolve an access of die `d` that is no lender request; `ue`: the entry has an uncorrectable error. -/
def State.resolve (s : State) (d addr : Nat) (write flitOp ue : Bool) : Place :=
  let e := s.stakeE d (addr / 2 ^ 26)
  if ue then .bad 2
  else if skKind e = 1 && decide (skStack e < 3) && !skLent e then
    (if write && skWp e then .bad 6 else .here (d * 4 + skStack e) (skUnit e addr))
  else if skKind e = 2 && decide (skStack e < 3) && !flitOp then
    match portTo d (skDie e) with
    | some k =>
      if s.portAlive (wlPg d k) then
        (if write && skWp e then .bad 6 else .nbr k (skDie e * 4 + skStack e) (skUnit e addr))
      else .bad 0
    | none => .bad 0
  else .bad 0

/-! Event counters and errors. -/

/-- Sync-table entry fields (Table 6-8): condition A or B as (counter, amount). -/
def syncA (e : Nat) : Nat × Nat := (bits e 24 4, bits e 28 12)
def syncB (e : Nat) : Nat × Nat := (bits e 40 4, bits e 44 12)
def syncBorder (e : Nat) : Bool := decide (bits e 6 1 = 1)

def State.evtCnt (s : State) (d c : Nat) : Nat := s.rd (osTop d) (Fld.idx R.OS_EVT_CNT (c % 16))

/-- An event counter as sync conditions see it in cycle `k`: an increment is seen from the next enabled cycle on (R209). -/
def State.evtSeen (s : State) (d c k : Nat) : Nat :=
  match (s.od d).fresh.find? fun x => decide (x.1 = c % 16) && decide (k < x.2.2) with
  | some x => x.2.1
  | none => s.evtCnt d c

/-- Whether conditions A and B hold in cycle `k`; over one counter they hold together (R210). -/
def State.condHold (s : State) (d e k : Nat) : Bool × Bool :=
  let a := syncA e
  let b := syncB e
  if a.2 ≠ 0 && b.2 ≠ 0 && a.1 = b.1 then
    let ok := decide (a.2 + b.2 ≤ s.evtSeen d a.1 k)
    (ok, ok)
  else (decide (a.2 ≤ s.evtSeen d a.1 k), decide (b.2 ≤ s.evtSeen d b.1 k))

/-- A ready die notes that its conditions are met in cycle `c`, with the package time of that cycle (R309). -/
def State.condNote (s : State) (d c : Nat) : State :=
  let o := s.od d
  if o.ready.isSome && (o.metA.isNone || o.metB.isNone) then
    let h := if o.waitEnd then (true, true) else s.condHold d (look natZero o.syncs o.waitId) c
    let o' := { o with metA := if o.metA.isNone && h.1 then some c else o.metA,
                       metB := if o.metB.isNone && h.2 then some c else o.metB }
    s.setOd d (if o'.metA.isSome && o'.metB.isSome then { o' with metTick := (s.toCc c).pkgTick } else o')
  else s

/-- Increment an event counter (R209). -/
def State.evtAdd (s : State) (d c n : Nat) : State :=
  let o := s.od d
  let s := s.setOd d { o with fresh := (o.fresh.filter fun x => decide (s.clk.cc < x.2.2)) ++ [(c % 16, s.evtCnt d c, s.clk.seen)] }
  (s.addSat (osTop d) (Fld.idx R.OS_EVT_CNT (c % 16)) n).condNote d s.clk.seen

def State.evtOpt (s : State) (d : Nat) (e : Option Nat) : State :=
  match e with
  | none => s
  | some c => s.evtAdd d c 1

/-- A fault event of a stream engine (Table 7-12): ST_ERR_LAST and the source. -/
def State.engErr (s : State) (d e idx src : Nat) : State :=
  let p := stPg d e
  let s := if src ≤ 9 then (s.wr p R.ST_ERR_LAST_INDEX idx).wr p R.ST_ERR_LAST_SRC src else s
  s.raise p src

/-- An event of ST0 that no descriptor caused (R261): ST_ERR_LAST names the source; the descriptor is not stated, a free value. -/
def State.zeroErr (s : State) (d src : Nat) : State :=
  let x := s.draw
  x.1.engErr d 0 (x.2 % 2 ^ 13) src

/-- The SEC-DED check of an entry looked up (R255, R256): a corrected one is counted; `stk` is true for an uncorrectable one. -/
def State.stakeCe (s : State) (d : Nat) (stk : Option Bool) (err : State → State) : State :=
  if stk = some false then err (s.inc (stPg d 0) R.ST_STAKE_CE_CNT) else s

/-- An access refused by the Stake table. -/
def State.placeErr (s : State) (d e idx : Nat) (pl : Place) : State :=
  match pl with
  | .bad src => s.engErr d e idx src
  | _ => s

/-- The bytes of a pseudo-channel in the window that ends with cycle `t`. -/
def State.ovbBytes (s : State) (k t : Nat) : Nat :=
  ((look (fun _ => []) s.ovb k).filter fun x => decide (t < x.1 + 1024)).foldl (fun a (x : Nat × Nat) => a + x.2) 0

/-- The bytes of one unit enter their pseudo-channel's window. -/
def State.ovbAdd (s : State) (mc t u : Nat) : State :=
  let k := pcKey mc u
  { s with ovb := put (fun _ => []) s.ovb k (((look (fun _ => []) s.ovb k).filter fun x => decide (t < x.1 + 1024)) ++ [(t, 128)]) }

/-- The budget check of R224 on an issue that moves the units `us` of a stack in cycle `t`: one issue counts once. Where it takes several
pseudo-channels above the limit, OS_OVB_LAST names the last in unit order (DESIGN CHOICE, log entry 68). A pseudo-channel once above its limit may
answer late (R236). -/
def State.budget (s : State) (mc : Nat) (us : List Nat) (t : Nat) : State :=
  let p := osTop (mc / 4)
  let s := us.foldl (fun s u => s.ovbAdd mc t u) s
  let above := us.filter fun u => decide (s.rd p R.OS_OVB_LIMIT_BYTES < s.ovbBytes (pcKey mc u) t)
  match above.getLast? with
  | none => s
  | some u =>
    let s := above.foldl (fun s u => { s with ovbOver := put natZero s.ovbOver (pcKey mc u) 1 }) s
    let s := s.wr p R.OS_OVB_LAST_PC (pcKey mc u % 256)
    let s := s.wr p R.OS_OVB_LAST_BYTES (s.ovbBytes (pcKey mc u) t)
    (s.inc p R.OS_OVB_CNT).raise p 3

/-! Digests (R316, R317). -/

/-- One byte of CRC-64/ECMA-182. -/
def crc64Byte (crc : BitVec 64) (b : Nat) : BitVec 64 :=
  (List.range 8).foldl (fun c _ => if c.msb then (c <<< 1) ^^^ 0x42F0E1EBA9EA3693#64 else c <<< 1)
    (crc ^^^ BitVec.ofNat 64 (b * 2 ^ 56))

def crc64 (bs : List Nat) : BitVec 64 := bs.foldl crc64Byte 0#64

/-- The bytes of a line in ascending order. -/
def lineBytes (f : FLine) : List Nat := (List.range 32).map fun i => f.data.toNat / 256 ^ i % 256

/-- The line of 32 bytes. -/
def lineOfBytes (bs : List Nat) (p : Bool) : FLine :=
  ⟨BitVec.ofNat 256 (bs.foldr (fun b acc => b % 256 + 256 * acc) 0), p⟩

/-- The term a 256-byte line at an offset adds. -/
def digTerm (off : Nat) (ls : List FLine) : BitVec 64 :=
  let hd := (List.range 5).map fun i => off / 256 ^ (4 - i) % 256
  let c := crc64 (hd ++ ls.flatMap lineBytes)
  if ls.any FLine.poi then ~~~c else c

/-- Add a 128-byte unit; the line counts when both of its units have passed. -/
def Dig.add (g : Dig) (addr : Nat) (ls : List FLine) : Dig :=
  let u := addr / 128
  match g.halves.find? fun h => decide (h.1 / 2 = u / 2) && decide (h.1 ≠ u) with
  | none => { g with halves := g.halves ++ [(u, ls)] }
  | some h =>
    let all := if u % 2 = 0 then ls ++ h.2 else h.2 ++ ls
    let off := (((u / 2 * 256 : Nat) - (g.base : Int)) / 256 % 2 ^ 40).toNat
    { g with sum := g.sum + digTerm off all,
             pcnt := if all.any FLine.poi then min (g.pcnt + 1) (2 ^ 32 - 1) else g.pcnt,
             halves := g.halves.filter fun x => decide (x.1 ≠ h.1) }

def Eng.dig (x : Eng) (r : Nat) : Dig := look digZero x.digs r
def Eng.putDig (x : Eng) (r : Nat) (g : Dig) : Eng := { x with digs := put digZero x.digs r g }

def State.digAdd (s : State) (d e : Nat) (g : Option (Nat × Nat)) (ls : List FLine) : State :=
  match g with
  | none => s
  | some (r, a) => let x := s.eng d e; s.setEng d e (x.putDig r ((x.dig r).add a ls))

end Sys2Proof.Machine
end

