-- ==== Sys2Proof/Machine/TileCtl.lean ====
section
/-! DEFINITION. What happens to a tile beside its slots: enables, weave and zeroing (R96, R109, R110), empty and
invalid bundles (R104, R114, R115), landing (R75), HELD and IDLE (R127, R129). -/

namespace Sys2Proof.Machine

/-! Entering IDLE and OFF. -/

/-- The weave changes and accumulator memory is zeroed (R96). -/
def Tile.setWeave (t : Tile) (close : Bool) : Tile :=
  if t.accClose = close then t else { t with accClose := close, acc := [], raw := [] }

/-- The tile is IDLE, or OFF where its enable bit is 0; an IDLE tile takes the weave asked for (R96, R109), and one that is being zeroed stays IDLE
(R110). -/
def Tile.rest (t : Tile) (en close : Bool) : Tile :=
  if en || t.zeroing then { t with st := .idle }.setWeave close else { t with st := .off }

/-- The enable and weave bits of a tile. -/
def State.tileEn (s : State) (d t : Nat) : Bool := (s.rd (rowPg d (t / 8)) R.OS_TG_ENABLE_TILE_EN).testBit (t % 8)
def State.tileClose (s : State) (d t : Nat) : Bool := (s.rd (rowPg d (t / 8)) R.OS_TG_ACC_MODE_CLOSE).testBit (t % 8)

/-- A tile ends what it ran: nothing stays in flight, the loop stack empties (R129, R219), and held writes to its
enable and weave bits take effect (R109). -/
def State.tileIdle (s : State) (d t : Nat) : State :=
  let x := s.tile d t
  s.setTile d t ({ x with halt := none, loops := [], cur := 0, skip := none, pend := [], accs := [], mmas := [],
                          flitIn := [], accHold := [] }.rest (s.tileEn d t) (s.tileClose d t))

/-- The tiles of a row. -/
def rowTiles (r : Nat) : List Nat := (List.range 8).map (8 * r + ·)

/-- OS_TG_ENABLE or OS_TG_ACC_MODE was written: IDLE tiles follow at once, and OFF tiles whose bit is set become IDLE while
the die holds no program (Table 3-3; log entry 7). -/
def State.rowFollow (s : State) (d r : Nat) : State :=
  (rowTiles r).foldl (fun s t =>
    let x := s.tile d t
    if x.st = .idle || (x.st = .off && s.tileEn d t && decide (s.rd (osTop d) R.OS_PROG_STAT_STATE = 0)
        && s.alive (rowPg d r))
    then s.setTile d t (x.rest (s.tileEn d t) (s.tileClose d t)) else s) s

/-- OS_TG_ZERO (R110): an IDLE tile starts zeroing; any other ignores the request (R109). -/
def State.zeroReq (s : State) (d r v : Nat) : State :=
  (rowTiles r).foldl (fun s t =>
    let x := s.tile d t
    if v.testBit (t % 8) && decide (x.st = .idle)
    then (s.setTile d t { x with zeroing := true }).setBit (rowPg d r) R.OS_TG_ZERO_REQ (t % 8) else s) s

/-- What a zero request leaves (R110). -/
def Tile.zeroed (t : Tile) : Tile :=
  { t with v := [], mr := [], s := [], a := [], c := [], pc := 0, lastPc := 0, pxKey := 0, pxStep := 0, taint := false, mem := [], memPoi := [],
           acc := [], raw := [], imem := [], imemValid := 0xFFFFFFFF, imemWritten := [], zeroing := false,
           scaleLine := [], scalePoi := [], buf0 := ResBuf.empty, buf1 := ResBuf.empty }

/-- OS_TG_CNT_CLR zeroes the row's four counters. -/
def State.tgCntClr (s : State) (d r : Nat) : State :=
  s.zero (rowPg d r) [R.OS_TG_CE_CNT, R.OS_TG_UE_CNT, R.OS_TG_POISON_CNT, R.OS_TG_CONFLICT_CNT]

/-- TILE_ZERO_COMPLETE (R110): zeroing of an IDLE tile ends and its REQ bit reads 0; an enable bit cleared meanwhile takes effect. -/
def execTileZeroComplete (at' : TileAt) (s : State) : Host.Outcome State Fault Refusal :=
  .next (if s.tileUp at' && (s.tile at'.die at'.tile).zeroing then
    (s.setTile at'.die at'.tile ((s.tile at'.die at'.tile).zeroed.rest (s.tileEn at'.die at'.tile) (s.tileClose at'.die at'.tile))).clrBit (rowPg at'.die (at'.tile / 8)) R.OS_TG_ZERO_REQ
      (at'.tile % 8)
    else s)

/-! Bundles without slots. -/

/-- Issue a whole bundle with no slot command of its own. -/
def Tile.issueEmpty (t : Tile) (f : Tile → Tile) : Tile := (f t.openBundle).closeBundle

/-- Whether a bundle can start. -/
def Tile.fresh (t : Tile) : Bool := decide (t.st = .run) && t.halt.isNone && decide (t.cur = 0)

/-- Enabled slots with an unassigned opcode, one bit a slot as in the header: those of the bundle not issued yet do nothing, and each is illegal
(Table 4-17). -/
def Tile.badSlots (t : Tile) (bad : Nat) : Tile :=
  [(0, Slot.sc), (1, .ls), (3, .vx), (4, .mx)].foldl (fun (t : Tile) x =>
    if bad.testBit x.1 && !t.cur.testBit x.2.bit then { t.illegal with cur := t.cur + 2 ^ x.2.bit } else t) t

/-- EMPTY_BUNDLE (R114, R158): a bundle without a slot that executes issues, occupies its cycle and undergoes loop evaluation. Header bits [7:5] not 0 make
the bundle at its start illegal as a whole; `bad` names its slots with an unassigned opcode, beside which slots may execute: `last` closes it. -/
def execEmptyBundle (at' : TileAt) (hdr bad : Nat) (last : Bool) (s : State) : Host.Outcome State Fault Refusal :=
  let x := s.tile at'.die at'.tile
  .next (if s.tileUp at' && decide (x.st = .run) && (x.halt.isNone || decide (x.cur ≠ 0)) && x.blockValid x.pc then
    if hdr / 32 % 8 ≠ 0 then
      (if x.cur = 0 then (s.toCc x.next).onTile at'.die at'.tile fun t => t.issueEmpty Tile.illegal else s)
    else
      (s.toCc x.next).onTile at'.die at'.tile fun t =>
        let t := t.openBundle.badSlots bad
        if last || decide (t.cur = 0) then t.closeBundle else t
    else s)

/-- INVALID_BLOCK_ISSUE (R104): the empty bundle in place of the fetched one, TAINT, and IMEM_INVALID or IMEM_UE. A
corrected error is reported and the bundle issues by its own slots. -/
def execInvalidBlockIssue (at' : TileAt) (err : FetchErr) (s : State) : Host.Outcome State Fault Refusal :=
  let x := s.tile at'.die at'.tile
  .next (if s.tileUp at' && x.fresh && (decide (err = .invalid) != x.blockValid x.pc) then
    (s.toCc x.next).onTile at'.die at'.tile fun t =>
      match err with
      | .invalid => t.issueEmpty fun t => t.bad 9
      | .ue => t.issueEmpty fun t => { t.event (.ecc 2 true t.pc) with taint := true }
      | .ce => t.event (.ecc 2 false t.pc)
    else s)

/-- The commands that a tile in RUN is given next by its own program: what the bundle at its program counter spells, or the empty bundle in place of one
from a block that is not VALID (R102, R104; log entry 11). -/
def State.fetch (s : State) (a : TileAt) : List Instr :=
  let x := s.tile a.die a.tile
  if !x.fresh then []
  else if x.blockValid x.pc then decodeBundle a (look Machine.emptyBundle x.imem x.pc).toNat
  else [.invalidBlockIssue a .invalid]

/-! Time inside a tile. -/

/-- The first cycle after the tile's own in which a result of the given kind lands, if any is waiting. -/
def minOf : List Nat → Option Nat
  | [] => none
  | a :: r => some (r.foldl min a)

/-- A tile runs up to cycle `c`, but never past the issue of its next bundle while it has one to issue. -/
def State.tileTo (s : State) (a : TileAt) (due : Tile → Option Nat) : State :=
  let x := s.tile a.die a.tile
  match due x with
  | none => s
  | some c =>
    if s.tileUp a && (!(x.fresh) || decide (c ≤ x.next)) then (s.toCc c).onTile a.die a.tile fun t => t.settle c else s

/-- RESULT_LAND (R75): the next result lands in its cycle. -/
def execResultLand (at' : TileAt) (s : State) : Host.Outcome State Fault Refusal :=
  .next (s.tileTo at' fun t => minOf (t.pend.map Pend.due))

/-- RESIDENT_CHUNK_READ (R87): the next chunk or scale area is read into its buffer. -/
def execResidentChunkRead (at' : TileAt) (s : State) : Host.Outcome State Fault Refusal :=
  .next (s.tileTo at' fun t => minOf ((t.accs.filter isChunk).map AccessAt.cyc))

/-- MMA_ROW_UPDATE (R90): the next row takes its 128 results. -/
def execMmaRowUpdate (at' : TileAt) (s : State) : Host.Outcome State Fault Refusal :=
  .next (s.tileTo at' fun t => minOf (t.mmas.map MmaOp.due))

/-! HELD and IDLE. -/

/-- Whether a tile has issued its SYNC (or END) bundle. -/
def Tile.halting (t : Tile) (isEnd : Bool) : Bool :=
  decide (t.st = .run) && decide (t.cur = 0) && (match t.halt with | some h => h.isEnd == isEnd | none => false)

/-- TILE_ENTER_HELD (R127): in the first cycle in which every result has landed; the cycles before it are RUN cycles (R122). -/
def execTileEnterHeld (at' : TileAt) (s : State) : Host.Outcome State Fault Refusal :=
  let x := s.tile at'.die at'.tile
  .next (if s.tileUp at' && x.halting false then
    let c := x.quietAt
    (s.toCc c).onTile at'.die at'.tile fun t =>
      let t := t.settle c
      { t with st := .held, next := c, heldId := (t.halt.map HaltReq.id).getD 0, clk := c }
    else s)

/-- TILE_ENTER_IDLE (R129). -/
def execTileEnterIdle (at' : TileAt) (s : State) : Host.Outcome State Fault Refusal :=
  let x := s.tile at'.die at'.tile
  .next (if s.tileUp at' && x.halting true then
    let c := x.quietAt
    let s := (s.toCc c).onTile at'.die at'.tile fun t => t.settle (c + 2)
    (s.setTile at'.die at'.tile { s.tile at'.die at'.tile with heldId := (x.halt.map HaltReq.id).getD 0 }).tileIdle at'.die at'.tile
    else s)

end Sys2Proof.Machine
end

