-- ==== Sys2Proof/Machine/Stream.lean ====
section
/-! DEFINITION. The stream engines (R243-R254): descriptors start, transactions issue, read units are released and
write units are taken and enter their controllers. -/

namespace Sys2Proof.Machine

/-! Descriptor fields (Table 7-2). -/

def Desc.op (x : Desc) : Nat := dbits x.word 12 4
def Desc.count (x : Desc) : Nat := if dbits x.word 16 16 = 0 then 65536 else dbits x.word 16 16
def Desc.period (x : Desc) : Nat := if dbits x.word 32 8 = 0 then 256 else dbits x.word 32 8
def Desc.units (x : Desc) : Nat := dbits x.word 40 2 + 1
def Desc.lane (x : Desc) : Nat := dbits x.word 104 1
def Desc.port (x : Desc) : Nat := dbits x.word 105 2
def Desc.evt (x : Desc) : Option Nat := if dbits x.word 111 1 = 1 then some (dbits x.word 107 4) else none
def Desc.addr (x : Desc) : Nat := dbits x.word 42 42 / 128 * 128

/-- The address of transaction `j` (R247). -/
def Desc.addrAt (x : Desc) (j : Nat) : Nat := ((x.addr : Int) + j * sbits x.word.toNat 84 20 * 128).toNat % 2 ^ 42

/-- DIGEN is honoured for RD and WR with one or three further units and an aligned address (R317). -/
def Desc.digOk (x : Desc) : Bool :=
  (decide (x.op = 1) || decide (x.op = 2)) && (decide (x.units = 2) || decide (x.units = 4)) && decide (x.addr % 256 = 0)
def Desc.digen (x : Desc) : Bool := decide (dbits x.word 116 1 = 1)
def Desc.dig (x : Desc) (addr : Nat) : Option (Nat × Nat) := if x.digen && x.digOk then some (dbits x.word 112 4, addr) else none

/-- The cycle in which transaction `j` issues. -/
def Desc.at' (x : Desc) (j : Nat) : Nat := x.start + j * x.period

/-- Whether a descriptor still runs in cycle `c`: it has transactions to issue, or units to release or take (R248). -/
def Eng.runs (x : Eng) (c : Nat) (r : Desc) : Bool :=
  decide (r.j < r.count) || x.out.any fun t => decide (t.idx = r.idx) && decide (c ≤ t.last)

/-- Edge port of an engine's lane (Table 6-6). -/
def edgePort (e lane : Nat) : Nat := if e < 8 then (if lane = 0 then e else 16 + e)
  else (if lane = 0 then e else 16 + e)

/-- Router and direction of an edge port (Table 6-6). -/
def edgeNode (ep : Nat) : Nat × Nat :=
  if ep < 8 then (ep, 0) else if ep < 16 then ((ep - 8) * 8 + 7, 1) else if ep < 24 then (56 + (ep - 16), 2)
  else ((ep - 24) * 8, 3)

/-- Whether a read presents a unit on its lane in cycle `c`: a load delivery its header and then its data units (Table 7-6). -/
def RUnit.onLane (r : RUnit) (c : Nat) : Bool :=
  match r.sink with
  | .edge _ => decide (r.cyc = c)
  | .load _ _ => decide (r.cyc ≤ c) && decide (c ≤ r.cyc + r.lines.length / 4) && !r.gone.contains (c - r.cyc)
  | _ => false

/-- Whether two uses of an engine's lane meet (R250). -/
def State.laneUsers (s : State) (d e lane c : Nat) : List Nat :=
  ((s.reads.filter fun r => decide (r.die = d) && decide (r.eng = e) && decide (r.lane = lane) && r.onLane c).map RUnit.idx)
  ++ ((s.units.filter fun w => decide (w.die = d) && decide (w.eng = e) && decide (w.lane = lane) && decide (w.cyc = c)
      && !w.lost && w.lines.isNone).map WUnit.idx)

/-- Take a lane cycle from descriptors with a higher index: reads are discarded, writes become poisoned lines. -/
def State.laneTake (s : State) (d e lane c idx : Nat) : State :=
  { s with
    reads := s.reads.filterMap fun r =>
      if r.die = d && r.eng = e && r.lane = lane && r.onLane c && decide (idx < r.idx) then
        (match r.sink with
          | .load _ _ => some { r with gone := (c - r.cyc) :: r.gone }
          | _ => none)
      else some r,
    units := s.units.map fun w => if w.die = d && w.eng = e && w.lane = lane && w.cyc = c && w.lines.isNone
      && decide (idx < w.idx) then { w with lost := true } else w }

/-- Claim a lane cycle; answers whether this descriptor has it. -/
def State.laneClaim (s : State) (d e lane c idx : Nat) : State × Bool :=
  let us := s.laneUsers d e lane c
  if us.isEmpty then (s, true)
  else
    let s := s.engErr d e idx 4
    if us.all fun u => decide (idx < u) then (s.laneTake d e lane c idx, true) else (s, false)

/-- Put a read unit into the return buffer, unless its lane cycle is taken. -/
def State.addRead (s : State) (r : RUnit) : State :=
  match r.sink with
  | .edge _ =>
    let x := s.laneClaim r.die r.eng r.lane r.cyc r.idx
    if x.2 then { x.1 with reads := x.1.reads ++ [r] } else x.1.evtOpt r.die r.evt
  | .load _ _ =>
    let x := (List.range (r.lines.length / 4 + 1)).foldl (fun (x : State × List Nat) k =>
      let y := x.1.laneClaim r.die r.eng r.lane (r.cyc + k) r.idx
      (y.1, if y.2 then x.2 else k :: x.2)) (s, [])
    { x.1 with reads := x.1.reads ++ [{ r with gone := x.2 }] }
  | _ => { s with reads := s.reads ++ [r] }

/-- Add a unit to take from the lane's edge port. -/
def State.addTake (s : State) (w : WUnit) : State :=
  let x := s.laneClaim w.die w.eng w.lane w.cyc w.idx
  { x.1 with units := x.1.units ++ [if x.2 then w else { w with lost := true }] }

/-- The order in which requests reach controllers (R233): by cycle, then engine, then lane A before lane B; Wale flits come after the lanes of
their engine (DESIGN CHOICE, log entry 69), and neighbour requests on ports E, W and V after every engine. -/
def ctlKey (c e lane : Nat) : Nat := c * 128 + e * 4 + lane
def nbKey (c port : Nat) : Nat := c * 128 + 64 + port
def WUnit.key (w : WUnit) : Nat := ctlKey w.entry w.eng w.lane

/-- The place of a descriptor's request among those of its engine: its lane, or 2 for an operation without one. -/
def Desc.ctl (r : Desc) : Nat := if r.op = 1 || r.op = 2 || r.op = 10 then r.lane else 2

/-- An event of a flit that no endpoint took or that an endpoint missed (R203): the edge port's router. -/
def State.edgeEvent (s : State) (d src ep : Nat) : State := s.meshEvent d src (edgeNode ep).1 (edgeNode ep).2

/-- Take the units of a die that were due before cycle `c`: each takes its flit, or counts an absent one (R203) and
becomes poisoned. -/
def State.takeDue (s : State) (d c : Nat) : State :=
  s.units.foldl (fun s w =>
    if w.die = d && w.lines.isNone && decide (w.cyc < c) then
      let ep := edgePort w.eng w.lane
      let hit := s.edges.find? fun f => decide (f.die = d) && decide (f.edge = ep) && !f.ce && decide (f.cyc = w.cyc)
      let s : State := match hit with
        | some f => if w.lost then s else { s with edges := s.edges.filter (· ≠ f) }
        | none => if w.lost then s else s.edgeEvent d 2 ep
      let ls := match hit with
        | some f => if w.lost then List.replicate 4 poisonLine else f.flit.lines
        | none => List.replicate 4 poisonLine
      let s := s.digAdd d w.eng (if w.lost then none else w.dig) ls
      { s with units := s.units.map fun v => if v = w then { w with lines := some ls } else v }
    else s) s

/-- Lines of descriptor `idx` enter the flit that its engine sends on a port in a slot. Where another descriptor sends on that slot too, the one with
the lower index keeps it (R250). -/
def State.stageFlit (s : State) (d port e c idx : Nat) (ls : List FLine) : State :=
  match s.offers.find? fun o => decide (o.die = d) && decide (o.port = port) && decide (o.src = e) && decide (o.cyc = c) with
  | none => { s with offers := s.offers ++ [⟨d, port, e, c, ls, idx⟩] }
  | some o =>
    if o.idx = idx then { s with offers := s.offers.map fun v => if v = o then { o with lines := o.lines ++ ls } else v }
    else
      let s := s.engErr d e idx 4
      if idx < o.idx then { s with offers := s.offers.map fun v => if v = o then { o with lines := ls, idx := idx } else v } else s

/-- One unit reaches its sink. -/
def State.enterUnit (s : State) (w : WUnit) : State :=
  let ls := w.lines.getD (List.replicate 4 poisonLine)
  let s : State := match w.sink with
    | .hbm mc u => if s.alive (mcPage mc) then s.putHunit mc u ls else s
    | .nb port word =>
      let s : State := if s.reqs.any fun q => decide (q.die = w.die) && decide (q.port = port) && decide (q.eng = w.eng) && decide (q.cyc = w.entry)
          && decide (q.idx = w.idx) then s
        else { s with reqs := s.reqs ++ [⟨w.die, port, w.eng, w.entry, word, w.idx⟩] }
      s.stageFlit w.die port w.eng w.entry w.idx ls
    | .wale port slot => s.stageFlit w.die port w.eng slot w.idx ls
    | .none => s
  s.evtOpt w.die w.evt

/-- Insert by controller order. -/
def insertBy (w : WUnit) : List WUnit → List WUnit
  | [] => [w]
  | v :: r => if v.key ≤ w.key then v :: insertBy w r else w :: v :: r

/-- The units of a die that have entered before key `k`, in the order of R233. -/
def State.enterDue (s : State) (d k : Nat) : State :=
  let go := s.units.filter fun w => decide (w.die = d) && w.lines.isSome && decide (w.key < k)
  let sorted := go.foldl (fun acc w => insertBy w acc) []
  sorted.foldl State.enterUnit { s with units := s.units.filter fun w => !(go.contains w) }

/-- The units whose flit leaves in cycle `c` enter it before it goes (Table 7-6). -/
def State.enterFlits (s : State) (d c : Nat) : State :=
  let go := s.units.filter fun w => decide (w.die = d) && w.lines.isSome && decide (w.entry ≤ c) && (match w.sink with
    | .nb _ _ => true
    | .wale _ _ => true
    | _ => false)
  (go.foldl (fun acc w => insertBy w acc) []).foldl State.enterUnit { s with units := s.units.filter fun w => !(go.contains w) }

/-- Flits that reached an edge endpoint before cycle `c` and were not expected there are lost (R203). -/
def State.edgesLost (s : State) (d c : Nat) : State :=
  let gone := s.edges.filter fun f => decide (f.die = d) && decide (f.cyc < c)
  gone.foldl (fun s f => s.edgeEvent d 1 f.edge) { s with edges := s.edges.filter fun f => !(gone.contains f) }

/-- A program flit released to a destination that did not take it is lost (R221). The router and port of such an event
are not stated: free values. -/
def State.arrivalsLost (s : State) (d c : Nat) : State :=
  let gone := s.arrivals.filter fun a => decide (a.die = d) && decide (a.cyc < c)
    && !(s.reads.any fun r => decide (r.die = d) && (match r.nb with
        | some (p, t, _) => decide (p = a.port) && decide (t = a.cyc) && decide (r.eng = a.dest)
        | none => false))
  gone.foldl (fun s _ =>
    let x := s.draw
    let y := x.1.draw
    y.1.meshEvent d 1 (x.2 % 64) (y.2 % 5)) { s with arrivals := s.arrivals.filter fun a => !(gone.contains a) }

/-- Everything the engines of a die do by themselves before cycle `c` (takes, controller entries, losses). -/
def State.settleDie (s : State) (d c : Nat) : State :=
  (((s.takeDue d c).enterDue d (c * 128)).edgesLost d c).arrivalsLost d c

/-- An engine page that runs. -/
def State.engOk (s : State) (d e : Nat) : Bool := decide (d < 8) && decide (e < 16) && s.alive (stPg d e)

/-! Descriptors start (R247, R248). -/

/-- Operations that take a second word (R246). -/
def twoWord (op : Nat) : Bool := decide (op = 7) || decide (op = 8) || decide (op = 9) || decide (op = 10)

/-- Operations of Table 7-3. -/
def stOps : List Nat := [0, 1, 2, 3, 4, 5, 6, 7, 8, 9, 10, 15]

/-- The next descriptor of an engine: its index, word and start cycle. -/
def Eng.next (x : Eng) : Nat × BitVec 128 × Nat :=
  let i := x.pc % 8192
  let w := look (fun _ => 0#128) x.sched i
  (i, w, x.prev + dbits w 0 12)

/-- Whether the engine has a descriptor to start. -/
def Eng.going (x : Eng) : Bool := x.on && x.ended.isNone && !x.abort

/-- Start the engine's next descriptor, whose operation must be one of `ops`; `f` does what the operation adds. An
unassigned operation and a descriptor beyond eight running ones do nothing and raise ST_ILLEGAL (R247). `ue2`: the second word has an
uncorrectable error; the whole descriptor is then read as NOP (R269; DEDUCED, log entry 69). -/
def State.startDesc (s : State) (d e : Nat) (ok : Nat → Bool) (ue2 : Bool) (f : Desc → State → State) : State :=
  let x := s.eng d e
  let n := x.next
  let op := dbits n.2.1 12 4
  if s.engOk d e && x.going && ok op then
    let c := n.2.2
    let s := s.toCc c
    let two := twoWord op
    let w2 := if two then look (fun _ => 0#128) x.sched ((n.1 + 1) % 8192) else 0#128
    let r : Desc := ⟨n.1, n.2.1, w2, c, 0⟩
    let x := { x with pc := (n.1 + if two then 2 else 1) % 8192, prev := c,
                      running := x.running.filter fun q => x.runs c q }
    let s := s.setEng d e x
    if !stOps.contains op || decide (8 ≤ x.running.length) || (two && ue2) then s.engErr d e n.1 9
    else
      let s := if r.digen && !r.digOk then s.engErr d e n.1 9 else s
      f r s
  else s

/-- The descriptor runs. -/
def State.runDesc (s : State) (d e : Nat) (r : Desc) : State :=
  let x := s.eng d e
  s.setEng d e { x with running := x.running ++ [r] }

/-- ST_NOP (R247): only its WAIT counts. An entry with an uncorrectable error is read as NOP (R269), and an unassigned
operation does nothing; both raise ST_ILLEGAL, ST_SCHED_UE. -/
def execStNop (die eng : Nat) (ue : Bool) (s : State) : Host.Outcome State Fault Refusal :=
  .next (if ue then
      let x := s.eng die eng
      let n := x.next
      if s.engOk die eng && x.going then
        -- the erring entry counts as a NOP whose WAIT is lost with it
        ((s.toCc x.prev).setEng die eng { x with pc := (n.1 + 1) % 8192 }).engErr die eng n.1 9
      else s
    else s.startDesc die eng (fun op => decide (op = 0) || !stOps.contains op) false fun _ s => s)

/-- ST_RD (Table 7-6). -/
def execStRd (die eng : Nat) (s : State) : Host.Outcome State Fault Refusal :=
  .next (s.startDesc die eng (· == 1) false fun r s => s.runDesc die eng r)
/-- ST_WR. -/
def execStWr (die eng : Nat) (s : State) : Host.Outcome State Fault Refusal :=
  .next (s.startDesc die eng (· == 2) false fun r s => s.runDesc die eng r)
/-- RDW. -/
def execRdw (die eng : Nat) (s : State) : Host.Outcome State Fault Refusal :=
  .next (s.startDesc die eng (· == 3) false fun r s => s.runDesc die eng r)
/-- WRW. -/
def execWrw (die eng : Nat) (s : State) : Host.Outcome State Fault Refusal :=
  .next (s.startDesc die eng (· == 4) false fun r s => s.runDesc die eng r)
/-- MW. -/
def execMw (die eng : Nat) (s : State) : Host.Outcome State Fault Refusal :=
  .next (s.startDesc die eng (· == 5) false fun r s => s.runDesc die eng r)
/-- WM. -/
def execWm (die eng : Nat) (s : State) : Host.Outcome State Fault Refusal :=
  .next (s.startDesc die eng (· == 6) false fun r s => s.runDesc die eng r)
/-- SLOAD. -/
def execSload (die eng : Nat) (ue2 : Bool) (s : State) : Host.Outcome State Fault Refusal :=
  .next (s.startDesc die eng (· == 7) ue2 fun r s => s.runDesc die eng r)
/-- LOADT (R264). -/
def execLoadt (die eng : Nat) (ue2 : Bool) (s : State) : Host.Outcome State Fault Refusal :=
  .next (s.startDesc die eng (· == 10) ue2 fun r s => s.runDesc die eng r)
/-- ST_ENDSEG (R248): the segment's sync marker. -/
def execStEndseg (die eng : Nat) (s : State) : Host.Outcome State Fault Refusal :=
  .next (s.startDesc die eng (· == 15) false fun r s =>
    let x := s.eng die eng
    s.setEng die eng { x with ended := some r.start })

/-! Transactions issue (R247-R252). -/

/-- The poisoned zeros that stand in for data (R256). -/
def noData (n : Nat) : List FLine := List.replicate n poisonLine

/-- Unit `k` of a transaction at `addr`, inside its 512-byte block (R244). -/
def unitAddr (addr k : Nat) : Nat := addr / 512 * 512 + (addr + 128 * k) % 512

/-- Unit `k` of a Wale flit at `addr`, inside its granule (R244). -/
def flitAddr (addr k : Nat) : Nat := addr / 2 ^ 26 * 2 ^ 26 + (addr + 128 * k) % 2 ^ 26

/-- A request word (R251). -/
def reqWord (write : Bool) (eng n mc u : Nat) : Nat :=
  1 + (if write then 2 else 0) + 4 * eng + 64 * (n - 1) + 1024 * (mc % 4 * 2 ^ 30 + u % 2 ^ 30)

/-- Whether a cycle's slot is a program slot (R220). -/
def progSlot (c : Nat) : Bool := decide (c % 8 ≠ 7)

/-- Take a program flit released to this engine in a cycle. -/
def State.takeArrival (s : State) (d port dest c : Nat) : State × Option (List FLine) :=
  match s.arrivals.find? fun a => decide (a.die = d) && decide (a.port = port) && decide (a.dest = dest) && decide (a.cyc = c) with
  | some a => ({ s with arrivals := s.arrivals.filter (· ≠ a) }, some a.lines)
  | none => (s, none)

/-- The lines of local units at a flit's address, or poisoned zeros. -/
def State.localFlit (s : State) (d addr n : Nat) (ue : Bool) : Place × List FLine :=
  match s.resolve d addr false true ue with
  | .here mc _ => (.here mc (skUnit (s.stakeE d (addr / 2 ^ 26)) addr),
      (List.range n).flatMap fun k => s.hunit mc (skUnit (s.stakeE d (addr / 2 ^ 26)) (flitAddr addr k)))
  | pl => (pl, noData (4 * n))

/-- Count the units of a place against the budget. -/
def State.budgets (s : State) (pl : Place) (us : List Nat) (t : Nat) : State :=
  match pl with
  | .here mc _ => s.budget mc us t
  | _ => s

/-- RD: each unit at its placement latency (Table 7-7). -/
def State.issueRd (s : State) (d e : Nat) (r : Desc) (t addr : Nat) (go ue : Bool) (evt : Option Nat) : State :=
  let n := r.units
  let pl0 := s.resolve d addr false false ue
  let pl := if go then pl0 else .bad 3
  -- a transaction that is not issued keeps its scheduled cycles (R245)
  let lat := match pl0 with | .nbr _ _ _ => 504 | _ => 480
  let s := if go then s.placeErr d e r.idx pl else s
  let us := match pl with
    | .here _ _ => (List.range n).map fun k => skUnit (s.stakeE d (addr / 2 ^ 26)) (unitAddr addr k)
    | _ => []
  let s := s.budgets pl us t
  let s : State := match pl with
    | .nbr port mc u =>
      if progSlot t then { s with reqs := s.reqs ++ [⟨d, port, e, t, reqWord false e n mc u, r.idx⟩] }
      else s.engErr d e r.idx 5
    | _ => s
  (List.range n).foldl (fun s k =>
    let ls := match pl with | .here mc _ => s.hunit mc (us.getD k 0) | _ => noData 4
    s.addRead { die := d, eng := e, cyc := t + lat + k, idx := r.idx, lane := r.lane, sink := .edge (edgePort e r.lane),
                lines := ls, mc := (match pl with | .here mc _ => some mc | _ => none), us := [us.getD k 0],
                nb := (match pl with | .nbr port _ _ => some (port, t + 504, k) | _ => none),
                dig := r.dig (unitAddr addr k), evt := if k + 1 = n then evt else none }) s

/-- WR: each unit taken from the edge port, entering at t + U. -/
def State.issueWr (s : State) (d e : Nat) (r : Desc) (t addr : Nat) (go ue : Bool) (evt : Option Nat) : State :=
  let n := r.units
  let pl := if go then s.resolve d addr true false ue else .bad 3
  let s := if go then s.placeErr d e r.idx pl else s
  let us := match pl with
    | .here _ _ => (List.range n).map fun k => skUnit (s.stakeE d (addr / 2 ^ 26)) (unitAddr addr k)
    | _ => []
  let s := s.budgets pl us t
  let s : State := match pl with
    | .nbr _ _ _ => if progSlot (t + n) then s else s.engErr d e r.idx 5
    | _ => s
  (List.range n).foldl (fun s k =>
    let sk := match pl with
      | .here mc _ => WSink.hbm mc (us.getD k 0)
      | .nbr port mc u => if progSlot (t + n) then .nb port (reqWord true e n mc u) else .none
      | .bad _ => .none
    s.addTake ⟨d, e, t + k, t + n, r.idx, r.lane, sk, none, false, r.dig (unitAddr addr k),
      if k + 1 = n then evt else none⟩) s

/-- RDW: local data leaves as one Wale flit at t + 480. -/
def State.issueRdw (s : State) (d e : Nat) (r : Desc) (t addr : Nat) (go ue : Bool) (evt : Option Nat) : State :=
  let n := s.flitLines (wlPg d r.port) / 4
  let x := if go then s.localFlit d addr n ue else (.bad 3, noData (4 * n))
  let s := if go then s.placeErr d e r.idx x.1 else s
  let us := (List.range n).map fun k => skUnit (s.stakeE d (addr / 2 ^ 26)) (flitAddr addr k)
  let s := s.budgets x.1 us t
  s.addRead { die := d, eng := e, cyc := t + 480, idx := r.idx, lane := r.lane, sink := .wale r.port, lines := x.2,
              mc := (match x.1 with | .here mc _ => some mc | _ => none), us := us, nb := none, dig := none,
              evt := evt }

/-- WRW: the flit of this slot enters local HBM in the next cycle; an absent flit is written as poisoned lines. -/
def State.issueWrw (s : State) (d e : Nat) (r : Desc) (t addr : Nat) (go ue : Bool) (evt : Option Nat) : State :=
  let n := s.flitLines (wlPg d r.port) / 4
  let a := s.takeArrival d r.port e t
  let pl := if go then s.resolve d addr true true ue else .bad 3
  let s := if go then a.1.placeErr d e r.idx pl else a.1
  let ls := a.2.getD (noData (4 * n))
  let s := s.budgets pl ((List.range n).map fun k => skUnit (s.stakeE d (addr / 2 ^ 26)) (flitAddr addr k)) t
  { s with units := s.units ++ (List.range n).map fun k =>
      ⟨d, e, t, t + 1, r.idx, 2, (match pl with
        | .here mc _ => WSink.hbm mc (skUnit (s.stakeE d (addr / 2 ^ 26)) (flitAddr addr k))
        | _ => .none), some ((ls.drop (4 * k)).take 4), false, none, if k + 1 = n then evt else none⟩ }

/-- MW: the flit's units taken, the flit in the slot at t + 10. -/
def State.issueMw (s : State) (d e : Nat) (r : Desc) (t : Nat) (go : Bool) (evt : Option Nat) : State :=
  let n := s.flitLines (wlPg d r.port) / 4
  (List.range n).foldl (fun s k =>
    s.addTake ⟨d, e, t + k, t + k + 1, r.idx, r.lane, if go then .wale r.port (t + 10) else .none, none, false, none,
      if k + 1 = n then evt else none⟩) s

/-- A unit onto the mesh at a lane's edge port. -/
def State.toMesh (s : State) (d e lane c : Nat) (ls : List FLine) : State :=
  let ep := edgePort e lane
  { s with mesh := s.mesh ++ [⟨d, (edgeNode ep).1, (edgeNode ep).2, c, ⟨ls⟩, some false⟩] }

/-- WM: the flit of this slot goes onto the mesh in the next ten cycles. -/
def State.issueWm (s : State) (d e : Nat) (r : Desc) (t : Nat) (go : Bool) (evt : Option Nat) : State :=
  let n := s.flitLines (wlPg d r.port) / 4
  let a := s.takeArrival d r.port e t
  let ls := if go then a.2.getD (noData (4 * n)) else noData (4 * n)
  (List.range n).foldl (fun s k =>
    s.addRead { die := d, eng := e, cyc := t + 1 + k, idx := r.idx, lane := r.lane, sink := .edge (edgePort e r.lane),
                lines := (ls.drop (4 * k)).take 4, mc := none, us := [], nb := none, dig := none,
                evt := if k + 1 = n then evt else none }) a.1

/-- SLOAD: one descriptor per transaction, the first 16 bytes of the unit read (log entry 12). -/
def State.issueSload (s : State) (d e : Nat) (r : Desc) (t addr : Nat) (go ue : Bool) (evt : Option Nat) : State :=
  let x := if go then s.localFlit d addr 1 ue else (.bad 3, noData 4)
  let s := if go then s.placeErr d e r.idx x.1 else s
  let us := [skUnit (s.stakeE d (addr / 2 ^ 26)) addr]
  let s := s.budgets x.1 us t
  s.addRead { die := d, eng := e, cyc := t + 480, idx := r.idx, lane := 2, sink := .sched ((dbits r.word2 0 13 + r.j) % 8192),
              lines := x.2, mc := (match x.1 with | .here mc _ => some mc | _ => none), us := us, nb := none,
              dig := none, evt := evt }

/-- LOADT: one load delivery (R264). -/
def State.issueLoadt (s : State) (d e : Nat) (r : Desc) (t addr : Nat) (go ue : Bool) (evt : Option Nat) : State :=
  let n := r.units
  let pl := if go then s.resolve d addr false true ue else .bad 3
  let s := if go then s.placeErr d e r.idx pl else s
  let us := (List.range n).map fun k => skUnit (s.stakeE d (addr / 2 ^ 26)) (unitAddr addr k)
  let s := s.budgets pl us t
  let ls := match pl with
    | .here mc _ => us.flatMap fun u => s.hunit mc u
    | _ => noData (4 * n)
  let a := (dbits r.word2 4 22 + r.j * n * 128) % 2 ^ 22
  let hdr := dbits r.word2 0 3 + 8 * dbits r.word2 3 1 + 16 * (n - 1) + 256 * a + 2 ^ 63
  s.addRead { die := d, eng := e, cyc := t + 480, idx := r.idx, lane := r.lane, sink := .load e hdr, lines := ls,
              mc := (match pl with | .here mc _ => some mc | _ => none), us := us, nb := none, dig := none,
              evt := evt }

/-- How many transactions one counts as (R244). -/
def State.txnWeight (s : State) (d : Nat) (r : Desc) : Nat :=
  if decide (r.op = 3) || decide (r.op = 4) || decide (r.op = 5) || decide (r.op = 6) then
    (if s.bit (wlPg d r.port) R.WL_STAT_W8 then 2 else 3) else 1

/-- How long after issue a transaction is outstanding, and when its last unit passes (R245, R248, Table 7-6; a Wale flit has ten units, or five at
8 modules). -/
def State.span (s : State) (d : Nat) (r : Desc) (addr : Nat) : Nat × Nat :=
  let nb := match s.resolve d addr (decide (r.op = 2)) false false with | .nbr _ _ _ => true | _ => false
  match r.op with
  | 1 => let e := (if nb then 504 else 480) + r.units - 1; (e, e)
  | 2 => (r.units, r.units - 1)
  | 4 => (1, 0)
  | 5 => (10, s.flitLines (wlPg d r.port) / 4 - 1)
  | 6 => let n := s.flitLines (wlPg d r.port) / 4; (n, n)
  | 10 => (480 + r.units, 480 + r.units)
  | _ => (480, 480)

/-- The running descriptor whose transaction issues next. -/
def nextIssue (rs : List Desc) : Option Desc :=
  (rs.filter fun r => decide (r.j < r.count)).foldl (fun best r =>
    match best with
    | none => some r
    | some b => if r.at' r.j < b.at' b.j || (r.at' r.j = b.at' b.j && decide (r.idx < b.idx)) then some r else some b) none

/-- TRANSACTION_ISSUE (R247): at t_j the next transaction of a running descriptor issues, resolved through the Stake table;
`stk` tells an error of the entry looked up (true: uncorrectable). -/
def State.issueTxn (s : State) (d e : Nat) (stk : Option Bool) : State :=
  let x := s.eng d e
  match nextIssue x.running with
  | none => s
  | some r =>
    let t := r.at' r.j
    let addr := r.addrAt r.j
    let s := ((s.toCc t).settleDie d t).takeDue d t
    let s := s.enterDue d (ctlKey t e r.ctl)
    let x := s.eng d e
    let live := x.out.filter fun q => decide (t ≤ q.ends)
    let n := s.txnWeight d r
    let have' : Nat := live.foldl (fun a q => a + q.n) 0
    let go := decide (have' + n ≤ 256)
    let sp := s.span d r addr
    let r' := { r with j := r.j + 1 }
    let x := { x with running := x.running.map fun q => if q = r then r' else q,
                      out := live ++ [⟨r.idx, if go then n else 0, t + sp.1, t + sp.2⟩] }
    let s := s.setEng d e x
    let p := stPg d e
    let s := if go then
        let s := s.addSat p R.ST_TX_CNT n
        s.wr p R.ST_OUTST_PEAK (max (s.rd p R.ST_OUTST_PEAK) (have' + n))
      else s.engErr d e r.idx 3
    let usesStake := !(decide (r.op = 5) || decide (r.op = 6))
    let s : State := match stk with
      | some false => if usesStake then (s.inc (stPg d 0) R.ST_STAKE_CE_CNT).engErr d e r.idx 1 else s
      | _ => s
    let ue := stk == some true && usesStake
    let evt := if r.j + 1 = r.count then r.evt else none
    match r.op with
    | 1 => s.issueRd d e r t addr go ue evt
    | 2 => s.issueWr d e r t addr go ue evt
    | 3 => s.issueRdw d e r t addr go ue evt
    | 4 => s.issueWrw d e r t addr go ue evt
    | 5 => s.issueMw d e r t go evt
    | 6 => s.issueWm d e r t go evt
    | 7 => s.issueSload d e r t addr go ue evt
    | 10 => s.issueLoadt d e r t addr go ue evt
    | _ => s
def execTransactionIssue (die eng : Nat) (stk : Option Bool) (s : State) : Host.Outcome State Fault Refusal :=
  .next (if s.engOk die eng && !(s.eng die eng).abort then s.issueTxn die eng stk else s)

/-! Load deliveries (R262-R265). -/

/-- The tile at (ROW, c) takes a delivery if it is IDLE; one that is being zeroed loses it and counts it (R110); any
other tile forwards it and it leaves the south edge (R263, R265). -/
def State.loadDeliver (s : State) (d col hdr : Nat) (data : List FLine) (gone : List Nat) : State :=
  let t := bits hdr 0 3 * 8 + col % 8
  let x := s.tile d t
  let n := bits hdr 4 2 + 1
  let a := bits hdr 8 22 / 128 * 128
  if hdr.testBit 63 && (decide (s.prog d = stEmpty) || decide (s.prog d = stLoaded)) && decide (x.st = .idle)
      && s.alive (rowPg d (t / 8)) then
    if x.zeroing then s.inc (rowPg d (t / 8)) R.OS_TG_CONFLICT_CNT
    else s.onTile d t fun x =>
      let ls := ((List.range (4 * n)).zip (data.take (4 * n))).filter fun l => !gone.contains (l.1 / 4 + 1)
      if hdr.testBit 3 then ls.foldl (fun x l => x.writeBundle (a / 128 % 2048 * 4 + l.1) l.2.data) x
      else ls.foldl (fun x l => x.putLine (lineWhole ((a / 32 + l.1) % 2 ^ 17) l.2)) x
  else s
/-- LOAD_DELIVERY (R262, R263): the oldest delivery that travels south in column `col`, one router per enabled cycle, reaches row ROW with its last
flit. One whose header flit was lost is none; of a lost data flit nothing is written. -/
def execLoadDelivery (die col : Nat) (s : State) : Host.Outcome State Fault Refusal :=
  .next (match s.loads.find? fun r => decide (r.die = die) && decide (r.col = col) with
    | none => s
    | some r =>
      let s := s.toCc (r.cyc + bits r.hdr 0 3 + r.lines.length / 4)
      let s := { s with loads := s.loads.erase r }
      if r.gone.contains 0 then s else s.loadDeliver die col r.hdr r.lines r.gone)

/-! Release (R234, R249). -/

/-- The earliest read unit of an engine. -/
def State.firstRead (s : State) (d e : Nat) : Option RUnit :=
  (s.reads.filter fun r => decide (r.die = d) && decide (r.eng = e)).foldl (fun b r =>
    match b with
    | none => some r
    | some q => if r.cyc < q.cyc then some r else some q) none

/-- The slot-plan entry of a port in cycle `c` (R207, R221): source and destination codes. -/
def State.slotPlan (s : State) (d port c : Nat) : Nat × Nat :=
  let o := s.od d
  let ph := look natZero o.phases o.phase
  let len := if bits ph 12 12 = 0 then 4096 else bits ph 12 12
  let i := (bits ph 0 12 + (c - o.phaseCc) % len) % 4096
  let w := look natZero o.plans (port * 4096 + i)
  let code (v : Nat) : Nat := if v ≤ 16 then v else 31
  if o.phaseOn && progSlot c then (code (bits w 0 5), code (bits w 8 5)) else (31, 31)

/-- A released unit goes where its operation says. -/
def State.deliverUnit (s : State) (r : RUnit) (ls : List FLine) : State :=
  match r.sink with
  | .edge _ => s.toMesh r.die r.eng r.lane r.cyc ls
  | .wale port =>
    -- a neighbour's data fails where its slot does not name the engine or the port cannot carry it (R253)
    if r.nb.isSome && (decide ((s.slotPlan r.die port r.cyc).1 ≠ r.eng) || !s.portAlive (wlPg r.die port)) then s.engErr r.die r.eng r.idx 5
    else s.stageFlit r.die port r.eng r.cyc r.idx ls
  | .sched i =>
    let x := s.eng r.die r.eng
    s.setEng r.die r.eng { x with sched := put (fun _ => 0#128) x.sched i (BitVec.ofNat 128 (((ls.head?).map fun f => f.data.toNat).getD 0 % 2 ^ stTop)) }
  | .load col hdr =>
    if s.prog r.die = stEmpty || s.prog r.die = stLoaded then
      -- in load mode only lane A of ST0-ST7 sends: its edge port is the column's north edge (R262)
      if r.lane = 0 && decide (r.eng < 8) then { s with loads := s.loads ++ [⟨r.die, col, r.cyc, hdr, ls, r.gone⟩] } else s
    else
      let hd : FLine := ⟨BitVec.ofNat 256 hdr, false⟩
      let s := if r.gone.contains 0 then s else s.toMesh r.die r.eng r.lane r.cyc (hd :: List.replicate 3 ⟨0#256, false⟩)
      (List.range (ls.length / 4)).foldl (fun s k => if r.gone.contains (k + 1) then s else
        s.toMesh r.die r.eng r.lane (r.cyc + 1 + k) ((ls.drop (4 * k)).take 4)) s

/-- READ_UNIT_RELEASE (R234): the engine's next read unit is released in its cycle; of several units released at once `late` numbers those that come
late where they may (R235, R236). -/
def execReadUnitRelease (die eng : Nat) (late : List Nat) (hits : List EccHit) (s : State) : Host.Outcome State Fault Refusal :=
  .next (match s.firstRead die eng with
    | none => s
    | some r =>
      if s.engOk die eng then
        let s := s.toCc r.cyc
        let got : State × List FLine :=
          match r.mc, r.nb, r.sink with
          | some mc, _, _ => s.mcDeliver mc (r.cyc - 480) r.us r.lines hits late
          | none, some (port, t, k), .edge _ =>
            (s, match s.arrivals.find? fun a => decide (a.die = die) && decide (a.port = port) && decide (a.dest = eng)
                && decide (a.cyc = t) with
              | some a => (a.lines.drop (4 * k)).take 4 ++ noData (4 - ((a.lines.drop (4 * k)).take 4).length)
              | none => r.lines)
          | _, _, _ => (s, r.lines)
        let s := { got.1 with reads := got.1.reads.filter (· ≠ r) }
        -- a returned flit whose slot does not name the engine as destination fails at the requester (R253)
        let s : State := match r.nb, r.sink with
          | some (port, t, 0), .edge _ => if (s.slotPlan die port t).2 ≠ eng then s.engErr die eng r.idx 5 else s
          | _, _ => s
        let s : State := match r.nb with
          | some (port, t, _) =>
            if s.reads.any fun q => decide (q.die = die) && decide (q.eng = eng) && decide ((q.nb.map fun (n : Nat × Nat × Nat) => (n.1, n.2.1)) = some (port, t))
            then s else { s with arrivals := s.arrivals.filter fun a => !(decide (a.die = die) && decide (a.port = port)
                && decide (a.dest = eng) && decide (a.cyc = t)) }
          | none => s
        ((s.digAdd die eng r.dig got.2).deliverUnit r got.2).evtOpt die r.evt
      else s)

end Sys2Proof.Machine
end

