-- ==== Sys2Proof/Machine/Lending.lean ====
section
/-! DEFINITION. Memory beside the schedule: refresh and scrub (R238, R242), neighbour requests (R252), lending
(R258-R260), the host window (R261), and an engine's start, stop and state (R248, R270). -/

namespace Sys2Proof.Machine

/-- A stack of an Osier die. -/
def stackOk (die stack : Nat) : Bool := decide (die < 8) && decide (stack < 3)

/-- REFRESH_RATE_CHANGE (R238): the stack sensor reads `temp` degrees C. Above 85 the rate doubles; below 83, kept for 10 ms,
it returns to the base rate. -/
def execRefreshRateChange (die stack temp : Nat) (s : State) : Host.Outcome State Fault Refusal :=
  .next (if stackOk die stack && s.alive (mcPg die stack) then
    let mc := die * 4 + stack
    let p := mcPg die stack
    let s := s.wr p R.MC_STAT_TEMP temp
    let cool := look (fun _ => none) s.cool mc
    if s.bit p R.MC_STAT_REF2X then
      match cool with
      | some t =>
        if temp < 83 then
          let s := (s.toTick (t + 10 * msTicks)).wb p R.MC_STAT_REF2X false
          ({ s with cool := put (fun _ => none) s.cool mc none }).raise p 4
        else s.refreshSeen die stack temp
      | none => s.refreshSeen die stack temp
    else if 85 < temp then (s.wb p R.MC_STAT_REF2X true).raise p 4 else s
    else s)

/-- PATROL_SCRUB (R242): the next unit of the stack is read in the side share; corrected words are rewritten, an
uncorrectable one becomes poisoned. -/
def execPatrolScrub (die stack : Nat) (hits : List EccHit) (s : State) : Host.Outcome State Fault Refusal :=
  .next (if stackOk die stack && s.mcUp (die * 4 + stack) && s.bit (mcPg die stack) R.MC_SCRUB_EN then
    let mc := die * 4 + stack
    let u := look natZero s.scrubAt mc
    let s := s.sideBytes mc 128
    let s := hits.foldl (fun s h => s.mcEvent mc (if h.ue then 1 else 0) (u * 128 + 32 * h.word)) s
    let s := hits.foldl (fun s h => if h.ue && decide (h.word < 4) then s.putHline mc (4 * u + h.word) poisonLine else s) s
    { s with scrubAt := put natZero s.scrubAt mc ((u + 1) % 2 ^ 30) }
    else s)

/-! Neighbour requests. -/

/-- NEIGHBOUR_REQUEST (R252): the owner takes the request word that arrived first on a port. A read's data goes back in the
program slot 480 cycles later; a write's data is written at arrival. -/
def execNeighbourRequest (die port : Nat) (s : State) : Host.Outcome State Fault Refusal :=
  .next (match s.nbq.find? fun q => decide (q.die = die) && decide (q.port = port) with
    | none => s
    | some q =>
      let s := s.toCc q.cyc
      let s := { s with nbq := s.nbq.filter (· ≠ q) }
      let n := bits q.word 6 4 + 1
      let e := bits q.word 2 4
      let mc := die * 4 + bits q.word 40 2
      let u := bits q.word 10 30
      let us := (List.range n).map fun k => if n ≤ 4 then u / 4 * 4 + (u + k) % 4 else u + k
      if q.word % 2 = 0 || bits q.word 40 2 = 3 then s
      else
        let s := (s.settleDie die q.cyc).enterDue die (nbKey q.cyc port)
        let s := s.budget mc us q.cyc
        if bits q.word 1 1 = 1 then
          ((List.range n).zip us).foldl (fun s x =>
            if s.alive (mcPage mc) then s.putHunit mc x.2 ((q.lines.drop (4 * x.1)).take 4) else s) s
        else
          s.addRead { die := die, eng := e, cyc := q.cyc + 480, idx := q.idx, lane := 2, sink := .wale port,
                      lines := us.flatMap fun v => s.hunit mc v, mc := some mc, us := us,
                      nb := some (port, q.cyc + 480, 0), dig := none, evt := none })

/-! Lending. -/

/-- A side flit waits at a port (R223). -/
def State.sideQueue (s : State) (p : Nat) (f : SideFlit) : State :=
  let w := s.wle p
  s.setWle p { w with side := w.side ++ [f] }

/-- The local units of a borrowed operation's range, inside one granule. -/
def State.rangeUnits (s : State) (d addr n : Nat) : List Nat :=
  let e := s.stakeE d (addr / 2 ^ 26)
  (List.range n).map fun k => skUnit e (flitAddr addr k)

/-- A borrowed operation ends (R260): a read that failed leaves poisoned zeros, its counter counts, `src` is the fault if
any; `stk` is an error of the destination's entry. -/
def State.borrowEnd (s : State) (d e : Nat) (b : Borrow) (data : Option (List FLine)) (src : Option Nat) (stk : Option Bool) : State :=
  let x := s.eng d e
  let s := s.setEng d e { x with borrow := x.borrow.filter (· ≠ b) }
  let s : State :=
    if b.write then s
    else
      let s := s.stakeCe d stk fun s => s.engErr d e b.idx 1
      match s.resolve d b.addr2 true false (stk == some true) with
      | .here mc _ =>
        let us := s.rangeUnits d b.addr2 b.count
        let ls := data.getD (noData (4 * b.count))
        (((List.range b.count).zip us).foldl (fun s v => s.putHunit mc v.2 ((ls.drop (4 * v.1)).take 4)) s).sideBytes mc (128 * b.count)
      | pl => s.placeErr d e b.idx pl
  let s := s.evtOpt d b.evt
  match src with
  | none => s
  | some k => s.engErr d e b.idx k

/-- Whether a package is of the own pod: memory is lent and borrowed only there (R33). -/
def State.samePod (s : State) (q : Nat) : Bool := decide (q / 16 = s.pkgId / 16)

/-- The source of a BWRITE, read in the side share (R239, R256, R259): a miss raises its fault and reads poisoned zeros. -/
def State.borrowSource (s : State) (d e : Nat) (b : Borrow) (hits : List EccHit) (stk : Option Bool) : State × List FLine :=
  let s := s.stakeCe d stk fun s => s.engErr d e b.idx 1
  match s.resolve d b.addr2 false false (stk == some true) with
  | .here mc _ =>
    let us := s.rangeUnits d b.addr2 b.count
    (s.sideBytes mc (128 * b.count)).mcRead mc us (us.flatMap fun u => s.hunit mc u) hits
  | pl => (s.placeErr d e b.idx pl, noData (4 * b.count))

/-- A borrowed operation starts (R259): one Memory-class request leaves through the X port. An entry that is not LENDER, or is write-protected against
a BWRITE, stops it with its fault (R256); the seventeenth in flight, and one whose lender is of another pod (R33), complete at once as failed. `stk` and
`stk2` are errors of the entries of ADDR and ADDR2, `hits` those of what a BWRITE reads. -/
def State.borrowStart (s : State) (d e : Nat) (r : Desc) (write : Bool) (stk stk2 : Option Bool) (hits : List EccHit) : State :=
  let x := s.eng d e
  let en := s.stakeE d (r.addr / 2 ^ 26)
  let ms := max 1 (min 10000 (s.rd (stPg d e) R.ST_BORROW_TMO_MS))
  let b : Borrow := ⟨r.idx, write, skPeer en, skLgran en, r.addr, dbits r.word2 0 42 / 128 * 128, r.count,
    s.clk.tick + ms * msTicks, r.evt⟩
  let s := s.stakeCe d stk fun s => s.engErr d e r.idx 1
  if stk = some true then (s.engErr d e r.idx 2).borrowEnd d e b none none none
  else if skKind en ≠ 3 then (s.engErr d e r.idx 0).borrowEnd d e b none none none
  else if write && skWp en then (s.engErr d e r.idx 6).borrowEnd d e b none none none
  else if decide (16 ≤ x.borrow.length) || !s.samePod b.peer then s.borrowEnd d e b none (some 7) none
  else
    let s := s.setEng d e { x with borrow := x.borrow ++ [b] }
    let y := if write then s.borrowSource d e b hits stk2 else (s, [])
    y.1.sideQueue (wlPg d 3) ⟨1, 8 + d, .memReq b.peer (b.lgran * 2 ^ 26 + r.addr % 2 ^ 26) b.count write, y.2⟩

/-- BREAD (R259). -/
def execBread (die eng : Nat) (ue2 : Bool) (stk : Option Bool) (s : State) : Host.Outcome State Fault Refusal :=
  .next (s.startDesc die eng (· == 8) ue2 fun r s => s.borrowStart die eng r false stk none [])
/-- BWRITE (R259). -/
def execBwrite (die eng : Nat) (ue2 : Bool) (stk stk2 : Option Bool) (hits : List EccHit) (s : State) : Host.Outcome State Fault Refusal :=
  .next (s.startDesc die eng (· == 9) ue2 fun r s => s.borrowStart die eng r true stk stk2 hits)

/-- LENDER_REQUEST (R259, R260): package `peer` asks for `count` units at offset `off` of granule `lgran`. What is not lent to
it, is write-protected against a write, or would go to another pod (R33), is refused with LEND_DENY. `stk`: an error of the entry (R255). -/
def execLenderRequest (die peer lgran off : Nat) (write : Bool) (count : Nat) (data : List FLine) (hits : List EccHit) (stk : Option Bool)
    (s : State) : Host.Outcome State Fault Refusal :=
  .next (if die < 8 && s.alive (stPg die 0) then
    let s := s.stakeCe die stk fun s => s.zeroErr die 1
    let s := if stk = some true then s.zeroErr die 2 else s
    let e := s.stakeE die lgran
    let mc := die * 4 + skStack e
    let us := (List.range count).map fun k => skUnit e (flitAddr (lgran * 2 ^ 26 + off % 2 ^ 26 / 128 * 128) k)
    if skKind e = 1 && skStack e < 3 && skLent e && skPeer e = peer && !(write && skWp e) && s.samePod peer && decide (stk ≠ some true) then
      let s := s.sideBytes mc (128 * count)
      if write then
        let s := ((List.range count).zip us).foldl (fun s v =>
          if s.alive (mcPage mc) then s.putHunit mc v.2 ((data.drop (4 * v.1)).take 4) else s) s
        s.sideQueue (wlPg die 3) ⟨1, 8 + die, .memAns peer true, []⟩
      else
        let x := s.mcRead mc us (us.flatMap fun u => s.hunit mc u) hits
        x.1.sideQueue (wlPg die 3) ⟨1, 8 + die, .memAns peer true, x.2⟩
    else (s.raise (stPg die 0) 10).sideQueue (wlPg die 3) ⟨1, 8 + die, .memAns peer false, []⟩
    else s)

/-- BORROW_COMPLETE (R260): the `n`-th operation in flight gets its answer: the data of a read, or a refusal. `stk`: an error of the destination's
entry. -/
def execBorrowComplete (die eng n : Nat) (granted : Bool) (data : List FLine) (stk : Option Bool) (s : State) : Host.Outcome State Fault Refusal :=
  .next (match (s.eng die eng).borrow[n]? with
    | none => s
    | some b =>
      if granted && !b.write && decide (data.length ≠ 4 * b.count) then s
      else s.borrowEnd die eng b (if granted then some data else none) (if granted then none else some 7) stk)

/-- BORROW_TIMEOUT (R260): not complete within ST_BORROW_TMO. -/
def execBorrowTimeout (die eng n : Nat) (s : State) : Host.Outcome State Fault Refusal :=
  .next (match (s.eng die eng).borrow[n]? with
    | none => s
    | some b => (s.toTick b.tmo).borrowEnd die eng b none (some 8) none)

/-! The host window (R261, R468). -/

/-- Merge bytes into a line; a poisoned line stays poisoned unless the whole of it is written. -/
def lineMerge (f : FLine) (ws : List (Nat × Byte)) : FLine :=
  let old := lineBytes f
  let new := (List.range 32).map fun i =>
    match ws.find? fun w => decide (w.1 = i) with
    | some w => w.2.toNat
    | none => old.getD i 0
  lineOfBytes new (f.poi && decide (ws.length < 32))

/-- Where a host access of a byte goes (R261): a line of a stack, or a fault source of the home die's ST0. -/
def State.hostPlace (s : State) (addr : Nat) (write ue : Bool) : Nat × Nat ⊕ Nat :=
  match s.resolve (addr % 2 ^ 42 / 2 ^ 39) (addr % 2 ^ 42) write false ue with
  | .here mc u => .inl (mc, 4 * u + addr % 128 / 32)
  | .nbr _ mc u => .inl (mc, 4 * u + addr % 128 / 32)
  | .bad src => .inr src

/-- The bytes of a host access that lie in the line of its `k`-th line: address, offset in the data, length. -/
def hostPart (p len k : Nat) : Nat × Nat × Nat :=
  let line := p / 32 * 32 + 32 * k
  let a := max p line
  (a % 2 ^ 42, a - p, min (p + len) (line + 32) - a)

/-- The 32-byte lines that `len` bytes from `p` touch. -/
def hostLines (p len : Nat) : Nat := if len = 0 then 0 else (p % 32 + len + 31) / 32

/-- The bytes of one line of a host write; a poisoned one poisons the line. -/
def State.hostPut (s : State) (mc line a : Nat) (bs : List Byte) (poi : Bool) : State :=
  if s.alive (mcPage mc) then
    s.putHline mc line (if poi then poisonLine else lineMerge (s.hline mc line) (bs.zipIdx.map fun x => (a % 32 + x.2, x.1)))
  else s

/-- What a host engine moves: the address, its length, the bytes of a write and whether they are poisoned, the errors of the lines read, in order, and
whether the entry of the first granule is uncorrectable. -/
structure HostMove where
  at' : Nat
  len : Nat
  write : Bool
  data : List Byte
  poi : Bool
  hits : List EccHit
  ue : Bool
  deriving DecidableEq, Repr

/-- Line `k` of a host access in the side share; answers the bytes read and whether they are poisoned, or none where the access is refused. -/
def State.hostTouch (s : State) (m : HostMove) (k : Nat) : State × Option (List Byte × Bool) :=
  let x := hostPart m.at' m.len k
  match s.hostPlace x.1 m.write (m.ue && decide (x.1 / 2 ^ 26 = m.at' % 2 ^ 42 / 2 ^ 26)) with
  | .inr src => (s.zeroErr (x.1 / 2 ^ 39) src, none)
  | .inl (mc, line) =>
    let s := s.sideBytes mc x.2.2
    if m.write then (s.hostPut mc line x.1 ((m.data.drop x.2.1).take x.2.2) m.poi, some ([], false))
    else
      let r := s.mcRead mc [line / 4] [s.hline mc line] ((m.hits.filter fun h => decide (h.word = k)).map fun h => { h with word := 0 })
      let f := r.2.headD poisonLine
      (r.1, some (((lineBytes f).drop (x.1 % 32)).take x.2.2 |>.map (BitVec.ofNat 8), f.poi))

/-- How far a host access has come: the bytes read, those moved, whether any was poisoned, and whether it was refused. -/
structure HostDone where
  data : List Byte := []
  moved : Nat := 0
  poi : Bool := false
  refused : Bool := false
  deriving DecidableEq, Repr

/-- A host access, line by line in ascending order, until it is refused; `stk` is an error of the first granule's entry (R255, R261). -/
def State.hostRun (s : State) (m : HostMove) (stk : Option Bool) : State × HostDone :=
  let h := m.at' % 2 ^ 42 / 2 ^ 39
  let s := s.stakeCe h stk fun s => s.zeroErr h 1
  (List.range (hostLines m.at' m.len)).foldl (fun (x : State × HostDone) k =>
    if x.2.refused then x
    else match x.1.hostTouch m k with
      | (s, some b) => (s, { data := x.2.data ++ b.1, moved := x.2.moved + (hostPart m.at' m.len k).2.2, poi := x.2.poi || b.2, refused := false })
      | (s, none) => (s, { x.2 with refused := true })) (s, {})

/-- HOST_WINDOW_ACCESS (R261): a BAR2 access of `len` bytes at window offset `off` through a Hoop's endpoint; `data` is what a write carries, `hits` the
errors of the lines read, `stk` an error of the granule's entry. A refused read completes with Unsupported Request; of a refused write nothing is
written. -/
def execHostWindowAccess (hoop off len : Nat) (write : Bool) (data : List Byte) (hits : List EccHit) (stk : Option Bool) (s : State) :
    Host.Outcome State Fault Refusal :=
  .next (if hoop < 2 && s.alive (pg (0x12 + hoop) 0x10) then
    let p := (s.rd (pg (0x12 + hoop) 0x10) R.PCIE_WIN_BASE * 2 ^ 30 + off) % 2 ^ 42
    let r := s.hostRun ⟨p, len, write, data, false, hits, stk == some true⟩ stk
    if write then r.1
    else { r.1 with out := { r.1.out with cpls := r.1.out.cpls ++
      [⟨hoop, if r.2.refused then [] else r.2.data, r.2.poi && !r.2.refused, r.2.refused⟩] } }
    else s)

/-! An engine's segment, stop and state. -/

/-- An engine starts a segment at a release in cycle `c` (R248). -/
def State.engSeg (s : State) (d e seg c : Nat) : State :=
  let x := s.eng d e
  let s := s.setEng d e { x with on := true, pc := look natZero x.segs seg % 8192, prev := c, ended := none, running := [],
                                 abort := false }
  s.wr (stPg d e) R.ST_STATE_SEG seg

/-- The first cycle in which an engine has reached its sync marker (R248), if it has. -/
def State.engMark (s : State) (d e : Nat) : Option Nat :=
  let x := s.eng d e
  if !x.on then some 0
  else
    match x.ended with
    | none => none
    | some c =>
      if x.running.all fun r => decide (r.j = r.count) then some (x.out.foldl (fun a t => max a t.last) c) else none

/-- ABORTING (R270): reads in flight are discarded, writes not yet in a controller never enter, borrowed operations
run on. -/
def State.engAbort (s : State) (d e : Nat) : State :=
  let x := s.eng d e
  let s := { s with reads := s.reads.filter fun r => !(decide (r.die = d) && decide (r.eng = e)),
                    loads := s.loads.filter fun r => !(decide (r.die = d) && decide (r.col = e)),
                    units := s.units.filter fun w => !(decide (w.die = d) && decide (w.eng = e)),
                    offers := s.offers.filter fun o => !(decide (o.die = d) && decide (o.src = e)),
                    reqs := s.reqs.filter fun q => !(decide (q.die = d) && decide (q.eng = e)) }
  s.setEng d e { x with abort := true, running := [], out := [], ended := none }

/-- ENGINE_ABORT_DONE (R270): nothing is outstanding and no borrowed operation is in flight. -/
def execEngineAbortDone (die eng : Nat) (s : State) : Host.Outcome State Fault Refusal :=
  let x := s.eng die eng
  .next (if die < 8 && eng < 16 && x.abort && x.borrow.isEmpty then s.setEng die eng { x with abort := false, on := false } else s)

/-- ST_STATE.ST: 0 IDLE, 1 RUN, 2 MARKED, 3 ABORTING. -/
def State.engCode (s : State) (d e : Nat) : Nat :=
  let x := s.eng d e
  if x.abort then 3 else if !x.on then 0
  else match s.engMark d e with
    | some c => if c ≤ s.clk.cc then 2 else 1
    | none => 1

/-- ST_OUTST.NOW. -/
def State.outNow (s : State) (d e : Nat) : Nat :=
  ((s.eng d e).out.filter fun t => decide (s.clk.cc ≤ t.ends)).foldl (fun a t => a + t.n) 0

/-- The lending counts of a die (R258): LENDER entries and LOCAL entries that are lent. -/
def State.stakeCount (s : State) (d : Nat) : Nat × Nat :=
  let es := (slice s.stake (d * 65536) (d * 65536 + 65536)).map Prod.snd
  ((es.filter fun e => decide (skKind e = 3)).length, (es.filter fun e => decide (skKind e = 1) && skLent e).length)

end Sys2Proof.Machine
end

