-- ==== Sys2Proof/Machine/Collective.lean ====
section
/-! DEFINITION. The collective engine (08_collectives.md): its buffer, descriptors and items, combining and conversion,
messages between packages, and stopping. -/

namespace Sys2Proof.Machine

/-! Descriptor fields (Table 8-3). -/

def Desc.cPeriod (x : Desc) : Nat := if dbits x.word 36 8 = 0 then 256 else dbits x.word 36 8
def Desc.cAddr (x : Desc) : Nat := dbits x.word 44 25 / 128 * 128
def Desc.cEp (x : Desc) : Nat := dbits x.word 69 5
def Desc.cPort (x : Desc) : Nat := dbits x.word 74 2
def Desc.cCmb (x : Desc) : Nat := dbits x.word 76 3
def Desc.cRnd (x : Desc) : Rnd := if dbits x.word 79 1 = 1 then .rtz else .rne
def Desc.cBf (x : Desc) : Bool := decide (dbits x.word 80 1 = 1)
def Desc.cRank (x : Desc) : Nat := dbits x.word 81 8
def Desc.cEvt (x : Desc) : Option Nat := if dbits x.word 93 1 = 1 then some (dbits x.word 89 4) else none
def Desc.cAddr2 (x : Desc) : Nat := dbits x.word2 0 25
def Desc.cAddr3 (x : Desc) : Nat := dbits x.word2 32 25
def Desc.cAt (x : Desc) (j : Nat) : Nat := x.start + j * x.cPeriod

/-- Operations of Table 8-4, and those with a second word (R274). -/
def ceOps : List Nat := [0, 1, 2, 3, 4, 5, 6, 7, 8, 9, 10, 11, 15]
def ceTwo (op : Nat) : Bool := decide (5 ≤ op) && decide (op ≤ 9)

/-- A collective-engine page that runs. -/
def State.ceOk (s : State) (d : Nat) : Bool := decide (d < 8) && s.alive (cePg d)

/-! The buffer. Addresses wrap modulo 32 MiB (R275). -/

def State.bline (s : State) (d a : Nat) : FLine := look lineZero s.cbuf (d * 2 ^ 20 + a / 32 % 2 ^ 20)
def State.putBline (s : State) (d a : Nat) (f : FLine) : State :=
  { s with cbuf := put lineZero s.cbuf (d * 2 ^ 20 + a / 32 % 2 ^ 20) f }

/-- `n` lines from a byte address. -/
def State.blines (s : State) (d a n : Nat) : List FLine := (List.range n).map fun i => s.bline d (a + 32 * i)

/-- A line with the 64-bit words `ws` uncorrectable: they are read as zeros and the line is poisoned (R272). -/
def lineBad (ws : List Nat) (f : FLine) : FLine :=
  if ws.isEmpty then f
  else ⟨BitVec.ofNat 256 ((List.range 4).foldl (fun a i => if ws.contains i then a else a + bits f.data.toNat (64 * i) 64 * 2 ^ (64 * i)) 0), true⟩

/-- Lines as read, where the words `bad`, counted over them in order, are uncorrectable. -/
def readBad (bad : List Nat) (ls : List FLine) : List FLine :=
  ls.zipIdx.map fun x => lineBad ((bad.filter fun w => decide (w / 4 = x.2)).map (· % 4)) x.1

/-- The uncorrectable words among `n` lines that are read after `at'` lines of a step, counted over them. -/
def badWords (hits : List EccHit) (at' n : Nat) : List Nat :=
  (hits.filter fun h => h.ue && decide (4 * at' ≤ h.word) && decide (h.word < 4 * (at' + n))).map fun h => h.word - 4 * at'

/-- The errors met in the buffer: a corrected word is counted, either kind raises its source (R272). -/
def State.bufHits (s : State) (d : Nat) (hits : List EccHit) : State :=
  hits.foldl (fun s h => if h.ue then s.raise (cePg d) 4 else (s.inc (cePg d) R.CE_BUF_CE_CNT).raise (cePg d) 3) s

/-! Combining (Table 8-6). `u` arrives, `v` is held. -/

/-- A combination by `w`-bit lanes. -/
def lanes (w : Nat) (f : Nat → Nat → Nat) (u v : BitVec 256) : BitVec 256 :=
  BitVec.ofNat 256 ((List.range (256 / w)).foldl (fun acc i =>
    acc + f (bits u.toNat (w * i) w) (bits v.toNat (w * i) w) % 2 ^ w * 2 ^ (w * i)) 0)

/-- The bits a combine mode makes of one line. -/
def combineBits (cmb : Nat) (u v : BitVec 256) : BitVec 256 :=
  match cmb with
  | 1 => lanes 32 (fun a b => (faddW .rne (BitVec.ofNat 32 b) (BitVec.ofNat 32 a)).toNat) u v
  | 2 => lanes 16 (fun a b => bfHalf (fun x y _ => x.add y) .rne b a 0) u v
  | 3 => lanes 64 (fun a b => a + b) u v
  | 4 => lanes 8 (fun a b => max a b) u v
  | _ => u

/-- A combined line; it is poisoned if an input line is, and COPY reads only the arriving one. -/
def combineLine (cmb : Nat) (u v : FLine) : FLine := ⟨combineBits cmb u.data v.data, u.poi || (decide (cmb ≠ 0) && v.poi)⟩

/-- ADD96 of two 2,048-byte planar blocks (R186), each 64 lines. -/
def add96 (us vs : List FLine) : List FLine :=
  let ub := us.flatMap lineBytes
  let vb := vs.flatMap lineBytes
  let w (b : List Nat) (p l : Nat) : Nat := (List.range 4).foldl (fun a i => a + b.getD (512 * p + 4 * l + i) 0 * 256 ^ i) 0
  let el (b : List Nat) (l : Nat) : Nat × BitVec 96 :=
    (w b 3 l % 512, BitVec.ofNat 96 (w b 0 l + 2 ^ 32 * w b 1 l + 2 ^ 64 * w b 2 l))
  let res := (List.range 128).map fun l =>
    let r := combine96 (el vb l).1 (el vb l).2 (el ub l).1 (el ub l).2
    if r.1 = 0 || r.1 = 0x1FF then (r.1, 0#96) else r
  (List.range 64).map fun i =>
    let p := i / 16
    lineOfBytes ((List.range 32).map fun k =>
      let l := i % 16 * 8 + k / 4
      let r := res.getD l (0, 0#96)
      let v := if p = 3 then r.1 else bits r.2.toNat (32 * p) 32
      v / 256 ^ (k % 4) % 256)
      ((us.getD i poisonLine).poi || (vs.getD i poisonLine).poi)

/-! Static writes (Table 8-5). -/

/-- One static write lands. -/
def State.ceLand (s : State) (d : Nat) (w : CeWrite) : State :=
  match w.byte with
  | some (b, p) =>
    let f := lineBad w.bad (s.bline d w.addr)
    let i := w.addr % 32
    let old := bits f.data.toNat (8 * i) 8
    let v := if w.cmb = 4 then max b old else b
    s.putBline d w.addr ⟨f.data + BitVec.ofNat 256 (v * 2 ^ (8 * i)) - BitVec.ofNat 256 (old * 2 ^ (8 * i)), f.poi || p⟩
  | none =>
    ((List.range w.lines.length).zip w.lines).foldl (fun s x =>
      let a := w.addr + 32 * x.1
      s.putBline d a (combineLine w.cmb x.2 (lineBad ((w.bad.filter fun k => decide (k / 4 = x.1)).map (· % 4)) (s.bline d a)))) s

/-- Static writes visible by cycle `c` land in order. -/
def State.ceSettle (s : State) (d c : Nat) : State :=
  let x := s.ce d
  let go := x.writes.filter fun w => decide (w.cyc ≤ c)
  let s := s.setCe d { x with writes := x.writes.filter (fun w => decide (c < w.cyc)),
                              uses := x.uses.filter fun u => decide (c ≤ u.cyc + 4) }
  go.foldl (fun s w => s.ceLand d w) s

/-! Errors. -/

/-- A fault event of the engine with CE_ERR_LAST (Table 8-11). -/
def State.ceErr (s : State) (d idx src : Nat) (rank : Option Nat) : State :=
  let p := cePg d
  let s := (s.wr p R.CE_ERR_LAST_INDEX idx).wr p R.CE_ERR_LAST_SRC src
  let s : State := match rank with | some r => s.wr p R.CE_ERR_LAST_RANK r | none => s
  s.raise p src

/-! Messages (R281-R288). -/

/-- A rank-table entry: package ID and VALID (bit 8). -/
def Ce.rank (x : Ce) (r : Nat) : Nat := look natZero x.ranks r

/-- The path of a cell from Osier die `d` to a package (Table 12-8): path Weft die, sub-link, whether it is relayed. -/
def State.pathOf (s : State) (d q : Nat) : Option (Nat × Nat × Bool) :=
  let p := s.pkgId
  let k := (q % 16 + 16 - p % 16) % 16
  if !s.bit (sbPg d) R.SB_COM_CTRL_CLUSTER then (if q / 16 = p / 16 && k ≠ 0 then some (d, k, false) else none)
  else if q / 16 = p / 16 then (if k ≠ 0 then some (d % 4, k, false) else none)
  else some (d % 4 + 4, (q / 16 + 16 - p / 16) % 16, decide (k ≠ 0))

/-- The sub-link on which a payload for package `q` leaves from the X program slots of die `d` (R29, R31, R417); none where it travels in side slots,
by relay or over V (R287, R414). -/
def State.direct (s : State) (d q : Nat) : Option Nat :=
  match s.pathOf d q with
  | some (w, k, rel) => if w = d && !rel then some k else none
  | none => none

/-- Where a payload handed over is counted until it is acknowledged: its path Weft die and sub-link. -/
def State.handKey (s : State) (d q : Nat) : Nat :=
  match s.pathOf d q with
  | some (w, k, _) => w * 16 + k
  | none => 0

/-- The bytes of a region of payloads; addresses wrap modulo 32 MiB. -/
def inRegion (a base n : Nat) : Bool := decide ((a % 2 ^ 25 + 2 ^ 25 - base % 2 ^ 25) % 2 ^ 25 < n)

/-- CE_RECV_TOUCH and CE_SEND_TOUCH (R285) for a static access of a unit. -/
def State.touch (s : State) (d idx a : Nat) (write : Bool) : State :=
  let x := s.ce d
  let s := if x.recvs.any fun r => inRegion a r.addr (256 * r.count) then s.ceErr d idx 5 none else s
  if write && x.sends.any fun r => inRegion a (r.addr + 256 * r.next) (256 * (r.count - r.next)) then s.ceErr d idx 6 none else s

/-- Poison every line of a receive that no payload reached, keeping its data. -/
def State.poisonRest (s : State) (d : Nat) (r : CeRecv) : State :=
  (List.range r.count).foldl (fun s o =>
    if r.got.contains o then s
    else (List.range 8).foldl (fun s i =>
      let a := r.addr + 256 * o + 32 * i
      s.putBline d a { s.bline d a with poi := true }) s) s

/-! Descriptors start (R274, R275, R278). -/

/-- The next descriptor: index, word, start cycle. -/
def Ce.next' (x : Ce) : Nat × BitVec 128 × Nat :=
  let i := x.pc % 8192
  let w := look (fun _ => 0#128) x.sched i
  (i, w, x.prev + dbits w 0 12)

def Ce.going (x : Ce) : Bool := x.on && x.ended.isNone && !x.abort

/-- Whether a descriptor is none of those of R275: PORT is not 3, and it is within the limits of Table 8-4 and Table 8-6. -/
def Desc.cLegal (r : Desc) (x : Ce) : Bool :=
  decide (r.cPort ≠ 3) && match r.op with
  | 0 => true
  | 1 => decide (r.cCmb ≤ 4)
  | 2 => true
  | 3 => decide (r.cCmb ≤ 4)
  | 4 => true
  | 5 => decide (r.cCmb ≤ 4) || (decide (r.cCmb = 5) && decide (r.cAddr % 2048 = 0) && decide (r.cAddr2 % 2048 = 0))
  | 6 => decide (r.cCmb = 0) || decide (r.cCmb = 4)
  | 7 => decide (r.cCmb = 0) || decide (r.cCmb = 3)
  | 8 => true
  | 9 => true
  | 10 => decide (r.cCount ≤ 65536) && decide (x.sends.length < 16)
  | 11 => decide (r.cCount ≤ 65536) && decide (x.recvs.length < 16) && decide (r.cCmb ≤ 4)
  | 15 => true
  | _ => false

/-- Start the engine's next descriptor, whose operation must satisfy `ok`. `ue2`: the second entry is uncorrectable; the whole descriptor is then read
as NOP (R278; DEDUCED, log entry 70). -/
def State.ceStart (s : State) (d : Nat) (ok : Nat → Bool) (ue2 : Bool) (f : Desc → State → State) : State :=
  let x := s.ce d
  let n := x.next'
  let op := dbits n.2.1 12 4
  if s.ceOk d && x.going && ok op then
    let c := n.2.2
    let s := (s.toCc c).ceSettle d c
    let x := s.ce d
    let w2 := if ceTwo op then look (fun _ => 0#128) x.sched ((n.1 + 1) % 8192) else 0#128
    let r : Desc := ⟨n.1, n.2.1, w2, c, 0⟩
    let x := { x with pc := (n.1 + if ceTwo op then 2 else 1) % 8192, prev := c,
                      running := x.running.filter fun q => decide (q.j < q.cCount) }
    let s := s.setCe d x
    if ceTwo op && ue2 then s.ceErr d n.1 1 none
    else if !r.cLegal x || decide (8 ≤ x.running.length) then s.ceErr d n.1 0 none
    else f r s
  else s

/-- The descriptor runs, item by item. -/
def State.ceRun (s : State) (d : Nat) (r : Desc) : State :=
  let x := s.ce d
  s.setCe d { x with running := x.running ++ [r] }

/-- CE_NOP (R275): only WAIT counts; an uncorrectable entry is read as NOP (R278), an unassigned operation is illegal. -/
def execCeNop (die : Nat) (ue : Bool) (s : State) : Host.Outcome State Fault Refusal :=
  .next (if ue then
      let x := s.ce die
      if s.ceOk die && x.going then
        ((s.toCc x.prev).setCe die { x with pc := (x.pc + 1) % 8192 }).ceErr die (x.pc % 8192) 1 none
      else s
    else s.ceStart die (fun op => decide (op = 0) || !ceOps.contains op) false fun _ s => s)

/-- EDIN (R276). -/
def execEdin (die : Nat) (s : State) : Host.Outcome State Fault Refusal :=
  .next (s.ceStart die (· == 1) false fun r s => s.ceRun die r)
/-- EDOUT (R276). -/
def execEdout (die : Nat) (s : State) : Host.Outcome State Fault Refusal :=
  .next (s.ceStart die (· == 2) false fun r s => s.ceRun die r)
/-- WIN (R276). -/
def execWin (die : Nat) (s : State) : Host.Outcome State Fault Refusal :=
  .next (s.ceStart die (· == 3) false fun r s => s.ceRun die r)
/-- WOUT (R276). -/
def execWout (die : Nat) (s : State) : Host.Outcome State Fault Refusal :=
  .next (s.ceStart die (· == 4) false fun r s => s.ceRun die r)
/-- LCOMB (R279). -/
def execLcomb (die : Nat) (ue2 : Bool) (s : State) : Host.Outcome State Fault Refusal :=
  .next (s.ceStart die (· == 5) ue2 fun r s => s.ceRun die r)
/-- GRID (R280). -/
def execCeGrid (die : Nat) (ue2 : Bool) (s : State) : Host.Outcome State Fault Refusal :=
  .next (s.ceStart die (· == 6) ue2 fun r s => s.ceRun die r)
/-- PACK (R280). -/
def execCePack (die : Nat) (ue2 : Bool) (s : State) : Host.Outcome State Fault Refusal :=
  .next (s.ceStart die (· == 7) ue2 fun r s => s.ceRun die r)
/-- ROUND (R280). -/
def execRoundGrid (die : Nat) (ue2 : Bool) (s : State) : Host.Outcome State Fault Refusal :=
  .next (s.ceStart die (· == 8) ue2 fun r s => s.ceRun die r)
/-- RND96 (R280). -/
def execRnd96 (die : Nat) (ue2 : Bool) (s : State) : Host.Outcome State Fault Refusal :=
  .next (s.ceStart die (· == 9) ue2 fun r s => s.ceRun die r)

/-- SEND (R281): opens a send to the rank's carrier; an invalid or own rank completes at once (R286). -/
def execCeSend (die : Nat) (s : State) : Host.Outcome State Fault Refusal :=
  .next (s.ceStart die (· == 10) false fun r s =>
    let x := s.ce die
    let e := x.rank r.cRank
    if e / 256 % 2 = 0 || e % 256 = s.pkgId then (s.ceErr die r.idx 8 (some r.cRank)).evtOpt die r.cEvt
    else s.setCe die { x with serial := x.serial + 1,
                              sends := x.sends ++ [⟨r.idx, r.cRank, e % 256, r.cAddr, r.cCount, 0, r.cEvt, x.serial + 1⟩] })

/-- RECV (R282): opens a receive from the rank's carrier. -/
def execCeRecv (die : Nat) (s : State) : Host.Outcome State Fault Refusal :=
  .next (s.ceStart die (· == 11) false fun r s =>
    let x := s.ce die
    let e := x.rank r.cRank
    let v : CeRecv := ⟨r.idx, r.cRank, e % 256, r.cAddr, r.cCount, r.cCmb, [], r.cEvt, look natZero x.posted (e % 256)⟩
    if e / 256 % 2 = 0 || e % 256 = s.pkgId then
      ((s.ceErr die r.idx 8 (some r.cRank)).poisonRest die v).evtOpt die r.cEvt
    else s.setCe die { x with posted := put natZero x.posted (e % 256) (v.nth + 1), recvs := x.recvs ++ [v] })

/-- CE_ENDSEG (R278). -/
def execCeEndseg (die : Nat) (s : State) : Host.Outcome State Fault Refusal :=
  .next (s.ceStart die (· == 15) false fun r s =>
    let x := s.ce die
    s.setCe die { x with ended := some r.start })

/-! Items (R276, R277). -/

/-- The port, unit reads and unit writes of an item in its cycle, and the delay of its port's use. -/
def State.ceCost (s : State) (d : Nat) (r : Desc) : Option Nat × Nat × Nat × Nat :=
  let n := s.flitLines (wlPg d r.cPort) / 4
  match r.op with
  | 1 => (some r.cEp, 0, 1, 0)
  | 2 => (some r.cEp, 1, 0, 2)
  | 3 => (some (32 + r.cPort), 0, n, 0)
  | 4 => (some (35 + r.cPort), n, 0, 2)
  | 5 => if r.cCmb = 5 then (none, 32, 16, 0) else (none, 2, 1, 0)
  | 6 => (none, 4, 1, 0)
  | 7 => (none, 5, 8, 0)
  | 8 => (none, 9, if r.cBf then 2 else 4, 0)
  | _ => (none, 16, 4, 0)

/-- Whether an item loses to descriptors with a lower index, and the higher ones it displaces. -/
def ceClash (us : List CeUse) (c : Nat) (cost : Option Nat × Nat × Nat × Nat) (idx : Nat) : Bool × List CeUse :=
  let port := us.filter fun u => cost.1.isSome && decide (u.port = cost.1) && decide (u.cyc = c + cost.2.2.2)
  let same := us.filter fun u => decide (u.cyc = c) && decide (u.idx < idx)
  let rd : Nat := same.foldl (fun a u => a + u.rd) 0
  let wr : Nat := same.foldl (fun a u => a + u.wr) 0
  (port.any (fun u => decide (u.idx < idx)) || decide (32 < rd + cost.2.1) || decide (32 < wr + cost.2.2.1),
   port.filter fun u => decide (idx < u.idx))

/-- A write of lines by an item, or of poisoned lines where the item lost. -/
def State.ceWrite (s : State) (d c addr cmb : Nat) (ls : List FLine) (lost : Bool) (bad : List Nat) : State :=
  let x := s.ce d
  s.setCe d { x with writes := x.writes ++
    [⟨c, addr % 2 ^ 25, if lost then 0 else cmb, if lost then ls.map fun _ => poisonLine else ls, none, if lost then [] else bad⟩] }

def State.ceByte (s : State) (d c addr cmb v : Nat) (p : Bool) (bad : List Nat) : State :=
  let x := s.ce d
  s.setCe d { x with writes := x.writes ++ [⟨c, addr % 2 ^ 25, cmb, [], some (v, p), bad⟩] }

/-- The elements of a block of lines, `w` bits each. -/
def elems (w : Nat) (ls : List FLine) : List Nat :=
  ls.flatMap fun f => (List.range (256 / w)).map fun i => bits f.data.toNat (w * i) w

/-- Lines from elements of `w` bits, poisoned where `p` says so of the elements in them. -/
def linesOf (w : Nat) (vs : List (Nat × Bool)) : List FLine :=
  let per := 256 / w
  (List.range (vs.length / per)).map fun i =>
    let es := (vs.drop (i * per)).take per
    ⟨BitVec.ofNat 256 (((List.range per).zip es).foldl (fun a x => a + x.2.1 % 2 ^ w * 2 ^ (w * x.1)) 0), es.any Prod.snd⟩

/-- GRID of one block (R187, R280). -/
def ceGridByte (ls : List FLine) : Nat × Bool :=
  (gridByte ((elems 32 ls).map fun w => some (f32 (BitVec.ofNat 32 w))), ls.any FLine.poi)

/-- PACK of one block under grid byte `g` (R188, R280): the INT64 elements with the lines they poison, and whether some
partial lies outside its grid. -/
def cePackBlock (g : Nat) (gp : Bool) (ls : List FLine) : List FLine × Bool :=
  let es := ls.flatMap fun f => (List.range 8).map fun i => (bits f.data.toNat (32 * i) 32, f.poi)
  let one (e : Nat × Bool) : (Nat × Bool) × Bool :=
    let v := f32 (BitVec.ofNat 32 e.1)
    let out := decide (g ≠ 255) && (match v with
      | .fin _ m x => decide (m ≠ 0) && decide ((g : Int) - 127 ≤ expOf m x)
      | _ => true)
    if out then ((0, true), true)
    else if g = 0 || g = 255 then ((0, e.2 || gp), false)
    else (((packGrid g v).toNat, e.2 || gp), false)
  let rs := es.map one
  (linesOf 64 (rs.map Prod.fst), rs.any Prod.snd)

/-- ROUND of one block (R188, R280). -/
def ceRoundBlock (g : Nat) (gp bf : Bool) (md : Rnd) (ls : List FLine) : List FLine :=
  let es := ls.flatMap fun f => (List.range 4).map fun i => (bits f.data.toNat (64 * i) 64, f.poi)
  let rs := es.map fun e =>
    let v := unpackGrid g (BitVec.ofNat 64 e.1)
    (if bf then bf16.encodeIeee md v else fp32.encodeIeee md v, e.2 || gp)
  linesOf (if bf then 16 else 32) rs

/-- RND96 of one block (R185, R280). -/
def ceRnd96Block (md : Rnd) (ls : List FLine) : List FLine :=
  let ws := elems 32 ls
  let ps := ls.map FLine.poi
  linesOf 32 ((List.range 128).map fun l =>
    let w (p : Nat) : Nat := ws.getD (128 * p + l) 0
    let e : AccE := ⟨BitVec.ofNat 96 (w 0 + 2 ^ 32 * w 1 + 2 ^ 64 * w 2), w 3 % 512, false⟩
    ((accRound md e).toNat, (List.range 4).any fun p => ps.getD (16 * p + l / 8) true))

/-- One item in its cycle `t`. `hits` number the 64-bit words it reads: of its first operand, then of its second (for a grid byte those of the byte's
line), then of the lines it is combined with. -/
def State.ceItem (s : State) (d : Nat) (r : Desc) (t j : Nat) (hits : List EccHit) (lost : Bool) : State :=
  let n := s.flitLines (wlPg d r.cPort) / 4
  let bad := badWords hits
  let rdL (a k : Nat) : List FLine := readBad (bad 0 k) (s.blines d a k)
  let gb (a k : Nat) : Nat × Bool := let f := lineBad (bad k 1) (s.bline d a); (bits f.data.toNat (8 * (a % 32)) 8, f.poi)
  let touches (s : State) (as : List Nat) (w : Bool) : State := as.foldl (fun s a => s.touch d r.idx a w) s
  match r.op with
  | 1 =>
    let a := r.cAddr + 128 * j
    let hit := s.edges.find? fun f => decide (f.die = d) && decide (f.edge = r.cEp) && f.ce && decide (f.cyc = t)
    let s : State := match hit with
      | some f => if lost then s else { s with edges := s.edges.filter (· ≠ f) }
      | none => if lost then s else s.edgeEvent d 2 r.cEp
    (touches s [a] true).ceWrite d (t + 3) a r.cCmb ((hit.map fun f => f.flit.lines).getD (noData 4)) lost (bad 0 4)
  | 2 =>
    let a := r.cAddr + 128 * j
    let s := touches s [a] false
    if lost then s
    else { s with mesh := s.mesh ++ [⟨d, (edgeNode r.cEp).1, (edgeNode r.cEp).2, t + 2, ⟨rdL a 4⟩, some true⟩] }
  | 3 =>
    let a := r.cAddr + j * n * 128
    if (s.slotPlan d r.cPort t).2 ≠ 16 then s
    else
      let x := s.takeArrival d r.cPort 16 t
      (touches x.1 ((List.range n).map fun k => a + 128 * k) true).ceWrite d (t + 3) a r.cCmb (x.2.getD (noData (4 * n))) lost (bad 0 (4 * n))
  | 4 =>
    let a := r.cAddr + j * n * 128
    let s := touches s ((List.range n).map fun k => a + 128 * k) false
    if lost then s
    else if (s.slotPlan d r.cPort (t + 2)).1 ≠ 16 then s.ceErr d r.idx 2 none
    else { s with offers := s.offers ++ [⟨d, r.cPort, 16, t + 2, rdL a (4 * n), r.idx⟩] }
  | 5 =>
    if r.cCmb = 5 then
      let a := r.cAddr + 2048 * j
      let b := r.cAddr2 + 2048 * j
      let s := touches (touches s ((List.range 16).map fun k => b + 128 * k) false) ((List.range 16).map fun k => a + 128 * k) true
      s.ceWrite d (t + 3) a 0 (add96 (readBad (bad 64 64) (s.blines d b 64)) (rdL a 64)) lost []
    else
      let a := r.cAddr + 128 * j
      let b := r.cAddr2 / 128 * 128 + 128 * j
      let s := touches (touches s [b] false) [a] true
      s.ceWrite d (t + 3) a 0 (((readBad (bad 4 4) (s.blines d b 4)).zip (rdL a 4)).map fun x => combineLine r.cCmb x.1 x.2) lost []
  | 6 =>
    let a := r.cAddr + 512 * j
    let s := touches (touches s ((List.range 4).map fun k => a + 128 * k) false) [r.cAddr3 + j] true
    let g := ceGridByte (rdL a 16)
    s.ceByte d (t + 7) (r.cAddr3 + j) (if lost then 0 else r.cCmb) (if lost then 0 else g.1) (lost || g.2) (bad 16 1)
  | 7 =>
    let a := r.cAddr + 512 * j
    let o := r.cAddr3 / 128 * 128 + 1024 * j
    let s := touches (touches s (((List.range 4).map fun k => a + 128 * k) ++ [r.cAddr2 + j]) false)
      ((List.range 8).map fun k => o + 128 * k) true
    let g := gb (r.cAddr2 + j) 16
    let x := cePackBlock g.1 g.2 (rdL a 16)
    let s := if x.2 && !lost then s.ceErr d r.idx 9 none else s
    s.ceWrite d (t + 7) o r.cCmb x.1 lost (bad 17 32)
  | 8 =>
    let a := r.cAddr + 1024 * j
    let o := r.cAddr3 / 128 * 128 + (if r.cBf then 256 else 512) * j
    let s := touches (touches s (((List.range 8).map fun k => a + 128 * k) ++ [r.cAddr2 + j]) false)
      ((List.range (if r.cBf then 2 else 4)).map fun k => o + 128 * k) true
    let g := gb (r.cAddr2 + j) 32
    s.ceWrite d (t + 7) o 0 (ceRoundBlock g.1 g.2 r.cBf r.cRnd (rdL a 32)) lost []
  | 9 =>
    let a := r.cAddr + 2048 * j
    let o := r.cAddr3 / 128 * 128 + 512 * j
    let s := touches (touches s ((List.range 16).map fun k => a + 128 * k) false) ((List.range 4).map fun k => o + 128 * k) true
    s.ceWrite d (t + 7) o 0 (ceRnd96Block r.cRnd (rdL a 64)) lost []
  | _ => s

/-- The next item over the running descriptors. -/
def nextItem (rs : List Desc) : Option Desc :=
  (rs.filter fun r => decide (r.j < r.cCount)).foldl (fun best r =>
    match best with
    | none => some r
    | some b => if r.cAt r.j < b.cAt b.j || (r.cAt r.j = b.cAt b.j && decide (r.idx < b.idx)) then some r else some b) none

/-- CE_ITEM (R276, R277): the next item, in its cycle; `hits` are memory errors of what it reads. -/
def State.ceNext (s : State) (d : Nat) (hits : List EccHit) : State :=
  match nextItem (s.ce d).running with
  | none => s
  | some r =>
    let t := r.cAt r.j
    let s := ((s.toCc t).settleDie d t).ceSettle d t
    let x := s.ce d
    let cost := s.ceCost d r
    let cl := ceClash x.uses t cost r.idx
    let r' := { r with j := r.j + 1 }
    let s := s.setCe d { x with running := x.running.map (fun q => if q = r then r' else q), lastDone := max x.lastDone t,
                                uses := (x.uses.filter fun u => !(cl.2.contains u)) ++
                                  (if cl.1 then [] else [⟨t + cost.2.2.2, cost.1, 0, 0, r.idx⟩, ⟨t, none, cost.2.1, cost.2.2.1, r.idx⟩]) }
    let s := if cl.1 || !cl.2.isEmpty then s.ceErr d r.idx 2 none else s
    -- a higher descriptor's unit on the same port gives way
    let s : State := if cl.2.isEmpty || cl.1 then s else match cost.1 with
      | some p => if p < 32 then
            { s with mesh := s.mesh.filter fun f => !(decide (f.die = d) && decide (f.node = (edgeNode p).1)
                && decide (f.port = (edgeNode p).2) && decide (f.cyc = t + cost.2.2.2)) }
          else { s with offers := s.offers.filter fun o => !(decide (o.die = d) && decide (o.port + 35 = p)
                && decide (o.src = 16) && decide (o.cyc = t + cost.2.2.2)) }
      | none => s
    let s := s.bufHits d hits
    s.ceItem d r t r.j hits cl.1
def execCeItem (die : Nat) (hits : List EccHit) (s : State) : Host.Outcome State Fault Refusal :=
  .next (if s.ceOk die && !(s.ce die).abort then s.ceNext die hits else s)

/-! Seber slots of the X port (R284). -/

/-- Payloads a flit carries at the port's width. -/
def State.flitPayloads (s : State) (d : Nat) : Nat := if s.bit (wlPg d 3) R.WL_STAT_W8 then 2 else 5

/-- A send that a transmit slot may serve: none to the same package started before it, and its sub-link, which program slots reach, has room. -/
def State.sendable (s : State) (d : Nat) (x : Ce) (v : CeSend) : Bool :=
  !(x.sends.any fun u => decide (u.pkg = v.pkg) && decide (u.serial < v.serial)) &&
    match s.direct d v.pkg with
    | some k => (s.wle (wlPg d 3)).room.testBit (k - 1)
    | none => false

/-- A send whose payloads travel in side slots (R287, R417), with room reported where its path is the die's own Weft die. -/
def State.sideSend (s : State) (d : Nat) (x : Ce) (v : CeSend) : Bool :=
  !(x.sends.any fun u => decide (u.pkg = v.pkg) && decide (u.serial < v.serial)) &&
    match s.pathOf d v.pkg with
    | some (w, k, rel) => (decide (w ≠ d) || rel) && (decide (w ≠ d) || (s.wle (wlPg d 3)).room.testBit (k - 1))
    | none => false

/-- The next send in round-robin order after the one last served. -/
def rrNext (served : Nat) (vs : List CeSend) : Option CeSend :=
  match vs.find? fun v => decide (served < v.serial) with
  | some v => some v
  | none => vs.head?

/-- Draw one payload of the sends that `ok` admits; `bad` are the uncorrectable words of its 256 bytes. -/
def State.drawPayload (s : State) (d : Nat) (ok : Ce → CeSend → Bool) (bad : List Nat) : State × Option PTag :=
  let x := s.ce d
  match rrNext x.served (x.sends.filter (ok x)) with
  | none => (s, none)
  | some v =>
    let ls := readBad bad (s.blines d (v.addr + 256 * v.next) 8)
    let v' := { v with next := v.next + 1 }
    let fin := decide (v.next + 1 = v.count)
    let k := s.handKey d v.pkg
    let s := s.setCe d { x with served := v.serial, unacked := put natZero x.unacked k (look natZero x.unacked k + 1),
                                sends := if fin then x.sends.filter (· ≠ v) else x.sends.map fun u => if u = v then v' else u }
    let s := s.addWrap (cePg d) R.CE_TX_BYTES 256
    let s := if fin then s.evtOpt d v.evt else s
    (s, some ⟨v.pkg, v.next, fin, ls.any FLine.poi, ls⟩)

/-- Up to `n` payloads of a transmit slot; `hits` are the errors of what they read, 32 words each. -/
def State.drawPayloads (s : State) (d : Nat) (hits : List EccHit) : Nat → Nat → State × List PTag
  | 0, _ => (s, [])
  | n + 1, k =>
    match s.drawPayload d (s.sendable d) (badWords hits (8 * k) 8) with
    | (s, none) => (s, [])
    | (s, some p) => let r := s.drawPayloads d hits n (k + 1); (r.1, p :: r.2)

/-- Put a flit onto a port's wires, toward its other end. A flit toward a Weft die carries a CREDIT that is owed (R338); a cycle's slot is the one of
its cycle (R336), and between Osier dies it carries the low bits of CC. -/
def State.toWire (s : State) (p : Nat) (f : WireFlit) : State :=
  match walePeer p with
  | none => s
  | some q =>
    let v := s.wle p
    let pay := decide (f.kind ≠ .train) && isWeft (dieOf q) && decide (0 < v.owed)
    let s := s.setWle p { v with owed := if pay then v.owed - 1 else v.owed, sent := if f.cyc then some f.cc else v.sent }
    let w := s.wle q
    let f := { f with credit := pay, ccl := if f.cyc && !isWeft (dieOf p) && !isWeft (dieOf q) then f.cc % 16 else 0 }
    s.setWle q { w with wire := w.wire ++ [f] }

/-- Whether the slot of the present enabled cycle is still to be sent at a port end (R336). -/
def State.slotFree (s : State) (p : Nat) : Bool := decide ((s.wle p).sent ≠ some s.clk.cc)

/-- SEBER_TRANSMIT_SLOT (R284): the X program slot of the present cycle, whose source is code 16. `hits` are memory errors of the payloads' words, 32
for each payload. -/
def execSeberTransmitSlot (die : Nat) (hits : List EccHit) (s : State) : Host.Outcome State Fault Refusal :=
  .next (let p := wlPg die 3
    if s.ceOk die && s.portAlive p && s.slotFree p && decide ((s.slotPlan die 3 s.clk.cc).1 = 16) then
      let s := (s.toCc s.clk.cc).ceSettle die s.clk.cc
      let x := if (s.ce die).abort then (s, []) else (s.bufHits die hits).drawPayloads die hits (s.flitPayloads die) 0
      x.1.toWire p { kind := if x.2.isEmpty then .null else .prog, cyc := true, cc := s.clk.cc, tags := x.2 }
    else s)

/-- The receive a payload is matched to (R283): the message now arriving from its package. -/
def Ce.matched (x : Ce) (q : Nat) : Option CeRecv :=
  x.recvs.find? fun r => decide (r.pkg = q) && decide (r.nth = look natZero x.messages q)

/-- One payload lands (R282); `bad` are the uncorrectable words of the 256 bytes it is combined with. -/
def State.landPayload (s : State) (d : Nat) (p : PTag) (bad : List Nat) : State :=
  let x := s.ce d
  let drop (s : State) : State := s.inc (cePg d) R.CE_RX_DROP
  let s := if p.last then s.setCe d { x with messages := put natZero x.messages p.pkg (look natZero x.messages p.pkg + 1) } else s
  match x.matched p.pkg with
  | none => drop s
  | some r =>
    if r.count ≤ p.offset then (drop s).ceErr d r.idx 7 (some r.rank)
    else
      let ls := if p.poi then p.lines.map fun f => { f with poi := true } else p.lines
      let s := ((List.range 8).zip ls).foldl (fun s l =>
        let a := r.addr + 256 * p.offset + 32 * l.1
        s.putBline d a (combineLine r.cmb l.2 (lineBad ((bad.filter fun w => decide (w / 4 = l.1)).map (· % 4)) (s.bline d a)))) s
      let s := s.addWrap (cePg d) R.CE_RX_BYTES 256
      let r' := { r with got := if r.got.contains p.offset then r.got else r.got ++ [p.offset] }
      let x := s.ce d
      if p.last then
        let s := s.setCe d { x with recvs := x.recvs.filter (· ≠ r) }
        let s := if r'.got.length < r.count then (s.poisonRest d r').ceErr d r.idx 7 (some r.rank) else s
        s.evtOpt d r.evt
      else s.setCe d { x with recvs := x.recvs.map fun u => if u = r then r' else u }

/-- While the engine is ABORTING, or its die not RUNNING, every payload delivered is discarded (R296). -/
def State.ceDrops (s : State) (d : Nat) : Bool := (s.ce d).abort || decide (s.prog d ≠ stRunning)

/-- Payloads reach the engine: they land in order, or are discarded and counted (R282, R296). -/
def State.ceTake (s : State) (d : Nat) (hits : List EccHit) (ts : List PTag) : State :=
  if s.ceDrops d then s.addSat (cePg d) R.CE_RX_DROP ts.length
  else ts.zipIdx.foldl (fun s t => s.landPayload d t.1 (badWords hits (8 * t.2) 8)) (s.bufHits d hits)

/-- SEBER_DELIVERY_SLOT (R284, R338): the X delivery slot of the present cycle takes the oldest buffered flit. An empty buffer gives a NULL flit, which
changes nothing and is no SCHED_EMPTY; while the die runs and the port is down the slot takes a flit of poisoned zeros, which names no payload (R350).
`hits` are memory errors of the words combined with, 32 for each payload. -/
def execSeberDeliverySlot (die : Nat) (hits : List EccHit) (s : State) : Host.Outcome State Fault Refusal :=
  .next (let p := wlPg die 3
    if s.ceOk die && decide ((s.wle p).drawn ≠ some s.clk.cc) && decide ((s.slotPlan die 3 s.clk.cc).2 = 16) then
      let s := (s.toCc s.clk.cc).ceSettle die (s.clk.cc - 1)
      let w := { s.wle p with drawn := some s.clk.cc }
      if decide (s.prog die = stRunning) && !s.portAlive p then s.setWle p w
      else match w.xbuf with
        | [] => s.setWle p w
        | f :: r => (s.setWle p { w with xbuf := r, owed := w.owed + 1 }).ceTake die hits f
    else s)

/-- SB_STAT.STATE of a FAILED sub-link (Table 12-4). -/
def sbFailed : Nat := 5

/-! Segments and stopping. -/

/-- The engine starts a segment at a release in cycle `c`; matching starts afresh with a program (R278, R296). -/
def State.ceSeg (s : State) (d seg c : Nat) (first : Bool) : State :=
  let x := s.ce d
  let s := s.setCe d { x with on := true, pc := look natZero x.segs seg % 8192, prev := c, ended := none, running := [], abort := false,
                              posted := if first then [] else x.posted, messages := if first then [] else x.messages }
  s.wr (cePg d) R.CE_STATE_SEG seg

/-- ABORTING (R296): no further item, every receive and send cancelled; the payloads that wait in the delivery buffer are discarded and counted. -/
def State.ceAbort (s : State) (d : Nat) : State :=
  let x := s.ce d
  let s := { s with offers := s.offers.filter fun o => !(decide (o.die = d) && decide (o.src = 16)) }
  let w := s.wle (wlPg d 3)
  let s := (s.setWle (wlPg d 3) { w with xbuf := [], owed := w.owed + w.xbuf.length }).addSat (cePg d) R.CE_RX_DROP w.xbuf.flatten.length
  s.setCe d { x with abort := true, running := [], ended := none, sends := [], recvs := [], uses := [] }

/-- CE_ABORT_DONE (R296): every handed payload is acknowledged, or its sub-link is FAILED. -/
def execCeAbortDone (die : Nat) (s : State) : Host.Outcome State Fault Refusal :=
  let x := s.ce die
  .next (if die < 8 && x.abort && x.unacked.all fun e => decide (s.rd (subPg (e.1 / 16) (e.1 % 16)) R.SB_STAT_STATE = sbFailed)
    then s.setCe die { x with abort := false, on := false, unacked := [] } else s)


end Sys2Proof.Machine
end

