-- ==== Sys2Proof/Machine/Sched.lean ====
section
/-! DEFINITION. The static schedule of a die (06_static_schedule.md): the Rand mesh, readiness, arrival, notices, release,
program end and stop; and the border arrivals, audit latch and breakpoints that happen within them (R308-R322). -/

namespace Sys2Proof.Machine

/-! The Rand mesh (R199-R206). -/

/-- The node beyond an output of a router, with the input the flit is then at; none off the mesh. Directions 0 N, 1 E, 2 S, 3 W. -/
def meshNext (node o : Nat) : Option (Nat × Nat) :=
  match o with
  | 0 => if 8 ≤ node then some (node - 8, 2) else none
  | 1 => if node % 8 < 7 then some (node + 1, 3) else none
  | 2 => if node < 56 then some (node + 8, 0) else none
  | 3 => if 0 < node % 8 then some (node - 1, 1) else none
  | _ => none

/-- The edge port off the mesh in a direction (Table 6-6). -/
def edgeOf (node o : Nat) : Nat :=
  match o with
  | 0 => node % 8
  | 1 => 8 + node / 8
  | 2 => 16 + node % 8
  | _ => 24 + node / 8

/-- The outputs an input selects in an entry; its own direction is ignored (R201). -/
def routeOuts (entry i : Nat) : List Nat :=
  (List.range 5).filter fun o => bits entry (5 * i + o) 1 = 1 && (decide (o ≠ i) || decide (i = 4))

/-- The route entry of a router in cycle `w` (R207). -/
def State.routeEntry (s : State) (d node w : Nat) : Nat :=
  let o := s.od d
  let ph := look natZero o.phases o.phase
  let len := if bits ph 12 12 = 0 then 4096 else bits ph 12 12
  look natZero o.routes (node * 4096 + (bits ph 0 12 + (w - o.phaseCc) % len) % 4096)

/-- A flit leaves an output: to the tile, the neighbour or the edge endpoint the entry selects (R200, R206). A tile that is
not in RUN issues no receive, so the flit is lost (R203). -/
def State.meshOut (s : State) (d node o w entry : Nat) (f : Flit) : State :=
  if o = 4 then
    let t := s.tile d node
    if t.st = .run then s.setTile d node { t with flitIn := t.flitIn ++ [(w + 1, f)] } else s.meshEvent d 1 node 4
  else match meshNext node o with
    | some (n, i) => { s with mesh := s.mesh ++ [⟨d, n, i, w + 1, f, none⟩] }
    | none => { s with edges := s.edges ++ [⟨d, edgeOf node o, decide (bits entry (25 + o) 1 = 1), w + 1, f⟩] }

/-- One router in one cycle; `par` names lines with parity errors by input and line. -/
def State.router (s : State) (d node w entry : Nat) (par : List (Nat × Nat)) : State :=
  let here := s.mesh.filter fun f => decide (f.die = d) && decide (f.node = node) && decide (f.cyc = w)
  let s := { s with mesh := s.mesh.filter fun f => !(here.contains f) }
  -- a flit that the unselected endpoint offers is lost (R206)
  let wrong (f : MeshFlit) : Bool := match f.ce with
    | some b => b != decide (bits entry (25 + f.port) 1 = 1)
    | none => false
  let s := (here.filter wrong).foldl (fun s f => s.meshEvent d 1 node f.port) s
  let here := here.filter fun f => !wrong f
  let bad (i l : Nat) : Bool := par.any fun x => decide (x = (i, l))
  let s := here.foldl (fun s f => (List.range 4).foldl (fun s l => if bad f.port l then s.meshEvent d 6 node f.port else s) s) s
  let here := here.map fun f => { f with flit := ⟨((List.range f.flit.lines.length).zip f.flit.lines).map fun (x : Nat × FLine) =>
    if bad f.port x.1 then (⟨x.2.data, true⟩ : FLine) else x.2⟩ }
  let s := here.foldl (fun s f => if (routeOuts entry f.port).isEmpty then s.meshEvent d 1 node f.port else s) s
  (List.range 5).foldl (fun s o =>
    let ins := (List.range 5).filter fun i => (routeOuts entry i).contains o
    if 2 ≤ ins.length then
      (s.meshEvent d 0 node o).meshOut d node o w entry ⟨noData 4⟩
    else match here.find? fun f => ins.contains f.port with
      | some f => s.meshOut d node o w entry f.flit
      | none => s) s

/-- MESH_FLIT_FORWARD (R200): one router handles its inputs in the cycle of its earliest waiting flit, or in the present cycle.
`ecc`: an error of its route entry, true if uncorrectable (R205). The route memory index stops at readiness: a flit that comes later is lost
(R210). In load mode flits of other edges are lost (R262). -/
def execMeshFlitForward (die node : Nat) (par : List (Nat × Nat)) (ecc : Option Bool) (s : State) :
    Host.Outcome State Fault Refusal :=
  .next (if die < 8 && node < 64 then
    let mine := s.mesh.filter fun f => decide (f.die = die) && decide (f.node = node)
    let w := (minOf (mine.map MeshFlit.cyc)).getD s.clk.cc
    let s := s.toCc w
    if (s.od die).phaseOn && (s.od die).ready.isNone then
      let s : State := match ecc with
        | some true => s.raise (osTop die) 8
        | some false => (s.inc (osTop die) R.OS_ROUTE_CE_CNT).raise (osTop die) 7
        | none => s
      s.router die node w (if ecc = some true then 0 else s.routeEntry die node w) par
    else
      let gone := s.mesh.filter fun f => decide (f.die = die) && decide (f.node = node) && decide (f.cyc = w)
      let s := { s with mesh := s.mesh.filter fun f => !(gone.contains f) }
      if (s.od die).phaseOn then gone.foldl (fun s f => s.meshEvent die 1 node f.port) s else s
    else s)

/-! Sync points (R208-R215). -/

/-- The sync-table entry a die waits at. -/
def State.syncEntry (s : State) (d : Nat) : Nat := look natZero (s.od d).syncs (s.od d).waitId

/-- The enabled tiles of a die: those not OFF. A bit of OS_TG_ENABLE that changes while its tile runs takes effect at its next entry to IDLE (R109). -/
def State.enTiles (s : State) (d : Nat) : List Nat := (List.range 64).filter fun t => decide ((s.tile d t).st ≠ .off)

/-- The cycle in which every engine of a die has reached its marker, if all have. -/
def State.engMarks (s : State) (d : Nat) : Option Nat :=
  let ms := (List.range 16).map (s.engMark d) ++ [s.ceMark d]
  if ms.all Option.isSome then some ((ms.filterMap id).foldl max 0) else none

/-- A mask of package page 2 over sync IDs: PKG_AUDIT_MASK, PKG_STEP_MASK. -/
def State.idMask (s : State) (f : Fld) (id : Nat) : Bool := (s.rd pkg2 (Fld.idx f (id / 32))).testBit (id % 32)

/-- A detection of package page 2 in an Osier die: EXTRA names the die in [34:32] (Table 14-2). -/
def State.pkg2Raise (s : State) (src d : Nat) : State :=
  let x := s.detail pkg2 src
  s.raiseX pkg2 src x.1 (x.2 + 2 ^ 32 * d)

/-- A breakpoint match of a die that becomes ready, by its own copy of PKG_BREAK (R322, R323): HIT, the ID, and the die does not arrive. -/
def State.breakMatch (s : State) (d id : Nat) : State :=
  let a := s.au d
  if a.brk.en then
    let hit0 := decide (a.brk.mode = 0) && decide (a.brk.id = id)
    let a' := if hit0 then { a with brkCount := a.brkCount + 1 } else a
    let s := s.setAu d a'
    let hit := (hit0 && decide (a'.brkCount = max 1 a.brk.count)) ||
      (decide (a.brk.mode = 1) && s.idMask R.PKG_STEP_MASK id && decide (a.step + 1 = a.brk.step))
    if hit then
      let s := (s.wb pkg2 R.PKG_BREAK_STAT_HIT true).wr pkg2 R.PKG_BREAK_STAT_ID id
      s.setOd d { s.od d with brkHit := true }
    else s
  else s

/-- A die becomes ready in cycle `c` at sync `id` or at program end. The phase stays in force until the next release (R207): the slot plans run on. -/
def State.becomeReady (s : State) (d c id : Nat) (isEnd mis : Bool) : State :=
  let o := s.od d
  let acc := if s.prog d = stRunning then o.runAcc + (c - o.runCc) else o.runAcc
  let s := s.setOd d { o with ready := some c, readyTick := s.clk.tick, readyTime := s.pkgTick, metA := none, metB := none, arrive := none,
                              waitId := id, waitEnd := isEnd, notices := [], mismatch := mis, tmoSaid := false,
                              runAcc := acc, brkHit := false, latched := false, sent := false, freeAt := 0 }
  let s := s.wb (osTop d) R.OS_PROG_STAT_HELD true
  let s : State := if !isEnd && syncBorder (s.syncEntry d) then
      let b := s.bord d
      let seq := b.seq + 1
      s.setBord d { b with seq := seq, held := b.held.filter (fun a => decide (seq ≤ a.seq)), own := none, sent := false, tr := none,
                           late := false, released := none,
                           bad := b.held.any fun a => decide (a.seq = seq) && decide (a.id ≠ id) }
    else s
  let s := if syncBorder (s.syncEntry d) && !isEnd && (s.bord d).bad then s.pkg2Raise 4 d else s
  let s := if isEnd then s else s.breakMatch d id
  -- an increment of the readiness cycle is seen from the next enabled cycle on (R209)
  let seen := (o.fresh.map fun x => x.2.2).filter fun k => decide (c < k)
  seen.foldl (fun s k => s.condNote d k) (s.condNote d c)

/-- A die's not waiting at its sync point any longer: its barrier sequence is 0 (R308). -/
def State.unready (s : State) (d : Nat) : State :=
  let b := s.bord d
  let s := s.setBord d { b with seq := 0, own := none, sent := false, tr := none, released := none }
  (s.setOd d { s.od d with ready := none, arrive := none, notices := [], mismatch := false }).wb (osTop d) R.OS_PROG_STAT_HELD false

/-- Flits still in the mesh at readiness are lost (R203, R210): at a router, on the way to a tile, or at an edge endpoint. -/
def State.meshLost (s : State) (d : Nat) : State :=
  let gone := s.mesh.filter fun f => decide (f.die = d)
  let s := gone.foldl (fun s f => s.meshEvent d 1 f.node f.port) { s with mesh := s.mesh.filter fun f => !decide (f.die = d) }
  let s := (List.range 64).foldl (fun s t =>
    let n := (s.tile d t).flitIn
    if n.isEmpty then s
    else n.foldl (fun s _ => s.meshEvent d 1 t 4) (s.setTile d t { s.tile d t with flitIn := [] })) s
  let out := s.edges.filter fun f => decide (f.die = d)
  out.foldl (fun s f => s.edgeEvent d 1 f.edge) { s with edges := s.edges.filter fun f => !decide (f.die = d) }

/-- DIE_READY (R210): every enabled tile HELD and every engine at its marker; flits still in the mesh are lost. -/
def State.dieReady (s : State) (d : Nat) : State :=
  let ts := s.enTiles d
  match s.engMarks d with
  | none => s
  | some m =>
    if s.prog d = stRunning && (s.od d).ready.isNone && !(s.od d).stopping && ts.all (fun t => decide ((s.tile d t).st = .held)) then
      let c := ts.foldl (fun a t => max a (s.tile d t).clk) (max m (s.od d).phaseCc)
      let s := ((s.toCc c).settleDie d (c + 1)).meshLost d
      let ids : List Nat := ts.map fun t => (s.tile d t).heldId
      let id : Nat := ids.headD 0
      let mis := ids.any fun i => !(i == id)
      let s := s.becomeReady d c id false mis
      if mis then s.raise (osTop d) 4 else s
    else s
def execDieReady (die : Nat) (s : State) : Host.Outcome State Fault Refusal :=
  .next (if die < 8 && s.alive (osTop die) then s.dieReady die else s)

/-- Whether a bonded port of a running die is down (R350). -/
def State.portDown (s : State) (d : Nat) : Bool :=
  decide (s.prog d = stRunning) && [0, 1, 2, 3].any fun k => (walePeer (wlPg d k)).isSome && !s.portAlive (wlPg d k)

/-- DIE_ARRIVAL (R210): in the first cycle at or after readiness in which the counters reach their amounts, the border condition
holds and no stop is pending. -/
def State.dieArrive (s : State) (d : Nat) : State :=
  let o := s.od d
  let e := s.syncEntry d
  match o.ready, o.metA, o.metB with
  | some r, some a, some b =>
    let bord := if o.waitEnd || !syncBorder e then some 0 else (s.bord d).released
    match bord with
    | none => s
    | some br =>
      if o.arrive.isSome || o.stopping || o.brkHit || o.noArrive || o.doubt || o.mismatch || s.portDown d then s
      else
        let c := max (max r (max a b)) (max br o.freeAt)
        let cond := if c = r then 0 else if br = c && syncBorder e && !o.waitEnd then 3 else if b = c && (syncB e).2 ≠ 0 then 2
          else if a = c && (syncA e).2 ≠ 0 then 1 else 0
        let s := s.toCc c
        s.setOd d { s.od d with arrive := some c, condLast := cond }
  | _, _, _ => s
def execDieArrival (die : Nat) (s : State) : Host.Outcome State Fault Refusal :=
  .next (if die < 8 && s.alive (osTop die) then s.dieArrive die else s)

/-! Notices (R211). -/

/-- Hops between two Osier dies on the 2 x 4 grid. -/
def dieHops (a b : Nat) : Nat := (a % 4 - b % 4) + (b % 4 - a % 4) + (if a / 4 = b / 4 then 0 else 1)

/-- What die `d` knows of die `o` in the present cycle: each state reaches it 13 cycles a hop after it came to be. -/
def State.heard (s : State) (d o : Nat) : Option Notice :=
  let x := s.od o
  let del := 13 * dieHops d o
  match x.ready with
  | some r =>
    if r + del ≤ s.clk.cc then
      let met := match x.metA, x.metB with
        | some a, some b => if max r (max a (max b x.freeAt)) + del ≤ s.clk.cc && !x.brkHit && !x.stopping
            then some (max r (max a (max b x.freeAt)), x.metTick) else none
        | _, _ => none
      some ⟨o, r, met, x.arrive.filter fun a => decide (a + del ≤ s.clk.cc), x.waitId, x.waitEnd⟩
    else none
  | none => none

/-- L0: the latest readiness a die knows of, once it knows all eight. -/
def OsDie.l0 (o : OsDie) : Option Nat :=
  if osDies.all fun k => o.notices.any fun n => decide (n.die = k) then some (o.notices.foldl (fun a n => max a n.ready) 0) else none

/-- L1 with its tick (R309). -/
def OsDie.l1 (o : OsDie) : Option (Nat × Nat) :=
  if osDies.all fun k => o.notices.any fun n => decide (n.die = k) && n.met.isSome then
    some (o.notices.foldl (fun a n => match n.met with | some m => (max a.1 m.1, max a.2 m.2) | none => a) (0, 0))
  else none

/-- The package time at L0: that of the die whose readiness came last (R320). -/
def State.l0Time (s : State) (l : Nat) : Nat :=
  match osDies.find? fun k => decide ((s.od k).ready = some l) with
  | some k => (s.od k).readyTime
  | none => s.pkgTick

/-- The digest latch at L0 = `l` of an audit sync (R319), with what was true there (Table 9-7). -/
def State.auditLatch (s : State) (d id l : Nat) : State :=
  let p := stPg d 0
  let sums (r : Nat) : BitVec 64 := (List.range 16).foldl (fun a e => a + ((s.eng d e).dig r).sum) 0#64
  let cnts (r : Nat) : Nat := (List.range 16).foldl (fun a e => a + ((s.eng d e).dig r).pcnt) 0
  let full := s.bit p R.ST_DLAT_STAT_FULL
  let a := s.au d
  let s := (s.addWrap p R.ST_DLAT_STAT_SEQ 1).wr p R.ST_DLAT_STAT_ID id
  let at' : AuditAt := ⟨s.rd p R.ST_DLAT_STAT_SEQ, id, s.l0Time l, s.runCyc d, a.step,
    osDies.any fun k => (List.range 64).any fun t => (s.tile k t).taint⟩
  let s := if full then (s.wb p R.ST_DLAT_STAT_OVR true).setAu d { a with lost := a.lost + 1 }
    else s.setAu d { a with latch := (List.range 16).foldl (fun m r => put (fun _ => 0#64) m r (sums r)) a.latch,
                            pcnt := (List.range 16).foldl (fun m r => put natZero m r (min (cnts r) (2 ^ 32 - 1))) a.pcnt,
                            held := some at', lost := 0 }
  let s := s.wb p R.ST_DLAT_STAT_FULL true
  (List.range 16).foldl (fun s e =>
    let x := s.eng d e
    s.setEng d e { x with digs := (List.range 16).foldl (fun m r => put digZero m r { look digZero m r with sum := 0#64, pcnt := 0 }) x.digs }) s

/-- The barrier group of a die (R308): the packages of its rank table but its own. -/
def State.members (s : State) (d : Nat) : List Nat :=
  let es := ((s.ce d).ranks.map Prod.snd).filter fun e => decide (e / 256 % 2 = 1) && decide (e % 256 ≠ s.pkgId)
  (es.map (· % 256)).eraseDups

/-- T_r once every member's arrival and the own one are known (R311); late where T_r has begun by then. -/
def State.borderForm (s : State) (d : Nat) : State :=
  let b := s.bord d
  let ms := s.members d
  match b.own with
  | some a =>
    let got := b.held.filter fun x => decide (x.seq = b.seq) && ms.contains x.pkg
    if b.tr.isNone && !b.bad && ms.all fun m => got.any fun x => decide (x.pkg = m) then
      let top := got.foldl (fun m x => max m x.tick) a
      let low := got.foldl (fun m x => min m x.tick) a
      let tr := top + max 1 (s.rd pkg2 R.PKG_BORDER_LEAD)
      let own := s.pkgId
      let last := (got.filter fun x => decide (x.tick = top)).foldl (fun m x => min m x.pkg) (if a = top then own else 256)
      let late := decide (tr < s.pkgTick) || (decide (tr = s.pkgTick) && decide (0 < s.clk.sub))
      s.setBord d { b with tr := some tr, span := min (top - low) 65535, last := last, late := late }
    else s
  | none => s

/-- The border arrival payload (Table 9-5) as eight lines. -/
def borderCell (seq id d tick : Nat) : List FLine :=
  ⟨BitVec.ofNat 256 (seq % 2 ^ 32 + 2 ^ 32 * (id % 256) + 2 ^ 40 * (d % 8) + 2 ^ 64 * (tick % 2 ^ 64)), false⟩ ::
    List.replicate 7 ⟨0#256, false⟩

/-- A die that knows L1 sends its border arrival to die `d` of every member (R309). -/
def State.borderSend (s : State) (d tick : Nat) : State :=
  let b := s.bord d
  let s := s.setBord d { b with own := some tick, sent := true }
  let s := (s.members d).foldl (fun s m =>
    s.sideQueue (wlPg d 3) ⟨2, 8 + d, .sync m, borderCell b.seq (s.od d).waitId d tick⟩) s
  s.borderForm d

/-- SYNC_NOTICE (R211): a die takes in what the sync field has brought it by the present cycle. -/
def State.learn (s : State) (d : Nat) : State :=
  let o := s.od d
  match o.ready with
  | none => s
  | some _ =>
    let ns := osDies.filterMap (s.heard d)
    let mis := ns.any fun n => decide (n.id ≠ o.waitId) || (n.isEnd != o.waitEnd) || (s.od n.die).mismatch
    let s := s.setOd d { o with notices := ns, mismatch := o.mismatch || mis }
    let s := if mis && !o.mismatch then s.raise (osTop d) 4 else s
    let o := s.od d
    let s : State := match o.l0 with
      | some l =>
        if o.latched || o.waitEnd || o.mismatch then s
        else
          -- ST_DLAT_STAT.SEQ counts from program start, whose own L0 is the first that counts (R328)
          let s := s.setOd d { o with latched := true }
          let s := if s.prog d = stLoaded then s.wr (stPg d 0) R.ST_DLAT_STAT_SEQ 0 else s
          if s.idMask R.PKG_AUDIT_MASK o.waitId then s.auditLatch d o.waitId l else s
      | none => s
    let o := s.od d
    match o.l1 with
    | some l => if o.waitEnd || !syncBorder (s.syncEntry d) || (s.bord d).sent then s else s.borderSend d l.2
    | none => s
def execSyncNotice (die : Nat) (s : State) : Host.Outcome State Fault Refusal :=
  .next (if die < 8 && s.alive (osTop die) then s.learn die else s)

/-! Release (R211-R213). -/

/-- The first multiple of 8 at or after `c + 60`. -/
def releaseAt (c : Nat) : Nat := (c + 67) / 8 * 8

/-- Start a segment's tiles: HELD tiles resume at their entry, and at the start sync IDLE tiles start at bundle 0; one that is being zeroed stays IDLE (R110). -/
def Tile.release (t : Tile) (first : Bool) (c : Nat) : Tile :=
  if first then (if t.st = .idle && !t.zeroing then t.start c else t)
  else if t.st = .held then
    let h := t.halt.getD ⟨false, 0, 0, true⟩
    { t with st := .run, pc := h.entry % 0x2000, loops := if h.keep then t.loops else [], halt := none, cur := 0, skip := none,
             runBase := t.runBase + (c - t.next), next := c }
  else t

/-- What a release does in one die. -/
def State.releaseDie (s : State) (d rel w last cond : Nat) : State :=
  let p := osTop d
  let o := s.od d
  let e := s.syncEntry d
  let first := decide (s.prog d = stLoaded)
  let s := s.addWrap p R.OS_HOLD_CYC (rel - (o.ready.getD rel))
  let s := s.addWrap p R.OS_WAIT_CYC w
  let s := (s.wr p R.OS_SYNC_LAST_ID o.waitId).wr p R.OS_SYNC_LAST_LAST_DIE last
  let s := (s.wr p R.OS_SYNC_LAST_LAST_COND cond).wr p R.OS_SYNC_LAST_WAIT8 (min (w / 8) 65535)
  let s := if first then s.wr p R.OS_SYNC_CNT 0 else s.addWrap p R.OS_SYNC_CNT 1
  let s := (s.wb p R.OS_PROG_STAT_HELD false).wr p R.OS_PROG_STAT_SYNC_ID o.waitId
  let s := if s.idMask R.PKG_STEP_MASK o.waitId && !o.waitEnd then s.setAu d { s.au d with step := (s.au d).step + 1 } else s
  let clear : OsDie := { s.od d with ready := none, arrive := none, metA := none, metB := none, notices := [], mismatch := false,
                                     tmoSaid := false, latched := false, sent := false, fresh := [] }
  if o.waitEnd then
    let s := s.setOd d { clear with phaseOn := false }
    let b := s.bord d
    let s := s.setBord d { b with seq := 0, own := none, sent := false, tr := none, released := none, held := [] }
    let s := { s with ovbOver := forgetIf s.ovbOver fun k => decide (k / 256 = d) }
    (s.wr p R.OS_PROG_STAT_STATE stDone).wb p R.OS_PROG_CTRL_ARM false
  else
    let a := syncA e
    let b := syncB e
    let s := if first then (List.range 16).foldl (fun s c => s.wr p (Fld.idx R.OS_EVT_CNT c) 0) s
      else
        let s := s.wr p (Fld.idx R.OS_EVT_CNT a.1) (s.evtCnt d a.1 - a.2)
        s.wr p (Fld.idx R.OS_EVT_CNT b.1) (s.evtCnt d b.1 - b.2)
    let s := s.setOd d { clear with phase := bits e 0 6, phaseOn := true, phaseCc := rel, runCc := rel,
                                    runAcc := if first then 0 else clear.runAcc }
    let s := if first then s.wr p R.OS_PROG_STAT_STATE stRunning else s
    let s := (List.range 16).foldl (fun s k =>
      let s := if first then s.wr (stPg d k) R.ST_OUTST_PEAK 0 else s
      if s.alive (stPg d k) then s.engSeg d k (bits e 8 8) rel else s) s
    let s := if s.alive (cePg d) then s.ceSeg d (bits e 16 8) rel first else s
    (s.enTiles d).foldl (fun s t =>
      if s.alive (rowPg d (t / 8)) then s.setTile d t ((s.tile d t).release first rel) else s) s

/-- SYNC_RELEASE (R212): every die has arrived at one sync; all release at the first multiple of 8 at or after L + 60. -/
def State.syncRelease (s : State) : State :=
  let os := osDies.map s.od
  if osDies.all (fun d => s.alive (osTop d)) && os.all (fun o => o.arrive.isSome && !o.mismatch)
      && os.all (fun o => decide (o.waitId = (s.od 0).waitId) && (o.waitEnd == (s.od 0).waitEnd)) then
    let l := os.foldl (fun a o => max a (o.arrive.getD 0)) 0
    let l0 := os.foldl (fun a o => max a (o.ready.getD 0)) 0
    let rel := releaseAt l
    let s := s.toCc rel
    let s := osDies.foldl State.learn s
    let last := (osDies.find? fun d => decide ((s.od d).arrive = some l)).getD 0
    let cond := (s.od last).condLast
    let border := !(s.od 0).waitEnd && syncBorder (s.syncEntry 0)
    let first := decide (s.prog 0 = stLoaded)
    let s := if first then s.wr pkg2 R.PKG_BORDER_SEQ 0 else s
    let s := if border then s.addWrap pkg2 R.PKG_BORDER_SEQ 1 else s
    let s := osDies.foldl (fun s d => s.releaseDie d rel (rel - releaseAt l0) last cond) s
    s.wr pkg2 R.PKG_STEP (s.au 0).step
  else s
def execSyncRelease (s : State) : Host.Outcome State Fault Refusal := .next s.syncRelease

/-- SYNC_TIMEOUT (R215): once for a sync point. -/
def execSyncTimeout (die : Nat) (s : State) : Host.Outcome State Fault Refusal :=
  let o := s.od die
  let ms := s.rd (osTop die) R.OS_SYNC_TMO_MS
  .next (if die < 8 && s.alive (osTop die) && o.ready.isSome && !o.tmoSaid && decide (ms ≠ 0) then
    ((s.toTick (o.readyTick + ms * msTicks)).setOd die { o with tmoSaid := true }).raise (osTop die) 5
    else s)

/-! Start, end and stop (R216-R219). -/

/-- PROGRAM_END (R218): every enabled tile IDLE after END and the engines finished; the die sends its end notice. -/
def State.programEnd (s : State) (d : Nat) : State :=
  let ts := s.enTiles d
  match s.engMarks d with
  | none => s
  | some m =>
    if s.prog d = stRunning && (s.od d).ready.isNone && !(s.od d).stopping && ts.all (fun t => decide ((s.tile d t).st = .idle)) then
      let c := ts.foldl (fun a t => max a (s.tile d t).clk) (max m (s.od d).phaseCc)
      let s := ((s.toCc c).settleDie d (c + 1)).meshLost d
      s.becomeReady d c 0 true false
    else s
def execProgramEnd (die : Nat) (s : State) : Host.Outcome State Fault Refusal :=
  .next (if die < 8 && s.alive (osTop die) then s.programEnd die else s)

/-- While STATE is LOADED and ARM is 1 the die waits at the start sync, ready at once (R216, R217). -/
def State.startWait (s : State) (d : Nat) : State :=
  if s.prog d = stLoaded && s.bit (osTop d) R.OS_PROG_CTRL_ARM && (s.od d).ready.isNone && !(s.od d).stopping then
    (s.toCc s.clk.cc).becomeReady d s.clk.cc 0 false false
  else s

/-- The ARM bit is written (R216, R217). -/
def State.armWrite (s : State) (d : Nat) (v : Bool) : State :=
  let p := osTop d
  let s := s.wb p R.OS_PROG_CTRL_ARM v
  let s := if v && s.prog d = stDone then s.wr p R.OS_PROG_STAT_STATE stLoaded else s
  if v then s.startWait d
  else if s.prog d = stLoaded && (s.od d).ready.isSome then s.unready d  -- no longer armed
  else s

/-- The loader's write of LOADED (R217). A 0 written clears the field and moves STATE nowhere: R217 names only a table write for that (DEDUCED,
log entry 28). -/
def State.loadedWrite (s : State) (d : Nat) (v : Bool) : State :=
  let p := osTop d
  let s := s.wb p R.OS_PROG_CTRL_LOADED v
  if v then (if s.prog d = stEmpty then s.wr p R.OS_PROG_STAT_STATE stLoaded else s).startWait d else s

/-- A die whose STATE becomes EMPTY lets its enabled tiles leave OFF (Table 3-3). -/
def State.toEmpty (s : State) (d : Nat) : State :=
  (List.range 8).foldl (fun s r => s.rowFollow d r) (s.wr (osTop d) R.OS_PROG_STAT_STATE stEmpty)

/-- STOP (R219): every tile IDLE, the route memory stops, flits are dropped without SCHED_LOST, the engines abort. -/
def State.progStop (s : State) (d : Nat) : State :=
  let p := osTop d
  let o := s.od d
  let acc := s.runCyc d
  let s := s.settleDie d s.clk.cc
  let s := s.wb p R.OS_PROG_CTRL_STOP true
  let s := (s.enTiles d).foldl (fun s t =>
    let x := s.tile d t
    if x.st = .run || x.st = .held then
      let s := if x.st = .run then s.onTile d t fun x => x.settle s.clk.cc else s
      s.tileIdle d t
    else s) s
  let s := { s with mesh := s.mesh.filter (fun f => decide (f.die ≠ d)), edges := s.edges.filter (fun f => decide (f.die ≠ d)),
                    arrivals := s.arrivals.filter (fun a => decide (a.die ≠ d)), nbq := s.nbq.filter fun q => decide (q.die ≠ d) }
  -- program flits on the wires toward the die and in its receive buffers: their slots carry none
  let s := [0, 1, 2].foldl (fun s k =>
    let w := s.wle (wlPg d k)
    s.setWle (wlPg d k) { w with wire := w.wire.map WireFlit.dropped, rx := w.rx.map WireFlit.dropped }) s
  let s := (List.range 16).foldl (fun s e => s.engAbort d e) s
  let s := s.ceAbort d
  let s := s.wb p R.OS_PROG_STAT_HELD false
  s.setOd d { s.od d with stopping := true, phaseOn := false, ready := none, arrive := none, notices := [], mismatch := false,
                          runAcc := acc, runCc := s.clk.cc, brkHit := o.brkHit }

/-- STOP_COMPLETE (R219): the engines are IDLE; STATE becomes LOADED, or stays EMPTY where nothing is loaded. -/
def State.stopComplete (s : State) (d : Nat) : State :=
  let p := osTop d
  if (s.od d).stopping && (List.range 16).all (fun e => !(s.eng d e).abort) && !(s.ce d).abort then
    let s := if s.prog d = stEmpty then s else s.wr p R.OS_PROG_STAT_STATE stLoaded
    let s := (s.wb p R.OS_PROG_CTRL_STOP false).wb p R.OS_PROG_CTRL_ARM false
    let b := s.bord d
    let s := s.setBord d { b with seq := 0, own := none, sent := false, tr := none, released := none, bad := false, held := [] }
    s.setOd d { s.od d with stopping := false, noArrive := false, doubt := false, brkHit := false }
  else s
def execStopComplete (die : Nat) (s : State) : Host.Outcome State Fault Refusal :=
  .next (if die < 8 then s.stopComplete die else s)

/-- The bits of a slot-plan entry that are not reserved (R221). -/
def planBits (v : Nat) : Nat := bits v 0 5 + bits v 8 5 * 2 ^ 8

/-- The bits of a sync-table entry that are not reserved (Table 6-8). -/
def syncBits (v : Nat) : Nat := v % 2 ^ 56 - bits v 7 1 * 2 ^ 7

/-- OS_TBL_DATA written (R230): the selected entry without its reserved bits (R14); nothing while RUNNING or DONE, and LOADED clears. -/
def State.tblWrite (s : State) (d v : Nat) : State :=
  let p := osTop d
  if s.prog d = stRunning || s.prog d = stDone then s
  else
    let i := s.rd p R.OS_TBL_SEL_INDEX
    let u := s.rd p R.OS_TBL_SEL_UNIT
    let hi := s.rd p R.OS_TBL_SEL_HIGH
    let o := s.od d
    let o' : OsDie := match s.rd p R.OS_TBL_SEL_TABLE with
      | 0 =>
        let old := look natZero o.syncs (i % 256)
        { o with syncs := put natZero o.syncs (i % 256)
                   (syncBits (if hi = 1 then old % 2 ^ 32 + v % 2 ^ 32 * 2 ^ 32 else old / 2 ^ 32 * 2 ^ 32 + v % 2 ^ 32)) }
      | 1 => { o with phases := put natZero o.phases (i % 64) (v % 2 ^ 24) }
      | 2 => { o with routes := put natZero o.routes (u * 4096 + i) (v % 2 ^ 29) }
      | _ => { o with plans := put natZero o.plans (u % 4 * 4096 + i) (planBits v) }
    let s := (s.setOd d o').wb p R.OS_PROG_CTRL_LOADED false
    -- STATE moves back to EMPTY (R217); a die that waited at the start sync no longer does
    if s.prog d = stLoaded then (if (s.od d).ready.isSome then s.unready d else s).toEmpty d else s

/-- What OS_TBL_DATA reads. -/
def State.tblRead (s : State) (d : Nat) : Nat :=
  let p := osTop d
  let i := s.rd p R.OS_TBL_SEL_INDEX
  let u := s.rd p R.OS_TBL_SEL_UNIT
  let o := s.od d
  match s.rd p R.OS_TBL_SEL_TABLE with
  | 0 => look natZero o.syncs (i % 256) / (if s.rd p R.OS_TBL_SEL_HIGH = 1 then 2 ^ 32 else 1) % 2 ^ 32
  | 1 => look natZero o.phases (i % 64)
  | 2 => look natZero o.routes (u * 4096 + i)
  | _ => look natZero o.plans (u % 4 * 4096 + i)

/-- A doorbell write of OS_EVT_ADD (R209): the amount is added to the named counter. -/
def State.evtDoorbell (s : State) (d v : Nat) : State :=
  (s.wr (osTop d) R.OS_EVT_ADD_CNT (v % 16)).evtAdd d (v % 16) (bits v 16 16)

/-- OS_CNT_CLR (Table 6-12). -/
def State.osCntClr (s : State) (d : Nat) : State :=
  s.zero (osTop d) [R.OS_MESH_CNT, R.OS_OVB_CNT, R.OS_ROUTE_CE_CNT, R.OS_HOLD_CYC, R.OS_WAIT_CYC]

end Sys2Proof.Machine
end

