-- ==== Sys2Proof/Machine/Border.lean ====
section
/-! DEFINITION. The border barrier, package time and breakpoints (09_determinism.md, R546). -/

namespace Sys2Proof.Machine

/-! Border arrivals and release (R307-R311). -/

/-- Whether a die waits at a border sync whose barrier has not released. -/
def State.atBorder (s : State) (d : Nat) : Bool :=
  let o := s.od d
  o.ready.isSome && !o.waitEnd && syncBorder (s.syncEntry d) && (s.bord d).released.isNone

/-- The current barrier sequence (R310). -/
def State.curSeq (s : State) (d : Nat) : Nat := if s.atBorder d then (s.bord d).seq else (s.bord d).seq + 1

/-- BORDER_ARRIVAL (R310): a cell of package `pkg` reaches die `die`. -/
def State.borderArrival (s : State) (d pkg seq id tick : Nat) : State :=
  let own := s.pkgTick
  let s := if 1000000 < (own - tick) + (tick - own) then s.pkg2Raise 2 d else s
  let cur := s.curSeq d
  if seq = cur || seq = cur + 1 then
    let b := s.bord d
    let held := b.held.filter fun a => !(decide (a.pkg = pkg) && decide (a.seq = seq))
    let bad := s.atBorder d && decide (seq = b.seq) && decide (id ≠ (s.od d).waitId)
    let s := s.setBord d { b with held := held ++ [⟨pkg, seq, id, tick⟩], bad := b.bad || bad }
    let s := if bad then s.pkg2Raise 4 d else s
    if s.atBorder d then s.borderForm d else s
  else s.pkg2Raise 3 d

def execBorderArrival (die pkg seq id tick : Nat) (s : State) : Host.Outcome State Fault Refusal :=
  .next (if die < 8 && s.alive (osTop die) then s.borderArrival die pkg seq id tick else s)

/-- BORDER_RELEASE (R311): at the start of tick T_r, or at once where that has begun; a late barrier counts once. -/
def State.borderRelease (s : State) (d : Nat) : State :=
  let b := s.bord d
  match b.tr with
  | some tr =>
    if s.atBorder d && !b.bad && s.clk.frozen.isNone then
      let said := osDies.any fun o => decide (o ≠ d) && (s.bord o).late && decide ((s.bord o).seq = b.seq) && (s.bord o).released.isSome
      let s := s.toTick (s.clk.base + tr)
      let s := if b.late && !said then s.inc pkg2 R.PKG_BORDER_LATE_CNT else s
      let s := (s.wr pkg2 R.PKG_BORDER_LAST_SPAN b.span).wr pkg2 R.PKG_BORDER_LAST_LAST_PKG b.last
      (s.wb pkg2 R.PKG_BORDER_LAST_LATE (b.late || said)).setBord d { s.bord d with released := some s.clk.cc }
    else s
  | none => s
def execBorderRelease (die : Nat) (s : State) : Host.Outcome State Fault Refusal :=
  .next (if die < 8 && s.alive (osTop die) then s.borderRelease die else s)

/-! Package time (R305, R306, R546, R547). -/

/-- Whether EPOCH_IN is sampled: RESET_N is high. -/
def State.sampling (s : State) : Bool := s.pins.resetN

/-- An edge of REFCLK_SYS after it was missing: PKG_TICK counts on from the value it held (R544). -/
def State.thaw (s : State) : State :=
  match s.clk.frozen with
  | some v => { s with clk := { s.clk with base := s.clk.tick - v, frozen := none } }
  | none => s

/-- The signed distance of a tick from the nearest multiple of 100,000,000. -/
def epochOffset (t : Nat) : Int :=
  let r := t % 100000000
  if r ≤ 50000000 then (r : Int) else (r : Int) - 100000000

/-- A signed value in 16 bits, saturating. -/
def sat16 (x : Int) : Nat := (BitVec.ofInt 16 (max (-32768) (min 32767 x))).toNat

/-- An accepted edge (R305, R306). -/
def State.epochEdge (s : State) : State :=
  let s := { s with pkgt := { s.pkgt with lastEdge := some s.clk.tick } }
  if s.bit pkg2 R.PKG_TIME_CTRL_ARMED then
    let s := { s with clk := { s.clk with base := s.clk.tick } }
    ((s.wb pkg2 R.PKG_TIME_CTRL_ARMED false).wb pkg2 R.PKG_TIME_CTRL_ZEROED true).wr pkg2 R.PKG_EPOCH_CNT 0
  else if s.bit pkg2 R.PKG_TIME_CTRL_ZEROED then
    let s := s.addWrap pkg2 R.PKG_EPOCH_CNT 1
    if s.bit pkg2 R.PKG_TIME_STAT_STUCK then s
    else
      let off := epochOffset s.pkgTick
      let s := s.wr pkg2 R.PKG_TIME_STAT_OFFSET (sat16 off)
      if s.bit pkg2 R.PKG_TIME_CTRL_CHECK_EN && decide (s.rd pkg2 R.PKG_TIME_CTRL_TOL < off.natAbs) then
        (s.inc pkg2 R.PKG_TIME_STAT_SLIP_CNT).raise pkg2 0
      else s
  else s

/-- EPOCH_IN_EDGE (R306, R546): a rising edge whose first high sample is at `tick`. One less than 100 ticks after the last
accepted edge is ignored and counted. -/
def execEpochInEdge (tick : Nat) (s : State) : Host.Outcome State Fault Refusal :=
  .next (if s.sampling then
    let s := (s.toTick tick).thaw
    match s.pkgt.lastEdge with
    | some t => if s.clk.tick < t + 100 then s.inc pkg2 R.PKG_EPOCH_IGN else s.epochEdge
    | none => s.epochEdge
    else s)

/-- EPOCH_STUCK (R546): EPOCH_IN has been high for 1,000,000 ticks since its last edge. -/
def execEpochStuck (s : State) : Host.Outcome State Fault Refusal :=
  .next (match s.pkgt.lastEdge with
    | some t =>
      if s.sampling && !s.bit pkg2 R.PKG_TIME_STAT_STUCK then
        ((s.toTick (t + 1000000)).wb pkg2 R.PKG_TIME_STAT_STUCK true).raise pkg2 1
      else s
    | none => s)

/-- STUCK_CLEAR (R546): two low samples. -/
def execStuckClear (s : State) : Host.Outcome State Fault Refusal :=
  .next (if s.sampling then s.wb pkg2 R.PKG_TIME_STAT_STUCK false else s)

/-- EPOCH_OUT_PULSE (R547): at the next positive multiple of 100,000,000 ticks EPOCH_OUT rises for 1,000 ticks. -/
def execEpochOutPulse (s : State) : Host.Outcome State Fault Refusal :=
  .next (if s.sampling && s.bit pkg2 R.PKG_TIME_CTRL_ZEROED then
    let m := s.pkgTick / 100000000 * 100000000
    let due := if m = s.pkgTick && 0 < m && s.pkgt.epochHigh.isNone then m else m + 100000000
    let s := s.toTick (s.clk.base + due)
    { s with pkgt := { s.pkgt with epochHigh := some (s.clk.tick + 1000) } }
    else s)

/-! Effects of register writes of package page 2. -/

/-- PKG_TIME_CTRL.ARM written 1 (R305). -/
def State.timeArm (s : State) : State := s.wb pkg2 R.PKG_TIME_CTRL_ARMED true

/-- A die takes its copy of PKG_BREAK and PKG_BREAK_STEP; readiness is counted from a write of PKG_BREAK (R322). -/
def State.breakTake (s : State) (d : Nat) (b : BreakAt) (count : Bool) : State :=
  let a := s.au d
  s.setAu d { a with brk := b, brkCount := if count then 0 else a.brkCount }

/-- What the package page holds for the dies to copy. -/
def State.breakNow (s : State) : BreakAt :=
  ⟨s.bit pkg2 R.PKG_BREAK_EN, s.rd pkg2 R.PKG_BREAK_MODE, s.rd pkg2 R.PKG_BREAK_ID, s.rd pkg2 R.PKG_BREAK_COUNT, s.rd pkg2 R.PKG_BREAK_STEP⟩

/-- PKG_BREAK (`count`) or PKG_BREAK_STEP written: a staged write reaches every die on the commit's boundary, an unstaged one at different moments, as
a notice to each (R323). -/
def State.breakWrite (s : State) (count staged : Bool) : State :=
  if staged then osDies.foldl (fun s d => s.breakTake d s.breakNow count) s
  else { s with notes := s.notes ++ osDies.map fun d => (d, Note.brk s.breakNow count) }

/-- PKG_BREAK_STAT.HIT written 1 (R322): HIT and EN clear in every die, and no earlier copy is still on its way; a held die may arrive from now on,
and its border-ready cycle is no earlier (R309). -/
def State.breakRelease (s : State) : State :=
  let s := (s.wb pkg2 R.PKG_BREAK_STAT_HIT false).wb pkg2 R.PKG_BREAK_EN false
  let s := { s with notes := s.notes.filter fun n => match n.2 with
    | .brk _ _ => false
    | _ => true }
  osDies.foldl (fun s d =>
    let s := s.breakTake d s.breakNow false
    let o := s.od d
    if o.brkHit then s.setOd d { o with brkHit := false, freeAt := s.clk.cc, metTick := s.pkgTick } else s) s

/-- PKG_STEP reaches every Osier die (R314). -/
def State.stepCopy (s : State) : State :=
  osDies.foldl (fun s d => s.setAu d { s.au d with step := s.rd pkg2 R.PKG_STEP }) s

/-- ST_DLAT_ACK (R328). -/
def State.dlatAck (s : State) (d : Nat) : State :=
  (s.setAu d { s.au d with lost := 0 }).wb (stPg d 0) R.ST_DLAT_STAT_FULL false

end Sys2Proof.Machine
end

