-- ==== Sys2Proof/Machine/Wale.lean ====
section
/-! DEFINITION. Wale links (10_wale_links.md): the code on each unit interval, the sideband, port states, wire slots received and sent, release, side
flits, training, widths and repairs. -/

namespace Sys2Proof.Machine

/-! The codes (R331). -/

/-- Set bits of a number below 256. -/
def weight (v : Nat) : Nat := ((List.range 8).filter fun i => v.testBit i).length

/-- The columns of the data positions: weight 3 in ascending order, then weight 5. -/
def codeCols (d c : Nat) : List Nat :=
  (((List.range (2 ^ c)).filter fun v => decide (weight v = 3)) ++ (List.range (2 ^ c)).filter fun v => decide (weight v = 5)).take d

/-- The column of position `i`: data first, then check positions. -/
def codeCol (d c i : Nat) : Nat := if i < d then (codeCols d c).getD i 0 else 2 ^ (i - d)

/-- What a receiver makes of flipped positions: `none` uncorrectable; otherwise the positions left wrong after correction
and the position it corrected. -/
def codeFix (d c : Nat) (flips : List Nat) : Option (List Nat × Option Nat) :=
  let syn := flips.foldl (fun a i => a ^^^ codeCol d c i) 0
  if syn = 0 then some (flips, none)
  else match (List.range (d + c)).find? fun i => decide (codeCol d c i = syn) with
    | some p => some (if flips.contains p then flips.filter (fun i => decide (i ≠ p)) else p :: flips, some p)
    | none => none

/-! Widths and repairs (R329, R333). -/

/-- Whether a WL page is an H port, of an Osier or a Hoop die. -/
def isH (p : Nat) : Bool := isHoop (dieOf p) || (decide (dieOf p < 8) && decide (pageOf p = 0x44))

/-- Modules in use: 16, 8, or 2 on H; the first of the active half. -/
def State.wlMods (s : State) (p : Nat) : Nat := if isH p then 2 else if s.bit p R.WL_STAT_W8 then 8 else 16
def State.wlBase (s : State) (p : Nat) : Nat := if s.bit p R.WL_STAT_W8 && s.bit p R.WL_STAT_HALF then 8 else 0

/-- Sideband width W, the sideband code's data width, and the largest number of repairs in a direction. -/
def sbWidth (mods : Nat) : Nat := if mods = 16 then 24 else if mods = 8 then 16 else 6
def sbCode (mods : Nat) : Nat × Nat := if mods = 16 then (18, 6) else if mods = 8 then (11, 5) else (2, 4)
def maxRepairs (mods : Nat) : Nat := if mods = 16 then 40 else if mods = 8 then 16 else 2

/-- The wire a repair entry names: 0x7F none. Direction 0 receives, 1 transmits; entry k is the k-th repair of its module. -/
def WlEnd.repair (w : WlEnd) (dir m k : Nat) : Nat := look (fun _ => 0x7F) w.repairs (dir * 64 + m * 4 + k)
def WlEnd.setRepair (w : WlEnd) (dir m k v : Nat) : WlEnd :=
  { w with repairs := put (fun _ => 0x7F) w.repairs (dir * 64 + m * 4 + k) v }

/-- Repairs of a direction in one module and over the modules in use. -/
def WlEnd.repairsIn (w : WlEnd) (dir m : Nat) : Nat := ((List.range 4).filter fun k => decide (w.repair dir m k ≠ 0x7F)).length
def State.repairsAll (s : State) (p dir : Nat) : Nat :=
  ((List.range (s.wlMods p)).map fun i => (s.wle p).repairsIn dir (s.wlBase p + i)).sum

/-- The bye-wire pool in order (R333): B0 of each module in use, then B1, B2 and B3. -/
def State.byePool (s : State) (p : Nat) : List (Nat × Nat) :=
  (List.range 4).flatMap fun b => (List.range (s.wlMods p)).map fun i => (s.wlBase p + i, b)

/-- The sideband wires of a direction, wire 0 first (R333): the first W of the pool that no repair takes. Repair k of a module takes its bye-wire 3 - k. -/
def State.sbWires (s : State) (p dir : Nat) : List (Nat × Nat) :=
  ((s.byePool p).filter fun b => decide ((s.wle p).repair dir b.1 (3 - b.2) = 0x7F)).take (sbWidth (s.wlMods p))

/-- Whether a module has a bye-wire free for a further repair of the receive direction (R333). -/
def State.spare (s : State) (p m : Nat) : Bool :=
  decide ((s.wle p).repairsIn 0 m < 4) && decide (s.repairsAll p 0 < maxRepairs (s.wlMods p))

/-! Training (R341-R346). -/

/-- A port E, W, V or X leaves ALIVE while its die runs (R350). -/
def State.wlDown (s : State) (p : Nat) : State :=
  let d := dieOf p
  if s.rd p R.WL_STAT_STATE = 3 && d < 8 && decide (pageOf p < 0x44) && decide (s.prog d = stRunning) then s.raise p 9 else s

/-- Enter TRAIN (R341, R344): from ALIVE or WIDTH the partner is told; the leader adds 1 to GEN. -/
def State.wlTrain (s : State) (p : Nat) : State :=
  let st := s.rd p R.WL_STAT_STATE
  let s := s.wlDown p
  let s := if st = 3 || st = 2 || st = 4 then s.toWire p { kind := .train, cyc := false, cc := s.clk.cc } else s
  let w := s.wle p
  let rep := if s.bit p R.WL_CTRL_SCRATCH then [] else w.repairs
  let s := s.setWle p { w with repairs := rep, failed := [], entered := s.clk.tick, matched := 0, rx := [],
                               wire := w.wire.filter (fun f => decide (f.kind = .train)),
                               gen := if wlLeads p then (w.gen + 1) % 64 else w.gen }
  let s := s.addSat p R.WL_TRAIN_CNT_ROUNDS 1
  (s.wr p R.WL_STAT_STATE 1).wr p R.WL_STAT_PHASE 1

/-- Enter HOLD. -/
def State.wlHold (s : State) (p : Nat) : State :=
  let s := s.wlDown p
  let w := s.wle p
  let s := s.setWle p { w with matched := 0, rx := [], asked := false }
  ((s.wr p R.WL_STAT_STATE 4).wr p R.WL_STAT_PHASE 0).wb p R.WL_CTRL_RETRAIN false

/-- Both ends have asked for a retrain within one round: the follower's request counts as acknowledgment (R344). -/
def State.supersede (s : State) (p : Nat) : State :=
  match walePeer p with
  | some q =>
    if (s.wle p).asked && (s.wle q).asked && decide (s.rd p R.WL_STAT_STATE = 1) && decide (s.rd q R.WL_STAT_STATE = 1) then
      s.wb (if wlLeads p then q else p) R.WL_STAT_SUPERSEDED true
    else s
  | none => s

/-- WL_CTRL.RETRAIN written 1 (R341): from ALIVE, WIDTH or HOLD to TRAIN; within a running round it is a request of this end (R344). -/
def State.wlRetrain (s : State) (p : Nat) : State :=
  let st := s.rd p R.WL_STAT_STATE
  if (walePeer p).isNone || st = 0 then s
  else
    let s := (s.setWle p { s.wle p with asked := true }).wb p R.WL_CTRL_RETRAIN true
    (if st = 1 then s else s.wlTrain p).supersede p

/-- WL_CTRL.HOLD_REQ written 1 (R341). -/
def State.wlHoldReq (s : State) (p : Nat) : State :=
  if s.rd p R.WL_STAT_STATE = 0 then s else s.wlHold p

/-- The port end is enabled (R341): OFF to TRAIN where the port is bonded. -/
def State.wlEnable (s : State) (p : Nat) : State :=
  if (walePeer p).isSome && s.rd p R.WL_STAT_STATE = 0 then s.wlTrain p else s

/-- The port end goes OFF. -/
def State.wlOff (s : State) (p : Nat) : State :=
  let s := s.wlDown p
  let w := s.wle p
  (s.setWle p { w with rx := [], matched := 0, failed := [], asked := false }).wr p R.WL_STAT_STATE 0

/-- TRAIN received, or the clock lost, in ALIVE or WIDTH: the end follows its partner into TRAIN (R345). -/
def State.wlFollow (s : State) (p : Nat) : State :=
  let st := s.rd p R.WL_STAT_STATE
  if s.alive p && (st = 2 || st = 3) then (s.wlTrain p).raise p 10 else s

/-! Receiving (R332, R334, R337, R347). -/

/-- A correction on a wire: its count, and the flag when the threshold is reached within the window. -/
def State.wireCorrected (s : State) (p m wire : Nat) : State :=
  let w := s.wle p
  let k := m * 72 + wire
  let win := max 1 (s.rd p R.WL_WIRE_THR_WINDOW_MS) * msTicks
  let h := (look (fun _ => []) w.hist k).filter (fun t => decide (s.clk.tick < t + win)) ++ [s.clk.tick]
  let flag := decide (max 1 (s.rd p R.WL_WIRE_THR_COUNT) ≤ h.length)
  let s := s.setWle p { w with wires := put natZero w.wires k (min (look natZero w.wires k + 1) (2 ^ 32 - 1)),
                               hist := put (fun _ => []) w.hist k (if flag then [] else h) }
  let s := (s.inc p R.WL_CE_CNT).raise p 0
  if flag then
    let s := (s.wr p R.WL_WIRE_LAST_MODULE m).wr p R.WL_WIRE_LAST_WIRE wire
    (s.wb p R.WL_WIRE_LAST_NOSPARE (!s.spare p m)).raise p 3
  else s

/-- The flit bit on data wire `i` of a module in a unit interval (R330). -/
def State.flitBit (s : State) (p ui m i : Nat) : Nat :=
  let n := s.wlMods p
  if n = 16 then 1024 * ui + 64 * m + i else if n = 8 then 512 * ui + 64 * (m - s.wlBase p) + i else 128 * ui + 64 * m + i

/-- Flip one bit of a flit. -/
def flipBit (ls : List FLine) (k : Nat) : List FLine :=
  ((List.range ls.length).zip ls).map fun x =>
    if x.1 = k / 256 then { x.2 with data := x.2.data ^^^ (1#256 <<< (k % 256)) } else x.2

/-- Poison one line of a flit. -/
def poisonAt (ls : List FLine) (l : Nat) : List FLine :=
  ((List.range ls.length).zip ls).map fun x => if x.1 = l then { x.2 with poi := true } else x.2

/-- One unit interval of one module under the main code. -/
def State.mainWord (s : State) (p : Nat) (ls : List FLine) (e : LinkErr) : State × List FLine :=
  match codeFix 64 8 e.wires with
  | some (left, fixed) =>
    let ls := (left.filter fun i => decide (i < 64)).foldl (fun ls i => flipBit ls (s.flitBit p e.ui e.module i)) ls
    (match fixed with | some w => s.wireCorrected p e.module w | none => s, ls)
  | none =>
    let ls := (e.wires.filter fun i => decide (i < 64)).foldl (fun ls i => flipBit ls (s.flitBit p e.ui e.module i)) ls
    let ls := poisonAt ls (s.flitBit p e.ui e.module 0 / 256)
    ((s.inc p R.WL_UE_CNT).raise p (if s.spare p e.module then 1 else 2), ls)

/-! The sideband (R334, R335). -/

/-- KIND (Table 10-4). -/
def WKind.code : WKind → Nat
  | .idle => 0
  | .side => 1
  | .prog => 2
  | .null => 3
  | .empty => 4
  | .train => 5
  | .token => 6
  | .reserved => 7

def kindOf (v : Nat) : WKind :=
  match v with
  | 0 => .idle
  | 1 => .side
  | 2 => .prog
  | 3 => .null
  | 4 => .empty
  | 5 => .train
  | 6 => .token
  | _ => .reserved

/-- An X port end, at the Osier or the Weft die. -/
def isX (p : Nat) : Bool := isWeft (dieOf p) || (isOsier (dieOf p) && decide (pageOf p = 0x43))

/-- A payload tag as 27 bits (Table 10-6). -/
def PTag.bits (t : PTag) : Nat :=
  1 + t.pkg % 256 * 2 + t.offset % 2 ^ 16 * 2 ^ 9 + (if t.last then 2 ^ 25 else 0) + (if t.poi then 2 ^ 26 else 0)

/-- LPOIS of `n` lines. -/
def lpois (n : Nat) (ls : List FLine) : Nat := ls.zipIdx.foldl (fun a l => if l.1.poi && decide (l.2 < n) then a + 2 ^ l.2 else a) 0

/-- Bit places of Table 10-3 at 16 and at 8 modules: REQ (and SCLASS), SYNC, CREDIT and ROOM. -/
def reqAt (n : Nat) : Nat := if n = 16 then 48 else 28
def creditAt (n : Nat) : Nat := if n = 16 then 143 else 62

/-- The sideband content of a flit as the receiving end `p` sees it, bit b of Table 10-3 at place b. -/
def State.sbContent (s : State) (p : Nat) (f : WireFlit) : Nat :=
  let n := s.wlMods p
  let b := reqAt n
  if isH p then f.kind.code + lpois 5 f.lines * 2 ^ 3 + f.sclass % 4 * 2 ^ 8 + f.sdie % 32 * 2 ^ 10
  else
    (if f.cyc then 1 else 0) + f.kind.code * 2 + f.ccl % 16 * 2 ^ 4
      + (if isX p && (f.kind = .prog || f.kind = .null) then f.tags.zipIdx.foldl (fun a t => a + t.1.bits * 2 ^ (27 * t.2 + 8)) 0
         else if f.kind = .idle then 0 else lpois (b - 8) f.lines * 2 ^ 8)
      + (if f.kind = .side then f.sclass % 4 * 2 ^ b + f.sdie % 32 * 2 ^ (b + 2)
         else match f.req with | some r => r.1 % 2 ^ 42 * 2 ^ b | none => 0)
      + (if isX p then (if f.credit then 2 ^ creditAt n else 0) + f.room % 2 ^ 15 * 2 ^ (creditAt n + 1) else f.sync % 2 ^ 26 * 2 ^ (b + 42))

/-- Lines with the poison that LPOIS gives them. -/
def setPois (v : Nat) (ls : List FLine) : List FLine := ls.zipIdx.map fun l => { l.1 with poi := v.testBit l.2 }

/-- A flit as read from sideband content `v`: what the fields of Table 10-3 say in place of what was sent. A payload whose tag has become VALID has
lines of zeros. -/
def State.sbParse (s : State) (p : Nat) (f : WireFlit) (v : Nat) : WireFlit :=
  let n := s.wlMods p
  let b := reqAt n
  if isH p then { f with kind := kindOf (bits v 0 3), lines := setPois (bits v 3 5) f.lines, sclass := bits v 8 2, sdie := bits v 10 5 }
  else
    let kind := kindOf (bits v 1 3)
    let tagged := isX p && (decide (kind = .prog) || decide (kind = .null))
    let tag (i : Nat) : Option PTag :=
      let t := bits v (27 * i + 8) 27
      if t % 2 = 0 then none
      else some ⟨bits t 1 8, bits t 9 16, bits t 25 1 = 1, bits t 26 1 = 1, ((f.tags[i]?).map PTag.lines).getD (List.replicate 8 ⟨0#256, false⟩)⟩
    { f with kind := kind, cyc := bits v 0 1 = 1, ccl := bits v 4 4,
             lines := if tagged || decide (kind = .idle) then f.lines else setPois (bits v 8 (b - 8)) f.lines,
             tags := if tagged then (List.range (if n = 16 then 5 else 2)).filterMap tag else f.tags,
             req := if isX p || decide (kind = .side) || bits v b 1 = 0 then none else some (bits v b 42, (f.req.map Prod.snd).getD 0),
             sclass := if kind = .side then bits v b 2 else 0, sdie := if kind = .side then bits v (b + 2) 5 else 0,
             sync := if isX p then 0 else bits v (b + 42) 26,
             credit := isX p && bits v (creditAt n) 1 = 1, room := if isX p then bits v (creditAt n + 1) 15 else 0 }

/-- The sideband words of a wire slot (R334): the content with the wires that correction leaves wrong, content bit b lying in UI b div D on wire
b mod D, and whether a word was uncorrectable. -/
def State.sbWords (s : State) (p : Nat) (es : List LinkErr) (v : Nat) : State × Nat × Bool :=
  let c := sbCode (s.wlMods p)
  es.foldl (fun x e => match codeFix c.1 c.2 e.wires with
    | some (left, fixed) =>
      (if fixed.isSome then (x.1.inc p R.WL_SB_CE_CNT).raise p 4 else x.1,
       (left.filter fun i => decide (i < c.1)).foldl (fun v i => v ^^^ 2 ^ (c.1 * e.ui + i)) x.2.1, x.2.2)
    | none => ((x.1.inc p R.WL_SB_UE_CNT).raise p 5, x.2.1, true)) (s, v, false)

/-- A RUNNING die with a doubtful cycle flit does not arrive (R351). -/
def State.doubtful (s : State) (p : Nat) : State :=
  let d := dieOf p
  if d < 8 && decide (s.prog d = stRunning) then s.setOd d { s.od d with doubt := true } else s

/-! Wire slots received. -/

/-- Whether a port end holds cycle flits until a release cycle (R340): E, W and V, and X at the Weft die. -/
def timedEnd (p : Nat) : Bool := (decide (dieOf p < 8) && decide (pageOf p < 0x43)) || isWeft (dieOf p)

/-- A port E, W or V of an Osier die. -/
def isEWV (p : Nat) : Bool := decide (dieOf p < 8) && decide (pageOf p < 0x43)

/-- The lines that the data wires carry: the payloads' on X, else the flit's own. -/
def WireFlit.body (f : WireFlit) : List FLine := if f.tags.isEmpty then f.lines else f.tags.flatMap PTag.lines
def WireFlit.withBody (f : WireFlit) (ls : List FLine) : WireFlit :=
  if f.tags.isEmpty then { f with lines := ls }
  else { f with tags := f.tags.zipIdx.map fun t => { t.1 with lines := (ls.drop (8 * t.2)).take 8 } }

/-- A flit delivered with every line poisoned, its request word lost. -/
def WireFlit.spoilt (f : WireFlit) : WireFlit :=
  { f with lines := f.lines.map (fun l => { l with poi := true }), tags := f.tags.map (fun t => { t with poi := true }), req := none }

/-- Take the next wire slot, sent as kind `k`, at a port end that is ALIVE; answers the flit as read and corrected. A receive buffer that holds its 32
wire slots takes no other (R340; log entry 71). The CCL of a cycle flit is compared with the CC this end expects (R337). -/
def State.rxSlot (s : State) (p : Nat) (k : WKind) (er : RxErr) : State × Option WireFlit :=
  let w := s.wle p
  match w.wire with
  | [] => (s, none)
  | f :: r =>
    if f.kind ≠ k || (timedEnd p && decide (32 ≤ w.rx.length)) then (s, none)
    else
      let off := (w.off + er.slip) % 16
      let s := s.setWle p { w with wire := r, off := off }
      if !s.portAlive p || !s.alive p then (s, none)
      else
        let s := s.addSat p R.WL_TEST_ERR er.test
        let v := s.sbContent p f
        let b := s.sbWords p er.sb v
        let g := if b.2.1 = v then f else b.1.sbParse p f b.2.1
        let a := er.main.foldl (fun (x : State × List FLine) e => x.1.mainWord p x.2 e) (b.1, g.body)
        let g := if er.main.isEmpty then g else g.withBody a.2
        let slip := g.cyc && isEWV p && decide (g.ccl ≠ (f.cc + off) % 16)
        let s := if slip then (a.1.inc p R.WL_SLIP_CNT).raise p 6 else a.1
        let bad := slip || b.2.2
        let s := if bad && g.cyc && isEWV p then s.doubtful p else s
        let w := s.wle p
        let s := s.setWle p { w with xcredit := w.xcredit + (if g.credit then 1 else 0),
                                     room := if isWeft ((walePeer p).elim 0 dieOf) then g.room else w.room }
        (s, some (if bad then g.spoilt else g))

/-- Buffer a received flit for release. -/
def State.rxBuffer (s : State) (p : Nat) (f : WireFlit) : State :=
  let w := s.wle p
  s.setWle p { w with rx := w.rx ++ [f] }

/-- The H port by which a side flit at die `d` reaches Hoop die `t`: the one of its row, or the other where that is down (R339). -/
def State.hoopVia (s : State) (d t : Nat) : Nat :=
  let n := if t = 0x12 then 0 else 3
  let a := if d < 4 then n else n + 4
  let b := if d < 4 then n + 4 else n
  if s.portAlive (wlPg a 4) || !s.portAlive (wlPg b 4) then a else b

/-- The ports of a die by which a side flit comes nearer to its leaving die (R19, R223); where two do, the choice is free. -/
def State.sideNext (s : State) (d t : Nat) : List Nat :=
  if isWeft d then [pg d 0x40]
  else if isHoop d then
    let o := if isWeft t then t - 8 else t
    let a := (walePeer (pg d 0x70)).elim 0 dieOf
    let b := (walePeer (pg d 0x71)).elim 0 dieOf
    let near := if dieHops a o ≤ dieHops b o then (pg d 0x70, pg d 0x71) else (pg d 0x71, pg d 0x70)
    [if s.portAlive near.1 || !s.portAlive near.2 then near.1 else near.2]
  else
    let o := if isWeft t then t - 8 else if isHoop t then s.hoopVia d t else t
    if d = o then (if isWeft t then [wlPg d 3] else if isHoop t then [wlPg d 4] else [])
    else [0, 1, 2].filterMap fun k => match walePeer (wlPg d k) with
      | some q => if dieHops (dieOf q) o < dieHops d o then some (wlPg d k) else none
      | none => none

/-- A side flit leaves the links at its die: a Bulk cell for this package is a payload of the die's engine (R417), the rest waits to be taken. -/
def State.sideLand (s : State) (p : Nat) (g : SideFlit) : State :=
  let d := dieOf p
  let park (s : State) : State := let w := s.wle p; s.setWle p { w with sideIn := w.sideIn ++ [g] }
  match g.what with
  | .cell c =>
    if d < 8 && decide (c.cls = 0) && decide (c.dst = s.pkgId) then
      (s.ceSettle d (s.clk.cc - 1)).ceTake d [] [⟨c.src, c.off, c.fin, c.poi, c.lines⟩]
    else park s
  | _ => park s

/-- A side flit received: passed toward its leaving die, or taken where it leaves. A cell keeps what the wires made of its lines. -/
def State.sideIn (s : State) (p : Nat) (f : WireFlit) : State :=
  let d := dieOf p
  let what := match f.what with
    | .cell c => SideWhat.cell { c with lines := f.lines, poi := c.poi || f.lines.any FLine.poi }
    | x => x
  let g : SideFlit := ⟨f.sclass, f.sdie, what, f.lines⟩
  if f.sdie = d then s.sideLand p g
  else match s.sideNext d f.sdie with
    | [] => s.sideLand p g
    | [a] => s.sideQueue a g
    | a :: r => let x := s.draw; x.1.sideQueue ((a :: r).getD (x.2 % (r.length + 1)) a) g

/-- A flit as read is taken by its kind (R336): cycle flits are buffered for release, payloads toward the Osier die enter its delivery buffer of 4 flits
(R338), or are discarded while the engine drops them (R296); a reserved kind is an IDLE that counts in WL_SLIP_CNT. -/
def State.rxTake (s : State) (p : Nat) (f : WireFlit) : State :=
  let hold (s : State) (f : WireFlit) : State := if timedEnd p then s.rxBuffer p f else s
  match f.kind with
  | .idle => if f.cyc then hold s f else s
  | .reserved => (if f.cyc then hold s { f with kind := .idle } else s).inc p R.WL_SLIP_CNT
  | .empty => hold s f
  | .null => hold s f
  | .prog =>
    if timedEnd p then s.rxBuffer p f
    else if isH p then s
    else
      let w := s.wle p
      let d := dieOf p
      if s.ceDrops d then (s.setWle p { w with owed := w.owed + 1 }).ceTake d [] f.tags
      else if w.xbuf.length < 4 then s.setWle p { w with xbuf := w.xbuf ++ [f.tags] } else s
  | .side => (if f.cyc && isEWV p then hold s { f with kind := .idle, lines := [] } else s).sideIn p f
  | .train => s.wlFollow p
  | .token => s

/-- The next wire slot, sent as kind `k`, is received. -/
def State.rxKind (s : State) (p : Nat) (k : WKind) (er : RxErr) : State :=
  match s.rxSlot p k er with
  | (s, some f) => s.rxTake p f
  | (s, none) => s

/-- WALE_IDLE_FLIT (R336). -/
def execWaleIdleFlit (page : Nat) (err : RxErr) (s : State) : Host.Outcome State Fault Refusal := .next (s.rxKind page .idle err)
/-- WALE_EMPTY_FLIT (R336): counts as no flit. -/
def execWaleEmptyFlit (page : Nat) (err : RxErr) (s : State) : Host.Outcome State Fault Refusal := .next (s.rxKind page .empty err)
/-- WALE_PROG_FLIT (R336): corrected and buffered for release; on X toward the Osier die it enters the delivery buffer (R338). -/
def execWaleProgFlit (page : Nat) (err : RxErr) (s : State) : Host.Outcome State Fault Refusal := .next (s.rxKind page .prog err)
/-- WALE_NULL_FLIT (R336): counts as a flit. -/
def execWaleNullFlit (page : Nat) (err : RxErr) (s : State) : Host.Outcome State Fault Refusal := .next (s.rxKind page .null err)
/-- WALE_SIDE_FLIT (R336): passed toward its leaving die, or taken where it leaves. -/
def execWaleSideFlit (page : Nat) (err : RxErr) (s : State) : Host.Outcome State Fault Refusal := .next (s.rxKind page .side err)

/-! Sending (R220-R223, R336). -/

/-- The sync field a die sends in every cycle flit (Table 10-5): the highest state it knows of each die, its own ID and END, and MISMATCH. -/
def State.syncField (s : State) (d : Nat) : Nat :=
  let st (o : Nat) : Nat := match s.heard d o with
    | none => 0
    | some n => if n.arrive.isSome then 3 else if n.met.isSome then 2 else 1
  let o := s.od d
  osDies.foldl (fun a k => a + st k * 4 ^ k) 0 + o.waitId % 256 * 2 ^ 16 + (if o.waitEnd then 2 ^ 24 else 0) + (if o.mismatch then 2 ^ 25 else 0)

/-- A flit leaves a port end; a cycle flit on E, W or V carries the sync field (R335). -/
def State.sendFlit (s : State) (p : Nat) (f : WireFlit) : State :=
  s.toWire p { f with sync := if f.cyc && isEWV p then s.syncField (dieOf p) else 0 }

/-- WALE_PROGRAM_SLOT (R221): the program slot of the present cycle carries the source's flit, or EMPTY, with the request word
of the lowest engine (R252). What cannot travel fails (R253). -/
def State.programSlot (s : State) (d port : Nat) : State :=
  let c := s.clk.cc
  let p := wlPg d port
  let s := ((s.toCc c).settleDie d c).enterFlits d c
  let src := (s.slotPlan d port c).1
  let offer := s.offers.find? fun o => decide (o.die = d) && decide (o.port = port) && decide (o.src = src) && decide (o.cyc = c)
  let mine := s.reqs.filter fun q => decide (q.die = d) && decide (q.port = port) && decide (q.cyc ≤ c)
  let able (q : ReqW) : Bool := decide (q.cyc = c) && s.portAlive p && (bits q.word 1 1 = 0 || decide (src = q.eng))
  let pick := (mine.filter able).foldl (fun (b : Option ReqW) q => match b with
    | none => some q
    | some x => if q.eng < x.eng then some q else some x) none
  let s := mine.foldl (fun s q => if some q = pick then s else s.engErr d q.eng q.idx 5) s
  let s := { s with reqs := s.reqs.filter (fun q => !(mine.contains q)),
                    offers := s.offers.filter fun o => !(decide (o.die = d) && decide (o.port = port) && decide (o.cyc ≤ c)) }
  if s.portAlive p then
    let lines := match offer with | some o => o.lines | none => []
    s.sendFlit p { kind := if lines.isEmpty then .empty else .prog, cyc := true, cc := c, lines := lines,
                   req := pick.map fun q => (q.word, q.idx) }
  else s
def execWaleProgramSlot (die port : Nat) (s : State) : Host.Outcome State Fault Refusal :=
  .next (if die < 8 && port < 4 && (s.od die).phaseOn && progSlot s.clk.cc && s.slotFree (wlPg die port)
      && !(decide (port = 3) && decide ((s.slotPlan die 3 s.clk.cc).1 = 16)) then s.programSlot die port else s)

/-- Sub-link state. -/
def subZero : Nat → SubLink := fun _ => {}
def State.sub (s : State) (w k : Nat) : SubLink := look subZero s.subs (w * 16 + k)
def State.setSub (s : State) (w k : Nat) (x : SubLink) : State := { s with subs := put subZero s.subs (w * 16 + k) x }

/-- Cells in the forward queue of a Weft die: those that wait in its X port's side slots (R416). -/
def State.fwdQ (s : State) (w : Nat) : List SideFlit :=
  (s.wle (pg (8 + w) 0x40)).side.filter fun f => match f.what with
    | .cell _ => true
    | _ => false

/-- Bulk cells of a sub-link: those queued, and all in its store. -/
def SubLink.bulkQ (x : SubLink) : Nat := (x.queue.filter fun c => decide (c.1.cls = 0)).length
def SubLink.bulkAll (x : SubLink) : Nat := x.bulkQ + (x.replay.filter fun c => decide (c.cell.cls = 0)).length

/-- The ROOM field of a Weft die (R405, R416). -/
def State.roomBits (s : State) (w : Nat) : Nat :=
  if 256 ≤ (s.fwdQ w).length then 0
  else (List.range 15).foldl (fun a i =>
    let x := s.sub w (i + 1)
    if x.bulkQ < 60 && x.bulkAll + 5 ≤ 4160 then a + 2 ^ i else a) 0

/-! Side slots and spare wire slots (R220, R222, R223). -/

/-- Wire slots, of 16 to a tick, that start within the present CCLK cycle (R330). -/
def State.slotsNow (s : State) : Nat :=
  let up (x : Nat) : Nat := (16 * x + s.ratio - 1) / s.ratio
  up (s.clk.sub + 1) - up s.clk.sub

/-- A wire slot of the present CCLK cycle that a port end may give to a side flit: the side slot of an enabled cycle (true), or one that no enabled
cycle needs (R222, R336). On H every slot is such a one. -/
def State.sideSlot (s : State) (p : Nat) : Option Bool :=
  let w := s.wle p
  let used := if w.spare.1 = s.clk.tick * 16 + s.clk.sub then w.spare.2 else 0
  let cyc := !isH p && s.clk.live
  if cyc && !progSlot s.clk.cc && s.slotFree p then some true
  else if used + (if cyc then 1 else 0) < s.slotsNow then some false else none

/-- Time passes to the next such slot. -/
def State.toSide (s : State) (p : Nat) : Nat → State
  | 0 => s
  | n + 1 => if (s.sideSlot p).isSome then s else (s.passSlots 1).toSide p n

/-- A payload of the engine that travels by relay or over V joins the side flits of the port on its way, one at a time (R287, R417). -/
def State.relayFill (s : State) (p : Nat) (hits : List EccHit) : State :=
  let d := dieOf p
  let own (f : SideFlit) : Bool := match f.what with
    | .cell c => decide (c.cls = 0) && decide (c.src = s.pkgId) && decide (c.rdie = d)
    | _ => false
  let here (q : Nat) : Bool := match s.pathOf d q with
    | some (w, _, _) => (s.sideNext d (8 + w)).contains p
    | none => false
  if s.ceOk d && !(s.ce d).abort && !(s.wle p).side.any own then
    match s.drawPayload d (fun x v => s.sideSend d x v && here v.pkg) (badWords hits 0 8) with
    | (s, some t) =>
      let c : Cell := { typ := 0, cls := 0, src := s.pkgId, dst := t.pkg, rdie := d, off := t.offset, fin := t.last, poi := t.poi, lines := t.lines }
      (s.bufHits d hits).sideQueue p ⟨0, 8 + s.handKey d t.pkg / 16, .cell c, t.lines⟩
    | (s, none) => s
  else s

/-- The side flit served next: the first of the highest class, but at least one in sixteen from the lowest class that
waits (R223). -/
def sideNextFlit (w : WlEnd) : Option SideFlit :=
  let lo := w.side.foldl (fun a f => max a f.cls) 0
  let hi := w.side.foldl (fun a f => min a f.cls) 9
  w.side.find? fun f => decide (f.cls = if 15 ≤ w.sinceLow then lo else hi)

/-- SIDE_FLIT_SERVICE (R223): the port's next side slot or spare wire slot carries a waiting side flit, or IDLE. `hits` are memory errors of the words
of a payload that the engine hands over for it. -/
def State.sideService (s : State) (p : Nat) (hits : List EccHit) : State :=
  let s := s.toSide p 16
  match s.sideSlot p with
  | none => s
  | some cyc =>
    let s := s.relayFill p hits
    let w := s.wle p
    let now := s.clk.tick * 16 + s.clk.sub
    let s := if cyc then s else s.setWle p { w with spare := (now, (if w.spare.1 = now then w.spare.2 else 0) + 1) }
    let w := s.wle p
    let room := if isWeft (dieOf p) then s.roomBits (dieOf p - 8) else 0
    match sideNextFlit w with
    | none => s.sendFlit p { kind := .idle, cyc := cyc, cc := s.clk.cc, room := room }
    | some f =>
      let lo := w.side.foldl (fun a g => max a g.cls) 0
      (s.setWle p { w with side := w.side.erase f, sinceLow := if f.cls = lo then 0 else w.sinceLow + 1 }).sendFlit p
        { kind := .side, cyc := cyc, cc := s.clk.cc, lines := f.lines, sclass := f.cls, sdie := f.die, what := f.what, room := room }
def execSideFlitService (page : Nat) (hits : List EccHit) (s : State) : Host.Outcome State Fault Refusal :=
  .next (if s.portAlive page && s.alive page then s.sideService page hits else s)

/-! Release (R340, R350). -/

/-- A program flit without a destination is lost (R221); the router and port of such an event are free values. -/
def State.flitLost (s : State) (d : Nat) : State :=
  let x := s.draw
  let y := x.1.draw
  y.1.meshEvent d 1 (x.2 % 64) (y.2 % 5)

/-- A released flit on E, W or V: its request word to the controllers, its data to the destination of the slot plan. -/
def State.flitReleased (s : State) (d port c : Nat) (f : WireFlit) : State :=
  let dest := (s.slotPlan d port c).2
  let s : State := match f.req with
    | some (w, i) => { s with nbq := s.nbq ++ [⟨d, port, c, w, f.lines, i⟩] }
    | none => s
  let isWr := match f.req with | some (w, _) => decide (bits w 1 1 = 1) | none => false
  if f.kind = .prog && !isWr then
    if dest = 31 then s.flitLost d
    else { s with arrivals := s.arrivals ++ [⟨d, port, dest, c, f.lines⟩] }
  else if dest = 31 || !(s.od d).phaseOn || !progSlot c then s
  else
    let x := s.draw
    let y := x.1.draw
    y.1.meshEvent d 2 (x.2 % 64) (y.2 % 5)

/-- A scheduled release of a port that is down while its die runs: a flit of zeros with every line poisoned (R350). -/
def State.downRelease (s : State) (d port : Nat) : State :=
  let c := s.clk.cc
  let dest := (s.slotPlan d port c).2
  let dup := s.arrivals.any fun a => decide (a.die = d) && decide (a.port = port) && decide (a.cyc = c)
  if decide (s.prog d = stRunning) && decide (dest ≠ 31) && !(decide (port = 3) && decide (dest = 16)) && !dup then
    { s with arrivals := s.arrivals ++ [⟨d, port, dest, c, noData (s.flitLines (wlPg d port))⟩] }
  else s

/-- PROGRAM_FLIT_RELEASE (R340): the oldest buffered flit is released 12 cycles after it was sent, 18 on X. While the die runs and
the port is down, a poisoned flit is delivered in its place (R350). -/
def execProgramFlitRelease (page : Nat) (s : State) : Host.Outcome State Fault Refusal :=
  .next (let d := dieOf page
    let w := s.wle page
    let port := pageOf page - 0x40
    if isH page then s
    else if d < 8 && !(s.portAlive page && s.alive page) then s.downRelease d port
    else if !timedEnd page || !s.alive page || !s.portAlive page then s
    else match w.rx with
      | [] => s
      | f :: r =>
        let c := f.cc + (if isWeft d then 18 else 12)
        let s := (s.toCc c).setWle page { w with rx := r }
        if isWeft d then
          -- the Weft die takes payloads of code 16 only (R338)
          if f.kind = .prog then
            if f.tags.isEmpty then s.inc page R.WL_SLIP_CNT
            else let w := s.wle page; s.setWle page { w with xbuf := w.xbuf ++ [f.tags] }
          else s
        else s.flitReleased d port c f)

/-! Training phases (R342, R343). -/

/-- The width token (R343). -/
def State.wlToken (s : State) (p : Nat) : Nat :=
  let w := s.wle p
  let w8 := s.bit p R.WL_STAT_W8
  let peer := (walePeer p).elim 0 dieOf
  let hash := (List.range 2).foldl (fun a dir => (List.range (s.wlMods p)).foldl (fun a i => (List.range 4).foldl (fun a k =>
      let m := s.wlBase p + i
      let wire := w.repair dir m k
      -- a receive repair lies in the direction from the peer
      let fromLow := if dir = 0 then decide (peer < dieOf p) else decide (dieOf p < peer)
      if wire = 0x7F then a else a + (wire + 1) * (2 * k + 1) + 13 * m + 97 * (if fromLow then 0 else 1)) a) a) 0
  (if w8 then 2 ^ 15 else 0) + (if w8 && s.bit p R.WL_STAT_HALF then 2 ^ 14 else 0) + hash % 256 * 64 + w.gen % 64

/-- Assign bye-wires to failed wires of the receive direction (R333, R342); none where a module would need a fifth, or one that failed itself
(DESIGN CHOICE, log entry 71). -/
def assignRepairs (dead : List (Nat × Nat)) (w : WlEnd) : List (Nat × Nat) → Option WlEnd
  | [] => some w
  | (m, wire) :: r =>
    let k := w.repairsIn 0 m
    if 4 ≤ k || dead.contains (m, 3 - k) then none else assignRepairs dead (w.setRepair 0 m k wire) r

/-- Wires of a module: D0-D63, C0-C7, B0-B3 (Table 10-1). -/
def wireCount : Nat := 76

/-- Whether T3 tests a wire (R342): none that a kept repair replaces, nor the bye-wire it uses. -/
def WlEnd.tested (w : WlEnd) (m wire : Nat) : Bool :=
  !((List.range 4).any fun k => decide (w.repair 0 m k ≠ 0x7F) && (decide (w.repair 0 m k = wire) || decide (wire = 72 + (3 - k))))

/-- The requested modules of a training (R342). -/
def State.askMods (s : State) (p : Nat) : List Nat :=
  if isH p then [0, 1]
  else if s.bit p R.WL_CTRL_WIDTH8 then (List.range 8).map fun i => (if s.bit p R.WL_CTRL_HALF then 8 else 0) + i
  else List.range 16

/-- T3 (R342): a tested wire of a requested module fails with an error at the centre or a margin below WL_EYE_MIN. `found` names wires apart; the others
of module m have no error and the margin `eyes` m. WL_EYE takes each module's smallest margin. -/
def State.eyeTest (s : State) (p : Nat) (found : List WireTest) (eyes : List Nat) : State :=
  let w := s.wle p
  let margin (m : Nat) : Nat := (found.filter fun t => decide (t.module = m) && w.tested m t.wire).foldl (fun a t => min a t.margin) (eyes.getD m 0)
  let old (m : Nat) : Nat := bits (s.rd p (Fld.idx R.WL_EYE (m / 4))) (8 * (m % 4)) 8
  let eye (m : Nat) : Nat := if (s.askMods p).contains m then margin m % 256 else old m
  let fails (m wire : Nat) : Bool := w.tested m wire && match found.find? fun t => decide (t.module = m) && decide (t.wire = wire) with
    | some t => t.err || decide (t.margin < s.rd p R.WL_EYE_MIN_MIN)
    | none => decide (eyes.getD m 0 < s.rd p R.WL_EYE_MIN_MIN)
  let s := (List.range 4).foldl (fun s i => s.wr p (Fld.idx R.WL_EYE i) ((List.range 4).foldl (fun a k => a + eye (4 * i + k) * 256 ^ k) 0)) s
  s.setWle p { w with failed := (s.askMods p).flatMap fun m => ((List.range wireCount).filter (fails m)).map fun x => (m, x) }

/-- T4 (R342): the map of the requested width, or none where a module or the pool runs out. Kept repairs count. -/
def State.mapRepairs (s : State) (p : Nat) : Option WlEnd :=
  let w := s.wle p
  let n := s.wlMods p
  let dead := (w.failed.filter fun f => decide (72 ≤ f.2)).map fun f => (f.1, f.2 - 72)
  match assignRepairs dead w (w.failed.filter fun f => decide (f.2 < 72)) with
  | none => none
  | some w' =>
    let used := ((List.range n).map fun i => w'.repairsIn 0 (s.wlBase p + i)).sum
    if 4 * n < used + dead.length + sbWidth n then none else some { w' with failed := [] }

/-- TRAINING_PHASE_DONE (R342, Table 10-9): the present phase ends. T3 gives what the test of each wire found, T5 the slack. -/
def State.phaseDone (s : State) (p : Nat) (found : List WireTest) (eyes : List Nat) (slack : Nat) : State :=
  let fail (s : State) : State := (s.wlHold p).raise p 7
  match s.rd p R.WL_STAT_PHASE with
  | 1 =>
    let s := if wlLeads p then s else match walePeer p with
      | some q => s.setWle p { s.wle p with gen := (s.wle q).gen }
      | none => s
    s.wr p R.WL_STAT_PHASE 2
  | 2 => s.wr p R.WL_STAT_PHASE 3
  | 3 => (s.eyeTest p found eyes).wr p R.WL_STAT_PHASE 4
  | 4 =>
    let w8 := s.bit p R.WL_CTRL_WIDTH8 && !isH p
    let s := (s.wb p R.WL_STAT_W8 w8).wb p R.WL_STAT_HALF (w8 && s.bit p R.WL_CTRL_HALF)
    match s.mapRepairs p with
    | none => fail s
    | some w' =>
      let s := s.setWle p w'
      -- the partner applies the map to its transmitter
      let s := match walePeer p with
        | some q =>
          let v := s.wle q
          s.setWle q { v with repairs := (List.range 64).foldl (fun m i =>
            put (fun _ => 0x7F) m (64 + i) (look (fun _ => 0x7F) w'.repairs i)) v.repairs }
        | none => s
      s.wr p R.WL_STAT_PHASE 5
  | 5 =>
    let s := s.wr p R.WL_STAT_SLACK slack
    if slack < 1 then fail s
    else
      let s := ((s.wr p R.WL_STAT_STATE 2).wr p R.WL_STAT_PHASE 0).wb p R.WL_CTRL_RETRAIN false
      let w := s.wle p
      -- TRAIN slots of the entry to this round are behind
      let s := s.setWle p { w with asked := false, wire := w.wire.filter fun f => decide (f.kind ≠ .train) }
      s.wr p R.WL_TOKEN_LOCAL (s.wlToken p)
  | _ => s
def execTrainingPhaseDone (page : Nat) (found : List WireTest) (eyes : List Nat) (slack : Nat) (s : State) :
    Host.Outcome State Fault Refusal :=
  .next (if s.alive page && s.rd page R.WL_STAT_STATE = 1 && (match walePeer page with
      | some q => decide (s.rd q R.WL_STAT_STATE = 1) || decide (s.rd q R.WL_STAT_STATE = 2)
      | none => false) then s.phaseDone page found eyes slack else s)

/-- WALE_TRAIN_FLIT (R345): KIND TRAIN received in ALIVE or WIDTH sends the end into TRAIN. -/
def execWaleTrainFlit (page : Nat) (s : State) : Host.Outcome State Fault Refusal :=
  let w := s.wle page
  .next (match w.wire with
    | f :: r => if f.kind = .train then (s.setWle page { w with wire := r }).wlFollow page else s
    | [] => s)

/-- CLOCK_LOSS (R341): the forwarded clock lost for 0.5 µs in ALIVE or WIDTH. -/
def execClockLoss (page : Nat) (s : State) : Host.Outcome State Fault Refusal :=
  .next (s.wlFollow page)

/-- WALE_TOKEN_FLIT (R341, R346): `n` consecutive partner tokens compared with the local one; 64 equal ones give ALIVE, a differing
one HOLD at both ends. -/
def execWaleTokenFlit (page n : Nat) (s : State) : Host.Outcome State Fault Refusal :=
  .next (match walePeer page with
    | none => s
    | some q =>
      let pst := s.rd q R.WL_STAT_STATE
      if s.alive page && s.rd page R.WL_STAT_STATE = 2 && (pst = 2 || pst = 3) && 0 < n then
        let tok := s.wlToken q
        let s := s.wr page R.WL_TOKEN_REMOTE tok
        if tok = s.rd page R.WL_TOKEN_LOCAL then
          let w := s.wle page
          if 64 ≤ w.matched + n then
            let s := s.setWle page { w with matched := 64, xcredit := 4, xbuf := [], owed := 0, rx := [], off := 0 }
            s.wr page R.WL_STAT_STATE 3
          else s.setWle page { w with matched := w.matched + n }
        else
          let s := [page, q].foldl (fun s e => s.addSat e R.WL_TRAIN_CNT_MISMATCH 1) s
          (((s.wlHold page).raise page 8).wlHold q).raise q 8
      else s)

/-- WALE_TRAIN_FAIL (R341): WL_TRAIN_TMO expires in TRAIN or WIDTH. -/
def execWaleTrainFail (page : Nat) (s : State) : Host.Outcome State Fault Refusal :=
  let st := s.rd page R.WL_STAT_STATE
  .next (if s.alive page && (st = 1 || st = 2) then
    ((s.toTick ((s.wle page).entered + max 1 (s.rd page R.WL_TRAIN_TMO_US) * usTicks)).wlHold page).raise page 7
    else s)

/-- HOLD_PATTERN (R341): the partner's HOLD pattern for 1 µs. -/
def execHoldPattern (page : Nat) (s : State) : Host.Outcome State Fault Refusal :=
  let st := s.rd page R.WL_STAT_STATE
  .next (if s.alive page && (st = 1 || st = 2 || st = 3) && (match walePeer page with
      | some q => decide (s.rd q R.WL_STAT_STATE = 4)
      | none => false) then s.wlHold page else s)

/-- WL_REPAIR_DATA written where it may take effect (R348, R353). A repair past the direction's largest number takes no effect (R333; DEDUCED, log
entry 71). -/
def State.repairWrite (s : State) (p wire : Nat) : State :=
  let w := s.wle p
  let dir := s.rd p R.WL_REPAIR_SEL_DIR
  let m := s.rd p R.WL_REPAIR_SEL_MODULE
  let k := s.rd p R.WL_REPAIR_SEL_ENTRY
  let full := decide (wire % 128 ≠ 0x7F) && decide (w.repair dir m k = 0x7F) && decide (maxRepairs (s.wlMods p) ≤ s.repairsAll p dir)
  if full then s else s.setWle p (w.setRepair dir m k (wire % 128))

/-- Whether an unstaged write of WL_REPAIR_DATA takes effect: OFF, TRAIN or HOLD (R353). -/
def State.repairFree (s : State) (p : Nat) : Bool :=
  let st := s.rd p R.WL_STAT_STATE
  decide (st = 0) || decide (st = 1) || decide (st = 4)

/-- WL_CNT_CLR (Table 10-12). -/
def State.wlCntClr (s : State) (p : Nat) : State :=
  let s := s.setWle p { s.wle p with wires := [] }
  s.zero p [R.WL_CE_CNT, R.WL_UE_CNT, R.WL_SB_CE_CNT, R.WL_SB_UE_CNT, R.WL_WIRE_CNT, R.WL_SLIP_CNT, R.WL_TRAIN_CNT_ROUNDS,
    R.WL_TRAIN_CNT_MISMATCH, R.WL_TEST_ERR]

end Sys2Proof.Machine
end

