-- ==== Sys2Proof/Machine/Seber.lean ====
section
/-! DEFINITION. The Seber link layer (12_seber_link.md): sub-links, cells, loss and replay, credits, lane maps and
retirement. A sub-link is named by its Weft die 0-7 and its wavelength 1-15. -/

namespace Sys2Proof.Machine

/-! Lanes. -/

def laneZero : Nat → Lane := fun _ => {}
/-- Lane (f, k, DIR) of a Weft die (R355). -/
def laneKey (w f k dir : Nat) : Nat := ((w * 16 + f) * 16 + k) * 2 + dir
def State.lane (s : State) (w f k dir : Nat) : Lane := look laneZero s.lanes (laneKey w f k dir)
def State.setLane (s : State) (w f k dir : Nat) (x : Lane) : State := { s with lanes := put laneZero s.lanes (laneKey w f k dir) x }

/-- A lane that carries its MODE, its ring loop running or its heater code held (Table 11-2). -/
def Lane.ok (x : Lane) : Bool := decide (x.st = .locked) || decide (x.st = .frozen)

/-! Sub-links. -/

def sbDark : Nat := 0
def sbSeek : Nat := 1
def sbLocked : Nat := 2
def sbAlive : Nat := 3
def sbDraining : Nat := 4

def State.sbSt (s : State) (w k : Nat) : Nat := s.rd (subPg w k) R.SB_STAT_STATE

/-- Whether a Weft die and wavelength name a sub-link whose pages are alive. -/
def State.sbOk (s : State) (w k : Nat) : Bool :=
  decide (w < 8) && decide (0 < k) && decide (k < 16) && s.alive (sbPg w) && s.alive (subPg w k)

/-- Whether the sub-link takes cells: EN is set and the state is neither DARK nor FAILED (R391). -/
def State.sbHears (s : State) (w k : Nat) : Bool :=
  s.sbOk w k && s.bit (sbPg w) R.SB_COM_CTRL_EN && decide (s.sbSt w k ≠ sbDark) && decide (s.sbSt w k ≠ sbFailed)

/-- LOCKED, ALIVE or DRAINING: trailers count. -/
def State.sbUp (s : State) (w k : Nat) : Bool :=
  s.sbHears w k && decide (s.sbSt w k ≠ sbSeek)

/-- The wavelength on which a sub-link receives (R384). -/
def rxWl (k : Nat) : Nat := (16 - k) % 16

def State.wired (s : State) (w : Nat) : Bool := s.bit (sbPg w) R.SB_COM_CTRL_CLUSTER && decide (4 ≤ w)

/-- The peer package of a sub-link (Table 12-1). -/
def State.peerPkg (s : State) (w k : Nat) : Nat :=
  let p := s.pkgId
  if s.wired w then (p / 16 + k) % 16 * 16 + p % 16 else p / 16 * 16 + (p % 16 + k) % 16

/-- Whether that package is there (R386). -/
def State.hasPeer (s : State) (w k : Nat) : Bool :=
  let q := s.peerPkg w k
  if s.wired w then decide (q / 16 < s.rd (sbPg w) R.SB_COM_ID_POD_COUNT) else decide (q % 16 < s.rd (sbPg w) R.SB_COM_ID_POD_SIZE)

/-- A 16-bit mask of the fibres that satisfy `f`. -/
def fibMask (f : Nat → Bool) : Nat := (List.range 16).foldl (fun a i => if f i then a + 2 ^ i else a) 0

/-- Transmit lanes LOCKED; receive lanes LOCKED with SYNC_OK (RXOK). A FROZEN lane is not LOCKED (R391, R393, R409). -/
def State.txOk (s : State) (w k : Nat) : Nat := fibMask fun f => decide ((s.lane w f k 0).st = .locked)
def State.rxOk (s : State) (w k : Nat) : Nat :=
  fibMask fun f => decide ((s.lane w f (rxWl k) 1).st = .locked) && (s.lane w f (rxWl k) 1).sync

def sbLaneZero : Nat → SbLane := fun _ => {}
def SubLink.lane' (x : SubLink) (f : Nat) : SbLane := look sbLaneZero x.lanes f
def SubLink.putLane (x : SubLink) (f : Nat) (l : SbLane) : SubLink := { x with lanes := put sbLaneZero x.lanes f l }

def State.txMap (s : State) (w k : Nat) : Nat := s.rd (subPg w k) R.SB_MAP_TX
def State.rxMap (s : State) (w k : Nat) : Nat := s.rd (subPg w k) R.SB_MAP_RX

/-- SB_LANE_STAT of a lane (Table 12-11). -/
def State.sbLaneStat (s : State) (w k f : Nat) : Nat :=
  let l := (s.sub w k).lane' f
  (if (s.txMap w k).testBit f then 1 else 0) + (if (s.rxMap w k).testBit f then 2 else 0) + (if l.retired then 4 else 0)
    + (if l.warn then 8 else 0) + l.reason % 8 * 16 + l.cnt % 65536 * 65536

/-- A detection of a sub-link with its detail words (Table 14-2); `f` is the lane concerned. -/
def State.sbRaise (s : State) (w k src : Nat) (f : Option Nat) : State :=
  let p := subPg w k
  let last := match f with
    | some f => s.sbLaneStat w k f + f % 16 * 4096
    | none => 0
  let rseq := s.rd p R.SB_RSEQ_CUMACK + (s.sub w k).pool.length % 65536 * 65536
  s.raiseX p src last (s.word p 0x110 + 2 ^ 32 * rseq)

/-- A lane map takes effect: MODE of its lanes (R359), and SB_EMPTY where it becomes empty on a running sub-link (R410). -/
def State.setMap (s : State) (w k : Nat) (tx : Bool) (m : Nat) : State :=
  let p := subPg w k
  let s := s.wr p (if tx then R.SB_MAP_TX else R.SB_MAP_RX) m
  let s := (List.range 16).foldl (fun s f =>
    if tx then s.putBit (fibPg w f) R.WF_FIB_MODE_TX k (m.testBit f) else s.putBit (fibPg w f) R.WF_FIB_MODE_RX (rxWl k) (m.testBit f)) s
  let run := decide (s.sbSt w k = sbAlive) || decide (s.sbSt w k = sbDraining)
  let gone := decide (m = 0) && run
  let x := s.sub w k
  let since (o : Option Nat) : Option Nat := if gone then some (o.getD s.clk.tick) else none
  let s := if tx then (s.setSub w k { x with txEmptyAt := since x.txEmptyAt }).wb p R.SB_STAT_TXEMPTY gone
    else (s.setSub w k { x with rxEmptyAt := since x.rxEmptyAt }).wb p R.SB_STAT_RXEMPTY gone
  if gone then s.sbRaise w k 8 none else s

/-- Discard what the sub-link holds, counting it; the engine no longer waits for what is gone (R296). -/
def State.sbDiscard (s : State) (w k : Nat) : State :=
  let x := s.sub w k
  let s := s.addSat (subPg w k) R.SB_DISCARD_CNT (x.queue.length + x.replay.length + x.pool.length)
  let s := osDies.foldl (fun s d => let c := s.ce d; s.setCe d { c with unacked := put natZero c.unacked (w * 16 + k) 0 }) s
  s.setSub w k { lanes := x.lanes.map fun l => (l.1, { l.2 with h := none, ruleOut := false }), heard := x.heard, misAt := x.misAt,
                 trainAt := s.clk.tick, entered := s.clk.tick }

/-- The sub-link's registers of sequence and epoch at 0. -/
def State.sbZero (s : State) (w k : Nat) : State :=
  s.zero (subPg w k) [R.SB_EPOCH_TX, R.SB_EPOCH_RX, R.SB_TSEQ_NEXT, R.SB_TSEQ_OLDEST, R.SB_RSEQ_CUMACK, R.SB_STAT_LS_BUSY]

/-- Enter DARK, SEEK or FAILED: no lane carries cells. -/
def State.sbEnter (s : State) (w k st : Nat) : State :=
  let s := s.wr (subPg w k) R.SB_STAT_STATE st
  let s := (s.setMap w k true 0).setMap w k false 0
  let x := s.sub w k
  s.setSub w k { x with entered := s.clk.tick, trainAt := s.clk.tick, good := 0, change := none, untest := 0 }

def State.sbDarken (s : State) (w k : Nat) : State := ((s.sbDiscard w k).sbEnter w k sbDark).sbZero w k

/-- DARK leaves for SEEK once a lane each way is LOCKED; SEEK falls back where one way has none (Table 12-4). -/
def State.sbWake (s : State) (w k : Nat) : State :=
  let can := s.sbOk w k && s.bit (sbPg w) R.SB_COM_CTRL_EN && s.hasPeer w k && decide (s.txOk w k ≠ 0) && decide (s.rxOk w k ≠ 0)
  if s.sbSt w k = sbDark && can then s.sbEnter w k sbSeek
  else if s.sbSt w k = sbSeek && !can then s.sbEnter w k sbDark else s

/-! Cells on light (R387-R389). -/

/-- One byte of CRC-32C, reflected. -/
def crc32cByte (crc b : Nat) : Nat :=
  (List.range 8).foldl (fun c _ => if c % 2 = 1 then (c / 2) ^^^ 0x82F63B78 else c / 2) (crc ^^^ b)

def crc32c (bs : List Nat) : Nat := (bs.foldl crc32cByte 0xFFFFFFFF) ^^^ 0xFFFFFFFF

def leBytes (n v : Nat) : List Nat := (List.range n).map fun i => v / 256 ^ i % 256

def cellHeader (c : Cell) : Nat :=
  c.off % 2 ^ 16 + (if c.fin then 2 ^ 16 else 0) + (if c.relay then 2 ^ 17 else 0) + (if c.poi then 2 ^ 18 else 0) + c.rdie % 8 * 2 ^ 19
    + c.epoch % 16 * 2 ^ 22 + c.dst % 256 * 2 ^ 26 + c.src % 256 * 2 ^ 34 + c.typ % 16 * 2 ^ 42 + c.cls % 4 * 2 ^ 46
    + c.seq % 2 ^ 16 * 2 ^ 48

/-- Payload bit vector as a number: 2,048 bits. -/
def cellBits (c : Cell) : Nat := (List.range 8).foldl (fun a i => a + (c.lines.getD i ⟨0#256, false⟩).data.toNat * 2 ^ (256 * i)) 0

/-- Eight lines from a number of 2,048 bits. -/
def payLines (v : Nat) : List FLine := (List.range 8).map fun i => ⟨BitVec.ofNat 256 (v / 2 ^ (256 * i)), false⟩

/-- The CRC of a cell (R389): bytes 0-263, then 268-271. -/
def cellSum (c : Cell) : Nat :=
  crc32c (leBytes 8 (cellHeader c) ++ (List.range 8).flatMap (fun i => lineBytes (c.lines.getD i ⟨0#256, false⟩)) ++ leBytes 2 c.ack ++ leBytes 2 c.credit)

/-- The 34 blocks of 64b/66b that carry a cell, sync header and payload; only block 0 has the control header (R387). -/
def cellBlocks (c : Cell) : List (Nat × Nat) :=
  let word (v : Nat) (n : Nat) : List Nat := (List.range n).map fun i => v / 2 ^ (64 * i) % 2 ^ 64
  let tail := c.crc % 2 ^ 32 + c.ack % 2 ^ 16 * 2 ^ 32 + c.credit % 2 ^ 16 * 2 ^ 48
  (word (cellHeader c) 1 ++ word (cellBits c) 32 ++ [tail]).zipIdx.map fun x => (if x.2 = 0 then 0b10 else 0b01, x.1)

/-- Classes in trailer rotation: Sync, Link, Memory, Bulk. -/
def crRotation : List Nat := [2, 3, 1, 0]

/-- A cell leaves on a lane with the trailer of this moment. -/
def State.sbEmit (s : State) (w k f : Nat) (c : Cell) : State :=
  let x := s.sub w k
  let l := x.lane' f
  let cls := crRotation.getD (l.rot % 4) 0
  let c := { c with epoch := s.rd (subPg w k) R.SB_EPOCH_TX, ack := s.rd (subPg w k) R.SB_RSEQ_CUMACK,
                    credit := cls * 2 ^ 14 + x.rxLim.getD cls 0 % 2 ^ 14 }
  let s := s.setSub w k (x.putLane f { l with rot := (l.rot + 1) % 4 })
  { s with out := { s.out with cells := s.out.cells ++ [(w * 16 + k, f, { c with crc := cellSum c })] } }

/-- The next lane of a map after lane `f`, wrapping (R396). -/
def nextLane (m f : Nat) : Option Nat := ((List.range 16).map fun i => (f + 1 + i) % 16).find? fun i => m.testBit i

/-- An unsequenced cell of this end. -/
def State.mkCell (s : State) (w k typ seq pay : Nat) : Cell :=
  { typ := typ, cls := 3, src := s.pkgId, dst := s.peerPkg w k, rdie := w, seq := seq, lines := payLines pay }

/-- Send an unsequenced cell on the next lane of the transmit map. -/
def State.sbSend (s : State) (w k typ seq pay : Nat) : State :=
  match nextLane (s.txMap w k) (s.sub w k).lane with
  | none => s
  | some f => s.sbEmit w k f (s.mkCell w k typ seq pay)

def State.sbNext (s : State) (w k : Nat) : Nat := s.rd (subPg w k) R.SB_TSEQ_NEXT
def State.sbOld (s : State) (w k : Nat) : Nat := s.rd (subPg w k) R.SB_TSEQ_OLDEST
def State.sbCum (s : State) (w k : Nat) : Nat := s.rd (subPg w k) R.SB_RSEQ_CUMACK

/-- Sequence distance (R394). -/
def seqDist (a b : Nat) : Nat := (b + 65536 - a) % 65536

/-- The payload of an ACK: which cells past CUMACK are held. -/
def State.ackBits (s : State) (w k : Nat) : Nat :=
  let cum := s.sbCum w k
  (s.sub w k).got.foldl (fun a q => let d := seqDist cum q; if 0 < d && d ≤ 2048 then a ||| 2 ^ (d - 1) else a) 0

/-- The limits of a CREDIT payload. -/
def SubLink.creditBits (x : SubLink) : Nat := (List.range 4).foldl (fun a c => a + x.rxLim.getD c 0 % 2 ^ 14 * 2 ^ (16 * c)) 0

/-- Retransmissions: each with its original number, on the next lane of the map that is LOCKED, in a rotation of their own (R396, R398). `ues` names
stored copies with an uncorrectable error, `ces` counts corrected words (R400). -/
def State.sbResend (s : State) (w k : Nat) (qs : List Nat) (ues : List Nat) (ces : Nat) : State :=
  let s := if ces = 0 then s else (s.addSat (sbPg w) R.SB_MEM_CE_CNT ces).raise (sbPg w) 2
  let m := s.txMap w k &&& s.txOk w k
  if m = 0 then s
  else
    let r := ((s.sub w k).replay.filter fun r => qs.contains r.cell.seq).foldl (fun (x : State × Nat) r =>
      let f := (nextLane m x.2).getD 0
      let bad := ues.contains r.cell.seq
      let s := if bad then x.1.raise (sbPg w) 3 else x.1
      let s := s.sbEmit w k f { r.cell with poi := r.cell.poi || bad }
      (s.inc (subPg w k) R.SB_RETX_CNT, f)) (s, (s.sub w k).lane)
    let s := r.1
    let x := s.sub w k
    s.setSub w k { x with replay := x.replay.map fun r => if qs.contains r.cell.seq then { r with sent := s.clk.tick } else r }

/-! TRAIN (R391-R393). -/

/-- Ticks of SB_SEEK_INT. -/
def State.seekInt (s : State) (w : Nat) : Nat := max 1 (min 1000 (s.rd (sbPg w) R.SB_SEEK_INT_MS)) * msTicks

def State.sbHeard (s : State) (w k : Nat) : Bool :=
  match (s.sub w k).heard with
  | some t => decide (s.clk.tick ≤ t + 3 * s.seekInt w)
  | none => false

/-- The TRAIN payload (Table 12-5). -/
def State.trainBits (s : State) (w k : Nat) : Nat :=
  s.pkgId + (w + 16 * k) * 2 ^ 8 + ((if s.sbHeard w k then 1 else 0) + (if s.bit (sbPg w) R.SB_COM_CTRL_CLUSTER then 2 else 0)) * 2 ^ 16
    + s.rd (sbPg w) R.SB_COM_ID_POD_SIZE * 2 ^ 24 + s.rxOk w k * 2 ^ 32 + s.sbGen % 2 ^ 16 * 2 ^ 48

def State.sbTrain (s : State) (w k : Nat) : State :=
  let ok := s.txOk w k
  let s := (List.range 16).foldl (fun s f =>
    if ok.testBit f then s.sbEmit w k f (s.mkCell w k 6 (s.sbNext w k) (s.trainBits w k)) else s) s
  s.setSub w k { s.sub w k with trainAt := s.clk.tick + s.seekInt w }

/-- SEBER_TRAIN_SEND (R391): the next TRAIN of a sub-link in SEEK; a DARK one with a lane each way enters SEEK first. -/
def execSeberTrainSend (weft sub : Nat) (s : State) : Host.Outcome State Fault Refusal :=
  let s := s.sbWake weft sub
  .next (if s.sbHears weft sub && s.sbSt weft sub = sbSeek then (s.toTick (s.sub weft sub).trainAt).sbTrain weft sub else s)

/-- Standing credit by class (Table 12-6). -/
def standing : List Nat := [0, 256, 64, 32]

/-- Entry to LOCKED (R393); the end stays in SEEK where the transmit map would be empty. -/
def State.sbLock (s : State) (w k rxok : Nat) : State :=
  let m := rxok &&& s.txOk w k
  if m = 0 then s
  else
    let s := ((s.wr (subPg w k) R.SB_STAT_STATE sbLocked).sbZero w k).setMap w k true m
    let s := s.setMap w k false (s.rxOk w k)
    let x := s.sub w k
    s.setSub w k { x with txLim := standing, txCnt := [0, 0, 0, 0], rxLim := standing, granted := 0, entered := s.clk.tick, good := 0,
                          lanes := x.lanes.map fun l => (l.1, { l.2 with h := none, ruleOut := false }), oldAt := s.clk.tick }

/-! Receiving. -/

/-- The highest number a lane implies (R397); a number already asked for is a retransmission. -/
def SubLink.highest (x : SubLink) (f : Nat) (c : Cell) : SubLink :=
  let l := x.lane' f
  let set (h : Nat) : SubLink := x.putLane f { l with h := some h }
  if c.typ = 1 || c.typ = 2 then x
  else if c.typ = 0 || c.typ = 7 || c.typ = 0xA then
    if x.nakd.contains c.seq then x
    else match l.h with
      | some h => if seqDist h c.seq < 32768 then set (c.seq % 65536) else x
      | none => set (c.seq % 65536)
  else set ((c.seq + 65535) % 65536)

/-- The peer has everything before `a` (R394, R399). -/
def State.sbAcked (s : State) (w k a : Nat) : State :=
  let old := s.sbOld w k
  let n := seqDist old (a % 65536)
  if n = 0 || seqDist old (s.sbNext w k) < n then s
  else
    let x := s.sub w k
    let gone := x.replay.filter fun r => decide (seqDist old r.cell.seq < n)
    let s := (gone.filter Replay.ce).foldl (fun s r =>
      let c := s.ce r.cell.rdie
      s.setCe r.cell.rdie { c with unacked := put natZero c.unacked (w * 16 + k) (look natZero c.unacked (w * 16 + k) - 1) }) s
    let s := s.setSub w k { x with replay := x.replay.filter (fun r => !(decide (seqDist old r.cell.seq < n))), oldAt := s.clk.tick,
                                   peerHeld := x.peerHeld.filter fun q => !(decide (seqDist old q < n)) }
    s.wr (subPg w k) R.SB_TSEQ_OLDEST a

/-- A credit limit of the peer (R403). -/
def SubLink.creditIn (x : SubLink) (cls lim : Nat) : SubLink :=
  let d := (lim % 2 ^ 14 + 2 ^ 14 - x.txLim.getD cls 0) % 2 ^ 14
  if 1 ≤ d && d ≤ 8191 then { x with txLim := x.txLim.set cls (lim % 2 ^ 14) } else x

/-- The numbers the loss rule calls missing (R397). -/
def State.missing (s : State) (w k : Nat) : List Nat :=
  let x := s.sub w k
  let m := s.rxMap w k
  let cum := s.sbCum w k
  let hs := ((List.range 16).filter fun f => m.testBit f && !(x.lane' f).ruleOut).map fun f => (x.lane' f).h
  if hs.isEmpty || hs.any Option.isNone then []
  else
    let ds := (hs.filterMap id).map fun h => let d := seqDist cum h; if d < 32768 then d else 0
    let n := ds.foldl min 65536
    ((List.range (min n 4096)).map fun i => (cum + i) % 65536).filter fun q => !(x.got.contains q)

/-- A newly missing number brings a NAK that names all (R397). -/
def State.sbLoss (s : State) (w k : Nat) : State :=
  let ms := s.missing w k
  let x := s.sub w k
  match ms with
  | [] => s
  | q :: r =>
    if ms.all x.nakd.contains then s
    else
      let s := s.setSub w k { x with nakd := ms }
      let bm := r.foldl (fun a y => let d := seqDist q y; if 0 < d && d ≤ 2048 then a ||| 2 ^ (d - 1) else a) 0
      (s.sbSend w k 2 q bm).inc (subPg w k) R.SB_NAK_CNT_SENT

/-- What every received cell does (R389, R390, R397): whether it is good, and the state with its trailer taken. -/
def State.sbHear (s : State) (w k f : Nat) (c : Cell) : State × Bool :=
  if !s.sbHears w k || decide (16 ≤ f) then (s, false)
  else if c.crc ≠ cellSum c then
    let x := s.sub w k
    let l := x.lane' f
    let x := if (s.rxMap w k).testBit f then x.putLane f { l with now := min (l.now + 1) 65535 } else x
    (((s.setSub w k { x with good := 0 }).inc (subPg w k) R.SB_CRC_CNT).sbRaise w k 0 (some f), false)
  else if s.sbUp w k then
    let s := s.sbAcked w k c.ack
    let x := s.sub w k
    let x := ((x.creditIn (c.credit / 2 ^ 14) c.credit)).highest f c
    let x := if c.epoch = s.rd (subPg w k) R.SB_EPOCH_RX then { x with untest := 0 } else x
    -- 64 consecutive cells bring ALIVE, of the types IDLE, ACK and CREDIT (Table 12-4)
    (s.setSub w k (if [1, 3, 5].contains c.typ then x else { x with good := 0 }), true)
  else (s, true)

/-- A received cell of one type: `g` acts on a good one, then the loss rule runs. -/
def State.sbRx (s : State) (w k f : Nat) (c : Cell) (ts : List Nat) (g : State → State) : State :=
  match s.sbHear w k f c with
  | (s, false) => s
  | (s, true) =>
    let s := if ts.contains c.typ then g s else s
    if s.sbUp w k then s.sbLoss w k else s

/-! Delivery (R402-R405). -/

/-- A slot of a class is released: a credit for the peer, or Bulk granted less (R403, R405). -/
def SubLink.release (x : SubLink) (h : Held) : SubLink :=
  let x := { x with pool := x.pool.erase h }
  if h.cell.cls = 0 then { x with granted := x.granted - 1 }
  else { x with rxLim := x.rxLim.set h.cell.cls ((x.rxLim.getD h.cell.cls 0 + 1) % 2 ^ 14) }

/-- The next cell of a class to be delivered: the oldest, once every number before it has arrived. -/
def State.nextHeld (s : State) (w k cls : Nat) : Option Held :=
  let cum := s.sbCum w k
  let hs := (s.sub w k).pool.filter fun h => decide (h.cell.cls = cls)
  let best := hs.foldl (fun (b : Option Held) h => match b with
    | none => some h
    | some y => if seqDist y.seq cum < seqDist h.seq cum && seqDist h.seq cum < 32768 then some h else some y) none
  best.filter fun h => decide (0 < seqDist h.seq cum) && decide (seqDist h.seq cum < 32768)

/-- Whether a held cell goes on through the package: a relayed cell, or one for another Osier die (R415, R416). -/
def forwards (w : Nat) (c : Cell) : Bool := decide (c.typ = 7) || decide (c.rdie ≠ w)

/-- Messages from package `q` that have left the receive pools for the engine of die `d`, and not reached it whole. -/
def State.endsOnWay (s : State) (d q : Nat) : Nat :=
  let x := s.wle (wlPg d 3)
  let ends (w : SideWhat) : Bool := match w with
    | .cell c => decide (c.cls = 0) && decide (c.dst = s.pkgId) && decide (c.rdie = d) && decide (c.src = q) && c.fin
    | _ => false
  ((x.wire.flatMap WireFlit.tags ++ x.xbuf.flatten).filter fun t => decide (t.pkg = q) && t.last).length
    + ((s.wl.flatMap fun e => e.2.side.map SideFlit.what ++ e.2.sideIn.map SideFlit.what ++ e.2.wire.map WireFlit.what).filter ends).length

/-- Whether the engine of die `d` takes a payload of package `q` now, `n` more messages from it being on their way: a message whose receive is not
posted waits in the receive pool (R283); an engine that drops takes all (R296). -/
def State.admits (s : State) (d q n : Nat) : Bool :=
  s.ceDrops d || decide (look natZero (s.ce d).messages q + s.endsOnWay d q + n < look natZero (s.ce d).posted q)

/-- Whether a cell may leave the pool: a Bulk cell for an engine of this package once that engine admits it. -/
def State.mayGo (s : State) (c : Cell) : Bool := decide (c.typ = 7) || decide (c.cls ≠ 0) || s.admits c.rdie c.src 0

/-- Move cells that are due into the forward queue, while it has room. -/
def State.sbForward (s : State) (w k : Nat) : Nat → State
  | 0 => s
  | n + 1 =>
    match [2, 3, 1, 0].findSome? fun c => (s.nextHeld w k c).filter fun h => forwards w h.cell && s.mayGo h.cell with
    | none => s
    | some h =>
      if 256 ≤ (s.fwdQ w).length then s
      else
        let s := s.setSub w k ((s.sub w k).release h)
        let die := if h.cell.typ = 7 then 8 + (w - 4) else h.cell.rdie
        ((s.sideQueue (pg (8 + w) 0x40) ⟨0, die, .cell h.cell, h.cell.lines⟩).inc (sbPg w) R.SB_FWD_CNT).sbForward w k n

/-- CUMACK passes what has arrived. -/
def State.sbAdvance (s : State) (w k : Nat) : Nat → State
  | 0 => s
  | n + 1 =>
    let cum := s.sbCum w k
    let x := s.sub w k
    if x.got.contains cum then
      ((s.setSub w k { x with got := x.got.filter (· ≠ cum), nakd := x.nakd.filter (· ≠ cum) }).wr (subPg w k) R.SB_RSEQ_CUMACK (cum + 1)).sbAdvance w k n
    else s

/-- A sequenced cell (R395): stale, duplicate, outside the window, misrouted, or held. A RELAY cell at WF0-WF3, where R415 sends none, is taken as
misrouted (DESIGN CHOICE, log entry 31). -/
def State.sbTake (s : State) (w k : Nat) (c : Cell) : State :=
  let p := subPg w k
  let er := s.rd p R.SB_EPOCH_RX
  let cum := s.sbCum w k
  let d := seqDist cum c.seq
  let x := s.sub w k
  if !(decide (s.sbSt w k = sbAlive) || decide (s.sbSt w k = sbDraining)) then s
  else if c.epoch ≠ er && (c.epoch + 1) % 16 ≠ er then s.inc p R.SB_DUP_CNT
  else if 65536 - 4096 ≤ d || (d < 4096 && x.got.contains c.seq) then s.inc p R.SB_DUP_CNT
  else if 4096 ≤ d then s.sbRaise w k 5 none
  else
    let s := s.setSub w k { x with got := x.got ++ [c.seq % 65536] }
    let s := s.sbAdvance w k 4096
    let stray := (decide (c.typ = 0) && decide (c.dst ≠ s.pkgId)) || (decide (c.typ = 7) && (decide (w < 4) || decide (c.dst / 16 ≠ s.pkgId / 16)))
    if stray then (s.inc (sbPg w) R.SB_MISROUTE_CNT).raise (sbPg w) 4
    else if c.typ = 0xA then s
    else
      let x := s.sub w k
      (s.setSub w k { x with pool := x.pool ++ [⟨c.seq % 65536, c⟩] }).sbForward w k 256

/-! Lane maps (R406-R411). -/

/-- The direction in which this end transmits (R406). -/
def State.txDir (s : State) (w k : Nat) : Nat := if s.pkgId < s.peerPkg w k then 0 else 1

/-- The LANESET payload. -/
def LsOpen.bits (l : LsOpen) : Nat :=
  l.map + l.epoch % 16 * 2 ^ 16 + l.dir * 2 ^ 20 + (if l.commit then 2 ^ 21 else 0) + l.reason * 2 ^ 24

/-- A request or commit goes out on every lane of the transmit map, and of the new one if it is that map (R407). -/
def State.lsSend (s : State) (w k : Nat) (l : LsOpen) : State :=
  let m := s.txMap w k ||| (if l.commit then l.map else 0)
  (List.range 16).foldl (fun s f => if m.testBit f then s.sbEmit w k f (s.mkCell w k 4 (s.sbNext w k) l.bits) else s) s

def State.lsOpen (s : State) (w k : Nat) (l : LsOpen) : State :=
  let s := s.setSub w k { s.sub w k with change := some { l with next := s.clk.tick + 2 * usTicks } }
  (s.wb (subPg w k) R.SB_STAT_LS_BUSY true).lsSend w k l

def State.lsClose (s : State) (w k : Nat) : State :=
  (s.setSub w k { s.sub w k with change := none }).wb (subPg w k) R.SB_STAT_LS_BUSY false

/-- The reason of a change from `m` to `n`. -/
def SubLink.whyOut (x : SubLink) (m n : Nat) : Nat :=
  match (List.range 16).find? fun f => m.testBit f && !n.testBit f with
  | some f => if (x.lane' f).swOut then 3 else if (x.lane' f).retired then 1 else 0
  | none => 2

/-- The receive map this end wants (R409, R412, R413). -/
def State.wantRx (s : State) (w k : Nat) : Nat :=
  let x := s.sub w k
  let ok := s.rxOk w k
  let m := s.rxMap w k
  fibMask fun f => ok.testBit f && !(x.lane' f).swOut &&
    (!(x.lane' f).retired || (m.testBit f && !s.bit (subPg w k) R.SB_CTRL_AUTO_RET))

/-- Start the change a running sub-link needs, one at a time (R408, R409). -/
def State.sbAdjust (s : State) (w k : Nat) : State :=
  let x := s.sub w k
  if !(s.sbUp w k) || decide (s.sbSt w k = sbLocked) || x.change.isSome then s
  else
    let t := s.txMap w k
    let wt := t &&& s.txOk w k &&& fibMask fun f => !(x.lane' f).swOut
    let m := s.rxMap w k
    let wm := s.wantRx w k
    if wt ≠ t then s.lsOpen w k ⟨true, s.txDir w k, wt, (s.rd (subPg w k) R.SB_EPOCH_TX + 1) % 16, x.whyOut t wt, true, 0, 0⟩
    else if wm ≠ m then
      let x := (List.range 16).foldl (fun (x : SubLink) f =>
        if m.testBit f && !wm.testBit f then x.putLane f { x.lane' f with ruleOut := true } else x) x
      (s.setSub w k x).lsOpen w k ⟨false, 1 - s.txDir w k, wm, s.rd (subPg w k) R.SB_EPOCH_RX, x.whyOut m wm, true, 0, 0⟩
    else s

/-- A change is applied at this end: reasons, the last change, counters. A receive lane that left the map is not checked for the test pattern before
the first cell of the new epoch (R407), and one the peer's software dropped is not asked for again while it stays LOCKED (log entry 31). -/
def State.lsApply (s : State) (w k : Nat) (tx : Bool) (l : LsOpen) : State :=
  let p := subPg w k
  let old := if tx then s.txMap w k else s.rxMap w k
  let x := (List.range 16).foldl (fun (x : SubLink) f =>
    if old.testBit f = l.map.testBit f then x
    else
      let y := { x.lane' f with reason := l.reason }
      x.putLane f (if tx then y
        else { y with ruleOut := false, h := none, swOut := y.swOut || (old.testBit f && decide (l.reason = 3)) })) (s.sub w k)
  let x := if tx then x else { x with untest := fibMask fun f => old.testBit f && !l.map.testBit f }
  let s := (s.setSub w k x).setMap w k tx l.map
  let s := (s.wr p (if tx then R.SB_EPOCH_TX else R.SB_EPOCH_RX) l.epoch).inc p R.SB_LS_CNT_APPLIED
  let s := (s.wr p R.SB_LS_LAST_MAP l.map).wr p R.SB_LS_LAST_EPOCH l.epoch
  ((s.wr p R.SB_LS_LAST_DIR l.dir).wr p R.SB_LS_LAST_REASON l.reason).wb p R.SB_LS_LAST_LOCAL l.mine

/-- A payload read as a LANESET. -/
def cellLs (c : Cell) : LsOpen :=
  let v := cellBits c
  ⟨bits v 21 1 = 1, bits v 20 1, bits v 0 16, bits v 16 4, bits v 24 3, false, 0, 0⟩

/-- The higher ID loses its own change (R408). -/
def State.lsYield (s : State) (w k : Nat) : State :=
  ((s.lsClose w k).inc (subPg w k) R.SB_LS_CNT_COLLIDED).sbRaise w k 7 none

/-- A LANESET (R407, R408). -/
def State.laneSet (s : State) (w k : Nat) (l : LsOpen) : State :=
  let own := (s.sub w k).change
  let td := s.txDir w k
  let lower := decide (s.pkgId < s.peerPkg w k)
  let collide (go : State → State) : State :=
    if lower then s.sbSend w k 9 (s.sbNext w k) l.bits else go (s.lsYield w k)
  if l.commit && decide (l.dir ≠ td) then
    let again := decide (l.epoch = s.rd (subPg w k) R.SB_EPOCH_RX) && decide (l.map = s.rxMap w k)
    let ack (s : State) : State := s.sbSend w k 8 (s.sbNext w k) l.bits
    let serve (mine : Bool) (s : State) : State :=
      if l.epoch = (s.rd (subPg w k) R.SB_EPOCH_RX + 1) % 16 then
        (ack (s.lsApply w k false { l with mine := mine })).sbAdjust w k
      else s
    if again then ack s
    else match own with
      | none => serve false s
      | some o => if !o.commit && decide (o.dir = l.dir) then serve true (s.lsClose w k) else collide (serve false)
  else if !l.commit && decide (l.dir = td) then
    let map := l.map &&& (s.txMap w k ||| s.txOk w k)
    let serve (s : State) : State :=
      s.lsOpen w k ⟨true, td, map, (s.rd (subPg w k) R.SB_EPOCH_TX + 1) % 16, l.reason, false, 0, 0⟩
    match own with
    | none => serve s
    | some o => if o.commit && decide (o.map = map) then s.lsSend w k o else collide serve
  else s

/-- A lane of a Weft die changed its state: the sub-link it belongs to follows (R409, Table 12-4). -/
def State.sbLane (s : State) (w f k dir : Nat) : State :=
  if k = 0 || 16 ≤ k then s
  else
    let sk := if dir = 0 then k else rxWl k
    if !s.sbOk w sk then s
    else
      let x := s.sub w sk
      let s := if (s.lane w f k dir).st = .locked then s else s.setSub w sk (x.putLane f { x.lane' f with swOut := false })
      (s.sbWake w sk).sbAdjust w sk

/-! Received cells. -/

/-- Good cells of epoch 0 in LOCKED (R391). -/
def State.sbGood (s : State) (w k n : Nat) (c : Cell) : State :=
  if s.sbSt w k = sbLocked then
    let x := s.sub w k
    if c.epoch ≠ 0 then s.setSub w k { x with good := 0 }
    else if 64 ≤ x.good + n then
      ((s.setSub w k { x with good := 64, oldAt := s.clk.tick }).wr (subPg w k) R.SB_STAT_STATE sbAlive).sbAdjust w k
    else s.setSub w k { x with good := x.good + n }
  else s

/-- A TRAIN (R392, R393). -/
def State.trainIn (s : State) (w k : Nat) (c : Cell) : State :=
  let v := cellBits c
  let valid := decide (bits v 0 8 = s.peerPkg w k) && decide (bits v 8 3 = w) && decide (bits v 12 4 = rxWl k) &&
    decide (bits v 17 1 = s.rd (sbPg w) R.SB_COM_CTRL_CLUSTER) && decide (bits v 24 5 = s.rd (sbPg w) R.SB_COM_ID_POD_SIZE)
  let x := s.sub w k
  if !valid then
    let due := match x.misAt with
      | some t => decide (t + s.seekInt w ≤ s.clk.tick)
      | none => true
    if due then (s.setSub w k { x with misAt := some s.clk.tick }).sbRaise w k 9 none else s
  else
    let s := (s.setSub w k { x with heard := some s.clk.tick }).wr (subPg w k) R.SB_STAT_PEER_GEN (bits v 48 16)
    let st := s.sbSt w k
    if st = sbSeek then
      if bits v 16 1 = 1 then s.sbLock w k (bits v 32 16) else s.sbTrain w k
    else if st = sbLocked || st = sbAlive then
      ((s.sbDiscard w k).sbEnter w k sbSeek).sbZero w k |>.sbRaise w k 10 none
    else s
def execTrainCell (weft sub fib : Nat) (c : Cell) (s : State) : Host.Outcome State Fault Refusal :=
  .next (s.sbRx weft sub fib c [6] fun s => s.trainIn weft sub c)

/-- IDLE_CELL (R391): `n` equal cells in a row on one lane. -/
def execIdleCell (weft sub fib n : Nat) (c : Cell) (s : State) : Host.Outcome State Fault Refusal :=
  .next (s.sbRx weft sub fib c [5] fun s => s.sbGood weft sub n c)

/-- LOCKED_TIMEOUT (R391): 1 ms in LOCKED. -/
def execLockedTimeout (weft sub : Nat) (s : State) : Host.Outcome State Fault Refusal :=
  .next (if s.sbOk weft sub && s.sbSt weft sub = sbLocked then
    ((s.toTick ((s.sub weft sub).entered + msTicks)).sbEnter weft sub sbSeek) else s)

/-- DATA_CELL (R395). -/
def execDataCell (weft sub fib : Nat) (c : Cell) (s : State) : Host.Outcome State Fault Refusal :=
  .next (s.sbRx weft sub fib c [0] fun s => s.sbTake weft sub c)

/-- ACK_CELL (R399). -/
def execAckCell (weft sub fib : Nat) (c : Cell) (s : State) : Host.Outcome State Fault Refusal :=
  .next (s.sbRx weft sub fib c [1] fun s =>
    if s.sbUp weft sub then
      let s := s.sbAcked weft sub c.seq
      let bm := cellBits c
      let x := s.sub weft sub
      let named (q : Nat) : Bool := decide (q ≠ c.seq) && decide (seqDist c.seq q ≤ 2048) && bm.testBit (seqDist c.seq q - 1)
      (s.setSub weft sub { x with peerHeld := (x.replay.map fun r => r.cell.seq).filter named }).sbGood weft sub 1 c
    else s)

/-- NAK_CELL (R398): every named cell still held is sent again, oldest first. `ues` names stored copies with an uncorrectable error
(R400), `ces` counts corrected words. -/
def execNakCell (weft sub fib : Nat) (c : Cell) (ues : List Nat) (ces : Nat) (s : State) : Host.Outcome State Fault Refusal :=
  .next (s.sbRx weft sub fib c [2] fun s =>
    if s.sbUp weft sub then
      let bm := cellBits c
      let qs := (s.sub weft sub).replay.map (fun r => r.cell.seq) |>.filter fun q =>
        let d := seqDist c.seq q
        decide (d = 0) || (decide (d ≤ 2048) && bm.testBit (d - 1))
      (s.inc (subPg weft sub) R.SB_NAK_CNT_RECEIVED).sbResend weft sub qs ues ces
    else s)

/-- CREDIT_CELL (R403). -/
def execCreditCell (weft sub fib : Nat) (c : Cell) (s : State) : Host.Outcome State Fault Refusal :=
  .next (s.sbRx weft sub fib c [3] fun s =>
    if s.sbUp weft sub then
      let v := cellBits c
      (s.setSub weft sub ((List.range 4).foldl (fun x i => x.creditIn i (bits v (16 * i) 14)) (s.sub weft sub))).sbGood weft sub 1 c
    else s)

/-- LANESET_CELL (R407, R408). -/
def execLanesetCell (weft sub fib : Nat) (c : Cell) (s : State) : Host.Outcome State Fault Refusal :=
  .next (s.sbRx weft sub fib c [4] fun s =>
    if s.sbUp weft sub && decide (s.sbSt weft sub ≠ sbLocked) then s.laneSet weft sub (cellLs c) else s)

/-- LSACK_CELL (R407). -/
def execLsackCell (weft sub fib : Nat) (c : Cell) (s : State) : Host.Outcome State Fault Refusal :=
  .next (s.sbRx weft sub fib c [8] fun s =>
    match (s.sub weft sub).change with
    | some o =>
      if o.commit && decide ((cellLs c).map = o.map) && decide ((cellLs c).epoch = o.epoch) then
        ((s.lsClose weft sub).lsApply weft sub true o).sbAdjust weft sub
      else s
    | none => s)

/-- COLLIDE_CELL (R408). -/
def execCollideCell (weft sub fib : Nat) (c : Cell) (s : State) : Host.Outcome State Fault Refusal :=
  .next (s.sbRx weft sub fib c [9] fun s =>
    if (s.sub weft sub).change.isSome && decide (s.peerPkg weft sub < s.pkgId) then s.lsYield weft sub else s)

/-- RELAY_CELL (R415, R416). -/
def execRelayCell (weft sub fib : Nat) (c : Cell) (s : State) : Host.Outcome State Fault Refusal :=
  .next (s.sbRx weft sub fib c [7] fun s => s.sbTake weft sub c)

/-! Draining and reset. -/

/-- Enter DRAINING: a DRAIN cell closes the queue. -/
def State.sbDrain (s : State) (w k : Nat) : State :=
  if s.sbSt w k = sbAlive then
    let x := s.sub w k
    let c : Cell := { s.mkCell w k 0xA 0 0 with dst := s.peerPkg w k }
    (s.setSub w k { x with queue := x.queue ++ [(c, false)], entered := s.clk.tick }).wr (subPg w k) R.SB_STAT_STATE sbDraining
  else s

/-- DRAIN_CELL (R391). -/
def execDrainCell (weft sub fib : Nat) (c : Cell) (s : State) : Host.Outcome State Fault Refusal :=
  .next (s.sbRx weft sub fib c [0xA] fun s =>
    let before := s.sbCum weft sub
    let s := s.sbTake weft sub c
    if s.sbUp weft sub && (decide (s.sbCum weft sub ≠ before) || (s.sub weft sub).got.contains c.seq) then
      (s.setSub weft sub { s.sub weft sub with peerDrain := true }).sbDrain weft sub
    else s)

/-- RESERVED_CELL (R388). -/
def execReservedCell (weft sub fib : Nat) (c : Cell) (s : State) : Host.Outcome State Fault Refusal :=
  .next (s.sbRx weft sub fib c [0xB, 0xC, 0xD, 0xE, 0xF] fun s => s.inc (subPg weft sub) R.SB_DUP_CNT)

/-- DRAIN_COMPLETE (R391): everything sent is acknowledged and the peer's DRAIN has been taken. -/
def execDrainComplete (weft sub : Nat) (s : State) : Host.Outcome State Fault Refusal :=
  let x := s.sub weft sub
  .next (if s.sbOk weft sub && s.sbSt weft sub = sbDraining && x.queue.isEmpty && x.replay.isEmpty && x.peerDrain
    then s.sbDarken weft sub else s)

/-- SB_DRAIN_TMO (R391). -/
def execSbDrainTmo (weft sub : Nat) (s : State) : Host.Outcome State Fault Refusal :=
  .next (if s.sbOk weft sub && s.sbSt weft sub = sbDraining then
    let s := s.toTick ((s.sub weft sub).entered + max 1 (s.rd (subPg weft sub) R.SB_FAIL_TMO_MS) * msTicks)
    (s.sbEnter weft sub sbFailed).sbRaise weft sub 12 none
    else s)

/-- SB_FAILED (R411): an empty map or an OLDEST not acknowledged for SB_FAIL_TMO. -/
def execSbFailed (weft sub : Nat) (s : State) : Host.Outcome State Fault Refusal :=
  let x := s.sub weft sub
  let since := [x.txEmptyAt, x.rxEmptyAt, if x.replay.isEmpty then none else some x.oldAt].filterMap id
  .next (match since with
    | [] => s
    | t :: r =>
      if s.sbOk weft sub && (s.sbSt weft sub = sbAlive || s.sbSt weft sub = sbDraining) then
        let s := s.toTick (r.foldl min t + max 1 (s.rd (subPg weft sub) R.SB_FAIL_TMO_MS) * msTicks)
        (s.sbEnter weft sub sbFailed).sbRaise weft sub 11 none
      else s)

/-- SB_COM_CTRL.EN written (R391). -/
def State.sbEnable (s : State) (w : Nat) (on : Bool) : State :=
  let s := s.wb (sbPg w) R.SB_COM_CTRL_EN on
  (List.range 15).foldl (fun s i => if on then s.sbWake w (i + 1) else if s.sbSt w (i + 1) = sbDark then s else s.sbDarken w (i + 1)) s

/-- SB_LANE_CTRL.DROP: the selected lane leaves both maps with REASON 3 (R409). -/
def State.sbDrop (s : State) (w k : Nat) : State :=
  let f := s.rd (subPg w k) R.SB_LSEL_FIB
  let x := s.sub w k
  (s.setSub w k (x.putLane f { x.lane' f with swOut := true })).sbAdjust w k

/-- SB_LANE_CTRL.RETURN (R413). -/
def State.sbAllow (s : State) (w k : Nat) : State :=
  let f := s.rd (subPg w k) R.SB_LSEL_FIB
  let x := s.sub w k
  if (x.lane' f).retired then s.setSub w k (x.putLane f { x.lane' f with allowed := true }) else s

/-- SB_CNT_CLR and SB_COM_CNT_CLR (R419, R420). -/
def State.sbCntClr (s : State) (w k : Nat) : State :=
  if k = 0 then s.zero (sbPg w) [R.SB_FWD_CNT, R.SB_MISROUTE_CNT, R.SB_MEM_CE_CNT]
  else
    let s := s.zero (subPg w k) [R.SB_TX_CELLS, R.SB_RX_CELLS, R.SB_RETX_CNT, R.SB_NAK_CNT_SENT, R.SB_NAK_CNT_RECEIVED, R.SB_ACKTMO_CNT,
      R.SB_DUP_CNT, R.SB_CRC_CNT, R.SB_LS_CNT_APPLIED, R.SB_LS_CNT_COLLIDED, R.SB_DISCARD_CNT]
    s

/-! Sending. -/

/-- A cell handed to Weft die `w`: queued on its sub-link, or on toward its path Weft die in side slots (R414). -/
def State.sbHand (s : State) (w : Nat) (c : Cell) (ce : Bool) : State :=
  match s.pathOf w c.dst with
  | none => (s.inc (sbPg w) R.SB_MISROUTE_CNT).raise (sbPg w) 4
  | some (p, k, rel) =>
    if p = w then
      let x := s.sub w k
      s.setSub w k { x with queue := x.queue ++ [({ c with typ := if rel then 7 else 0 }, ce)] }
    else s.sideQueue (pg (8 + w) 0x40) ⟨0, 8 + p, .cell c, c.lines⟩

/-- The lines of a transfer, eight to a cell. -/
def chunks (ls : List FLine) : Nat → List (List FLine)
  | 0 => []
  | n + 1 => ls.take 8 :: chunks (ls.drop 8) n

/-- The first line of a lending request or answer: the address, the units asked for (of an answer 1 where it is granted) and whether it writes. The
spec gives the cell's payload no layout (DESIGN CHOICE, log entry 69). -/
def memHead (a n : Nat) (wr : Bool) : FLine := ⟨BitVec.ofNat 256 (a % 2 ^ 42 + 2 ^ 42 * n + if wr then 2 ^ 63 else 0), false⟩

/-- A Memory-class message for package `q` leaves in cells of eight lines (R259). -/
def State.sbMemory (s : State) (w q : Nat) (ls : List FLine) : State :=
  let cs := chunks ls (max 1 ((ls.length + 7) / 8))
  cs.zipIdx.foldl (fun s x =>
    s.sbHand w { typ := 0, cls := 1, src := s.pkgId, dst := q, rdie := w, off := x.2 % 2 ^ 16, fin := decide (x.2 + 1 = cs.length),
                 poi := x.1.any FLine.poi, lines := x.1 } false) s

/-- Take in what the X port has brought (R338, R417). -/
def State.sbTakeIn (s : State) (w : Nat) : State :=
  let p := pg (8 + w) 0x40
  let e := s.wle p
  let s := s.setWle p { e with xbuf := [], sideIn := e.sideIn.filter fun f => match f.what with
    | .other _ => true
    | _ => false }
  let base : Cell := { typ := 0, cls := 0, src := s.pkgId, dst := 0, rdie := w }
  let s := e.xbuf.flatten.foldl (fun s t =>
    -- a line poisoned on the way poisons the payload (R106; DEDUCED, log entry 71)
    s.sbHand w { base with dst := t.pkg, off := t.offset, fin := t.last, poi := t.poi || t.lines.any FLine.poi, lines := t.lines } true) s
  e.sideIn.foldl (fun s f => match f.what with
    | .memReq q a n wr => s.sbMemory w q ((memHead a n wr) :: f.lines)
    | .memAns q ok => s.sbMemory w q ((memHead 0 (if ok then 1 else 0) false) :: f.lines)
    | .sync q => s.sbHand w { base with cls := 2, dst := q, fin := true, lines := f.lines } false
    | .cell c => s.sbHand w { c with relay := c.relay || decide (c.src ≠ s.pkgId) } (decide (c.cls = 0) && decide (c.src = s.pkgId))
    | .other _ => s) s

/-- Whether a class may send: a cell waits and credit allows (R403). -/
def SubLink.maySend (x : SubLink) (cls : Nat) : Bool :=
  let a := (x.txLim.getD cls 0 + 2 ^ 14 - x.txCnt.getD cls 0) % 2 ^ 14
  x.queue.any (fun c => decide (c.1.cls = cls)) && decide (1 ≤ a) && decide (a ≤ 8191)

/-- The class of the next new cell (R396). -/
def SubLink.pickClass (x : SubLink) : Option Nat :=
  if 15 ≤ x.sinceBulk && x.maySend 0 then some 0 else [2, 3, 1, 0].find? x.maySend

/-- An IDLE cell on every lane of the transmit map (R387, Table 12-4). -/
def State.sbIdle (s : State) (w k : Nat) : State :=
  if s.sbUp w k then
    (List.range 16).foldl (fun s f =>
      if (s.txMap w k).testBit f then s.sbEmit w k f (s.mkCell w k 5 (s.sbNext w k) 0) else s) s
  else s

/-- CELL_TRANSMIT (R387, R394, R396): the next new cell on its lane; with none that may go, each lane sends IDLE. -/
def State.sbTransmit (s : State) (w k : Nat) : State :=
  let s := s.sbTakeIn w
  let x := s.sub w k
  let run := decide (s.sbSt w k = sbAlive) || decide (s.sbSt w k = sbDraining)
  match x.pickClass, nextLane (s.txMap w k) x.lane with
  | some cls, some f =>
    if run && decide (seqDist (s.sbOld w k) (s.sbNext w k) < 4096) then
      match x.queue.find? fun c => decide (c.1.cls = cls) with
      | none => s.sbIdle w k
      | some q =>
        let seq := s.sbNext w k
        let c := { q.1 with seq := seq }
        let s := s.setSub w k { x with queue := x.queue.erase q, replay := x.replay ++ [⟨c, s.clk.tick, q.2⟩],
                                       txCnt := x.txCnt.set cls ((x.txCnt.getD cls 0 + 1) % 2 ^ 14), lane := f,
                                       sinceBulk := if cls = 0 then 0 else x.sinceBulk + 1,
                                       oldAt := if x.replay.isEmpty then s.clk.tick else x.oldAt }
        let s := (s.wr (subPg w k) R.SB_TSEQ_NEXT (seq + 1)).addWrap (subPg w k) R.SB_TX_CELLS 1
        s.sbEmit w k f c
    else s.sbIdle w k
  | _, _ => s.sbIdle w k
def execCellTransmit (weft sub : Nat) (s : State) : Host.Outcome State Fault Refusal :=
  .next (if s.sbOk weft sub then s.sbTransmit weft sub else s)

/-- Held cells of a class that are due for the Osier die, at most `n`; `m` messages from the package end in those already taken. -/
def State.sbDue (s : State) (w k cls : Nat) : Nat → Nat → State × List Cell
  | 0, _ => (s, [])
  | n + 1, m =>
    match s.nextHeld w k cls with
    | none => (s, [])
    | some h =>
      if forwards w h.cell || (decide (h.cell.cls = 0) && !s.admits w h.cell.src m) then (s, [])
      else
        let s := s.setSub w k ((s.sub w k).release h)
        let s := s.addWrap (subPg w k) R.SB_RX_CELLS 1
        let r := s.sbDue w k cls n (m + if h.cell.fin then 1 else 0)
        (r.1, h.cell :: r.2)

/-- The next program slot of a Weft die's X port: of the present enabled cycle or a later one (R336). -/
def State.toProg (s : State) (p : Nat) : State :=
  let c := if s.slotFree p then s.clk.cc else s.clk.cc + 1
  s.toCc (if progSlot c then c else c + 1)

/-- CELL_DELIVERY (R402, R417): up to `n` held Bulk cells in one flit of X, or one cell of another class in side slots; the pool words
may err (R400). A forwarded cell at the head moves on. A Bulk cell whose receive is not posted waits (R283), as does one while X is not ALIVE
(R345). -/
def State.sbDeliver (s : State) (w k cls n : Nat) (hits : List EccHit) : State :=
  let p := pg (8 + w) 0x40
  let s := s.sbForward w k 256
  let e := s.wle p
  let per := if s.bit p R.WL_STAT_W8 then 2 else 5
  if cls = 0 && (decide (e.xcredit = 0) || !s.portAlive p) then s
  else
    let r := s.sbDue w k cls (if cls = 0 then min n per else 1) 0
    let s := r.1
    if r.2.isEmpty then s
    else
      let s := hits.foldl (fun s h => if h.ue then s.raise (sbPg w) 1 else (s.inc (sbPg w) R.SB_MEM_CE_CNT).raise (sbPg w) 0) s
      let cs := ((List.range r.2.length).zip r.2).map fun x =>
        if hits.any fun h => h.ue && decide (h.word / 34 = x.1) then { x.2 with poi := true } else x.2
      if cls = 0 then
        let s := (s.toProg p).setWle p { s.wle p with xcredit := (s.wle p).xcredit - 1 }
        s.toWire p { kind := .prog, cyc := true, cc := s.clk.cc, room := s.roomBits w,
                     tags := cs.map fun c => ⟨c.src, c.off, c.fin, c.poi, c.lines⟩ }
      else cs.foldl (fun s c => s.sideQueue p ⟨if cls = 1 then 1 else 2, w, .cell c, c.lines⟩) s

/-- CELL_DELIVERY (R402). -/
def execCellDelivery (weft sub cls n : Nat) (hits : List EccHit) (s : State) : Host.Outcome State Fault Refusal :=
  .next (if s.sbOk weft sub && cls < 4 && 0 < n then s.sbDeliver weft sub cls n hits else s)

/-- ACK_TIMEOUT (R399); what the replay store's words show (R400). -/
def execAckTimeout (weft sub : Nat) (ues : List Nat) (ces : Nat) (s : State) : Host.Outcome State Fault Refusal :=
  .next (match (s.sub weft sub).replay with
    | [] => s
    | r :: rs =>
      if s.sbUp weft sub then
        let t := rs.foldl (fun a y => min a y.sent) r.sent
        let s := s.toTick (t + max 1 (s.rd (subPg weft sub) R.SB_ACK_TMO_US) * usTicks)
        let x := s.sub weft sub
        let first := (x.replay.find? fun y => decide (y.sent = t)).getD r
        let old := s.sbOld weft sub
        let qs := (x.replay.map fun y => y.cell.seq).filter fun q =>
          decide (q = first.cell.seq) || (decide (seqDist old first.cell.seq < seqDist old q) && !x.peerHeld.contains q)
        ((s.inc (subPg weft sub) R.SB_ACKTMO_CNT).sbRaise weft sub 4 none).sbResend weft sub qs ues ces
      else s)

/-- PERIODIC_ACK (R399). -/
def execPeriodicAck (weft sub : Nat) (s : State) : Host.Outcome State Fault Refusal :=
  .next (if s.sbUp weft sub && !(s.sub weft sub).got.isEmpty then s.sbSend weft sub 1 (s.sbCum weft sub) (s.ackBits weft sub) else s)

/-- PERIODIC_CREDIT (R405). -/
def execPeriodicCredit (weft sub : Nat) (s : State) : Host.Outcome State Fault Refusal :=
  .next (if s.sbUp weft sub then s.sbSend weft sub 3 (s.sbNext weft sub) (s.sub weft sub).creditBits else s)

/-- Shared slots neither held nor granted (Table 12-10). -/
def State.bulkFree (s : State) (w : Nat) : Nat :=
  let used := (List.range 15).foldl (fun a i => a + (s.sub w (i + 1)).granted) 0
  25088 - used - ((s.fwdQ w).filter fun f => match f.what with | .cell c => decide (c.cls = 0) | _ => false).length

/-- BULK_GRANT (R405): 64 cells to the next ALIVE sub-link below its cap. -/
def execBulkGrant (weft : Nat) (s : State) : Host.Outcome State Fault Refusal :=
  let at' := look natZero s.grantAt weft
  let able (k : Nat) : Bool := s.sbOk weft k && decide (s.sbSt weft k = sbAlive) &&
    decide ((s.sub weft k).granted < max 64 (min 4096 (s.rd (subPg weft k) R.SB_BULK_CAP_CELLS)))
  .next (if weft < 8 && 64 ≤ s.bulkFree weft then
    match ((List.range 15).map fun i => (at' + i) % 15 + 1).find? able with
    | none => s
    | some k =>
      let x := s.sub weft k
      let s := s.setSub weft k { x with granted := x.granted + 64, rxLim := x.rxLim.set 0 ((x.rxLim.getD 0 0 + 64) % 2 ^ 14) }
      { s with grantAt := put natZero s.grantAt weft k }
    else s)

/-- LANESET_REPEAT (R407): every 2 µs, and abandoned after 50 repeats. -/
def execLanesetRepeat (weft sub : Nat) (s : State) : Host.Outcome State Fault Refusal :=
  .next (match (s.sub weft sub).change with
    | none => s
    | some o =>
      if !s.sbUp weft sub then s
      else
        let s := s.toTick o.next
        if 50 ≤ o.reps then (s.lsClose weft sub).sbRaise weft sub 6 none
        else
          let o' := { o with reps := o.reps + 1, next := s.clk.tick + 2 * usTicks }
          (s.setSub weft sub { s.sub weft sub with change := some o' }).lsSend weft sub o')

/-! Retirement (R412, R413). -/

/-- RETIREMENT_WINDOW_END (R412). -/
def execRetirementWindowEnd (weft sub fib : Nat) (s : State) : Host.Outcome State Fault Refusal :=
  .next (if s.sbUp weft sub && (s.rxMap weft sub).testBit fib && fib < 16 then
    let x := s.sub weft sub
    let l := x.lane' fib
    let n := l.now
    let warn := decide (s.rd (sbPg weft) R.SB_RET_THR_WARN ≤ n)
    let ret := decide (s.rd (sbPg weft) R.SB_RET_THR_RETIRE ≤ n)
    let ln := s.lane weft fib (rxWl sub) 1
    let l := { l with last := n, now := 0, warn := warn }
    let l := if ret then { l with retired := true, cnt := l.cnt + 1, allowed := false, bits0 := ln.testBits, errs0 := ln.testErr } else l
    let s := s.setSub weft sub (x.putLane fib l)
    let s := if warn then s.sbRaise weft sub 1 (some fib) else s
    let s := if ret then s.sbRaise weft sub 2 (some fib) else s
    s.sbAdjust weft sub
    else s)

/-- SB_LANE_RETURN (R413): the clean test pattern has been seen. -/
def execSbLaneReturn (weft sub fib : Nat) (s : State) : Host.Outcome State Fault Refusal :=
  let x := s.sub weft sub
  let l := x.lane' fib
  let ln := s.lane weft fib (rxWl sub) 1
  let bits' := (ln.testBits - l.bits0) * 2 ^ 20
  .next (if s.sbUp weft sub && fib < 16 && l.retired && (s.rxOk weft sub).testBit fib &&
      (s.bit (subPg weft sub) R.SB_CTRL_AUTO_RTN || l.allowed) && (decide (l.cnt < 8) || l.allowed) &&
      decide (2 ^ max 30 (min 40 (s.rd (sbPg weft) R.SB_RTN_LOG2_BITS)) ≤ bits') &&
      decide (ln.testErr - l.errs0 ≤ s.rd (sbPg weft) R.SB_RTN_ERR) then
    ((s.setSub weft sub (x.putLane fib { l with retired := false, allowed := false })).sbRaise weft sub 3 (some fib)).sbAdjust weft sub
    else s)

/-! Live registers. -/

def SubLink.avail (x : SubLink) (cls : Nat) : Nat := (x.txLim.getD cls 0 + 2 ^ 14 - x.txCnt.getD cls 0) % 2 ^ 14

/-- Free slots of the receive pool and the replay store. -/
def State.poolFree (s : State) (w : Nat) : Nat :=
  30720 - (List.range 15).foldl (fun a i => a + (s.sub w (i + 1)).pool.length) 0 - (s.fwdQ w).length
def State.replayFree (s : State) (w : Nat) : Nat :=
  30720 - (List.range 15).foldl (fun a i => a + (s.sub w (i + 1)).replay.length + (s.sub w (i + 1)).queue.length) 0

end Sys2Proof.Machine
end

