-- ==== Sys2Proof/Machine/Sensors.lean ====
section
/-! DEFINITION. Sensors and what they read (Tables 16-1, 16-2, 16-12, R497), and the window in which flash may be written (R508). -/

namespace Sys2Proof.Machine

def thPg (d : Nat) : Nat := pg d 0x50
def agePg (d : Nat) : Nat := pg d 0x60

def sensZero : Nat → Sensor := fun _ => {}
def dthZero : Nat → DieTh := fun _ => {}
def flashZero : Nat → Flash := fun _ => {}
def hoopZero : Nat → HoopSt := fun _ => {}
def State.sensor (s : State) (g : Nat) : Sensor := look sensZero s.sens g
def State.setSensor (s : State) (g : Nat) (x : Sensor) : State := { s with sens := put sensZero s.sens g x }
def State.dieTh (s : State) (d : Nat) : DieTh := look dthZero s.dth d
def State.setDieTh (s : State) (d : Nat) (x : DieTh) : State := { s with dth := put dthZero s.dth d x }
def State.flashOf (s : State) (h : Nat) : Flash := look flashZero s.flash h
def State.setFlash (s : State) (h : Nat) (x : Flash) : State := { s with flash := put flashZero s.flash h x }
def State.hoop (s : State) (h : Nat) : HoopSt := look hoopZero s.hoops h
def State.setHoop (s : State) (h : Nat) (x : HoopSt) : State := { s with hoops := put hoopZero s.hoops h x }

/-! Sensors (R489-R499). -/

/-- How many sensors a die samples (Table 16-1), an Osier die's three stacks among them. -/
def sensCount (d : Nat) : Nat := if isOsier d then 27 else if isWeft d then 12 else if isReed d then 8 else if isHoop d then 4 else 0

/-- Global index of a die's local sensor (Table 16-1); on Osier dies 24-26 are the stacks. -/
def sensIdx (d i : Nat) : Nat :=
  if isOsier d then (if i < 24 then 24 * d + i else 312 + 3 * d + (i - 24))
  else if isWeft d then 192 + 12 * (d - 8) + i else if isReed d then 288 + 8 * (d - 0x10) + i else 304 + 4 * (d - 0x12) + i

/-- Neighbours of a local sensor (Table 16-12). -/
def neighbours (d i : Nat) : List Nat :=
  let line (n : Nat) : List Nat := (List.range n).filter fun j => decide (j ≠ i) && decide (i ≤ j + 2) && decide (j ≤ i + 2)
  if isOsier d then
    if i < 16 then
      (i / 2 * 2 + (1 - i % 2)) :: ((if 2 ≤ i then [i - 2] else []) ++ (if i + 2 < 16 then [i + 2] else []))
    else if i < 19 then [16, 17, 18, 23].filter (· ≠ i)
    else if i < 23 then [19, 20, 21, 22].filter (· ≠ i)
    else if i = 23 then [16, 17, 18]
    else [24, 25, 26, 16 + (i - 24)].filter (· ≠ i)
  else if isWeft d then
    if i < 8 then line 8 else if i < 10 then [17 - i, 10, 11] else [21 - i, 8, 9]
  else if isReed d then line 8
  else [0, 1, 2, 3].filter (· ≠ i)

/-- Thresholds of a sensor's kind in °C (Table 16-2): throttle start, warning, trip, restart. -/
def kindLimits (d i : Nat) : Nat × Nat × Nat × Nat := if isOsier d && decide (24 ≤ i) then hbmLimits else thLimits d

/-- A sensor's warning and throttle start in quarter degrees, lowered by its die's TH_ADJ (R493). -/
def State.warnAt (s : State) (d i : Nat) : Int := 4 * (kindLimits d i).2.1 - s.rd (thPg d) R.TH_ADJ_WARN_LOWER
def State.throtAt (s : State) (d i : Nat) : Int := 4 * (kindLimits d i).1 - s.rd (thPg d) R.TH_ADJ_THROT_LOWER

/-- Whether a sensor is live: not substituted, and its die's TH page not isolated (Table 14-4, R497). -/
def State.sensLive (s : State) (d i : Nat) : Bool :=
  decide ((s.sensor (sensIdx d i)).sub = 0) && decide ((s.page (thPg d)).up ≠ .isolated)

def maxInt : List Int → Option Int
  | [] => none
  | x :: r => some (r.foldl max x)

/-- The twenty dies. -/
def allDies : List Nat := List.range 20

/-- Every sensor as its die and local index. -/
def allSensors : List (Nat × Nat) := allDies.flatMap fun d => (List.range (sensCount d)).map fun i => (d, i)

def State.liveMax (s : State) (l : List (Nat × Nat)) : Option Int :=
  maxInt ((l.filter fun x => s.sensLive x.1 x.2).map fun x => (s.sensor (sensIdx x.1 x.2)).temp)

/-- A sensor's reading: its own, or the substitute of R497. -/
def State.reading (s : State) (d i : Nat) : Int :=
  if s.sensLive d i then (s.sensor (sensIdx d i)).temp
  else match s.liveMax ((neighbours d i).map fun j => (d, j)) with
    | some t => t + 20
    | none => match s.liveMax ((List.range (sensCount d)).map fun j => (d, j)) with
      | some t => t + 20
      | none => match s.liveMax allSensors with
        | some t => t + 20
        | none => 4 * (kindLimits d i).2.2.1

/-- Whether the die's TH page has records to give: its die is out of reset. -/
def State.thUp (s : State) (d : Nat) : Bool := decide ((s.page (thPg d)).up ≠ .never)

/-- The acting Hoop whose TH page runs. -/
def State.thHoop (s : State) : Option Nat := s.acting.filter fun h => s.alive (thPg (0x12 + h))

/-- The window of R508. -/
def State.nvOk (s : State) (h : Nat) : Bool :=
  match maxInt ((List.range 4).map fun i => s.reading (0x12 + h) i) with
  | some t => decide (0 ≤ t) && decide (t ≤ 340)
  | none => false

/-- A refused write of flash or a fuse (R508). -/
def State.nvRefuse (s : State) (h : Nat) : State := (s.inc (thPg (0x12 + h)) R.TH_NV_REFUSED).raise (thPg (0x12 + h)) 7

end Sys2Proof.Machine
end

