-- ==== Sys2Proof/Machine/Optics.lean ====
section
/-! DEFINITION. Weft optics and Reed lasers (11_weft_reed_optics.md): lanes, word alignment, live adaptation, calibration,
the loopback, and the lasers. -/

namespace Sys2Proof.Machine

/-! Calibration banks (R369-R371). -/

/-- The pages of a Weft die's top and of a Reed die. -/
def wfTop (w : Nat) : Nat := pg (8 + w) 0
def rdTop (r : Nat) : Nat := pg (0x10 + r) 0
def rdPg (r k : Nat) : Nat := pg (0x10 + r) (0x10 + k)

/-- The key of a calibration item (Table 11-3): 0 heater seed, 1 drive swing, 2 threshold seed, 3 lock target. -/
def calKey (w f k dir item : Nat) : Nat := laneKey w f k dir * 4 + item

/-- What an item holds before anything is committed (log entry 3). -/
def calZero : Nat → Nat := fun key => if key % 4 = 3 then (if key / 4 % 2 = 0 then 128 else 230) else 0

def State.calA (s : State) (w f k dir item : Nat) : Nat := look calZero s.cal (calKey w f k dir item)

def wfZero : Nat → WfSt := fun _ => {}
def rdZero : Nat → RdSt := fun _ => {}
def fibZero : Nat → FibSt := fun _ => {}
def laserZero : Nat → LaserSt := fun _ => {}
def State.wf (s : State) (w : Nat) : WfSt := look wfZero s.wfs w
def State.setWf (s : State) (w : Nat) (x : WfSt) : State := { s with wfs := put wfZero s.wfs w x }
def State.reed (s : State) (r : Nat) : RdSt := look rdZero s.rds r
def State.setReed (s : State) (r : Nat) (x : RdSt) : State := { s with rds := put rdZero s.rds r x }
def State.fibre (s : State) (w f : Nat) : FibSt := look fibZero s.fibs (w * 16 + f)
def State.setFibre (s : State) (w f : Nat) (x : FibSt) : State := { s with fibs := put fibZero s.fibs (w * 16 + f) x }
def State.laserSt (s : State) (r k : Nat) : LaserSt := look laserZero s.lasers (r * 16 + k)
def State.setLaserSt (s : State) (r k : Nat) (x : LaserSt) : State := { s with lasers := put laserZero s.lasers (r * 16 + k) x }

/-! Lanes (R363). -/

def laneOk (weft fib k dir : Nat) : Bool := decide (weft < 8) && decide (fib < 16) && decide (k < 16) && decide (dir < 2)

/-- Whether a lane's die and fibre pages are alive. -/
def State.laneUp (s : State) (w f k dir : Nat) : Bool := laneOk w f k dir && s.alive (wfTop w) && s.alive (fibPg w f)

/-- Whether the plane of a fibre is enabled (R356). -/
def State.planeOn (s : State) (w f : Nat) : Bool := (s.rd (wfTop w) R.WF_PLANE_EN_EN).testBit f

/-- WF_LANE_STAT of a lane (Table 11-10). -/
def Lane.stat (x : Lane) : Nat :=
  let st := match x.st with | .parked => 0 | .acquire => 1 | .slip => 2 | .locked => 3 | .dark => 4 | .frozen => 5
  st + (if x.sync then 8 else 0) + (if x.dfrz then 16 else 0) + x.dens % 256 * 256 + x.slips % 128 * 65536

/-- A detection of a fibre page with its lane's detail words (Table 14-2). -/
def State.fibRaise (s : State) (w f k dir src : Nat) : State :=
  let x := s.lane w f k dir
  s.raiseX (fibPg w f) src (x.stat % 2 ^ 23 + dir % 2 * 2 ^ 27 + k % 16 * 2 ^ 28)
    (x.heat % 4096 + x.peak % 4096 * 65536 + 2 ^ 32 * (x.thr % 1024 + x.eye % 1024 * 65536))

/-- LOOP_OK of a fibre (R374). A fall from 1 raises OPT_LOOP_FAIL. -/
def State.loopEval (s : State) (w f : Nat) : State :=
  let p := fibPg w f
  let x := s.fibre w f
  let win := max 1 (min 1000 (s.rd (wfTop w) R.WF_LOOP_WIN_MS)) * msTicks
  let ok := decide ((s.lane w f 0 1).st = .locked) && decide (64 ≤ x.idRun) && decide (x.clean + win ≤ s.clk.tick)
  let was := s.bit p R.WF_FIB_STAT_LOOP_OK
  let s := s.wb p R.WF_FIB_STAT_LOOP_OK ok
  let s := if ok then s.setFibre w f { s.fibre w f with spent := true } else s
  if was && !ok then s.fibRaise w f 0 1 7 else s

/-- OPT_LOS owed by receive lanes that went dark (R363): OPT_FIBRE_LOS where all sixteen did within 1 ms, else OPT_LOS for each
once its 1 ms has passed. -/
def State.losFlush (s : State) (w f : Nat) : State :=
  let ls := (List.range 16).map fun k => s.lane w f k 1
  let owed := ls.filterMap Lane.darkAt
  let clear (s : State) (k : Nat) : State := s.setLane w f k 1 { s.lane w f k 1 with darkAt := none }
  if owed.length = 16 && ls.all (fun x => decide (x.st = .dark)) && decide (owed.foldl max 0 ≤ owed.foldl min (owed.headD 0) + msTicks) then
    ((List.range 16).foldl clear s).fibRaise w f 0 1 6
  else (List.range 16).foldl (fun s k =>
    match (s.lane w f k 1).darkAt with
    | some t => if t + msTicks ≤ s.clk.tick then (clear s k).fibRaise w f k 1 5 else s
    | none => s) s

/-- Identity blocks in `t` ticks of the loopback frame: ten 66-bit blocks to a tick at 66.0 Gb/s, every 1,024th of them (R358, R359). -/
def idBlocks (t : Nat) : Nat := 10 * t / 1024

/-- Identity blocks that transmit lane (f, 0) has sent, wrapping (Table 11-6). -/
def State.idSent (s : State) (w f : Nat) : Nat :=
  let x := s.fibre w f
  (x.sent + (x.loopAt.elim 0 fun t => idBlocks (s.clk.tick - t))) % 2 ^ 32

/-- The payload word of an identity block (Table 11-6). -/
def idPayload (pkg plane count : Nat) : Nat := 0x4C + pkg % 256 * 2 ^ 8 + plane % 128 * 2 ^ 16 + count % 2 ^ 32 * 2 ^ 32

/-- The identity block that transmit lane (f, 0) sends next (R373). -/
def State.idWord (s : State) (w f : Nat) : Nat := idPayload s.pkgId (16 * w + f) (s.idSent w f)

/-- What a transmit lane puts onto its wavelength (R359, Table 11-2). -/
inductive LaneTx where
  | dark
  | test
  | cells
  | loopback (id : Nat)
  deriving DecidableEq, Repr

/-- What transmit lane (f, k) sends: on λ0 the loopback frame, else what its MODE says; the test pattern while it acquires; nothing through a closed
gate (R356, R359, R363, R373). -/
def State.sends (s : State) (w f k : Nat) : LaneTx :=
  let x := s.lane w f k 0
  if !s.planeOn w f then .dark
  else match x.st with
    | .acquire => .test
    | .locked | .frozen => if k = 0 then .loopback (s.idWord w f) else if (s.rd (fibPg w f) R.WF_FIB_MODE_TX).testBit k then .cells else .test
    | _ => .dark

/-- The loopback frame of a fibre starts or ends with the state of transmit lane (f, 0). -/
def State.loopTx (s : State) (w f : Nat) : State :=
  let x := s.fibre w f
  match (s.lane w f 0 0).ok, x.loopAt with
  | true, none => s.setFibre w f { x with loopAt := some s.clk.tick }
  | false, some _ => s.setFibre w f { x with sent := s.idSent w f, loopAt := none }
  | _, _ => s

/-- A lane takes a new state: what hangs on it follows. -/
def State.laneTo (s : State) (w f k dir : Nat) (x : Lane) : State :=
  let s := s.setLane w f k dir x
  let s := if dir = 0 && k = 0 then s.loopTx w f else s
  let s := if dir = 1 then s.putBit (fibPg w f) R.WF_FIB_SYNC_SYNC k x.sync else s
  let s := if dir = 1 && k = 0 then s.loopEval w f else s
  s.sbLane w f k dir

/-- Enter PARKED. -/
def State.park (s : State) (w f k dir : Nat) : State :=
  let x := s.lane w f k dir
  s.laneTo w f k dir { x with st := .parked, sync := false, sweeping := false, heat := s.calA w f k dir 0, hist := [], darkAt := none }

/-- Enter ACQUIRE: the sweep starts at the seed (R363). -/
def State.acquire (s : State) (w f k dir : Nat) : State :=
  let x := s.lane w f k dir
  s.laneTo w f k dir { x with st := .acquire, sync := false, sweeping := true, since := s.clk.tick, sweeps := 0, hist := [],
                              heat := s.calA w f k dir 0, dfrz := false }

/-- Enter SLIP at the threshold seed (R371). -/
def State.slip (s : State) (w f k : Nat) (x : Lane) : State :=
  s.laneTo w f k 1 { x with st := .slip, sync := false, slips := 0, thr := s.calA w f k 1 2, since := s.clk.tick }

/-- Enter LOCKED. -/
def State.lockLane (s : State) (w f k dir : Nat) (x : Lane) : State :=
  s.laneTo w f k dir { x with st := .locked, since := s.clk.tick, hist := [(s.clk.tick, x.heat)] }

/-- INPUT_LIT (R363): the lane's input has been lit since tick `since`; a transmit lane needs its laser reported ON. -/
def execInputLit (weft fib k dir since : Nat) (s : State) : Host.Outcome State Fault Refusal :=
  .next (if s.laneUp weft fib k dir && (decide (dir = 1) || (s.rd (wfTop weft) R.WF_LASER_ON_ON).testBit k) then
    let s := if dir = 1 then s.losFlush weft fib else s
    let s := s.setLane weft fib k dir { s.lane weft fib k dir with lit := true }
    match (s.lane weft fib k dir).st with
    | .parked => if s.planeOn weft fib then s.acquire weft fib k dir else s
    | .dark => (s.toTick (since + 100 * usTicks)).acquire weft fib k dir
    | _ => s
    else s)

/-- A lane's input goes dark (R363). -/
def State.inputDark (s : State) (w f k dir : Nat) : State :=
  let s := if dir = 1 then s.losFlush w f else s
  let x := { s.lane w f k dir with lit := false }
  if x.ok then
    let s := s.laneTo w f k dir { x with st := .dark, sync := false, darkAt := if dir = 1 then some s.clk.tick else none }
    if dir = 1 then s.losFlush w f else s
  else s.setLane w f k dir x
def execInputDark (weft fib k dir : Nat) (s : State) : Host.Outcome State Fault Refusal :=
  .next (if s.laneUp weft fib k dir && s.planeOn weft fib then s.inputDark weft fib k dir
    else if laneOk weft fib k dir then s.setLane weft fib k dir { s.lane weft fib k dir with lit := false } else s)

/-- ACQUIRE_DONE (R363): a sweep ends. `found`: a resonance within the sweep range, with the lock point's code, the peak's code and
its height; a transmit lane is LOCKED, a receive lane enters SLIP. Ten sweeps of a lit lane in a row that find none raise
OPT_ACQ_FAIL. -/
def execAcquireDone (weft fib k dir : Nat) (found : Bool) (code peak pow : Nat) (s : State) : Host.Outcome State Fault Refusal :=
  .next (let x := s.lane weft fib k dir
    if s.laneUp weft fib k dir && decide (x.st = .acquire) && x.sweeping then
      let seed := s.calA weft fib k dir 0
      let rng := s.rd (wfTop weft) R.WF_CAL_LIM_SWEEP
      if found && decide (code ≤ seed + rng) && decide (seed ≤ code + rng) && decide (code < 4096) then
        let y := { x with heat := code, peak := peak % 4096, pow := pow % 65536, sweeping := false, sweeps := 0 }
        if dir = 0 then s.lockLane weft fib k dir y else s.slip weft fib k y
      else
        let s := s.toTick (x.since + 2 * msTicks)
        let n := if x.lit then x.sweeps + 1 else 0
        let s := s.setLane weft fib k dir { x with sweeping := false, sweeps := if n = 10 then 0 else n }
        if n = 10 then s.fibRaise weft fib k dir 8 else s
    else s)

/-- ACQUIRE_RETRY (R363): 10 ms after a sweep that found nothing. -/
def execAcquireRetry (weft fib k dir : Nat) (s : State) : Host.Outcome State Fault Refusal :=
  .next (let x := s.lane weft fib k dir
    if s.laneUp weft fib k dir && decide (x.st = .acquire) && !x.sweeping then
      let s := s.toTick (x.since + 12 * msTicks)
      s.setLane weft fib k dir { x with sweeping := true, since := s.clk.tick }
    else s)

/-! Word alignment (R360-R362). -/

/-- A slip of receive lanes (R360, R361). -/
def State.fibSlip (s : State) (w f mask : Nat) : State :=
  (List.range 16).foldl (fun s k =>
    let x := s.lane w f k 1
    if mask.testBit k && decide (x.st = .slip) then
      if 66 ≤ x.slips then
        let s := s.setLane w f k 1 { x with alignAt := s.clk.tick + 10 * msTicks }
        (s.acquire w f k 1).fibRaise w f k 1 1
      else s.laneTo w f k 1 { x with slips := x.slips + 1, sync := false }
    else s) s

/-- BLOCK_LOCK (R360): 64 valid headers in a row. -/
def execBlockLock (weft fib k : Nat) (s : State) : Host.Outcome State Fault Refusal :=
  .next (let x := s.lane weft fib k 1
    if s.laneUp weft fib k 1 && decide (x.st = .slip) then
      let s := if k = 0 then s.setFibre weft fib { s.fibre weft fib with idRun := 0, clean := s.clk.tick } else s
      s.lockLane weft fib k 1 { x with sync := true }
    else s)

/-- LOCK_LOSS (R361): `bad` invalid headers, 16 or more of 64 blocks. -/
def execLockLoss (weft fib k bad : Nat) (s : State) : Host.Outcome State Fault Refusal :=
  .next (let x := s.lane weft fib k 1
    if s.laneUp weft fib k 1 && x.sync && decide (16 ≤ bad) then
      (s.slip weft fib k { x with hdrErr := min (x.hdrErr + bad) (2 ^ 32 - 1) }).fibRaise weft fib k 1 0
    else s)

/-- The lanes of a fibre that a round of firmware's search slips (R362): lit, still in SLIP, and not within 10 ms of a failed search. -/
def State.alignWant (s : State) (w f : Nat) : Nat :=
  fibMask fun k => let x := s.lane w f k 1; decide (x.st = .slip) && x.lit && decide (x.alignAt ≤ s.clk.tick)

/-- WF_FIB_REACQ (R364). -/
def State.reacq (s : State) (w f mask dir : Nat) : State :=
  (List.range 16).foldl (fun s k =>
    let x := s.lane w f k dir
    if mask.testBit k && x.ok then
      if dir = 0 && (s.rd (fibPg w f) R.WF_FIB_MODE_TX).testBit k then s.inc (fibPg w f) R.WF_FIB_STAT_REFUSED
      else s.acquire w f k dir
    else s) s

/-! Live adaptation (R365-R368). -/

/-- One step of the ring lock (R366). -/
def ringStep (code want : Nat) : Nat := if code < want then min (code + 1) 4095 else if want < code then code - 1 else code

/-- The threshold moves to the midpoint by at most 8 codes (R368). -/
def thrStep (thr m1 m0 : Nat) : Nat :=
  let mid := (m1 + m0) / 2
  if thr < mid then min mid (thr + 8) else max mid (thr - 8)

/-- ADAPTATION_WINDOW_END (R365, R366, R368). The pattern is checked on lanes in TEST mode, but for those that wait for their direction's new epoch
(R359, R407). -/
def State.windowEnd (s : State) (w f k dir : Nat) (v : Window) : State :=
  let p := fibPg w f
  let x := s.lane w f k dir
  let test := decide (dir = 1) && !(s.rd p R.WF_FIB_MODE_RX).testBit k && !(s.sub w (rxWl k)).untest.testBit f
  let x := if test then { x with testErr := min (x.testErr + v.errs) (2 ^ 32 - 1), testBits := min (x.testBits + 1) (2 ^ 32 - 1) } else x
  let s := if test && k = 0 && v.errs ≠ 0 then
      (s.setFibre w f { s.fibre w f with clean := s.clk.tick }).addSat p R.WF_FIB_LOOP_ERR v.errs
    else s
  let out := decide (v.ones * 100 < 45 * 2 ^ 20) || decide (55 * 2 ^ 20 < v.ones * 100)
  let x := { x with dens := min 255 (v.ones * 256 / 2 ^ 20), now := v.now % 256, er := v.er % 256 }
  if out then
    let s := s.setLane w f k dir { x with dfrz := true, calm := 0 }
    let s := if x.dfrz then s else s.fibRaise w f k dir 3
    if dir = 1 && k = 0 then s.loopEval w f else s
  else if x.dfrz then
    s.setLane w f k dir (if x.calm + 1 = 8 then { x with dfrz := false, calm := 0 } else { x with calm := x.calm + 1 })
  else
    let heat := if x.st = .locked then ringStep x.heat v.want else x.heat
    let keep := s.clk.tick - 10 * msTicks
    let old := x.hist.filter fun h => decide (h.1 ≤ keep)
    let hist := (if old.isEmpty then [] else [old.getLastD (0, 0)]) ++ (x.hist.filter fun h => decide (keep < h.1))
    let x := { x with heat := heat, hist := if heat = x.heat then hist else hist ++ [(s.clk.tick, heat)] }
    let rej := decide (dir = 1) && decide (v.mean1 < v.mean0 + s.rd (wfTop w) R.WF_CAL_LIM2_EYE_MIN)
    let x := if dir = 1 then
        { x with eye := min 1023 (v.mean1 - v.mean0), thr := if rej then x.thr else thrStep x.thr v.mean1 v.mean0 % 1024 }
      else x
    let s := s.setLane w f k dir x
    let s := if rej then s.fibRaise w f k dir 4 else s
    let s := if x.st = .locked && (heat = 0 || heat = 4095) then s.fibRaise w f k dir 9 else s
    if dir = 1 && k = 0 then s.loopEval w f else s
def execAdaptationWindowEnd (weft fib k dir : Nat) (v : Window) (s : State) : Host.Outcome State Fault Refusal :=
  .next (if s.laneUp weft fib k dir && (s.lane weft fib k dir).ok then s.windowEnd weft fib k dir v else s)

/-- PLAUSIBILITY_CHECK (R367). -/
def execPlausibilityCheck (weft fib k dir : Nat) (s : State) : Host.Outcome State Fault Refusal :=
  .next (let x := s.lane weft fib k dir
    if s.laneUp weft fib k dir && decide (x.st = .locked) then
      match (x.hist.filter fun h => decide (h.1 + 10 * msTicks ≤ s.clk.tick)).getLast? with
      | none => s
      | some h =>
        if s.rd (wfTop weft) R.WF_RING_PLAUS_STEP < (x.heat - h.2) + (h.2 - x.heat) then
          (s.laneTo weft fib k dir { x with st := .frozen, heat := h.2, hist := [] }).fibRaise weft fib k dir 2
        else s
    else s)

/-! Planes and the loopback (R356, R373-R375). -/

/-- A fibre plane is enabled or disabled. -/
def State.planeSet (s : State) (w f : Nat) (on : Bool) : State :=
  let s := s.wb (fibPg w f) R.WF_FIB_STAT_GATE on
  let late := match (s.wf w).on0 with
    | some t => decide (t + 1000 * msTicks ≤ s.clk.tick)
    | none => false
  let s := if on && late then s.setFibre w f { s.fibre w f with spent := true } else s
  (List.range 16).foldl (fun s k => [0, 1].foldl (fun s dir =>
    if on then (if (s.lane w f k dir).st = .parked && (s.lane w f k dir).lit then s.acquire w f k dir else s)
    else s.park w f k dir) s) s

/-- WF_PLANE_EN written (R356). -/
def State.planeWrite (s : State) (w v : Nat) : State :=
  let old := s.rd (wfTop w) R.WF_PLANE_EN_EN
  let s := s.wr (wfTop w) R.WF_PLANE_EN_EN v
  (List.range 16).foldl (fun s f => if v.testBit f = old.testBit f then s else s.planeSet w f (v.testBit f)) s

/-- LOOPBACK_IDENTITY (R373, R374): `n` identity blocks in a row on receive lane (f, 0), their payload word but for the count `word`. A control block of
another type is none. -/
def execLoopbackIdentity (weft fib word n : Nat) (s : State) : Host.Outcome State Fault Refusal :=
  .next (if s.laneUp weft fib 0 1 && decide ((s.lane weft fib 0 1).st = .locked) && decide (0 < n) && decide (bits word 0 8 = 0x4C) then
    let p := fibPg weft fib
    let x := s.fibre weft fib
    let pkg := bits word 8 8
    let plane := bits word 16 7
    let good := decide (pkg = s.pkgId) && decide (plane = 16 * weft + fib)
    let x := { x with idRun := if good then min 64 (x.idRun + n) else 0 }
    let s := (s.wr p R.WF_FIB_LOOP_RX_PKG pkg).wr p R.WF_FIB_LOOP_RX_PLANE plane
    ((s.wb p R.WF_FIB_LOOP_ID_OK (decide (64 ≤ x.idRun))).setFibre weft fib x).loopEval weft fib
    else s)

/-- LOOPBACK_TIMEOUT (R375): a plane that has not reached LOOP_OK 1 s after laser 0 turned ON; a plane that software brings back later is not timed
again. -/
def execLoopbackTimeout (weft fib : Nat) (s : State) : Host.Outcome State Fault Refusal :=
  .next (match (s.wf weft).on0 with
    | none => s
    | some t =>
      if s.laneUp weft fib 0 1 && s.planeOn weft fib && !(s.fibre weft fib).spent then
        let s := s.toTick (t + 1000 * msTicks)
        let s := s.setFibre weft fib { s.fibre weft fib with spent := true }
        let s := s.clrBit (wfTop weft) R.WF_PLANE_EN_EN fib
        (s.planeSet weft fib false).fibRaise weft fib 0 1 7
      else s)

/-- WF_FIB_CNT_CLR (Table 11-10). -/
def State.fibCntClr (s : State) (w f : Nat) : State :=
  let s := s.zero (fibPg w f) [R.WF_FIB_STAT_REFUSED, R.WF_FIB_LOOP_ERR]
  (List.range 16).foldl (fun s k => s.setLane w f k 1 { s.lane w f k 1 with hdrErr := 0, testErr := 0, testBits := 0 }) s

/-! Calibration (R369-R372). -/

/-- Round `n / d` to the nearest integer, halves to even. -/
def roundEven (n : Int) (d : Nat) : Int :=
  let q := n / d
  let r := n % d
  if 2 * r < d then q else if (d : Int) < 2 * r then q + 1 else if q % 2 = 0 then q else q + 1

/-- The set temperatures, in quarter degrees. -/
def setTemps : List Int := [140, 200, 260, 320, 380]

/-- The temperatures that a Weft die's fibres (one sensor to two) or a Reed die's rows (one to two wavelengths) have, by sensor (Table 16-1, R369). -/
def State.calTemps (s : State) (d : Nat) : List Int := (List.range 8).map (s.reading d)

/-- The laser row temperature of wavelength `k`, in quarter degrees. -/
def State.rowTemp (s : State) (r k : Nat) : Int := s.reading (0x10 + r) (k / 2)

/-- A value interpolated at a temperature in quarter degrees (R369). -/
def interpolate (vs : Nat → Nat) (t : Int) : Nat :=
  if t ≤ 140 then vs 0
  else if 380 ≤ t then vs 4
  else
    let a := ((setTemps.filter fun x => decide (x ≤ t)).length - 1 : Nat)
    let ta := setTemps.getD a 0
    ((vs a : Int) + roundEven (((vs (a + 1) : Int) - vs a) * (t - ta)) 60).toNat

/-- Whether firmware recomputes a die's shadow bank (R369): a sensor has moved 1.0 °C or more since the last commit. -/
def calMoved (old new : List Int) : Bool :=
  old.isEmpty || (List.range 8).any fun i => let d := new.getD i 0 - old.getD i 0; decide (4 ≤ d) || decide (d ≤ -4)

/-- Firmware writes the shadow bank of a Weft or Reed die from the sets of the generation in use (R369). -/
def State.calRecompute (s : State) (d : Nat) : State :=
  let temps := s.calTemps d
  let temp (i : Nat) : Int := temps.getD (i / 2) 0
  let outside := temps.any fun t => decide (t < 140) || decide (380 < t)
  if isWeft d then
    let w := d - 8
    let gen := s.rd (wfTop w) R.WF_CAL_CTRL_GEN % 4
    let keys := (List.range 16).flatMap fun f => (List.range 128).map fun i => (f, i)
    let s := { s with calSh := keys.foldl (fun m (x : Nat × Nat) =>
      let key := (w * 16 + x.1) * 128 + x.2
      put calZero m key (interpolate (fun t => Config.calSet d gen t (x.1 * 128 + x.2)) (temp x.1) % 65536)) s.calSh }
    let said := (s.wf w).clamp
    let s := s.setWf w { s.wf w with clamp := outside, newT := temps }
    if outside && !said then s.raise (wfTop w) 3 else s
  else
    let r := d - 0x10
    let s := s.setReed r { s.reed r with newT := temps }
    (List.range 16).foldl (fun s k =>
      let p := rdPg r k
      let t := temp k
      let bank := s.rd p R.RD_L_STAT_BANK
      let s := s.wr p R.RD_L_BIAS_SHADOW (interpolate (fun i => Config.calSet d 0 i (k * 4 + bank * 2)) t)
      let s := s.wr p R.RD_L_HEAT_SHADOW (interpolate (fun i => Config.calSet d 0 i (k * 4 + bank * 2 + 1)) t)
      let out := decide (t < 140) || decide (380 < t)
      let said := (s.laserSt r k).clamp
      let s := s.setLaserSt r k { s.laserSt r k with clamp := out }
      if out && !said then s.raise p 5 else s) s

/-- The temperatures and tick of a die's last commit. -/
def State.calLast (s : State) (d : Nat) : List Int × Option Nat :=
  if isWeft d then ((s.wf (d - 8)).calT, (s.wf (d - 8)).calAt) else ((s.reed (d - 0x10)).calT, (s.reed (d - 0x10)).calAt)

/-- A recomputation that is due, no sooner than 100 ms after the last commit (R369). -/
def State.calDue (s : State) (d : Nat) : State :=
  if calMoved (s.calLast d).1 (s.calTemps d) then
    (match (s.calLast d).2 with | some t => s.toTick (t + 100 * msTicks) | none => s).calRecompute d
  else s

/-- Whether a shadow value may replace an active one (R370). -/
def State.calFits (s : State) (w item a b : Nat) : Bool :=
  let gap := (a - b) + (b - a)
  match item with
  | 0 => decide (gap ≤ s.rd (wfTop w) R.WF_CAL_LIM_HEAT)
  | 1 => decide (gap ≤ s.rd (wfTop w) R.WF_CAL_LIM_DRV)
  | 3 => decide (64 ≤ b) && decide (b ≤ 250)
  | _ => true

/-- The keys of a Weft die's calibration banks in which either bank holds a value. -/
def State.calKeys (s : State) (w : Nat) : List Nat :=
  let lo := w * 2048
  ((slice s.calSh lo (lo + 2048)).map Prod.fst ++ (slice s.cal lo (lo + 2048)).map Prod.fst).eraseDups

/-- WF_CAL_CTRL.COMMIT (R370): the shadow bank is checked; `ue` finds an uncorrectable word in it, `ce` a corrected one. The
first value that fails is the lowest fibre, wavelength, direction and item. -/
def State.calCommit (s : State) (w : Nat) (ue ce : Bool) : State :=
  let p := wfTop w
  let s := if ce then s.raise p 0 else s
  if ue then s.raise p 1
  else
    let bad := (s.calKeys w).filter fun key => !s.calFits w (key % 4) (look calZero s.cal key) (look calZero s.calSh key)
    match bad with
    | [] => (s.wb p R.WF_CAL_CTRL_COMMIT true).setWf w { s.wf w with armed := true }
    | b :: r =>
      let key := r.foldl min b
      let s := s.wr p R.WF_CAL_STAT_REJ_ITEM (key % 4 + key / 128 % 16 * 16)
      (s.wb p R.WF_CAL_STAT_REJ true).raise p 2

/-- RD_CAL_CTRL.COMMIT (R370). -/
def State.rdCommit (s : State) (r : Nat) : State :=
  let p := rdTop r
  let gap (a b : Nat) : Nat := (a - b) + (b - a)
  let fits (k : Nat) : Bool :=
    let q := rdPg r k
    decide (gap (s.rd q R.RD_L_BIAS_ACT) (s.rd q R.RD_L_BIAS_SHADOW) ≤ s.rd p R.RD_CAL_CTRL_LIM) &&
      decide (gap (s.rd q R.RD_L_HEAT_ACT) (s.rd q R.RD_L_HEAT_SHADOW) ≤ s.rd p R.RD_CAL_CTRL_HLIM)
  let on := (List.range 16).filter fun k => decide (s.rd (rdPg r k) R.RD_L_STAT_STATE = 2)
  if on.all fits then (s.wb p R.RD_CAL_CTRL_COMMIT true).setReed r { s.reed r with armed := true }
  else (s.wb p R.RD_CAL_CTRL_REJ true).raise p 2

/-- Time is at the next frame boundary. -/
def State.toFrame (s : State) : State := s.passSlots (64 - s.clk.j)

/-- CAL_BANK_EXCHANGE (R370): shadow and active banks exchange at the first frame boundary after the check. -/
def execCalBankExchange (die : Nat) (s : State) : Host.Outcome State Fault Refusal :=
  .next (if isWeft die && s.alive (pg die 0) && (s.wf (die - 8)).armed then
    let s := s.toFrame
    let w := die - 8
    let p := wfTop w
    let lo := w * 2048
    let cal := (s.calKeys w).foldl (fun m key => put calZero m key (look calZero s.calSh key)) s.cal
    let s := { s with cal := cal }
    let s := { s with calSh := (s.calKeys w).foldl (fun m key => if lo ≤ key then put calZero m key (look calZero s.cal key) else m) s.calSh }
    let s := (s.wb p R.WF_CAL_CTRL_COMMIT false).wr p R.WF_CAL_STAT_BANK (1 - s.rd p R.WF_CAL_STAT_BANK)
    (s.addWrap p R.WF_CAL_STAT_COMMIT_CNT 1).setWf w { s.wf w with armed := false, calT := (s.wf w).newT, calAt := some s.clk.tick }
  else if isReed die && s.alive (pg die 0) && (s.reed (die - 0x10)).armed then
    let s := s.toFrame
    let r := die - 0x10
    let s := (List.range 16).foldl (fun s k =>
      let q := rdPg r k
      if s.rd q R.RD_L_STAT_STATE = 2 then
        (s.wr q R.RD_L_BIAS_ACT (s.rd q R.RD_L_BIAS_SHADOW)).wr q R.RD_L_HEAT_ACT (s.rd q R.RD_L_HEAT_SHADOW) else s) s
    let s := (s.wb (rdTop r) R.RD_CAL_CTRL_COMMIT false).wb (rdTop r) R.RD_CAL_CTRL_RECAL false
    s.setReed r { s.reed r with armed := false, calT := (s.reed r).newT, calAt := some s.clk.tick }
  else s)

/-! Lasers (R376-R380). -/

/-- Codes of RD_L_STAT.STATE. -/
def rdOff : Nat := 0
def rdWarm : Nat := 1
def rdOn : Nat := 2
def rdSparing : Nat := 3
def rdFailed : Nat := 4

/-- A Reed die tells the Weft dies it feeds whether laser `k` is ON (R378). -/
def State.laserTell (s : State) (r k : Nat) (on : Bool) : State :=
  let s := s.putBit (rdTop r) R.RD_STAT_ON k on
  let ws := (List.range 8).filter fun w => (s.rd (rdTop r) R.RD_IDENT_FEEDS).testBit w
  { s with notes := s.notes ++ ws.map fun w => (8 + w, .laser r k on) }

/-- A laser is turned off. -/
def State.laserOff (s : State) (r k st : Nat) : State :=
  let p := rdPg r k
  let was := (s.rd (rdTop r) R.RD_STAT_ON).testBit k
  let s := (s.wr p R.RD_L_STAT_STATE st).wr p R.RD_L_PWR_OUT 0
  if was then s.laserTell r k false else s

/-- A laser enters WARM at the bias and heater of its interpolated set, which the shadow then holds too (R377); a bias past its maximum is held there
(R378). -/
def State.laserWarm (s : State) (r k st : Nat) : State :=
  let p := rdPg r k
  let bank := if st = rdSparing then 1 else s.rd p R.RD_L_STAT_BANK
  let t := s.rowTemp r k
  let need := interpolate (fun i => Config.calSet (0x10 + r) 0 i (k * 4 + bank * 2)) t
  let bias := min need (s.rd p R.RD_L_BIASMAX_MAX)
  let s := if bias < need then s.raise p 2 else s
  let heat := interpolate (fun i => Config.calSet (0x10 + r) 0 i (k * 4 + bank * 2 + 1)) t
  let s := (s.wr p R.RD_L_BIAS_ACT bias).wr p R.RD_L_HEAT_ACT heat
  let s := (s.wr p R.RD_L_BIAS_SHADOW bias).wr p R.RD_L_HEAT_SHADOW heat
  (s.wr p R.RD_L_STAT_STATE st).setLaserSt r k { s.laserSt r k with since := s.clk.tick }

def State.lightOk (s : State) (r : Nat) : Bool := s.bit (rdTop r) R.RD_CTRL_LIGHT_OK

/-- Whether the bank in use has a laser that can run. -/
def State.bankFailed (s : State) (r k : Nat) : Bool :=
  let p := rdPg r k
  if s.bit p R.RD_L_STAT_BANK then s.bit p R.RD_L_STAT_B_FAIL else s.bit p R.RD_L_STAT_A_FAIL

/-- A laser that is wanted on starts where light is permitted (R376). -/
def State.laserWant (s : State) (r k : Nat) : State :=
  let p := rdPg r k
  if s.bit p R.RD_L_CTRL_ON && s.lightOk r && !s.bit (rdTop r) R.RD_CTRL_ALL_OFF && s.rd p R.RD_L_STAT_STATE = rdOff && !s.bankFailed r k
  then s.laserWarm r k rdWarm else s

/-- LASER_GROUP_START (R377): every 5 ms from LIGHT_OK the next four wavelengths start. -/
def execLaserGroupStart (reed : Nat) (s : State) : Host.Outcome State Fault Refusal :=
  .next (match (s.reed reed).lightAt with
    | none => s
    | some t =>
      let g := (s.reed reed).groups
      if reed < 2 && s.alive (rdTop reed) && s.lightOk reed && g < 4 then
        let s := s.toTick (t + 5 * g * msTicks)
        let s := s.setReed reed { s.reed reed with groups := g + 1 }
        (List.range 4).foldl (fun s i => (s.wb (rdPg reed (4 * g + i)) R.RD_L_CTRL_ON true).laserWant reed (4 * g + i)) s
      else s)

/-- The acting Hoop's firmware records a sparing in the sparing map of its flash (R379), where flash may be written (R508). -/
def State.spareRecord (s : State) (r k : Nat) : State :=
  match s.acting with
  | some h => if s.nvOk h then s.setFlash h { s.flashOf h with spared := (s.flashOf h).spared ||| 2 ^ (16 * r + k) } else s.nvRefuse h
  | none => s

/-- LASER_WARM_END (R377, R379): after RD_WARM the output `out` (0.1 mW) has stayed within 5 % of the target for 1 ms. -/
def execLaserWarmEnd (reed k out : Nat) (s : State) : Host.Outcome State Fault Refusal :=
  .next (let p := rdPg reed k
    let st := s.rd p R.RD_L_STAT_STATE
    let tgt := s.rd (rdTop reed) R.RD_PWR_TGT_MW * 10
    if reed < 2 && k < 16 && s.alive (rdTop reed) && s.alive p && (st = rdWarm || st = rdSparing)
        && decide (20 * ((out - tgt) + (tgt - out)) ≤ tgt) then
      let x := s.laserSt reed k
      let s := s.toTick (x.since + (s.rd (rdTop reed) R.RD_WARM_MS + 1) * msTicks)
      let s := (s.wr p R.RD_L_STAT_STATE rdOn).wr p R.RD_L_PWR_OUT out
      let s := if st = rdSparing then
          let s := (s.wb p R.RD_L_STAT_BANK true).setBit (rdTop reed) R.RD_STAT_BANK_B k
          let s := (s.wb p R.RD_L_CTRL_SPARE false).wr p R.RD_L_SPARE_US (min ((s.clk.tick - x.failAt) / usTicks) (2 ^ 32 - 1))
          (s.spareRecord reed k).raise p 4
        else s
      s.laserTell reed k true
    else s)

/-- Sparing starts (R379). -/
def State.spareStart (s : State) (r k since : Nat) : State :=
  let s := (s.wb (rdPg r k) R.RD_L_STAT_A_FAIL true).laserOff r k rdSparing
  let s := s.laserWarm r k rdSparing
  s.setLaserSt r k { s.laserSt r k with failAt := since }

/-- A laser has failed (R378-R380). -/
def State.laserFail (s : State) (r k since : Nat) : State :=
  let p := rdPg r k
  let b := s.bit p R.RD_L_STAT_BANK || decide (s.rd p R.RD_L_STAT_STATE = rdSparing)
  let s := s.wb p (if b then R.RD_L_STAT_B_FAIL else R.RD_L_STAT_A_FAIL) true
  let s := s.raise p 0
  if b || s.bit p R.RD_L_STAT_B_FAIL then ((s.laserOff r k rdFailed).wb p R.RD_L_CTRL_SPARE false).raise p 3
  else if s.bit (rdTop r) R.RD_CTRL_AUTO_SPARE then s.spareStart r k since
  else s.laserOff r k rdOff

/-- RD_LASER_FAIL (R378): output `out` (0.1 mW) below FAIL_PCT of the target since tick `since` for 100 µs, or a driver's open or short circuit. The
output of a laser that warms up counts once RD_WARM has passed (DEDUCED, log entry 72). -/
def execRdLaserFail (reed k since out : Nat) (driver : Bool) (s : State) : Host.Outcome State Fault Refusal :=
  .next (let st := s.rd (rdPg reed k) R.RD_L_STAT_STATE
    let t := rdTop reed
    let low := decide (out * 100 < s.rd t R.RD_PWR_TGT_MW * 10 * s.rd t R.RD_PWR_TGT_FAIL_PCT)
      && (decide (st = rdOn) || decide ((s.laserSt reed k).since + s.rd t R.RD_WARM_MS * msTicks ≤ since))
    if reed < 2 && k < 16 && s.alive (rdTop reed) && s.alive (rdPg reed k) && (st = rdWarm || st = rdOn || st = rdSparing) && (driver || low) then
      (if driver then s else s.toTick (since + 100 * usTicks)).laserFail reed k since
    else s)

/-- RD_PWR_LOW (R378): output `out` below LOW_PCT since tick `since` for 10 ms. -/
def execRdPwrLow (reed k since out : Nat) (s : State) : Host.Outcome State Fault Refusal :=
  .next (let p := rdPg reed k
    let t := rdTop reed
    if reed < 2 && k < 16 && s.alive t && s.alive p && decide (s.rd p R.RD_L_STAT_STATE = rdOn)
        && decide (out * 100 < s.rd t R.RD_PWR_TGT_MW * 10 * s.rd t R.RD_PWR_TGT_LOW_PCT) then
      ((s.toTick (since + 10 * msTicks)).wr p R.RD_L_PWR_OUT out).raise p 1
    else s)

/-- RD_SWITCH_FAIL (R383): the switch did not reach bank B within 1 ms; the laser counts as failed. -/
def execRdSwitchFail (reed k : Nat) (s : State) : Host.Outcome State Fault Refusal :=
  .next (if reed < 2 && k < 16 && s.alive (rdTop reed) && s.alive (rdPg reed k) && decide (s.rd (rdPg reed k) R.RD_L_STAT_STATE = rdSparing) then
    let s := s.toTick ((s.laserSt reed k).since + (s.rd (rdTop reed) R.RD_WARM_MS + 2) * msTicks)
    (s.raise (rdTop reed) 1).laserFail reed k s.clk.tick
    else s)

/-- RD_L_CTRL.ON written (R376). -/
def State.laserOnWrite (s : State) (r k : Nat) (on : Bool) : State :=
  if on && !s.lightOk r then s.raise (rdTop r) 0
  else
    let s := s.wb (rdPg r k) R.RD_L_CTRL_ON on
    let st := s.rd (rdPg r k) R.RD_L_STAT_STATE
    if on then s.laserWant r k else if st = rdOff || st = rdFailed then s else s.laserOff r k rdOff

/-- RD_CTRL.ALL_OFF written (R376, R383). -/
def State.allOffWrite (s : State) (r : Nat) (off : Bool) : State :=
  let wanted := (List.range 16).any fun k => s.bit (rdPg r k) R.RD_L_CTRL_ON
  if !off && s.bit (rdTop r) R.RD_CTRL_ALL_OFF && !s.lightOk r && wanted then s.raise (rdTop r) 0
  else
    let s := s.wb (rdTop r) R.RD_CTRL_ALL_OFF off
    (List.range 16).foldl (fun s k =>
      let st := s.rd (rdPg r k) R.RD_L_STAT_STATE
      if off then (if st = rdOff || st = rdFailed then s else s.laserOff r k rdOff) else s.laserWant r k) s

/-- RD_L_CTRL.SPARE written (R379); ignored while bank B is in use or failed, or every laser is to be off (log entry 72), dropped without light
(R376). -/
def State.spareWrite (s : State) (r k : Nat) : State :=
  let p := rdPg r k
  if s.bit p R.RD_L_STAT_BANK || s.bit p R.RD_L_STAT_B_FAIL || decide (s.rd p R.RD_L_STAT_STATE = rdSparing) || s.bit (rdTop r) R.RD_CTRL_ALL_OFF
  then s
  else if !s.lightOk r then s.raise (rdTop r) 0
  else (s.wb p R.RD_L_CTRL_SPARE true).spareStart r k s.clk.tick

/-- RD_CAL_CTRL.RECAL written (R372): the bias that each ON laser needs is what its measurement shows (a free value), held at its limit and
within one step of the present bias. -/
def State.recal (s : State) (r : Nat) : State :=
  let s := (s.setReed r { s.reed r with recals := (s.reed r).recals + 1 }).wb (rdTop r) R.RD_CAL_CTRL_RECAL true
  let s := (List.range 16).foldl (fun s k =>
    let p := rdPg r k
    if s.rd p R.RD_L_STAT_STATE = rdOn then
      let x := s.draw
      let s := x.1
      let act := s.rd p R.RD_L_BIAS_ACT
      let lim := s.rd (rdTop r) R.RD_CAL_CTRL_LIM
      let top := s.rd p R.RD_L_BIASMAX_MAX
      let need := x.2 % 1024
      let s := if top < need then s.raise p 2 else s
      s.wr p R.RD_L_BIAS_SHADOW (min (act + lim) (max (act - lim) (min need top)))
    else s) s
  s.rdCommit r

/-- The banks that the sparing map in the acting Hoop's flash names (R377). -/
def State.spareBanks (s : State) (r : Nat) : State :=
  let map := (s.flashOf (s.acting.getD 0)).spared
  (List.range 16).foldl (fun s k =>
    if map.testBit (16 * r + k) then
      ((s.wb (rdPg r k) R.RD_L_STAT_BANK true).wb (rdPg r k) R.RD_L_STAT_A_FAIL true).setBit (rdTop r) R.RD_STAT_BANK_B k
    else s) s

/-- LIGHT_OK set or cleared (R376). -/
def State.light (s : State) (r : Nat) (on : Bool) : State :=
  let s := s.wb (rdTop r) R.RD_CTRL_LIGHT_OK on
  if on then
    let s := s.spareBanks r
    s.setReed r { s.reed r with lightAt := some s.clk.tick, groups := 0 }
  else
    let s := s.setReed r { s.reed r with lightAt := none, groups := 0 }
    (List.range 16).foldl (fun s k => let st := s.rd (rdPg r k) R.RD_L_STAT_STATE
      if st = rdOff || st = rdFailed then s else s.laserOff r k rdOff) s

/-- A Weft die learns whether a feeding laser is ON (R378). -/
def State.laserNote (s : State) (w k : Nat) (on : Bool) : State :=
  let s := s.putBit (wfTop w) R.WF_LASER_ON_ON k on
  let s := if on && k = 0 && (s.wf w).on0.isNone then s.setWf w { s.wf w with on0 := some s.clk.tick } else s
  if on then s else (List.range 16).foldl (fun s f => if s.alive (fibPg w f) then s.inputDark w f k 0 else s) s

end Sys2Proof.Machine
end

