-- ==== Sys2Proof/Machine/Slew.lean ====
section
/-! DEFINITION. The host interface (15_host_interface.md): the PCIe endpoints, Slew queues, DMA, and the audit records that leave through
an event queue (R320). The queue's own HCLK cycles are not counted: a command's lines are in the bank when it ends. -/

namespace Sys2Proof.Machine

/-! Queues. -/

def dmaZero : Nat → Dma := fun _ => {}
def State.setSq (s : State) (h q : Nat) (x : Sq) : State := { s with sqs := put sqZero s.sqs (h * 80 + q) x }
def State.dma (s : State) (h c : Nat) : Dma := look dmaZero s.dmas (h * 8 + c)
def State.setDma (s : State) (h c : Nat) (x : Dma) : State := { s with dmas := put dmaZero s.dmas (h * 8 + c) x }

def pciePg (h : Nat) : Nat := pg (0x12 + h) 0x10
def sqPg (h q : Nat) : Nat := pg (0x12 + h) (0x100 + q)

/-- Whether a Hoop's endpoint serves queue `q`. -/
def State.sqOk (s : State) (h q : Nat) : Bool := decide (h < 2) && decide (q < 80) && s.alive (pciePg h) && s.alive (sqPg h q)


/-- Free ordinary lines of the fill bank. -/
def Sq.free (x : Sq) : Nat := if x.trunc then 0 else 255 - x.used

/-- A line enters the fill bank (R474, R475). -/
def Sq.write (x : Sq) (words : List Nat) (vbytes : Nat) (fin poi : Bool) : Sq :=
  { x with fill := x.fill ++ [⟨words ++ List.replicate (7 - words.length) 0, fin, decide (x.lines = 0), poi, vbytes, x.resync, x.pkt, x.seq⟩],
           used := x.used + 1, resync := false, seq := (x.seq + 1) % 2 ^ 32, lines := x.lines + 1, fresh := false }

/-- The truncation line enters the reserved line (R476). -/
def Sq.truncate (x : Sq) : Sq :=
  { x with fill := x.fill ++ [⟨List.replicate 7 0, true, false, true, 0, x.resync, x.pkt, x.seq⟩], trunc := true, resync := false,
           seq := (x.seq + 1) % 2 ^ 32, lines := 0, pkt := (x.pkt + 1) % 2 ^ 16 }

/-- Watermark evaluation at the end of a producer transaction (R481). -/
def State.sqEval (s : State) (h q : Nat) : State :=
  let p := sqPg h q
  let x := s.sq h q
  let lvl := x.level
  let wm := max 1 (s.rd p R.SQ_CFG_WM)
  let s := s.setSq h q { x with wmPrev := lvl }
  if wm ≤ lvl && x.wmPrev < wm then
    let s := ((s.inc p R.SQ_WM_CNT).wr p R.SQ_WM_LAST lvl).raise p 3
    if s.bit p R.SQ_WM_HIT then s
    else
      let s := s.wb p R.SQ_WM_HIT true
      if s.bit p R.SQ_CFG_WM_INT then s.msix h (s.rd p R.SQ_CFG_VEC) else s
  else s

/-- The end of a packet of which words were discarded: it has its number if it wrote a line (DEDUCED, log entry 73). -/
def Sq.lostEnd (x : Sq) : Sq := { x with pkt := if x.lines = 0 then x.pkt else (x.pkt + 1) % 2 ^ 16, lines := 0 }

/-- One word of a producer. `last`: the packet's last word, with `short` if only 4 of its bytes are valid. -/
def State.sqWord (s : State) (h q w : Nat) (last short poi : Bool) : State :=
  let p := sqPg h q
  let x := s.sq h q
  if x.drop || x.flushing.isSome then
    (s.setSq h q (if last then { x.lostEnd with drop := false, flushing := none, inside := false } else x)).inc p R.SQ_CNT_DROP
  else
    let reg := x.reg ++ [w]
    let poi := x.regPoi || poi
    if reg.length < 7 && !last then s.setSq h q { x with reg := reg, regPoi := poi, inside := true }
    else if 0 < x.free then
      let x := { x with reg := [], regPoi := false, inside := !last }.write reg (8 * reg.length - if last && short then 4 else 0) last poi
      s.setSq h q (if last then { x with lines := 0, pkt := (x.pkt + 1) % 2 ^ 16, accepted := (x.accepted + 1) % 2 ^ 32 } else x)
    else
      let s := ((s.wb p R.SQ_STAT_OVERRUN true).inc p R.SQ_CNT_OVR).addSat p R.SQ_CNT_DROP (x.reg.length + 1)
      let y := { x with reg := [], regPoi := false, inside := !last, drop := !last }
      (s.setSq h q (if x.lines = 0 then y else y.truncate)).raise p 0

/-- The words of a packet in order, the last one closing it. -/
def State.sqWords (s : State) (h q : Nat) (ws : List Nat) (close short poi : Bool) : State :=
  match ws with
  | [] => s
  | [w] => s.sqWord h q w close short poi
  | w :: r => (s.sqWord h q w false false poi).sqWords h q r close short poi

/-- The little-endian 8-byte words of a list of bytes. -/
def wordsOf (bs : List Byte) : Nat → List Nat
  | 0 => []
  | n + 1 => (bs.take 8).foldr (fun b a => b.toNat + 256 * a) 0 :: wordsOf (bs.drop 8) n

/-- A completion leaves for the host. -/
def State.complete (s : State) (c : Cpl) : State := { s with out := { s.out with cpls := s.out.cpls ++ [c] } }

/-- A request the endpoint does not support: a read completes with Unsupported Request, which PCIE_UR reports; a write is dropped; both count (R467,
Table 15-10). -/
def State.unsupported (s : State) (h : Nat) (read : Bool) : State :=
  let s := s.inc (pciePg h) R.PCIE_UR_CNT
  if read then (s.raise (pciePg h) 3).complete ⟨h, [], false, true⟩ else s

/-- BAR4's MSI-X table and PBA, whose contents the spec leaves to PCIe (log entry 34). -/
def msixWindow (q : Nat) : Bool := decide (q = 0xF0) || decide (q = 0xF1)

/-- A TLP that writes into a queue window (R472). -/
def State.cmdWrite (s : State) (h q off : Nat) (data : List Byte) (poi : Bool) (fin : Bool) : State :=
  if msixWindow q then s
  else if 80 ≤ q then s.unsupported h false
  else if !s.sqOk h q then s
  else
    let n := data.length
    let good := decide (q < 64) && decide (0 < n) && decide (n ≤ 512) && (if fin then decide (n % 4 = 0) && decide (off % 4 = 0) && decide (0x800 ≤ off)
        && decide (off < 0x1000) else decide (n % 8 = 0) && decide (off % 8 = 0) && decide (off < 0x800))
    if !good then s.raise (sqPg h q) 5
    else
      let s := if poi then s.raise (pciePg h) 4 else s
      (s.sqWords h q (wordsOf data ((n + 7) / 8)) fin (decide (n % 8 = 4)) poi).sqEval h q

/-- CMD_DATA_WRITE (R472): `off` lies in the window's DATA region. -/
def execCmdDataWrite (hoop q off : Nat) (data : List Byte) (poi : Bool) (s : State) : Host.Outcome State Fault Refusal :=
  .next (if hoop < 2 && s.alive (pciePg hoop) then s.cmdWrite hoop q off data poi false else s)

/-- CMD_DATA_END_WRITE (R472): the last word ends the packet. -/
def execCmdDataEndWrite (hoop q off : Nat) (data : List Byte) (poi : Bool) (s : State) : Host.Outcome State Fault Refusal :=
  .next (if hoop < 2 && s.alive (pciePg hoop) then s.cmdWrite hoop q off data poi true else s)

/-- A read the queue windows do not offer (Table 15-4). -/
def State.badRead (s : State) (h q : Nat) : State :=
  if msixWindow q then s else (if q < 80 then s.raise (sqPg h q) 5 else s).unsupported h true

/-- CMD_STATUS_READ (Table 15-4). -/
def execCmdStatusRead (hoop q off len : Nat) (s : State) : Host.Outcome State Fault Refusal :=
  .next (if hoop < 2 && s.alive (pciePg hoop) then
    if s.sqOk hoop q && q < 64 && off = 0 && len = 8 then
      let x := s.sq hoop q
      let v := x.free + (if s.bit (sqPg hoop q) R.SQ_STAT_OVERRUN then 2 ^ 16 else 0) + (if x.drop then 2 ^ 17 else 0) + x.accepted * 2 ^ 32
      s.complete ⟨hoop, (leBytes 8 v).map (BitVec.ofNat 8), false, false⟩
    else s.badRead hoop q
    else s)

/-- The 64 bytes of a line, or of an empty read (R475). -/
def sqBytes (x : Sq) (l : Option SqLine) (hold : Bool) : List Byte :=
  let tag := match l with
    | some l => 1 + (if l.fin then 2 else 0) + (if l.first then 4 else 0) + (if l.poi then 8 else 0) + l.vbytes * 16
        + (if l.resync then 2 ^ 10 else 0) + l.pkt * 2 ^ 16 + l.seq * 2 ^ 32
    | none => (if hold then 2 ^ 11 else 0) + x.pkt * 2 ^ 16 + x.seq * 2 ^ 32
  let ws := match l with
    | some l => l.words
    | none => List.replicate 7 0
  ((ws ++ [tag]).flatMap (leBytes 8)).map (BitVec.ofNat 8)

/-- Words of a line that fail parity are delivered as stored, poisoned (R478). -/
def State.sqParity (s : State) (h q : Nat) (par : List Nat) (l : Option SqLine) : State × Option SqLine :=
  match l with
  | some l =>
    let n := (par.filter (· < 7)).length
    if n = 0 then (s, some l) else ((s.addSat (sqPg h q) R.SQ_CNT_PARITY n).raise (sqPg h q) 2, some { l with poi := true })
  | none => (s, none)

/-- An event queue read: the next line, freed by a POP (R479). -/
def State.eventRead (s : State) (h q : Nat) (pop : Bool) (par : List Nat) : State :=
  let x := s.sq h q
  let l := if x.flushing.isSome then none else x.drain.head?
  let r := s.sqParity h q par l
  let s := r.1
  let s := if pop && l.isSome then (s.setSq h q { x with drain := x.drain.tail, freed := x.freed + 1 }).addWrap (sqPg h q) R.SQ_CNT_LINES 1 else s
  s.complete ⟨h, sqBytes x r.2 false, false, false⟩

/-- EVENT_POP (R479). -/
def execEventPop (hoop q off len : Nat) (par : List Nat) (s : State) : Host.Outcome State Fault Refusal :=
  .next (if hoop < 2 && s.alive (pciePg hoop) then
    if s.sqOk hoop q && 64 ≤ q && off = 0 && len = 64 then s.eventRead hoop q true par else s.badRead hoop q
    else s)

/-- EVENT_PEEK (R479). -/
def execEventPeek (hoop q off len : Nat) (par : List Nat) (s : State) : Host.Outcome State Fault Refusal :=
  .next (if hoop < 2 && s.alive (pciePg hoop) then
    if s.sqOk hoop q && 64 ≤ q && off = 0x40 && len = 64 then s.eventRead hoop q false par else s.badRead hoop q
    else s)

/-- CMD_QUEUE_READ (R480): the consumer reads the next line; an empty read advances nothing. -/
def State.cmdRead (s : State) (h q : Nat) (par : List Nat) : State × Option SqLine :=
  let x := s.sq h q
  let r := s.sqParity h q par x.drain[x.rd]?
  (if r.2.isSome then r.1.setSq h q { x with rd := x.rd + 1 } else r.1, r.2)
def execCmdQueueRead (hoop q : Nat) (par : List Nat) (s : State) : Host.Outcome State Fault Refusal :=
  .next (if s.sqOk hoop q && q < 64 then (s.cmdRead hoop q par).1 else s)

/-- BANK_SWAP (R471). -/
def execBankSwap (hoop q : Nat) (s : State) : Host.Outcome State Fault Refusal :=
  .next (let x := s.sq hoop q
    if s.sqOk hoop q && x.drain.isEmpty && !x.fill.isEmpty then
      s.setSq hoop q { x with drain := x.fill, fill := [], used := 0, trunc := false, freed := 0, bank := 1 - x.bank, rd := 0, mark := none }
    else s)

/-- The rest of a packet that firmware is entering (R477). -/
def State.sqFinish (s : State) (h q : Nat) : State :=
  match (s.sq h q).rest with
  | [] => s
  | w :: r => ((s.setSq h q { s.sq h q with rest := [] }).sqWords h q (w :: r) true false false).sqEval h q

/-- A whole packet offered to an event queue (R477), entered at once; answers whether it was accepted. It comes after every line of the packet before
it, whose words firmware then has entered (DESIGN CHOICE, log entry 73). -/
def State.sqOffer (s : State) (h q : Nat) (ws : List Nat) : State × Bool :=
  let s := if s.sqOk h q && decide (64 ≤ q) then s.sqFinish h q else s
  let x := s.sq h q
  if !(s.sqOk h q) || decide (q < 64) then (s, false)
  else if x.free < (ws.length + 6) / 7 then
    (((s.wb (sqPg h q) R.SQ_STAT_OVERRUN true).inc (sqPg h q) R.SQ_CNT_REFUSED).raise (sqPg h q) 0, false)
  else ((s.sqWords h q ws true false false).sqEval h q, true)

/-- EVENT_PACKET_OFFER (R477): firmware's packet, of which `now` words enter at once. What a packet has still to enter comes first: then
`ws` is not looked at. -/
def execEventPacketOffer (hoop q : Nat) (ws : List Nat) (now : Nat) (s : State) : Host.Outcome State Fault Refusal :=
  .next (let x := s.sq hoop q
    if s.sqOk hoop q && 64 ≤ q then
      match x.rest with
      | _ :: _ => s.sqFinish hoop q
      | [] =>
        if ws.isEmpty then s
        else if ws.length ≤ now then (s.sqOffer hoop q ws).1
        else if x.free < (ws.length + 6) / 7 then (s.sqOffer hoop q ws).1
        else (s.setSq hoop q { x with rest := ws.drop now }).sqWords hoop q (ws.take now) false false false
    else s)

/-- The queue resets (R478): lines, packing register and flush go; a producer within a packet has the rest of it dropped. -/
def State.sqReset (s : State) (h q : Nat) : State :=
  let x := s.sq h q
  let within := x.inside || !x.rest.isEmpty
  s.setSq h q { drop := within, inside := within, resync := true, rest := x.rest, accepted := x.accepted, wmPrev := x.wmPrev }

/-- A channel's descriptor ends ABORTED (R485): the channel rewinds and stops; `rec`: a completion record is written. -/
def State.dmaStop (s : State) (h c status moved : Nat) (rec : Bool) : State :=
  let p := pciePg h
  match (s.dma h c).active with
  | none => s
  | some d =>
    let x := s.sq h c
    let s := s.setSq h c { x with rd := (x.mark.getD 0) }
    let s := (s.setDma h c {}).setBit p R.PCIE_DMA_CTRL_STOPPED c
    let w2 := d.getD 2 0
    let s := if rec && bits w2 46 1 = 1 then (s.sqOffer h (bits w2 48 7) [bits (d.getD 3 0) 0 32 + status * 2 ^ 32, moved]).1 else s
    s.raise p 7

/-- SLEW_PTR (R478). -/
def execSlewPtr (hoop q : Nat) (s : State) : Host.Outcome State Fault Refusal :=
  .next (if s.sqOk hoop q then
    let s := if q < 8 then s.dmaStop hoop q 5 0 true else s
    (((s.sqReset hoop q).wb (sqPg hoop q) R.SQ_STAT_PTR_RESET true).inc (sqPg hoop q) R.SQ_CNT_RESET).raise (sqPg hoop q) 1
    else s)

/-- SQ_CONS written (R480): REWIND, RELEASE, MARK in that order. -/
def State.sqCons (s : State) (h q : Nat) (mark rewind release : Bool) : State :=
  if 64 ≤ q then s
  else
    let x := s.sq h q
    let x := if rewind then { x with rd := x.mark.getD 0 } else x
    let n := if release then x.rd else 0
    let x := if release then { x with drain := x.drain.drop n, freed := x.freed + n, rd := 0, mark := none } else x
    let x := if mark then { x with mark := some x.rd } else x
    (s.setSq h q x).addWrap (sqPg h q) R.SQ_CNT_LINES n

/-- SQ_WM.HIT written 1 (R482). -/
def State.wmClear (s : State) (h q : Nat) : State :=
  let p := sqPg h q
  let s := (s.wb p R.SQ_WM_HIT false).wr p R.SQ_WM_CNT 0
  if max 1 (s.rd p R.SQ_CFG_WM) ≤ (s.sq h q).level then
    let s := s.wb p R.SQ_WM_HIT true
    if s.bit p R.SQ_CFG_WM_INT then s.msix h (s.rd p R.SQ_CFG_VEC) else s
  else s

/-- SQ_CTRL.FLUSH written (R483). -/
def State.sqFlush (s : State) (h q : Nat) : State :=
  let x := s.sq h q
  if q < 64 || x.flushing.isSome then s
  else
    let n := x.level
    let s := (s.addWrap (sqPg h q) R.SQ_CNT_LINES n).addSat (sqPg h q) R.SQ_CNT_DROP x.reg.length
    s.setSq h q { x with fill := [], used := 0, trunc := false, drain := [], freed := 0, reg := [], regPoi := false, resync := true,
                         flushing := if x.inside || !x.rest.isEmpty then some s.clk.tick else none }

/-- FLUSH_TRUNC (R483): the packet's last word has not come within SQ_FLUSH_TMO. -/
def execFlushTrunc (hoop q : Nat) (s : State) : Host.Outcome State Fault Refusal :=
  .next (match (s.sq hoop q).flushing with
    | none => s
    | some t =>
      if s.sqOk hoop q then
        let s := s.toTick (t + max 1 (s.rd (sqPg hoop q) R.SQ_FLUSH_TMO_US) * usTicks)
        let s := s.setSq hoop q { s.sq hoop q with flushing := none, drop := true }
        (s.wb (sqPg hoop q) R.SQ_STAT_TRUNC true).raise (sqPg hoop q) 4
      else s)

/-- SQ_CTRL.RESET written (R483): a command queue resets without SLEW_PTR; a DMA channel ends its descriptor and stops (R478). -/
def State.sqResetWrite (s : State) (h q : Nat) : State :=
  if 64 ≤ q then s else (if q < 8 then s.dmaStop h q 5 0 true else s).sqReset h q

/-- SQ_CNT_CLR (Table 15-13). -/
def State.sqCntClr (s : State) (h q : Nat) : State :=
  s.zero (sqPg h q) [R.SQ_CNT_OVR, R.SQ_CNT_REFUSED, R.SQ_CNT_RESET, R.SQ_CNT_PARITY, R.SQ_CNT_DROP, R.SQ_CNT_LINES]

/-! DMA (R484, R485). -/

/-- The packet at the head of a command queue: its words and whether it is a single good line; how many lines it takes. -/
def packetAt (ls : List SqLine) : List Nat × Bool × Nat × Bool :=
  match ls.findIdx? SqLine.fin with
  | none => ([], false, ls.length, false)
  | some i =>
    let l := ls.getD 0 ⟨[], true, true, false, 0, false, 0, 0⟩
    (l.words.take 4, decide (i = 0) && decide (l.vbytes = 32) && !l.poi, i + 1, true)

/-- Whether a descriptor's fields are well formed (Table 15-7). -/
def dmaGood (d : List Nat) : Bool :=
  let w1 := d.getD 1 0
  let w2 := d.getD 2 0
  let w3 := d.getD 3 0
  decide (w1 / 2 ^ 42 = 0) && decide (bits w2 47 1 = 0) && decide (w2 / 2 ^ 55 = 0) && decide (w3 / 2 ^ 32 = 0)
    && decide (bits w2 0 32 ≠ 0) && decide (bits w2 0 32 % 8 = 0)

/-- A completion record, if asked for (R485). -/
def State.dmaRecord (s : State) (h : Nat) (d : List Nat) (status moved : Nat) : State :=
  let w2 := d.getD 2 0
  if bits w2 46 1 = 1 then (s.sqOffer h (bits w2 48 7) [bits (d.getD 3 0) 0 32 + status * 2 ^ 32, moved]).1 else s

/-- DMA_DESCRIPTOR (R484): an enabled channel takes the next packet, marks it and starts, or ends it with FORMAT. -/
def execDmaDescriptor (hoop chan : Nat) (s : State) : Host.Outcome State Fault Refusal :=
  .next (let p := pciePg hoop
    let x := s.sq hoop chan
    let y := s.dma hoop chan
    if chan < 8 && s.sqOk hoop chan && (s.rd p R.PCIE_DMA_CTRL_EN).testBit chan && !(s.rd p R.PCIE_DMA_CTRL_STOPPED).testBit chan
        && y.active.isNone && x.rd < x.drain.length then
      let (d, one, n, ended) := packetAt (x.drain.drop x.rd)
      let s := s.sqCons hoop chan true false false
      if one && !y.skip && dmaGood d then
        (s.setSq hoop chan { s.sq hoop chan with rd := x.rd + n }).setDma hoop chan { active := some d }
      else
        let s := (s.setSq hoop chan { s.sq hoop chan with rd := x.rd + n }).sqCons hoop chan false false true
        let s := s.setDma hoop chan { skip := !ended }
        if y.skip then s else s.dmaRecord hoop d 4 0
    else s)

/-- The line an access of a host engine reaches, by the home die's Stake table (R261, R485). -/
def State.hostLine (s : State) (addr : Nat) (write : Bool) : Option (Nat × Nat) :=
  match s.hostPlace addr write false with
  | .inl x => some x
  | .inr _ => none

/-- PCIE_DMA_CTRL.RESTART written (R485). -/
def State.dmaRestart (s : State) (h mask : Nat) : State :=
  (List.range 8).foldl (fun s c => if mask.testBit c then s.clrBit (pciePg h) R.PCIE_DMA_CTRL_STOPPED c else s) s

/-- PCIE_DMA_CTRL.EN written (R485). -/
def State.dmaEnable (s : State) (h v : Nat) : State :=
  let old := s.rd (pciePg h) R.PCIE_DMA_CTRL_EN
  let s := s.wr (pciePg h) R.PCIE_DMA_CTRL_EN v
  (List.range 8).foldl (fun s c => if old.testBit c && !v.testBit c then s.dmaStop h c 5 0 true else s) s

/-! The endpoint (R465-R468). -/

/-- The registers of an SQ page that PERST_N resets: it keeps SQ_CFG and SQ_FLUSH_TMO (R466). -/
def sqLost : List Fld :=
  [R.SQ_STAT_OVERRUN, R.SQ_STAT_PTR_RESET, R.SQ_STAT_TRUNC, R.SQ_WM_HIT, R.SQ_WM_CNT, R.SQ_WM_LAST, R.SQ_CNT_OVR, R.SQ_CNT_REFUSED,
   R.SQ_CNT_RESET, R.SQ_CNT_PARITY, R.SQ_CNT_DROP, R.SQ_CNT_LINES]

/-- PERST (R466). -/
def State.perst (s : State) (h : Nat) : State :=
  let p := pciePg h
  let s := (List.range 8).foldl (fun s c => s.setDma h c {}) s
  let s := s.zero p [R.PCIE_LINK_SPEED, R.PCIE_LINK_WIDTH, R.PCIE_LINK_FLIT, R.PCIE_LINK_UP, R.PCIE_DMA_CTRL_EN, R.PCIE_DMA_CTRL_STOPPED]
  let s := (List.range 80).foldl (fun s q => (s.zero (sqPg h q) sqLost).sqReset h q) s
  s.raise p 0
def execPerst (hoop : Nat) (s : State) : Host.Outcome State Fault Refusal :=
  .next (if hoop < 2 && s.alive (pciePg hoop) then s.perst hoop else s)

/-- LINK_LEFT_L0 (R487): the link leaves L0 without PERST_N; PCIE_LINK reports what it is then. -/
def execLinkLeftL0 (hoop speed width : Nat) (flit up : Bool) (s : State) : Host.Outcome State Fault Refusal :=
  .next (if hoop < 2 && s.alive (pciePg hoop) then
    let p := pciePg hoop
    (((s.wr p R.PCIE_LINK_SPEED speed).wr p R.PCIE_LINK_WIDTH width).wb p R.PCIE_LINK_FLIT flit).wb p R.PCIE_LINK_UP up |>.raise p 0
    else s)

/-- AER_ERROR (R487): 0 correctable, 1 uncorrectable, 2 IDE. -/
def execAerError (hoop kind : Nat) (s : State) : Host.Outcome State Fault Refusal :=
  .next (if hoop < 2 && s.alive (pciePg hoop) then
    let p := pciePg hoop
    match kind with
    | 0 => (s.inc p R.PCIE_CE_CNT).raise p 1
    | 1 => (s.inc p R.PCIE_UE_CNT).raise p 2
    | 2 => s.raise p 6
    | _ => s
    else s)

/-- PTM_DIALOGUE (R465): host time in ns and PKG_TICK are latched. -/
def execPtmDialogue (hoop host : Nat) (s : State) : Host.Outcome State Fault Refusal :=
  .next (if hoop < 2 && s.alive (pciePg hoop) then
    (s.wr (pciePg hoop) R.PCIE_PTM_HOST host).wr (pciePg hoop) R.PCIE_PTM_TICK s.pkgTick else s)

/-- PCIE_CNT_CLR (Table 15-11). -/
def State.pcieCntClr (s : State) (h : Nat) : State :=
  s.zero (pciePg h) [R.PCIE_CE_CNT, R.PCIE_UE_CNT, R.PCIE_UR_CNT, R.PCIE_DMA_BYTES]

/-- Whether the package runs in Huabel mode (R486). -/
def State.huabel (s : State) : Bool := s.start.huabel

/-! Audit records (R320, Table 9-7). -/

/-- The width key: one bit per link that runs at 8 modules (R227). -/
def State.widthKey (s : State) : Nat :=
  let ends := [wlPg 0 0, wlPg 1 0, wlPg 2 0, wlPg 4 0, wlPg 5 0, wlPg 6 0, wlPg 0 2, wlPg 1 2, wlPg 2 2, wlPg 3 2] ++ (List.range 8).map (wlPg · 3)
  ((List.range 18).zip ends).foldl (fun a (x : Nat × Nat) => if s.bit x.2 R.WL_STAT_W8 then a + 2 ^ x.1 else a) 0

/-- WEAVE of the enabled tiles: 0 open, 1 close, 2 mixed. -/
def State.weave (s : State) : Nat :=
  let cs := osDies.flatMap fun d => (s.enTiles d).map fun t => s.tileClose d t
  if cs.all (· == false) then 0 else if cs.all id then 1 else 2

/-- The words of an audit record. -/
def State.auditWords (s : State) (a : AuditAt) (lost : Nat) : List Nat :=
  let p := cePg 0
  let reg (r : Nat) : Nat := (osDies.foldl (fun v d => v + look (fun _ => 0#64) (s.au d).latch r) 0#64).toNat
  let cnt (r : Nat) : Nat := min (osDies.foldl (fun v d => v + look natZero (s.au d).pcnt r) 0) (2 ^ 32 - 1)
  let w0 := 0xA1 + 0x01 * 2 ^ 8 + a.id * 2 ^ 16 + (if s.idMask R.PKG_STEP_MASK a.id then 2 ^ 24 else 0) + s.weave * 2 ^ 25
    + (if lost = 0 then 0 else 2 ^ 27) + (if a.taint then 2 ^ 28 else 0) + s.pkgId * 2 ^ 32 + s.rd pkg0 R.PKG_IDENT_ARITH_CLASS * 2 ^ 40
    + min lost 255 * 2 ^ 56
  let w1 := a.lseq + s.rd p R.CE_SLOT_SLOT_A * 2 ^ 32 + s.rd p R.CE_SLOT_SLOT_B * 2 ^ 40 + s.rd p R.CE_SLOT_TWO * 2 ^ 48
  [w0, w1, a.step, s.rd pkg2 R.PKG_SEED, s.rd pkg2 R.PKG_DSEED, s.rd (osTop 0) R.OS_IMAGE_ID, a.tick, a.runCyc % 2 ^ 40 + s.widthKey * 2 ^ 40]
    ++ (List.range 16).map reg ++ (List.range 8).map fun i => cnt (2 * i) + cnt (2 * i + 1) * 2 ^ 32

/-- AUDIT_COLLECT (R320, R321): the acting Hoop, whichever it is, collects the latches once every die's is FULL, acknowledges them and sends one
record. A latch lost since the record's own, or between it and the record before, shows in LOST and LOST_N. -/
def execAuditCollect (s : State) : Host.Outcome State Fault Refusal :=
  .next (match s.acting, (s.au 0).held with
    | some h, some a =>
      if !(osDies.all fun d => s.bit (stPg d 0) R.ST_DLAT_STAT_FULL) then s
      else
      let lost := osDies.foldl (fun n d => max n (s.au d).lost) 0
      let ws := s.auditWords a (s.pkgt.lost + lost)
      let s := { s with pkgt := { s.pkgt with lost := lost } }
      let s := osDies.foldl State.dlatAck s
      if s.bit pkg2 R.PKG_AUDIT_CTRL_EN && !s.huabel then
        let q := s.rd pkg2 R.PKG_AUDIT_CTRL_QUEUE
        let x := s.sqOffer h (if 64 ≤ q && q ≤ 79 then q else 64) ws
        if x.2 then x.1.addWrap pkg2 R.PKG_AUDIT_STAT_SEQ 1 else (x.1.inc pkg2 R.PKG_AUDIT_STAT_LOST_CNT).raise pkg2 5
      else s
    | _, _ => s)

/-! Live registers of an SQ page (Table 15-13). -/

/-- The drain bank. Table 15-13 gives 0 for it and for every pointer at reset, though one of two banks fills: before the first line all read 0, and
that line enters bank 0 (DESIGN CHOICE, log entry 73). -/
def Sq.drainBank (x : Sq) : Nat := if x.fresh then 0 else x.bank

/-- Write pointer, read pointer, release pointer and mark as bank and line. -/
def Sq.wrPtr (x : Sq) : Nat := (1 - x.bank) * 256 + x.used % 256
def Sq.relPtr (x : Sq) : Nat := x.drainBank * 256 + x.freed % 256
def Sq.rdPtr (x : Sq) : Nat := x.drainBank * 256 + (x.freed + x.rd) % 256
def Sq.mkPtr (x : Sq) : Nat := x.drainBank * 256 + (x.freed + x.mark.getD 0) % 256

end Sys2Proof.Machine
end

