-- ==== Sys2Proof/Machine/DieReset.lean ====
section
/-! DEFINITION. Blocks and dies taken out of service: isolation (Table 14-4, R453, R454) and a die held in reset (R455, R506). -/

namespace Sys2Proof.Machine

/-- An Osier die's blocks lose everything they hold; HBM contents are not kept (R455, R506). -/
def State.osierClear (s : State) (d : Nat) : State :=
  { s with
    tiles := forgetIf s.tiles fun k => decide (k / 64 = d)
    osd := forgetIf s.osd fun k => decide (k = d)
    mesh := s.mesh.filter fun f => decide (f.die ≠ d)
    edges := s.edges.filter fun f => decide (f.die ≠ d)
    hbm := forgetIf s.hbm fun k => decide (k / 2 ^ 34 = d)
    stake := forgetIf s.stake fun k => decide (k / 65536 = d)
    stakeOld := s.stakeOld.filter fun x => decide (x.1 / 65536 ≠ d)
    sideRem := forgetIf s.sideRem fun k => decide (k / 4 = d)
    ovbOver := forgetIf s.ovbOver fun k => decide (k / 256 = d)
    quiet := forgetIf s.quiet fun k => decide (k / 256 = d)
    loads := s.loads.filter fun r => decide (r.die ≠ d)
    cool := forgetIf s.cool fun k => decide (k / 4 = d)
    scrubAt := forgetIf s.scrubAt fun k => decide (k / 4 = d)
    ovb := forgetIf s.ovb fun k => decide (k / 256 = d)
    engs := forgetIf s.engs fun k => decide (k / 16 = d)
    reads := s.reads.filter fun r => decide (r.die ≠ d)
    units := s.units.filter fun r => decide (r.die ≠ d)
    offers := s.offers.filter fun r => decide (r.die ≠ d)
    reqs := s.reqs.filter fun r => decide (r.die ≠ d)
    nbq := s.nbq.filter fun r => decide (r.die ≠ d)
    arrivals := s.arrivals.filter fun r => decide (r.die ≠ d)
    ces := forgetIf s.ces fun k => decide (k = d)
    cbuf := forgetIf s.cbuf fun k => decide (k / 2 ^ 20 = d)
    borders := forgetIf s.borders fun k => decide (k = d)
    -- the acting Hoop's copies of the fields of package page 2 that steer sync logic stand
    aud := put audZero s.aud d { step := (s.au d).step, brk := (s.au d).brk } }

/-- A Weft die's lanes, sub-links and calibration banks. -/
def State.weftClear (s : State) (w : Nat) : State :=
  { s with
    lanes := forgetIf s.lanes fun k => decide (k / 512 = w)
    fibs := forgetIf s.fibs fun k => decide (k / 16 = w)
    wfs := forgetIf s.wfs fun k => decide (k = w)
    cal := forgetIf s.cal fun k => decide (k / 2048 = w)
    calSh := forgetIf s.calSh fun k => decide (k / 2048 = w)
    subs := forgetIf s.subs fun k => decide (k / 16 = w)
    grantAt := forgetIf s.grantAt fun k => decide (k = w) }

/-- A Reed die's lasers. -/
def State.reedClear (s : State) (r : Nat) : State :=
  { s with
    rds := forgetIf s.rds fun k => decide (k = r)
    lasers := forgetIf s.lasers fun k => decide (k / 16 = r) }

/-- A die is held in reset: its pages read under R55, everything in it is at its reset value. -/
def State.dieReset (s : State) (d : Nat) : State :=
  let s := { s with
    regs := forgetIf s.regs fun k => decide (dieOf (keyPage k) = d)
    pages := forgetIf s.pages fun p => decide (dieOf p = d)
    wl := (s.wl.map fun e => if dieOf e.1 = d then (e.1, ({ repairs := e.2.repairs } : WlEnd)) else e).filter fun e => decide (e.2 ≠ WlEnd.reset)
    notes := s.notes.filter fun n => decide (n.1 ≠ d)
    com := { s.com with frozen := s.com.frozen.filter fun x => decide (x.1 ≠ d) }
    cad := { s.cad with alignOk := s.cad.alignOk.filter (· ≠ d), epochs := forgetIf s.cad.epochs fun k => decide (k = d) } }
  if isOsier d then s.osierClear d else if isWeft d then s.weftClear (d - 8) else if isReed d then s.reedClear (d - 0x10) else s

/-- What isolation does to one block (Table 14-4). -/
def State.isolateBlock (s : State) (p : Nat) (b : Blk) : State :=
  let d := dieOf p
  match b with
  | .st =>
    let e := pageOf p - 0x20
    let s := (s.eng d e).borrow.foldl (fun s x => s.borrowEnd d e x none none none) s
    s.setEng d e { s.eng d e with running := [] }
  | .ce => s.ceAbort d
  | .wl => if (walePeer p).isSome && s.rd p R.WL_STAT_STATE ≠ 0 then s.wlHold p else s
  | .wf => (List.range 16).foldl (fun s f => s.planeSet (d - 8) f false) s
  | .fib => s.planeSet (d - 8) (pageOf p - 0x10) false
  | .sb => (List.range 15).foldl (fun s i => s.sbEnter (d - 8) (i + 1) sbFailed) s
  | .sbk => s.sbEnter (d - 8) (pageOf p - 0x20) sbFailed
  | .rd => (List.range 16).foldl (fun s k => s.laserOff (d - 0x10) k rdOff) s
  | .rdl => s.laserOff (d - 0x10) (pageOf p - 0x10) rdOff
  | _ => s

/-- One page is isolated, if it runs. -/
def State.isolatePage (s : State) (p : Nat) : State :=
  match pageBlk p with
  | some b => if s.alive p then (s.isolateBlock p b).setUp p .isolated else s
  | none => s

/-- Isolation (R453): OS_TOP takes every page of its die along; a RUNNING Osier die then arrives nowhere (R454). -/
def State.isolate (s : State) (p : Nat) : State :=
  let d := dieOf p
  if isHoop d || decide (d = 0x1F) || !s.alive p then s
  else
    let s := if pageBlk p = some .os then (diePages d).foldl (fun s q => s.isolatePage q) s else s.isolatePage p
    if isOsier d && decide (s.prog d = stRunning) then s.setOd d { s.od d with noArrive := true } else s

/-- Dies other than Hoop dies. -/
def workDies : List Nat := List.range 18

/-- Whether the Hoop die takes part (not FAILED, its firmware up). -/
def State.hoopUp (s : State) (h : Nat) : Bool := s.alive (hpTop h) && decide (s.role h ≠ roleFailed)

end Sys2Proof.Machine
end

