-- ==== Sys2Proof/Machine/Thermal.lean ====
section
/-! DEFINITION. Sensors, the cadence throttle, the power cap, the trip and ageing (16_thermal_power_ageing.md). -/

namespace Sys2Proof.Machine
open Sys2Proof

/-! Requests to N (R195). -/

/-- The minimum of the three requests; in SAFE the thermal request is at most TH_SAFE.N (R503). -/
def State.wantN (s : State) (h : Nat) : Nat :=
  let p := thPg (0x12 + h)
  let nt := s.rd p R.TH_PKG_N_NT
  let nt := if s.rd p R.TH_SAFE_CAUSE = 0 then nt else min nt (s.rd p R.TH_SAFE_N)
  max 16 (min (min nt (s.rd p R.TH_PKG_N_NP)) (s.rd p R.TH_PKG_N_ND))

/-- May this Hoop drive the cadence tree (R444)? -/
def State.drives (s : State) (h : Nat) : Bool := s.acts h && s.alive (hpTop h) && !s.bit (hpTop h) R.HP_ROLE_OVERLAP

/-- A changed minimum leaves on the cadence tree, naming the frame boundary at least a tick ahead (R195). -/
def State.sendN (s : State) : State :=
  match s.thHoop with
  | none => s
  | some h =>
    let n := s.wantN h
    if s.drives h && s.cad.alignAt.isNone && n ≠ (s.cad.nextN.map Prod.fst).getD s.clk.n then
      { s with cad := { s.cad with nextN := some (n, s.clk.frame + 1 + (s.clk.j + s.ratio) / 64), taken := false,
                                   msgs := s.cad.msgs ++ allDies.map fun d => (d, s.rd (hpTop h) R.HP_LEASE_STAT_EPOCH) } }
    else s

/-- SAFE's causes as they stand (Table 16-5): a die without live sensors, a failed current sensor, FORCE. -/
def State.safeNow (s : State) (h : Nat) : Nat :=
  (if allDies.any fun d => (List.range (sensCount d)).all fun i => !s.sensLive d i then 1 else 0)
    + (if s.thp.badRail then 2 else 0) + (if s.bit (thPg (0x12 + h)) R.TH_SAFE_FORCE then 4 else 0)

/-- A cause puts the package in SAFE (R503). -/
def State.safeEval (s : State) : State :=
  match s.thHoop with
  | none => s
  | some h =>
    let p := thPg (0x12 + h)
    let was := s.rd p R.TH_SAFE_CAUSE
    let now := was ||| s.safeNow h
    let s := s.wr p R.TH_SAFE_CAUSE now
    (if was = 0 && now ≠ 0 then s.raise p 6 else s).sendN

/-! The controller (R495, R496, R498). -/

/-- Q: the largest excess over the throttle start, in quarter degrees. -/
def State.excess (s : State) : Nat :=
  ((allSensors.filter fun x => !isHoop x.1).foldl (fun a x => max a (s.reading x.1 x.2 - s.throtAt x.1 x.2)) (0 : Int)).toNat

/-- Qh follows Q with a lag of one step when falling. -/
def followQ (q qh : Nat) : Nat := if qh < q then q else if q + 1 < qh then q + 1 else qh

/-- N_T of the held excess. -/
def thermalN (k qh : Nat) : Nat := max 16 (64 - (k * qh + 24) / 25)

/-- One update of the acting Hoop's controller. -/
def State.thermalUpdate (s : State) : State :=
  match s.thHoop with
  | none => s
  | some h =>
    let p := thPg (0x12 + h)
    let now := s.clk.tick
    let q := min 255 s.excess
    let qh := followQ q (s.rd p R.TH_PKG_EXCESS_QH)
    let cur := s.rd p R.TH_PKG_N_NT
    let want := thermalN (s.rd p R.TH_PKG_K_K) qh
    let lim := decide (now < s.thp.relax) && decide (cur < want)
    let nt := if !lim then want else if s.thp.rise + 10 * msTicks ≤ now then cur + 1 else cur
    let x := s.thp
    let said := x.ntSaid && !(match x.qZero with
      | some t => decide (q = 0) && decide (t + 10 * msTicks ≤ now)
      | none => false)
    let x := { x with rise := if lim && nt = cur then x.rise else now, ntSaid := said,
                      ntLow := if nt < 64 then x.ntLow.or (some now) else none,
                      qZero := if q = 0 then x.qZero.or (some now) else none }
    let s := { s with thp := x }
    ((((s.wr p R.TH_PKG_EXCESS_Q q).wr p R.TH_PKG_EXCESS_QH qh).wr p R.TH_PKG_N_NT nt)).sendN

/-! Samples. -/

/-- A sensor takes its sample: the criteria of R497, judged with the neighbours of the same sample. -/
def Sensor.take (x : Sensor) (v : Sample) (near : List Int) : Sensor :=
  let same := if x.same ≠ 0 && v.raw = x.raw then x.same + 1 else 1
  let far := !near.isEmpty && near.all fun t => decide (60 < v.temp - t) || decide (60 < t - v.temp)
  let away := if far then x.away + 1 else 0
  let bad := !v.span || decide (v.temp < -80) || decide (600 < v.temp) || decide (100 ≤ same) || decide (10 ≤ away)
  { x with raw := v.raw, temp := v.temp, same := same, away := away, good := if bad then 0 else x.good + 1 }

/-- Whether the sensor's last sample met a criterion. -/
def Sensor.bad (x : Sensor) : Bool := decide (x.good = 0)

/-- A sensor becomes substituted: 1 failed, 2 forced (R497, R499); the relaxation limit begins (R498). -/
def State.substitute (s : State) (g code : Nat) : State :=
  let s := s.setSensor g { s.sensor g with sub := code }
  { s with thp := { s.thp with relax := s.clk.tick + 1000 * msTicks, rise := s.clk.tick } }

/-- The die's timed conditions after a sample (R491, R494). -/
def State.dieTimes (s : State) (d : Nat) : State :=
  let now := s.clk.tick
  let idx := List.range (sensCount d)
  let fastAt (i : Nat) : Int := (if isHoop d then s.warnAt d i else s.throtAt d i) - 20
  let near := idx.any fun i => decide (fastAt i ≤ s.reading d i)
  let x := s.dieTh d
  let cool := if near then none else x.cool.or (some now)
  let fast := near || (x.fast && !(match cool with
    | some t => decide (t + 10 * msTicks ≤ now)
    | none => false))
  let cold := if idx.all fun i => decide (s.reading d i < s.warnAt d i - 8) then x.cold.or (some now) else none
  let s := s.setDieTh d { last := now, fast := fast, cool := cool, cold := cold }
  let anyHot (s : State) : Bool := allSensors.any fun y => (s.sensor (sensIdx y.1 y.2)).hot.isSome
  let was := anyHot s
  let s : State := idx.foldl (fun s i =>
    let g := sensIdx d i
    let y := s.sensor g
    s.setSensor g { y with hot := if s.warnAt d i ≤ s.reading d i then y.hot.or (some now) else none }) s
  if !was && anyHot s then { s with start := { s.start with alert := true } } else s

/-- SENSOR_SAMPLE (R491, R497): the die's samples in the order of its local sensors. -/
def execSensorSample (die : Nat) (samples : List Sample) (s : State) : Host.Outcome State Fault Refusal :=
  .next (if die < 20 && s.start.rails && samples.length = sensCount die then
    let x := s.dieTh die
    let s := s.toTick (x.last + if x.fast then 50 * usTicks else msTicks)
    let idx := List.range (sensCount die)
    let val (i : Nat) : Sample := samples.getD i ⟨0, false, 0⟩
    let live := idx.filter fun i => s.sensLive die i
    let s : State := idx.foldl (fun t i =>
      let near := ((neighbours die i).filter fun j => live.contains j).map fun j => (val j).temp
      t.setSensor (sensIdx die i) ((s.sensor (sensIdx die i)).take (val i) near)) s
    let s := idx.foldl (fun s i =>
      let g := sensIdx die i
      if (s.sensor g).sub = 0 && (s.sensor g).bad then
        let s := s.substitute g 1
        if s.thUp die then (s.inc (thPg die) R.TH_FAIL_CNT).raise (thPg die) 0 else s
      else s) s
    let s := s.dieTimes die
    let cold := allSensors.all fun y => decide (s.reading y.1 y.2 < 4 * ((kindLimits y.1 y.2).2.2.2 : Int))
    let s := { s with thp := { s.thp with below := if cold then s.thp.below.or (some s.clk.tick) else none } }
    let s := if isOsier die then [0, 1, 2].foldl (fun s k =>
      let t := min 255 (s.reading die (24 + k) / 4).toNat
      if s.alive (mcPg die k) then (s.wr (mcPg die k) R.MC_STAT_TEMP t).refreshSeen die k t else s) s else s
    s.safeEval.thermalUpdate
  else s)

/-- TEMP_WARN (R494). -/
def execTempWarn (die : Nat) (s : State) : Host.Outcome State Fault Refusal :=
  .next (match (List.range (sensCount die)).filterMap fun i => (s.sensor (sensIdx die i)).hot with
    | [] => s
    | t :: r =>
      if s.thUp die && !s.bit (thPg die) R.TH_STAT_WARN then
        ((s.toTick (r.foldl min t + 10 * msTicks)).wb (thPg die) R.TH_STAT_WARN true).raise (thPg die) 1
      else s)

/-- TEMP_WARN_CLEAR (R494). -/
def execTempWarnClear (die : Nat) (s : State) : Host.Outcome State Fault Refusal :=
  .next (match (s.dieTh die).cold with
    | none => s
    | some t => if s.bit (thPg die) R.TH_STAT_WARN then (s.toTick (t + 10 * msTicks)).wb (thPg die) R.TH_STAT_WARN false else s)

/-- The sensor with the largest excess, by its global index. -/
def State.hottest (s : State) : Nat :=
  let f (a : Nat × Int) (x : Nat × Nat) : Nat × Int :=
    let e := s.reading x.1 x.2 - s.throtAt x.1 x.2
    if a.2 < e then (sensIdx x.1 x.2, e) else a
  ((allSensors.filter fun x => !isHoop x.1).foldl f (0, -100000)).1

/-- THROTTLE (R496); LAST names the sensor with the largest excess. -/
def execThrottle (s : State) : Host.Outcome State Fault Refusal :=
  .next (match s.thHoop, s.thp.ntLow with
    | some h, some t =>
      if s.thp.ntSaid then s
      else
        let s := s.toTick (t + 10 * msTicks)
        ({ s with thp := { s.thp with ntSaid := true } }).raiseX (thPg (0x12 + h)) 3 s.hottest 0
    | _, _ => s)

/-- TH_FORCE.SET written 1: the sensor is marked substituted, with no record (R499). -/
def State.forceSet (s : State) (d : Nat) : State :=
  let i := s.rd (thPg d) R.TH_FORCE_SENSOR
  if i < sensCount d && (s.sensor (sensIdx d i)).sub = 0 then ((s.substitute (sensIdx d i) 2).safeEval).thermalUpdate else s

/-- TH_FORCE.CLR written 1 (R499). -/
def State.forceClr (s : State) (d : Nat) : State :=
  let i := s.rd (thPg d) R.TH_FORCE_SENSOR
  let g := sensIdx d i
  let x := s.sensor g
  if i < sensCount d && x.sub ≠ 0 && 1000 ≤ x.good then (s.setSensor g { x with sub := 0 }).thermalUpdate else s

/-! The power cap (R500-R504). -/

/-- CAP_W within its limits (R500). -/
def State.capHeld (s : State) (w : Nat) : Nat := max 2000 (min (if s.rd pkg0 R.PKG_IDENT_GRADE = 1 then 4800 else 6000) w)

/-- N_P at the end of a millisecond. -/
def powerN (cap p np : Nat) : Nat :=
  if cap < p then max 16 (np - max 1 ((np * (p - cap) + p - 1) / p)) else if 100 * p < 97 * cap && np < 64 then np + 1 else np

/-- POWER_UPDATE (R500, R502): P over the millisecond that ends, whether a current sensor fails. -/
def execPowerUpdate (watts : Nat) (badRail : Bool) (s : State) : Host.Outcome State Fault Refusal :=
  .next (match s.thHoop with
    | none => s
    | some h =>
      let s := s.toTick (s.thp.pwrAt + msTicks)
      let s := { s with thp := { s.thp with pwrAt := s.clk.tick, badRail := badRail } }
      let p := thPg (0x12 + h)
      let s := (s.wr p R.TH_PWR_AVG (min watts 8191)).wr p R.TH_PWR_PEAK (max (s.rd p R.TH_PWR_PEAK) (min watts 8191))
      let np := s.rd p R.TH_PKG_N_NP
      let new := powerN (s.capHeld (s.rd p R.TH_CAP_W)) watts np
      let s := s.wr p R.TH_PKG_N_NP new
      (if new < np then s.raise p 4 else s).safeEval.sendN)

/-- OVERCURRENT (R501): VDD_OS current of an Osier die above TH_OCP.A for 10 µs. -/
def execOvercurrent (die amps : Nat) (s : State) : Host.Outcome State Fault Refusal :=
  .next (match s.thHoop with
    | none => s
    | some h =>
      let ok := match s.thp.ovc with
        | some t => decide (t + 100 * usTicks ≤ s.clk.tick)
        | none => true
      if isOsier die && s.alive (thPg die) && s.rd (thPg die) R.TH_OCP_A < amps && ok then
        let p := thPg (0x12 + h)
        let s := { s with thp := { s.thp with ovc := some s.clk.tick } }
        -- at the next frame boundary
        let s := if s.clk.j = 0 then s else s.toFrame
        ((s.wr p R.TH_PKG_N_NP (max 16 (s.rd p R.TH_PKG_N_NP - 8))).raise p 4).sendN
      else s)

/-- TH_SAFE.CLR written 1 (R504). -/
def State.safeClear (s : State) (h : Nat) : State :=
  if s.safeNow h = 0 then (s.wr (thPg (0x12 + h)) R.TH_SAFE_CAUSE 0).sendN else s.safeEval

/-- TH_DRV_LIMIT.N written (R195): held within 16 to 64. -/
def State.drvLimit (s : State) (h : Nat) : State :=
  let p := thPg (0x12 + h)
  let n := max 16 (min 64 (s.rd p R.TH_DRV_LIMIT_N))
  ((s.wr p R.TH_DRV_LIMIT_N n).wr p R.TH_PKG_N_ND n).sendN

/-! The trip (R505-R507). -/

/-- TH_TRIP_LAST.DIE and WHERE as the TRIP record carries them. -/
def State.tripRecord (s : State) (h die where' : Nat) : State :=
  let p := thPg (0x12 + h)
  let f := s.flashOf h
  let s := s.setFlash h { f with trips := min 65535 (f.trips + 1) }
  let s := ((s.wr p R.TH_TRIP_LAST_DIE die).wr p R.TH_TRIP_LAST_WHERE where').wr p R.TH_TRIP_LAST_CNT (s.flashOf h).trips
  if s.alive p then s.raiseX p 5 (die + 32 * where') 0 else s

/-- A Hoop die's fault log, Slew queues and DMA channels. -/
def State.hoopClear (s : State) (h : Nat) : State :=
  { s with flt := { s.flt with logs := forgetIf s.flt.logs fun k => decide (k = h) }, sqs := forgetIf s.sqs fun k => decide (k / 80 = h),
           dmas := forgetIf s.dmas fun k => decide (k / 8 = h) }

/-- A Hoop die whose own comparator tripped stops like every other die (R506). -/
def State.hoopTrip (s : State) (h : Nat) : State :=
  let s := (s.dieReset (0x12 + h)).setHoop h {}
  s.hoopClear h

/-- The trip net goes low (R506): the dies go into reset, a HALT, a commit, flash writes and a takeover in progress end, each Hoop die that has not
tripped records TRIP. -/
def State.trip (s : State) (die where' : Nat) : State :=
  let fresh := s.thp.tripAt.isNone
  let s := { s with thp := { s.thp with tripAt := s.thp.tripAt.or (some s.clk.tick), comps := s.thp.comps ++ [(die, where')], below := none } }
  let s := workDies.foldl State.dieReset s
  let s := if isHoop die then s.hoopTrip (die - 0x12) else s
  let s := { s with snaps := [] }
  let s := { s with flt := { s.flt with haltNotices := [] }, com := {}, acks := [], cad := {},
                    start := { s.start with save := none, tagSave := none, going := false, held := false, work := false } }
  if fresh then ([0, 1].filter fun h => decide (0x12 + h ≠ die) && s.alive (thPg (0x12 + h))).foldl (fun s h => s.tripRecord h die where') s else s

/-- THERMAL_TRIP (R505, R506): comparator `comp` of a die, 0 or of an Osier die also 1, or 2 for a stack of an Osier die. -/
def execThermalTrip (die comp : Nat) (s : State) : Host.Outcome State Fault Refusal :=
  .next (if die < 20 && (decide (comp = 0) || (isOsier die && decide (comp < 3))) && s.start.rails then (s.trip die comp).safeEval else s)

/-- BOARD_TRIP (R550): the board pulls THERMTRIP_N low. -/
def execBoardTrip (s : State) : Host.Outcome State Fault Refusal := .next (if s.start.rails then s.trip 0x1F 3 else s)

/-- TRIP_RESTART (R507, R550): whether every comparator has re-armed and the pin reads high. The package restarts to Stage 1. -/
def execTripRestart (armed high : Bool) (s : State) : Host.Outcome State Fault Refusal :=
  .next (match s.thp.tripAt, s.thp.below with
    | some t, some b =>
      let gone (h : Nat) : Bool := s.thp.comps.any fun c => decide (c.1 = 0x12 + h)
      if armed && high && !(gone 0 && gone 1) then
        let s := s.toTick (max (t + 1000000000) (b + 1000 * msTicks))
        let s := [0, 1].foldl (fun (s : State) h => if gone h then s.setHoop h { s.hoop h with rebootAt := some s.clk.tick } else s) s
        let s := { s with thp := { s.thp with tripAt := none, comps := [] } }
        (s.wr pkg0 R.PKG_STAGE_STAGE 1).wb pkg0 R.PKG_STAGE_READY false
      else s
    | _, _ => s)

/-- TH_PKG_STATE.STATE (Table 16-5). -/
def State.powerState (s : State) (h : Nat) : Nat :=
  let p := thPg (0x12 + h)
  if s.thp.tripAt.isSome then 4 else if s.rd p R.TH_SAFE_CAUSE ≠ 0 then 3
  else if s.rd p R.TH_PKG_N_NT < 64 || s.rd p R.TH_PKG_N_NP < 64 then 2 else 1

/-- TH_CNT_CLR written 1 (Table 16-9). -/
def State.thCntClr (s : State) (d : Nat) : State := s.zero (thPg d) [R.TH_FAIL_CNT, R.TH_PWR_PEAK, R.TH_NV_REFUSED]

/-! Ageing (R508-R513). -/

def fitZero : Nat → Fit := fun _ => {}
def State.fit (s : State) (d m : Nat) : Fit := look fitZero s.fits (d * 64 + m)
def State.setFit (s : State) (d m : Nat) (x : Fit) : State := { s with fits := put fitZero s.fits (d * 64 + m) x }

/-- Monitors of a die in the order of Table 16-7: class, and the page whose register gives the limit or whose block must run. -/
def monitors (d : Nat) : List (Nat × Nat) :=
  if isOsier d then
    List.replicate 16 (0, osTop d) ++ (List.range 3).map (fun k => (1, mcPg d k)) ++ (List.range 5).map (fun k => (2, pg d (0x40 + k)))
  else if isWeft d then
    (2, pg d 0x40) :: ((List.range 16).map (fun f => (3, fibPg (d - 8) f)) ++ (List.range 16).map fun f => (4, fibPg (d - 8) f))
  else if isReed d then (List.range 32).map fun i => (5, rdPg (d - 0x10) (i / 2))
  else [(2, pg d 0x70), (2, pg d 0x71)]

/-- The limit of a monitor (Table 16-7). -/
def State.ageLimit (s : State) (d m : Nat) : Nat :=
  let x := (monitors d).getD m (0, 0)
  (s.fit d m).limit.getD (match x.1 with
    | 0 => 500 | 1 => 10000 | 2 => s.rd x.2 R.WL_EYE_MIN_MIN | 3 => 250 | 4 => 40
    | _ => s.rd x.2 R.RD_L_BIASMAX_MAX)

/-- The least-squares line over samples (R511): EOL_HOURS at hour `now`, and CONF where the correlation exists. -/
def fitLine (xs : List AgeRec) (now limit : Nat) (falling : Bool) : Nat × Option Nat :=
  let n : Int := xs.length
  let f (g : AgeRec → Nat) : Int := xs.foldl (fun (a : Int) r => a + g r) 0
  let sx := f fun r => r.hour
  let sy := f fun r => r.val
  let dx := n * f (fun r => r.hour * r.hour) - sx * sx
  let dy := n * f (fun r => r.val * r.val) - sy * sy
  let nn := n * f (fun r => r.hour * r.val) - sx * sy
  -- the fitted value now is cur / (n * dx), the slope nn / dx
  let cur := sy * dx - nn * sx + n * nn * now
  let gap := limit * (n * dx) - cur
  let gap := if falling then -gap else gap
  let slope := if falling then -nn else nn
  let eol := if gap ≤ 0 then 0 else if slope ≤ 0 then 0xFFFFFFFF else min 0xFFFFFFFF (gap / (n * slope)).toNat
  (eol, if dx * dy = 0 then none else some ((200 * nn * nn + dx * dy) / (2 * (dx * dy))).toNat)

/-- A Hoop appends a sample to its log, or holds it where flash may not be written (R508-R510). -/
def State.ageAppend (s : State) (h : Nat) (r : AgeRec) : State :=
  let p := agePg (0x12 + h)
  if s.nvOk h then s.setFlash h { s.flashOf h with age := (s.flashOf h).age ++ [r] }
  else
    let s := s.nvRefuse h
    let old := look (fun _ => []) s.agePend h
    let full := decide (64 ≤ old.length)
    let s := { s with agePend := put (fun _ => []) s.agePend h ((if full then old.tail else old) ++ [r]) }
    if full then (s.inc p R.AGE_LOG_DROPPED).raise p 2 else s

/-- The acting Hoop fits a monitor and writes its die's page (R511). -/
def State.ageFit (s : State) (h d m : Nat) : State :=
  let hour := (s.flashOf h).hours
  let xs := ((s.flashOf h).age ++ look (fun _ => []) s.agePend h).filter fun r =>
    decide (r.die = d) && decide (r.mon = m) && decide (hour < r.hour + 1000)
  let cls := ((monitors d).getD m (0, 0)).1
  let x := s.fit d m
  if xs.length < 168 then
    s.setFit d m { x with valid := false, conf := 0, eol := 0xFFFFFFFF, value := (xs.getLast?.map AgeRec.val).getD 0, n := xs.length }
  else
    let l := fitLine xs hour (s.ageLimit d m) (decide (cls = 2) || decide (cls = 4))
    let low := decide (l.1 < s.rd (agePg d) R.AGE_WARN_H_H)
    let y := s.draw
    let s := if l.2.isNone then y.1 else s
    let s := s.setFit d m { x with valid := true, conf := l.2.getD (y.2 % 101), eol := l.1, value := (xs.getLast?.map AgeRec.val).getD 0,
                                   n := xs.length, warned := low }
    if low && !x.warned then s.raise (agePg d) 0 else s

/-- The hours ON of a laser bank: Reed die, wavelength, bank (Table 11-13). -/
def bankKey (r k bank : Nat) : Nat := (r * 16 + k) * 2 + bank

/-- An hour more for the bank in use of each laser that is ON. -/
def State.laserHours (s : State) (h : Nat) : Sparse Nat :=
  (List.range 32).foldl (fun m i =>
    let p := rdPg (i / 16) (i % 16)
    if s.rd p R.RD_L_STAT_STATE = rdOn then
      let q := bankKey (i / 16) (i % 16) (s.rd p R.RD_L_STAT_BANK)
      put natZero m q (look natZero m q + 1)
    else m) (s.flashOf h).lit

/-- The hour's value of a monitor that a register shows (Table 16-7): the increase of MC_CE_CNT, the smallest eye margin of a port end's modules, the
smallest extinction of a fibre's transmit rings, a laser's bias; `v` of a monitor of the other classes. -/
def State.ageValue (s : State) (h d m v : Nat) : Nat :=
  let x := (monitors d).getD m (0, 0)
  match x.1 with
  | 1 => s.rd x.2 R.MC_CE_CNT - look natZero (s.hoop h).ceSeen x.2
  | 2 => ((List.range (s.wlMods x.2)).map fun i =>
      let k := s.wlBase x.2 + i
      bits (s.rd x.2 (Fld.idx R.WL_EYE (k / 4))) (8 * (k % 4)) 8).foldl min 255
  | 4 => ((List.range 16).map fun k => (s.lane (d - 8) (pageOf x.2 - 0x10) k 0).er).foldl min 255
  | 5 => s.rd x.2 R.RD_L_BIAS_ACT
  | _ => v

/-- Whether a monitor gives a sample this hour (R510): its die and block are alive, and the bias of a laser's bank in use has been set by a RECAL since
its last sample. -/
def State.ageGives (s : State) (h d m : Nat) : Bool :=
  let x := (monitors d).getD m (0, 0)
  decide (m < (monitors d).length) && s.alive (agePg d) && s.alive x.2 &&
    (decide (x.1 ≠ 5) || (decide (s.rd x.2 R.RD_L_STAT_BANK = m % 2) &&
      decide (look natZero (s.hoop h).biasSeen (d * 64 + m) < (s.reed (d - 0x10)).recals)))

/-- What a Hoop keeps of a monitor it has read: MC_CE_CNT, the count of RECALs. -/
def State.ageSeen (s : State) (h d m : Nat) : State :=
  let x := (monitors d).getD m (0, 0)
  let y := s.hoop h
  if x.1 = 1 then s.setHoop h { y with ceSeen := put natZero y.ceSeen x.2 (s.rd x.2 R.MC_CE_CNT) }
  else if x.1 = 5 then s.setHoop h { y with biasSeen := put natZero y.biasSeen (d * 64 + m) (s.reed (d - 0x10)).recals }
  else s

/-- AGEING_SAMPLE (R510, R511): the hour's samples a Hoop reads, as die, monitor and value; no value where the monitor cannot be read. -/
def execAgeingSample (hoop : Nat) (vals : List (Nat × Nat × Option Nat)) (s : State) : Host.Outcome State Fault Refusal :=
  .next (if hoop < 2 && s.hoopUp hoop then
    let s := s.toTick ((s.hoop hoop).ageAt + 3600 * 100000000)
    let s := s.setHoop hoop { s.hoop hoop with ageAt := s.clk.tick }
    let s := s.setFlash hoop { s.flashOf hoop with hours := (s.flashOf hoop).hours + 1, lit := s.laserHours hoop }
    let ok := vals.filter fun v => s.ageGives hoop v.1 v.2.1
    let s := ok.foldl (fun s v => match v.2.2 with
      | some x => (s.ageAppend hoop ⟨v.1, v.2.1, (s.flashOf hoop).hours, s.ageValue hoop v.1 v.2.1 x⟩).ageSeen hoop v.1 v.2.1
      | none => if s.acts hoop then s.raise (agePg v.1) 1 else s) s
    if s.acts hoop then ok.foldl (fun s v => s.ageFit hoop v.1 v.2.1) s else s
  else s)

/-- AGE_LOG_RETRY (R509). -/
def execAgeLogRetry (hoop : Nat) (s : State) : Host.Outcome State Fault Refusal :=
  .next (let held := look (fun _ => []) s.agePend hoop
    if hoop < 2 && s.hoopUp hoop && !held.isEmpty then
      let s := s.toTick ((s.hoop hoop).retryAt + 1000000000)
      let s := s.setHoop hoop { s.hoop hoop with retryAt := s.clk.tick }
      if s.nvOk hoop then
        { (s.setFlash hoop { s.flashOf hoop with age := (s.flashOf hoop).age ++ held }) with agePend := put (fun _ => []) s.agePend hoop [] }
      else s.nvRefuse hoop
    else s)

/-- AGE_LOG.CLR written 1 (Table 16-11): refused outside the window of R508. -/
def State.ageLogClr (s : State) (h : Nat) : State :=
  if s.nvOk h then
    { (s.setFlash h { s.flashOf h with age := [], lit := [] }) with agePend := put (fun _ => []) s.agePend h [] }
  else s.nvRefuse h

/-- The monitor of a die with the smallest EOL_HOURS (Table 16-11). -/
def State.ageWorst (s : State) (d : Nat) : Nat :=
  (List.range (monitors d).length).foldl (fun a m => if (s.fit d m).eol < (s.fit d a).eol then m else a) 0

end Sys2Proof.Machine
end

