-- ==== Sys2Proof/Machine/Faults.lean ====
section
/-! DEFINITION. Fault records on their way, grace timers, acknowledgments, the log and its interrupt (14_faults.md). Detection itself is in
Ops. -/

namespace Sys2Proof.Machine
open Sys2Proof

/-! The Twine ring's positions and what two hops down leave joined (R421, R424). -/

/-- Dies by ring position (Table 13-1). -/
def ringDies : List Nat := [0x12, 0, 8, 9, 1, 2, 10, 11, 3, 0x13, 0x11, 7, 15, 14, 6, 5, 13, 12, 4, 0x10]

/-- The ring position of a die. -/
def ringPos (d : Nat) : Nat := ringDies.findIdx fun x => decide (x = d)

/-- Whether the ring still joins a Hoop to a die, one way round or the other (R424). -/
def State.joined (s : State) (h d : Nat) : Bool :=
  let a := ringPos (0x12 + h)
  let n := (ringPos d + 20 - a) % 20
  let up (i : Nat) : Bool := s.ring.hops.all fun x => decide (x.2 ≠ i % 20)
  ((List.range n).all fun i => up (a + i)) || ((List.range (20 - n)).all fun i => up (a + n + i))

/-! Records. -/

def flogZero : Nat → FLog := fun _ => {}
def State.flog (s : State) (h : Nat) : FLog := look flogZero s.flt.logs h
def State.setFlog (s : State) (h : Nat) (x : FLog) : State := { s with flt := { s.flt with logs := put flogZero s.flt.logs h x } }

/-- A record's DIE, PAGE and SOURCE in the layout of bytes 8-11 (Table 14-1). -/
def recIdent (die page src : Nat) : Nat := die + page * 32 + src * 2 ^ 14

/-- The code of KIND. -/
def RecKind.code : RecKind → Nat
  | .detect => 0 | .rep => 1 | .escalated => 2 | .acked => 3

/-- A record as its four 64-bit words (Table 14-1). -/
def FaultRec.toWords (r : FaultRec) : List Nat :=
  [r.tick % 2 ^ 64, recIdent r.die r.page r.source + r.sev * 2 ^ 19 + r.kind.code * 2 ^ 21 + r.epoch * 2 ^ 24 + r.count * 2 ^ 56,
   r.status + r.last * 2 ^ 32, r.extra]

/-- The record that four words spell. -/
def FaultRec.ofWords (ws : List Nat) : FaultRec :=
  let b := ws.getD 1 0
  ⟨ws.getD 0 0, bits b 0 5, bits b 5 9, bits b 14 5, bits b 19 2,
    (match bits b 21 3 with
      | 0 => .detect | 1 => .rep | 2 => .escalated | _ => .acked),
    bits b 24 32, bits b 56 8, bits (ws.getD 2 0) 0 32, bits (ws.getD 2 0) 32 32, ws.getD 3 0⟩

/-- REPEAT_RECORD (R448). -/
def execRepeatRecord (page src : Nat) (s : State) : Host.Outcome State Fault Refusal :=
  .next (let x := s.page page
    let n := look (fun _ => 0) x.pendRep src
    if x.up ≠ .never && n ≠ 0 then
      let s := s.toTick (look (fun _ => 0) x.lastRec src + s.coalOf (dieOf page) * msTicks)
      let d := s.detailAgain page src
      let s := s.sendRec (s.mkRec page src (sevActed page (s.sevOf page src)) .rep n d.1 d.2)
      s.setPage page { x with pendRep := put (fun _ => 0) x.pendRep src 0, lastRec := put (fun _ => 0) x.lastRec src s.clk.tick }
    else s)

/-- PG_FSTAT written: the bits clear and their pending counts are discarded (R448). -/
def State.fstatClear (s : State) (p v : Nat) : State :=
  let s := s.wr p R.PG_FSTAT_SRC (s.rd p R.PG_FSTAT_SRC ^^^ (s.rd p R.PG_FSTAT_SRC &&& v))
  let x := s.page p
  s.setPage p { x with pendRep := forgetIf x.pendRep fun src => v.testBit src }

/-- The grace timer of a source. -/
def State.timerOf (s : State) (p src : Nat) : Option GTimer := (s.page p).timers.find? fun g => decide (g.src = src)

/-- A grace timer ends at its tick (R452). -/
def State.timerEnd (s : State) (p : Nat) (g : GTimer) : State :=
  let s := s.toTick g.ends
  let x := s.page p
  s.setPage p { x with timers := x.timers.filter (· ≠ g), ended := g.src :: x.ended.filter (· ≠ g.src) }

/-- CONTAIN_EXPIRY (R453). -/
def execContainExpiry (page src : Nat) (s : State) : Host.Outcome State Fault Refusal :=
  .next (match s.timerOf page src with
    | some g =>
      if g.halt then s
      else
        -- a TH page taken out leaves its die without live sensors (R499)
        let s := ((s.timerEnd page g).isolate page).safeEval
        let d := s.detailAgain page src
        s.sendRec (s.mkRec page src 2 .escalated 1 d.1 d.2)
    | none => s)

/-- HALT NOTICEs leave for every die, on both rings (R455); a trip takes precedence (R506). -/
def State.haltSend (s : State) (ident : Nat) : State :=
  if s.thp.tripAt.isSome then s
  else { s with flt := { s.flt with haltNotices := s.flt.haltNotices ++ allDies.map fun d => (d, ident) } }

/-- HALT_EXPIRY (R455). -/
def execHaltExpiry (page src : Nat) (s : State) : Host.Outcome State Fault Refusal :=
  .next (match s.timerOf page src with
    | some g => if g.halt then (s.timerEnd page g).haltSend (recIdent (dieOf page) (pageOf page) src) else s
    | none => s)

/-- What a die does on its first copy of a HALT NOTICE (R455). -/
def State.haltDie (s : State) (d ident : Nat) : State :=
  if isHoop d then
    let h := d - 0x12
    let s := { s with start := { s.start with going := false, held := false, work := false }, cad := {} }
    if s.alive (faultPg h) then
      let s := (s.wr pkg0 R.PKG_STAGE_STAGE 1).wb pkg0 R.PKG_STAGE_READY false
      let s := s.wb (faultPg h) R.FAULT_PIN_HALTED true
      if s.role h = roleFailed then s else s.raiseX (faultPg h) 4 0 ident
    else s
  else s.dieReset d

/-- HALT_NOTICE (R455). -/
def execHaltNotice (die : Nat) (s : State) : Host.Outcome State Fault Refusal :=
  .next (match s.flt.haltNotices.find? fun n => decide (n.1 = die) with
    | some n => ({ s with flt := { s.flt with haltNotices := s.flt.haltNotices.erase n } }).haltDie die n.2
    | none => s)

/-! Acknowledgment (R456, R457). -/

/-- A rejected access (R57): counted, its offset and cause kept; a page that is alive sets FENCE_REJ or REJ. -/
def State.reject (s : State) (p off cause : Nat) : State :=
  let s := s.inc pkg0 R.PKG_REJ_CNT
  let s := (s.wr pkg0 R.PKG_REJ_LAST_OFFSET (p * 0x1000 + off)).wr pkg0 R.PKG_REJ_LAST_CAUSE cause
  if s.alive p && cause ≠ 7 then (if cause = 3 then s.wb p R.PG_STATUS_FENCE_REJ true else s.wb p R.PG_STATUS_REJ true) else s

/-- The answer to an acknowledgment (Table 14-5). -/
def State.ackResult (s : State) (h result : Nat) : State :=
  (s.wr (faultPg h) R.FAULT_ACK_STAT_RESULT result).wb (faultPg h) R.FAULT_ACK_GO false

/-- FAULT_ACK.GO written 1 (R456). -/
def State.ackWrite (s : State) (h : Nat) : State :=
  let p := faultPg h
  if s.acts h then
    let a : Ack := ⟨h, pg (s.rd p R.FAULT_ACK_DIE) (s.rd p R.FAULT_ACK_PAGE), s.rd p R.FAULT_ACK_SOURCE,
      s.rd (hpTop h) R.HP_LEASE_STAT_EPOCH, s.clk.tick⟩
    { (s.wb p R.FAULT_ACK_GO true) with acks := s.acks ++ [a] }
  else s.ackResult h 6

/-- ACK_AT_PAGE (R457): the page judges the oldest acknowledgment of a Hoop; a page whose die is in reset gives no answer. -/
def execAckAtPage (hoop : Nat) (s : State) : Host.Outcome State Fault Refusal :=
  .next (match s.acks.find? fun a => decide (a.hoop = hoop) with
    | none => s
    | some a =>
      let x := s.page a.page
      if (pageBlk a.page).isNone || x.up = .never then s
      else
        let s := { s with acks := s.acks.erase a }
        if a.epoch < s.rd a.page R.PG_EPOCH_EPOCH then
          ((s.reject a.page 0 3).wb a.page R.PG_STATUS_FENCE_REJ true).ackResult hoop 5
        else
          let late (s : State) : State := (s.raiseX (faultPg hoop) 3 3 (recIdent (dieOf a.page) (pageOf a.page) a.src)).ackResult hoop 3
          match s.timerOf a.page a.src with
          | some g =>
            if g.ends ≤ s.clk.tick then late s
            else
              let s := s.setPage a.page { x with timers := x.timers.filter (· ≠ g) }
              let d := s.detailAgain a.page a.src
              (s.sendRec (s.mkRec a.page a.src (if g.halt then 3 else 2) .acked 1 d.1 d.2)).ackResult hoop 1
          | none => if x.ended.contains a.src then late s else s.ackResult hoop 2)

/-- ACK_NO_ANSWER (R457): 100 µs without an answer. -/
def execAckNoAnswer (hoop : Nat) (s : State) : Host.Outcome State Fault Refusal :=
  .next (match s.acks.find? fun a => decide (a.hoop = hoop) with
    | none => s
    | some a => (({ s with acks := s.acks.erase a }).toTick (a.tick + 100 * usTicks)).ackResult hoop 4)

/-! The log, the queue and the interrupt (R458-R460). -/

/-- The queue records go to: 64-79, other values held as 65. -/
def State.faultQueue (s : State) (h : Nat) : Nat :=
  let q := s.rd (faultPg h) R.FAULT_CFG_QUEUE
  if 64 ≤ q && q ≤ 79 then q else 65

/-- Whether a record is offered in the mode in force (Table 15-9). -/
def State.offered (s : State) (r : FaultRec) : Bool :=
  !s.huabel || decide (r.kind = .escalated) || (decide (r.kind = .detect) && decide (2 ≤ r.sev))

/-- A logged record is offered to the event queue (R459). -/
def State.queueOffer (s : State) (h : Nat) (r : FaultRec) : State :=
  let p := faultPg h
  if !s.bit p R.FAULT_CFG_Q_EN || !s.offered r then s
  else
    let q := s.faultQueue h
    let own := decide (r.source = 2) && decide (isHoop r.die) && decide (r.page = 0x20)
    if own && (s.sq h q).free = 0 then s
    else
      let s := s.setFlog h { s.flog h with lastQ := some r }
      let x := s.sqOffer h q r.toWords
      if x.2 || own then x.1 else (x.1.inc p R.FAULT_CNT_QFULL).raiseX p 2 (s.rd p R.FAULT_ACK_STAT_RESULT) (recIdent r.die r.page r.source)

/-- The interrupt of a record the acting Hoop logs (R459; CONTAIN and above in Huabel mode). -/
def State.faultInt (s : State) (h : Nat) (r : FaultRec) : State :=
  let p := faultPg h
  if r.sev < (if s.huabel then 2 else 1) then s
  else if s.bit p R.FAULT_INT_PEND then s.inc p R.FAULT_INT_NEW
  else ((s.wb p R.FAULT_INT_PEND true).wr p R.FAULT_INT_NEW 0).msix h (s.rd p R.FAULT_CFG_VEC)

/-- FAULT_CFG.PIN_SEV in force: 0 is held as 1; 2 in Huabel mode. -/
def State.pinSev (s : State) (h : Nat) : Nat := if s.huabel then 2 else max 1 (s.rd (faultPg h) R.FAULT_CFG_PIN_SEV)

/-- A record enters the next slot of a Hoop's log (R458). -/
def State.logPut (s : State) (h : Nat) (r : FaultRec) : State :=
  let p := faultPg h
  let x := s.flog h
  let w := s.rd p R.FAULT_LOG_PTR_WR
  let s := s.setFlog h { x with slots := put (fun _ => none) x.slots w (some r), unread := min 4096 (x.unread + 1) }
  (s.wr p R.FAULT_LOG_PTR_WR ((w + 1) % 4096)).addWrap p R.FAULT_LOG_SEQ 1

/-- A Hoop die logs a record (R458-R460); `flashOk`: a crash-log write would succeed. -/
def State.logRec (s : State) (h : Nat) (r : FaultRec) (flashOk : Bool) : State :=
  let p := faultPg h
  let full := decide (4096 ≤ (s.flog h).unread)
  let ident := recIdent r.die r.page r.source
  let s := s.logPut h r
  let s := if full then (s.inc p R.FAULT_CNT_OVF).raiseX p 0 (s.rd p R.FAULT_ACK_STAT_RESULT) ident else s
  let s : State :=
    if 2 ≤ r.sev then
      if s.nvOk h && flashOk && (s.flog h).crash.length < 1024 then s.setFlog h { s.flog h with crash := (s.flog h).crash ++ [r] }
      else (if s.nvOk h then s else s.nvRefuse h).raiseX p 5 (s.rd p R.FAULT_ACK_STAT_RESULT) ident
    else s
  let s := if s.pinSev h ≤ r.sev || r.kind = .escalated then s.inc p R.FAULT_PIN_OPEN else s
  if s.acts h then (s.queueOffer h r).faultInt h r else s

/-- The die that sends a record: those of the package page set come from the acting Hoop (R449). -/
def State.recFrom (s : State) (r : FaultRec) : Nat := if r.die = 0x1F then 0x12 + s.acting.getD 0 else r.die

/-- FAULT_FRAME (R449, R458): a Hoop die takes the oldest record on its way to it; a FAILED one takes none. A record lost on both rings (`good` false)
leaves a gap that the sender's next frame shows; one from a die that the broken ring cuts off does not arrive. -/
def execFaultFrame (hoop : Nat) (good flashOk : Bool) (s : State) : Host.Outcome State Fault Refusal :=
  .next (match s.flt.flight.find? fun f => decide (f.1 = hoop) with
    | none => s
    | some f =>
      let s := { s with flt := { s.flt with flight := s.flt.flight.erase f } }
      let d := s.recFrom f.2
      if !s.joined hoop d then s
      else if !good then { s with ring := { s.ring with gaps := put natZero s.ring.gaps (hoop * 32 + d) (look natZero s.ring.gaps (hoop * 32 + d) + 1) } }
      else if s.hoopUp hoop && s.alive (faultPg hoop) then s.logRec hoop f.2 flashOk else s)

/-- FAULT_INT.PEND cleared: set again at once where NEW is not zero (R459). -/
def State.intClear (s : State) (h : Nat) : State :=
  let p := faultPg h
  if s.rd p R.FAULT_INT_NEW = 0 then s.wb p R.FAULT_INT_PEND false
  else (s.wr p R.FAULT_INT_NEW 0).msix h (s.rd p R.FAULT_CFG_VEC)

/-- FAULT_PIN.CLR written 1 (R460). -/
def State.pinClr (s : State) (h : Nat) : State := s.wr (faultPg h) R.FAULT_PIN_OPEN 0

/-- Whether a Hoop die pulls FAULT_N low (R460). -/
def State.pullsFault (s : State) (h : Nat) : Bool :=
  s.hoopUp h && s.alive (faultPg h) && (decide (s.rd (faultPg h) R.FAULT_PIN_OPEN ≠ 0) || s.bit (faultPg h) R.FAULT_PIN_HALTED)

/-- FAULT_LOG_RD.RD written: the slots from it up to WR are unread (R458). -/
def State.logRdWrite (s : State) (h v : Nat) : State :=
  let s := s.wr (faultPg h) R.FAULT_LOG_RD_RD v
  s.setFlog h { s.flog h with unread := (s.rd (faultPg h) R.FAULT_LOG_PTR_WR + 4096 - v % 4096) % 4096 }

/-- The acting Hoop's FAULT_COAL.MS is copied to every die (R448). -/
def State.coalCopy (s : State) (h : Nat) : State :=
  let v := max 1 (s.rd (faultPg h) R.FAULT_COAL_MS)
  if s.acts h then { s with flt := { s.flt with coal := (List.range 32).foldl (fun m d => put (fun _ => 100) m d v) s.flt.coal } } else s

/-- FAULT_COAL.MS written: 0 is held as 1 (R448). -/
def State.coalWrite (s : State) (h v : Nat) : State := (s.wr (faultPg h) R.FAULT_COAL_MS (max 1 (v % 2 ^ 14))).coalCopy h

/-- FAULT_CRASH.CLR written 1: refused outside the window of R508. -/
def State.crashClear (s : State) (h : Nat) : State := if s.nvOk h then s.setFlog h { s.flog h with crash := [] } else s.nvRefuse h

/-- FAULT_CNT_CLR written 1 (Table 14-10). -/
def State.faultCntClr (s : State) (h : Nat) : State := s.zero (faultPg h) [R.FAULT_CNT_QFULL, R.FAULT_CNT_OVF]

/-- FAULT_LOG_DATA: the selected slot's record. -/
def State.logData (s : State) (h : Nat) : List Nat :=
  match look (fun _ => none) (s.flog h).slots (s.rd (faultPg h) R.FAULT_LOG_SEL_SLOT) with
  | some r => r.toWords
  | none => [0, 0, 0, 0]

end Sys2Proof.Machine
end

