-- ==== Sys2Proof/Machine/Hoop.lean ====
section
/-! DEFINITION. The Hoop pair (13_hoop_pair.md): roles, leases, heartbeats, the SOLO rule, the watchdog, the mirror, the Twine ring's hops
and notices; and the cadence tree (R195-R198, R444). -/

namespace Sys2Proof.Machine
open Sys2Proof

def held (h : Nat) : Nat := 0x12 + h
def State.hpEpoch (s : State) (h : Nat) : Nat := s.rd (hpTop h) R.HP_LEASE_STAT_EPOCH
def State.hpSeen (s : State) (h : Nat) : Nat := s.rd (hpTop h) R.HP_LEASE_SEEN

/-- HP_LEASE_SEEN rises to an epoch met (R429). -/
def State.meet (s : State) (h e : Nat) : State := s.wr (hpTop h) R.HP_LEASE_SEEN (max (s.hpSeen h) (e % 2 ^ 32))

/-- A change of role (Table 13-4): counted and recorded. -/
def State.setRole (s : State) (h r : Nat) : State :=
  if s.role h = r then s
  else
    let s := ((s.wr (hpTop h) R.HP_ROLE_ROLE r).inc (hpTop h) R.HP_ROLE_CHANGES).raise (hpTop h) 1
    if r = roleActive || r = roleSolo then s else s.wb (hpTop h) R.HP_ROLE_OVERLAP false

/-- The SOLO hold-off is abandoned. -/
def State.soloStop (s : State) (h : Nat) : State :=
  (s.setHoop h { s.hoop h with soloAt := none }).wb (hpTop h) R.HP_ROLE_SOLO_PEND false

/-- A Hoop that acts and meets a higher epoch becomes FENCED (R436). -/
def State.meetEpoch (s : State) (h e : Nat) : State :=
  let s := s.meet h e
  if s.acts h && s.hpEpoch h < e then s.setRole h roleFenced else s

/-- A die receives EPOCH_RAISE (R434): every page of it, and its tree epoch, rise; open keys close. -/
def State.raiseDie (s : State) (d e : Nat) : State :=
  let s := ((diePages d).filter fun p => decide ((s.page p).up ≠ .never)).foldl (fun s p =>
    if s.rd p R.PG_EPOCH_EPOCH < e then (s.wr p R.PG_EPOCH_EPOCH e).wb p R.PG_STATUS_KEY_OPEN false else s) s
  { s with cad := { s.cad with epochs := put natZero s.cad.epochs d (max (look natZero s.cad.epochs d) e) } }

/-- EPOCH_RAISE leaves for every die (R434); the Hoop's own die and the package pages it serves rise at once. -/
def State.raiseAll (s : State) (h e : Nat) : State :=
  let s := (s.raiseDie (held h) e).raiseDie 0x1F e
  { s with ring := { s.ring with raises := s.ring.raises ++ (allDies.filter (· ≠ held h)).map fun d => (d, e) } }

/-- The fields of package page 2 that steer sync logic: the acting Hoop copies them to the Osier dies, and a new one reads them back (R555). -/
def copied2 : List Fld :=
  [R.PKG_STEP, R.PKG_BORDER_LEAD, R.PKG_BREAK_ID, R.PKG_BREAK_EN, R.PKG_BREAK_MODE, R.PKG_BREAK_COUNT, R.PKG_BREAK_STAT_HIT, R.PKG_BREAK_STAT_ID,
   R.PKG_BREAK_STEP] ++ (List.range 8).map (Fld.idx R.PKG_STEP_MASK) ++ (List.range 8).map (Fld.idx R.PKG_AUDIT_MASK)

/-- A new acting Hoop serves the package page set from its own state (R555). -/
def State.takeOver (s : State) (h : Nat) : State :=
  let seq := allDies.foldl (fun a d => max a (s.rd (pg d 0) R.PG_SNAP_SEQ)) 0
  let s := s.resetRegs pkg0 [R.PKG_IDENT_PKG_ID, R.PKG_IDENT_GRADE, R.PKG_IDENT_FUSE_GRADE, R.PKG_STAGE_STAGE, R.PKG_STAGE_READY, R.PKG_START_AUTO]
  let s := s.resetRegs pkg1 []
  let s := s.wr pkg1 R.PKG_TAG ((List.range 64).foldl (fun a i => a + look natZero (s.flashOf h).tag i * 2 ^ (32 * i)) 0)
  let s := s.wr pkg0 R.PKG_SNAP_STAT_SEQ seq
  let s := s.resetRegs pkg2 ([R.PKG_TIME_CTRL_ARMED, R.PKG_TIME_CTRL_ZEROED, R.PKG_TIME_CTRL_CHECK_EN, R.PKG_TIME_CTRL_TOL, R.PKG_TIME_STAT_OFFSET,
    R.PKG_TIME_STAT_STUCK, R.PKG_TIME_STAT_SLIP_CNT, R.PKG_EPOCH_IGN, R.PKG_EPOCH_CNT] ++ copied2)
  let s := [pkg0, pkg1, pkg2].foldl (fun (s : State) p =>
    { s with regs := forgetIf s.regs fun k => decide (keyPage k = p) && decide (k % 131072 < 0x100 * 32)
              && !([R.PG_EPOCH_EPOCH, R.PG_CTRL_ENABLE].any fun f => decide (f.key p = k)) }) s
  let s := { s with snaps := [] }
  { s with com := { s.com with mark := [], armed := [], prep := [], ahead := [], answers := [], taken := [] } }

/-- The stage in progress starts again from its beginning (R518). -/
def State.stageRestart (s : State) : State :=
  if s.start.going && !s.bit pkg0 R.PKG_STAGE_READY then { s with start := { s.start with work := false } } else s

/-- The bytes of a valid mirror bank with the highest SEQ (R443): the bank of the last valid commit. -/
def State.mirrorBank (s : State) (h : Nat) : Option (Sparse Nat) :=
  let p := hpTop h
  if s.bit p R.HP_MIR_STAT_CUR then (if s.bit p R.HP_MIR_STAT_VALID1 then some (s.hoop h).bank1 else none)
  else if s.bit p R.HP_MIR_STAT_VALID0 then some (s.hoop h).bank0 else none

/-- Where the fault queue position lies in the image: the last item of Table 13-7. -/
def mirQueueOff : Nat := 12116

/-- Where the fault-log tail lies in the image (Table 13-7). -/
def mirTailOff : Nat := 520

/-- A little-endian number of `n` bytes of a mirror bank. -/
def bankNum (b : Sparse Nat) (off n : Nat) : Nat := (List.range n).foldl (fun a i => a + look natZero b (off + i) * 256 ^ i) 0

/-- The records of the image's fault-log tail, oldest first. -/
def bankTail (b : Sparse Nat) : List FaultRec :=
  ((List.range 256).map fun i => (List.range 4).map fun w => bankNum b (mirTailOff + 32 * i + 8 * w) 8).filterMap fun ws =>
    if ws.all (· == 0) then none else some (FaultRec.ofWords ws)

/-- The new active merges the mirrored tail with its own log and takes FAULT_LOG_RD from the mirror (Table 13-7, R443). -/
def State.mergeTail (s : State) (h : Nat) : State :=
  match s.mirrorBank h with
  | none => s
  | some b =>
    let s := (bankTail b).foldl (fun s r => if (s.flog h).slots.any fun e => decide (e.2 = some r) then s else s.logPut h r) s
    s.logRdWrite h (bankNum b mirQueueOff 4 % 4096)

/-- The new active offers every logged record whose TICK is equal to or later than that of the last record queued (R459). -/
def State.offerAgain (s : State) (h : Nat) : State :=
  let from' := match s.mirrorBank h with
    | some b => bankNum b (mirQueueOff + 4) 8
    | none => 0
  let w := s.rd (faultPg h) R.FAULT_LOG_PTR_WR
  ((List.range 4096).filterMap fun i => look (fun _ => none) (s.flog h).slots ((w + i) % 4096)).foldl
    (fun s r => if from' ≤ r.tick then s.queueOffer h r else s) s

/-- A Hoop is promoted (R434, R435, R443). -/
def State.promote (s : State) (h e r : Nat) : State :=
  let fresh := !s.acts h
  let s := s.setRole h r
  let s := (s.wr (hpTop h) R.HP_LEASE_STAT_EPOCH e).meet h e
  let s := (s.wb (hpTop h) R.HP_ROLE_OVERLAP true).wb (hpTop h) R.HP_ROLE_TAKEOVER_DONE false
  let s := (s.setHoop h { s.hoop h with overlapEnd := s.clk.tick + 2 * msTicks }).soloStop h
  let s := s.raiseAll h e
  if fresh then (((s.takeOver h).stageRestart.coalCopy h).mergeTail h).offerAgain h else s

/-! Lease commands (R428-R430). -/

/-- A command that is not accepted changes nothing (R429). -/
def State.leaseReject (s : State) (h : Nat) : State := (s.inc (hpTop h) R.HP_LEASE_CFG_REJ_CNT).raise (hpTop h) 2

/-- An accepted command is noted for the SOLO rule (R437, R439). -/
def State.accepted (s : State) (h : Nat) : State := (s.setHoop h { s.hoop h with cmdAt := some s.clk.tick }).soloStop h

/-- GRANT (R429, R430). -/
def State.leaseGrant (s : State) (h : Nat) : State :=
  let e := s.rd (hpTop h) R.HP_LEASE_CMD_EPOCH
  if s.hpSeen h < e && s.role h ≠ roleFailed && !s.huabel then
    let s := s.accepted h
    let s := s.setHoop h { s.hoop h with leaseEnd := s.clk.tick + 250 * msTicks, renewAt := s.clk.tick + 50 * msTicks, granted := some s.clk.tick }
    s.promote h e roleActive
  else s.leaseReject h

/-- RENEW (R429, R430). -/
def State.leaseRenew (s : State) (h : Nat) : State :=
  let e := s.rd (hpTop h) R.HP_LEASE_CMD_EPOCH
  if e = s.hpEpoch h && s.role h = roleActive && !s.huabel then
    let s := (s.accepted h).meet h e
    (s.setHoop h { s.hoop h with leaseEnd := s.clk.tick + 250 * msTicks }).addWrap (hpTop h) R.HP_LEASE_TMR_RENEW_CNT 1
  else s.leaseReject h

/-- STANDBY (R429). -/
def State.leaseStandby (s : State) (h : Nat) : State :=
  let e := s.rd (hpTop h) R.HP_LEASE_CMD_EPOCH
  if s.hpSeen h ≤ e && s.role h ≠ roleFailed && !s.huabel then
    let s := ((s.accepted h).meet h e).setRole h roleStandby
    s.setHoop h { s.hoop h with granted := none }
  else s.leaseReject h

/-- HP_LEASE_CMD.CMD written: 0 is no command (R428). -/
def State.leaseCmd (s : State) (h cmd : Nat) : State :=
  match cmd with
  | 1 => s.leaseGrant h
  | 2 => s.leaseRenew h
  | 3 => s.leaseStandby h
  | _ => s

/-- LEASE_EXPIRED (R430). -/
def execLeaseExpired (hoop : Nat) (s : State) : Host.Outcome State Fault Refusal :=
  .next (if hoop < 2 && s.alive (hpTop hoop) && s.role hoop = roleActive then
    ((s.toTick (s.hoop hoop).leaseEnd).setRole hoop roleFenced).raise (hpTop hoop) 0
  else s)

/-- RENEWAL_REQUEST (R431). -/
def execRenewalRequest (hoop : Nat) (s : State) : Host.Outcome State Fault Refusal :=
  .next (if hoop < 2 && s.hoopUp hoop && s.role hoop = roleActive then
    let s := s.toTick (s.hoop hoop).renewAt
    (s.setHoop hoop { s.hoop hoop with renewAt := s.clk.tick + 50 * msTicks }).msix hoop (s.rd (hpTop hoop) R.HP_LEASE_CFG_VEC)
  else s)

/-- TAKEOVER_DONE (R433): when within 250 ms of the grant the live items are read is the sender's. -/
def execTakeoverDone (hoop : Nat) (s : State) : Host.Outcome State Fault Refusal :=
  .next (if hoop < 2 && s.hoopUp hoop && s.role hoop = roleActive && (s.hoop hoop).granted.isSome then
    let s := s.setHoop hoop { s.hoop hoop with granted := none }
    (s.wb (hpTop hoop) R.HP_ROLE_TAKEOVER_DONE true).msix hoop (s.rd (hpTop hoop) R.HP_LEASE_CFG_VEC)
  else s)

/-- EPOCH_RAISE (R434, R436): a die receives the oldest frame on its way to it. -/
def execEpochRaise (die : Nat) (s : State) : Host.Outcome State Fault Refusal :=
  .next (match s.ring.raises.find? fun r => decide (r.1 = die) with
    | none => s
    | some r =>
      let s := { s with ring := { s.ring with raises := s.ring.raises.erase r } }
      let s := s.raiseDie die r.2
      if isHoop die && s.alive (hpTop (die - 0x12)) then s.meetEpoch (die - 0x12) r.2 else s)

/-- OVERLAP_END (R435, R444, R555): the Hoop may drive the tree, whose first message names the N in force, and sends a discard to every die. -/
def execOverlapEnd (hoop : Nat) (s : State) : Host.Outcome State Fault Refusal :=
  .next (if hoop < 2 && s.acts hoop && s.bit (hpTop hoop) R.HP_ROLE_OVERLAP then
    let s := (s.toTick (s.hoop hoop).overlapEnd).wb (hpTop hoop) R.HP_ROLE_OVERLAP false
    ({ s with com := { s.com with discard := allDies },
              cad := { s.cad with nextN := some (s.clk.n, s.clk.frame + 1), taken := false,
                                  msgs := allDies.map fun d => (d, s.hpEpoch hoop) } }).sendN
  else s)

/-! Heartbeats, the SOLO rule and the watchdog (R437-R440). -/

/-- The age in ms of the last command with a valid key, at its largest value when there has been none (R437, R439). -/
def cmdAge (x : HoopSt) (now : Nat) : Nat :=
  match x.cmdAt with
  | some t => min (2 ^ 32 - 1) ((now - t) / msTicks)
  | none => 2 ^ 32 - 1

/-- The HEARTBEAT frame of a Hoop whose last command is `ms` old (Table 13-5). -/
def State.hbFrame (s : State) (hoop ms : Nat) : HbFrame :=
  ⟨1 - hoop, s.role hoop, s.bit (hpTop hoop) R.HP_ROLE_SOLO_PEND, decide (ms < 30000),
    s.rd (hpTop hoop) R.HP_MIR_SEQ % 65536, s.hpEpoch hoop, s.hpSeen hoop, ms⟩

/-- HEARTBEAT_SEND (R437, Table 13-5). -/
def execHeartbeatSend (hoop : Nat) (s : State) : Host.Outcome State Fault Refusal :=
  .next (if hoop < 2 && s.hoopUp hoop then
    let s := s.toTick ((s.hoop hoop).hbSent + 10 * msTicks)
    let x := s.hoop hoop
    { (s.setHoop hoop { x with hbSent := s.clk.tick }) with
      ring := { s.ring with hbs := s.ring.hbs ++ [s.hbFrame hoop (cmdAge x s.clk.tick)] } }
  else s)

/-- Heartbeats that have not come since the last one, one being due every 10 ms (R437). -/
def State.missedHbs (s : State) (h : Nat) : Nat := (s.clk.tick - (s.hoop h).hbHeard + 5 * msTicks) / (10 * msTicks) - 1

/-- HEARTBEAT (R437, R439, R436): a Hoop receives the oldest heartbeat on its way to it; those that never came count as missed. -/
def execHeartbeat (hoop : Nat) (s : State) : Host.Outcome State Fault Refusal :=
  .next (match s.ring.hbs.find? fun f => decide (f.dst = hoop) with
    | none => s
    | some f =>
      let s := { s with ring := { s.ring with hbs := s.ring.hbs.erase f } }
      if hoop < 2 && s.alive (hpTop hoop) then
        let p := hpTop hoop
        let s := s.addSat p R.HP_HB_MISSED (s.missedHbs hoop - (s.hoop hoop).hbMiss)
        let s := (s.wr p R.HP_ROLE_PEER_ROLE f.role).wb p R.HP_ROLE_PEER_ALIVE true
        let s := s.setHoop hoop { s.hoop hoop with
          hbHeard := s.clk.tick, hbMiss := 0, peerRole := f.role,
          peerCmd := if f.ms = 2 ^ 32 - 1 then none else some (s.clk.tick - f.ms * msTicks) }
        let s := if f.recent || f.role = roleActive then s.soloStop hoop else s
        s.meetEpoch hoop (max f.epoch f.seen)
      else s)

/-- HOOP_PEER_LOST (R437): three heartbeats in a row have not come. -/
def execHoopPeerLost (hoop : Nat) (s : State) : Host.Outcome State Fault Refusal :=
  .next (if hoop < 2 && s.hoopUp hoop && s.bit (hpTop hoop) R.HP_ROLE_PEER_ALIVE then
    let s := s.toTick ((s.hoop hoop).hbHeard + 30 * msTicks)
    let s := s.setHoop hoop { s.hoop hoop with hbMiss := 3 }
    ((s.addSat (hpTop hoop) R.HP_HB_MISSED 3).wb (hpTop hoop) R.HP_ROLE_PEER_ALIVE false).raise (hpTop hoop) 3
  else s)

/-- SOLO_HOLDOFF (R439). -/
def execSoloHoldoff (s : State) : Host.Outcome State Fault Refusal :=
  .next (let p := hpTop 0
    let x := s.hoop 0
    let peer := if s.bit p R.HP_ROLE_PEER_ALIVE then x.peerCmd.getD 0 else 0
    if s.hoopUp 0 && (s.role 0 = roleStandby || s.role 0 = roleFenced) && s.bit p R.HP_SOLO_EN && x.soloAt.isNone then
      let s := s.toTick (max (x.cmdAt.getD 0) peer + 30000 * msTicks)
      (s.setHoop 0 { x with soloAt := some s.clk.tick }).wb p R.HP_ROLE_SOLO_PEND true
    else s)

/-- SOLO_ENTRY (R439). -/
def execSoloEntry (s : State) : Host.Outcome State Fault Refusal :=
  .next (match (s.hoop 0).soloAt with
    | none => s
    | some t =>
      if s.hoopUp 0 then
        let s := s.toTick (t + 2000 * msTicks)
        ((s.promote 0 (s.hpSeen 0 + 1) roleSolo).inc (hpTop 0) R.HP_SOLO_CNT).raise (hpTop 0) 4
      else s)

/-- HP_WDOG.KICK written 1 (R440). -/
def State.wdogKick (s : State) (h : Nat) : State := s.setHoop h { s.hoop h with kick := s.clk.tick }

/-- The die moves to FAILED; its transmitters are gated (R425, R430). -/
def State.hoopFail (s : State) (h : Nat) : State := (s.soloStop h).setRole h roleFailed

/-- WDOG_EXPIRED (R440). -/
def execWdogExpired (hoop : Nat) (s : State) : Host.Outcome State Fault Refusal :=
  .next (if hoop < 2 && s.hoopUp hoop then
    let s := s.toTick ((s.hoop hoop).kick + max 10 (s.rd (hpTop hoop) R.HP_WDOG_MS) * msTicks)
    (s.hoopFail hoop).raise (hpTop hoop) 5
  else s)

/-- FIRMWARE_MEMORY_UE (R425). -/
def execFirmwareMemoryUe (hoop : Nat) (s : State) : Host.Outcome State Fault Refusal :=
  .next (if hoop < 2 && s.hoopUp hoop then s.hoopFail hoop else s)

/-- The profile in use enters the fields a Hoop die keeps (R512, R525). -/
def State.profileHoop (s : State) (h : Nat) : State :=
  let x := s.start.prof
  let p := thPg (held h)
  let s := ((s.wr p R.TH_CAP_W (s.capHeld x.cap)).wr p R.TH_PKG_K_K x.k).wr p R.TH_ADJ_THROT_LOWER x.throt
  s.wr p R.TH_ADJ_WARN_LOWER x.warn

/-- A Hoop die's pages come alive; its flash and fuses show in them. -/
def State.hoopPages (s : State) (h : Nat) : State :=
  let f := s.flashOf h
  let s := (diePages (held h)).foldl (fun s p => match (s.page p).up with
    | .never => (s.setUp p .up).wb p R.PG_CTRL_ENABLE true
    | .resetting => if p = hpTop h then s.setUp p (if s.bit p R.PG_CTRL_ENABLE then .up else .down) else s
    | _ => s) s
  let s := (s.profileHoop h).wr (hpTop h) R.HP_TWINE_STAT_HOP_UP (2 ^ 20 - 1)
  let s := s.wr (thPg (held h)) R.TH_TRIP_LAST_CNT f.trips
  let q := pg (held h) 0x40
  let s := ((s.wr q R.SEC_LC_STATE f.life).wr q R.SEC_BOOT_MIN_SVN f.minSvn).wr q R.SEC_KEY_CTRL_REVOKE f.revoked
  let s := s.wr q R.SEC_KEY_CTRL_FUSED f.fused
  let v := pciePg h
  let s := (s.wb v R.PCIE_MODE_HUABEL s.start.huabel).wb v R.PCIE_MODE_HUABEL_NEXT f.huabel
  let s := s.wr v R.PCIE_IDENT_DEVICE_ID (if s.start.huabel then 0x0A24 + h else 0x0824)
  let r := pg (held h) 0x30
  let s := ((s.wr r R.PR_OVERRIDE_IDX f.ovIdx).wb r R.PR_OVERRIDE_EN f.ovEn).wb r R.PR_OVERRIDE_ONCE f.ovOnce
  s.setHoop h { s.hoop h with kick := s.clk.tick, hbSent := s.clk.tick, hbHeard := s.clk.tick, rebootAt := none }

/-! The mirror (R441-R443). -/

/-- Little-endian bytes. -/
def bytesOf (n v : Nat) : List Nat := (List.range n).map fun i => v / 256 ^ i % 256

/-- The 22 links by the WL page of one end, its partner's first repair maps (Table 13-7): 18 program links and 4 H links. -/
def linkPages : List Nat :=
  (osDies.flatMap fun d => [0, 2, 3].map fun k => wlPg d k).filter (fun p => (walePeer p).isSome && (decide (pageOf p = 0x43) || wlLeads p))
    ++ (osDies.map fun d => wlPg d 4).filter fun p => (walePeer p).isSome

/-- The mirror image: the items of Table 13-7 in their order. -/
def State.mirrorImage (s : State) (h : Nat) : List Nat :=
  let prof := bytesOf 1 (s.rd (pg (held h) 0x30) R.PR_STAT_IN_USE) ++ (s.start.words.flatMap (bytesOf 4)).drop 1
  let prof := prof.take 512 ++ List.replicate (512 - prof.length) 0
  let w := s.rd (faultPg h) R.FAULT_LOG_PTR_WR
  let tail := (List.range 256).flatMap fun i => match look (fun _ => none) (s.flog h).slots ((w + 4096 - 256 + i) % 4096) with
    | some r => r.toWords.flatMap (bytesOf 8)
    | none => List.replicate 32 0
  let maps := linkPages.flatMap fun p => (List.range 128).map fun i => (s.wle p).repair (i / 64) (i / 4 % 16) (i % 4)
  let lasers := [0, 1].flatMap fun r => bytesOf 4 ((List.range 16).foldl (fun a k => a + s.rd (rdPg r k) R.RD_L_STAT_BANK * 2 ^ k) 0)
  let cals := ((List.range 8).map fun v => s.rd (wfTop v) R.WF_CAL_CTRL_GEN % 256) ++ List.replicate 8 0
  let subst := (List.range 84).map fun b => (List.range 4).foldl (fun a j => a + (s.sensor (4 * b + j)).sub * 4 ^ j) 0
  let peers := (List.range 8).flatMap fun v => (List.range 15).flatMap fun i => bytesOf 4 (s.word (subPg v (i + 1)) 0x100)
  let last := match (s.flog h).lastQ with
    | some r => bytesOf 8 r.tick ++ bytesOf 4 (recIdent r.die r.page r.source) ++ bytesOf 8 r.kind.code
    | none => List.replicate 20 0
  prof ++ bytesOf 4 (s.hpEpoch h) ++ bytesOf 4 (s.hpSeen h) ++ tail ++ maps ++ lasers ++ cals ++ subst ++ peers
    ++ bytesOf 4 (s.rd (faultPg h) R.FAULT_LOG_RD_RD) ++ last

/-- The bytes in frames of 32. -/
def frames32 (bs : List Nat) : List (List Nat) := (List.range ((bs.length + 31) / 32)).map fun i => (bs.drop (32 * i)).take 32

/-- An image leaves for the other Hoop, into the bank that does not hold its last valid commit (R442). -/
def State.mirrorOut (s : State) (h : Nat) : State :=
  if s.drives h then
    let q := hpTop (1 - h)
    let cur := s.rd q R.HP_MIR_STAT_CUR
    let valid := if cur = 1 then s.bit q R.HP_MIR_STAT_VALID1 else s.bit q R.HP_MIR_STAT_VALID0
    let bank := if valid then 1 - cur else cur
    let img := s.mirrorImage h
    let x := s.hoop h
    let seq := max (x.mirSeq + 1) (s.rd (hpTop h) R.HP_MIR_SEQ + 1) % 2 ^ 32
    let fs := (frames32 img).zipIdx.map fun f => MirFrame.data (1 - h) bank (32 * f.2) (s.hpEpoch h) f.1
    let s := s.setHoop h { x with mirSeq := seq, mirAt := s.clk.tick, mirDue := false }
    { s with ring := { s.ring with mirs := s.ring.mirs ++ fs ++ [.commit (1 - h) bank seq (s.hpEpoch h) img.length (crc32c img)] } }
  else s

/-- MIRROR_SEND (R441): no more than once per 10 ms. -/
def execMirrorSend (hoop : Nat) (s : State) : Host.Outcome State Fault Refusal :=
  .next (if hoop < 2 && s.drives hoop then (s.toTick ((s.hoop hoop).mirAt + 10 * msTicks)).mirrorOut hoop else s)

def MirFrame.dst : MirFrame → Nat
  | .data d _ _ _ _ => d
  | .commit d _ _ _ _ _ => d

/-- A bank's VALID bit. -/
def State.mirValid (s : State) (h bank : Nat) (v : Bool) : State :=
  s.wb (hpTop h) (if bank = 1 then R.HP_MIR_STAT_VALID1 else R.HP_MIR_STAT_VALID0) v

/-- MIRROR_FRAME (R442): 32 bytes enter a bank, which the first of them makes invalid; a frame of a lower epoch is ignored. A frame lost on
both rings (`good` false) leaves the bank as it was. -/
def execMirrorFrame (hoop : Nat) (good : Bool) (s : State) : Host.Outcome State Fault Refusal :=
  .next (match s.ring.mirs.find? fun f => decide (f.dst = hoop) with
    | some (.data d bank off e bs) =>
      let s := { s with ring := { s.ring with mirs := s.ring.mirs.erase (.data d bank off e bs) } }
      if good && s.alive (hpTop hoop) && s.hpSeen hoop ≤ e then
        let x := s.hoop hoop
        let into (b : Sparse Nat) : Sparse Nat := bs.zipIdx.foldl (fun b v => put natZero b (off + v.2) v.1) b
        let s := s.setHoop hoop (if bank = 1 then { x with bank1 := into x.bank1 } else { x with bank0 := into x.bank0 })
        (s.mirValid hoop bank false).wb (hpTop hoop) R.HP_MIR_STAT_PEND true
      else s
    | _ => s)

/-- MIRROR_COMMIT (R442, Table 13-8). -/
def execMirrorCommit (hoop : Nat) (good : Bool) (s : State) : Host.Outcome State Fault Refusal :=
  .next (match s.ring.mirs.find? fun f => decide (f.dst = hoop) with
    | some (.commit d bank seq e len crc) =>
      let s := { s with ring := { s.ring with mirs := s.ring.mirs.erase (.commit d bank seq e len crc) } }
      if good && s.alive (hpTop hoop) then
        let p := hpTop hoop
        let x := s.hoop hoop
        let b := if bank = 1 then x.bank1 else x.bank0
        let s := s.wb p R.HP_MIR_STAT_PEND false
        if crc32c ((List.range len).map fun i => look natZero b i) = crc && s.rd p R.HP_MIR_SEQ < seq && s.hpSeen hoop ≤ e then
          ((s.mirValid hoop bank true).wr p R.HP_MIR_STAT_CUR bank).wr p R.HP_MIR_SEQ seq
        else (s.inc p R.HP_MIR_STAT_ERR_CNT).raise p 6
      else s
    | _ => s)

/-- HP_MIR_CTRL.RESYNC written 1 (R446). -/
def State.mirResync (s : State) (h : Nat) : State := s.mirrorOut h

/-- HP_CNT_CLR written 1 (Table 13-11). -/
def State.hpCntClr (s : State) (h : Nat) : State :=
  s.zero (hpTop h) [R.HP_ROLE_CHANGES, R.HP_LEASE_TMR_RENEW_CNT, R.HP_LEASE_CFG_REJ_CNT, R.HP_HB_MISSED, R.HP_SOLO_CNT, R.HP_MIR_STAT_ERR_CNT,
    R.HP_TWINE_CRC, R.HP_TWINE_LOSS]

/-- HOOP_REBOOT_DONE (R440, R445): the die's firmware runs again, in STANDBY, or its self-test failed. The reset keeps its fault log and
HP_LEASE_SEEN. -/
def execHoopRebootDone (hoop : Nat) (ok : Bool) (s : State) : Host.Outcome State Fault Refusal :=
  .next (if hoop < 2 && (s.hoop hoop).rebootAt.isSome then
    let s := (s.hoopPages hoop).wb (hpTop hoop) R.PG_CTRL_SOFT_RESET false
    if ok then
      let s := s.setRole hoop roleStandby
      let f : HbFrame := ⟨1 - hoop, roleStandby, false, false, s.rd (hpTop hoop) R.HP_MIR_SEQ % 65536, s.hpEpoch hoop, s.hpSeen hoop, 2 ^ 32 - 1⟩
      let s := s.setHoop (1 - hoop) { s.hoop (1 - hoop) with mirDue := true }
      { s with ring := { s.ring with hbs := s.ring.hbs ++ [f] } }
    else (s.setRole hoop roleFailed).raise (hpTop hoop) 10
  else s)

/-! The ring's hops (R421, R424). -/

/-- A Hoop takes a die's report of the hops it found down (R424): the acting one raises TWINE_BREAK or TWINE_SPLIT. -/
def State.hopReport (s : State) (h d : Nat) : State :=
  let p := hpTop h
  let was := s.rd p R.HP_TWINE_STAT_HOP_UP
  let down := (s.ring.hops.filter fun x => decide (x.1 = d)).map Prod.snd
  let now := down.foldl (fun v x => if v.testBit x then v - 2 ^ x else v) was
  let n := 20 - ((List.range 20).filter fun x => now.testBit x).length
  let s := s.wr p R.HP_TWINE_STAT_HOP_UP now
  let s := (s.wb p R.HP_TWINE_STAT_BROKEN (decide (n = 1))).wb p R.HP_TWINE_STAT_SPLIT (decide (2 ≤ n))
  if now = was || !s.acts h then s else s.raise p (if n = 1 then 7 else 8)

/-- SENSOR_FRAME (R424, R449, R491): a Hoop takes a die's readings and Twine counters; the gap of records lost on both rings shows, and the active Hoop
raises TWINE_LOSS. -/
def execSensorFrame (hoop die : Nat) (s : State) : Host.Outcome State Fault Refusal :=
  .next (if hoop < 2 && die < 20 && s.alive (hpTop hoop) && s.joined hoop die then
    let k := hoop * 32 + die
    let s := (s.addSat (hpTop hoop) R.HP_TWINE_CRC (look natZero s.ring.crcs k)).hopReport hoop die
    let s := if look natZero s.ring.gaps k = 0 then s else s.acting.elim s fun a => (s.inc (hpTop a) R.HP_TWINE_LOSS).raise (hpTop a) 9
    { s with ring := { s.ring with crcs := put natZero s.ring.crcs k 0, gaps := put natZero s.ring.gaps k 0 } }
  else s)

/-- HOP_DOWN (R424): a die beside hop `hop` has heard no symbol on it for 1 µs; a Hoop die knows at once. -/
def execHopDown (die hop : Nat) (s : State) : Host.Outcome State Fault Refusal :=
  .next (if hop < 20 && (ringDies.getD hop 32 = die || ringDies.getD ((hop + 1) % 20) 32 = die) && !s.ring.hops.contains (die, hop) then
    let s := { s with ring := { s.ring with hops := s.ring.hops ++ [(die, hop)] } }
    if isHoop die && s.alive (hpTop (die - 0x12)) then s.hopReport (die - 0x12) die else s
  else s)

/-! The cadence tree (R195-R198, R444). -/

/-- CADENCE_MESSAGE (R444, R229): a die receives the message on its way to it. -/
def execCadenceMessage (die : Nat) (good : Bool) (s : State) : Host.Outcome State Fault Refusal :=
  .next (match s.cad.msgs.find? fun m => decide (m.1 = die) with
    | none => s
    | some m =>
      let s := { s with cad := { s.cad with msgs := s.cad.msgs.erase m } }
      if !good then (if isOsier die && s.alive (osTop die) then s.raise (osTop die) 10 else s)
      else if look natZero s.cad.epochs die ≤ m.2 then
        { s with cad := { s.cad with epochs := put natZero s.cad.epochs die m.2, taken := true } }
      else s)

/-- The fields that report N. -/
def State.showN (s : State) (n : Nat) : State :=
  let s := osDies.foldl (fun s d => if s.alive (osTop d) then s.wr (osTop d) R.OS_CAD_N n else s) s
  [0, 1].foldl (fun s h => (if s.alive (hpTop h) then s.wr (hpTop h) R.HP_CAD_N n else s).wr (thPg (held h)) R.TH_PKG_N_N n) s

/-- CADENCE_APPLY (R195): the new N takes effect in all dies at the frame boundary the message named. -/
def execCadenceApply (s : State) : Host.Outcome State Fault Refusal :=
  .next (match s.cad.nextN with
    | none => s
    | some x =>
      let taken := s.cad.taken
      let s := { s with cad := { s.cad with nextN := none, taken := false, msgs := [] } }
      if taken then
        let s := if s.clk.frame < x.2 then s.passSlots ((x.2 - s.clk.frame) * 64 - s.clk.j) else if s.clk.j = 0 then s else s.toFrame
        ({ s with clk := { s.clk with n := x.1 } }).showN x.1
      else s)

/-- ALIGN_ISSUE (R196): not while an Osier die is RUNNING; `delay` is the tree's matched delay in REFCLK_SYS periods. -/
def execAlignIssue (hoop delay : Nat) (s : State) : Host.Outcome State Fault Refusal :=
  .next (if hoop < 2 && s.drives hoop && !s.anyRunning then
    { s with cad := { s.cad with alignAt := some (s.clk.tick + delay), attempts := s.cad.attempts + 1, alignOk := [], checked := [],
                                 alignFailed := false, nextN := none, msgs := [], taken := false } }
  else s)

/-- ALIGN_EFFECT (R196): on the sixteenth edge after arrival every die starts frame 0 with CC 0 and N 64; a die in `silent` does not report
ALIGN_OK. -/
def execAlignEffect (silent : List Nat) (s : State) : Host.Outcome State Fault Refusal :=
  .next (match s.cad.alignAt with
    | none => s
    | some t =>
      let s := s.toTick (t + 16)
      let s := { s with clk := { s.clk with sub := 0, frame := 0, j := 0, n := 64, cc := 0 } }
      let ok := allDies.filter fun d => !(silent.contains d)
      let s := osDies.foldl (fun s d => if s.alive (osTop d) then (s.inc (osTop d) R.OS_CAD_ALIGN_CNT).wb (osTop d) R.OS_CAD_ALIGN_OK (ok.contains d) else s) s
      let h := s.acting.getD 0
      -- reports of an earlier attempt are none of this one
      let notes := s.notes.filter fun n => match n.2 with
        | .align _ _ => false
        | _ => true
      ({ s with cad := { s.cad with alignAt := none, since := s.clk.tick, aligning := true },
                notes := notes ++ ok.map fun d => (held h, Note.align d true) }).showN 64)

/-- Stage 2 falls back to Stage 1 (R517). -/
def State.alignFail (s : State) : State :=
  let s := { s with cad := { s.cad with alignFailed := true, aligning := false } }
  if s.rd pkg0 R.PKG_STAGE_STAGE = 2 && 3 ≤ s.cad.attempts then
    let s := workDies.foldl State.dieReset s
    let s := { s with cad := {}, start := { s.start with going := false, held := false, work := false } }
    let s := (s.wr pkg0 R.PKG_STAGE_STAGE 1).wb pkg0 R.PKG_START_STAT_FAIL true
    ((s.wr pkg0 R.PKG_START_STAT_FAIL_STAGE 2).wr pkg0 R.PKG_START_STAT_FAIL_CAUSE 1).raise pkg0 1
  else s

/-- ALIGN_ATTEMPT_TIMEOUT (R198): 1 ms after ALIGN some die has not reported. -/
def execAlignAttemptTimeout (s : State) : Host.Outcome State Fault Refusal :=
  .next (if s.cad.aligning && !(allDies.all s.cad.alignOk.contains) then (s.toTick (s.cad.since + msTicks)).alignFail else s)

/-- NOTICE_FRAME (R378, R196): a die takes the oldest notice on its way to it. -/
def execNoticeFrame (die : Nat) (s : State) : Host.Outcome State Fault Refusal :=
  .next (match s.notes.find? fun n => decide (n.1 = die) with
    | none => s
    | some n =>
      let s := { s with notes := s.notes.erase n }
      match n.2 with
      | .laser _ k on => if isWeft die && s.alive (wfTop (die - 8)) then s.laserNote (die - 8) k on else s
      | .align d ok =>
        if isHoop die && s.hoopUp (die - 0x12) then
          if ok then { s with cad := { s.cad with alignOk := d :: s.cad.alignOk.filter (· ≠ d) } }
          else if s.cad.aligning then s.alignFail else s
        else s
      | .brk b count => if isOsier die && s.alive (osTop die) then s.breakTake die b count else s)

/-- FRAME_CHECK (R198): a die compares the tree's low 16 bits of the frame count with its own, every 4,096 frames; the first comes 4,096 frames after
the ALIGN. One that differs reports to the acting Hoop. -/
def execFrameCheck (die count : Nat) (s : State) : Host.Outcome State Fault Refusal :=
  .next (if die < 20 then
    let f := max 1 ((s.clk.frame + 4095) / 4096) * 4096
    let s := if s.clk.frame < f then s.passSlots ((f - s.clk.frame) * 64 - s.clk.j) else s
    if count = s.clk.frame % 65536 then
      let s := { s with cad := { s.cad with checked := die :: s.cad.checked.filter (· ≠ die) } }
      if allDies.all s.cad.checked.contains && allDies.all s.cad.alignOk.contains then { s with cad := { s.cad with aligning := false, attempts := 0 } } else s
    else
      let s := if isOsier die && s.alive (osTop die) then (s.wb (osTop die) R.OS_CAD_ALIGN_OK false).raise (osTop die) 9 else s
      { s with notes := s.notes ++ [(held (s.acting.getD 0), Note.align die false)] }
  else s)

end Sys2Proof.Machine
end

