-- ==== Sys2Proof/Machine/Startup.lean ====
section
/-! DEFINITION. Pins and power (18_package_electrical.md), the staged start, profiles, secure boot, keys and debug levels
(17_startup_profiles_security.md). -/

namespace Sys2Proof.Machine
open Sys2Proof

def prPg (h : Nat) : Nat := pg (held h) 0x30
def secPg (h : Nat) : Nat := pg (held h) 0x40

/-! Profiles (R521-R526). -/

/-- What an erased flash word reads as. -/
def erased : Nat → Nat := fun _ => 0xFFFFFFFF

/-- The 128 words of a stored profile. -/
def Flash.prof (f : Flash) (i : Nat) : List Nat := (List.range 128).map fun w => look erased f.profs (i * 128 + w)

/-- Byte `o` of a profile. -/
def profByte (ws : List Nat) (o : Nat) : Nat := ws.getD (o / 4) 0 / 256 ^ (o % 4) % 256

def profMagic : Nat := 0x50424E50

/-- The fields of a profile (Table 17-3). -/
def profOf (ws : List Nat) : Prof :=
  { grade := profByte ws 8, weave := profByte ws 9, auto := decide (profByte ws 0xA = 1), cluster := decide (profByte ws 0xB = 1),
    id := profByte ws 0xC, size := profByte ws 0xD, count := profByte ws 0xE, cap := ws.getD 4 0 % 65536, throt := profByte ws 0x12,
    warn := profByte ws 0x13, k := profByte ws 0x14,
    planes := (List.range 4).foldl (fun a i => a + ws.getD (8 + i) 0 * 2 ^ (32 * i)) 0 }

/-- Whether a profile that holds MAGIC passes the other checks of R522 on a package of fused grade `fuse`. -/
def profGood (ws : List Nat) (fuse : Nat) : Bool :=
  let x := profOf ws
  decide (ws.getD 1 0 % 65536 = 1) && decide (ws.getD 127 0 = crc32c ((ws.take 127).flatMap (bytesOf 4)))
    && decide (x.grade ≤ 1) && decide (x.weave ≤ 1) && decide (profByte ws 0xA ≤ 1) && decide (profByte ws 0xB ≤ 1)
    && decide (1 ≤ x.size) && decide (x.size ≤ 16) && decide (1 ≤ x.count) && decide (x.count ≤ 16) && decide (x.throt ≤ 60)
    && decide (x.warn ≤ 60) && decide (4 ≤ x.k) && decide (x.k ≤ 64)
    && decide (x.id % 16 < x.size) && decide (x.id / 16 < x.count) && (x.cluster || decide (x.count = 1)) && decide (fuse ≤ x.grade)

/-- Whether a stored profile is valid (R522). -/
def profValid (ws : List Nat) (fuse : Nat) : Bool := decide (ws.getD 0 0 = profMagic) && profGood ws fuse

/-- Which profile a Hoop selects (R524): the index, SOURCE, the profile and its words. -/
def Flash.select (f : Flash) (pins : Nat) : Nat × Nat × Prof × List Nat :=
  let sel := if f.ovEn then f.ovIdx else pins
  let src := if f.ovEn then 1 else 0
  if profValid (f.prof sel) f.grade then (sel, src, profOf (f.prof sel), f.prof sel)
  else match (List.range 4).find? fun i => profValid (f.prof i) f.grade with
    | some i => (i, 2, profOf (f.prof i), f.prof i)
    | none => (sel, 3, { grade := f.grade }, [])

/-- PR_STAT.VALID as the stored profiles stand (R536). -/
def State.showValid (s : State) (h : Nat) : State :=
  let f := s.flashOf h
  s.wr (prPg h) R.PR_STAT_VALID ((List.range 4).foldl (fun a i => if profValid (f.prof i) f.grade then a + 2 ^ i else a) 0)

/-- PROFILE_SELECT (R524): PR_STAT, the fallback's record, an override used once; the records of R523 that await the firmware. -/
def State.profileSelect (s : State) (h : Nat) : State :=
  let f := s.flashOf h
  let x := f.select (s.rd (prPg h) R.PR_STAT_PIN_SAMPLED)
  let p := prPg h
  let s := ((s.wr p R.PR_STAT_IN_USE x.1).wr p R.PR_STAT_SOURCE x.2.1).showValid h
  let bad := (List.range 4).any fun i => decide ((f.prof i).getD 0 0 = profMagic) && !profGood (f.prof i) f.grade
  let s := if s.acts h && bad then s.raise p 0 else s
  let s := if s.acts h && 2 ≤ x.2.1 then s.raise p 3 else s
  let s := if s.acts h && s.bit p R.PR_STAT_UNSTABLE then s.raise p 1 else s
  let s := if s.acts h && s.start.selSaid then s.raise p 2 else s
  if f.ovEn && f.ovOnce then (s.setFlash h { f with ovEn := false }).wb p R.PR_OVERRIDE_EN false else s

/-! The stages (R514-R518). -/

/-- Deadlines in ms by stage (Table 17-1). -/
def deadline (n : Nat) : Nat := [0, 20, 1500, 4000, 8000].getD n 0

/-- A stage missed its deadline (R516). -/
def State.stageLate (s : State) (n : Nat) : State :=
  if (s.rd pkg0 R.PKG_START_STAT_LATE).testBit (n - 1) then s else (s.setBit pkg0 R.PKG_START_STAT_LATE (n - 1)).raise pkg0 0

/-- STAGE becomes `n`: its time, and whether it is late. -/
def State.reach (s : State) (n : Nat) : State :=
  let s := (s.wr pkg0 R.PKG_STAGE_STAGE n).wr pkg0 (Fld.idx R.PKG_STAGE_MS (n - 1)) ((s.clk.tick - s.start.t0) / msTicks)
  if s.start.t0 + deadline n * msTicks < s.clk.tick then s.stageLate n else s

/-- A die leaves reset (R514): its pages come alive, enabled by the acting Hoop's firmware; fields that the profile governs are loaded. -/
def State.dieUp (s : State) (d e : Nat) : State :=
  let fresh := (diePages d).filter fun p => decide ((s.page p).up = .never)
  let s := fresh.foldl (fun s p => ((s.setUp p .up).wb p R.PG_CTRL_ENABLE true).wr p R.PG_EPOCH_EPOCH e) s
  let x := s.start.prof
  if fresh.isEmpty then s
  else
    let s := (s.wr (thPg d) R.TH_ADJ_THROT_LOWER x.throt).wr (thPg d) R.TH_ADJ_WARN_LOWER x.warn
    if isOsier d then (s.wr (osTop d) R.OS_IDENT_GRADE x.grade).wr (osTop d) R.OS_OVB_LIMIT_BYTES (if x.grade = 1 then 18720 else 16384)
    else if isWeft d then
      let p := sbPg (d - 8)
      let s := ((s.wb p R.SB_COM_CTRL_CLUSTER x.cluster).wr p R.SB_COM_ID_POD_SIZE x.size).wr p R.SB_COM_ID_POD_COUNT x.count
      if x.cluster && decide (12 ≤ d) then (List.range 15).foldl (fun s i => s.wr (subPg (d - 8) (i + 1)) R.SB_ACK_TMO_US 12) s else s
    else s

/-- The acting Hoop's firmware writes a word of another die's page, under its own epoch like any write (R50, R51): rejected by a page that has met a
higher one, else the page's epoch rises and the write acts. -/
def State.fwWrite (s : State) (p off : Nat) (act : State → State) : State :=
  let h := s.acting.getD 0
  let e := s.rd p R.PG_EPOCH_EPOCH
  if s.hpEpoch h < e then (s.reject p off 3).meetEpoch h e else act (s.epochUp p (s.hpEpoch h))

/-- WORD_ALIGN_ROUND (R362): the acting Hoop's firmware slips each lane of a fibre that it still searches. -/
def execWordAlignRound (weft fib : Nat) (s : State) : Host.Outcome State Fault Refusal :=
  .next (if s.laneUp weft fib 0 1 && s.acting.isSome then
    s.fwWrite (fibPg weft fib) R.WF_FIB_SLIP_SLIP.off fun s => s.fibSlip weft fib (s.alignWant weft fib)
    else s)

/-- CAL_RECOMPUTE (R369): the acting Hoop's firmware writes the shadow bank of a Weft or Reed die whose sensors have moved. -/
def execCalRecompute (die : Nat) (s : State) : Host.Outcome State Fault Refusal :=
  .next (if (isWeft die || isReed die) && s.alive (pg die 0) && s.acting.isSome then
    s.fwWrite (pg die 0) R.WF_CAL_DATA.off fun s => s.calDue die
    else s)

/-- The work of a stage on entry (Table 17-1). -/
def State.stageWork (s : State) (n : Nat) : State :=
  let e := (s.acting.map s.hpEpoch).getD 0
  let s := { s with start := { s.start with work := true } }
  match n with
  | 2 =>
    let s := workDies.foldl (fun s d => s.dieUp d e) s
    ((List.range 20).flatMap fun d => (diePages d).filter fun p => decide (pageBlk p = some .wl)).foldl (fun s p =>
      if s.alive p then s.wlEnable p else s) s
  | 3 =>
    let s := [0, 1].foldl (fun s r => if s.alive (rdTop r) then s.light r true else s) s
    let s := (List.range 8).foldl (fun s w => if s.alive (wfTop w) then
        s.fwWrite (wfTop w) R.WF_PLANE_EN_EN.off (·.planeWrite w (s.start.prof.planes / 2 ^ (16 * w) % 65536)) else s) s
    { s with start := { s.start with light := s.clk.tick } }
  | 4 =>
    let s := { s with sbGen := s.sbGen + 1 }
    let s := (List.range 8).foldl (fun s w => if s.alive (sbPg w) then s.fwWrite (sbPg w) R.SB_COM_CTRL_EN.off (·.sbEnable w true) else s) s
    s.wb pkg0 R.PKG_STAGE_READY true
  | _ => s

/-- A stage's entry (R515, R518): held where HOLD_AT names it; a stage whose work a new acting Hoop must begin again does so. -/
def State.enterStage (s : State) (n : Nat) : State :=
  let at' := s.rd pkg0 R.PKG_STAGE_STAGE
  let x := s.start
  if s.acting.isNone || !x.going || x.held || s.thp.tripAt.isSome then s
  else if at' = n && !x.work then s.stageWork n
  else if at' + 1 = n && (n = 2 || x.work) then
    let s := s.reach n
    let s := if n = 2 then [0, 1].foldl (fun s h => s.wb (faultPg h) R.FAULT_PIN_HALTED false) s else s
    if s.rd pkg0 R.PKG_START_HOLD_AT = n then { s with start := { s.start with held := true, work := false } } else s.stageWork n
  else s

/-- PKG_START.GO written 1 (R515): the start, or a held stage's work, begins; later deadlines count from here. -/
def State.startGo (s : State) : State :=
  let st := s.rd pkg0 R.PKG_STAGE_STAGE
  if s.thp.tripAt.isSome then s
  else if s.start.held then ({ s with start := { s.start with held := false, t0 := s.clk.tick } }).stageWork st
  else if st = 1 && !s.start.going then { s with start := { s.start with going := true, work := false, t0 := s.clk.tick } }
  else s

/-- STAGE_2_ENTRY. The ALIGN of the stage is the row ALIGN_ISSUE. -/
def execStage2Entry (s : State) : Host.Outcome State Fault Refusal := .next (s.enterStage 2)

/-- STAGE_3_ENTRY (R198, R514): ALIGN has succeeded. -/
def execStage3Entry (s : State) : Host.Outcome State Fault Refusal :=
  .next (if allDies.all s.cad.alignOk.contains && !s.cad.aligning then s.enterStage 3 else s)

/-- Whether every enabled plane has LOOP_OK. -/
def State.loopsOk (s : State) : Bool :=
  (List.range 8).all fun w => (List.range 16).all fun f => !s.planeOn w f || s.bit (fibPg w f) R.WF_FIB_STAT_LOOP_OK

/-- STAGE_4_ENTRY (R514): LOOP_OK on every enabled plane, or 1 s after LIGHT_OK. -/
def execStage4Entry (s : State) : Host.Outcome State Fault Refusal :=
  .next (if s.rd pkg0 R.PKG_STAGE_STAGE = 3 && s.start.work && !s.loopsOk then (s.toTick (s.start.light + 1000 * msTicks)).enterStage 4
    else s.enterStage 4)

/-- STAGE_LATE (R516): a deadline passes before its stage is reached; a held stage is never late. -/
def execStageLate (stage : Nat) (s : State) : Host.Outcome State Fault Refusal :=
  .next (if 2 ≤ stage && stage ≤ 4 && s.start.going && !s.start.held && s.rd pkg0 R.PKG_STAGE_STAGE < stage then
    (s.toTick (s.start.t0 + deadline stage * msTicks)).stageLate stage
  else s)

/-- HBM_PHY_TRAINED (R514). -/
def execHbmPhyTrained (die stack : Nat) (s : State) : Host.Outcome State Fault Refusal :=
  .next (if die < 8 && stack < 3 && s.alive (mcPg die stack) then s.wb (mcPg die stack) R.MC_STAT_TRAINED true else s)

/-- QUIET_WINDOW (R237, R490): calibration at a quiet window of `len` enabled cycles from the present one: the HBM PHYs of the booked pseudo-channels
(stack * 64 + P) serve no program access meanwhile, and the sensor trims; `reject`: a trim lies outside its limit and the old one stays. -/
def execQuietWindow (die : Nat) (pcs : List Nat) (len : Nat) (reject : Bool) (s : State) : Host.Outcome State Fault Refusal :=
  .next (let s : State := if die < 8 then
      pcs.foldl (fun (s : State) k => if k < 192 then
        { s with quiet := put (fun _ => (0, 0)) s.quiet (die * 256 + k) (s.clk.cc, s.clk.cc + len) } else s) s
    else s
  if die < 20 && reject && s.alive (thPg die) then s.raise (thPg die) 2 else s)

/-- CA_PARITY_ERROR (R268). -/
def execCaParityError (die stack : Nat) (s : State) : Host.Outcome State Fault Refusal :=
  .next (if die < 8 && stack < 3 && s.alive (mcPg die stack) then s.raise (mcPg die stack) 3 else s)

/-! Power and RESET_N (R540-R548). -/

/-- VDD_AON_IN_BAND (R540): the VID codes from the fuses of the Osier dies. -/
def execVddAonInBand (codes : List Nat) (s : State) : Host.Outcome State Fault Refusal :=
  .next (if !s.pins.vidOn && codes.length = 8 && codes.all fun c => decide (c ≤ 30) then
    { s with pins := { s.pins with vid := codes, vidOn := true } } else s)

/-- STAGE_0_ENTRY (R514, R542): every rail is within its band. -/
def execStage0Entry (s : State) : Host.Outcome State Fault Refusal :=
  .next (if s.pins.vidOn then { s with start := { s.start with rails := true } } else s)

/-- RESET_N asserted (R548): every die is reset; fuses and flash are kept. -/
def State.powerReset (s : State) : State :=
  { State.reset with
    pending := s.pending, out := s.out, freeCtr := s.freeCtr, flash := s.flash, pins := { s.pins with resetN := false }
    start := { rails := s.start.rails }
    flt := { logs := (s.flt.logs.map fun e => (e.1, ({ crash := e.2.crash } : FLog))).filter fun e => !e.2.crash.isEmpty } }

def execResetAssert (s : State) : Host.Outcome State Fault Refusal := .next s.powerReset

/-- AON_FAULT (R544): as RESET_N, with no record. -/
def execAonFault (s : State) : Host.Outcome State Fault Refusal := .next (if s.pins.resetN then s.powerReset else s)

/-- RESET_RELEASE (R305, R486, R523, R548): package time starts, PROF_SEL is sampled; `unstable`: a raw pin changed in the last 1 ms. -/
def execResetRelease (unstable : Bool) (s : State) : Host.Outcome State Fault Refusal :=
  .next (if s.start.rails && !s.pins.resetN then
    let s := { s with pins := { s.pins with resetN := true }, clk := {}, start := { s.start with huabel := (s.flashOf 0).huabel, t0 := 0 } }
    [0, 1].foldl (fun s h =>
      let p := prPg h
      ((s.wr p R.PR_STAT_PIN_SAMPLED s.pins.profSel).wr p R.PR_STAT_PIN_NOW s.pins.profSel).wb p R.PR_STAT_UNSTABLE unstable) s
  else s)

/-- PROF_SEL_CHANGE (R523): a filtered change; the first after sampling is recorded. -/
def execProfSelChange (level : Nat) (s : State) : Host.Outcome State Fault Refusal :=
  .next (if level < 4 && level ≠ s.pins.profSel then
    let s := { s with pins := { s.pins with profSel := level } }
    if s.pins.resetN then
      let s := [0, 1].foldl (fun s h => s.wr (prPg h) R.PR_STAT_PIN_NOW level) s
      if s.start.selSaid then s
      else
        let s := { s with start := { s.start with selSaid := true } }
        [0, 1].foldl (fun s h => if s.acts h then s.raise (prPg h) 2 else s) s
    else s
  else s)

/-- A HALT at detection (R544). -/
def State.haltNow (s : State) (src last extra : Nat) : State :=
  let s := if s.acting.isSome && s.alive pkg0 then s.raiseX pkg0 src last extra else s
  s.haltSend (recIdent 0x1F 0 src)

/-- RAIL_FAULT (R544): the rail code, and the die it feeds or 0x1F. -/
def execRailFault (rail die : Nat) (s : State) : Host.Outcome State Fault Refusal :=
  .next (if s.pins.resetN && rail ≤ 12 then s.haltNow 2 rail (die % 32) else s)

/-- REFCLK_LOSS (R544). -/
def execRefclkLoss (s : State) : Host.Outcome State Fault Refusal :=
  .next (if s.pins.resetN && s.clk.frozen.isNone then
    let s := (s.wb pkg2 R.PKG_TIME_CTRL_ZEROED false).wb pkg2 R.PKG_TIME_CTRL_ARMED false
    ({ s with clk := { s.clk with frozen := some s.pkgTick } }).haltNow 3 0 0
  else s)

/-! Secure boot (R425-R427, R514, R525, R527). -/

/-- Whether an image passes (R527): its key slot, whether its signature verifies, its security version. -/
def Flash.bootOk (f : Flash) (img : Nat × Bool × Nat) : Bool :=
  img.2.1 && decide (img.1 < 2) && !f.revoked.testBit img.1 && decide (f.minSvn ≤ img.2.2)

/-- A Hoop's firmware runs: it selects and loads its profile, and takes its role (R426, R525). -/
def State.stage1 (s : State) (h : Nat) : State :=
  let first := !s.alive pkg0
  let f := s.flashOf h
  let x := f.select (s.rd (prPg h) R.PR_STAT_PIN_SAMPLED)
  let s := if first then [pkg0, pkg1, pkg2].foldl (fun s p => (s.setUp p .up).wb p R.PG_CTRL_ENABLE true) s else s
  let s : State := if first || h = 0 then
      let s := { s with start := { s.start with prof := x.2.2.1, words := x.2.2.2 } }
      let s := ((s.wr pkg0 R.PKG_IDENT_PKG_ID x.2.2.1.id).wr pkg0 R.PKG_IDENT_GRADE x.2.2.1.grade).wr pkg0 R.PKG_IDENT_FUSE_GRADE f.grade
      let s := s.wb pkg0 R.PKG_START_AUTO x.2.2.1.auto
      s.wr pkg1 R.PKG_TAG ((List.range 64).foldl (fun a i => a + look natZero f.tag i * 2 ^ (32 * i)) 0)
    else s
  let s := s.hoopPages h
  let s : State := if h = 0 then
      let s := s.wr (hpTop 0) R.HP_ROLE_ROLE roleSolo
      let s := (s.wr (hpTop 0) R.HP_LEASE_STAT_EPOCH 1).meet 0 1
      let s := s.wb (hpTop 0) R.HP_ROLE_OVERLAP true
      ((s.setHoop 0 { s.hoop 0 with overlapEnd := s.clk.tick + 2 * msTicks }).raiseAll 0 1).coalCopy 0
    else s.wr (hpTop h) R.HP_ROLE_ROLE roleStandby
  let s := s.profileSelect h
  let first := decide (s.rd pkg0 R.PKG_STAGE_STAGE = 0)
  let s := if first then s.reach 1 else s
  let s := if s.acts h || first then { s with start := { s.start with going := s.start.going || s.start.prof.auto } } else s
  match s.acting with
  | some a => if s.alive (prPg 0) && s.alive (prPg 1) && (s.flashOf 0).profs ≠ (s.flashOf 1).profs then s.raise (prPg a) 0 else s
  | none => s

/-- SECURE_BOOT (R445, R527): what verification and the self-test of a Hoop die find. Where both images fail only the recovery pages answer. -/
def execSecureBoot (hoop : Nat) (a b : Nat × Bool × Nat) (selftest : Bool) (s : State) : Host.Outcome State Fault Refusal :=
  .next (if hoop < 2 && s.pins.resetN && (s.page (hpTop hoop)).up = .never && s.thp.tripAt.isNone then
    let f := s.flashOf hoop
    let ran := if f.bootOk a then some (0, a.2.2) else if f.bootOk b then some (1, b.2.2) else none
    let p := secPg hoop
    match ran with
    | some r =>
      let s := (s.wr p R.SEC_BOOT_IMAGE r.1).wr p R.SEC_BOOT_SVN r.2
      if selftest then
        let s := s.stage1 hoop
        if r.1 = 1 then s.raise p 0 else s
      else
        let s := (s.hoopPages hoop).wr (hpTop hoop) R.HP_ROLE_ROLE roleFailed
        (if r.1 = 1 then s.raise p 0 else s).raise (hpTop hoop) 10
    | none =>
      let s := [hpTop hoop, p, prPg hoop].foldl (fun s q => (s.setUp q .up).wb q R.PG_CTRL_ENABLE true) s
      (s.wr (hpTop hoop) R.HP_ROLE_ROLE roleFailed).raise p 0
  else s)

/-! I3C (R520). -/

/-- What a PLDM sensor reads: 0-335 the sensors of Table 16-1, 336 package temperature (quarter degrees), 337 P, 338 N, 339 STAGE, 340 the power
state, 341 FAULT_N (1: asserted). -/
def State.i3cValue (s : State) (k : Nat) : Int :=
  let h := s.acting.getD (if s.role 0 = roleFailed then 1 else 0)
  if k < 336 then ((allSensors.find? fun x => decide (sensIdx x.1 x.2 = k)).map fun x => s.reading x.1 x.2).getD 0
  else if k = 336 then (maxInt (allSensors.map fun x => s.reading x.1 x.2)).getD 0
  else if k = 337 then s.rd (thPg (held h)) R.TH_PWR_AVG else if k = 338 then s.clk.n
  else if k = 339 then s.rd pkg0 R.PKG_STAGE_STAGE else if k = 340 then s.powerState h
  else if s.pullsFault 0 || s.pullsFault 1 then 1 else 0

/-- I3C_READ (R520): answered from 10 ms after the release; until Stage 1 every sensor is unavailable. ALERT_N rises. -/
def execI3cRead (sensor : Nat) (s : State) : Host.Outcome State Fault Refusal :=
  .next (if s.pins.resetN && 10 * msTicks ≤ s.clk.tick && sensor ≤ 341 && ([0, 1].any fun h => decide (s.role h ≠ roleFailed)) then
    let v := if s.alive pkg0 then some (s.i3cValue sensor) else none
    { s with out := { s.out with i3c := s.out.i3c ++ [v] }, start := { s.start with alert := false } }
  else s)

/-! Profile saves (R526, R536). -/

def State.staging (s : State) (h : Nat) : List Nat := (List.range 128).map fun w => look natZero s.start.bufs (h * 128 + w)

def State.putStaging (s : State) (h w v : Nat) : State :=
  { s with start := { s.start with bufs := put natZero s.start.bufs (h * 128 + w % 128) (v % 2 ^ 32) } }

/-- PR_CTRL.LOAD written 1. -/
def State.profLoad (s : State) (h : Nat) : State :=
  ((s.flashOf h).prof (s.rd (prPg h) R.PR_SEL_PROF)).zipIdx.foldl (fun s x => s.putStaging h x.2 x.1) s

/-- A save is refused or incomplete (R526). -/
def State.saveErr (s : State) (h : Nat) : State := (s.wb (prPg h) R.PR_CTRL_ERR true).raise (prPg h) 4

/-- PR_CTRL.SAVE written 1 (R526). -/
def State.profSave (s : State) (h : Nat) : State :=
  let ws := s.staging h
  if s.start.save.isSome then s
  else if !profValid ws (s.flashOf h).grade then s.saveErr h
  else if !(s.nvOk 0 && s.nvOk 1) then (s.nvRefuse h).saveErr h
  else { (s.wb (prPg h) R.PR_CTRL_SAVE true) with start := { s.start with save := some (h, s.rd (prPg h) R.PR_SEL_PROF, ws) } }

/-- PROFILE_SAVE_COMPLETE (R526): whether each Hoop die's flash took the save. -/
def execProfileSaveComplete (ok0 ok1 : Bool) (s : State) : Host.Outcome State Fault Refusal :=
  .next (match s.start.save with
    | none => s
    | some x =>
      let s := ({ s with start := { s.start with save := none } }).wb (prPg x.1) R.PR_CTRL_SAVE false
      let into (s : State) (h : Nat) : State := (s.setFlash h { s.flashOf h with
        profs := x.2.2.zipIdx.foldl (fun m v => put erased m (x.2.1 * 128 + v.2) v.1) (s.flashOf h).profs }).showValid h
      let ok0 := ok0 && s.nvOk 0
      let ok1 := ok1 && s.nvOk 1
      let s := if ok0 then into s 0 else s
      let s := if ok1 then into s 1 else s
      if ok0 && ok1 then s else s.saveErr x.1)

/-- PKG_TAG_CTRL.SAVE written 1 (R59, R508). -/
def State.tagSave (s : State) : State :=
  let h := s.acting.getD 0
  if s.start.tagSave.isSome then s
  else if !(s.nvOk 0 && s.nvOk 1) then ((s.nvRefuse h).wb pkg1 R.PKG_TAG_CTRL_SAVE_ERR true).raise pkg1 0
  else
    let v := s.rd pkg1 R.PKG_TAG
    { (s.wb pkg1 R.PKG_TAG_CTRL_SAVE true) with start := { s.start with tagSave := some ((List.range 64).map fun i => v / 2 ^ (32 * i) % 2 ^ 32) } }

/-- TAG_SAVE_COMPLETE (R59). -/
def execTagSaveComplete (ok : Bool) (s : State) : Host.Outcome State Fault Refusal :=
  .next (match s.start.tagSave with
    | none => s
    | some ws =>
      let s := ({ s with start := { s.start with tagSave := none } }).wb pkg1 R.PKG_TAG_CTRL_SAVE false
      if ok then [0, 1].foldl (fun s h => s.setFlash h { s.flashOf h with tag := ws.zipIdx.foldl (fun m v => put natZero m v.2 v.1) [] }) s
      else (s.wb pkg1 R.PKG_TAG_CTRL_SAVE_ERR true).raise pkg1 0)

/-! Keys, lifecycle and debug levels (R529-R532). -/

/-- The lifecycle state read: the higher of the two dies' (R530). -/
def State.life (s : State) : Nat := max (s.flashOf 0).life (s.flashOf 1).life

def State.dbgLevel (s : State) : Nat := s.rd (secPg 0) R.SEC_DBG_LEVEL

/-- Both Hoop dies hold the level (R531). -/
def State.setLevel (s : State) (h v : Nat) : State :=
  let was := s.dbgLevel
  let s := (s.wr (secPg 0) R.SEC_DBG_LEVEL v).wr (secPg 1) R.SEC_DBG_LEVEL v
  if v = was then s else s.raise (secPg h) 3

/-- SEC_KEY_CTRL.PROGRAM written 1 (R529): `ok`: the fuses took the hash. -/
def State.keyProgram (s : State) (h : Nat) (ok : Bool) : State :=
  let p := secPg h
  let slot := s.rd p R.SEC_KEY_SEL_SLOT
  let f := s.flashOf h
  if f.fused.testBit slot then s
  else if !s.nvOk h then s.nvRefuse h
  else if !ok then s.raise p 4
  else
    let s := s.setFlash h { f with keys := put natZero f.keys slot (s.rd p R.SEC_KEYHASH), fused := f.fused + 2 ^ slot }
    s.wr p R.SEC_KEY_CTRL_FUSED (s.flashOf h).fused

/-- SEC_KEY_CTRL.REVOKE written (R529): bits once set stay set. -/
def State.keyRevoke (s : State) (h v : Nat) (ok : Bool) : State :=
  let f := s.flashOf h
  let new := f.revoked ||| v % 256
  if new = f.revoked then s
  else if !s.nvOk h then s.nvRefuse h
  else if !ok then s.raise (secPg h) 4
  else (s.setFlash h { f with revoked := new }).wr (secPg h) R.SEC_KEY_CTRL_REVOKE new

/-- Every memory of the package is zero with clear poison (R532). -/
def State.scrub (s : State) : State :=
  let tiles := s.tiles.map fun e => (e.1, { e.2 with mem := [], memPoi := [], acc := [], imem := [] })
  { s with hbm := [], cbuf := [], tiles := tiles.filter fun e => decide (e.2 ≠ Tile.reset),
           subs := (s.subs.map fun e => (e.1, { e.2 with pool := [], replay := [] })).filter fun e => decide (e.2 ≠ {}) }

/-- The lifecycle moves forward in both Hoop dies (R530); a fuse that fails in one is recorded. -/
def State.lifeTo (s : State) (h v : Nat) (ok0 ok1 : Bool) : State :=
  let go (s : State) (k : Nat) : State := s.setFlash k { s.flashOf k with life := v }
  let s := if ok0 then go s 0 else s
  let s := if ok1 then go s 1 else s
  let s := if ok0 && ok1 then s else s.raise (secPg h) 4
  let s := (s.wr (secPg 0) R.SEC_LC_STATE s.life).wr (secPg 1) R.SEC_LC_STATE s.life
  if ok0 || ok1 then
    let s := s.raise (secPg h) 2
    if v = 2 then
      let s := [0, 1].foldl (fun s k =>
        let f := s.flashOf k
        let s := (s.setFlash k { f with revoked := f.revoked ||| 0x7C, profs := [] }).showValid k
        let s := s.wr (secPg k) R.SEC_KEY_CTRL_REVOKE (f.revoked ||| 0x7C)
        s.setFlog k { s.flog k with crash := [] }) s
      s.scrub
    else s
  else s

/-- A debug request is refused. -/
def State.dbgFail (s : State) (h : Nat) : State := s.wb (secPg h) R.SEC_DBG_FAIL true

/-- A new nonce stands in SEC_CHAL: a free value. -/
def State.newNonce (s : State) (h : Nat) : State :=
  let v := (List.range 12).foldl (fun a i => a + (Config.freeWord (s.freeCtr + i)).toNat * 2 ^ (32 * i)) 0
  ({ s with freeCtr := s.freeCtr + 12 }).wr (secPg h) R.SEC_CHAL v

/-- A failed attempt (R531): SEC_AUTH_FAIL, and further attempts are refused for 1 s. -/
def State.authFail (s : State) (h : Nat) : State :=
  ({ s with start := { s.start with refuse := s.clk.tick + 1000 * msTicks } }).raise (secPg h) 1

/-- Whether a response that verifies `good` against key slot `slot` counts (R529, R531). -/
def Flash.respOk (f : Flash) (slot : Nat) (good : Bool) : Bool := good && f.fused.testBit slot && !f.revoked.testBit slot

/-- SEC_LC.REQ written (R530): RETURNED is entered at VENDOR, or by an attempt under the challenge of R531, in which `owner` says whether the
response that stands in SEC_RESP verifies against slot 6. -/
def State.lifeReq (s : State) (h v : Nat) (owner ok0 ok1 : Bool) : State :=
  let go (s : State) : State := if !(s.nvOk 0 && s.nvOk 1) then s.nvRefuse h else s.lifeTo h v ok0 ok1
  if v = 1 && s.life = 0 && decide ((s.flashOf h).fused / 4 % 16 ≠ 0) then go s
  else if v = 2 && s.life = 1 then
    if s.dbgLevel = 3 then go s
    else if s.clk.tick < s.start.refuse then s
    else
      let s := s.newNonce h
      if (s.flashOf h).respOk 6 owner then go s else s.authFail h
  else s

/-- The scrub for entry to or exit from VENDOR begins (R532). -/
def State.scrubStart (s : State) (h v : Nat) : State :=
  if s.anyRunning then s.dbgFail h
  else { ((s.wb (secPg 0) R.SEC_DBG_SCRUB true).wb (secPg 1) R.SEC_DBG_SCRUB true) with start := { s.start with scrub := some (h, v) } }

/-- SEC_DBG.REQ written (R531): a lower level at once; OBSERVE with the page's key; CUSTOMER and VENDOR wait for a signed response. -/
def State.dbgReq (s : State) (h v : Nat) : State :=
  let lvl := s.dbgLevel
  if s.start.scrub.isSome || v = lvl then s
  else if v < lvl then (if lvl = 3 then s.scrubStart h v else s.setLevel h v)
  else if v = 1 then (if s.bit (secPg h) R.PG_STATUS_KEY_OPEN then s.setLevel h 1 else s.dbgFail h)
  else if s.clk.tick < s.start.refuse || (v = 2 && s.life ≠ 1) || (v = 3 && s.anyRunning) then s.dbgFail h
  else { s with start := { s.start with respLvl := 4 * h + v } }

/-- DEBUG_RESPONSE (R531): the last word of SEC_RESP is written; `good`: the signature verifies against slot 6 or 7. -/
def State.dbgResp (s : State) (h : Nat) (good : Bool) : State :=
  let v := s.start.respLvl % 4
  if v < 2 || s.start.respLvl / 4 ≠ h then s
  else
    let s := ({ s with start := { s.start with respLvl := 0 } }).newNonce h
    let slot := if v = 2 then 6 else 7
    if s.clk.tick < s.start.refuse then s.dbgFail h
    else if (s.flashOf h).respOk slot good then (if v = 3 then s.scrubStart h 3 else s.setLevel h 2)
    else (s.dbgFail h).authFail h

/-- VENDOR_SCRUB_DONE (R532): the level takes effect; an exit returns the package to Stage 1, holding. -/
def execVendorScrubDone (s : State) : Host.Outcome State Fault Refusal :=
  .next (match s.start.scrub with
    | none => s
    | some x =>
      let s := ({ s with start := { s.start with scrub := none } }).scrub
      let s := ((s.wb (secPg 0) R.SEC_DBG_SCRUB false).wb (secPg 1) R.SEC_DBG_SCRUB false).setLevel x.1 x.2
      if x.2 = 3 then s
      else
        let s := workDies.foldl State.dieReset s
        let s := { s with cad := {}, start := { s.start with going := false, held := false, work := false } }
        (s.wr pkg0 R.PKG_STAGE_STAGE 1).wb pkg0 R.PKG_STAGE_READY false)

/-- DOE_MAILBOX (R528): the answer's content is a free value. -/
def execDoeMailbox (hoop : Nat) (s : State) : Host.Outcome State Fault Refusal :=
  .next (if hoop < 2 && s.alive (pciePg hoop) then
    let x := s.draw
    { x.1 with out := { x.1.out with doe := x.1.out.doe ++ [(hoop, x.2)] } }
  else s)

end Sys2Proof.Machine
end

