-- ==== Sys2Proof/Machine/Live.lean ====
section
/-! DEFINITION. What a register field reads: most read the register file; fields that report state kept elsewhere are given here, block by
block (Tables 2-3, 2-5, 3-14, 6-12, 7-12, 8-11, 9-9, 10-12, 11-10, 11-13, 12-10, 12-11, 13-11, 14-10, 15-11, 15-13, 16-9, 16-11, 17-6, 17-8, 17-9). -/

namespace Sys2Proof.Machine

/-- The low `n` bits of a natural number below 0 read 0, above the field its largest value. -/
def clampTo (n : Nat) (x : Int) : Nat := min x.toNat (2 ^ n - 1)

/-- Header fields. -/
def State.liveHdr (s : State) (p : Nat) (f : Fld) : Nat :=
  if f = R.PG_STATUS_ALIVE then (if s.alive p then 1 else 0)
  else if f = R.PG_STATUS_STAGE_PEND then (if (s.page p).stage.isEmpty then 0 else 1)
  else if f = R.PG_STATUS_BLOCK then (pageBlk p).elim 0 (s.blockStatus p ·)
  else if f = R.PG_FSTAT_SRC && s.huabel then
    -- in Huabel mode LOG and NOTIFY sources read 0 (R487)
    (List.range 32).foldl (fun a i => if (s.rd p f).testBit i && decide (2 ≤ s.sevOf p i) then a + 2 ^ i else a) 0
  else s.rd p f

/-- A word of an entry of a schedule: 128-bit descriptors below 0x2000, segment entries from 0x2000 to 0x20FF (R243, R278). -/
def schedWord (sched : Sparse (BitVec 128)) (segs : Sparse Nat) (i w : Nat) : Nat :=
  if i < 0x2000 then (look (fun _ => 0#128) sched i).toNat / 2 ^ (32 * w) % 2 ^ 32
  else if i < 0x2100 && w = 0 then look natZero segs (i - 0x2000) else 0

def State.liveOs (s : State) (p : Nat) (f : Fld) : Nat :=
  let d := dieOf p
  if f = R.OS_CC then s.clk.cc
  else if f = R.OS_RUN_CYC then s.runCyc d
  else if f = R.OS_HOLD_TICKS then (if s.bit p R.OS_PROG_STAT_HELD then (s.clk.tick - (s.od d).readyTick) % 2 ^ 32 else 0)
  else if f = R.OS_TBL_DATA then s.tblRead d
  else s.rd p f

def TileSt.code : TileSt → Nat
  | .idle => 0 | .run => 1 | .held => 2 | .off => 3

def State.liveTg (s : State) (p : Nat) (f : Fld) : Nat :=
  let d := dieOf p
  let tile (c : Nat) : Tile := s.tile d ((pageOf p - 1) * 8 + c)
  let sel := tile (s.rd p R.OS_TG_PC_SEL_TILE)
  if f = R.OS_TG_STATE_ST then (List.range 8).foldl (fun a c => a + (tile c).st.code * 4 ^ c) 0
  else if f = R.OS_TG_TAINT_TAINT then (List.range 8).foldl (fun a c => if (tile c).taint then a + 2 ^ c else a) 0
  else if f = R.OS_TG_PC_PC then sel.lastPc
  else if f = R.OS_TG_PC_LOOP_DEPTH then min 3 sel.loops.length
  else if f = R.OS_TG_PC_LOOP_FULL then (if 4 ≤ sel.loops.length then 1 else 0)
  else match (List.range 8).find? fun c => decide (f = Fld.idx R.OS_TG_IMEM_VALID c) with
    | some c => (tile c).imemValid
    | none => s.rd p f

/-- Fields of an ST page. A count that its field cannot show reads its low bits where sixteen borrowed operations are in flight (BORROW), its largest
value where 65,536 granules are borrowed or lent (DESIGN CHOICE, log entry 69). -/
def State.liveSt (s : State) (p : Nat) (f : Fld) : Nat :=
  let d := dieOf p
  let e := pageOf p - 0x20
  let x := s.eng d e
  let g := x.dig (s.rd p R.ST_DIG_SEL_REG)
  let a := s.au d
  let r := s.rd p R.ST_DLAT_SEL_REG
  if f = R.ST_STATE_ST then s.engCode d e
  else if f = R.ST_OUTST_NOW then s.outNow d e
  else if f = R.ST_OUTST_BORROW then x.borrow.length
  else if f = R.ST_SCHED_DATA then schedWord x.sched x.segs (s.rd p R.ST_SCHED_SEL_INDEX) (s.rd p R.ST_SCHED_SEL_WORD)
  else if f = R.ST_DIG then g.sum.toNat
  else if f = R.ST_DIG_BASE then g.base
  else if f = R.ST_DIG_PCNT then g.pcnt
  else if e = 0 then
    if f = R.ST_DLAT then (look (fun _ => 0#64) a.latch r).toNat
    else if f = R.ST_DLAT_PCNT then look natZero a.pcnt r
    else if f = R.ST_STAKE_DATA then s.stakeNow d (s.rd p R.ST_STAKE_SEL_GRANULE)
    else if f = R.ST_STAKE_CNT_BORROWED then min (s.stakeCount d).1 65535
    else if f = R.ST_STAKE_CNT_LENT then min (s.stakeCount d).2 65535
    else s.rd p f
  else s.rd p f

def State.liveCe (s : State) (p : Nat) (f : Fld) : Nat :=
  let d := dieOf p
  let x := s.ce d
  let r := x.rank (s.rd p R.CE_RANK_SEL_RANK)
  if f = R.CE_STATE_ST then s.ceCode d
  else if f = R.CE_STATE_SENDS then x.sends.length
  else if f = R.CE_STATE_RECVS then x.recvs.length
  else if f = R.CE_SCHED_DATA then schedWord x.sched x.segs (s.rd p R.CE_SCHED_SEL_INDEX) (s.rd p R.CE_SCHED_SEL_WORD)
  else if f = R.CE_RANK_DATA_PKG then r % 256
  else if f = R.CE_RANK_DATA_VALID then r / 256 % 2
  else s.rd p f

def State.liveWl (s : State) (p : Nat) (f : Fld) : Nat :=
  let w := s.wle p
  let mods := s.wlMods p
  let k := s.rd p R.WL_REPAIR_SEL_ENTRY
  if f = R.WL_STAT_LEADER then (if wlLeads p then 1 else 0)
  else if f = R.WL_STAT_BONDED then (if (walePeer p).isSome then 1 else 0)
  else if f = R.WL_REPAIR_DATA_WIRE then w.repair (s.rd p R.WL_REPAIR_SEL_DIR) (s.rd p R.WL_REPAIR_SEL_MODULE) k
  else if f = R.WL_REPAIR_DATA_BYE then 3 - k
  else if f = R.WL_POOL_REPAIRS then s.repairsAll p 0
  else if f = R.WL_POOL_SBW then sbWidth mods
  else if f = R.WL_POOL_FREE then 4 * mods - s.repairsAll p 0 - sbWidth mods
  else if f = R.WL_WIRE_CNT then look natZero w.wires (s.rd p R.WL_WIRE_SEL_MODULE * 72 + s.rd p R.WL_WIRE_SEL_WIRE)
  else s.rd p f

def State.liveTh (s : State) (p : Nat) (f : Fld) : Nat :=
  let d := dieOf p
  let i := s.rd p R.TH_SEL_SENSOR
  let x := s.sensor (sensIdx d i)
  let here := decide (i < sensCount d)
  let idx := List.range (sensCount d)
  let hot := idx.foldl (fun a j => if s.reading d a < s.reading d j then j else a) 0
  let all := allSensors.foldl (fun (a : Nat × Nat) y => if s.reading a.1 a.2 < s.reading y.1 y.2 then y else a) (0, 0)
  if f = R.TH_READ_RAW then (if here then x.raw else 0)
  else if f = R.TH_READ_TEMP then (if here then clampTo 10 (s.reading d i) else 0)
  else if f = R.TH_READ_SUBST then (if here && decide (x.sub ≠ 0) then 1 else 0)
  else if f = R.TH_READ_FORCED then (if here && decide (x.sub = 2) then 1 else 0)
  else if f = R.TH_MAX_TEMP then clampTo 10 (s.reading d hot)
  else if f = R.TH_MAX_SENSOR then hot
  else if f = R.TH_MAX_FAST then (if (s.dieTh d).fast then 1 else 0)
  else if f = R.TH_STAT_NOLIVE then (if idx.all fun j => !s.sensLive d j then 1 else 0)
  else if f = R.TH_STAT_FAILED then (idx.filter fun j => decide ((s.sensor (sensIdx d j)).sub ≠ 0)).length
  else if f = R.TH_LIMITS_THROT then (if isHoop d then 0 else clampTo 8 (s.throtAt d 0 / 4))
  else if f = R.TH_LIMITS_WARN then clampTo 8 (s.warnAt d 0 / 4)
  else if f = R.TH_LIMITS_HBM then
    (if isOsier d then clampTo 8 (s.throtAt d 24 / 4) + clampTo 8 (s.warnAt d 24 / 4) * 2 ^ 8 + hbmLimits.2.2.1 * 2 ^ 16 + hbmLimits.2.2.2 * 2 ^ 24
     else 0)
  else if !isHoop d then (if 0x180 ≤ f.off && decide (f.off < 0x1AC) then 0 else s.rd p f)
  else
    let h := d - 0x12
    if f = R.TH_PKG_TEMP_TEMP then clampTo 10 (s.reading all.1 all.2)
    else if f = R.TH_PKG_TEMP_SENSOR then sensIdx all.1 all.2
    else if f = R.TH_PKG_TEMP_SUBST then (if s.sensLive all.1 all.2 then 0 else 1)
    else if f = R.TH_PKG_EXCESS_RELAX_MS then min 255 ((s.thp.relax - s.clk.tick + 10 * msTicks - 1) / (10 * msTicks))
    else if f = R.TH_PKG_STATE_STATE then s.powerState h
    else if f = R.TH_NV_OK then (if s.nvOk h then 1 else 0)
    else s.rd p f

def State.liveAge (s : State) (p : Nat) (f : Fld) : Nat :=
  let d := dieOf p
  let m := s.rd p R.AGE_SEL_MON
  let x := s.fit d m
  let w := s.ageWorst d
  if !decide (m < (monitors d).length) && decide (0x104 ≤ f.off) && decide (f.off ≤ 0x114) then 0
  else if f = R.AGE_MON_CLASS then ((monitors d).getD m (0, 0)).1
  else if f = R.AGE_MON_CONF then x.conf
  else if f = R.AGE_MON_VALID then (if x.valid then 1 else 0)
  else if f = R.AGE_EOL_HOURS then x.eol
  else if f = R.AGE_VALUE then x.value
  else if f = R.AGE_LIMIT_L then s.ageLimit d m
  else if f = R.AGE_SAMPLES_N then min x.n 65535
  else if f = R.AGE_WORST_MON then w
  else if f = R.AGE_WORST_CONF then (s.fit d w).conf
  else if f = R.AGE_WORST_EOL then (s.fit d w).eol
  else if f = R.AGE_HOURS then (if isHoop d then (s.flashOf (d - 0x12)).hours % 2 ^ 32 else 0)
  else if f = R.AGE_LOG_PENDING then (if isHoop d then (look (fun _ => []) s.agePend (d - 0x12)).length else 0)
  else s.rd p f

def State.liveWf (s : State) (p : Nat) (f : Fld) : Nat :=
  let w := dieOf p - 8
  if f = R.WF_CAL_DATA then
    (if s.rd p R.WF_CAL_SEL_ITEM < 4 then
      look calZero s.calSh (calKey w (s.rd p R.WF_CAL_SEL_FIB) (s.rd p R.WF_CAL_SEL_K) (s.rd p R.WF_CAL_SEL_DIR) (s.rd p R.WF_CAL_SEL_ITEM))
     else 0)
  else s.rd p f

def State.liveFib (s : State) (p : Nat) (f : Fld) : Nat :=
  let w := dieOf p - 8
  let n := pageOf p - 0x10
  let k := s.rd p R.WF_LSEL_K
  let dir := s.rd p R.WF_LSEL_DIR
  let x := s.lane w n k dir
  let rx (v : Nat) : Nat := if dir = 1 then v else 0
  if f = R.WF_FIB_STAT_DARK then
    (if (List.range 16).all fun k => !(s.lane w n k 1).lit then 1 else 0)
  else if f.off = 0x11C then x.stat / 2 ^ f.lo
  else if f = R.WF_LANE_HEAT_CODE then x.heat
  else if f = R.WF_LANE_HEAT_PEAK then x.peak
  else if f = R.WF_LANE_LOCK_TGT then s.calA w n k dir 3
  else if f = R.WF_LANE_LOCK_NOW then x.now
  else if f = R.WF_LANE_LOCK_PEAK then x.pow
  else if f = R.WF_LANE_TRIM_THR then rx x.thr
  else if f = R.WF_LANE_TRIM_EYE then rx x.eye
  else if f = R.WF_LANE_TX_DRV then (if dir = 0 then s.calA w n k 0 1 else 0)
  else if f = R.WF_LANE_TX_ER then (if dir = 0 then x.er else 0)
  else if f = R.WF_LANE_HDR_ERR then rx x.hdrErr
  else if f = R.WF_LANE_TEST_ERR then rx x.testErr
  else if f = R.WF_LANE_TEST_BITS then rx (x.testBits / 2 ^ 20)
  else s.rd p f

def State.liveSb (s : State) (p : Nat) (f : Fld) : Nat :=
  let w := dieOf p - 8
  if f = R.SB_COM_ID_PKG_ID then s.pkgId
  else if f = R.SB_POOL_FREE then s.poolFree w
  else if f = R.SB_POOL_BULK_FREE then s.bulkFree w
  else if f = R.SB_REPLAY_FREE then s.replayFree w
  else if f = R.SB_REPLAY_FWD_Q then (s.fwdQ w).length
  else s.rd p f

def State.liveSbk (s : State) (p : Nat) (f : Fld) : Nat :=
  let w := dieOf p - 8
  let k := pageOf p - 0x20
  let x := s.sub w k
  let l := x.lane' (s.rd p R.SB_LSEL_FIB)
  if f = R.SB_STAT_PEER_ID then s.peerPkg w k
  else if f = R.SB_RSEQ_HELD then x.pool.length
  else if f = R.SB_TXCRED_SYNC then min 127 (x.avail 2)
  else if f = R.SB_TXCRED_LINK then min 63 (x.avail 3)
  else if f = R.SB_TXCRED_MEM then min 511 (x.avail 1)
  else if f = R.SB_BULK_TX_AVAIL then min 8191 (x.avail 0)
  else if f = R.SB_BULK_RX_GRANT then x.granted
  else if f.off = 0x164 then s.sbLaneStat w k (s.rd p R.SB_LSEL_FIB) / 2 ^ f.lo
  else if f = R.SB_LANE_CRC_NOW then min l.now 65535
  else if f = R.SB_LANE_CRC_LAST then min l.last 65535
  else s.rd p f

def State.liveRdl (s : State) (p : Nat) (f : Fld) : Nat :=
  let key (b : Nat) : Nat := bankKey (dieOf p - 0x10) (pageOf p - 0x10) b
  let lit := (s.flashOf (s.acting.getD 0)).lit
  if f = R.RD_L_TEMP_C then min 255 (s.rowTemp (dieOf p - 0x10) (pageOf p - 0x10) / 4).toNat
  else if f = R.RD_L_HOURS_A then look natZero lit (key 0) else if f = R.RD_L_HOURS_B then look natZero lit (key 1) else s.rd p f

def State.liveHp (s : State) (p : Nat) (f : Fld) : Nat :=
  let h := dieOf p - 0x12
  if f = R.HP_LEASE_TMR_REMAIN_MS then (if s.role h = roleActive then ((s.hoop h).leaseEnd - s.clk.tick) / msTicks else 0)
  else if f = R.HP_CAD_DRIVING then (if s.drives h then 1 else 0)
  else s.rd p f

def State.liveFault (s : State) (p : Nat) (f : Fld) : Nat :=
  let h := dieOf p - 0x12
  if f = R.FAULT_LOG_DATA then (s.logData h).zipIdx.foldl (fun a x => a + x.1 * 2 ^ (64 * x.2)) 0
  else if f = R.FAULT_PIN_ASSERT then (if s.pullsFault h then 1 else 0)
  else if f = R.FAULT_CRASH_COUNT then (s.flog h).crash.length
  else s.rd p f

def State.livePr (s : State) (p : Nat) (f : Fld) : Nat :=
  if f = R.PR_DATA then (s.staging (dieOf p - 0x12)).getD (s.rd p R.PR_SEL_WORD) 0
  else if f = R.PR_STAT_PIN_NOW then s.pins.profSel
  else s.rd p f

def State.liveSec (s : State) (p : Nat) (f : Fld) : Nat :=
  let h := dieOf p - 0x12
  if f = R.SEC_KEYHASH then look natZero (s.flashOf h).keys (s.rd p R.SEC_KEY_SEL_SLOT)
  else if f = R.SEC_LC_STATE then s.life
  else s.rd p f

def State.liveSq (s : State) (p : Nat) (f : Fld) : Nat :=
  let q := pageOf p - 0x100
  let x := s.sq (dieOf p - 0x12) q
  let b (c : Bool) : Nat := if c then 1 else 0
  let cmd (v : Nat) : Nat := if q < 64 then v else 0
  if f = R.SQ_STAT_LEVEL then x.level
  else if f = R.SQ_STAT_EMPTY then b (decide (x.drain.length ≤ x.rd) && !(x.drain.isEmpty && !x.fill.isEmpty))
  else if f = R.SQ_STAT_FULL then b (decide (x.free = 0))
  else if f = R.SQ_STAT_DROP then b x.drop
  else if f = R.SQ_STAT_FLUSHING then b x.flushing.isSome
  else if f = R.SQ_STAT_DRAIN_BANK then x.drainBank
  else if f = R.SQ_PTR_WR then x.wrPtr
  else if f = R.SQ_PTR_RD then x.rdPtr
  else if f = R.SQ_PTR2_REL then cmd x.relPtr
  else if f = R.SQ_PTR2_MK then cmd x.mkPtr
  else if f = R.SQ_PTR2_MK_VALID then cmd (b x.mark.isSome)
  else if f = R.SQ_CTRL_FLUSH then b x.flushing.isSome
  else if f = R.SQ_PKT_PKT then x.pkt % 65536
  else if f = R.SQ_SEQ then x.seq % 2 ^ 32
  else s.rd p f

def State.livePkg0 (s : State) (f : Fld) : Nat :=
  if f = R.PKG_STAGE_ACTIVE_HOOP then s.acting.getD 0
  else if f = R.PKG_START_AUTO then (if s.start.prof.auto then 1 else 0)
  else s.rd pkg0 f

def State.livePkg2 (s : State) (f : Fld) : Nat :=
  if f = R.PKG_TICK then s.pkgTick % 2 ^ 64
  else if f = R.PKG_STEP then (s.au 0).step % 2 ^ 64
  else s.rd pkg2 f

/-- What a field of a live page reads. -/
def State.live (s : State) (p : Nat) (b : Blk) (f : Fld) : Nat :=
  if f.off < 0x100 then s.liveHdr p f
  else match b with
    | .os => s.liveOs p f
    | .tg => s.liveTg p f
    | .st => s.liveSt p f
    | .ce => s.liveCe p f
    | .wl => s.liveWl p f
    | .th => s.liveTh p f
    | .age => s.liveAge p f
    | .wf => s.liveWf p f
    | .fib => s.liveFib p f
    | .sb => s.liveSb p f
    | .sbk => s.liveSbk p f
    | .rdl => s.liveRdl p f
    | .hp => s.liveHp p f
    | .fault => s.liveFault p f
    | .pr => s.livePr p f
    | .sec => s.liveSec p f
    | .sq => s.liveSq p f
    | .pkg0 => s.livePkg0 f
    | .pkg2 => s.livePkg2 f
    | _ => s.rd p f

/-- The word at `off` as its fields read now. -/
def State.liveWord (s : State) (p : Nat) (b : Blk) (off : Nat) : Nat :=
  (fieldsIn b off).foldl (fun a f => a + f.partIn off (s.live p b f % 2 ^ f.w)) 0

/-- The word a register access reads at `off` (R47, R48, R55, R56). -/
def State.readAt (s : State) (p off : Nat) : Nat :=
  match pageBlk p with
  | none => 0
  | some b =>
    let x := s.page p
    if x.up = .never then (if off = 0 || off = 0xC then s.liveWord p b off else 0)
    else if 0x800 ≤ off then ((x.shadow.find? fun e => decide (e.1 = off - 0x800)).map Prod.snd).getD 0
    else if 0x100 ≤ off && !s.alive p then 0
    else s.liveWord p b off

end Sys2Proof.Machine
end

