-- ==== Sys2Proof/Machine/Access.lean ====
section
/-! DEFINITION. Register access through a Hoop's BAR0 and over the Twine ring (R41-R59, R65-R67, R423, R469): reads with their holding registers,
writes with the checks of R57, the effect each field's write has, soft resets (R554), snapshots (R60-R64) and staged commits (R65-R69). -/

namespace Sys2Proof.Machine
open Sys2Proof

/-- What a write meets that the register file cannot tell: an uncorrectable word in a shadow bank (R370), whether fuses in the Hoop die and its peer
take a value (R529, R530), whether a request comes with an owner-signed response, whether a signature verifies (R531), and whether a
staged commit applies it. -/
structure WrX where
  ue : Bool := false
  ce : Bool := false
  ok0 : Bool := true
  ok1 : Bool := true
  owner : Bool := false
  good : Bool := false
  staged : Bool := false
  deriving DecidableEq, Repr

/-! Words and fields. -/

/-- The bits of a word that lie in field `f`, at their place in the field. -/
def Fld.fromWord (f : Fld) (off w : Nat) : Nat :=
  let start := f.off * 8 + f.lo
  let base := off * 8
  (if start ≤ base then w * 2 ^ (base - start) else w / 2 ^ (start - base)) % 2 ^ f.w

/-- The bits of the bytes that `be` enables. -/
def beMask (be : Nat) : Nat := (List.range 4).foldl (fun a i => if be.testBit i then a + 0xFF * 256 ^ i else a) 0

/-- The fields of the word that a write touches, settings before requests where both stand in one word, but for the words whose
requests come last. -/
def touched (b : Blk) (off be : Nat) : List Fld :=
  let fs := (fieldsIn b off).filter fun f => decide (f.fromWord off (beMask be) ≠ 0)
  if (b = .th || b = .fault) && 0x100 ≤ off then fs else fs.reverse

/-- The fields of the two tags (R43, R44). -/
def isTag (f : Fld) : Bool := decide (f = R.PG_TAG) || decide (f = R.PKG_TAG)

/-- Fields that R51 fences; PKG_BREAK_STAT.HIT is fenced as a W1S field is (R52). -/
def fenced (b : Blk) (f : Fld) : Bool :=
  decide (f.acc = .rwe) || decide (f.acc = .rwk) || decide (f.acc = .w1s) || (decide (b = .pkg2) && decide (f = R.PKG_BREAK_STAT_HIT))

/-- Fields whose writes staging holds back (R65); a doorbell is not stageable. -/
def stageable (b : Blk) (f : Fld) : Bool :=
  stageCap b && (decide (f.acc = .rwe) || decide (f.acc = .rwk)) && !(decide (b = .os) && decide (f.off = 0x154))

/-- A field's value before a write of some of its bits. -/
def State.oldOf (s : State) (p : Nat) (b : Blk) (f : Fld) : Nat := if f = R.SEC_KEYHASH then s.rd p f else s.live p b f

/-- What a write asks of a field: its new value, or for W1C and W1S the ones written. -/
def State.asked (s : State) (p : Nat) (b : Blk) (f : Fld) (off val be : Nat) : Nat :=
  let new := f.fromWord off (val &&& beMask be)
  match f.acc with
  | .w1c => new
  | .w1s => new
  | _ =>
    let old := s.oldOf p b f % 2 ^ f.w
    (old ^^^ (old &&& f.fromWord off (beMask be))) ||| new

/-! The effect of a field's write. -/

/-- A field without an effect of its own. -/
def State.plain (s : State) (p : Nat) (f : Fld) (v : Nat) : State :=
  match f.acc with
  | .ro => s
  | .w1s => s
  | .w1c => s.wr p f (s.rd p f ^^^ (s.rd p f &&& v))
  | _ => s.wr p f v

/-- A descriptor's word, or a segment entry, is written; the bits of an entry from `top` on are reserved in every form of it (R14, Tables 7-2, 7-4,
8-3, R274). -/
def putSched (sched : Sparse (BitVec 128)) (segs : Sparse Nat) (top i w v : Nat) : Sparse (BitVec 128) × Sparse Nat :=
  if i < 0x2000 then
    let old := (look (fun _ => 0#128) sched i).toNat
    (put (fun _ => 0#128) sched i (BitVec.ofNat 128 ((old - bits old (32 * w) 32 * 2 ^ (32 * w) + v % 2 ^ 32 * 2 ^ (32 * w)) % 2 ^ top)), segs)
  else if i < 0x2100 && w = 0 then (sched, put natZero segs (i - 0x2000) (v % 2 ^ 13)) else (sched, segs)

def State.actOs (s : State) (p : Nat) (f : Fld) (v val : Nat) : State :=
  let d := dieOf p
  if f = R.OS_PROG_CTRL_ARM then s.armWrite d (decide (v = 1))
  else if f = R.OS_PROG_CTRL_STOP then (if v = 1 && !s.bit p f then s.progStop d else s)
  else if f = R.OS_PROG_CTRL_LOADED then s.loadedWrite d (decide (v = 1))
  else if f = R.OS_TBL_DATA then s.tblWrite d v
  else if f = R.OS_EVT_ADD_CNT then s.evtDoorbell d val
  else if f = R.OS_EVT_ADD_AMOUNT then s
  else if f = R.OS_CNT_CLR_CLR then (if v = 1 then s.osCntClr d else s)
  else s.plain p f v

def State.actTg (s : State) (p : Nat) (f : Fld) (v : Nat) : State :=
  let d := dieOf p
  let r := pageOf p - 1
  if f = R.OS_TG_ENABLE_TILE_EN || f = R.OS_TG_ACC_MODE_CLOSE then (s.wr p f v).rowFollow d r
  else if f = R.OS_TG_ZERO_REQ then s.zeroReq d r v
  else if f = R.OS_TG_CNT_CLR_CLR then (if v = 1 then s.tgCntClr d r else s)
  else s.plain p f v

def State.actMc (s : State) (p : Nat) (f : Fld) (v : Nat) : State :=
  if f = R.MC_SCRUB_INTERVAL_H then s.wr p f (max 1 v)
  else if f = R.MC_CNT_CLR_CLR then
    (if v = 1 then ({ s with sideRem := put natZero s.sideRem (dieOf p * 4 + (pageOf p - 0x10)) 0 }).zero p
      [R.MC_CE_CNT, R.MC_UE_CNT, R.MC_LATE_CNT, R.MC_POISON_RD_CNT, R.MC_SIDE_BYTES] else s)
  else s.plain p f v

def State.actSt (s : State) (p : Nat) (f : Fld) (v : Nat) : State :=
  let d := dieOf p
  let e := pageOf p - 0x20
  let x := s.eng d e
  let r := s.rd p R.ST_DIG_SEL_REG
  if f = R.ST_SCHED_DATA then
    (if s.prog d = stEmpty || s.prog d = stLoaded then
      let y := putSched x.sched x.segs stTop (s.rd p R.ST_SCHED_SEL_INDEX) (s.rd p R.ST_SCHED_SEL_WORD) v
      s.setEng d e { x with sched := y.1, segs := y.2 }
     else s)
  else if f = R.ST_DIG then s.setEng d e (x.putDig r { x.dig r with sum := BitVec.ofNat 64 v })
  else if f = R.ST_DIG_BASE then s.setEng d e (x.putDig r { x.dig r with base := v })
  else if f = R.ST_DIG_PCNT then s.setEng d e (x.putDig r { x.dig r with pcnt := v })
  else if f = R.ST_BORROW_TMO_MS then s.wr p f (max 1 (min 10000 v))
  else if f = R.ST_CNT_CLR_CLR then (if v = 1 then s.zero p [R.ST_TX_CNT, R.ST_OUTST_PEAK] else s)
  else if e ≠ 0 && (decide (0x180 ≤ f.off) || (decide (0x140 ≤ f.off) && decide (f.off ≤ 0x154))) then s
  else if f = R.ST_STAKE_DATA then
    s.stakeWrite d (s.rd p R.ST_STAKE_SEL_GRANULE) v
  else if f = R.ST_DLAT_ACK_ACK then (if v = 1 then s.dlatAck d else s)
  else s.plain p f v

def State.actCe (s : State) (p : Nat) (f : Fld) (v : Nat) (staged : Bool) : State :=
  let d := dieOf p
  let x := s.ce d
  let r := s.rd p R.CE_RANK_SEL_RANK
  let may := staged || decide (s.prog d ≠ stRunning)
  if f = R.CE_SCHED_DATA then
    (if s.prog d = stEmpty || s.prog d = stLoaded then
      let y := putSched x.sched x.segs 94 (s.rd p R.CE_SCHED_SEL_INDEX) (s.rd p R.CE_SCHED_SEL_WORD) v
      s.setCe d { x with sched := y.1, segs := y.2 }
     else s)
  else if f = R.CE_RANK_DATA_PKG then (if may then s.setCe d { x with ranks := put natZero x.ranks r (x.rank r / 256 * 256 + v) } else s)
  else if f = R.CE_RANK_DATA_VALID then (if may then s.setCe d { x with ranks := put natZero x.ranks r (x.rank r % 256 + 256 * v) } else s)
  else if f.off = 0x114 then (if may then s.wr p f v else s)
  else if f = R.CE_CNT_CLR_CLR then (if v = 1 then s.zero p [R.CE_TX_BYTES, R.CE_RX_BYTES, R.CE_RX_DROP, R.CE_BUF_CE_CNT] else s)
  else s.plain p f v

def State.actWl (s : State) (p : Nat) (f : Fld) (v : Nat) : State :=
  if f = R.WL_CTRL_RETRAIN then (if v = 1 then s.wlRetrain p else s)
  else if f = R.WL_CTRL_HOLD_REQ then (if v = 1 then s.wlHoldReq p else s)
  else if f = R.WL_REPAIR_DATA_WIRE then s.repairWrite p v
  else if f = R.WL_WIRE_THR_COUNT || f = R.WL_WIRE_THR_WINDOW_MS || f = R.WL_TRAIN_TMO_US then s.wr p f (max 1 v)
  else if f = R.WL_CNT_CLR_CLR then (if v = 1 then s.wlCntClr p else s)
  else s.plain p f v

def State.actTh (s : State) (p : Nat) (f : Fld) (v : Nat) : State :=
  let d := dieOf p
  let h := d - 0x12
  if f = R.TH_ADJ_THROT_LOWER || f = R.TH_ADJ_WARN_LOWER then s.wr p f (min 60 v)
  else if f = R.TH_FORCE_SET then (if v = 1 then s.forceSet d else s)
  else if f = R.TH_FORCE_CLR then (if v = 1 then s.forceClr d else s)
  else if f = R.TH_CNT_CLR_CLR then (if v = 1 then s.thCntClr d else s)
  else if !isHoop d && decide (0x180 ≤ f.off) then s
  else if f = R.TH_PKG_K_K then s.wr p f (max 4 (min 64 v))
  else if f = R.TH_DRV_LIMIT_N then (s.wr p f v).drvLimit h
  else if f = R.TH_CAP_W then s.wr p f (s.capHeld v)
  else if f = R.TH_SAFE_N then (s.wr p f (max 16 (min 64 v))).sendN
  else if f = R.TH_SAFE_FORCE then (s.wr p f v).safeEval
  else if f = R.TH_SAFE_CLR then (if v = 1 then s.safeClear h else s)
  else s.plain p f v

def State.actAge (s : State) (p : Nat) (f : Fld) (v : Nat) : State :=
  let d := dieOf p
  let m := s.rd p R.AGE_SEL_MON
  if f = R.AGE_LIMIT_L then (if m < (monitors d).length then s.setFit d m { s.fit d m with limit := some v } else s)
  else if f = R.AGE_LOG_CLR then (if v = 1 && isHoop d then s.ageLogClr (d - 0x12) else s)
  else s.plain p f v

def State.actWf (s : State) (p : Nat) (f : Fld) (v : Nat) (ue ce : Bool) : State :=
  let w := dieOf p - 8
  let item := s.rd p R.WF_CAL_SEL_ITEM
  if f = R.WF_PLANE_EN_EN then s.planeWrite w v
  else if f = R.WF_CAL_CTRL_COMMIT then (if v = 1 && !s.bit p f then s.calCommit w ue ce else s)
  else if f = R.WF_CAL_DATA then
    (if item < 4 then
      { s with calSh := put calZero s.calSh (calKey w (s.rd p R.WF_CAL_SEL_FIB) (s.rd p R.WF_CAL_SEL_K) (s.rd p R.WF_CAL_SEL_DIR) item) v }
     else s)
  else s.plain p f v

def State.actFib (s : State) (p : Nat) (f : Fld) (v : Nat) : State :=
  let w := dieOf p - 8
  let n := pageOf p - 0x10
  if f = R.WF_FIB_SLIP_SLIP then s.fibSlip w n v
  else if f = R.WF_FIB_REACQ_TX then s.reacq w n v 0
  else if f = R.WF_FIB_REACQ_RX then s.reacq w n v 1
  else if f = R.WF_FIB_CNT_CLR_CLR then (if v = 1 then s.fibCntClr w n else s)
  else s.plain p f v

def State.actSb (s : State) (p : Nat) (f : Fld) (v : Nat) : State :=
  let w := dieOf p - 8
  if f = R.SB_COM_CTRL_EN then (if v = s.rd p f then s else s.sbEnable w (decide (v = 1)))
  else if f = R.SB_COM_CTRL_CLUSTER || f = R.SB_COM_ID_POD_SIZE || f = R.SB_COM_ID_POD_COUNT then
    (if s.bit p R.SB_COM_CTRL_EN then s else s.wr p f v)
  else if f = R.SB_COM_CNT_CLR_CLR then (if v = 1 then s.sbCntClr w 0 else s)
  else s.plain p f v

def State.actSbk (s : State) (p : Nat) (f : Fld) (v : Nat) : State :=
  let w := dieOf p - 8
  let k := pageOf p - 0x20
  if f = R.SB_CTRL_RESET then (if v = 1 then (s.sbDarken w k).sbWake w k else s)
  else if f = R.SB_CTRL_DRAIN then (if v = 1 then s.sbDrain w k else s)
  else if f = R.SB_BULK_CAP_CELLS then s.wr p f (max 64 (min 4096 v))
  else if f = R.SB_ACK_TMO_US || f = R.SB_FAIL_TMO_MS then s.wr p f (max 1 v)
  else if f = R.SB_LANE_CTRL_DROP then (if v = 1 then s.sbDrop w k else s)
  else if f = R.SB_LANE_CTRL_RETURN then (if v = 1 then s.sbAllow w k else s)
  else if f = R.SB_CNT_CLR_CLR then (if v = 1 then s.sbCntClr w k else s)
  else s.plain p f v

def State.actRd (s : State) (p : Nat) (f : Fld) (v : Nat) : State :=
  let r := dieOf p - 0x10
  let k := pageOf p - 0x10
  if f = R.RD_CTRL_ALL_OFF && pageOf p = 0 then s.allOffWrite r (decide (v = 1))
  else if f = R.RD_CAL_CTRL_COMMIT && pageOf p = 0 then (if v = 1 && !(s.reed r).armed then s.rdCommit r else s)
  else if f = R.RD_CAL_CTRL_RECAL && pageOf p = 0 then (if v = 1 && !(s.reed r).armed then s.recal r else s)
  else if f = R.RD_L_CTRL_ON && pageOf p ≠ 0 then s.laserOnWrite r k (decide (v = 1))
  else if f = R.RD_L_CTRL_SPARE && pageOf p ≠ 0 then (if v = 1 then s.spareWrite r k else s)
  else s.plain p f v

def State.actHp (s : State) (p : Nat) (f : Fld) (v : Nat) : State :=
  let h := dieOf p - 0x12
  if f = R.HP_LEASE_CMD_CMD then s.leaseCmd h v
  else if f = R.HP_SOLO_EN then (if h = 0 then s.wr p f v else s)
  else if f = R.HP_WDOG_KICK then (if v = 1 then s.wdogKick h else s)
  else if f = R.HP_WDOG_MS then s.wr p f (max 10 v)
  else if f = R.HP_MIR_CTRL_RESYNC then (if v = 1 then s.mirResync h else s)
  else if f = R.HP_CNT_CLR_CLR then (if v = 1 then s.hpCntClr h else s)
  else s.plain p f v

/-- PCIE_MODE.HUABEL_NEXT (R486): both Hoop dies hold it in flash. -/
def State.huabelNext (s : State) (h v : Nat) : State :=
  if s.nvOk 0 && s.nvOk 1 then
    [0, 1].foldl (fun s i => (s.setFlash i { s.flashOf i with huabel := decide (v = 1) }).wr (pciePg i) R.PCIE_MODE_HUABEL_NEXT v) s
  else s.nvRefuse h

def State.actPcie (s : State) (p : Nat) (f : Fld) (v : Nat) : State :=
  let h := dieOf p - 0x12
  if f = R.PCIE_MODE_HUABEL_NEXT then s.huabelNext h v
  else if f = R.PCIE_DMA_CTRL_EN then s.dmaEnable h v
  else if f = R.PCIE_DMA_CTRL_RESTART then s.dmaRestart h v
  else if f = R.PCIE_CNT_CLR_CLR then (if v = 1 then s.pcieCntClr h else s)
  else s.plain p f v

def State.actFault (s : State) (p : Nat) (f : Fld) (v : Nat) : State :=
  let h := dieOf p - 0x12
  if f = R.FAULT_CFG_QUEUE then s.wr p f (if 64 ≤ v && v ≤ 79 then v else 65)
  else if f = R.FAULT_CFG_PIN_SEV then s.wr p f (max 1 v)
  else if f = R.FAULT_COAL_MS then s.coalWrite h v
  else if f = R.FAULT_LOG_RD_RD then s.logRdWrite h v
  else if f = R.FAULT_ACK_GO then (if v = 1 && !s.bit p f then s.ackWrite h else s)
  else if f = R.FAULT_INT_PEND then (if v = 1 then s.intClear h else s)
  else if f = R.FAULT_PIN_CLR then (if v = 1 then s.pinClr h else s)
  else if f = R.FAULT_CRASH_CLR then (if v = 1 then s.crashClear h else s)
  else if f = R.FAULT_CNT_CLR_CLR then (if v = 1 then s.faultCntClr h else s)
  else s.plain p f v

/-- PR_OVERRIDE, kept in flash (R508, R524). -/
def State.overrideWrite (s : State) (h val : Nat) : State :=
  let p := prPg h
  if s.nvOk h then
    let s := ((s.wr p R.PR_OVERRIDE_IDX (bits val 0 2)).wr p R.PR_OVERRIDE_EN (bits val 8 1)).wr p R.PR_OVERRIDE_ONCE (bits val 9 1)
    s.setFlash h { s.flashOf h with ovIdx := bits val 0 2, ovEn := val.testBit 8, ovOnce := val.testBit 9 }
  else s.nvRefuse h

def State.actPr (s : State) (p : Nat) (f : Fld) (v val : Nat) : State :=
  let h := dieOf p - 0x12
  if f = R.PR_OVERRIDE_IDX then s.overrideWrite h val
  else if f = R.PR_OVERRIDE_EN || f = R.PR_OVERRIDE_ONCE then s
  else if f = R.PR_DATA then s.putStaging h (s.rd p R.PR_SEL_WORD) v
  else if f = R.PR_CTRL_LOAD then (if v = 1 then s.profLoad h else s)
  else if f = R.PR_CTRL_SAVE then (if v = 1 then s.profSave h else s)
  else s.plain p f v

def State.actSec (s : State) (p : Nat) (f : Fld) (off v : Nat) (x : WrX) : State :=
  let h := dieOf p - 0x12
  if f = R.SEC_LC_REQ then s.lifeReq h v x.owner x.ok0 x.ok1
  else if f = R.SEC_KEY_CTRL_PROGRAM then (if v = 1 then s.keyProgram h x.ok0 else s)
  else if f = R.SEC_KEY_CTRL_REVOKE then s.keyRevoke h v x.ok0
  else if f = R.SEC_DBG_REQ then s.dbgReq h v
  else if f = R.SEC_RESP then
    let s := s.wr p f v
    if off = 0x1DC then s.dbgResp h x.good else s
  else if f = R.SEC_JTAG_SKIP then (s.wr (secPg 0) f v).wr (secPg 1) f v
  else s.plain p f v

def State.actSq (s : State) (p : Nat) (f : Fld) (v val : Nat) : State :=
  let h := dieOf p - 0x12
  let q := pageOf p - 0x100
  if f = R.SQ_CFG_WM || f = R.SQ_FLUSH_TMO_US then s.wr p f (max 1 v)
  else if f = R.SQ_WM_HIT then (if v = 1 then s.wmClear h q else s)
  else if f = R.SQ_CONS_MARK then s.sqCons h q (val.testBit 0) (val.testBit 1) (val.testBit 2)
  else if f = R.SQ_CTRL_FLUSH then (if v = 1 then s.sqFlush h q else s)
  else if f = R.SQ_CTRL_RESET then (if v = 1 then s.sqResetWrite h q else s)
  else if f = R.SQ_CNT_CLR_CLR then (if v = 1 then s.sqCntClr h q else s)
  else s.plain p f v

/-! Snapshots and commits begin. -/

/-- A snapshot is under way at an acting Hoop. -/
def State.snapRun (s : State) (h : Nat) : Option SnapRun := look (fun _ => none) s.snaps h

/-- PKG_SNAP_CTRL.REQ (R60): the target tick goes to all twenty dies. -/
def State.snapReq (s : State) : State :=
  match s.acting with
  | none => s
  | some h =>
    if s.bit pkg0 R.PKG_SNAP_CTRL_BUSY then s
    else
      let r : SnapRun := ⟨(s.rd pkg0 R.PKG_SNAP_STAT_SEQ + 1) % 65536, s.clk.tick + s.rd pkg0 R.PKG_SNAP_CTRL_LEAD, allDies, [], [], false⟩
      let s := s.wb pkg0 R.PKG_SNAP_CTRL_BUSY true
      { s with snaps := put (fun _ => none) s.snaps h (some r) }

def stIdle : Nat := 0
def stOpen : Nat := 1
def stPrep : Nat := 2
def stMarked : Nat := 3
def State.stageSt (s : State) : Nat := s.rd pkg0 R.PKG_STAGE_STAT_STATE

/-- Staging ends: STATE returns to IDLE, OPEN and COMMIT read 0. -/
def State.stageIdle (s : State) : State :=
  s.zero pkg0 [R.PKG_STAGE_STAT_STATE, R.PKG_STAGE_CTRL_OPEN, R.PKG_STAGE_CTRL_COMMIT]

/-- A failure is reported and every die is told to discard (R67). -/
def State.stageFail (s : State) (die cause : Nat) : State :=
  let s := ((s.stageIdle.wb pkg0 R.PKG_STAGE_STAT_FAIL true).wr pkg0 R.PKG_STAGE_STAT_FAIL_DIE die).wr pkg0 R.PKG_STAGE_STAT_FAIL_CAUSE cause
  { s with com := { s.com with discard := allDies, ahead := s.com.prep, answers := [], taken := [], mark := [], armed := [] } }

/-- PKG_STAGE_CTRL written (R65-R67); no effect in PREP or MARKED, or before a new acting Hoop's OVERLAP has ended (R555). -/
def State.stageCtrl (s : State) (opn commit : Bool) : State :=
  match s.acting with
  | none => s
  | some h =>
    let st := s.stageSt
    if st = stPrep || st = stMarked || s.bit (hpTop h) R.HP_ROLE_OVERLAP then s
    else
      let s := if opn && st = stIdle then (s.wr pkg0 R.PKG_STAGE_STAT_STATE stOpen).wb pkg0 R.PKG_STAGE_CTRL_OPEN true else s
      if s.stageSt = stOpen then
        if commit then
          let s := (s.wr pkg0 R.PKG_STAGE_STAT_STATE stPrep).wb pkg0 R.PKG_STAGE_CTRL_COMMIT true
          { s with com := { s.com with at' := s.clk.tick, prep := allDies, ahead := [], answers := [], taken := [], mark := [], armed := [] } }
        else if opn then s else s.stageFail 0x1F 4
      else s

def State.actPkg0 (s : State) (f : Fld) (v val : Nat) : State :=
  if f = R.PKG_SNAP_CTRL_REQ then (if v = 1 then s.snapReq else s)
  else if f = R.PKG_SNAP_CTRL_LEAD then s.wr pkg0 f (max 200 v)
  else if f = R.PKG_STAGE_CTRL_OPEN then s.stageCtrl (val.testBit 0) (val.testBit 1)
  else if f = R.PKG_STAGE_CTRL_COMMIT then s
  else if f = R.PKG_START_GO then (if v = 1 then s.startGo else s)
  else s.plain pkg0 f v

def State.actPkg1 (s : State) (f : Fld) (v : Nat) : State :=
  if f = R.PKG_TAG_CTRL_SAVE then (if v = 1 then s.tagSave else s) else s.plain pkg1 f v

def isMask (f : Fld) : Bool := decide (0x160 ≤ f.off) && decide (f.off < 0x1A0)

def State.actPkg2 (s : State) (f : Fld) (v : Nat) (staged : Bool) : State :=
  if f = R.PKG_TIME_CTRL_ARM then (if v = 1 then s.timeArm else s)
  else if f = R.PKG_STEP then (if s.anyRunning then s else (s.wr pkg2 f v).stepCopy)
  else if isMask f then (if s.anyRunning then s else s.wr pkg2 f v)
  else if f = R.PKG_BORDER_LEAD then s.wr pkg2 f (max 1 v)
  else if f = R.PKG_BREAK_COUNT then (s.wr pkg2 f v).breakWrite true staged  -- the last field of PKG_BREAK: the whole register goes out
  else if f = R.PKG_BREAK_STEP then (s.wr pkg2 f v).breakWrite false staged
  else if f = R.PKG_BREAK_STAT_HIT then (if v = 1 then s.breakRelease else s)
  else if f = R.PKG_AUDIT_CTRL_EN then s.wb pkg2 f (decide (v = 1) && !s.huabel)
  else if f = R.PKG_AUDIT_CTRL_QUEUE then s.wr pkg2 f (if 64 ≤ v && v ≤ 79 then v else 64)
  else s.plain pkg2 f v

end Sys2Proof.Machine
end

