-- ==== Sys2Proof/Machine/SoftReset.lean ====
section
/-! DEFINITION. Soft resets (R554, Table 2-7): what ends at the write and what starts again when the reset completes. -/

namespace Sys2Proof.Machine
open Sys2Proof

/-- The first part of an OS_TOP reset is STOP; the rest follows when the stop has completed. -/
def State.resetOs (s : State) (p : Nat) : State :=
  let d := dieOf p
  let s := s.resetRegs p [R.OS_IDENT_GRADE, R.OS_CAD_N, R.OS_CAD_ALIGN_OK, R.OS_CAD_ALIGN_CNT, R.OS_OVB_LIMIT_BYTES]
  (s.setOd d { s.od d with runAcc := 0, runCc := s.clk.cc, phase := 0, phaseOn := false }).toEmpty d

/-- Every tile of a row as after RESET_N; its routers keep forwarding. -/
def State.resetTg (s : State) (p : Nat) : State :=
  let d := dieOf p
  ((rowTiles (pageOf p - 1)).foldl (fun s t => s.setTile d t Tile.reset) s).resetRegs p []

/-- A stack's controller: queued reads are released as poisoned zeros, writes not yet entered are gone, the PHY trains again. -/
def State.resetMc (s : State) (p : Nat) : State :=
  let mc := dieOf p * 4 + (pageOf p - 0x10)
  let s := { s with
    reads := s.reads.map fun (r : RUnit) => if r.mc = some mc then { r with mc := none, lines := r.lines.map fun _ => poisonLine } else r
    units := s.units.map fun (w : WUnit) => match w.sink with
      | .hbm m _ => if m = mc then { w with sink := .none } else w
      | _ => w }
  s.resetRegs p [R.MC_STAT_TEMP]

/-- A stream engine: it aborts, borrowed operations in flight complete as failed, digests are 0 and ST0's latch is empty. -/
def State.resetSt (s : State) (p : Nat) : State :=
  let d := dieOf p
  let e := pageOf p - 0x20
  let s := (s.eng d e).borrow.foldl (fun s x => s.borrowEnd d e x none none none) s
  let s := s.engAbort d e
  let s := (s.setEng d e { s.eng d e with digs := [] }).resetRegs p []
  if e = 0 then s.setAu d { s.au d with latch := [], pcnt := [], held := none, lost := 0 } else s

def State.resetCe (s : State) (p : Nat) : State :=
  let d := dieOf p
  let s := s.ceAbort d
  (s.setCe d { s.ce d with ranks := [] }).resetRegs p []

/-- A port end OFF, with no repair and 16 modules. -/
def State.resetWl (s : State) (p : Nat) : State :=
  let s := s.wlOff p
  (s.setWle p { s.wle p with repairs := [], wires := [], hist := [] }).resetRegs p []

/-- A TH page: Qh, N_T, N_P and substituted marks stay; the profile's fields are loaded again. -/
def State.resetTh (s : State) (p : Nat) : State :=
  let d := dieOf p
  let n := s.rd p R.TH_PKG_N_N
  let s := s.resetRegs p [R.TH_PKG_EXCESS_QH, R.TH_PKG_EXCESS_Q, R.TH_PKG_N_NT, R.TH_PKG_N_NP]
  let s : State := (List.range (sensCount d)).foldl (fun (s : State) i =>
    s.setSensor (sensIdx d i) { s.sensor (sensIdx d i) with hot := none }) s
  let x := s.start.prof
  let s := (s.wr p R.TH_ADJ_THROT_LOWER x.throt).wr p R.TH_ADJ_WARN_LOWER x.warn
  if isHoop d then
    let h := d - 0x12
    let s := ((s.profileHoop h).wr p R.TH_TRIP_LAST_CNT (s.flashOf h).trips).wr p R.TH_PKG_N_N n
    s.safeEval.sendN
  else s

/-- An AGE page: its fits are made again from the acting Hoop's log. -/
def State.resetAge (s : State) (p : Nat) : State :=
  let d := dieOf p
  let s := s.resetRegs p []
  let s := { s with fits := forgetIf s.fits fun k => decide (k / 64 = d) }
  match s.acting with
  | some h => (List.range (monitors d).length).foldl (fun s m => s.ageFit h d m) s
  | none => s

/-- A fibre's lanes acquire again where its plane is enabled and they are lit. -/
def State.startFibre (s : State) (w f : Nat) : State := if s.planeOn w f then s.planeSet w f true else s

def State.resetWf (s : State) (p : Nat) : State :=
  let w := dieOf p - 8
  let s := (List.range 16).foldl (fun s f => s.planeSet w f false) s
  let s := s.resetRegs p [R.WF_CAL_CTRL_GEN, R.WF_CAL_STAT_BANK]
  -- WF_LASER_ON is 0 until its Reed die reports again (DEDUCED, log entry 53)
  let s := [0, 1].foldl (fun s r =>
    if (s.rd (rdTop r) R.RD_IDENT_FEEDS).testBit w then
      { s with notes := s.notes ++ ((List.range 16).filter (s.rd (rdTop r) R.RD_STAT_ON).testBit).map fun k => (8 + w, Note.laser r k true) }
    else s) s
  s.setWf w { s.wf w with armed := false, clamp := false }

def State.resetFib (s : State) (p : Nat) : State :=
  let w := dieOf p - 8
  let f := pageOf p - 0x10
  let s := s.planeSet w f false
  let s := (List.range 16).foldl (fun s k => s.setLane w f k 1 { s.lane w f k 1 with hdrErr := 0, testErr := 0, testBits := 0 }) s
  (s.resetRegs p []).setFibre w f { s.fibre w f with idRun := 0, clean := 0 }

/-- Seber's fields of the profile in use (R385, R414). -/
def State.profileSeber (s : State) (w : Nat) : State :=
  let x := s.start.prof
  ((s.wb (sbPg w) R.SB_COM_CTRL_CLUSTER x.cluster).wr (sbPg w) R.SB_COM_ID_POD_SIZE x.size).wr (sbPg w) R.SB_COM_ID_POD_COUNT x.count

def State.resetSb (s : State) (p : Nat) : State :=
  let w := dieOf p - 8
  let s := (List.range 15).foldl (fun s i => if s.sbSt w (i + 1) = sbDark then s else s.sbDarken w (i + 1)) s
  (s.resetRegs p []).profileSeber w

def State.resetSbk (s : State) (p : Nat) : State :=
  let w := dieOf p - 8
  let k := pageOf p - 0x20
  let s := s.sbDarken w k
  let s := (s.setSub w k { s.sub w k with lanes := [] }).resetRegs p []
  if s.start.prof.cluster && decide (4 ≤ w) then s.wr p R.SB_ACK_TMO_US 12 else s

def State.resetRd (s : State) (p : Nat) : State :=
  let r := dieOf p - 0x10
  let s := (List.range 16).foldl (fun s k =>
    let st := s.rd (rdPg r k) R.RD_L_STAT_STATE
    if st = rdOff || st = rdFailed then s else s.laserOff r k rdOff) s
  let s := s.resetRegs p [R.RD_CTRL_LIGHT_OK, R.RD_STAT_BANK_B]
  s.setReed r { s.reed r with armed := false }

def State.resetRdl (s : State) (p : Nat) : State :=
  let r := dieOf p - 0x10
  let k := pageOf p - 0x10
  let st := s.rd p R.RD_L_STAT_STATE
  let s := if st = rdOff || st = rdFailed then s else s.laserOff r k rdOff
  s.resetRegs p [R.RD_L_CTRL_ON, R.RD_L_STAT_BANK, R.RD_L_STAT_A_FAIL, R.RD_L_STAT_B_FAIL]

/-- A Hoop die reboots (R440). -/
def State.resetHp (s : State) (p : Nat) : State :=
  let h := dieOf p - 0x12
  let x := s.hoop h
  (s.resetRegs p [R.HP_LEASE_SEEN, R.HP_SOLO_EN]).setHoop h
    { rebootAt := some s.clk.tick, ageAt := x.ageAt, retryAt := x.retryAt, ceSeen := x.ceSeen, biasSeen := x.biasSeen }

def State.resetPcie (s : State) (p : Nat) : State :=
  let h := dieOf p - 0x12
  let s := (List.range 8).foldl (fun s c => s.dmaStop h c 5 0 true) s
  s.resetRegs p [R.PCIE_IDENT_DEVICE_ID, R.PCIE_LINK_SPEED, R.PCIE_LINK_WIDTH, R.PCIE_LINK_FLIT, R.PCIE_LINK_UP, R.PCIE_MODE_HUABEL,
    R.PCIE_MODE_HUABEL_NEXT]

def State.resetFault (s : State) (p : Nat) : State :=
  (s.resetRegs p [R.FAULT_LOG_PTR_WR, R.FAULT_LOG_SEQ, R.FAULT_LOG_RD_RD, R.FAULT_PIN_HALTED]).coalCopy (dieOf p - 0x12)

def State.resetPr (s : State) (p : Nat) : State :=
  let h := dieOf p - 0x12
  let s := { s with start := { s.start with bufs := forgetIf s.start.bufs fun k => decide (k / 128 = h) } }
  s.resetRegs p [R.PR_STAT_IN_USE, R.PR_STAT_SOURCE, R.PR_STAT_VALID, R.PR_STAT_PIN_SAMPLED, R.PR_STAT_UNSTABLE, R.PR_OVERRIDE_IDX,
    R.PR_OVERRIDE_EN, R.PR_OVERRIDE_ONCE, R.PR_CTRL_SAVE]

def State.resetSec (s : State) (p : Nat) : State :=
  let h := dieOf p - 0x12
  let s := if s.start.respLvl / 4 = h then ({ s with start := { s.start with respLvl := 0 } }).newNonce h else s
  s.resetRegs p [R.SEC_LC_STATE, R.SEC_BOOT_IMAGE, R.SEC_BOOT_SVN, R.SEC_BOOT_MIN_SVN, R.SEC_KEY_CTRL_REVOKE, R.SEC_KEY_CTRL_FUSED,
    R.SEC_DBG_LEVEL, R.SEC_DBG_SCRUB, R.SEC_CHAL]

def State.resetPkg0 (s : State) : State :=
  let opn := decide (s.stageSt = stOpen)
  let s := s.resetRegs pkg0 ([R.PKG_IDENT_PKG_ID, R.PKG_IDENT_GRADE, R.PKG_IDENT_FUSE_GRADE, R.PKG_STAGE_STAGE, R.PKG_STAGE_READY,
    R.PKG_START_HOLD_AT, R.PKG_START_STAT_FAIL, R.PKG_START_STAT_FAIL_STAGE, R.PKG_START_STAT_FAIL_CAUSE, R.PKG_START_STAT_LATE]
    ++ (List.range 4).map (Fld.idx R.PKG_STAGE_MS))
  if opn then s.stageFail 0x1F 4 else s

/-- The package tag as the acting Hoop's profile store holds it (R59). -/
def State.tagLoad (s : State) (h : Nat) : State :=
  s.wr pkg1 R.PKG_TAG ((List.range 64).foldl (fun a i => a + look natZero (s.flashOf h).tag i * 2 ^ (32 * i)) 0)

def State.resetPkg2 (s : State) : State :=
  s.breakRelease.resetRegs pkg2 ([R.PKG_TIME_CTRL_ARMED, R.PKG_TIME_CTRL_ZEROED, R.PKG_TIME_CTRL_CHECK_EN, R.PKG_TIME_CTRL_TOL, R.PKG_TIME_STAT_OFFSET,
    R.PKG_TIME_STAT_STUCK, R.PKG_TIME_STAT_SLIP_CNT, R.PKG_EPOCH_IGN, R.PKG_EPOCH_CNT, R.PKG_STEP, R.PKG_SEED, R.PKG_DSEED]
    ++ (List.range 8).map (Fld.idx R.PKG_AUDIT_MASK) ++ (List.range 8).map (Fld.idx R.PKG_STEP_MASK))

/-- The block ends what it does (Table 2-7). OS_TOP stops first; package page 0 first completes what is under way. -/
def State.resetBlock (s : State) (p : Nat) (b : Blk) : State :=
  match b with
  | .os => if s.bit p R.OS_PROG_CTRL_STOP then s else s.progStop (dieOf p)
  | .tg => s.resetTg p
  | .mc => s.resetMc p
  | .st => s.resetSt p
  | .ce => s.resetCe p
  | .wl => s.resetWl p
  | .th => s.resetTh p
  | .age => s.resetAge p
  | .wf => s.resetWf p
  | .fib => s.resetFib p
  | .sb => s.resetSb p
  | .sbk => s.resetSbk p
  | .rd => s.resetRd p
  | .rdl => s.resetRdl p
  | .hp => s.resetHp p
  | .pcie => s.resetPcie p
  | .fault => s.resetFault p
  | .pr => s.resetPr p
  | .sec => s.resetSec p
  | .sq => (s.sqReset (dieOf p - 0x12) (pageOf p - 0x100)).resetRegs p []
  | .pkg1 => (s.resetRegs p []).tagLoad (s.acting.getD 0)
  | .pkg2 => s.resetPkg2
  | .pkg0 => s
  | .hdr => s

/-- PG_CTRL.SOFT_RESET written 1: the block goes down, the key closes, the header stays. -/
def State.softReset (s : State) (p : Nat) (b : Blk) : State :=
  if (s.page p).up = .resetting then s
  else
    let s := (s.wb p R.PG_STATUS_KEY_OPEN false).wb p R.PG_CTRL_SOFT_RESET true
    (s.resetBlock p b).setUp p .resetting

/-- The work a block starts when it runs again. -/
def State.restartBlock (s : State) (p : Nat) (b : Blk) : State :=
  let d := dieOf p
  match b with
  | .wl => s.wlEnable p
  | .wf => if 3 ≤ s.rd pkg0 R.PKG_STAGE_STAGE then s.planeWrite (d - 8) (s.start.prof.planes / 2 ^ (16 * (d - 8)) % 65536) else s
  | .fib => s.startFibre (d - 8) (pageOf p - 0x10)
  | .sb => if s.rd pkg0 R.PKG_STAGE_STAGE = 4 then s.sbEnable (d - 8) true else s
  | .sbk => s.sbWake (d - 8) (pageOf p - 0x20)
  | .rd => if s.lightOk (d - 0x10) then s.light (d - 0x10) true else s
  | .rdl => if s.bit p R.RD_L_CTRL_ON && s.lightOk (d - 0x10) then s.laserWant (d - 0x10) (pageOf p - 0x10) else s
  | _ => s

/-- Whether what the reset waits for has ended: a stop, an engine's abort, a commit or a snapshot. A Hoop die's reboot ends of itself. -/
def State.resetEnds (s : State) (p : Nat) (b : Blk) : Bool :=
  let d := dieOf p
  match b with
  | .os => !(s.od d).stopping
  | .st => !(s.eng d (pageOf p - 0x20)).abort
  | .ce => !(s.ce d).abort
  | .hp => false
  | .pkg0 => decide (s.stageSt ≤ stOpen) && (s.snaps.all fun e => e.2.isNone)
  | _ => true

/-- The page's block runs, and starts what Table 2-7 gives. -/
def State.blockUp (s : State) (p : Nat) (b : Blk) : State := (s.setUp p .up).restartBlock p b

/-- The soft reset completes (R554): the block runs again if ENABLE is 1. -/
def State.softDone (s : State) (p : Nat) (b : Blk) : State :=
  let s := match b with
    | .os => s.resetOs p
    | .pkg0 => s.resetPkg0
    | _ => s
  let s := s.wb p R.PG_CTRL_SOFT_RESET false
  if s.bit p R.PG_CTRL_ENABLE then s.blockUp p b else s.setUp p .down

/-- SOFT_RESET_COMPLETE (R554). -/
def execSoftResetComplete (page : Nat) (s : State) : Host.Outcome State Fault Refusal :=
  .next (match pageBlk page with
    | some b => if decide ((s.page page).up = .resetting) && s.resetEnds page b then s.softDone page b else s
    | none => s)

/-- PG_CTRL.ENABLE written: a block that a soft reset left down runs once it is 1. A Wale port end is OFF while it is 0 and leaves for TRAIN when it is
1 again (R341). -/
def State.enableWrite (s : State) (p : Nat) (b : Blk) (v : Nat) : State :=
  let was := s.bit p R.PG_CTRL_ENABLE
  let s := s.wr p R.PG_CTRL_ENABLE v
  if v = 1 && decide ((s.page p).up = .down) then s.blockUp p b
  else if decide (b = .wl) && s.alive p && (was != decide (v = 1)) then (if v = 1 then s.wlEnable p else s.wlOff p)
  else s

end Sys2Proof.Machine
end

