-- ==== Sys2Proof/Machine/Write.lean ====
section
/-! DEFINITION. A register write as a page judges it (R43, R47, R51, R54-R57, R65, Table 17-5) and carries it out; a host's write and read
through a Hoop's BAR0 (R43-R46, R58, R427, R469); Twine WRITE and READ frames in SEQ order (R423). -/

namespace Sys2Proof.Machine
open Sys2Proof

/-! Header fields. -/

/-- The effect of a header field's write (Table 2-3). -/
def State.actHdr (s : State) (p : Nat) (b : Blk) (f : Fld) (v : Nat) : State :=
  if f = R.PG_CTRL_ENABLE then s.enableWrite p b v
  else if f = R.PG_CTRL_SOFT_RESET then (if v = 1 then s.softReset p b else s)
  else if f = R.PG_CTRL_UNLOCK then s.wb p R.PG_STATUS_KEY_OPEN (decide (v = 0x5EB3))
  else if f = R.PG_FSTAT_SRC then s.fstatClear p v
  else if f = R.PG_FMASK_MASK then s.wr p f (if b = .pkg0 then v - bits v 2 2 * 4 else v)
  else if f = R.PG_FSEV0_SEV then s.wr p f (if b = .pkg0 then v ||| 0xF0 else v)
  else if f = R.PG_FTIMER_GRACE_MS then s.wr p f (max 1 (min 10000 v))
  else s.plain p f v

/-- The effect of one field's write. `off` and `val` are the word's offset and value, `v` what is asked of the field. -/
def State.fieldAct (s : State) (p : Nat) (b : Blk) (f : Fld) (off val v : Nat) (x : WrX) : State :=
  if f.acc = .ro then s
  else if f.off < 0x100 then s.actHdr p b f v
  else match b with
    | .os => s.actOs p f v val
    | .tg => s.actTg p f v
    | .mc => s.actMc p f v
    | .st => s.actSt p f v
    | .ce => s.actCe p f v x.staged
    | .wl => s.actWl p f v
    | .th => s.actTh p f v
    | .age => s.actAge p f v
    | .wf => s.actWf p f v x.ue x.ce
    | .fib => s.actFib p f v
    | .sb => s.actSb p f v
    | .sbk => s.actSbk p f v
    | .rd => s.actRd p f v
    | .rdl => s.actRd p f v
    | .hp => s.actHp p f v
    | .pcie => s.actPcie p f v
    | .fault => s.actFault p f v
    | .pr => s.actPr p f v val
    | .sec => s.actSec p f off v x
    | .sq => s.actSq p f v val
    | .pkg0 => s.actPkg0 f v val
    | .pkg1 => s.actPkg1 f v
    | .pkg2 => s.actPkg2 f v x.staged
    | .hdr => s

/-! What a page refuses. -/

/-- The classes of Table 17-4 among register fields: 5 the secrets, 4 management, 2 compute control, 3 links. -/
def blkClass (b : Blk) : Nat :=
  match b with
  | .os | .tg | .mc | .st | .ce => 2
  | .wl | .wf | .fib | .sb | .sbk | .rd | .rdl => 3
  | .sec => 5
  | _ => 4

/-- Whether Table 17-5 refuses an RWK write of value `v`, key or not. -/
def State.keyBarred (s : State) (b : Blk) (f : Fld) (v : Nat) : Bool :=
  let life := s.life
  let lvl := s.dbgLevel
  if blkClass b = 5 then
    let program := decide (f = R.SEC_KEYHASH) || (decide (f = R.SEC_KEY_CTRL_PROGRAM) && decide (v = 1))
    let revoke := decide (f = R.SEC_KEY_CTRL_REVOKE) && decide (v ≠ 0)
    if life = 0 then decide (lvl = 0) && revoke else if life = 1 then program else true
  else decide (blkClass b = 4) && decide (life = 2) && decide (lvl ≠ 3)

/-- Staging is open for a field of the page. -/
def State.stages (s : State) (b : Blk) (f : Fld) : Bool := decide (s.stageSt = stOpen) && stageable b f

/-- The die holds frozen stage buffers (R65). The package pages freeze with the acting Hoop's die. -/
def State.frozenAt (s : State) (p : Nat) : Bool :=
  let d := if dieOf p = 0x1F then s.acting.elim 0x1F held else dieOf p
  s.com.frozen.any fun x => decide (x.1 = d)

/-- Why a page rejects a write (Table 2-4), or none. -/
def State.writeCause (s : State) (p off val be epoch : Nat) (own : Bool) : Option Nat :=
  match pageBlk p with
  | none => some 4
  | some b =>
    let fs := touched b off be
    if (s.page p).up = .never then some 1
    else if 0x800 ≤ off then some 5
    else if be ≠ 15 && !((fieldsIn b off).any isTag) then some 6
    else if 0x100 ≤ off && !s.alive p then some 1
    else if fs.any (fenced b) && decide (epoch < s.rd p R.PG_EPOCH_EPOCH) && !own then some 3
    else if fs.any fun f => decide (f.acc = .rwk) && (!s.bit p R.PG_STATUS_KEY_OPEN || s.keyBarred b f (s.asked p b f off val be)
        || (decide (f = R.WL_REPAIR_DATA_WIRE) && decide (b = .wl) && !s.stages b f && !s.repairFree p)) then some 2
    else if s.frozenAt p && fs.any (stageable b) then some 8
    else none

/-! A write takes effect. -/

/-- The fields of a word act in order, each on its value as the word found it. -/
def State.wordAct (s : State) (p : Nat) (b : Blk) (fs : List Fld) (off val be epoch : Nat) (x : WrX) : State :=
  let asks := fs.map fun f => (f, s.asked p b f off val be)
  let s := if fs.any (fenced b) then s.epochUp p epoch else s
  asks.foldl (fun (s : State) e => s.fieldAct p b e.1 off val e.2 x) s

/-- A write enters the page's stage buffer of 64 entries (R65). -/
def State.stageIn (s : State) (p off val epoch : Nat) : State :=
  let x := s.page p
  if 64 ≤ x.stage.length then s.wb p R.PG_STATUS_STAGE_OVF true
  else s.setPage p { x with stage := x.stage ++ [⟨off, BitVec.ofNat 32 val, epoch⟩] }

/-- The clock stands on the boundary at which a commit has written the word at `off`: the staged value stands last (R69). -/
def State.overtaken (s : State) (p off : Nat) : Bool :=
  decide (s.clk.j = 0) && decide (s.clk.frame = s.com.boundary) && s.com.applied.contains (p, off)

/-- A profile save that Table 17-5 refuses is one that R526 refuses: ERR and PROF_SAVE_ERR. -/
def State.saveBarred (s : State) (p off val cause : Nat) : State :=
  if cause = 2 && decide (pageBlk p = some .pr) && off = 0x110 && val.testBit 1 && s.keyBarred .pr R.PR_CTRL_SAVE 1
  then s.saveErr (dieOf p - 0x12) else s

/-- A write as the page `p` carries it out: stageable fields wait while staging is open, the others act at once. -/
def State.pageWrite (s : State) (p off val be epoch : Nat) (own : Bool) (x : WrX) : State :=
  match s.writeCause p off val be epoch own with
  | some c => (s.reject p off c).saveBarred p off val c
  | none =>
    match pageBlk p with
    | none => s
    | some b =>
      let fs := touched b off be
      let later := fs.filter (s.stages b)
      let now := fs.filter fun f => !s.stages b f && !(stageable b f && s.overtaken p off)
      let s := if later.isEmpty then s else s.stageIn p off val epoch
      s.wordAct p b now off val be epoch x

/-! Hoops and the ring. -/

/-- A Hoop's endpoint serves BAR0: its boot has ended and it is not rebooting. -/
def State.serves (s : State) (h : Nat) : Bool :=
  decide (h < 2) && decide ((s.page (hpTop h)).up ≠ .never) && (s.hoop h).rebootAt.isNone

/-- A Hoop's transmitters are gated (R430). -/
def State.gated (s : State) (h : Nat) : Bool := decide (s.role h = roleFenced) || decide (s.role h = roleFailed)

/-- Where a Hoop's access to a page goes: its own die, another die that the ring joins, or the acting Hoop for the package pages. -/
def State.reaches (s : State) (h p : Nat) : Bool :=
  let d := dieOf p
  if d = held h then true
  else if s.gated h then false
  else if d = 0x1F then s.acting.elim false fun a => decide (a = h) || s.joined h (held a)
  else decide (20 ≤ d) || s.joined h d

/-- The epoch that a Hoop's writes carry (R50); lease commands carry the value of HP_LEASE_CMD.EPOCH (R428). -/
def State.writeEpoch (s : State) (h p off val : Nat) : Nat :=
  if p = hpTop h && off = 0x108 then val
  else if p = hpTop h && off = 0x10C then s.rd p R.HP_LEASE_CMD_EPOCH
  else s.hpEpoch h

/-- A new acting Hoop may not soft-reset another block, spare a laser or commit a calibration during OVERLAP (R435). -/
def State.overlapBars (s : State) (h p off : Nat) : Bool :=
  s.bit (hpTop h) R.HP_ROLE_OVERLAP && decide (dieOf p ≠ held h) &&
    match pageBlk p with
    | some .rdl => decide (off = R.RD_L_CTRL_SPARE.off)
    | some .wf => decide (off = R.WF_CAL_CTRL_COMMIT.off)
    | some .rd => decide (off = R.RD_CAL_CTRL_COMMIT.off)
    | _ => false

/-- The word that a Hoop sends during OVERLAP: PG_CTRL.SOFT_RESET of another block does not go out (R435). -/
def State.overlapWord (s : State) (h p off val : Nat) : Nat :=
  if s.bit (hpTop h) R.HP_ROLE_OVERLAP && decide (dieOf p ≠ held h) && decide (off = 8) && val.testBit 1 then val - 2 else val

/-- A write that a Hoop delivers to a page. -/
def State.deliver (s : State) (h p off val be epoch : Nat) (x : WrX) : State :=
  let s' := s.pageWrite p off val be epoch (decide (dieOf p = held h)) x
  if s.acts h && s.writeCause p off val be epoch (decide (dieOf p = held h)) = some 3 then s'.meetEpoch h (s.rd p R.PG_EPOCH_EPOCH) else s'

/-! Staging frames travel ahead of later accesses of the acting Hoop (R45, R65). -/

/-- The pages whose stage buffers a die holds; the acting Hoop's die holds those of the package pages. -/
def State.stagePages (s : State) (d : Nat) : List Nat :=
  diePages d ++ (if s.acting.any fun h => decide (held h = d) then [pkg0, pkg1, pkg2] else [])

/-- A die empties its stage buffers, frozen or not. -/
def State.dropStage (s : State) (d : Nat) : State :=
  let s := (s.stagePages d).foldl (fun (s : State) p => (s.setPage p { s.page p with stage := [] }).wb p R.PG_STATUS_STAGE_OVF false) s
  { s with com := { s.com with discard := s.com.discard.filter (· ≠ d), ahead := s.com.ahead.filter (· ≠ d), frozen := s.com.frozen.filter fun x => decide (x.1 ≠ d),
                               mark := s.com.mark.filter (· ≠ d), armed := s.com.armed.filter (· ≠ d) } }

/-- A die's answer to a prepare: 0 success, 1 OVERFLOW, 2 STALE_EPOCH (R66). -/
def State.stageAnswer (s : State) (d : Nat) : Nat :=
  let ps := s.stagePages d
  let cur := s.acting.elim 0 s.hpEpoch
  if ps.any fun p => s.bit p R.PG_STATUS_STAGE_OVF then 1
  else if ps.any fun p => (s.page p).stage.any fun e => decide (e.epoch < max cur (s.rd p R.PG_EPOCH_EPOCH)) then 2
  else 0

/-- Whether a die answers on the ring, whose interface is always on (R490): every die but a Hoop die that boots or reboots (R430). -/
def State.answers (s : State) (d : Nat) : Bool := !isHoop d || s.serves (d - 0x12)

/-- A die freezes its stage buffers and answers (R66). -/
def State.prepare (s : State) (d : Nat) : State :=
  let s := { s with com := { s.com with prep := s.com.prep.filter (· ≠ d) } }
  if s.answers d then
    { s with com := { s.com with frozen := (s.com.frozen.filter fun x => decide (x.1 ≠ d)) ++ [(d, s.clk.tick)],
                                 answers := s.com.answers ++ [(d, s.stageAnswer d)] } }
  else s

/-- A discard that travels to a die arrives, and with it a prepare that left ahead of it (R67). -/
def State.discardIn (s : State) (d : Nat) : State :=
  if s.com.discard.contains d then (if s.com.ahead.contains d && s.com.prep.contains d then s.prepare d else s).dropStage d else s

/-- What the acting Hoop sent to a die before a later access has arrived there. -/
def State.inOrder (s : State) (h d : Nat) : State :=
  if !s.acts h then s
  else
    let d := if d = 0x1F then held h else d
    let s := s.discardIn d
    if s.com.prep.contains d && (decide (d = held h) || s.joined h d) then s.prepare d else s

/-- A host write of one word through a Hoop's BAR0; one that cannot reach its die is lost. -/
def State.hostWrite (s : State) (h p off val be : Nat) (x : WrX) : State :=
  let off := off % 0x1000 / 4 * 4
  if !s.serves h || !s.reaches h p || s.overlapBars h p off then s
  else
    let s := s.inOrder h (dieOf p)
    let val := s.overlapWord h p off (val % 2 ^ 32)
    s.deliver h p off val (be % 16) (s.writeEpoch h p off val) x

/-! Reads (R43-R46). -/

/-- A field that a read holds: wider than a register, and no tag. -/
def Fld.multi (f : Fld) : Bool := decide (32 < f.w) && !isTag f

def PageSt.hold (x : PageSt) (h : Nat) : Option HoldReg := if h = 0 then x.hold0 else x.hold1
def PageSt.setHold (x : PageSt) (h : Nat) (r : HoldReg) : PageSt := if h = 0 then { x with hold0 := some r } else { x with hold1 := some r }

/-- Whether a read of the word at `off` shows registers (R55, R56). -/
def State.shows (s : State) (p off : Nat) : Bool :=
  decide ((s.page p).up ≠ .never) && decide (off < 0x800) && (decide (off < 0x100) || s.alive p)

/-- What a field reads through Hoop `h`: the held copy for a higher word of the field last read at its lowest word, else the live value. -/
def State.heldOr (s : State) (h p : Nat) (b : Blk) (off : Nat) (f : Fld) : Nat :=
  match (s.page p).hold h with
  | some r => if f.multi && decide (r.off = f.off) && decide (r.lo = f.lo) && decide (f.off < off) then r.val else s.live p b f % 2 ^ f.w
  | none => s.live p b f % 2 ^ f.w

/-- A read through Hoop `h`: the word, and the holding register it fills. -/
def State.busRead (s : State) (h p off : Nat) : State × Nat :=
  match pageBlk p with
  | none => (s, 0)
  | some b =>
    if s.shows p off then
      let fs := fieldsIn b off
      let w := fs.foldl (fun a f => a + f.partIn off (s.heldOr h p b off f)) 0
      match fs.find? fun f => f.multi && decide (f.off = off) with
      | some f => (s.setPage p ((s.page p).setHold h ⟨f.off, f.lo, s.live p b f % 2 ^ f.w⟩), w)
      | none => (s, w)
    else (s, s.readAt p off)

/-- FAULT_LOG_DATA read at its lowest word where the slot is uncorrectable (R458): bytes 8-15 read all ones. -/
def State.logUe (s : State) (h p off : Nat) (ue : Bool) : State :=
  if ue && pageBlk p = some .fault && decide (off = R.FAULT_LOG_DATA.off) && s.alive p then
    let s := s.raise p 1
    match (s.page p).hold h with
    | some r => s.setPage p ((s.page p).setHold h ⟨r.off, r.lo, r.val - bits r.val 64 64 * 2 ^ 64 + (2 ^ 64 - 1) * 2 ^ 64⟩)
    | none => s
  else s

/-- A word as the four bytes of a completion. -/
def cplBytes (v : Nat) : List Byte := (List.range 4).map fun i => BitVec.ofNat 8 (v / 256 ^ i)

/-- A host read of `len` bytes of one word through a Hoop's BAR0 (R43). -/
def State.hostRead (s : State) (h p at' len : Nat) (ue : Bool) : State :=
  let off := at' % 0x1000 / 4 * 4
  if !s.serves h || !s.reaches h p then s
  else
    let s := s.inOrder h (dieOf p)
    let x := s.busRead h p off
    (x.1.logUe h p off ue).complete ⟨h, (cplBytes x.2 |>.drop (at' % 4)).take len, false, false⟩

/-! Frames (R423). -/

def pairZero : Nat → TwPair := fun _ => {}

/-- One byte of CRC-16 with polynomial 0x1021, most significant bit first. -/
def crc16Byte (crc b : Nat) : Nat :=
  (List.range 8).foldl (fun c _ => if c.testBit 15 then (2 * c % 65536) ^^^ 0x1021 else 2 * c % 65536) (crc ^^^ 256 * b)

/-- The header of a WRITE or READ frame (Table 13-2): such a frame has no further word. -/
def twHeader (f : TwFrame) : Nat :=
  f.typ % 16 + f.src % 32 * 2 ^ 4 + f.dst % 32 * 2 ^ 9 + f.seq % 65536 * 2 ^ 14 + (f.page * 0x1000 + f.off % 0x1000) % 2 ^ 21 * 2 ^ 30
    + f.be % 16 * 2 ^ 51 + f.data % 2 ^ 32 * 2 ^ 55 + f.epoch % 2 ^ 32 * 2 ^ 87 + (if f.copy then 2 ^ 119 else 0)

/-- The CRC-16 of a frame (R422), over the header's bytes from the lowest up (DEDUCED, log entry 36). -/
def twSum (f : TwFrame) : Nat := ((List.range 16).map fun i => twHeader f / 256 ^ i % 256).foldl crc16Byte 0xFFFF

/-- Whether a frame's CRC is good. -/
def twGood (f : TwFrame) : Bool := decide (f.crc = twSum f)

/-- The frame with its CRC, as its sender sends it. -/
def twSealed (f : TwFrame) : TwFrame := { f with crc := twSum f }

/-- A frame is accepted: a WRITE acts, a READ sends its data back. -/
def State.takeFrame (s : State) (f : TwFrame) : State :=
  let h := f.src - 0x12
  let p := pg f.dst f.page
  let off := f.off % 0x1000 / 4 * 4
  let s := s.inOrder h f.dst
  if f.typ = 1 then s.deliver h p off (f.data % 2 ^ 32) (f.be % 16) f.epoch {}
  else
    let x := s.busRead h p off
    { x.1 with ring := { x.1.ring with resps := x.1.ring.resps ++ [⟨h, p, off, x.2⟩] } }

/-- Held frames that are now in order are accepted; `n` bounds how many. -/
def State.drainPair (s : State) (key : Nat) : Nat → State
  | 0 => s
  | n + 1 =>
    let x := look pairZero s.ring.pairs key
    match x.held.find? fun f => decide (f.seq % 65536 = x.next) with
    | none => s
    | some f =>
      let s := { s with ring := { s.ring with pairs := put pairZero s.ring.pairs key { x with next := (x.next + 1) % 65536, held := x.held.erase f, gapAt := s.clk.tick } } }
      (s.takeFrame f).drainPair key n

/-- A WRITE or READ frame arrives at its die: discarded if its CRC fails or it repeats, held if it is ahead of its turn. -/
def State.frame (s : State) (f : TwFrame) (typ : Nat) : State :=
  let h := f.src - 0x12
  let key := f.src * 32 + f.dst
  if !isHoop f.src || !decide (f.dst < 20) || f.src = f.dst || !s.answers f.dst then s
  else if !twGood f || decide (14 ≤ f.typ) then
    { s with ring := { s.ring with crcs := [0, 1].foldl (fun m i => put natZero m (i * 32 + f.dst) (look natZero m (i * 32 + f.dst) + 1)) s.ring.crcs } }
  else if f.typ ≠ typ || s.gated h || !s.joined h f.dst then s
  else
    let x := look pairZero s.ring.pairs key
    let q := f.seq % 65536
    if (q + 65536 - x.next) % 65536 < 32768 && !(x.held.any fun g => decide (g.seq % 65536 = q)) then
      let x := { x with held := x.held ++ [f], gapAt := if x.held.isEmpty then s.clk.tick else x.gapAt }
      let n := x.held.length
      ({ s with ring := { s.ring with pairs := put pairZero s.ring.pairs key x } }).drainPair key n
    else s

/-- TWINE_WRITE_FRAME (R423). -/
def execTwineWriteFrame (f : TwFrame) (s : State) : Host.Outcome State Fault Refusal := .next (s.frame f 1)

/-- TWINE_READ_FRAME (R423). -/
def execTwineReadFrame (f : TwFrame) (s : State) : Host.Outcome State Fault Refusal := .next (s.frame f 2)

/-- READ_RESP_FRAME (R423): the oldest read data on its way to a Hoop completes its read. -/
def execReadRespFrame (hoop : Nat) (s : State) : Host.Outcome State Fault Refusal :=
  .next (match s.ring.resps.find? fun r => decide (r.hoop = hoop) with
    | none => s
    | some r => ({ s with ring := { s.ring with resps := s.ring.resps.erase r } }).complete ⟨hoop, cplBytes r.data, false, false⟩)

/-- TWINE_GAP_SKIP (R423): the missing numbers are skipped and the held frames accepted in order. -/
def execTwineGapSkip (src dst : Nat) (s : State) : Host.Outcome State Fault Refusal :=
  let key := src * 32 + dst
  let x := look pairZero s.ring.pairs key
  .next (match x.held with
    | [] => s
    | f :: r =>
      let s := s.toTick (x.gapAt + 4 * usTicks)
      let dist (g : TwFrame) : Nat := (g.seq + 65536 - x.next) % 65536
      let first := r.foldl (fun a g => if dist g < dist a then g else a) f
      let s : State := match s.acting with
        | some h => (s.inc (hpTop h) R.HP_TWINE_LOSS).raise (hpTop h) 9
        | none => s
      let s := { s with ring := { s.ring with pairs := put pairZero s.ring.pairs key { x with next := first.seq % 65536, gapAt := s.clk.tick } } }
      s.drainPair key x.held.length)

/-- MULTIWORD_LOW_READ (R43, R44): a read of `len` bytes through BAR0, a longer one than a word as two accesses, low word first; `ue`: the fault log's
slot is uncorrectable. -/
def execMultiwordLowRead (hoop page off len : Nat) (ue : Bool) (s : State) : Host.Outcome State Fault Refusal :=
  .next (let s := s.hostRead hoop page off (min 4 len) ue
    if 4 < len then s.hostRead hoop page (off + 4) (min 4 (len - 4)) ue else s)

/-- NO_ANSWER (R46): the die has not answered within 1.5 µs. -/
def execNoAnswer (hoop page off : Nat) (s : State) : Host.Outcome State Fault Refusal :=
  .next (if s.serves hoop then
    let s := s.toTick (s.clk.tick + 150)
    let s := { s with ring := { s.ring with resps := s.ring.resps.filter fun r => !(decide (r.hoop = hoop) && decide (r.page = page)) } }
    (s.reject page (off % 0x1000 / 4 * 4) 7).complete ⟨hoop, cplBytes 0xFFFFFFFF, false, false⟩
  else s)

/-- BAR0_WRITE (R43, R51): a write of one word through a Hoop's BAR0, or of two, low word first; `be` are the byte enables of the eight bytes. -/
def execBar0Write (hoop page off val be : Nat) (s : State) : Host.Outcome State Fault Refusal :=
  .next (if be / 16 % 16 = 0 then s.hostWrite hoop page off val be {}
    else
      let s := if be % 16 = 0 then s else s.hostWrite hoop page off val be {}
      s.hostWrite hoop page (off + 4) (val / 2 ^ 32) (be / 16) {})

/-! The end of a DMA descriptor (R485). -/

/-- DMA_COMPLETE (R485): the descriptor in progress ends. `data` is what the host supplied for a transfer into the package, `poi` whether its
TLPs were poisoned; `err` is 1 for a completion timeout and 2 for UR or CA, after `moved` bytes; `hits` are errors of the lines read and `stk` one of
the first granule's entry. EVTEN is a write of OS_EVT_ADD, under the Hoop's epoch and through its gate like any other. -/
def State.dmaComplete (s : State) (h c : Nat) (data : List Byte) (poi : Bool) (err moved : Nat) (hits : List EccHit) (stk : Option Bool) : State :=
  match (s.dma h c).active with
  | none => s
  | some d =>
    let p := pciePg h
    let out := decide (bits (d.getD 2 0) 32 1 = 1)
    let len := if err = 0 then bits (d.getD 2 0) 0 32 / 8 * 8 else min moved (bits (d.getD 2 0) 0 32) / 8 * 8
    let bytes := (wordsOf data (len / 8)).flatMap fun w => (List.range 8).map fun i => BitVec.ofNat 8 (w / 256 ^ i)
    let r := s.hostRun ⟨d.getD 1 0 / 8 * 8, len, !out, bytes, poi, hits, stk == some true⟩ stk
    if err ≠ 0 then
      let s := (r.1.addWrap p R.PCIE_DMA_BYTES r.2.moved).dmaStop h c 2 r.2.moved true
      if err = 1 then s.raise p 5 else s
    else
      let s : State := if out then
          { r.1 with out := { r.1.out with hostWr := r.1.out.hostWr ++ [⟨h, d.getD 0 0 / 8 * 8, r.2.data, r.2.poi⟩] } }
        else r.1
      let status := if r.2.refused then 1 else if (if out then r.2.poi else poi) then 3 else 0
      let s := (s.addWrap p R.PCIE_DMA_BYTES r.2.moved).setDma h c {}
      let s := s.sqCons h c false false true
      let w2 := d.getD 2 0
      let s := if bits w2 33 1 = 1 then
          (List.range 8).foldl (fun s k =>
            if (bits w2 38 8).testBit k then s.hostWrite h (osTop k) R.OS_EVT_ADD_CNT.off (bits w2 34 4 + 2 ^ 16) 15 {} else s) s
        else s
      s.dmaRecord h d status r.2.moved
def execDmaComplete (hoop chan : Nat) (data : List Byte) (poi : Bool) (err moved : Nat) (hits : List EccHit) (stk : Option Bool) (s : State) :
    Host.Outcome State Fault Refusal :=
  .next (if chan < 8 && s.sqOk hoop chan then s.dmaComplete hoop chan data poi err moved hits stk else s)

end Sys2Proof.Machine
end

