-- ==== Sys2Proof/Machine/Rows.lean ====
section
/-! DEFINITION. The register writes that have a row of their own: each is a host write of its register, refused and staged as any other
(R51-R57, R65); what its fields then do is in Access.lean. `val` is the word written; a row that names one request sets that request's bit. -/

namespace Sys2Proof.Machine
open Sys2Proof

/-- A host write of register `off` of a page of kind `b`; a page of another kind has no such register (log entry 6). -/
def State.rowWrite (s : State) (hoop page : Nat) (b : Blk) (off val : Nat) (x : WrX) : State :=
  if pageBlk page = some b then s.hostWrite hoop page off val 15 x else s

/-- KEY_UNLOCK (R53): PG_CTRL is written. -/
def execKeyUnlock (hoop page val : Nat) (s : State) : Host.Outcome State Fault Refusal := .next (s.hostWrite hoop page 8 val 15 {})

/-- SOFT_RESET (R554): PG_CTRL is written with SOFT_RESET 1. -/
def execSoftReset (hoop page val : Nat) (s : State) : Host.Outcome State Fault Refusal := .next (s.hostWrite hoop page 8 (val ||| 2) 15 {})

/-- FSTAT_CLEAR (R448): PG_FSTAT is written. -/
def execFstatClear (hoop page val : Nat) (s : State) : Host.Outcome State Fault Refusal := .next (s.hostWrite hoop page 0x10 val 15 {})

/-- SB_COUNTER_CLEAR (R420): SB_CNT_CLR of a sub-link, or of the common page. -/
def execSbCounterClear (hoop page val : Nat) (s : State) : Host.Outcome State Fault Refusal :=
  .next (if pageBlk page = some .sb then s.hostWrite hoop page 0x12C (val ||| 1) 15 {} else s.rowWrite hoop page .sbk 0x174 (val ||| 1) {})

/-- SNAPSHOT_REQUEST (R60). -/
def execSnapshotRequest (hoop val : Nat) (s : State) : Host.Outcome State Fault Refusal :=
  .next (s.rowWrite hoop pkg0 .pkg0 0x110 (val ||| 1) {})

/-- STAGE_OPEN (R65). -/
def execStageOpen (hoop : Nat) (s : State) : Host.Outcome State Fault Refusal :=
  .next (s.rowWrite hoop pkg0 .pkg0 0x120 1 {})

/-- STAGE_CLOSE (R67). -/
def execStageClose (hoop : Nat) (s : State) : Host.Outcome State Fault Refusal :=
  .next (s.rowWrite hoop pkg0 .pkg0 0x120 0 {})

/-- COMMIT (R66). -/
def execCommit (hoop val : Nat) (s : State) : Host.Outcome State Fault Refusal :=
  .next (s.rowWrite hoop pkg0 .pkg0 0x120 (val ||| 2) {})

/-- TAG_SAVE (R59). -/
def execTagSave (hoop val : Nat) (s : State) : Host.Outcome State Fault Refusal :=
  .next (s.rowWrite hoop pkg1 .pkg1 0x200 (val ||| 1) {})

/-- TILE_ENABLE (R109). -/
def execTileEnable (hoop page val : Nat) (s : State) : Host.Outcome State Fault Refusal :=
  .next (s.rowWrite hoop page .tg 0x100 val {})

/-- ACC_MODE_WRITE (R96). -/
def execAccModeWrite (hoop page val : Nat) (s : State) : Host.Outcome State Fault Refusal :=
  .next (s.rowWrite hoop page .tg 0x104 val {})

/-- TILE_ZERO (R110). -/
def execTileZero (hoop page val : Nat) (s : State) : Host.Outcome State Fault Refusal :=
  .next (s.rowWrite hoop page .tg 0x118 val {})

/-- TG_COUNTER_CLEAR (R109). -/
def execTgCounterClear (hoop page val : Nat) (s : State) : Host.Outcome State Fault Refusal :=
  .next (s.rowWrite hoop page .tg 0x130 (val ||| 1) {})

/-- PROGRAM_ARM (R216). -/
def execProgramArm (hoop page val : Nat) (s : State) : Host.Outcome State Fault Refusal :=
  .next (s.rowWrite hoop page .os 0x104 (val ||| 1) {})

/-- PROGRAM_LOADED (R217). -/
def execProgramLoaded (hoop page val : Nat) (s : State) : Host.Outcome State Fault Refusal :=
  .next (s.rowWrite hoop page .os 0x104 (val ||| 4) {})

/-- PROGRAM_STOP (R219). -/
def execProgramStop (hoop page val : Nat) (s : State) : Host.Outcome State Fault Refusal :=
  .next (s.rowWrite hoop page .os 0x104 (val ||| 2) {})

/-- TABLE_WRITE (R230). -/
def execTableWrite (hoop page val : Nat) (s : State) : Host.Outcome State Fault Refusal :=
  .next (s.rowWrite hoop page .os 0x150 val {})

/-- EVENT_DOORBELL (R209). -/
def execEventDoorbell (hoop page val : Nat) (s : State) : Host.Outcome State Fault Refusal :=
  .next (s.rowWrite hoop page .os 0x154 val {})

/-- OS_COUNTER_CLEAR (R230). -/
def execOsCounterClear (hoop page val : Nat) (s : State) : Host.Outcome State Fault Refusal :=
  .next (s.rowWrite hoop page .os 0x170 (val ||| 1) {})

/-- STAKE_WRITE (R257). -/
def execStakeWrite (hoop page val : Nat) (s : State) : Host.Outcome State Fault Refusal :=
  .next (s.rowWrite hoop page .st 0x184 val {})

/-- ST_SCHED_WRITE (R269). -/
def execStSchedWrite (hoop page val : Nat) (s : State) : Host.Outcome State Fault Refusal :=
  .next (s.rowWrite hoop page .st 0x10C val {})

/-- ST_COUNTER_CLEAR (R269). -/
def execStCounterClear (hoop page val : Nat) (s : State) : Host.Outcome State Fault Refusal :=
  .next (s.rowWrite hoop page .st 0x134 (val ||| 1) {})

/-- MC_COUNTER_CLEAR (R268). -/
def execMcCounterClear (hoop page val : Nat) (s : State) : Host.Outcome State Fault Refusal :=
  .next (s.rowWrite hoop page .mc 0x128 (val ||| 1) {})

/-- RANK_TABLE_WRITE (R286). -/
def execRankTableWrite (hoop page val : Nat) (s : State) : Host.Outcome State Fault Refusal :=
  .next (s.rowWrite hoop page .ce 0x110 val {})

/-- CE_SCHED_WRITE (R298). -/
def execCeSchedWrite (hoop page val : Nat) (s : State) : Host.Outcome State Fault Refusal :=
  .next (s.rowWrite hoop page .ce 0x108 val {})

/-- CE_COUNTER_CLEAR (R298). -/
def execCeCounterClear (hoop page val : Nat) (s : State) : Host.Outcome State Fault Refusal :=
  .next (s.rowWrite hoop page .ce 0x134 (val ||| 1) {})

/-- PKG_TIME_ARM (R305). -/
def execPkgTimeArm (hoop val : Nat) (s : State) : Host.Outcome State Fault Refusal :=
  .next (s.rowWrite hoop pkg2 .pkg2 0x108 (val ||| 1) {})

/-- DLAT_ACK (R328). -/
def execDlatAck (hoop page val : Nat) (s : State) : Host.Outcome State Fault Refusal :=
  .next (s.rowWrite hoop page .st 0x154 (val ||| 1) {})

/-- BREAKPOINT_RELEASE (R322). -/
def execBreakpointRelease (hoop val : Nat) (s : State) : Host.Outcome State Fault Refusal :=
  .next (s.rowWrite hoop pkg2 .pkg2 0x14C (val ||| 1) {})

/-- RETRAIN (R341). -/
def execRetrain (hoop page val : Nat) (s : State) : Host.Outcome State Fault Refusal :=
  .next (s.rowWrite hoop page .wl 0x100 (val ||| 1) {})

/-- HOLD_REQ (R341). -/
def execHoldReq (hoop page val : Nat) (s : State) : Host.Outcome State Fault Refusal :=
  .next (s.rowWrite hoop page .wl 0x100 (val ||| 0x10) {})

/-- REPAIR_WRITE (R353). -/
def execRepairWrite (hoop page val : Nat) (s : State) : Host.Outcome State Fault Refusal :=
  .next (s.rowWrite hoop page .wl 0x110 val {})

/-- WL_COUNTER_CLEAR (R353). -/
def execWlCounterClear (hoop page val : Nat) (s : State) : Host.Outcome State Fault Refusal :=
  .next (s.rowWrite hoop page .wl 0x164 (val ||| 1) {})

/-- PLANE_ENABLE (R356). -/
def execPlaneEnable (hoop page val : Nat) (s : State) : Host.Outcome State Fault Refusal :=
  .next (s.rowWrite hoop page .wf 0x104 val {})

/-- FIB_SLIP (R360). -/
def execFibSlip (hoop page val : Nat) (s : State) : Host.Outcome State Fault Refusal :=
  .next (s.rowWrite hoop page .fib 0x108 val {})

/-- REACQ_TX (R364). -/
def execReacqTx (hoop page val : Nat) (s : State) : Host.Outcome State Fault Refusal :=
  .next (s.rowWrite hoop page .fib 0x10C val {})

/-- REACQ_RX (R364). -/
def execReacqRx (hoop page val : Nat) (s : State) : Host.Outcome State Fault Refusal :=
  .next (s.rowWrite hoop page .fib 0x10C val {})

/-- CAL_COMMIT (R370). -/
def execCalCommit (hoop page val : Nat) (ecc : Option Bool) (s : State) :
    Host.Outcome State Fault Refusal :=
  .next (s.rowWrite hoop page .wf 0x108 (val ||| 1)
    { ue := ecc == some true, ce := ecc == some false })

/-- RD_CAL_COMMIT (R370). -/
def execRdCalCommit (hoop page val : Nat) (s : State) : Host.Outcome State Fault Refusal :=
  .next (s.rowWrite hoop page .rd 0x110 (val ||| 1) {})

/-- RECAL (R372). -/
def execRecal (hoop page val : Nat) (s : State) : Host.Outcome State Fault Refusal :=
  .next (s.rowWrite hoop page .rd 0x110 (val ||| 2) {})

/-- LASER_ON_WRITE (R376). -/
def execLaserOnWrite (hoop page val : Nat) (s : State) : Host.Outcome State Fault Refusal :=
  .next (s.rowWrite hoop page .rdl 0x100 val {})

/-- ALL_OFF (R383). -/
def execAllOff (hoop page val : Nat) (s : State) : Host.Outcome State Fault Refusal :=
  .next (s.rowWrite hoop page .rd 0x104 (val ||| 4) {})

/-- SPARE (R379). -/
def execSpare (hoop page val : Nat) (s : State) : Host.Outcome State Fault Refusal :=
  .next (s.rowWrite hoop page .rdl 0x100 (val ||| 2) {})

/-- FIB_COUNTER_CLEAR (R382). -/
def execFibCounterClear (hoop page val : Nat) (s : State) : Host.Outcome State Fault Refusal :=
  .next (s.rowWrite hoop page .fib 0x13C (val ||| 1) {})

/-- SEBER_ENABLE (R391). -/
def execSeberEnable (hoop page val : Nat) (s : State) : Host.Outcome State Fault Refusal :=
  .next (s.rowWrite hoop page .sb 0x100 val {})

/-- SB_DRAIN (R391). -/
def execSbDrain (hoop page val : Nat) (s : State) : Host.Outcome State Fault Refusal :=
  .next (s.rowWrite hoop page .sbk 0x100 (val ||| 2) {})

/-- SB_RESET (R391). -/
def execSbReset (hoop page val : Nat) (s : State) : Host.Outcome State Fault Refusal :=
  .next (s.rowWrite hoop page .sbk 0x100 (val ||| 1) {})

/-- SB_LANE_DROP (R409). -/
def execSbLaneDrop (hoop page val : Nat) (s : State) : Host.Outcome State Fault Refusal :=
  .next (s.rowWrite hoop page .sbk 0x16C (val ||| 1) {})

/-- SB_LANE_RETURN_WRITE (R413). -/
def execSbLaneReturnWrite (hoop page val : Nat) (s : State) : Host.Outcome State Fault Refusal :=
  .next (s.rowWrite hoop page .sbk 0x16C (val ||| 2) {})

/-- LEASE_GRANT (R429). -/
def execLeaseGrant (hoop : Nat) (s : State) : Host.Outcome State Fault Refusal :=
  .next (s.rowWrite hoop (hpTop hoop) .hp 0x10C 1 {})

/-- LEASE_RENEW (R429). -/
def execLeaseRenew (hoop : Nat) (s : State) : Host.Outcome State Fault Refusal :=
  .next (s.rowWrite hoop (hpTop hoop) .hp 0x10C 2 {})

/-- LEASE_STANDBY (R429). -/
def execLeaseStandby (hoop : Nat) (s : State) : Host.Outcome State Fault Refusal :=
  .next (s.rowWrite hoop (hpTop hoop) .hp 0x10C 3 {})

/-- WDOG_KICK (R440). -/
def execWdogKick (hoop page val : Nat) (s : State) : Host.Outcome State Fault Refusal :=
  .next (s.rowWrite hoop page .hp 0x128 (val ||| 1) {})

/-- MIRROR_RESYNC (R446). -/
def execMirrorResync (hoop page val : Nat) (s : State) : Host.Outcome State Fault Refusal :=
  .next (s.rowWrite hoop page .hp 0x134 (val ||| 1) {})

/-- HP_COUNTER_CLEAR (R446). -/
def execHpCounterClear (hoop page val : Nat) (s : State) : Host.Outcome State Fault Refusal :=
  .next (s.rowWrite hoop page .hp 0x148 (val ||| 1) {})

/-- FAULT_ACK (R456). -/
def execFaultAck (hoop page val : Nat) (s : State) : Host.Outcome State Fault Refusal :=
  .next (s.rowWrite hoop page .fault 0x140 (val ||| 0x80000000) {})

/-- FAULT_INT_CLEAR (R459). -/
def execFaultIntClear (hoop page val : Nat) (s : State) : Host.Outcome State Fault Refusal :=
  .next (s.rowWrite hoop page .fault 0x148 (val ||| 1) {})

/-- FAULT_PIN_CLEAR (R460). -/
def execFaultPinClear (hoop page val : Nat) (s : State) : Host.Outcome State Fault Refusal :=
  .next (s.rowWrite hoop page .fault 0x14C (val ||| 1) {})

/-- FAULT_COAL_WRITE (R448). -/
def execFaultCoalWrite (hoop page val : Nat) (s : State) : Host.Outcome State Fault Refusal :=
  .next (s.rowWrite hoop page .fault 0x104 val {})

/-- CRASH_LOG_CLEAR (R464). -/
def execCrashLogClear (hoop page val : Nat) (s : State) : Host.Outcome State Fault Refusal :=
  .next (s.rowWrite hoop page .fault 0x154 (val ||| 0x10000) {})

/-- FAULT_COUNTER_CLEAR (R464). -/
def execFaultCounterClear (hoop page val : Nat) (s : State) : Host.Outcome State Fault Refusal :=
  .next (s.rowWrite hoop page .fault 0x158 (val ||| 1) {})

/-- PCIE_WIN_WRITE (R468). -/
def execPcieWinWrite (hoop page val : Nat) (s : State) : Host.Outcome State Fault Refusal :=
  .next (s.rowWrite hoop page .pcie 0x108 val {})

/-- SQ_MARK (R480). -/
def execSqMark (hoop page val : Nat) (s : State) : Host.Outcome State Fault Refusal :=
  .next (s.rowWrite hoop page .sq 0x114 (val ||| 1) {})

/-- SQ_REWIND (R480). -/
def execSqRewind (hoop page val : Nat) (s : State) : Host.Outcome State Fault Refusal :=
  .next (s.rowWrite hoop page .sq 0x114 (val ||| 2) {})

/-- SQ_RELEASE (R480). -/
def execSqRelease (hoop page val : Nat) (s : State) : Host.Outcome State Fault Refusal :=
  .next (s.rowWrite hoop page .sq 0x114 (val ||| 4) {})

/-- WM_HIT_CLEAR (R482). -/
def execWmHitClear (hoop page val : Nat) (s : State) : Host.Outcome State Fault Refusal :=
  .next (s.rowWrite hoop page .sq 0x108 (val ||| 1) {})

/-- SQ_FLUSH (R483). -/
def execSqFlush (hoop page val : Nat) (s : State) : Host.Outcome State Fault Refusal :=
  .next (s.rowWrite hoop page .sq 0x118 (val ||| 1) {})

/-- SQ_RESET (R483). -/
def execSqReset (hoop page val : Nat) (s : State) : Host.Outcome State Fault Refusal :=
  .next (s.rowWrite hoop page .sq 0x118 (val ||| 2) {})

/-- SQ_COUNTER_CLEAR (R488). -/
def execSqCounterClear (hoop page val : Nat) (s : State) : Host.Outcome State Fault Refusal :=
  .next (s.rowWrite hoop page .sq 0x140 (val ||| 1) {})

/-- DMA_RESTART (R485). -/
def execDmaRestart (hoop page val : Nat) (s : State) : Host.Outcome State Fault Refusal :=
  .next (s.rowWrite hoop page .pcie 0x110 val {})

/-- DMA_ENABLE (R485). -/
def execDmaEnable (hoop page val : Nat) (s : State) : Host.Outcome State Fault Refusal :=
  .next (s.rowWrite hoop page .pcie 0x110 val {})

/-- HUABEL_NEXT_WRITE (R486). -/
def execHuabelNextWrite (hoop page val : Nat) (s : State) : Host.Outcome State Fault Refusal :=
  .next (s.rowWrite hoop page .pcie 0x10C val {})

/-- PCIE_COUNTER_CLEAR (R487). -/
def execPcieCounterClear (hoop page val : Nat) (s : State) : Host.Outcome State Fault Refusal :=
  .next (s.rowWrite hoop page .pcie 0x138 (val ||| 1) {})

/-- SENSOR_FORCE_SET (R499). -/
def execSensorForceSet (hoop page val : Nat) (s : State) : Host.Outcome State Fault Refusal :=
  .next (s.rowWrite hoop page .th 0x11C (val ||| 0x100) {})

/-- SENSOR_FORCE_CLR (R499). -/
def execSensorForceClr (hoop page val : Nat) (s : State) : Host.Outcome State Fault Refusal :=
  .next (s.rowWrite hoop page .th 0x11C (val ||| 0x200) {})

/-- SAFE_CLEAR (R504). -/
def execSafeClear (hoop page val : Nat) (s : State) : Host.Outcome State Fault Refusal :=
  .next (s.rowWrite hoop page .th 0x1A0 (val ||| 0x200) {})

/-- DRIVER_LIMIT_WRITE (R195). -/
def execDriverLimitWrite (hoop page val : Nat) (s : State) : Host.Outcome State Fault Refusal :=
  .next (s.rowWrite hoop page .th 0x190 val {})

/-- AGE_LOG_CLEAR (R513). -/
def execAgeLogClear (hoop page val : Nat) (s : State) : Host.Outcome State Fault Refusal :=
  .next (s.rowWrite hoop page .age 0x184 (val ||| 0x1000000) {})

/-- TH_COUNTER_CLEAR (R512). -/
def execThCounterClear (hoop page val : Nat) (s : State) : Host.Outcome State Fault Refusal :=
  .next (s.rowWrite hoop page .th 0x1AC (val ||| 1) {})

/-- START_GO (R515). -/
def execStartGo (hoop val : Nat) (s : State) : Host.Outcome State Fault Refusal :=
  .next (s.rowWrite hoop pkg0 .pkg0 0x140 (val ||| 1) {})

/-- PROFILE_STAGING_LOAD (R536). -/
def execProfileStagingLoad (hoop page val : Nat) (s : State) : Host.Outcome State Fault Refusal :=
  .next (s.rowWrite hoop page .pr 0x110 (val ||| 1) {})

/-- PROFILE_SAVE (R526). -/
def execProfileSave (hoop page val : Nat) (s : State) : Host.Outcome State Fault Refusal :=
  .next (s.rowWrite hoop page .pr 0x110 (val ||| 2) {})

/-- KEY_PROGRAM (R529). -/
def execKeyProgram (hoop page val : Nat) (ok : Bool) (s : State) : Host.Outcome State Fault Refusal :=
  .next (s.rowWrite hoop page .sec 0x10C (val ||| 1) { ok0 := ok })

/-- KEY_REVOKE (R529). -/
def execKeyRevoke (hoop page val : Nat) (ok : Bool) (s : State) : Host.Outcome State Fault Refusal :=
  .next (s.rowWrite hoop page .sec 0x10C val { ok0 := ok })

/-- LIFECYCLE_REQUEST (R530). -/
def execLifecycleRequest (hoop page val : Nat) (owner ok0 ok1 : Bool) (s : State) : Host.Outcome State Fault Refusal :=
  .next (s.rowWrite hoop page .sec 0x100 val { owner := owner, ok0 := ok0, ok1 := ok1 })

/-- DEBUG_REQUEST (R531). -/
def execDebugRequest (hoop page val : Nat) (s : State) : Host.Outcome State Fault Refusal :=
  .next (s.rowWrite hoop page .sec 0x140 val {})

/-- DEBUG_RESPONSE (R531). -/
def execDebugResponse (hoop page val : Nat) (good : Bool) (s : State) : Host.Outcome State Fault Refusal :=
  .next (s.rowWrite hoop page .sec 0x1DC val { good := good })

/-- JTAG_SKIP (R534). -/
def execJtagSkip (hoop page val : Nat) (s : State) : Host.Outcome State Fault Refusal :=
  .next (s.rowWrite hoop page .sec 0x1E0 val {})

end Sys2Proof.Machine
end

