-- ==== Sys2Proof/Machine/Commits.lean ====
section
/-! DEFINITION. Snapshots (R60-R64) and staged commits (R65-R69) after their requests. -/

namespace Sys2Proof.Machine
open Sys2Proof

/-! Snapshots. -/

/-- The shadow of a page: the words of offsets 0x000-0x7FC that are not 0 (R60, R63). -/
def State.shadowOf (s : State) (p : Nat) : List (Nat × Nat) :=
  (List.range 512).filterMap fun i => let v := s.readAt p (4 * i); if v = 0 then none else some (4 * i, v)

/-- A die copies its pages into their shadow windows and sets PG_SNAP; the acting Hoop's die also copies the package pages. -/
def State.latchDie (s : State) (d seq : Nat) (late : Bool) : State :=
  (s.stagePages d).foldl (fun (t : State) p =>
    let t := t.setPage p { t.page p with shadow := s.shadowOf p }
    ((t.wr p R.PG_SNAP_SEQ seq).wb p R.PG_SNAP_LATE late).wb p R.PG_SNAP_VALID true) s

def State.setSnap (s : State) (h : Nat) (r : Option SnapRun) : State := { s with snaps := put (fun _ => none) s.snaps h r }

/-- SNAP_FRAME (R61): a die receives the target tick, and latches at once, late, if that tick has begun. -/
def execSnapFrame (die hoop : Nat) (s : State) : Host.Outcome State Fault Refusal :=
  .next (match s.snapRun hoop with
    | none => s
    | some r =>
      if !r.sent.contains die then s
      else
        let r := { r with sent := r.sent.filter (· ≠ die) }
        if !s.answers die || !(decide (die = held hoop) || s.joined hoop die) then s.setSnap hoop (some r)
        else if r.target ≤ s.clk.tick then (s.latchDie die r.seq true).setSnap hoop (some { r with done := r.done ++ [die], late := true })
        else s.setSnap hoop (some { r with holds := r.holds ++ [die] }))

/-- Every die that holds the target tick latches and reports. -/
def State.latchAll (s : State) (hoop : Nat) (r : SnapRun) : State :=
  (r.holds.foldl (fun (s : State) d => s.latchDie d r.seq false) s).setSnap hoop (some { r with holds := [], done := r.done ++ r.holds })

/-- SNAPSHOT_LATCH (R60): the target tick begins, and every die that holds it latches and reports. -/
def execSnapshotLatch (hoop : Nat) (s : State) : Host.Outcome State Fault Refusal :=
  .next (match s.snapRun hoop with
    | none => s
    | some r => (s.toTick r.target).latchAll hoop r)

/-- A snapshot of Hoop `h` whose target tick has begun latches before a commit applies (R69). -/
def State.latchDue (s : State) (h : Nat) : State :=
  match s.snapRun h with
  | none => s
  | some r => if r.target ≤ s.clk.tick then s.latchAll h r else s

/-- The acting Hoop completes a snapshot (R60-R62): PKG_SNAP_STAT, PKG_SNAP_TICK and the dies that did not report. -/
def State.snapDone (s : State) (h : Nat) (r : SnapRun) : State :=
  let missing := allDies.filter fun d => !r.done.contains d
  let s := s.wr pkg0 R.PKG_SNAP_MISS (missing.foldl (fun a d => a + 2 ^ d) 0)
  let s := (s.wb pkg0 R.PKG_SNAP_STAT_MISSING (!missing.isEmpty)).wr pkg0 R.PKG_SNAP_STAT_SEQ r.seq
  let s := s.wb pkg0 R.PKG_SNAP_STAT_LATE r.late
  let s := if r.late then s.inc pkg0 R.PKG_SNAP_STAT_LATE_CNT else s
  ((s.wr pkg0 R.PKG_SNAP_TICK (r.target - s.clk.base)).wb pkg0 R.PKG_SNAP_CTRL_BUSY false).setSnap h none

/-- SNAPSHOT_COMPLETE (R60): every die has reported. -/
def execSnapshotComplete (hoop : Nat) (s : State) : Host.Outcome State Fault Refusal :=
  .next (match s.snapRun hoop with
    | none => s
    | some r => if s.acts hoop && allDies.all r.done.contains then s.snapDone hoop r else s)

/-- SNAPSHOT_TIMEOUT (R62): 1 ms after the target tick. -/
def execSnapshotTimeout (hoop : Nat) (s : State) : Host.Outcome State Fault Refusal :=
  .next (match s.snapRun hoop with
    | none => s
    | some r => if s.acts hoop && !allDies.all r.done.contains then (s.toTick (r.target + 100000)).snapDone hoop r else s)

/-! Staged commits. -/

/-- PREPARE (R66). -/
def execPrepare (die : Nat) (s : State) : Host.Outcome State Fault Refusal :=
  .next (if s.com.prep.contains die then
    if s.acting.any fun h => decide (held h = die) || s.joined h die then
      (if s.com.ahead.contains die then s else s.discardIn die).prepare die
    else { s with com := { s.com with prep := s.com.prep.filter (· ≠ die) } }
  else s)

/-- What a die answered to the prepare; 3, ACK_TIMEOUT, where it has not. -/
def State.answerOf (s : State) (d : Nat) : Nat :=
  match s.com.taken.find? fun a => decide (a.1 = d) with
  | some a => a.2
  | none => 3

/-- Every die has answered, or the time is up (R66, R67): success is marked, else the lowest die that failed or was silent is reported. -/
def State.judge (s : State) : State :=
  match allDies.find? fun d => decide (s.answerOf d ≠ 0) with
  | some d => s.stageFail d (s.answerOf d)
  | none =>
    let s := s.wr pkg0 R.PKG_STAGE_STAT_STATE stMarked
    { s with com := { s.com with mark := allDies, markAt := s.clk.tick } }

/-- STAGE_ANS (R66, R67): the acting Hoop takes a die's answer. -/
def execStageAns (die : Nat) (s : State) : Host.Outcome State Fault Refusal :=
  .next (match s.com.answers.find? fun a => decide (a.1 = die) with
    | none => s
    | some a =>
      let s := { s with com := { s.com with answers := s.com.answers.erase a, taken := s.com.taken ++ [a] } }
      if s.acting.isSome && decide (s.stageSt = stPrep) && allDies.all fun d => s.com.taken.any fun x => decide (x.1 = d) then s.judge else s)

/-- COMMIT_ACK_TIMEOUT (R67): 100 µs after the prepare. -/
def execCommitAckTimeout (s : State) : Host.Outcome State Fault Refusal :=
  .next (if s.acting.isSome && decide (s.stageSt = stPrep) && !allDies.all fun d => s.com.taken.any fun x => decide (x.1 = d) then
    (s.toTick (s.com.at' + 100 * usTicks)).judge
  else s)

/-- COMMIT_MARK (R66): a die receives the mark on the cadence tree, and ignores it if its epoch is old (R444). -/
def execCommitMark (die : Nat) (s : State) : Host.Outcome State Fault Refusal :=
  .next (if s.com.mark.contains die then
    let s := { s with com := { s.com with mark := s.com.mark.filter (· ≠ die) } }
    let epoch := s.acting.elim 0 s.hpEpoch
    if look natZero s.cad.epochs die ≤ epoch && s.com.frozen.any fun x => decide (x.1 = die) then
      { s with com := { s.com with armed := s.com.armed ++ [die] } }
    else s
  else s)

/-- A page applies its entries in the order written; registers of a block that is down take none (R56). -/
def State.applyPage (s : State) (p : Nat) : State :=
  match pageBlk p with
  | none => s
  | some b => (s.page p).stage.foldl (fun (s : State) e =>
      if e.off < 0x100 || s.alive p then
        s.wordAct p b ((touched b e.off 15).filter (stageable b)) e.off e.val.toNat 15 e.epoch { staged := true }
      else s) s

/-- COMMIT_APPLY (R66, R69, R348): the first frame boundary after the mark. -/
def execCommitApply (s : State) : Host.Outcome State Fault Refusal :=
  .next (if decide (s.stageSt = stMarked) && s.com.mark.isEmpty && !s.com.armed.isEmpty then
    let s := [0, 1].foldl State.latchDue s.toFrame
    let dies := s.com.armed
    let words := dies.flatMap fun d => (s.stagePages d).flatMap fun p => (s.page p).stage.map fun e => (p, e.off)
    let s := dies.foldl (fun (s : State) d => (s.stagePages d).foldl State.applyPage s) s
    let s := dies.foldl State.dropStage s
    let s := s.stageIdle.wb pkg0 R.PKG_STAGE_STAT_DONE true
    ({ s with com := { s.com with boundary := s.clk.frame, applied := words } }).addWrap pkg0 R.PKG_STAGE_STAT_COMMIT_SEQ 1
  else s)

/-- STAGE_DISCARD (R67, R555): a die receives a discard. -/
def execStageDiscard (die : Nat) (s : State) : Host.Outcome State Fault Refusal :=
  .next (if s.com.discard.contains die then
    if s.answers die && s.acting.any fun h => decide (held h = die) || s.joined h die then s.discardIn die
    else { s with com := { s.com with discard := s.com.discard.filter (· ≠ die) } }
  else s)

/-- FROZEN_BUFFER_TIMEOUT (R67): 1 ms frozen without a mark. -/
def execFrozenBufferTimeout (die : Nat) (s : State) : Host.Outcome State Fault Refusal :=
  .next (match s.com.frozen.find? fun x => decide (x.1 = die) with
    | none => s
    | some x => if s.com.armed.contains die then s else (s.toTick (x.2 + msTicks)).dropStage die)

end Sys2Proof.Machine
end

