-- ==== Sys2Proof/Machine/LoadStore.lean ====
section
/-! DEFINITION. The load/store slot (R130-R133) and the mesh slot (R134-R138). -/

namespace Sys2Proof.Machine

/-- The present bundle's LS slot runs `f`. -/
def State.lsSlot (s : State) (a : TileAt) (last : Bool) (f : Tile → Tile) : State := s.issue a .ls last f

/-- A signed field of `w` bits. -/
def signed (w v : Nat) : Int := (BitVec.ofNat w v).toInt

/-- The effective address (aB + OFFSET) mod 2^22, aligned down to the access size (R83, R131). -/
def Tile.effAddr (t : Tile) (b offset size : Nat) : Nat :=
  ((t.ad (b % 16)).toNat + offset) % 2 ^ 22 / size * size

/-- The post-increment of the base register, INC times the access size (R131). -/
def Tile.postInc (t : Tile) (b inc size : Nat) (post : Bool) : Tile :=
  if post then t.advance .ls (b % 16) (signed 5 inc * size) else t

/-- The sixteen lines of a 512-byte store with the bytes of the unmasked lanes; a line without one is a merged write of no byte, and touches its bank
(R132, R133, Table 3-7). -/
def Tile.vstLines (t : Tile) (r a : Nat) (m : BitVec 128) : List LineW :=
  (List.range 16).map fun i =>
    let ls := (List.range 8).filter fun l => m.getLsbD (8 * i + l)
    ⟨lineOf a + i,
      ls.flatMap fun l => (List.range 4).map fun k =>
        (4 * l + k, ((t.lane (r % 64) (8 * i + l)).val >>> (8 * k)).truncate 8),
      ls.any fun l => (t.lane (r % 64) (8 * i + l)).poi⟩

/-- The line written by a scalar store of `ws` words at `a`. -/
def sstLine (a : Nat) (ws : List Cellw) : LineW :=
  ⟨lineOf a, ((List.range ws.length).zip ws).flatMap fun (x : Nat × Cellw) =>
      (List.range 4).map fun k => (a % 32 + 4 * x.1 + k, (x.2.val >>> (8 * k)).truncate 8),
    ws.any Cellw.poi⟩

/-- A 6-bit field naming a scalar must have bit 5 clear (R118). -/
def scField (r : Nat) : Bool := decide (r % 64 < 32)

/-- SLD2 and SST2 take an even register up to s30 (Table 4-8). -/
def pairField (r : Nat) : Bool := scField r && decide (r % 2 = 0)

/-- VLD (Table 4-8): each unmasked lane takes its four bytes, three cycles after issue. -/
def Tile.vld (r b offset m inc : Nat) (post : Bool) (hits : List EccHit) (t : Tile) : Tile :=
  (t.access1 .ls hits (.vld (r % 64) (t.effAddr b offset 512) (t.mask (m % 16)))).postInc b inc 512 post
def execVld (at' : TileAt) (r b offset m inc : Nat) (post : Bool) (hits : List EccHit) (last : Bool) (s : State) :
    Host.Outcome State Fault Refusal :=
  .next (s.lsSlot at' last (Tile.vld r b offset m inc post hits))

/-- VST. -/
def Tile.vst (r b offset m inc : Nat) (post : Bool) (hits : List EccHit) (t : Tile) : Tile :=
  (t.access1 .ls hits (.store (t.vstLines r (t.effAddr b offset 512) (t.mask (m % 16))))).postInc b inc 512 post
def execVst (at' : TileAt) (r b offset m inc : Nat) (post : Bool) (hits : List EccHit) (last : Bool) (s : State) :
    Host.Outcome State Fault Refusal :=
  .next (s.lsSlot at' last (Tile.vst r b offset m inc post hits))

/-- VLDBC: the 4-byte word into every unmasked lane. -/
def Tile.vldbc (r b offset m inc : Nat) (post : Bool) (hits : List EccHit) (t : Tile) : Tile :=
  (t.access1 .ls hits (.vldbc (r % 64) (t.effAddr b offset 4) (t.mask (m % 16)))).postInc b inc 4 post
def execVldbc (at' : TileAt) (r b offset m inc : Nat) (post : Bool) (hits : List EccHit) (last : Bool) (s : State) :
    Host.Outcome State Fault Refusal :=
  .next (s.lsSlot at' last (Tile.vldbc r b offset m inc post hits))

/-- SLD. -/
def Tile.sld (r b offset inc : Nat) (post : Bool) (hits : List EccHit) (t : Tile) : Tile :=
  if scField r then (t.access1 .ls hits (.sld (r % 32) (t.effAddr b offset 4))).postInc b inc 4 post else t.illegal
def execSld (at' : TileAt) (r b offset inc : Nat) (post : Bool) (hits : List EccHit) (last : Bool) (s : State) :
    Host.Outcome State Fault Refusal :=
  .next (s.lsSlot at' last (Tile.sld r b offset inc post hits))

/-- SST. -/
def Tile.sst (r b offset inc : Nat) (post : Bool) (hits : List EccHit) (t : Tile) : Tile :=
  if scField r then
    (t.access1 .ls hits (.store [sstLine (t.effAddr b offset 4) [t.sc (r % 32)]])).postInc b inc 4 post
  else t.illegal
def execSst (at' : TileAt) (r b offset inc : Nat) (post : Bool) (hits : List EccHit) (last : Bool) (s : State) :
    Host.Outcome State Fault Refusal :=
  .next (s.lsSlot at' last (Tile.sst r b offset inc post hits))

/-- SLD2. -/
def Tile.sld2 (r b offset inc : Nat) (post : Bool) (hits : List EccHit) (t : Tile) : Tile :=
  if pairField r then (t.access1 .ls hits (.sld2 (r % 32) (t.effAddr b offset 8))).postInc b inc 8 post else t.illegal
def execSld2 (at' : TileAt) (r b offset inc : Nat) (post : Bool) (hits : List EccHit) (last : Bool) (s : State) :
    Host.Outcome State Fault Refusal :=
  .next (s.lsSlot at' last (Tile.sld2 r b offset inc post hits))

/-- SST2. -/
def Tile.sst2 (r b offset inc : Nat) (post : Bool) (hits : List EccHit) (t : Tile) : Tile :=
  if pairField r then
    (t.access1 .ls hits (.store [sstLine (t.effAddr b offset 8) [t.sc (r % 32), t.sc (r % 32 + 1)]])).postInc b inc 8 post
  else t.illegal
def execSst2 (at' : TileAt) (r b offset inc : Nat) (post : Bool) (hits : List EccHit) (last : Bool) (s : State) :
    Host.Outcome State Fault Refusal :=
  .next (s.lsSlot at' last (Tile.sst2 r b offset inc post hits))

/-- The post-increment of a mesh address register in units of 128 bytes (R138). -/
def Tile.meshInc (t : Tile) (r inc : Nat) : Tile :=
  if inc % 16 = 0 then t else t.advance .nm (r % 16) (signed 4 inc * 128)

/-- NM_SEND (R135): the lines at the 128-byte-aligned address leave as a flit two cycles after issue. -/
def Tile.nmSend (sa slen sinc : Nat) (hits : List EccHit) (t : Tile) : Tile :=
  (t.access1 .nm hits (.nmSend ((t.ad (sa % 16)).toNat / 128 * 128) (slen % 4 + 1))).meshInc sa sinc
def execNmSend (at' : TileAt) (sa slen sinc : Nat) (hits : List EccHit) (last : Bool) (s : State) :
    Host.Outcome State Fault Refusal :=
  .next (s.issue at' .nm last (Tile.nmSend sa slen sinc hits))

/-- NM_RECEIVE (R136): the flit presented in the cycle after issue goes into tile or instruction memory. -/
def Tile.nmRecv (ra rlen rinc : Nat) (rimem : Bool) (hits : List EccHit) (t : Tile) : Tile :=
  (t.access1 .nm hits (.nmRecv ((t.ad (ra % 16)).toNat / 128 * 128) (rlen % 4 + 1) rimem)).meshInc ra rinc
def execNmReceive (at' : TileAt) (ra rlen rinc : Nat) (rimem : Bool) (hits : List EccHit) (last : Bool) (s : State) :
    Host.Outcome State Fault Refusal :=
  .next (s.issue at' .nmr last (Tile.nmRecv ra rlen rinc rimem hits))

end Sys2Proof.Machine
end

