-- ==== Sys2Proof/Machine/Loader.lean ====
section
/-! DEFINITION. Loading an image (R225-R227, R266, R267), and the JTAG chain (R533-R535). -/

namespace Sys2Proof.Machine
open Sys2Proof

/-! Loading (R226). -/

/-- Granules of a die's memory (R266). -/
def dieGranules : Nat := 6144

/-- What a die lacks (R266): its footprint beyond 6,144 granules less those lent and those retired. -/
def State.lacks (s : State) (im : Image) (d : Nat) : Nat :=
  im.need.getD d 0 - (dieGranules - (s.stakeCount d).2 - im.retired.getD d 0)

/-- The shortfall in granules, over all dies. -/
def State.shortfall (s : State) (im : Image) : Nat := osDies.foldl (fun a d => a + s.lacks im d) 0

/-- Whether the shortfall can stand in borrowed memory (R258, R267). -/
def State.borrowable (s : State) (im : Image) : Bool :=
  decide (s.shortfall im + osDies.foldl (fun a d => a + (s.stakeCount d).1) 0 ≤ 8192)
    && osDies.all fun d => decide (s.lacks im d ≤ im.mayLend.getD d 0) && decide (s.lacks im d ≤ im.offered.getD d 0)

/-- The first check that fails (R226). -/
def State.loadStatus (s : State) (h : Nat) (im : Image) : LoadStatus :=
  let f := s.flashOf h
  let x := s.start.prof
  if !(im.sig && decide (2 ≤ im.slot) && decide (im.slot ≤ 5) && f.fused.testBit im.slot && !f.revoked.testBit im.slot) then .signatureFail
  else if im.cls ≠ 0x0B01 then .classMismatch
  else if im.grade ≠ x.grade || im.size ≠ x.size || im.count ≠ x.count || !im.inside then .topologyMismatch
  else if !im.keys.contains s.widthKey then .variantMissing
  else if s.shortfall im = 0 || s.borrowable im then .ok
  else .noFit (s.shortfall im * 2 ^ 26)

/-- A line of a granule's contents is placed by the home die's Stake table. -/
def State.preload (s : State) (addr : Nat) (f : FLine) : State :=
  match s.hostLine addr true with
  | some x => if s.alive (mcPage x.1) then s.putHline x.1 x.2 f else s
  | none => s

/-- A die takes an image only while its STATE is EMPTY or LOADED (R225). -/
def State.loadable (s : State) (d : Nat) : Bool := decide (s.prog d = stEmpty) || decide (s.prog d = stLoaded)

/-- IMAGE_LOAD (R225, R226): the status is returned; only an image that passes every check is written, through the Hoop, and only into dies that
take one. -/
def execImageLoad (hoop : Nat) (im : Image) (s : State) : Host.Outcome State Fault Refusal :=
  .next (if s.serves hoop && s.acting.isSome then
    let st := s.loadStatus hoop im
    let s := { s with out := { s.out with loads := s.out.loads ++ [st] } }
    if st = .ok then
      let takes := (osDies.map s.loadable).zip osDies |>.filterMap fun x => if x.1 then some x.2 else none
      let ok (d : Nat) : Bool := !isOsier d || takes.contains d
      let s := im.writes.foldl (fun (s : State) w => if ok (dieOf w.1) then s.hostWrite hoop w.1 w.2.1 w.2.2 15 {} else s) s
      let s := im.data.foldl (fun (s : State) x => if ok (x.1 % 2 ^ 42 / 2 ^ 39) then s.preload x.1 x.2 else s) s
      let s := im.code.foldl (fun (s : State) x => if x.1 < 8 && ok x.1 then s.loadDeliver x.1 x.2.1 x.2.2.1 x.2.2.2 [] else s) s
      takes.foldl (fun (s : State) d =>
        let s := s.hostWrite hoop (osTop d) 0x10C (im.id % 2 ^ 32) 15 {}
        let s := s.hostWrite hoop (osTop d) 0x110 (im.id / 2 ^ 32) 15 {}
        s.hostWrite hoop (osTop d) 0x104 4 15 {}) s
    else s
  else s)

/-! JTAG (R533, R534). -/

/-- The segment of a die (R534). -/
def jtagSegment (d : Nat) : Nat := if d = 0x12 then 0 else if d = 0x13 then 19 else d + 1

/-- The die whose segment an access uses; the package pages belong to the acting Hoop. -/
def State.jtagDie (s : State) (a : JtagAt) : Nat :=
  match a with
  | .idcode d => d
  | .reg p _ => if dieOf p = 0x1F then s.acting.elim 0x1F held else dieOf p
  | .tmem t _ => t.die
  | .acc t _ _ => t.die
  | .imem t _ => t.die
  | .hbm mc _ => mc / 4
  | .cbuf d _ => d
  | .flash h _ => held h
  | .secret h => held h

/-- The block class of an access (Table 17-4). The SEC page's registers other than its secrets fall under the classes of no row and are
taken with them. -/
def jtagClass (a : JtagAt) : Nat :=
  match a with
  | .idcode _ => 0
  | .reg p _ => (pageBlk p).elim 5 blkClass
  | .flash _ _ => 4
  | .secret _ => 5
  | _ => 1

/-- Whether Table 17-5 allows a JTAG read or write of a class. -/
def State.jtagMay (s : State) (cls : Nat) (write : Bool) : Bool :=
  let life := s.life
  let lvl := s.dbgLevel
  if cls = 0 then !write
  else if cls = 5 then false
  else if lvl = 0 then false
  else if lvl = 1 then !write && (decide (cls ≠ 1) || decide (life = 0))
  else if lvl = 2 then decide (life = 1)
  else true

/-- Whether a segment is bypassed (R534): no core power, held in reset by a trip, or skipped. -/
def State.bypassed (s : State) (d : Nat) : Bool :=
  !s.start.rails || (s.rd (secPg 0) R.SEC_JTAG_SKIP).testBit (jtagSegment d)
    || (s.thp.tripAt.isSome && (!isHoop d || s.thp.comps.any fun c => decide (c.1 = d)))

/-- Whether the package has what an access names. -/
def jtagReal (a : JtagAt) : Bool :=
  match a with
  | .idcode d => decide (d < 20)
  | .reg p _ => (pageBlk p).isSome
  | .tmem t _ => tileOk t
  | .acc t r l => tileOk t && decide (r < 3072) && decide (l < 128)
  | .imem t _ => tileOk t
  | .hbm mc _ => decide (mc < 32) && decide (mc % 4 < 3)
  | .cbuf d _ => decide (d < 8)
  | .flash h _ => decide (h < 2)
  | .secret h => decide (h < 2)

/-- The tile whose memories or registers an access names. -/
def jtagTile (a : JtagAt) : Option TileAt :=
  match a with
  | .tmem t _ => some t
  | .acc t _ _ => some t
  | .imem t _ => some t
  | _ => none

/-- Nothing outside a tile reads or writes it in RUN or HELD (R72). -/
def State.tileShut (s : State) (a : JtagAt) : Bool :=
  (jtagTile a).any fun t => decide ((s.tile t.die (t.tile % 64)).st = .run) || decide ((s.tile t.die (t.tile % 64)).st = .held)

/-- Whether an access is answered (R533): the power state, the chain, Table 17-5, and no write into a RUNNING die's compute (R72 closes a running
tile to reads as well). -/
def State.jtagOpen (s : State) (a : JtagAt) (write : Bool) : Bool :=
  let d := s.jtagDie a
  let cls := jtagClass a
  decide (d < 20) && jtagReal a && !s.bypassed d && s.jtagMay cls write
    && (decide (cls = 0) || (s.pins.resetN && s.start.rails))
    && !s.tileShut a && !(write && isOsier d && (decide (cls = 1) || decide (cls = 2)) && decide (s.prog d = stRunning))

/-- What a JTAG read finds. -/
def State.jtagRead (s : State) (a : JtagAt) : Nat :=
  match a with
  | .idcode d => Config.idcode d
  | .reg p off => s.readAt p (off % 0x1000 / 4 * 4)
  | .tmem t l => getBytes (s.tile t.die (t.tile % 64)).mem (l % 2 ^ 17 * 32) 32
  | .acc t r l =>
    let e := (s.tile t.die (t.tile % 64)).acE r l
    e.n.toNat + 2 ^ 96 * e.tag
  | .imem t b => (look emptyBundle (s.tile t.die (t.tile % 64)).imem (b % 8192)).toNat
  | .hbm mc l => (s.hline mc (l % 2 ^ 32)).data.toNat
  | .cbuf d x => (s.bline d x).data.toNat
  | .flash h w => look erased (s.flashOf h).profs (w % 512)
  | .secret _ => 0

/-- A JTAG write carries no epoch and needs no key: Table 17-5 judges it. -/
def State.jtagWrite (s : State) (a : JtagAt) (v : Nat) : State :=
  match a with
  | .reg p off =>
    let off := off % 0x1000 / 4 * 4
    match pageBlk p with
    | some b => if s.shows p off then s.wordAct p b (touched b off 15) off (v % 2 ^ 32) 15 0 {} else s
    | none => s
  | .tmem t l =>
    let x := s.tile t.die (t.tile % 64)
    s.setTile t.die (t.tile % 64) { x with mem := setBytes x.mem (l % 2 ^ 17 * 32) 32 v, memPoi := put noPoison x.memPoi (l % 2 ^ 17) false }
  | .acc t r l =>
    let x := s.tile t.die (t.tile % 64)
    s.setTile t.die (t.tile % 64) (x.putAcE r l (if x.accClose then accRaw (BitVec.ofNat 96 v) (v / 2 ^ 96 % 512) false
      else ⟨BitVec.ofNat 96 (v % 2 ^ 32), 0, false⟩))
  | .imem t b =>
    let x := s.tile t.die (t.tile % 64)
    s.setTile t.die (t.tile % 64) { x with imem := put emptyBundle x.imem (b % 8192) (BitVec.ofNat 256 v) }
  | .hbm mc l => s.putHline mc l ⟨BitVec.ofNat 256 v, false⟩
  | .cbuf d x => s.putBline d x ⟨BitVec.ofNat 256 v, false⟩
  | .flash h w => (s.setFlash h { s.flashOf h with profs := put erased (s.flashOf h).profs (w % 512) (v % 2 ^ 32) }).showValid h
  | _ => s

/-- JTAG_ACCESS (R533-R535): a read, or a write of `wr`; a refused or bypassed access answers nothing. -/
def execJtagAccess (tgt : JtagAt) (wr : Option Nat) (s : State) : Host.Outcome State Fault Refusal :=
  let answer (s : State) (x : Option Nat) : State := { s with out := { s.out with jtag := s.out.jtag ++ [x] } }
  .next (if s.jtagOpen tgt wr.isSome then
    match wr with
    | some v => answer (s.jtagWrite tgt v) (some v)
    | none => answer s (some (s.jtagRead tgt))
  else answer s none)

end Sys2Proof.Machine
end

