-- ==== Sys2Proof/Machine/Vector.lean ====
section
/-! DEFINITION. The vector slot (R139-R150): integer, logic, lane, mask, floating-point, conversion, transcendental and
random instructions. -/

namespace Sys2Proof.Machine

/-- The present bundle's VX slot runs `f`. -/
def State.vxSlot (s : State) (a : TileAt) (last : Bool) (f : Tile → Tile) : State := s.issue a .vx last f

/-- A vector result: the lanes the mask selects, landing `lat` cycles after issue (R140). -/
def Tile.vxVec (t : Tile) (lat d m : Nat) (f : Nat → Word) (p : Nat → Bool) : Tile :=
  t.later (t.next + lat) 1
    (.vec (d % 64) ((maskLanes (t.mask (m % 16))).map fun l => ⟨l, BitVec.allOnes 32, f l, p l⟩))

/-- One source: `op` of A's lane. -/
def Tile.vx1 (op : Word → Word) (lat d a m : Nat) (t : Tile) : Tile :=
  t.vxVec lat d m (fun l => op (t.lane (a % 64) l).val) (fun l => (t.lane (a % 64) l).poi)

/-- Two sources. -/
def Tile.vx2 (op : Word → Word → Word) (lat d a b m : Nat) (t : Tile) : Tile :=
  t.vxVec lat d m (fun l => op (t.lane (a % 64) l).val (t.lane (b % 64) l).val)
    (fun l => (t.lane (a % 64) l).poi || (t.lane (b % 64) l).poi)

/-- Three sources. -/
def Tile.vx3 (op : Word → Word → Word → Word) (lat d a b c m : Nat) (t : Tile) : Tile :=
  t.vxVec lat d m (fun l => op (t.lane (a % 64) l).val (t.lane (b % 64) l).val (t.lane (c % 64) l).val)
    (fun l => (t.lane (a % 64) l).poi || (t.lane (b % 64) l).poi || (t.lane (c % 64) l).poi)

/-- A poisoned lane read for a mask sets TAINT (R141). -/
def Tile.taintOn (t : Tile) (p : Bool) : Tile := if p then { t with taint := true } else t

/-- RND 2 and 3 make an arithmetic slot illegal (R140). -/
def Tile.rndLegal (rnd : Nat) (f : Tile → Tile) (t : Tile) : Tile := if rnd % 4 < 2 then f t else t.illegal

/-- A 6-bit field naming a scalar, or a mask (R118). -/
def vxScalar (r : Nat) : Bool := decide (r % 64 < 32)
def vxMask (r : Nat) : Bool := decide (r % 64 < 16)

/-- The lane index of VEXT, VINS, VMXS and the MX scales: (IMM + aXA if XEN) mod 128. -/
def Tile.laneIdx (t : Tile) (imm xa : Nat) (xen : Bool) : Nat :=
  (imm % 8192 + (if xen then (t.ad (xa % 16)).toNat else 0)) % 128

/-- A mask from a test of each lane. -/
def maskOf (f : Nat → Bool) : BitVec 128 :=
  (List.range 128).foldl (fun acc l => if f l then acc ||| (1#128 <<< l) else acc) 0#128

/-- A mask result: the lanes the write mask selects take the test's outcome. -/
def Tile.vxMaskRes (t : Tile) (d m : Nat) (f : Nat → Bool) : Tile :=
  t.later (t.next + 2) 1 (.mask (d % 64) (t.mask (m % 16)) (maskOf f))

def opVmov (x : Word) : Word := x
/-- VMOV (Table 4-11). -/
def execVmov (at' : TileAt) (d a m : Nat) (last : Bool) (s : State) : Host.Outcome State Fault Refusal :=
  .next (s.vxSlot at' last (Tile.vx1 opVmov 2 d a m))

def opViadd (x y : Word) : Word := x + y
/-- VIADD (Table 4-11). -/
def execViadd (at' : TileAt) (d a b m : Nat) (last : Bool) (s : State) : Host.Outcome State Fault Refusal :=
  .next (s.vxSlot at' last (Tile.vx2 opViadd 2 d a b m))

def opVisub (x y : Word) : Word := x - y
/-- VISUB (Table 4-11). -/
def execVisub (at' : TileAt) (d a b m : Nat) (last : Bool) (s : State) : Host.Outcome State Fault Refusal :=
  .next (s.vxSlot at' last (Tile.vx2 opVisub 2 d a b m))

def opVimul (x y : Word) : Word := x * y
/-- VIMUL (Table 4-11). -/
def execVimul (at' : TileAt) (d a b m : Nat) (last : Bool) (s : State) : Host.Outcome State Fault Refusal :=
  .next (s.vxSlot at' last (Tile.vx2 opVimul 2 d a b m))

def opVimin (x y : Word) : Word := if x.sle y then x else y
/-- VIMIN (Table 4-11). -/
def execVimin (at' : TileAt) (d a b m : Nat) (last : Bool) (s : State) : Host.Outcome State Fault Refusal :=
  .next (s.vxSlot at' last (Tile.vx2 opVimin 2 d a b m))

def opVimax (x y : Word) : Word := if x.sle y then y else x
/-- VIMAX (Table 4-11). -/
def execVimax (at' : TileAt) (d a b m : Nat) (last : Bool) (s : State) : Host.Outcome State Fault Refusal :=
  .next (s.vxSlot at' last (Tile.vx2 opVimax 2 d a b m))

def opVand (x y : Word) : Word := x &&& y
/-- VAND (Table 4-11). -/
def execVand (at' : TileAt) (d a b m : Nat) (last : Bool) (s : State) : Host.Outcome State Fault Refusal :=
  .next (s.vxSlot at' last (Tile.vx2 opVand 2 d a b m))

def opVor (x y : Word) : Word := x ||| y
/-- VOR (Table 4-11). -/
def execVor (at' : TileAt) (d a b m : Nat) (last : Bool) (s : State) : Host.Outcome State Fault Refusal :=
  .next (s.vxSlot at' last (Tile.vx2 opVor 2 d a b m))

def opVxor (x y : Word) : Word := x ^^^ y
/-- VXOR (Table 4-11). -/
def execVxor (at' : TileAt) (d a b m : Nat) (last : Bool) (s : State) : Host.Outcome State Fault Refusal :=
  .next (s.vxSlot at' last (Tile.vx2 opVxor 2 d a b m))

def opVandn (x y : Word) : Word := x &&& ~~~y
/-- VANDN (Table 4-11). -/
def execVandn (at' : TileAt) (d a b m : Nat) (last : Bool) (s : State) : Host.Outcome State Fault Refusal :=
  .next (s.vxSlot at' last (Tile.vx2 opVandn 2 d a b m))

def opVshl (x y : Word) : Word := x <<< (y.toNat % 32)
/-- VSHL (Table 4-11). -/
def execVshl (at' : TileAt) (d a b m : Nat) (last : Bool) (s : State) : Host.Outcome State Fault Refusal :=
  .next (s.vxSlot at' last (Tile.vx2 opVshl 2 d a b m))

def opVshr (x y : Word) : Word := x >>> (y.toNat % 32)
/-- VSHR (Table 4-11). -/
def execVshr (at' : TileAt) (d a b m : Nat) (last : Bool) (s : State) : Host.Outcome State Fault Refusal :=
  .next (s.vxSlot at' last (Tile.vx2 opVshr 2 d a b m))

def opVsra (x y : Word) : Word := x.sshiftRight (y.toNat % 32)
/-- VSRA (Table 4-11). -/
def execVsra (at' : TileAt) (d a b m : Nat) (last : Bool) (s : State) : Host.Outcome State Fault Refusal :=
  .next (s.vxSlot at' last (Tile.vx2 opVsra 2 d a b m))

def opVshli (imm : Nat) (x : Word) : Word := x <<< (imm % 32)
/-- VSHLI (Table 4-11). -/
def execVshli (at' : TileAt) (d a m imm : Nat) (last : Bool) (s : State) : Host.Outcome State Fault Refusal :=
  .next (s.vxSlot at' last (Tile.vx1 (opVshli imm) 2 d a m))

def opVshri (imm : Nat) (x : Word) : Word := x >>> (imm % 32)
/-- VSHRI (Table 4-11). -/
def execVshri (at' : TileAt) (d a m imm : Nat) (last : Bool) (s : State) : Host.Outcome State Fault Refusal :=
  .next (s.vxSlot at' last (Tile.vx1 (opVshri imm) 2 d a m))

def opVsrai (imm : Nat) (x : Word) : Word := x.sshiftRight (imm % 32)
/-- VSRAI (Table 4-11). -/
def execVsrai (at' : TileAt) (d a m imm : Nat) (last : Bool) (s : State) : Host.Outcome State Fault Refusal :=
  .next (s.vxSlot at' last (Tile.vx1 (opVsrai imm) 2 d a m))

/-- VSEL: a result lane uses only the operand its mC bit selects, so only that one's poison (R141). -/
def Tile.vsel (d a b c m : Nat) (t : Tile) : Tile :=
  if vxMask c then
    let src (l : Nat) : Cellw := if (t.mask (c % 64)).getLsbD l then t.lane (a % 64) l else t.lane (b % 64) l
    t.vxVec 2 d m (fun l => (src l).val) (fun l => (src l).poi)
  else t.illegal
/-- VSEL (Table 4-11). -/
def execVsel (at' : TileAt) (d a b c m : Nat) (last : Bool) (s : State) : Host.Outcome State Fault Refusal :=
  .next (s.vxSlot at' last (Tile.vsel d a b c m))

/-- VBCS: a scalar into every unmasked lane; its poison goes with it. -/
def Tile.vbcs (d a m : Nat) (t : Tile) : Tile :=
  if vxScalar a then t.vxVec 2 d m (fun _ => (t.sc (a % 32)).val) (fun _ => (t.sc (a % 32)).poi) else t.illegal
/-- VBCS (Table 4-11). -/
def execVbcs (at' : TileAt) (d a m : Nat) (last : Bool) (s : State) : Host.Outcome State Fault Refusal :=
  .next (s.vxSlot at' last (Tile.vbcs d a m))

/-- VEXT: one lane into a scalar; M is ignored. -/
def Tile.vext (d a imm xa : Nat) (xen : Bool) (t : Tile) : Tile :=
  if vxScalar d then
    let x := t.lane (a % 64) (t.laneIdx imm xa xen)
    t.later (t.next + 2) 1 (.scal (d % 32) x.val x.poi)
  else t.illegal
/-- VEXT (Table 4-11). -/
def execVext (at' : TileAt) (d a imm xa : Nat) (xen : Bool) (last : Bool) (s : State) : Host.Outcome State Fault Refusal :=
  .next (s.vxSlot at' last (Tile.vext d a imm xa xen))

/-- VINS: one lane takes a scalar; the others are kept; M is ignored. -/
def Tile.vins (d a imm xa : Nat) (xen : Bool) (t : Tile) : Tile :=
  if vxScalar a then
    let x := t.sc (a % 32)
    t.later (t.next + 2) 1 (.vec (d % 64) [⟨t.laneIdx imm xa xen, BitVec.allOnes 32, x.val, x.poi⟩])
  else t.illegal
/-- VINS (Table 4-11). -/
def execVins (at' : TileAt) (d a imm xa : Nat) (xen : Bool) (last : Bool) (s : State) : Host.Outcome State Fault Refusal :=
  .next (s.vxSlot at' last (Tile.vins d a imm xa xen))

/-- VROT: lane l takes lane (l + IMM[6:0]) mod 128 of A. -/
def Tile.vrot (d a m imm : Nat) (t : Tile) : Tile :=
  t.vxVec 2 d m (fun l => (t.lane (a % 64) ((l + imm % 128) % 128)).val)
    (fun l => (t.lane (a % 64) ((l + imm % 128) % 128)).poi)
/-- VROT (Table 4-11). -/
def execVrot (at' : TileAt) (d a m imm : Nat) (last : Bool) (s : State) : Host.Outcome State Fault Refusal :=
  .next (s.vxSlot at' last (Tile.vrot d a m imm))

/-- VLANE: each lane's index. -/
def Tile.vlane (d m : Nat) (t : Tile) : Tile := t.vxVec 2 d m (fun l => BitVec.ofNat 32 l) (fun _ => false)
/-- VLANE (Table 4-11). -/
def execVlane (at' : TileAt) (d m : Nat) (last : Bool) (s : State) : Host.Outcome State Fault Refusal :=
  .next (s.vxSlot at' last (Tile.vlane d m))

def opVfabs (x : Word) : Word := x &&& 0x7FFFFFFF#32
/-- VFABS (Table 4-11). -/
def execVfabs (at' : TileAt) (d a m : Nat) (last : Bool) (s : State) : Host.Outcome State Fault Refusal :=
  .next (s.vxSlot at' last (Tile.vx1 opVfabs 2 d a m))

def opVfneg (x : Word) : Word := x ^^^ 0x80000000#32
/-- VFNEG (Table 4-11). -/
def execVfneg (at' : TileAt) (d a m : Nat) (last : Bool) (s : State) : Host.Outcome State Fault Refusal :=
  .next (s.vxSlot at' last (Tile.vx1 opVfneg 2 d a m))

/-- The FP32 tests of VCMPF (R142). -/
def fpTest (c : Nat) (x y : Word) : Bool :=
  let a := f32 x
  let b := f32 y
  match c with
  | 0 => a.eqv b
  | 1 => a.lt b
  | 2 => a.lt b || a.eqv b
  | 3 => !a.eqv b
  | _ => a.isNan || b.isNan

/-- The integer tests of VCMPI. -/
def intTest (c : Nat) (x y : Word) : Bool :=
  match c with
  | 0 => decide (x = y)
  | 1 => x.slt y
  | 2 => x.sle y
  | 3 => decide (x ≠ y)
  | 4 => x.ult y
  | _ => x.ule y

/-- A compare: the mask lands in two cycles; a poisoned lane that it reads sets TAINT (R141). -/
def Tile.vcmp (test : Nat → Word → Word → Bool) (codes d a b m imm : Nat) (t : Tile) : Tile :=
  if vxMask d && decide (imm % 8 < codes) then
    (t.vxMaskRes d m fun l => test (imm % 8) (t.lane (a % 64) l).val (t.lane (b % 64) l).val).taintOn
      ((maskLanes (t.mask (m % 16))).any fun l => (t.lane (a % 64) l).poi || (t.lane (b % 64) l).poi)
  else t.illegal

/-- VCMPF (R142): codes 5 to 7 are reserved. -/
def execVcmpf (at' : TileAt) (d a b m imm : Nat) (last : Bool) (s : State) : Host.Outcome State Fault Refusal :=
  .next (s.vxSlot at' last (Tile.vcmp fpTest 5 d a b m imm))

/-- VCMPI (Table 4-11): codes 6 and 7 are reserved. -/
def execVcmpi (at' : TileAt) (d a b m imm : Nat) (last : Bool) (s : State) : Host.Outcome State Fault Refusal :=
  .next (s.vxSlot at' last (Tile.vcmp intTest 6 d a b m imm))

/-- A mask operation. -/
def Tile.maskOp (op : Bool → Bool → Bool) (d a b m : Nat) (t : Tile) : Tile :=
  if vxMask d && vxMask a && vxMask b then
    t.vxMaskRes d m fun l => op ((t.mask (a % 64)).getLsbD l) ((t.mask (b % 64)).getLsbD l)
  else t.illegal
def opMand (x y : Bool) : Bool := x && y
/-- MAND (Table 4-11). -/
def execMand (at' : TileAt) (d a b m : Nat) (last : Bool) (s : State) : Host.Outcome State Fault Refusal :=
  .next (s.vxSlot at' last (Tile.maskOp opMand d a b m))

def opMor (x y : Bool) : Bool := x || y
/-- MOR (Table 4-11). -/
def execMor (at' : TileAt) (d a b m : Nat) (last : Bool) (s : State) : Host.Outcome State Fault Refusal :=
  .next (s.vxSlot at' last (Tile.maskOp opMor d a b m))

def opMxor (x y : Bool) : Bool := x != y
/-- MXOR (Table 4-11). -/
def execMxor (at' : TileAt) (d a b m : Nat) (last : Bool) (s : State) : Host.Outcome State Fault Refusal :=
  .next (s.vxSlot at' last (Tile.maskOp opMxor d a b m))

def opMandn (x y : Bool) : Bool := x && !y
/-- MANDN (Table 4-11). -/
def execMandn (at' : TileAt) (d a b m : Nat) (last : Bool) (s : State) : Host.Outcome State Fault Refusal :=
  .next (s.vxSlot at' last (Tile.maskOp opMandn d a b m))

/-- MFROMV: set where the lane is not zero; a poisoned lane that it reads sets TAINT. -/
def Tile.mfromv (d a m : Nat) (t : Tile) : Tile :=
  if vxMask d then
    (t.vxMaskRes d m fun l => decide ((t.lane (a % 64) l).val ≠ 0#32)).taintOn
      ((maskLanes (t.mask (m % 16))).any fun l => (t.lane (a % 64) l).poi)
  else t.illegal
/-- MFROMV (Table 4-11). -/
def execMfromv (at' : TileAt) (d a m : Nat) (last : Bool) (s : State) : Host.Outcome State Fault Refusal :=
  .next (s.vxSlot at' last (Tile.mfromv d a m))

/-- MTOV: 1 or 0 from a mask bit. -/
def Tile.mtov (d a m : Nat) (t : Tile) : Tile :=
  if vxMask a then
    t.vxVec 2 d m (fun l => if (t.mask (a % 64)).getLsbD l then 1#32 else 0#32) (fun _ => false)
  else t.illegal
/-- MTOV (Table 4-11). -/
def execMtov (at' : TileAt) (d a m : Nat) (last : Bool) (s : State) : Host.Outcome State Fault Refusal :=
  .next (s.vxSlot at' last (Tile.mtov d a m))

/-- VFADD (Table 4-12, R172). -/
def execVfadd (at' : TileAt) (d a b m rnd : Nat) (last : Bool) (s : State) : Host.Outcome State Fault Refusal :=
  .next (s.vxSlot at' last (Tile.rndLegal rnd (Tile.vx2 (faddW (rndOf rnd)) 4 d a b m)))

/-- VFSUB (Table 4-12, R172). -/
def execVfsub (at' : TileAt) (d a b m rnd : Nat) (last : Bool) (s : State) : Host.Outcome State Fault Refusal :=
  .next (s.vxSlot at' last (Tile.rndLegal rnd (Tile.vx2 (fsubW (rndOf rnd)) 4 d a b m)))

/-- VFMUL (Table 4-12, R172). -/
def execVfmul (at' : TileAt) (d a b m rnd : Nat) (last : Bool) (s : State) : Host.Outcome State Fault Refusal :=
  .next (s.vxSlot at' last (Tile.rndLegal rnd (Tile.vx2 (fmulW (rndOf rnd)) 4 d a b m)))

/-- VFFMA: one rounding (R172). -/
def execVffma (at' : TileAt) (d a b c m rnd : Nat) (last : Bool) (s : State) : Host.Outcome State Fault Refusal :=
  .next (s.vxSlot at' last (Tile.rndLegal rnd (Tile.vx3 (ffmaW (rndOf rnd)) 4 d a b c m)))

/-- VFMAX (R143). -/
def execVfmax (at' : TileAt) (d a b m : Nat) (last : Bool) (s : State) : Host.Outcome State Fault Refusal :=
  .next (s.vxSlot at' last (Tile.vx2 fmaxW 4 d a b m))

/-- VFMIN (R143). -/
def execVfmin (at' : TileAt) (d a b m : Nat) (last : Bool) (s : State) : Host.Outcome State Fault Refusal :=
  .next (s.vxSlot at' last (Tile.vx2 fminW 4 d a b m))

def opVbadd (md : Rnd) (x y : Word) : Word := bfLane (fun a b _ => a.add b) md x y 0#32
/-- VBADD (R143, R172). -/
def execVbadd (at' : TileAt) (d a b m rnd : Nat) (last : Bool) (s : State) : Host.Outcome State Fault Refusal :=
  .next (s.vxSlot at' last (Tile.rndLegal rnd (Tile.vx2 (opVbadd (rndOf rnd)) 4 d a b m)))

def opVbmul (md : Rnd) (x y : Word) : Word := bfLane (fun a b _ => a.mul b) md x y 0#32
/-- VBMUL. -/
def execVbmul (at' : TileAt) (d a b m rnd : Nat) (last : Bool) (s : State) : Host.Outcome State Fault Refusal :=
  .next (s.vxSlot at' last (Tile.rndLegal rnd (Tile.vx2 (opVbmul (rndOf rnd)) 4 d a b m)))

def opVbfma (md : Rnd) (x y z : Word) : Word := bfLane (fun a b c => (a.mul b).add c) md x y z
/-- VBFMA: one rounding to BF16. -/
def execVbfma (at' : TileAt) (d a b c m rnd : Nat) (last : Bool) (s : State) : Host.Outcome State Fault Refusal :=
  .next (s.vxSlot at' last (Tile.rndLegal rnd (Tile.vx3 (opVbfma (rndOf rnd)) 4 d a b c m)))

/-- The image of a vector register: byte `i` is byte `i % 4` of lane `i / 4` (R162). -/
def Tile.vbits (t : Tile) (r bit n : Nat) : Nat :=
  let lo := (t.lane r (bit / 32)).val.toNat
  let hi := (t.lane r (bit / 32 + 1)).val.toNat
  (lo + 2 ^ 32 * hi) / 2 ^ (bit % 32) % 2 ^ n

/-- The lanes that element bits `[bit, bit + n)` touch. -/
def elemLanes (bit n : Nat) : List Nat := if bit / 32 = (bit + n - 1) / 32 then [bit / 32] else [bit / 32, bit / 32 + 1]

/-- One element's share of lane `ln`: the bits it writes and their values. -/
def laneShare (ln bit n v : Nat) : Word × Word :=
  let up : Nat := v % 2 ^ n * 2 ^ (bit % 32)
  let mk : Nat := (2 ^ n - 1) * 2 ^ (bit % 32)
  if ln = bit / 32 then (BitVec.ofNat 32 mk, BitVec.ofNat 32 up)
  else (BitVec.ofNat 32 (mk / 2 ^ 32), BitVec.ofNat 32 (up / 2 ^ 32))

/-- The scale byte of element `l` of an MX operand (R146, R147). -/
def Tile.mxByte (t : Tile) (r idx l : Nat) : Nat := (t.lane r idx).val.toNat / 256 ^ (l / 32) % 256

/-- Merge element writes into one write per lane; pad bytes of 6-bit units are written zero (R162). -/
def gatherLanes (es : List (Nat × Word × Word × Bool)) : List LaneW :=
  (List.range 128).filterMap fun ln =>
    let mine := es.filter fun e => decide (e.1 = ln)
    if mine.isEmpty then none
    else some ⟨ln, mine.foldl (fun a e => a ||| e.2.1) 0#32, mine.foldl (fun a e => a ||| e.2.2.1) 0#32,
               mine.any fun e => e.2.2.2⟩

/-- VCVTN (R140, R144-R146, R165-R170): part q of D takes the narrowed elements of the unmasked lanes. A lane takes the
poison of its sources, and keeps its own where some bit of it is left (R78, R145). -/
def Tile.vcvtn (d a b c m rnd fmt part imm xa : Nat) (sat xen : Bool) (t : Tile) : Tile :=
  if rnd % 4 = 3 || !fmtPacked (fmt % 16) || fmtParts (fmt % 16) ≤ part % 8 then t.illegal
  else
    let f := fmt % 16
    let idx := t.laneIdx imm xa xen
    let es := (maskLanes (t.mask (m % 16))).flatMap fun l =>
      let md : Rnd := if rnd % 4 = 2 then .stoch (t.lane (b % 64) l).val.toNat else rndOf (rnd % 4)
      let sc := if fmtMx f then t.mxByte (c % 64) idx l else 127
      let v := narrowCode f md sat sc (t.lane (a % 64) l).val
      let p := (t.lane (a % 64) l).poi || (decide (rnd % 4 = 2) && decide (f ≠ 11) && (t.lane (b % 64) l).poi)
        || (fmtMx f && (t.lane (c % 64) idx).poi)
      let bit := elemBit f (part % 8) l
      (elemLanes bit (fmtBits f)).map fun ln =>
        let w := laneShare ln bit (fmtBits f) v
        (ln, w.1, w.2, p)
    -- the last 16 bytes of each 64-byte unit of a 6-bit part
    let pad := if fmtBits f = 6 then
      (List.range 2).flatMap fun u => (List.range 4).map fun k =>
        ((2 * (part % 8) + u) * 16 + 12 + k, BitVec.allOnes 32, 0#32, false) else []
    t.later (t.next + 3) 1 (.vec (d % 64) (gatherLanes (es ++ pad)))
/-- VCVTN (R145). -/
def execVcvtn (at' : TileAt) (d a b c m rnd fmt part imm xa : Nat) (sat xen : Bool) (last : Bool) (s : State) : Host.Outcome State Fault Refusal :=
  .next (s.vxSlot at' last (Tile.vcvtn d a b c m rnd fmt part imm xa sat xen))

/-- VCVTW (R147, R171): lane l takes element l of part q, widened. -/
def Tile.vcvtw (d a b m fmt part imm xa : Nat) (xen : Bool) (t : Tile) : Tile :=
  if !fmtPacked (fmt % 16) || fmtParts (fmt % 16) ≤ part % 8 then t.illegal
  else
    let f := fmt % 16
    let idx := t.laneIdx imm xa xen
    t.vxVec 3 d m
      (fun l => widenWord f (t.vbits (a % 64) (elemBit f (part % 8) l) (fmtBits f))
        (if fmtMx f then t.mxByte (b % 64) idx l else 127))
      (fun l => (elemLanes (elemBit f (part % 8) l) (fmtBits f)).any (fun ln => (t.lane (a % 64) ln).poi)
        || (fmtMx f && (t.lane (b % 64) idx).poi))
/-- VCVTW (R147). -/
def execVcvtw (at' : TileAt) (d a b m fmt part imm xa : Nat) (xen : Bool) (last : Bool) (s : State) : Host.Outcome State Fault Refusal :=
  .next (s.vxSlot at' last (Tile.vcvtw d a b m fmt part imm xa xen))

/-- VCVTI (R170). -/
def execVcvti (at' : TileAt) (d a m rnd : Nat) (sat : Bool) (last : Bool) (s : State) : Host.Outcome State Fault Refusal :=
  .next (s.vxSlot at' last (Tile.rndLegal rnd (Tile.vx1 (cvtI (rndOf rnd) sat) 3 d a m)))

/-- VCVTF (R170). -/
def execVcvtf (at' : TileAt) (d a m rnd : Nat) (last : Bool) (s : State) : Host.Outcome State Fault Refusal :=
  .next (s.vxSlot at' last (Tile.rndLegal rnd (Tile.vx1 (cvtF (rndOf rnd)) 3 d a m)))

/-- VMXS (R148, R164): four block scales of the included lanes into one whole lane of D. -/
def Tile.vmxs (d a m fmt imm xa : Nat) (xen : Bool) (t : Tile) : Tile :=
  if !fmtMx (fmt % 16) then t.illegal
  else
    let inc := maskLanes (t.mask (m % 16))
    let sc (j : Nat) : Nat := mxScale (fmt % 16) ((inc.filter fun l => decide (l / 32 = j)).map fun l => (t.lane (a % 64) l).val)
    let w := BitVec.ofNat 32 (sc 0 + 256 * sc 1 + 65536 * sc 2 + 16777216 * sc 3)
    t.later (t.next + 3) 1
      (.vec (d % 64) [⟨t.laneIdx imm xa xen, BitVec.allOnes 32, w, inc.any fun l => (t.lane (a % 64) l).poi⟩])
/-- VMXS (R148). -/
def execVmxs (at' : TileAt) (d a m fmt imm xa : Nat) (xen : Bool) (last : Bool) (s : State) : Host.Outcome State Fault Refusal :=
  .next (s.vxSlot at' last (Tile.vmxs d a m fmt imm xa xen))

/-- A TU instruction (R99, R149): twelve cycles, and the TU takes the next one four cycles later (R158). -/
def Tile.tu (f : Word → Word) (d a m : Nat) (t : Tile) : Tile :=
  if t.next < t.tuFree then t.unitBusy
  else { t.vx1 f 12 d a m with tuFree := t.next + 4 }

/-- VEXP2 (Table 4-14). -/
def execVexp2 (at' : TileAt) (d a m : Nat) (last : Bool) (s : State) : Host.Outcome State Fault Refusal :=
  .next (s.vxSlot at' last (Tile.tu tuExp2 d a m))

/-- VLOG2 (Table 4-14). -/
def execVlog2 (at' : TileAt) (d a m : Nat) (last : Bool) (s : State) : Host.Outcome State Fault Refusal :=
  .next (s.vxSlot at' last (Tile.tu tuLog2 d a m))

/-- VRCP (Table 4-14). -/
def execVrcp (at' : TileAt) (d a m : Nat) (last : Bool) (s : State) : Host.Outcome State Fault Refusal :=
  .next (s.vxSlot at' last (Tile.tu tuRcp d a m))

/-- VRSQRT (Table 4-14). -/
def execVrsqrt (at' : TileAt) (d a m : Nat) (last : Bool) (s : State) : Host.Outcome State Fault Refusal :=
  .next (s.vxSlot at' last (Tile.tu tuRsqrt d a m))

/-- VSQRT (Table 4-14). -/
def execVsqrt (at' : TileAt) (d a m : Nat) (last : Bool) (s : State) : Host.Outcome State Fault Refusal :=
  .next (s.vxSlot at' last (Tile.tu tuSqrt d a m))

/-- VTANH (Table 4-14). -/
def execVtanh (at' : TileAt) (d a m : Nat) (last : Bool) (s : State) : Host.Outcome State Fault Refusal :=
  .next (s.vxSlot at' last (Tile.tu tuTanh d a m))

/-- VSINT (Table 4-14). -/
def execVsint (at' : TileAt) (d a m : Nat) (last : Bool) (s : State) : Host.Outcome State Fault Refusal :=
  .next (s.vxSlot at' last (Tile.tu tuSint d a m))

/-- VCOST (Table 4-14). -/
def execVcost (at' : TileAt) (d a m : Nat) (last : Bool) (s : State) : Host.Outcome State Fault Refusal :=
  .next (s.vxSlot at' last (Tile.tu tuCost d a m))

/-- VRAND (R100, R150): the Philox word of each lane's element. -/
def Tile.vrand (d a b m : Nat) (t : Tile) : Tile :=
  if vxScalar a && vxScalar b then
    let e0 := (t.sc (a % 32)).val &&& ~~~3#32
    t.vxVec 6 d m (fun l => pxWord t.pxKey t.pxStep (t.sc (b % 32)).val (e0 + BitVec.ofNat 32 l))
      (fun _ => (t.sc (a % 32)).poi || (t.sc (b % 32)).poi)
  else t.illegal
/-- VRAND (R150). -/
def execVrand (at' : TileAt) (d a b m : Nat) (last : Bool) (s : State) : Host.Outcome State Fault Refusal :=
  .next (s.vxSlot at' last (Tile.vrand d a b m))


end Sys2Proof.Machine
end

