-- ==== Sys2Proof/Machine/Matrix.lean ====
section
/-! DEFINITION. The accumulator instructions of the vector slot (R95, R151, R152) and the matrix slot (R153-R157). -/

namespace Sys2Proof.Machine

/-- Rows of accumulator memory in the tile's weave (Table 3-9). -/
def Tile.accRows (t : Tile) : Nat := if t.accClose then 1024 else 3072

/-- The row of an accumulator instruction: (IMM + aXA if XEN) mod 8,192 (R151). -/
def Tile.vxRow (t : Tile) (imm xa : Nat) (xen : Bool) : Nat :=
  (imm % 8192 + (if xen then (t.ad (xa % 16)).toNat else 0)) % 8192

/-- VACR: open weave reads the bits as stored in 3 cycles, close weave rounds to FP32 in 5 (Table 4-15). -/
def Tile.vacr (d m rnd imm xa : Nat) (xen : Bool) (hits : List EccHit) (t : Tile) : Tile :=
  let row := t.vxRow imm xa xen
  if t.accRows ≤ row || (t.accClose && decide (2 ≤ rnd % 4)) then t.illegal
  else t.access1 .vx hits
    (.vacr (d % 64) row (t.mask (m % 16)) (if t.accClose then 5 else 3) (rndOf (rnd % 4)) t.accClose)
def execVacr (at' : TileAt) (d m rnd imm xa : Nat) (xen : Bool) (hits : List EccHit) (last : Bool) (s : State) :
    Host.Outcome State Fault Refusal :=
  .next (s.vxSlot at' last (Tile.vacr d m rnd imm xa xen hits))

/-- VACRR: one raw part of a close-weave row. -/
def Tile.vacrr (d m part imm xa : Nat) (xen : Bool) (hits : List EccHit) (t : Tile) : Tile :=
  let row := t.vxRow imm xa xen
  if t.accRows ≤ row || !t.accClose then t.illegal
  else t.access1 .vx hits (.vacrr (d % 64) row (part % 4) (t.mask (m % 16)))
def execVacrr (at' : TileAt) (d m part imm xa : Nat) (xen : Bool) (hits : List EccHit) (last : Bool) (s : State) :
    Host.Outcome State Fault Refusal :=
  .next (s.vxSlot at' last (Tile.vacrr d m part imm xa xen hits))

/-- The unmasked lanes of a register as entry writes. -/
def Tile.laneWs (t : Tile) (a m : Nat) : List LaneW :=
  (maskLanes (t.mask (m % 16))).map fun l =>
    ⟨l, BitVec.allOnes 32, (t.lane (a % 64) l).val, (t.lane (a % 64) l).poi⟩

/-- VACW: an open-weave row takes the unmasked lanes. -/
def Tile.vacw (a m imm xa : Nat) (xen : Bool) (t : Tile) : Tile :=
  let row := t.vxRow imm xa xen
  if t.accRows ≤ row || t.accClose then t.illegal
  else t.access1 .vx [] (.vacw row (t.laneWs a m))
def execVacw (at' : TileAt) (a m imm xa : Nat) (xen last : Bool) (s : State) : Host.Outcome State Fault Refusal :=
  .next (s.vxSlot at' last (Tile.vacw a m imm xa xen))

/-- VACWR: one raw part; the tag part applies the entry (R95). -/
def Tile.vacwr (a m part imm xa : Nat) (xen : Bool) (t : Tile) : Tile :=
  let row := t.vxRow imm xa xen
  if t.accRows ≤ row || !t.accClose then t.illegal
  else t.access1 .vx [] (.vacwr row (part % 4) (t.laneWs a m))
def execVacwr (at' : TileAt) (a m part imm xa : Nat) (xen last : Bool) (s : State) : Host.Outcome State Fault Refusal :=
  .next (s.vxSlot at' last (Tile.vacwr a m part imm xa xen))

/-- The present bundle's MX slot runs `f`. -/
def State.mxSlot (s : State) (a : TileAt) (last : Bool) (f : Tile → Tile) : State := s.issue a .mx last f

/-- MMA (R155-R157): illegal where the formats do not pair, the buffer was not loaded since the tile left IDLE, or the
row does not exist; busy in the cycle after another close-weave MMA. One that is both raises ILLEGAL alone (DESIGN CHOICE, log entry 67). -/
def Tile.mma (sa xa row buf sfmt ca : Nat) (spost xen ovw cpost : Bool) (hits : List EccHit) (t : Tile) : Tile :=
  let b := t.buf (buf % 2)
  let r := (row % 4096 + (if xen then (t.ad (xa % 16)).toNat % 4096 else 0)) % 4096
  let f := sfmt % 16
  if !b.loaded || !mmaPair f b.fmt || t.accRows ≤ r then t.illegal
  else if t.accClose && decide (t.next < t.mmaFree) then t.unitBusy
  else
    let c := (t.ad (ca % 16)).toNat
    let n := fmtK f / 32
    let fresh := fmtMx f && decide (c % 32 = 0)
    let t := t.access1 .mx hits
      (.mma ((t.ad (sa % 16)).toNat / 64 * 64) (if fresh then some c else none) (c % 32) r (buf % 2) f b.fmt ovw t.accClose)
    let t := if spost then t.advance .mx (sa % 16) 64 else t
    let t := if cpost && fmtMx f then t.advance .mx (ca % 16) n else t
    if t.accClose then { t with mmaFree := t.next + 2 } else t
def execMma (at' : TileAt) (sa xa row buf sfmt ca : Nat) (spost xen ovw cpost : Bool) (hits : List EccHit) (last : Bool)
    (s : State) : Host.Outcome State Fault Refusal :=
  .next (s.mxSlot at' last (Tile.mma sa xa row buf sfmt ca spost xen ovw cpost hits))

/-- RLOAD (R87, R154): chunk j in cycle u + 1 + j, the scale area in cycle u + n; the format is recorded at issue. A new
load clears the buffer's poison (Table 3-12). `hits` counts words through the chunks and on through the scale area. One both illegal and busy raises
ILLEGAL alone (DESIGN CHOICE, log entry 67). -/
def Tile.rload (sa buf fmt ca : Nat) (post cpost : Bool) (hits : List EccHit) (t : Tile) : Tile :=
  let f := fmt % 16
  if fmtK f = 0 then t.illegal
  else if t.next < t.rlFree then t.unitBusy
  else
    let a := (t.ad (sa % 16)).toNat / 512 * 512
    let c := (t.ad (ca % 16)).toNat / 512 * 512
    let chunks := (List.range (rloadChunks f)).map fun j =>
      (⟨t.next + 1 + j, 0, .rchunk (buf % 2) ((a + 512 * j) % 2 ^ 22) (512 * j),
        (hits.filter fun h => decide (h.word / 64 = j)).map fun h => ⟨h.word % 64, h.ue⟩⟩ : AccessAt)
    let scale := if fmtMx f then [(⟨t.next + rloadN f, 0, .rscale (buf % 2) c (scaleBytes f),
        (hits.filter fun h => decide (h.word / 64 = rloadChunks f)).map fun h => ⟨h.word % 64, h.ue⟩⟩ : AccessAt)] else []
    let b := t.buf (buf % 2)
    let t := { t.putBuf (buf % 2) { b with fmt := f, loaded := true, poi := false } with
                 accs := t.accs ++ chunks ++ scale, rlFree := t.next + rloadN f }
    let t := if post then t.advance .mx (sa % 16) (512 * rloadChunks f : Nat) else t
    if cpost && fmtMx f then t.advance .mx (ca % 16) (scaleBytes f) else t
def execRload (at' : TileAt) (sa buf fmt ca : Nat) (post cpost : Bool) (hits : List EccHit) (last : Bool) (s : State) :
    Host.Outcome State Fault Refusal :=
  .next (s.mxSlot at' last (Tile.rload sa buf fmt ca post cpost hits))

end Sys2Proof.Machine
end

