-- ==== Sys2Proof/Machine/Scalar.lean ====
section
/-! DEFINITION. The scalar and control slot (R120-R129): arithmetic, address and loop registers, the generator state,
counted loops, SYNC and END. Every SC result lands one cycle after issue (Table 4-5). -/

namespace Sys2Proof.Machine

/-- The present bundle's SC slot runs `f`. -/
def State.scSlot (s : State) (a : TileAt) (last : Bool) (f : Tile → Tile) : State := s.issue a .sc last f

/-- A scalar result (R121). -/
def Tile.scRes (t : Tile) (d : Nat) (v : Word) (p : Bool) : Tile := t.later (t.next + 1) 4 (.scal (d % 32) v p)

/-- A register form: `op` of two scalars, poisoned when either is (R121). -/
def Tile.scRR (op : Word → Word → Word) (d a b : Nat) (t : Tile) : Tile :=
  t.scRes d (op (t.sc (a % 32)).val (t.sc (b % 32)).val) ((t.sc (a % 32)).poi || (t.sc (b % 32)).poi)

/-- An immediate form. -/
def Tile.scRI (op : Word → Word → Word) (d a imm : Nat) (t : Tile) : Tile :=
  t.scRes d (op (t.sc (a % 32)).val (BitVec.ofNat 32 imm)) (t.sc (a % 32)).poi

/-- An address result; a 5-bit field that names no address register makes the slot illegal (R118). -/
def Tile.scAddr (t : Tile) (d : Nat) (v : BitVec 22) : Tile := t.later (t.next + 1) 4 (.addr (d % 32) v)

def addrField (r : Nat) : Bool := decide (r % 32 < 16)

/-- A poisoned scalar moved into an address, loop or generator register sets TAINT (R79, R121). -/
def Tile.taintIf (t : Tile) (p : Bool) : Tile := if p then { t with taint := true } else t

def opSadd (x y : Word) : Word := x + y
/-- SADD (Table 4-5). -/
def execSadd (at' : TileAt) (d a b : Nat) (last : Bool) (s : State) : Host.Outcome State Fault Refusal :=
  .next (s.scSlot at' last (Tile.scRR opSadd d a b))

def opSsub (x y : Word) : Word := x - y
/-- SSUB (Table 4-5). -/
def execSsub (at' : TileAt) (d a b : Nat) (last : Bool) (s : State) : Host.Outcome State Fault Refusal :=
  .next (s.scSlot at' last (Tile.scRR opSsub d a b))

def opSmul (x y : Word) : Word := x * y
/-- SMUL (Table 4-5). -/
def execSmul (at' : TileAt) (d a b : Nat) (last : Bool) (s : State) : Host.Outcome State Fault Refusal :=
  .next (s.scSlot at' last (Tile.scRR opSmul d a b))

def opSand (x y : Word) : Word := x &&& y
/-- SAND (Table 4-5). -/
def execSand (at' : TileAt) (d a b : Nat) (last : Bool) (s : State) : Host.Outcome State Fault Refusal :=
  .next (s.scSlot at' last (Tile.scRR opSand d a b))

def opSor (x y : Word) : Word := x ||| y
/-- SOR (Table 4-5). -/
def execSor (at' : TileAt) (d a b : Nat) (last : Bool) (s : State) : Host.Outcome State Fault Refusal :=
  .next (s.scSlot at' last (Tile.scRR opSor d a b))

def opSxor (x y : Word) : Word := x ^^^ y
/-- SXOR (Table 4-5). -/
def execSxor (at' : TileAt) (d a b : Nat) (last : Bool) (s : State) : Host.Outcome State Fault Refusal :=
  .next (s.scSlot at' last (Tile.scRR opSxor d a b))

def opSshl (x y : Word) : Word := x <<< (y.toNat % 32)
/-- SSHL (Table 4-5). -/
def execSshl (at' : TileAt) (d a b : Nat) (last : Bool) (s : State) : Host.Outcome State Fault Refusal :=
  .next (s.scSlot at' last (Tile.scRR opSshl d a b))

def opSshr (x y : Word) : Word := x >>> (y.toNat % 32)
/-- SSHR (Table 4-5). -/
def execSshr (at' : TileAt) (d a b : Nat) (last : Bool) (s : State) : Host.Outcome State Fault Refusal :=
  .next (s.scSlot at' last (Tile.scRR opSshr d a b))

def opSsra (x y : Word) : Word := x.sshiftRight (y.toNat % 32)
/-- SSRA (Table 4-5). -/
def execSsra (at' : TileAt) (d a b : Nat) (last : Bool) (s : State) : Host.Outcome State Fault Refusal :=
  .next (s.scSlot at' last (Tile.scRR opSsra d a b))

def opSmin (x y : Word) : Word := if x.sle y then x else y
/-- SMIN (Table 4-5). -/
def execSmin (at' : TileAt) (d a b : Nat) (last : Bool) (s : State) : Host.Outcome State Fault Refusal :=
  .next (s.scSlot at' last (Tile.scRR opSmin d a b))

def opSmax (x y : Word) : Word := if x.sle y then y else x
/-- SMAX (Table 4-5). -/
def execSmax (at' : TileAt) (d a b : Nat) (last : Bool) (s : State) : Host.Outcome State Fault Refusal :=
  .next (s.scSlot at' last (Tile.scRR opSmax d a b))

def opSslt (x y : Word) : Word := if x.slt y then 1#32 else 0#32
/-- SSLT (Table 4-5). -/
def execSslt (at' : TileAt) (d a b : Nat) (last : Bool) (s : State) : Host.Outcome State Fault Refusal :=
  .next (s.scSlot at' last (Tile.scRR opSslt d a b))

def opSsltu (x y : Word) : Word := if x.ult y then 1#32 else 0#32
/-- SSLTU (Table 4-5). -/
def execSsltu (at' : TileAt) (d a b : Nat) (last : Bool) (s : State) : Host.Outcome State Fault Refusal :=
  .next (s.scSlot at' last (Tile.scRR opSsltu d a b))

def opSaddi (x y : Word) : Word := x + y
/-- SADDI (Table 4-5). -/
def execSaddi (at' : TileAt) (d a imm : Nat) (last : Bool) (s : State) : Host.Outcome State Fault Refusal :=
  .next (s.scSlot at' last (Tile.scRI opSaddi d a imm))

def opSmuli (x y : Word) : Word := x * y
/-- SMULI (Table 4-5). -/
def execSmuli (at' : TileAt) (d a imm : Nat) (last : Bool) (s : State) : Host.Outcome State Fault Refusal :=
  .next (s.scSlot at' last (Tile.scRI opSmuli d a imm))

def opSandi (x y : Word) : Word := x &&& y
/-- SANDI (Table 4-5). -/
def execSandi (at' : TileAt) (d a imm : Nat) (last : Bool) (s : State) : Host.Outcome State Fault Refusal :=
  .next (s.scSlot at' last (Tile.scRI opSandi d a imm))

def opSori (x y : Word) : Word := x ||| y
/-- SORI (Table 4-5). -/
def execSori (at' : TileAt) (d a imm : Nat) (last : Bool) (s : State) : Host.Outcome State Fault Refusal :=
  .next (s.scSlot at' last (Tile.scRI opSori d a imm))

def opSxori (x y : Word) : Word := x ^^^ y
/-- SXORI (Table 4-5). -/
def execSxori (at' : TileAt) (d a imm : Nat) (last : Bool) (s : State) : Host.Outcome State Fault Refusal :=
  .next (s.scSlot at' last (Tile.scRI opSxori d a imm))

def opSshli (x y : Word) : Word := x <<< (y.toNat % 32)
/-- SSHLI (Table 4-5). -/
def execSshli (at' : TileAt) (d a imm : Nat) (last : Bool) (s : State) : Host.Outcome State Fault Refusal :=
  .next (s.scSlot at' last (Tile.scRI opSshli d a imm))

def opSshri (x y : Word) : Word := x >>> (y.toNat % 32)
/-- SSHRI (Table 4-5). -/
def execSshri (at' : TileAt) (d a imm : Nat) (last : Bool) (s : State) : Host.Outcome State Fault Refusal :=
  .next (s.scSlot at' last (Tile.scRI opSshri d a imm))

def opSsrai (x y : Word) : Word := x.sshiftRight (y.toNat % 32)
/-- SSRAI (Table 4-5). -/
def execSsrai (at' : TileAt) (d a imm : Nat) (last : Bool) (s : State) : Host.Outcome State Fault Refusal :=
  .next (s.scSlot at' last (Tile.scRI opSsrai d a imm))

/-- SLI: the immediate. -/
def Tile.sli (d imm : Nat) (t : Tile) : Tile := t.scRes d (BitVec.ofNat 32 imm) false
def execSli (at' : TileAt) (d imm : Nat) (last : Bool) (s : State) : Host.Outcome State Fault Refusal :=
  .next (s.scSlot at' last (Tile.sli d imm))

/-- ALI: IMM[21:0] into an address register. -/
def Tile.ali (d imm : Nat) (t : Tile) : Tile :=
  if addrField d then t.scAddr d (BitVec.ofNat 22 imm) else t.illegal
def execAli (at' : TileAt) (d imm : Nat) (last : Bool) (s : State) : Host.Outcome State Fault Refusal :=
  .next (s.scSlot at' last (Tile.ali d imm))

/-- AADDI: aA + IMM[21:0] modulo 2^22. -/
def Tile.aaddi (d a imm : Nat) (t : Tile) : Tile :=
  if addrField d && addrField a then t.scAddr d (t.ad (a % 32) + BitVec.ofNat 22 imm) else t.illegal
def execAaddi (at' : TileAt) (d a imm : Nat) (last : Bool) (s : State) : Host.Outcome State Fault Refusal :=
  .next (s.scSlot at' last (Tile.aaddi d a imm))

/-- AADD: aA + sB[21:0]; a poisoned sB sets TAINT. -/
def Tile.aadd (d a b : Nat) (t : Tile) : Tile :=
  if addrField d && addrField a then
    (t.scAddr d (t.ad (a % 32) + (t.sc (b % 32)).val.truncate 22)).taintIf (t.sc (b % 32)).poi
  else t.illegal
def execAadd (at' : TileAt) (d a b : Nat) (last : Bool) (s : State) : Host.Outcome State Fault Refusal :=
  .next (s.scSlot at' last (Tile.aadd d a b))

/-- AMOV: sA[21:0]; a poisoned sA sets TAINT. -/
def Tile.amov (d a : Nat) (t : Tile) : Tile :=
  if addrField d then (t.scAddr d ((t.sc (a % 32)).val.truncate 22)).taintIf (t.sc (a % 32)).poi else t.illegal
def execAmov (at' : TileAt) (d a : Nat) (last : Bool) (s : State) : Host.Outcome State Fault Refusal :=
  .next (s.scSlot at' last (Tile.amov d a))

/-- SRDA: aA zero-extended, never poisoned (R121). -/
def Tile.srda (d a : Nat) (t : Tile) : Tile :=
  if addrField a then t.scRes d ((t.ad (a % 32)).zeroExtend 32) false else t.illegal
def execSrda (at' : TileAt) (d a : Nat) (last : Bool) (s : State) : Host.Outcome State Fault Refusal :=
  .next (s.scSlot at' last (Tile.srda d a))

/-- LOOP (R123-R125): illegal with four loops open, END at or before this bundle, or END beyond the innermost loop's. A
trip count of 0 closes at once: the next bundle is the one after END. -/
def Tile.loop (endAt trip : Nat) (t : Tile) : Tile :=
  let e := endAt % 8192
  if 4 ≤ t.loops.length || e ≤ t.pc || (match t.loops with | l :: _ => decide (l.last < e) | [] => false) then t.illegal
  else
    let t := t.later (t.next + 1) 4 (.loopc t.loops.length 0#16 true)
    if trip % 65536 = 0 then { t with skip := some (e + 1) }
    else { t with loops := ⟨t.pc + 1, e, trip % 65536, 0⟩ :: t.loops }
def execLoop (at' : TileAt) (endAt trip : Nat) (last : Bool) (s : State) : Host.Outcome State Fault Refusal :=
  .next (s.scSlot at' last (Tile.loop endAt trip))

/-- CSET: cD takes sA[15:0]; a poisoned sA sets TAINT. The trip count does not change (R126). -/
def Tile.cset (d a : Nat) (t : Tile) : Tile :=
  (t.later (t.next + 1) 4 (.loopc (d % 4) ((t.sc (a % 32)).val.truncate 16) false)).taintIf (t.sc (a % 32)).poi
def execCset (at' : TileAt) (d a : Nat) (last : Bool) (s : State) : Host.Outcome State Fault Refusal :=
  .next (s.scSlot at' last (Tile.cset d a))

/-- SRDC: cA zero-extended, never poisoned. -/
def Tile.srdc (d a : Nat) (t : Tile) : Tile := t.scRes d ((t.lc (a % 4)).zeroExtend 32) false
def execSrdc (at' : TileAt) (d a : Nat) (last : Bool) (s : State) : Host.Outcome State Fault Refusal :=
  .next (s.scSlot at' last (Tile.srdc d a))

/-- The 64-bit value sB * 2^32 + sA of PXKEY and PXSTEP. -/
def Tile.pxPair (t : Tile) (a b : Nat) : BitVec 64 := (t.sc (b % 32)).val ++ (t.sc (a % 32)).val

/-- PXKEY (R101, R121). -/
def Tile.pxkey (a b : Nat) (t : Tile) : Tile :=
  (t.later (t.next + 1) 4 (.pxKey (t.pxPair a b))).taintIf ((t.sc (a % 32)).poi || (t.sc (b % 32)).poi)
def execPxkey (at' : TileAt) (a b : Nat) (last : Bool) (s : State) : Host.Outcome State Fault Refusal :=
  .next (s.scSlot at' last (Tile.pxkey a b))

/-- PXSTEP. -/
def Tile.pxstep (a b : Nat) (t : Tile) : Tile :=
  (t.later (t.next + 1) 4 (.pxStep (t.pxPair a b))).taintIf ((t.sc (a % 32)).poi || (t.sc (b % 32)).poi)
def execPxstep (at' : TileAt) (a b : Nat) (last : Bool) (s : State) : Host.Outcome State Fault Refusal :=
  .next (s.scSlot at' last (Tile.pxstep a b))

/-- PXINC: PX_STEP + IMM modulo 2^64. -/
def Tile.pxinc (imm : Nat) (t : Tile) : Tile :=
  t.later (t.next + 1) 4 (.pxStep (t.pxStep + BitVec.ofNat 64 (imm % 2 ^ 32)))
def execPxinc (at' : TileAt) (imm : Nat) (last : Bool) (s : State) : Host.Outcome State Fault Refusal :=
  .next (s.scSlot at' last (Tile.pxinc imm))

/-- SCYC: the low 32 bits of the run-cycle count (R122), never poisoned. -/
def Tile.scyc (d : Nat) (t : Tile) : Tile := t.scRes d (BitVec.ofNat 32 (t.runCount t.next)) false
def execScyc (at' : TileAt) (d : Nat) (last : Bool) (s : State) : Host.Outcome State Fault Refusal :=
  .next (s.scSlot at' last (Tile.scyc d))

/-- SYNC (R127, R128): illegal where a loop ends here; otherwise no later bundle issues. -/
def Tile.syncSlot (entry id : Nat) (keep : Bool) (t : Tile) : Tile :=
  if t.loops.any fun l => decide (l.last = t.pc) then t.illegal
  else { t with halt := some ⟨false, entry % 8192, id % 256, keep⟩ }
def execSync (at' : TileAt) (entry id : Nat) (keep last : Bool) (s : State) : Host.Outcome State Fault Refusal :=
  .next (s.scSlot at' last (Tile.syncSlot entry id keep))

/-- END executes like SYNC (R129); R128's illegal case names SYNC alone. -/
def Tile.endSlot (t : Tile) : Tile := { t with halt := some ⟨true, 0, 0, false⟩ }
def execTileEnd (at' : TileAt) (last : Bool) (s : State) : Host.Outcome State Fault Refusal :=
  .next (s.scSlot at' last Tile.endSlot)

end Sys2Proof.Machine
end

