-- ==== Sys2Proof/Machine/Dispatch.lean ====
section
/-! DEFINITION. Which meaning each command has: one arm per constructor, each one direct call. -/

namespace Sys2Proof.Machine
open Sys2Proof

/-- The effect of a command on everything but the queue. -/
def exec (i : Instr) (s : State) : Host.Outcome State Fault Refusal :=
  match i with
  | .bar0Write hoop page off val be => Sys2Proof.Machine.execBar0Write hoop page off val be s
  | .multiwordLowRead hoop page off len ue => Sys2Proof.Machine.execMultiwordLowRead hoop page off len ue s
  | .noAnswer hoop page off => Sys2Proof.Machine.execNoAnswer hoop page off s
  | .keyUnlock hoop page val => Sys2Proof.Machine.execKeyUnlock hoop page val s
  | .softReset hoop page val => Sys2Proof.Machine.execSoftReset hoop page val s
  | .softResetComplete page => Sys2Proof.Machine.execSoftResetComplete page s
  | .fstatClear hoop page val => Sys2Proof.Machine.execFstatClear hoop page val s
  | .snapshotRequest hoop val => Sys2Proof.Machine.execSnapshotRequest hoop val s
  | .snapFrame die hoop => Sys2Proof.Machine.execSnapFrame die hoop s
  | .snapshotLatch hoop => Sys2Proof.Machine.execSnapshotLatch hoop s
  | .snapshotComplete hoop => Sys2Proof.Machine.execSnapshotComplete hoop s
  | .snapshotTimeout hoop => Sys2Proof.Machine.execSnapshotTimeout hoop s
  | .stageOpen hoop => Sys2Proof.Machine.execStageOpen hoop s
  | .stageClose hoop => Sys2Proof.Machine.execStageClose hoop s
  | .commit hoop val => Sys2Proof.Machine.execCommit hoop val s
  | .prepare die => Sys2Proof.Machine.execPrepare die s
  | .stageAns die => Sys2Proof.Machine.execStageAns die s
  | .commitAckTimeout => Sys2Proof.Machine.execCommitAckTimeout s
  | .commitMark die => Sys2Proof.Machine.execCommitMark die s
  | .commitApply => Sys2Proof.Machine.execCommitApply s
  | .stageDiscard die => Sys2Proof.Machine.execStageDiscard die s
  | .frozenBufferTimeout die => Sys2Proof.Machine.execFrozenBufferTimeout die s
  | .tagSave hoop val => Sys2Proof.Machine.execTagSave hoop val s
  | .tagSaveComplete ok => Sys2Proof.Machine.execTagSaveComplete ok s
  | .tileEnable hoop page val => Sys2Proof.Machine.execTileEnable hoop page val s
  | .accModeWrite hoop page val => Sys2Proof.Machine.execAccModeWrite hoop page val s
  | .tileZero hoop page val => Sys2Proof.Machine.execTileZero hoop page val s
  | .tileZeroComplete at' => Sys2Proof.Machine.execTileZeroComplete at' s
  | .tgCounterClear hoop page val => Sys2Proof.Machine.execTgCounterClear hoop page val s
  | .emptyBundle at' hdr bad last => Sys2Proof.Machine.execEmptyBundle at' hdr bad last s
  | .invalidBlockIssue at' err => Sys2Proof.Machine.execInvalidBlockIssue at' err s
  | .resultLand at' => Sys2Proof.Machine.execResultLand at' s
  | .residentChunkRead at' => Sys2Proof.Machine.execResidentChunkRead at' s
  | .mmaRowUpdate at' => Sys2Proof.Machine.execMmaRowUpdate at' s
  | .loadDelivery die col => Sys2Proof.Machine.execLoadDelivery die col s
  | .tileEnterHeld at' => Sys2Proof.Machine.execTileEnterHeld at' s
  | .tileEnterIdle at' => Sys2Proof.Machine.execTileEnterIdle at' s
  | .sli at' d imm last => Sys2Proof.Machine.execSli at' d imm last s
  | .sadd at' d a b last => Sys2Proof.Machine.execSadd at' d a b last s
  | .saddi at' d a imm last => Sys2Proof.Machine.execSaddi at' d a imm last s
  | .ssub at' d a b last => Sys2Proof.Machine.execSsub at' d a b last s
  | .smul at' d a b last => Sys2Proof.Machine.execSmul at' d a b last s
  | .smuli at' d a imm last => Sys2Proof.Machine.execSmuli at' d a imm last s
  | .sand at' d a b last => Sys2Proof.Machine.execSand at' d a b last s
  | .sandi at' d a imm last => Sys2Proof.Machine.execSandi at' d a imm last s
  | .sor at' d a b last => Sys2Proof.Machine.execSor at' d a b last s
  | .sori at' d a imm last => Sys2Proof.Machine.execSori at' d a imm last s
  | .sxor at' d a b last => Sys2Proof.Machine.execSxor at' d a b last s
  | .sxori at' d a imm last => Sys2Proof.Machine.execSxori at' d a imm last s
  | .sshl at' d a b last => Sys2Proof.Machine.execSshl at' d a b last s
  | .sshli at' d a imm last => Sys2Proof.Machine.execSshli at' d a imm last s
  | .sshr at' d a b last => Sys2Proof.Machine.execSshr at' d a b last s
  | .sshri at' d a imm last => Sys2Proof.Machine.execSshri at' d a imm last s
  | .ssra at' d a b last => Sys2Proof.Machine.execSsra at' d a b last s
  | .ssrai at' d a imm last => Sys2Proof.Machine.execSsrai at' d a imm last s
  | .smin at' d a b last => Sys2Proof.Machine.execSmin at' d a b last s
  | .smax at' d a b last => Sys2Proof.Machine.execSmax at' d a b last s
  | .sslt at' d a b last => Sys2Proof.Machine.execSslt at' d a b last s
  | .ssltu at' d a b last => Sys2Proof.Machine.execSsltu at' d a b last s
  | .ali at' d imm last => Sys2Proof.Machine.execAli at' d imm last s
  | .aaddi at' d a imm last => Sys2Proof.Machine.execAaddi at' d a imm last s
  | .aadd at' d a b last => Sys2Proof.Machine.execAadd at' d a b last s
  | .amov at' d a last => Sys2Proof.Machine.execAmov at' d a last s
  | .srda at' d a last => Sys2Proof.Machine.execSrda at' d a last s
  | .loop at' endAt trip last => Sys2Proof.Machine.execLoop at' endAt trip last s
  | .cset at' d a last => Sys2Proof.Machine.execCset at' d a last s
  | .srdc at' d a last => Sys2Proof.Machine.execSrdc at' d a last s
  | .pxkey at' a b last => Sys2Proof.Machine.execPxkey at' a b last s
  | .pxstep at' a b last => Sys2Proof.Machine.execPxstep at' a b last s
  | .pxinc at' imm last => Sys2Proof.Machine.execPxinc at' imm last s
  | .scyc at' d last => Sys2Proof.Machine.execScyc at' d last s
  | .sync at' entry id keep last => Sys2Proof.Machine.execSync at' entry id keep last s
  | .tileEnd at' last => Sys2Proof.Machine.execTileEnd at' last s
  | .vld at' r b offset m inc post hits last => Sys2Proof.Machine.execVld at' r b offset m inc post hits last s
  | .vst at' r b offset m inc post hits last => Sys2Proof.Machine.execVst at' r b offset m inc post hits last s
  | .vldbc at' r b offset m inc post hits last => Sys2Proof.Machine.execVldbc at' r b offset m inc post hits last s
  | .sld at' r b offset inc post hits last => Sys2Proof.Machine.execSld at' r b offset inc post hits last s
  | .sst at' r b offset inc post hits last => Sys2Proof.Machine.execSst at' r b offset inc post hits last s
  | .sld2 at' r b offset inc post hits last => Sys2Proof.Machine.execSld2 at' r b offset inc post hits last s
  | .sst2 at' r b offset inc post hits last => Sys2Proof.Machine.execSst2 at' r b offset inc post hits last s
  | .nmSend at' sa slen sinc hits last => Sys2Proof.Machine.execNmSend at' sa slen sinc hits last s
  | .nmReceive at' ra rlen rinc rimem hits last => Sys2Proof.Machine.execNmReceive at' ra rlen rinc rimem hits last s
  | .vmov at' d a m last => Sys2Proof.Machine.execVmov at' d a m last s
  | .viadd at' d a b m last => Sys2Proof.Machine.execViadd at' d a b m last s
  | .visub at' d a b m last => Sys2Proof.Machine.execVisub at' d a b m last s
  | .vimul at' d a b m last => Sys2Proof.Machine.execVimul at' d a b m last s
  | .vimin at' d a b m last => Sys2Proof.Machine.execVimin at' d a b m last s
  | .vimax at' d a b m last => Sys2Proof.Machine.execVimax at' d a b m last s
  | .vand at' d a b m last => Sys2Proof.Machine.execVand at' d a b m last s
  | .vor at' d a b m last => Sys2Proof.Machine.execVor at' d a b m last s
  | .vxor at' d a b m last => Sys2Proof.Machine.execVxor at' d a b m last s
  | .vandn at' d a b m last => Sys2Proof.Machine.execVandn at' d a b m last s
  | .vshl at' d a b m last => Sys2Proof.Machine.execVshl at' d a b m last s
  | .vshr at' d a b m last => Sys2Proof.Machine.execVshr at' d a b m last s
  | .vsra at' d a b m last => Sys2Proof.Machine.execVsra at' d a b m last s
  | .vshli at' d a m imm last => Sys2Proof.Machine.execVshli at' d a m imm last s
  | .vshri at' d a m imm last => Sys2Proof.Machine.execVshri at' d a m imm last s
  | .vsrai at' d a m imm last => Sys2Proof.Machine.execVsrai at' d a m imm last s
  | .vsel at' d a b c m last => Sys2Proof.Machine.execVsel at' d a b c m last s
  | .vbcs at' d a m last => Sys2Proof.Machine.execVbcs at' d a m last s
  | .vext at' d a imm xa xen last => Sys2Proof.Machine.execVext at' d a imm xa xen last s
  | .vins at' d a imm xa xen last => Sys2Proof.Machine.execVins at' d a imm xa xen last s
  | .vrot at' d a m imm last => Sys2Proof.Machine.execVrot at' d a m imm last s
  | .vlane at' d m last => Sys2Proof.Machine.execVlane at' d m last s
  | .vfabs at' d a m last => Sys2Proof.Machine.execVfabs at' d a m last s
  | .vfneg at' d a m last => Sys2Proof.Machine.execVfneg at' d a m last s
  | .vcmpf at' d a b m imm last => Sys2Proof.Machine.execVcmpf at' d a b m imm last s
  | .vcmpi at' d a b m imm last => Sys2Proof.Machine.execVcmpi at' d a b m imm last s
  | .mand at' d a b m last => Sys2Proof.Machine.execMand at' d a b m last s
  | .mor at' d a b m last => Sys2Proof.Machine.execMor at' d a b m last s
  | .mxor at' d a b m last => Sys2Proof.Machine.execMxor at' d a b m last s
  | .mandn at' d a b m last => Sys2Proof.Machine.execMandn at' d a b m last s
  | .mfromv at' d a m last => Sys2Proof.Machine.execMfromv at' d a m last s
  | .mtov at' d a m last => Sys2Proof.Machine.execMtov at' d a m last s
  | .vfadd at' d a b m rnd last => Sys2Proof.Machine.execVfadd at' d a b m rnd last s
  | .vfsub at' d a b m rnd last => Sys2Proof.Machine.execVfsub at' d a b m rnd last s
  | .vfmul at' d a b m rnd last => Sys2Proof.Machine.execVfmul at' d a b m rnd last s
  | .vffma at' d a b c m rnd last => Sys2Proof.Machine.execVffma at' d a b c m rnd last s
  | .vfmax at' d a b m last => Sys2Proof.Machine.execVfmax at' d a b m last s
  | .vfmin at' d a b m last => Sys2Proof.Machine.execVfmin at' d a b m last s
  | .vbadd at' d a b m rnd last => Sys2Proof.Machine.execVbadd at' d a b m rnd last s
  | .vbmul at' d a b m rnd last => Sys2Proof.Machine.execVbmul at' d a b m rnd last s
  | .vbfma at' d a b c m rnd last => Sys2Proof.Machine.execVbfma at' d a b c m rnd last s
  | .vcvtn at' d a b c m rnd fmt part imm xa sat xen last => Sys2Proof.Machine.execVcvtn at' d a b c m rnd fmt part imm xa sat xen last s
  | .vcvtw at' d a b m fmt part imm xa xen last => Sys2Proof.Machine.execVcvtw at' d a b m fmt part imm xa xen last s
  | .vcvti at' d a m rnd sat last => Sys2Proof.Machine.execVcvti at' d a m rnd sat last s
  | .vcvtf at' d a m rnd last => Sys2Proof.Machine.execVcvtf at' d a m rnd last s
  | .vmxs at' d a m fmt imm xa xen last => Sys2Proof.Machine.execVmxs at' d a m fmt imm xa xen last s
  | .vexp2 at' d a m last => Sys2Proof.Machine.execVexp2 at' d a m last s
  | .vlog2 at' d a m last => Sys2Proof.Machine.execVlog2 at' d a m last s
  | .vrcp at' d a m last => Sys2Proof.Machine.execVrcp at' d a m last s
  | .vrsqrt at' d a m last => Sys2Proof.Machine.execVrsqrt at' d a m last s
  | .vsqrt at' d a m last => Sys2Proof.Machine.execVsqrt at' d a m last s
  | .vtanh at' d a m last => Sys2Proof.Machine.execVtanh at' d a m last s
  | .vsint at' d a m last => Sys2Proof.Machine.execVsint at' d a m last s
  | .vcost at' d a m last => Sys2Proof.Machine.execVcost at' d a m last s
  | .vrand at' d a b m last => Sys2Proof.Machine.execVrand at' d a b m last s
  | .vacr at' d m rnd imm xa xen hits last => Sys2Proof.Machine.execVacr at' d m rnd imm xa xen hits last s
  | .vacrr at' d m part imm xa xen hits last => Sys2Proof.Machine.execVacrr at' d m part imm xa xen hits last s
  | .vacw at' a m imm xa xen last => Sys2Proof.Machine.execVacw at' a m imm xa xen last s
  | .vacwr at' a m part imm xa xen last => Sys2Proof.Machine.execVacwr at' a m part imm xa xen last s
  | .mma at' sa xa row buf sfmt ca spost xen ovw cpost hits last => Sys2Proof.Machine.execMma at' sa xa row buf sfmt ca spost xen ovw cpost hits last s
  | .rload at' sa buf fmt ca post cpost hits last => Sys2Proof.Machine.execRload at' sa buf fmt ca post cpost hits last s
  | .frameCheck die count => Sys2Proof.Machine.execFrameCheck die count s
  | .cadenceMessage die good => Sys2Proof.Machine.execCadenceMessage die good s
  | .cadenceApply => Sys2Proof.Machine.execCadenceApply s
  | .alignIssue hoop delay => Sys2Proof.Machine.execAlignIssue hoop delay s
  | .alignEffect silent => Sys2Proof.Machine.execAlignEffect silent s
  | .alignAttemptTimeout => Sys2Proof.Machine.execAlignAttemptTimeout s
  | .meshFlitForward die node par ecc => Sys2Proof.Machine.execMeshFlitForward die node par ecc s
  | .dieReady die => Sys2Proof.Machine.execDieReady die s
  | .dieArrival die => Sys2Proof.Machine.execDieArrival die s
  | .syncNotice die => Sys2Proof.Machine.execSyncNotice die s
  | .syncRelease => Sys2Proof.Machine.execSyncRelease s
  | .syncTimeout die => Sys2Proof.Machine.execSyncTimeout die s
  | .programArm hoop page val => Sys2Proof.Machine.execProgramArm hoop page val s
  | .programLoaded hoop page val => Sys2Proof.Machine.execProgramLoaded hoop page val s
  | .programEnd die => Sys2Proof.Machine.execProgramEnd die s
  | .programStop hoop page val => Sys2Proof.Machine.execProgramStop hoop page val s
  | .stopComplete die => Sys2Proof.Machine.execStopComplete die s
  | .waleProgramSlot die port => Sys2Proof.Machine.execWaleProgramSlot die port s
  | .sideFlitService page hits => Sys2Proof.Machine.execSideFlitService page hits s
  | .imageLoad hoop im => Sys2Proof.Machine.execImageLoad hoop im s
  | .tableWrite hoop page val => Sys2Proof.Machine.execTableWrite hoop page val s
  | .eventDoorbell hoop page val => Sys2Proof.Machine.execEventDoorbell hoop page val s
  | .osCounterClear hoop page val => Sys2Proof.Machine.execOsCounterClear hoop page val s
  | .stNop die eng ue => Sys2Proof.Machine.execStNop die eng ue s
  | .stRd die eng => Sys2Proof.Machine.execStRd die eng s
  | .stWr die eng => Sys2Proof.Machine.execStWr die eng s
  | .rdw die eng => Sys2Proof.Machine.execRdw die eng s
  | .wrw die eng => Sys2Proof.Machine.execWrw die eng s
  | .mw die eng => Sys2Proof.Machine.execMw die eng s
  | .wm die eng => Sys2Proof.Machine.execWm die eng s
  | .sload die eng ue2 => Sys2Proof.Machine.execSload die eng ue2 s
  | .bread die eng ue2 stk => Sys2Proof.Machine.execBread die eng ue2 stk s
  | .bwrite die eng ue2 stk stk2 hits => Sys2Proof.Machine.execBwrite die eng ue2 stk stk2 hits s
  | .loadt die eng ue2 => Sys2Proof.Machine.execLoadt die eng ue2 s
  | .stEndseg die eng => Sys2Proof.Machine.execStEndseg die eng s
  | .transactionIssue die eng stk => Sys2Proof.Machine.execTransactionIssue die eng stk s
  | .readUnitRelease die eng late hits => Sys2Proof.Machine.execReadUnitRelease die eng late hits s
  | .refreshRateChange die stack temp => Sys2Proof.Machine.execRefreshRateChange die stack temp s
  | .patrolScrub die stack hits => Sys2Proof.Machine.execPatrolScrub die stack hits s
  | .neighbourRequest die port => Sys2Proof.Machine.execNeighbourRequest die port s
  | .lenderRequest die peer lgran off write count data hits stk => Sys2Proof.Machine.execLenderRequest die peer lgran off write count data hits stk s
  | .borrowComplete die eng n granted data stk => Sys2Proof.Machine.execBorrowComplete die eng n granted data stk s
  | .borrowTimeout die eng n => Sys2Proof.Machine.execBorrowTimeout die eng n s
  | .hostWindowAccess hoop off len write data hits stk => Sys2Proof.Machine.execHostWindowAccess hoop off len write data hits stk s
  | .stakeWrite hoop page val => Sys2Proof.Machine.execStakeWrite hoop page val s
  | .stSchedWrite hoop page val => Sys2Proof.Machine.execStSchedWrite hoop page val s
  | .stCounterClear hoop page val => Sys2Proof.Machine.execStCounterClear hoop page val s
  | .mcCounterClear hoop page val => Sys2Proof.Machine.execMcCounterClear hoop page val s
  | .engineAbortDone die eng => Sys2Proof.Machine.execEngineAbortDone die eng s
  | .ceNop die ue => Sys2Proof.Machine.execCeNop die ue s
  | .edin die => Sys2Proof.Machine.execEdin die s
  | .edout die => Sys2Proof.Machine.execEdout die s
  | .win die => Sys2Proof.Machine.execWin die s
  | .wout die => Sys2Proof.Machine.execWout die s
  | .lcomb die ue2 => Sys2Proof.Machine.execLcomb die ue2 s
  | .ceGrid die ue2 => Sys2Proof.Machine.execCeGrid die ue2 s
  | .cePack die ue2 => Sys2Proof.Machine.execCePack die ue2 s
  | .roundGrid die ue2 => Sys2Proof.Machine.execRoundGrid die ue2 s
  | .rnd96 die ue2 => Sys2Proof.Machine.execRnd96 die ue2 s
  | .ceSend die => Sys2Proof.Machine.execCeSend die s
  | .ceRecv die => Sys2Proof.Machine.execCeRecv die s
  | .ceEndseg die => Sys2Proof.Machine.execCeEndseg die s
  | .ceItem die hits => Sys2Proof.Machine.execCeItem die hits s
  | .seberTransmitSlot die hits => Sys2Proof.Machine.execSeberTransmitSlot die hits s
  | .seberDeliverySlot die hits => Sys2Proof.Machine.execSeberDeliverySlot die hits s
  | .ceAbortDone die => Sys2Proof.Machine.execCeAbortDone die s
  | .rankTableWrite hoop page val => Sys2Proof.Machine.execRankTableWrite hoop page val s
  | .ceSchedWrite hoop page val => Sys2Proof.Machine.execCeSchedWrite hoop page val s
  | .ceCounterClear hoop page val => Sys2Proof.Machine.execCeCounterClear hoop page val s
  | .pkgTimeArm hoop val => Sys2Proof.Machine.execPkgTimeArm hoop val s
  | .epochInEdge tick => Sys2Proof.Machine.execEpochInEdge tick s
  | .epochStuck => Sys2Proof.Machine.execEpochStuck s
  | .borderArrival die pkg seq id tick => Sys2Proof.Machine.execBorderArrival die pkg seq id tick s
  | .borderRelease die => Sys2Proof.Machine.execBorderRelease die s
  | .auditCollect => Sys2Proof.Machine.execAuditCollect s
  | .dlatAck hoop page val => Sys2Proof.Machine.execDlatAck hoop page val s
  | .breakpointRelease hoop val => Sys2Proof.Machine.execBreakpointRelease hoop val s
  | .waleIdleFlit page err => Sys2Proof.Machine.execWaleIdleFlit page err s
  | .waleSideFlit page err => Sys2Proof.Machine.execWaleSideFlit page err s
  | .waleProgFlit page err => Sys2Proof.Machine.execWaleProgFlit page err s
  | .waleNullFlit page err => Sys2Proof.Machine.execWaleNullFlit page err s
  | .waleEmptyFlit page err => Sys2Proof.Machine.execWaleEmptyFlit page err s
  | .waleTrainFlit page => Sys2Proof.Machine.execWaleTrainFlit page s
  | .waleTokenFlit page n => Sys2Proof.Machine.execWaleTokenFlit page n s
  | .programFlitRelease page => Sys2Proof.Machine.execProgramFlitRelease page s
  | .retrain hoop page val => Sys2Proof.Machine.execRetrain hoop page val s
  | .holdReq hoop page val => Sys2Proof.Machine.execHoldReq hoop page val s
  | .trainingPhaseDone page found eyes slack => Sys2Proof.Machine.execTrainingPhaseDone page found eyes slack s
  | .waleTrainFail page => Sys2Proof.Machine.execWaleTrainFail page s
  | .clockLoss page => Sys2Proof.Machine.execClockLoss page s
  | .holdPattern page => Sys2Proof.Machine.execHoldPattern page s
  | .repairWrite hoop page val => Sys2Proof.Machine.execRepairWrite hoop page val s
  | .wlCounterClear hoop page val => Sys2Proof.Machine.execWlCounterClear hoop page val s
  | .planeEnable hoop page val => Sys2Proof.Machine.execPlaneEnable hoop page val s
  | .inputLit weft fib k dir since => Sys2Proof.Machine.execInputLit weft fib k dir since s
  | .inputDark weft fib k dir => Sys2Proof.Machine.execInputDark weft fib k dir s
  | .acquireDone weft fib k dir found code peak pow => Sys2Proof.Machine.execAcquireDone weft fib k dir found code peak pow s
  | .acquireRetry weft fib k dir => Sys2Proof.Machine.execAcquireRetry weft fib k dir s
  | .fibSlip hoop page val => Sys2Proof.Machine.execFibSlip hoop page val s
  | .blockLock weft fib k => Sys2Proof.Machine.execBlockLock weft fib k s
  | .lockLoss weft fib k bad => Sys2Proof.Machine.execLockLoss weft fib k bad s
  | .wordAlignRound weft fib => Sys2Proof.Machine.execWordAlignRound weft fib s
  | .reacqTx hoop page val => Sys2Proof.Machine.execReacqTx hoop page val s
  | .reacqRx hoop page val => Sys2Proof.Machine.execReacqRx hoop page val s
  | .adaptationWindowEnd weft fib k dir v => Sys2Proof.Machine.execAdaptationWindowEnd weft fib k dir v s
  | .plausibilityCheck weft fib k dir => Sys2Proof.Machine.execPlausibilityCheck weft fib k dir s
  | .calRecompute die => Sys2Proof.Machine.execCalRecompute die s
  | .calCommit hoop page val ecc => Sys2Proof.Machine.execCalCommit hoop page val ecc s
  | .calBankExchange die => Sys2Proof.Machine.execCalBankExchange die s
  | .rdCalCommit hoop page val => Sys2Proof.Machine.execRdCalCommit hoop page val s
  | .recal hoop page val => Sys2Proof.Machine.execRecal hoop page val s
  | .loopbackIdentity weft fib word n => Sys2Proof.Machine.execLoopbackIdentity weft fib word n s
  | .loopbackTimeout weft fib => Sys2Proof.Machine.execLoopbackTimeout weft fib s
  | .laserGroupStart reed => Sys2Proof.Machine.execLaserGroupStart reed s
  | .laserWarmEnd reed k out => Sys2Proof.Machine.execLaserWarmEnd reed k out s
  | .laserOnWrite hoop page val => Sys2Proof.Machine.execLaserOnWrite hoop page val s
  | .allOff hoop page val => Sys2Proof.Machine.execAllOff hoop page val s
  | .rdLaserFail reed k since out driver => Sys2Proof.Machine.execRdLaserFail reed k since out driver s
  | .rdPwrLow reed k since out => Sys2Proof.Machine.execRdPwrLow reed k since out s
  | .spare hoop page val => Sys2Proof.Machine.execSpare hoop page val s
  | .rdSwitchFail reed k => Sys2Proof.Machine.execRdSwitchFail reed k s
  | .fibCounterClear hoop page val => Sys2Proof.Machine.execFibCounterClear hoop page val s
  | .seberEnable hoop page val => Sys2Proof.Machine.execSeberEnable hoop page val s
  | .seberTrainSend weft sub => Sys2Proof.Machine.execSeberTrainSend weft sub s
  | .trainCell weft sub fib c => Sys2Proof.Machine.execTrainCell weft sub fib c s
  | .idleCell weft sub fib n c => Sys2Proof.Machine.execIdleCell weft sub fib n c s
  | .lockedTimeout weft sub => Sys2Proof.Machine.execLockedTimeout weft sub s
  | .dataCell weft sub fib c => Sys2Proof.Machine.execDataCell weft sub fib c s
  | .ackCell weft sub fib c => Sys2Proof.Machine.execAckCell weft sub fib c s
  | .nakCell weft sub fib c ues ces => Sys2Proof.Machine.execNakCell weft sub fib c ues ces s
  | .creditCell weft sub fib c => Sys2Proof.Machine.execCreditCell weft sub fib c s
  | .lanesetCell weft sub fib c => Sys2Proof.Machine.execLanesetCell weft sub fib c s
  | .lsackCell weft sub fib c => Sys2Proof.Machine.execLsackCell weft sub fib c s
  | .collideCell weft sub fib c => Sys2Proof.Machine.execCollideCell weft sub fib c s
  | .relayCell weft sub fib c => Sys2Proof.Machine.execRelayCell weft sub fib c s
  | .drainCell weft sub fib c => Sys2Proof.Machine.execDrainCell weft sub fib c s
  | .reservedCell weft sub fib c => Sys2Proof.Machine.execReservedCell weft sub fib c s
  | .cellTransmit weft sub => Sys2Proof.Machine.execCellTransmit weft sub s
  | .cellDelivery weft sub cls n hits => Sys2Proof.Machine.execCellDelivery weft sub cls n hits s
  | .ackTimeout weft sub ues ces => Sys2Proof.Machine.execAckTimeout weft sub ues ces s
  | .periodicAck weft sub => Sys2Proof.Machine.execPeriodicAck weft sub s
  | .periodicCredit weft sub => Sys2Proof.Machine.execPeriodicCredit weft sub s
  | .bulkGrant weft => Sys2Proof.Machine.execBulkGrant weft s
  | .lanesetRepeat weft sub => Sys2Proof.Machine.execLanesetRepeat weft sub s
  | .retirementWindowEnd weft sub fib => Sys2Proof.Machine.execRetirementWindowEnd weft sub fib s
  | .sbLaneReturn weft sub fib => Sys2Proof.Machine.execSbLaneReturn weft sub fib s
  | .sbFailed weft sub => Sys2Proof.Machine.execSbFailed weft sub s
  | .sbDrain hoop page val => Sys2Proof.Machine.execSbDrain hoop page val s
  | .drainComplete weft sub => Sys2Proof.Machine.execDrainComplete weft sub s
  | .sbDrainTmo weft sub => Sys2Proof.Machine.execSbDrainTmo weft sub s
  | .sbReset hoop page val => Sys2Proof.Machine.execSbReset hoop page val s
  | .sbLaneDrop hoop page val => Sys2Proof.Machine.execSbLaneDrop hoop page val s
  | .sbLaneReturnWrite hoop page val => Sys2Proof.Machine.execSbLaneReturnWrite hoop page val s
  | .sbCounterClear hoop page val => Sys2Proof.Machine.execSbCounterClear hoop page val s
  | .twineWriteFrame f => Sys2Proof.Machine.execTwineWriteFrame f s
  | .twineReadFrame f => Sys2Proof.Machine.execTwineReadFrame f s
  | .readRespFrame hoop => Sys2Proof.Machine.execReadRespFrame hoop s
  | .faultFrame hoop good flashOk => Sys2Proof.Machine.execFaultFrame hoop good flashOk s
  | .sensorFrame hoop die => Sys2Proof.Machine.execSensorFrame hoop die s
  | .noticeFrame die => Sys2Proof.Machine.execNoticeFrame die s
  | .twineGapSkip src dst => Sys2Proof.Machine.execTwineGapSkip src dst s
  | .hopDown die hop => Sys2Proof.Machine.execHopDown die hop s
  | .leaseGrant hoop => Sys2Proof.Machine.execLeaseGrant hoop s
  | .leaseRenew hoop => Sys2Proof.Machine.execLeaseRenew hoop s
  | .leaseStandby hoop => Sys2Proof.Machine.execLeaseStandby hoop s
  | .leaseExpired hoop => Sys2Proof.Machine.execLeaseExpired hoop s
  | .renewalRequest hoop => Sys2Proof.Machine.execRenewalRequest hoop s
  | .takeoverDone hoop => Sys2Proof.Machine.execTakeoverDone hoop s
  | .epochRaise die => Sys2Proof.Machine.execEpochRaise die s
  | .overlapEnd hoop => Sys2Proof.Machine.execOverlapEnd hoop s
  | .heartbeatSend hoop => Sys2Proof.Machine.execHeartbeatSend hoop s
  | .heartbeat hoop => Sys2Proof.Machine.execHeartbeat hoop s
  | .hoopPeerLost hoop => Sys2Proof.Machine.execHoopPeerLost hoop s
  | .soloHoldoff => Sys2Proof.Machine.execSoloHoldoff s
  | .soloEntry => Sys2Proof.Machine.execSoloEntry s
  | .wdogKick hoop page val => Sys2Proof.Machine.execWdogKick hoop page val s
  | .wdogExpired hoop => Sys2Proof.Machine.execWdogExpired hoop s
  | .hoopRebootDone hoop ok => Sys2Proof.Machine.execHoopRebootDone hoop ok s
  | .mirrorSend hoop => Sys2Proof.Machine.execMirrorSend hoop s
  | .mirrorFrame hoop good => Sys2Proof.Machine.execMirrorFrame hoop good s
  | .mirrorCommit hoop good => Sys2Proof.Machine.execMirrorCommit hoop good s
  | .mirrorResync hoop page val => Sys2Proof.Machine.execMirrorResync hoop page val s
  | .hpCounterClear hoop page val => Sys2Proof.Machine.execHpCounterClear hoop page val s
  | .repeatRecord page src => Sys2Proof.Machine.execRepeatRecord page src s
  | .containExpiry page src => Sys2Proof.Machine.execContainExpiry page src s
  | .haltExpiry page src => Sys2Proof.Machine.execHaltExpiry page src s
  | .haltNotice die => Sys2Proof.Machine.execHaltNotice die s
  | .faultAck hoop page val => Sys2Proof.Machine.execFaultAck hoop page val s
  | .ackAtPage hoop => Sys2Proof.Machine.execAckAtPage hoop s
  | .ackNoAnswer hoop => Sys2Proof.Machine.execAckNoAnswer hoop s
  | .faultIntClear hoop page val => Sys2Proof.Machine.execFaultIntClear hoop page val s
  | .faultPinClear hoop page val => Sys2Proof.Machine.execFaultPinClear hoop page val s
  | .faultCoalWrite hoop page val => Sys2Proof.Machine.execFaultCoalWrite hoop page val s
  | .crashLogClear hoop page val => Sys2Proof.Machine.execCrashLogClear hoop page val s
  | .faultCounterClear hoop page val => Sys2Proof.Machine.execFaultCounterClear hoop page val s
  | .perst hoop => Sys2Proof.Machine.execPerst hoop s
  | .pcieWinWrite hoop page val => Sys2Proof.Machine.execPcieWinWrite hoop page val s
  | .cmdDataWrite hoop q off' data poi => Sys2Proof.Machine.execCmdDataWrite hoop q off' data poi s
  | .cmdDataEndWrite hoop q off' data poi => Sys2Proof.Machine.execCmdDataEndWrite hoop q off' data poi s
  | .cmdStatusRead hoop q off' len => Sys2Proof.Machine.execCmdStatusRead hoop q off' len s
  | .eventPop hoop q off' len par => Sys2Proof.Machine.execEventPop hoop q off' len par s
  | .eventPeek hoop q off' len par => Sys2Proof.Machine.execEventPeek hoop q off' len par s
  | .cmdQueueRead hoop q par => Sys2Proof.Machine.execCmdQueueRead hoop q par s
  | .bankSwap hoop q => Sys2Proof.Machine.execBankSwap hoop q s
  | .eventPacketOffer hoop q ws now => Sys2Proof.Machine.execEventPacketOffer hoop q ws now s
  | .slewPtr hoop q => Sys2Proof.Machine.execSlewPtr hoop q s
  | .sqMark hoop page val => Sys2Proof.Machine.execSqMark hoop page val s
  | .sqRewind hoop page val => Sys2Proof.Machine.execSqRewind hoop page val s
  | .sqRelease hoop page val => Sys2Proof.Machine.execSqRelease hoop page val s
  | .wmHitClear hoop page val => Sys2Proof.Machine.execWmHitClear hoop page val s
  | .sqFlush hoop page val => Sys2Proof.Machine.execSqFlush hoop page val s
  | .flushTrunc hoop q => Sys2Proof.Machine.execFlushTrunc hoop q s
  | .sqReset hoop page val => Sys2Proof.Machine.execSqReset hoop page val s
  | .sqCounterClear hoop page val => Sys2Proof.Machine.execSqCounterClear hoop page val s
  | .dmaDescriptor hoop chan => Sys2Proof.Machine.execDmaDescriptor hoop chan s
  | .dmaComplete hoop chan data poi err moved hits stk => Sys2Proof.Machine.execDmaComplete hoop chan data poi err moved hits stk s
  | .dmaRestart hoop page val => Sys2Proof.Machine.execDmaRestart hoop page val s
  | .dmaEnable hoop page val => Sys2Proof.Machine.execDmaEnable hoop page val s
  | .ptmDialogue hoop host => Sys2Proof.Machine.execPtmDialogue hoop host s
  | .huabelNextWrite hoop page val => Sys2Proof.Machine.execHuabelNextWrite hoop page val s
  | .pcieCounterClear hoop page val => Sys2Proof.Machine.execPcieCounterClear hoop page val s
  | .sensorSample die samples => Sys2Proof.Machine.execSensorSample die samples s
  | .tempWarn die => Sys2Proof.Machine.execTempWarn die s
  | .tempWarnClear die => Sys2Proof.Machine.execTempWarnClear die s
  | .throttle => Sys2Proof.Machine.execThrottle s
  | .sensorForceSet hoop page val => Sys2Proof.Machine.execSensorForceSet hoop page val s
  | .sensorForceClr hoop page val => Sys2Proof.Machine.execSensorForceClr hoop page val s
  | .powerUpdate watts badRail => Sys2Proof.Machine.execPowerUpdate watts badRail s
  | .overcurrent die amps => Sys2Proof.Machine.execOvercurrent die amps s
  | .safeClear hoop page val => Sys2Proof.Machine.execSafeClear hoop page val s
  | .driverLimitWrite hoop page val => Sys2Proof.Machine.execDriverLimitWrite hoop page val s
  | .thermalTrip die comp => Sys2Proof.Machine.execThermalTrip die comp s
  | .boardTrip => Sys2Proof.Machine.execBoardTrip s
  | .tripRestart armed high => Sys2Proof.Machine.execTripRestart armed high s
  | .ageLogRetry hoop => Sys2Proof.Machine.execAgeLogRetry hoop s
  | .ageingSample hoop vals => Sys2Proof.Machine.execAgeingSample hoop vals s
  | .ageLogClear hoop page val => Sys2Proof.Machine.execAgeLogClear hoop page val s
  | .thCounterClear hoop page val => Sys2Proof.Machine.execThCounterClear hoop page val s
  | .stage0Entry => Sys2Proof.Machine.execStage0Entry s
  | .secureBoot hoop a b selftest => Sys2Proof.Machine.execSecureBoot hoop a b selftest s
  | .startGo hoop val => Sys2Proof.Machine.execStartGo hoop val s
  | .stage2Entry => Sys2Proof.Machine.execStage2Entry s
  | .stage3Entry => Sys2Proof.Machine.execStage3Entry s
  | .stage4Entry => Sys2Proof.Machine.execStage4Entry s
  | .stageLate stage => Sys2Proof.Machine.execStageLate stage s
  | .i3cRead sensor => Sys2Proof.Machine.execI3cRead sensor s
  | .profSelChange level => Sys2Proof.Machine.execProfSelChange level s
  | .profileStagingLoad hoop page val => Sys2Proof.Machine.execProfileStagingLoad hoop page val s
  | .profileSave hoop page val => Sys2Proof.Machine.execProfileSave hoop page val s
  | .keyProgram hoop page val ok => Sys2Proof.Machine.execKeyProgram hoop page val ok s
  | .keyRevoke hoop page val ok => Sys2Proof.Machine.execKeyRevoke hoop page val ok s
  | .lifecycleRequest hoop page val owner ok0 ok1 => Sys2Proof.Machine.execLifecycleRequest hoop page val owner ok0 ok1 s
  | .debugRequest hoop page val => Sys2Proof.Machine.execDebugRequest hoop page val s
  | .debugResponse hoop page val good => Sys2Proof.Machine.execDebugResponse hoop page val good s
  | .vendorScrubDone => Sys2Proof.Machine.execVendorScrubDone s
  | .jtagAccess tgt wr => Sys2Proof.Machine.execJtagAccess tgt wr s
  | .jtagSkip hoop page val => Sys2Proof.Machine.execJtagSkip hoop page val s
  | .resetAssert => Sys2Proof.Machine.execResetAssert s
  | .resetRelease unstable => Sys2Proof.Machine.execResetRelease unstable s
  | .railFault rail die => Sys2Proof.Machine.execRailFault rail die s
  | .refclkLoss => Sys2Proof.Machine.execRefclkLoss s
  | .aonFault => Sys2Proof.Machine.execAonFault s
  | .epochOutPulse => Sys2Proof.Machine.execEpochOutPulse s
  | .hbmPhyTrained die stack => Sys2Proof.Machine.execHbmPhyTrained die stack s
  | .quietWindow die pcs len reject => Sys2Proof.Machine.execQuietWindow die pcs len reject s
  | .caParityError die stack => Sys2Proof.Machine.execCaParityError die stack s
  | .linkLeftL0 hoop speed width flit up => Sys2Proof.Machine.execLinkLeftL0 hoop speed width flit up s
  | .aerError hoop kind => Sys2Proof.Machine.execAerError hoop kind s
  | .vddAonInBand codes => Sys2Proof.Machine.execVddAonInBand codes s
  | .stuckClear => Sys2Proof.Machine.execStuckClear s
  | .firmwareMemoryUe hoop => Sys2Proof.Machine.execFirmwareMemoryUe hoop s
  | .profileSaveComplete ok0 ok1 => Sys2Proof.Machine.execProfileSaveComplete ok0 ok1 s
  | .doeMailbox hoop => Sys2Proof.Machine.execDoeMailbox hoop s

end Sys2Proof.Machine
end

