-- ==== Sys2Proof/Machine/Step.lean ====
section
/-! DEFINITION. One step: the command at the front of the queue, or one CCLK cycle where none waits (log entry 1). -/

namespace Sys2Proof.Machine

/-- Take the front command and run it with the queue's rest; on an empty queue one CCLK cycle passes (R8, R191). -/
def step (s : State) : Host.Outcome State Fault Refusal :=
  match s.pending with
  | [] => .next (s.passSlots 1)
  | c :: r => exec c { s with pending := r }

/-- The command a table word spells, put at the front of the queue. -/
def State.withFetchWord (s : State) (nbits w : Nat) : State :=
  match decodeTableWord nbits w with
  | none => s
  | some c => { s with pending := c :: s.pending }

end Sys2Proof.Machine
end

