-- ==== Sys2Proof/Safety.lean ====
section
/-! DEFINITION. What a sound state is: every sparse map of it stands in its one canonical form. Reset has it, every step keeps it, and reads after
writes need it. -/

namespace Sys2Proof.Machine

/-- Every sparse map of the state is canonical: keys strictly rising, no entry at its default. -/
structure Wf (s : State) : Prop where
  regs : swf resetVal s.regs = true
  pages : swf pageZero s.pages = true
  logs : swf flogZero s.flt.logs = true
  tiles : swf tileZero s.tiles = true
  osd : swf osdZero s.osd = true
  hbm : swf lineZero s.hbm = true
  stake : swf natZero s.stake = true
  engs : swf engZero s.engs = true
  ces : swf ceZero s.ces = true
  cbuf : swf lineZero s.cbuf = true
  borders : swf borderZero s.borders = true
  aud : swf audZero s.aud = true
  wl : swf wlZero s.wl = true
  lanes : swf laneZero s.lanes = true
  fibs : swf fibZero s.fibs = true
  wfs : swf wfZero s.wfs = true
  rds : swf rdZero s.rds = true
  lasers : swf laserZero s.lasers = true
  cal : swf calZero s.cal = true
  calSh : swf calZero s.calSh = true
  subs : swf subZero s.subs = true
  sqs : swf sqZero s.sqs = true
  dmas : swf dmaZero s.dmas = true
  hoops : swf hoopZero s.hoops = true
  snaps : swf (fun _ => none) s.snaps = true
  sens : swf sensZero s.sens = true
  dth : swf dthZero s.dth = true
  fits : swf fitZero s.fits = true
  flash : swf flashZero s.flash = true

/-! Tile slots. -/

/-- Slot `sl` of the tile's present bundle can issue: the tile exists, its row page is up, and R73, R104 and R127 let it. -/
def State.canIssue (s : State) (a : TileAt) (sl : Slot) : Bool := s.tileUp a && (s.tile a.die a.tile).ready sl

/-- The tile in the cycle in which its present bundle issues: what was due has landed. -/
def State.opened (s : State) (a : TileAt) : Tile := (s.tile a.die a.tile).openBundle

/-- The slot is taken; the last slot of a bundle closes it. -/
def Tile.finish (x : Tile) (sl : Slot) (last : Bool) : Tile :=
  let y := { x with cur := x.cur + 2 ^ sl.bit }
  if last then y.closeBundle else y

/-- Where a tile's reports go: its row page, its die's OS_TOP page. -/
def tilePages (a : TileAt) : List Nat := [rowPg a.die (a.tile / 8), osTop a.die]

/-- The outcome is a next state in which tile `a` did `g`; time is at least its cycle `c`; every other tile is unchanged, and of the rest only
what the tile reports can change: register fields and fault timers of its row page and of OS_TOP, records in flight, and the mesh. A tile that
reports nothing leaves all of that unchanged too. -/
def TileDone (s : State) (a : TileAt) (c : Nat) (g : Tile → Tile) (o : Host.Outcome State Fault Refusal) : Prop :=
  ∃ t, o = .next t
    ∧ t.tile a.die a.tile = { g (s.tile a.die a.tile) with evs := [] }
    ∧ (∀ k, k ≠ a.die * 64 + a.tile → look tileZero t.tiles k = look tileZero s.tiles k)
    ∧ t.clk = (s.toCc c).clk
    ∧ (∀ k, keyPage k ∉ tilePages a → look resetVal t.regs k = look resetVal s.regs k)
    ∧ (∀ p, p ∉ tilePages a → t.page p = s.page p)
    ∧ { t with clk := s.clk, regs := s.regs, pages := s.pages, flt := s.flt, tiles := s.tiles, mesh := s.mesh } = s
    ∧ ((g (s.tile a.die a.tile)).evs = [] → { t with clk := s.clk, tiles := s.tiles } = s)

/-- The outcome is a next state in which slot `sl` of tile `a` did `f` to the tile of its issue cycle, and nothing else happened but what the tile
reports. -/
def SlotDone (s : State) (a : TileAt) (sl : Slot) (last : Bool) (f : Tile → Tile) (o : Host.Outcome State Fault Refusal) : Prop :=
  TileDone s a (s.tile a.die a.tile).next (fun x => (f x.openBundle).finish sl last) o

/-! Register writes. -/

/-- The state in which page `p` judges a word of Hoop `h`: what the Hoop sent earlier has arrived (R45). -/
def State.judged (s : State) (h p : Nat) : State := s.inOrder h (dieOf p)

/-- A whole-word write of register `off` of page `p`, a page of kind `b`, through Hoop `h` reaches the page, is rejected for none of the causes of
Table 2-4, no field of the word waits in a stage buffer, and none gives way to a staged value of the same boundary (R69). -/
def State.takes (s : State) (h p : Nat) (b : Blk) (off val : Nat) : Bool :=
  let e := s.judged h p
  let w := e.overlapWord h p off (val % 2 ^ 32)
  decide (pageBlk p = some b) && s.serves h && s.reaches h p && !s.overlapBars h p off && decide (w = val % 2 ^ 32)
    && decide (e.writeCause p off (val % 2 ^ 32) 15 (e.writeEpoch h p off (val % 2 ^ 32)) (decide (dieOf p = held h)) = none)
    && (touched b off 15).all fun f => !e.stages b f && !(stageable b f && e.overtaken p off)

/-- The state in which the fields of a taken word act: a fenced field in the word has raised the page's epoch (R51). -/
def State.taken (s : State) (h p : Nat) (b : Blk) (off val : Nat) : State :=
  let e := s.judged h p
  if (touched b off 15).any (fenced b) then e.epochUp p (e.writeEpoch h p off (val % 2 ^ 32)) else e

end Sys2Proof.Machine
end

