-- ==== Sys2Proof/Certificates/Slice0/Obligations.lean ====
section
/-! DEFINITION. What the provers are asked to show of the model, one proposition each, from the rules of spec/. -/

open Sys2Proof Sys2Proof.Machine

/-- The block's step. Idling for one CCLK slot is the model's choice (log entry 1). -/
def Obligations.StepRunsTheFrontCommand : Prop :=
  (∀ (c : Instr) (r : List Instr) (s : State), step { s with pending := c :: r } = exec c { s with pending := r }) ∧
  (∀ (s : State), s.pending = [] → step s = .next (s.passSlots 1))

/-- No command stops the machine, and none breaks the canonical form that reads after writes rest on. -/
def Obligations.EveryStepKeepsSoundStates : Prop :=
  ∀ (s : State), Wf s → ∃ t, step s = .next t ∧ Wf t ∧ t.pending = s.pending.tail

/-- What reset leaves. What unwritten memory reads as is the model's choice (log entry 5). -/
def Obligations.ResetIsSoundAndHoldsTheSpecsValues : Prop :=
  Wf State.reset ∧ State.reset.pending = [] ∧ State.reset.out = {} ∧ State.reset.clk.tick = 0 ∧
  (∀ p, (State.reset.page p).up = .never) ∧
  (∀ d k, State.reset.tile d k = Tile.reset) ∧
  (∀ mc l, State.reset.hline mc l = ⟨0#256, false⟩) ∧
  (∀ p b off f, pageBlk p = some b → f ∈ fieldsIn b off → State.reset.rd p f = (pageRst b p f.off f.lo).getD f.rst) ∧
  (∀ p ∈ [pkg0, osTop 3, sqPg 1 64], State.reset.rd p R.PG_FTIMER_GRACE_MS = 200 ∧ State.reset.rd p R.PG_CTRL_ENABLE = 0) ∧
  (∀ h, h < 2 → State.reset.rd (sqPg h 64) R.SQ_CFG_WM = 256 ∧ State.reset.rd (sqPg h 0) R.SQ_FLUSH_TMO_US = 100 ∧
    State.reset.rd (faultPg h) R.FAULT_COAL_MS = 100 ∧ State.reset.rd (faultPg h) R.FAULT_CFG_QUEUE = 65 ∧
    State.reset.rd (thPg (0x12 + h)) R.TH_PKG_N_N = 64 ∧ State.reset.rd (thPg (0x12 + h)) R.TH_SAFE_N = 32)

/-- Scalar register and immediate forms (R120, R121, Table 4-5). -/
def Obligations.ScalarForms : Prop :=
  (
    ∀ (s : State) (a : TileAt) (d i j : Nat) (last : Bool), Wf s → s.canIssue a .sc = true →
      let gives (c : Instr) (op : Word → Word → Word) : Prop :=
        SlotDone s a .sc last (fun b => b.later (b.next + 1) 4
          (.scal (d % 32) (op (b.sc (i % 32)).val (b.sc (j % 32)).val) ((b.sc (i % 32)).poi || (b.sc (j % 32)).poi))) (exec c s)
      gives (.sadd a d i j last) (fun x y => x + y) ∧
      gives (.ssub a d i j last) (fun x y => x - y) ∧
      gives (.smul a d i j last) (fun x y => x * y) ∧
      gives (.sand a d i j last) (fun x y => x &&& y) ∧
      gives (.sor a d i j last) (fun x y => x ||| y) ∧
      gives (.sxor a d i j last) (fun x y => x ^^^ y) ∧
      gives (.sshl a d i j last) (fun x y => x <<< (y.toNat % 32)) ∧
      gives (.sshr a d i j last) (fun x y => x >>> (y.toNat % 32)) ∧
      gives (.ssra a d i j last) (fun x y => x.sshiftRight (y.toNat % 32)) ∧
      gives (.smin a d i j last) (fun x y => if x.toInt ≤ y.toInt then x else y) ∧
      gives (.smax a d i j last) (fun x y => if x.toInt ≤ y.toInt then y else x) ∧
      gives (.sslt a d i j last) (fun x y => if x.toInt < y.toInt then 1#32 else 0#32) ∧
      gives (.ssltu a d i j last) (fun x y => if x.toNat < y.toNat then 1#32 else 0#32)) ∧
  (
    ∀ (s : State) (a : TileAt) (d i imm : Nat) (last : Bool), Wf s → s.canIssue a .sc = true →
      let gives (c : Instr) (op : Word → Word → Word) : Prop :=
        SlotDone s a .sc last (fun b => b.later (b.next + 1) 4
          (.scal (d % 32) (op (b.sc (i % 32)).val (BitVec.ofNat 32 imm)) (b.sc (i % 32)).poi)) (exec c s)
      gives (.saddi a d i imm last) (fun x y => x + y) ∧
      gives (.smuli a d i imm last) (fun x y => x * y) ∧
      gives (.sandi a d i imm last) (fun x y => x &&& y) ∧
      gives (.sori a d i imm last) (fun x y => x ||| y) ∧
      gives (.sxori a d i imm last) (fun x y => x ^^^ y) ∧
      gives (.sshli a d i imm last) (fun x y => x <<< (y.toNat % 32)) ∧
      gives (.sshri a d i imm last) (fun x y => x >>> (y.toNat % 32)) ∧
      gives (.ssrai a d i imm last) (fun x y => x.sshiftRight (y.toNat % 32)) ∧
      SlotDone s a .sc last (fun b => b.later (b.next + 1) 4 (.scal (d % 32) (BitVec.ofNat 32 imm) false)) (exec (.sli a d imm last) s))

/-- The other register forms of the SC slot, legal and illegal (R118, R121, R122, R159). -/
def Obligations.AddressAndLoopRegisterForms : Prop :=
  ∀ (s : State) (a : TileAt) (d i j imm : Nat) (last : Bool), Wf s → s.canIssue a .sc = true →
    let does (c : Instr) (f : Tile → Tile) : Prop := SlotDone s a .sc last f (exec c s)
    let out (b : Tile) (r : Res) : Tile := b.later (b.next + 1) 4 r
    let tainted (p : Bool) (b : Tile) : Tile := if p then { b with taint := true } else b
    let illegal (b : Tile) : Tile := { b with evs := b.evs ++ [.conflict 11 (b.next - b.runBase)], taint := true }
    does (.ali a d imm last) (fun b => if d % 32 < 16 then out b (.addr (d % 32) (BitVec.ofNat 22 imm)) else illegal b) ∧
    does (.aaddi a d i imm last) (fun b => if d % 32 < 16 ∧ i % 32 < 16 then
      out b (.addr (d % 32) (b.ad (i % 32) + BitVec.ofNat 22 imm)) else illegal b) ∧
    does (.aadd a d i j last) (fun b => if d % 32 < 16 ∧ i % 32 < 16 then
      tainted (b.sc (j % 32)).poi (out b (.addr (d % 32) (b.ad (i % 32) + (b.sc (j % 32)).val.truncate 22))) else illegal b) ∧
    does (.amov a d i last) (fun b => if d % 32 < 16 then
      tainted (b.sc (i % 32)).poi (out b (.addr (d % 32) ((b.sc (i % 32)).val.truncate 22))) else illegal b) ∧
    does (.srda a d i last) (fun b => if i % 32 < 16 then out b (.scal (d % 32) ((b.ad (i % 32)).zeroExtend 32) false) else illegal b) ∧
    does (.cset a d i last) (fun b => tainted (b.sc (i % 32)).poi (out b (.loopc (d % 4) ((b.sc (i % 32)).val.truncate 16) false))) ∧
    does (.srdc a d i last) (fun b => out b (.scal (d % 32) ((b.lc (i % 4)).zeroExtend 32) false)) ∧
    does (.pxkey a i j last) (fun b => tainted ((b.sc (i % 32)).poi || (b.sc (j % 32)).poi)
      (out b (.pxKey ((b.sc (j % 32)).val ++ (b.sc (i % 32)).val)))) ∧
    does (.pxstep a i j last) (fun b => tainted ((b.sc (i % 32)).poi || (b.sc (j % 32)).poi)
      (out b (.pxStep ((b.sc (j % 32)).val ++ (b.sc (i % 32)).val)))) ∧
    does (.pxinc a imm last) (fun b => out b (.pxStep (b.pxStep + BitVec.ofNat 64 (imm % 2 ^ 32)))) ∧
    does (.scyc a d last) (fun b => out b (.scal (d % 32) (BitVec.ofNat 32 (b.next - b.runBase)) false))

/-- R123-R125's opening of a counted loop. -/
def Obligations.LoopOpensOrIsIllegal : Prop :=
  ∀ (s : State) (a : TileAt) (e trip : Nat) (last : Bool), Wf s → s.canIssue a .sc = true → e < 8192 → trip < 65536 →
    let b := s.opened a
    let bad := 4 ≤ b.loops.length ∨ e ≤ b.pc ∨ (∃ l r, b.loops = l :: r ∧ l.last < e)
    let c0 (b : Tile) : Tile := b.later (b.next + 1) 4 (.loopc b.loops.length 0#16 true)
    (bad → SlotDone s a .sc last (fun b => { b with evs := b.evs ++ [.conflict 11 (b.next - b.runBase)], taint := true })
      (exec (.loop a e trip last) s)) ∧
    (¬ bad → trip ≠ 0 → SlotDone s a .sc last (fun b => { c0 b with loops := ⟨b.pc + 1, e, trip, 0⟩ :: b.loops })
      (exec (.loop a e trip last) s)) ∧
    (¬ bad → trip = 0 → SlotDone s a .sc last (fun b => { c0 b with skip := some (e + 1) }) (exec (.loop a e trip last) s))

/-- SYNC and END (R127-R129). -/
def Obligations.SyncStopsIssueUnlessALoopEndsThere : Prop :=
  ∀ (s : State) (a : TileAt) (entry id : Nat) (keep last : Bool), Wf s → s.canIssue a .sc = true → entry < 8192 → id < 256 →
    let b := s.opened a
    let ends := ∃ l ∈ b.loops, l.last = b.pc
    let halted (h : HaltReq) (o : Host.Outcome State Fault Refusal) : Prop :=
      SlotDone s a .sc last (fun b => { b with halt := some h }) o ∧
      ∃ t, o = .next t ∧ (last = true → ∀ sl, t.canIssue a sl = false)
    (ends → SlotDone s a .sc last (fun b => { b with evs := b.evs ++ [.conflict 11 (b.next - b.runBase)], taint := true })
      (exec (.sync a entry id keep last) s)) ∧
    (¬ ends → halted ⟨false, entry, id, keep⟩ (exec (.sync a entry id keep last) s)) ∧
    halted ⟨true, 0, 0, false⟩ (exec (.tileEnd a last) s)

/-- The LS slot (R82, R83, R131-R133). -/
def Obligations.LoadsAndStoresScheduleTheirAccess : Prop :=
  ∀ (s : State) (a : TileAt) (r q off m inc : Nat) (post : Bool) (hits : List EccHit) (last : Bool), Wf s → s.canIssue a .ls = true →
    let addr (b : Tile) (size : Nat) : Nat := ((b.ad (q % 16)).toNat + off) % 2 ^ 22 / size * size
    let acc (size : Nat) (x : Tile → Access) (b : Tile) : Tile :=
      let b' := { b with accs := b.accs ++ [⟨b.next + 1, 3, x b, hits⟩] }
      if post then b'.later (b.next + 1) 3 (.addr (q % 16) (BitVec.ofInt 22 ((b.ad (q % 16)).toNat + (BitVec.ofNat 5 inc).toInt * size)))
      else b'
    let only (ok : Prop) [Decidable ok] (f : Tile → Tile) (b : Tile) : Tile :=
      if ok then f b else { b with evs := b.evs ++ [.conflict 11 (b.next - b.runBase)], taint := true }
    let sc := r % 64 < 32
    let pair := r % 64 < 32 ∧ r % 2 = 0
    SlotDone s a .ls last (acc 512 fun b => .vld (r % 64) (addr b 512) (b.mask (m % 16))) (exec (.vld a r q off m inc post hits last) s) ∧
    SlotDone s a .ls last (acc 512 fun b => .store (b.vstLines r (addr b 512) (b.mask (m % 16)))) (exec (.vst a r q off m inc post hits last) s) ∧
    SlotDone s a .ls last (acc 4 fun b => .vldbc (r % 64) (addr b 4) (b.mask (m % 16))) (exec (.vldbc a r q off m inc post hits last) s) ∧
    SlotDone s a .ls last (only sc (acc 4 fun b => .sld (r % 32) (addr b 4))) (exec (.sld a r q off inc post hits last) s) ∧
    SlotDone s a .ls last (only sc (acc 4 fun b => .store [sstLine (addr b 4) [b.sc (r % 32)]])) (exec (.sst a r q off inc post hits last) s) ∧
    SlotDone s a .ls last (only pair (acc 8 fun b => .sld2 (r % 32) (addr b 8))) (exec (.sld2 a r q off inc post hits last) s) ∧
    SlotDone s a .ls last (only pair (acc 8 fun b => .store [sstLine (addr b 8) [b.sc (r % 32), b.sc (r % 32 + 1)]]))
      (exec (.sst2 a r q off inc post hits last) s)

/-- The NM slot (R134-R138). -/
def Obligations.MeshSlotsSendAndReceive : Prop :=
  ∀ (s : State) (a : TileAt) (r len inc : Nat) (im : Bool) (hits : List EccHit) (last : Bool), Wf s →
    let acc (x : Tile → Access) (b : Tile) : Tile :=
      let b' := { b with accs := b.accs ++ [⟨b.next + 1, 2, x b, hits⟩] }
      if inc % 16 = 0 then b'
      else b'.later (b.next + 1) 2 (.addr (r % 16) (BitVec.ofInt 22 ((b.ad (r % 16)).toNat + (BitVec.ofNat 4 inc).toInt * 128)))
    (s.canIssue a .nm = true →
      SlotDone s a .nm last (acc fun b => .nmSend ((b.ad (r % 16)).toNat / 128 * 128) (len % 4 + 1)) (exec (.nmSend a r len inc hits last) s)) ∧
    (s.canIssue a .nmr = true →
      SlotDone s a .nmr last (acc fun b => .nmRecv ((b.ad (r % 16)).toNat / 128 * 128) (len % 4 + 1) im)
        (exec (.nmReceive a r len inc im hits last) s))

/-- Vector integer and logic forms (R140, R141, Table 4-11). -/
def Obligations.VectorIntegerAndLogicForms : Prop :=
  ∀ (s : State) (a : TileAt) (d i j m imm : Nat) (last : Bool), Wf s → s.canIssue a .vx = true →
    let lanes (b : Tile) : List Nat := maskLanes (if m % 16 = 0 then BitVec.allOnes 128 else look (fun _ => 0#128) b.mr (m % 16))
    let one (c : Instr) (op : Word → Word) : Prop :=
      SlotDone s a .vx last (fun b => b.later (b.next + 2) 1 (.vec (d % 64) ((lanes b).map fun l =>
        ⟨l, BitVec.allOnes 32, op (b.lane (i % 64) l).val, (b.lane (i % 64) l).poi⟩))) (exec c s)
    let two (c : Instr) (op : Word → Word → Word) : Prop :=
      SlotDone s a .vx last (fun b => b.later (b.next + 2) 1 (.vec (d % 64) ((lanes b).map fun l =>
        ⟨l, BitVec.allOnes 32, op (b.lane (i % 64) l).val (b.lane (j % 64) l).val,
          (b.lane (i % 64) l).poi || (b.lane (j % 64) l).poi⟩))) (exec c s)
    one (.vmov a d i m last) (fun x => x) ∧
    two (.viadd a d i j m last) (fun x y => x + y) ∧
    two (.visub a d i j m last) (fun x y => x - y) ∧
    two (.vimul a d i j m last) (fun x y => x * y) ∧
    two (.vimin a d i j m last) (fun x y => if x.toInt ≤ y.toInt then x else y) ∧
    two (.vimax a d i j m last) (fun x y => if x.toInt ≤ y.toInt then y else x) ∧
    two (.vand a d i j m last) (fun x y => x &&& y) ∧
    two (.vor a d i j m last) (fun x y => x ||| y) ∧
    two (.vxor a d i j m last) (fun x y => x ^^^ y) ∧
    two (.vandn a d i j m last) (fun x y => x &&& ~~~y) ∧
    two (.vshl a d i j m last) (fun x y => x <<< (y.toNat % 32)) ∧
    two (.vshr a d i j m last) (fun x y => x >>> (y.toNat % 32)) ∧
    two (.vsra a d i j m last) (fun x y => x.sshiftRight (y.toNat % 32)) ∧
    one (.vshli a d i m imm last) (fun x => x <<< (imm % 32)) ∧
    one (.vshri a d i m imm last) (fun x => x >>> (imm % 32)) ∧
    one (.vsrai a d i m imm last) (fun x => x.sshiftRight (imm % 32)) ∧
    one (.vfabs a d i m last) (fun x => x &&& 0x7FFFFFFF#32) ∧
    one (.vfneg a d i m last) (fun x => x ^^^ 0x80000000#32)

/-- Lane moves and VRAND (R140, R141, R150, Table 4-11). -/
def Obligations.LaneMoveForms : Prop :=
  ∀ (s : State) (a : TileAt) (d i j c m imm xa : Nat) (xen last : Bool), Wf s → s.canIssue a .vx = true →
    let lanes (b : Tile) : List Nat := maskLanes (if m % 16 = 0 then BitVec.allOnes 128 else look (fun _ => 0#128) b.mr (m % 16))
    let vec (lat : Nat) (x : Tile → Nat → Cellw) (b : Tile) : Tile :=
      b.later (b.next + lat) 1 (.vec (d % 64) ((lanes b).map fun l => ⟨l, BitVec.allOnes 32, (x b l).val, (x b l).poi⟩))
    let idx (b : Tile) : Nat := (imm % 8192 + if xen then (b.ad (xa % 16)).toNat else 0) % 128
    let only (ok : Prop) [Decidable ok] (f : Tile → Tile) (b : Tile) : Tile :=
      if ok then f b else { b with evs := b.evs ++ [.conflict 11 (b.next - b.runBase)], taint := true }
    SlotDone s a .vx last (only (c % 64 < 16) (vec 2 fun b l => if (b.mask (c % 64)).getLsbD l then b.lane (i % 64) l else b.lane (j % 64) l))
      (exec (.vsel a d i j c m last) s) ∧
    SlotDone s a .vx last (only (i % 64 < 32) (vec 2 fun b _ => b.sc (i % 32))) (exec (.vbcs a d i m last) s) ∧
    SlotDone s a .vx last (only (d % 64 < 32) fun b =>
      b.later (b.next + 2) 1 (.scal (d % 32) (b.lane (i % 64) (idx b)).val (b.lane (i % 64) (idx b)).poi)) (exec (.vext a d i imm xa xen last) s) ∧
    SlotDone s a .vx last (only (i % 64 < 32) fun b =>
      b.later (b.next + 2) 1 (.vec (d % 64) [⟨idx b, BitVec.allOnes 32, (b.sc (i % 32)).val, (b.sc (i % 32)).poi⟩]))
      (exec (.vins a d i imm xa xen last) s) ∧
    SlotDone s a .vx last (vec 2 fun b l => b.lane (i % 64) ((l + imm % 128) % 128)) (exec (.vrot a d i m imm last) s) ∧
    SlotDone s a .vx last (vec 2 fun _ l => ⟨BitVec.ofNat 32 l, false⟩) (exec (.vlane a d m last) s) ∧
    SlotDone s a .vx last (only (i % 64 < 32 ∧ j % 64 < 32) (vec 6 fun b l =>
      ⟨pxWord b.pxKey b.pxStep (b.sc (j % 32)).val (((b.sc (i % 32)).val &&& ~~~3#32) + BitVec.ofNat 32 l),
        (b.sc (i % 32)).poi || (b.sc (j % 32)).poi⟩)) (exec (.vrand a d i j m last) s)

/-- Compares and masks (R141, R142, Table 4-11). -/
def Obligations.CompareAndMaskForms : Prop :=
  ∀ (s : State) (a : TileAt) (d i j m imm : Nat) (last : Bool), Wf s → s.canIssue a .vx = true →
    let sel (b : Tile) : BitVec 128 := if m % 16 = 0 then BitVec.allOnes 128 else look (fun _ => 0#128) b.mr (m % 16)
    let res (test : Tile → Nat → Bool) (b : Tile) : Tile := b.later (b.next + 2) 1 (.mask (d % 64) (sel b) (maskOf (test b)))
    let taintOn (p : Tile → Nat → Bool) (f : Tile → Tile) (b : Tile) : Tile :=
      if (maskLanes (sel b)).any (p b) then { f b with taint := true } else f b
    let only (ok : Prop) [Decidable ok] (f : Tile → Tile) (b : Tile) : Tile :=
      if ok then f b else { b with evs := b.evs ++ [.conflict 11 (b.next - b.runBase)], taint := true }
    let x (b : Tile) (l : Nat) : Word := (b.lane (i % 64) l).val
    let y (b : Tile) (l : Nat) : Word := (b.lane (j % 64) l).val
    let bothP (b : Tile) (l : Nat) : Bool := (b.lane (i % 64) l).poi || (b.lane (j % 64) l).poi
    let masks (op : Bool → Bool → Bool) : Tile → Tile := only (d % 64 < 16 ∧ i % 64 < 16 ∧ j % 64 < 16)
      (res fun b l => op ((b.mask (i % 64)).getLsbD l) ((b.mask (j % 64)).getLsbD l))
    SlotDone s a .vx last (only (d % 64 < 16 ∧ imm % 8 < 5) (taintOn bothP (res fun b l => fpTest (imm % 8) (x b l) (y b l))))
      (exec (.vcmpf a d i j m imm last) s) ∧
    SlotDone s a .vx last (only (d % 64 < 16 ∧ imm % 8 < 6) (taintOn bothP (res fun b l =>
      match imm % 8 with
      | 0 => decide (x b l = y b l)
      | 1 => decide ((x b l).toInt < (y b l).toInt)
      | 2 => decide ((x b l).toInt ≤ (y b l).toInt)
      | 3 => decide (x b l ≠ y b l)
      | 4 => decide ((x b l).toNat < (y b l).toNat)
      | _ => decide ((x b l).toNat ≤ (y b l).toNat)))) (exec (.vcmpi a d i j m imm last) s) ∧
    SlotDone s a .vx last (masks fun p q => p && q) (exec (.mand a d i j m last) s) ∧
    SlotDone s a .vx last (masks fun p q => p || q) (exec (.mor a d i j m last) s) ∧
    SlotDone s a .vx last (masks fun p q => p != q) (exec (.mxor a d i j m last) s) ∧
    SlotDone s a .vx last (masks fun p q => p && !q) (exec (.mandn a d i j m last) s) ∧
    SlotDone s a .vx last (only (d % 64 < 16) (taintOn (fun b l => (b.lane (i % 64) l).poi) (res fun b l => decide (x b l ≠ 0#32))))
      (exec (.mfromv a d i m last) s) ∧
    SlotDone s a .vx last (only (i % 64 < 16) fun b => b.later (b.next + 2) 1 (.vec (d % 64) ((maskLanes (sel b)).map fun l =>
      ⟨l, BitVec.allOnes 32, if (b.mask (i % 64)).getLsbD l then 1#32 else 0#32, false⟩))) (exec (.mtov a d i m last) s)

/-- Floating point (R140, R143, R149, R158, R172). -/
def Obligations.FloatingPointForms : Prop :=
  ∀ (s : State) (a : TileAt) (d i j k m rnd : Nat) (sat last : Bool), Wf s → s.canIssue a .vx = true →
    let lanes (b : Tile) : List Nat := maskLanes (if m % 16 = 0 then BitVec.allOnes 128 else look (fun _ => 0#128) b.mr (m % 16))
    let put (lat : Nat) (v : Tile → Nat → Word) (p : Tile → Nat → Bool) (b : Tile) : Tile :=
      b.later (b.next + lat) 1 (.vec (d % 64) ((lanes b).map fun l => ⟨l, BitVec.allOnes 32, v b l, p b l⟩))
    let x (b : Tile) (l : Nat) : Cellw := b.lane (i % 64) l
    let y (b : Tile) (l : Nat) : Cellw := b.lane (j % 64) l
    let z (b : Tile) (l : Nat) : Cellw := b.lane (k % 64) l
    let one (lat : Nat) (op : Word → Word) : Tile → Tile := put lat (fun b l => op (x b l).val) (fun b l => (x b l).poi)
    let two (op : Word → Word → Word) : Tile → Tile := put 4 (fun b l => op (x b l).val (y b l).val) (fun b l => (x b l).poi || (y b l).poi)
    let three (op : Word → Word → Word → Word) : Tile → Tile :=
      put 4 (fun b l => op (x b l).val (y b l).val (z b l).val) (fun b l => (x b l).poi || (y b l).poi || (z b l).poi)
    let bad (src : Nat) (b : Tile) : Tile := { b with evs := b.evs ++ [.conflict src (b.next - b.runBase)], taint := true }
    let legal (f : Tile → Tile) (b : Tile) : Tile := if rnd % 4 < 2 then f b else bad 11 b
    let tu (op : Word → Word) (b : Tile) : Tile := if b.next < b.tuFree then bad 10 b else { one 12 op b with tuFree := b.next + 4 }
    let gives (c : Instr) (f : Tile → Tile) : Prop := SlotDone s a .vx last f (exec c s)
    gives (.vfadd a d i j m rnd last) (legal (two (faddW (rndOf rnd)))) ∧
    gives (.vfsub a d i j m rnd last) (legal (two (fsubW (rndOf rnd)))) ∧
    gives (.vfmul a d i j m rnd last) (legal (two (fmulW (rndOf rnd)))) ∧
    gives (.vffma a d i j k m rnd last) (legal (three (ffmaW (rndOf rnd)))) ∧
    gives (.vfmax a d i j m last) (two fmaxW) ∧
    gives (.vfmin a d i j m last) (two fminW) ∧
    gives (.vbadd a d i j m rnd last) (legal (two (opVbadd (rndOf rnd)))) ∧
    gives (.vbmul a d i j m rnd last) (legal (two (opVbmul (rndOf rnd)))) ∧
    gives (.vbfma a d i j k m rnd last) (legal (three (opVbfma (rndOf rnd)))) ∧
    gives (.vcvti a d i m rnd sat last) (legal (one 3 (cvtI (rndOf rnd) sat))) ∧
    gives (.vcvtf a d i m rnd last) (legal (one 3 (cvtF (rndOf rnd)))) ∧
    gives (.vexp2 a d i m last) (tu tuExp2) ∧ gives (.vlog2 a d i m last) (tu tuLog2) ∧
    gives (.vrcp a d i m last) (tu tuRcp) ∧ gives (.vrsqrt a d i m last) (tu tuRsqrt) ∧
    gives (.vsqrt a d i m last) (tu tuSqrt) ∧ gives (.vtanh a d i m last) (tu tuTanh) ∧
    gives (.vsint a d i m last) (tu tuSint) ∧ gives (.vcost a d i m last) (tu tuCost)

/-- Packed conversions (R145-R148). -/
def Obligations.PackedConversionForms : Prop :=
  ∀ (s : State) (a : TileAt) (d i j c m rnd fmt part imm xa : Nat) (sat xen last : Bool), Wf s → s.canIssue a .vx = true →
    let f := fmt % 16
    let inc (b : Tile) : List Nat := maskLanes (if m % 16 = 0 then BitVec.allOnes 128 else look (fun _ => 0#128) b.mr (m % 16))
    let idx (b : Tile) : Nat := (imm % 8192 + if xen then (b.ad (xa % 16)).toNat else 0) % 128
    let bad (b : Tile) : Tile := { b with evs := b.evs ++ [.conflict 11 (b.next - b.runBase)], taint := true }
    let part' : Bool := fmtPacked f && decide (part % 8 < fmtParts f)
    -- the lanes of D that a narrowing writes, with the bits, value and poison of each element
    let elems (b : Tile) : List (Nat × Word × Word × Bool) := (inc b).flatMap fun l =>
      let md : Rnd := if rnd % 4 = 2 then .stoch (b.lane (j % 64) l).val.toNat else rndOf (rnd % 4)
      let v := narrowCode f md sat (if fmtMx f then b.mxByte (c % 64) (idx b) l else 127) (b.lane (i % 64) l).val
      let p := (b.lane (i % 64) l).poi || (decide (rnd % 4 = 2) && decide (f ≠ 11) && (b.lane (j % 64) l).poi)
        || (fmtMx f && (b.lane (c % 64) (idx b)).poi)
      (elemLanes (elemBit f (part % 8) l) (fmtBits f)).map fun ln =>
        (ln, (laneShare ln (elemBit f (part % 8) l) (fmtBits f) v).1, (laneShare ln (elemBit f (part % 8) l) (fmtBits f) v).2, p)
    let pads : List (Nat × Word × Word × Bool) := if fmtBits f = 6 then
      (List.range 2).flatMap fun u => (List.range 4).map fun k => ((2 * (part % 8) + u) * 16 + 12 + k, BitVec.allOnes 32, 0#32, false) else []
    SlotDone s a .vx last (fun b => if rnd % 4 ≠ 3 && part' then b.later (b.next + 3) 1 (.vec (d % 64) (gatherLanes (elems b ++ pads))) else bad b)
      (exec (.vcvtn a d i j c m rnd fmt part imm xa sat xen last) s) ∧
    SlotDone s a .vx last (fun b => if part' then b.later (b.next + 3) 1 (.vec (d % 64) ((inc b).map fun l =>
        ⟨l, BitVec.allOnes 32,
          widenWord f (b.vbits (i % 64) (elemBit f (part % 8) l) (fmtBits f)) (if fmtMx f then b.mxByte (j % 64) (idx b) l else 127),
          (elemLanes (elemBit f (part % 8) l) (fmtBits f)).any (fun ln => (b.lane (i % 64) ln).poi)
            || (fmtMx f && (b.lane (j % 64) (idx b)).poi)⟩)) else bad b)
      (exec (.vcvtw a d i j m fmt part imm xa xen last) s) ∧
    SlotDone s a .vx last (fun b => if fmtMx f then
        let sc (q : Nat) : Nat := mxScale f (((inc b).filter fun l => decide (l / 32 = q)).map fun l => (b.lane (i % 64) l).val)
        b.later (b.next + 3) 1 (.vec (d % 64) [⟨idx b, BitVec.allOnes 32,
          BitVec.ofNat 32 (sc 0 + 256 * sc 1 + 65536 * sc 2 + 16777216 * sc 3), (inc b).any fun l => (b.lane (i % 64) l).poi⟩])
      else bad b) (exec (.vmxs a d i m fmt imm xa xen last) s)

/-- Accumulator access from the VX slot (R94, R95, R151, R152). -/
def Obligations.AccumulatorForms : Prop :=
  ∀ (s : State) (a : TileAt) (r m rnd part imm xa : Nat) (xen : Bool) (hits : List EccHit) (last : Bool), Wf s → s.canIssue a .vx = true →
    let row (b : Tile) : Nat := (imm % 8192 + if xen then (b.ad (xa % 16)).toNat else 0) % 8192
    let there (b : Tile) : Bool := decide (row b < if b.accClose then 1024 else 3072)
    let bad (b : Tile) : Tile := { b with evs := b.evs ++ [.conflict 11 (b.next - b.runBase)], taint := true }
    let acc (b : Tile) (h : List EccHit) (x : Access) : Tile := { b with accs := b.accs ++ [⟨b.next + 1, 1, x, h⟩] }
    let mk (b : Tile) : BitVec 128 := if m % 16 = 0 then BitVec.allOnes 128 else look (fun _ => 0#128) b.mr (m % 16)
    let ws (b : Tile) : List LaneW := (maskLanes (mk b)).map fun l => ⟨l, BitVec.allOnes 32, (b.lane (r % 64) l).val, (b.lane (r % 64) l).poi⟩
    SlotDone s a .vx last (fun b => if there b && (!b.accClose || decide (rnd % 4 < 2)) then
      acc b hits (.vacr (r % 64) (row b) (mk b) (if b.accClose then 5 else 3) (rndOf (rnd % 4)) b.accClose) else bad b)
      (exec (.vacr a r m rnd imm xa xen hits last) s) ∧
    SlotDone s a .vx last (fun b => if there b && b.accClose then acc b hits (.vacrr (r % 64) (row b) (part % 4) (mk b)) else bad b)
      (exec (.vacrr a r m part imm xa xen hits last) s) ∧
    SlotDone s a .vx last (fun b => if there b && !b.accClose then acc b [] (.vacw (row b) (ws b)) else bad b)
      (exec (.vacw a r m imm xa xen last) s) ∧
    SlotDone s a .vx last (fun b => if there b && b.accClose then acc b [] (.vacwr (row b) (part % 4) (ws b)) else bad b)
      (exec (.vacwr a r m part imm xa xen last) s)

/-- The MX slot (R153-R158). -/
def Obligations.MatrixForms : Prop :=
  ∀ (s : State) (a : TileAt) (sa xa row buf sfmt ca : Nat) (spost xen ovw cpost : Bool) (hits : List EccHit) (last : Bool),
    Wf s → s.canIssue a .mx = true →
    let f := sfmt % 16
    let bad (src : Nat) (b : Tile) : Tile := { b with evs := b.evs ++ [.conflict src (b.next - b.runBase)], taint := true }
    let r (b : Tile) : Nat := (row % 4096 + if xen then (b.ad (xa % 16)).toNat % 4096 else 0) % 4096
    let step (on : Bool) (q n : Nat) (b0 b : Tile) : Tile :=
      if on then b.later (b0.next + 1) 0 (.addr (q % 16) (BitVec.ofInt 22 ((b0.ad (q % 16)).toNat + n))) else b
    let c (b : Tile) : Nat := (b.ad (ca % 16)).toNat
    let mma (b : Tile) : Tile := { b with accs := b.accs ++ [⟨b.next + 1, 0,
      .mma ((b.ad (sa % 16)).toNat / 64 * 64) (if fmtMx f && decide (c b % 32 = 0) then some (c b) else none)
        (c b % 32) (r b) (buf % 2) f (b.buf (buf % 2)).fmt ovw b.accClose, hits⟩] }
    let busyFor (b0 b : Tile) : Tile := if b0.accClose then { b with mmaFree := b0.next + 2 } else b
    let chunks (b : Tile) : List AccessAt := (List.range (rloadChunks f)).map fun k =>
      ⟨b.next + 1 + k, 0, .rchunk (buf % 2) (((b.ad (sa % 16)).toNat / 512 * 512 + 512 * k) % 2 ^ 22) (512 * k),
        (hits.filter fun h => decide (h.word / 64 = k)).map fun h => ⟨h.word % 64, h.ue⟩⟩
    let scale (b : Tile) : List AccessAt := if fmtMx f then
      [⟨b.next + rloadN f, 0, .rscale (buf % 2) (c b / 512 * 512) (scaleBytes f),
        (hits.filter fun h => decide (h.word / 64 = rloadChunks f)).map fun h => ⟨h.word % 64, h.ue⟩⟩] else []
    let load (b : Tile) : Tile := { b.putBuf (buf % 2) { b.buf (buf % 2) with fmt := f, loaded := true, poi := false } with
      accs := b.accs ++ chunks b ++ scale b, rlFree := b.next + rloadN f }
    SlotDone s a .mx last (fun b =>
      if ¬ ((b.buf (buf % 2)).loaded = true ∧ mmaPair f (b.buf (buf % 2)).fmt = true ∧ r b < if b.accClose then 1024 else 3072) then bad 11 b
      else if b.accClose = true ∧ b.next < b.mmaFree then bad 10 b
      else busyFor b (step (cpost && fmtMx f) ca (fmtK f / 32) b (step spost sa 64 b (mma b))))
      (exec (.mma a sa xa row buf sfmt ca spost xen ovw cpost hits last) s) ∧
    SlotDone s a .mx last (fun b =>
      if fmtK f = 0 then bad 11 b
      else if b.next < b.rlFree then bad 10 b
      else step (cpost && fmtMx f) ca (scaleBytes f) b (step spost sa (512 * rloadChunks f) b (load b)))
      (exec (.rload a sa buf sfmt ca spost cpost hits last) s)

/-- The CNT_CLR registers (Tables 3-14, 6-12, 7-12, 8-11, 10-12, 11-13, 12-10, 12-11, 13-11, 14-10, 15-11, 15-13, 16-9). -/
def Obligations.CounterClearsZeroTheirCounters : Prop :=
  ∀ (s : State) (h p val : Nat), Wf s →
    let clears (b : Blk) (off : Nat) (c : Instr) (fs : List Fld) : Prop :=
      s.takes h p b off (val ||| 1) = true →
        exec c s = .next ((s.taken h p b off (val ||| 1)).zero p fs) ∧ ∀ f ∈ fs, ((s.taken h p b off (val ||| 1)).zero p fs).rd p f = 0
    clears .os 0x170 (.osCounterClear h p val) [R.OS_MESH_CNT, R.OS_OVB_CNT, R.OS_ROUTE_CE_CNT, R.OS_HOLD_CYC, R.OS_WAIT_CYC] ∧
    clears .tg 0x130 (.tgCounterClear h p val) [R.OS_TG_CE_CNT, R.OS_TG_UE_CNT, R.OS_TG_POISON_CNT, R.OS_TG_CONFLICT_CNT] ∧
    (s.takes h p .mc 0x128 (val ||| 1) = true →
      let e := s.taken h p .mc 0x128 (val ||| 1)
      let fs := [R.MC_CE_CNT, R.MC_UE_CNT, R.MC_LATE_CNT, R.MC_POISON_RD_CNT, R.MC_SIDE_BYTES]
      let t := ({ e with sideRem := put natZero e.sideRem (dieOf p * 4 + (pageOf p - 0x10)) 0 }).zero p fs
      exec (.mcCounterClear h p val) s = .next t ∧ ∀ f ∈ fs, t.rd p f = 0) ∧
    clears .st 0x134 (.stCounterClear h p val) [R.ST_TX_CNT, R.ST_OUTST_PEAK] ∧
    clears .ce 0x134 (.ceCounterClear h p val) [R.CE_TX_BYTES, R.CE_RX_BYTES, R.CE_RX_DROP, R.CE_BUF_CE_CNT] ∧
    clears .hp 0x148 (.hpCounterClear h p val) [R.HP_ROLE_CHANGES, R.HP_LEASE_TMR_RENEW_CNT, R.HP_LEASE_CFG_REJ_CNT, R.HP_HB_MISSED,
      R.HP_SOLO_CNT, R.HP_MIR_STAT_ERR_CNT, R.HP_TWINE_CRC, R.HP_TWINE_LOSS] ∧
    clears .fault 0x158 (.faultCounterClear h p val) [R.FAULT_CNT_QFULL, R.FAULT_CNT_OVF] ∧
    clears .pcie 0x138 (.pcieCounterClear h p val) [R.PCIE_CE_CNT, R.PCIE_UE_CNT, R.PCIE_UR_CNT, R.PCIE_DMA_BYTES] ∧
    clears .sq 0x140 (.sqCounterClear h p val) [R.SQ_CNT_OVR, R.SQ_CNT_REFUSED, R.SQ_CNT_RESET, R.SQ_CNT_PARITY, R.SQ_CNT_DROP, R.SQ_CNT_LINES] ∧
    clears .th 0x1AC (.thCounterClear h p val) [R.TH_FAIL_CNT, R.TH_PWR_PEAK, R.TH_NV_REFUSED] ∧
    clears .sb 0x12C (.sbCounterClear h p val) [R.SB_FWD_CNT, R.SB_MISROUTE_CNT, R.SB_MEM_CE_CNT] ∧
    clears .sbk 0x174 (.sbCounterClear h p val) [R.SB_TX_CELLS, R.SB_RX_CELLS, R.SB_RETX_CNT, R.SB_NAK_CNT_SENT, R.SB_NAK_CNT_RECEIVED,
      R.SB_ACKTMO_CNT, R.SB_DUP_CNT, R.SB_CRC_CNT, R.SB_LS_CNT_APPLIED, R.SB_LS_CNT_COLLIDED, R.SB_DISCARD_CNT] ∧
    (s.takes h p .wl 0x164 (val ||| 1) = true →
      let e := s.taken h p .wl 0x164 (val ||| 1)
      exec (.wlCounterClear h p val) s = .next ((e.setWle p { e.wle p with wires := [] }).zero p [R.WL_CE_CNT, R.WL_UE_CNT, R.WL_SB_CE_CNT,
        R.WL_SB_UE_CNT, R.WL_WIRE_CNT, R.WL_SLIP_CNT, R.WL_TRAIN_CNT_ROUNDS, R.WL_TRAIN_CNT_MISMATCH, R.WL_TEST_ERR])) ∧
    (s.takes h p .fib 0x13C (val ||| 1) = true →
      let e := s.taken h p .fib 0x13C (val ||| 1)
      let w := dieOf p - 8
      let f := pageOf p - 0x10
      exec (.fibCounterClear h p val) s = .next ((List.range 16).foldl
        (fun (t : State) k => t.setLane w f k 1 { t.lane w f k 1 with hdrErr := 0, testErr := 0, testBits := 0 })
        (e.zero p [R.WF_FIB_STAT_REFUSED, R.WF_FIB_LOOP_ERR])))

/-- PKG_SNAP_CTRL, PKG_STAGE_CTRL, PKG_TAG_CTRL, PKG_TIME_CTRL and PKG_BREAK_STAT (R59, R60, R65-R67, R305, R322). -/
def Obligations.PackageControlWrites : Prop :=
  ∀ (s : State) (h val a : Nat), Wf s →
    (s.takes h pkg0 .pkg0 0x110 (val ||| 1) = true →
      let e := s.taken h pkg0 .pkg0 0x110 (val ||| 1)
      let lead := max 200 (bits (val ||| 1) 16 16)
      let e1 := e.wr pkg0 R.PKG_SNAP_CTRL_LEAD lead
      let run : SnapRun := ⟨(e.rd pkg0 R.PKG_SNAP_STAT_SEQ + 1) % 65536, e.clk.tick + lead, allDies, [], [], false⟩
      e.acting = some a → exec (.snapshotRequest h val) s = .next (if e.bit pkg0 R.PKG_SNAP_CTRL_BUSY then e1 else
        { (e1.wb pkg0 R.PKG_SNAP_CTRL_BUSY true) with snaps := put (fun _ => none) e.snaps a (some run) })) ∧
    (s.takes h pkg0 .pkg0 0x120 1 = true →
      let e := s.taken h pkg0 .pkg0 0x120 1
      e.acting = some a → e.bit (hpTop a) R.HP_ROLE_OVERLAP = false → exec (.stageOpen h) s = .next (if e.stageSt = 0 
        then (e.wr pkg0 R.PKG_STAGE_STAT_STATE 1).wb pkg0 R.PKG_STAGE_CTRL_OPEN true else e)) ∧
    (s.takes h pkg0 .pkg0 0x120 0 = true →
      let e := s.taken h pkg0 .pkg0 0x120 0
      let f := e.zero pkg0 [R.PKG_STAGE_STAT_STATE, R.PKG_STAGE_CTRL_OPEN, R.PKG_STAGE_CTRL_COMMIT]
      let g := ((f.wb pkg0 R.PKG_STAGE_STAT_FAIL true).wr pkg0 R.PKG_STAGE_STAT_FAIL_DIE 0x1F).wr pkg0 R.PKG_STAGE_STAT_FAIL_CAUSE 4
      e.acting = some a → e.bit (hpTop a) R.HP_ROLE_OVERLAP = false → exec (.stageClose h) s = .next (if e.stageSt = 1 then
        { g with com := { g.com with discard := allDies, ahead := e.com.prep, answers := [], taken := [], mark := [], armed := [] } } else e)) ∧
    (s.takes h pkg0 .pkg0 0x120 (val ||| 2) = true →
      let e := s.taken h pkg0 .pkg0 0x120 (val ||| 2)
      let f := (e.wr pkg0 R.PKG_STAGE_STAT_STATE 2).wb pkg0 R.PKG_STAGE_CTRL_COMMIT true
      e.acting = some a → e.bit (hpTop a) R.HP_ROLE_OVERLAP = false → e.stageSt = 1 →
      exec (.commit h val) s = .next
        { f with com := { f.com with at' := e.clk.tick, prep := allDies, ahead := [], answers := [], taken := [], mark := [], armed := [] } }) ∧
    (s.takes h pkg1 .pkg1 0x200 (val ||| 1) = true →
      let e := s.taken h pkg1 .pkg1 0x200 (val ||| 1)
      let e1 := e.wr pkg1 R.PKG_TAG_CTRL_SAVE_ERR (if val.testBit 1 then 0 else e.rd pkg1 R.PKG_TAG_CTRL_SAVE_ERR)
      let words := (List.range 64).map fun i => e.rd pkg1 R.PKG_TAG / 2 ^ (32 * i) % 2 ^ 32
      e.acting = some a → exec (.tagSave h val) s = .next (if e.start.tagSave.isSome then e1
        else if e.nvOk 0 && e.nvOk 1 then
          { (e1.wb pkg1 R.PKG_TAG_CTRL_SAVE true) with start := { e.start with tagSave := some words } }
        else ((e1.nvRefuse a).wb pkg1 R.PKG_TAG_CTRL_SAVE_ERR true).raise pkg1 0)) ∧
    (s.takes h pkg2 .pkg2 0x108 (val ||| 1) = true →
      exec (.pkgTimeArm h val) s = .next ((((s.taken h pkg2 .pkg2 0x108 (val ||| 1)).wr pkg2 R.PKG_TIME_CTRL_TOL (bits val 8 8)).wr pkg2
        R.PKG_TIME_CTRL_CHECK_EN (bits val 3 1)).wb pkg2 R.PKG_TIME_CTRL_ARMED true)) ∧
    (s.takes h pkg2 .pkg2 0x14C (val ||| 1) = true →
      let e := s.taken h pkg2 .pkg2 0x14C (val ||| 1)
      let f := (e.wb pkg2 R.PKG_BREAK_STAT_HIT false).wb pkg2 R.PKG_BREAK_EN false
      let copies (n : Nat × Note) : Bool := match n.2 with | .brk _ _ => true | _ => false
      exec (.breakpointRelease h val) s = .next (osDies.foldl (fun (t : State) d =>
        let u := t.breakTake d t.breakNow false
        if (u.od d).brkHit then u.setOd d { u.od d with brkHit := false, freeAt := u.clk.cc, metTick := u.pkgTick } else u)
        { f with notes := f.notes.filter fun n => !copies n }))

/-- OS_TG_ENABLE, OS_TG_ACC_MODE and OS_TG_ZERO (R96, R109, R110, Table 3-3; the choice for OFF tiles is log entry 7's). -/
def Obligations.TileRowWrites : Prop :=
  ∀ (s : State) (h p val : Nat), Wf s →
    let d := dieOf p
    let r := pageOf p - 1
    let follows (e f : State) (x : Tile) (c : Nat) : Tile :=
      let en := (f.rd p R.OS_TG_ENABLE_TILE_EN).testBit c
      if x.st = .idle ∨ (x.st = .off ∧ en = true ∧ e.prog d = 0 ∧ e.alive p = true)
      then x.rest en ((f.rd p R.OS_TG_ACC_MODE_CLOSE).testBit c) else x
    let rowDone (c : Instr) (e f : State) : Prop :=
      ∃ t, exec c s = .next t ∧ t.regs = f.regs ∧ (∀ c, c < 8 → t.tile d (8 * r + c) = follows e f (e.tile d (8 * r + c)) c) ∧
        (∀ k, (∀ c, c < 8 → k ≠ d * 64 + (8 * r + c)) → look tileZero t.tiles k = look tileZero e.tiles k) ∧
        { t with regs := e.regs, tiles := e.tiles } = e
    (s.takes h p .tg 0x100 val = true →
      let e := s.taken h p .tg 0x100 val
      rowDone (.tileEnable h p val) e (e.wr p R.OS_TG_ENABLE_TILE_EN (val % 2 ^ 8))) ∧
    (s.takes h p .tg 0x104 val = true →
      let e := s.taken h p .tg 0x104 val
      rowDone (.accModeWrite h p val) e (e.wr p R.OS_TG_ACC_MODE_CLOSE (val % 2 ^ 8))) ∧
    (s.takes h p .tg 0x118 val = true →
      let e := s.taken h p .tg 0x118 val
      let zeroes (c : Nat) : Bool := val.testBit c && decide ((e.tile d (8 * r + c)).st = .idle)
      ∃ t, exec (.tileZero h p val) s = .next t ∧
        (∀ c, c < 8 → t.tile d (8 * r + c) = if zeroes c then { e.tile d (8 * r + c) with zeroing := true } else e.tile d (8 * r + c)) ∧
        (∀ k, (∀ c, c < 8 → k ≠ d * 64 + (8 * r + c)) → look tileZero t.tiles k = look tileZero e.tiles k) ∧
        (∀ c, c < 8 → (t.rd p R.OS_TG_ZERO_REQ).testBit c = ((e.rd p R.OS_TG_ZERO_REQ).testBit c || zeroes c)) ∧
        (∀ k, k ≠ R.OS_TG_ZERO_REQ.key p → look resetVal t.regs k = look resetVal e.regs k) ∧
        { t with regs := e.regs, tiles := e.tiles } = e)

/-- OS_PROG_CTRL, OS_TBL_DATA and OS_EVT_ADD (R209, R216, R217, R219, R230). -/
def Obligations.ProgramControlWrites : Prop :=
  ∀ (s : State) (h p val : Nat), Wf s →
    let d := dieOf p
    let waits (e : State) : State :=
      if e.prog d = 1 ∧ e.bit p R.OS_PROG_CTRL_ARM = true ∧ (e.od d).ready = none ∧ (e.od d).stopping = false
      then (e.toCc e.clk.cc).becomeReady d e.clk.cc 0 false false else e
    let loads (v : Nat) (e : State) : State :=
      let f := e.wb p R.OS_PROG_CTRL_LOADED (v.testBit 2)
      if v.testBit 2 then waits (if e.prog d = 0 then f.wr p R.OS_PROG_STAT_STATE 1 else f) else f
    let stops (v : Nat) (e : State) : State := if v.testBit 1 && !e.bit p R.OS_PROG_CTRL_STOP then e.progStop d else e
    let arms (e : State) : State :=
      let f := e.wb p R.OS_PROG_CTRL_ARM true
      waits (if e.prog d = 3 then f.wr p R.OS_PROG_STAT_STATE 1 else f)
    (s.takes h p .os 0x104 (val ||| 1) = true →
      exec (.programArm h p val) s = .next (arms (stops val (loads val (s.taken h p .os 0x104 (val ||| 1)))))) ∧
    (s.takes h p .os 0x104 (val ||| 4) = true →
      let e := stops val (loads 4 (s.taken h p .os 0x104 (val ||| 4)))
      exec (.programLoaded h p val) s = .next (if val.testBit 0 then arms e else e.armWrite d false)) ∧
    (s.takes h p .os 0x104 (val ||| 2) = true →
      let e := stops 2 (loads val (s.taken h p .os 0x104 (val ||| 2)))
      exec (.programStop h p val) s = .next (if val.testBit 0 then arms e else e.armWrite d false) ∧
      ((s.taken h p .os 0x104 (val ||| 2)).bit p R.OS_PROG_CTRL_STOP = false →
        (∀ x ∈ e.mesh, x.die ≠ d) ∧ (∀ x ∈ e.edges, x.die ≠ d) ∧ (∀ x ∈ e.arrivals, x.die ≠ d) ∧ (∀ x ∈ e.nbq, x.die ≠ d) ∧
        e.bit p R.OS_PROG_STAT_HELD = false ∧ (e.od d).stopping = true ∧ (e.od d).ready = none)) ∧
    (s.takes h p .os 0x150 val = true →
      let e := s.taken h p .os 0x150 val
      let i := e.rd p R.OS_TBL_SEL_INDEX
      let u := e.rd p R.OS_TBL_SEL_UNIT
      let w := val % 2 ^ 32
      let o := e.od d
      let old := look natZero o.syncs (i % 256)
      let half := if e.rd p R.OS_TBL_SEL_HIGH = 1 then old % 2 ^ 32 + w * 2 ^ 32 else old / 2 ^ 32 * 2 ^ 32 + w
      let o' : OsDie := match e.rd p R.OS_TBL_SEL_TABLE with
        | 0 => { o with syncs := put natZero o.syncs (i % 256) (syncBits half) }
        | 1 => { o with phases := put natZero o.phases (i % 64) (w % 2 ^ 24) }
        | 2 => { o with routes := put natZero o.routes (u * 4096 + i) (w % 2 ^ 29) }
        | _ => { o with plans := put natZero o.plans (u % 4 * 4096 + i) (planBits w) }
      let f := (e.setOd d o').wb p R.OS_PROG_CTRL_LOADED false
      exec (.tableWrite h p val) s = .next (if e.prog d = 2 ∨ e.prog d = 3 then e
        else if e.prog d = 1 then (if (f.od d).ready.isSome then f.unready d else f).toEmpty d else f)) ∧
    (s.takes h p .os 0x154 val = true →
      let e := s.taken h p .os 0x154 val
      let c := val % 16
      let f := e.wr p R.OS_EVT_ADD_CNT c
      let g := f.setOd d { f.od d with fresh := ((f.od d).fresh.filter fun x => decide (f.clk.cc < x.2.2)) ++ [(c, f.evtCnt d c, f.clk.seen)] }
      exec (.eventDoorbell h p val) s = .next ((g.addSat p (Fld.idx R.OS_EVT_CNT c) (bits val 16 16)).condNote d f.clk.seen))

/-- The windows of the stream and collective engines (R243, R257, R269, R278, R286, R298, R328). -/
def Obligations.ScheduleWindowWrites : Prop :=
  ∀ (s : State) (h p val : Nat), Wf s →
    let d := dieOf p
    let g := pageOf p - 0x20
    let open' (e : State) : Prop := e.prog d = 0 ∨ e.prog d = 1
    (s.takes h p .st 0x10C val = true →
      let e := s.taken h p .st 0x10C val
      let x := e.eng d g
      let y := putSched x.sched x.segs stTop (e.rd p R.ST_SCHED_SEL_INDEX) (e.rd p R.ST_SCHED_SEL_WORD) (val % 2 ^ 32)
      (open' e → exec (.stSchedWrite h p val) s = .next (e.setEng d g { x with sched := y.1, segs := y.2 })) ∧
      (¬ open' e → exec (.stSchedWrite h p val) s = .next e)) ∧
    (s.takes h p .ce 0x108 val = true →
      let e := s.taken h p .ce 0x108 val
      let x := e.ce d
      let y := putSched x.sched x.segs 94 (e.rd p R.CE_SCHED_SEL_INDEX) (e.rd p R.CE_SCHED_SEL_WORD) (val % 2 ^ 32)
      (open' e → exec (.ceSchedWrite h p val) s = .next (e.setCe d { x with sched := y.1, segs := y.2 })) ∧
      (¬ open' e → exec (.ceSchedWrite h p val) s = .next e)) ∧
    (s.takes h p .st 0x184 val = true →
      let e := s.taken h p .st 0x184 val
      exec (.stakeWrite h p val) s = .next (if g = 0 then
        e.stakeWrite d (e.rd p R.ST_STAKE_SEL_GRANULE) (val % 2 ^ 32) else e)) ∧
    (s.takes h p .ce 0x110 val = true →
      let e := s.taken h p .ce 0x110 val
      let k := e.rd p R.CE_RANK_SEL_RANK
      let x := e.ce d
      let m := put natZero x.ranks k (x.rank k % 256 + 256 * bits val 8 1)
      exec (.rankTableWrite h p val) s = .next (if e.prog d = 2 then e else
        e.setCe d { x with ranks := put natZero m k (look natZero m k / 256 * 256 + val % 256) })) ∧
    (s.takes h p .st 0x154 (val ||| 1) = true →
      let e := s.taken h p .st 0x154 (val ||| 1)
      exec (.dlatAck h p val) s = .next (if g = 0 then (e.setAu d { e.au d with lost := 0 }).wb p R.ST_DLAT_STAT_FULL false else e))

/-- WL_CTRL and WL_REPAIR_DATA (R341, R344, R348, R353). -/
def Obligations.WaleRegisterWrites : Prop :=
  ∀ (s : State) (h p val : Nat), Wf s →
    let sets (e : State) : State :=
      ((e.wr p R.WL_CTRL_HALF (bits val 3 1)).wr p R.WL_CTRL_WIDTH8 (bits val 2 1)).wr p R.WL_CTRL_SCRATCH (bits val 1 1)
    let holds (e : State) : State := if e.rd p R.WL_STAT_STATE = 0 then e else
      let f := e.wlDown p
      let g := f.setWle p { f.wle p with matched := 0, rx := [], asked := false }
      ((g.wr p R.WL_STAT_STATE 4).wr p R.WL_STAT_PHASE 0).wb p R.WL_CTRL_RETRAIN false
    let trains (e : State) : State :=
      if walePeer p = none ∨ e.rd p R.WL_STAT_STATE = 0 then e
      else
        let f := (e.setWle p { e.wle p with asked := true }).wb p R.WL_CTRL_RETRAIN true
        (if e.rd p R.WL_STAT_STATE = 1 then f else f.wlTrain p).supersede p
    (s.takes h p .wl 0x100 (val ||| 1) = true →
      let e := s.taken h p .wl 0x100 (val ||| 1)
      exec (.retrain h p val) s = .next (trains (sets (if val.testBit 4 then holds e else e)))) ∧
    (s.takes h p .wl 0x100 (val ||| 0x10) = true →
      let e := sets (holds (s.taken h p .wl 0x100 (val ||| 0x10)))
      exec (.holdReq h p val) s = .next (if val.testBit 0 then trains e else e)) ∧
    (s.takes h p .wl 0x110 val = true →
      let e := s.taken h p .wl 0x110 val
      let dir := e.rd p R.WL_REPAIR_SEL_DIR
      let m := e.rd p R.WL_REPAIR_SEL_MODULE
      let k := e.rd p R.WL_REPAIR_SEL_ENTRY
      let past := val % 128 ≠ 0x7F ∧ (e.wle p).repair dir m k = 0x7F ∧ maxRepairs (e.wlMods p) ≤ e.repairsAll p dir
      (past → exec (.repairWrite h p val) s = .next e) ∧
      (¬ past → exec (.repairWrite h p val) s = .next (e.setWle p ((e.wle p).setRepair dir m k (val % 128)))))

/-- WF_PLANE_EN, WF_FIB_SLIP, WF_FIB_REACQ, WF_CAL_CTRL, RD_CAL_CTRL, RD_L_CTRL and RD_CTRL (R356-R383). -/
def Obligations.OpticsRegisterWrites : Prop :=
  ∀ (s : State) (h p val : Nat) (ecc : Option Bool), Wf s →
    let w := dieOf p - 8
    let n := pageOf p - 0x10
    let again (dir mask : Nat) (e : State) : State := (List.range 16).foldl (fun (t : State) k =>
      if mask.testBit k && (t.lane w n k dir).ok then
        (if dir = 0 && (t.rd p R.WF_FIB_MODE_TX).testBit k then t.inc p R.WF_FIB_STAT_REFUSED else t.acquire w n k dir) else t) e
    let reed := dieOf p - 0x10
    let laserSet (on : Bool) (e : State) : State :=
      if on && !e.lightOk reed then e.raise (rdTop reed) 0
      else
        let f := e.wb p R.RD_L_CTRL_ON on
        if on then f.laserWant reed n
        else if e.rd p R.RD_L_STAT_STATE = rdOff ∨ e.rd p R.RD_L_STAT_STATE = rdFailed then f else f.laserOff reed n rdOff
    let spares (e : State) : State :=
      if e.bit p R.RD_L_STAT_BANK || e.bit p R.RD_L_STAT_B_FAIL || decide (e.rd p R.RD_L_STAT_STATE = rdSparing)
        || e.bit (rdTop reed) R.RD_CTRL_ALL_OFF then e
      else if !e.lightOk reed then e.raise (rdTop reed) 0
      else (e.wb p R.RD_L_CTRL_SPARE true).spareStart reed n e.clk.tick
    let calSets (e : State) : State := (e.wr p R.RD_CAL_CTRL_HLIM (bits val 16 12)).wr p R.RD_CAL_CTRL_LIM (bits val 8 8)
    let clears (e : State) : State := e.wr p R.RD_CAL_CTRL_REJ (if val.testBit 2 then 0 else e.rd p R.RD_CAL_CTRL_REJ)
    (s.takes h p .wf 0x104 val = true →
      let e := s.taken h p .wf 0x104 val
      let old := e.rd p R.WF_PLANE_EN_EN
      exec (.planeEnable h p val) s = .next ((List.range 16).foldl
        (fun (t : State) f => if val.testBit f = old.testBit f then t else t.planeSet w f (val.testBit f)) (e.wr p R.WF_PLANE_EN_EN (val % 2 ^ 16)))) ∧
    (s.takes h p .fib 0x108 val = true →
      exec (.fibSlip h p val) s = .next ((List.range 16).foldl (fun (t : State) k =>
        let x := t.lane w n k 1
        if val.testBit k && decide (x.st = .slip) then
          (if 66 ≤ x.slips then ((t.setLane w n k 1 { x with alignAt := t.clk.tick + 10 * msTicks }).acquire w n k 1).fibRaise w n k 1 1 else t.laneTo w n k 1 { x with slips := x.slips + 1, sync := false })
        else t) (s.taken h p .fib 0x108 val))) ∧
    (s.takes h p .fib 0x10C val = true →
      let t := again 0 (bits val 0 16) (again 1 (bits val 16 16) (s.taken h p .fib 0x10C val))
      exec (.reacqTx h p val) s = .next t ∧ exec (.reacqRx h p val) s = .next t) ∧
    (s.takes h p .wf 0x108 (val ||| 1) = true →
      let e0 := (s.taken h p .wf 0x108 (val ||| 1)).wr p R.WF_CAL_CTRL_GEN (bits val 8 4)
      let e := if ecc = some false then e0.raise p 0 else e0
      let bad := (e.calKeys w).filter fun key => !e.calFits w (key % 4) (look calZero e.cal key) (look calZero e.calSh key)
      e0.bit p R.WF_CAL_CTRL_COMMIT = false →
      exec (.calCommit h p val ecc) s = .next (if ecc = some true then e.raise p 1 else match bad with
        | [] => (e.wb p R.WF_CAL_CTRL_COMMIT true).setWf w { e.wf w with armed := true }
        | b :: r => (((e.wr p R.WF_CAL_STAT_REJ_ITEM (r.foldl min b % 4 + r.foldl min b / 128 % 16 * 16)).wb p R.WF_CAL_STAT_REJ true).raise p 2))) ∧
    (s.takes h p .rd 0x110 (val ||| 1) = true →
      let e := clears (calSets (s.taken h p .rd 0x110 (val ||| 1)))
      (e.reed reed).armed = false →
      exec (.rdCalCommit h p val) s = .next (if val.testBit 1 then
          (let f := e.recal reed
           if (f.reed reed).armed then f else f.rdCommit reed)
        else e.rdCommit reed)) ∧
    (s.takes h p .rd 0x110 (val ||| 2) = true →
      let e := clears (calSets (s.taken h p .rd 0x110 (val ||| 2)))
      (e.reed reed).armed = false →
      exec (.recal h p val) s = .next (let f := e.recal reed
        if val.testBit 0 && !(f.reed reed).armed then f.rdCommit reed else f)) ∧
    (s.takes h p .rdl 0x100 val = true →
      let e := s.taken h p .rdl 0x100 val
      exec (.laserOnWrite h p val) s = .next (laserSet (val.testBit 0) (if val.testBit 1 then spares e else e))) ∧
    (s.takes h p .rdl 0x100 (val ||| 2) = true →
      exec (.spare h p val) s = .next (laserSet (val.testBit 0) (spares (s.taken h p .rdl 0x100 (val ||| 2))))) ∧
    (s.takes h p .rd 0x104 (val ||| 4) = true →
      let e := (s.taken h p .rd 0x104 (val ||| 4)).wb p R.RD_CTRL_ALL_OFF true
      exec (.allOff h p val) s = .next (((List.range 16).foldl (fun (t : State) k =>
        if t.rd (rdPg reed k) R.RD_L_STAT_STATE = rdOff ∨ t.rd (rdPg reed k) R.RD_L_STAT_STATE = rdFailed then t
        else t.laserOff reed k rdOff) e).wr p R.RD_CTRL_AUTO_SPARE (bits val 1 1)))

/-- SB_COM_CTRL, SB_CTRL and SB_LANE_CTRL (R391, R409, R413). -/
def Obligations.SeberRegisterWrites : Prop :=
  ∀ (s : State) (h p val : Nat), Wf s →
    let w := dieOf p - 8
    let k := pageOf p - 0x20
    let sets (e : State) : State := (e.wr p R.SB_CTRL_AUTO_RTN (bits val 3 1)).wr p R.SB_CTRL_AUTO_RET (bits val 2 1)
    let drains (e : State) : State :=
      if e.sbSt w k = sbAlive then
        let x := e.sub w k
        let c : Cell := { e.mkCell w k 0xA 0 0 with dst := e.peerPkg w k }
        (e.setSub w k { x with queue := x.queue ++ [(c, false)], entered := e.clk.tick }).wr p R.SB_STAT_STATE sbDraining
      else e
    let resets (e : State) : State := (e.sbDarken w k).sbWake w k
    let fib (e : State) : Nat := e.rd p R.SB_LSEL_FIB
    let returns (e : State) : State :=
      let x := e.sub w k
      if (x.lane' (fib e)).retired then e.setSub w k (x.putLane (fib e) { x.lane' (fib e) with allowed := true }) else e
    let drops (e : State) : State :=
      let x := e.sub w k
      (e.setSub w k (x.putLane (fib e) { x.lane' (fib e) with swOut := true })).sbAdjust w k
    (s.takes h p .sb 0x100 val = true →
      let e := s.taken h p .sb 0x100 val
      let f := if e.bit p R.SB_COM_CTRL_EN then e else e.wr p R.SB_COM_CTRL_CLUSTER (bits val 1 1)
      let on := val.testBit 0
      exec (.seberEnable h p val) s = .next (if e.rd p R.SB_COM_CTRL_EN = bits val 0 1 then f else
        (List.range 15).foldl (fun (t : State) i => if on then t.sbWake w (i + 1) else if t.sbSt w (i + 1) = sbDark then t else t.sbDarken w (i + 1))
          (f.wb p R.SB_COM_CTRL_EN on))) ∧
    (s.takes h p .sbk 0x100 (val ||| 2) = true →
      let e := drains (sets (s.taken h p .sbk 0x100 (val ||| 2)))
      exec (.sbDrain h p val) s = .next (if val.testBit 0 then resets e else e)) ∧
    (s.takes h p .sbk 0x100 (val ||| 1) = true →
      let e := sets (s.taken h p .sbk 0x100 (val ||| 1))
      exec (.sbReset h p val) s = .next (resets (if val.testBit 1 then drains e else e))) ∧
    (s.takes h p .sbk 0x16C (val ||| 1) = true →
      let e := s.taken h p .sbk 0x16C (val ||| 1)
      exec (.sbLaneDrop h p val) s = .next (drops (if val.testBit 1 then returns e else e))) ∧
    (s.takes h p .sbk 0x16C (val ||| 2) = true →
      let e := returns (s.taken h p .sbk 0x16C (val ||| 2))
      exec (.sbLaneReturnWrite h p val) s = .next (if val.testBit 0 then drops e else e))

/-- SQ_CONS, SQ_WM, SQ_CTRL, PCIE_DMA_CTRL, PCIE_WIN and PCIE_MODE (R468, R478, R480-R483, R485, R486). -/
def Obligations.QueueRegisterWrites : Prop :=
  ∀ (s : State) (h p val : Nat), Wf s →
    let a := dieOf p - 0x12
    let q := pageOf p - 0x100
    let consumes (v : Nat) (e : State) : State :=
      let x := e.sq a q
      let x := if v.testBit 1 then { x with rd := x.mark.getD 0 } else x
      let n := x.rd
      let y := if v.testBit 2 then { x with drain := x.drain.drop n, freed := x.freed + n, rd := 0, mark := none } else x
      (e.setSq a q (if v.testBit 0 then { y with mark := some y.rd } else y)).addWrap p R.SQ_CNT_LINES (if v.testBit 2 then n else 0)
    let cons (v : Nat) (c : Instr) : Prop := s.takes h p .sq 0x114 v = true →
      exec c s = .next (if q < 64 then consumes v (s.taken h p .sq 0x114 v) else s.taken h p .sq 0x114 v)
    let flushes (e : State) : State :=
      let x := e.sq a q
      if q < 64 ∨ x.flushing.isSome = true then e else
        let f := (e.addWrap p R.SQ_CNT_LINES x.level).addSat p R.SQ_CNT_DROP x.reg.length
        f.setSq a q { x with fill := [], used := 0, trunc := false, drain := [], freed := 0, reg := [], regPoi := false, resync := true,
                             flushing := if x.inside || !x.rest.isEmpty then some e.clk.tick else none }
    let resets (e : State) : State :=
      let f := if q < 8 then e.dmaStop a q 5 0 true else e
      let x := f.sq a q
      let within := x.inside || !x.rest.isEmpty
      if q < 64 then f.setSq a q { drop := within, inside := within, resync := true, rest := x.rest, accepted := x.accepted, wmPrev := x.wmPrev }
      else e
    let enables (e : State) : State :=
      (List.range 8).foldl (fun (t : State) c => if (e.rd p R.PCIE_DMA_CTRL_EN).testBit c && !val.testBit c then t.dmaStop a c 5 0 true else t)
        (e.wr p R.PCIE_DMA_CTRL_EN (val % 2 ^ 8))
    let restarts (e : State) : State :=
      (List.range 8).foldl (fun (t : State) c => if val.testBit (c + 8) then t.clrBit p R.PCIE_DMA_CTRL_STOPPED c else t) e
    cons (val ||| 1) (.sqMark h p val) ∧ cons (val ||| 2) (.sqRewind h p val) ∧ cons (val ||| 4) (.sqRelease h p val) ∧
    (s.takes h p .sq 0x108 (val ||| 1) = true →
      let e := s.taken h p .sq 0x108 (val ||| 1)
      let f := (e.wb p R.SQ_WM_HIT false).wr p R.SQ_WM_CNT 0
      let g := f.wb p R.SQ_WM_HIT true
      exec (.wmHitClear h p val) s = .next (if max 1 (e.rd p R.SQ_CFG_WM) ≤ (e.sq a q).level then
        (if e.bit p R.SQ_CFG_WM_INT then g.msix a (e.rd p R.SQ_CFG_VEC) else g) else f)) ∧
    (s.takes h p .sq 0x118 (val ||| 1) = true →
      let e := s.taken h p .sq 0x118 (val ||| 1)
      exec (.sqFlush h p val) s = .next (flushes (if val.testBit 1 then resets e else e))) ∧
    (s.takes h p .sq 0x118 (val ||| 2) = true →
      let e := resets (s.taken h p .sq 0x118 (val ||| 2))
      exec (.sqReset h p val) s = .next (if val.testBit 0 then flushes e else e)) ∧
    (s.takes h p .pcie 0x110 val = true →
      let t := enables (restarts (s.taken h p .pcie 0x110 val))
      exec (.dmaRestart h p val) s = .next t ∧ exec (.dmaEnable h p val) s = .next t) ∧
    (s.takes h p .pcie 0x10C val = true →
      let e := s.taken h p .pcie 0x10C val
      exec (.huabelNextWrite h p val) s = .next (if e.nvOk 0 && e.nvOk 1 then
        [0, 1].foldl (fun (t : State) i => (t.setFlash i { t.flashOf i with huabel := val.testBit 1 }).wr (pciePg i) R.PCIE_MODE_HUABEL_NEXT (bits val 1 1)) e
        else e.nvRefuse a)) ∧
    (s.takes h p .pcie 0x108 val = true →
      exec (.pcieWinWrite h p val) s = .next ((s.taken h p .pcie 0x108 val).wr p R.PCIE_WIN_BASE (val % 2 ^ 12)))

/-- HP_LEASE_CMD, HP_WDOG, HP_MIR_CTRL, FAULT_ACK, FAULT_INT, FAULT_PIN, FAULT_COAL and FAULT_CRASH. -/
def Obligations.HoopAndFaultRegisterWrites : Prop :=
  ∀ (s : State) (h p val : Nat), Wf s →
    let a := dieOf p - 0x12
    (s.takes h (hpTop h) .hp 0x10C 1 = true →
      let e := s.taken h (hpTop h) .hp 0x10C 1
      let n := e.rd (hpTop h) R.HP_LEASE_CMD_EPOCH
      let f := e.accepted h
      exec (.leaseGrant h) s = .next (if e.hpSeen h < n ∧ e.role h ≠ roleFailed ∧ e.huabel = false then
        (f.setHoop h { f.hoop h with leaseEnd := f.clk.tick + 250 * msTicks, renewAt := f.clk.tick + 50 * msTicks,
                                     granted := some f.clk.tick }).promote h n roleActive
        else e.leaseReject h)) ∧
    (s.takes h (hpTop h) .hp 0x10C 2 = true →
      let e := s.taken h (hpTop h) .hp 0x10C 2
      let n := e.rd (hpTop h) R.HP_LEASE_CMD_EPOCH
      let f := (e.accepted h).meet h n
      exec (.leaseRenew h) s = .next (if n = e.hpEpoch h ∧ e.role h = roleActive ∧ e.huabel = false then
        (f.setHoop h { f.hoop h with leaseEnd := f.clk.tick + 250 * msTicks }).addWrap (hpTop h) R.HP_LEASE_TMR_RENEW_CNT 1
        else e.leaseReject h)) ∧
    (s.takes h (hpTop h) .hp 0x10C 3 = true →
      let e := s.taken h (hpTop h) .hp 0x10C 3
      let n := e.rd (hpTop h) R.HP_LEASE_CMD_EPOCH
      let f := ((e.accepted h).meet h n).setRole h roleStandby
      exec (.leaseStandby h) s = .next (if e.hpSeen h ≤ n ∧ e.role h ≠ roleFailed ∧ e.huabel = false then
        f.setHoop h { f.hoop h with granted := none } else e.leaseReject h)) ∧
    (s.takes h p .hp 0x128 (val ||| 1) = true →
      let e := (s.taken h p .hp 0x128 (val ||| 1)).wr p R.HP_WDOG_MS (max 10 (bits val 8 8))
      exec (.wdogKick h p val) s = .next (e.setHoop a { e.hoop a with kick := e.clk.tick })) ∧
    (s.takes h p .hp 0x134 (val ||| 1) = true →
      exec (.mirrorResync h p val) s = .next ((s.taken h p .hp 0x134 (val ||| 1)).mirrorOut a)) ∧
    (s.takes h p .fault 0x140 (val ||| 0x80000000) = true →
      let e := s.taken h p .fault 0x140 (val ||| 0x80000000)
      let f := ((e.wr p R.FAULT_ACK_DIE (bits val 0 5)).wr p R.FAULT_ACK_PAGE (bits val 5 9)).wr p R.FAULT_ACK_SOURCE (bits val 14 5)
      let k : Ack := ⟨a, pg (bits val 0 5) (bits val 5 9), bits val 14 5, e.hpEpoch a, e.clk.tick⟩
      e.bit p R.FAULT_ACK_GO = false →
      exec (.faultAck h p val) s = .next (if e.acts a then { (f.wb p R.FAULT_ACK_GO true) with acks := e.acks ++ [k] }
        else (f.wr p R.FAULT_ACK_STAT_RESULT 6).wb p R.FAULT_ACK_GO false)) ∧
    (s.takes h p .fault 0x148 (val ||| 1) = true →
      let e := s.taken h p .fault 0x148 (val ||| 1)
      exec (.faultIntClear h p val) s = .next (if e.rd p R.FAULT_INT_NEW = 0 then e.wb p R.FAULT_INT_PEND false
        else (e.wr p R.FAULT_INT_NEW 0).msix a (e.rd p R.FAULT_CFG_VEC))) ∧
    (s.takes h p .fault 0x14C (val ||| 1) = true →
      exec (.faultPinClear h p val) s = .next ((s.taken h p .fault 0x14C (val ||| 1)).wr p R.FAULT_PIN_OPEN 0)) ∧
    (s.takes h p .fault 0x104 val = true →
      let e := s.taken h p .fault 0x104 val
      let ms := max 1 (val % 2 ^ 14)
      let f := e.wr p R.FAULT_COAL_MS ms
      exec (.faultCoalWrite h p val) s = .next (if e.acts a then
        { f with flt := { f.flt with coal := (List.range 32).foldl (fun m d => put (fun _ => 100) m d ms) f.flt.coal } } else f)) ∧
    (s.takes h p .fault 0x154 (val ||| 0x10000) = true →
      let e := s.taken h p .fault 0x154 (val ||| 0x10000)
      exec (.crashLogClear h p val) s = .next (if e.nvOk a then e.setFlog a { e.flog a with crash := [] } else e.nvRefuse a))

/-- TH_FORCE, TH_SAFE, TH_DRV_LIMIT, AGE_LOG, PR_CTRL, SEC_KEY_CTRL, SEC_LC, SEC_DBG, SEC_RESP and SEC_JTAG. -/
def Obligations.ThermalAndSecurityRegisterWrites : Prop :=
  ∀ (s : State) (h p val : Nat) (ok ok1 owner : Bool), Wf s →
    let d := dieOf p
    let a := d - 0x12
    let f (e : State) : State := e.wr p R.TH_FORCE_SENSOR (bits val 0 5)
    let i := bits val 0 5
    let sets (e : State) : State := if i < sensCount d ∧ (e.sensor (sensIdx d i)).sub = 0 then ((e.substitute (sensIdx d i) 2).safeEval).thermalUpdate else e
    let clears (e : State) : State :=
      let x := e.sensor (sensIdx d i)
      if i < sensCount d ∧ x.sub ≠ 0 ∧ 1000 ≤ x.good then (e.setSensor (sensIdx d i) { x with sub := 0 }).thermalUpdate else e
    (s.takes h p .th 0x11C (val ||| 0x100) = true →
      let e := sets (f (s.taken h p .th 0x11C (val ||| 0x100)))
      exec (.sensorForceSet h p val) s = .next (if val.testBit 9 then e.forceClr d else e)) ∧
    (s.takes h p .th 0x11C (val ||| 0x200) = true → val.testBit 8 = false →
      exec (.sensorForceClr h p val) s = .next (clears (f (s.taken h p .th 0x11C (val ||| 0x200))))) ∧
    (s.takes h p .th 0x1A0 (val ||| 0x200) = true → isHoop d = true →
      let e := s.taken h p .th 0x1A0 (val ||| 0x200)
      let e1 := (e.wr p R.TH_SAFE_N (max 16 (min 64 (bits val 0 7)))).sendN
      let e2 := (e1.wr p R.TH_SAFE_FORCE (bits val 8 1)).safeEval
      exec (.safeClear h p val) s = .next (if e2.safeNow a = 0 then (e2.wr p R.TH_SAFE_CAUSE 0).sendN else e2.safeEval)) ∧
    (s.takes h p .th 0x190 val = true → isHoop d = true →
      let n := max 16 (min 64 (val % 2 ^ 7))
      ∃ t, exec (.driverLimitWrite h p val) s = .next t ∧ t.rd p R.TH_DRV_LIMIT_N = n ∧ t.rd p R.TH_PKG_N_ND = n ∧
        { t with regs := s.regs, cad := s.cad, pages := s.pages, com := s.com } = s) ∧
    (s.takes h p .age 0x184 (val ||| 0x1000000) = true → isHoop d = true →
      let e := s.taken h p .age 0x184 (val ||| 0x1000000)
      exec (.ageLogClear h p val) s = .next (if e.nvOk a then
        { (e.setFlash a { e.flashOf a with age := [], lit := [] }) with agePend := put (fun _ => []) e.agePend a [] } else e.nvRefuse a)) ∧
    (isHoop d = false →
      (s.takes h p .th 0x1A0 (val ||| 0x200) = true → exec (.safeClear h p val) s = .next (s.taken h p .th 0x1A0 (val ||| 0x200))) ∧
      (s.takes h p .th 0x190 val = true → exec (.driverLimitWrite h p val) s = .next (s.taken h p .th 0x190 val)) ∧
      (s.takes h p .age 0x184 (val ||| 0x1000000) = true →
        exec (.ageLogClear h p val) s = .next (s.taken h p .age 0x184 (val ||| 0x1000000)))) ∧
    (s.takes h p .pr 0x110 (val ||| 1) = true →
      let e := s.taken h p .pr 0x110 (val ||| 1)
      let e1 := e.wr p R.PR_CTRL_ERR (if val.testBit 2 then 0 else e.rd p R.PR_CTRL_ERR)
      let e2 := if val.testBit 1 then e1.profSave a else e1
      exec (.profileStagingLoad h p val) s = .next
        (((e2.flashOf a).prof (e2.rd p R.PR_SEL_PROF)).zipIdx.foldl (fun (t : State) x => t.putStaging a x.2 x.1) e2)) ∧
    (s.takes h p .pr 0x110 (val ||| 2) = true → val.testBit 0 = false →
      let e := s.taken h p .pr 0x110 (val ||| 2)
      let e1 := e.wr p R.PR_CTRL_ERR (if val.testBit 2 then 0 else e.rd p R.PR_CTRL_ERR)
      exec (.profileSave h p val) s = .next (if e.start.save.isSome then e1
        else if !profValid (e.staging a) (e.flashOf a).grade then e1.saveErr a
        else if !(e.nvOk 0 && e.nvOk 1) then (e1.nvRefuse a).saveErr a
        else { (e1.wb p R.PR_CTRL_SAVE true) with start := { e.start with save := some (a, e.rd p R.PR_SEL_PROF, e.staging a) } })) ∧
    (s.takes h p .sec 0x10C (val ||| 1) = true → bits val 8 8 = 0 →
      let e := s.taken h p .sec 0x10C (val ||| 1)
      let slot := e.rd p R.SEC_KEY_SEL_SLOT
      let x := e.flashOf a
      exec (.keyProgram h p val ok) s = .next (if x.fused.testBit slot then e else if !e.nvOk a then e.nvRefuse a else if !ok then e.raise p 4
        else (e.setFlash a { x with keys := put natZero x.keys slot (e.rd p R.SEC_KEYHASH), fused := x.fused + 2 ^ slot }).wr p
          R.SEC_KEY_CTRL_FUSED (x.fused + 2 ^ slot))) ∧
    (s.takes h p .sec 0x10C val = true → val.testBit 0 = false →
      let e := s.taken h p .sec 0x10C val
      let x := e.flashOf a
      let new := x.revoked ||| bits val 8 8
      exec (.keyRevoke h p val ok) s = .next (if new = x.revoked then e else if !e.nvOk a then e.nvRefuse a else if !ok then e.raise p 4
        else (e.setFlash a { x with revoked := new }).wr p R.SEC_KEY_CTRL_REVOKE new)) ∧
    (s.takes h p .sec 0x100 val = true →
      let e := s.taken h p .sec 0x100 val
      let v := bits val 8 2
      let goes (f : State) : State := if f.nvOk 0 && f.nvOk 1 then f.lifeTo a v ok ok1 else f.nvRefuse a
      exec (.lifecycleRequest h p val owner ok ok1) s = .next (
        if v = 1 ∧ e.life = 0 ∧ (e.flashOf a).fused / 4 % 16 ≠ 0 then goes e
        else if v = 2 ∧ e.life = 1 ∧ e.dbgLevel = 3 then goes e
        else if v = 2 ∧ e.life = 1 ∧ e.start.refuse ≤ e.clk.tick then
          (if owner && (e.flashOf a).fused.testBit 6 && !(e.flashOf a).revoked.testBit 6 then goes (e.newNonce a) else (e.newNonce a).authFail a)
        else e)) ∧
    (s.takes h p .sec 0x140 val = true →
      let e0 := s.taken h p .sec 0x140 val
      let e := e0.wr p R.SEC_DBG_FAIL (if val.testBit 9 then 0 else e0.rd p R.SEC_DBG_FAIL)
      let v := bits val 4 2
      let lvl := e.dbgLevel
      exec (.debugRequest h p val) s = .next (
        if e.start.scrub.isSome = true ∨ v = lvl then e
        else if v < lvl then (if lvl = 3 then e.scrubStart a v else e.setLevel a v)
        else if v = 1 then (if e.bit p R.PG_STATUS_KEY_OPEN then e.setLevel a 1 else e.dbgFail a)
        else if e.clk.tick < e.start.refuse ∨ (v = 2 ∧ e.life ≠ 1) ∨ (v = 3 ∧ e.anyRunning = true) then e.dbgFail a
        else { e with start := { e.start with respLvl := 4 * a + v } })) ∧
    (s.takes h p .sec 0x1DC val = true →
      let e := s.taken h p .sec 0x1DC val
      let old := e.rd p R.SEC_RESP % 2 ^ 768
      exec (.debugResponse h p val ok) s = .next ((e.wr p R.SEC_RESP (old % 2 ^ 736 + val % 2 ^ 32 * 2 ^ 736)).dbgResp a ok)) ∧
    (s.takes h p .sec 0x1E0 val = true →
      exec (.jtagSkip h p val) s = .next (((s.taken h p .sec 0x1E0 val).wr (secPg 0) R.SEC_JTAG_SKIP (val % 2 ^ 20)).wr (secPg 1) R.SEC_JTAG_SKIP
        (val % 2 ^ 20)))

/-- PG_CTRL and PG_FSTAT (R53, R448, R554, Tables 2-3 and 2-7). -/
def Obligations.PageControlWrites : Prop :=
  ∀ (s : State) (h p val : Nat) (b : Blk), Wf s → pageBlk p = some b →
    let unlocks (v : Nat) (e : State) : State := e.wb p R.PG_STATUS_KEY_OPEN (decide (v / 2 ^ 16 % 2 ^ 16 = 0x5EB3))
    let resets (e : State) : State := if (e.page p).up = .resetting then e
      else (((e.wb p R.PG_STATUS_KEY_OPEN false).wb p R.PG_CTRL_SOFT_RESET true).resetBlock p b).setUp p .resetting
    let enables (v : Nat) (e : State) : State :=
      let f := e.wb p R.PG_CTRL_ENABLE (v.testBit 0)
      if v.testBit 0 = true ∧ (e.page p).up = .down then f.blockUp p b
      else if b = .wl ∧ e.alive p = true ∧ e.bit p R.PG_CTRL_ENABLE ≠ v.testBit 0 then (if v.testBit 0 then f.wlEnable p else f.wlOff p)
      else f
    (s.takes h p b 8 val = true →
      let e := unlocks val (s.taken h p b 8 val)
      exec (.keyUnlock h p val) s = .next (enables val (if val.testBit 1 then resets e else e))) ∧
    (s.takes h p b 8 (val ||| 2) = true →
      exec (.softReset h p val) s = .next (enables val (resets (unlocks val (s.taken h p b 8 (val ||| 2)))))) ∧
    ((s.page p).up = .resetting →
      let e := match b with
        | .os => s.resetOs p
        | .pkg0 => s.resetPkg0
        | _ => s
      let f := e.wb p R.PG_CTRL_SOFT_RESET false
      (s.resetEnds p b = false → exec (.softResetComplete p) s = .next s) ∧
      (s.resetEnds p b = true →
        exec (.softResetComplete p) s = .next (if f.bit p R.PG_CTRL_ENABLE then f.blockUp p b else f.setUp p .down))) ∧
    (s.takes h p b 0x10 val = true →
      let e := s.taken h p b 0x10 val
      ∃ t, exec (.fstatClear h p val) s = .next t ∧
        (∀ i, i < 32 → (t.rd p R.PG_FSTAT_SRC).testBit i = ((e.rd p R.PG_FSTAT_SRC).testBit i && !val.testBit i)) ∧
        t.page p = { e.page p with pendRep := forgetIf (e.page p).pendRep fun i => (val % 2 ^ 32).testBit i } ∧
        (∀ q, q ≠ p → t.page q = e.page q) ∧ (∀ k, k ≠ R.PG_FSTAT_SRC.key p → look resetVal t.regs k = look resetVal e.regs k) ∧
        { t with regs := e.regs, pages := e.pages } = e)

/-- Rejected accesses (R57, Table 2-4). -/
def Obligations.RejectedWritesAreCountedAndChangeNothingElse : Prop :=
  ∀ (s : State) (h p off val be c : Nat), Wf s → off % 4 = 0 → off < 0x1000 → be < 16 →
    let counts (e : State) : State := ((e.wr pkg0 R.PKG_REJ_CNT (min (e.rd pkg0 R.PKG_REJ_CNT + 1) (2 ^ 32 - 1))).wr pkg0 R.PKG_REJ_LAST_OFFSET
      (p * 0x1000 + off)).wr pkg0 R.PKG_REJ_LAST_CAUSE c
    let e := s.judged h p
    let w := e.overlapWord h p off (val % 2 ^ 32)
    (s.serves h = true → s.reaches h p = true → s.overlapBars h p off = false →
      e.writeCause p off w be (e.writeEpoch h p off w) (decide (dieOf p = held h)) = some c →
      let f := counts e
      let g := if e.alive p then (if c = 3 then f.wb p R.PG_STATUS_FENCE_REJ true else f.wb p R.PG_STATUS_REJ true) else f
      exec (.bar0Write h p off val be) s = .next (if c = 3 && e.acts h then g.meetEpoch h (e.rd p R.PG_EPOCH_EPOCH) else g.saveBarred p off w c)) ∧
    (s.serves h = true → c = 7 →
      let e := s.toTick (s.clk.tick + 150)
      let f := { e with ring := { e.ring with resps := e.ring.resps.filter fun r => !(decide (r.hoop = h) && decide (r.page = p)) } }
      exec (.noAnswer h p off) s = .next { (counts f) with out := { s.out with cpls := s.out.cpls ++ [⟨h, [0xFF#8, 0xFF#8, 0xFF#8, 0xFF#8], false, false⟩] } })

/-- Pages never brought up (R55). -/
def Obligations.NeverUpPagesReadZeroAndRejectWrites : Prop :=
  (∀ (s : State) (h p off val be epoch : Nat) (own : Bool) (b : Blk), pageBlk p = some b → (s.page p).up = .never →
    (s.busRead h p off).1 = s ∧
    ((s.busRead h p 0).2 = s.liveWord p b 0) ∧ ((s.busRead h p 0xC).2 = s.liveWord p b 0xC) ∧ ((s.busRead h p 0xC).2 % 2 = 0) ∧
    (off ≠ 0 → off ≠ 0xC → (s.busRead h p off).2 = 0) ∧
    s.writeCause p off val be epoch own = some 1) ∧
  ∀ p, (State.reset.page p).up = .never

/-- Host reads and writes (R43-R47, R51, R56, R58, R65). -/
def Obligations.HostAccessThroughBar0 : Prop :=
  (
    ∀ (s : State) (h p off len : Nat), Wf s → off % 4 = 0 → off < 0x1000 → len ≤ 4 → s.serves h = true → s.reaches h p = true →
      let e := s.judged h p
      let word : Nat := match pageBlk p with
        | none => 0
        | some b => if e.shows p off then (fieldsIn b off).foldl (fun a f => a + f.partIn off (e.heldOr h p b off f)) 0 else e.readAt p off
      let holds : Option HoldReg := match pageBlk p with
        | none => none
        | some b => if e.shows p off then ((fieldsIn b off).find? fun f => f.multi && decide (f.off = off)).map fun f => ⟨f.off, f.lo, e.live p b f % 2 ^ f.w⟩
          else none
      ∃ t, exec (.multiwordLowRead h p off len false) s = .next t ∧
        t.out.cpls = e.out.cpls ++ [⟨h, (cplBytes word).take len, false, false⟩] ∧
        (∀ r, holds = some r → (t.page p).hold h = some r) ∧ (holds = none → t.pages = e.pages) ∧
        (h = 0 → (t.page p).hold1 = (e.page p).hold1) ∧ (h = 1 → (t.page p).hold0 = (e.page p).hold0) ∧
        (∀ q, q ≠ p → t.page q = e.page q) ∧ { t with pages := e.pages, out := e.out } = e) ∧
  (
    ∀ (s : State) (h p off val be len : Nat) (ue : Bool), off % 4 = 0 →
      (4 < len → len ≤ 8 → ∃ t, exec (.multiwordLowRead h p off 4 ue) s = .next t ∧
        exec (.multiwordLowRead h p off len ue) s = exec (.multiwordLowRead h p (off + 4) (len - 4) ue) t) ∧
      (16 ≤ be → be < 256 → be % 16 ≠ 0 → ∃ t, exec (.bar0Write h p off val (be % 16)) s = .next t ∧
        exec (.bar0Write h p off val be) s = exec (.bar0Write h p (off + 4) (val / 2 ^ 32) (be / 16)) t) ∧
      (16 ≤ be → be < 256 → be % 16 = 0 → exec (.bar0Write h p off val be) s = exec (.bar0Write h p (off + 4) (val / 2 ^ 32) (be / 16)) s)) ∧
  (
    ∀ (s : State) (h p off val be : Nat) (b : Blk), Wf s → off % 4 = 0 → off < 0x1000 → be < 16 →
      (s.takes h p b off val = true →
        exec (.bar0Write h p off val 15) s = .next ((touched b off 15).foldl
          (fun (t : State) f => t.fieldAct p b f off (val % 2 ^ 32) ((s.judged h p).asked p b f off (val % 2 ^ 32) 15) {}) (s.taken h p b off val))) ∧
      (let e := s.judged h p
       s.serves h = true → s.reaches h p = true → pageBlk p = some b → e.alive p = true → 0x40 ≤ off → off < 0x80 →
        ∃ t, exec (.bar0Write h p off val be) s = .next t ∧
          (∀ i, i < 512 → (t.rd p R.PG_TAG).testBit i =
            if i / 32 = off / 4 - 0x10 ∧ be.testBit (i % 32 / 8) = true then val.testBit (i % 32) else (e.rd p R.PG_TAG).testBit i) ∧
          (∀ k, k ≠ R.PG_TAG.key p → look resetVal t.regs k = look resetVal e.regs k) ∧ { t with regs := e.regs } = e) ∧
      (let e := s.judged h p
       let w := e.overlapWord h p off (val % 2 ^ 32)
       s.serves h = true → s.reaches h p = true → s.overlapBars h p off = false → pageBlk p = some b →
        touched b off 15 ≠ [] → (∀ f ∈ touched b off 15, e.stages b f = true) →
        e.writeCause p off w 15 (e.writeEpoch h p off w) (decide (dieOf p = held h)) = none →
        exec (.bar0Write h p off val 15) s = .next (if 64 ≤ (e.page p).stage.length then e.wb p R.PG_STATUS_STAGE_OVF true
          else e.setPage p { e.page p with stage := (e.page p).stage ++ [⟨off, BitVec.ofNat 32 w, e.writeEpoch h p off w⟩] })))

/-- Snapshots after their request (R60-R63). -/
def Obligations.SnapshotProtocol : Prop :=
  ∀ (s : State) (h d : Nat) (r : SnapRun), Wf s → s.snapRun h = some r →
    let completed (e t : State) : Prop :=
      let missing := allDies.filter fun x => !r.done.contains x
      t.bit pkg0 R.PKG_SNAP_CTRL_BUSY = false ∧ t.rd pkg0 R.PKG_SNAP_STAT_SEQ = r.seq % 2 ^ 16 ∧
      t.rd pkg0 R.PKG_SNAP_MISS = missing.foldl (fun a x => a + 2 ^ x) 0 ∧ t.bit pkg0 R.PKG_SNAP_STAT_MISSING = !missing.isEmpty ∧
      t.bit pkg0 R.PKG_SNAP_STAT_LATE = r.late ∧ t.rd pkg0 R.PKG_SNAP_TICK = (r.target - s.clk.base) % 2 ^ 64 ∧ t.snapRun h = none ∧
      (∀ k, k ≠ h → t.snapRun k = s.snapRun k) ∧ (∀ k, keyPage k ≠ pkg0 → look resetVal t.regs k = look resetVal e.regs k) ∧
      { t with regs := e.regs, snaps := e.snaps } = e
    (r.sent.contains d = true → s.answers d = true → (d = held h ∨ s.joined h d = true) →
      let left := { r with sent := r.sent.filter (· ≠ d) }
      (s.clk.tick < r.target → exec (.snapFrame d h) s = .next { s with snaps := put (fun _ => none) s.snaps h (some { left with holds := r.holds ++ [d] }) }) ∧
      (r.target ≤ s.clk.tick → exec (.snapFrame d h) s =
        .next { (s.latchDie d r.seq true) with snaps := put (fun _ => none) s.snaps h (some { left with done := r.done ++ [d], late := true }) } ∧
        ∀ p, p ∈ s.stagePages d →
          ((s.latchDie d r.seq true).page p).shadow = s.shadowOf p ∧ (s.latchDie d r.seq true).rd p R.PG_SNAP_SEQ = r.seq % 2 ^ 16 ∧
          (s.latchDie d r.seq true).bit p R.PG_SNAP_LATE = true ∧ (s.latchDie d r.seq true).bit p R.PG_SNAP_VALID = true)) ∧
    (let e := s.toTick r.target
     exec (.snapshotLatch h) s = .next { (r.holds.foldl (fun (t : State) x => t.latchDie x r.seq false) e) with
       snaps := put (fun _ => none) s.snaps h (some { r with holds := [], done := r.done ++ r.holds }) }) ∧
    (s.acts h = true → (∀ x, x < 20 → r.done.contains x = true) → ∃ t, exec (.snapshotComplete h) s = .next t ∧ completed s t) ∧
    (∀ x, s.acts h = true → x < 20 → r.done.contains x = false →
      let e := s.toTick (r.target + 100000)
      ∃ t, exec (.snapshotTimeout h) s = .next t ∧ completed e t)

/-- Staged commits after PKG_STAGE_CTRL (R65-R69). -/
def Obligations.StagedCommitProtocol : Prop :=
  ∀ (s : State) (d a : Nat), Wf s → s.acting = some a →
    let reached : Prop := d = held a ∨ s.joined a d = true
    let judged (e : State) (ans : Nat → Nat) (t : State) : Prop :=
      (∀ x, x < 20 → ans x ≠ 0 → (∀ y, y < x → ans y = 0) → t = e.stageFail x (ans x)) ∧
      ((∀ x, x < 20 → ans x = 0) →
        t = { (e.wr pkg0 R.PKG_STAGE_STAT_STATE 3) with com := { e.com with mark := allDies, markAt := e.clk.tick } })
    let ansOf (l : List (Nat × Nat)) (x : Nat) : Nat := ((l.find? fun y => decide (y.1 = x)).map Prod.snd).getD 3
    (s.com.prep.contains d = true → ¬ reached →
      exec (.prepare d) s = .next { s with com := { s.com with prep := s.com.prep.filter (· ≠ d) } }) ∧
    (let e := if s.com.ahead.contains d then s else s.discardIn d
     s.com.prep.contains d = true → reached → e.answers d = true →
      let ps := e.stagePages d
      let ans := if ps.any fun p => e.bit p R.PG_STATUS_STAGE_OVF then 1
        else if ps.any fun p => (e.page p).stage.any fun x => decide (x.epoch < max (e.hpEpoch a) (e.rd p R.PG_EPOCH_EPOCH)) then 2 else 0
      let icy := (e.com.frozen.filter fun x => decide (x.1 ≠ d)) ++ [(d, e.clk.tick)]
      let left := e.com.prep.filter (· ≠ d)
      exec (.prepare d) s = .next { e with com := { e.com with prep := left, answers := e.com.answers ++ [(d, ans)], frozen := icy } }) ∧
    (∀ x, s.com.answers.find? (fun y => decide (y.1 = d)) = some x →
      let e : State := { s with com := { s.com with answers := s.com.answers.erase x, taken := s.com.taken ++ [x] } }
      ((s.stageSt ≠ 2 ∨ ∃ y, y < 20 ∧ (e.com.taken.any fun z => decide (z.1 = y)) = false) → exec (.stageAns d) s = .next e) ∧
      (s.stageSt = 2 → (∀ y, y < 20 → (e.com.taken.any fun z => decide (z.1 = y)) = true) →
        ∃ t, exec (.stageAns d) s = .next t ∧ judged e (ansOf e.com.taken) t)) ∧
    (∀ y, s.stageSt = 2 → y < 20 → (s.com.taken.any fun z => decide (z.1 = y)) = false →
      ∃ t, exec .commitAckTimeout s = .next t ∧ judged (s.toTick (s.com.at' + 10000)) (ansOf s.com.taken) t) ∧
    (s.com.mark.contains d = true → look natZero s.cad.epochs d ≤ s.hpEpoch a → (s.com.frozen.any fun x => decide (x.1 = d)) = true →
      exec (.commitMark d) s = .next { s with com := { s.com with mark := s.com.mark.filter (· ≠ d), armed := s.com.armed ++ [d] } }) ∧
    (s.stageSt = 3 → s.com.mark = [] → s.com.armed ≠ [] →
      let e := [0, 1].foldl State.latchDue s.toFrame
      let words := s.com.armed.flatMap fun x => (e.stagePages x).flatMap fun p => (e.page p).stage.map fun w => (p, w.off)
      let f := s.com.armed.foldl (fun (t : State) x => (t.stagePages x).foldl State.applyPage t) e
      let g := s.com.armed.foldl State.dropStage f
      let k := (g.zero pkg0 [R.PKG_STAGE_STAT_STATE, R.PKG_STAGE_CTRL_OPEN, R.PKG_STAGE_CTRL_COMMIT]).wb pkg0 R.PKG_STAGE_STAT_DONE true
      exec .commitApply s = .next (({ k with com := { k.com with boundary := k.clk.frame, applied := words } } : State).addWrap pkg0
        R.PKG_STAGE_STAT_COMMIT_SEQ 1)) ∧
    (s.com.discard.contains d = true → reached → s.answers d = true → ∃ t, exec (.stageDiscard d) s = .next t ∧
      (∀ p, p ∈ s.stagePages d → (t.page p).stage = [] ∧ t.bit p R.PG_STATUS_STAGE_OVF = false) ∧
      (∀ p, p ∉ s.stagePages d → t.page p = s.page p) ∧ t.com.discard.contains d = false ∧ (t.com.frozen.any fun x => decide (x.1 = d)) = false ∧
      t.com.armed.contains d = false ∧ { t with regs := s.regs, pages := s.pages, com := s.com } = s) ∧
    (∀ x, s.com.frozen.find? (fun y => decide (y.1 = d)) = some x → s.com.armed.contains d = false →
      exec (.frozenBufferTimeout d) s = .next ((s.toTick (x.2 + 100000)).dropStage d))

/-- What a tile does without a slot of its own, and LOAD_DELIVERY. -/
def Obligations.TileManagementAndLoads : Prop :=
  (
    ∀ (s : State) (a : TileAt) (hdr bad c : Nat) (last : Bool), Wf s → s.tileUp a = true →
      let x := s.tile a.die a.tile
      let due (l : List Nat) : Prop := c ∈ l ∧ ∀ k ∈ l, c ≤ k
      let inTime : Prop := x.fresh = false ∨ c ≤ x.next
      let closes (f : Tile → Tile) : Tile → Tile := fun t => (f t.openBundle).closeBundle
      (x.st = .run → (x.halt = none ∨ x.cur ≠ 0) → x.blockValid x.pc = true →
        (hdr / 32 % 8 ≠ 0 → x.cur = 0 → TileDone s a x.next (closes Tile.illegal) (exec (.emptyBundle a hdr bad last) s)) ∧
        (hdr / 32 % 8 ≠ 0 → x.cur ≠ 0 → exec (.emptyBundle a hdr bad last) s = .next s) ∧
        (hdr / 32 % 8 = 0 → TileDone s a x.next (fun t =>
          let u := t.openBundle.badSlots bad
          if last = true ∨ u.cur = 0 then u.closeBundle else u) (exec (.emptyBundle a hdr bad last) s))) ∧
      (x.fresh = true → x.blockValid x.pc = true →
        TileDone s a x.next (closes fun t => { t.event (.ecc 2 true t.pc) with taint := true }) (exec (.invalidBlockIssue a .ue) s) ∧
        TileDone s a x.next (fun t => t.event (.ecc 2 false t.pc)) (exec (.invalidBlockIssue a .ce) s)) ∧
      (x.fresh = true → x.blockValid x.pc = false →
        TileDone s a x.next (closes fun t => { t with evs := t.evs ++ [.conflict 9 (t.next - t.runBase)], taint := true })
          (exec (.invalidBlockIssue a .invalid) s)) ∧
      (due (x.pend.map Pend.due) → inTime → TileDone s a c (fun t => t.settle c) (exec (.resultLand a) s)) ∧
      (∀ p, x.pend = [p] → p.due = c → x.clk < c → c ≤ x.clk + 32 → x.accs = [] → x.mmas = [] → x.flitIn = [] → x.accHold = [] → inTime →
        TileDone s a c (fun t => { ({ t with pend := [] } : Tile).land p.res with clk := c }) (exec (.resultLand a) s)) ∧
      (due ((x.accs.filter isChunk).map AccessAt.cyc) → inTime → TileDone s a c (fun t => t.settle c) (exec (.residentChunkRead a) s)) ∧
      (due (x.mmas.map MmaOp.due) → inTime → TileDone s a c (fun t => t.settle c) (exec (.mmaRowUpdate a) s)) ∧
      (∀ q, x.st = .run → x.cur = 0 → x.halt = some q → q.isEnd = false →
        TileDone s a x.quietAt (fun t => { t.settle x.quietAt with st := .held, next := x.quietAt, heldId := q.id, clk := x.quietAt }) (exec (.tileEnterHeld a) s)) ∧
      (∀ q, x.st = .run → x.cur = 0 → x.halt = some q → q.isEnd = true →
        let y := x.settle (x.quietAt + 2)
        ∃ t, exec (.tileEnterIdle a) s = .next t ∧
          t.tile a.die a.tile = { y with halt := none, loops := [], cur := 0, skip := none, pend := [], accs := [], mmas := [], flitIn := [], accHold := [],
                                         heldId := q.id, evs := [] }.rest (t.tileEn a.die a.tile)
            (t.tileClose a.die a.tile) ∧
          (∀ k, k ≠ a.die * 64 + a.tile → look tileZero t.tiles k = look tileZero s.tiles k) ∧ t.clk = (s.toCc x.quietAt).clk ∧
          (∀ k, keyPage k ∉ tilePages a → look resetVal t.regs k = look resetVal s.regs k) ∧
          { t with clk := s.clk, regs := s.regs, pages := s.pages, flt := s.flt, tiles := s.tiles, mesh := s.mesh } = s) ∧
      (x.zeroing = true →
        exec (.tileZeroComplete a) s =
          .next ((s.setTile a.die a.tile (x.zeroed.rest (s.tileEn a.die a.tile) (s.tileClose a.die a.tile))).clrBit (rowPg a.die (a.tile / 8)) R.OS_TG_ZERO_REQ (a.tile % 8)))) ∧
  (
    ∀ (s : State) (d col : Nat), Wf s → d < 8 →
      let mine (r : LoadRun) : Bool := decide (r.die = d) && decide (r.col = col)
      (s.loads.find? mine = none → exec (.loadDelivery d col) s = .next s) ∧
      (∀ r, s.loads.find? mine = some r →
        let a : TileAt := ⟨d, r.hdr % 8 * 8 + col % 8⟩
        let e : State := { s.toCc (r.cyc + r.hdr % 8 + r.lines.length / 4) with loads := s.loads.erase r }
        let x := e.tile d a.tile
        let n := 4 * (r.hdr / 16 % 4 + 1)
        let addr := r.hdr / 2 ^ 8 % 2 ^ 22 / 128 * 128
        let ls := ((List.range n).zip (r.lines.take n)).filter fun l => !r.gone.contains (l.1 / 4 + 1)
        let takes : Prop := r.gone.contains 0 = false ∧ r.hdr.testBit 63 = true ∧ (e.prog d = 0 ∨ e.prog d = 1) ∧ x.st = .idle ∧
          e.alive (rowPg d (r.hdr % 8)) = true
        (¬ takes → exec (.loadDelivery d col) s = .next e) ∧
        (takes → x.zeroing = true → exec (.loadDelivery d col) s = .next (e.inc (rowPg d (r.hdr % 8)) R.OS_TG_CONFLICT_CNT)) ∧
        (takes → x.zeroing = false → TileDone e a 0 (fun t =>
          if r.hdr.testBit 3 then ls.foldl (fun t l => t.writeBundle (addr / 128 % 2048 * 4 + l.1) l.2.data) t
          else ls.foldl (fun t l => t.putLine (lineWhole ((addr / 32 + l.1) % 2 ^ 17) l.2)) t) (exec (.loadDelivery d col) s))))

/-- The cadence tree (R195-R198, R444). -/
def Obligations.CadenceTreeCommands : Prop :=
  ∀ (s : State) (d h delay count : Nat) (silent : List Nat), Wf s →
    let shows (n : Nat) (e t : State) : Prop :=
      (∀ k, k < 8 → e.alive (osTop k) = true → t.rd (osTop k) R.OS_CAD_N = n) ∧ (∀ k, k < 2 → e.alive (hpTop k) = true → t.rd (hpTop k) R.HP_CAD_N = n) ∧
      (∀ k, k < 2 → t.rd (thPg (0x12 + k)) R.TH_PKG_N_N = n)
    (∀ m, s.cad.msgs.find? (fun m => decide (m.1 = d)) = some m →
      let e : State := { s with cad := { s.cad with msgs := s.cad.msgs.erase m } }
      exec (.cadenceMessage d true) s = .next (if look natZero s.cad.epochs d ≤ m.2
        then { e with cad := { e.cad with epochs := put natZero s.cad.epochs d m.2, taken := true } } else e) ∧
      exec (.cadenceMessage d false) s = .next (if isOsier d && s.alive (osTop d) then e.raise (osTop d) 10 else e)) ∧
    (∀ x, s.cad.nextN = some x →
      (s.cad.taken = false → exec .cadenceApply s = .next { s with cad := { s.cad with nextN := none, msgs := [], taken := false } }) ∧
      (s.cad.taken = true → x.1 ≤ 64 →
        let e := if s.clk.frame < x.2 then s.passSlots ((x.2 - s.clk.frame) * 64 - s.clk.j) else if s.clk.j = 0 then s else s.toFrame
        ∃ t, exec .cadenceApply s = .next t ∧ t.clk = { e.clk with n := x.1 } ∧ shows x.1 s t ∧
          t.cad = { s.cad with nextN := none, msgs := [], taken := false } ∧ { t with clk := s.clk, regs := s.regs, cad := s.cad } = s)) ∧
    (h < 2 → s.drives h = true → s.anyRunning = false →
      let c := { s.cad with alignAt := some (s.clk.tick + delay), attempts := s.cad.attempts + 1, alignOk := [], checked := [], alignFailed := false,
                            nextN := none, msgs := [], taken := false }
      exec (.alignIssue h delay) s = .next { s with cad := c }) ∧
    (∀ k, s.cad.alignAt = some k →
      let e := s.toTick (k + 16)
      let ok := allDies.filter fun x => !silent.contains x
      ∃ t, exec (.alignEffect silent) s = .next t ∧ t.clk = { e.clk with sub := 0, frame := 0, j := 0, n := 64, cc := 0 } ∧ shows 64 s t ∧
        (∀ k, k < 8 → s.alive (osTop k) = true → t.bit (osTop k) R.OS_CAD_ALIGN_OK = ok.contains k) ∧
        t.cad = { s.cad with alignAt := none, since := e.clk.tick, aligning := true } ∧
        t.notes = (s.notes.filter fun n => match n.2 with | .align _ _ => false | _ => true) ++
          ok.map (fun x => (0x12 + s.acting.getD 0, Note.align x true)) ∧
        { t with clk := s.clk, regs := s.regs, cad := s.cad, notes := s.notes } = s) ∧
    (d < 20 →
      let f := max 1 ((s.clk.frame + 4095) / 4096) * 4096
      let e := if s.clk.frame < f then s.passSlots ((f - s.clk.frame) * 64 - s.clk.j) else s
      (count = e.clk.frame % 65536 → ∃ t, exec (.frameCheck d count) s = .next t ∧ t.cad.checked.contains d = true ∧
        { t with cad := s.cad } = { e with cad := s.cad }) ∧
      (count ≠ e.clk.frame % 65536 →
        let g := if isOsier d && s.alive (osTop d) then (e.wb (osTop d) R.OS_CAD_ALIGN_OK false).raise (osTop d) 9 else e
        exec (.frameCheck d count) s = .next { g with notes := g.notes ++ [(0x12 + s.acting.getD 0, Note.align d false)] })) ∧
    (∀ n, s.notes.find? (fun n => decide (n.1 = d)) = some n → ∀ x, n.2 = .align x false → isHoop d = true → s.hoopUp (d - 0x12) = true →
      let e : State := { s with notes := s.notes.erase n }
      exec (.noticeFrame d) s = .next (if s.cad.aligning then e.alignFail else e)) ∧
    (∀ x, s.cad.aligning = true → x < 20 → s.cad.alignOk.contains x = false →
      ∃ t, exec .alignAttemptTimeout s = .next t ∧ t.cad.aligning = false ∧
        (¬ (s.rd pkg0 R.PKG_STAGE_STAGE = 2 ∧ 3 ≤ s.cad.attempts) →
          t = { (s.toTick (s.cad.since + 100000)) with cad := { s.cad with alignFailed := true, aligning := false } }))

/-- Sync points and their release (R203-R219). -/
def Obligations.SyncPointsAndRelease : Prop :=
  (
    ∀ (s : State) (d m : Nat), Wf s → d < 8 → s.alive (osTop d) = true →
      let o := s.od d
      let ts := s.enTiles d
      let quiet (st : TileSt) : Prop := s.engMarks d = some m ∧ s.prog d = 2 ∧ o.ready = none ∧ o.stopping = false ∧ ∀ k ∈ ts, (s.tile d k).st = st
      let c := ts.foldl (fun a k => max a (s.tile d k).clk) (max m o.phaseCc)
      let ids := ts.map fun k => (s.tile d k).heldId
      let ready (t : State) (id : Nat) (isEnd mis : Bool) : Prop :=
        (t.od d).ready = some c ∧ (t.od d).waitId = id ∧ (t.od d).waitEnd = isEnd ∧ (t.od d).mismatch = mis ∧ (t.od d).arrive = none ∧
        (∀ x ∈ t.mesh, x.die ≠ d) ∧ (∀ x ∈ t.edges, x.die ≠ d)
      (quiet .held → ∃ t, exec (.dieReady d) s = .next t ∧ ready t (ids.headD 0) false (ids.any fun i => !(i == ids.headD 0))) ∧
      (quiet .idle → ∃ t, exec (.programEnd d) s = .next t ∧ ready t 0 true false) ∧
      (∀ r a b br, o.ready = some r → o.metA = some a → o.metB = some b → o.arrive = none → o.stopping = false → o.brkHit = false →
        o.noArrive = false → o.doubt = false → o.mismatch = false → s.portDown d = false →
        (br = 0 ∧ (o.waitEnd = true ∨ syncBorder (s.syncEntry d) = false) ∨ o.waitEnd = false ∧ syncBorder (s.syncEntry d) = true ∧ (s.bord d).released = some br) →
        let k := max (max r (max a b)) (max br o.freeAt)
        let cond := if k = r then 0 else if br = k ∧ syncBorder (s.syncEntry d) = true ∧ o.waitEnd = false then 3
          else if b = k ∧ (syncB (s.syncEntry d)).2 ≠ 0 then 2 else if a = k ∧ (syncA (s.syncEntry d)).2 ≠ 0 then 1 else 0
        exec (.dieArrival d) s = .next ((s.toCc k).setOd d { o with arrive := some k, condLast := cond })) ∧
      (∀ r, o.ready = some r →
        let ns := osDies.filterMap (s.heard d)
        let mis := ns.any fun n => decide (n.id ≠ o.waitId) || (n.isEnd != o.waitEnd) || (s.od n.die).mismatch
        ∃ t, exec (.syncNotice d) s = .next t ∧ (t.od d).notices = ns ∧ (t.od d).mismatch = (o.mismatch || mis) ∧ (t.od d).ready = some r ∧
          t.clk = s.clk ∧ t.tiles = s.tiles ∧ t.mesh = s.mesh) ∧
      (∀ r, o.ready = some r → o.tmoSaid = false → s.rd (osTop d) R.OS_SYNC_TMO_MS ≠ 0 →
        exec (.syncTimeout d) s = .next (((s.toTick (o.readyTick + s.rd (osTop d) R.OS_SYNC_TMO_MS * 100000)).setOd d { o with tmoSaid := true }).raise
          (osTop d) 5)) ∧
      (o.stopping = true → (∀ e, e < 16 → (s.eng d e).abort = false) → (s.ce d).abort = false →
        ∃ t, exec (.stopComplete d) s = .next t ∧ t.prog d = (if s.prog d = 0 then 0 else 1) ∧ t.bit (osTop d) R.OS_PROG_CTRL_STOP = false ∧
          t.bit (osTop d) R.OS_PROG_CTRL_ARM = false ∧ (t.od d) = { o with stopping := false, noArrive := false, doubt := false, brkHit := false } ∧
          { t with regs := s.regs, osd := s.osd, borders := s.borders } = s)) ∧
  (
    ∀ (s : State), Wf s → (∀ d, d < 8 → s.alive (osTop d) = true) →
      let arrived (d : Nat) : Prop := (s.od d).arrive ≠ none ∧ (s.od d).mismatch = false ∧ (s.od d).waitId = (s.od 0).waitId ∧
        (s.od d).waitEnd = (s.od 0).waitEnd
      ((∃ d, d < 8 ∧ ¬ arrived d) → exec .syncRelease s = .next s) ∧
      ((∀ d, d < 8 → arrived d) →
        let latest (l : List Nat) : Nat := l.foldl max 0
        let l := latest (osDies.map fun d => (s.od d).arrive.getD 0)
        let l0 := latest (osDies.map fun d => (s.od d).ready.getD 0)
        ∃ rel, rel % 8 = 0 ∧ l + 60 ≤ rel ∧ rel < l + 68 ∧
          let e := osDies.foldl State.learn (s.toCc rel)
          let last := (osDies.find? fun d => decide ((e.od d).arrive = some l)).getD 0
          let e1 := if e.prog 0 = 1 then e.wr pkg2 R.PKG_BORDER_SEQ 0 else e
          let e2 := if (e.od 0).waitEnd = false ∧ syncBorder (e.syncEntry 0) = true then e1.addWrap pkg2 R.PKG_BORDER_SEQ 1 else e1
          let f := osDies.foldl (fun (t : State) d => t.releaseDie d rel (rel - (l0 + 67) / 8 * 8) last (e.od last).condLast) e2
          exec .syncRelease s = .next (f.wr pkg2 R.PKG_STEP (f.au 0).step)))

/-- MESH_FLIT_FORWARD, WALE_PROGRAM_SLOT, SIDE_FLIT_SERVICE and IMAGE_LOAD (R200-R207, R221-R226). -/
def Obligations.MeshAndPortSlots : Prop :=
  ∀ (s : State) (d node port p h : Nat) (par : List (Nat × Nat)) (ecc : Option Bool) (im : Image) (hits : List EccHit), Wf s →
    (∀ c, d < 8 → node < 64 →
      (∀ x ∈ s.mesh, x.die = d → x.node = node → c ≤ x.cyc) →
      ((∃ x ∈ s.mesh, x.die = d ∧ x.node = node ∧ x.cyc = c) ∨ (∀ x ∈ s.mesh, x.die = d → x.node ≠ node) ∧ c = s.clk.cc) →
      let e := s.toCc c
      let f : State := match ecc with
        | some true => e.raise (osTop d) 8
        | some false => (e.inc (osTop d) R.OS_ROUTE_CE_CNT).raise (osTop d) 7
        | none => e
      let here (x : MeshFlit) : Bool := decide (x.die = d) && decide (x.node = node) && decide (x.cyc = c)
      let rest : State := { e with mesh := s.mesh.filter fun x => !here x }
      ((s.od d).phaseOn = true → (s.od d).ready = none →
        exec (.meshFlitForward d node par ecc) s = .next (f.router d node c (if ecc = some true then 0 else f.routeEntry d node c) par) ∧
        (∀ x o, s.mesh.filter here = [x] → par = [] → ecc = none → x.port < 5 →
          let en := e.routeEntry d node c
          (∀ b, x.ce = some b → b = decide (bits en (25 + x.port) 1 = 1)) →
          (∀ k, k < 5 → ((List.range 5).filter fun i => (routeOuts en i).contains k).length ≤ 1) → routeOuts en x.port = [o] →
          (∀ n i, o ≠ 4 → meshNext node o = some (n, i) →
            exec (.meshFlitForward d node par ecc) s = .next { rest with mesh := rest.mesh ++ [⟨d, n, i, c + 1, x.flit, none⟩] }) ∧
          (o ≠ 4 → meshNext node o = none → exec (.meshFlitForward d node par ecc) s = .next
            { rest with edges := s.edges ++ [⟨d, edgeOf node o, decide (bits en (25 + o) 1 = 1), c + 1, x.flit⟩] }) ∧
          (o = 4 → (s.tile d node).st = .run → exec (.meshFlitForward d node par ecc) s = .next
            (rest.setTile d node { s.tile d node with flitIn := (s.tile d node).flitIn ++ [(c + 1, x.flit)] })))) ∧
      ((s.od d).phaseOn = true → (s.od d).ready ≠ none →
        exec (.meshFlitForward d node par ecc) s = .next ((s.mesh.filter here).foldl (fun t x => t.meshEvent d 1 node x.port) rest)) ∧
      ((s.od d).phaseOn = false → exec (.meshFlitForward d node par ecc) s = .next rest)) ∧
    (d < 8 → port < 4 → (s.od d).phaseOn = true → progSlot s.clk.cc = true → (port ≠ 3 ∨ (s.slotPlan d 3 s.clk.cc).1 ≠ 16) →
      let c := s.clk.cc
      let q := wlPg d port
      (s.wle q).sent ≠ some c →
      let f := ((s.toCc c).settleDie d c).enterFlits d c
      let src := (f.slotPlan d port c).1
      let mine := f.reqs.filter fun x => decide (x.die = d) && decide (x.port = port) && decide (x.cyc ≤ c)
      let ls := ((f.offers.find? fun o => decide (o.die = d) && decide (o.port = port) && decide (o.src = src) && decide (o.cyc = c)).map Offer.lines).getD []
      ∃ t, exec (.waleProgramSlot d port) s = .next t ∧ t.clk = f.clk ∧ t.hbm = f.hbm ∧ t.tiles = f.tiles ∧ t.units = f.units ∧
        t.reqs = f.reqs.filter (fun x => !mine.contains x) ∧
        t.offers = f.offers.filter (fun o => !(decide (o.die = d) && decide (o.port = port) && decide (o.cyc ≤ c))) ∧
        (∀ k, f.portAlive q = true → walePeer q = some k → ∃ w : WireFlit, (t.wle k).wire = (f.wle k).wire ++ [w] ∧ (t.wle q).sent = some c ∧
          w.kind = (if ls.isEmpty then .empty else .prog) ∧ w.cyc = true ∧ w.cc = c ∧ w.lines = ls ∧
          (mine = [] → w.req = none) ∧ (∀ x, mine = [x] → x.cyc = c → (bits x.word 1 1 = 0 ∨ src = x.eng) → w.req = some (x.word, x.idx))) ∧
        (f.portAlive q = false → t.wl = f.wl)) ∧
    (s.portAlive p = true → s.alive p = true →
      ∀ cyc, s.sideSlot p = some cyc →
      let e := s.relayFill p hits
      let now := s.clk.tick * 16 + s.clk.sub
      let w : WlEnd := if cyc then e.wle p
        else { e.wle p with spare := (now, (if (e.wle p).spare.1 = now then (e.wle p).spare.2 else 0) + 1) }
      let room := if isWeft (dieOf p) then e.roomBits (dieOf p - 8) else 0
      let lo := w.side.foldl (fun a g => max a g.cls) 0
      let hi := w.side.foldl (fun a g => min a g.cls) 9
      (w.side = [] → exec (.sideFlitService p hits) s = .next ((e.setWle p w).sendFlit p { kind := .idle, cyc := cyc, cc := s.clk.cc, room := room })) ∧
      (∀ f, w.side.find? (fun g => decide (g.cls = if 15 ≤ w.sinceLow then lo else hi)) = some f →
        exec (.sideFlitService p hits) s = .next ((e.setWle p { w with side := w.side.erase f, sinceLow := if f.cls = lo then 0 else w.sinceLow + 1 }).sendFlit p
          { kind := .side, cyc := cyc, cc := s.clk.cc, lines := f.lines, sclass := f.cls, sdie := f.die, what := f.what, room := room }))) ∧
    (∀ a, s.serves h = true → s.acting = some a →
      let st := s.loadStatus h im
      let e : State := { s with out := { s.out with loads := s.out.loads ++ [st] } }
      (st ≠ .ok → exec (.imageLoad h im) s = .next e) ∧
      (st = .ok →
        let ok (k : Nat) : Bool := !isOsier k || e.loadable k
        let f := im.writes.foldl (fun (t : State) w => if ok (dieOf w.1) then t.hostWrite h w.1 w.2.1 w.2.2 15 {} else t) e
        let f := im.data.foldl (fun (t : State) x => if ok (x.1 % 2 ^ 42 / 2 ^ 39) then t.preload x.1 x.2 else t) f
        let f := im.code.foldl (fun (t : State) x => if x.1 < 8 ∧ ok x.1 then t.loadDeliver x.1 x.2.1 x.2.2.1 x.2.2.2 [] else t) f
        exec (.imageLoad h im) s = .next ((osDies.filter e.loadable).foldl (fun (t : State) k => ((t.hostWrite h (osTop k) 0x10C (im.id % 2 ^ 32) 15 {}).hostWrite h (osTop k)
          0x110 (im.id / 2 ^ 32) 15 {}).hostWrite h (osTop k) 0x104 4 15 {}) f)))

/-- The starts of ST_NOP to LOADT and ST_ENDSEG (Table 7-3). -/
def Obligations.StreamDescriptorsStart : Prop :=
  ∀ (s : State) (d e : Nat), Wf s → s.engOk d e = true → (s.eng d e).going = true →
    let x := s.eng d e
    let i := x.pc % 8192
    let w := look (fun _ => 0#128) x.sched i
    let c := x.prev + dbits w 0 12
    let op := dbits w 12 4
    let two := decide (op = 7) || decide (op = 8) || decide (op = 9) || decide (op = 10)
    let run := x.running.filter (x.runs c)
    let y : Eng := { x with pc := (i + if two then 2 else 1) % 8192, prev := c, running := run }
    let r : Desc := ⟨i, w, if two then look (fun _ => 0#128) x.sched ((i + 1) % 8192) else 0#128, c, 0⟩
    let f : State := (s.toCc c).setEng d e y
    let g : State := if r.digen && !r.digOk then f.engErr d e i 9 else f
    let runs : List (Nat × Instr) := [(1, .stRd d e), (2, .stWr d e), (3, .rdw d e), (4, .wrw d e), (5, .mw d e), (6, .wm d e), (7, .sload d e false),
      (10, .loadt d e false)]
    let cmds := runs ++ [(8, .bread d e false none), (9, .bwrite d e false none none []), (15, .stEndseg d e)]
    (∀ q ∈ cmds, op ≠ q.1 → exec q.2 s = .next s) ∧
    (∀ q ∈ runs, op = q.1 → run.length < 8 → exec q.2 s = .next (g.setEng d e { y with running := run ++ [r] })) ∧
    (∀ q ∈ (0, .stNop d e false) :: cmds, op = q.1 → 8 ≤ run.length → exec q.2 s = .next (f.engErr d e i 9)) ∧
    (∀ q ∈ [(7, Instr.sload d e true), (8, .bread d e true none), (9, .bwrite d e true none none []), (10, .loadt d e true)], op = q.1 →
      exec q.2 s = .next (f.engErr d e i 9)) ∧
    (op = 15 → run.length < 8 → exec (.stEndseg d e) s = .next (g.setEng d e { y with ended := some c })) ∧
    (op = 0 → run.length < 8 → exec (.stNop d e false) s = .next g) ∧
    (11 ≤ op → op ≤ 14 → exec (.stNop d e false) s = .next (f.engErr d e i 9)) ∧
    exec (.stNop d e true) s = .next (((s.toCc x.prev).setEng d e { x with pc := (i + 1) % 8192 }).engErr d e i 9) ∧
    (∀ wr : Bool, op = (if wr then 9 else 8) → run.length < 8 →
      let cmd : Instr := if wr then .bwrite d e false none none [] else .bread d e false none
      let en := g.stakeE d (r.addr / 2 ^ 26)
      let a2 := dbits r.word2 0 42 / 128 * 128
      let b : Borrow := ⟨i, wr, skPeer en, skLgran en, r.addr, a2, r.count,
        (s.toCc c).clk.tick + max 1 (min 10000 (s.rd (stPg d e) R.ST_BORROW_TMO_MS)) * 100000, r.evt⟩
      let h : State := g.setEng d e { y with borrow := x.borrow ++ [b] }
      let ask (t : State) (ls : List FLine) : State := t.sideQueue (wlPg d 3)
        ⟨1, 8 + d, .memReq (skPeer en) (skLgran en * 2 ^ 26 + r.addr % 2 ^ 26) r.count wr, ls⟩
      (skKind en = 3 → (wr = true → skWp en = false) → x.borrow.length < 16 → g.samePod (skPeer en) = true →
        (wr = false → exec cmd s = .next (ask h [])) ∧
        (wr = true → ∀ mc v, h.resolve d a2 false false false = .here mc v →
          let z := (h.sideBytes mc (128 * r.count)).mcRead mc (h.rangeUnits d a2 r.count) ((h.rangeUnits d a2 r.count).flatMap fun u => h.hunit mc u) []
          exec cmd s = .next (ask z.1 z.2)) ∧
        (wr = true → (∀ mc v, h.resolve d a2 false false false ≠ .here mc v) →
          exec cmd s = .next (ask (h.placeErr d e i (h.resolve d a2 false false false)) (List.replicate (4 * r.count) poisonLine)))) ∧
      (skKind en = 3 → (wr = true → skWp en = false) → (16 ≤ x.borrow.length ∨ g.samePod (skPeer en) = false) →
        exec cmd s = .next (g.borrowEnd d e b none (some 7) none)) ∧
      (skKind en = 3 → wr = true → skWp en = true → exec cmd s = .next ((g.engErr d e i 6).borrowEnd d e b none none none)) ∧
      (skKind en ≠ 3 → exec cmd s = .next ((g.engErr d e i 0).borrowEnd d e b none none none)))

/-- TRANSACTION_ISSUE (Table 7-6). -/
def Obligations.TransactionsIssue : Prop :=
  ∀ (s : State) (d e : Nat) (r : Desc), Wf s → s.engOk d e = true → (s.eng d e).abort = false → nextIssue (s.eng d e).running = some r →
    let c := r.start + r.j * r.period
    let a := r.addrAt r.j
    let p := stPg d e
    let f := (((s.toCc c).settleDie d c).takeDue d c).enterDue d (ctlKey c e (if r.op = 1 ∨ r.op = 2 ∨ r.op = 10 then r.lane else 2))
    let x := f.eng d e
    let live := x.out.filter fun q => decide (c ≤ q.ends)
    let busy : Nat := live.foldl (fun k q => k + q.n) 0
    let n := f.txnWeight d r
    let go := decide (busy + n ≤ 256)
    let ev := if r.j + 1 = r.count then r.evt else none
    let run := x.running.map fun q => if q = r then { r with j := r.j + 1 } else q
    ∃ t, exec (.transactionIssue d e none) s = .next t ∧ t.clk = (s.toCc c).clk ∧ t.tiles = s.tiles ∧ t.hbm = f.hbm ∧
      t.eng d e = { x with running := run, out := live ++ [⟨r.idx, if go then n else 0, c + (f.span d r a).1, c + (f.span d r a).2⟩] } ∧
      (∀ k, k ≠ d * 16 + e → look engZero t.engs k = look engZero f.engs k) ∧
      (go = true → t.rd p R.ST_TX_CNT = min (f.rd p R.ST_TX_CNT + n) (2 ^ R.ST_TX_CNT.w - 1)) ∧
      (go = false → t.rd p R.ST_TX_CNT = f.rd p R.ST_TX_CNT) ∧
      (∀ mc v, go = true → f.resolve d a (decide (r.op = 2) || decide (r.op = 4)) (decide (2 < r.op)) false = .here mc v →
        let en := f.stakeE d (a / 2 ^ 26)
        let fl := f.flitLines (wlPg d r.port) / 4
        let flit := (List.range fl).flatMap fun k => f.hunit mc (skUnit en (flitAddr a k))
        let free (b k : Nat) : Prop := ∀ m, m < k → f.laneUsers d e r.lane (b + m) = []
        (r.op = 1 → free (c + 480) r.units →
          t.reads = f.reads ++ (List.range r.units).map fun k =>
            { die := d, eng := e, cyc := c + 480 + k, idx := r.idx, lane := r.lane, sink := .edge (edgePort e r.lane),
              lines := f.hunit mc (skUnit en (unitAddr a k)), mc := some mc, us := [skUnit en (unitAddr a k)], nb := none,
              dig := r.dig (unitAddr a k), evt := if k + 1 = r.units then ev else none }) ∧
        (r.op = 2 → free c r.units →
          t.units = f.units ++ (List.range r.units).map fun k =>
            ⟨d, e, c + k, c + r.units, r.idx, r.lane, .hbm mc (skUnit en (unitAddr a k)), none, false, r.dig (unitAddr a k),
              if k + 1 = r.units then ev else none⟩) ∧
        (r.op = 3 → t.reads = f.reads ++ [
          { die := d, eng := e, cyc := c + 480, idx := r.idx, lane := r.lane, sink := .wale r.port, lines := flit,
            mc := some mc, us := (List.range fl).map fun k => skUnit en (flitAddr a k), nb := none, dig := none, evt := ev }]) ∧
        (r.op = 4 →
          let hit := f.arrivals.find? fun q => decide (q.die = d) && decide (q.port = r.port) && decide (q.dest = e) && decide (q.cyc = c)
          let ls := (hit.map fun q => q.lines).getD (List.replicate (4 * fl) poisonLine)
          t.units = f.units ++ ((List.range fl).map fun k => ⟨d, e, c, c + 1, r.idx, 2, .hbm mc (skUnit en (flitAddr a k)),
            some ((ls.drop (4 * k)).take 4), false, none, if k + 1 = fl then ev else none⟩)) ∧
        (r.op = 7 → t.reads = f.reads ++ [
          { die := d, eng := e, cyc := c + 480, idx := r.idx, lane := 2,
            sink := .sched ((dbits r.word2 0 13 + r.j) % 8192), lines := f.hunit mc (skUnit en (flitAddr a 0)), mc := some mc,
            us := [skUnit en (flitAddr a 0)], nb := none, dig := none, evt := ev }]) ∧
        (r.op = 10 → free (c + 480) (r.units + 1) → t.reads = f.reads ++ [
          { die := d, eng := e, cyc := c + 480, idx := r.idx, lane := r.lane,
            sink := .load e (dbits r.word2 0 3 + 8 * dbits r.word2 3 1 + 16 * (r.units - 1)
              + 256 * ((dbits r.word2 4 22 + r.j * r.units * 128) % 2 ^ 22) + 2 ^ 63),
            lines := (List.range r.units).flatMap fun k => f.hunit mc (skUnit en (unitAddr a k)), mc := some mc,
            us := (List.range r.units).map fun k => skUnit en (unitAddr a k), nb := none, dig := none, evt := ev }])) ∧
      (go = true →
        let fl := f.flitLines (wlPg d r.port) / 4
        let hit := f.arrivals.find? fun q => decide (q.die = d) && decide (q.port = r.port) && decide (q.dest = e) && decide (q.cyc = c)
        let ls := (hit.map fun q => q.lines).getD (List.replicate (4 * fl) poisonLine)
        (r.op = 5 → (∀ m, m < fl → f.laneUsers d e r.lane (c + m) = []) →
          t.units = f.units ++ (List.range fl).map fun k => ⟨d, e, c + k, c + k + 1, r.idx, r.lane, .wale r.port (c + 10), none, false, none,
            if k + 1 = fl then ev else none⟩) ∧
        (r.op = 6 → (∀ m, m < fl → f.laneUsers d e r.lane (c + 1 + m) = []) →
          t.reads = f.reads ++ (List.range fl).map fun k =>
            { die := d, eng := e, cyc := c + 1 + k, idx := r.idx, lane := r.lane, sink := .edge (edgePort e r.lane), lines := (ls.drop (4 * k)).take 4,
              mc := none, us := [], nb := none, dig := none, evt := if k + 1 = fl then ev else none }))

/-- READ_UNIT_RELEASE and ENGINE_ABORT_DONE (R234, R270). -/
def Obligations.ReadUnitsAreReleased : Prop :=
  ∀ (s : State) (d e mc : Nat) (r : RUnit) (late : List Nat) (hits : List EccHit), Wf s → s.engOk d e = true →
    (s.firstRead d e = some r → r.mc = some mc → r.nb = none → (∀ c h, r.sink ≠ .load c h) →
      let bad : List Nat := (List.range r.us.length).filter fun k => s.unitLate mc (r.us.getD k 0) (r.cyc - 480) (late.contains k)
      let ls := r.lines.zipIdx.map fun x => if !s.mcUp mc || bad.contains (x.2 / 4) || hits.any (fun h => h.ue && decide (h.word = x.2)) then poisonLine
        else x.1
      ∃ t, exec (.readUnitRelease d e late hits) s = .next t ∧ t.clk = (s.toCc r.cyc).clk ∧ t.reads = s.reads.filter (· ≠ r) ∧ t.tiles = s.tiles ∧
        t.hbm = s.hbm ∧ t.units = s.units ∧
        (∀ q, r.sink = .edge q → t.mesh = s.mesh ++ [⟨d, (edgeNode (edgePort e r.lane)).1, (edgeNode (edgePort e r.lane)).2, r.cyc, ⟨ls⟩, some false⟩]) ∧
        (∀ q, r.sink = .wale q → (∀ o ∈ s.offers, ¬ (o.die = d ∧ o.port = q ∧ o.src = e ∧ o.cyc = r.cyc)) →
          t.offers = s.offers ++ [⟨d, q, e, r.cyc, ls, r.idx⟩] ∧ t.mesh = s.mesh) ∧
        (∀ i, r.sink = .sched i → (t.eng d e).sched = put (fun _ => 0#128) (s.eng d e).sched i
          (BitVec.ofNat 128 (((ls.head?).map fun l => l.data.toNat).getD 0 % 2 ^ 117)) ∧ t.mesh = s.mesh) ∧
        (∀ k, k < 16 → t.rd (osTop d) (Fld.idx R.OS_EVT_CNT k) =
          if r.evt.map (· % 16) = some k then min (s.rd (osTop d) (Fld.idx R.OS_EVT_CNT k) + 1) (2 ^ R.OS_EVT_CNT.w - 1)
          else s.rd (osTop d) (Fld.idx R.OS_EVT_CNT k)) ∧
        t.rd (mcPage mc) R.MC_LATE_CNT = min (s.rd (mcPage mc) R.MC_LATE_CNT + bad.length) (2 ^ R.MC_LATE_CNT.w - 1)) ∧
    ((s.eng d e).abort = true → (s.eng d e).borrow = [] →
      exec (.engineAbortDone d e) s = .next (s.setEng d e { s.eng d e with abort := false, on := false }))

/-- REFRESH_RATE_CHANGE, PATROL_SCRUB and NEIGHBOUR_REQUEST. -/
def Obligations.MemoryBesideTheSchedule : Prop :=
  ∀ (s : State) (d k temp port : Nat) (hits : List EccHit), Wf s → d < 8 → k < 3 → s.alive (mcPg d k) = true →
    let mc := d * 4 + k
    let p := mcPg d k
    let w := s.wr p R.MC_STAT_TEMP temp
    let mark (t : State) (v : Option Nat) : State := { t with cool := put (fun _ => none) s.cool mc v }
    let twice := s.bit p R.MC_STAT_REF2X
    let u := look natZero s.scrubAt mc
    (twice = false → 85 < temp → exec (.refreshRateChange d k temp) s = .next ((w.wb p R.MC_STAT_REF2X true).raise p 4)) ∧
    (twice = false → temp ≤ 85 → exec (.refreshRateChange d k temp) s = .next w) ∧
    (twice = true → 83 ≤ temp → exec (.refreshRateChange d k temp) s = .next (mark w none)) ∧
    (twice = true → temp < 83 → look (fun _ => none) s.cool mc = none →
      exec (.refreshRateChange d k temp) s = .next (mark w (some s.clk.tick))) ∧
    (∀ t0, twice = true → temp < 83 → look (fun _ => none) s.cool mc = some t0 →
      exec (.refreshRateChange d k temp) s = .next (((mark (w.toTick (t0 + 1000000)) none).wb p R.MC_STAT_REF2X false).raise p 4)) ∧
    (s.mcUp mc = true → s.bit p R.MC_SCRUB_EN = true → u < 2 ^ 30 →
      ∃ t, exec (.patrolScrub d k hits) s = .next t ∧ t.scrubAt = put natZero s.scrubAt mc ((u + 1) % 2 ^ 30) ∧ t.clk = s.clk ∧ t.tiles = s.tiles ∧
        ∀ key, look lineZero t.hbm key =
          if hits.any (fun h => h.ue && decide (h.word < 4) && decide (key = mc * 2 ^ 32 + (4 * u + h.word))) then poisonLine else look lineZero s.hbm key) ∧
    ((s.mcUp mc = false ∨ s.bit p R.MC_SCRUB_EN = false) → exec (.patrolScrub d k hits) s = .next s) ∧
    (∀ q, s.nbq.find? (fun q => decide (q.die = d) && decide (q.port = port)) = some q →
      let e : State := { (s.toCc q.cyc) with nbq := s.nbq.filter (· ≠ q) }
      let f := (e.settleDie d q.cyc).enterDue d (nbKey q.cyc port)
      let n := bits q.word 6 4 + 1
      let m := d * 4 + bits q.word 40 2
      let u := bits q.word 10 30
      let us := (List.range n).map fun i => if n ≤ 4 then u / 4 * 4 + (u + i) % 4 else u + i
      ((q.word % 2 = 0 ∨ bits q.word 40 2 = 3) → exec (.neighbourRequest d port) s = .next e) ∧
      (q.word % 2 = 1 → bits q.word 40 2 ≠ 3 →
        ∃ t, exec (.neighbourRequest d port) s = .next t ∧ t.nbq = s.nbq.filter (· ≠ q) ∧ t.clk = (s.toCc q.cyc).clk ∧ t.tiles = s.tiles ∧
          (bits q.word 1 1 = 0 → t.hbm = f.hbm ∧ t.reads = f.reads ++ [
            { die := d, eng := bits q.word 2 4, cyc := q.cyc + 480, idx := q.idx, lane := 2, sink := .wale port,
              lines := us.flatMap fun v => f.hunit m v, mc := some m, us := us, nb := some (port, q.cyc + 480, 0), dig := none, evt := none }]) ∧
          (bits q.word 1 1 = 1 → s.alive (mcPage m) = true → t.reads = f.reads ∧
            t.hbm = (((List.range n).zip us).foldl (fun (g : State) x => g.putHunit m x.2 ((q.lines.drop (4 * x.1)).take 4)) f).hbm))) ∧
    (s.nbq.find? (fun q => decide (q.die = d) && decide (q.port = port)) = none → exec (.neighbourRequest d port) s = .next s)

/-- LENDER_REQUEST, BORROW_COMPLETE, BORROW_TIMEOUT and HOST_WINDOW_ACCESS. -/
def Obligations.LendingAndTheHostWindow : Prop :=
  ∀ (s : State) (d e : Nat), Wf s → d < 8 → e < 16 →
    (∀ peer lgran off count (wr : Bool) (data : List FLine), s.alive (stPg d 0) = true →
      let en := s.stakeE d lgran
      let mc := d * 4 + skStack en
      let us := (List.range count).map fun k => skUnit en (flitAddr (lgran * 2 ^ 26 + off % 2 ^ 26 / 128 * 128) k)
      let ok := decide (skKind en = 1) && decide (skStack en < 3) && skLent en && decide (skPeer en = peer) && !(wr && skWp en) && decide (peer / 16 = s.pkgId / 16)
      let side := (s.wle (wlPg d 3)).side
      let no (t : State) : State := (t.raise (stPg d 0) 10).sideQueue (wlPg d 3) ⟨1, 8 + d, .memAns peer false, []⟩
      (ok = false → exec (.lenderRequest d peer lgran off wr count data [] none) s = .next (no s)) ∧
      (∀ hits, exec (.lenderRequest d peer lgran off wr count data hits (some true)) s =
        .next (no (({ s with freeCtr := s.freeCtr + 1 } : State).engErr d 0 (Config.freeNat s.freeCtr % 2 ^ 13) 2))) ∧
      (ok = true → s.mcUp mc = true → ∃ t, exec (.lenderRequest d peer lgran off wr count data [] none) s = .next t ∧ t.clk = s.clk ∧ t.tiles = s.tiles ∧
        (t.wle (wlPg d 3)).side = side ++ [⟨1, 8 + d, .memAns peer true, if wr then [] else us.flatMap fun u => s.hunit mc u⟩] ∧
        t.rd (mcPage mc) R.MC_SIDE_BYTES = (s.rd (mcPage mc) R.MC_SIDE_BYTES + (look natZero s.sideRem mc + 128 * count) / 1024) % 2 ^ R.MC_SIDE_BYTES.w ∧
        t.hbm = if wr then (((List.range count).zip us).foldl (fun (g : State) v => g.putHunit mc v.2 ((data.drop (4 * v.1)).take 4)) s).hbm else s.hbm)) ∧
    (∀ n b (data : Option (List FLine)) (late : Bool), (s.eng d e).borrow[n]? = some b → (late = true → data = none) →
      (∀ l, data = some l → b.write = false → l.length = 4 * b.count) →
      let cmd : Instr := if late then .borrowTimeout d e n else .borrowComplete d e n data.isSome (data.getD []) none
      let cnt := Fld.idx R.OS_EVT_CNT
      let f := if late then s.toTick b.tmo else s
      ∃ t, exec cmd s = .next t ∧ t.clk = f.clk ∧ t.tiles = s.tiles ∧
        t.eng d e = { s.eng d e with borrow := (s.eng d e).borrow.filter (· ≠ b) } ∧
        (b.write = true → t.hbm = s.hbm) ∧
        (∀ mc v, b.write = false → f.resolve d b.addr2 true false false = .here mc v →
          let ls := data.getD (List.replicate (4 * b.count) poisonLine)
          t.hbm = (((List.range b.count).zip (f.rangeUnits d b.addr2 b.count)).foldl
            (fun (g : State) v => g.putHunit mc v.2 ((ls.drop (4 * v.1)).take 4)) s).hbm) ∧
        (∀ k, k < 16 → t.rd (osTop d) (cnt k) =
          if b.evt.map (· % 16) = some k then min (s.rd (osTop d) (cnt k) + 1) (2 ^ R.OS_EVT_CNT.w - 1) else s.rd (osTop d) (cnt k)) ∧
        (data = none → t.rd (stPg d e) R.ST_ERR_LAST_INDEX = b.idx % 2 ^ R.ST_ERR_LAST_INDEX.w ∧
          t.rd (stPg d e) R.ST_ERR_LAST_SRC = if late then 8 else 7)) ∧
    (∀ h off len (wr : Bool) (data : List Byte), h < 2 → s.alive (pg (0x12 + h) 0x10) = true → 0 < len →
      let a := (s.rd (pg (0x12 + h) 0x10) R.PCIE_WIN_BASE * 2 ^ 30 + off) % 2 ^ 42
      let home := a / 2 ^ 39
      let pl := s.resolve home a wr false false
      (∀ mc u, a % 32 + len ≤ 32 → (pl = .here mc u ∨ ∃ port, pl = .nbr port mc u) → s.mcUp mc = true →
        let key := mc * 2 ^ 32 + (4 * u + a % 128 / 32) % 2 ^ 32
        let old := s.hline mc (4 * u + a % 128 / 32)
        let m := lineMerge old (((List.range len).zip data).map fun x => (a % 32 + x.1, x.2))
        ∃ t, exec (.hostWindowAccess h off len wr data [] none) s = .next t ∧ { t with hbm := s.hbm, regs := s.regs, out := s.out, sideRem := s.sideRem } = s ∧
          (wr = true → t.out = s.out ∧ ∀ k, look lineZero t.hbm k = if k = key then
              (if m.poi then poisonLine else m) else look lineZero s.hbm k) ∧
          (wr = false → t.hbm = s.hbm ∧ t.out = { s.out with
            cpls := s.out.cpls ++ [⟨h, ((lineBytes old).drop (a % 32)).take len |>.map (BitVec.ofNat 8), old.poi, false⟩] })) ∧
      (∀ (at' : Nat → Nat × Nat), wr = false → (∀ k, k < hostLines a len → s.hostPlace (hostPart a len k).1 false false = .inl (at' k) ∧ s.mcUp (at' k).1 = true) →
        let line (k : Nat) : FLine := s.hline (at' k).1 (at' k).2
        ∃ t, exec (.hostWindowAccess h off len false data [] none) s = .next t ∧ t.hbm = s.hbm ∧ t.out = { s.out with cpls := s.out.cpls ++ [⟨h,
          (List.range (hostLines a len)).flatMap fun k => ((lineBytes (line k)).drop ((hostPart a len k).1 % 32)).take (hostPart a len k).2.2 |>.map (BitVec.ofNat 8),
          (List.range (hostLines a len)).any fun k => (line k).poi, false⟩] }) ∧
      (∀ (src : Nat) (stk : Option Bool), (pl = .bad src ∧ stk = none ∨ src = 2 ∧ stk = some true) →
        let f := ({ s with freeCtr := s.freeCtr + 1 } : State).engErr home 0 (Config.freeNat s.freeCtr % 2 ^ 13) src
        exec (.hostWindowAccess h off len wr data [] stk) s = .next (if wr then f else
          { f with out := { s.out with cpls := s.out.cpls ++ [⟨h, [], false, true⟩] } })))

/-- CE_NOP to CE_ENDSEG and CE_ABORT_DONE (Table 8-4). -/
def Obligations.CollectiveEntriesStart : Prop :=
  ∀ (s : State) (d : Nat), Wf s → d < 8 →
    (s.ceOk d = true → (s.ce d).going = true →
      let i := (s.ce d).pc % 8192
      let w := look (fun _ => 0#128) (s.ce d).sched i
      let c := (s.ce d).prev + dbits w 0 12
      let op := dbits w 12 4
      let two := decide (5 ≤ op) && decide (op ≤ 9)
      let f := (s.toCc c).ceSettle d c
      let x := f.ce d
      let run := x.running.filter fun q => decide (q.j < q.cCount)
      let y : Ce := { x with pc := (i + if two then 2 else 1) % 8192, prev := c, running := run }
      let r : Desc := ⟨i, w, if two then look (fun _ => 0#128) x.sched ((i + 1) % 8192) else 0#128, c, 0⟩
      let g := f.setCe d y
      let e := look natZero x.ranks r.cRank
      let nobody := decide (e / 256 % 2 = 0) || decide (e % 256 = s.rd pkg0 R.PKG_IDENT_PKG_ID)
      let runs : List (Nat × Instr) := [(1, .edin d), (2, .edout d), (3, .win d), (4, .wout d), (5, .lcomb d false),
        (6, .ceGrid d false), (7, .cePack d false), (8, .roundGrid d false), (9, .rnd96 d false)]
      let cmds := runs ++ [(10, .ceSend d), (11, .ceRecv d), (15, .ceEndseg d)]
      (∀ q ∈ cmds, op ≠ q.1 → exec q.2 s = .next s) ∧
      (∀ q ∈ runs, op = q.1 → r.cLegal y = true → run.length < 8 → exec q.2 s = .next (f.setCe d { y with running := run ++ [r] })) ∧
      (∀ q ∈ (0, .ceNop d false) :: cmds, op = q.1 → (r.cLegal y = false ∨ 8 ≤ run.length) → exec q.2 s = .next (g.ceErr d i 0 none)) ∧
      (∀ q ∈ [(5, Instr.lcomb d true), (6, .ceGrid d true), (7, .cePack d true), (8, .roundGrid d true), (9, .rnd96 d true)], op = q.1 →
        exec q.2 s = .next (g.ceErr d i 1 none)) ∧
      (r.cPort = 3 → r.cLegal y = false) ∧
      (op = 10 → r.cPort ≠ 3 → r.cCount ≤ 65536 → x.sends.length < 16 → run.length < 8 → exec (.ceSend d) s = .next (if nobody
        then (g.ceErr d i 8 (some r.cRank)).evtOpt d r.cEvt
        else f.setCe d { y with serial := x.serial + 1,
                                sends := x.sends ++ [⟨i, r.cRank, e % 256, r.cAddr, r.cCount, 0, r.cEvt, x.serial + 1⟩] })) ∧
      (op = 11 → r.cPort ≠ 3 → r.cCount ≤ 65536 → x.recvs.length < 16 → r.cCmb ≤ 4 → run.length < 8 →
        let nth := look natZero x.posted (e % 256)
        let v : CeRecv := ⟨i, r.cRank, e % 256, r.cAddr, r.cCount, r.cCmb, [], r.cEvt, nth⟩
        exec (.ceRecv d) s = .next (if nobody then ((g.ceErr d i 8 (some r.cRank)).poisonRest d v).evtOpt d r.cEvt
          else f.setCe d { y with posted := put natZero x.posted (e % 256) (nth + 1), recvs := x.recvs ++ [v] })) ∧
      (op = 15 → r.cPort ≠ 3 → run.length < 8 → exec (.ceEndseg d) s = .next (f.setCe d { y with ended := some c })) ∧
      (op = 0 → r.cPort ≠ 3 → run.length < 8 → exec (.ceNop d false) s = .next g) ∧
      (12 ≤ op → op ≤ 14 → exec (.ceNop d false) s = .next (g.ceErr d i 0 none)) ∧
      exec (.ceNop d true) s = .next (((s.toCc (s.ce d).prev).setCe d { s.ce d with pc := ((s.ce d).pc + 1) % 8192 }).ceErr d i 1 none)) ∧
    ((s.ce d).abort = true → (∀ u ∈ (s.ce d).unacked, s.rd (subPg (u.1 / 16) (u.1 % 16)) R.SB_STAT_STATE = 5) →
      exec (.ceAbortDone d) s = .next (s.setCe d { s.ce d with abort := false, on := false, unacked := [] }))

/-- CE_ITEM (R276, R279, R280). -/
def Obligations.CollectiveItems : Prop :=
  ∀ (s : State) (d : Nat) (r : Desc) (hits : List EccHit), Wf s → s.ceOk d = true → (s.ce d).abort = false → nextItem (s.ce d).running = some r →
    let j := r.j
    let c := r.start + j * r.cPeriod
    let f := ((s.toCc c).settleDie d c).ceSettle d c
    let x := f.ce d
    let cost := f.ceCost d r
    let n := f.flitLines (wlPg d r.cPort) / 4
    let grid (a k : Nat) : Nat × Bool := let l := lineBad (badWords hits k 1) (f.bline d a); (bits l.data.toNat (8 * (a % 32)) 8, l.poi)
    let cl := ceClash x.uses c cost r.idx
    let bad := badWords hits
    let get (a k : Nat) : List FLine := readBad (bad 0 k) (f.blines d a k)
    let write (at' a cmb : Nat) (ls : List FLine) (err : List Nat) : List CeWrite :=
      [if cl.1 then ⟨at', a % 2 ^ 25, 0, ls.map fun _ => poisonLine, none, []⟩ else ⟨at', a % 2 ^ 25, cmb, ls, none, err⟩]
    let edge := f.edges.find? fun q => decide (q.die = d) && decide (q.edge = r.cEp) && q.ce && decide (q.cyc = c)
    let flit := f.arrivals.find? fun q => decide (q.die = d) && decide (q.port = r.cPort) && decide (q.dest = 16) && decide (q.cyc = c)
    let block := if cl.1 then (0, true) else ceGridByte (get (r.cAddr + 512 * j) 16)
    let ws : List CeWrite :=
      if r.op = 1 then write (c + 3) (r.cAddr + 128 * j) r.cCmb ((edge.map fun q => q.flit.lines).getD (List.replicate 4 poisonLine)) (bad 0 4)
      else if r.op = 3 then (if (f.slotPlan d r.cPort c).2 = 16 then
        write (c + 3) (r.cAddr + j * n * 128) r.cCmb ((flit.map fun q => q.lines).getD (List.replicate (4 * n) poisonLine)) (bad 0 (4 * n)) else [])
      else if r.op = 5 then (if r.cCmb = 5
        then write (c + 3) (r.cAddr + 2048 * j) 0 (add96 (readBad (bad 64 64) (f.blines d (r.cAddr2 + 2048 * j) 64)) (get (r.cAddr + 2048 * j) 64)) []
        else write (c + 3) (r.cAddr + 128 * j) 0 (((readBad (bad 4 4) (f.blines d (r.cAddr2 / 128 * 128 + 128 * j) 4)).zip (get (r.cAddr + 128 * j) 4)).map
          fun u => combineLine r.cCmb u.1 u.2) [])
      else if r.op = 6 then [⟨c + 7, (r.cAddr3 + j) % 2 ^ 25, if cl.1 then 0 else r.cCmb, [], some block, bad 16 1⟩]
      else if r.op = 7 then write (c + 7) (r.cAddr3 / 128 * 128 + 1024 * j) r.cCmb
        (cePackBlock (grid (r.cAddr2 + j) 16).1 (grid (r.cAddr2 + j) 16).2 (get (r.cAddr + 512 * j) 16)).1 (bad 17 32)
      else if r.op = 8 then write (c + 7) (r.cAddr3 / 128 * 128 + (if r.cBf then 256 else 512) * j) 0
        (ceRoundBlock (grid (r.cAddr2 + j) 32).1 (grid (r.cAddr2 + j) 32).2 r.cBf r.cRnd (get (r.cAddr + 1024 * j) 32)) []
      else if r.op = 9 then write (c + 7) (r.cAddr3 / 128 * 128 + 512 * j) 0 (ceRnd96Block r.cRnd (get (r.cAddr + 2048 * j) 64)) []
      else []
    let run := x.running.map fun q => if q = r then { r with j := j + 1 } else q
    cl.2 = [] →
    ∃ t, exec (.ceItem d hits) s = .next t ∧ t.clk = (s.toCc c).clk ∧ t.tiles = s.tiles ∧ t.hbm = f.hbm ∧ t.cbuf = f.cbuf ∧
      t.ce d = { x with running := run, lastDone := max x.lastDone c, writes := x.writes ++ ws,
                        uses := x.uses ++ if cl.1 then [] else [⟨c + cost.2.2.2, cost.1, 0, 0, r.idx⟩, ⟨c, none, cost.2.1, cost.2.2.1, r.idx⟩] } ∧
      (r.op = 1 → t.edges = if cl.1 then f.edges else f.edges.filter fun q => decide (edge ≠ some q)) ∧
      (r.op = 2 → t.mesh = if cl.1 then f.mesh
        else f.mesh ++ [⟨d, (edgeNode r.cEp).1, (edgeNode r.cEp).2, c + 2, ⟨get (r.cAddr + 128 * j) 4⟩, some true⟩]) ∧
      (r.op = 4 → t.offers = if cl.1 = false ∧ (f.slotPlan d r.cPort (c + 2)).1 = 16
        then f.offers ++ [⟨d, r.cPort, 16, c + 2, get (r.cAddr + j * n * 128) (4 * n), r.idx⟩] else f.offers)

/-- SEBER_TRANSMIT_SLOT and SEBER_DELIVERY_SLOT. -/
def Obligations.SeberSlotsOfTheXPort : Prop :=
  ∀ (s : State) (d : Nat) (hits : List EccHit), Wf s → s.ceOk d = true →
    let p := wlPg d 3
    let c := s.clk.cc
    let bad := badWords hits 0 8
    (s.portAlive p = true → (s.wle p).sent ≠ some c → (s.slotPlan d 3 c).1 = 16 →
      let e := (s.toCc c).ceSettle d c
      let x := e.ce d
      let n := if s.bit p R.WL_STAT_W8 then 2 else 5
      let turn := if x.abort then none else rrNext x.served (x.sends.filter (e.sendable d x))
      ∃ t tags, exec (.seberTransmitSlot d hits) s = .next t ∧ t.clk = e.clk ∧ t.cbuf = e.cbuf ∧ t.tiles = s.tiles ∧
        (t.wle (pg (8 + d) 0x40)).wire = (s.wle (pg (8 + d) 0x40)).wire ++
          [{ kind := if tags.isEmpty then .null else .prog, cyc := true, cc := c, tags := tags, credit := decide (0 < (s.wle p).owed) }] ∧
        t.wle p = { (s.wle p) with owed := (s.wle p).owed - 1, sent := some c } ∧ tags.length ≤ n ∧ (turn = none → tags = []) ∧
        (∀ v, turn = some v →
          let ls := readBad bad (e.blines d (v.addr + 256 * v.next) 8)
          tags.head? = some ⟨v.pkg, v.next, decide (v.next + 1 = v.count), ls.any FLine.poi, ls⟩) ∧
        (tags ≠ [] → t.rd (cePg d) R.CE_TX_BYTES = (s.rd (cePg d) R.CE_TX_BYTES + 256 * tags.length) % 2 ^ R.CE_TX_BYTES.w)) ∧
    ((s.slotPlan d 3 c).2 = 16 → (s.wle p).drawn ≠ some c → ((s.wle p).xbuf = [] ∨ s.prog d = 2 ∧ s.portAlive p = false) →
      let e := (s.toCc c).ceSettle d (c - 1)
      exec (.seberDeliverySlot d hits) s = .next (e.setWle p { (s.wle p) with drawn := some c })) ∧
    (∀ f r, (s.slotPlan d 3 c).2 = 16 → (s.wle p).drawn ≠ some c → (s.prog d = 2 → s.portAlive p = true) → (s.wle p).xbuf = f :: r →
      let e := (s.toCc c).ceSettle d (c - 1)
      let x := e.ce d
      let drop := x.abort || decide (s.prog d ≠ 2)
      let taken : WlEnd := { (s.wle p) with xbuf := r, owed := (s.wle p).owed + 1, drawn := some c }
      (drop = true → f ≠ [] → ∃ t, exec (.seberDeliverySlot d hits) s = .next t ∧ t.wle p = taken ∧ t.ce d = x ∧ t.cbuf = e.cbuf ∧
        t.rd (cePg d) R.CE_RX_DROP = min (s.rd (cePg d) R.CE_RX_DROP + f.length) (2 ^ R.CE_RX_DROP.w - 1)) ∧
      (∀ q, drop = false → f = [q] →
        let msgs := if q.last then put natZero x.messages q.pkg (look natZero x.messages q.pkg + 1) else x.messages
        let match' (y : Ce) : Option CeRecv := y.recvs.find? fun u => decide (u.pkg = q.pkg) && decide (u.nth = look natZero x.messages q.pkg)
        (match' x = none ∨ (∃ v, match' x = some v ∧ v.count ≤ q.offset)) → ∃ t, exec (.seberDeliverySlot d hits) s = .next t ∧ t.wle p = taken ∧
          t.cbuf = e.cbuf ∧ t.ce d = { x with messages := msgs } ∧
          t.rd (cePg d) R.CE_RX_DROP = min (s.rd (cePg d) R.CE_RX_DROP + 1) (2 ^ R.CE_RX_DROP.w - 1)) ∧
      (∀ q v, drop = false → f = [q] →
        let msgs := if q.last then put natZero x.messages q.pkg (look natZero x.messages q.pkg + 1) else x.messages
        (x.recvs.find? fun u => decide (u.pkg = q.pkg) && decide (u.nth = look natZero x.messages q.pkg)) = some v → q.offset < v.count →
        let got := if v.got.contains q.offset then v.got else v.got ++ [q.offset]
        let ls := if q.poi then q.lines.map fun l => { l with poi := true } else q.lines
        let g := ((List.range 8).zip ls).foldl (fun (g : State) l =>
          g.putBline d (v.addr + 256 * q.offset + 32 * l.1) (combineLine v.cmb l.2
            (lineBad ((bad.filter fun w => decide (w / 4 = l.1)).map (· % 4)) (g.bline d (v.addr + 256 * q.offset + 32 * l.1))))) e
        ∃ t, exec (.seberDeliverySlot d hits) s = .next t ∧ t.wle p = taken ∧
          t.rd (cePg d) R.CE_RX_BYTES = (s.rd (cePg d) R.CE_RX_BYTES + 256) % 2 ^ R.CE_RX_BYTES.w ∧
          (q.last = false → t.cbuf = g.cbuf ∧ t.ce d = { x with recvs := x.recvs.map fun u => if u = v then { v with got := got } else u }) ∧
          (q.last = true → v.count ≤ got.length → t.cbuf = g.cbuf ∧ t.ce d = { x with messages := msgs, recvs := x.recvs.filter (· ≠ v) } ∧
            ∀ k, k < 16 → t.rd (osTop d) (Fld.idx R.OS_EVT_CNT k) = if v.evt.map (· % 16) = some k
              then min (s.rd (osTop d) (Fld.idx R.OS_EVT_CNT k) + 1) (2 ^ R.OS_EVT_CNT.w - 1) else s.rd (osTop d) (Fld.idx R.OS_EVT_CNT k))))

/-- EPOCH_IN_EDGE, EPOCH_STUCK, STUCK_CLEAR, EPOCH_OUT_PULSE, BORDER_ARRIVAL, BORDER_RELEASE and AUDIT_COLLECT. -/
def Obligations.BorderAndTimeCommands : Prop :=
  ∀ (s : State), Wf s →
    (∀ tick, s.pins.resetN = true →
      let e := (s.toTick tick).thaw
      let early := match s.pkgt.lastEdge with | some t0 => decide (e.clk.tick < t0 + 100) | none => false
      let armed := s.bit pkg2 R.PKG_TIME_CTRL_ARMED
      let zeroed := s.bit pkg2 R.PKG_TIME_CTRL_ZEROED
      (early = true → exec (.epochInEdge tick) s = .next (e.inc pkg2 R.PKG_EPOCH_IGN)) ∧
      (early = false → ∃ t, exec (.epochInEdge tick) s = .next t ∧ t.pkgt.lastEdge = some e.clk.tick ∧ t.clk.tick = e.clk.tick ∧ t.clk.frozen = none ∧
        (armed = true → t.pkgTick = 0 ∧ t.bit pkg2 R.PKG_TIME_CTRL_ARMED = false ∧ t.bit pkg2 R.PKG_TIME_CTRL_ZEROED = true ∧
          t.rd pkg2 R.PKG_EPOCH_CNT = 0) ∧
        (armed = false → t.clk = e.clk ∧ (zeroed = false → { t with clk := s.clk, pkgt := s.pkgt } = s) ∧
          (zeroed = true →
            let out := epochOffset e.pkgTick
            t.rd pkg2 R.PKG_EPOCH_CNT = (s.rd pkg2 R.PKG_EPOCH_CNT + 1) % 2 ^ R.PKG_EPOCH_CNT.w ∧
            (s.bit pkg2 R.PKG_TIME_STAT_STUCK = false → t.rd pkg2 R.PKG_TIME_STAT_OFFSET = sat16 out ∧
              (s.bit pkg2 R.PKG_TIME_CTRL_CHECK_EN = true → s.rd pkg2 R.PKG_TIME_CTRL_TOL < out.natAbs →
                t.rd pkg2 R.PKG_TIME_STAT_SLIP_CNT = min (s.rd pkg2 R.PKG_TIME_STAT_SLIP_CNT + 1) (2 ^ R.PKG_TIME_STAT_SLIP_CNT.w - 1))))))) ∧
    (∀ t0, s.pins.resetN = true → s.pkgt.lastEdge = some t0 → exec .epochStuck s = .next (if s.bit pkg2 R.PKG_TIME_STAT_STUCK then s
      else ((s.toTick (t0 + 1000000)).wb pkg2 R.PKG_TIME_STAT_STUCK true).raise pkg2 1)) ∧
    (s.pins.resetN = true → ∃ t, exec .stuckClear s = .next t ∧ t.bit pkg2 R.PKG_TIME_STAT_STUCK = false ∧ { t with regs := s.regs } = s) ∧
    (s.pins.resetN = true → s.bit pkg2 R.PKG_TIME_CTRL_ZEROED = true → s.clk.frozen = none → s.clk.base ≤ s.clk.tick →
      let now := s.clk.tick - s.clk.base
      let m := now / 100000000 * 100000000
      let due := if m = now && decide (0 < m) && s.pkgt.epochHigh.isNone then m else m + 100000000
      let e := s.toTick (s.clk.base + due)
      exec .epochOutPulse s = .next { e with pkgt := { s.pkgt with epochHigh := some (e.clk.tick + 1000) } }) ∧
    (∀ d pkg seq id tick, d < 8 → s.alive (osTop d) = true →
      let skew := decide (1000000 < (s.pkgTick - tick) + (tick - s.pkgTick))
      let e : State := if skew then s.pkg2Raise 2 d else s
      let b := s.bord d
      let waits := s.atBorder d
      let cur := if waits then b.seq else b.seq + 1
      let held := b.held.filter (fun a => !(decide (a.pkg = pkg) && decide (a.seq = seq))) ++ [⟨pkg, seq, id, tick⟩]
      let bad := waits && decide (seq = b.seq) && decide (id ≠ (s.od d).waitId)
      (seq ≠ cur → seq ≠ cur + 1 → exec (.borderArrival d pkg seq id tick) s = .next (e.pkg2Raise 3 d)) ∧
      ((seq = cur ∨ seq = cur + 1) → waits = false → exec (.borderArrival d pkg seq id tick) s = .next (e.setBord d { b with held := held })) ∧
      ((seq = cur ∨ seq = cur + 1) → waits = true →
        let f := e.setBord d { b with held := held, bad := b.bad || bad }
        let got := held.filter fun x => decide (x.seq = b.seq) && (s.members d).contains x.pkg
        ∃ t, exec (.borderArrival d pkg seq id tick) s = .next t ∧ t.clk = s.clk ∧ (t.bord d).held = held ∧ (t.bord d).bad = (b.bad || bad) ∧
          (bad = true → t = f.pkg2Raise 4 d) ∧
          (∀ own, b.own = some own → b.tr = none → b.bad = false → bad = false → (∀ m ∈ s.members d, ∃ x ∈ got, x.pkg = m) →
            (t.bord d).tr = some (got.foldl (fun m x => max m x.tick) own + max 1 (s.rd pkg2 R.PKG_BORDER_LEAD))))) ∧
    (∀ d tr, d < 8 → s.alive (osTop d) = true → (s.bord d).tr = some tr →
      let b := s.bord d
      let said := osDies.any fun o => decide (o ≠ d) && (s.bord o).late && decide ((s.bord o).seq = b.seq) && (s.bord o).released.isSome
      let e := s.toTick (s.clk.base + tr)
      let f := if b.late && !said then e.inc pkg2 R.PKG_BORDER_LATE_CNT else e
      let f := ((f.wr pkg2 R.PKG_BORDER_LAST_SPAN b.span).wr pkg2 R.PKG_BORDER_LAST_LAST_PKG b.last).wb pkg2 R.PKG_BORDER_LAST_LATE (b.late || said)
      (s.atBorder d = true → b.bad = false → s.clk.frozen = none →
        exec (.borderRelease d) s = .next (f.setBord d { b with released := some e.clk.cc })) ∧
      ((s.atBorder d = false ∨ b.bad = true ∨ s.clk.frozen ≠ none) → exec (.borderRelease d) s = .next s)) ∧
    (∀ h a, s.acting = some h → (s.au 0).held = some a →
      let full := osDies.all fun d => s.bit (stPg d 0) R.ST_DLAT_STAT_FULL
      let lost := osDies.foldl (fun n d => max n (s.au d).lost) 0
      let e := osDies.foldl State.dlatAck { s with pkgt := { s.pkgt with lost := lost } }
      let q := s.rd pkg2 R.PKG_AUDIT_CTRL_QUEUE
      let q := if 64 ≤ q && q ≤ 79 then q else 64
      let sends := s.bit pkg2 R.PKG_AUDIT_CTRL_EN && !s.start.huabel
      (full = false → exec .auditCollect s = .next s) ∧
      (full = true → sends = false → exec .auditCollect s = .next e) ∧
      (full = true → sends = true →
        let x := e.sqOffer h q (s.auditWords a (s.pkgt.lost + lost))
        exec .auditCollect s = .next (if x.2 then x.1.addWrap pkg2 R.PKG_AUDIT_STAT_SEQ 1
          else (x.1.inc pkg2 R.PKG_AUDIT_STAT_LOST_CNT).raise pkg2 5)))

/-- The wire slots of Table 10-4 and PROGRAM_FLIT_RELEASE. -/
def Obligations.WaleFlitsArrive : Prop :=
  (∀ (s : State) (p : Nat), Wf s → s.alive p = true →
    let w := s.wle p
    let d := dieOf p
    let cmds : List (WKind × (RxErr → Instr)) := [(.idle, .waleIdleFlit p), (.side, .waleSideFlit p), (.prog, .waleProgFlit p),
      (.null, .waleNullFlit p), (.empty, .waleEmptyFlit p)]
    (∀ c ∈ cmds, ∀ e, (∀ f, w.wire.head? = some f → f.kind ≠ c.1) → exec (c.2 e) s = .next s) ∧
    (∀ f r, w.wire = f :: r →
      (w.rx.length < 32 ∨ timedEnd p = false) →
      let seen (e : RxErr) : Prop := f.cyc = true → isEWV p = true → f.ccl = (f.cc + (w.off + e.slip)) % 16
      let only (e : RxErr) : State := s.setWle p { w with wire := r, off := (w.off + e.slip) % 16 }
      let x : WlEnd := { w with wire := r, off := w.off % 16, xcredit := w.xcredit + (if f.credit then 1 else 0),
                                room := if isWeft ((walePeer p).elim 0 dieOf) then f.room else w.room }
      let kept (t : State) : Prop := { t with wl := s.wl, regs := s.regs, freeCtr := s.freeCtr } = s
      let clean : RxErr := ⟨[], [], 0, 0⟩
      (∀ c ∈ cmds, ∀ e, f.kind = c.1 → s.portAlive p = false → exec (c.2 e) s = .next (only e)) ∧
      (s.portAlive p = true →
        (∀ c ∈ cmds, f.kind = c.1 → f.kind ≠ .side → seen clean → (f.kind = .prog → timedEnd p = false → isH p = false → s.ceDrops d = false) →
          ∃ t, exec (c.2 clean) s = .next t ∧ kept t ∧
          (∀ k, k ≠ p → t.wle k = s.wle k) ∧
          t.wle p = if timedEnd p then (if f.kind = .idle ∧ f.cyc = false then x else { x with rx := w.rx ++ [f] })
            else if f.kind = .prog ∧ isH p = false ∧ w.xbuf.length < 4 then { x with xbuf := w.xbuf ++ [f.tags] } else x) ∧
        (f.kind = .prog → timedEnd p = false → isH p = false → s.ceDrops d = true → ∃ t, exec (.waleProgFlit p clean) s = .next t ∧ kept t ∧
          t.wle p = { x with owed := w.owed + 1 } ∧ t.rd (cePg d) R.CE_RX_DROP = min (s.rd (cePg d) R.CE_RX_DROP + f.tags.length) (2 ^ R.CE_RX_DROP.w - 1)) ∧
        (f.kind = .side → seen clean →
          let what := match f.what with | .cell c => SideWhat.cell { c with lines := f.lines, poi := c.poi || f.lines.any FLine.poi } | v => v
          let g : SideFlit := ⟨f.sclass, f.sdie, what, f.lines⟩
          let y : WlEnd := if f.cyc && isEWV p then { x with rx := w.rx ++ [{ f with kind := .idle, lines := [] }] } else x
          (f.sdie = d → (∀ c, what = .cell c → d < 8 → c.cls = 0 → c.dst ≠ s.pkgId) → ∃ t, exec (.waleSideFlit p clean) s = .next t ∧ kept t ∧
            t.wle p = { y with sideIn := w.sideIn ++ [g] }) ∧
          (f.sdie ≠ d → s.sideNext d f.sdie ≠ [] → ∃ t, exec (.waleSideFlit p clean) s = .next t ∧ kept t ∧
            ∃ a ∈ s.sideNext d f.sdie, (t.wle a).side = (s.wle a).side ++ [g] ∧
            (t.wle p).wire = r ∧ (t.wle p).rx = y.rx ∧ ∀ k, k ≠ p → k ≠ a → t.wle k = s.wle k)) ∧
        (∀ e : RxErr, f.kind = .prog → f.cyc = true → isEWV p = true → e.main = [] → e.sb = [] → ¬ seen e →
          ∃ t, exec (.waleProgFlit p e) s = .next t ∧
            (t.wle p).rx = w.rx ++ [{ f with
              lines := f.lines.map (fun l => { l with poi := true }), tags := f.tags.map (fun u => { u with poi := true }), req := none }] ∧
            t.rd p R.WL_SLIP_CNT = min (s.rd p R.WL_SLIP_CNT + 1) (2 ^ R.WL_SLIP_CNT.w - 1) ∧ (s.prog d = 2 → (t.od d).doubt = true)) ∧
        (∀ (e : RxErr) (m : LinkErr), f.kind = .prog → timedEnd p = true → e.main = [m] → e.sb = [] → seen e → (∀ u ∈ f.tags, u.lines.length = 8) →
          (∀ i, codeFix 64 8 m.wires = some ([], some i) → ∃ t, exec (.waleProgFlit p e) s = .next t ∧ (t.wle p).rx = w.rx ++ [f] ∧
            t.rd p R.WL_CE_CNT = min (s.rd p R.WL_CE_CNT + 1) (2 ^ R.WL_CE_CNT.w - 1)) ∧
          (codeFix 64 8 m.wires = none → ∃ t ls, exec (.waleProgFlit p e) s = .next t ∧ (t.wle p).rx = w.rx ++ [f.withBody ls] ∧
            ls.length = f.body.length ∧ (∀ i l, ls[i]? = some l → i = s.flitBit p m.ui m.module 0 / 256 → l.poi = true) ∧
            t.rd p R.WL_UE_CNT = min (s.rd p R.WL_UE_CNT + 1) (2 ^ R.WL_UE_CNT.w - 1))))) ∧
    (timedEnd p = true → s.portAlive p = true → ∀ f r, w.rx = f :: r →
      let c := f.cc + if isWeft d then 18 else 12
      let dest := (s.slotPlan d (pageOf p - 0x40) c).2
      let out : State := (s.toCc c).setWle p { w with rx := r }
      let asked : State := match f.req with
        | some q => { out with nbq := s.nbq ++ [⟨d, pageOf p - 0x40, c, q.1, f.lines, q.2⟩] }
        | none => out
      let isWr := match f.req with | some q => decide (bits q.1 1 1 = 1) | none => false
      (isWeft d = true → exec (.programFlitRelease p) s = .next (if f.kind ≠ .prog then out
        else if f.tags = [] then out.inc p R.WL_SLIP_CNT else (s.toCc c).setWle p { w with rx := r, xbuf := w.xbuf ++ [f.tags] })) ∧
      (isWeft d = false → f.kind = .prog → isWr = false → dest ≠ 31 → exec (.programFlitRelease p) s =
        .next { asked with arrivals := s.arrivals ++ [⟨d, pageOf p - 0x40, dest, c, f.lines⟩] }) ∧
      (isWeft d = false → (f.kind ≠ .prog ∨ isWr = true) → dest = 31 → exec (.programFlitRelease p) s = .next asked) ∧
      (isWeft d = false → (f.kind = .prog ∧ isWr = false ∧ dest = 31 ∨ (f.kind ≠ .prog ∨ isWr = true) ∧ dest ≠ 31 ∧ (s.od d).phaseOn = true ∧ progSlot c = true) →
        ∃ t, exec (.programFlitRelease p) s = .next t ∧ t.nbq = asked.nbq ∧ t.arrivals = s.arrivals ∧ (t.wle p).rx = r ∧
          t.rd (osTop d) R.OS_MESH_CNT = min (s.rd (osTop d) R.OS_MESH_CNT + 1) (2 ^ R.OS_MESH_CNT.w - 1)))) ∧
  (∀ (s : State) (d port : Nat), Wf s → d < 8 → port < 4 → s.prog d = 2 →
    let p := wlPg d port
    let dest := (s.slotPlan d port s.clk.cc).2
    (s.alive p = false ∨ s.portAlive p = false) → dest ≠ 31 → (port ≠ 3 ∨ dest ≠ 16) →
    (∀ a ∈ s.arrivals, ¬ (a.die = d ∧ a.port = port ∧ a.cyc = s.clk.cc)) →
    exec (.programFlitRelease p) s = .next { s with
      arrivals := s.arrivals ++ [⟨d, port, dest, s.clk.cc, List.replicate (s.flitLines p) poisonLine⟩] })

/-- WALE_TRAIN_FLIT, CLOCK_LOSS, TRAINING_PHASE_DONE, WALE_TRAIN_FAIL, HOLD_PATTERN and WALE_TOKEN_FLIT. -/
def Obligations.WaleTraining : Prop :=
  ∀ (s : State) (p q : Nat), Wf s → s.alive p = true → walePeer p = some q → p ≠ q →
    let w := s.wle p
    let st := s.rd p R.WL_STAT_STATE
    let ph := s.rd p R.WL_STAT_PHASE
    let inTrain (t : State) : Prop := t.rd p R.WL_STAT_STATE = 1 ∧ t.rd p R.WL_STAT_PHASE = 1 ∧
      t.rd p R.WL_TRAIN_CNT_ROUNDS = min (s.rd p R.WL_TRAIN_CNT_ROUNDS + 1) (2 ^ R.WL_TRAIN_CNT_ROUNDS.w - 1) ∧
      (t.wle p).rx = [] ∧ (t.wle p).entered = s.clk.tick ∧ (t.wle p).matched = 0 ∧
      (t.wle p).gen = (if wlLeads p then (w.gen + 1) % 64 else w.gen) ∧
      (t.wle p).repairs = (if s.bit p R.WL_CTRL_SCRATCH then [] else w.repairs) ∧
      (t.wle q).wire = (s.wle q).wire ++ [{ kind := .train, cyc := false, cc := s.clk.cc }] ∧ ∀ k, k ≠ p → k ≠ q → t.wle k = s.wle k
    let held (t : State) : Prop := t.rd p R.WL_STAT_STATE = 4 ∧ t.rd p R.WL_STAT_PHASE = 0 ∧ t.bit p R.WL_CTRL_RETRAIN = false ∧
      (t.wle p).rx = [] ∧ (t.wle p).matched = 0
    ((st = 2 ∨ st = 3) → (∃ t, exec (.clockLoss p) s = .next t ∧ inTrain t) ∧
      (∀ f r, w.wire = f :: r → f.kind = .train → ∃ t, exec (.waleTrainFlit p) s = .next t ∧ inTrain t)) ∧
    (∀ f r, w.wire = f :: r → f.kind = .train → st ≠ 2 → st ≠ 3 → exec (.waleTrainFlit p) s = .next (s.setWle p { w with wire := r })) ∧
    ((st = 1 ∨ st = 2) → ∃ t, exec (.waleTrainFail p) s = .next t ∧ held t ∧
      t.clk = (s.toTick (w.entered + max 1 (s.rd p R.WL_TRAIN_TMO_US) * 100)).clk) ∧
    ((st = 1 ∨ st = 2 ∨ st = 3) → s.rd q R.WL_STAT_STATE = 4 → ∃ t, exec (.holdPattern p) s = .next t ∧ held t ∧ t.clk = s.clk ∧
      (∀ k, k ≠ p → t.wle k = s.wle k)) ∧
    (st = 1 → (s.rd q R.WL_STAT_STATE = 1 ∨ s.rd q R.WL_STAT_STATE = 2) → ∀ (found : List WireTest) eyes slack,
      let cmd := Instr.trainingPhaseDone p found eyes slack
      let least := s.rd p R.WL_EYE_MIN_MIN
      let margin (m : Nat) : Nat := (found.filter fun t => decide (t.module = m) && w.tested m t.wire).foldl (fun a t => min a t.margin) (eyes.getD m 0)
      let eye (m : Nat) : Nat := if (s.askMods p).contains m then margin m % 256 else bits (s.rd p (Fld.idx R.WL_EYE (m / 4))) (8 * (m % 4)) 8
      let fails (m wire : Nat) : Bool := w.tested m wire && match found.find? (fun t => decide (t.module = m) && decide (t.wire = wire)) with
        | some t => t.err || decide (t.margin < least)
        | none => decide (eyes.getD m 0 < least)
      (ph = 1 → exec cmd s = .next ((if wlLeads p then s else s.setWle p { w with gen := (s.wle q).gen }).wr p R.WL_STAT_PHASE 2)) ∧
      (ph = 2 → exec cmd s = .next (s.wr p R.WL_STAT_PHASE 3)) ∧
      (ph = 3 → ∃ t, exec cmd s = .next t ∧ t.rd p R.WL_STAT_PHASE = 4 ∧
        t.wle p = { w with failed := (s.askMods p).flatMap fun m => ((List.range 76).filter (fails m)).map fun x => (m, x) } ∧
        ∀ i, i < 4 → t.rd p (Fld.idx R.WL_EYE i) = eye (4 * i) + eye (4 * i + 1) * 256 + eye (4 * i + 2) * 256 ^ 2 + eye (4 * i + 3) * 256 ^ 3) ∧
      (ph = 4 →
        let w8 := s.bit p R.WL_CTRL_WIDTH8 && !isH p
        let e := (s.wb p R.WL_STAT_W8 w8).wb p R.WL_STAT_HALF (w8 && s.bit p R.WL_CTRL_HALF)
        let n := e.wlMods p
        let dead := (w.failed.filter fun f => decide (72 ≤ f.2)).map fun f => (f.1, f.2 - 72)
        let fits := (assignRepairs dead w (w.failed.filter fun f => decide (f.2 < 72))).filter fun x =>
          decide (((List.range n).map fun i => x.repairsIn 0 (e.wlBase p + i)).sum + dead.length + sbWidth n ≤ 4 * n)
        (fits = none → ∃ t, exec cmd s = .next t ∧ held t) ∧
        (∀ x, fits = some x → ∃ t, exec cmd s = .next t ∧ t.rd p R.WL_STAT_PHASE = 5 ∧ t.bit p R.WL_STAT_W8 = w8 ∧
          t.wle p = { x with failed := [] } ∧
          (swf (fun _ => 0x7F) (s.wle q).repairs = true → ∀ i, i < 64 →
            look (fun _ => 0x7F) (t.wle q).repairs (64 + i) = look (fun _ => 0x7F) x.repairs i))) ∧
      (ph = 5 → ∃ t, exec cmd s = .next t ∧ t.rd p R.WL_STAT_SLACK = slack % 2 ^ R.WL_STAT_SLACK.w ∧ (slack = 0 → held t) ∧
        (0 < slack → t.rd p R.WL_STAT_STATE = 2 ∧ t.rd p R.WL_STAT_PHASE = 0 ∧ t.bit p R.WL_CTRL_RETRAIN = false ∧
          t.rd p R.WL_TOKEN_LOCAL = s.wlToken p % 2 ^ R.WL_TOKEN_LOCAL.w ∧
          t.wle p = { w with asked := false, wire := w.wire.filter fun f => decide (f.kind ≠ .train) } ∧ ∀ k, k ≠ p → t.wle k = s.wle k))) ∧
    (∀ n, st = 2 → (s.rd q R.WL_STAT_STATE = 2 ∨ s.rd q R.WL_STAT_STATE = 3) → 0 < n →
      let same := decide (s.wlToken q = s.rd p R.WL_TOKEN_LOCAL)
      ∃ t, exec (.waleTokenFlit p n) s = .next t ∧ t.rd p R.WL_TOKEN_REMOTE = s.wlToken q % 2 ^ R.WL_TOKEN_REMOTE.w ∧ t.clk = s.clk ∧
        (same = true → w.matched + n < 64 → t.wle p = { w with matched := w.matched + n } ∧ t.rd p R.WL_STAT_STATE = 2) ∧
        (same = true → 64 ≤ w.matched + n → t.rd p R.WL_STAT_STATE = 3 ∧
          t.wle p = { w with matched := 64, xcredit := 4, xbuf := [], owed := 0, rx := [], off := 0 }) ∧
        (same = false → held t ∧ t.rd q R.WL_STAT_STATE = 4 ∧
          t.rd p R.WL_TRAIN_CNT_MISMATCH = min (s.rd p R.WL_TRAIN_CNT_MISMATCH + 1) (2 ^ R.WL_TRAIN_CNT_MISMATCH.w - 1) ∧
          t.rd q R.WL_TRAIN_CNT_MISMATCH = min (s.rd q R.WL_TRAIN_CNT_MISMATCH + 1) (2 ^ R.WL_TRAIN_CNT_MISMATCH.w - 1)))

/-- INPUT_LIT to PLAUSIBILITY_CHECK and the loopback rows (Table 11-2). -/
def Obligations.LanesAcquireLockAndAdapt : Prop :=
  ∀ (s : State) (w f k dir : Nat), Wf s → s.laneUp w f k dir = true →
    let x := s.lane w f k dir
    let key := laneKey w f k dir
    let now := s.clk.tick
    let seed := look calZero s.cal (key * 4)
    let same (e t : State) : Prop := ∀ q, q ≠ key → look laneZero t.lanes q = look laneZero e.lanes q
    let sweep (x : Lane) (since : Nat) : Lane :=
      { x with st := .acquire, sync := false, sweeping := true, since := since, sweeps := 0, hist := [], heat := seed, dfrz := false }
    let e := if dir = 1 then s.losFlush w f else s
    let lit : Lane := { e.lane w f k dir with lit := true }
    let unlit : Lane := { e.lane w f k dir with lit := false }
    (∀ since, (dir = 1 ∨ (s.rd (wfTop w) R.WF_LASER_ON_ON).testBit k = true) →
      let u := s.toTick (since + 10000)
      ∃ t, exec (.inputLit w f k dir since) s = .next t ∧ same e t ∧
        (x.st = .parked → s.planeOn w f = true → t.lane w f k dir = sweep lit now ∧ t.clk = s.clk) ∧
        (x.st = .dark → t.lane w f k dir = sweep lit u.clk.tick ∧ t.clk = u.clk) ∧
        ((x.st = .parked ∧ s.planeOn w f = false ∨ x.st ≠ .parked ∧ x.st ≠ .dark) → t.lane w f k dir = lit ∧ t.clk = s.clk)) ∧
    (s.planeOn w f = true → ∃ t, exec (.inputDark w f k dir) s = .next t ∧ t.clk = s.clk ∧
      ((x.st = .locked ∨ x.st = .frozen) → (dir = 0 → same e t ∧ t.lane w f k dir = { unlit with st := .dark, sync := false, darkAt := none }) ∧
        (t.lane w f k dir).st = .dark ∧ (t.lane w f k dir).sync = false ∧ (t.lane w f k dir).lit = false ∧ (t.lane w f k dir).heat = x.heat) ∧
      (x.st ≠ .locked → x.st ≠ .frozen → t = e.setLane w f k dir unlit)) ∧
    (s.planeOn w f = false → exec (.inputDark w f k dir) s = .next (s.setLane w f k dir { x with lit := false })) ∧
    (∀ found code peak pow, x.st = .acquire → x.sweeping = true →
      let rng := s.rd (wfTop w) R.WF_CAL_LIM_SWEEP
      let hit := found && decide (code ≤ seed + rng) && decide (seed ≤ code + rng) && decide (code < 4096)
      let y : Lane := { x with heat := code, peak := peak % 4096, pow := pow % 65536, sweeping := false, sweeps := 0 }
      let n := if x.lit then x.sweeps + 1 else 0
      ∃ t, exec (.acquireDone w f k dir found code peak pow) s = .next t ∧ same s t ∧
        (hit = true → t.clk = s.clk ∧ t.lane w f k dir = if dir = 0 then { y with st := .locked, since := now, hist := [(now, code)] }
          else { y with st := .slip, sync := false, slips := 0, thr := look calZero s.cal (key * 4 + 2), since := now }) ∧
        (hit = false → t.clk = (s.toTick (x.since + 200000)).clk ∧
          t.lane w f k dir = { x with sweeping := false, sweeps := if n = 10 then 0 else n })) ∧
    (x.st = .acquire → x.sweeping = false →
      let u := s.toTick (x.since + 1200000)
      exec (.acquireRetry w f k dir) s = .next (u.setLane w f k dir { x with sweeping := true, since := u.clk.tick })) ∧
    (dir = 1 → x.st = .slip → ∃ t, exec (.blockLock w f k) s = .next t ∧ same s t ∧
      t.lane w f k 1 = { x with sync := true, st := .locked, since := now, hist := [(now, x.heat)] } ∧
      (t.rd (fibPg w f) R.WF_FIB_SYNC_SYNC).testBit k = true ∧ (k = 0 → t.fibre w f = { s.fibre w f with idRun := 0, clean := now })) ∧
    (∀ bad, dir = 1 → x.sync = true → 16 ≤ bad → ∃ t, exec (.lockLoss w f k bad) s = .next t ∧ same s t ∧
      (let thr := look calZero s.cal (key * 4 + 2)
       let errs := min (x.hdrErr + bad) (2 ^ 32 - 1)
       t.lane w f k 1 = { x with hdrErr := errs, st := .slip, sync := false, slips := 0, thr := thr, since := now })) ∧
    (∀ h, dir = 1 → k = 0 → s.acting = some h → s.hpEpoch h < s.rd (fibPg w f) R.PG_EPOCH_EPOCH →
      exec (.wordAlignRound w f) s = .next ((s.reject (fibPg w f) 0x108 3).meetEpoch h (s.rd (fibPg w f) R.PG_EPOCH_EPOCH))) ∧
    (∀ h, dir = 1 → k = 0 → s.acting = some h → s.rd (fibPg w f) R.PG_EPOCH_EPOCH ≤ s.hpEpoch h →
      ∃ t, exec (.wordAlignRound w f) s = .next t ∧ t.clk = s.clk ∧ ∀ i, i < 16 →
      let y := s.lane w f i 1
      let first := look calZero s.cal (laneKey w f i 1 * 4)
      t.lane w f i 1 = if y.st = .slip ∧ y.lit = true ∧ y.alignAt ≤ now then (if 66 ≤ y.slips
          then { y with alignAt := now + 1000000, st := .acquire, sync := false, sweeping := true, since := now, sweeps := 0, hist := [], heat := first, dfrz := false }
          else { y with slips := y.slips + 1, sync := false }) else y) ∧
    (∀ v : Window, (x.st = .locked ∨ x.st = .frozen) →
      let out := decide (v.ones * 100 < 45 * 2 ^ 20) || decide (55 * 2 ^ 20 < v.ones * 100)
      let small := decide (v.mean1 < v.mean0 + s.rd (wfTop w) R.WF_CAL_LIM2_EYE_MIN)
      ∃ t, exec (.adaptationWindowEnd w f k dir v) s = .next t ∧ same s t ∧ t.clk = s.clk ∧
        let y := t.lane w f k dir
        y.st = x.st ∧ y.dens = min 255 (v.ones * 256 / 2 ^ 20) ∧ y.now = v.now % 256 ∧ y.er = v.er % 256 ∧
        (out = true → y.dfrz = true ∧ y.calm = 0 ∧ y.heat = x.heat ∧ y.thr = x.thr) ∧
        (out = false → x.dfrz = true → y.dfrz = decide (x.calm + 1 ≠ 8) ∧ y.heat = x.heat ∧ y.thr = x.thr ∧
          y.calm = if x.calm + 1 = 8 then 0 else x.calm + 1) ∧
        (out = false → x.dfrz = false → y.dfrz = false ∧ y.heat = (if x.st = .locked then ringStep x.heat v.want else x.heat) ∧
          (dir = 1 → y.eye = min 1023 (v.mean1 - v.mean0) ∧ y.thr = if small then x.thr else thrStep x.thr v.mean1 v.mean0 % 1024))) ∧
    (x.st = .locked →
      let old := (x.hist.filter fun h => decide (h.1 + 1000000 ≤ now)).getLast?
      (old = none → exec (.plausibilityCheck w f k dir) s = .next s) ∧
      (∀ h, old = some h → (x.heat - h.2) + (h.2 - x.heat) ≤ s.rd (wfTop w) R.WF_RING_PLAUS_STEP → exec (.plausibilityCheck w f k dir) s = .next s) ∧
      (∀ h, old = some h → s.rd (wfTop w) R.WF_RING_PLAUS_STEP < (x.heat - h.2) + (h.2 - x.heat) →
        ∃ t, exec (.plausibilityCheck w f k dir) s = .next t ∧ same s t ∧ t.clk = s.clk ∧
          t.lane w f k dir = { x with st := .frozen, heat := h.2, hist := [] })) ∧
    (∀ word n, dir = 1 → k = 0 → bits word 0 8 ≠ 0x4C → exec (.loopbackIdentity w f word n) s = .next s) ∧
    (∀ word n, dir = 1 → k = 0 → x.st = .locked → 0 < n → bits word 0 8 = 0x4C →
      let pkg := bits word 8 8
      let plane := bits word 16 7
      let p := fibPg w f
      let run := if pkg = s.rd pkg0 R.PKG_IDENT_PKG_ID ∧ plane = 16 * w + f then min 64 ((s.fibre w f).idRun + n) else 0
      let ok := decide (64 ≤ run) && decide ((s.fibre w f).clean + max 1 (min 1000 (s.rd (wfTop w) R.WF_LOOP_WIN_MS)) * 100000 ≤ now)
      ∃ t, exec (.loopbackIdentity w f word n) s = .next t ∧ t.fibre w f = { s.fibre w f with idRun := run, spent := ok || (s.fibre w f).spent } ∧
        t.rd p R.WF_FIB_LOOP_RX_PKG = pkg ∧ t.rd p R.WF_FIB_LOOP_RX_PLANE = plane ∧ t.bit p R.WF_FIB_LOOP_ID_OK = decide (64 ≤ run) ∧
        t.bit p R.WF_FIB_STAT_LOOP_OK = ok ∧ t.lanes = s.lanes) ∧
    (bits (s.idWord w f) 0 8 = 0x4C ∧ bits (s.idWord w f) 8 8 = s.rd pkg0 R.PKG_IDENT_PKG_ID ∧ bits (s.idWord w f) 16 7 = 16 * w + f ∧
      bits (s.idWord w f) 23 9 = 0 ∧ bits (s.idWord w f) 32 32 = s.idSent w f) ∧
    (∀ t0, dir = 1 → k = 0 → (s.wf w).on0 = some t0 → s.planeOn w f = true → (s.fibre w f).spent = true → exec (.loopbackTimeout w f) s = .next s) ∧
    (∀ t0, dir = 1 → k = 0 → (s.wf w).on0 = some t0 → s.planeOn w f = true → (s.fibre w f).spent = false →
      ∃ t, exec (.loopbackTimeout w f) s = .next t ∧ t.clk = (s.toTick (t0 + 100000000)).clk ∧ t.planeOn w f = false ∧
        t.bit (fibPg w f) R.WF_FIB_STAT_GATE = false ∧ ∀ i j, i < 16 → j < 2 → (t.lane w f i j).st = .parked)

/-- CAL_RECOMPUTE, CAL_BANK_EXCHANGE and the laser events of a Reed die. -/
def Obligations.CalibrationAndLasers : Prop :=
  ∀ (s : State), Wf s →
    (∀ d h, (8 ≤ d ∧ d < 18) → s.alive (pg d 0) = true → s.acting = some h → s.rd (pg d 0) R.PG_EPOCH_EPOCH ≤ s.hpEpoch h →
      calMoved (s.calLast d).1 ((List.range 8).map (s.reading d)) = false → exec (.calRecompute d) s = .next (s.epochUp (pg d 0) (s.hpEpoch h))) ∧
    (∀ w h, w < 8 → s.alive (wfTop w) = true → s.acting = some h → s.rd (wfTop w) R.PG_EPOCH_EPOCH ≤ s.hpEpoch h →
      calMoved (s.wf w).calT ((List.range 8).map (s.reading (8 + w))) = true →
      let u := match (s.wf w).calAt with | some t0 => s.toTick (t0 + 10000000) | none => s
      ∃ t, exec (.calRecompute (8 + w)) s = .next t ∧ t.cal = s.cal ∧ t.clk = u.clk ∧ ∀ f i, f < 16 → i < 128 →
        look calZero t.calSh ((w * 16 + f) * 128 + i) = interpolate (fun n => Config.calSet (8 + w) (s.rd (wfTop w) R.WF_CAL_CTRL_GEN % 4) n (f * 128 + i))
          (u.reading (8 + w) (f / 2)) % 65536) ∧
    (∀ r h, r < 2 → s.alive (rdTop r) = true → s.acting = some h → s.rd (rdTop r) R.PG_EPOCH_EPOCH ≤ s.hpEpoch h →
      calMoved (s.reed r).calT ((List.range 8).map (s.reading (0x10 + r))) = true →
      let u := match (s.reed r).calAt with | some t0 => s.toTick (t0 + 10000000) | none => s
      ∃ t, exec (.calRecompute (0x10 + r)) s = .next t ∧ t.clk = u.clk ∧ ∀ k, k < 16 →
        let p := rdPg r k
        let at' := u.reading (0x10 + r) (k / 2)
        let item (i : Nat) := interpolate (fun n => Config.calSet (0x10 + r) 0 n (k * 4 + s.rd p R.RD_L_STAT_BANK * 2 + i)) at'
        t.rd p R.RD_L_BIAS_SHADOW = item 0 % 1024 ∧ t.rd p R.RD_L_HEAT_SHADOW = item 1 % 4096 ∧
        t.rd p R.RD_L_BIAS_ACT = s.rd p R.RD_L_BIAS_ACT ∧ t.rd p R.RD_L_HEAT_ACT = s.rd p R.RD_L_HEAT_ACT) ∧
    (∀ w, w < 8 → s.alive (wfTop w) = true → (s.wf w).armed = true →
      let p := wfTop w
      ∃ t, exec (.calBankExchange (8 + w)) s = .next t ∧ t.clk = s.toFrame.clk ∧ (t.wf w).armed = false ∧ t.bit p R.WF_CAL_CTRL_COMMIT = false ∧
        t.rd p R.WF_CAL_STAT_BANK = 1 - s.rd p R.WF_CAL_STAT_BANK ∧
        t.rd p R.WF_CAL_STAT_COMMIT_CNT = (s.rd p R.WF_CAL_STAT_COMMIT_CNT + 1) % 65536 ∧
        (∀ key, look calZero t.calSh key = look calZero s.calSh key) ∧
        (∀ key, look calZero t.cal key = look calZero (if w * 2048 ≤ key ∧ key < (w + 1) * 2048 then s.calSh else s.cal) key)) ∧
    (∀ r, r < 2 → s.alive (rdTop r) = true → (s.reed r).armed = true →
      ∃ t, exec (.calBankExchange (0x10 + r)) s = .next t ∧ t.clk = s.toFrame.clk ∧ (t.reed r).armed = false ∧
        t.bit (rdTop r) R.RD_CAL_CTRL_COMMIT = false ∧ t.bit (rdTop r) R.RD_CAL_CTRL_RECAL = false ∧ ∀ k, k < 16 →
          let p := rdPg r k
          let on := decide (s.rd p R.RD_L_STAT_STATE = 2)
          t.rd p R.RD_L_BIAS_ACT = (if on then s.rd p R.RD_L_BIAS_SHADOW % 1024 else s.rd p R.RD_L_BIAS_ACT) ∧
          t.rd p R.RD_L_HEAT_ACT = if on then s.rd p R.RD_L_HEAT_SHADOW % 4096 else s.rd p R.RD_L_HEAT_ACT) ∧
    (∀ r t0, r < 2 → s.alive (rdTop r) = true → s.bit (rdTop r) R.RD_CTRL_LIGHT_OK = true → (s.reed r).lightAt = some t0 → (s.reed r).groups < 4 →
      let g := (s.reed r).groups
      ∃ t, exec (.laserGroupStart r) s = .next t ∧ t.clk = (s.toTick (t0 + 500000 * g)).clk ∧ (t.reed r).groups = g + 1 ∧ ∀ i, i < 4 →
        let p := rdPg r (4 * g + i)
        t.bit p R.RD_L_CTRL_ON = true ∧
        (s.bit (rdTop r) R.RD_CTRL_ALL_OFF = false → s.rd p R.RD_L_STAT_STATE = 0 → s.bankFailed r (4 * g + i) = false → t.rd p R.RD_L_STAT_STATE = 1)) ∧
    (∀ r k out since driver, r < 2 → k < 16 → s.alive (rdTop r) = true → s.alive (rdPg r k) = true →
      let p := rdPg r k
      let st := s.rd p R.RD_L_STAT_STATE
      let tgt := s.rd (rdTop r) R.RD_PWR_TGT_MW * 10
      let fed := (List.range 8).filter fun w => (s.rd (rdTop r) R.RD_IDENT_FEEDS).testBit w
      let b := s.bit p R.RD_L_STAT_BANK || decide (st = 3)
      let failed (cmd : Instr) (at' : Nat) : Prop := ∃ t, exec cmd s = .next t ∧ t.clk = (s.toTick at').clk ∧
        t.bit p (if b then R.RD_L_STAT_B_FAIL else R.RD_L_STAT_A_FAIL) = true ∧ (t.rd (rdTop r) R.RD_STAT_ON).testBit k = false ∧
        t.rd p R.RD_L_PWR_OUT = 0 ∧
        t.rd p R.RD_L_STAT_STATE = if b || s.bit p R.RD_L_STAT_B_FAIL then 4 else if s.bit (rdTop r) R.RD_CTRL_AUTO_SPARE then 3 else 0
      ((st = 1 ∨ st = 3) → 20 * ((out - tgt) + (tgt - out)) ≤ tgt →
        let u := s.toTick ((s.laserSt r k).since + (s.rd (rdTop r) R.RD_WARM_MS + 1) * 100000)
        ∃ t, exec (.laserWarmEnd r k out) s = .next t ∧ t.clk = u.clk ∧ t.rd p R.RD_L_STAT_STATE = 2 ∧ t.rd p R.RD_L_PWR_OUT = out % 4096 ∧
          (t.rd (rdTop r) R.RD_STAT_ON).testBit k = true ∧ t.notes = s.notes ++ fed.map (fun w => (8 + w, Note.laser r k true)) ∧
          (st = 3 → t.bit p R.RD_L_STAT_BANK = true ∧ (t.rd (rdTop r) R.RD_STAT_BANK_B).testBit k = true ∧ t.bit p R.RD_L_CTRL_SPARE = false ∧
            t.rd p R.RD_L_SPARE_US = min ((u.clk.tick - (s.laserSt r k).failAt) / 100) (2 ^ 32 - 1))) ∧
      (let low := out * 100 < tgt * s.rd (rdTop r) R.RD_PWR_TGT_FAIL_PCT ∧ (st = 2 ∨ (s.laserSt r k).since + s.rd (rdTop r) R.RD_WARM_MS * 100000 ≤ since)
       ((st = 1 ∨ st = 2 ∨ st = 3) → (driver = true ∨ low) → failed (.rdLaserFail r k since out driver) (if driver then 0 else since + 10000)) ∧
       ((st = 0 ∨ st = 4 ∨ driver = false ∧ ¬ low) → exec (.rdLaserFail r k since out driver) s = .next s)) ∧
      (st = 2 → out * 100 < tgt * s.rd (rdTop r) R.RD_PWR_TGT_LOW_PCT →
        exec (.rdPwrLow r k since out) s = .next (((s.toTick (since + 1000000)).wr p R.RD_L_PWR_OUT out).raise p 1)) ∧
      (st = 3 → failed (.rdSwitchFail r k) ((s.laserSt r k).since + (s.rd (rdTop r) R.RD_WARM_MS + 2) * 100000)))

/-- TRAIN_CELL to RESERVED_CELL (Table 12-3). -/
def Obligations.SeberCellsArrive : Prop :=
  ∀ (s : State) (w k f n : Nat) (c : Cell), Wf s → w < 8 → 0 < k → k < 16 →
    let p := subPg w k
    let ls := cellLs c
    let x := s.sub w k
    let st := s.rd p R.SB_STAT_STATE
    let named (e : State) (y : State) : State := if e.sbUp w k then y else e
    let rows : List (Instr × List Nat × (State → State)) := [
      (.trainCell w k f c, [6], fun e => e.trainIn w k c), (.idleCell w k f n c, [5], fun e => e.sbGood w k n c),
      (.dataCell w k f c, [0], fun e => e.sbTake w k c),
      (.creditCell w k f c, [3], fun e => named e ((e.setSub w k ((List.range 4).foldl (fun y i => y.creditIn i (bits (cellBits c) (16 * i) 14))
        (e.sub w k))).sbGood w k 1 c)),
      (.lanesetCell w k f c, [4], fun e => if e.sbUp w k && decide (e.sbSt w k ≠ 2) then e.laneSet w k ls else e),
      (.relayCell w k f c, [7], fun e => e.sbTake w k c),
      (.reservedCell w k f c, [0xB, 0xC, 0xD, 0xE, 0xF], fun e => e.inc p R.SB_DUP_CNT)]
    let all := rows.map Prod.fst ++ [.ackCell w k f c, .nakCell w k f c [] 0, .lsackCell w k f c, .collideCell w k f c, .drainCell w k f c]
    let good := s.sbHears w k = true ∧ f < 16 ∧ c.crc = cellSum c
    let e := (s.sbHear w k f c).1
    let fin (g : State) : State := if g.sbUp w k then g.sbLoss w k else g
    ((s.sbHears w k = false ∨ 16 ≤ f) → ∀ i ∈ all, exec i s = .next s) ∧
    (s.sbHears w k = true → f < 16 → c.crc ≠ cellSum c → ∀ i ∈ all, ∃ t, exec i s = .next t ∧ t.clk = s.clk ∧ t.out = s.out ∧
      t.rd p R.SB_CRC_CNT = min (s.rd p R.SB_CRC_CNT + 1) (2 ^ R.SB_CRC_CNT.w - 1) ∧ (t.sub w k).good = 0 ∧ (t.sub w k).pool = x.pool ∧
      ((s.rd p R.SB_MAP_RX).testBit f = true → ((t.sub w k).lane' f).now = min ((x.lane' f).now + 1) 65535)) ∧
    (good → ∀ r ∈ rows, exec r.1 s = .next (fin (if r.2.1.contains c.typ then r.2.2 e else e))) ∧
    (good → c.typ = 6 → st = 1 →
      let v := cellBits c
      let m := bits v 32 16 &&& s.txOk w k
      bits v 0 8 = s.peerPkg w k → bits v 8 3 = w → bits v 12 4 = (16 - k) % 16 → bits v 17 1 = s.rd (sbPg w) R.SB_COM_CTRL_CLUSTER →
      bits v 24 5 = s.rd (sbPg w) R.SB_COM_ID_POD_SIZE → bits v 16 1 = 1 → m ≠ 0 →
      ∃ t, exec (.trainCell w k f c) s = .next t ∧ t.rd p R.SB_STAT_STATE = 2 ∧ t.rd p R.SB_MAP_TX = m % 65536 ∧
        t.rd p R.SB_MAP_RX = s.rxOk w k % 65536 ∧ (t.sub w k).txLim = [0, 256, 64, 32] ∧ (t.sub w k).txCnt = [0, 0, 0, 0] ∧
        (t.sub w k).rxLim = [0, 256, 64, 32] ∧ (t.sub w k).heard = some s.clk.tick ∧ t.rd p R.SB_TSEQ_NEXT = 0 ∧ t.rd p R.SB_RSEQ_CUMACK = 0) ∧
    (good → c.typ = 5 → c.epoch = 0 → st = 2 → ∃ t, exec (.idleCell w k f n c) s = .next t ∧
      (x.good + n < 64 → t.rd p R.SB_STAT_STATE = 2 ∧ (t.sub w k).good = x.good + n) ∧
      (64 ≤ x.good + n → t.rd p R.SB_STAT_STATE = 3 ∧ (t.sub w k).good = 64)) ∧
    (good → c.typ = 0 → st = 3 → c.epoch = s.rd p R.SB_EPOCH_RX → c.seq < 65536 →
      let d := (c.seq + 65536 - s.rd p R.SB_RSEQ_CUMACK) % 65536
      (c.seq = s.rd p R.SB_RSEQ_CUMACK → x.got = [] → x.pool = [] → c.dst = s.rd pkg0 R.PKG_IDENT_PKG_ID → c.rdie = w →
        ∃ t, exec (.dataCell w k f c) s = .next t ∧ t.rd p R.SB_RSEQ_CUMACK = (c.seq + 1) % 65536 ∧ (t.sub w k).pool = [⟨c.seq, c⟩] ∧
          (t.sub w k).got = []) ∧
      (65536 - 4096 ≤ d → ∃ t, exec (.dataCell w k f c) s = .next t ∧ t.rd p R.SB_RSEQ_CUMACK = s.rd p R.SB_RSEQ_CUMACK ∧ (t.sub w k).pool = x.pool ∧
        t.rd p R.SB_DUP_CNT = min (s.rd p R.SB_DUP_CNT + 1) (2 ^ R.SB_DUP_CNT.w - 1))) ∧
    (good → c.typ = 1 → (st = 2 ∨ st = 3 ∨ st = 4) → c.seq < 65536 → c.ack < 65536 → c.ack = s.rd p R.SB_TSEQ_OLDEST →
      let old := s.rd p R.SB_TSEQ_OLDEST
      let m := seqDist old c.seq
      0 < m → m ≤ seqDist old (s.rd p R.SB_TSEQ_NEXT) → ∃ t, exec (.ackCell w k f c) s = .next t ∧ t.rd p R.SB_TSEQ_OLDEST = c.seq ∧
        (t.sub w k).replay = x.replay.filter fun r => !(decide (seqDist old r.cell.seq < m))) ∧
    (good → c.typ = 2 → (st = 2 ∨ st = 3 ∨ st = 4) → ∃ t, exec (.nakCell w k f c [] 0) s = .next t ∧
      t.rd p R.SB_NAK_CNT_RECEIVED = min (s.rd p R.SB_NAK_CNT_RECEIVED + 1) (2 ^ R.SB_NAK_CNT_RECEIVED.w - 1)) ∧
    (good → c.typ = 4 → (st = 3 ∨ st = 4) → x.change = none → ls.commit = true → ls.dir ≠ s.txDir w k →
      ls.epoch = (s.rd p R.SB_EPOCH_RX + 1) % 16 → ∃ t, exec (.lanesetCell w k f c) s = .next t ∧ t.rd p R.SB_MAP_RX = ls.map ∧
        t.rd p R.SB_EPOCH_RX = ls.epoch ∧ t.rd p R.SB_LS_CNT_APPLIED = min (s.rd p R.SB_LS_CNT_APPLIED + 1) (2 ^ R.SB_LS_CNT_APPLIED.w - 1)) ∧
    (∀ o, good → c.typ = 8 → x.change = some o → o.commit = true → ls.map = o.map → ls.epoch = o.epoch →
      ∃ t, exec (.lsackCell w k f c) s = .next t ∧ t.rd p R.SB_MAP_TX = o.map ∧ t.rd p R.SB_EPOCH_TX = o.epoch ∧
        t.rd p R.SB_LS_CNT_APPLIED = min (s.rd p R.SB_LS_CNT_APPLIED + 1) (2 ^ R.SB_LS_CNT_APPLIED.w - 1)) ∧
    (good → c.typ = 9 → x.change ≠ none → s.peerPkg w k < s.rd pkg0 R.PKG_IDENT_PKG_ID → ∃ t, exec (.collideCell w k f c) s = .next t ∧
      (t.sub w k).change = none ∧ t.rd p R.SB_LS_CNT_COLLIDED = min (s.rd p R.SB_LS_CNT_COLLIDED + 1) (2 ^ R.SB_LS_CNT_COLLIDED.w - 1)) ∧
    (good → c.typ = 0xA → st = 3 → c.epoch = s.rd p R.SB_EPOCH_RX → c.seq < 65536 → c.seq = s.rd p R.SB_RSEQ_CUMACK → x.got = [] →
      ∃ t, exec (.drainCell w k f c) s = .next t ∧ t.rd p R.SB_STAT_STATE = 4 ∧ (t.sub w k).peerDrain = true ∧
        t.rd p R.SB_RSEQ_CUMACK = (c.seq + 1) % 65536)

/-- The sending rows of chapter 12 and its timers. -/
def Obligations.SeberSendsAndTimers : Prop :=
  ∀ (s : State) (w k f : Nat), Wf s → s.sbOk w k = true → f < 16 →
    let p := subPg w k
    let x := s.sub w k
    let st := s.rd p R.SB_STAT_STATE
    let ms (v : Nat) : Nat := max 1 v * 100000
    let sent (e t : State) : List (Nat × Nat × Nat × Nat) :=
      (t.out.cells.drop e.out.cells.length).map fun q => (q.1, q.2.1, q.2.2.typ, q.2.2.seq)
    let empty (t : State) : Prop := t.rd p R.SB_MAP_TX = 0 ∧ t.rd p R.SB_MAP_RX = 0
    (let e := s.sbWake w k
     e.sbHears w k = true → e.rd p R.SB_STAT_STATE = 1 →
      let u := e.toTick (e.sub w k).trainAt
      ∃ t, exec (.seberTrainSend w k) s = .next t ∧ t.clk = u.clk ∧
        (t.sub w k).trainAt = u.clk.tick + max 1 (min 1000 (s.rd (sbPg w) R.SB_SEEK_INT_MS)) * 100000 ∧
        sent e t = ((List.range 16).filter fun i => decide ((s.lane w i k 0).st = .locked)).map fun i => (w * 16 + k, i, 6, e.rd p R.SB_TSEQ_NEXT)) ∧
    (st = 2 → ∃ t, exec (.lockedTimeout w k) s = .next t ∧ t.clk = (s.toTick (x.entered + 100000)).clk ∧ t.rd p R.SB_STAT_STATE = 1 ∧ empty t) ∧
    (let e := s.sbTakeIn w
     let y := e.sub w k
     ∀ cls i q, y.pickClass = some cls → nextLane (s.rd p R.SB_MAP_TX) y.lane = some i → y.queue.find? (fun c => decide (c.1.cls = cls)) = some q →
      (st = 3 ∨ st = 4) → seqDist (s.rd p R.SB_TSEQ_OLDEST) (s.rd p R.SB_TSEQ_NEXT) < 4096 →
      let seq := s.rd p R.SB_TSEQ_NEXT
      ∃ t, exec (.cellTransmit w k) s = .next t ∧ t.clk = s.clk ∧ t.rd p R.SB_TSEQ_NEXT = (seq + 1) % 65536 ∧
        t.rd p R.SB_TX_CELLS = (s.rd p R.SB_TX_CELLS + 1) % 2 ^ 64 ∧ sent e t = [(w * 16 + k, i, q.1.typ, seq)] ∧
        (t.sub w k).queue = y.queue.erase q ∧ (t.sub w k).replay = y.replay ++ [⟨{ q.1 with seq := seq }, s.clk.tick, q.2⟩] ∧
        (t.sub w k).txCnt = y.txCnt.set cls ((y.txCnt.getD cls 0 + 1) % 2 ^ 14) ∧ (t.sub w k).lane = i) ∧
    (let e := s.sbForward w k 256
     let port := pg (8 + w) 0x40
     let per := if s.bit port R.WL_STAT_W8 then 2 else 5
     ∀ n cls, 0 < n → cls < 4 →
      (cls = 0 → ((e.wle port).xcredit = 0 ∨ e.portAlive port = false) → exec (.cellDelivery w k cls n []) s = .next e) ∧
      (let r := e.sbDue w k cls (if cls = 0 then min n per else 1) 0
       (r.2 = [] → (cls ≠ 0 ∨ (e.wle port).xcredit ≠ 0 ∧ e.portAlive port = true) → exec (.cellDelivery w k cls n []) s = .next r.1) ∧
       (r.2 ≠ [] → cls = 0 → (e.wle port).xcredit ≠ 0 → e.portAlive port = true → ∃ t, exec (.cellDelivery w k cls n []) s = .next t ∧
        r.2.length ≤ per ∧ (t.wle port).xcredit = (e.wle port).xcredit - 1 ∧ (t.sub w k).pool = (r.1.sub w k).pool ∧
        ∃ fl, (t.wle (wlPg w 3)).wire = (e.wle (wlPg w 3)).wire ++ [fl] ∧ fl.kind = .prog ∧
          fl.tags = r.2.map fun c => ⟨c.src, c.off, c.fin, c.poi, c.lines⟩) ∧
       (∀ c, r.2 = [c] → cls ≠ 0 → exec (.cellDelivery w k cls n []) s =
        .next (r.1.sideQueue port ⟨if cls = 1 then 1 else 2, w, .cell c, c.lines⟩)))) ∧
    (∀ r rs, x.replay = r :: rs → s.sbUp w k = true →
      let t0 := rs.foldl (fun a y => min a y.sent) r.sent
      ∃ t, exec (.ackTimeout w k [] 0) s = .next t ∧ t.clk = (s.toTick (t0 + max 1 (s.rd p R.SB_ACK_TMO_US) * 100)).clk ∧
        t.rd p R.SB_ACKTMO_CNT = min (s.rd p R.SB_ACKTMO_CNT + 1) (2 ^ R.SB_ACKTMO_CNT.w - 1) ∧
        (s.rd p R.SB_MAP_TX &&& s.txOk w k ≠ 0 → ∃ y ∈ (t.sub w k).replay, y.sent = t.clk.tick)) ∧
    (∀ i, s.sbUp w k = true → nextLane (s.rd p R.SB_MAP_TX) x.lane = some i →
      (x.got ≠ [] → ∃ t, exec (.periodicAck w k) s = .next t ∧ sent s t = [(w * 16 + k, i, 1, s.rd p R.SB_RSEQ_CUMACK)] ∧ t.regs = s.regs ∧ t.clk = s.clk) ∧
      (∃ t, exec (.periodicCredit w k) s = .next t ∧ sent s t = [(w * 16 + k, i, 3, s.rd p R.SB_TSEQ_NEXT)] ∧ t.regs = s.regs ∧ t.clk = s.clk)) ∧
    (let at' := look natZero s.grantAt w
     let able (k : Nat) : Bool := s.sbOk w k && decide (s.rd (subPg w k) R.SB_STAT_STATE = 3) &&
      decide ((s.sub w k).granted < max 64 (min 4096 (s.rd (subPg w k) R.SB_BULK_CAP_CELLS)))
     ∀ j, 64 ≤ s.bulkFree w → ((List.range 15).map fun i => (at' + i) % 15 + 1).find? able = some j →
      let y := s.sub w j
      exec (.bulkGrant w) s = .next { s.setSub w j { y with granted := y.granted + 64, rxLim := y.rxLim.set 0 ((y.rxLim.getD 0 0 + 64) % 2 ^ 14) } with
        grantAt := put natZero s.grantAt w j }) ∧
    (∀ o, x.change = some o → s.sbUp w k = true →
      let u := s.toTick o.next
      ∃ t, exec (.lanesetRepeat w k) s = .next t ∧ t.clk = u.clk ∧
        (50 ≤ o.reps → (t.sub w k).change = none ∧ t.bit p R.SB_STAT_LS_BUSY = false) ∧
        (o.reps < 50 → (t.sub w k).change = some { o with reps := o.reps + 1, next := u.clk.tick + 200 })) ∧
    (s.sbUp w k = true → (s.rd p R.SB_MAP_RX).testBit f = true → swf sbLaneZero x.lanes = true →
      let l := x.lane' f
      let ret := decide (s.rd (sbPg w) R.SB_RET_THR_RETIRE ≤ l.now)
      ∃ t, exec (.retirementWindowEnd w k f) s = .next t ∧ ((t.sub w k).lane' f).last = l.now ∧ ((t.sub w k).lane' f).now = 0 ∧
        ((t.sub w k).lane' f).warn = decide (s.rd (sbPg w) R.SB_RET_THR_WARN ≤ l.now) ∧
        ((t.sub w k).lane' f).retired = (l.retired || ret) ∧ ((t.sub w k).lane' f).cnt = l.cnt + if ret then 1 else 0) ∧
    (let l := x.lane' f
     let ln := s.lane w f ((16 - k) % 16) 1
     s.sbUp w k = true → swf sbLaneZero x.lanes = true → l.retired = true → ln.st = .locked → ln.sync = true → (s.bit p R.SB_CTRL_AUTO_RTN = true ∧ l.cnt < 8 ∨ l.allowed = true) →
      2 ^ max 30 (min 40 (s.rd (sbPg w) R.SB_RTN_LOG2_BITS)) ≤ (ln.testBits - l.bits0) * 2 ^ 20 → ln.testErr - l.errs0 ≤ s.rd (sbPg w) R.SB_RTN_ERR →
      ∃ t, exec (.sbLaneReturn w k f) s = .next t ∧ ((t.sub w k).lane' f).retired = false ∧ ((t.sub w k).lane' f).allowed = false ∧ t.clk = s.clk) ∧
    (∀ t0 r, [x.txEmptyAt, x.rxEmptyAt, if x.replay.isEmpty then none else some x.oldAt].filterMap id = t0 :: r → (st = 3 ∨ st = 4) →
      ∃ t, exec (.sbFailed w k) s = .next t ∧ t.clk = (s.toTick (r.foldl min t0 + ms (s.rd p R.SB_FAIL_TMO_MS))).clk ∧
        t.rd p R.SB_STAT_STATE = 5 ∧ empty t) ∧
    (st = 4 → ∃ t, exec (.sbDrainTmo w k) s = .next t ∧ t.clk = (s.toTick (x.entered + ms (s.rd p R.SB_FAIL_TMO_MS))).clk ∧
      t.rd p R.SB_STAT_STATE = 5 ∧ empty t) ∧
    (st = 4 → x.queue = [] → x.replay = [] → x.peerDrain = true → ∃ t, exec (.drainComplete w k) s = .next t ∧ t.rd p R.SB_STAT_STATE = 0 ∧ empty t ∧
      t.rd p R.SB_DISCARD_CNT = min (s.rd p R.SB_DISCARD_CNT + x.pool.length) (2 ^ R.SB_DISCARD_CNT.w - 1) ∧ t.rd p R.SB_TSEQ_NEXT = 0)

/-- The frames of Table 13-2 that a die or a Hoop receives. -/
def Obligations.TwineFrames : Prop :=
  ∀ (s : State), Wf s →
    (∀ (f : TwFrame) (rd : Bool), isHoop f.src = true → f.dst < 20 → f.src ≠ f.dst → s.answers f.dst = true →
      let cmd : Instr := if rd then .twineReadFrame f else .twineWriteFrame f
      let h := f.src - 0x12
      let key := f.src * 32 + f.dst
      let x := look pairZero s.ring.pairs key
      let q := f.seq % 65536
      let p := pg f.dst f.page
      let off := f.off % 0x1000 / 4 * 4
      let pair (y : TwPair) : State := { s with ring := { s.ring with pairs := put pairZero s.ring.pairs key y } }
      let ok := f.crc = twSum f ∧ f.typ < 14
      let mine := f.typ = (if rd then 2 else 1) ∧ s.gated h = false ∧ s.joined h f.dst = true
      (¬ ok → ∃ t, exec cmd s = .next t ∧ { t with ring := s.ring } = s ∧ { t.ring with crcs := s.ring.crcs } = s.ring ∧
        ∀ i, i < 2 → look natZero t.ring.crcs (i * 32 + f.dst) = look natZero s.ring.crcs (i * 32 + f.dst) + 1) ∧
      (ok → ¬ mine → exec cmd s = .next s) ∧
      (ok → mine → (32768 ≤ (q + 65536 - x.next) % 65536 ∨ ∃ g ∈ x.held, g.seq % 65536 = q) → exec cmd s = .next s) ∧
      (ok → mine → q ≠ x.next → (q + 65536 - x.next) % 65536 < 32768 → (∀ g ∈ x.held, g.seq % 65536 ≠ q ∧ g.seq % 65536 ≠ x.next) →
        exec cmd s = .next (pair { x with held := x.held ++ [f], gapAt := if x.held.isEmpty then s.clk.tick else x.gapAt })) ∧
      (ok → mine → q = x.next → x.held = [] →
        let e := (pair { next := (q + 1) % 65536, held := [], gapAt := s.clk.tick }).inOrder h f.dst
        (rd = false → exec cmd s = .next (e.deliver h p off (f.data % 2 ^ 32) (f.be % 16) f.epoch {})) ∧
        (rd = true → ∃ t, exec cmd s = .next t ∧ t.regs = e.regs ∧ t.clk = s.clk ∧
          t.ring = { e.ring with resps := e.ring.resps ++ [⟨h, p, off, (e.busRead h p off).2⟩] }))) ∧
    (∀ h r, s.ring.resps.find? (fun r => decide (r.hoop = h)) = some r → exec (.readRespFrame h) s = .next { s with
      ring := { s.ring with resps := s.ring.resps.erase r }, out := { s.out with cpls := s.out.cpls ++ [⟨h, cplBytes r.data, false, false⟩] } }) ∧
    (∀ src dst f, (look pairZero s.ring.pairs (src * 32 + dst)).held = [f] →
      let x := look pairZero s.ring.pairs (src * 32 + dst)
      let u := s.toTick (x.gapAt + 400)
      let e : State := match s.acting with | some h => (u.inc (hpTop h) R.HP_TWINE_LOSS).raise (hpTop h) 9 | none => u
      let y : TwPair := { next := (f.seq % 65536 + 1) % 65536, held := [], gapAt := u.clk.tick }
      exec (.twineGapSkip src dst) s = .next (State.takeFrame { e with ring := { s.ring with pairs := put pairZero s.ring.pairs (src * 32 + dst) y } } f)) ∧
    (∀ d hop, hop < 20 → (ringDies.getD hop 32 = d ∨ ringDies.getD ((hop + 1) % 20) 32 = d) → (d, hop) ∉ s.ring.hops →
      ∃ t, exec (.hopDown d hop) s = .next t ∧ t.ring = { s.ring with hops := s.ring.hops ++ [(d, hop)] } ∧ t.clk = s.clk ∧
        (isHoop d = false → { t with ring := s.ring } = s) ∧
        (isHoop d = true → s.alive (hpTop (d - 0x12)) = true → (t.rd (hpTop (d - 0x12)) R.HP_TWINE_STAT_HOP_UP).testBit hop = false)) ∧
    (∀ h d, s.joined h d = false → exec (.sensorFrame h d) s = .next s) ∧
    (∀ h d, h < 2 → d < 20 → s.alive (hpTop h) = true → s.joined h d = true → ∃ t, exec (.sensorFrame h d) s = .next t ∧ t.clk = s.clk ∧
      t.ring = { s.ring with crcs := put natZero s.ring.crcs (h * 32 + d) 0, gaps := put natZero s.ring.gaps (h * 32 + d) 0 } ∧
      (∀ a, s.acting = some a → t.rd (hpTop a) R.HP_TWINE_LOSS =
        min (s.rd (hpTop a) R.HP_TWINE_LOSS + if look natZero s.ring.gaps (h * 32 + d) = 0 then 0 else 1) (2 ^ R.HP_TWINE_LOSS.w - 1)) ∧
      t.rd (hpTop h) R.HP_TWINE_CRC = min (s.rd (hpTop h) R.HP_TWINE_CRC + look natZero s.ring.crcs (h * 32 + d)) (2 ^ 32 - 1) ∧
      ∀ hop, hop < 20 → (t.rd (hpTop h) R.HP_TWINE_STAT_HOP_UP).testBit hop =
        ((s.rd (hpTop h) R.HP_TWINE_STAT_HOP_UP).testBit hop && !s.ring.hops.contains (d, hop))) ∧
    (∀ d r, s.ring.raises.find? (fun r => decide (r.1 = d)) = some r → d < 20 → r.2 < 2 ^ 32 →
      ∃ t, exec (.epochRaise d) s = .next t ∧ t.ring = { s.ring with raises := s.ring.raises.erase r } ∧ t.clk = s.clk ∧
        (∀ p ∈ diePages d, (s.page p).up ≠ .never → t.rd p R.PG_EPOCH_EPOCH = max (s.rd p R.PG_EPOCH_EPOCH) r.2 ∧
          (s.rd p R.PG_EPOCH_EPOCH < r.2 → t.bit p R.PG_STATUS_KEY_OPEN = false)) ∧
        (isHoop d = true → s.alive (hpTop (d - 0x12)) = true → s.acts (d - 0x12) = true → s.hpEpoch (d - 0x12) < r.2 →
          t.role (d - 0x12) = roleFenced)) ∧
    (∀ d n, s.notes.find? (fun n => decide (n.1 = d)) = some n → ∃ t, exec (.noticeFrame d) s = .next t ∧ ((∀ x, n.2 ≠ .align x false) → t.notes = s.notes.erase n) ∧
      (∀ r k on, n.2 = .laser r k on → isWeft d = true → s.alive (wfTop (d - 8)) = true → k < 16 →
        (t.rd (wfTop (d - 8)) R.WF_LASER_ON_ON).testBit k = on ∧ t.clk = s.clk) ∧
      (∀ x, n.2 = .align x true → isHoop d = true → s.hoopUp (d - 0x12) = true → t.cad.alignOk.contains x = true ∧ t.clk = s.clk))

/-- The Hoop pair's own rows (Table 13-4). -/
def Obligations.HoopRolesAndMirror : Prop :=
  ∀ (s : State) (h : Nat), Wf s → h < 2 →
    let p := hpTop h
    let x := s.hoop h
    (∀ ok, x.rebootAt ≠ none → ∃ t, exec (.hoopRebootDone h ok) s = .next t ∧ t.clk = s.clk ∧ (t.hoop h).rebootAt = none ∧
      t.role h = (if ok then roleStandby else roleFailed) ∧ t.bit p R.PG_CTRL_SOFT_RESET = false ∧ ∀ q ∈ diePages (0x12 + h),
        ((s.page q).up = .never → t.alive q = true) ∧
        (q = p → (s.page q).up = .resetting → (t.page q).up = if s.bit p R.PG_CTRL_ENABLE then .up else .down)) ∧
    (s.alive (hpTop h) = true →
    let up := s.role h ≠ roleFailed
    let vec := s.rd p R.HP_LEASE_CFG_VEC
    (s.role h = roleActive → ∃ t, exec (.leaseExpired h) s = .next t ∧ t.clk = (s.toTick x.leaseEnd).clk ∧ t.role h = roleFenced ∧
      t.bit p R.HP_ROLE_OVERLAP = false ∧ t.rd p R.HP_ROLE_CHANGES = min (s.rd p R.HP_ROLE_CHANGES + 1) 65535) ∧
    (s.role h = roleActive →
      let u := s.toTick x.renewAt
      exec (.renewalRequest h) s = .next ((u.setHoop h { x with renewAt := u.clk.tick + 5000000 }).msix h vec)) ∧
    (s.role h = roleActive → x.granted ≠ none → ∃ t, exec (.takeoverDone h) s = .next t ∧ t.clk = s.clk ∧ t.bit p R.HP_ROLE_TAKEOVER_DONE = true ∧
      t.hoop h = { x with granted := none } ∧ t.out = { s.out with msix := s.out.msix ++ [(h, vec)] }) ∧
    (s.acts h = true → s.bit p R.HP_ROLE_OVERLAP = true →
      let u := s.toTick x.overlapEnd
      exec (.overlapEnd h) s = .next (State.sendN { (u.wb p R.HP_ROLE_OVERLAP false) with
        com := { s.com with discard := allDies },
        cad := { s.cad with nextN := some (u.clk.n, u.clk.frame + 1), taken := false, msgs := allDies.map fun d => (d, s.hpEpoch h) } })) ∧
    (∀ ms, up → (∀ c, x.cmdAt = some c → ms = min (2 ^ 32 - 1) (((s.toTick (x.hbSent + 1000000)).clk.tick - c) / 100000)) →
      (x.cmdAt = none → ms = 2 ^ 32 - 1) →
      ∃ t, exec (.heartbeatSend h) s = .next t ∧ t.clk = (s.toTick (x.hbSent + 1000000)).clk ∧
        t.ring = { s.ring with hbs := s.ring.hbs ++ [⟨1 - h, s.role h, s.bit p R.HP_ROLE_SOLO_PEND, decide (ms < 30000),
          s.rd p R.HP_MIR_SEQ % 65536, s.hpEpoch h, s.hpSeen h, ms⟩] } ∧
        t.hoop h = { x with hbSent := t.clk.tick } ∧ t.regs = s.regs) ∧
    (∀ f, s.ring.hbs.find? (fun f => decide (f.dst = h)) = some f → f.epoch < 2 ^ 32 → f.seen < 2 ^ 32 →
      ∃ t, exec (.heartbeat h) s = .next t ∧ t.clk = s.clk ∧ t.ring = { s.ring with hbs := s.ring.hbs.erase f } ∧
        t.rd p R.HP_ROLE_PEER_ROLE = f.role % 8 ∧ t.bit p R.HP_ROLE_PEER_ALIVE = true ∧ (t.hoop h).hbHeard = s.clk.tick ∧
        (s.rd p R.HP_HB_MISSED + (s.missedHbs h - x.hbMiss) < 65536 → t.rd p R.HP_HB_MISSED = s.rd p R.HP_HB_MISSED + (s.missedHbs h - x.hbMiss)) ∧
        (s.hpSeen h < 2 ^ 32 → t.hpSeen h = max (s.hpSeen h) (max f.epoch f.seen)) ∧
        ((f.recent = true ∨ f.role = roleActive) → (t.hoop h).soloAt = none ∧ t.bit p R.HP_ROLE_SOLO_PEND = false) ∧
        t.role h = if s.acts h = true ∧ s.hpEpoch h < max f.epoch f.seen then roleFenced else s.role h) ∧
    (up → s.bit p R.HP_ROLE_PEER_ALIVE = true → ∃ t, exec (.hoopPeerLost h) s = .next t ∧ t.clk = (s.toTick (x.hbHeard + 3000000)).clk ∧
      t.bit p R.HP_ROLE_PEER_ALIVE = false ∧ t.rd p R.HP_HB_MISSED = min (s.rd p R.HP_HB_MISSED + 3) 65535) ∧
    (h = 0 → (s.role 0 = roleStandby ∨ s.role 0 = roleFenced) → s.bit p R.HP_SOLO_EN = true → x.soloAt = none →
      let peer := if s.bit p R.HP_ROLE_PEER_ALIVE then x.peerCmd.getD 0 else 0
      let u := s.toTick (max (x.cmdAt.getD 0) peer + 3000000000)
      exec .soloHoldoff s = .next ((u.setHoop 0 { x with soloAt := some u.clk.tick }).wb p R.HP_ROLE_SOLO_PEND true)) ∧
    (∀ t0, h = 0 → up → x.soloAt = some t0 → ∃ t, exec .soloEntry s = .next t ∧ t.clk = (s.toTick (t0 + 200000000)).clk ∧ t.role 0 = roleSolo ∧
      t.hpEpoch 0 = (s.hpSeen 0 + 1) % 2 ^ 32 ∧ t.bit p R.HP_ROLE_OVERLAP = true ∧ t.bit p R.HP_ROLE_SOLO_PEND = false ∧
      (t.hoop 0).overlapEnd = t.clk.tick + 200000 ∧ t.rd p R.HP_SOLO_CNT = min (s.rd p R.HP_SOLO_CNT + 1) 255) ∧
    (up → (∃ t, exec (.wdogExpired h) s = .next t ∧ t.clk = (s.toTick (x.kick + max 10 (s.rd p R.HP_WDOG_MS) * 100000)).clk ∧ t.role h = roleFailed) ∧
      (∃ t, exec (.firmwareMemoryUe h) s = .next t ∧ t.clk = s.clk ∧ t.role h = roleFailed ∧ t.bit p R.HP_ROLE_SOLO_PEND = false)) ∧
    (s.drives h = true →
      let u := s.toTick (x.mirAt + 1000000)
      let img := u.mirrorImage h
      let seq := max (x.mirSeq + 1) (s.rd p R.HP_MIR_SEQ + 1) % 2 ^ 32
      let q := hpTop (1 - h)
      let cur := s.rd q R.HP_MIR_STAT_CUR
      let valid := if cur = 1 then s.bit q R.HP_MIR_STAT_VALID1 else s.bit q R.HP_MIR_STAT_VALID0
      let bank := if valid then 1 - cur else cur
      ∃ t, exec (.mirrorSend h) s = .next t ∧ t.clk = u.clk ∧ t.regs = s.regs ∧ t.hoop h = { x with mirSeq := seq, mirAt := u.clk.tick, mirDue := false } ∧
        t.ring.mirs = s.ring.mirs ++ (frames32 img).zipIdx.map (fun f => .data (1 - h) bank (32 * f.2) (s.hpEpoch h) f.1)
          ++ [.commit (1 - h) bank seq (s.hpEpoch h) img.length (crc32c img)]) ∧
    (∀ f (good : Bool), s.ring.mirs.find? (fun f => decide (f.dst = h)) = some f →
      let e : State := { s with ring := { s.ring with mirs := s.ring.mirs.erase f } }
      (∀ d bank off ep bs, f = .data d bank off ep bs →
        ((good = false ∨ ep < s.hpSeen h) → exec (.mirrorFrame h good) s = .next e) ∧
        (good = true → s.hpSeen h ≤ ep → bank < 2 →
          let into (b : Sparse Nat) : Sparse Nat := bs.zipIdx.foldl (fun b v => put natZero b (off + v.2) v.1) b
          ∃ t, exec (.mirrorFrame h good) s = .next t ∧ t.ring = e.ring ∧ t.clk = s.clk ∧
            t.hoop h = (if bank = 1 then { x with bank1 := into x.bank1 } else { x with bank0 := into x.bank0 }) ∧
            t.bit p (if bank = 1 then R.HP_MIR_STAT_VALID1 else R.HP_MIR_STAT_VALID0) = false ∧ t.bit p R.HP_MIR_STAT_PEND = true)) ∧
      (∀ d bank seq ep len crc, f = .commit d bank seq ep len crc →
        let b := if bank = 1 then x.bank1 else x.bank0
        let ok := crc32c ((List.range len).map fun i => look natZero b i) = crc ∧ s.rd p R.HP_MIR_SEQ < seq ∧ s.hpSeen h ≤ ep
        (good = false → exec (.mirrorCommit h good) s = .next e) ∧
        (good = true → ∃ t, exec (.mirrorCommit h good) s = .next t ∧ t.ring = e.ring ∧ t.clk = s.clk ∧ t.bit p R.HP_MIR_STAT_PEND = false ∧
          (ok → bank < 2 → t.bit p (if bank = 1 then R.HP_MIR_STAT_VALID1 else R.HP_MIR_STAT_VALID0) = true ∧ t.rd p R.HP_MIR_STAT_CUR = bank ∧
            t.rd p R.HP_MIR_SEQ = seq % 2 ^ 32) ∧
          (¬ ok → t.rd p R.HP_MIR_SEQ = s.rd p R.HP_MIR_SEQ ∧ t.rd p R.HP_MIR_STAT_ERR_CNT = min (s.rd p R.HP_MIR_STAT_ERR_CNT + 1) 65535)))))

/-- Detection (R447-R452) and the rows of Table 14-6 to 14-9. -/
def Obligations.FaultRecordsTimersAndAcknowledgments : Prop :=
  ∀ (s : State), Wf s →
    (∀ p src last extra, src < 32 →
      let x := s.page p
      let sev := sevActed p (s.sevOf p src)
      ((s.rd p R.PG_FMASK_MASK).testBit src = true → s.raiseX p src last extra = s) ∧
      ((s.rd p R.PG_FMASK_MASK).testBit src = false → (s.rd p R.PG_FSTAT_SRC).testBit src = true →
        s.raiseX p src last extra = s.setPage p { x with pendRep := put (fun _ => 0) x.pendRep src (look (fun _ => 0) x.pendRep src + 1), lastDet := put (fun _ => (0, 0)) x.lastDet src (last, extra) }) ∧
      ((s.rd p R.PG_FMASK_MASK).testBit src = false → (s.rd p R.PG_FSTAT_SRC).testBit src = false →
        let t := s.raiseX p src last extra
        t.rd p R.PG_FSTAT_SRC = (s.rd p R.PG_FSTAT_SRC ||| 2 ^ src) % 2 ^ 32 ∧ (∀ k, k ≠ R.PG_FSTAT_SRC.key p → look resetVal t.regs k = look resetVal s.regs k) ∧
        (∃ st, t.flt = { s.flt with flight := s.flt.flight ++ [0, 1].map fun i =>
          (i, ⟨s.pkgTick, dieOf p, pageOf p, src, sev, .detect, s.rd p R.PG_EPOCH_EPOCH, 1, st, last % 2 ^ 32, extra % 2 ^ 64⟩) }) ∧
        (∀ q, q ≠ p → t.page q = s.page q) ∧
        (let starts := 2 ≤ sev ∧ ¬ (p = pkg0 ∧ (src = 2 ∨ src = 3)) ∧ ∀ g ∈ x.timers, g.src ≠ src
         (starts → (t.page p).timers = x.timers ++ [⟨src, s.clk.tick + max 1 (min 10000 (s.rd p R.PG_FTIMER_GRACE_MS)) * 100000, decide (sev = 3)⟩]) ∧
         (¬ starts → (t.page p).timers = x.timers)))) ∧
    (∀ p src, (s.page p).up ≠ .never → look natZero (s.page p).pendRep src ≠ 0 →
      let x := s.page p
      let u := s.toTick (look natZero x.lastRec src + s.coalOf (dieOf p) * 100000)
      let r := u.mkRec p src (sevActed p (s.sevOf p src)) .rep (look natZero x.pendRep src) (u.detailAgain p src).1 (u.detailAgain p src).2
      exec (.repeatRecord p src) s = .next ((u.sendRec r).setPage p
        { x with pendRep := put natZero x.pendRep src 0, lastRec := put natZero x.lastRec src u.clk.tick })) ∧
    (∀ p src g, s.timerOf p src = some g → g.halt = false →
      ∃ t r pre, exec (.containExpiry p src) s = .next t ∧ t.clk = (s.toTick g.ends).clk ∧ g ∉ (t.page p).timers ∧
        t.flt.flight = pre ++ [(0, r), (1, r)] ∧ r.kind = .escalated ∧ r.sev = 2 ∧ r.source = src ∧ r.die = dieOf p ∧ r.page = pageOf p ∧ r.count = 1 ∧
        (isHoop (dieOf p) = false → dieOf p ≠ 0x1F → (pageBlk p).isSome = true → s.alive p = true → (t.page p).up = .isolated ∧
          (pageBlk p = some .os → ∀ q ∈ diePages (dieOf p), s.alive q = true → (t.page q).up = .isolated))) ∧
    (∀ p src g, s.timerOf p src = some g → g.halt = true →
      ∃ t, exec (.haltExpiry p src) s = .next t ∧ t.clk = (s.toTick g.ends).clk ∧ g ∉ (t.page p).timers ∧ t.regs = s.regs ∧
        t.flt = { s.flt with haltNotices := s.flt.haltNotices ++
          if s.thp.tripAt = none then allDies.map fun d => (d, recIdent (dieOf p) (pageOf p) src) else [] }) ∧
    (∀ d n, s.flt.haltNotices.find? (fun n => decide (n.1 = d)) = some n →
      ∃ t, exec (.haltNotice d) s = .next t ∧ t.flt.haltNotices = s.flt.haltNotices.erase n ∧ t.clk = s.clk ∧
        (d < 18 → (∀ q, dieOf q = d → t.page q = pageZero q ∧ ∀ f, keyPage (f.key q) = q → t.rd q f = resetVal (f.key q)) ∧
          (isOsier d = true → ∀ k, k < 64 → t.tile d k = tileZero (d * 64 + k))) ∧
        (isHoop d = true → t.start.going = false ∧ t.start.held = false ∧ (s.alive (faultPg (d - 0x12)) = true →
          let p := faultPg (d - 0x12)
          t.rd pkg0 R.PKG_STAGE_STAGE = 1 ∧ t.bit pkg0 R.PKG_STAGE_READY = false ∧ t.bit p R.FAULT_PIN_HALTED = true ∧
          (s.role (d - 0x12) ≠ roleFailed → (s.rd p R.PG_FMASK_MASK).testBit 4 = false → (t.rd p R.PG_FSTAT_SRC).testBit 4 = true)))) ∧
    (∀ h a, h < 2 → s.acks.find? (fun a => decide (a.hoop = h)) = some a →
      let p := faultPg h
      let dead := pageBlk a.page = none ∨ (s.page a.page).up = .never
      let fenced := a.epoch < s.rd a.page R.PG_EPOCH_EPOCH
      (dead → exec (.ackAtPage h) s = .next s) ∧
      (∃ t, exec (.ackNoAnswer h) s = .next t ∧ t.acks = s.acks.erase a ∧ t.clk = (s.toTick (a.tick + 10000)).clk ∧
        t.rd p R.FAULT_ACK_STAT_RESULT = 4 ∧ t.bit p R.FAULT_ACK_GO = false ∧ t.pages = s.pages) ∧
      (¬ dead → ∃ t, exec (.ackAtPage h) s = .next t ∧ t.acks = s.acks.erase a ∧ t.clk = s.clk ∧ t.bit p R.FAULT_ACK_GO = false ∧
        (fenced → t.rd p R.FAULT_ACK_STAT_RESULT = 5 ∧ t.bit a.page R.PG_STATUS_FENCE_REJ = true ∧
          t.rd pkg0 R.PKG_REJ_CNT = min (s.rd pkg0 R.PKG_REJ_CNT + 1) (2 ^ 32 - 1) ∧ t.rd pkg0 R.PKG_REJ_LAST_CAUSE = 3 ∧ t.pages = s.pages) ∧
        (¬ fenced → ∀ g, s.timerOf a.page a.src = some g → s.clk.tick < g.ends → t.rd p R.FAULT_ACK_STAT_RESULT = 1 ∧
          (t.page a.page).timers = (s.page a.page).timers.filter (· ≠ g) ∧
          ∃ r, t.flt.flight = s.flt.flight ++ [(0, r), (1, r)] ∧ r.kind = .acked ∧ r.source = a.src ∧ r.sev = (if g.halt then 3 else 2)) ∧
        (¬ fenced → (∃ g, s.timerOf a.page a.src = some g ∧ g.ends ≤ s.clk.tick) ∨ (s.timerOf a.page a.src = none ∧ a.src ∈ (s.page a.page).ended) →
          t.rd p R.FAULT_ACK_STAT_RESULT = 3 ∧ ((s.rd p R.PG_FMASK_MASK).testBit 3 = false → (t.rd p R.PG_FSTAT_SRC).testBit 3 = true)) ∧
        (¬ fenced → s.timerOf a.page a.src = none → a.src ∉ (s.page a.page).ended → t.rd p R.FAULT_ACK_STAT_RESULT = 2 ∧ t.pages = s.pages ∧
          t.flt = s.flt))) ∧
    (∀ h (flashOk : Bool) f, h < 2 → s.flt.flight.find? (fun f => decide (f.1 = h)) = some f →
      let p := faultPg h
      let x := s.flog h
      let w := s.rd p R.FAULT_LOG_PTR_WR
      let kept := s.nvOk h = true ∧ flashOk = true ∧ x.crash.length < 1024
      let least := if s.huabel then 2 else 1
      let d := if f.2.die = 0x1F then 0x12 + s.acting.getD 0 else f.2.die
      let e : State := { s with flt := { s.flt with flight := s.flt.flight.erase f } }
      (∀ good, (s.joined h d = false ∨ good = true ∧ (s.hoopUp h = false ∨ s.alive p = false)) → exec (.faultFrame h good flashOk) s = .next e) ∧
      (s.joined h d = true → exec (.faultFrame h false flashOk) s = .next
        { e with ring := { s.ring with gaps := put natZero s.ring.gaps (h * 32 + d) (look natZero s.ring.gaps (h * 32 + d) + 1) } }) ∧
      (s.joined h d = true → s.hoopUp h = true → s.alive p = true → ∃ t more, exec (.faultFrame h true flashOk) s = .next t ∧ t.clk = s.clk ∧
        t.flt.flight = s.flt.flight.erase f ++ more ∧
        look (fun _ => none) (t.flog h).slots w = some f.2 ∧ (t.flog h).unread = min 4096 (x.unread + 1) ∧
        t.rd p R.FAULT_LOG_PTR_WR = (w + 1) % 4096 ∧ t.rd p R.FAULT_LOG_SEQ = (s.rd p R.FAULT_LOG_SEQ + 1) % 2 ^ 32 ∧
        t.rd p R.FAULT_CNT_OVF = (if 4096 ≤ x.unread then min (s.rd p R.FAULT_CNT_OVF + 1) 65535 else s.rd p R.FAULT_CNT_OVF) ∧
        t.rd p R.FAULT_PIN_OPEN = (if s.pinSev h ≤ f.2.sev ∨ f.2.kind = .escalated then min (s.rd p R.FAULT_PIN_OPEN + 1) 65535 else s.rd p R.FAULT_PIN_OPEN) ∧
        (t.flog h).crash = (if 2 ≤ f.2.sev ∧ kept then x.crash ++ [f.2] else x.crash) ∧
        (2 ≤ f.2.sev → ¬ kept → (s.rd p R.PG_FMASK_MASK).testBit 5 = false → (t.rd p R.PG_FSTAT_SRC).testBit 5 = true) ∧
        (s.acts h = false → t.out = s.out) ∧
        (s.acts h = true → least ≤ f.2.sev → s.bit p R.FAULT_INT_PEND = false →
          t.bit p R.FAULT_INT_PEND = true ∧ t.rd p R.FAULT_INT_NEW = 0 ∧ t.out.msix.getLast? = some (h, s.rd p R.FAULT_CFG_VEC)) ∧
        (s.acts h = true → least ≤ f.2.sev → s.bit p R.FAULT_INT_PEND = true → t.bit p R.FAULT_INT_PEND = true ∧
          t.rd p R.FAULT_INT_NEW = min (s.rd p R.FAULT_INT_NEW + 1) 65535)))

/-- Slew queues (Tables 15-3 to 15-6). -/
def Obligations.SlewQueuesTakeAndGiveLines : Prop :=
  ∀ (s : State) (h q : Nat), Wf s → h < 2 → q < 80 → s.alive (pciePg h) = true → s.alive (sqPg h q) = true →
    let p := pciePg h
    let y := sqPg h q
    let x := s.sq h q
    (∀ (off : Nat) (data : List Byte) (poi fin : Bool), data.length = 8 ∨ (fin = true ∧ data.length = 4) → q < 64 →
      off % 8 = 0 → (if fin then 0x800 ≤ off ∧ off < 0x1000 else off < 0x800) → x.reg.length < 7 →
      let cmd : Instr := if fin then .cmdDataEndWrite h q off data poi else .cmdDataWrite h q off data poi
      let w := data.foldr (fun b a => b.toNat + 256 * a) 0
      let vb := 8 * (x.reg.length + 1) - (8 - data.length)
      let ln : SqLine := ⟨x.reg ++ [w] ++ List.replicate (6 - x.reg.length) 0, fin, decide (x.lines = 0), x.regPoi || poi, vb, x.resync, x.pkt, x.seq⟩
      let tl : SqLine := ⟨List.replicate 7 0, true, false, true, 0, x.resync, x.pkt, x.seq⟩
      let lost := x.drop = true ∨ x.flushing ≠ none
      let seen (x : Sq) : Sq := { x with wmPrev := x.level }
      ∃ t, exec cmd s = .next t ∧ t.clk = s.clk ∧ (∀ k, k ≠ q → t.sq h k = s.sq h k) ∧
        (lost → t.sq h q = seen (if fin then { x with pkt := if x.lines = 0 then x.pkt else (x.pkt + 1) % 2 ^ 16, lines := 0, drop := false,
                                                      flushing := none, inside := false } else x) ∧ t.rd y R.SQ_CNT_DROP = min (s.rd y R.SQ_CNT_DROP + 1) (2 ^ 32 - 1)) ∧
        (¬ lost → fin = false → x.reg.length < 6 → t.sq h q = seen { x with reg := x.reg ++ [w], regPoi := x.regPoi || poi, inside := true }) ∧
        (¬ lost → (fin = true ∨ x.reg.length = 6) → 0 < x.free →
          t.sq h q = seen { x with fill := x.fill ++ [ln], used := x.used + 1, reg := [], regPoi := false, resync := false, inside := !fin, fresh := false,
                                   seq := (x.seq + 1) % 2 ^ 32, lines := if fin then 0 else x.lines + 1,
                                   pkt := if fin then (x.pkt + 1) % 2 ^ 16 else x.pkt, accepted := if fin then (x.accepted + 1) % 2 ^ 32 else x.accepted }) ∧
        (¬ lost → (fin = true ∨ x.reg.length = 6) → x.free = 0 → t.bit y R.SQ_STAT_OVERRUN = true ∧
          t.rd y R.SQ_CNT_OVR = min (s.rd y R.SQ_CNT_OVR + 1) (2 ^ 32 - 1) ∧
          t.rd y R.SQ_CNT_DROP = min (s.rd y R.SQ_CNT_DROP + (x.reg.length + 1)) (2 ^ 32 - 1) ∧
          t.sq h q = seen (if x.lines = 0 then { x with reg := [], regPoi := false, inside := false, drop := !fin }
            else { x with reg := [], regPoi := false, inside := false, drop := !fin, fill := x.fill ++ [tl], trunc := true, resync := false,
                          seq := (x.seq + 1) % 2 ^ 32, lines := 0, pkt := (x.pkt + 1) % 2 ^ 16 }))) ∧
    (∀ off data poi, 64 ≤ q ∨ 512 < data.length ∨ data.length % 8 ≠ 0 ∨ off % 8 ≠ 0 ∨ 0x800 ≤ off → exec (.cmdDataWrite h q off data poi) s = .next (s.raise y 5)) ∧
    (∀ off data poi, 64 ≤ q ∨ 512 < data.length ∨ data.length % 4 ≠ 0 ∨ off % 4 ≠ 0 ∨ off < 0x800 → exec (.cmdDataEndWrite h q off data poi) s = .next (s.raise y 5)) ∧
    (∀ k off data poi, 80 ≤ k → k ≠ 0xF0 → k ≠ 0xF1 → ∀ cmd ∈ [Instr.cmdDataWrite h k off data poi, .cmdDataEndWrite h k off data poi],
      exec cmd s = .next (s.inc p R.PCIE_UR_CNT)) ∧
    (q < 64 →
      let v := x.free + (if s.bit y R.SQ_STAT_OVERRUN then 2 ^ 16 else 0) + (if x.drop then 2 ^ 17 else 0) + x.accepted * 2 ^ 32
      exec (.cmdStatusRead h q 0 8) s = .next (s.complete ⟨h, (leBytes 8 v).map (BitVec.ofNat 8), false, false⟩)) ∧
    (∀ (off len : Nat) (par : List Nat), ∀ cmd ∈ ([(.cmdStatusRead h q off len, 64 ≤ q ∨ off ≠ 0 ∨ len ≠ 8), (.eventPop h q off len par, q < 64 ∨ off ≠ 0 ∨ len ≠ 64),
        (.eventPeek h q off len par, q < 64 ∨ off ≠ 0x40 ∨ len ≠ 64)] : List (Instr × Prop)), cmd.2 →
      ∃ t, exec cmd.1 s = .next t ∧ t.sqs = s.sqs ∧ t.clk = s.clk ∧ t.out = { s.out with cpls := s.out.cpls ++ [⟨h, [], false, true⟩] } ∧
        t.rd p R.PCIE_UR_CNT = min (s.rd p R.PCIE_UR_CNT + 1) (2 ^ 32 - 1) ∧
        ((s.rd p R.PG_FMASK_MASK).testBit 3 = false → (t.rd p R.PG_FSTAT_SRC).testBit 3 = true) ∧
        ((s.rd y R.PG_FMASK_MASK).testBit 5 = false → (t.rd y R.PG_FSTAT_SRC).testBit 5 = true)) ∧
    (∀ par : List Nat, 64 ≤ q →
      let l := if x.flushing = none then x.drain.head? else none
      let n := (par.filter (· < 7)).length
      let l' : Option SqLine := l.map fun (l : SqLine) => if n = 0 then l else { l with poi := true }
      let sent := { s.out with cpls := s.out.cpls ++ [⟨h, sqBytes x l' false, false, false⟩] }
      ∀ (pop : Bool), ∃ t, exec (if pop then .eventPop h q 0 64 par else .eventPeek h q 0x40 64 par) s = .next t ∧ t.out = sent ∧ t.clk = s.clk ∧
        t.sq h q = (if pop = true ∧ l ≠ none then { x with drain := x.drain.tail, freed := x.freed + 1 } else x) ∧
        t.rd y R.SQ_CNT_PARITY = (if l = none then s.rd y R.SQ_CNT_PARITY else if n = 0 then s.rd y R.SQ_CNT_PARITY
          else min (s.rd y R.SQ_CNT_PARITY + n) (2 ^ 32 - 1)) ∧
        t.rd y R.SQ_CNT_LINES = (if pop = true ∧ l ≠ none then (s.rd y R.SQ_CNT_LINES + 1) % 2 ^ 64 else s.rd y R.SQ_CNT_LINES)) ∧
    (∀ par : List Nat, q < 64 → ∃ t, exec (.cmdQueueRead h q par) s = .next t ∧ t.clk = s.clk ∧ t.out = s.out ∧
      t.sq h q = (if x.rd < x.drain.length then { x with rd := x.rd + 1 } else x) ∧
      t.rd y R.SQ_CNT_PARITY = (if x.rd < x.drain.length then min (s.rd y R.SQ_CNT_PARITY + (par.filter (· < 7)).length) (2 ^ 32 - 1)
        else s.rd y R.SQ_CNT_PARITY)) ∧
    (x.drain = [] → x.fill ≠ [] → exec (.bankSwap h q) s = .next (s.setSq h q
      { x with drain := x.fill, fill := [], used := 0, trunc := false, freed := 0, bank := 1 - x.bank, rd := 0, mark := none })) ∧
    ((x.drain ≠ [] ∨ x.fill = []) → exec (.bankSwap h q) s = .next s) ∧
    (∀ ws now, 64 ≤ q → x.rest = [] → ws ≠ [] →
      (x.free < (ws.length + 6) / 7 → ∃ t, exec (.eventPacketOffer h q ws now) s = .next t ∧ t.clk = s.clk ∧ t.sqs = s.sqs ∧
        t.bit y R.SQ_STAT_OVERRUN = true ∧ t.rd y R.SQ_CNT_REFUSED = min (s.rd y R.SQ_CNT_REFUSED + 1) 65535) ∧
      ((ws.length + 6) / 7 ≤ x.free → ws.length ≤ 7 → x.reg = [] → x.drop = false → x.flushing = none →
        let seen (x : Sq) : Sq := { x with wmPrev := x.level }
        let ln : SqLine := ⟨ws ++ List.replicate (7 - ws.length) 0, true, decide (x.lines = 0), x.regPoi, 8 * ws.length, x.resync, x.pkt, x.seq⟩
        ∃ t, exec (.eventPacketOffer h q ws now) s = .next t ∧ t.clk = s.clk ∧
          (ws.length ≤ now → t.sq h q = seen { x with
            fill := x.fill ++ [ln], used := x.used + 1, reg := [], regPoi := false, resync := false, inside := false, fresh := false,
            seq := (x.seq + 1) % 2 ^ 32, lines := 0, pkt := (x.pkt + 1) % 2 ^ 16, accepted := (x.accepted + 1) % 2 ^ 32 }) ∧
          (0 < now → now < ws.length → t.sq h q = { x with rest := ws.drop now, reg := ws.take now, inside := true }))) ∧
    (∀ ws now, 64 ≤ q → x.rest ≠ [] → x.reg.length + x.rest.length ≤ 7 → x.drop = false → x.flushing = none → 0 < x.free →
      let all := x.reg ++ x.rest
      let ln : SqLine := ⟨all ++ List.replicate (7 - all.length) 0, true, decide (x.lines = 0), x.regPoi, 8 * all.length, x.resync, x.pkt, x.seq⟩
      let z : Sq := { x with fill := x.fill ++ [ln], used := x.used + 1, reg := [], rest := [], regPoi := false, resync := false, inside := false,
                             fresh := false, seq := (x.seq + 1) % 2 ^ 32, lines := 0, pkt := (x.pkt + 1) % 2 ^ 16,
                             accepted := (x.accepted + 1) % 2 ^ 32 }
      ∃ t, exec (.eventPacketOffer h q ws now) s = .next t ∧ t.clk = s.clk ∧ t.sq h q = { z with wmPrev := z.level }) ∧
    ((8 ≤ q ∨ (s.dma h q).active = none) → ∃ t, exec (.slewPtr h q) s = .next t ∧ t.clk = s.clk ∧ t.bit y R.SQ_STAT_PTR_RESET = true ∧
      t.rd y R.SQ_CNT_RESET = min (s.rd y R.SQ_CNT_RESET + 1) 65535 ∧
      t.sq h q = { drop := x.inside || !x.rest.isEmpty, inside := x.inside || !x.rest.isEmpty, resync := true, rest := x.rest,
                   accepted := x.accepted, wmPrev := x.wmPrev }) ∧
    (∀ t0, x.flushing = some t0 → ∃ t, exec (.flushTrunc h q) s = .next t ∧ t.clk = (s.toTick (t0 + max 1 (s.rd y R.SQ_FLUSH_TMO_US) * 100)).clk ∧
      t.sq h q = { x with flushing := none, drop := true } ∧ t.bit y R.SQ_STAT_TRUNC = true)

/-- The endpoint's own rows and DMA (R465, R466, R484, R485, R487). -/
def Obligations.EndpointAndDma : Prop :=
  ∀ (s : State) (h : Nat), Wf s → h < 2 → s.alive (pciePg h) = true →
    let p := pciePg h
    (∃ t, exec (.perst h) s = .next t ∧ t.clk = s.clk ∧ (∀ c, c < 8 → t.dma h c = {}) ∧
      (∀ f ∈ [R.PCIE_LINK_SPEED, R.PCIE_LINK_WIDTH, R.PCIE_LINK_FLIT, R.PCIE_LINK_UP, R.PCIE_DMA_CTRL_EN, R.PCIE_DMA_CTRL_STOPPED], t.rd p f = 0) ∧
      (∀ q, q < 80 → let x := s.sq h q
        t.sq h q = { drop := x.inside || !x.rest.isEmpty, inside := x.inside || !x.rest.isEmpty, resync := true, rest := x.rest,
                     accepted := x.accepted, wmPrev := x.wmPrev } ∧
        (∀ f ∈ [R.SQ_STAT_OVERRUN, R.SQ_STAT_PTR_RESET, R.SQ_STAT_TRUNC, R.SQ_WM_HIT, R.SQ_CNT_OVR, R.SQ_CNT_REFUSED, R.SQ_CNT_RESET, R.SQ_CNT_PARITY,
          R.SQ_CNT_DROP, R.SQ_CNT_LINES], t.rd (sqPg h q) f = 0) ∧
        ∀ f ∈ [R.SQ_CFG_WM, R.SQ_CFG_WM_INT, R.SQ_CFG_VEC, R.SQ_FLUSH_TMO_US], t.rd (sqPg h q) f = s.rd (sqPg h q) f) ∧
      ((s.rd p R.PG_FMASK_MASK).testBit 0 = false → (t.rd p R.PG_FSTAT_SRC).testBit 0 = true)) ∧
    (∀ speed width (flit up : Bool), ∃ t, exec (.linkLeftL0 h speed width flit up) s = .next t ∧ t.clk = s.clk ∧ t.sqs = s.sqs ∧
      t.rd p R.PCIE_LINK_SPEED = speed % 16 ∧ t.rd p R.PCIE_LINK_WIDTH = width % 32 ∧ t.bit p R.PCIE_LINK_FLIT = flit ∧ t.bit p R.PCIE_LINK_UP = up ∧
      ((s.rd p R.PG_FMASK_MASK).testBit 0 = false → (t.rd p R.PG_FSTAT_SRC).testBit 0 = true)) ∧
    (∀ kind, kind < 3 → ∃ t, exec (.aerError h kind) s = .next t ∧ t.clk = s.clk ∧
      t.rd p R.PCIE_CE_CNT = (if kind = 0 then min (s.rd p R.PCIE_CE_CNT + 1) (2 ^ 32 - 1) else s.rd p R.PCIE_CE_CNT) ∧
      t.rd p R.PCIE_UE_CNT = (if kind = 1 then min (s.rd p R.PCIE_UE_CNT + 1) (2 ^ 32 - 1) else s.rd p R.PCIE_UE_CNT) ∧
      (let src := if kind = 0 then 1 else if kind = 1 then 2 else 6
       (s.rd p R.PG_FMASK_MASK).testBit src = false → (t.rd p R.PG_FSTAT_SRC).testBit src = true)) ∧
    (∀ host, ∃ t, exec (.ptmDialogue h host) s = .next t ∧ { t with regs := s.regs } = s ∧ t.rd p R.PCIE_PTM_HOST = host % 2 ^ 64 ∧
      t.rd p R.PCIE_PTM_TICK = s.pkgTick % 2 ^ 64) ∧
    (∃ v, exec (.doeMailbox h) s = .next { s with freeCtr := s.freeCtr + 1, out := { s.out with doe := s.out.doe ++ [(h, v)] } }) ∧
    (∀ c l, c < 8 → s.alive (sqPg h c) = true → (s.rd p R.PCIE_DMA_CTRL_EN).testBit c = true → (s.rd p R.PCIE_DMA_CTRL_STOPPED).testBit c = false →
      (s.dma h c).active = none → (s.dma h c).skip = false → (s.sq h c).drain[(s.sq h c).rd]? = some l → l.fin = true →
      let x := s.sq h c
      let good := dmaGood (l.words.take 4) = true ∧ l.vbytes = 32 ∧ l.poi = false
      ∃ t, exec (.dmaDescriptor h c) s = .next t ∧ t.clk = s.clk ∧
        (good → t.dma h c = { active := some (l.words.take 4) } ∧ t.sq h c = { x with mark := some x.rd, rd := x.rd + 1 }) ∧
        (¬ good → t.dma h c = {} ∧ t.sq h c = { x with drain := x.drain.drop (x.rd + 1), freed := x.freed + (x.rd + 1), rd := 0, mark := none })) ∧
    (∀ c d data poi err moved hits stk, c < 8 → s.alive (sqPg h c) = true → (s.dma h c).active = some d →
      let x := s.sq h c
      let w2 := d.getD 2 0
      let addr := d.getD 1 0 / 8 * 8
      ∃ t, exec (.dmaComplete h c data poi err moved hits stk) s = .next t ∧ t.clk = s.clk ∧ t.dma h c = {} ∧
        (err ≠ 0 → t.sq h c = { x with rd := x.mark.getD 0 } ∧ (t.rd p R.PCIE_DMA_CTRL_STOPPED).testBit c = true ∧
          (moved < 8 → t.hbm = s.hbm ∧ t.rd p R.PCIE_DMA_BYTES = s.rd p R.PCIE_DMA_BYTES)) ∧
        (err = 0 → t.sq h c = { x with drain := x.drain.drop x.rd, freed := x.freed + x.rd, rd := 0, mark := none }) ∧
        (∀ mc line, err = 0 → hits = [] → stk = none → bits w2 0 32 = 8 → s.mcUp mc = true →
          (bits w2 32 1 = 1 → s.hostLine addr false = some (mc, line) → line < 2 ^ 32 →
            t.out.hostWr = s.out.hostWr ++ [⟨h, d.getD 0 0 / 8 * 8, (((lineBytes (s.hline mc line)).drop (addr % 32)).take 8).map (BitVec.ofNat 8),
              (s.hline mc line).poi⟩] ∧ t.hbm = s.hbm ∧ t.rd p R.PCIE_DMA_BYTES = (s.rd p R.PCIE_DMA_BYTES + 8) % 2 ^ 64) ∧
          (bits w2 32 1 = 0 → s.hostLine addr true = some (mc, line) → line < 2 ^ 32 → data.length = 8 →
            t.hbm = (s.putHline mc line (if poi = true then poisonLine
              else lineMerge (s.hline mc line) ((List.range 8).map fun i => (addr % 32 + i, data.getD i 0#8)))).hbm ∧
            t.rd p R.PCIE_DMA_BYTES = (s.rd p R.PCIE_DMA_BYTES + 8) % 2 ^ 64)))

/-- Sensors, N_T, N_P, the trip and ageing (R491-R511). -/
def Obligations.ThermalRows : Prop :=
  ∀ (s : State), Wf s →
    (∀ d (v : List Sample), d < 20 → s.start.rails = true → v.length = sensCount d → ∃ t, exec (.sensorSample d v) s = .next t ∧
      t.clk = (s.toTick ((s.dieTh d).last + if (s.dieTh d).fast then 5000 else 100000)).clk ∧ (t.dieTh d).last = t.clk.tick ∧
      (∀ i, i < sensCount d →
        let x := s.sensor (sensIdx d i)
        let y := t.sensor (sensIdx d i)
        let u := v.getD i ⟨0, false, 0⟩
        let near := ((neighbours d i).filter fun j => decide (j < sensCount d) && s.sensLive d j).map fun j => (v.getD j ⟨0, false, 0⟩).temp
        let same := if x.same ≠ 0 ∧ u.raw = x.raw then x.same + 1 else 1
        let away := if near ≠ [] ∧ ∀ b ∈ near, 60 < u.temp - b ∨ 60 < b - u.temp then x.away + 1 else 0
        let bad := u.span = false ∨ u.temp < -80 ∨ 600 < u.temp ∨ 100 ≤ same ∨ 10 ≤ away
        y.raw = u.raw ∧ y.temp = u.temp ∧ y.same = same ∧ y.away = away ∧ (bad → y.good = 0 ∧ y.sub = if x.sub = 0 then 1 else x.sub) ∧
        (¬ bad → y.good = x.good + 1 ∧ y.sub = x.sub) ∧ (s.warnAt d i ≤ t.reading d i ↔ y.hot ≠ none)) ∧
      (∀ h, s.thHoop = some h →
        let p := thPg (0x12 + h)
        t.rd p R.TH_PKG_EXCESS_Q = min 255 t.excess ∧
        t.rd p R.TH_PKG_EXCESS_QH = followQ (min 255 t.excess) (s.rd p R.TH_PKG_EXCESS_QH) % 256 ∧
        (t.thp.relax ≤ t.clk.tick → t.rd p R.TH_PKG_N_NT = thermalN (s.rd p R.TH_PKG_K_K) (followQ (min 255 t.excess) (s.rd p R.TH_PKG_EXCESS_QH)))) ∧
      (isOsier d = true → ∀ k, k < 3 → s.alive (mcPg d k) = true → t.rd (mcPg d k) R.MC_STAT_TEMP = min 255 (t.reading d (24 + k) / 4).toNat)) ∧
    (∀ d t0, let hots := (List.range (sensCount d)).filterMap fun i => (s.sensor (sensIdx d i)).hot
      t0 ∈ hots → (∀ b ∈ hots, t0 ≤ b) → s.thUp d = true → s.bit (thPg d) R.TH_STAT_WARN = false →
      exec (.tempWarn d) s = .next (((s.toTick (t0 + 1000000)).wb (thPg d) R.TH_STAT_WARN true).raise (thPg d) 1)) ∧
    (∀ d t0, (s.dieTh d).cold = some t0 → s.bit (thPg d) R.TH_STAT_WARN = true →
      exec (.tempWarnClear d) s = .next ((s.toTick (t0 + 1000000)).wb (thPg d) R.TH_STAT_WARN false)) ∧
    (∀ h t0, s.thHoop = some h → s.thp.ntLow = some t0 → s.thp.ntSaid = false → ∃ t, exec .throttle s = .next t ∧
      t.clk = (s.toTick (t0 + 1000000)).clk ∧ t.thp = { s.thp with ntSaid := true } ∧
      ((s.rd (thPg (0x12 + h)) R.PG_FMASK_MASK).testBit 3 = false → (t.rd (thPg (0x12 + h)) R.PG_FSTAT_SRC).testBit 3 = true)) ∧
    (∀ h watts (bad : Bool), s.thHoop = some h →
      let p := thPg (0x12 + h)
      ∃ t, exec (.powerUpdate watts bad) s = .next t ∧ t.clk = (s.toTick (s.thp.pwrAt + 100000)).clk ∧ t.thp = { s.thp with pwrAt := t.clk.tick, badRail := bad } ∧
        t.rd p R.TH_PWR_AVG = min watts 8191 ∧ t.rd p R.TH_PWR_PEAK = max (s.rd p R.TH_PWR_PEAK) (min watts 8191) % 8192 ∧
        t.rd p R.TH_PKG_N_NP = powerN (s.capHeld (s.rd p R.TH_CAP_W)) watts (s.rd p R.TH_PKG_N_NP) % 128 ∧
        (bad = true → (t.rd p R.TH_SAFE_CAUSE).testBit 1 = true)) ∧
    (∀ h d amps, s.thHoop = some h →
      let p := thPg (0x12 + h)
      let hit := isOsier d = true ∧ s.alive (thPg d) = true ∧ s.rd (thPg d) R.TH_OCP_A < amps ∧ ∀ t0, s.thp.ovc = some t0 → t0 + 10000 ≤ s.clk.tick
      (hit → ∃ t, exec (.overcurrent d amps) s = .next t ∧ t.clk = (if s.clk.j = 0 then s else s.toFrame).clk ∧
        t.thp = { s.thp with ovc := some s.clk.tick } ∧
        t.rd p R.TH_PKG_N_NP = max 16 (s.rd p R.TH_PKG_N_NP - 8) % 128) ∧
      (¬ hit → exec (.overcurrent d amps) s = .next s)) ∧
    (∀ d c, s.start.rails = true → d < 20 ∧ (c = 0 ∨ isOsier d = true ∧ c < 3) ∨ d = 0x1F ∧ c = 3 → ∃ t, exec (if d = 0x1F then .boardTrip else .thermalTrip d c) s = .next t ∧
      t.clk = s.clk ∧ t.thp.tripAt = some (s.thp.tripAt.getD s.clk.tick) ∧ t.thp.comps = s.thp.comps ++ [(d, c)] ∧ t.com = {} ∧ t.acks = [] ∧
      t.start.going = false ∧ t.start.save = none ∧ (∀ q, dieOf q < 18 → t.page q = pageZero q) ∧ (isHoop d = true → ∀ q, dieOf q = d → (t.page q).up = .never) ∧
      (∀ h, h < 2 → 0x12 + h ≠ d → s.thp.tripAt = none → s.alive (thPg (0x12 + h)) = true → (t.flashOf h).trips = min 65535 ((s.flashOf h).trips + 1) ∧
        t.rd (thPg (0x12 + h)) R.TH_TRIP_LAST_DIE = d ∧ t.rd (thPg (0x12 + h)) R.TH_TRIP_LAST_WHERE = c ∧
        ((s.rd (thPg (0x12 + h)) R.PG_FMASK_MASK).testBit 5 = false → (t.rd (thPg (0x12 + h)) R.PG_FSTAT_SRC).testBit 5 = true))) ∧
    (∀ (armed high : Bool) t0 b, s.thp.tripAt = some t0 → s.thp.below = some b →
      let gone (h : Nat) : Prop := ∃ c ∈ s.thp.comps, c.1 = 0x12 + h
      let free := armed = true ∧ high = true ∧ ¬ (gone 0 ∧ gone 1)
      (¬ free → exec (.tripRestart armed high) s = .next s) ∧
      (free → ∃ t, exec (.tripRestart armed high) s = .next t ∧ t.clk = (s.toTick (max (t0 + 1000000000) (b + 100000000))).clk ∧
        t.thp = { s.thp with tripAt := none, comps := [] } ∧ t.rd pkg0 R.PKG_STAGE_STAGE = 1 ∧ t.bit pkg0 R.PKG_STAGE_READY = false ∧
        (∀ h, h < 2 → gone h → (t.hoop h).rebootAt = some t.clk.tick) ∧ ∀ h, h < 2 → ¬ gone h → t.hoop h = s.hoop h)) ∧
    (∀ h, h < 2 → s.hoopUp h = true → look (fun _ => []) s.agePend h ≠ [] → ∃ t, exec (.ageLogRetry h) s = .next t ∧
      t.clk = (s.toTick ((s.hoop h).retryAt + 1000000000)).clk ∧ t.hoop h = { s.hoop h with retryAt := t.clk.tick } ∧
      (s.nvOk h = true → t.flashOf h = { s.flashOf h with age := (s.flashOf h).age ++ look (fun _ => []) s.agePend h } ∧
        t.agePend = put (fun _ => []) s.agePend h []) ∧
      (s.nvOk h = false → t.flash = s.flash ∧ t.agePend = s.agePend ∧
        t.rd (thPg (0x12 + h)) R.TH_NV_REFUSED = min (s.rd (thPg (0x12 + h)) R.TH_NV_REFUSED + 1) 65535)) ∧
    (∀ h d m x, h < 2 → s.hoopUp h = true → s.nvOk h = true → s.ageGives h d m = true →
      let hour := (s.flashOf h).hours + 1
      let age := (s.flashOf h).age ++ [⟨d, m, hour, s.ageValue h d m x⟩]
      let xs := (age ++ look (fun _ => []) s.agePend h).filter fun r => decide (r.die = d) && decide (r.mon = m) && decide (hour < r.hour + 1000)
      let cls := ((monitors d).getD m (0, 0)).1
      let eol := (fitLine xs hour (s.ageLimit d m) (decide (cls = 2) || decide (cls = 4))).1
      ∃ t, exec (.ageingSample h [(d, m, some x)]) s = .next t ∧ t.clk = (s.toTick ((s.hoop h).ageAt + 360000000000)).clk ∧
        (t.flashOf h).hours = hour ∧ (t.flashOf h).age = age ∧ t.agePend = s.agePend ∧
        (s.acts h = true → xs.length < 168 → (t.fit d m).valid = false ∧ (t.fit d m).eol = 0xFFFFFFFF ∧ (t.fit d m).n = xs.length) ∧
        (s.acts h = true → 168 ≤ xs.length → (t.fit d m).valid = true ∧ (t.fit d m).eol = eol ∧
          (eol < s.rd (agePg d) R.AGE_WARN_H_H → (s.fit d m).warned = false → (s.rd (agePg d) R.PG_FMASK_MASK).testBit 0 = false →
            (t.rd (agePg d) R.PG_FSTAT_SRC).testBit 0 = true)) ∧
        (s.acts h = false → t.fits = s.fits))

/-- Reset, boot and the stages (Tables 17-1, 17-2, 18-2). -/
def Obligations.StagesAndSecureBoot : Prop :=
  ∀ (s : State), Wf s →
    (∀ codes, exec (.vddAonInBand codes) s = .next (if s.pins.vidOn = false ∧ codes.length = 8 ∧ ∀ c ∈ codes, c ≤ 30
      then { s with pins := { s.pins with vid := codes, vidOn := true } } else s)) ∧
    (exec .stage0Entry s = .next (if s.pins.vidOn = true then { s with start := { s.start with rails := true } } else s)) ∧
    (∀ (aon : Bool), (aon = true → s.pins.resetN = true) → ∃ t, exec (if aon then .aonFault else .resetAssert) s = .next t ∧
      t.regs = [] ∧ t.pages = [] ∧ t.tiles = [] ∧ t.hbm = [] ∧ t.lasers = [] ∧ t.clk = {} ∧ t.cad = {} ∧ t.thp = {} ∧ t.hoops = [] ∧
      t.flash = s.flash ∧ t.out = s.out ∧ t.pending = s.pending ∧ t.start = { rails := s.start.rails } ∧ t.pins = { s.pins with resetN := false } ∧
      ∀ h, t.flog h = { crash := (s.flog h).crash }) ∧
    (s.pins.resetN = false → exec .aonFault s = .next s) ∧
    (∀ (un : Bool), s.start.rails = true → s.pins.resetN = false → ∃ t, exec (.resetRelease un) s = .next t ∧ t.clk = {} ∧
      t.pins = { s.pins with resetN := true } ∧ t.huabel = (s.flashOf 0).huabel ∧ t.start.t0 = 0 ∧
      ∀ h, h < 2 → t.rd (prPg h) R.PR_STAT_PIN_SAMPLED = s.pins.profSel % 4 ∧ t.rd (prPg h) R.PR_STAT_PIN_NOW = s.pins.profSel % 4 ∧
        t.bit (prPg h) R.PR_STAT_UNSTABLE = un) ∧
    (∀ h (a b : Nat × Bool × Nat) (self : Bool), h < 2 → s.pins.resetN = true → (s.page (hpTop h)).up = .never → s.thp.tripAt = none →
      let f := s.flashOf h
      let p := secPg h
      let img := if f.bootOk a then a else b
      let fail := (s.rd p R.PG_FMASK_MASK).testBit 0 = false
      let x := f.select (s.rd (prPg h) R.PR_STAT_PIN_SAMPLED)
      ∃ t, exec (.secureBoot h a b self) s = .next t ∧ t.clk = s.clk ∧
        ((f.bootOk a = true ∨ f.bootOk b = true) → t.rd p R.SEC_BOOT_IMAGE = (if f.bootOk a then 0 else 1) ∧ t.rd p R.SEC_BOOT_SVN = img.2.2 % 256 ∧
          (∀ q ∈ diePages (0x12 + h), (s.page q).up = .never → t.alive q = true) ∧ (f.bootOk a = false → fail → (t.rd p R.PG_FSTAT_SRC).testBit 0 = true) ∧
          (self = false → t.role h = roleFailed) ∧
          (self = true → t.role h = (if h = 0 then roleSolo else roleStandby) ∧ t.alive pkg0 = true ∧
            (h = 0 → t.hpEpoch 0 = 1 ∧ t.bit (hpTop 0) R.HP_ROLE_OVERLAP = true) ∧
            t.rd (prPg h) R.PR_STAT_IN_USE = x.1 % 4 ∧ t.rd (prPg h) R.PR_STAT_SOURCE = x.2.1 % 4 ∧
            ((s.alive pkg0 = false ∨ h = 0) → t.rd pkg0 R.PKG_IDENT_PKG_ID = x.2.2.1.id % 256 ∧ t.bit pkg0 R.PKG_START_AUTO = x.2.2.1.auto) ∧
            (s.rd pkg0 R.PKG_STAGE_STAGE = 0 → t.rd pkg0 R.PKG_STAGE_STAGE = 1))) ∧
        (f.bootOk a = false → f.bootOk b = false → t.role h = roleFailed ∧ (∀ q, t.alive q = true ↔ s.alive q = true ∨ q ∈ [hpTop h, p, prPg h]) ∧
          (fail → (t.rd p R.PG_FSTAT_SRC).testBit 0 = true))) ∧
    (∀ n, 2 ≤ n → n ≤ 4 → s.acting ≠ none → s.start.going = true → s.start.held = false → s.thp.tripAt = none → s.rd pkg0 R.PKG_STAGE_STAGE + 1 = n →
      (n = 2 ∨ s.start.work = true) → (n = 3 → (∀ d ∈ allDies, d ∈ s.cad.alignOk) ∧ s.cad.aligning = false) →
      let u := if n = 4 ∧ s.loopsOk = false then s.toTick (s.start.light + 100000000) else s
      ∃ t, exec (if n = 2 then .stage2Entry else if n = 3 then .stage3Entry else .stage4Entry) s = .next t ∧ t.clk = u.clk ∧
        t.rd pkg0 R.PKG_STAGE_STAGE = n ∧ t.rd pkg0 (Fld.idx R.PKG_STAGE_MS (n - 1)) = (u.clk.tick - s.start.t0) / 100000 % 2 ^ 32 ∧
        (s.start.t0 + deadline n * 100000 < u.clk.tick → (t.rd pkg0 R.PKG_START_STAT_LATE).testBit (n - 1) = true) ∧
        (s.rd pkg0 R.PKG_START_HOLD_AT = n → t.start.held = true ∧ t.start.work = false ∧ t.pages = (u.reach n).pages) ∧
        (s.rd pkg0 R.PKG_START_HOLD_AT ≠ n → t.start.held = false ∧ t.start.work = true ∧
          (n = 2 → ∀ d ∈ workDies, ∀ q ∈ diePages d, (s.page q).up = .never → t.alive q = true ∧ t.bit q R.PG_CTRL_ENABLE = true) ∧
          (n = 3 → ∀ r, r < 2 → s.alive (rdTop r) = true → t.bit (rdTop r) R.RD_CTRL_LIGHT_OK = true) ∧
          (n = 4 → t.bit pkg0 R.PKG_STAGE_READY = true))) ∧
    (∀ h val, s.takes h pkg0 .pkg0 0x140 (val ||| 1) = true →
      let e := (s.taken h pkg0 .pkg0 0x140 (val ||| 1)).wr pkg0 R.PKG_START_HOLD_AT (bits val 2 3)
      (e.thp.tripAt ≠ none → exec (.startGo h val) s = .next e) ∧
      (e.thp.tripAt = none → e.start.held = true → exec (.startGo h val) s = .next (State.stageWork
        { e with start := { e.start with held := false, t0 := e.clk.tick } } (e.rd pkg0 R.PKG_STAGE_STAGE))) ∧
      (e.thp.tripAt = none → e.start.held = false → e.rd pkg0 R.PKG_STAGE_STAGE = 1 → e.start.going = false →
        exec (.startGo h val) s = .next { e with start := { e.start with going := true, work := false, t0 := e.clk.tick } })) ∧
    (∀ n, 2 ≤ n → n ≤ 4 → s.start.going = true → s.start.held = false → s.rd pkg0 R.PKG_STAGE_STAGE < n → ∃ t, exec (.stageLate n) s = .next t ∧
      t.clk = (s.toTick (s.start.t0 + deadline n * 100000)).clk ∧ (t.rd pkg0 R.PKG_START_STAT_LATE).testBit (n - 1) = true) ∧
    (∀ d k, d < 8 → k < 3 → s.alive (mcPg d k) = true → exec (.hbmPhyTrained d k) s = .next (s.wb (mcPg d k) R.MC_STAT_TRAINED true) ∧
      exec (.caParityError d k) s = .next (s.raise (mcPg d k) 3)) ∧
    (∀ d pcs len (bad : Bool), d < 20 → s.alive (thPg d) = true → ∃ qs : Sparse (Nat × Nat),
      let e : State := { s with quiet := qs }
      exec (.quietWindow d pcs len bad) s = .next (if bad = true then e.raise (thPg d) 2 else e) ∧
      (d < 8 → ∀ k ∈ pcs, k < 192 → look (fun _ => (0, 0)) qs (d * 256 + k) = (s.clk.cc, s.clk.cc + len)) ∧
      ∀ x, ¬ (d < 8 ∧ ∃ k ∈ pcs, k < 192 ∧ x = d * 256 + k) → look (fun _ => (0, 0)) qs x = look (fun _ => (0, 0)) s.quiet x) ∧
    (∀ r d, s.pins.resetN = true → r ≤ 12 → s.thp.tripAt = none → ∃ t, exec (.railFault r d) s = .next t ∧ t.clk = s.clk ∧
      t.flt.haltNotices = s.flt.haltNotices ++ allDies.map (fun d => (d, recIdent 0x1F 0 2)) ∧
      (s.acting ≠ none → s.alive pkg0 = true → (s.rd pkg0 R.PG_FMASK_MASK).testBit 2 = false → (t.rd pkg0 R.PG_FSTAT_SRC).testBit 2 = true)) ∧
    (s.pins.resetN = true → s.clk.frozen = none → s.thp.tripAt = none → ∃ t, exec .refclkLoss s = .next t ∧
      t.clk = { s.clk with frozen := some (s.clk.tick - s.clk.base) } ∧ t.bit pkg2 R.PKG_TIME_CTRL_ZEROED = false ∧
      t.flt.haltNotices = s.flt.haltNotices ++ allDies.map fun d => (d, recIdent 0x1F 0 3))

/-- Chapter 17's remaining rows. -/
def Obligations.ProfilesKeysAndAccess : Prop :=
  ∀ (s : State), Wf s →
    (∀ v, v < 4 → v ≠ s.pins.profSel → ∃ t, exec (.profSelChange v) s = .next t ∧ t.pins = { s.pins with profSel := v } ∧ t.clk = s.clk ∧
      (s.pins.resetN = true → t.start.selSaid = true ∧ ∀ h, h < 2 → t.rd (prPg h) R.PR_STAT_PIN_NOW = v ∧ t.rd (prPg h) R.PR_STAT_PIN_SAMPLED = s.rd (prPg h) R.PR_STAT_PIN_SAMPLED ∧
        (s.start.selSaid = false → s.acts h = true → (s.rd (prPg h) R.PG_FMASK_MASK).testBit 2 = false → (t.rd (prPg h) R.PG_FSTAT_SRC).testBit 2 = true)) ∧
      (s.pins.resetN = false → t.regs = s.regs)) ∧
    (∀ (ok0 ok1 : Bool) h slot ws, s.start.save = some (h, slot, ws) →
      let into (f : Flash) : Flash := { f with profs := ws.zipIdx.foldl (fun m v => put erased m (slot * 128 + v.2) v.1) f.profs }
      let ok (k : Nat) : Bool := (if k = 0 then ok0 else ok1) && s.nvOk k
      ∃ t, exec (.profileSaveComplete ok0 ok1) s = .next t ∧ t.clk = s.clk ∧ t.start.save = none ∧ t.bit (prPg h) R.PR_CTRL_SAVE = false ∧
        (∀ k, k < 2 → t.flashOf k = (if ok k then into (s.flashOf k) else s.flashOf k) ∧
          (ok k = true → ∀ i, i < 4 → (t.rd (prPg k) R.PR_STAT_VALID).testBit i = profValid ((t.flashOf k).prof i) (t.flashOf k).grade)) ∧
        (¬ (ok 0 = true ∧ ok 1 = true) → t.bit (prPg h) R.PR_CTRL_ERR = true ∧
          ((s.rd (prPg h) R.PG_FMASK_MASK).testBit 4 = false → (t.rd (prPg h) R.PG_FSTAT_SRC).testBit 4 = true))) ∧
    (∀ (ok : Bool) ws, s.start.tagSave = some ws → ∃ t, exec (.tagSaveComplete ok) s = .next t ∧ t.clk = s.clk ∧ t.start.tagSave = none ∧
      t.bit pkg1 R.PKG_TAG_CTRL_SAVE = false ∧
      (ok = true → ∀ h, h < 2 → t.flashOf h = { s.flashOf h with tag := ws.zipIdx.foldl (fun m v => put natZero m v.2 v.1) [] }) ∧
      (ok = false → t.flash = s.flash ∧ t.bit pkg1 R.PKG_TAG_CTRL_SAVE_ERR = true)) ∧
    (∀ k, s.pins.resetN = true → 1000000 ≤ s.clk.tick → k ≤ 341 → (s.role 0 ≠ roleFailed ∨ s.role 1 ≠ roleFailed) → ∃ v, exec (.i3cRead k) s = .next { s with
        out := { s.out with i3c := s.out.i3c ++ [v] }, start := { s.start with alert := false } } ∧
      (s.alive pkg0 = false → v = none) ∧ (s.alive pkg0 = true → k = 338 → v = some (s.clk.n : Int)) ∧
      (s.alive pkg0 = true → k = 339 → v = some (s.rd pkg0 R.PKG_STAGE_STAGE : Int)) ∧
      (s.alive pkg0 = true → ∀ d i, d < 20 → i < sensCount d → k = sensIdx d i → v = some (s.reading d i))) ∧
    (∀ h lvl, s.start.scrub = some (h, lvl) → ∃ t, exec .vendorScrubDone s = .next t ∧ t.clk = s.clk ∧ t.start.scrub = none ∧
      t.hbm = [] ∧ t.cbuf = [] ∧ (∀ d k, d < 8 → k < 64 → (t.tile d k).mem = [] ∧ (t.tile d k).acc = [] ∧ (t.tile d k).imem = []) ∧
      (∀ k, k < 2 → t.rd (secPg k) R.SEC_DBG_LEVEL = lvl % 4 ∧ t.bit (secPg k) R.SEC_DBG_SCRUB = false) ∧
      (lvl ≠ 3 → t.rd pkg0 R.PKG_STAGE_STAGE = 1 ∧ t.bit pkg0 R.PKG_STAGE_READY = false ∧ t.start.going = false ∧
        ∀ q, dieOf q < 18 → t.page q = pageZero q)) ∧
    (∀ a wr, s.jtagOpen a wr.isSome = false → exec (.jtagAccess a wr) s = .next { s with out := { s.out with jtag := s.out.jtag ++ [none] } }) ∧
    (∀ a, s.jtagOpen a false = true → ∃ v, exec (.jtagAccess a none) s = .next { s with out := { s.out with jtag := s.out.jtag ++ [some v] } } ∧
      (∀ p off, a = .reg p off → v = s.readAt p (off % 0x1000 / 4 * 4)) ∧ (∀ mc l, a = .hbm mc l → v = (s.hline mc (l % 2 ^ 32)).data.toNat) ∧
      (∀ c l, a = .tmem c l → v = getBytes (s.tile c.die (c.tile % 64)).mem (l % 2 ^ 17 * 32) 32)) ∧
    (∀ a v, s.jtagOpen a true = true → ∃ t, exec (.jtagAccess a (some v)) s = .next t ∧ t.out.jtag = s.out.jtag ++ [some v] ∧
      (∀ mc l, a = .hbm mc l → t.hbm = (s.putHline mc l ⟨BitVec.ofNat 256 v, false⟩).hbm ∧ t.regs = s.regs) ∧
      (∀ h w, a = .flash h w → t.flashOf h = { s.flashOf h with profs := put erased (s.flashOf h).profs (w % 512) (v % 2 ^ 32) } ∧
        ∀ i, i < 4 → (t.rd (prPg h) R.PR_STAT_VALID).testBit i = profValid ((t.flashOf h).prof i) (t.flashOf h).grade))
end

