-- ==== Sys2Proof/Laws/Sparse.lean ====
section
/-! SUPPORT. Sparse maps: a read after a write, and every operation keeps the canonical form. -/

namespace Sys2Proof.Machine

variable {α : Type} [DecidableEq α] {d : Nat → α}

/-- Keys below the bound of a canonical map are unlisted. -/
theorem look_below (m : Sparse α) {lo k : Nat} (h : wfFrom d lo m = true) (hk : k < lo) : look d m k = d k := by
  cases m with
  | nil => rfl
  | cons e r =>
    obtain ⟨a, v⟩ := e
    simp only [wfFrom, Bool.and_eq_true, decide_eq_true_eq] at h
    have h1 : k ≠ a := by omega
    have h2 : k < a := by omega
    simp [look, h1, h2]

theorem wfFrom_mono (m : Sparse α) {lo lo' : Nat} (h : wfFrom d lo m = true) (hl : lo' ≤ lo) : wfFrom d lo' m = true := by
  cases m with
  | nil => rfl
  | cons e r =>
    obtain ⟨a, v⟩ := e
    simp only [wfFrom, Bool.and_eq_true, decide_eq_true_eq] at h ⊢
    exact ⟨⟨by omega, h.1.2⟩, h.2⟩

theorem wfFrom_put (m : Sparse α) (k : Nat) (v : α) : ∀ lo, wfFrom d lo m = true → lo ≤ k → wfFrom d lo (put d m k v) = true := by
  induction m with
  | nil =>
    intro lo _ hk
    by_cases hv : v = d k <;> simp [put, hv, wfFrom, hk]
  | cons e r ih =>
    obtain ⟨a, w⟩ := e
    intro lo h hk
    simp only [wfFrom, Bool.and_eq_true, decide_eq_true_eq] at h
    obtain ⟨⟨ha, hw⟩, hr⟩ := h
    rcases Nat.lt_trichotomy k a with hlt | heq | hgt
    · have hne : k ≠ a := by omega
      by_cases hv : v = d k
      · simp [put, hne, hlt, hv, wfFrom, ha, hw, hr]
      · simp [put, hne, hlt, hv, wfFrom, hk, hw, hr]
    · subst heq
      by_cases hv : v = d k
      · simp only [put, if_true, hv]
        exact wfFrom_mono r hr (by omega)
      · simp [put, hv, wfFrom, hk, hr]
    · have hne : k ≠ a := by omega
      have hnl : ¬ k < a := by omega
      simp [put, hne, hnl, wfFrom, ha, hw]
      exact ih (a + 1) hr (by omega)

/-- A write keeps the canonical form. -/
theorem swf_put {m : Sparse α} (k : Nat) (v : α) (h : swf d m = true) : swf d (put d m k v) = true :=
  wfFrom_put m k v 0 h (Nat.zero_le k)

@[simp] theorem swf_nil : swf d ([] : Sparse α) = true := rfl

theorem wfFrom_filter (m : Sparse α) (p : Nat × α → Bool) : ∀ lo, wfFrom d lo m = true → wfFrom d lo (m.filter p) = true := by
  induction m with
  | nil => intro lo h; exact h
  | cons e r ih =>
    obtain ⟨a, v⟩ := e
    intro lo h
    simp only [wfFrom, Bool.and_eq_true, decide_eq_true_eq] at h
    by_cases hp : p (a, v) = true
    · simp only [List.filter_cons, hp, if_true, wfFrom, Bool.and_eq_true, decide_eq_true_eq]
      exact ⟨h.1, ih _ h.2⟩
    · simp only [List.filter_cons, hp]
      exact wfFrom_mono _ (ih _ h.2) (by omega)

/-- Dropping entries keeps the canonical form. -/
theorem swf_filter {m : Sparse α} (p : Nat × α → Bool) (h : swf d m = true) : swf d (m.filter p) = true := wfFrom_filter m p 0 h

theorem swf_forgetIf {m : Sparse α} (f : Nat → Bool) (h : swf d m = true) : swf d (forgetIf m f) = true := swf_filter _ h

theorem swf_forget {m : Sparse α} (lo hi : Nat) (h : swf d m = true) : swf d (forget m lo hi) = true := swf_filter _ h

/-- Changing values and dropping those at their default keeps the canonical form. -/
theorem swf_mapFilter {m : Sparse α} (g : Nat × α → Nat × α) (hg : ∀ e, (g e).1 = e.1) (p : Nat × α → Bool)
    (hp : ∀ e, p (g e) = true → (g e).2 ≠ d e.1) (h : swf d m = true) : swf d ((m.map g).filter p) = true := by
  have key : ∀ (m : Sparse α) lo, wfFrom d lo m = true → wfFrom d lo ((m.map g).filter p) = true := by
    intro m
    induction m with
    | nil => intro lo _; rfl
    | cons e r ih =>
      intro lo h
      simp only [wfFrom, Bool.and_eq_true, decide_eq_true_eq] at h
      by_cases hpe : p (g e) = true
      · simp only [List.map_cons, List.filter_cons, hpe, if_true]
        have hge := hg e
        have hne := hp e hpe
        have hpair : g e = (e.1, (g e).2) := Prod.ext hge rfl
        rw [hpair]
        simp only [wfFrom, Bool.and_eq_true, decide_eq_true_eq]
        exact ⟨⟨h.1.1, hne⟩, ih _ h.2⟩
      · simp only [List.map_cons, List.filter_cons, hpe]
        exact wfFrom_mono _ (ih _ h.2) (by omega)
  exact key m 0 h

/-- A fold of operations that each keep the canonical form keeps it. -/
theorem swf_foldl {β : Type} (l : List β) {f : Sparse α → β → Sparse α} (hf : ∀ m x, swf d m = true → swf d (f m x) = true)
    {m : Sparse α} (h : swf d m = true) : swf d (l.foldl f m) = true := by
  induction l generalizing m with
  | nil => exact h
  | cons x l ih => exact ih (hf m x h)

/-! Reads after writes. -/

theorem look_put_from (m : Sparse α) (k : Nat) (v : α) : ∀ lo, wfFrom d lo m = true → look d (put d m k v) k = v := by
  induction m with
  | nil =>
    intro lo _
    by_cases hv : v = d k <;> simp [put, hv, look]
  | cons e r ih =>
    obtain ⟨a, w⟩ := e
    intro lo h
    simp only [wfFrom, Bool.and_eq_true, decide_eq_true_eq] at h
    rcases Nat.lt_trichotomy k a with hlt | heq | hgt
    · have hne : k ≠ a := by omega
      by_cases hv : v = d k <;> simp [put, hne, hlt, hv, look]
    · subst heq
      by_cases hv : v = d k
      · simp only [put, if_true, hv]
        exact look_below r h.2 (by omega)
      · simp [put, hv, look]
    · have hne : k ≠ a := by omega
      have hnl : ¬ k < a := by omega
      simp [put, hne, hnl, look]
      exact ih _ h.2

/-- A read of the key written gives the value written. -/
theorem look_put_self {m : Sparse α} (k : Nat) (v : α) (h : swf d m = true) : look d (put d m k v) k = v := look_put_from m k v 0 h

theorem put_put_from (m : Sparse α) (k : Nat) (v w : α) : ∀ lo, wfFrom d lo m = true → put d (put d m k v) k w = put d m k w := by
  induction m with
  | nil =>
    intro lo _
    by_cases hv : v = d k <;> simp [put, hv]
  | cons e r ih =>
    obtain ⟨a, x⟩ := e
    intro lo h
    simp only [wfFrom, Bool.and_eq_true, decide_eq_true_eq] at h
    rcases Nat.lt_trichotomy k a with hlt | heq | hgt
    · have hne : k ≠ a := by omega
      by_cases hv : v = d k <;> simp [put, hne, hlt, hv]
    · subst heq
      by_cases hv : v = d k
      · simp only [put, if_true, hv]
        cases r with
        | nil => rfl
        | cons g r =>
          obtain ⟨b, y⟩ := g
          have hb := h.2
          simp only [wfFrom, Bool.and_eq_true, decide_eq_true_eq] at hb
          have h1 : k ≠ b := by omega
          have h2 : k < b := by omega
          simp [put, h1, h2]
      · simp [put, hv]
    · have hne : k ≠ a := by omega
      have hnl : ¬ k < a := by omega
      simp only [put, hne, if_false, hnl]
      rw [ih _ h.2]

/-- The second of two writes of one key stands. -/
theorem put_put {m : Sparse α} (k : Nat) (v w : α) (h : swf d m = true) : put d (put d m k v) k w = put d m k w := put_put_from m k v w 0 h

omit [DecidableEq α] in
theorem look_cons_lt (a : Nat) (w : α) (r : Sparse α) {j : Nat} (h : j < a) : look d ((a, w) :: r) j = d j := by
  have h1 : j ≠ a := by omega
  simp [look, h1, h]

theorem look_put_ne_from (m : Sparse α) (k j : Nat) (v : α) (hjk : j ≠ k) :
    ∀ lo, wfFrom d lo m = true → look d (put d m k v) j = look d m j := by
  induction m with
  | nil =>
    intro lo _
    by_cases hv : v = d k <;> simp [put, hv, look, hjk]
  | cons e r ih =>
    obtain ⟨a, w⟩ := e
    intro lo h
    simp only [wfFrom, Bool.and_eq_true, decide_eq_true_eq] at h
    rcases Nat.lt_trichotomy k a with hlt | heq | hgt
    · have hne : k ≠ a := by omega
      by_cases hv : v = d k
      · simp [put, hne, hlt, hv]
      · simp only [put, hne, if_false, hlt, if_true, hv]
        by_cases hj : j < k
        · have h1 : j ≠ a := by omega
          have h2 : j < a := by omega
          simp [look, hjk, hj, h1, h2]
        · simp [look, hjk, hj]
    · subst heq
      by_cases hv : v = d k
      · simp only [put, if_true, hv]
        by_cases hj : j < k
        · rw [look_below r h.2 (by omega), look_cons_lt k w r hj]
        · simp [look, hjk, hj]
      · simp [put, hv, look, hjk]
    · have hne : k ≠ a := by omega
      have hnl : ¬ k < a := by omega
      simp only [put, hne, if_false, hnl]
      simp only [look]
      rw [ih _ h.2]

/-- A write leaves every other key alone. -/
theorem look_put_ne {m : Sparse α} {k j : Nat} (v : α) (hjk : j ≠ k) (h : swf d m = true) : look d (put d m k v) j = look d m j :=
  look_put_ne_from m k j v hjk 0 h

theorem look_filter_from (m : Sparse α) (f : Nat → Bool) (j : Nat) :
    ∀ lo, wfFrom d lo m = true → look d (forgetIf m f) j = if f j then d j else look d m j := by
  induction m with
  | nil => intro lo _; simp [forgetIf, look]
  | cons e r ih =>
    obtain ⟨a, w⟩ := e
    intro lo h
    simp only [wfFrom, Bool.and_eq_true, decide_eq_true_eq] at h
    have ih' := ih _ h.2
    simp only [forgetIf] at ih' ⊢
    by_cases hf : f a = true
    · simp only [List.filter_cons, hf, Bool.not_true, Bool.false_eq_true, if_false]
      rw [ih']
      by_cases hja : j = a
      · subst hja; simp [hf]
      · by_cases hfj : f j = true
        · simp [hfj]
        · simp only [hfj, look, hja, if_false, Bool.false_eq_true]
          by_cases hj : j < a
          · simp only [hj, if_true]; exact look_below r h.2 (by omega)
          · simp [hj]
    · simp only [List.filter_cons, hf, Bool.not_false, if_true, look]
      by_cases hja : j = a
      · subst hja; simp [hf]
      · simp only [hja, if_false]
        by_cases hj : j < a
        · by_cases hfj : f j = true <;> simp [hj, hfj]
        · simp only [hj, if_false]
          rw [ih']

/-- What forgotten entries and the others read as. -/
theorem look_forgetIf {m : Sparse α} (f : Nat → Bool) (j : Nat) (h : swf d m = true) :
    look d (forgetIf m f) j = if f j then d j else look d m j := look_filter_from m f j 0 h

end Sys2Proof.Machine
end

