-- ==== Sys2Proof/Laws/Kept.lean ====
section
/-! SUPPORT. What every helper of the model keeps: the queue of commands, and the canonical form of every sparse map. One rule per way a
helper is put together; Laws/Kept*.lean say it of each helper. -/

namespace Sys2Proof.Machine

/-- From `s` to `t` the queue is unchanged and canonical maps stay canonical. -/
structure Kept (s t : State) : Prop where
  pending : t.pending = s.pending
  wf : Wf s → Wf t

namespace Kept

variable {s a b t : State}

theorem refl (s : State) : Kept s s := ⟨rfl, id⟩

theorem trans (h : Kept s a) (g : Kept a t) : Kept s t := ⟨g.pending.trans h.pending, fun w => g.wf (h.wf w)⟩

theorem ite {c : Prop} [Decidable c] (h : Kept s a) (g : Kept s b) : Kept s (if c then a else b) := by
  split
  · exact h
  · exact g

/-- A state bound by name: show it kept once, and go on from the name. -/
theorem via (x : State) {P : Prop} (h : Kept s x) (g : Kept s x → P) : P := g h

/-- The same for a state in a pair. -/
theorem viaP {β : Type} (x : State × β) {P : Prop} (h : Kept s x.1) (g : Kept s x.1 → P) : P := g h

/-- A local function of the state: put it in where it is used. -/
theorem fn {β : Sort _} (_ : State → β) {P : Prop} (h : P) : P := h

theorem fst {β : Type} {y : β} (h : Kept s a) : Kept s (a, y).1 := h

theorem foldl {α : Type} (l : List α) {f : State → α → State} (hf : ∀ t x, Kept s t → Kept s (f t x)) (h : Kept s a) :
    Kept s (l.foldl f a) := by
  induction l generalizing a with
  | nil => exact h
  | cons x l ih => exact ih (hf a x h)

theorem foldr {α : Type} (l : List α) {f : α → State → State} (hf : ∀ x t, Kept s t → Kept s (f x t)) (h : Kept s a) :
    Kept s (l.foldr f a) := by
  induction l with
  | nil => exact h
  | cons x l ih => exact hf x _ ih

/-- A fold that carries a state and something else. -/
theorem foldlP {α β : Type} (l : List α) {f : State × β → α → State × β}
    (hf : ∀ t x, Kept s t.1 → Kept s (f t x).1) {p : State × β} (h : Kept s p.1) : Kept s (l.foldl f p).1 := by
  induction l generalizing p with
  | nil => exact h
  | cons x l ih => exact ih (hf p x h)

theorem pair {β : Type} {p : State × β} {y : β} {x : State} (e : p = (x, y)) (h : Kept s p.1) : Kept s x := by
  rw [e] at h; exact h

theorem pairIte {β : Type} {c : Prop} [Decidable c] {p q : State × β} (h : Kept s p.1) (g : Kept s q.1) :
    Kept s (if c then p else q).1 := by
  split
  · exact h
  · exact g

/-! Record updates. -/

/-- Changing what no canonical form speaks of. -/
theorem upd (h : Kept s a) {clk : Clock} {cad : CadSt} {mesh : List MeshFlit} {edges : List EdgeFlit} {stakeOld : List (Nat × Nat × Nat)} {sideRem : Sparse Nat} {cool : Sparse (Option Nat)} {scrubAt : Sparse Nat} {ovb : Sparse (List (Nat × Nat))} {ovbOver : Sparse Nat} {quiet : Sparse (Nat × Nat)} {reads : List RUnit} {loads : List LoadRun} {units : List WUnit} {offers : List Offer} {reqs : List ReqW} {nbq : List NbReq} {arrivals : List Arrival} {pkgt : PkgT} {grantAt : Sparse Nat} {sbGen : Nat} {notes : List (Nat × Note)} {acks : List Ack} {pins : PinSt} {ring : RingSt} {com : CommitRun} {thp : ThPkg} {agePend : Sparse (List AgeRec)} {start : StartSt} {out : OutSt} {freeCtr : Nat}
    {flt : FaultSt} (e : flt.logs = a.flt.logs) :
    Kept s { a with flt := flt, clk := clk, cad := cad, mesh := mesh, edges := edges, stakeOld := stakeOld, sideRem := sideRem, cool := cool, scrubAt := scrubAt, ovb := ovb, ovbOver := ovbOver, quiet := quiet, reads := reads, loads := loads, units := units, offers := offers, reqs := reqs, nbq := nbq, arrivals := arrivals, pkgt := pkgt, grantAt := grantAt, sbGen := sbGen, notes := notes, acks := acks, pins := pins, ring := ring, com := com, thp := thp, agePend := agePend, start := start, out := out, freeCtr := freeCtr } :=
  ⟨h.pending, fun w => { h.wf w with logs := (congrArg (swf flogZero) e).trans (h.wf w).logs }⟩

theorem regs (h : Kept s a) {x : Sparse Nat} (g : swf resetVal a.regs = true → swf resetVal x = true) : Kept s { a with regs := x } :=
  ⟨h.pending, fun w => { h.wf w with regs := g (h.wf w).regs }⟩

theorem pages (h : Kept s a) {x : Sparse PageSt} (g : swf pageZero a.pages = true → swf pageZero x = true) : Kept s { a with pages := x } :=
  ⟨h.pending, fun w => { h.wf w with pages := g (h.wf w).pages }⟩

theorem tiles (h : Kept s a) {x : Sparse Tile} (g : swf tileZero a.tiles = true → swf tileZero x = true) : Kept s { a with tiles := x } :=
  ⟨h.pending, fun w => { h.wf w with tiles := g (h.wf w).tiles }⟩

theorem osd (h : Kept s a) {x : Sparse OsDie} (g : swf osdZero a.osd = true → swf osdZero x = true) : Kept s { a with osd := x } :=
  ⟨h.pending, fun w => { h.wf w with osd := g (h.wf w).osd }⟩

theorem hbm (h : Kept s a) {x : Sparse FLine} (g : swf lineZero a.hbm = true → swf lineZero x = true) : Kept s { a with hbm := x } :=
  ⟨h.pending, fun w => { h.wf w with hbm := g (h.wf w).hbm }⟩

theorem stake (h : Kept s a) {x : Sparse Nat} (g : swf natZero a.stake = true → swf natZero x = true) : Kept s { a with stake := x } :=
  ⟨h.pending, fun w => { h.wf w with stake := g (h.wf w).stake }⟩

theorem engs (h : Kept s a) {x : Sparse Eng} (g : swf engZero a.engs = true → swf engZero x = true) : Kept s { a with engs := x } :=
  ⟨h.pending, fun w => { h.wf w with engs := g (h.wf w).engs }⟩

theorem ces (h : Kept s a) {x : Sparse Ce} (g : swf ceZero a.ces = true → swf ceZero x = true) : Kept s { a with ces := x } :=
  ⟨h.pending, fun w => { h.wf w with ces := g (h.wf w).ces }⟩

theorem cbuf (h : Kept s a) {x : Sparse FLine} (g : swf lineZero a.cbuf = true → swf lineZero x = true) : Kept s { a with cbuf := x } :=
  ⟨h.pending, fun w => { h.wf w with cbuf := g (h.wf w).cbuf }⟩

theorem borders (h : Kept s a) {x : Sparse Border} (g : swf borderZero a.borders = true → swf borderZero x = true) : Kept s { a with borders := x } :=
  ⟨h.pending, fun w => { h.wf w with borders := g (h.wf w).borders }⟩

theorem aud (h : Kept s a) {x : Sparse AudSt} (g : swf audZero a.aud = true → swf audZero x = true) : Kept s { a with aud := x } :=
  ⟨h.pending, fun w => { h.wf w with aud := g (h.wf w).aud }⟩

theorem wl (h : Kept s a) {x : Sparse WlEnd} (g : swf wlZero a.wl = true → swf wlZero x = true) : Kept s { a with wl := x } :=
  ⟨h.pending, fun w => { h.wf w with wl := g (h.wf w).wl }⟩

theorem lanes (h : Kept s a) {x : Sparse Lane} (g : swf laneZero a.lanes = true → swf laneZero x = true) : Kept s { a with lanes := x } :=
  ⟨h.pending, fun w => { h.wf w with lanes := g (h.wf w).lanes }⟩

theorem fibs (h : Kept s a) {x : Sparse FibSt} (g : swf fibZero a.fibs = true → swf fibZero x = true) : Kept s { a with fibs := x } :=
  ⟨h.pending, fun w => { h.wf w with fibs := g (h.wf w).fibs }⟩

theorem wfs (h : Kept s a) {x : Sparse WfSt} (g : swf wfZero a.wfs = true → swf wfZero x = true) : Kept s { a with wfs := x } :=
  ⟨h.pending, fun w => { h.wf w with wfs := g (h.wf w).wfs }⟩

theorem rds (h : Kept s a) {x : Sparse RdSt} (g : swf rdZero a.rds = true → swf rdZero x = true) : Kept s { a with rds := x } :=
  ⟨h.pending, fun w => { h.wf w with rds := g (h.wf w).rds }⟩

theorem lasers (h : Kept s a) {x : Sparse LaserSt} (g : swf laserZero a.lasers = true → swf laserZero x = true) : Kept s { a with lasers := x } :=
  ⟨h.pending, fun w => { h.wf w with lasers := g (h.wf w).lasers }⟩

theorem cal (h : Kept s a) {x : Sparse Nat} (g : swf calZero a.cal = true → swf calZero x = true) : Kept s { a with cal := x } :=
  ⟨h.pending, fun w => { h.wf w with cal := g (h.wf w).cal }⟩

theorem calSh (h : Kept s a) {x : Sparse Nat} (g : swf calZero a.calSh = true → swf calZero x = true) : Kept s { a with calSh := x } :=
  ⟨h.pending, fun w => { h.wf w with calSh := g (h.wf w).calSh }⟩

theorem subs (h : Kept s a) {x : Sparse SubLink} (g : swf subZero a.subs = true → swf subZero x = true) : Kept s { a with subs := x } :=
  ⟨h.pending, fun w => { h.wf w with subs := g (h.wf w).subs }⟩

theorem sqs (h : Kept s a) {x : Sparse Sq} (g : swf sqZero a.sqs = true → swf sqZero x = true) : Kept s { a with sqs := x } :=
  ⟨h.pending, fun w => { h.wf w with sqs := g (h.wf w).sqs }⟩

theorem dmas (h : Kept s a) {x : Sparse Dma} (g : swf dmaZero a.dmas = true → swf dmaZero x = true) : Kept s { a with dmas := x } :=
  ⟨h.pending, fun w => { h.wf w with dmas := g (h.wf w).dmas }⟩

theorem hoops (h : Kept s a) {x : Sparse HoopSt} (g : swf hoopZero a.hoops = true → swf hoopZero x = true) : Kept s { a with hoops := x } :=
  ⟨h.pending, fun w => { h.wf w with hoops := g (h.wf w).hoops }⟩

theorem snaps (h : Kept s a) {x : Sparse (Option SnapRun)} (g : swf (fun _ => none) a.snaps = true → swf (fun _ => none) x = true) : Kept s { a with snaps := x } :=
  ⟨h.pending, fun w => { h.wf w with snaps := g (h.wf w).snaps }⟩

theorem sens (h : Kept s a) {x : Sparse Sensor} (g : swf sensZero a.sens = true → swf sensZero x = true) : Kept s { a with sens := x } :=
  ⟨h.pending, fun w => { h.wf w with sens := g (h.wf w).sens }⟩

theorem dth (h : Kept s a) {x : Sparse DieTh} (g : swf dthZero a.dth = true → swf dthZero x = true) : Kept s { a with dth := x } :=
  ⟨h.pending, fun w => { h.wf w with dth := g (h.wf w).dth }⟩

theorem fits (h : Kept s a) {x : Sparse Fit} (g : swf fitZero a.fits = true → swf fitZero x = true) : Kept s { a with fits := x } :=
  ⟨h.pending, fun w => { h.wf w with fits := g (h.wf w).fits }⟩

theorem flash (h : Kept s a) {x : Sparse Flash} (g : swf flashZero a.flash = true → swf flashZero x = true) : Kept s { a with flash := x } :=
  ⟨h.pending, fun w => { h.wf w with flash := g (h.wf w).flash }⟩

theorem logs (h : Kept s a) {x : FaultSt} (g : swf flogZero a.flt.logs = true → swf flogZero x.logs = true) : Kept s { a with flt := x } :=
  ⟨h.pending, fun w => { h.wf w with logs := g (h.wf w).logs }⟩

end Kept

end Sys2Proof.Machine
end

