-- ==== Sys2Proof/Laws/KeptOps.lean ====
section
/-! SUPPORT. What the helpers of the shared operations keep. -/

namespace Sys2Proof.Machine

set_option linter.all false

theorem kept_wr {s0 s : State} (h : Kept s0 s) (p : Nat) (f : Fld) (v : Nat) : Kept s0 (State.wr s p f v) := by
  unfold State.wr
  repeat' with_reducible first
    | (extract_lets -underBinder +onlyGivenNames x; refine Kept.via (s := s0) x ?_ ?_; (on_goal 2 => (intro _; clear_value x)); (on_goal 1 => (subst x)))
    | (extract_lets -underBinder +onlyGivenNames x; clear_value x)
    | assumption | (refine Kept.regs ?_ (fun w => swf_put _ _ w)) | (refine Kept.upd ?_ rfl)

theorem kept_wb {s0 s : State} (h : Kept s0 s) (p : Nat) (f : Fld) (b : Bool) : Kept s0 (State.wb s p f b) := by
  unfold State.wb
  repeat' with_reducible first
    | assumption | (apply kept_wr) | (refine Kept.ite ?_ ?_)

theorem kept_addSat {s0 s : State} (h : Kept s0 s) (p : Nat) (f : Fld) (n : Nat) : Kept s0 (State.addSat s p f n) := by
  unfold State.addSat
  repeat' with_reducible first
    | assumption | (apply kept_wr)

theorem kept_inc {s0 s : State} (h : Kept s0 s) (p : Nat) (f : Fld) : Kept s0 (State.inc s p f) := by
  unfold State.inc
  repeat' with_reducible first
    | assumption | (apply kept_addSat)

theorem kept_addWrap {s0 s : State} (h : Kept s0 s) (p : Nat) (f : Fld) (n : Nat) : Kept s0 (State.addWrap s p f n) := by
  unfold State.addWrap
  repeat' with_reducible first
    | assumption | (apply kept_wr)

theorem kept_setBit {s0 s : State} (h : Kept s0 s) (p : Nat) (f : Fld) (i : Nat) : Kept s0 (State.setBit s p f i) := by
  unfold State.setBit
  repeat' with_reducible first
    | assumption | (apply kept_wr)

theorem kept_clrBit {s0 s : State} (h : Kept s0 s) (p : Nat) (f : Fld) (i : Nat) : Kept s0 (State.clrBit s p f i) := by
  unfold State.clrBit
  repeat' with_reducible first
    | assumption | (apply kept_wr) | (refine Kept.ite ?_ ?_)

theorem kept_putBit {s0 s : State} (h : Kept s0 s) (p : Nat) (f : Fld) (i : Nat) (b : Bool) : Kept s0 (State.putBit s p f i b) := by
  unfold State.putBit
  repeat' with_reducible first
    | assumption | (apply kept_setBit) | (apply kept_clrBit) | (refine Kept.ite ?_ ?_)

theorem kept_epochUp {s0 s : State} (h : Kept s0 s) (p epoch : Nat) : Kept s0 (State.epochUp s p epoch) := by
  unfold State.epochUp
  repeat' with_reducible first
    | assumption | (apply kept_wr) | (apply kept_wb) | (refine Kept.ite ?_ ?_)

theorem kept_zero {s0 s : State} (h : Kept s0 s) (p : Nat) (fs : List Fld) : Kept s0 (State.zero s p fs) := by
  unfold State.zero
  repeat' with_reducible first
    | (intro) | assumption | (apply kept_wr) | (refine Kept.foldl _ ?_ ?_)

theorem kept_resetRegs {s0 s : State} (h : Kept s0 s) (p : Nat) (kept : List Fld) : Kept s0 (State.resetRegs s p kept) := by
  unfold State.resetRegs
  repeat' with_reducible first
    | (extract_lets -underBinder +onlyGivenNames x; refine Kept.via (s := s0) x ?_ ?_; (on_goal 2 => (intro _; clear_value x)); (on_goal 1 => (subst x)))
    | (extract_lets -underBinder +onlyGivenNames x; clear_value x)
    | (intro) | assumption | (refine Kept.regs ?_ (fun w => swf_forgetIf _ w)) | (refine Kept.upd ?_ rfl)

theorem kept_setPage {s0 s : State} (h : Kept s0 s) (p : Nat) (x : PageSt) : Kept s0 (State.setPage s p x) := by
  unfold State.setPage
  repeat' with_reducible first
    | (extract_lets -underBinder +onlyGivenNames x; refine Kept.via (s := s0) x ?_ ?_; (on_goal 2 => (intro _; clear_value x)); (on_goal 1 => (subst x)))
    | (extract_lets -underBinder +onlyGivenNames x; clear_value x)
    | assumption | (refine Kept.pages ?_ (fun w => swf_put _ _ w)) | (refine Kept.upd ?_ rfl)

theorem kept_setUp {s0 s : State} (h : Kept s0 s) (p : Nat) (u : PageUp) : Kept s0 (State.setUp s p u) := by
  unfold State.setUp
  repeat' with_reducible first
    | (extract_lets -underBinder +onlyGivenNames x; refine Kept.via (s := s0) x ?_ ?_; (on_goal 2 => (intro _; clear_value x)); (on_goal 1 => (subst x)))
    | (extract_lets -underBinder +onlyGivenNames x; clear_value x)
    | assumption | (apply kept_setPage) | (refine Kept.upd ?_ rfl)

theorem kept_passSlots {s0 s : State} (h : Kept s0 s) (k : Nat) : Kept s0 (State.passSlots s k) := by
  unfold State.passSlots
  repeat' with_reducible first
    | (extract_lets -underBinder +onlyGivenNames x; refine Kept.via (s := s0) x ?_ ?_; (on_goal 2 => (intro _; clear_value x)); (on_goal 1 => (subst x)))
    | (extract_lets -underBinder +onlyGivenNames x; clear_value x)
    | assumption | (refine Kept.upd ?_ rfl)

theorem kept_toTick {s0 s : State} (h : Kept s0 s) (t : Nat) : Kept s0 (State.toTick s t) := by
  unfold State.toTick
  repeat' with_reducible first
    | assumption | (apply kept_passSlots) | (refine Kept.ite ?_ ?_)

theorem kept_toCc {s0 s : State} (h : Kept s0 s) (c : Nat) : Kept s0 (State.toCc s c) := by
  unfold State.toCc
  repeat' with_reducible first
    | assumption | (apply kept_passSlots) | (refine Kept.ite ?_ ?_) | (rename_i e; refine Kept.pair e ?_)

theorem kept_setTile {s0 s : State} (h : Kept s0 s) (d t : Nat) (x : Tile) : Kept s0 (State.setTile s d t x) := by
  unfold State.setTile
  repeat' with_reducible first
    | (extract_lets -underBinder +onlyGivenNames x; refine Kept.via (s := s0) x ?_ ?_; (on_goal 2 => (intro _; clear_value x)); (on_goal 1 => (subst x)))
    | (extract_lets -underBinder +onlyGivenNames x; clear_value x)
    | assumption | (refine Kept.tiles ?_ (fun w => swf_put _ _ w)) | (refine Kept.upd ?_ rfl)

theorem kept_setOd {s0 s : State} (h : Kept s0 s) (d : Nat) (x : OsDie) : Kept s0 (State.setOd s d x) := by
  unfold State.setOd
  repeat' with_reducible first
    | (extract_lets -underBinder +onlyGivenNames x; refine Kept.via (s := s0) x ?_ ?_; (on_goal 2 => (intro _; clear_value x)); (on_goal 1 => (subst x)))
    | (extract_lets -underBinder +onlyGivenNames x; clear_value x)
    | assumption | (refine Kept.osd ?_ (fun w => swf_put _ _ w)) | (refine Kept.upd ?_ rfl)

theorem kept_setCe {s0 s : State} (h : Kept s0 s) (d : Nat) (x : Ce) : Kept s0 (State.setCe s d x) := by
  unfold State.setCe
  repeat' with_reducible first
    | (extract_lets -underBinder +onlyGivenNames x; refine Kept.via (s := s0) x ?_ ?_; (on_goal 2 => (intro _; clear_value x)); (on_goal 1 => (subst x)))
    | (extract_lets -underBinder +onlyGivenNames x; clear_value x)
    | assumption | (refine Kept.ces ?_ (fun w => swf_put _ _ w)) | (refine Kept.upd ?_ rfl)

theorem kept_sendRec {s0 s : State} (h : Kept s0 s) (r : FaultRec) : Kept s0 (State.sendRec s r) := by
  unfold State.sendRec
  repeat' with_reducible first
    | (extract_lets -underBinder +onlyGivenNames x; refine Kept.via (s := s0) x ?_ ?_; (on_goal 2 => (intro _; clear_value x)); (on_goal 1 => (subst x)))
    | (extract_lets -underBinder +onlyGivenNames x)
    | assumption | (refine Kept.upd ?_ rfl)

theorem kept_startGrace {s0 s : State} (h : Kept s0 s) (p src sev : Nat) : Kept s0 (State.startGrace s p src sev) := by
  unfold State.startGrace
  repeat' with_reducible first
    | (extract_lets -underBinder +onlyGivenNames x; refine Kept.via (s := s0) x ?_ ?_; (on_goal 2 => (intro _; clear_value x)); (on_goal 1 => (subst x)))
    | (extract_lets -underBinder +onlyGivenNames x; clear_value x)
    | (intro) | assumption | (apply kept_setPage) | (refine Kept.ite ?_ ?_) | (split) | (refine Kept.upd ?_ rfl)

theorem kept_raiseX {s0 s : State} (h : Kept s0 s) (p src last extra : Nat) : Kept s0 (State.raiseX s p src last extra) := by
  unfold State.raiseX
  repeat' with_reducible first
    | (extract_lets -underBinder +onlyGivenNames x; refine Kept.via (s := s0) x ?_ ?_; (on_goal 2 => (intro _; clear_value x)); (on_goal 1 => (subst x)))
    | (extract_lets -underBinder +onlyGivenNames x; clear_value x)
    | (intro) | assumption | (apply kept_setBit) | (apply kept_setPage) | (apply kept_sendRec) | (apply kept_startGrace) | (refine Kept.ite ?_ ?_) | (split) | (refine Kept.upd ?_ rfl)

theorem kept_raise {s0 s : State} (h : Kept s0 s) (p src : Nat) : Kept s0 (State.raise s p src) := by
  unfold State.raise
  repeat' with_reducible first
    | (extract_lets -underBinder +onlyGivenNames x; refine Kept.via (s := s0) x ?_ ?_; (on_goal 2 => (intro _; clear_value x)); (on_goal 1 => (subst x)))
    | (extract_lets -underBinder +onlyGivenNames x; refine Kept.viaP (s := s0) x ?_ ?_; (on_goal 2 => (intro _; clear_value x)); (on_goal 1 => (subst x)))
    | (extract_lets -underBinder +onlyGivenNames x; clear_value x)
    | assumption | (apply kept_raiseX) | (dsimp -zeta only)

theorem kept_msix {s0 s : State} (h : Kept s0 s) (h v : Nat) : Kept s0 (State.msix s h v) := by
  unfold State.msix
  repeat' with_reducible first
    | (extract_lets -underBinder +onlyGivenNames x; refine Kept.via (s := s0) x ?_ ?_; (on_goal 2 => (intro _; clear_value x)); (on_goal 1 => (subst x)))
    | (extract_lets -underBinder +onlyGivenNames x; clear_value x)
    | assumption | (refine Kept.upd ?_ rfl)

theorem kept_draw {s0 s : State} (h : Kept s0 s)  : Kept s0 (State.draw s).1 := by
  unfold State.draw
  repeat' with_reducible first
    | (extract_lets -underBinder +onlyGivenNames x; refine Kept.via (s := s0) x ?_ ?_; (on_goal 2 => (intro _; clear_value x)); (on_goal 1 => (subst x)))
    | (extract_lets -underBinder +onlyGivenNames x; clear_value x)
    | assumption | (refine Kept.pairIte ?_ ?_) | (refine Kept.upd ?_ rfl) | (dsimp -zeta only)

theorem kept_meshEvent {s0 s : State} (h : Kept s0 s) (d src node port : Nat) : Kept s0 (State.meshEvent s d src node port) := by
  unfold State.meshEvent
  repeat' with_reducible first
    | (extract_lets -underBinder +onlyGivenNames x; refine Kept.via (s := s0) x ?_ ?_; (on_goal 2 => (intro _; clear_value x)); (on_goal 1 => (subst x)))
    | (extract_lets -underBinder +onlyGivenNames x; clear_value x)
    | assumption | (apply kept_wr) | (apply kept_inc) | (apply kept_raise)

theorem kept_tileEvent {s0 s : State} (h : Kept s0 s) (d t : Nat) (e : TEv) : Kept s0 (State.tileEvent s d t e) := by
  unfold State.tileEvent
  repeat' with_reducible first
    | (extract_lets -underBinder +onlyGivenNames x; refine Kept.via (s := s0) x ?_ ?_; (on_goal 2 => (intro _; clear_value x)); (on_goal 1 => (subst x)))
    | (extract_lets -underBinder +onlyGivenNames x; clear_value x)
    | assumption | (apply kept_wr) | (apply kept_wb) | (apply kept_inc) | (apply kept_raise) | (apply kept_meshEvent) | (apply kept_flitLost) | (refine Kept.ite ?_ ?_) | (split) | (refine Kept.upd ?_ rfl)

theorem kept_drainTile {s0 s : State} (h : Kept s0 s) (d t : Nat) : Kept s0 (State.drainTile s d t) := by
  unfold State.drainTile
  repeat' with_reducible first
    | (extract_lets -underBinder +onlyGivenNames x; refine Kept.via (s := s0) x ?_ ?_; (on_goal 2 => (intro _; clear_value x)); (on_goal 1 => (subst x)))
    | (extract_lets -underBinder +onlyGivenNames x; clear_value x)
    | (intro) | assumption | (apply kept_setTile) | (apply kept_tileEvent) | (refine Kept.foldl _ ?_ ?_) | (refine Kept.upd ?_ rfl)

theorem kept_onTile {s0 s : State} (h : Kept s0 s) (d t : Nat) (f : Tile → Tile) : Kept s0 (State.onTile s d t f) := by
  unfold State.onTile
  repeat' with_reducible first
    | assumption | (apply kept_setTile) | (apply kept_drainTile)

theorem kept_issue {s0 s : State} (h : Kept s0 s) (a : TileAt) (sl : Slot) (last : Bool) (f : Tile → Tile) : Kept s0 (State.issue s a sl last f) := by
  unfold State.issue
  repeat' with_reducible first
    | (intro) | assumption | (apply kept_toCc) | (apply kept_onTile) | (refine Kept.ite ?_ ?_)

end Sys2Proof.Machine
end

