-- ==== Sys2Proof/Laws/KeptMove.lean ====
section
/-! SUPPORT. What the helpers of memory, tile control, stream engines and lending keep. -/

namespace Sys2Proof.Machine

set_option linter.all false

theorem kept_setEng {s0 s : State} (h : Kept s0 s) (d e : Nat) (x : Eng) : Kept s0 (State.setEng s d e x) := by
  unfold State.setEng
  repeat' with_reducible first
    | (extract_lets -underBinder +onlyGivenNames x; refine Kept.via (s := s0) x ?_ ?_; (on_goal 2 => (intro _; clear_value x)); (on_goal 1 => (subst x)))
    | (extract_lets -underBinder +onlyGivenNames x; clear_value x)
    | assumption | (refine Kept.engs ?_ (fun w => swf_put _ _ w)) | (refine Kept.upd ?_ rfl)

theorem kept_setWle {s0 s : State} (h : Kept s0 s) (p : Nat) (x : WlEnd) : Kept s0 (State.setWle s p x) := by
  unfold State.setWle
  repeat' with_reducible first
    | (extract_lets -underBinder +onlyGivenNames x; refine Kept.via (s := s0) x ?_ ?_; (on_goal 2 => (intro _; clear_value x)); (on_goal 1 => (subst x)))
    | (extract_lets -underBinder +onlyGivenNames x; clear_value x)
    | assumption | (refine Kept.wl ?_ (fun w => swf_put _ _ w)) | (refine Kept.upd ?_ rfl)

theorem kept_setBord {s0 s : State} (h : Kept s0 s) (d : Nat) (x : Border) : Kept s0 (State.setBord s d x) := by
  unfold State.setBord
  repeat' with_reducible first
    | (extract_lets -underBinder +onlyGivenNames x; refine Kept.via (s := s0) x ?_ ?_; (on_goal 2 => (intro _; clear_value x)); (on_goal 1 => (subst x)))
    | (extract_lets -underBinder +onlyGivenNames x; clear_value x)
    | assumption | (refine Kept.borders ?_ (fun w => swf_put _ _ w)) | (refine Kept.upd ?_ rfl)

theorem kept_setAu {s0 s : State} (h : Kept s0 s) (d : Nat) (x : AudSt) : Kept s0 (State.setAu s d x) := by
  unfold State.setAu
  repeat' with_reducible first
    | (extract_lets -underBinder +onlyGivenNames x; refine Kept.via (s := s0) x ?_ ?_; (on_goal 2 => (intro _; clear_value x)); (on_goal 1 => (subst x)))
    | (extract_lets -underBinder +onlyGivenNames x; clear_value x)
    | assumption | (refine Kept.aud ?_ (fun w => swf_put _ _ w)) | (refine Kept.upd ?_ rfl)

theorem kept_putHline {s0 s : State} (h : Kept s0 s) (mc line : Nat) (f : FLine) : Kept s0 (State.putHline s mc line f) := by
  unfold State.putHline
  repeat' with_reducible first
    | (extract_lets -underBinder +onlyGivenNames x; refine Kept.via (s := s0) x ?_ ?_; (on_goal 2 => (intro _; clear_value x)); (on_goal 1 => (subst x)))
    | (extract_lets -underBinder +onlyGivenNames x; clear_value x)
    | assumption | (refine Kept.ite ?_ ?_) | (refine Kept.hbm ?_ (fun w => swf_put _ _ w)) | (split) | (refine Kept.upd ?_ rfl)

theorem kept_putHunit {s0 s : State} (h : Kept s0 s) (mc u : Nat) (ls : List FLine) : Kept s0 (State.putHunit s mc u ls) := by
  unfold State.putHunit
  repeat' with_reducible first
    | (intro) | assumption | (apply kept_putHline) | (refine Kept.foldl _ ?_ ?_) | (refine Kept.foldlP _ ?_ ?_) | (dsimp -zeta only)

theorem kept_mcEvent {s0 s : State} (h : Kept s0 s) (mc src addr : Nat) : Kept s0 (State.mcEvent s mc src addr) := by
  unfold State.mcEvent
  repeat' with_reducible first
    | (extract_lets -underBinder +onlyGivenNames x; refine Kept.via (s := s0) x ?_ ?_; (on_goal 2 => (intro _; clear_value x)); (on_goal 1 => (subst x)))
    | (extract_lets -underBinder +onlyGivenNames x; clear_value x)
    | assumption | (apply kept_wr) | (apply kept_inc) | (apply kept_raise) | (refine Kept.ite ?_ ?_)

theorem kept_mcRead {s0 s : State} (h : Kept s0 s) (mc : Nat) (us : List Nat) (ls : List FLine) (hits : List EccHit) : Kept s0 (State.mcRead s mc us ls hits).1 := by
  unfold State.mcRead
  repeat' with_reducible first
    | (extract_lets -underBinder +onlyGivenNames x; refine Kept.via (s := s0) x ?_ ?_; (on_goal 2 => (intro _; clear_value x)); (on_goal 1 => (subst x)))
    | (extract_lets -underBinder +onlyGivenNames x; refine Kept.viaP (s := s0) x ?_ ?_; (on_goal 2 => (intro _; clear_value x)); (on_goal 1 => (subst x)))
    | (extract_lets -underBinder +onlyGivenNames x; clear_value x)
    | (intro) | assumption | (apply kept_addSat) | (apply kept_mcEvent) | (refine Kept.ite ?_ ?_) | (refine Kept.pairIte ?_ ?_) | (refine Kept.foldl _ ?_ ?_) | (refine Kept.foldlP _ ?_ ?_) | (rename_i e; refine Kept.pair e ?_) | (dsimp -zeta only)

theorem kept_mcDeliver {s0 s : State} (h : Kept s0 s) (mc t : Nat) (us : List Nat) (ls : List FLine) (hits : List EccHit) (late : List Nat) : Kept s0 (State.mcDeliver s mc t us ls hits late).1 := by
  unfold State.mcDeliver
  repeat' with_reducible first
    | (extract_lets -underBinder +onlyGivenNames x; refine Kept.via (s := s0) x ?_ ?_; (on_goal 2 => (intro _; clear_value x)); (on_goal 1 => (subst x)))
    | (extract_lets -underBinder +onlyGivenNames x; refine Kept.viaP (s := s0) x ?_ ?_; (on_goal 2 => (intro _; clear_value x)); (on_goal 1 => (subst x)))
    | (extract_lets -underBinder +onlyGivenNames x; clear_value x)
    | (intro) | assumption | (apply kept_mcEvent) | (apply kept_mcRead) | (refine Kept.ite ?_ ?_) | (refine Kept.pairIte ?_ ?_) | (refine Kept.foldl _ ?_ ?_) | (refine Kept.foldlP _ ?_ ?_) | (dsimp -zeta only)

theorem kept_sideBytes {s0 s : State} (h : Kept s0 s) (mc n : Nat) : Kept s0 (State.sideBytes s mc n) := by
  unfold State.sideBytes
  repeat' with_reducible first
    | (extract_lets -underBinder +onlyGivenNames x; refine Kept.via (s := s0) x ?_ ?_; (on_goal 2 => (intro _; clear_value x)); (on_goal 1 => (subst x)))
    | (extract_lets -underBinder +onlyGivenNames x; clear_value x)
    | assumption | (apply kept_addWrap) | (refine Kept.upd ?_ rfl)

theorem kept_refreshSeen {s0 s : State} (h : Kept s0 s) (die stack temp : Nat) : Kept s0 (State.refreshSeen s die stack temp) := by
  unfold State.refreshSeen
  repeat' with_reducible first
    | (extract_lets -underBinder +onlyGivenNames x; refine Kept.via (s := s0) x ?_ ?_; (on_goal 2 => (intro _; clear_value x)); (on_goal 1 => (subst x)))
    | (extract_lets -underBinder +onlyGivenNames x; clear_value x)
    | (intro) | assumption | (refine Kept.ite ?_ ?_) | (split) | (refine Kept.upd ?_ rfl)

theorem kept_stakeWrite {s0 s : State} (h : Kept s0 s) (d g v : Nat) : Kept s0 (State.stakeWrite s d g v) := by
  unfold State.stakeWrite
  repeat' with_reducible first
    | (extract_lets -underBinder +onlyGivenNames x; refine Kept.via (s := s0) x ?_ ?_; (on_goal 2 => (intro _; clear_value x)); (on_goal 1 => (subst x)))
    | (extract_lets -underBinder +onlyGivenNames x; refine Kept.viaP (s := s0) x ?_ ?_; (on_goal 2 => (intro _; clear_value x)); (on_goal 1 => (subst x)))
    | (extract_lets -underBinder +onlyGivenNames x; clear_value x)
    | (intro) | assumption | (refine Kept.trans (a := s) (by assumption) ⟨rfl, fun w => { w with stake := swf_put _ _ w.stake }⟩) | (refine Kept.stake ?_ (fun w => swf_put _ _ w)) | (refine Kept.upd ?_ rfl) | (dsimp -zeta only)

theorem kept_condNote {s0 s : State} (h : Kept s0 s) (d c : Nat) : Kept s0 (State.condNote s d c) := by
  unfold State.condNote
  repeat' with_reducible first
    | (extract_lets -underBinder +onlyGivenNames x; refine Kept.via (s := s0) x ?_ ?_; (on_goal 2 => (intro _; clear_value x)); (on_goal 1 => (subst x)))
    | (extract_lets -underBinder +onlyGivenNames x; refine Kept.viaP (s := s0) x ?_ ?_; (on_goal 2 => (intro _; clear_value x)); (on_goal 1 => (subst x)))
    | (extract_lets -underBinder +onlyGivenNames x; clear_value x)
    | assumption | (apply kept_toCc) | (apply kept_setOd) | (refine Kept.ite ?_ ?_) | (split) | (refine Kept.upd ?_ rfl) | (dsimp -zeta only)

theorem kept_evtAdd {s0 s : State} (h : Kept s0 s) (d c n : Nat) : Kept s0 (State.evtAdd s d c n) := by
  unfold State.evtAdd
  repeat' with_reducible first
    | (extract_lets -underBinder +onlyGivenNames x; refine Kept.via (s := s0) x ?_ ?_; (on_goal 2 => (intro _; clear_value x)); (on_goal 1 => (subst x)))
    | (extract_lets -underBinder +onlyGivenNames x; refine Kept.viaP (s := s0) x ?_ ?_; (on_goal 2 => (intro _; clear_value x)); (on_goal 1 => (subst x)))
    | (extract_lets -underBinder +onlyGivenNames x; clear_value x)
    | (intro) | assumption | (apply kept_addSat) | (apply kept_setOd) | (apply kept_condNote) | (refine Kept.upd ?_ rfl) | (dsimp -zeta only)

theorem kept_evtOpt {s0 s : State} (h : Kept s0 s) (d : Nat) (e : Option Nat) : Kept s0 (State.evtOpt s d e) := by
  unfold State.evtOpt
  repeat' with_reducible first
    | (extract_lets -underBinder +onlyGivenNames x; refine Kept.via (s := s0) x ?_ ?_; (on_goal 2 => (intro _; clear_value x)); (on_goal 1 => (subst x)))
    | (extract_lets -underBinder +onlyGivenNames x; clear_value x)
    | assumption | (apply kept_evtAdd) | (split)

theorem kept_engErr {s0 s : State} (h : Kept s0 s) (d e idx src : Nat) : Kept s0 (State.engErr s d e idx src) := by
  unfold State.engErr
  repeat' with_reducible first
    | (extract_lets -underBinder +onlyGivenNames x; refine Kept.via (s := s0) x ?_ ?_; (on_goal 2 => (intro _; clear_value x)); (on_goal 1 => (subst x)))
    | (extract_lets -underBinder +onlyGivenNames x; clear_value x)
    | assumption | (apply kept_wr) | (apply kept_raise) | (refine Kept.ite ?_ ?_)

theorem kept_zeroErr {s0 s : State} (h : Kept s0 s) (d src : Nat) : Kept s0 (State.zeroErr s d src) := by
  unfold State.zeroErr
  repeat' with_reducible first
    | (extract_lets -underBinder +onlyGivenNames x; refine Kept.via (s := s0) x ?_ ?_; (on_goal 2 => (intro _; clear_value x)); (on_goal 1 => (subst x)))
    | (extract_lets -underBinder +onlyGivenNames x; refine Kept.viaP (s := s0) x ?_ ?_; (on_goal 2 => (intro _; clear_value x)); (on_goal 1 => (subst x)))
    | (extract_lets -underBinder +onlyGivenNames x; clear_value x)
    | assumption | (apply kept_draw) | (apply kept_engErr) | (dsimp -zeta only)

theorem kept_stakeCe {s0 s : State} (h : Kept s0 s) (d : Nat) (stk : Option Bool) (err : State → State) (h_err : ∀ (x0 : State), Kept s0 x0 → Kept s0 (err x0)) : Kept s0 (State.stakeCe s d stk err) := by
  unfold State.stakeCe
  repeat' with_reducible first
    | assumption | (apply kept_inc) | (apply h_err) | (refine Kept.ite ?_ ?_)

theorem kept_placeErr {s0 s : State} (h : Kept s0 s) (d e idx : Nat) (pl : Place) : Kept s0 (State.placeErr s d e idx pl) := by
  unfold State.placeErr
  repeat' with_reducible first
    | (extract_lets -underBinder +onlyGivenNames x; refine Kept.via (s := s0) x ?_ ?_; (on_goal 2 => (intro _; clear_value x)); (on_goal 1 => (subst x)))
    | (extract_lets -underBinder +onlyGivenNames x; clear_value x)
    | assumption | (apply kept_engErr) | (split)

theorem kept_ovbAdd {s0 s : State} (h : Kept s0 s) (mc t u : Nat) : Kept s0 (State.ovbAdd s mc t u) := by
  unfold State.ovbAdd
  repeat' with_reducible first
    | (extract_lets -underBinder +onlyGivenNames x; refine Kept.via (s := s0) x ?_ ?_; (on_goal 2 => (intro _; clear_value x)); (on_goal 1 => (subst x)))
    | (extract_lets -underBinder +onlyGivenNames x; refine Kept.viaP (s := s0) x ?_ ?_; (on_goal 2 => (intro _; clear_value x)); (on_goal 1 => (subst x)))
    | (extract_lets -underBinder +onlyGivenNames x; clear_value x)
    | (intro) | assumption | (refine Kept.upd ?_ rfl) | (dsimp -zeta only)

theorem kept_budget {s0 s : State} (h : Kept s0 s) (mc : Nat) (us : List Nat) (t : Nat) : Kept s0 (State.budget s mc us t) := by
  unfold State.budget
  repeat' with_reducible first
    | (extract_lets -underBinder +onlyGivenNames x; refine Kept.via (s := s0) x ?_ ?_; (on_goal 2 => (intro _; clear_value x)); (on_goal 1 => (subst x)))
    | (extract_lets -underBinder +onlyGivenNames x; clear_value x)
    | (intro) | assumption | (apply kept_wr) | (apply kept_inc) | (apply kept_raise) | (apply kept_ovbAdd) | (refine Kept.foldl _ ?_ ?_) | (split) | (refine Kept.upd ?_ rfl)

theorem kept_digAdd {s0 s : State} (h : Kept s0 s) (d e : Nat) (g : Option (Nat × Nat)) (ls : List FLine) : Kept s0 (State.digAdd s d e g ls) := by
  unfold State.digAdd
  repeat' with_reducible first
    | (extract_lets -underBinder +onlyGivenNames x; refine Kept.via (s := s0) x ?_ ?_; (on_goal 2 => (intro _; clear_value x)); (on_goal 1 => (subst x)))
    | (extract_lets -underBinder +onlyGivenNames x; clear_value x)
    | assumption | (apply kept_setEng) | (split)

theorem kept_tileIdle {s0 s : State} (h : Kept s0 s) (d t : Nat) : Kept s0 (State.tileIdle s d t) := by
  unfold State.tileIdle
  repeat' with_reducible first
    | (extract_lets -underBinder +onlyGivenNames x; refine Kept.via (s := s0) x ?_ ?_; (on_goal 2 => (intro _; clear_value x)); (on_goal 1 => (subst x)))
    | (extract_lets -underBinder +onlyGivenNames x; clear_value x)
    | assumption | (apply kept_setTile) | (refine Kept.upd ?_ rfl)

theorem kept_rowFollow {s0 s : State} (h : Kept s0 s) (d r : Nat) : Kept s0 (State.rowFollow s d r) := by
  unfold State.rowFollow
  repeat' with_reducible first
    | (extract_lets -underBinder +onlyGivenNames x; refine Kept.via (s := s0) x ?_ ?_; (on_goal 2 => (intro _; clear_value x)); (on_goal 1 => (subst x)))
    | (extract_lets -underBinder +onlyGivenNames x; clear_value x)
    | (intro) | assumption | (apply kept_setTile) | (refine Kept.ite ?_ ?_) | (refine Kept.foldl _ ?_ ?_) | (rename_i e; refine Kept.pair e ?_)

theorem kept_zeroReq {s0 s : State} (h : Kept s0 s) (d r v : Nat) : Kept s0 (State.zeroReq s d r v) := by
  unfold State.zeroReq
  repeat' with_reducible first
    | (extract_lets -underBinder +onlyGivenNames x; refine Kept.via (s := s0) x ?_ ?_; (on_goal 2 => (intro _; clear_value x)); (on_goal 1 => (subst x)))
    | (extract_lets -underBinder +onlyGivenNames x; clear_value x)
    | (intro) | assumption | (apply kept_setBit) | (apply kept_setTile) | (refine Kept.ite ?_ ?_) | (refine Kept.foldl _ ?_ ?_) | (split) | (refine Kept.upd ?_ rfl)

theorem kept_tgCntClr {s0 s : State} (h : Kept s0 s) (d r : Nat) : Kept s0 (State.tgCntClr s d r) := by
  unfold State.tgCntClr
  repeat' with_reducible first
    | assumption | (apply kept_zero)

theorem kept_tileTo {s0 s : State} (h : Kept s0 s) (a : TileAt) (due : Tile → Option Nat) : Kept s0 (State.tileTo s a due) := by
  unfold State.tileTo
  repeat' with_reducible first
    | (extract_lets -underBinder +onlyGivenNames x; refine Kept.via (s := s0) x ?_ ?_; (on_goal 2 => (intro _; clear_value x)); (on_goal 1 => (subst x)))
    | (extract_lets -underBinder +onlyGivenNames x; clear_value x)
    | (intro) | assumption | (apply kept_toCc) | (apply kept_onTile) | (refine Kept.ite ?_ ?_) | (split)

theorem kept_laneTake {s0 s : State} (h : Kept s0 s) (d e lane c idx : Nat) : Kept s0 (State.laneTake s d e lane c idx) := by
  unfold State.laneTake
  repeat' with_reducible first
    | (extract_lets -underBinder +onlyGivenNames x; refine Kept.via (s := s0) x ?_ ?_; (on_goal 2 => (intro _; clear_value x)); (on_goal 1 => (subst x)))
    | (extract_lets -underBinder +onlyGivenNames x; clear_value x)
    | (intro) | assumption | (refine Kept.ite ?_ ?_) | (split) | (refine Kept.upd ?_ rfl)

theorem kept_laneClaim {s0 s : State} (h : Kept s0 s) (d e lane c idx : Nat) : Kept s0 (State.laneClaim s d e lane c idx).1 := by
  unfold State.laneClaim
  repeat' with_reducible first
    | (extract_lets -underBinder +onlyGivenNames x; refine Kept.via (s := s0) x ?_ ?_; (on_goal 2 => (intro _; clear_value x)); (on_goal 1 => (subst x)))
    | (extract_lets -underBinder +onlyGivenNames x; clear_value x)
    | (intro) | assumption | (apply kept_engErr) | (apply kept_laneTake) | (refine Kept.ite ?_ ?_) | (refine Kept.pairIte ?_ ?_) | (rename_i e; refine Kept.pair e ?_) | (dsimp -zeta only)

theorem kept_addRead {s0 s : State} (h : Kept s0 s) (r : RUnit) : Kept s0 (State.addRead s r) := by
  unfold State.addRead
  repeat' with_reducible first
    | (extract_lets -underBinder +onlyGivenNames x; refine Kept.via (s := s0) x ?_ ?_; (on_goal 2 => (intro _; clear_value x)); (on_goal 1 => (subst x)))
    | (extract_lets -underBinder +onlyGivenNames x; refine Kept.viaP (s := s0) x ?_ ?_; (on_goal 2 => (intro _; clear_value x)); (on_goal 1 => (subst x)))
    | (extract_lets -underBinder +onlyGivenNames x; clear_value x)
    | (intro) | assumption | (apply kept_evtOpt) | (apply kept_laneClaim) | (refine Kept.ite ?_ ?_) | (refine Kept.foldl _ ?_ ?_) | (refine Kept.foldlP _ ?_ ?_) | (split) | (refine Kept.upd ?_ rfl) | (dsimp -zeta only)

theorem kept_addTake {s0 s : State} (h : Kept s0 s) (w : WUnit) : Kept s0 (State.addTake s w) := by
  unfold State.addTake
  repeat' with_reducible first
    | (extract_lets -underBinder +onlyGivenNames x; refine Kept.via (s := s0) x ?_ ?_; (on_goal 2 => (intro _; clear_value x)); (on_goal 1 => (subst x)))
    | (extract_lets -underBinder +onlyGivenNames x; refine Kept.viaP (s := s0) x ?_ ?_; (on_goal 2 => (intro _; clear_value x)); (on_goal 1 => (subst x)))
    | (extract_lets -underBinder +onlyGivenNames x; clear_value x)
    | assumption | (apply kept_laneClaim) | (refine Kept.ite ?_ ?_) | (split) | (refine Kept.upd ?_ rfl) | (dsimp -zeta only)

theorem kept_edgeEvent {s0 s : State} (h : Kept s0 s) (d src ep : Nat) : Kept s0 (State.edgeEvent s d src ep) := by
  unfold State.edgeEvent
  repeat' with_reducible first
    | assumption | (apply kept_meshEvent) | (dsimp -zeta only)

theorem kept_takeDue {s0 s : State} (h : Kept s0 s) (d c : Nat) : Kept s0 (State.takeDue s d c) := by
  unfold State.takeDue
  repeat' with_reducible first
    | (extract_lets -underBinder +onlyGivenNames x; refine Kept.via (s := s0) x ?_ ?_; (on_goal 2 => (intro _; clear_value x)); (on_goal 1 => (subst x)))
    | (extract_lets -underBinder +onlyGivenNames x; clear_value x)
    | (intro) | assumption | (apply kept_digAdd) | (apply kept_edgeEvent) | (refine Kept.ite ?_ ?_) | (refine Kept.foldl _ ?_ ?_) | (split) | (refine Kept.upd ?_ rfl)

theorem kept_stageFlit {s0 s : State} (h : Kept s0 s) (d port e c idx : Nat) (ls : List FLine) : Kept s0 (State.stageFlit s d port e c idx ls) := by
  unfold State.stageFlit
  repeat' with_reducible first
    | (extract_lets -underBinder +onlyGivenNames x; refine Kept.via (s := s0) x ?_ ?_; (on_goal 2 => (intro _; clear_value x)); (on_goal 1 => (subst x)))
    | (extract_lets -underBinder +onlyGivenNames x; clear_value x)
    | (intro) | assumption | (apply kept_engErr) | (refine Kept.ite ?_ ?_) | (split) | (refine Kept.upd ?_ rfl)

theorem kept_enterUnit {s0 s : State} (h : Kept s0 s) (w : WUnit) : Kept s0 (State.enterUnit s w) := by
  unfold State.enterUnit
  repeat' with_reducible first
    | (extract_lets -underBinder +onlyGivenNames x; refine Kept.via (s := s0) x ?_ ?_; (on_goal 2 => (intro _; clear_value x)); (on_goal 1 => (subst x)))
    | (extract_lets -underBinder +onlyGivenNames x; clear_value x)
    | (intro) | assumption | (apply kept_putHunit) | (apply kept_evtOpt) | (apply kept_stageFlit) | (refine Kept.ite ?_ ?_) | (split) | (refine Kept.upd ?_ rfl)

theorem kept_enterDue {s0 s : State} (h : Kept s0 s) (d k : Nat) : Kept s0 (State.enterDue s d k) := by
  unfold State.enterDue
  repeat' with_reducible first
    | (extract_lets -underBinder +onlyGivenNames x; refine Kept.via (s := s0) x ?_ ?_; (on_goal 2 => (intro _; clear_value x)); (on_goal 1 => (subst x)))
    | (extract_lets -underBinder +onlyGivenNames x; clear_value x)
    | (intro) | assumption | (apply kept_enterUnit) | (refine Kept.foldl _ ?_ ?_) | (refine Kept.upd ?_ rfl)

theorem kept_enterFlits {s0 s : State} (h : Kept s0 s) (d c : Nat) : Kept s0 (State.enterFlits s d c) := by
  unfold State.enterFlits
  repeat' with_reducible first
    | (extract_lets -underBinder +onlyGivenNames x; refine Kept.via (s := s0) x ?_ ?_; (on_goal 2 => (intro _; clear_value x)); (on_goal 1 => (subst x)))
    | (extract_lets -underBinder +onlyGivenNames x; clear_value x)
    | (intro) | assumption | (apply kept_enterUnit) | (refine Kept.foldl _ ?_ ?_) | (split) | (refine Kept.upd ?_ rfl)

theorem kept_edgesLost {s0 s : State} (h : Kept s0 s) (d c : Nat) : Kept s0 (State.edgesLost s d c) := by
  unfold State.edgesLost
  repeat' with_reducible first
    | (extract_lets -underBinder +onlyGivenNames x; refine Kept.via (s := s0) x ?_ ?_; (on_goal 2 => (intro _; clear_value x)); (on_goal 1 => (subst x)))
    | (extract_lets -underBinder +onlyGivenNames x; clear_value x)
    | (intro) | assumption | (apply kept_edgeEvent) | (refine Kept.foldl _ ?_ ?_) | (refine Kept.upd ?_ rfl)

theorem kept_arrivalsLost {s0 s : State} (h : Kept s0 s) (d c : Nat) : Kept s0 (State.arrivalsLost s d c) := by
  unfold State.arrivalsLost
  repeat' with_reducible first
    | (extract_lets -underBinder +onlyGivenNames x; refine Kept.via (s := s0) x ?_ ?_; (on_goal 2 => (intro _; clear_value x)); (on_goal 1 => (subst x)))
    | (extract_lets -underBinder +onlyGivenNames x; refine Kept.viaP (s := s0) x ?_ ?_; (on_goal 2 => (intro _; clear_value x)); (on_goal 1 => (subst x)))
    | (extract_lets -underBinder +onlyGivenNames x; clear_value x)
    | (intro) | assumption | (apply kept_draw) | (apply kept_meshEvent) | (refine Kept.foldl _ ?_ ?_) | (refine Kept.foldlP _ ?_ ?_) | (split) | (refine Kept.upd ?_ rfl) | (dsimp -zeta only)

theorem kept_settleDie {s0 s : State} (h : Kept s0 s) (d c : Nat) : Kept s0 (State.settleDie s d c) := by
  unfold State.settleDie
  repeat' with_reducible first
    | assumption | (apply kept_takeDue) | (apply kept_enterDue) | (apply kept_edgesLost) | (apply kept_arrivalsLost)

theorem kept_startDesc {s0 s : State} (h : Kept s0 s) (d e : Nat) (ok : Nat → Bool) (ue2 : Bool) (f : Desc → State → State) (h_f : ∀ (x0 : Desc) (x1 : State), Kept s0 x1 → Kept s0 (f x0 x1)) : Kept s0 (State.startDesc s d e ok ue2 f) := by
  unfold State.startDesc
  repeat' with_reducible first
    | (extract_lets -underBinder +onlyGivenNames x; refine Kept.via (s := s0) x ?_ ?_; (on_goal 2 => (intro _; clear_value x)); (on_goal 1 => (subst x)))
    | (extract_lets -underBinder +onlyGivenNames x; refine Kept.viaP (s := s0) x ?_ ?_; (on_goal 2 => (intro _; clear_value x)); (on_goal 1 => (subst x)))
    | (extract_lets -underBinder +onlyGivenNames x; clear_value x)
    | (intro) | assumption | (apply kept_toCc) | (apply kept_setEng) | (apply kept_engErr) | (apply h_f) | (refine Kept.ite ?_ ?_) | (split) | (refine Kept.upd ?_ rfl) | (rename_i e; refine Kept.pair e ?_) | (dsimp -zeta only)

theorem kept_runDesc {s0 s : State} (h : Kept s0 s) (d e : Nat) (r : Desc) : Kept s0 (State.runDesc s d e r) := by
  unfold State.runDesc
  repeat' with_reducible first
    | (extract_lets -underBinder +onlyGivenNames x; refine Kept.via (s := s0) x ?_ ?_; (on_goal 2 => (intro _; clear_value x)); (on_goal 1 => (subst x)))
    | (extract_lets -underBinder +onlyGivenNames x; clear_value x)
    | assumption | (apply kept_setEng) | (refine Kept.upd ?_ rfl)

theorem kept_takeArrival {s0 s : State} (h : Kept s0 s) (d port dest c : Nat) : Kept s0 (State.takeArrival s d port dest c).1 := by
  unfold State.takeArrival
  repeat' with_reducible first
    | (extract_lets -underBinder +onlyGivenNames x; refine Kept.via (s := s0) x ?_ ?_; (on_goal 2 => (intro _; clear_value x)); (on_goal 1 => (subst x)))
    | (extract_lets -underBinder +onlyGivenNames x; clear_value x)
    | (intro) | assumption | (refine Kept.pairIte ?_ ?_) | (split) | (refine Kept.upd ?_ rfl) | (rename_i e; refine Kept.pair e ?_) | (dsimp -zeta only)

theorem kept_budgets {s0 s : State} (h : Kept s0 s) (pl : Place) (us : List Nat) (t : Nat) : Kept s0 (State.budgets s pl us t) := by
  unfold State.budgets
  repeat' with_reducible first
    | (extract_lets -underBinder +onlyGivenNames x; refine Kept.via (s := s0) x ?_ ?_; (on_goal 2 => (intro _; clear_value x)); (on_goal 1 => (subst x)))
    | (extract_lets -underBinder +onlyGivenNames x; clear_value x)
    | assumption | (apply kept_budget) | (split)

theorem kept_issueRd {s0 s : State} (h : Kept s0 s) (d e : Nat) (r : Desc) (t addr : Nat) (go ue : Bool) (evt : Option Nat) : Kept s0 (State.issueRd s d e r t addr go ue evt) := by
  unfold State.issueRd
  repeat' with_reducible first
    | (extract_lets -underBinder +onlyGivenNames x; refine Kept.via (s := s0) x ?_ ?_; (on_goal 2 => (intro _; clear_value x)); (on_goal 1 => (subst x)))
    | (extract_lets -underBinder +onlyGivenNames x; clear_value x)
    | (intro) | assumption | (apply kept_engErr) | (apply kept_placeErr) | (apply kept_addRead) | (apply kept_budgets) | (refine Kept.ite ?_ ?_) | (refine Kept.foldl _ ?_ ?_) | (split) | (refine Kept.upd ?_ rfl)

theorem kept_issueWr {s0 s : State} (h : Kept s0 s) (d e : Nat) (r : Desc) (t addr : Nat) (go ue : Bool) (evt : Option Nat) : Kept s0 (State.issueWr s d e r t addr go ue evt) := by
  unfold State.issueWr
  repeat' with_reducible first
    | (extract_lets -underBinder +onlyGivenNames x; refine Kept.via (s := s0) x ?_ ?_; (on_goal 2 => (intro _; clear_value x)); (on_goal 1 => (subst x)))
    | (extract_lets -underBinder +onlyGivenNames x; clear_value x)
    | (intro) | assumption | (apply kept_engErr) | (apply kept_placeErr) | (apply kept_addTake) | (apply kept_budgets) | (refine Kept.ite ?_ ?_) | (refine Kept.foldl _ ?_ ?_) | (split)

theorem kept_issueRdw {s0 s : State} (h : Kept s0 s) (d e : Nat) (r : Desc) (t addr : Nat) (go ue : Bool) (evt : Option Nat) : Kept s0 (State.issueRdw s d e r t addr go ue evt) := by
  unfold State.issueRdw
  repeat' with_reducible first
    | (extract_lets -underBinder +onlyGivenNames x; refine Kept.via (s := s0) x ?_ ?_; (on_goal 2 => (intro _; clear_value x)); (on_goal 1 => (subst x)))
    | (extract_lets -underBinder +onlyGivenNames x; refine Kept.viaP (s := s0) x ?_ ?_; (on_goal 2 => (intro _; clear_value x)); (on_goal 1 => (subst x)))
    | (extract_lets -underBinder +onlyGivenNames x; clear_value x)
    | (intro) | assumption | (apply kept_placeErr) | (apply kept_addRead) | (apply kept_budgets) | (refine Kept.ite ?_ ?_) | (split) | (refine Kept.upd ?_ rfl) | (dsimp -zeta only)

theorem kept_issueWrw {s0 s : State} (h : Kept s0 s) (d e : Nat) (r : Desc) (t addr : Nat) (go ue : Bool) (evt : Option Nat) : Kept s0 (State.issueWrw s d e r t addr go ue evt) := by
  unfold State.issueWrw
  repeat' with_reducible first
    | (extract_lets -underBinder +onlyGivenNames x; refine Kept.via (s := s0) x ?_ ?_; (on_goal 2 => (intro _; clear_value x)); (on_goal 1 => (subst x)))
    | (extract_lets -underBinder +onlyGivenNames x; refine Kept.viaP (s := s0) x ?_ ?_; (on_goal 2 => (intro _; clear_value x)); (on_goal 1 => (subst x)))
    | (extract_lets -underBinder +onlyGivenNames x; clear_value x)
    | (intro) | assumption | (apply kept_placeErr) | (apply kept_takeArrival) | (apply kept_budgets) | (refine Kept.ite ?_ ?_) | (split) | (refine Kept.upd ?_ rfl) | (dsimp -zeta only)

theorem kept_issueMw {s0 s : State} (h : Kept s0 s) (d e : Nat) (r : Desc) (t : Nat) (go : Bool) (evt : Option Nat) : Kept s0 (State.issueMw s d e r t go evt) := by
  unfold State.issueMw
  repeat' with_reducible first
    | (extract_lets -underBinder +onlyGivenNames x; refine Kept.via (s := s0) x ?_ ?_; (on_goal 2 => (intro _; clear_value x)); (on_goal 1 => (subst x)))
    | (extract_lets -underBinder +onlyGivenNames x; clear_value x)
    | (intro) | assumption | (apply kept_addTake) | (refine Kept.ite ?_ ?_) | (refine Kept.foldl _ ?_ ?_)

theorem kept_toMesh {s0 s : State} (h : Kept s0 s) (d e lane c : Nat) (ls : List FLine) : Kept s0 (State.toMesh s d e lane c ls) := by
  unfold State.toMesh
  repeat' with_reducible first
    | (extract_lets -underBinder +onlyGivenNames x; refine Kept.via (s := s0) x ?_ ?_; (on_goal 2 => (intro _; clear_value x)); (on_goal 1 => (subst x)))
    | (extract_lets -underBinder +onlyGivenNames x; refine Kept.viaP (s := s0) x ?_ ?_; (on_goal 2 => (intro _; clear_value x)); (on_goal 1 => (subst x)))
    | (extract_lets -underBinder +onlyGivenNames x; clear_value x)
    | assumption | (refine Kept.upd ?_ rfl) | (dsimp -zeta only)

theorem kept_issueWm {s0 s : State} (h : Kept s0 s) (d e : Nat) (r : Desc) (t : Nat) (go : Bool) (evt : Option Nat) : Kept s0 (State.issueWm s d e r t go evt) := by
  unfold State.issueWm
  repeat' with_reducible first
    | (extract_lets -underBinder +onlyGivenNames x; refine Kept.via (s := s0) x ?_ ?_; (on_goal 2 => (intro _; clear_value x)); (on_goal 1 => (subst x)))
    | (extract_lets -underBinder +onlyGivenNames x; refine Kept.viaP (s := s0) x ?_ ?_; (on_goal 2 => (intro _; clear_value x)); (on_goal 1 => (subst x)))
    | (extract_lets -underBinder +onlyGivenNames x; clear_value x)
    | (intro) | assumption | (apply kept_addRead) | (apply kept_takeArrival) | (refine Kept.ite ?_ ?_) | (refine Kept.foldl _ ?_ ?_) | (refine Kept.foldlP _ ?_ ?_) | (dsimp -zeta only)

theorem kept_issueSload {s0 s : State} (h : Kept s0 s) (d e : Nat) (r : Desc) (t addr : Nat) (go ue : Bool) (evt : Option Nat) : Kept s0 (State.issueSload s d e r t addr go ue evt) := by
  unfold State.issueSload
  repeat' with_reducible first
    | (extract_lets -underBinder +onlyGivenNames x; refine Kept.via (s := s0) x ?_ ?_; (on_goal 2 => (intro _; clear_value x)); (on_goal 1 => (subst x)))
    | (extract_lets -underBinder +onlyGivenNames x; refine Kept.viaP (s := s0) x ?_ ?_; (on_goal 2 => (intro _; clear_value x)); (on_goal 1 => (subst x)))
    | (extract_lets -underBinder +onlyGivenNames x; clear_value x)
    | assumption | (apply kept_placeErr) | (apply kept_addRead) | (apply kept_budgets) | (refine Kept.ite ?_ ?_) | (split) | (refine Kept.upd ?_ rfl) | (dsimp -zeta only)

theorem kept_issueLoadt {s0 s : State} (h : Kept s0 s) (d e : Nat) (r : Desc) (t addr : Nat) (go ue : Bool) (evt : Option Nat) : Kept s0 (State.issueLoadt s d e r t addr go ue evt) := by
  unfold State.issueLoadt
  repeat' with_reducible first
    | (extract_lets -underBinder +onlyGivenNames x; refine Kept.via (s := s0) x ?_ ?_; (on_goal 2 => (intro _; clear_value x)); (on_goal 1 => (subst x)))
    | (extract_lets -underBinder +onlyGivenNames x; clear_value x)
    | (intro) | assumption | (apply kept_placeErr) | (apply kept_addRead) | (apply kept_budgets) | (refine Kept.ite ?_ ?_) | (split) | (refine Kept.upd ?_ rfl)

theorem kept_issueTxn {s0 s : State} (h : Kept s0 s) (d e : Nat) (stk : Option Bool) : Kept s0 (State.issueTxn s d e stk) := by
  unfold State.issueTxn
  repeat' with_reducible first
    | (extract_lets -underBinder +onlyGivenNames x; refine Kept.via (s := s0) x ?_ ?_; (on_goal 2 => (intro _; clear_value x)); (on_goal 1 => (subst x)))
    | (extract_lets -underBinder +onlyGivenNames x; refine Kept.viaP (s := s0) x ?_ ?_; (on_goal 2 => (intro _; clear_value x)); (on_goal 1 => (subst x)))
    | (extract_lets -underBinder +onlyGivenNames x; clear_value x)
    | (intro) | assumption | (apply kept_wr) | (apply kept_addSat) | (apply kept_inc) | (apply kept_toCc) | (apply kept_setEng) | (apply kept_engErr) | (apply kept_takeDue) | (apply kept_enterDue) | (apply kept_settleDie) | (apply kept_issueRd) | (apply kept_issueWr) | (apply kept_issueRdw) | (apply kept_issueWrw) | (apply kept_issueMw) | (apply kept_issueWm) | (apply kept_issueSload) | (apply kept_issueLoadt) | (refine Kept.ite ?_ ?_) | (refine Kept.foldl _ ?_ ?_) | (refine Kept.foldlP _ ?_ ?_) | (split) | (refine Kept.upd ?_ rfl) | (dsimp -zeta only)

theorem kept_loadDeliver {s0 s : State} (h : Kept s0 s) (d col hdr : Nat) (data : List FLine) (gone : List Nat) : Kept s0 (State.loadDeliver s d col hdr data gone) := by
  unfold State.loadDeliver
  repeat' with_reducible first
    | (extract_lets -underBinder +onlyGivenNames x; refine Kept.via (s := s0) x ?_ ?_; (on_goal 2 => (intro _; clear_value x)); (on_goal 1 => (subst x)))
    | (extract_lets -underBinder +onlyGivenNames x; refine Kept.viaP (s := s0) x ?_ ?_; (on_goal 2 => (intro _; clear_value x)); (on_goal 1 => (subst x)))
    | (extract_lets -underBinder +onlyGivenNames x; clear_value x)
    | (intro) | assumption | (apply kept_inc) | (apply kept_onTile) | (refine Kept.ite ?_ ?_) | (refine Kept.foldl _ ?_ ?_) | (refine Kept.foldlP _ ?_ ?_) | (dsimp -zeta only)

theorem kept_deliverUnit {s0 s : State} (h : Kept s0 s) (r : RUnit) (ls : List FLine) : Kept s0 (State.deliverUnit s r ls) := by
  unfold State.deliverUnit
  repeat' with_reducible first
    | (extract_lets -underBinder +onlyGivenNames x; refine Kept.via (s := s0) x ?_ ?_; (on_goal 2 => (intro _; clear_value x)); (on_goal 1 => (subst x)))
    | (extract_lets -underBinder +onlyGivenNames x; refine Kept.viaP (s := s0) x ?_ ?_; (on_goal 2 => (intro _; clear_value x)); (on_goal 1 => (subst x)))
    | (extract_lets -underBinder +onlyGivenNames x; clear_value x)
    | (intro) | assumption | (apply kept_setEng) | (apply kept_engErr) | (apply kept_stageFlit) | (apply kept_toMesh) | (refine Kept.ite ?_ ?_) | (refine Kept.foldl _ ?_ ?_) | (refine Kept.foldlP _ ?_ ?_) | (split) | (refine Kept.upd ?_ rfl) | (dsimp -zeta only)

theorem kept_sideQueue {s0 s : State} (h : Kept s0 s) (p : Nat) (f : SideFlit) : Kept s0 (State.sideQueue s p f) := by
  unfold State.sideQueue
  repeat' with_reducible first
    | (extract_lets -underBinder +onlyGivenNames x; refine Kept.via (s := s0) x ?_ ?_; (on_goal 2 => (intro _; clear_value x)); (on_goal 1 => (subst x)))
    | (extract_lets -underBinder +onlyGivenNames x; clear_value x)
    | assumption | (apply kept_setWle) | (refine Kept.upd ?_ rfl)

theorem kept_borrowEnd {s0 s : State} (h : Kept s0 s) (d e : Nat) (b : Borrow) (data : Option (List FLine)) (src : Option Nat) (stk : Option Bool) : Kept s0 (State.borrowEnd s d e b data src stk) := by
  unfold State.borrowEnd
  repeat' with_reducible first
    | (extract_lets -underBinder +onlyGivenNames x; refine Kept.via (s := s0) x ?_ ?_; (on_goal 2 => (intro _; clear_value x)); (on_goal 1 => (subst x)))
    | (extract_lets -underBinder +onlyGivenNames x; refine Kept.viaP (s := s0) x ?_ ?_; (on_goal 2 => (intro _; clear_value x)); (on_goal 1 => (subst x)))
    | (extract_lets -underBinder +onlyGivenNames x; clear_value x)
    | (intro) | assumption | (apply kept_setEng) | (apply kept_putHunit) | (apply kept_sideBytes) | (apply kept_evtOpt) | (apply kept_engErr) | (apply kept_stakeCe) | (apply kept_placeErr) | (refine Kept.ite ?_ ?_) | (refine Kept.foldl _ ?_ ?_) | (refine Kept.foldlP _ ?_ ?_) | (split) | (refine Kept.upd ?_ rfl) | (dsimp -zeta only)

theorem kept_borrowSource {s0 s : State} (h : Kept s0 s) (d e : Nat) (b : Borrow) (hits : List EccHit) (stk : Option Bool) : Kept s0 (State.borrowSource s d e b hits stk).1 := by
  unfold State.borrowSource
  repeat' with_reducible first
    | (extract_lets -underBinder +onlyGivenNames x; refine Kept.via (s := s0) x ?_ ?_; (on_goal 2 => (intro _; clear_value x)); (on_goal 1 => (subst x)))
    | (extract_lets -underBinder +onlyGivenNames x; clear_value x)
    | (intro) | assumption | (apply kept_mcRead) | (apply kept_sideBytes) | (apply kept_engErr) | (apply kept_stakeCe) | (apply kept_placeErr) | (refine Kept.pairIte ?_ ?_) | (split) | (dsimp -zeta only)

theorem kept_borrowStart {s0 s : State} (h : Kept s0 s) (d e : Nat) (r : Desc) (write : Bool) (stk stk2 : Option Bool) (hits : List EccHit) : Kept s0 (State.borrowStart s d e r write stk stk2 hits) := by
  unfold State.borrowStart
  repeat' with_reducible first
    | (extract_lets -underBinder +onlyGivenNames x; refine Kept.via (s := s0) x ?_ ?_; (on_goal 2 => (intro _; clear_value x)); (on_goal 1 => (subst x)))
    | (extract_lets -underBinder +onlyGivenNames x; refine Kept.viaP (s := s0) x ?_ ?_; (on_goal 2 => (intro _; clear_value x)); (on_goal 1 => (subst x)))
    | (extract_lets -underBinder +onlyGivenNames x; clear_value x)
    | (intro) | assumption | (apply kept_setEng) | (apply kept_engErr) | (apply kept_stakeCe) | (apply kept_sideQueue) | (apply kept_borrowEnd) | (apply kept_borrowSource) | (refine Kept.ite ?_ ?_) | (split) | (refine Kept.upd ?_ rfl) | (dsimp -zeta only)

theorem kept_hostPut {s0 s : State} (h : Kept s0 s) (mc line a : Nat) (bs : List Byte) (poi : Bool) : Kept s0 (State.hostPut s mc line a bs poi) := by
  unfold State.hostPut
  repeat' with_reducible first
    | (intro) | assumption | (apply kept_putHline) | (refine Kept.ite ?_ ?_) | (dsimp -zeta only)

theorem kept_hostTouch {s0 s : State} (h : Kept s0 s) (m : HostMove) (k : Nat) : Kept s0 (State.hostTouch s m k).1 := by
  unfold State.hostTouch
  repeat' with_reducible first
    | (extract_lets -underBinder +onlyGivenNames x; refine Kept.via (s := s0) x ?_ ?_; (on_goal 2 => (intro _; clear_value x)); (on_goal 1 => (subst x)))
    | (extract_lets -underBinder +onlyGivenNames x; refine Kept.viaP (s := s0) x ?_ ?_; (on_goal 2 => (intro _; clear_value x)); (on_goal 1 => (subst x)))
    | (extract_lets -underBinder +onlyGivenNames x; clear_value x)
    | (intro) | assumption | (apply kept_mcRead) | (apply kept_sideBytes) | (apply kept_zeroErr) | (apply kept_hostPut) | (refine Kept.ite ?_ ?_) | (refine Kept.pairIte ?_ ?_) | (split) | (refine Kept.upd ?_ rfl) | (dsimp -zeta only)

theorem kept_hostRun {s0 s : State} (h : Kept s0 s) (m : HostMove) (stk : Option Bool) : Kept s0 (State.hostRun s m stk).1 := by
  unfold State.hostRun
  dsimp only
  refine Kept.foldlP _ (fun x k hx => ?_) (kept_stakeCe h _ _ _ (fun _ g => kept_zeroErr g _ _))
  split
  · exact hx
  · have h1 := kept_hostTouch hx m k
    split <;> rename_i e <;> exact Kept.pair e h1

theorem kept_engSeg {s0 s : State} (h : Kept s0 s) (d e seg c : Nat) : Kept s0 (State.engSeg s d e seg c) := by
  unfold State.engSeg
  repeat' with_reducible first
    | (extract_lets -underBinder +onlyGivenNames x; refine Kept.via (s := s0) x ?_ ?_; (on_goal 2 => (intro _; clear_value x)); (on_goal 1 => (subst x)))
    | (extract_lets -underBinder +onlyGivenNames x; clear_value x)
    | assumption | (apply kept_wr) | (apply kept_setEng) | (refine Kept.upd ?_ rfl)

theorem kept_engAbort {s0 s : State} (h : Kept s0 s) (d e : Nat) : Kept s0 (State.engAbort s d e) := by
  unfold State.engAbort
  repeat' with_reducible first
    | (extract_lets -underBinder +onlyGivenNames x; refine Kept.via (s := s0) x ?_ ?_; (on_goal 2 => (intro _; clear_value x)); (on_goal 1 => (subst x)))
    | (extract_lets -underBinder +onlyGivenNames x; clear_value x)
    | (intro) | assumption | (apply kept_setEng) | (refine Kept.upd ?_ rfl)

end Sys2Proof.Machine
end

