-- ==== Sys2Proof/Laws/KeptLinks.lean ====
section
/-! SUPPORT. What the helpers of the collective engine, programs, borders and Wale ports keep. -/

namespace Sys2Proof.Machine

set_option linter.all false

theorem kept_putBline {s0 s : State} (h : Kept s0 s) (d a : Nat) (f : FLine) : Kept s0 (State.putBline s d a f) := by
  unfold State.putBline
  repeat' with_reducible first
    | (extract_lets -underBinder +onlyGivenNames x; refine Kept.via (s := s0) x ?_ ?_; (on_goal 2 => (intro _; clear_value x)); (on_goal 1 => (subst x)))
    | (extract_lets -underBinder +onlyGivenNames x; clear_value x)
    | assumption | (refine Kept.cbuf ?_ (fun w => swf_put _ _ w)) | (refine Kept.upd ?_ rfl)

theorem kept_bufHits {s0 s : State} (h : Kept s0 s) (d : Nat) (hits : List EccHit) : Kept s0 (State.bufHits s d hits) := by
  unfold State.bufHits
  repeat' with_reducible first
    | (intro) | assumption | (apply kept_inc) | (apply kept_raise) | (refine Kept.ite ?_ ?_) | (refine Kept.foldl _ ?_ ?_)

theorem kept_ceLand {s0 s : State} (h : Kept s0 s) (d : Nat) (w : CeWrite) : Kept s0 (State.ceLand s d w) := by
  unfold State.ceLand
  repeat' with_reducible first
    | (extract_lets -underBinder +onlyGivenNames x; refine Kept.via (s := s0) x ?_ ?_; (on_goal 2 => (intro _; clear_value x)); (on_goal 1 => (subst x)))
    | (extract_lets -underBinder +onlyGivenNames x; refine Kept.viaP (s := s0) x ?_ ?_; (on_goal 2 => (intro _; clear_value x)); (on_goal 1 => (subst x)))
    | (extract_lets -underBinder +onlyGivenNames x; clear_value x)
    | (intro) | assumption | (apply kept_putBline) | (refine Kept.ite ?_ ?_) | (refine Kept.foldl _ ?_ ?_) | (refine Kept.foldlP _ ?_ ?_) | (split) | (dsimp -zeta only)

theorem kept_ceSettle {s0 s : State} (h : Kept s0 s) (d c : Nat) : Kept s0 (State.ceSettle s d c) := by
  unfold State.ceSettle
  repeat' with_reducible first
    | (extract_lets -underBinder +onlyGivenNames x; refine Kept.via (s := s0) x ?_ ?_; (on_goal 2 => (intro _; clear_value x)); (on_goal 1 => (subst x)))
    | (extract_lets -underBinder +onlyGivenNames x; clear_value x)
    | (intro) | assumption | (apply kept_setCe) | (apply kept_ceLand) | (refine Kept.foldl _ ?_ ?_) | (refine Kept.upd ?_ rfl)

theorem kept_ceErr {s0 s : State} (h : Kept s0 s) (d idx src : Nat) (rank : Option Nat) : Kept s0 (State.ceErr s d idx src rank) := by
  unfold State.ceErr
  repeat' with_reducible first
    | (extract_lets -underBinder +onlyGivenNames x; refine Kept.via (s := s0) x ?_ ?_; (on_goal 2 => (intro _; clear_value x)); (on_goal 1 => (subst x)))
    | (extract_lets -underBinder +onlyGivenNames x; clear_value x)
    | assumption | (apply kept_wr) | (apply kept_raise) | (split)

theorem kept_touch {s0 s : State} (h : Kept s0 s) (d idx a : Nat) (write : Bool) : Kept s0 (State.touch s d idx a write) := by
  unfold State.touch
  repeat' with_reducible first
    | (extract_lets -underBinder +onlyGivenNames x; refine Kept.via (s := s0) x ?_ ?_; (on_goal 2 => (intro _; clear_value x)); (on_goal 1 => (subst x)))
    | (extract_lets -underBinder +onlyGivenNames x; clear_value x)
    | (intro) | assumption | (apply kept_ceErr) | (refine Kept.ite ?_ ?_)

theorem kept_poisonRest {s0 s : State} (h : Kept s0 s) (d : Nat) (r : CeRecv) : Kept s0 (State.poisonRest s d r) := by
  unfold State.poisonRest
  repeat' with_reducible first
    | (extract_lets -underBinder +onlyGivenNames x; refine Kept.via (s := s0) x ?_ ?_; (on_goal 2 => (intro _; clear_value x)); (on_goal 1 => (subst x)))
    | (extract_lets -underBinder +onlyGivenNames x; clear_value x)
    | (intro) | assumption | (apply kept_putBline) | (refine Kept.ite ?_ ?_) | (refine Kept.foldl _ ?_ ?_) | (split) | (refine Kept.upd ?_ rfl)

theorem kept_ceStart {s0 s : State} (h : Kept s0 s) (d : Nat) (ok : Nat → Bool) (ue2 : Bool) (f : Desc → State → State) (h_f : ∀ (x0 : Desc) (x1 : State), Kept s0 x1 → Kept s0 (f x0 x1)) : Kept s0 (State.ceStart s d ok ue2 f) := by
  unfold State.ceStart
  repeat' with_reducible first
    | (extract_lets -underBinder +onlyGivenNames x; refine Kept.via (s := s0) x ?_ ?_; (on_goal 2 => (intro _; clear_value x)); (on_goal 1 => (subst x)))
    | (extract_lets -underBinder +onlyGivenNames x; refine Kept.viaP (s := s0) x ?_ ?_; (on_goal 2 => (intro _; clear_value x)); (on_goal 1 => (subst x)))
    | (extract_lets -underBinder +onlyGivenNames x; clear_value x)
    | (intro) | assumption | (apply kept_toCc) | (apply kept_setCe) | (apply kept_ceSettle) | (apply kept_ceErr) | (apply h_f) | (refine Kept.ite ?_ ?_) | (split) | (refine Kept.upd ?_ rfl) | (dsimp -zeta only)

theorem kept_ceRun {s0 s : State} (h : Kept s0 s) (d : Nat) (r : Desc) : Kept s0 (State.ceRun s d r) := by
  unfold State.ceRun
  repeat' with_reducible first
    | (extract_lets -underBinder +onlyGivenNames x; refine Kept.via (s := s0) x ?_ ?_; (on_goal 2 => (intro _; clear_value x)); (on_goal 1 => (subst x)))
    | (extract_lets -underBinder +onlyGivenNames x; clear_value x)
    | assumption | (apply kept_setCe) | (refine Kept.upd ?_ rfl)

theorem kept_ceWrite {s0 s : State} (h : Kept s0 s) (d c addr cmb : Nat) (ls : List FLine) (lost : Bool) (bad : List Nat) : Kept s0 (State.ceWrite s d c addr cmb ls lost bad) := by
  unfold State.ceWrite
  repeat' with_reducible first
    | (extract_lets -underBinder +onlyGivenNames x; refine Kept.via (s := s0) x ?_ ?_; (on_goal 2 => (intro _; clear_value x)); (on_goal 1 => (subst x)))
    | (extract_lets -underBinder +onlyGivenNames x; clear_value x)
    | (intro) | assumption | (apply kept_setCe) | (refine Kept.ite ?_ ?_) | (split) | (refine Kept.upd ?_ rfl)

theorem kept_ceByte {s0 s : State} (h : Kept s0 s) (d c addr cmb v : Nat) (p : Bool) (bad : List Nat) : Kept s0 (State.ceByte s d c addr cmb v p bad) := by
  unfold State.ceByte
  repeat' with_reducible first
    | (extract_lets -underBinder +onlyGivenNames x; refine Kept.via (s := s0) x ?_ ?_; (on_goal 2 => (intro _; clear_value x)); (on_goal 1 => (subst x)))
    | (extract_lets -underBinder +onlyGivenNames x; clear_value x)
    | assumption | (apply kept_setCe) | (refine Kept.upd ?_ rfl)

theorem kept_ceItem {s0 s : State} (h : Kept s0 s) (d : Nat) (r : Desc) (t j : Nat) (hits : List EccHit) (lost : Bool) : Kept s0 (State.ceItem s d r t j hits lost) := by
  unfold State.ceItem
  extract_lets -underBinder +onlyGivenNames n bad rdL gb touches
  have ht : ∀ t as w, Kept s0 t → Kept s0 (touches t as w) := fun t as w h => Kept.foldl _ (fun t a ht => kept_touch ht ..) h
  clear_value n bad rdL gb touches
  repeat' with_reducible first
    | (extract_lets -underBinder +onlyGivenNames x; refine Kept.via (s := s0) x ?_ ?_; (on_goal 2 => (intro _; clear_value x)); (on_goal 1 => (subst x)))
    | (extract_lets -underBinder +onlyGivenNames x; refine Kept.viaP (s := s0) x ?_ ?_; (on_goal 2 => (intro _; clear_value x)); (on_goal 1 => (subst x)))
    | (extract_lets -underBinder +onlyGivenNames x; refine Kept.fn x ?_; subst x)
    | (extract_lets -underBinder +onlyGivenNames x; clear_value x)
    | (intro) | assumption | (apply kept_edgeEvent) | (apply kept_takeArrival) | (apply kept_ceErr) | (apply kept_touch) | (apply kept_ceWrite) | (apply kept_ceByte) | (apply ht) | (refine Kept.ite ?_ ?_) | (refine Kept.foldl _ ?_ ?_) | (refine Kept.foldlP _ ?_ ?_) | (split) | (refine Kept.upd ?_ rfl) | (dsimp -zeta only)

theorem kept_ceNext {s0 s : State} (h : Kept s0 s) (d : Nat) (hits : List EccHit) : Kept s0 (State.ceNext s d hits) := by
  unfold State.ceNext
  repeat' with_reducible first
    | (extract_lets -underBinder +onlyGivenNames x; refine Kept.via (s := s0) x ?_ ?_; (on_goal 2 => (intro _; clear_value x)); (on_goal 1 => (subst x)))
    | (extract_lets -underBinder +onlyGivenNames x; refine Kept.viaP (s := s0) x ?_ ?_; (on_goal 2 => (intro _; clear_value x)); (on_goal 1 => (subst x)))
    | (extract_lets -underBinder +onlyGivenNames x; clear_value x)
    | (intro) | assumption | (apply kept_toCc) | (apply kept_setCe) | (apply kept_settleDie) | (apply kept_bufHits) | (apply kept_ceSettle) | (apply kept_ceErr) | (apply kept_ceItem) | (refine Kept.ite ?_ ?_) | (split) | (refine Kept.upd ?_ rfl) | (dsimp -zeta only)

theorem kept_drawPayload {s0 s : State} (h : Kept s0 s) (d : Nat) (ok : Ce → CeSend → Bool) (bad : List Nat) : Kept s0 (State.drawPayload s d ok bad).1 := by
  unfold State.drawPayload
  repeat' with_reducible first
    | (extract_lets -underBinder +onlyGivenNames x; refine Kept.via (s := s0) x ?_ ?_; (on_goal 2 => (intro _; clear_value x)); (on_goal 1 => (subst x)))
    | (extract_lets -underBinder +onlyGivenNames x; clear_value x)
    | (intro) | assumption | (apply kept_addWrap) | (apply kept_setCe) | (apply kept_evtOpt) | (refine Kept.ite ?_ ?_) | (refine Kept.pairIte ?_ ?_) | (split) | (refine Kept.upd ?_ rfl) | (rename_i e; refine Kept.pair e ?_) | (dsimp -zeta only)

theorem kept_drawPayloads {s0 s : State} (h : Kept s0 s) (d : Nat) (hits : List EccHit) (n k : Nat) :
    Kept s0 (State.drawPayloads s d hits n k).1 := by
  induction n generalizing s k with
  | zero => exact h
  | succ n ih =>
    unfold State.drawPayloads
    have h1 := kept_drawPayload h d (s.sendable d) (badWords hits (8 * k) 8)
    split <;> rename_i e <;> rw [e] at h1
    · exact h1
    · exact ih h1 _

theorem kept_toWire {s0 s : State} (h : Kept s0 s) (p : Nat) (f : WireFlit) : Kept s0 (State.toWire s p f) := by
  unfold State.toWire
  repeat' with_reducible first
    | (extract_lets -underBinder +onlyGivenNames x; refine Kept.via (s := s0) x ?_ ?_; (on_goal 2 => (intro _; clear_value x)); (on_goal 1 => (subst x)))
    | (extract_lets -underBinder +onlyGivenNames x; clear_value x)
    | assumption | (apply kept_setWle) | (refine Kept.ite ?_ ?_) | (split) | (refine Kept.upd ?_ rfl)

theorem kept_landPayload {s0 s : State} (h : Kept s0 s) (d : Nat) (p : PTag) (bad : List Nat) : Kept s0 (State.landPayload s d p bad) := by
  unfold State.landPayload
  repeat' with_reducible first
    | (extract_lets -underBinder +onlyGivenNames x; refine Kept.via (s := s0) x ?_ ?_; (on_goal 2 => (intro _; clear_value x)); (on_goal 1 => (subst x)))
    | (extract_lets -underBinder +onlyGivenNames x; refine Kept.viaP (s := s0) x ?_ ?_; (on_goal 2 => (intro _; clear_value x)); (on_goal 1 => (subst x)))
    | (extract_lets -underBinder +onlyGivenNames x; refine Kept.fn x ?_; subst x)
    | (extract_lets -underBinder +onlyGivenNames x; clear_value x)
    | (intro) | assumption | (apply kept_inc) | (apply kept_addWrap) | (apply kept_setCe) | (apply kept_evtOpt) | (apply kept_putBline) | (apply kept_ceErr) | (apply kept_poisonRest) | (refine Kept.ite ?_ ?_) | (refine Kept.foldl _ ?_ ?_) | (refine Kept.foldlP _ ?_ ?_) | (split) | (refine Kept.upd ?_ rfl) | (dsimp -zeta only)

theorem kept_ceTake {s0 s : State} (h : Kept s0 s) (d : Nat) (hits : List EccHit) (ts : List PTag) : Kept s0 (State.ceTake s d hits ts) := by
  unfold State.ceTake
  repeat' with_reducible first
    | (intro) | assumption | (apply kept_addSat) | (apply kept_bufHits) | (apply kept_landPayload) | (refine Kept.ite ?_ ?_) | (refine Kept.foldl _ ?_ ?_) | (refine Kept.foldlP _ ?_ ?_) | (dsimp -zeta only)

theorem kept_ceSeg {s0 s : State} (h : Kept s0 s) (d seg c : Nat) (first : Bool) : Kept s0 (State.ceSeg s d seg c first) := by
  unfold State.ceSeg
  repeat' with_reducible first
    | (extract_lets -underBinder +onlyGivenNames x; refine Kept.via (s := s0) x ?_ ?_; (on_goal 2 => (intro _; clear_value x)); (on_goal 1 => (subst x)))
    | (extract_lets -underBinder +onlyGivenNames x; clear_value x)
    | assumption | (apply kept_wr) | (apply kept_setCe) | (refine Kept.ite ?_ ?_) | (split) | (refine Kept.upd ?_ rfl)

theorem kept_ceAbort {s0 s : State} (h : Kept s0 s) (d : Nat) : Kept s0 (State.ceAbort s d) := by
  unfold State.ceAbort
  repeat' with_reducible first
    | (extract_lets -underBinder +onlyGivenNames x; refine Kept.via (s := s0) x ?_ ?_; (on_goal 2 => (intro _; clear_value x)); (on_goal 1 => (subst x)))
    | (extract_lets -underBinder +onlyGivenNames x; clear_value x)
    | (intro) | assumption | (apply kept_addSat) | (apply kept_setCe) | (apply kept_setWle) | (refine Kept.upd ?_ rfl)

theorem kept_meshOut {s0 s : State} (h : Kept s0 s) (d node o w entry : Nat) (f : Flit) : Kept s0 (State.meshOut s d node o w entry f) := by
  unfold State.meshOut
  repeat' with_reducible first
    | (extract_lets -underBinder +onlyGivenNames x; refine Kept.via (s := s0) x ?_ ?_; (on_goal 2 => (intro _; clear_value x)); (on_goal 1 => (subst x)))
    | (extract_lets -underBinder +onlyGivenNames x; clear_value x)
    | assumption | (apply kept_setTile) | (apply kept_meshEvent) | (refine Kept.ite ?_ ?_) | (split) | (refine Kept.upd ?_ rfl)

theorem kept_router {s0 s : State} (h : Kept s0 s) (d node w entry : Nat) (par : List (Nat × Nat)) : Kept s0 (State.router s d node w entry par) := by
  unfold State.router
  repeat' with_reducible first
    | (extract_lets -underBinder +onlyGivenNames x; refine Kept.via (s := s0) x ?_ ?_; (on_goal 2 => (intro _; clear_value x)); (on_goal 1 => (subst x)))
    | (extract_lets -underBinder +onlyGivenNames x; refine Kept.viaP (s := s0) x ?_ ?_; (on_goal 2 => (intro _; clear_value x)); (on_goal 1 => (subst x)))
    | (extract_lets -underBinder +onlyGivenNames x; clear_value x)
    | (intro) | assumption | (apply kept_meshEvent) | (apply kept_meshOut) | (refine Kept.ite ?_ ?_) | (refine Kept.foldl _ ?_ ?_) | (refine Kept.foldlP _ ?_ ?_) | (split) | (refine Kept.upd ?_ rfl) | (dsimp -zeta only)

theorem kept_pkg2Raise {s0 s : State} (h : Kept s0 s) (src d : Nat) : Kept s0 (State.pkg2Raise s src d) := by
  unfold State.pkg2Raise
  repeat' with_reducible first
    | (extract_lets -underBinder +onlyGivenNames x; refine Kept.via (s := s0) x ?_ ?_; (on_goal 2 => (intro _; clear_value x)); (on_goal 1 => (subst x)))
    | (extract_lets -underBinder +onlyGivenNames x; refine Kept.viaP (s := s0) x ?_ ?_; (on_goal 2 => (intro _; clear_value x)); (on_goal 1 => (subst x)))
    | (extract_lets -underBinder +onlyGivenNames x; clear_value x)
    | assumption | (apply kept_raiseX) | (dsimp -zeta only)

theorem kept_breakMatch {s0 s : State} (h : Kept s0 s) (d id : Nat) : Kept s0 (State.breakMatch s d id) := by
  unfold State.breakMatch
  repeat' with_reducible first
    | (extract_lets -underBinder +onlyGivenNames x; refine Kept.via (s := s0) x ?_ ?_; (on_goal 2 => (intro _; clear_value x)); (on_goal 1 => (subst x)))
    | (extract_lets -underBinder +onlyGivenNames x; clear_value x)
    | assumption | (apply kept_wr) | (apply kept_wb) | (apply kept_setOd) | (apply kept_setAu) | (refine Kept.ite ?_ ?_) | (split) | (refine Kept.upd ?_ rfl)

theorem kept_becomeReady {s0 s : State} (h : Kept s0 s) (d c id : Nat) (isEnd mis : Bool) : Kept s0 (State.becomeReady s d c id isEnd mis) := by
  unfold State.becomeReady
  repeat' with_reducible first
    | (extract_lets -underBinder +onlyGivenNames x; refine Kept.via (s := s0) x ?_ ?_; (on_goal 2 => (intro _; clear_value x)); (on_goal 1 => (subst x)))
    | (extract_lets -underBinder +onlyGivenNames x; refine Kept.viaP (s := s0) x ?_ ?_; (on_goal 2 => (intro _; clear_value x)); (on_goal 1 => (subst x)))
    | (extract_lets -underBinder +onlyGivenNames x; clear_value x)
    | (intro) | assumption | (apply kept_wb) | (apply kept_setOd) | (apply kept_setBord) | (apply kept_condNote) | (apply kept_pkg2Raise) | (apply kept_breakMatch) | (refine Kept.ite ?_ ?_) | (refine Kept.foldl _ ?_ ?_) | (refine Kept.foldlP _ ?_ ?_) | (split) | (refine Kept.upd ?_ rfl) | (dsimp -zeta only)

theorem kept_unready {s0 s : State} (h : Kept s0 s) (d : Nat) : Kept s0 (State.unready s d) := by
  unfold State.unready
  repeat' with_reducible first
    | (extract_lets -underBinder +onlyGivenNames x; refine Kept.via (s := s0) x ?_ ?_; (on_goal 2 => (intro _; clear_value x)); (on_goal 1 => (subst x)))
    | (extract_lets -underBinder +onlyGivenNames x; clear_value x)
    | assumption | (apply kept_wb) | (apply kept_setOd) | (apply kept_setBord) | (split) | (refine Kept.upd ?_ rfl)

theorem kept_meshLost {s0 s : State} (h : Kept s0 s) (d : Nat) : Kept s0 (State.meshLost s d) := by
  unfold State.meshLost
  repeat' with_reducible first
    | (extract_lets -underBinder +onlyGivenNames x; refine Kept.via (s := s0) x ?_ ?_; (on_goal 2 => (intro _; clear_value x)); (on_goal 1 => (subst x)))
    | (extract_lets -underBinder +onlyGivenNames x; clear_value x)
    | (intro) | assumption | (apply kept_setTile) | (apply kept_meshEvent) | (apply kept_edgeEvent) | (refine Kept.ite ?_ ?_) | (refine Kept.foldl _ ?_ ?_) | (split) | (refine Kept.upd ?_ rfl)

theorem kept_dieReady {s0 s : State} (h : Kept s0 s) (d : Nat) : Kept s0 (State.dieReady s d) := by
  unfold State.dieReady
  repeat' with_reducible first
    | (extract_lets -underBinder +onlyGivenNames x; refine Kept.via (s := s0) x ?_ ?_; (on_goal 2 => (intro _; clear_value x)); (on_goal 1 => (subst x)))
    | (extract_lets -underBinder +onlyGivenNames x; clear_value x)
    | (intro) | assumption | (apply kept_toCc) | (apply kept_raise) | (apply kept_settleDie) | (apply kept_becomeReady) | (apply kept_meshLost) | (refine Kept.ite ?_ ?_) | (refine Kept.foldl _ ?_ ?_) | (split)

theorem kept_dieArrive {s0 s : State} (h : Kept s0 s) (d : Nat) : Kept s0 (State.dieArrive s d) := by
  unfold State.dieArrive
  repeat' with_reducible first
    | (extract_lets -underBinder +onlyGivenNames x; refine Kept.via (s := s0) x ?_ ?_; (on_goal 2 => (intro _; clear_value x)); (on_goal 1 => (subst x)))
    | (extract_lets -underBinder +onlyGivenNames x; refine Kept.viaP (s := s0) x ?_ ?_; (on_goal 2 => (intro _; clear_value x)); (on_goal 1 => (subst x)))
    | (extract_lets -underBinder +onlyGivenNames x; clear_value x)
    | assumption | (apply kept_toCc) | (apply kept_setOd) | (refine Kept.ite ?_ ?_) | (split) | (refine Kept.upd ?_ rfl) | (dsimp -zeta only)

theorem kept_auditLatch {s0 s : State} (h : Kept s0 s) (d id l : Nat) : Kept s0 (State.auditLatch s d id l) := by
  unfold State.auditLatch
  repeat' with_reducible first
    | (extract_lets -underBinder +onlyGivenNames x; refine Kept.via (s := s0) x ?_ ?_; (on_goal 2 => (intro _; clear_value x)); (on_goal 1 => (subst x)))
    | (extract_lets -underBinder +onlyGivenNames x; clear_value x)
    | (intro) | assumption | (apply kept_wr) | (apply kept_wb) | (apply kept_addWrap) | (apply kept_setEng) | (apply kept_setAu) | (refine Kept.ite ?_ ?_) | (refine Kept.foldl _ ?_ ?_) | (split) | (refine Kept.upd ?_ rfl)

theorem kept_borderForm {s0 s : State} (h : Kept s0 s) (d : Nat) : Kept s0 (State.borderForm s d) := by
  unfold State.borderForm
  repeat' with_reducible first
    | (extract_lets -underBinder +onlyGivenNames x; refine Kept.via (s := s0) x ?_ ?_; (on_goal 2 => (intro _; clear_value x)); (on_goal 1 => (subst x)))
    | (extract_lets -underBinder +onlyGivenNames x; clear_value x)
    | (intro) | assumption | (apply kept_setBord) | (refine Kept.ite ?_ ?_) | (refine Kept.foldl _ ?_ ?_) | (split) | (refine Kept.upd ?_ rfl) | (rename_i e; refine Kept.pair e ?_)

theorem kept_borderSend {s0 s : State} (h : Kept s0 s) (d tick : Nat) : Kept s0 (State.borderSend s d tick) := by
  unfold State.borderSend
  repeat' with_reducible first
    | (extract_lets -underBinder +onlyGivenNames x; refine Kept.via (s := s0) x ?_ ?_; (on_goal 2 => (intro _; clear_value x)); (on_goal 1 => (subst x)))
    | (extract_lets -underBinder +onlyGivenNames x; clear_value x)
    | (intro) | assumption | (apply kept_setBord) | (apply kept_sideQueue) | (apply kept_borderForm) | (refine Kept.foldl _ ?_ ?_) | (refine Kept.upd ?_ rfl)

theorem kept_learn {s0 s : State} (h : Kept s0 s) (d : Nat) : Kept s0 (State.learn s d) := by
  unfold State.learn
  repeat' with_reducible first
    | (extract_lets -underBinder +onlyGivenNames x; refine Kept.via (s := s0) x ?_ ?_; (on_goal 2 => (intro _; clear_value x)); (on_goal 1 => (subst x)))
    | (extract_lets -underBinder +onlyGivenNames x; refine Kept.viaP (s := s0) x ?_ ?_; (on_goal 2 => (intro _; clear_value x)); (on_goal 1 => (subst x)))
    | (extract_lets -underBinder +onlyGivenNames x; clear_value x)
    | (intro) | assumption | (apply kept_wr) | (apply kept_setOd) | (apply kept_raise) | (apply kept_auditLatch) | (apply kept_borderSend) | (refine Kept.ite ?_ ?_) | (split) | (refine Kept.upd ?_ rfl) | (rename_i e; refine Kept.pair e ?_) | (dsimp -zeta only)

theorem kept_releaseDie {s0 s : State} (h : Kept s0 s) (d rel w last cond : Nat) : Kept s0 (State.releaseDie s d rel w last cond) := by
  unfold State.releaseDie
  repeat' with_reducible first
    | (extract_lets -underBinder +onlyGivenNames x; refine Kept.via (s := s0) x ?_ ?_; (on_goal 2 => (intro _; clear_value x)); (on_goal 1 => (subst x)))
    | (extract_lets -underBinder +onlyGivenNames x; refine Kept.viaP (s := s0) x ?_ ?_; (on_goal 2 => (intro _; clear_value x)); (on_goal 1 => (subst x)))
    | (extract_lets -underBinder +onlyGivenNames x; clear_value x)
    | (intro) | assumption | (apply kept_wr) | (apply kept_wb) | (apply kept_addWrap) | (apply kept_setTile) | (apply kept_setOd) | (apply kept_setBord) | (apply kept_setAu) | (apply kept_engSeg) | (apply kept_ceSeg) | (refine Kept.ite ?_ ?_) | (refine Kept.foldl _ ?_ ?_) | (refine Kept.foldlP _ ?_ ?_) | (split) | (refine Kept.upd ?_ rfl) | (dsimp -zeta only)

theorem kept_syncRelease {s0 s : State} (h : Kept s0 s)  : Kept s0 (State.syncRelease s) := by
  unfold State.syncRelease
  repeat' with_reducible first
    | (extract_lets -underBinder +onlyGivenNames x; refine Kept.via (s := s0) x ?_ ?_; (on_goal 2 => (intro _; clear_value x)); (on_goal 1 => (subst x)))
    | (extract_lets -underBinder +onlyGivenNames x; clear_value x)
    | (intro) | assumption | (apply kept_wr) | (apply kept_addWrap) | (apply kept_toCc) | (apply kept_learn) | (apply kept_releaseDie) | (refine Kept.ite ?_ ?_) | (refine Kept.foldl _ ?_ ?_) | (split)

theorem kept_programEnd {s0 s : State} (h : Kept s0 s) (d : Nat) : Kept s0 (State.programEnd s d) := by
  unfold State.programEnd
  repeat' with_reducible first
    | (extract_lets -underBinder +onlyGivenNames x; refine Kept.via (s := s0) x ?_ ?_; (on_goal 2 => (intro _; clear_value x)); (on_goal 1 => (subst x)))
    | (extract_lets -underBinder +onlyGivenNames x; clear_value x)
    | (intro) | assumption | (apply kept_toCc) | (apply kept_settleDie) | (apply kept_becomeReady) | (apply kept_meshLost) | (refine Kept.ite ?_ ?_) | (refine Kept.foldl _ ?_ ?_) | (split)

theorem kept_startWait {s0 s : State} (h : Kept s0 s) (d : Nat) : Kept s0 (State.startWait s d) := by
  unfold State.startWait
  repeat' with_reducible first
    | assumption | (apply kept_toCc) | (apply kept_becomeReady) | (refine Kept.ite ?_ ?_)

theorem kept_armWrite {s0 s : State} (h : Kept s0 s) (d : Nat) (v : Bool) : Kept s0 (State.armWrite s d v) := by
  unfold State.armWrite
  repeat' with_reducible first
    | (extract_lets -underBinder +onlyGivenNames x; refine Kept.via (s := s0) x ?_ ?_; (on_goal 2 => (intro _; clear_value x)); (on_goal 1 => (subst x)))
    | (extract_lets -underBinder +onlyGivenNames x; clear_value x)
    | assumption | (apply kept_wr) | (apply kept_wb) | (apply kept_unready) | (apply kept_startWait) | (refine Kept.ite ?_ ?_)

theorem kept_loadedWrite {s0 s : State} (h : Kept s0 s) (d : Nat) (v : Bool) : Kept s0 (State.loadedWrite s d v) := by
  unfold State.loadedWrite
  repeat' with_reducible first
    | (extract_lets -underBinder +onlyGivenNames x; refine Kept.via (s := s0) x ?_ ?_; (on_goal 2 => (intro _; clear_value x)); (on_goal 1 => (subst x)))
    | (extract_lets -underBinder +onlyGivenNames x; clear_value x)
    | assumption | (apply kept_wr) | (apply kept_wb) | (apply kept_startWait) | (refine Kept.ite ?_ ?_)

theorem kept_toEmpty {s0 s : State} (h : Kept s0 s) (d : Nat) : Kept s0 (State.toEmpty s d) := by
  unfold State.toEmpty
  repeat' with_reducible first
    | (intro) | assumption | (apply kept_wr) | (apply kept_rowFollow) | (refine Kept.foldl _ ?_ ?_)

theorem kept_progStop {s0 s : State} (h : Kept s0 s) (d : Nat) : Kept s0 (State.progStop s d) := by
  unfold State.progStop
  repeat' with_reducible first
    | (extract_lets -underBinder +onlyGivenNames x; refine Kept.via (s := s0) x ?_ ?_; (on_goal 2 => (intro _; clear_value x)); (on_goal 1 => (subst x)))
    | (extract_lets -underBinder +onlyGivenNames x; clear_value x)
    | (intro) | assumption | (apply kept_wb) | (apply kept_setOd) | (apply kept_onTile) | (apply kept_setWle) | (apply kept_tileIdle) | (apply kept_settleDie) | (apply kept_engAbort) | (apply kept_ceAbort) | (refine Kept.ite ?_ ?_) | (refine Kept.foldl _ ?_ ?_) | (split) | (refine Kept.upd ?_ rfl)

theorem kept_stopComplete {s0 s : State} (h : Kept s0 s) (d : Nat) : Kept s0 (State.stopComplete s d) := by
  unfold State.stopComplete
  repeat' with_reducible first
    | (extract_lets -underBinder +onlyGivenNames x; refine Kept.via (s := s0) x ?_ ?_; (on_goal 2 => (intro _; clear_value x)); (on_goal 1 => (subst x)))
    | (extract_lets -underBinder +onlyGivenNames x; clear_value x)
    | (intro) | assumption | (apply kept_wr) | (apply kept_wb) | (apply kept_setOd) | (apply kept_setBord) | (refine Kept.ite ?_ ?_) | (split) | (refine Kept.upd ?_ rfl)

theorem kept_tblWrite {s0 s : State} (h : Kept s0 s) (d v : Nat) : Kept s0 (State.tblWrite s d v) := by
  unfold State.tblWrite
  repeat' with_reducible first
    | (extract_lets -underBinder +onlyGivenNames x; refine Kept.via (s := s0) x ?_ ?_; (on_goal 2 => (intro _; clear_value x)); (on_goal 1 => (subst x)))
    | (extract_lets -underBinder +onlyGivenNames x; clear_value x)
    | assumption | (apply kept_wb) | (apply kept_setOd) | (apply kept_unready) | (apply kept_toEmpty) | (refine Kept.ite ?_ ?_) | (split) | (refine Kept.upd ?_ rfl)

theorem kept_evtDoorbell {s0 s : State} (h : Kept s0 s) (d v : Nat) : Kept s0 (State.evtDoorbell s d v) := by
  unfold State.evtDoorbell
  repeat' with_reducible first
    | assumption | (apply kept_wr) | (apply kept_evtAdd)

theorem kept_osCntClr {s0 s : State} (h : Kept s0 s) (d : Nat) : Kept s0 (State.osCntClr s d) := by
  unfold State.osCntClr
  repeat' with_reducible first
    | assumption | (apply kept_zero)

theorem kept_borderArrival {s0 s : State} (h : Kept s0 s) (d pkg seq id tick : Nat) : Kept s0 (State.borderArrival s d pkg seq id tick) := by
  unfold State.borderArrival
  repeat' with_reducible first
    | (extract_lets -underBinder +onlyGivenNames x; refine Kept.via (s := s0) x ?_ ?_; (on_goal 2 => (intro _; clear_value x)); (on_goal 1 => (subst x)))
    | (extract_lets -underBinder +onlyGivenNames x; clear_value x)
    | (intro) | assumption | (apply kept_setBord) | (apply kept_pkg2Raise) | (apply kept_borderForm) | (refine Kept.ite ?_ ?_) | (split) | (refine Kept.upd ?_ rfl)

theorem kept_borderRelease {s0 s : State} (h : Kept s0 s) (d : Nat) : Kept s0 (State.borderRelease s d) := by
  unfold State.borderRelease
  repeat' with_reducible first
    | (extract_lets -underBinder +onlyGivenNames x; refine Kept.via (s := s0) x ?_ ?_; (on_goal 2 => (intro _; clear_value x)); (on_goal 1 => (subst x)))
    | (extract_lets -underBinder +onlyGivenNames x; clear_value x)
    | (intro) | assumption | (apply kept_wr) | (apply kept_wb) | (apply kept_inc) | (apply kept_toTick) | (apply kept_setBord) | (refine Kept.ite ?_ ?_) | (split) | (refine Kept.upd ?_ rfl)

theorem kept_thaw {s0 s : State} (h : Kept s0 s)  : Kept s0 (State.thaw s) := by
  unfold State.thaw
  repeat' with_reducible first
    | (extract_lets -underBinder +onlyGivenNames x; refine Kept.via (s := s0) x ?_ ?_; (on_goal 2 => (intro _; clear_value x)); (on_goal 1 => (subst x)))
    | (extract_lets -underBinder +onlyGivenNames x; clear_value x)
    | assumption | (split) | (refine Kept.upd ?_ rfl)

theorem kept_epochEdge {s0 s : State} (h : Kept s0 s)  : Kept s0 (State.epochEdge s) := by
  unfold State.epochEdge
  repeat' with_reducible first
    | (extract_lets -underBinder +onlyGivenNames x; refine Kept.via (s := s0) x ?_ ?_; (on_goal 2 => (intro _; clear_value x)); (on_goal 1 => (subst x)))
    | (extract_lets -underBinder +onlyGivenNames x; clear_value x)
    | assumption | (apply kept_wr) | (apply kept_wb) | (apply kept_inc) | (apply kept_addWrap) | (apply kept_raise) | (refine Kept.ite ?_ ?_) | (split) | (refine Kept.upd ?_ rfl)

theorem kept_timeArm {s0 s : State} (h : Kept s0 s)  : Kept s0 (State.timeArm s) := by
  unfold State.timeArm
  repeat' with_reducible first
    | assumption | (apply kept_wb)

theorem kept_breakTake {s0 s : State} (h : Kept s0 s) (d : Nat) (b : BreakAt) (count : Bool) : Kept s0 (State.breakTake s d b count) := by
  unfold State.breakTake
  repeat' with_reducible first
    | (extract_lets -underBinder +onlyGivenNames x; refine Kept.via (s := s0) x ?_ ?_; (on_goal 2 => (intro _; clear_value x)); (on_goal 1 => (subst x)))
    | (extract_lets -underBinder +onlyGivenNames x; clear_value x)
    | assumption | (apply kept_setAu) | (refine Kept.ite ?_ ?_) | (split) | (refine Kept.upd ?_ rfl)

theorem kept_breakWrite {s0 s : State} (h : Kept s0 s) (count staged : Bool) : Kept s0 (State.breakWrite s count staged) := by
  unfold State.breakWrite
  repeat' with_reducible first
    | (extract_lets -underBinder +onlyGivenNames x; refine Kept.via (s := s0) x ?_ ?_; (on_goal 2 => (intro _; clear_value x)); (on_goal 1 => (subst x)))
    | (extract_lets -underBinder +onlyGivenNames x; clear_value x)
    | (intro) | assumption | (apply kept_breakTake) | (refine Kept.ite ?_ ?_) | (refine Kept.foldl _ ?_ ?_) | (split) | (refine Kept.upd ?_ rfl)

theorem kept_breakRelease {s0 s : State} (h : Kept s0 s)  : Kept s0 (State.breakRelease s) := by
  unfold State.breakRelease
  repeat' with_reducible first
    | (extract_lets -underBinder +onlyGivenNames x; refine Kept.via (s := s0) x ?_ ?_; (on_goal 2 => (intro _; clear_value x)); (on_goal 1 => (subst x)))
    | (extract_lets -underBinder +onlyGivenNames x; refine Kept.viaP (s := s0) x ?_ ?_; (on_goal 2 => (intro _; clear_value x)); (on_goal 1 => (subst x)))
    | (extract_lets -underBinder +onlyGivenNames x; clear_value x)
    | (intro) | assumption | (apply kept_wb) | (apply kept_setOd) | (apply kept_breakTake) | (refine Kept.ite ?_ ?_) | (refine Kept.foldl _ ?_ ?_) | (refine Kept.foldlP _ ?_ ?_) | (split) | (refine Kept.upd ?_ rfl) | (dsimp -zeta only)

theorem kept_stepCopy {s0 s : State} (h : Kept s0 s)  : Kept s0 (State.stepCopy s) := by
  unfold State.stepCopy
  repeat' with_reducible first
    | (extract_lets -underBinder +onlyGivenNames x; refine Kept.via (s := s0) x ?_ ?_; (on_goal 2 => (intro _; clear_value x)); (on_goal 1 => (subst x)))
    | (extract_lets -underBinder +onlyGivenNames x; clear_value x)
    | (intro) | assumption | (apply kept_setAu) | (refine Kept.foldl _ ?_ ?_) | (refine Kept.upd ?_ rfl)

theorem kept_dlatAck {s0 s : State} (h : Kept s0 s) (d : Nat) : Kept s0 (State.dlatAck s d) := by
  unfold State.dlatAck
  repeat' with_reducible first
    | (extract_lets -underBinder +onlyGivenNames x; refine Kept.via (s := s0) x ?_ ?_; (on_goal 2 => (intro _; clear_value x)); (on_goal 1 => (subst x)))
    | (extract_lets -underBinder +onlyGivenNames x; clear_value x)
    | assumption | (apply kept_wb) | (apply kept_setAu) | (refine Kept.upd ?_ rfl)

theorem kept_wlDown {s0 s : State} (h : Kept s0 s) (p : Nat) : Kept s0 (State.wlDown s p) := by
  unfold State.wlDown
  repeat' with_reducible first
    | (extract_lets -underBinder +onlyGivenNames x; refine Kept.via (s := s0) x ?_ ?_; (on_goal 2 => (intro _; clear_value x)); (on_goal 1 => (subst x)))
    | (extract_lets -underBinder +onlyGivenNames x; clear_value x)
    | assumption | (apply kept_raise) | (refine Kept.ite ?_ ?_)

theorem kept_wlTrain {s0 s : State} (h : Kept s0 s) (p : Nat) : Kept s0 (State.wlTrain s p) := by
  unfold State.wlTrain
  repeat' with_reducible first
    | (extract_lets -underBinder +onlyGivenNames x; refine Kept.via (s := s0) x ?_ ?_; (on_goal 2 => (intro _; clear_value x)); (on_goal 1 => (subst x)))
    | (extract_lets -underBinder +onlyGivenNames x; clear_value x)
    | (intro) | assumption | (apply kept_wr) | (apply kept_addSat) | (apply kept_setWle) | (apply kept_toWire) | (apply kept_wlDown) | (refine Kept.ite ?_ ?_) | (split) | (refine Kept.upd ?_ rfl)

theorem kept_wlHold {s0 s : State} (h : Kept s0 s) (p : Nat) : Kept s0 (State.wlHold s p) := by
  unfold State.wlHold
  repeat' with_reducible first
    | (extract_lets -underBinder +onlyGivenNames x; refine Kept.via (s := s0) x ?_ ?_; (on_goal 2 => (intro _; clear_value x)); (on_goal 1 => (subst x)))
    | (extract_lets -underBinder +onlyGivenNames x; clear_value x)
    | assumption | (apply kept_wr) | (apply kept_wb) | (apply kept_setWle) | (apply kept_wlDown) | (split) | (refine Kept.upd ?_ rfl)

theorem kept_supersede {s0 s : State} (h : Kept s0 s) (p : Nat) : Kept s0 (State.supersede s p) := by
  unfold State.supersede
  repeat' with_reducible first
    | (extract_lets -underBinder +onlyGivenNames x; refine Kept.via (s := s0) x ?_ ?_; (on_goal 2 => (intro _; clear_value x)); (on_goal 1 => (subst x)))
    | (extract_lets -underBinder +onlyGivenNames x; clear_value x)
    | assumption | (apply kept_wb) | (refine Kept.ite ?_ ?_) | (split)

theorem kept_wlRetrain {s0 s : State} (h : Kept s0 s) (p : Nat) : Kept s0 (State.wlRetrain s p) := by
  unfold State.wlRetrain
  repeat' with_reducible first
    | (extract_lets -underBinder +onlyGivenNames x; refine Kept.via (s := s0) x ?_ ?_; (on_goal 2 => (intro _; clear_value x)); (on_goal 1 => (subst x)))
    | (extract_lets -underBinder +onlyGivenNames x; clear_value x)
    | assumption | (apply kept_wb) | (apply kept_setWle) | (apply kept_wlTrain) | (apply kept_supersede) | (refine Kept.ite ?_ ?_) | (split) | (refine Kept.upd ?_ rfl)

theorem kept_wlHoldReq {s0 s : State} (h : Kept s0 s) (p : Nat) : Kept s0 (State.wlHoldReq s p) := by
  unfold State.wlHoldReq
  repeat' with_reducible first
    | assumption | (apply kept_wlHold) | (refine Kept.ite ?_ ?_)

theorem kept_wlEnable {s0 s : State} (h : Kept s0 s) (p : Nat) : Kept s0 (State.wlEnable s p) := by
  unfold State.wlEnable
  repeat' with_reducible first
    | assumption | (apply kept_wlTrain) | (refine Kept.ite ?_ ?_)

theorem kept_wlOff {s0 s : State} (h : Kept s0 s) (p : Nat) : Kept s0 (State.wlOff s p) := by
  unfold State.wlOff
  repeat' with_reducible first
    | (extract_lets -underBinder +onlyGivenNames x; refine Kept.via (s := s0) x ?_ ?_; (on_goal 2 => (intro _; clear_value x)); (on_goal 1 => (subst x)))
    | (extract_lets -underBinder +onlyGivenNames x; clear_value x)
    | assumption | (apply kept_wr) | (apply kept_setWle) | (apply kept_wlDown) | (split) | (refine Kept.upd ?_ rfl)

theorem kept_wlFollow {s0 s : State} (h : Kept s0 s) (p : Nat) : Kept s0 (State.wlFollow s p) := by
  unfold State.wlFollow
  repeat' with_reducible first
    | (extract_lets -underBinder +onlyGivenNames x; refine Kept.via (s := s0) x ?_ ?_; (on_goal 2 => (intro _; clear_value x)); (on_goal 1 => (subst x)))
    | (extract_lets -underBinder +onlyGivenNames x; clear_value x)
    | assumption | (apply kept_raise) | (apply kept_wlTrain) | (refine Kept.ite ?_ ?_)

theorem kept_wireCorrected {s0 s : State} (h : Kept s0 s) (p m wire : Nat) : Kept s0 (State.wireCorrected s p m wire) := by
  unfold State.wireCorrected
  repeat' with_reducible first
    | (extract_lets -underBinder +onlyGivenNames x; refine Kept.via (s := s0) x ?_ ?_; (on_goal 2 => (intro _; clear_value x)); (on_goal 1 => (subst x)))
    | (extract_lets -underBinder +onlyGivenNames x; clear_value x)
    | (intro) | assumption | (apply kept_wr) | (apply kept_wb) | (apply kept_inc) | (apply kept_raise) | (apply kept_setWle) | (refine Kept.ite ?_ ?_) | (split) | (refine Kept.upd ?_ rfl)

theorem kept_mainWord {s0 s : State} (h : Kept s0 s) (p : Nat) (ls : List FLine) (e : LinkErr) : Kept s0 (State.mainWord s p ls e).1 := by
  unfold State.mainWord
  repeat' with_reducible first
    | (extract_lets -underBinder +onlyGivenNames x; refine Kept.via (s := s0) x ?_ ?_; (on_goal 2 => (intro _; clear_value x)); (on_goal 1 => (subst x)))
    | (extract_lets -underBinder +onlyGivenNames x; clear_value x)
    | (intro) | assumption | (apply kept_inc) | (apply kept_raise) | (apply kept_wireCorrected) | (refine Kept.ite ?_ ?_) | (refine Kept.pairIte ?_ ?_) | (refine Kept.foldl _ ?_ ?_) | (split) | (dsimp -zeta only)

theorem kept_sbWords {s0 s : State} (h : Kept s0 s) (p : Nat) (es : List LinkErr) (v : Nat) : Kept s0 (State.sbWords s p es v).1 := by
  unfold State.sbWords
  repeat' with_reducible first
    | (extract_lets -underBinder +onlyGivenNames x; refine Kept.via (s := s0) x ?_ ?_; (on_goal 2 => (intro _; clear_value x)); (on_goal 1 => (subst x)))
    | (extract_lets -underBinder +onlyGivenNames x; refine Kept.viaP (s := s0) x ?_ ?_; (on_goal 2 => (intro _; clear_value x)); (on_goal 1 => (subst x)))
    | (extract_lets -underBinder +onlyGivenNames x; clear_value x)
    | (intro) | assumption | (apply kept_inc) | (apply kept_raise) | (refine Kept.ite ?_ ?_) | (refine Kept.pairIte ?_ ?_) | (refine Kept.foldl _ ?_ ?_) | (refine Kept.foldlP _ ?_ ?_) | (split) | (rename_i e; refine Kept.pair e ?_) | (dsimp -zeta only)

theorem kept_doubtful {s0 s : State} (h : Kept s0 s) (p : Nat) : Kept s0 (State.doubtful s p) := by
  unfold State.doubtful
  repeat' with_reducible first
    | (extract_lets -underBinder +onlyGivenNames x; refine Kept.via (s := s0) x ?_ ?_; (on_goal 2 => (intro _; clear_value x)); (on_goal 1 => (subst x)))
    | (extract_lets -underBinder +onlyGivenNames x; clear_value x)
    | assumption | (apply kept_setOd) | (refine Kept.ite ?_ ?_) | (split) | (refine Kept.upd ?_ rfl)

theorem kept_rxSlot {s0 s : State} (h : Kept s0 s) (p : Nat) (k : WKind) (er : RxErr) : Kept s0 (State.rxSlot s p k er).1 := by
  unfold State.rxSlot
  repeat' with_reducible first
    | (extract_lets -underBinder +onlyGivenNames x; refine Kept.via (s := s0) x ?_ ?_; (on_goal 2 => (intro _; clear_value x)); (on_goal 1 => (subst x)))
    | (extract_lets -underBinder +onlyGivenNames x; refine Kept.viaP (s := s0) x ?_ ?_; (on_goal 2 => (intro _; clear_value x)); (on_goal 1 => (subst x)))
    | (extract_lets -underBinder +onlyGivenNames x; clear_value x)
    | (intro) | assumption | (apply kept_addSat) | (apply kept_inc) | (apply kept_raise) | (apply kept_setWle) | (apply kept_mainWord) | (apply kept_sbWords) | (apply kept_doubtful) | (apply kept_slip) | (refine Kept.ite ?_ ?_) | (refine Kept.pairIte ?_ ?_) | (refine Kept.foldl _ ?_ ?_) | (refine Kept.foldlP _ ?_ ?_) | (split) | (refine Kept.upd ?_ rfl) | (rename_i e; refine Kept.pair e ?_) | (dsimp -zeta only)

theorem kept_rxBuffer {s0 s : State} (h : Kept s0 s) (p : Nat) (f : WireFlit) : Kept s0 (State.rxBuffer s p f) := by
  unfold State.rxBuffer
  repeat' with_reducible first
    | (extract_lets -underBinder +onlyGivenNames x; refine Kept.via (s := s0) x ?_ ?_; (on_goal 2 => (intro _; clear_value x)); (on_goal 1 => (subst x)))
    | (extract_lets -underBinder +onlyGivenNames x; clear_value x)
    | assumption | (apply kept_setWle) | (refine Kept.upd ?_ rfl)

theorem kept_sideLand {s0 s : State} (h : Kept s0 s) (p : Nat) (g : SideFlit) : Kept s0 (State.sideLand s p g) := by
  unfold State.sideLand
  repeat' with_reducible first
    | (extract_lets -underBinder +onlyGivenNames x; refine Kept.via (s := s0) x ?_ ?_; (on_goal 2 => (intro _; clear_value x)); (on_goal 1 => (subst x)))
    | (extract_lets -underBinder +onlyGivenNames x; refine Kept.fn x ?_; subst x)
    | (extract_lets -underBinder +onlyGivenNames x; clear_value x)
    | assumption | (apply kept_setWle) | (apply kept_ceSettle) | (apply kept_ceTake) | (apply kept_sideIn) | (refine Kept.ite ?_ ?_) | (split) | (refine Kept.upd ?_ rfl)

theorem kept_sideIn {s0 s : State} (h : Kept s0 s) (p : Nat) (f : WireFlit) : Kept s0 (State.sideIn s p f) := by
  unfold State.sideIn
  repeat' with_reducible first
    | (extract_lets -underBinder +onlyGivenNames x; refine Kept.via (s := s0) x ?_ ?_; (on_goal 2 => (intro _; clear_value x)); (on_goal 1 => (subst x)))
    | (extract_lets -underBinder +onlyGivenNames x; refine Kept.viaP (s := s0) x ?_ ?_; (on_goal 2 => (intro _; clear_value x)); (on_goal 1 => (subst x)))
    | (extract_lets -underBinder +onlyGivenNames x; clear_value x)
    | assumption | (apply kept_draw) | (apply kept_sideQueue) | (apply kept_sideLand) | (refine Kept.ite ?_ ?_) | (split) | (refine Kept.upd ?_ rfl) | (dsimp -zeta only)

theorem kept_rxTake {s0 s : State} (h : Kept s0 s) (p : Nat) (f : WireFlit) : Kept s0 (State.rxTake s p f) := by
  unfold State.rxTake
  repeat' with_reducible first
    | (extract_lets -underBinder +onlyGivenNames x; refine Kept.via (s := s0) x ?_ ?_; (on_goal 2 => (intro _; clear_value x)); (on_goal 1 => (subst x)))
    | (extract_lets -underBinder +onlyGivenNames x; refine Kept.fn x ?_; subst x)
    | (extract_lets -underBinder +onlyGivenNames x; clear_value x)
    | assumption | (apply kept_inc) | (apply kept_setWle) | (apply kept_ceTake) | (apply kept_wlFollow) | (apply kept_rxBuffer) | (apply kept_sideIn) | (refine Kept.ite ?_ ?_) | (split) | (refine Kept.upd ?_ rfl)

theorem kept_rxKind {s0 s : State} (h : Kept s0 s) (p : Nat) (k : WKind) (er : RxErr) : Kept s0 (State.rxKind s p k er) := by
  unfold State.rxKind
  repeat' with_reducible first
    | (extract_lets -underBinder +onlyGivenNames x; refine Kept.via (s := s0) x ?_ ?_; (on_goal 2 => (intro _; clear_value x)); (on_goal 1 => (subst x)))
    | (extract_lets -underBinder +onlyGivenNames x; clear_value x)
    | assumption | (apply kept_rxSlot) | (apply kept_rxTake) | (split) | (rename_i e; refine Kept.pair e ?_)

theorem kept_sendFlit {s0 s : State} (h : Kept s0 s) (p : Nat) (f : WireFlit) : Kept s0 (State.sendFlit s p f) := by
  unfold State.sendFlit
  repeat' with_reducible first
    | (extract_lets -underBinder +onlyGivenNames x; refine Kept.via (s := s0) x ?_ ?_; (on_goal 2 => (intro _; clear_value x)); (on_goal 1 => (subst x)))
    | (extract_lets -underBinder +onlyGivenNames x; clear_value x)
    | assumption | (apply kept_toWire) | (refine Kept.ite ?_ ?_) | (split) | (refine Kept.upd ?_ rfl)

theorem kept_programSlot {s0 s : State} (h : Kept s0 s) (d port : Nat) : Kept s0 (State.programSlot s d port) := by
  unfold State.programSlot
  repeat' with_reducible first
    | (extract_lets -underBinder +onlyGivenNames x; refine Kept.via (s := s0) x ?_ ?_; (on_goal 2 => (intro _; clear_value x)); (on_goal 1 => (subst x)))
    | (extract_lets -underBinder +onlyGivenNames x; refine Kept.viaP (s := s0) x ?_ ?_; (on_goal 2 => (intro _; clear_value x)); (on_goal 1 => (subst x)))
    | (extract_lets -underBinder +onlyGivenNames x; clear_value x)
    | (intro) | assumption | (apply kept_toCc) | (apply kept_engErr) | (apply kept_enterFlits) | (apply kept_settleDie) | (apply kept_sendFlit) | (refine Kept.ite ?_ ?_) | (refine Kept.foldl _ ?_ ?_) | (refine Kept.foldlP _ ?_ ?_) | (split) | (refine Kept.upd ?_ rfl) | (dsimp -zeta only)

theorem kept_setSub {s0 s : State} (h : Kept s0 s) (w k : Nat) (x : SubLink) : Kept s0 (State.setSub s w k x) := by
  unfold State.setSub
  repeat' with_reducible first
    | (extract_lets -underBinder +onlyGivenNames x; refine Kept.via (s := s0) x ?_ ?_; (on_goal 2 => (intro _; clear_value x)); (on_goal 1 => (subst x)))
    | (extract_lets -underBinder +onlyGivenNames x; clear_value x)
    | assumption | (refine Kept.subs ?_ (fun w => swf_put _ _ w)) | (refine Kept.upd ?_ rfl)

theorem kept_toSide {s0 s : State} (h : Kept s0 s) (p : Nat) (n : Nat) : Kept s0 (State.toSide s p n) := by
  induction n generalizing s with
  | zero => assumption
  | succ _ ih =>
  unfold State.toSide
  repeat' with_reducible first
    | assumption | (apply kept_passSlots) | (apply ih) | (refine Kept.ite ?_ ?_) | (split)

theorem kept_relayFill {s0 s : State} (h : Kept s0 s) (p : Nat) (hits : List EccHit) : Kept s0 (State.relayFill s p hits) := by
  unfold State.relayFill
  repeat' with_reducible first
    | (extract_lets -underBinder +onlyGivenNames x; refine Kept.via (s := s0) x ?_ ?_; (on_goal 2 => (intro _; clear_value x)); (on_goal 1 => (subst x)))
    | (extract_lets -underBinder +onlyGivenNames x; clear_value x)
    | (intro) | assumption | (apply kept_sideQueue) | (apply kept_bufHits) | (apply kept_drawPayload) | (refine Kept.ite ?_ ?_) | (split) | (rename_i e; refine Kept.pair e ?_)

theorem kept_sideService {s0 s : State} (h : Kept s0 s) (p : Nat) (hits : List EccHit) : Kept s0 (State.sideService s p hits) := by
  unfold State.sideService
  repeat' with_reducible first
    | (extract_lets -underBinder +onlyGivenNames x; refine Kept.via (s := s0) x ?_ ?_; (on_goal 2 => (intro _; clear_value x)); (on_goal 1 => (subst x)))
    | (extract_lets -underBinder +onlyGivenNames x; refine Kept.viaP (s := s0) x ?_ ?_; (on_goal 2 => (intro _; clear_value x)); (on_goal 1 => (subst x)))
    | (extract_lets -underBinder +onlyGivenNames x; clear_value x)
    | (intro) | assumption | (apply kept_setWle) | (apply kept_sendFlit) | (apply kept_toSide) | (apply kept_relayFill) | (refine Kept.ite ?_ ?_) | (refine Kept.foldl _ ?_ ?_) | (refine Kept.foldlP _ ?_ ?_) | (split) | (refine Kept.upd ?_ rfl) | (dsimp -zeta only)

theorem kept_flitLost {s0 s : State} (h : Kept s0 s) (d : Nat) : Kept s0 (State.flitLost s d) := by
  unfold State.flitLost
  repeat' with_reducible first
    | (extract_lets -underBinder +onlyGivenNames x; refine Kept.via (s := s0) x ?_ ?_; (on_goal 2 => (intro _; clear_value x)); (on_goal 1 => (subst x)))
    | (extract_lets -underBinder +onlyGivenNames x; refine Kept.viaP (s := s0) x ?_ ?_; (on_goal 2 => (intro _; clear_value x)); (on_goal 1 => (subst x)))
    | (extract_lets -underBinder +onlyGivenNames x; clear_value x)
    | assumption | (apply kept_draw) | (apply kept_meshEvent) | (dsimp -zeta only)

theorem kept_flitReleased {s0 s : State} (h : Kept s0 s) (d port c : Nat) (f : WireFlit) : Kept s0 (State.flitReleased s d port c f) := by
  unfold State.flitReleased
  repeat' with_reducible first
    | (extract_lets -underBinder +onlyGivenNames x; refine Kept.via (s := s0) x ?_ ?_; (on_goal 2 => (intro _; clear_value x)); (on_goal 1 => (subst x)))
    | (extract_lets -underBinder +onlyGivenNames x; refine Kept.viaP (s := s0) x ?_ ?_; (on_goal 2 => (intro _; clear_value x)); (on_goal 1 => (subst x)))
    | (extract_lets -underBinder +onlyGivenNames x; clear_value x)
    | assumption | (apply kept_draw) | (apply kept_meshEvent) | (apply kept_flitLost) | (refine Kept.ite ?_ ?_) | (split) | (refine Kept.upd ?_ rfl) | (dsimp -zeta only)

theorem kept_downRelease {s0 s : State} (h : Kept s0 s) (d port : Nat) : Kept s0 (State.downRelease s d port) := by
  unfold State.downRelease
  repeat' with_reducible first
    | (extract_lets -underBinder +onlyGivenNames x; refine Kept.via (s := s0) x ?_ ?_; (on_goal 2 => (intro _; clear_value x)); (on_goal 1 => (subst x)))
    | (extract_lets -underBinder +onlyGivenNames x; refine Kept.viaP (s := s0) x ?_ ?_; (on_goal 2 => (intro _; clear_value x)); (on_goal 1 => (subst x)))
    | (extract_lets -underBinder +onlyGivenNames x; clear_value x)
    | (intro) | assumption | (refine Kept.ite ?_ ?_) | (split) | (refine Kept.upd ?_ rfl) | (dsimp -zeta only)

theorem kept_eyeTest {s0 s : State} (h : Kept s0 s) (p : Nat) (found : List WireTest) (eyes : List Nat) : Kept s0 (State.eyeTest s p found eyes) := by
  unfold State.eyeTest
  repeat' with_reducible first
    | (extract_lets -underBinder +onlyGivenNames x; refine Kept.via (s := s0) x ?_ ?_; (on_goal 2 => (intro _; clear_value x)); (on_goal 1 => (subst x)))
    | (extract_lets -underBinder +onlyGivenNames x; clear_value x)
    | (intro) | assumption | (apply kept_wr) | (apply kept_setWle) | (refine Kept.ite ?_ ?_) | (refine Kept.foldl _ ?_ ?_) | (split) | (refine Kept.upd ?_ rfl)

theorem kept_phaseDone {s0 s : State} (h : Kept s0 s) (p : Nat) (found : List WireTest) (eyes : List Nat) (slack : Nat) : Kept s0 (State.phaseDone s p found eyes slack) := by
  unfold State.phaseDone
  repeat' with_reducible first
    | (extract_lets -underBinder +onlyGivenNames x; refine Kept.via (s := s0) x ?_ ?_; (on_goal 2 => (intro _; clear_value x)); (on_goal 1 => (subst x)))
    | (extract_lets -underBinder +onlyGivenNames x; refine Kept.fn x ?_; subst x)
    | (extract_lets -underBinder +onlyGivenNames x; clear_value x)
    | (intro) | assumption | (apply kept_wr) | (apply kept_wb) | (apply kept_raise) | (apply kept_setWle) | (apply kept_wlHold) | (apply kept_eyeTest) | (refine Kept.ite ?_ ?_) | (refine Kept.foldl _ ?_ ?_) | (split) | (refine Kept.upd ?_ rfl)

theorem kept_repairWrite {s0 s : State} (h : Kept s0 s) (p wire : Nat) : Kept s0 (State.repairWrite s p wire) := by
  unfold State.repairWrite
  repeat' with_reducible first
    | (extract_lets -underBinder +onlyGivenNames x; refine Kept.via (s := s0) x ?_ ?_; (on_goal 2 => (intro _; clear_value x)); (on_goal 1 => (subst x)))
    | (extract_lets -underBinder +onlyGivenNames x; clear_value x)
    | assumption | (apply kept_setWle) | (refine Kept.ite ?_ ?_)

theorem kept_wlCntClr {s0 s : State} (h : Kept s0 s) (p : Nat) : Kept s0 (State.wlCntClr s p) := by
  unfold State.wlCntClr
  repeat' with_reducible first
    | (extract_lets -underBinder +onlyGivenNames x; refine Kept.via (s := s0) x ?_ ?_; (on_goal 2 => (intro _; clear_value x)); (on_goal 1 => (subst x)))
    | (extract_lets -underBinder +onlyGivenNames x; clear_value x)
    | assumption | (apply kept_zero) | (apply kept_setWle) | (refine Kept.upd ?_ rfl)

end Sys2Proof.Machine
end

