-- ==== Sys2Proof/Laws/KeptSeber.lean ====
section
/-! SUPPORT. What the helpers of Seber keep. -/

namespace Sys2Proof.Machine

set_option linter.all false

theorem kept_setLane {s0 s : State} (h : Kept s0 s) (w f k dir : Nat) (x : Lane) : Kept s0 (State.setLane s w f k dir x) := by
  unfold State.setLane
  repeat' with_reducible first
    | (extract_lets -underBinder +onlyGivenNames x; refine Kept.via (s := s0) x ?_ ?_; (on_goal 2 => (intro _; clear_value x)); (on_goal 1 => (subst x)))
    | (extract_lets -underBinder +onlyGivenNames x; clear_value x)
    | assumption | (refine Kept.lanes ?_ (fun w => swf_put _ _ w)) | (refine Kept.upd ?_ rfl)

theorem kept_sbRaise {s0 s : State} (h : Kept s0 s) (w k src : Nat) (f : Option Nat) : Kept s0 (State.sbRaise s w k src f) := by
  unfold State.sbRaise
  repeat' with_reducible first
    | (extract_lets -underBinder +onlyGivenNames x; refine Kept.via (s := s0) x ?_ ?_; (on_goal 2 => (intro _; clear_value x)); (on_goal 1 => (subst x)))
    | (extract_lets -underBinder +onlyGivenNames x; clear_value x)
    | assumption | (apply kept_raiseX) | (split)

theorem kept_setMap {s0 s : State} (h : Kept s0 s) (w k : Nat) (tx : Bool) (m : Nat) : Kept s0 (State.setMap s w k tx m) := by
  unfold State.setMap
  repeat' with_reducible first
    | (extract_lets -underBinder +onlyGivenNames x; refine Kept.via (s := s0) x ?_ ?_; (on_goal 2 => (intro _; clear_value x)); (on_goal 1 => (subst x)))
    | (extract_lets -underBinder +onlyGivenNames x; clear_value x)
    | (intro) | assumption | (apply kept_wr) | (apply kept_wb) | (apply kept_putBit) | (apply kept_setSub) | (apply kept_sbRaise) | (refine Kept.ite ?_ ?_) | (refine Kept.foldl _ ?_ ?_) | (split) | (refine Kept.upd ?_ rfl)

theorem kept_sbDiscard {s0 s : State} (h : Kept s0 s) (w k : Nat) : Kept s0 (State.sbDiscard s w k) := by
  unfold State.sbDiscard
  repeat' with_reducible first
    | (extract_lets -underBinder +onlyGivenNames x; refine Kept.via (s := s0) x ?_ ?_; (on_goal 2 => (intro _; clear_value x)); (on_goal 1 => (subst x)))
    | (extract_lets -underBinder +onlyGivenNames x; refine Kept.viaP (s := s0) x ?_ ?_; (on_goal 2 => (intro _; clear_value x)); (on_goal 1 => (subst x)))
    | (extract_lets -underBinder +onlyGivenNames x; clear_value x)
    | (intro) | assumption | (apply kept_addSat) | (apply kept_setCe) | (apply kept_setSub) | (refine Kept.foldl _ ?_ ?_) | (refine Kept.foldlP _ ?_ ?_) | (refine Kept.upd ?_ rfl) | (dsimp -zeta only)

theorem kept_sbZero {s0 s : State} (h : Kept s0 s) (w k : Nat) : Kept s0 (State.sbZero s w k) := by
  unfold State.sbZero
  repeat' with_reducible first
    | assumption | (apply kept_zero)

theorem kept_sbEnter {s0 s : State} (h : Kept s0 s) (w k st : Nat) : Kept s0 (State.sbEnter s w k st) := by
  unfold State.sbEnter
  repeat' with_reducible first
    | (extract_lets -underBinder +onlyGivenNames x; refine Kept.via (s := s0) x ?_ ?_; (on_goal 2 => (intro _; clear_value x)); (on_goal 1 => (subst x)))
    | (extract_lets -underBinder +onlyGivenNames x; clear_value x)
    | assumption | (apply kept_wr) | (apply kept_setSub) | (apply kept_setMap) | (refine Kept.upd ?_ rfl)

theorem kept_sbDarken {s0 s : State} (h : Kept s0 s) (w k : Nat) : Kept s0 (State.sbDarken s w k) := by
  unfold State.sbDarken
  repeat' with_reducible first
    | assumption | (apply kept_sbDiscard) | (apply kept_sbZero) | (apply kept_sbEnter)

theorem kept_sbWake {s0 s : State} (h : Kept s0 s) (w k : Nat) : Kept s0 (State.sbWake s w k) := by
  unfold State.sbWake
  repeat' with_reducible first
    | (extract_lets -underBinder +onlyGivenNames x; refine Kept.via (s := s0) x ?_ ?_; (on_goal 2 => (intro _; clear_value x)); (on_goal 1 => (subst x)))
    | (extract_lets -underBinder +onlyGivenNames x; clear_value x)
    | assumption | (apply kept_sbEnter) | (refine Kept.ite ?_ ?_)

theorem kept_sbEmit {s0 s : State} (h : Kept s0 s) (w k f : Nat) (c : Cell) : Kept s0 (State.sbEmit s w k f c) := by
  unfold State.sbEmit
  repeat' with_reducible first
    | (extract_lets -underBinder +onlyGivenNames x; refine Kept.via (s := s0) x ?_ ?_; (on_goal 2 => (intro _; clear_value x)); (on_goal 1 => (subst x)))
    | (extract_lets -underBinder +onlyGivenNames x; clear_value x)
    | assumption | (apply kept_setSub) | (refine Kept.upd ?_ rfl)

theorem kept_sbSend {s0 s : State} (h : Kept s0 s) (w k typ seq pay : Nat) : Kept s0 (State.sbSend s w k typ seq pay) := by
  unfold State.sbSend
  repeat' with_reducible first
    | (extract_lets -underBinder +onlyGivenNames x; refine Kept.via (s := s0) x ?_ ?_; (on_goal 2 => (intro _; clear_value x)); (on_goal 1 => (subst x)))
    | (extract_lets -underBinder +onlyGivenNames x; clear_value x)
    | assumption | (apply kept_sbEmit) | (split)

theorem kept_sbResend {s0 s : State} (h : Kept s0 s) (w k : Nat) (qs : List Nat) (ues : List Nat) (ces : Nat) : Kept s0 (State.sbResend s w k qs ues ces) := by
  unfold State.sbResend
  repeat' with_reducible first
    | (extract_lets -underBinder +onlyGivenNames x; refine Kept.via (s := s0) x ?_ ?_; (on_goal 2 => (intro _; clear_value x)); (on_goal 1 => (subst x)))
    | (extract_lets -underBinder +onlyGivenNames x; refine Kept.viaP (s := s0) x ?_ ?_; (on_goal 2 => (intro _; clear_value x)); (on_goal 1 => (subst x)))
    | (extract_lets -underBinder +onlyGivenNames x; clear_value x)
    | (intro) | assumption | (apply kept_addSat) | (apply kept_inc) | (apply kept_raise) | (apply kept_setSub) | (apply kept_sbEmit) | (refine Kept.ite ?_ ?_) | (refine Kept.foldl _ ?_ ?_) | (refine Kept.foldlP _ ?_ ?_) | (split) | (refine Kept.upd ?_ rfl) | (dsimp -zeta only)

theorem kept_sbTrain {s0 s : State} (h : Kept s0 s) (w k : Nat) : Kept s0 (State.sbTrain s w k) := by
  unfold State.sbTrain
  repeat' with_reducible first
    | (extract_lets -underBinder +onlyGivenNames x; refine Kept.via (s := s0) x ?_ ?_; (on_goal 2 => (intro _; clear_value x)); (on_goal 1 => (subst x)))
    | (extract_lets -underBinder +onlyGivenNames x; clear_value x)
    | (intro) | assumption | (apply kept_setSub) | (apply kept_sbEmit) | (refine Kept.ite ?_ ?_) | (refine Kept.foldl _ ?_ ?_) | (split) | (refine Kept.upd ?_ rfl)

theorem kept_sbLock {s0 s : State} (h : Kept s0 s) (w k rxok : Nat) : Kept s0 (State.sbLock s w k rxok) := by
  unfold State.sbLock
  repeat' with_reducible first
    | (extract_lets -underBinder +onlyGivenNames x; refine Kept.via (s := s0) x ?_ ?_; (on_goal 2 => (intro _; clear_value x)); (on_goal 1 => (subst x)))
    | (extract_lets -underBinder +onlyGivenNames x; refine Kept.viaP (s := s0) x ?_ ?_; (on_goal 2 => (intro _; clear_value x)); (on_goal 1 => (subst x)))
    | (extract_lets -underBinder +onlyGivenNames x; clear_value x)
    | (intro) | assumption | (apply kept_wr) | (apply kept_setSub) | (apply kept_setMap) | (apply kept_sbZero) | (refine Kept.ite ?_ ?_) | (split) | (refine Kept.upd ?_ rfl) | (dsimp -zeta only)

theorem kept_sbAcked {s0 s : State} (h : Kept s0 s) (w k a : Nat) : Kept s0 (State.sbAcked s w k a) := by
  unfold State.sbAcked
  repeat' with_reducible first
    | (extract_lets -underBinder +onlyGivenNames x; refine Kept.via (s := s0) x ?_ ?_; (on_goal 2 => (intro _; clear_value x)); (on_goal 1 => (subst x)))
    | (extract_lets -underBinder +onlyGivenNames x; clear_value x)
    | (intro) | assumption | (apply kept_wr) | (apply kept_setCe) | (apply kept_setSub) | (refine Kept.ite ?_ ?_) | (refine Kept.foldl _ ?_ ?_) | (split) | (refine Kept.upd ?_ rfl)

theorem kept_sbLoss {s0 s : State} (h : Kept s0 s) (w k : Nat) : Kept s0 (State.sbLoss s w k) := by
  unfold State.sbLoss
  repeat' with_reducible first
    | (extract_lets -underBinder +onlyGivenNames x; refine Kept.via (s := s0) x ?_ ?_; (on_goal 2 => (intro _; clear_value x)); (on_goal 1 => (subst x)))
    | (extract_lets -underBinder +onlyGivenNames x; clear_value x)
    | (intro) | assumption | (apply kept_inc) | (apply kept_setSub) | (apply kept_sbSend) | (refine Kept.ite ?_ ?_) | (refine Kept.foldl _ ?_ ?_) | (split) | (refine Kept.upd ?_ rfl)

theorem kept_sbHear {s0 s : State} (h : Kept s0 s) (w k f : Nat) (c : Cell) : Kept s0 (State.sbHear s w k f c).1 := by
  unfold State.sbHear
  repeat' with_reducible first
    | (extract_lets -underBinder +onlyGivenNames x; refine Kept.via (s := s0) x ?_ ?_; (on_goal 2 => (intro _; clear_value x)); (on_goal 1 => (subst x)))
    | (extract_lets -underBinder +onlyGivenNames x; clear_value x)
    | assumption | (apply kept_inc) | (apply kept_setSub) | (apply kept_sbRaise) | (apply kept_sbAcked) | (refine Kept.ite ?_ ?_) | (refine Kept.pairIte ?_ ?_) | (split) | (refine Kept.upd ?_ rfl) | (rename_i e; refine Kept.pair e ?_) | (dsimp -zeta only)

theorem kept_sbRx {s0 s : State} (h : Kept s0 s) (w k f : Nat) (c : Cell) (ts : List Nat) (g : State → State) (h_g : ∀ (x0 : State), Kept s0 x0 → Kept s0 (g x0)) : Kept s0 (State.sbRx s w k f c ts g) := by
  unfold State.sbRx
  repeat' with_reducible first
    | (extract_lets -underBinder +onlyGivenNames x; refine Kept.via (s := s0) x ?_ ?_; (on_goal 2 => (intro _; clear_value x)); (on_goal 1 => (subst x)))
    | (extract_lets -underBinder +onlyGivenNames x; clear_value x)
    | assumption | (apply kept_sbLoss) | (apply kept_sbHear) | (apply h_g) | (refine Kept.ite ?_ ?_) | (split) | (rename_i e; refine Kept.pair e ?_)

theorem kept_sbForward {s0 s : State} (h : Kept s0 s) (w k : Nat) (n : Nat) : Kept s0 (State.sbForward s w k n) := by
  induction n generalizing s with
  | zero => assumption
  | succ _ ih =>
  unfold State.sbForward
  repeat' with_reducible first
    | (extract_lets -underBinder +onlyGivenNames x; refine Kept.via (s := s0) x ?_ ?_; (on_goal 2 => (intro _; clear_value x)); (on_goal 1 => (subst x)))
    | (extract_lets -underBinder +onlyGivenNames x; clear_value x)
    | (intro) | assumption | (apply kept_inc) | (apply kept_sideQueue) | (apply kept_setSub) | (apply ih) | (refine Kept.ite ?_ ?_) | (split)

theorem kept_sbAdvance {s0 s : State} (h : Kept s0 s) (w k : Nat) (n : Nat) : Kept s0 (State.sbAdvance s w k n) := by
  induction n generalizing s with
  | zero => assumption
  | succ _ ih =>
  unfold State.sbAdvance
  repeat' with_reducible first
    | (extract_lets -underBinder +onlyGivenNames x; refine Kept.via (s := s0) x ?_ ?_; (on_goal 2 => (intro _; clear_value x)); (on_goal 1 => (subst x)))
    | (extract_lets -underBinder +onlyGivenNames x; clear_value x)
    | assumption | (apply kept_wr) | (apply kept_setSub) | (apply ih) | (refine Kept.ite ?_ ?_) | (split) | (refine Kept.upd ?_ rfl)

theorem kept_sbTake {s0 s : State} (h : Kept s0 s) (w k : Nat) (c : Cell) : Kept s0 (State.sbTake s w k c) := by
  unfold State.sbTake
  repeat' with_reducible first
    | (extract_lets -underBinder +onlyGivenNames x; refine Kept.via (s := s0) x ?_ ?_; (on_goal 2 => (intro _; clear_value x)); (on_goal 1 => (subst x)))
    | (extract_lets -underBinder +onlyGivenNames x; clear_value x)
    | assumption | (apply kept_inc) | (apply kept_raise) | (apply kept_setSub) | (apply kept_sbRaise) | (apply kept_sbForward) | (apply kept_sbAdvance) | (refine Kept.ite ?_ ?_) | (split) | (refine Kept.upd ?_ rfl) | (rename_i e; refine Kept.pair e ?_)

theorem kept_lsSend {s0 s : State} (h : Kept s0 s) (w k : Nat) (l : LsOpen) : Kept s0 (State.lsSend s w k l) := by
  unfold State.lsSend
  repeat' with_reducible first
    | (extract_lets -underBinder +onlyGivenNames x; refine Kept.via (s := s0) x ?_ ?_; (on_goal 2 => (intro _; clear_value x)); (on_goal 1 => (subst x)))
    | (extract_lets -underBinder +onlyGivenNames x; clear_value x)
    | (intro) | assumption | (apply kept_sbEmit) | (refine Kept.ite ?_ ?_) | (refine Kept.foldl _ ?_ ?_) | (rename_i e; refine Kept.pair e ?_)

theorem kept_lsOpen {s0 s : State} (h : Kept s0 s) (w k : Nat) (l : LsOpen) : Kept s0 (State.lsOpen s w k l) := by
  unfold State.lsOpen
  repeat' with_reducible first
    | (extract_lets -underBinder +onlyGivenNames x; refine Kept.via (s := s0) x ?_ ?_; (on_goal 2 => (intro _; clear_value x)); (on_goal 1 => (subst x)))
    | (extract_lets -underBinder +onlyGivenNames x; clear_value x)
    | assumption | (apply kept_wb) | (apply kept_setSub) | (apply kept_lsSend) | (refine Kept.upd ?_ rfl)

theorem kept_lsClose {s0 s : State} (h : Kept s0 s) (w k : Nat) : Kept s0 (State.lsClose s w k) := by
  unfold State.lsClose
  repeat' with_reducible first
    | (extract_lets -underBinder +onlyGivenNames x; refine Kept.via (s := s0) x ?_ ?_; (on_goal 2 => (intro _; clear_value x)); (on_goal 1 => (subst x)))
    | (extract_lets -underBinder +onlyGivenNames x; clear_value x)
    | assumption | (apply kept_wb) | (apply kept_setSub) | (refine Kept.upd ?_ rfl)

theorem kept_sbAdjust {s0 s : State} (h : Kept s0 s) (w k : Nat) : Kept s0 (State.sbAdjust s w k) := by
  unfold State.sbAdjust
  repeat' with_reducible first
    | (extract_lets -underBinder +onlyGivenNames x; refine Kept.via (s := s0) x ?_ ?_; (on_goal 2 => (intro _; clear_value x)); (on_goal 1 => (subst x)))
    | (extract_lets -underBinder +onlyGivenNames x; clear_value x)
    | (intro) | assumption | (apply kept_setSub) | (apply kept_lsOpen) | (refine Kept.ite ?_ ?_) | (refine Kept.foldl _ ?_ ?_) | (split) | (refine Kept.upd ?_ rfl)

theorem kept_lsApply {s0 s : State} (h : Kept s0 s) (w k : Nat) (tx : Bool) (l : LsOpen) : Kept s0 (State.lsApply s w k tx l) := by
  unfold State.lsApply
  repeat' with_reducible first
    | (extract_lets -underBinder +onlyGivenNames x; refine Kept.via (s := s0) x ?_ ?_; (on_goal 2 => (intro _; clear_value x)); (on_goal 1 => (subst x)))
    | (extract_lets -underBinder +onlyGivenNames x; clear_value x)
    | (intro) | assumption | (apply kept_wr) | (apply kept_wb) | (apply kept_inc) | (apply kept_setSub) | (apply kept_setMap) | (refine Kept.ite ?_ ?_) | (refine Kept.foldl _ ?_ ?_) | (split) | (refine Kept.upd ?_ rfl) | (rename_i e; refine Kept.pair e ?_)

theorem kept_lsYield {s0 s : State} (h : Kept s0 s) (w k : Nat) : Kept s0 (State.lsYield s w k) := by
  unfold State.lsYield
  repeat' with_reducible first
    | assumption | (apply kept_inc) | (apply kept_sbRaise) | (apply kept_lsClose)

theorem kept_laneSet {s0 s : State} (h : Kept s0 s) (w k : Nat) (l : LsOpen) : Kept s0 (State.laneSet s w k l) := by
  unfold State.laneSet
  dsimp only
  repeat' with_reducible first
    | (extract_lets -underBinder +onlyGivenNames x; refine Kept.via (s := s0) x ?_ ?_; (on_goal 2 => (intro _; clear_value x)); (on_goal 1 => (subst x)))
    | (extract_lets -underBinder +onlyGivenNames x; refine Kept.fn x ?_; subst x)
    | (extract_lets -underBinder +onlyGivenNames x; clear_value x)
    | assumption | (apply kept_sbSend) | (apply kept_lsSend) | (apply kept_lsOpen) | (apply kept_lsClose) | (apply kept_sbAdjust) | (apply kept_lsApply) | (apply kept_lsYield) | (refine Kept.ite ?_ ?_) | (split) | (refine Kept.upd ?_ rfl)

theorem kept_sbLane {s0 s : State} (h : Kept s0 s) (w f k dir : Nat) : Kept s0 (State.sbLane s w f k dir) := by
  unfold State.sbLane
  repeat' with_reducible first
    | (extract_lets -underBinder +onlyGivenNames x; refine Kept.via (s := s0) x ?_ ?_; (on_goal 2 => (intro _; clear_value x)); (on_goal 1 => (subst x)))
    | (extract_lets -underBinder +onlyGivenNames x; clear_value x)
    | assumption | (apply kept_setSub) | (apply kept_sbWake) | (apply kept_sbAdjust) | (refine Kept.ite ?_ ?_) | (split) | (refine Kept.upd ?_ rfl)

theorem kept_sbGood {s0 s : State} (h : Kept s0 s) (w k n : Nat) (c : Cell) : Kept s0 (State.sbGood s w k n c) := by
  unfold State.sbGood
  repeat' with_reducible first
    | (extract_lets -underBinder +onlyGivenNames x; refine Kept.via (s := s0) x ?_ ?_; (on_goal 2 => (intro _; clear_value x)); (on_goal 1 => (subst x)))
    | (extract_lets -underBinder +onlyGivenNames x; clear_value x)
    | assumption | (apply kept_wr) | (apply kept_setSub) | (apply kept_sbAdjust) | (refine Kept.ite ?_ ?_) | (split) | (refine Kept.upd ?_ rfl)

theorem kept_trainIn {s0 s : State} (h : Kept s0 s) (w k : Nat) (c : Cell) : Kept s0 (State.trainIn s w k c) := by
  unfold State.trainIn
  repeat' with_reducible first
    | (extract_lets -underBinder +onlyGivenNames x; refine Kept.via (s := s0) x ?_ ?_; (on_goal 2 => (intro _; clear_value x)); (on_goal 1 => (subst x)))
    | (extract_lets -underBinder +onlyGivenNames x; clear_value x)
    | assumption | (apply kept_wr) | (apply kept_setSub) | (apply kept_sbRaise) | (apply kept_sbDiscard) | (apply kept_sbZero) | (apply kept_sbEnter) | (apply kept_sbTrain) | (apply kept_sbLock) | (refine Kept.ite ?_ ?_) | (split) | (refine Kept.upd ?_ rfl)

theorem kept_sbDrain {s0 s : State} (h : Kept s0 s) (w k : Nat) : Kept s0 (State.sbDrain s w k) := by
  unfold State.sbDrain
  repeat' with_reducible first
    | (extract_lets -underBinder +onlyGivenNames x; refine Kept.via (s := s0) x ?_ ?_; (on_goal 2 => (intro _; clear_value x)); (on_goal 1 => (subst x)))
    | (extract_lets -underBinder +onlyGivenNames x; clear_value x)
    | assumption | (apply kept_wr) | (apply kept_setSub) | (refine Kept.ite ?_ ?_) | (split) | (refine Kept.upd ?_ rfl)

theorem kept_sbEnable {s0 s : State} (h : Kept s0 s) (w : Nat) (on : Bool) : Kept s0 (State.sbEnable s w on) := by
  unfold State.sbEnable
  repeat' with_reducible first
    | (extract_lets -underBinder +onlyGivenNames x; refine Kept.via (s := s0) x ?_ ?_; (on_goal 2 => (intro _; clear_value x)); (on_goal 1 => (subst x)))
    | (extract_lets -underBinder +onlyGivenNames x; clear_value x)
    | (intro) | assumption | (apply kept_wb) | (apply kept_sbDarken) | (apply kept_sbWake) | (refine Kept.ite ?_ ?_) | (refine Kept.foldl _ ?_ ?_)

theorem kept_sbDrop {s0 s : State} (h : Kept s0 s) (w k : Nat) : Kept s0 (State.sbDrop s w k) := by
  unfold State.sbDrop
  repeat' with_reducible first
    | (extract_lets -underBinder +onlyGivenNames x; refine Kept.via (s := s0) x ?_ ?_; (on_goal 2 => (intro _; clear_value x)); (on_goal 1 => (subst x)))
    | (extract_lets -underBinder +onlyGivenNames x; clear_value x)
    | assumption | (apply kept_setSub) | (apply kept_sbAdjust) | (refine Kept.upd ?_ rfl)

theorem kept_sbAllow {s0 s : State} (h : Kept s0 s) (w k : Nat) : Kept s0 (State.sbAllow s w k) := by
  unfold State.sbAllow
  repeat' with_reducible first
    | (extract_lets -underBinder +onlyGivenNames x; refine Kept.via (s := s0) x ?_ ?_; (on_goal 2 => (intro _; clear_value x)); (on_goal 1 => (subst x)))
    | (extract_lets -underBinder +onlyGivenNames x; clear_value x)
    | assumption | (apply kept_setSub) | (refine Kept.ite ?_ ?_) | (split) | (refine Kept.upd ?_ rfl)

theorem kept_sbCntClr {s0 s : State} (h : Kept s0 s) (w k : Nat) : Kept s0 (State.sbCntClr s w k) := by
  unfold State.sbCntClr
  repeat' with_reducible first
    | (extract_lets -underBinder +onlyGivenNames x; refine Kept.via (s := s0) x ?_ ?_; (on_goal 2 => (intro _; clear_value x)); (on_goal 1 => (subst x)))
    | (extract_lets -underBinder +onlyGivenNames x; clear_value x)
    | assumption | (apply kept_zero) | (refine Kept.ite ?_ ?_)

theorem kept_sbHand {s0 s : State} (h : Kept s0 s) (w : Nat) (c : Cell) (ce : Bool) : Kept s0 (State.sbHand s w c ce) := by
  unfold State.sbHand
  repeat' with_reducible first
    | (extract_lets -underBinder +onlyGivenNames x; refine Kept.via (s := s0) x ?_ ?_; (on_goal 2 => (intro _; clear_value x)); (on_goal 1 => (subst x)))
    | (extract_lets -underBinder +onlyGivenNames x; clear_value x)
    | assumption | (apply kept_inc) | (apply kept_raise) | (apply kept_sideQueue) | (apply kept_setSub) | (refine Kept.ite ?_ ?_) | (split) | (refine Kept.upd ?_ rfl)

theorem kept_sbMemory {s0 s : State} (h : Kept s0 s) (w q : Nat) (ls : List FLine) : Kept s0 (State.sbMemory s w q ls) := by
  unfold State.sbMemory
  repeat' with_reducible first
    | (extract_lets -underBinder +onlyGivenNames x; refine Kept.via (s := s0) x ?_ ?_; (on_goal 2 => (intro _; clear_value x)); (on_goal 1 => (subst x)))
    | (extract_lets -underBinder +onlyGivenNames x; refine Kept.viaP (s := s0) x ?_ ?_; (on_goal 2 => (intro _; clear_value x)); (on_goal 1 => (subst x)))
    | (extract_lets -underBinder +onlyGivenNames x; clear_value x)
    | (intro) | assumption | (apply kept_sbHand) | (refine Kept.foldl _ ?_ ?_) | (refine Kept.foldlP _ ?_ ?_) | (dsimp -zeta only)

theorem kept_sbTakeIn {s0 s : State} (h : Kept s0 s) (w : Nat) : Kept s0 (State.sbTakeIn s w) := by
  unfold State.sbTakeIn
  repeat' with_reducible first
    | (extract_lets -underBinder +onlyGivenNames x; refine Kept.via (s := s0) x ?_ ?_; (on_goal 2 => (intro _; clear_value x)); (on_goal 1 => (subst x)))
    | (extract_lets -underBinder +onlyGivenNames x; clear_value x)
    | (intro) | assumption | (apply kept_setWle) | (apply kept_sideIn) | (apply kept_sbHand) | (apply kept_sbMemory) | (refine Kept.ite ?_ ?_) | (refine Kept.foldl _ ?_ ?_) | (split) | (refine Kept.upd ?_ rfl)

theorem kept_sbIdle {s0 s : State} (h : Kept s0 s) (w k : Nat) : Kept s0 (State.sbIdle s w k) := by
  unfold State.sbIdle
  repeat' with_reducible first
    | (intro) | assumption | (apply kept_sbEmit) | (refine Kept.ite ?_ ?_) | (refine Kept.foldl _ ?_ ?_)

theorem kept_sbTransmit {s0 s : State} (h : Kept s0 s) (w k : Nat) : Kept s0 (State.sbTransmit s w k) := by
  unfold State.sbTransmit
  repeat' with_reducible first
    | (extract_lets -underBinder +onlyGivenNames x; refine Kept.via (s := s0) x ?_ ?_; (on_goal 2 => (intro _; clear_value x)); (on_goal 1 => (subst x)))
    | (extract_lets -underBinder +onlyGivenNames x; refine Kept.viaP (s := s0) x ?_ ?_; (on_goal 2 => (intro _; clear_value x)); (on_goal 1 => (subst x)))
    | (extract_lets -underBinder +onlyGivenNames x; clear_value x)
    | (intro) | assumption | (apply kept_wr) | (apply kept_addWrap) | (apply kept_setSub) | (apply kept_sbEmit) | (apply kept_sbTakeIn) | (apply kept_sbIdle) | (refine Kept.ite ?_ ?_) | (split) | (refine Kept.upd ?_ rfl) | (dsimp -zeta only)

theorem kept_sbDue {s0 s : State} (h : Kept s0 s) (w k cls : Nat) (n m : Nat) : Kept s0 (State.sbDue s w k cls n m).1 := by
  induction n generalizing s m with
  | zero => assumption
  | succ _ ih =>
  unfold State.sbDue
  repeat' with_reducible first
    | (extract_lets -underBinder +onlyGivenNames x; refine Kept.via (s := s0) x ?_ ?_; (on_goal 2 => (intro _; clear_value x)); (on_goal 1 => (subst x)))
    | (extract_lets -underBinder +onlyGivenNames x; refine Kept.viaP (s := s0) x ?_ ?_; (on_goal 2 => (intro _; clear_value x)); (on_goal 1 => (subst x)))
    | (extract_lets -underBinder +onlyGivenNames x; clear_value x)
    | assumption | (apply kept_addWrap) | (apply kept_setSub) | (apply ih) | (refine Kept.ite ?_ ?_) | (refine Kept.pairIte ?_ ?_) | (split) | (rename_i e; refine Kept.pair e ?_) | (dsimp -zeta only)

theorem kept_toProg {s0 s : State} (h : Kept s0 s) (p : Nat) : Kept s0 (State.toProg s p) := by
  unfold State.toProg
  repeat' with_reducible first
    | (extract_lets -underBinder +onlyGivenNames x; refine Kept.via (s := s0) x ?_ ?_; (on_goal 2 => (intro _; clear_value x)); (on_goal 1 => (subst x)))
    | (extract_lets -underBinder +onlyGivenNames x; clear_value x)
    | assumption | (apply kept_toCc) | (refine Kept.ite ?_ ?_)

theorem kept_sbDeliver {s0 s : State} (h : Kept s0 s) (w k cls n : Nat) (hits : List EccHit) : Kept s0 (State.sbDeliver s w k cls n hits) := by
  unfold State.sbDeliver
  repeat' with_reducible first
    | (extract_lets -underBinder +onlyGivenNames x; refine Kept.via (s := s0) x ?_ ?_; (on_goal 2 => (intro _; clear_value x)); (on_goal 1 => (subst x)))
    | (extract_lets -underBinder +onlyGivenNames x; refine Kept.viaP (s := s0) x ?_ ?_; (on_goal 2 => (intro _; clear_value x)); (on_goal 1 => (subst x)))
    | (extract_lets -underBinder +onlyGivenNames x; clear_value x)
    | (intro) | assumption | (apply kept_inc) | (apply kept_raise) | (apply kept_setWle) | (apply kept_sideQueue) | (apply kept_toWire) | (apply kept_sbForward) | (apply kept_sbDue) | (apply kept_toProg) | (refine Kept.ite ?_ ?_) | (refine Kept.foldl _ ?_ ?_) | (refine Kept.foldlP _ ?_ ?_) | (split) | (refine Kept.upd ?_ rfl) | (dsimp -zeta only)

end Sys2Proof.Machine
end

