-- ==== Sys2Proof/Laws/KeptOptics.lean ====
section
/-! SUPPORT. What the helpers of Weft and Reed dies keep. -/

namespace Sys2Proof.Machine

set_option linter.all false

theorem kept_setSensor {s0 s : State} (h : Kept s0 s) (g : Nat) (x : Sensor) : Kept s0 (State.setSensor s g x) := by
  unfold State.setSensor
  repeat' with_reducible first
    | (extract_lets -underBinder +onlyGivenNames x; refine Kept.via (s := s0) x ?_ ?_; (on_goal 2 => (intro _; clear_value x)); (on_goal 1 => (subst x)))
    | (extract_lets -underBinder +onlyGivenNames x; clear_value x)
    | assumption | (refine Kept.sens ?_ (fun w => swf_put _ _ w)) | (refine Kept.upd ?_ rfl)

theorem kept_setDieTh {s0 s : State} (h : Kept s0 s) (d : Nat) (x : DieTh) : Kept s0 (State.setDieTh s d x) := by
  unfold State.setDieTh
  repeat' with_reducible first
    | (extract_lets -underBinder +onlyGivenNames x; refine Kept.via (s := s0) x ?_ ?_; (on_goal 2 => (intro _; clear_value x)); (on_goal 1 => (subst x)))
    | (extract_lets -underBinder +onlyGivenNames x; clear_value x)
    | assumption | (refine Kept.dth ?_ (fun w => swf_put _ _ w)) | (refine Kept.upd ?_ rfl)

theorem kept_setFlash {s0 s : State} (h : Kept s0 s) (h : Nat) (x : Flash) : Kept s0 (State.setFlash s h x) := by
  unfold State.setFlash
  repeat' with_reducible first
    | (extract_lets -underBinder +onlyGivenNames x; refine Kept.via (s := s0) x ?_ ?_; (on_goal 2 => (intro _; clear_value x)); (on_goal 1 => (subst x)))
    | (extract_lets -underBinder +onlyGivenNames x; clear_value x)
    | assumption | (refine Kept.flash ?_ (fun w => swf_put _ _ w)) | (refine Kept.upd ?_ rfl)

theorem kept_setHoop {s0 s : State} (h : Kept s0 s) (h : Nat) (x : HoopSt) : Kept s0 (State.setHoop s h x) := by
  unfold State.setHoop
  repeat' with_reducible first
    | (extract_lets -underBinder +onlyGivenNames x; refine Kept.via (s := s0) x ?_ ?_; (on_goal 2 => (intro _; clear_value x)); (on_goal 1 => (subst x)))
    | (extract_lets -underBinder +onlyGivenNames x; clear_value x)
    | assumption | (refine Kept.hoops ?_ (fun w => swf_put _ _ w)) | (refine Kept.upd ?_ rfl)

theorem kept_nvRefuse {s0 s : State} (h : Kept s0 s) (h : Nat) : Kept s0 (State.nvRefuse s h) := by
  unfold State.nvRefuse
  repeat' with_reducible first
    | assumption | (apply kept_inc) | (apply kept_raise)

theorem kept_setWf {s0 s : State} (h : Kept s0 s) (w : Nat) (x : WfSt) : Kept s0 (State.setWf s w x) := by
  unfold State.setWf
  repeat' with_reducible first
    | (extract_lets -underBinder +onlyGivenNames x; refine Kept.via (s := s0) x ?_ ?_; (on_goal 2 => (intro _; clear_value x)); (on_goal 1 => (subst x)))
    | (extract_lets -underBinder +onlyGivenNames x; clear_value x)
    | assumption | (refine Kept.wfs ?_ (fun w => swf_put _ _ w)) | (refine Kept.upd ?_ rfl)

theorem kept_setReed {s0 s : State} (h : Kept s0 s) (r : Nat) (x : RdSt) : Kept s0 (State.setReed s r x) := by
  unfold State.setReed
  repeat' with_reducible first
    | (extract_lets -underBinder +onlyGivenNames x; refine Kept.via (s := s0) x ?_ ?_; (on_goal 2 => (intro _; clear_value x)); (on_goal 1 => (subst x)))
    | (extract_lets -underBinder +onlyGivenNames x; clear_value x)
    | assumption | (refine Kept.rds ?_ (fun w => swf_put _ _ w)) | (refine Kept.upd ?_ rfl)

theorem kept_setFibre {s0 s : State} (h : Kept s0 s) (w f : Nat) (x : FibSt) : Kept s0 (State.setFibre s w f x) := by
  unfold State.setFibre
  repeat' with_reducible first
    | (extract_lets -underBinder +onlyGivenNames x; refine Kept.via (s := s0) x ?_ ?_; (on_goal 2 => (intro _; clear_value x)); (on_goal 1 => (subst x)))
    | (extract_lets -underBinder +onlyGivenNames x; clear_value x)
    | assumption | (refine Kept.fibs ?_ (fun w => swf_put _ _ w)) | (refine Kept.upd ?_ rfl)

theorem kept_setLaserSt {s0 s : State} (h : Kept s0 s) (r k : Nat) (x : LaserSt) : Kept s0 (State.setLaserSt s r k x) := by
  unfold State.setLaserSt
  repeat' with_reducible first
    | (extract_lets -underBinder +onlyGivenNames x; refine Kept.via (s := s0) x ?_ ?_; (on_goal 2 => (intro _; clear_value x)); (on_goal 1 => (subst x)))
    | (extract_lets -underBinder +onlyGivenNames x; clear_value x)
    | assumption | (refine Kept.lasers ?_ (fun w => swf_put _ _ w)) | (refine Kept.upd ?_ rfl)

theorem kept_fibRaise {s0 s : State} (h : Kept s0 s) (w f k dir src : Nat) : Kept s0 (State.fibRaise s w f k dir src) := by
  unfold State.fibRaise
  repeat' with_reducible first
    | (extract_lets -underBinder +onlyGivenNames x; refine Kept.via (s := s0) x ?_ ?_; (on_goal 2 => (intro _; clear_value x)); (on_goal 1 => (subst x)))
    | (extract_lets -underBinder +onlyGivenNames x; clear_value x)
    | assumption | (apply kept_raiseX)

theorem kept_loopEval {s0 s : State} (h : Kept s0 s) (w f : Nat) : Kept s0 (State.loopEval s w f) := by
  unfold State.loopEval
  repeat' with_reducible first
    | (extract_lets -underBinder +onlyGivenNames x; refine Kept.via (s := s0) x ?_ ?_; (on_goal 2 => (intro _; clear_value x)); (on_goal 1 => (subst x)))
    | (extract_lets -underBinder +onlyGivenNames x; clear_value x)
    | assumption | (apply kept_wb) | (apply kept_setFibre) | (apply kept_fibRaise) | (refine Kept.ite ?_ ?_) | (split) | (refine Kept.upd ?_ rfl)

theorem kept_losFlush {s0 s : State} (h : Kept s0 s) (w f : Nat) : Kept s0 (State.losFlush s w f) := by
  unfold State.losFlush
  repeat' with_reducible first
    | (extract_lets -underBinder +onlyGivenNames x; refine Kept.via (s := s0) x ?_ ?_; (on_goal 2 => (intro _; clear_value x)); (on_goal 1 => (subst x)))
    | (extract_lets -underBinder +onlyGivenNames x; refine Kept.fn x ?_; subst x)
    | (extract_lets -underBinder +onlyGivenNames x; clear_value x)
    | (intro) | assumption | (apply kept_setLane) | (apply kept_fibRaise) | (refine Kept.ite ?_ ?_) | (refine Kept.foldl _ ?_ ?_) | (split) | (refine Kept.upd ?_ rfl)

theorem kept_loopTx {s0 s : State} (h : Kept s0 s) (w f : Nat) : Kept s0 (State.loopTx s w f) := by
  unfold State.loopTx
  repeat' with_reducible first
    | (extract_lets -underBinder +onlyGivenNames x; refine Kept.via (s := s0) x ?_ ?_; (on_goal 2 => (intro _; clear_value x)); (on_goal 1 => (subst x)))
    | (extract_lets -underBinder +onlyGivenNames x; clear_value x)
    | assumption | (apply kept_setFibre) | (split) | (refine Kept.upd ?_ rfl)

theorem kept_laneTo {s0 s : State} (h : Kept s0 s) (w f k dir : Nat) (x : Lane) : Kept s0 (State.laneTo s w f k dir x) := by
  unfold State.laneTo
  repeat' with_reducible first
    | (extract_lets -underBinder +onlyGivenNames x; refine Kept.via (s := s0) x ?_ ?_; (on_goal 2 => (intro _; clear_value x)); (on_goal 1 => (subst x)))
    | (extract_lets -underBinder +onlyGivenNames x; clear_value x)
    | assumption | (apply kept_putBit) | (apply kept_setLane) | (apply kept_sbLane) | (apply kept_loopEval) | (apply kept_loopTx) | (refine Kept.ite ?_ ?_)

theorem kept_park {s0 s : State} (h : Kept s0 s) (w f k dir : Nat) : Kept s0 (State.park s w f k dir) := by
  unfold State.park
  repeat' with_reducible first
    | (extract_lets -underBinder +onlyGivenNames x; refine Kept.via (s := s0) x ?_ ?_; (on_goal 2 => (intro _; clear_value x)); (on_goal 1 => (subst x)))
    | (extract_lets -underBinder +onlyGivenNames x; clear_value x)
    | assumption | (apply kept_laneTo) | (refine Kept.upd ?_ rfl)

theorem kept_acquire {s0 s : State} (h : Kept s0 s) (w f k dir : Nat) : Kept s0 (State.acquire s w f k dir) := by
  unfold State.acquire
  repeat' with_reducible first
    | (extract_lets -underBinder +onlyGivenNames x; refine Kept.via (s := s0) x ?_ ?_; (on_goal 2 => (intro _; clear_value x)); (on_goal 1 => (subst x)))
    | (extract_lets -underBinder +onlyGivenNames x; clear_value x)
    | assumption | (apply kept_laneTo) | (refine Kept.upd ?_ rfl)

theorem kept_slip {s0 s : State} (h : Kept s0 s) (w f k : Nat) (x : Lane) : Kept s0 (State.slip s w f k x) := by
  unfold State.slip
  repeat' with_reducible first
    | (extract_lets -underBinder +onlyGivenNames x; refine Kept.via (s := s0) x ?_ ?_; (on_goal 2 => (intro _; clear_value x)); (on_goal 1 => (subst x)))
    | (extract_lets -underBinder +onlyGivenNames x; clear_value x)
    | assumption | (apply kept_laneTo) | (refine Kept.upd ?_ rfl)

theorem kept_lockLane {s0 s : State} (h : Kept s0 s) (w f k dir : Nat) (x : Lane) : Kept s0 (State.lockLane s w f k dir x) := by
  unfold State.lockLane
  repeat' with_reducible first
    | (extract_lets -underBinder +onlyGivenNames x; refine Kept.via (s := s0) x ?_ ?_; (on_goal 2 => (intro _; clear_value x)); (on_goal 1 => (subst x)))
    | (extract_lets -underBinder +onlyGivenNames x; clear_value x)
    | assumption | (apply kept_laneTo) | (refine Kept.upd ?_ rfl)

theorem kept_inputDark {s0 s : State} (h : Kept s0 s) (w f k dir : Nat) : Kept s0 (State.inputDark s w f k dir) := by
  unfold State.inputDark
  repeat' with_reducible first
    | (extract_lets -underBinder +onlyGivenNames x; refine Kept.via (s := s0) x ?_ ?_; (on_goal 2 => (intro _; clear_value x)); (on_goal 1 => (subst x)))
    | (extract_lets -underBinder +onlyGivenNames x; clear_value x)
    | assumption | (apply kept_setLane) | (apply kept_losFlush) | (apply kept_laneTo) | (refine Kept.ite ?_ ?_) | (split) | (refine Kept.upd ?_ rfl)

theorem kept_fibSlip {s0 s : State} (h : Kept s0 s) (w f mask : Nat) : Kept s0 (State.fibSlip s w f mask) := by
  unfold State.fibSlip
  repeat' with_reducible first
    | (extract_lets -underBinder +onlyGivenNames x; refine Kept.via (s := s0) x ?_ ?_; (on_goal 2 => (intro _; clear_value x)); (on_goal 1 => (subst x)))
    | (extract_lets -underBinder +onlyGivenNames x; clear_value x)
    | (intro) | assumption | (apply kept_setLane) | (apply kept_fibRaise) | (apply kept_laneTo) | (apply kept_acquire) | (apply kept_slip) | (refine Kept.ite ?_ ?_) | (refine Kept.foldl _ ?_ ?_) | (split) | (refine Kept.upd ?_ rfl)

theorem kept_reacq {s0 s : State} (h : Kept s0 s) (w f mask dir : Nat) : Kept s0 (State.reacq s w f mask dir) := by
  unfold State.reacq
  repeat' with_reducible first
    | (extract_lets -underBinder +onlyGivenNames x; refine Kept.via (s := s0) x ?_ ?_; (on_goal 2 => (intro _; clear_value x)); (on_goal 1 => (subst x)))
    | (extract_lets -underBinder +onlyGivenNames x; clear_value x)
    | (intro) | assumption | (apply kept_inc) | (apply kept_acquire) | (refine Kept.ite ?_ ?_) | (refine Kept.foldl _ ?_ ?_)

theorem kept_windowEnd {s0 s : State} (h : Kept s0 s) (w f k dir : Nat) (v : Window) : Kept s0 (State.windowEnd s w f k dir v) := by
  unfold State.windowEnd
  repeat' with_reducible first
    | (extract_lets -underBinder +onlyGivenNames x; refine Kept.via (s := s0) x ?_ ?_; (on_goal 2 => (intro _; clear_value x)); (on_goal 1 => (subst x)))
    | (extract_lets -underBinder +onlyGivenNames x; refine Kept.viaP (s := s0) x ?_ ?_; (on_goal 2 => (intro _; clear_value x)); (on_goal 1 => (subst x)))
    | (extract_lets -underBinder +onlyGivenNames x; clear_value x)
    | (intro) | assumption | (apply kept_addSat) | (apply kept_setLane) | (apply kept_setFibre) | (apply kept_fibRaise) | (apply kept_loopEval) | (refine Kept.ite ?_ ?_) | (split) | (refine Kept.upd ?_ rfl) | (dsimp -zeta only)

theorem kept_planeSet {s0 s : State} (h : Kept s0 s) (w f : Nat) (on : Bool) : Kept s0 (State.planeSet s w f on) := by
  unfold State.planeSet
  repeat' with_reducible first
    | (extract_lets -underBinder +onlyGivenNames x; refine Kept.via (s := s0) x ?_ ?_; (on_goal 2 => (intro _; clear_value x)); (on_goal 1 => (subst x)))
    | (extract_lets -underBinder +onlyGivenNames x; clear_value x)
    | (intro) | assumption | (apply kept_wb) | (apply kept_setFibre) | (apply kept_park) | (apply kept_acquire) | (refine Kept.ite ?_ ?_) | (refine Kept.foldl _ ?_ ?_) | (split) | (refine Kept.upd ?_ rfl)

theorem kept_planeWrite {s0 s : State} (h : Kept s0 s) (w v : Nat) : Kept s0 (State.planeWrite s w v) := by
  unfold State.planeWrite
  repeat' with_reducible first
    | (extract_lets -underBinder +onlyGivenNames x; refine Kept.via (s := s0) x ?_ ?_; (on_goal 2 => (intro _; clear_value x)); (on_goal 1 => (subst x)))
    | (extract_lets -underBinder +onlyGivenNames x; clear_value x)
    | (intro) | assumption | (apply kept_wr) | (apply kept_planeSet) | (refine Kept.ite ?_ ?_) | (refine Kept.foldl _ ?_ ?_)

theorem kept_fibCntClr {s0 s : State} (h : Kept s0 s) (w f : Nat) : Kept s0 (State.fibCntClr s w f) := by
  unfold State.fibCntClr
  repeat' with_reducible first
    | (extract_lets -underBinder +onlyGivenNames x; refine Kept.via (s := s0) x ?_ ?_; (on_goal 2 => (intro _; clear_value x)); (on_goal 1 => (subst x)))
    | (extract_lets -underBinder +onlyGivenNames x; clear_value x)
    | (intro) | assumption | (apply kept_zero) | (apply kept_setLane) | (refine Kept.foldl _ ?_ ?_) | (refine Kept.upd ?_ rfl)

theorem kept_calRecompute {s0 s : State} (h : Kept s0 s) (d : Nat) : Kept s0 (State.calRecompute s d) := by
  unfold State.calRecompute
  repeat' with_reducible first
    | (extract_lets -underBinder +onlyGivenNames x; refine Kept.via (s := s0) x ?_ ?_; (on_goal 2 => (intro _; clear_value x)); (on_goal 1 => (subst x)))
    | (extract_lets -underBinder +onlyGivenNames x; refine Kept.viaP (s := s0) x ?_ ?_; (on_goal 2 => (intro _; clear_value x)); (on_goal 1 => (subst x)))
    | (extract_lets -underBinder +onlyGivenNames x; clear_value x)
    | (intro) | assumption | (apply kept_wr) | (apply kept_raise) | (apply kept_setWf) | (apply kept_setReed) | (apply kept_setLaserSt) | (refine Kept.calSh ?_ (fun w => swf_foldl _ (fun _ _ h => swf_put _ _ h) w)) | (refine Kept.ite ?_ ?_) | (refine Kept.foldl _ ?_ ?_) | (refine Kept.foldlP _ ?_ ?_) | (split) | (refine Kept.upd ?_ rfl) | (dsimp -zeta only)

theorem kept_calDue {s0 s : State} (h : Kept s0 s) (d : Nat) : Kept s0 (State.calDue s d) := by
  unfold State.calDue
  repeat' with_reducible first
    | (extract_lets -underBinder +onlyGivenNames x; refine Kept.via (s := s0) x ?_ ?_; (on_goal 2 => (intro _; clear_value x)); (on_goal 1 => (subst x)))
    | (extract_lets -underBinder +onlyGivenNames x; refine Kept.viaP (s := s0) x ?_ ?_; (on_goal 2 => (intro _; clear_value x)); (on_goal 1 => (subst x)))
    | (extract_lets -underBinder +onlyGivenNames x; clear_value x)
    | assumption | (apply kept_toTick) | (apply kept_calRecompute) | (refine Kept.ite ?_ ?_) | (split) | (dsimp -zeta only)

theorem kept_calCommit {s0 s : State} (h : Kept s0 s) (w : Nat) (ue ce : Bool) : Kept s0 (State.calCommit s w ue ce) := by
  unfold State.calCommit
  repeat' with_reducible first
    | (extract_lets -underBinder +onlyGivenNames x; refine Kept.via (s := s0) x ?_ ?_; (on_goal 2 => (intro _; clear_value x)); (on_goal 1 => (subst x)))
    | (extract_lets -underBinder +onlyGivenNames x; clear_value x)
    | (intro) | assumption | (apply kept_wr) | (apply kept_wb) | (apply kept_raise) | (apply kept_setWf) | (refine Kept.ite ?_ ?_) | (refine Kept.foldl _ ?_ ?_) | (split) | (refine Kept.upd ?_ rfl)

theorem kept_rdCommit {s0 s : State} (h : Kept s0 s) (r : Nat) : Kept s0 (State.rdCommit s r) := by
  unfold State.rdCommit
  repeat' with_reducible first
    | (extract_lets -underBinder +onlyGivenNames x; refine Kept.via (s := s0) x ?_ ?_; (on_goal 2 => (intro _; clear_value x)); (on_goal 1 => (subst x)))
    | (extract_lets -underBinder +onlyGivenNames x; clear_value x)
    | (intro) | assumption | (apply kept_wb) | (apply kept_raise) | (apply kept_setReed) | (refine Kept.ite ?_ ?_) | (split) | (refine Kept.upd ?_ rfl)

theorem kept_toFrame {s0 s : State} (h : Kept s0 s)  : Kept s0 (State.toFrame s) := by
  unfold State.toFrame
  repeat' with_reducible first
    | assumption | (apply kept_passSlots)

theorem kept_laserTell {s0 s : State} (h : Kept s0 s) (r k : Nat) (on : Bool) : Kept s0 (State.laserTell s r k on) := by
  unfold State.laserTell
  repeat' with_reducible first
    | (extract_lets -underBinder +onlyGivenNames x; refine Kept.via (s := s0) x ?_ ?_; (on_goal 2 => (intro _; clear_value x)); (on_goal 1 => (subst x)))
    | (extract_lets -underBinder +onlyGivenNames x; clear_value x)
    | (intro) | assumption | (apply kept_putBit) | (refine Kept.upd ?_ rfl)

theorem kept_laserOff {s0 s : State} (h : Kept s0 s) (r k st : Nat) : Kept s0 (State.laserOff s r k st) := by
  unfold State.laserOff
  repeat' with_reducible first
    | (extract_lets -underBinder +onlyGivenNames x; refine Kept.via (s := s0) x ?_ ?_; (on_goal 2 => (intro _; clear_value x)); (on_goal 1 => (subst x)))
    | (extract_lets -underBinder +onlyGivenNames x; clear_value x)
    | assumption | (apply kept_wr) | (apply kept_laserTell) | (refine Kept.ite ?_ ?_)

theorem kept_laserWarm {s0 s : State} (h : Kept s0 s) (r k st : Nat) : Kept s0 (State.laserWarm s r k st) := by
  unfold State.laserWarm
  repeat' with_reducible first
    | (extract_lets -underBinder +onlyGivenNames x; refine Kept.via (s := s0) x ?_ ?_; (on_goal 2 => (intro _; clear_value x)); (on_goal 1 => (subst x)))
    | (extract_lets -underBinder +onlyGivenNames x; clear_value x)
    | (intro) | assumption | (apply kept_wr) | (apply kept_raise) | (apply kept_setLaserSt) | (refine Kept.ite ?_ ?_) | (split) | (refine Kept.upd ?_ rfl)

theorem kept_laserWant {s0 s : State} (h : Kept s0 s) (r k : Nat) : Kept s0 (State.laserWant s r k) := by
  unfold State.laserWant
  repeat' with_reducible first
    | (extract_lets -underBinder +onlyGivenNames x; refine Kept.via (s := s0) x ?_ ?_; (on_goal 2 => (intro _; clear_value x)); (on_goal 1 => (subst x)))
    | (extract_lets -underBinder +onlyGivenNames x; clear_value x)
    | assumption | (apply kept_laserWarm) | (refine Kept.ite ?_ ?_)

theorem kept_spareRecord {s0 s : State} (h : Kept s0 s) (r k : Nat) : Kept s0 (State.spareRecord s r k) := by
  unfold State.spareRecord
  repeat' with_reducible first
    | (extract_lets -underBinder +onlyGivenNames x; refine Kept.via (s := s0) x ?_ ?_; (on_goal 2 => (intro _; clear_value x)); (on_goal 1 => (subst x)))
    | (extract_lets -underBinder +onlyGivenNames x; clear_value x)
    | assumption | (apply kept_setFlash) | (apply kept_nvRefuse) | (refine Kept.ite ?_ ?_) | (split) | (refine Kept.upd ?_ rfl)

theorem kept_spareStart {s0 s : State} (h : Kept s0 s) (r k since : Nat) : Kept s0 (State.spareStart s r k since) := by
  unfold State.spareStart
  repeat' with_reducible first
    | (extract_lets -underBinder +onlyGivenNames x; refine Kept.via (s := s0) x ?_ ?_; (on_goal 2 => (intro _; clear_value x)); (on_goal 1 => (subst x)))
    | (extract_lets -underBinder +onlyGivenNames x; clear_value x)
    | assumption | (apply kept_wb) | (apply kept_setLaserSt) | (apply kept_laserOff) | (apply kept_laserWarm) | (refine Kept.upd ?_ rfl)

theorem kept_laserFail {s0 s : State} (h : Kept s0 s) (r k since : Nat) : Kept s0 (State.laserFail s r k since) := by
  unfold State.laserFail
  repeat' with_reducible first
    | (extract_lets -underBinder +onlyGivenNames x; refine Kept.via (s := s0) x ?_ ?_; (on_goal 2 => (intro _; clear_value x)); (on_goal 1 => (subst x)))
    | (extract_lets -underBinder +onlyGivenNames x; clear_value x)
    | assumption | (apply kept_wb) | (apply kept_raise) | (apply kept_laserOff) | (apply kept_spareStart) | (refine Kept.ite ?_ ?_)

theorem kept_laserOnWrite {s0 s : State} (h : Kept s0 s) (r k : Nat) (on : Bool) : Kept s0 (State.laserOnWrite s r k on) := by
  unfold State.laserOnWrite
  repeat' with_reducible first
    | (extract_lets -underBinder +onlyGivenNames x; refine Kept.via (s := s0) x ?_ ?_; (on_goal 2 => (intro _; clear_value x)); (on_goal 1 => (subst x)))
    | (extract_lets -underBinder +onlyGivenNames x; clear_value x)
    | assumption | (apply kept_wb) | (apply kept_raise) | (apply kept_laserOff) | (apply kept_laserWant) | (refine Kept.ite ?_ ?_)

theorem kept_allOffWrite {s0 s : State} (h : Kept s0 s) (r : Nat) (off : Bool) : Kept s0 (State.allOffWrite s r off) := by
  unfold State.allOffWrite
  repeat' with_reducible first
    | (extract_lets -underBinder +onlyGivenNames x; refine Kept.via (s := s0) x ?_ ?_; (on_goal 2 => (intro _; clear_value x)); (on_goal 1 => (subst x)))
    | (extract_lets -underBinder +onlyGivenNames x; clear_value x)
    | (intro) | assumption | (apply kept_wb) | (apply kept_raise) | (apply kept_laserOff) | (apply kept_laserWant) | (refine Kept.ite ?_ ?_) | (refine Kept.foldl _ ?_ ?_)

theorem kept_spareWrite {s0 s : State} (h : Kept s0 s) (r k : Nat) : Kept s0 (State.spareWrite s r k) := by
  unfold State.spareWrite
  repeat' with_reducible first
    | (extract_lets -underBinder +onlyGivenNames x; refine Kept.via (s := s0) x ?_ ?_; (on_goal 2 => (intro _; clear_value x)); (on_goal 1 => (subst x)))
    | (extract_lets -underBinder +onlyGivenNames x; clear_value x)
    | assumption | (apply kept_wb) | (apply kept_raise) | (apply kept_spareStart) | (refine Kept.ite ?_ ?_)

theorem kept_recal {s0 s : State} (h : Kept s0 s) (r : Nat) : Kept s0 (State.recal s r) := by
  unfold State.recal
  repeat' with_reducible first
    | (extract_lets -underBinder +onlyGivenNames x; refine Kept.via (s := s0) x ?_ ?_; (on_goal 2 => (intro _; clear_value x)); (on_goal 1 => (subst x)))
    | (extract_lets -underBinder +onlyGivenNames x; refine Kept.viaP (s := s0) x ?_ ?_; (on_goal 2 => (intro _; clear_value x)); (on_goal 1 => (subst x)))
    | (extract_lets -underBinder +onlyGivenNames x; subst x)
    | (intro) | assumption | (apply kept_wr) | (apply kept_wb) | (apply kept_raise) | (apply kept_draw) | (apply kept_setReed) | (apply kept_rdCommit) | (refine Kept.ite ?_ ?_) | (refine Kept.foldl _ ?_ ?_) | (refine Kept.foldlP _ ?_ ?_) | (split) | (refine Kept.upd ?_ rfl) | (dsimp -zeta only)

theorem kept_spareBanks {s0 s : State} (h : Kept s0 s) (r : Nat) : Kept s0 (State.spareBanks s r) := by
  unfold State.spareBanks
  repeat' with_reducible first
    | (extract_lets -underBinder +onlyGivenNames x; refine Kept.via (s := s0) x ?_ ?_; (on_goal 2 => (intro _; clear_value x)); (on_goal 1 => (subst x)))
    | (extract_lets -underBinder +onlyGivenNames x; clear_value x)
    | (intro) | assumption | (apply kept_wb) | (apply kept_setBit) | (refine Kept.ite ?_ ?_) | (refine Kept.foldl _ ?_ ?_)

theorem kept_light {s0 s : State} (h : Kept s0 s) (r : Nat) (on : Bool) : Kept s0 (State.light s r on) := by
  unfold State.light
  repeat' with_reducible first
    | (extract_lets -underBinder +onlyGivenNames x; refine Kept.via (s := s0) x ?_ ?_; (on_goal 2 => (intro _; clear_value x)); (on_goal 1 => (subst x)))
    | (extract_lets -underBinder +onlyGivenNames x; clear_value x)
    | (intro) | assumption | (apply kept_wb) | (apply kept_setReed) | (apply kept_laserOff) | (apply kept_spareBanks) | (refine Kept.ite ?_ ?_) | (refine Kept.foldl _ ?_ ?_) | (split) | (refine Kept.upd ?_ rfl)

theorem kept_laserNote {s0 s : State} (h : Kept s0 s) (w k : Nat) (on : Bool) : Kept s0 (State.laserNote s w k on) := by
  unfold State.laserNote
  repeat' with_reducible first
    | (extract_lets -underBinder +onlyGivenNames x; refine Kept.via (s := s0) x ?_ ?_; (on_goal 2 => (intro _; clear_value x)); (on_goal 1 => (subst x)))
    | (extract_lets -underBinder +onlyGivenNames x; clear_value x)
    | (intro) | assumption | (apply kept_putBit) | (apply kept_setWf) | (apply kept_inputDark) | (refine Kept.ite ?_ ?_) | (refine Kept.foldl _ ?_ ?_) | (split) | (refine Kept.upd ?_ rfl)

end Sys2Proof.Machine
end

