-- ==== Sys2Proof/Laws/KeptHost.lean ====
section
/-! SUPPORT. What the helpers of Slew, die reset, thermal management and faults keep. -/

namespace Sys2Proof.Machine

set_option linter.all false

theorem kept_setSq {s0 s : State} (h : Kept s0 s) (h q : Nat) (x : Sq) : Kept s0 (State.setSq s h q x) := by
  unfold State.setSq
  repeat' with_reducible first
    | (extract_lets -underBinder +onlyGivenNames x; refine Kept.via (s := s0) x ?_ ?_; (on_goal 2 => (intro _; clear_value x)); (on_goal 1 => (subst x)))
    | (extract_lets -underBinder +onlyGivenNames x; clear_value x)
    | assumption | (refine Kept.sqs ?_ (fun w => swf_put _ _ w)) | (refine Kept.upd ?_ rfl)

theorem kept_setDma {s0 s : State} (h : Kept s0 s) (h c : Nat) (x : Dma) : Kept s0 (State.setDma s h c x) := by
  unfold State.setDma
  repeat' with_reducible first
    | (extract_lets -underBinder +onlyGivenNames x; refine Kept.via (s := s0) x ?_ ?_; (on_goal 2 => (intro _; clear_value x)); (on_goal 1 => (subst x)))
    | (extract_lets -underBinder +onlyGivenNames x; clear_value x)
    | assumption | (refine Kept.dmas ?_ (fun w => swf_put _ _ w)) | (refine Kept.upd ?_ rfl)

theorem kept_sqEval {s0 s : State} (h : Kept s0 s) (h q : Nat) : Kept s0 (State.sqEval s h q) := by
  unfold State.sqEval
  repeat' with_reducible first
    | (extract_lets -underBinder +onlyGivenNames x; refine Kept.via (s := s0) x ?_ ?_; (on_goal 2 => (intro _; clear_value x)); (on_goal 1 => (subst x)))
    | (extract_lets -underBinder +onlyGivenNames x; clear_value x)
    | assumption | (apply kept_wr) | (apply kept_wb) | (apply kept_inc) | (apply kept_raise) | (apply kept_msix) | (apply kept_setSq) | (refine Kept.ite ?_ ?_) | (split) | (refine Kept.upd ?_ rfl)

theorem kept_sqWord {s0 s : State} (h : Kept s0 s) (h q w : Nat) (last short poi : Bool) : Kept s0 (State.sqWord s h q w last short poi) := by
  unfold State.sqWord
  repeat' with_reducible first
    | (extract_lets -underBinder +onlyGivenNames x; refine Kept.via (s := s0) x ?_ ?_; (on_goal 2 => (intro _; clear_value x)); (on_goal 1 => (subst x)))
    | (extract_lets -underBinder +onlyGivenNames x; clear_value x)
    | assumption | (apply kept_wb) | (apply kept_addSat) | (apply kept_inc) | (apply kept_raise) | (apply kept_setSq) | (apply kept_accepted) | (refine Kept.ite ?_ ?_) | (split) | (refine Kept.upd ?_ rfl)

theorem kept_sqWords {s0 s : State} (h : Kept s0 s) (h q : Nat) (ws : List Nat) (close short poi : Bool) : Kept s0 (State.sqWords s h q ws close short poi) := by
  rename_i h0
  induction ws generalizing s with
  | nil => exact h0
  | cons w r ih =>
    cases r with
    | nil => exact kept_sqWord h0 ..
    | cons v r => exact ih (kept_sqWord h0 ..)

theorem kept_complete {s0 s : State} (h : Kept s0 s) (c : Cpl) : Kept s0 (State.complete s c) := by
  unfold State.complete
  repeat' with_reducible first
    | (extract_lets -underBinder +onlyGivenNames x; refine Kept.via (s := s0) x ?_ ?_; (on_goal 2 => (intro _; clear_value x)); (on_goal 1 => (subst x)))
    | (extract_lets -underBinder +onlyGivenNames x; clear_value x)
    | assumption | (refine Kept.upd ?_ rfl)

theorem kept_unsupported {s0 s : State} (h : Kept s0 s) (h : Nat) (read : Bool) : Kept s0 (State.unsupported s h read) := by
  unfold State.unsupported
  repeat' with_reducible first
    | (extract_lets -underBinder +onlyGivenNames x; refine Kept.via (s := s0) x ?_ ?_; (on_goal 2 => (intro _; clear_value x)); (on_goal 1 => (subst x)))
    | (extract_lets -underBinder +onlyGivenNames x; clear_value x)
    | assumption | (apply kept_inc) | (apply kept_raise) | (apply kept_complete) | (refine Kept.ite ?_ ?_)

theorem kept_cmdWrite {s0 s : State} (h : Kept s0 s) (h q off : Nat) (data : List Byte) (poi : Bool) (fin : Bool) : Kept s0 (State.cmdWrite s h q off data poi fin) := by
  unfold State.cmdWrite
  repeat' with_reducible first
    | (extract_lets -underBinder +onlyGivenNames x; refine Kept.via (s := s0) x ?_ ?_; (on_goal 2 => (intro _; clear_value x)); (on_goal 1 => (subst x)))
    | (extract_lets -underBinder +onlyGivenNames x; clear_value x)
    | assumption | (apply kept_raise) | (apply kept_sqEval) | (apply kept_sqWords) | (apply kept_unsupported) | (refine Kept.ite ?_ ?_)

theorem kept_badRead {s0 s : State} (h : Kept s0 s) (h q : Nat) : Kept s0 (State.badRead s h q) := by
  unfold State.badRead
  repeat' with_reducible first
    | assumption | (apply kept_raise) | (apply kept_unsupported) | (refine Kept.ite ?_ ?_)

theorem kept_sqParity {s0 s : State} (h : Kept s0 s) (h q : Nat) (par : List Nat) (l : Option SqLine) : Kept s0 (State.sqParity s h q par l).1 := by
  unfold State.sqParity
  repeat' with_reducible first
    | (extract_lets -underBinder +onlyGivenNames x; refine Kept.via (s := s0) x ?_ ?_; (on_goal 2 => (intro _; clear_value x)); (on_goal 1 => (subst x)))
    | (extract_lets -underBinder +onlyGivenNames x; clear_value x)
    | assumption | (apply kept_addSat) | (apply kept_raise) | (refine Kept.ite ?_ ?_) | (refine Kept.pairIte ?_ ?_) | (split) | (refine Kept.upd ?_ rfl) | (rename_i e; refine Kept.pair e ?_) | (dsimp -zeta only)

theorem kept_eventRead {s0 s : State} (h : Kept s0 s) (h q : Nat) (pop : Bool) (par : List Nat) : Kept s0 (State.eventRead s h q pop par) := by
  unfold State.eventRead
  repeat' with_reducible first
    | (extract_lets -underBinder +onlyGivenNames x; refine Kept.via (s := s0) x ?_ ?_; (on_goal 2 => (intro _; clear_value x)); (on_goal 1 => (subst x)))
    | (extract_lets -underBinder +onlyGivenNames x; refine Kept.viaP (s := s0) x ?_ ?_; (on_goal 2 => (intro _; clear_value x)); (on_goal 1 => (subst x)))
    | (extract_lets -underBinder +onlyGivenNames x; clear_value x)
    | assumption | (apply kept_addWrap) | (apply kept_setSq) | (apply kept_complete) | (apply kept_sqParity) | (refine Kept.ite ?_ ?_) | (split) | (refine Kept.upd ?_ rfl) | (dsimp -zeta only)

theorem kept_cmdRead {s0 s : State} (h : Kept s0 s) (h q : Nat) (par : List Nat) : Kept s0 (State.cmdRead s h q par).1 := by
  unfold State.cmdRead
  repeat' with_reducible first
    | (extract_lets -underBinder +onlyGivenNames x; refine Kept.via (s := s0) x ?_ ?_; (on_goal 2 => (intro _; clear_value x)); (on_goal 1 => (subst x)))
    | (extract_lets -underBinder +onlyGivenNames x; refine Kept.viaP (s := s0) x ?_ ?_; (on_goal 2 => (intro _; clear_value x)); (on_goal 1 => (subst x)))
    | (extract_lets -underBinder +onlyGivenNames x; clear_value x)
    | assumption | (apply kept_setSq) | (apply kept_sqParity) | (refine Kept.ite ?_ ?_) | (refine Kept.pairIte ?_ ?_) | (split) | (refine Kept.upd ?_ rfl) | (dsimp -zeta only)

theorem kept_sqFinish {s0 s : State} (h : Kept s0 s) (h q : Nat) : Kept s0 (State.sqFinish s h q) := by
  unfold State.sqFinish
  repeat' with_reducible first
    | (extract_lets -underBinder +onlyGivenNames x; refine Kept.via (s := s0) x ?_ ?_; (on_goal 2 => (intro _; clear_value x)); (on_goal 1 => (subst x)))
    | (extract_lets -underBinder +onlyGivenNames x; clear_value x)
    | assumption | (apply kept_setSq) | (apply kept_sqEval) | (apply kept_sqWords) | (split) | (refine Kept.upd ?_ rfl)

theorem kept_sqOffer {s0 s : State} (h : Kept s0 s) (h q : Nat) (ws : List Nat) : Kept s0 (State.sqOffer s h q ws).1 := by
  unfold State.sqOffer
  repeat' with_reducible first
    | (extract_lets -underBinder +onlyGivenNames x; refine Kept.via (s := s0) x ?_ ?_; (on_goal 2 => (intro _; clear_value x)); (on_goal 1 => (subst x)))
    | (extract_lets -underBinder +onlyGivenNames x; clear_value x)
    | assumption | (apply kept_wb) | (apply kept_inc) | (apply kept_raise) | (apply kept_sqEval) | (apply kept_sqWords) | (apply kept_sqFinish) | (refine Kept.ite ?_ ?_) | (refine Kept.pairIte ?_ ?_) | (rename_i e; refine Kept.pair e ?_) | (dsimp -zeta only)

theorem kept_sqReset {s0 s : State} (h : Kept s0 s) (h q : Nat) : Kept s0 (State.sqReset s h q) := by
  unfold State.sqReset
  repeat' with_reducible first
    | (extract_lets -underBinder +onlyGivenNames x; refine Kept.via (s := s0) x ?_ ?_; (on_goal 2 => (intro _; clear_value x)); (on_goal 1 => (subst x)))
    | (extract_lets -underBinder +onlyGivenNames x; clear_value x)
    | assumption | (apply kept_setSq) | (apply kept_accepted)

theorem kept_dmaStop {s0 s : State} (h : Kept s0 s) (h c status moved : Nat) (rec : Bool) : Kept s0 (State.dmaStop s h c status moved rec) := by
  unfold State.dmaStop
  repeat' with_reducible first
    | (extract_lets -underBinder +onlyGivenNames x; refine Kept.via (s := s0) x ?_ ?_; (on_goal 2 => (intro _; clear_value x)); (on_goal 1 => (subst x)))
    | (extract_lets -underBinder +onlyGivenNames x; refine Kept.viaP (s := s0) x ?_ ?_; (on_goal 2 => (intro _; clear_value x)); (on_goal 1 => (subst x)))
    | (extract_lets -underBinder +onlyGivenNames x; clear_value x)
    | assumption | (apply kept_setBit) | (apply kept_raise) | (apply kept_setSq) | (apply kept_setDma) | (apply kept_sqOffer) | (refine Kept.ite ?_ ?_) | (split) | (refine Kept.upd ?_ rfl) | (dsimp -zeta only)

theorem kept_sqCons {s0 s : State} (h : Kept s0 s) (h q : Nat) (mark rewind release : Bool) : Kept s0 (State.sqCons s h q mark rewind release) := by
  unfold State.sqCons
  repeat' with_reducible first
    | (extract_lets -underBinder +onlyGivenNames x; refine Kept.via (s := s0) x ?_ ?_; (on_goal 2 => (intro _; clear_value x)); (on_goal 1 => (subst x)))
    | (extract_lets -underBinder +onlyGivenNames x; clear_value x)
    | assumption | (apply kept_addWrap) | (apply kept_setSq) | (refine Kept.ite ?_ ?_) | (split) | (refine Kept.upd ?_ rfl)

theorem kept_wmClear {s0 s : State} (h : Kept s0 s) (h q : Nat) : Kept s0 (State.wmClear s h q) := by
  unfold State.wmClear
  repeat' with_reducible first
    | (extract_lets -underBinder +onlyGivenNames x; refine Kept.via (s := s0) x ?_ ?_; (on_goal 2 => (intro _; clear_value x)); (on_goal 1 => (subst x)))
    | (extract_lets -underBinder +onlyGivenNames x; clear_value x)
    | assumption | (apply kept_wr) | (apply kept_wb) | (apply kept_msix) | (refine Kept.ite ?_ ?_)

theorem kept_sqFlush {s0 s : State} (h : Kept s0 s) (h q : Nat) : Kept s0 (State.sqFlush s h q) := by
  unfold State.sqFlush
  repeat' with_reducible first
    | (extract_lets -underBinder +onlyGivenNames x; refine Kept.via (s := s0) x ?_ ?_; (on_goal 2 => (intro _; clear_value x)); (on_goal 1 => (subst x)))
    | (extract_lets -underBinder +onlyGivenNames x; clear_value x)
    | assumption | (apply kept_addSat) | (apply kept_addWrap) | (apply kept_setSq) | (refine Kept.ite ?_ ?_) | (split) | (refine Kept.upd ?_ rfl)

theorem kept_sqResetWrite {s0 s : State} (h : Kept s0 s) (h q : Nat) : Kept s0 (State.sqResetWrite s h q) := by
  unfold State.sqResetWrite
  repeat' with_reducible first
    | assumption | (apply kept_sqReset) | (apply kept_dmaStop) | (refine Kept.ite ?_ ?_)

theorem kept_sqCntClr {s0 s : State} (h : Kept s0 s) (h q : Nat) : Kept s0 (State.sqCntClr s h q) := by
  unfold State.sqCntClr
  repeat' with_reducible first
    | assumption | (apply kept_zero)

theorem kept_dmaRecord {s0 s : State} (h : Kept s0 s) (h : Nat) (d : List Nat) (status moved : Nat) : Kept s0 (State.dmaRecord s h d status moved) := by
  unfold State.dmaRecord
  repeat' with_reducible first
    | (extract_lets -underBinder +onlyGivenNames x; refine Kept.via (s := s0) x ?_ ?_; (on_goal 2 => (intro _; clear_value x)); (on_goal 1 => (subst x)))
    | (extract_lets -underBinder +onlyGivenNames x; refine Kept.viaP (s := s0) x ?_ ?_; (on_goal 2 => (intro _; clear_value x)); (on_goal 1 => (subst x)))
    | (extract_lets -underBinder +onlyGivenNames x; clear_value x)
    | assumption | (apply kept_sqOffer) | (refine Kept.ite ?_ ?_) | (dsimp -zeta only)

theorem kept_dmaRestart {s0 s : State} (h : Kept s0 s) (h mask : Nat) : Kept s0 (State.dmaRestart s h mask) := by
  unfold State.dmaRestart
  repeat' with_reducible first
    | (intro) | assumption | (apply kept_clrBit) | (refine Kept.ite ?_ ?_) | (refine Kept.foldl _ ?_ ?_)

theorem kept_dmaEnable {s0 s : State} (h : Kept s0 s) (h v : Nat) : Kept s0 (State.dmaEnable s h v) := by
  unfold State.dmaEnable
  repeat' with_reducible first
    | (extract_lets -underBinder +onlyGivenNames x; refine Kept.via (s := s0) x ?_ ?_; (on_goal 2 => (intro _; clear_value x)); (on_goal 1 => (subst x)))
    | (extract_lets -underBinder +onlyGivenNames x; clear_value x)
    | (intro) | assumption | (apply kept_wr) | (apply kept_dmaStop) | (refine Kept.ite ?_ ?_) | (refine Kept.foldl _ ?_ ?_)

theorem kept_perst {s0 s : State} (h : Kept s0 s) (h : Nat) : Kept s0 (State.perst s h) := by
  unfold State.perst
  repeat' with_reducible first
    | (extract_lets -underBinder +onlyGivenNames x; refine Kept.via (s := s0) x ?_ ?_; (on_goal 2 => (intro _; clear_value x)); (on_goal 1 => (subst x)))
    | (extract_lets -underBinder +onlyGivenNames x; clear_value x)
    | (intro) | assumption | (apply kept_zero) | (apply kept_raise) | (apply kept_setDma) | (apply kept_sqReset) | (refine Kept.foldl _ ?_ ?_)

theorem kept_pcieCntClr {s0 s : State} (h : Kept s0 s) (h : Nat) : Kept s0 (State.pcieCntClr s h) := by
  unfold State.pcieCntClr
  repeat' with_reducible first
    | assumption | (apply kept_zero)

theorem kept_osierClear {s0 s : State} (h : Kept s0 s) (d : Nat) : Kept s0 (State.osierClear s d) := by
  unfold State.osierClear
  repeat' with_reducible first
    | (extract_lets -underBinder +onlyGivenNames x; refine Kept.via (s := s0) x ?_ ?_; (on_goal 2 => (intro _; clear_value x)); (on_goal 1 => (subst x)))
    | (extract_lets -underBinder +onlyGivenNames x; refine Kept.viaP (s := s0) x ?_ ?_; (on_goal 2 => (intro _; clear_value x)); (on_goal 1 => (subst x)))
    | (extract_lets -underBinder +onlyGivenNames x; clear_value x)
    | (intro) | assumption | (refine Kept.trans (a := s) (by assumption) ⟨rfl, fun w => { w with tiles := swf_forgetIf _ w.tiles, osd := swf_forgetIf _ w.osd, hbm := swf_forgetIf _ w.hbm, stake := swf_forgetIf _ w.stake, engs := swf_forgetIf _ w.engs, ces := swf_forgetIf _ w.ces, cbuf := swf_forgetIf _ w.cbuf, borders := swf_forgetIf _ w.borders, aud := swf_put _ _ w.aud }⟩) | (refine Kept.aud ?_ (fun w => swf_put _ _ w)) | (refine Kept.borders ?_ (fun w => swf_forgetIf _ w)) | (refine Kept.cbuf ?_ (fun w => swf_forgetIf _ w)) | (refine Kept.ces ?_ (fun w => swf_forgetIf _ w)) | (refine Kept.engs ?_ (fun w => swf_forgetIf _ w)) | (refine Kept.hbm ?_ (fun w => swf_forgetIf _ w)) | (refine Kept.osd ?_ (fun w => swf_forgetIf _ w)) | (refine Kept.stake ?_ (fun w => swf_forgetIf _ w)) | (refine Kept.tiles ?_ (fun w => swf_forgetIf _ w)) | (refine Kept.upd ?_ rfl) | (dsimp -zeta only)

theorem kept_weftClear {s0 s : State} (h : Kept s0 s) (w : Nat) : Kept s0 (State.weftClear s w) := by
  unfold State.weftClear
  repeat' with_reducible first
    | (extract_lets -underBinder +onlyGivenNames x; refine Kept.via (s := s0) x ?_ ?_; (on_goal 2 => (intro _; clear_value x)); (on_goal 1 => (subst x)))
    | (extract_lets -underBinder +onlyGivenNames x; clear_value x)
    | (intro) | assumption | (refine Kept.trans (a := s) (by assumption) ⟨rfl, fun w => { w with lanes := swf_forgetIf _ w.lanes, fibs := swf_forgetIf _ w.fibs, wfs := swf_forgetIf _ w.wfs, cal := swf_forgetIf _ w.cal, calSh := swf_forgetIf _ w.calSh, subs := swf_forgetIf _ w.subs }⟩) | (refine Kept.cal ?_ (fun w => swf_forgetIf _ w)) | (refine Kept.calSh ?_ (fun w => swf_forgetIf _ w)) | (refine Kept.fibs ?_ (fun w => swf_forgetIf _ w)) | (refine Kept.lanes ?_ (fun w => swf_forgetIf _ w)) | (refine Kept.subs ?_ (fun w => swf_forgetIf _ w)) | (refine Kept.wfs ?_ (fun w => swf_forgetIf _ w)) | (refine Kept.upd ?_ rfl)

theorem kept_reedClear {s0 s : State} (h : Kept s0 s) (r : Nat) : Kept s0 (State.reedClear s r) := by
  unfold State.reedClear
  repeat' with_reducible first
    | (extract_lets -underBinder +onlyGivenNames x; refine Kept.via (s := s0) x ?_ ?_; (on_goal 2 => (intro _; clear_value x)); (on_goal 1 => (subst x)))
    | (extract_lets -underBinder +onlyGivenNames x; clear_value x)
    | (intro) | assumption | (refine Kept.trans (a := s) (by assumption) ⟨rfl, fun w => { w with rds := swf_forgetIf _ w.rds, lasers := swf_forgetIf _ w.lasers }⟩) | (refine Kept.lasers ?_ (fun w => swf_forgetIf _ w)) | (refine Kept.rds ?_ (fun w => swf_forgetIf _ w)) | (refine Kept.upd ?_ rfl)

theorem kept_dieReset {s0 s : State} (h : Kept s0 s) (d : Nat) : Kept s0 (State.dieReset s d) := by
  have h1 := Kept.regs h (fun w => swf_forgetIf (fun k => decide (dieOf (keyPage k) = d)) w)
  have h2 := Kept.pages h1 (fun w => swf_forgetIf (fun p => decide (dieOf p = d)) w)
  have h3 := Kept.wl h2 (fun w => swf_mapFilter (fun e => if dieOf e.1 = d then (e.1, ({ repairs := e.2.repairs } : WlEnd)) else e)
    (fun e => by split <;> rfl) (fun e => decide (e.2 ≠ WlEnd.reset)) (fun _ h => of_decide_eq_true h) w)
  unfold State.dieReset
  refine Kept.ite (kept_osierClear ?_ _) (Kept.ite (kept_weftClear ?_ _) (Kept.ite (kept_reedClear ?_ _) ?_)) <;>
  exact Kept.upd h3 rfl

theorem kept_isolateBlock {s0 s : State} (h : Kept s0 s) (p : Nat) (b : Blk) : Kept s0 (State.isolateBlock s p b) := by
  unfold State.isolateBlock
  repeat' with_reducible first
    | (extract_lets -underBinder +onlyGivenNames x; refine Kept.via (s := s0) x ?_ ?_; (on_goal 2 => (intro _; clear_value x)); (on_goal 1 => (subst x)))
    | (extract_lets -underBinder +onlyGivenNames x; clear_value x)
    | (intro) | assumption | (apply kept_setEng) | (apply kept_borrowEnd) | (apply kept_ceAbort) | (apply kept_wlHold) | (apply kept_sbEnter) | (apply kept_planeSet) | (apply kept_laserOff) | (refine Kept.ite ?_ ?_) | (refine Kept.foldl _ ?_ ?_) | (split) | (refine Kept.upd ?_ rfl)

theorem kept_isolatePage {s0 s : State} (h : Kept s0 s) (p : Nat) : Kept s0 (State.isolatePage s p) := by
  unfold State.isolatePage
  repeat' with_reducible first
    | (extract_lets -underBinder +onlyGivenNames x; refine Kept.via (s := s0) x ?_ ?_; (on_goal 2 => (intro _; clear_value x)); (on_goal 1 => (subst x)))
    | (extract_lets -underBinder +onlyGivenNames x; clear_value x)
    | assumption | (apply kept_setUp) | (apply kept_isolateBlock) | (refine Kept.ite ?_ ?_) | (split)

theorem kept_isolate {s0 s : State} (h : Kept s0 s) (p : Nat) : Kept s0 (State.isolate s p) := by
  unfold State.isolate
  repeat' with_reducible first
    | (extract_lets -underBinder +onlyGivenNames x; refine Kept.via (s := s0) x ?_ ?_; (on_goal 2 => (intro _; clear_value x)); (on_goal 1 => (subst x)))
    | (extract_lets -underBinder +onlyGivenNames x; clear_value x)
    | (intro) | assumption | (apply kept_setOd) | (apply kept_isolatePage) | (refine Kept.ite ?_ ?_) | (refine Kept.foldl _ ?_ ?_) | (split) | (refine Kept.upd ?_ rfl)

theorem kept_sendN {s0 s : State} (h : Kept s0 s)  : Kept s0 (State.sendN s) := by
  unfold State.sendN
  repeat' with_reducible first
    | (extract_lets -underBinder +onlyGivenNames x; refine Kept.via (s := s0) x ?_ ?_; (on_goal 2 => (intro _; clear_value x)); (on_goal 1 => (subst x)))
    | (extract_lets -underBinder +onlyGivenNames x; clear_value x)
    | (intro) | assumption | (apply kept_frame) | (refine Kept.ite ?_ ?_) | (split) | (refine Kept.upd ?_ rfl)

theorem kept_safeEval {s0 s : State} (h : Kept s0 s)  : Kept s0 (State.safeEval s) := by
  unfold State.safeEval
  repeat' with_reducible first
    | (extract_lets -underBinder +onlyGivenNames x; refine Kept.via (s := s0) x ?_ ?_; (on_goal 2 => (intro _; clear_value x)); (on_goal 1 => (subst x)))
    | (extract_lets -underBinder +onlyGivenNames x; clear_value x)
    | assumption | (apply kept_wr) | (apply kept_raise) | (apply kept_sendN) | (refine Kept.ite ?_ ?_) | (split)

theorem kept_thermalUpdate {s0 s : State} (h : Kept s0 s)  : Kept s0 (State.thermalUpdate s) := by
  unfold State.thermalUpdate
  repeat' with_reducible first
    | (extract_lets -underBinder +onlyGivenNames x; refine Kept.via (s := s0) x ?_ ?_; (on_goal 2 => (intro _; clear_value x)); (on_goal 1 => (subst x)))
    | (extract_lets -underBinder +onlyGivenNames x; clear_value x)
    | assumption | (apply kept_wr) | (apply kept_sendN) | (refine Kept.ite ?_ ?_) | (split) | (refine Kept.upd ?_ rfl)

theorem kept_substitute {s0 s : State} (h : Kept s0 s) (g code : Nat) : Kept s0 (State.substitute s g code) := by
  unfold State.substitute
  repeat' with_reducible first
    | (extract_lets -underBinder +onlyGivenNames x; refine Kept.via (s := s0) x ?_ ?_; (on_goal 2 => (intro _; clear_value x)); (on_goal 1 => (subst x)))
    | (extract_lets -underBinder +onlyGivenNames x; clear_value x)
    | assumption | (apply kept_setSensor) | (refine Kept.upd ?_ rfl)

theorem kept_dieTimes {s0 s : State} (h : Kept s0 s) (d : Nat) : Kept s0 (State.dieTimes s d) := by
  unfold State.dieTimes
  repeat' with_reducible first
    | (extract_lets -underBinder +onlyGivenNames x; refine Kept.via (s := s0) x ?_ ?_; (on_goal 2 => (intro _; clear_value x)); (on_goal 1 => (subst x)))
    | (extract_lets -underBinder +onlyGivenNames x; refine Kept.viaP (s := s0) x ?_ ?_; (on_goal 2 => (intro _; clear_value x)); (on_goal 1 => (subst x)))
    | (extract_lets -underBinder +onlyGivenNames x; refine Kept.fn x ?_; subst x)
    | (extract_lets -underBinder +onlyGivenNames x; clear_value x)
    | (intro) | assumption | (apply kept_setSensor) | (apply kept_setDieTh) | (refine Kept.ite ?_ ?_) | (refine Kept.foldl _ ?_ ?_) | (refine Kept.foldlP _ ?_ ?_) | (split) | (refine Kept.upd ?_ rfl) | (rename_i e; refine Kept.pair e ?_) | (dsimp -zeta only)

theorem kept_forceSet {s0 s : State} (h : Kept s0 s) (d : Nat) : Kept s0 (State.forceSet s d) := by
  unfold State.forceSet
  repeat' with_reducible first
    | (extract_lets -underBinder +onlyGivenNames x; refine Kept.via (s := s0) x ?_ ?_; (on_goal 2 => (intro _; clear_value x)); (on_goal 1 => (subst x)))
    | (extract_lets -underBinder +onlyGivenNames x; clear_value x)
    | assumption | (apply kept_safeEval) | (apply kept_thermalUpdate) | (apply kept_substitute) | (refine Kept.ite ?_ ?_)

theorem kept_forceClr {s0 s : State} (h : Kept s0 s) (d : Nat) : Kept s0 (State.forceClr s d) := by
  unfold State.forceClr
  repeat' with_reducible first
    | (extract_lets -underBinder +onlyGivenNames x; refine Kept.via (s := s0) x ?_ ?_; (on_goal 2 => (intro _; clear_value x)); (on_goal 1 => (subst x)))
    | (extract_lets -underBinder +onlyGivenNames x; clear_value x)
    | assumption | (apply kept_setSensor) | (apply kept_thermalUpdate) | (refine Kept.ite ?_ ?_) | (split) | (refine Kept.upd ?_ rfl)

theorem kept_safeClear {s0 s : State} (h : Kept s0 s) (h : Nat) : Kept s0 (State.safeClear s h) := by
  unfold State.safeClear
  repeat' with_reducible first
    | assumption | (apply kept_wr) | (apply kept_sendN) | (apply kept_safeEval) | (refine Kept.ite ?_ ?_)

theorem kept_drvLimit {s0 s : State} (h : Kept s0 s) (h : Nat) : Kept s0 (State.drvLimit s h) := by
  unfold State.drvLimit
  repeat' with_reducible first
    | (extract_lets -underBinder +onlyGivenNames x; refine Kept.via (s := s0) x ?_ ?_; (on_goal 2 => (intro _; clear_value x)); (on_goal 1 => (subst x)))
    | (extract_lets -underBinder +onlyGivenNames x; clear_value x)
    | assumption | (apply kept_wr) | (apply kept_sendN)

theorem kept_tripRecord {s0 s : State} (h : Kept s0 s) (h die where' : Nat) : Kept s0 (State.tripRecord s h die where') := by
  unfold State.tripRecord
  repeat' with_reducible first
    | (extract_lets -underBinder +onlyGivenNames x; refine Kept.via (s := s0) x ?_ ?_; (on_goal 2 => (intro _; clear_value x)); (on_goal 1 => (subst x)))
    | (extract_lets -underBinder +onlyGivenNames x; clear_value x)
    | assumption | (apply kept_wr) | (apply kept_raiseX) | (apply kept_setFlash) | (refine Kept.ite ?_ ?_) | (split) | (refine Kept.upd ?_ rfl)

theorem kept_hoopClear {s0 s : State} (h : Kept s0 s) (h : Nat) : Kept s0 (State.hoopClear s h) := by
  rename_i h0
  have h1 := Kept.sqs h0 (fun w => swf_forgetIf (fun k => decide (k / 80 = h)) w)
  have h2 := Kept.dmas h1 (fun w => swf_forgetIf (fun k => decide (k / 8 = h)) w)
  unfold State.hoopClear
  exact Kept.logs h2 (fun w => swf_forgetIf (fun k => decide (k = h)) w)

theorem kept_hoopTrip {s0 s : State} (h : Kept s0 s) (h : Nat) : Kept s0 (State.hoopTrip s h) := by
  unfold State.hoopTrip
  repeat' with_reducible first
    | (extract_lets -underBinder +onlyGivenNames x; refine Kept.via (s := s0) x ?_ ?_; (on_goal 2 => (intro _; clear_value x)); (on_goal 1 => (subst x)))
    | (extract_lets -underBinder +onlyGivenNames x; clear_value x)
    | assumption | (apply kept_setHoop) | (apply kept_dieReset) | (apply kept_hoopClear)

theorem kept_trip {s0 s : State} (h : Kept s0 s) (die where' : Nat) : Kept s0 (State.trip s die where') := by
  unfold State.trip
  repeat' with_reducible first
    | (extract_lets -underBinder +onlyGivenNames x; refine Kept.via (s := s0) x ?_ ?_; (on_goal 2 => (intro _; clear_value x)); (on_goal 1 => (subst x)))
    | (extract_lets -underBinder +onlyGivenNames x)
    | (intro) | assumption | (apply kept_dieReset) | (apply kept_tripRecord) | (apply kept_hoopTrip) | (refine Kept.ite ?_ ?_) | (refine Kept.foldl _ ?_ ?_) | (refine Kept.snaps ?_ (fun w => rfl)) | (split) | (refine Kept.upd ?_ rfl)

theorem kept_thCntClr {s0 s : State} (h : Kept s0 s) (d : Nat) : Kept s0 (State.thCntClr s d) := by
  unfold State.thCntClr
  repeat' with_reducible first
    | assumption | (apply kept_zero)

theorem kept_setFit {s0 s : State} (h : Kept s0 s) (d m : Nat) (x : Fit) : Kept s0 (State.setFit s d m x) := by
  unfold State.setFit
  repeat' with_reducible first
    | (extract_lets -underBinder +onlyGivenNames x; refine Kept.via (s := s0) x ?_ ?_; (on_goal 2 => (intro _; clear_value x)); (on_goal 1 => (subst x)))
    | (extract_lets -underBinder +onlyGivenNames x; clear_value x)
    | assumption | (refine Kept.fits ?_ (fun w => swf_put _ _ w)) | (refine Kept.upd ?_ rfl)

theorem kept_ageAppend {s0 s : State} (h : Kept s0 s) (h : Nat) (r : AgeRec) : Kept s0 (State.ageAppend s h r) := by
  unfold State.ageAppend
  repeat' with_reducible first
    | (extract_lets -underBinder +onlyGivenNames x; refine Kept.via (s := s0) x ?_ ?_; (on_goal 2 => (intro _; clear_value x)); (on_goal 1 => (subst x)))
    | (extract_lets -underBinder +onlyGivenNames x; clear_value x)
    | (intro) | assumption | (apply kept_inc) | (apply kept_raise) | (apply kept_setFlash) | (apply kept_nvRefuse) | (refine Kept.ite ?_ ?_) | (split) | (refine Kept.upd ?_ rfl)

theorem kept_ageFit {s0 s : State} (h : Kept s0 s) (h d m : Nat) : Kept s0 (State.ageFit s h d m) := by
  unfold State.ageFit
  repeat' with_reducible first
    | (extract_lets -underBinder +onlyGivenNames x; refine Kept.via (s := s0) x ?_ ?_; (on_goal 2 => (intro _; clear_value x)); (on_goal 1 => (subst x)))
    | (extract_lets -underBinder +onlyGivenNames x; refine Kept.viaP (s := s0) x ?_ ?_; (on_goal 2 => (intro _; clear_value x)); (on_goal 1 => (subst x)))
    | (extract_lets -underBinder +onlyGivenNames x; clear_value x)
    | (intro) | assumption | (apply kept_raise) | (apply kept_draw) | (apply kept_setFit) | (refine Kept.ite ?_ ?_) | (split) | (refine Kept.upd ?_ rfl) | (dsimp -zeta only)

theorem kept_ageSeen {s0 s : State} (h : Kept s0 s) (h d m : Nat) : Kept s0 (State.ageSeen s h d m) := by
  unfold State.ageSeen
  repeat' with_reducible first
    | (extract_lets -underBinder +onlyGivenNames x; refine Kept.via (s := s0) x ?_ ?_; (on_goal 2 => (intro _; clear_value x)); (on_goal 1 => (subst x)))
    | (extract_lets -underBinder +onlyGivenNames x; refine Kept.viaP (s := s0) x ?_ ?_; (on_goal 2 => (intro _; clear_value x)); (on_goal 1 => (subst x)))
    | (extract_lets -underBinder +onlyGivenNames x; clear_value x)
    | assumption | (apply kept_setHoop) | (refine Kept.ite ?_ ?_) | (split) | (refine Kept.upd ?_ rfl) | (dsimp -zeta only)

theorem kept_ageLogClr {s0 s : State} (h : Kept s0 s) (h : Nat) : Kept s0 (State.ageLogClr s h) := by
  unfold State.ageLogClr
  repeat' with_reducible first
    | (extract_lets -underBinder +onlyGivenNames x; refine Kept.via (s := s0) x ?_ ?_; (on_goal 2 => (intro _; clear_value x)); (on_goal 1 => (subst x)))
    | (extract_lets -underBinder +onlyGivenNames x; clear_value x)
    | (intro) | assumption | (apply kept_setFlash) | (apply kept_nvRefuse) | (refine Kept.ite ?_ ?_) | (split) | (refine Kept.upd ?_ rfl)

theorem kept_setFlog {s0 s : State} (h : Kept s0 s) (h : Nat) (x : FLog) : Kept s0 (State.setFlog s h x) := by
  unfold State.setFlog
  repeat' with_reducible first
    | (extract_lets -underBinder +onlyGivenNames x; refine Kept.via (s := s0) x ?_ ?_; (on_goal 2 => (intro _; clear_value x)); (on_goal 1 => (subst x)))
    | (extract_lets -underBinder +onlyGivenNames x)
    | assumption | (refine Kept.trans (a := s) (by assumption) ⟨rfl, fun w => { w with logs := swf_put _ _ w.logs }⟩) | (refine Kept.logs ?_ (fun w => swf_put _ _ w)) | (refine Kept.upd ?_ rfl)

theorem kept_fstatClear {s0 s : State} (h : Kept s0 s) (p v : Nat) : Kept s0 (State.fstatClear s p v) := by
  unfold State.fstatClear
  repeat' with_reducible first
    | (extract_lets -underBinder +onlyGivenNames x; refine Kept.via (s := s0) x ?_ ?_; (on_goal 2 => (intro _; clear_value x)); (on_goal 1 => (subst x)))
    | (extract_lets -underBinder +onlyGivenNames x; clear_value x)
    | (intro) | assumption | (apply kept_wr) | (apply kept_setPage) | (refine Kept.upd ?_ rfl)

theorem kept_timerEnd {s0 s : State} (h : Kept s0 s) (p : Nat) (g : GTimer) : Kept s0 (State.timerEnd s p g) := by
  unfold State.timerEnd
  repeat' with_reducible first
    | (extract_lets -underBinder +onlyGivenNames x; refine Kept.via (s := s0) x ?_ ?_; (on_goal 2 => (intro _; clear_value x)); (on_goal 1 => (subst x)))
    | (extract_lets -underBinder +onlyGivenNames x; clear_value x)
    | assumption | (apply kept_setPage) | (apply kept_toTick) | (refine Kept.upd ?_ rfl)

theorem kept_haltSend {s0 s : State} (h : Kept s0 s) (ident : Nat) : Kept s0 (State.haltSend s ident) := by
  unfold State.haltSend
  repeat' with_reducible first
    | (extract_lets -underBinder +onlyGivenNames x; refine Kept.via (s := s0) x ?_ ?_; (on_goal 2 => (intro _; clear_value x)); (on_goal 1 => (subst x)))
    | (extract_lets -underBinder +onlyGivenNames x)
    | (intro) | assumption | (refine Kept.ite ?_ ?_) | (split) | (refine Kept.upd ?_ rfl)

theorem kept_haltDie {s0 s : State} (h : Kept s0 s) (d ident : Nat) : Kept s0 (State.haltDie s d ident) := by
  unfold State.haltDie
  repeat' with_reducible first
    | (extract_lets -underBinder +onlyGivenNames x; refine Kept.via (s := s0) x ?_ ?_; (on_goal 2 => (intro _; clear_value x)); (on_goal 1 => (subst x)))
    | (extract_lets -underBinder +onlyGivenNames x; clear_value x)
    | assumption | (apply kept_wr) | (apply kept_wb) | (apply kept_raiseX) | (apply kept_dieReset) | (refine Kept.ite ?_ ?_) | (split) | (refine Kept.upd ?_ rfl)

theorem kept_reject {s0 s : State} (h : Kept s0 s) (p off cause : Nat) : Kept s0 (State.reject s p off cause) := by
  unfold State.reject
  repeat' with_reducible first
    | (extract_lets -underBinder +onlyGivenNames x; refine Kept.via (s := s0) x ?_ ?_; (on_goal 2 => (intro _; clear_value x)); (on_goal 1 => (subst x)))
    | (extract_lets -underBinder +onlyGivenNames x; clear_value x)
    | assumption | (apply kept_wr) | (apply kept_wb) | (apply kept_inc) | (refine Kept.ite ?_ ?_)

theorem kept_ackResult {s0 s : State} (h : Kept s0 s) (h result : Nat) : Kept s0 (State.ackResult s h result) := by
  unfold State.ackResult
  repeat' with_reducible first
    | assumption | (apply kept_wr) | (apply kept_wb)

theorem kept_ackWrite {s0 s : State} (h : Kept s0 s) (h : Nat) : Kept s0 (State.ackWrite s h) := by
  unfold State.ackWrite
  repeat' with_reducible first
    | (extract_lets -underBinder +onlyGivenNames x; refine Kept.via (s := s0) x ?_ ?_; (on_goal 2 => (intro _; clear_value x)); (on_goal 1 => (subst x)))
    | (extract_lets -underBinder +onlyGivenNames x; clear_value x)
    | assumption | (apply kept_wb) | (apply kept_ackResult) | (refine Kept.ite ?_ ?_) | (split) | (refine Kept.upd ?_ rfl)

theorem kept_queueOffer {s0 s : State} (h : Kept s0 s) (h : Nat) (r : FaultRec) : Kept s0 (State.queueOffer s h r) := by
  unfold State.queueOffer
  repeat' with_reducible first
    | (extract_lets -underBinder +onlyGivenNames x; refine Kept.via (s := s0) x ?_ ?_; (on_goal 2 => (intro _; clear_value x)); (on_goal 1 => (subst x)))
    | (extract_lets -underBinder +onlyGivenNames x; refine Kept.viaP (s := s0) x ?_ ?_; (on_goal 2 => (intro _; clear_value x)); (on_goal 1 => (subst x)))
    | (extract_lets -underBinder +onlyGivenNames x; clear_value x)
    | assumption | (apply kept_inc) | (apply kept_raiseX) | (apply kept_sqOffer) | (apply kept_setFlog) | (refine Kept.ite ?_ ?_) | (split) | (refine Kept.upd ?_ rfl) | (dsimp -zeta only)

theorem kept_faultInt {s0 s : State} (h : Kept s0 s) (h : Nat) (r : FaultRec) : Kept s0 (State.faultInt s h r) := by
  unfold State.faultInt
  repeat' with_reducible first
    | (extract_lets -underBinder +onlyGivenNames x; refine Kept.via (s := s0) x ?_ ?_; (on_goal 2 => (intro _; clear_value x)); (on_goal 1 => (subst x)))
    | (extract_lets -underBinder +onlyGivenNames x; clear_value x)
    | assumption | (apply kept_wr) | (apply kept_wb) | (apply kept_inc) | (apply kept_msix) | (refine Kept.ite ?_ ?_)

theorem kept_logPut {s0 s : State} (h : Kept s0 s) (h : Nat) (r : FaultRec) : Kept s0 (State.logPut s h r) := by
  unfold State.logPut
  repeat' with_reducible first
    | (extract_lets -underBinder +onlyGivenNames x; refine Kept.via (s := s0) x ?_ ?_; (on_goal 2 => (intro _; clear_value x)); (on_goal 1 => (subst x)))
    | (extract_lets -underBinder +onlyGivenNames x; clear_value x)
    | (intro) | assumption | (apply kept_wr) | (apply kept_addWrap) | (apply kept_setFlog) | (refine Kept.upd ?_ rfl)

theorem kept_logRec {s0 s : State} (h : Kept s0 s) (h : Nat) (r : FaultRec) (flashOk : Bool) : Kept s0 (State.logRec s h r flashOk) := by
  unfold State.logRec
  repeat' with_reducible first
    | (extract_lets -underBinder +onlyGivenNames x; refine Kept.via (s := s0) x ?_ ?_; (on_goal 2 => (intro _; clear_value x)); (on_goal 1 => (subst x)))
    | (extract_lets -underBinder +onlyGivenNames x; clear_value x)
    | assumption | (apply kept_inc) | (apply kept_raiseX) | (apply kept_nvRefuse) | (apply kept_setFlog) | (apply kept_queueOffer) | (apply kept_faultInt) | (apply kept_logPut) | (refine Kept.ite ?_ ?_) | (split) | (refine Kept.upd ?_ rfl)

theorem kept_intClear {s0 s : State} (h : Kept s0 s) (h : Nat) : Kept s0 (State.intClear s h) := by
  unfold State.intClear
  repeat' with_reducible first
    | (extract_lets -underBinder +onlyGivenNames x; refine Kept.via (s := s0) x ?_ ?_; (on_goal 2 => (intro _; clear_value x)); (on_goal 1 => (subst x)))
    | (extract_lets -underBinder +onlyGivenNames x; clear_value x)
    | assumption | (apply kept_wr) | (apply kept_wb) | (apply kept_msix) | (refine Kept.ite ?_ ?_)

theorem kept_pinClr {s0 s : State} (h : Kept s0 s) (h : Nat) : Kept s0 (State.pinClr s h) := by
  unfold State.pinClr
  repeat' with_reducible first
    | assumption | (apply kept_wr)

theorem kept_logRdWrite {s0 s : State} (h : Kept s0 s) (h v : Nat) : Kept s0 (State.logRdWrite s h v) := by
  unfold State.logRdWrite
  repeat' with_reducible first
    | (extract_lets -underBinder +onlyGivenNames x; refine Kept.via (s := s0) x ?_ ?_; (on_goal 2 => (intro _; clear_value x)); (on_goal 1 => (subst x)))
    | (extract_lets -underBinder +onlyGivenNames x; clear_value x)
    | assumption | (apply kept_wr) | (apply kept_setFlog) | (refine Kept.upd ?_ rfl)

theorem kept_coalCopy {s0 s : State} (h : Kept s0 s) (h : Nat) : Kept s0 (State.coalCopy s h) := by
  unfold State.coalCopy
  repeat' with_reducible first
    | (extract_lets -underBinder +onlyGivenNames x; refine Kept.via (s := s0) x ?_ ?_; (on_goal 2 => (intro _; clear_value x)); (on_goal 1 => (subst x)))
    | (extract_lets -underBinder +onlyGivenNames x)
    | (intro) | assumption | (refine Kept.ite ?_ ?_) | (refine Kept.foldl _ ?_ ?_) | (split) | (refine Kept.upd ?_ rfl)

theorem kept_coalWrite {s0 s : State} (h : Kept s0 s) (h v : Nat) : Kept s0 (State.coalWrite s h v) := by
  unfold State.coalWrite
  repeat' with_reducible first
    | assumption | (apply kept_wr) | (apply kept_coalCopy)

theorem kept_crashClear {s0 s : State} (h : Kept s0 s) (h : Nat) : Kept s0 (State.crashClear s h) := by
  unfold State.crashClear
  repeat' with_reducible first
    | (extract_lets -underBinder +onlyGivenNames x; refine Kept.via (s := s0) x ?_ ?_; (on_goal 2 => (intro _; clear_value x)); (on_goal 1 => (subst x)))
    | (extract_lets -underBinder +onlyGivenNames x; clear_value x)
    | assumption | (apply kept_nvRefuse) | (apply kept_setFlog) | (refine Kept.ite ?_ ?_) | (split) | (refine Kept.upd ?_ rfl)

theorem kept_faultCntClr {s0 s : State} (h : Kept s0 s) (h : Nat) : Kept s0 (State.faultCntClr s h) := by
  unfold State.faultCntClr
  repeat' with_reducible first
    | assumption | (apply kept_zero)

end Sys2Proof.Machine
end

