-- ==== Sys2Proof/Laws/KeptHoop.lean ====
section
/-! SUPPORT. What the helpers of the Hoop, start and security keep. -/

namespace Sys2Proof.Machine

set_option linter.all false

theorem kept_meet {s0 s : State} (h : Kept s0 s) (h e : Nat) : Kept s0 (State.meet s h e) := by
  unfold State.meet
  repeat' with_reducible first
    | assumption | (apply kept_wr)

theorem kept_setRole {s0 s : State} (h : Kept s0 s) (h r : Nat) : Kept s0 (State.setRole s h r) := by
  unfold State.setRole
  repeat' with_reducible first
    | (extract_lets -underBinder +onlyGivenNames x; refine Kept.via (s := s0) x ?_ ?_; (on_goal 2 => (intro _; clear_value x)); (on_goal 1 => (subst x)))
    | (extract_lets -underBinder +onlyGivenNames x; clear_value x)
    | assumption | (apply kept_wr) | (apply kept_wb) | (apply kept_inc) | (apply kept_raise) | (refine Kept.ite ?_ ?_)

theorem kept_soloStop {s0 s : State} (h : Kept s0 s) (h : Nat) : Kept s0 (State.soloStop s h) := by
  unfold State.soloStop
  repeat' with_reducible first
    | (extract_lets -underBinder +onlyGivenNames x; refine Kept.via (s := s0) x ?_ ?_; (on_goal 2 => (intro _; clear_value x)); (on_goal 1 => (subst x)))
    | (extract_lets -underBinder +onlyGivenNames x; clear_value x)
    | assumption | (apply kept_wb) | (apply kept_setHoop) | (refine Kept.upd ?_ rfl)

theorem kept_meetEpoch {s0 s : State} (h : Kept s0 s) (h e : Nat) : Kept s0 (State.meetEpoch s h e) := by
  unfold State.meetEpoch
  repeat' with_reducible first
    | (extract_lets -underBinder +onlyGivenNames x; refine Kept.via (s := s0) x ?_ ?_; (on_goal 2 => (intro _; clear_value x)); (on_goal 1 => (subst x)))
    | (extract_lets -underBinder +onlyGivenNames x; clear_value x)
    | assumption | (apply kept_meet) | (apply kept_setRole) | (refine Kept.ite ?_ ?_)

theorem kept_raiseDie {s0 s : State} (h : Kept s0 s) (d e : Nat) : Kept s0 (State.raiseDie s d e) := by
  unfold State.raiseDie
  repeat' with_reducible first
    | (extract_lets -underBinder +onlyGivenNames x; refine Kept.via (s := s0) x ?_ ?_; (on_goal 2 => (intro _; clear_value x)); (on_goal 1 => (subst x)))
    | (extract_lets -underBinder +onlyGivenNames x; clear_value x)
    | (intro) | assumption | (apply kept_wr) | (apply kept_wb) | (refine Kept.ite ?_ ?_) | (refine Kept.foldl _ ?_ ?_) | (split) | (refine Kept.upd ?_ rfl)

theorem kept_raiseAll {s0 s : State} (h : Kept s0 s) (h e : Nat) : Kept s0 (State.raiseAll s h e) := by
  unfold State.raiseAll
  repeat' with_reducible first
    | (extract_lets -underBinder +onlyGivenNames x; refine Kept.via (s := s0) x ?_ ?_; (on_goal 2 => (intro _; clear_value x)); (on_goal 1 => (subst x)))
    | (extract_lets -underBinder +onlyGivenNames x; clear_value x)
    | (intro) | assumption | (apply kept_raiseDie) | (refine Kept.upd ?_ rfl)

theorem kept_takeOver {s0 s : State} (h : Kept s0 s) (h : Nat) : Kept s0 (State.takeOver s h) := by
  unfold State.takeOver
  repeat' with_reducible first
    | (extract_lets -underBinder +onlyGivenNames x; refine Kept.via (s := s0) x ?_ ?_; (on_goal 2 => (intro _; clear_value x)); (on_goal 1 => (subst x)))
    | (extract_lets -underBinder +onlyGivenNames x; clear_value x)
    | (intro) | assumption | (apply kept_wr) | (apply kept_resetRegs) | (refine Kept.foldl _ ?_ ?_) | (refine Kept.regs ?_ (fun w => swf_forgetIf _ w)) | (refine Kept.snaps ?_ (fun w => rfl)) | (refine Kept.upd ?_ rfl)

theorem kept_stageRestart {s0 s : State} (h : Kept s0 s)  : Kept s0 (State.stageRestart s) := by
  unfold State.stageRestart
  repeat' with_reducible first
    | (extract_lets -underBinder +onlyGivenNames x; refine Kept.via (s := s0) x ?_ ?_; (on_goal 2 => (intro _; clear_value x)); (on_goal 1 => (subst x)))
    | (extract_lets -underBinder +onlyGivenNames x; clear_value x)
    | assumption | (refine Kept.ite ?_ ?_) | (split) | (refine Kept.upd ?_ rfl)

theorem kept_mergeTail {s0 s : State} (h : Kept s0 s) (h : Nat) : Kept s0 (State.mergeTail s h) := by
  unfold State.mergeTail
  repeat' with_reducible first
    | (extract_lets -underBinder +onlyGivenNames x; refine Kept.via (s := s0) x ?_ ?_; (on_goal 2 => (intro _; clear_value x)); (on_goal 1 => (subst x)))
    | (extract_lets -underBinder +onlyGivenNames x; refine Kept.viaP (s := s0) x ?_ ?_; (on_goal 2 => (intro _; clear_value x)); (on_goal 1 => (subst x)))
    | (extract_lets -underBinder +onlyGivenNames x; clear_value x)
    | (intro) | assumption | (apply kept_logPut) | (apply kept_logRdWrite) | (refine Kept.ite ?_ ?_) | (refine Kept.foldl _ ?_ ?_) | (refine Kept.foldlP _ ?_ ?_) | (split) | (dsimp -zeta only)

theorem kept_offerAgain {s0 s : State} (h : Kept s0 s) (h : Nat) : Kept s0 (State.offerAgain s h) := by
  unfold State.offerAgain
  repeat' with_reducible first
    | (extract_lets -underBinder +onlyGivenNames x; refine Kept.via (s := s0) x ?_ ?_; (on_goal 2 => (intro _; clear_value x)); (on_goal 1 => (subst x)))
    | (extract_lets -underBinder +onlyGivenNames x; clear_value x)
    | (intro) | assumption | (apply kept_queueOffer) | (refine Kept.ite ?_ ?_) | (refine Kept.foldl _ ?_ ?_) | (split)

theorem kept_promote {s0 s : State} (h : Kept s0 s) (h e r : Nat) : Kept s0 (State.promote s h e r) := by
  unfold State.promote
  repeat' with_reducible first
    | (extract_lets -underBinder +onlyGivenNames x; refine Kept.via (s := s0) x ?_ ?_; (on_goal 2 => (intro _; clear_value x)); (on_goal 1 => (subst x)))
    | (extract_lets -underBinder +onlyGivenNames x; clear_value x)
    | assumption | (apply kept_wr) | (apply kept_wb) | (apply kept_setHoop) | (apply kept_coalCopy) | (apply kept_meet) | (apply kept_setRole) | (apply kept_soloStop) | (apply kept_raiseAll) | (apply kept_takeOver) | (apply kept_stageRestart) | (apply kept_mergeTail) | (apply kept_offerAgain) | (refine Kept.ite ?_ ?_) | (split) | (refine Kept.upd ?_ rfl)

theorem kept_leaseReject {s0 s : State} (h : Kept s0 s) (h : Nat) : Kept s0 (State.leaseReject s h) := by
  unfold State.leaseReject
  repeat' with_reducible first
    | assumption | (apply kept_inc) | (apply kept_raise)

theorem kept_accepted {s0 s : State} (h : Kept s0 s) (h : Nat) : Kept s0 (State.accepted s h) := by
  unfold State.accepted
  repeat' with_reducible first
    | (extract_lets -underBinder +onlyGivenNames x; refine Kept.via (s := s0) x ?_ ?_; (on_goal 2 => (intro _; clear_value x)); (on_goal 1 => (subst x)))
    | (extract_lets -underBinder +onlyGivenNames x; clear_value x)
    | assumption | (apply kept_setHoop) | (apply kept_soloStop) | (refine Kept.upd ?_ rfl)

theorem kept_leaseGrant {s0 s : State} (h : Kept s0 s) (h : Nat) : Kept s0 (State.leaseGrant s h) := by
  unfold State.leaseGrant
  repeat' with_reducible first
    | (extract_lets -underBinder +onlyGivenNames x; refine Kept.via (s := s0) x ?_ ?_; (on_goal 2 => (intro _; clear_value x)); (on_goal 1 => (subst x)))
    | (extract_lets -underBinder +onlyGivenNames x; clear_value x)
    | assumption | (apply kept_setHoop) | (apply kept_promote) | (apply kept_leaseReject) | (apply kept_accepted) | (refine Kept.ite ?_ ?_) | (split) | (refine Kept.upd ?_ rfl)

theorem kept_leaseRenew {s0 s : State} (h : Kept s0 s) (h : Nat) : Kept s0 (State.leaseRenew s h) := by
  unfold State.leaseRenew
  repeat' with_reducible first
    | (extract_lets -underBinder +onlyGivenNames x; refine Kept.via (s := s0) x ?_ ?_; (on_goal 2 => (intro _; clear_value x)); (on_goal 1 => (subst x)))
    | (extract_lets -underBinder +onlyGivenNames x; clear_value x)
    | assumption | (apply kept_addWrap) | (apply kept_setHoop) | (apply kept_meet) | (apply kept_leaseReject) | (apply kept_accepted) | (refine Kept.ite ?_ ?_) | (split) | (refine Kept.upd ?_ rfl)

theorem kept_leaseStandby {s0 s : State} (h : Kept s0 s) (h : Nat) : Kept s0 (State.leaseStandby s h) := by
  unfold State.leaseStandby
  repeat' with_reducible first
    | (extract_lets -underBinder +onlyGivenNames x; refine Kept.via (s := s0) x ?_ ?_; (on_goal 2 => (intro _; clear_value x)); (on_goal 1 => (subst x)))
    | (extract_lets -underBinder +onlyGivenNames x; clear_value x)
    | assumption | (apply kept_setHoop) | (apply kept_meet) | (apply kept_setRole) | (apply kept_leaseReject) | (apply kept_accepted) | (refine Kept.ite ?_ ?_) | (split) | (refine Kept.upd ?_ rfl)

theorem kept_leaseCmd {s0 s : State} (h : Kept s0 s) (h cmd : Nat) : Kept s0 (State.leaseCmd s h cmd) := by
  unfold State.leaseCmd
  repeat' with_reducible first
    | (extract_lets -underBinder +onlyGivenNames x; refine Kept.via (s := s0) x ?_ ?_; (on_goal 2 => (intro _; clear_value x)); (on_goal 1 => (subst x)))
    | (extract_lets -underBinder +onlyGivenNames x; clear_value x)
    | assumption | (apply kept_leaseGrant) | (apply kept_leaseRenew) | (apply kept_leaseStandby) | (split)

theorem kept_wdogKick {s0 s : State} (h : Kept s0 s) (h : Nat) : Kept s0 (State.wdogKick s h) := by
  unfold State.wdogKick
  repeat' with_reducible first
    | (extract_lets -underBinder +onlyGivenNames x; refine Kept.via (s := s0) x ?_ ?_; (on_goal 2 => (intro _; clear_value x)); (on_goal 1 => (subst x)))
    | (extract_lets -underBinder +onlyGivenNames x; clear_value x)
    | assumption | (apply kept_setHoop) | (refine Kept.upd ?_ rfl)

theorem kept_hoopFail {s0 s : State} (h : Kept s0 s) (h : Nat) : Kept s0 (State.hoopFail s h) := by
  unfold State.hoopFail
  repeat' with_reducible first
    | assumption | (apply kept_setRole) | (apply kept_soloStop)

theorem kept_profileHoop {s0 s : State} (h : Kept s0 s) (h : Nat) : Kept s0 (State.profileHoop s h) := by
  unfold State.profileHoop
  repeat' with_reducible first
    | (extract_lets -underBinder +onlyGivenNames x; refine Kept.via (s := s0) x ?_ ?_; (on_goal 2 => (intro _; clear_value x)); (on_goal 1 => (subst x)))
    | (extract_lets -underBinder +onlyGivenNames x; clear_value x)
    | assumption | (apply kept_wr)

theorem kept_hoopPages {s0 s : State} (h : Kept s0 s) (h : Nat) : Kept s0 (State.hoopPages s h) := by
  unfold State.hoopPages
  repeat' with_reducible first
    | (extract_lets -underBinder +onlyGivenNames x; refine Kept.via (s := s0) x ?_ ?_; (on_goal 2 => (intro _; clear_value x)); (on_goal 1 => (subst x)))
    | (extract_lets -underBinder +onlyGivenNames x; clear_value x)
    | (intro) | assumption | (apply kept_wr) | (apply kept_wb) | (apply kept_setUp) | (apply kept_setHoop) | (apply kept_profileHoop) | (refine Kept.ite ?_ ?_) | (refine Kept.foldl _ ?_ ?_) | (split) | (refine Kept.upd ?_ rfl)

theorem kept_mirrorOut {s0 s : State} (h : Kept s0 s) (h : Nat) : Kept s0 (State.mirrorOut s h) := by
  unfold State.mirrorOut
  repeat' with_reducible first
    | (extract_lets -underBinder +onlyGivenNames x; refine Kept.via (s := s0) x ?_ ?_; (on_goal 2 => (intro _; clear_value x)); (on_goal 1 => (subst x)))
    | (extract_lets -underBinder +onlyGivenNames x; refine Kept.viaP (s := s0) x ?_ ?_; (on_goal 2 => (intro _; clear_value x)); (on_goal 1 => (subst x)))
    | (extract_lets -underBinder +onlyGivenNames x; clear_value x)
    | (intro) | assumption | (apply kept_setHoop) | (refine Kept.ite ?_ ?_) | (split) | (refine Kept.upd ?_ rfl) | (dsimp -zeta only)

theorem kept_mirValid {s0 s : State} (h : Kept s0 s) (h bank : Nat) (v : Bool) : Kept s0 (State.mirValid s h bank v) := by
  unfold State.mirValid
  repeat' with_reducible first
    | assumption | (apply kept_wb) | (refine Kept.ite ?_ ?_)

theorem kept_mirResync {s0 s : State} (h : Kept s0 s) (h : Nat) : Kept s0 (State.mirResync s h) := by
  unfold State.mirResync
  repeat' with_reducible first
    | assumption | (apply kept_mirrorOut)

theorem kept_hpCntClr {s0 s : State} (h : Kept s0 s) (h : Nat) : Kept s0 (State.hpCntClr s h) := by
  unfold State.hpCntClr
  repeat' with_reducible first
    | assumption | (apply kept_zero)

theorem kept_hopReport {s0 s : State} (h : Kept s0 s) (h d : Nat) : Kept s0 (State.hopReport s h d) := by
  unfold State.hopReport
  repeat' with_reducible first
    | (extract_lets -underBinder +onlyGivenNames x; refine Kept.via (s := s0) x ?_ ?_; (on_goal 2 => (intro _; clear_value x)); (on_goal 1 => (subst x)))
    | (extract_lets -underBinder +onlyGivenNames x; refine Kept.viaP (s := s0) x ?_ ?_; (on_goal 2 => (intro _; clear_value x)); (on_goal 1 => (subst x)))
    | (extract_lets -underBinder +onlyGivenNames x; clear_value x)
    | (intro) | assumption | (apply kept_wr) | (apply kept_wb) | (apply kept_raise) | (refine Kept.ite ?_ ?_) | (refine Kept.foldl _ ?_ ?_) | (refine Kept.foldlP _ ?_ ?_) | (dsimp -zeta only)

theorem kept_showN {s0 s : State} (h : Kept s0 s) (n : Nat) : Kept s0 (State.showN s n) := by
  unfold State.showN
  repeat' with_reducible first
    | (extract_lets -underBinder +onlyGivenNames x; refine Kept.via (s := s0) x ?_ ?_; (on_goal 2 => (intro _; clear_value x)); (on_goal 1 => (subst x)))
    | (extract_lets -underBinder +onlyGivenNames x; clear_value x)
    | (intro) | assumption | (apply kept_wr) | (refine Kept.ite ?_ ?_) | (refine Kept.foldl _ ?_ ?_)

theorem kept_alignFail {s0 s : State} (h : Kept s0 s)  : Kept s0 (State.alignFail s) := by
  unfold State.alignFail
  repeat' with_reducible first
    | (extract_lets -underBinder +onlyGivenNames x; refine Kept.via (s := s0) x ?_ ?_; (on_goal 2 => (intro _; clear_value x)); (on_goal 1 => (subst x)))
    | (extract_lets -underBinder +onlyGivenNames x; clear_value x)
    | (intro) | assumption | (apply kept_wr) | (apply kept_wb) | (apply kept_raise) | (apply kept_dieReset) | (refine Kept.ite ?_ ?_) | (refine Kept.foldl _ ?_ ?_) | (split) | (refine Kept.upd ?_ rfl)

theorem kept_showValid {s0 s : State} (h : Kept s0 s) (h : Nat) : Kept s0 (State.showValid s h) := by
  unfold State.showValid
  repeat' with_reducible first
    | (extract_lets -underBinder +onlyGivenNames x; refine Kept.via (s := s0) x ?_ ?_; (on_goal 2 => (intro _; clear_value x)); (on_goal 1 => (subst x)))
    | (extract_lets -underBinder +onlyGivenNames x; clear_value x)
    | (intro) | assumption | (apply kept_wr) | (refine Kept.ite ?_ ?_) | (refine Kept.foldl _ ?_ ?_)

theorem kept_profileSelect {s0 s : State} (h : Kept s0 s) (h : Nat) : Kept s0 (State.profileSelect s h) := by
  unfold State.profileSelect
  repeat' with_reducible first
    | (extract_lets -underBinder +onlyGivenNames x; refine Kept.via (s := s0) x ?_ ?_; (on_goal 2 => (intro _; clear_value x)); (on_goal 1 => (subst x)))
    | (extract_lets -underBinder +onlyGivenNames x; refine Kept.viaP (s := s0) x ?_ ?_; (on_goal 2 => (intro _; clear_value x)); (on_goal 1 => (subst x)))
    | (extract_lets -underBinder +onlyGivenNames x; clear_value x)
    | (intro) | assumption | (apply kept_wr) | (apply kept_wb) | (apply kept_raise) | (apply kept_setFlash) | (apply kept_showValid) | (refine Kept.ite ?_ ?_) | (split) | (refine Kept.upd ?_ rfl) | (dsimp -zeta only)

theorem kept_stageLate {s0 s : State} (h : Kept s0 s) (n : Nat) : Kept s0 (State.stageLate s n) := by
  unfold State.stageLate
  repeat' with_reducible first
    | assumption | (apply kept_setBit) | (apply kept_raise) | (refine Kept.ite ?_ ?_)

theorem kept_reach {s0 s : State} (h : Kept s0 s) (n : Nat) : Kept s0 (State.reach s n) := by
  unfold State.reach
  repeat' with_reducible first
    | (extract_lets -underBinder +onlyGivenNames x; refine Kept.via (s := s0) x ?_ ?_; (on_goal 2 => (intro _; clear_value x)); (on_goal 1 => (subst x)))
    | (extract_lets -underBinder +onlyGivenNames x; clear_value x)
    | assumption | (apply kept_wr) | (apply kept_stageLate) | (refine Kept.ite ?_ ?_)

theorem kept_dieUp {s0 s : State} (h : Kept s0 s) (d e : Nat) : Kept s0 (State.dieUp s d e) := by
  unfold State.dieUp
  repeat' with_reducible first
    | (extract_lets -underBinder +onlyGivenNames x; refine Kept.via (s := s0) x ?_ ?_; (on_goal 2 => (intro _; clear_value x)); (on_goal 1 => (subst x)))
    | (extract_lets -underBinder +onlyGivenNames x; clear_value x)
    | (intro) | assumption | (apply kept_wr) | (apply kept_wb) | (apply kept_setUp) | (refine Kept.ite ?_ ?_) | (refine Kept.foldl _ ?_ ?_)

theorem kept_fwWrite {s0 s : State} (h : Kept s0 s) (p off : Nat) (act : State → State) (h_act : ∀ (x0 : State), Kept s0 x0 → Kept s0 (act x0)) : Kept s0 (State.fwWrite s p off act) := by
  unfold State.fwWrite
  repeat' with_reducible first
    | (extract_lets -underBinder +onlyGivenNames x; refine Kept.via (s := s0) x ?_ ?_; (on_goal 2 => (intro _; clear_value x)); (on_goal 1 => (subst x)))
    | (extract_lets -underBinder +onlyGivenNames x; clear_value x)
    | assumption | (apply kept_epochUp) | (apply kept_reject) | (apply kept_meetEpoch) | (apply h_act) | (refine Kept.ite ?_ ?_)

theorem kept_stageWork {s0 s : State} (h : Kept s0 s) (n : Nat) : Kept s0 (State.stageWork s n) := by
  unfold State.stageWork
  repeat' with_reducible first
    | (extract_lets -underBinder +onlyGivenNames x; refine Kept.via (s := s0) x ?_ ?_; (on_goal 2 => (intro _; clear_value x)); (on_goal 1 => (subst x)))
    | (extract_lets -underBinder +onlyGivenNames x; clear_value x)
    | (intro) | assumption | (apply kept_wb) | (apply kept_wlEnable) | (apply kept_sbEnable) | (apply kept_planeWrite) | (apply kept_light) | (apply kept_dieUp) | (apply kept_fwWrite) | (refine Kept.ite ?_ ?_) | (refine Kept.foldl _ ?_ ?_) | (split) | (refine Kept.upd ?_ rfl)

theorem kept_enterStage {s0 s : State} (h : Kept s0 s) (n : Nat) : Kept s0 (State.enterStage s n) := by
  unfold State.enterStage
  repeat' with_reducible first
    | (extract_lets -underBinder +onlyGivenNames x; refine Kept.via (s := s0) x ?_ ?_; (on_goal 2 => (intro _; clear_value x)); (on_goal 1 => (subst x)))
    | (extract_lets -underBinder +onlyGivenNames x; clear_value x)
    | (intro) | assumption | (apply kept_wb) | (apply kept_reach) | (apply kept_stageWork) | (refine Kept.ite ?_ ?_) | (refine Kept.foldl _ ?_ ?_) | (split) | (refine Kept.upd ?_ rfl)

theorem kept_startGo {s0 s : State} (h : Kept s0 s)  : Kept s0 (State.startGo s) := by
  unfold State.startGo
  repeat' with_reducible first
    | (extract_lets -underBinder +onlyGivenNames x; refine Kept.via (s := s0) x ?_ ?_; (on_goal 2 => (intro _; clear_value x)); (on_goal 1 => (subst x)))
    | (extract_lets -underBinder +onlyGivenNames x; clear_value x)
    | assumption | (apply kept_stageWork) | (refine Kept.ite ?_ ?_) | (split) | (refine Kept.upd ?_ rfl)

theorem kept_powerReset {s0 s : State} (h : Kept s0 s)  : Kept s0 (State.powerReset s) := by
  refine Kept.trans h ⟨rfl, fun w => ?_⟩
  constructor <;> first
    | rfl
    | exact w.flash
    | exact swf_mapFilter (fun e => (e.1, ({ crash := e.2.crash } : FLog))) (fun _ => rfl) (fun e => !e.2.crash.isEmpty)
        (fun e h => by intro hc; simp [flogZero] at hc; simp [hc] at h) w.logs

theorem kept_haltNow {s0 s : State} (h : Kept s0 s) (src last extra : Nat) : Kept s0 (State.haltNow s src last extra) := by
  unfold State.haltNow
  repeat' with_reducible first
    | (extract_lets -underBinder +onlyGivenNames x; refine Kept.via (s := s0) x ?_ ?_; (on_goal 2 => (intro _; clear_value x)); (on_goal 1 => (subst x)))
    | (extract_lets -underBinder +onlyGivenNames x; clear_value x)
    | assumption | (apply kept_raiseX) | (apply kept_haltSend) | (refine Kept.ite ?_ ?_)

theorem kept_stage1 {s0 s : State} (h : Kept s0 s) (h : Nat) : Kept s0 (State.stage1 s h) := by
  unfold State.stage1
  repeat' with_reducible first
    | (extract_lets -underBinder +onlyGivenNames x; refine Kept.via (s := s0) x ?_ ?_; (on_goal 2 => (intro _; clear_value x)); (on_goal 1 => (subst x)))
    | (extract_lets -underBinder +onlyGivenNames x; refine Kept.viaP (s := s0) x ?_ ?_; (on_goal 2 => (intro _; clear_value x)); (on_goal 1 => (subst x)))
    | (extract_lets -underBinder +onlyGivenNames x; clear_value x)
    | (intro) | assumption | (apply kept_wr) | (apply kept_wb) | (apply kept_setUp) | (apply kept_raise) | (apply kept_setHoop) | (apply kept_coalCopy) | (apply kept_meet) | (apply kept_raiseAll) | (apply kept_hoopPages) | (apply kept_profileSelect) | (apply kept_reach) | (refine Kept.ite ?_ ?_) | (refine Kept.foldl _ ?_ ?_) | (refine Kept.foldlP _ ?_ ?_) | (split) | (refine Kept.upd ?_ rfl) | (dsimp -zeta only)

theorem kept_putStaging {s0 s : State} (h : Kept s0 s) (h w v : Nat) : Kept s0 (State.putStaging s h w v) := by
  unfold State.putStaging
  repeat' with_reducible first
    | (extract_lets -underBinder +onlyGivenNames x; refine Kept.via (s := s0) x ?_ ?_; (on_goal 2 => (intro _; clear_value x)); (on_goal 1 => (subst x)))
    | (extract_lets -underBinder +onlyGivenNames x; clear_value x)
    | assumption | (refine Kept.upd ?_ rfl)

theorem kept_profLoad {s0 s : State} (h : Kept s0 s) (h : Nat) : Kept s0 (State.profLoad s h) := by
  unfold State.profLoad
  repeat' with_reducible first
    | (intro) | assumption | (apply kept_putStaging) | (refine Kept.foldl _ ?_ ?_) | (refine Kept.foldlP _ ?_ ?_) | (dsimp -zeta only)

theorem kept_saveErr {s0 s : State} (h : Kept s0 s) (h : Nat) : Kept s0 (State.saveErr s h) := by
  unfold State.saveErr
  repeat' with_reducible first
    | assumption | (apply kept_wb) | (apply kept_raise)

theorem kept_profSave {s0 s : State} (h : Kept s0 s) (h : Nat) : Kept s0 (State.profSave s h) := by
  unfold State.profSave
  repeat' with_reducible first
    | (extract_lets -underBinder +onlyGivenNames x; refine Kept.via (s := s0) x ?_ ?_; (on_goal 2 => (intro _; clear_value x)); (on_goal 1 => (subst x)))
    | (extract_lets -underBinder +onlyGivenNames x; clear_value x)
    | assumption | (apply kept_wb) | (apply kept_nvRefuse) | (apply kept_saveErr) | (refine Kept.ite ?_ ?_) | (split) | (refine Kept.upd ?_ rfl)

theorem kept_tagSave {s0 s : State} (h : Kept s0 s)  : Kept s0 (State.tagSave s) := by
  unfold State.tagSave
  repeat' with_reducible first
    | (extract_lets -underBinder +onlyGivenNames x; refine Kept.via (s := s0) x ?_ ?_; (on_goal 2 => (intro _; clear_value x)); (on_goal 1 => (subst x)))
    | (extract_lets -underBinder +onlyGivenNames x; clear_value x)
    | (intro) | assumption | (apply kept_wb) | (apply kept_raise) | (apply kept_nvRefuse) | (refine Kept.ite ?_ ?_) | (split) | (refine Kept.upd ?_ rfl)

theorem kept_setLevel {s0 s : State} (h : Kept s0 s) (h v : Nat) : Kept s0 (State.setLevel s h v) := by
  unfold State.setLevel
  repeat' with_reducible first
    | (extract_lets -underBinder +onlyGivenNames x; refine Kept.via (s := s0) x ?_ ?_; (on_goal 2 => (intro _; clear_value x)); (on_goal 1 => (subst x)))
    | (extract_lets -underBinder +onlyGivenNames x; clear_value x)
    | assumption | (apply kept_wr) | (apply kept_raise) | (refine Kept.ite ?_ ?_)

theorem kept_keyProgram {s0 s : State} (h : Kept s0 s) (h : Nat) (ok : Bool) : Kept s0 (State.keyProgram s h ok) := by
  unfold State.keyProgram
  repeat' with_reducible first
    | (extract_lets -underBinder +onlyGivenNames x; refine Kept.via (s := s0) x ?_ ?_; (on_goal 2 => (intro _; clear_value x)); (on_goal 1 => (subst x)))
    | (extract_lets -underBinder +onlyGivenNames x; clear_value x)
    | assumption | (apply kept_wr) | (apply kept_raise) | (apply kept_setFlash) | (apply kept_nvRefuse) | (refine Kept.ite ?_ ?_) | (split) | (refine Kept.upd ?_ rfl)

theorem kept_keyRevoke {s0 s : State} (h : Kept s0 s) (h v : Nat) (ok : Bool) : Kept s0 (State.keyRevoke s h v ok) := by
  unfold State.keyRevoke
  repeat' with_reducible first
    | (extract_lets -underBinder +onlyGivenNames x; refine Kept.via (s := s0) x ?_ ?_; (on_goal 2 => (intro _; clear_value x)); (on_goal 1 => (subst x)))
    | (extract_lets -underBinder +onlyGivenNames x; clear_value x)
    | assumption | (apply kept_wr) | (apply kept_raise) | (apply kept_setFlash) | (apply kept_nvRefuse) | (refine Kept.ite ?_ ?_) | (split) | (refine Kept.upd ?_ rfl)

theorem kept_scrub {s0 s : State} (h : Kept s0 s)  : Kept s0 (State.scrub s) := by
  have h1 := Kept.hbm (x := []) h (fun _ => rfl)
  have h2 := Kept.cbuf (x := []) h1 (fun _ => rfl)
  have h3 := Kept.tiles h2 (fun w => swf_mapFilter (fun e => (e.1, { e.2 with mem := [], memPoi := [], acc := [], imem := [] }))
    (fun _ => rfl) (fun e => decide (e.2 ≠ Tile.reset)) (fun _ h => of_decide_eq_true h) w)
  exact Kept.subs h3 (fun w => swf_mapFilter (fun e => (e.1, { e.2 with pool := [], replay := [] })) (fun _ => rfl)
    (fun e => decide (e.2 ≠ ({} : SubLink))) (fun _ h => of_decide_eq_true h) w)

theorem kept_lifeTo {s0 s : State} (h : Kept s0 s) (h v : Nat) (ok0 ok1 : Bool) : Kept s0 (State.lifeTo s h v ok0 ok1) := by
  unfold State.lifeTo
  repeat' with_reducible first
    | (extract_lets -underBinder +onlyGivenNames x; refine Kept.via (s := s0) x ?_ ?_; (on_goal 2 => (intro _; clear_value x)); (on_goal 1 => (subst x)))
    | (extract_lets -underBinder +onlyGivenNames x; refine Kept.fn x ?_; subst x)
    | (extract_lets -underBinder +onlyGivenNames x; clear_value x)
    | (intro) | assumption | (apply kept_wr) | (apply kept_raise) | (apply kept_setFlash) | (apply kept_setFlog) | (apply kept_showValid) | (apply kept_scrub) | (refine Kept.ite ?_ ?_) | (refine Kept.foldl _ ?_ ?_) | (split) | (refine Kept.upd ?_ rfl)

theorem kept_dbgFail {s0 s : State} (h : Kept s0 s) (h : Nat) : Kept s0 (State.dbgFail s h) := by
  unfold State.dbgFail
  repeat' with_reducible first
    | assumption | (apply kept_wb)

theorem kept_newNonce {s0 s : State} (h : Kept s0 s) (h : Nat) : Kept s0 (State.newNonce s h) := by
  unfold State.newNonce
  repeat' with_reducible first
    | (extract_lets -underBinder +onlyGivenNames x; refine Kept.via (s := s0) x ?_ ?_; (on_goal 2 => (intro _; clear_value x)); (on_goal 1 => (subst x)))
    | (extract_lets -underBinder +onlyGivenNames x; clear_value x)
    | (intro) | assumption | (apply kept_wr) | (refine Kept.foldl _ ?_ ?_) | (refine Kept.upd ?_ rfl)

theorem kept_authFail {s0 s : State} (h : Kept s0 s) (h : Nat) : Kept s0 (State.authFail s h) := by
  unfold State.authFail
  repeat' with_reducible first
    | (extract_lets -underBinder +onlyGivenNames x; refine Kept.via (s := s0) x ?_ ?_; (on_goal 2 => (intro _; clear_value x)); (on_goal 1 => (subst x)))
    | (extract_lets -underBinder +onlyGivenNames x; clear_value x)
    | assumption | (apply kept_raise) | (refine Kept.upd ?_ rfl)

theorem kept_lifeReq {s0 s : State} (h : Kept s0 s) (h v : Nat) (owner ok0 ok1 : Bool) : Kept s0 (State.lifeReq s h v owner ok0 ok1) := by
  unfold State.lifeReq
  repeat' with_reducible first
    | (extract_lets -underBinder +onlyGivenNames x; refine Kept.via (s := s0) x ?_ ?_; (on_goal 2 => (intro _; clear_value x)); (on_goal 1 => (subst x)))
    | (extract_lets -underBinder +onlyGivenNames x; refine Kept.fn x ?_; subst x)
    | (extract_lets -underBinder +onlyGivenNames x; clear_value x)
    | assumption | (apply kept_nvRefuse) | (apply kept_lifeTo) | (apply kept_newNonce) | (apply kept_authFail) | (refine Kept.ite ?_ ?_)

theorem kept_scrubStart {s0 s : State} (h : Kept s0 s) (h v : Nat) : Kept s0 (State.scrubStart s h v) := by
  unfold State.scrubStart
  repeat' with_reducible first
    | (extract_lets -underBinder +onlyGivenNames x; refine Kept.via (s := s0) x ?_ ?_; (on_goal 2 => (intro _; clear_value x)); (on_goal 1 => (subst x)))
    | (extract_lets -underBinder +onlyGivenNames x; clear_value x)
    | assumption | (apply kept_wb) | (apply kept_dbgFail) | (refine Kept.ite ?_ ?_) | (split) | (refine Kept.upd ?_ rfl)

theorem kept_dbgReq {s0 s : State} (h : Kept s0 s) (h v : Nat) : Kept s0 (State.dbgReq s h v) := by
  unfold State.dbgReq
  repeat' with_reducible first
    | (extract_lets -underBinder +onlyGivenNames x; refine Kept.via (s := s0) x ?_ ?_; (on_goal 2 => (intro _; clear_value x)); (on_goal 1 => (subst x)))
    | (extract_lets -underBinder +onlyGivenNames x; clear_value x)
    | assumption | (apply kept_setLevel) | (apply kept_scrub) | (apply kept_dbgFail) | (apply kept_scrubStart) | (refine Kept.ite ?_ ?_) | (split) | (refine Kept.upd ?_ rfl) | (rename_i e; refine Kept.pair e ?_)

theorem kept_dbgResp {s0 s : State} (h : Kept s0 s) (h : Nat) (good : Bool) : Kept s0 (State.dbgResp s h good) := by
  unfold State.dbgResp
  repeat' with_reducible first
    | (extract_lets -underBinder +onlyGivenNames x; refine Kept.via (s := s0) x ?_ ?_; (on_goal 2 => (intro _; clear_value x)); (on_goal 1 => (subst x)))
    | (extract_lets -underBinder +onlyGivenNames x; clear_value x)
    | assumption | (apply kept_setLevel) | (apply kept_dbgFail) | (apply kept_newNonce) | (apply kept_authFail) | (apply kept_scrubStart) | (refine Kept.ite ?_ ?_) | (split) | (refine Kept.upd ?_ rfl)

end Sys2Proof.Machine
end

