-- ==== Sys2Proof/Laws/KeptRegs.lean ====
section
/-! SUPPORT. What the helpers of register access, soft reset, writes and commits keep. -/

namespace Sys2Proof.Machine

set_option linter.all false

theorem kept_plain {s0 s : State} (h : Kept s0 s) (p : Nat) (f : Fld) (v : Nat) : Kept s0 (State.plain s p f v) := by
  unfold State.plain
  repeat' with_reducible first
    | (extract_lets -underBinder +onlyGivenNames x; refine Kept.via (s := s0) x ?_ ?_; (on_goal 2 => (intro _; clear_value x)); (on_goal 1 => (subst x)))
    | (extract_lets -underBinder +onlyGivenNames x; clear_value x)
    | assumption | (apply kept_wr) | (split)

theorem kept_actOs {s0 s : State} (h : Kept s0 s) (p : Nat) (f : Fld) (v val : Nat) : Kept s0 (State.actOs s p f v val) := by
  unfold State.actOs
  repeat' with_reducible first
    | (extract_lets -underBinder +onlyGivenNames x; refine Kept.via (s := s0) x ?_ ?_; (on_goal 2 => (intro _; clear_value x)); (on_goal 1 => (subst x)))
    | (extract_lets -underBinder +onlyGivenNames x; clear_value x)
    | assumption | (apply kept_armWrite) | (apply kept_loadedWrite) | (apply kept_progStop) | (apply kept_tblWrite) | (apply kept_evtDoorbell) | (apply kept_osCntClr) | (apply kept_plain) | (refine Kept.ite ?_ ?_)

theorem kept_actTg {s0 s : State} (h : Kept s0 s) (p : Nat) (f : Fld) (v : Nat) : Kept s0 (State.actTg s p f v) := by
  unfold State.actTg
  repeat' with_reducible first
    | (extract_lets -underBinder +onlyGivenNames x; refine Kept.via (s := s0) x ?_ ?_; (on_goal 2 => (intro _; clear_value x)); (on_goal 1 => (subst x)))
    | (extract_lets -underBinder +onlyGivenNames x; clear_value x)
    | assumption | (apply kept_wr) | (apply kept_rowFollow) | (apply kept_zeroReq) | (apply kept_tgCntClr) | (apply kept_plain) | (refine Kept.ite ?_ ?_)

theorem kept_actMc {s0 s : State} (h : Kept s0 s) (p : Nat) (f : Fld) (v : Nat) : Kept s0 (State.actMc s p f v) := by
  unfold State.actMc
  repeat' with_reducible first
    | (extract_lets -underBinder +onlyGivenNames x; refine Kept.via (s := s0) x ?_ ?_; (on_goal 2 => (intro _; clear_value x)); (on_goal 1 => (subst x)))
    | (extract_lets -underBinder +onlyGivenNames x; clear_value x)
    | assumption | (apply kept_wr) | (apply kept_zero) | (apply kept_plain) | (refine Kept.ite ?_ ?_) | (split) | (refine Kept.upd ?_ rfl)

theorem kept_actSt {s0 s : State} (h : Kept s0 s) (p : Nat) (f : Fld) (v : Nat) : Kept s0 (State.actSt s p f v) := by
  unfold State.actSt
  repeat' with_reducible first
    | (extract_lets -underBinder +onlyGivenNames x; refine Kept.via (s := s0) x ?_ ?_; (on_goal 2 => (intro _; clear_value x)); (on_goal 1 => (subst x)))
    | (extract_lets -underBinder +onlyGivenNames x; refine Kept.viaP (s := s0) x ?_ ?_; (on_goal 2 => (intro _; clear_value x)); (on_goal 1 => (subst x)))
    | (extract_lets -underBinder +onlyGivenNames x; clear_value x)
    | assumption | (apply kept_wr) | (apply kept_zero) | (apply kept_setEng) | (apply kept_stakeWrite) | (apply kept_dlatAck) | (apply kept_plain) | (refine Kept.ite ?_ ?_) | (split) | (refine Kept.upd ?_ rfl) | (rename_i e; refine Kept.pair e ?_) | (dsimp -zeta only)

theorem kept_actCe {s0 s : State} (h : Kept s0 s) (p : Nat) (f : Fld) (v : Nat) (staged : Bool) : Kept s0 (State.actCe s p f v staged) := by
  unfold State.actCe
  repeat' with_reducible first
    | (extract_lets -underBinder +onlyGivenNames x; refine Kept.via (s := s0) x ?_ ?_; (on_goal 2 => (intro _; clear_value x)); (on_goal 1 => (subst x)))
    | (extract_lets -underBinder +onlyGivenNames x; refine Kept.viaP (s := s0) x ?_ ?_; (on_goal 2 => (intro _; clear_value x)); (on_goal 1 => (subst x)))
    | (extract_lets -underBinder +onlyGivenNames x; clear_value x)
    | assumption | (apply kept_wr) | (apply kept_zero) | (apply kept_setCe) | (apply kept_plain) | (refine Kept.ite ?_ ?_) | (split) | (refine Kept.upd ?_ rfl) | (dsimp -zeta only)

theorem kept_actWl {s0 s : State} (h : Kept s0 s) (p : Nat) (f : Fld) (v : Nat) : Kept s0 (State.actWl s p f v) := by
  unfold State.actWl
  repeat' with_reducible first
    | assumption | (apply kept_wr) | (apply kept_wlRetrain) | (apply kept_wlHoldReq) | (apply kept_repairWrite) | (apply kept_wlCntClr) | (apply kept_plain) | (refine Kept.ite ?_ ?_)

theorem kept_actTh {s0 s : State} (h : Kept s0 s) (p : Nat) (f : Fld) (v : Nat) : Kept s0 (State.actTh s p f v) := by
  unfold State.actTh
  repeat' with_reducible first
    | (extract_lets -underBinder +onlyGivenNames x; refine Kept.via (s := s0) x ?_ ?_; (on_goal 2 => (intro _; clear_value x)); (on_goal 1 => (subst x)))
    | (extract_lets -underBinder +onlyGivenNames x; clear_value x)
    | assumption | (apply kept_wr) | (apply kept_sendN) | (apply kept_safeEval) | (apply kept_forceSet) | (apply kept_forceClr) | (apply kept_safeClear) | (apply kept_drvLimit) | (apply kept_thCntClr) | (apply kept_plain) | (refine Kept.ite ?_ ?_)

theorem kept_actAge {s0 s : State} (h : Kept s0 s) (p : Nat) (f : Fld) (v : Nat) : Kept s0 (State.actAge s p f v) := by
  unfold State.actAge
  repeat' with_reducible first
    | (extract_lets -underBinder +onlyGivenNames x; refine Kept.via (s := s0) x ?_ ?_; (on_goal 2 => (intro _; clear_value x)); (on_goal 1 => (subst x)))
    | (extract_lets -underBinder +onlyGivenNames x; clear_value x)
    | assumption | (apply kept_setFit) | (apply kept_ageLogClr) | (apply kept_plain) | (refine Kept.ite ?_ ?_) | (split) | (refine Kept.upd ?_ rfl)

theorem kept_actWf {s0 s : State} (h : Kept s0 s) (p : Nat) (f : Fld) (v : Nat) (ue ce : Bool) : Kept s0 (State.actWf s p f v ue ce) := by
  unfold State.actWf
  repeat' with_reducible first
    | (extract_lets -underBinder +onlyGivenNames x; refine Kept.via (s := s0) x ?_ ?_; (on_goal 2 => (intro _; clear_value x)); (on_goal 1 => (subst x)))
    | (extract_lets -underBinder +onlyGivenNames x; clear_value x)
    | assumption | (apply kept_planeWrite) | (apply kept_calCommit) | (apply kept_plain) | (refine Kept.ite ?_ ?_) | (refine Kept.calSh ?_ (fun w => swf_put _ _ w)) | (split) | (refine Kept.upd ?_ rfl)

theorem kept_actFib {s0 s : State} (h : Kept s0 s) (p : Nat) (f : Fld) (v : Nat) : Kept s0 (State.actFib s p f v) := by
  unfold State.actFib
  repeat' with_reducible first
    | (extract_lets -underBinder +onlyGivenNames x; refine Kept.via (s := s0) x ?_ ?_; (on_goal 2 => (intro _; clear_value x)); (on_goal 1 => (subst x)))
    | (extract_lets -underBinder +onlyGivenNames x; clear_value x)
    | assumption | (apply kept_fibSlip) | (apply kept_reacq) | (apply kept_fibCntClr) | (apply kept_plain) | (refine Kept.ite ?_ ?_)

theorem kept_actSb {s0 s : State} (h : Kept s0 s) (p : Nat) (f : Fld) (v : Nat) : Kept s0 (State.actSb s p f v) := by
  unfold State.actSb
  repeat' with_reducible first
    | (extract_lets -underBinder +onlyGivenNames x; refine Kept.via (s := s0) x ?_ ?_; (on_goal 2 => (intro _; clear_value x)); (on_goal 1 => (subst x)))
    | (extract_lets -underBinder +onlyGivenNames x; clear_value x)
    | assumption | (apply kept_wr) | (apply kept_sbEnable) | (apply kept_sbCntClr) | (apply kept_plain) | (refine Kept.ite ?_ ?_)

theorem kept_actSbk {s0 s : State} (h : Kept s0 s) (p : Nat) (f : Fld) (v : Nat) : Kept s0 (State.actSbk s p f v) := by
  unfold State.actSbk
  repeat' with_reducible first
    | (extract_lets -underBinder +onlyGivenNames x; refine Kept.via (s := s0) x ?_ ?_; (on_goal 2 => (intro _; clear_value x)); (on_goal 1 => (subst x)))
    | (extract_lets -underBinder +onlyGivenNames x; clear_value x)
    | assumption | (apply kept_wr) | (apply kept_sbDarken) | (apply kept_sbWake) | (apply kept_sbDrain) | (apply kept_sbDrop) | (apply kept_sbAllow) | (apply kept_sbCntClr) | (apply kept_plain) | (refine Kept.ite ?_ ?_)

theorem kept_actRd {s0 s : State} (h : Kept s0 s) (p : Nat) (f : Fld) (v : Nat) : Kept s0 (State.actRd s p f v) := by
  unfold State.actRd
  repeat' with_reducible first
    | (extract_lets -underBinder +onlyGivenNames x; refine Kept.via (s := s0) x ?_ ?_; (on_goal 2 => (intro _; clear_value x)); (on_goal 1 => (subst x)))
    | (extract_lets -underBinder +onlyGivenNames x; clear_value x)
    | assumption | (apply kept_rdCommit) | (apply kept_laserOnWrite) | (apply kept_allOffWrite) | (apply kept_spareWrite) | (apply kept_recal) | (apply kept_plain) | (refine Kept.ite ?_ ?_)

theorem kept_actHp {s0 s : State} (h : Kept s0 s) (p : Nat) (f : Fld) (v : Nat) : Kept s0 (State.actHp s p f v) := by
  unfold State.actHp
  repeat' with_reducible first
    | (extract_lets -underBinder +onlyGivenNames x; refine Kept.via (s := s0) x ?_ ?_; (on_goal 2 => (intro _; clear_value x)); (on_goal 1 => (subst x)))
    | (extract_lets -underBinder +onlyGivenNames x; clear_value x)
    | assumption | (apply kept_wr) | (apply kept_leaseCmd) | (apply kept_wdogKick) | (apply kept_mirResync) | (apply kept_hpCntClr) | (apply kept_plain) | (refine Kept.ite ?_ ?_)

theorem kept_huabelNext {s0 s : State} (h : Kept s0 s) (h v : Nat) : Kept s0 (State.huabelNext s h v) := by
  unfold State.huabelNext
  repeat' with_reducible first
    | (extract_lets -underBinder +onlyGivenNames x; refine Kept.via (s := s0) x ?_ ?_; (on_goal 2 => (intro _; clear_value x)); (on_goal 1 => (subst x)))
    | (extract_lets -underBinder +onlyGivenNames x; clear_value x)
    | (intro) | assumption | (apply kept_wr) | (apply kept_setFlash) | (apply kept_nvRefuse) | (refine Kept.ite ?_ ?_) | (refine Kept.foldl _ ?_ ?_) | (split) | (refine Kept.upd ?_ rfl)

theorem kept_actPcie {s0 s : State} (h : Kept s0 s) (p : Nat) (f : Fld) (v : Nat) : Kept s0 (State.actPcie s p f v) := by
  unfold State.actPcie
  repeat' with_reducible first
    | (extract_lets -underBinder +onlyGivenNames x; refine Kept.via (s := s0) x ?_ ?_; (on_goal 2 => (intro _; clear_value x)); (on_goal 1 => (subst x)))
    | (extract_lets -underBinder +onlyGivenNames x; clear_value x)
    | assumption | (apply kept_dmaRestart) | (apply kept_dmaEnable) | (apply kept_pcieCntClr) | (apply kept_plain) | (apply kept_huabelNext) | (refine Kept.ite ?_ ?_)

theorem kept_actFault {s0 s : State} (h : Kept s0 s) (p : Nat) (f : Fld) (v : Nat) : Kept s0 (State.actFault s p f v) := by
  unfold State.actFault
  repeat' with_reducible first
    | (extract_lets -underBinder +onlyGivenNames x; refine Kept.via (s := s0) x ?_ ?_; (on_goal 2 => (intro _; clear_value x)); (on_goal 1 => (subst x)))
    | (extract_lets -underBinder +onlyGivenNames x; clear_value x)
    | assumption | (apply kept_wr) | (apply kept_ackWrite) | (apply kept_intClear) | (apply kept_pinClr) | (apply kept_logRdWrite) | (apply kept_coalWrite) | (apply kept_crashClear) | (apply kept_faultCntClr) | (apply kept_plain) | (refine Kept.ite ?_ ?_)

theorem kept_overrideWrite {s0 s : State} (h : Kept s0 s) (h val : Nat) : Kept s0 (State.overrideWrite s h val) := by
  unfold State.overrideWrite
  repeat' with_reducible first
    | (extract_lets -underBinder +onlyGivenNames x; refine Kept.via (s := s0) x ?_ ?_; (on_goal 2 => (intro _; clear_value x)); (on_goal 1 => (subst x)))
    | (extract_lets -underBinder +onlyGivenNames x; clear_value x)
    | assumption | (apply kept_wr) | (apply kept_setFlash) | (apply kept_nvRefuse) | (refine Kept.ite ?_ ?_) | (split) | (refine Kept.upd ?_ rfl)

theorem kept_actPr {s0 s : State} (h : Kept s0 s) (p : Nat) (f : Fld) (v val : Nat) : Kept s0 (State.actPr s p f v val) := by
  unfold State.actPr
  repeat' with_reducible first
    | (extract_lets -underBinder +onlyGivenNames x; refine Kept.via (s := s0) x ?_ ?_; (on_goal 2 => (intro _; clear_value x)); (on_goal 1 => (subst x)))
    | (extract_lets -underBinder +onlyGivenNames x; clear_value x)
    | assumption | (apply kept_putStaging) | (apply kept_profLoad) | (apply kept_profSave) | (apply kept_plain) | (apply kept_overrideWrite) | (refine Kept.ite ?_ ?_)

theorem kept_actSec {s0 s : State} (h : Kept s0 s) (p : Nat) (f : Fld) (off v : Nat) (x : WrX) : Kept s0 (State.actSec s p f off v x) := by
  unfold State.actSec
  repeat' with_reducible first
    | (extract_lets -underBinder +onlyGivenNames x; refine Kept.via (s := s0) x ?_ ?_; (on_goal 2 => (intro _; clear_value x)); (on_goal 1 => (subst x)))
    | (extract_lets -underBinder +onlyGivenNames x; clear_value x)
    | assumption | (apply kept_wr) | (apply kept_keyProgram) | (apply kept_keyRevoke) | (apply kept_lifeReq) | (apply kept_dbgReq) | (apply kept_dbgResp) | (apply kept_plain) | (refine Kept.ite ?_ ?_)

theorem kept_actSq {s0 s : State} (h : Kept s0 s) (p : Nat) (f : Fld) (v val : Nat) : Kept s0 (State.actSq s p f v val) := by
  unfold State.actSq
  repeat' with_reducible first
    | (extract_lets -underBinder +onlyGivenNames x; refine Kept.via (s := s0) x ?_ ?_; (on_goal 2 => (intro _; clear_value x)); (on_goal 1 => (subst x)))
    | (extract_lets -underBinder +onlyGivenNames x; clear_value x)
    | assumption | (apply kept_wr) | (apply kept_sqCons) | (apply kept_wmClear) | (apply kept_sqFlush) | (apply kept_sqResetWrite) | (apply kept_sqCntClr) | (apply kept_plain) | (refine Kept.ite ?_ ?_)

theorem kept_snapReq {s0 s : State} (h : Kept s0 s)  : Kept s0 (State.snapReq s) := by
  unfold State.snapReq
  repeat' with_reducible first
    | (extract_lets -underBinder +onlyGivenNames x; refine Kept.via (s := s0) x ?_ ?_; (on_goal 2 => (intro _; clear_value x)); (on_goal 1 => (subst x)))
    | (extract_lets -underBinder +onlyGivenNames x; clear_value x)
    | (intro) | assumption | (apply kept_wb) | (refine Kept.ite ?_ ?_) | (refine Kept.snaps ?_ (fun w => swf_put _ _ w)) | (split) | (refine Kept.upd ?_ rfl)

theorem kept_stageIdle {s0 s : State} (h : Kept s0 s)  : Kept s0 (State.stageIdle s) := by
  unfold State.stageIdle
  repeat' with_reducible first
    | assumption | (apply kept_zero)

theorem kept_stageFail {s0 s : State} (h : Kept s0 s) (die cause : Nat) : Kept s0 (State.stageFail s die cause) := by
  unfold State.stageFail
  repeat' with_reducible first
    | (extract_lets -underBinder +onlyGivenNames x; refine Kept.via (s := s0) x ?_ ?_; (on_goal 2 => (intro _; clear_value x)); (on_goal 1 => (subst x)))
    | (extract_lets -underBinder +onlyGivenNames x; clear_value x)
    | assumption | (apply kept_wr) | (apply kept_wb) | (apply kept_stageIdle) | (refine Kept.upd ?_ rfl)

theorem kept_stageCtrl {s0 s : State} (h : Kept s0 s) (opn commit : Bool) : Kept s0 (State.stageCtrl s opn commit) := by
  unfold State.stageCtrl
  repeat' with_reducible first
    | (extract_lets -underBinder +onlyGivenNames x; refine Kept.via (s := s0) x ?_ ?_; (on_goal 2 => (intro _; clear_value x)); (on_goal 1 => (subst x)))
    | (extract_lets -underBinder +onlyGivenNames x; clear_value x)
    | assumption | (apply kept_wr) | (apply kept_wb) | (apply kept_stageFail) | (refine Kept.ite ?_ ?_) | (split) | (refine Kept.upd ?_ rfl)

theorem kept_actPkg0 {s0 s : State} (h : Kept s0 s) (f : Fld) (v val : Nat) : Kept s0 (State.actPkg0 s f v val) := by
  unfold State.actPkg0
  repeat' with_reducible first
    | assumption | (apply kept_wr) | (apply kept_startGo) | (apply kept_plain) | (apply kept_snapReq) | (apply kept_stageCtrl) | (refine Kept.ite ?_ ?_)

theorem kept_actPkg1 {s0 s : State} (h : Kept s0 s) (f : Fld) (v : Nat) : Kept s0 (State.actPkg1 s f v) := by
  unfold State.actPkg1
  repeat' with_reducible first
    | assumption | (apply kept_tagSave) | (apply kept_plain) | (refine Kept.ite ?_ ?_)

theorem kept_actPkg2 {s0 s : State} (h : Kept s0 s) (f : Fld) (v : Nat) (staged : Bool) : Kept s0 (State.actPkg2 s f v staged) := by
  unfold State.actPkg2
  repeat' with_reducible first
    | assumption | (apply kept_wr) | (apply kept_wb) | (apply kept_timeArm) | (apply kept_breakWrite) | (apply kept_breakRelease) | (apply kept_stepCopy) | (apply kept_plain) | (refine Kept.ite ?_ ?_)

theorem kept_resetOs {s0 s : State} (h : Kept s0 s) (p : Nat) : Kept s0 (State.resetOs s p) := by
  unfold State.resetOs
  repeat' with_reducible first
    | (extract_lets -underBinder +onlyGivenNames x; refine Kept.via (s := s0) x ?_ ?_; (on_goal 2 => (intro _; clear_value x)); (on_goal 1 => (subst x)))
    | (extract_lets -underBinder +onlyGivenNames x; clear_value x)
    | assumption | (apply kept_resetRegs) | (apply kept_setOd) | (apply kept_toEmpty) | (refine Kept.upd ?_ rfl)

theorem kept_resetTg {s0 s : State} (h : Kept s0 s) (p : Nat) : Kept s0 (State.resetTg s p) := by
  unfold State.resetTg
  repeat' with_reducible first
    | (extract_lets -underBinder +onlyGivenNames x; refine Kept.via (s := s0) x ?_ ?_; (on_goal 2 => (intro _; clear_value x)); (on_goal 1 => (subst x)))
    | (extract_lets -underBinder +onlyGivenNames x; clear_value x)
    | (intro) | assumption | (apply kept_reset) | (apply kept_resetRegs) | (apply kept_setTile) | (refine Kept.foldl _ ?_ ?_)

theorem kept_resetMc {s0 s : State} (h : Kept s0 s) (p : Nat) : Kept s0 (State.resetMc s p) := by
  unfold State.resetMc
  repeat' with_reducible first
    | (extract_lets -underBinder +onlyGivenNames x; refine Kept.via (s := s0) x ?_ ?_; (on_goal 2 => (intro _; clear_value x)); (on_goal 1 => (subst x)))
    | (extract_lets -underBinder +onlyGivenNames x; clear_value x)
    | (intro) | assumption | (apply kept_resetRegs) | (refine Kept.ite ?_ ?_) | (split) | (refine Kept.upd ?_ rfl)

theorem kept_resetSt {s0 s : State} (h : Kept s0 s) (p : Nat) : Kept s0 (State.resetSt s p) := by
  unfold State.resetSt
  repeat' with_reducible first
    | (extract_lets -underBinder +onlyGivenNames x; refine Kept.via (s := s0) x ?_ ?_; (on_goal 2 => (intro _; clear_value x)); (on_goal 1 => (subst x)))
    | (extract_lets -underBinder +onlyGivenNames x; clear_value x)
    | (intro) | assumption | (apply kept_resetRegs) | (apply kept_setEng) | (apply kept_setAu) | (apply kept_borrowEnd) | (apply kept_engAbort) | (refine Kept.ite ?_ ?_) | (refine Kept.foldl _ ?_ ?_) | (split) | (refine Kept.upd ?_ rfl)

theorem kept_resetCe {s0 s : State} (h : Kept s0 s) (p : Nat) : Kept s0 (State.resetCe s p) := by
  unfold State.resetCe
  repeat' with_reducible first
    | (extract_lets -underBinder +onlyGivenNames x; refine Kept.via (s := s0) x ?_ ?_; (on_goal 2 => (intro _; clear_value x)); (on_goal 1 => (subst x)))
    | (extract_lets -underBinder +onlyGivenNames x; clear_value x)
    | assumption | (apply kept_resetRegs) | (apply kept_setCe) | (apply kept_ceAbort) | (refine Kept.upd ?_ rfl)

theorem kept_resetWl {s0 s : State} (h : Kept s0 s) (p : Nat) : Kept s0 (State.resetWl s p) := by
  unfold State.resetWl
  repeat' with_reducible first
    | (extract_lets -underBinder +onlyGivenNames x; refine Kept.via (s := s0) x ?_ ?_; (on_goal 2 => (intro _; clear_value x)); (on_goal 1 => (subst x)))
    | (extract_lets -underBinder +onlyGivenNames x; clear_value x)
    | assumption | (apply kept_resetRegs) | (apply kept_setWle) | (apply kept_wlOff) | (refine Kept.upd ?_ rfl)

theorem kept_resetTh {s0 s : State} (h : Kept s0 s) (p : Nat) : Kept s0 (State.resetTh s p) := by
  unfold State.resetTh
  repeat' with_reducible first
    | (extract_lets -underBinder +onlyGivenNames x; refine Kept.via (s := s0) x ?_ ?_; (on_goal 2 => (intro _; clear_value x)); (on_goal 1 => (subst x)))
    | (extract_lets -underBinder +onlyGivenNames x; clear_value x)
    | (intro) | assumption | (apply kept_wr) | (apply kept_resetRegs) | (apply kept_setSensor) | (apply kept_sendN) | (apply kept_safeEval) | (apply kept_profileHoop) | (refine Kept.ite ?_ ?_) | (refine Kept.foldl _ ?_ ?_) | (split) | (refine Kept.upd ?_ rfl)

theorem kept_resetAge {s0 s : State} (h : Kept s0 s) (p : Nat) : Kept s0 (State.resetAge s p) := by
  unfold State.resetAge
  repeat' with_reducible first
    | (extract_lets -underBinder +onlyGivenNames x; refine Kept.via (s := s0) x ?_ ?_; (on_goal 2 => (intro _; clear_value x)); (on_goal 1 => (subst x)))
    | (extract_lets -underBinder +onlyGivenNames x; clear_value x)
    | (intro) | assumption | (apply kept_resetRegs) | (apply kept_ageFit) | (refine Kept.foldl _ ?_ ?_) | (refine Kept.fits ?_ (fun w => swf_forgetIf _ w)) | (split) | (refine Kept.upd ?_ rfl)

theorem kept_startFibre {s0 s : State} (h : Kept s0 s) (w f : Nat) : Kept s0 (State.startFibre s w f) := by
  unfold State.startFibre
  repeat' with_reducible first
    | assumption | (apply kept_planeSet) | (refine Kept.ite ?_ ?_)

theorem kept_resetWf {s0 s : State} (h : Kept s0 s) (p : Nat) : Kept s0 (State.resetWf s p) := by
  unfold State.resetWf
  repeat' with_reducible first
    | (extract_lets -underBinder +onlyGivenNames x; refine Kept.via (s := s0) x ?_ ?_; (on_goal 2 => (intro _; clear_value x)); (on_goal 1 => (subst x)))
    | (extract_lets -underBinder +onlyGivenNames x; clear_value x)
    | (intro) | assumption | (apply kept_resetRegs) | (apply kept_setWf) | (apply kept_planeSet) | (refine Kept.ite ?_ ?_) | (refine Kept.foldl _ ?_ ?_) | (split) | (refine Kept.upd ?_ rfl)

theorem kept_resetFib {s0 s : State} (h : Kept s0 s) (p : Nat) : Kept s0 (State.resetFib s p) := by
  unfold State.resetFib
  repeat' with_reducible first
    | (extract_lets -underBinder +onlyGivenNames x; refine Kept.via (s := s0) x ?_ ?_; (on_goal 2 => (intro _; clear_value x)); (on_goal 1 => (subst x)))
    | (extract_lets -underBinder +onlyGivenNames x; clear_value x)
    | (intro) | assumption | (apply kept_resetRegs) | (apply kept_setLane) | (apply kept_setFibre) | (apply kept_planeSet) | (refine Kept.foldl _ ?_ ?_) | (refine Kept.upd ?_ rfl)

theorem kept_profileSeber {s0 s : State} (h : Kept s0 s) (w : Nat) : Kept s0 (State.profileSeber s w) := by
  unfold State.profileSeber
  repeat' with_reducible first
    | (extract_lets -underBinder +onlyGivenNames x; refine Kept.via (s := s0) x ?_ ?_; (on_goal 2 => (intro _; clear_value x)); (on_goal 1 => (subst x)))
    | (extract_lets -underBinder +onlyGivenNames x; clear_value x)
    | assumption | (apply kept_wr) | (apply kept_wb)

theorem kept_resetSb {s0 s : State} (h : Kept s0 s) (p : Nat) : Kept s0 (State.resetSb s p) := by
  unfold State.resetSb
  repeat' with_reducible first
    | (extract_lets -underBinder +onlyGivenNames x; refine Kept.via (s := s0) x ?_ ?_; (on_goal 2 => (intro _; clear_value x)); (on_goal 1 => (subst x)))
    | (extract_lets -underBinder +onlyGivenNames x; clear_value x)
    | (intro) | assumption | (apply kept_resetRegs) | (apply kept_sbDarken) | (apply kept_profileSeber) | (refine Kept.ite ?_ ?_) | (refine Kept.foldl _ ?_ ?_)

theorem kept_resetSbk {s0 s : State} (h : Kept s0 s) (p : Nat) : Kept s0 (State.resetSbk s p) := by
  unfold State.resetSbk
  repeat' with_reducible first
    | (extract_lets -underBinder +onlyGivenNames x; refine Kept.via (s := s0) x ?_ ?_; (on_goal 2 => (intro _; clear_value x)); (on_goal 1 => (subst x)))
    | (extract_lets -underBinder +onlyGivenNames x; clear_value x)
    | assumption | (apply kept_wr) | (apply kept_resetRegs) | (apply kept_setSub) | (apply kept_sbDarken) | (refine Kept.ite ?_ ?_) | (refine Kept.lanes ?_ (fun w => rfl)) | (split) | (refine Kept.upd ?_ rfl)

theorem kept_resetRd {s0 s : State} (h : Kept s0 s) (p : Nat) : Kept s0 (State.resetRd s p) := by
  unfold State.resetRd
  repeat' with_reducible first
    | (extract_lets -underBinder +onlyGivenNames x; refine Kept.via (s := s0) x ?_ ?_; (on_goal 2 => (intro _; clear_value x)); (on_goal 1 => (subst x)))
    | (extract_lets -underBinder +onlyGivenNames x; clear_value x)
    | (intro) | assumption | (apply kept_resetRegs) | (apply kept_setReed) | (apply kept_laserOff) | (refine Kept.ite ?_ ?_) | (refine Kept.foldl _ ?_ ?_) | (split) | (refine Kept.upd ?_ rfl)

theorem kept_resetRdl {s0 s : State} (h : Kept s0 s) (p : Nat) : Kept s0 (State.resetRdl s p) := by
  unfold State.resetRdl
  repeat' with_reducible first
    | (extract_lets -underBinder +onlyGivenNames x; refine Kept.via (s := s0) x ?_ ?_; (on_goal 2 => (intro _; clear_value x)); (on_goal 1 => (subst x)))
    | (extract_lets -underBinder +onlyGivenNames x; clear_value x)
    | assumption | (apply kept_resetRegs) | (apply kept_laserOff) | (refine Kept.ite ?_ ?_)

theorem kept_resetHp {s0 s : State} (h : Kept s0 s) (p : Nat) : Kept s0 (State.resetHp s p) := by
  unfold State.resetHp
  repeat' with_reducible first
    | (extract_lets -underBinder +onlyGivenNames x; refine Kept.via (s := s0) x ?_ ?_; (on_goal 2 => (intro _; clear_value x)); (on_goal 1 => (subst x)))
    | (extract_lets -underBinder +onlyGivenNames x; clear_value x)
    | assumption | (apply kept_resetRegs) | (apply kept_setHoop)

theorem kept_resetPcie {s0 s : State} (h : Kept s0 s) (p : Nat) : Kept s0 (State.resetPcie s p) := by
  unfold State.resetPcie
  repeat' with_reducible first
    | (extract_lets -underBinder +onlyGivenNames x; refine Kept.via (s := s0) x ?_ ?_; (on_goal 2 => (intro _; clear_value x)); (on_goal 1 => (subst x)))
    | (extract_lets -underBinder +onlyGivenNames x; clear_value x)
    | (intro) | assumption | (apply kept_resetRegs) | (apply kept_dmaStop) | (refine Kept.foldl _ ?_ ?_)

theorem kept_resetFault {s0 s : State} (h : Kept s0 s) (p : Nat) : Kept s0 (State.resetFault s p) := by
  unfold State.resetFault
  repeat' with_reducible first
    | assumption | (apply kept_resetRegs) | (apply kept_coalCopy)

theorem kept_resetPr {s0 s : State} (h : Kept s0 s) (p : Nat) : Kept s0 (State.resetPr s p) := by
  unfold State.resetPr
  repeat' with_reducible first
    | (extract_lets -underBinder +onlyGivenNames x; refine Kept.via (s := s0) x ?_ ?_; (on_goal 2 => (intro _; clear_value x)); (on_goal 1 => (subst x)))
    | (extract_lets -underBinder +onlyGivenNames x; clear_value x)
    | (intro) | assumption | (apply kept_resetRegs) | (refine Kept.upd ?_ rfl)

theorem kept_resetSec {s0 s : State} (h : Kept s0 s) (p : Nat) : Kept s0 (State.resetSec s p) := by
  unfold State.resetSec
  repeat' with_reducible first
    | (extract_lets -underBinder +onlyGivenNames x; refine Kept.via (s := s0) x ?_ ?_; (on_goal 2 => (intro _; clear_value x)); (on_goal 1 => (subst x)))
    | (extract_lets -underBinder +onlyGivenNames x; clear_value x)
    | assumption | (apply kept_resetRegs) | (apply kept_newNonce) | (refine Kept.ite ?_ ?_) | (split) | (refine Kept.upd ?_ rfl)

theorem kept_resetPkg0 {s0 s : State} (h : Kept s0 s)  : Kept s0 (State.resetPkg0 s) := by
  unfold State.resetPkg0
  repeat' with_reducible first
    | (extract_lets -underBinder +onlyGivenNames x; refine Kept.via (s := s0) x ?_ ?_; (on_goal 2 => (intro _; clear_value x)); (on_goal 1 => (subst x)))
    | (extract_lets -underBinder +onlyGivenNames x; clear_value x)
    | assumption | (apply kept_resetRegs) | (apply kept_stageFail) | (refine Kept.ite ?_ ?_)

theorem kept_tagLoad {s0 s : State} (h : Kept s0 s) (h : Nat) : Kept s0 (State.tagLoad s h) := by
  unfold State.tagLoad
  repeat' with_reducible first
    | (intro) | assumption | (apply kept_wr) | (refine Kept.foldl _ ?_ ?_)

theorem kept_resetPkg2 {s0 s : State} (h : Kept s0 s)  : Kept s0 (State.resetPkg2 s) := by
  unfold State.resetPkg2
  repeat' with_reducible first
    | assumption | (apply kept_resetRegs) | (apply kept_breakRelease)

theorem kept_resetBlock {s0 s : State} (h : Kept s0 s) (p : Nat) (b : Blk) : Kept s0 (State.resetBlock s p b) := by
  unfold State.resetBlock
  repeat' with_reducible first
    | (extract_lets -underBinder +onlyGivenNames x; refine Kept.via (s := s0) x ?_ ?_; (on_goal 2 => (intro _; clear_value x)); (on_goal 1 => (subst x)))
    | (extract_lets -underBinder +onlyGivenNames x; clear_value x)
    | assumption | (apply kept_resetRegs) | (apply kept_progStop) | (apply kept_sqReset) | (apply kept_resetTg) | (apply kept_resetMc) | (apply kept_resetSt) | (apply kept_resetCe) | (apply kept_resetWl) | (apply kept_resetTh) | (apply kept_resetAge) | (apply kept_resetWf) | (apply kept_resetFib) | (apply kept_resetSb) | (apply kept_resetSbk) | (apply kept_resetRd) | (apply kept_resetRdl) | (apply kept_resetHp) | (apply kept_resetPcie) | (apply kept_resetFault) | (apply kept_resetPr) | (apply kept_resetSec) | (apply kept_tagLoad) | (apply kept_resetPkg2) | (refine Kept.ite ?_ ?_) | (split)

theorem kept_softReset {s0 s : State} (h : Kept s0 s) (p : Nat) (b : Blk) : Kept s0 (State.softReset s p b) := by
  unfold State.softReset
  repeat' with_reducible first
    | (extract_lets -underBinder +onlyGivenNames x; refine Kept.via (s := s0) x ?_ ?_; (on_goal 2 => (intro _; clear_value x)); (on_goal 1 => (subst x)))
    | (extract_lets -underBinder +onlyGivenNames x; clear_value x)
    | assumption | (apply kept_wb) | (apply kept_setUp) | (apply kept_resetBlock) | (refine Kept.ite ?_ ?_)

theorem kept_restartBlock {s0 s : State} (h : Kept s0 s) (p : Nat) (b : Blk) : Kept s0 (State.restartBlock s p b) := by
  unfold State.restartBlock
  repeat' with_reducible first
    | (extract_lets -underBinder +onlyGivenNames x; refine Kept.via (s := s0) x ?_ ?_; (on_goal 2 => (intro _; clear_value x)); (on_goal 1 => (subst x)))
    | (extract_lets -underBinder +onlyGivenNames x; clear_value x)
    | assumption | (apply kept_wlEnable) | (apply kept_sbWake) | (apply kept_sbEnable) | (apply kept_planeWrite) | (apply kept_laserWant) | (apply kept_light) | (apply kept_startFibre) | (refine Kept.ite ?_ ?_) | (split)

theorem kept_blockUp {s0 s : State} (h : Kept s0 s) (p : Nat) (b : Blk) : Kept s0 (State.blockUp s p b) := by
  unfold State.blockUp
  repeat' with_reducible first
    | assumption | (apply kept_setUp) | (apply kept_restartBlock)

theorem kept_softDone {s0 s : State} (h : Kept s0 s) (p : Nat) (b : Blk) : Kept s0 (State.softDone s p b) := by
  unfold State.softDone
  repeat' with_reducible first
    | (extract_lets -underBinder +onlyGivenNames x; refine Kept.via (s := s0) x ?_ ?_; (on_goal 2 => (intro _; clear_value x)); (on_goal 1 => (subst x)))
    | (extract_lets -underBinder +onlyGivenNames x; clear_value x)
    | assumption | (apply kept_wb) | (apply kept_setUp) | (apply kept_resetOs) | (apply kept_resetPkg0) | (apply kept_blockUp) | (refine Kept.ite ?_ ?_) | (split)

theorem kept_enableWrite {s0 s : State} (h : Kept s0 s) (p : Nat) (b : Blk) (v : Nat) : Kept s0 (State.enableWrite s p b v) := by
  unfold State.enableWrite
  repeat' with_reducible first
    | (extract_lets -underBinder +onlyGivenNames x; refine Kept.via (s := s0) x ?_ ?_; (on_goal 2 => (intro _; clear_value x)); (on_goal 1 => (subst x)))
    | (extract_lets -underBinder +onlyGivenNames x; clear_value x)
    | assumption | (apply kept_wr) | (apply kept_wlEnable) | (apply kept_wlOff) | (apply kept_blockUp) | (refine Kept.ite ?_ ?_)

theorem kept_actHdr {s0 s : State} (h : Kept s0 s) (p : Nat) (b : Blk) (f : Fld) (v : Nat) : Kept s0 (State.actHdr s p b f v) := by
  unfold State.actHdr
  repeat' with_reducible first
    | assumption | (apply kept_wr) | (apply kept_wb) | (apply kept_fstatClear) | (apply kept_plain) | (apply kept_softReset) | (apply kept_enableWrite) | (refine Kept.ite ?_ ?_)

theorem kept_fieldAct {s0 s : State} (h : Kept s0 s) (p : Nat) (b : Blk) (f : Fld) (off val v : Nat) (x : WrX) : Kept s0 (State.fieldAct s p b f off val v x) := by
  unfold State.fieldAct
  repeat' with_reducible first
    | (extract_lets -underBinder +onlyGivenNames x; refine Kept.via (s := s0) x ?_ ?_; (on_goal 2 => (intro _; clear_value x)); (on_goal 1 => (subst x)))
    | (extract_lets -underBinder +onlyGivenNames x; clear_value x)
    | assumption | (apply kept_actOs) | (apply kept_actTg) | (apply kept_actMc) | (apply kept_actSt) | (apply kept_actCe) | (apply kept_actWl) | (apply kept_actTh) | (apply kept_actAge) | (apply kept_actWf) | (apply kept_actFib) | (apply kept_actSb) | (apply kept_actSbk) | (apply kept_actRd) | (apply kept_actHp) | (apply kept_actPcie) | (apply kept_actFault) | (apply kept_actPr) | (apply kept_actSec) | (apply kept_actSq) | (apply kept_actPkg0) | (apply kept_actPkg1) | (apply kept_actPkg2) | (apply kept_actHdr) | (refine Kept.ite ?_ ?_) | (split)

theorem kept_wordAct {s0 s : State} (h : Kept s0 s) (p : Nat) (b : Blk) (fs : List Fld) (off val be epoch : Nat) (x : WrX) : Kept s0 (State.wordAct s p b fs off val be epoch x) := by
  unfold State.wordAct
  repeat' with_reducible first
    | (extract_lets -underBinder +onlyGivenNames x; refine Kept.via (s := s0) x ?_ ?_; (on_goal 2 => (intro _; clear_value x)); (on_goal 1 => (subst x)))
    | (extract_lets -underBinder +onlyGivenNames x; refine Kept.viaP (s := s0) x ?_ ?_; (on_goal 2 => (intro _; clear_value x)); (on_goal 1 => (subst x)))
    | (extract_lets -underBinder +onlyGivenNames x; clear_value x)
    | (intro) | assumption | (apply kept_epochUp) | (apply kept_fieldAct) | (refine Kept.ite ?_ ?_) | (refine Kept.foldl _ ?_ ?_) | (refine Kept.foldlP _ ?_ ?_) | (dsimp -zeta only)

theorem kept_stageIn {s0 s : State} (h : Kept s0 s) (p off val epoch : Nat) : Kept s0 (State.stageIn s p off val epoch) := by
  unfold State.stageIn
  repeat' with_reducible first
    | (extract_lets -underBinder +onlyGivenNames x; refine Kept.via (s := s0) x ?_ ?_; (on_goal 2 => (intro _; clear_value x)); (on_goal 1 => (subst x)))
    | (extract_lets -underBinder +onlyGivenNames x; clear_value x)
    | assumption | (apply kept_wb) | (apply kept_setPage) | (refine Kept.ite ?_ ?_) | (split) | (refine Kept.upd ?_ rfl)

theorem kept_saveBarred {s0 s : State} (h : Kept s0 s) (p off val cause : Nat) : Kept s0 (State.saveBarred s p off val cause) := by
  unfold State.saveBarred
  repeat' with_reducible first
    | assumption | (apply kept_saveErr) | (refine Kept.ite ?_ ?_)

theorem kept_pageWrite {s0 s : State} (h : Kept s0 s) (p off val be epoch : Nat) (own : Bool) (x : WrX) : Kept s0 (State.pageWrite s p off val be epoch own x) := by
  unfold State.pageWrite
  repeat' with_reducible first
    | (extract_lets -underBinder +onlyGivenNames x; refine Kept.via (s := s0) x ?_ ?_; (on_goal 2 => (intro _; clear_value x)); (on_goal 1 => (subst x)))
    | (extract_lets -underBinder +onlyGivenNames x; clear_value x)
    | (intro) | assumption | (apply kept_reject) | (apply kept_wordAct) | (apply kept_stageIn) | (apply kept_saveBarred) | (refine Kept.ite ?_ ?_) | (split)

theorem kept_deliver {s0 s : State} (h : Kept s0 s) (h p off val be epoch : Nat) (x : WrX) : Kept s0 (State.deliver s h p off val be epoch x) := by
  unfold State.deliver
  repeat' with_reducible first
    | (extract_lets -underBinder +onlyGivenNames x; refine Kept.via (s := s0) x ?_ ?_; (on_goal 2 => (intro _; clear_value x)); (on_goal 1 => (subst x)))
    | (extract_lets -underBinder +onlyGivenNames x; clear_value x)
    | assumption | (apply kept_meetEpoch) | (apply kept_pageWrite) | (refine Kept.ite ?_ ?_)

theorem kept_dropStage {s0 s : State} (h : Kept s0 s) (d : Nat) : Kept s0 (State.dropStage s d) := by
  unfold State.dropStage
  repeat' with_reducible first
    | (extract_lets -underBinder +onlyGivenNames x; refine Kept.via (s := s0) x ?_ ?_; (on_goal 2 => (intro _; clear_value x)); (on_goal 1 => (subst x)))
    | (extract_lets -underBinder +onlyGivenNames x; refine Kept.viaP (s := s0) x ?_ ?_; (on_goal 2 => (intro _; clear_value x)); (on_goal 1 => (subst x)))
    | (extract_lets -underBinder +onlyGivenNames x; clear_value x)
    | (intro) | assumption | (apply kept_wb) | (apply kept_setPage) | (refine Kept.foldl _ ?_ ?_) | (refine Kept.foldlP _ ?_ ?_) | (refine Kept.upd ?_ rfl) | (dsimp -zeta only)

theorem kept_prepare {s0 s : State} (h : Kept s0 s) (d : Nat) : Kept s0 (State.prepare s d) := by
  unfold State.prepare
  repeat' with_reducible first
    | (extract_lets -underBinder +onlyGivenNames x; refine Kept.via (s := s0) x ?_ ?_; (on_goal 2 => (intro _; clear_value x)); (on_goal 1 => (subst x)))
    | (extract_lets -underBinder +onlyGivenNames x; refine Kept.viaP (s := s0) x ?_ ?_; (on_goal 2 => (intro _; clear_value x)); (on_goal 1 => (subst x)))
    | (extract_lets -underBinder +onlyGivenNames x; clear_value x)
    | (intro) | assumption | (refine Kept.ite ?_ ?_) | (split) | (refine Kept.upd ?_ rfl) | (dsimp -zeta only)

theorem kept_discardIn {s0 s : State} (h : Kept s0 s) (d : Nat) : Kept s0 (State.discardIn s d) := by
  unfold State.discardIn
  repeat' with_reducible first
    | assumption | (apply kept_dropStage) | (apply kept_prepare) | (refine Kept.ite ?_ ?_)

theorem kept_inOrder {s0 s : State} (h : Kept s0 s) (h d : Nat) : Kept s0 (State.inOrder s h d) := by
  unfold State.inOrder
  repeat' with_reducible first
    | (extract_lets -underBinder +onlyGivenNames x; refine Kept.via (s := s0) x ?_ ?_; (on_goal 2 => (intro _; clear_value x)); (on_goal 1 => (subst x)))
    | (extract_lets -underBinder +onlyGivenNames x; clear_value x)
    | assumption | (apply kept_prepare) | (apply kept_discardIn) | (refine Kept.ite ?_ ?_)

theorem kept_hostWrite {s0 s : State} (h : Kept s0 s) (h p off val be : Nat) (x : WrX) : Kept s0 (State.hostWrite s h p off val be x) := by
  unfold State.hostWrite
  repeat' with_reducible first
    | (extract_lets -underBinder +onlyGivenNames x; refine Kept.via (s := s0) x ?_ ?_; (on_goal 2 => (intro _; clear_value x)); (on_goal 1 => (subst x)))
    | (extract_lets -underBinder +onlyGivenNames x; clear_value x)
    | assumption | (apply kept_deliver) | (apply kept_inOrder) | (refine Kept.ite ?_ ?_)

theorem kept_busRead {s0 s : State} (h : Kept s0 s) (h p off : Nat) : Kept s0 (State.busRead s h p off).1 := by
  unfold State.busRead
  repeat' with_reducible first
    | (extract_lets -underBinder +onlyGivenNames x; refine Kept.via (s := s0) x ?_ ?_; (on_goal 2 => (intro _; clear_value x)); (on_goal 1 => (subst x)))
    | (extract_lets -underBinder +onlyGivenNames x; clear_value x)
    | (intro) | assumption | (apply kept_setPage) | (refine Kept.ite ?_ ?_) | (refine Kept.pairIte ?_ ?_) | (refine Kept.foldl _ ?_ ?_) | (split) | (rename_i e; refine Kept.pair e ?_) | (dsimp -zeta only)

theorem kept_logUe {s0 s : State} (h : Kept s0 s) (h p off : Nat) (ue : Bool) : Kept s0 (State.logUe s h p off ue) := by
  unfold State.logUe
  repeat' with_reducible first
    | (extract_lets -underBinder +onlyGivenNames x; refine Kept.via (s := s0) x ?_ ?_; (on_goal 2 => (intro _; clear_value x)); (on_goal 1 => (subst x)))
    | (extract_lets -underBinder +onlyGivenNames x; clear_value x)
    | assumption | (apply kept_setPage) | (apply kept_raise) | (refine Kept.ite ?_ ?_) | (split)

theorem kept_hostRead {s0 s : State} (h : Kept s0 s) (h p at' len : Nat) (ue : Bool) : Kept s0 (State.hostRead s h p at' len ue) := by
  unfold State.hostRead
  repeat' with_reducible first
    | (extract_lets -underBinder +onlyGivenNames x; refine Kept.via (s := s0) x ?_ ?_; (on_goal 2 => (intro _; clear_value x)); (on_goal 1 => (subst x)))
    | (extract_lets -underBinder +onlyGivenNames x; refine Kept.viaP (s := s0) x ?_ ?_; (on_goal 2 => (intro _; clear_value x)); (on_goal 1 => (subst x)))
    | (extract_lets -underBinder +onlyGivenNames x; clear_value x)
    | assumption | (apply kept_complete) | (apply kept_inOrder) | (apply kept_busRead) | (apply kept_logUe) | (refine Kept.ite ?_ ?_) | (dsimp -zeta only)

theorem kept_takeFrame {s0 s : State} (h : Kept s0 s) (f : TwFrame) : Kept s0 (State.takeFrame s f) := by
  unfold State.takeFrame
  repeat' with_reducible first
    | (extract_lets -underBinder +onlyGivenNames x; refine Kept.via (s := s0) x ?_ ?_; (on_goal 2 => (intro _; clear_value x)); (on_goal 1 => (subst x)))
    | (extract_lets -underBinder +onlyGivenNames x; refine Kept.viaP (s := s0) x ?_ ?_; (on_goal 2 => (intro _; clear_value x)); (on_goal 1 => (subst x)))
    | (extract_lets -underBinder +onlyGivenNames x; clear_value x)
    | assumption | (apply kept_deliver) | (apply kept_inOrder) | (apply kept_busRead) | (refine Kept.ite ?_ ?_) | (split) | (refine Kept.upd ?_ rfl) | (dsimp -zeta only)

theorem kept_drainPair {s0 s : State} (h : Kept s0 s) (key : Nat) (n : Nat) : Kept s0 (State.drainPair s key n) := by
  induction n generalizing s with
  | zero => assumption
  | succ _ ih =>
  unfold State.drainPair
  repeat' with_reducible first
    | (extract_lets -underBinder +onlyGivenNames x; refine Kept.via (s := s0) x ?_ ?_; (on_goal 2 => (intro _; clear_value x)); (on_goal 1 => (subst x)))
    | (extract_lets -underBinder +onlyGivenNames x; clear_value x)
    | (intro) | assumption | (apply kept_takeFrame) | (apply ih) | (split) | (refine Kept.upd ?_ rfl)

theorem kept_frame {s0 s : State} (h : Kept s0 s) (f : TwFrame) (typ : Nat) : Kept s0 (State.frame s f typ) := by
  unfold State.frame
  repeat' with_reducible first
    | (extract_lets -underBinder +onlyGivenNames x; refine Kept.via (s := s0) x ?_ ?_; (on_goal 2 => (intro _; clear_value x)); (on_goal 1 => (subst x)))
    | (extract_lets -underBinder +onlyGivenNames x; clear_value x)
    | (intro) | assumption | (apply kept_drainPair) | (refine Kept.ite ?_ ?_) | (refine Kept.foldl _ ?_ ?_) | (split) | (refine Kept.upd ?_ rfl)

theorem kept_dmaComplete {s0 s : State} (h : Kept s0 s) (h c : Nat) (data : List Byte) (poi : Bool) (err moved : Nat) (hits : List EccHit) (stk : Option Bool) : Kept s0 (State.dmaComplete s h c data poi err moved hits stk) := by
  unfold State.dmaComplete
  repeat' with_reducible first
    | (extract_lets -underBinder +onlyGivenNames x; refine Kept.via (s := s0) x ?_ ?_; (on_goal 2 => (intro _; clear_value x)); (on_goal 1 => (subst x)))
    | (extract_lets -underBinder +onlyGivenNames x; refine Kept.viaP (s := s0) x ?_ ?_; (on_goal 2 => (intro _; clear_value x)); (on_goal 1 => (subst x)))
    | (extract_lets -underBinder +onlyGivenNames x; clear_value x)
    | (intro) | assumption | (apply kept_addWrap) | (apply kept_raise) | (apply kept_hostRun) | (apply kept_setDma) | (apply kept_dmaStop) | (apply kept_sqCons) | (apply kept_dmaRecord) | (apply kept_hostWrite) | (refine Kept.ite ?_ ?_) | (refine Kept.foldl _ ?_ ?_) | (refine Kept.foldlP _ ?_ ?_) | (split) | (refine Kept.upd ?_ rfl) | (dsimp -zeta only)

theorem kept_rowWrite {s0 s : State} (h : Kept s0 s) (hoop page : Nat) (b : Blk) (off val : Nat) (x : WrX) : Kept s0 (State.rowWrite s hoop page b off val x) := by
  unfold State.rowWrite
  repeat' with_reducible first
    | assumption | (apply kept_hostWrite) | (refine Kept.ite ?_ ?_)

theorem kept_latchDie {s0 s : State} (h : Kept s0 s) (d seq : Nat) (late : Bool) : Kept s0 (State.latchDie s d seq late) := by
  unfold State.latchDie
  repeat' with_reducible first
    | (extract_lets -underBinder +onlyGivenNames x; refine Kept.via (s := s0) x ?_ ?_; (on_goal 2 => (intro _; clear_value x)); (on_goal 1 => (subst x)))
    | (extract_lets -underBinder +onlyGivenNames x; clear_value x)
    | (intro) | assumption | (apply kept_wr) | (apply kept_wb) | (apply kept_setPage) | (refine Kept.foldl _ ?_ ?_) | (refine Kept.upd ?_ rfl)

theorem kept_setSnap {s0 s : State} (h : Kept s0 s) (h : Nat) (r : Option SnapRun) : Kept s0 (State.setSnap s h r) := by
  unfold State.setSnap
  repeat' with_reducible first
    | (extract_lets -underBinder +onlyGivenNames x; refine Kept.via (s := s0) x ?_ ?_; (on_goal 2 => (intro _; clear_value x)); (on_goal 1 => (subst x)))
    | (extract_lets -underBinder +onlyGivenNames x; clear_value x)
    | (intro) | assumption | (refine Kept.snaps ?_ (fun w => swf_put _ _ w)) | (refine Kept.upd ?_ rfl)

theorem kept_latchAll {s0 s : State} (h : Kept s0 s) (hoop : Nat) (r : SnapRun) : Kept s0 (State.latchAll s hoop r) := by
  unfold State.latchAll
  repeat' with_reducible first
    | (extract_lets -underBinder +onlyGivenNames x; refine Kept.via (s := s0) x ?_ ?_; (on_goal 2 => (intro _; clear_value x)); (on_goal 1 => (subst x)))
    | (extract_lets -underBinder +onlyGivenNames x; clear_value x)
    | (intro) | assumption | (apply kept_latchDie) | (apply kept_setSnap) | (refine Kept.foldl _ ?_ ?_) | (refine Kept.upd ?_ rfl)

theorem kept_latchDue {s0 s : State} (h : Kept s0 s) (h : Nat) : Kept s0 (State.latchDue s h) := by
  unfold State.latchDue
  repeat' with_reducible first
    | (extract_lets -underBinder +onlyGivenNames x; refine Kept.via (s := s0) x ?_ ?_; (on_goal 2 => (intro _; clear_value x)); (on_goal 1 => (subst x)))
    | (extract_lets -underBinder +onlyGivenNames x; clear_value x)
    | assumption | (apply kept_latchAll) | (refine Kept.ite ?_ ?_) | (split)

theorem kept_snapDone {s0 s : State} (h : Kept s0 s) (h : Nat) (r : SnapRun) : Kept s0 (State.snapDone s h r) := by
  unfold State.snapDone
  repeat' with_reducible first
    | (extract_lets -underBinder +onlyGivenNames x; refine Kept.via (s := s0) x ?_ ?_; (on_goal 2 => (intro _; clear_value x)); (on_goal 1 => (subst x)))
    | (extract_lets -underBinder +onlyGivenNames x; clear_value x)
    | (intro) | assumption | (apply kept_wr) | (apply kept_wb) | (apply kept_inc) | (apply kept_setSnap) | (refine Kept.ite ?_ ?_) | (refine Kept.foldl _ ?_ ?_)

theorem kept_judge {s0 s : State} (h : Kept s0 s)  : Kept s0 (State.judge s) := by
  unfold State.judge
  repeat' with_reducible first
    | (extract_lets -underBinder +onlyGivenNames x; refine Kept.via (s := s0) x ?_ ?_; (on_goal 2 => (intro _; clear_value x)); (on_goal 1 => (subst x)))
    | (extract_lets -underBinder +onlyGivenNames x; clear_value x)
    | (intro) | assumption | (apply kept_wr) | (apply kept_stageFail) | (split) | (refine Kept.upd ?_ rfl)

theorem kept_applyPage {s0 s : State} (h : Kept s0 s) (p : Nat) : Kept s0 (State.applyPage s p) := by
  unfold State.applyPage
  repeat' with_reducible first
    | (extract_lets -underBinder +onlyGivenNames x; refine Kept.via (s := s0) x ?_ ?_; (on_goal 2 => (intro _; clear_value x)); (on_goal 1 => (subst x)))
    | (extract_lets -underBinder +onlyGivenNames x; clear_value x)
    | (intro) | assumption | (apply kept_wordAct) | (refine Kept.ite ?_ ?_) | (refine Kept.foldl _ ?_ ?_) | (split)

end Sys2Proof.Machine
end

