-- ==== Sys2Proof/Laws/KeptRest.lean ====
section
/-! SUPPORT. What the helpers of the loader and the tile groups keep. -/

namespace Sys2Proof.Machine

set_option linter.all false

theorem kept_lsSlot {s0 s : State} (h : Kept s0 s) (a : TileAt) (last : Bool) (f : Tile → Tile) : Kept s0 (State.lsSlot s a last f) := by
  unfold State.lsSlot
  repeat' with_reducible first
    | assumption | (apply kept_issue)

theorem kept_preload {s0 s : State} (h : Kept s0 s) (addr : Nat) (f : FLine) : Kept s0 (State.preload s addr f) := by
  unfold State.preload
  repeat' with_reducible first
    | (extract_lets -underBinder +onlyGivenNames x; refine Kept.via (s := s0) x ?_ ?_; (on_goal 2 => (intro _; clear_value x)); (on_goal 1 => (subst x)))
    | (extract_lets -underBinder +onlyGivenNames x; refine Kept.viaP (s := s0) x ?_ ?_; (on_goal 2 => (intro _; clear_value x)); (on_goal 1 => (subst x)))
    | (extract_lets -underBinder +onlyGivenNames x; clear_value x)
    | assumption | (apply kept_putHline) | (refine Kept.ite ?_ ?_) | (split) | (dsimp -zeta only)

theorem kept_jtagWrite {s0 s : State} (h : Kept s0 s) (a : JtagAt) (v : Nat) : Kept s0 (State.jtagWrite s a v) := by
  unfold State.jtagWrite
  repeat' with_reducible first
    | (extract_lets -underBinder +onlyGivenNames x; refine Kept.via (s := s0) x ?_ ?_; (on_goal 2 => (intro _; clear_value x)); (on_goal 1 => (subst x)))
    | (extract_lets -underBinder +onlyGivenNames x; clear_value x)
    | assumption | (apply kept_setTile) | (apply kept_putHline) | (apply kept_putBline) | (apply kept_setFlash) | (apply kept_showValid) | (apply kept_wordAct) | (refine Kept.ite ?_ ?_) | (split) | (refine Kept.upd ?_ rfl)

theorem kept_vxSlot {s0 s : State} (h : Kept s0 s) (a : TileAt) (last : Bool) (f : Tile → Tile) : Kept s0 (State.vxSlot s a last f) := by
  unfold State.vxSlot
  repeat' with_reducible first
    | assumption | (apply kept_issue)

theorem kept_mxSlot {s0 s : State} (h : Kept s0 s) (a : TileAt) (last : Bool) (f : Tile → Tile) : Kept s0 (State.mxSlot s a last f) := by
  unfold State.mxSlot
  repeat' with_reducible first
    | assumption | (apply kept_issue)

theorem kept_scSlot {s0 s : State} (h : Kept s0 s) (a : TileAt) (last : Bool) (f : Tile → Tile) : Kept s0 (State.scSlot s a last f) := by
  unfold State.scSlot
  repeat' with_reducible first
    | assumption | (apply kept_issue)

end Sys2Proof.Machine
end

