-- ==== Sys2Proof/Laws/State.lean ====
section
/-! SUPPORT. What each update of one part of the state leaves alone: one lemma for each other field and for each other accessor, all by rfl. -/

namespace Sys2Proof.Machine

variable (s : State)

/-! `setTile` changes `tiles` alone. -/
@[simp] theorem setTile_clk (d t : Nat) (x : Tile) : (s.setTile d t x).clk = s.clk := rfl
@[simp] theorem setTile_regs (d t : Nat) (x : Tile) : (s.setTile d t x).regs = s.regs := rfl
@[simp] theorem setTile_pages (d t : Nat) (x : Tile) : (s.setTile d t x).pages = s.pages := rfl
@[simp] theorem setTile_flt (d t : Nat) (x : Tile) : (s.setTile d t x).flt = s.flt := rfl
@[simp] theorem setTile_osd (d t : Nat) (x : Tile) : (s.setTile d t x).osd = s.osd := rfl
@[simp] theorem setTile_cad (d t : Nat) (x : Tile) : (s.setTile d t x).cad = s.cad := rfl
@[simp] theorem setTile_mesh (d t : Nat) (x : Tile) : (s.setTile d t x).mesh = s.mesh := rfl
@[simp] theorem setTile_edges (d t : Nat) (x : Tile) : (s.setTile d t x).edges = s.edges := rfl
@[simp] theorem setTile_hbm (d t : Nat) (x : Tile) : (s.setTile d t x).hbm = s.hbm := rfl
@[simp] theorem setTile_stake (d t : Nat) (x : Tile) : (s.setTile d t x).stake = s.stake := rfl
@[simp] theorem setTile_stakeOld (d t : Nat) (x : Tile) : (s.setTile d t x).stakeOld = s.stakeOld := rfl
@[simp] theorem setTile_sideRem (d t : Nat) (x : Tile) : (s.setTile d t x).sideRem = s.sideRem := rfl
@[simp] theorem setTile_cool (d t : Nat) (x : Tile) : (s.setTile d t x).cool = s.cool := rfl
@[simp] theorem setTile_scrubAt (d t : Nat) (x : Tile) : (s.setTile d t x).scrubAt = s.scrubAt := rfl
@[simp] theorem setTile_ovb (d t : Nat) (x : Tile) : (s.setTile d t x).ovb = s.ovb := rfl
@[simp] theorem setTile_ovbOver (d t : Nat) (x : Tile) : (s.setTile d t x).ovbOver = s.ovbOver := rfl
@[simp] theorem setTile_quiet (d t : Nat) (x : Tile) : (s.setTile d t x).quiet = s.quiet := rfl
@[simp] theorem setTile_engs (d t : Nat) (x : Tile) : (s.setTile d t x).engs = s.engs := rfl
@[simp] theorem setTile_reads (d t : Nat) (x : Tile) : (s.setTile d t x).reads = s.reads := rfl
@[simp] theorem setTile_loads (d t : Nat) (x : Tile) : (s.setTile d t x).loads = s.loads := rfl
@[simp] theorem setTile_units (d t : Nat) (x : Tile) : (s.setTile d t x).units = s.units := rfl
@[simp] theorem setTile_offers (d t : Nat) (x : Tile) : (s.setTile d t x).offers = s.offers := rfl
@[simp] theorem setTile_reqs (d t : Nat) (x : Tile) : (s.setTile d t x).reqs = s.reqs := rfl
@[simp] theorem setTile_nbq (d t : Nat) (x : Tile) : (s.setTile d t x).nbq = s.nbq := rfl
@[simp] theorem setTile_arrivals (d t : Nat) (x : Tile) : (s.setTile d t x).arrivals = s.arrivals := rfl
@[simp] theorem setTile_ces (d t : Nat) (x : Tile) : (s.setTile d t x).ces = s.ces := rfl
@[simp] theorem setTile_cbuf (d t : Nat) (x : Tile) : (s.setTile d t x).cbuf = s.cbuf := rfl
@[simp] theorem setTile_borders (d t : Nat) (x : Tile) : (s.setTile d t x).borders = s.borders := rfl
@[simp] theorem setTile_aud (d t : Nat) (x : Tile) : (s.setTile d t x).aud = s.aud := rfl
@[simp] theorem setTile_pkgt (d t : Nat) (x : Tile) : (s.setTile d t x).pkgt = s.pkgt := rfl
@[simp] theorem setTile_wl (d t : Nat) (x : Tile) : (s.setTile d t x).wl = s.wl := rfl
@[simp] theorem setTile_lanes (d t : Nat) (x : Tile) : (s.setTile d t x).lanes = s.lanes := rfl
@[simp] theorem setTile_fibs (d t : Nat) (x : Tile) : (s.setTile d t x).fibs = s.fibs := rfl
@[simp] theorem setTile_wfs (d t : Nat) (x : Tile) : (s.setTile d t x).wfs = s.wfs := rfl
@[simp] theorem setTile_rds (d t : Nat) (x : Tile) : (s.setTile d t x).rds = s.rds := rfl
@[simp] theorem setTile_lasers (d t : Nat) (x : Tile) : (s.setTile d t x).lasers = s.lasers := rfl
@[simp] theorem setTile_cal (d t : Nat) (x : Tile) : (s.setTile d t x).cal = s.cal := rfl
@[simp] theorem setTile_calSh (d t : Nat) (x : Tile) : (s.setTile d t x).calSh = s.calSh := rfl
@[simp] theorem setTile_subs (d t : Nat) (x : Tile) : (s.setTile d t x).subs = s.subs := rfl
@[simp] theorem setTile_grantAt (d t : Nat) (x : Tile) : (s.setTile d t x).grantAt = s.grantAt := rfl
@[simp] theorem setTile_sbGen (d t : Nat) (x : Tile) : (s.setTile d t x).sbGen = s.sbGen := rfl
@[simp] theorem setTile_notes (d t : Nat) (x : Tile) : (s.setTile d t x).notes = s.notes := rfl
@[simp] theorem setTile_sqs (d t : Nat) (x : Tile) : (s.setTile d t x).sqs = s.sqs := rfl
@[simp] theorem setTile_dmas (d t : Nat) (x : Tile) : (s.setTile d t x).dmas = s.dmas := rfl
@[simp] theorem setTile_acks (d t : Nat) (x : Tile) : (s.setTile d t x).acks = s.acks := rfl
@[simp] theorem setTile_pins (d t : Nat) (x : Tile) : (s.setTile d t x).pins = s.pins := rfl
@[simp] theorem setTile_hoops (d t : Nat) (x : Tile) : (s.setTile d t x).hoops = s.hoops := rfl
@[simp] theorem setTile_ring (d t : Nat) (x : Tile) : (s.setTile d t x).ring = s.ring := rfl
@[simp] theorem setTile_snaps (d t : Nat) (x : Tile) : (s.setTile d t x).snaps = s.snaps := rfl
@[simp] theorem setTile_com (d t : Nat) (x : Tile) : (s.setTile d t x).com = s.com := rfl
@[simp] theorem setTile_sens (d t : Nat) (x : Tile) : (s.setTile d t x).sens = s.sens := rfl
@[simp] theorem setTile_dth (d t : Nat) (x : Tile) : (s.setTile d t x).dth = s.dth := rfl
@[simp] theorem setTile_thp (d t : Nat) (x : Tile) : (s.setTile d t x).thp = s.thp := rfl
@[simp] theorem setTile_fits (d t : Nat) (x : Tile) : (s.setTile d t x).fits = s.fits := rfl
@[simp] theorem setTile_agePend (d t : Nat) (x : Tile) : (s.setTile d t x).agePend = s.agePend := rfl
@[simp] theorem setTile_flash (d t : Nat) (x : Tile) : (s.setTile d t x).flash = s.flash := rfl
@[simp] theorem setTile_start (d t : Nat) (x : Tile) : (s.setTile d t x).start = s.start := rfl
@[simp] theorem setTile_out (d t : Nat) (x : Tile) : (s.setTile d t x).out = s.out := rfl
@[simp] theorem setTile_freeCtr (d t : Nat) (x : Tile) : (s.setTile d t x).freeCtr = s.freeCtr := rfl
@[simp] theorem setTile_pending (d t : Nat) (x : Tile) : (s.setTile d t x).pending = s.pending := rfl
@[simp] theorem setTile_rd (d t : Nat) (x : Tile) (i : Nat) (y : Fld) : (s.setTile d t x).rd i y = s.rd i y := rfl
@[simp] theorem setTile_page (d t : Nat) (x : Tile) (i : Nat) : (s.setTile d t x).page i = s.page i := rfl
@[simp] theorem setTile_od (d t : Nat) (x : Tile) (i : Nat) : (s.setTile d t x).od i = s.od i := rfl
@[simp] theorem setTile_eng (d t : Nat) (x : Tile) (i j : Nat) : (s.setTile d t x).eng i j = s.eng i j := rfl
@[simp] theorem setTile_ce (d t : Nat) (x : Tile) (i : Nat) : (s.setTile d t x).ce i = s.ce i := rfl
@[simp] theorem setTile_hoop (d t : Nat) (x : Tile) (i : Nat) : (s.setTile d t x).hoop i = s.hoop i := rfl
@[simp] theorem setTile_flashOf (d t : Nat) (x : Tile) (i : Nat) : (s.setTile d t x).flashOf i = s.flashOf i := rfl
@[simp] theorem setTile_sq (d t : Nat) (x : Tile) (i j : Nat) : (s.setTile d t x).sq i j = s.sq i j := rfl
@[simp] theorem setTile_wle (d t : Nat) (x : Tile) (i : Nat) : (s.setTile d t x).wle i = s.wle i := rfl
@[simp] theorem setTile_sub (d t : Nat) (x : Tile) (i j : Nat) : (s.setTile d t x).sub i j = s.sub i j := rfl
@[simp] theorem setTile_sensor (d t : Nat) (x : Tile) (i : Nat) : (s.setTile d t x).sensor i = s.sensor i := rfl

/-! `setOd` changes `osd` alone. -/
@[simp] theorem setOd_clk (d : Nat) (x : OsDie) : (s.setOd d x).clk = s.clk := rfl
@[simp] theorem setOd_regs (d : Nat) (x : OsDie) : (s.setOd d x).regs = s.regs := rfl
@[simp] theorem setOd_pages (d : Nat) (x : OsDie) : (s.setOd d x).pages = s.pages := rfl
@[simp] theorem setOd_flt (d : Nat) (x : OsDie) : (s.setOd d x).flt = s.flt := rfl
@[simp] theorem setOd_tiles (d : Nat) (x : OsDie) : (s.setOd d x).tiles = s.tiles := rfl
@[simp] theorem setOd_cad (d : Nat) (x : OsDie) : (s.setOd d x).cad = s.cad := rfl
@[simp] theorem setOd_mesh (d : Nat) (x : OsDie) : (s.setOd d x).mesh = s.mesh := rfl
@[simp] theorem setOd_edges (d : Nat) (x : OsDie) : (s.setOd d x).edges = s.edges := rfl
@[simp] theorem setOd_hbm (d : Nat) (x : OsDie) : (s.setOd d x).hbm = s.hbm := rfl
@[simp] theorem setOd_stake (d : Nat) (x : OsDie) : (s.setOd d x).stake = s.stake := rfl
@[simp] theorem setOd_stakeOld (d : Nat) (x : OsDie) : (s.setOd d x).stakeOld = s.stakeOld := rfl
@[simp] theorem setOd_sideRem (d : Nat) (x : OsDie) : (s.setOd d x).sideRem = s.sideRem := rfl
@[simp] theorem setOd_cool (d : Nat) (x : OsDie) : (s.setOd d x).cool = s.cool := rfl
@[simp] theorem setOd_scrubAt (d : Nat) (x : OsDie) : (s.setOd d x).scrubAt = s.scrubAt := rfl
@[simp] theorem setOd_ovb (d : Nat) (x : OsDie) : (s.setOd d x).ovb = s.ovb := rfl
@[simp] theorem setOd_ovbOver (d : Nat) (x : OsDie) : (s.setOd d x).ovbOver = s.ovbOver := rfl
@[simp] theorem setOd_quiet (d : Nat) (x : OsDie) : (s.setOd d x).quiet = s.quiet := rfl
@[simp] theorem setOd_engs (d : Nat) (x : OsDie) : (s.setOd d x).engs = s.engs := rfl
@[simp] theorem setOd_reads (d : Nat) (x : OsDie) : (s.setOd d x).reads = s.reads := rfl
@[simp] theorem setOd_loads (d : Nat) (x : OsDie) : (s.setOd d x).loads = s.loads := rfl
@[simp] theorem setOd_units (d : Nat) (x : OsDie) : (s.setOd d x).units = s.units := rfl
@[simp] theorem setOd_offers (d : Nat) (x : OsDie) : (s.setOd d x).offers = s.offers := rfl
@[simp] theorem setOd_reqs (d : Nat) (x : OsDie) : (s.setOd d x).reqs = s.reqs := rfl
@[simp] theorem setOd_nbq (d : Nat) (x : OsDie) : (s.setOd d x).nbq = s.nbq := rfl
@[simp] theorem setOd_arrivals (d : Nat) (x : OsDie) : (s.setOd d x).arrivals = s.arrivals := rfl
@[simp] theorem setOd_ces (d : Nat) (x : OsDie) : (s.setOd d x).ces = s.ces := rfl
@[simp] theorem setOd_cbuf (d : Nat) (x : OsDie) : (s.setOd d x).cbuf = s.cbuf := rfl
@[simp] theorem setOd_borders (d : Nat) (x : OsDie) : (s.setOd d x).borders = s.borders := rfl
@[simp] theorem setOd_aud (d : Nat) (x : OsDie) : (s.setOd d x).aud = s.aud := rfl
@[simp] theorem setOd_pkgt (d : Nat) (x : OsDie) : (s.setOd d x).pkgt = s.pkgt := rfl
@[simp] theorem setOd_wl (d : Nat) (x : OsDie) : (s.setOd d x).wl = s.wl := rfl
@[simp] theorem setOd_lanes (d : Nat) (x : OsDie) : (s.setOd d x).lanes = s.lanes := rfl
@[simp] theorem setOd_fibs (d : Nat) (x : OsDie) : (s.setOd d x).fibs = s.fibs := rfl
@[simp] theorem setOd_wfs (d : Nat) (x : OsDie) : (s.setOd d x).wfs = s.wfs := rfl
@[simp] theorem setOd_rds (d : Nat) (x : OsDie) : (s.setOd d x).rds = s.rds := rfl
@[simp] theorem setOd_lasers (d : Nat) (x : OsDie) : (s.setOd d x).lasers = s.lasers := rfl
@[simp] theorem setOd_cal (d : Nat) (x : OsDie) : (s.setOd d x).cal = s.cal := rfl
@[simp] theorem setOd_calSh (d : Nat) (x : OsDie) : (s.setOd d x).calSh = s.calSh := rfl
@[simp] theorem setOd_subs (d : Nat) (x : OsDie) : (s.setOd d x).subs = s.subs := rfl
@[simp] theorem setOd_grantAt (d : Nat) (x : OsDie) : (s.setOd d x).grantAt = s.grantAt := rfl
@[simp] theorem setOd_sbGen (d : Nat) (x : OsDie) : (s.setOd d x).sbGen = s.sbGen := rfl
@[simp] theorem setOd_notes (d : Nat) (x : OsDie) : (s.setOd d x).notes = s.notes := rfl
@[simp] theorem setOd_sqs (d : Nat) (x : OsDie) : (s.setOd d x).sqs = s.sqs := rfl
@[simp] theorem setOd_dmas (d : Nat) (x : OsDie) : (s.setOd d x).dmas = s.dmas := rfl
@[simp] theorem setOd_acks (d : Nat) (x : OsDie) : (s.setOd d x).acks = s.acks := rfl
@[simp] theorem setOd_pins (d : Nat) (x : OsDie) : (s.setOd d x).pins = s.pins := rfl
@[simp] theorem setOd_hoops (d : Nat) (x : OsDie) : (s.setOd d x).hoops = s.hoops := rfl
@[simp] theorem setOd_ring (d : Nat) (x : OsDie) : (s.setOd d x).ring = s.ring := rfl
@[simp] theorem setOd_snaps (d : Nat) (x : OsDie) : (s.setOd d x).snaps = s.snaps := rfl
@[simp] theorem setOd_com (d : Nat) (x : OsDie) : (s.setOd d x).com = s.com := rfl
@[simp] theorem setOd_sens (d : Nat) (x : OsDie) : (s.setOd d x).sens = s.sens := rfl
@[simp] theorem setOd_dth (d : Nat) (x : OsDie) : (s.setOd d x).dth = s.dth := rfl
@[simp] theorem setOd_thp (d : Nat) (x : OsDie) : (s.setOd d x).thp = s.thp := rfl
@[simp] theorem setOd_fits (d : Nat) (x : OsDie) : (s.setOd d x).fits = s.fits := rfl
@[simp] theorem setOd_agePend (d : Nat) (x : OsDie) : (s.setOd d x).agePend = s.agePend := rfl
@[simp] theorem setOd_flash (d : Nat) (x : OsDie) : (s.setOd d x).flash = s.flash := rfl
@[simp] theorem setOd_start (d : Nat) (x : OsDie) : (s.setOd d x).start = s.start := rfl
@[simp] theorem setOd_out (d : Nat) (x : OsDie) : (s.setOd d x).out = s.out := rfl
@[simp] theorem setOd_freeCtr (d : Nat) (x : OsDie) : (s.setOd d x).freeCtr = s.freeCtr := rfl
@[simp] theorem setOd_pending (d : Nat) (x : OsDie) : (s.setOd d x).pending = s.pending := rfl
@[simp] theorem setOd_rd (d : Nat) (x : OsDie) (i : Nat) (y : Fld) : (s.setOd d x).rd i y = s.rd i y := rfl
@[simp] theorem setOd_page (d : Nat) (x : OsDie) (i : Nat) : (s.setOd d x).page i = s.page i := rfl
@[simp] theorem setOd_tile (d : Nat) (x : OsDie) (i j : Nat) : (s.setOd d x).tile i j = s.tile i j := rfl
@[simp] theorem setOd_eng (d : Nat) (x : OsDie) (i j : Nat) : (s.setOd d x).eng i j = s.eng i j := rfl
@[simp] theorem setOd_ce (d : Nat) (x : OsDie) (i : Nat) : (s.setOd d x).ce i = s.ce i := rfl
@[simp] theorem setOd_hoop (d : Nat) (x : OsDie) (i : Nat) : (s.setOd d x).hoop i = s.hoop i := rfl
@[simp] theorem setOd_flashOf (d : Nat) (x : OsDie) (i : Nat) : (s.setOd d x).flashOf i = s.flashOf i := rfl
@[simp] theorem setOd_sq (d : Nat) (x : OsDie) (i j : Nat) : (s.setOd d x).sq i j = s.sq i j := rfl
@[simp] theorem setOd_wle (d : Nat) (x : OsDie) (i : Nat) : (s.setOd d x).wle i = s.wle i := rfl
@[simp] theorem setOd_sub (d : Nat) (x : OsDie) (i j : Nat) : (s.setOd d x).sub i j = s.sub i j := rfl
@[simp] theorem setOd_sensor (d : Nat) (x : OsDie) (i : Nat) : (s.setOd d x).sensor i = s.sensor i := rfl

/-! `setPage` changes `pages` alone. -/
@[simp] theorem setPage_clk (p : Nat) (x : PageSt) : (s.setPage p x).clk = s.clk := rfl
@[simp] theorem setPage_regs (p : Nat) (x : PageSt) : (s.setPage p x).regs = s.regs := rfl
@[simp] theorem setPage_flt (p : Nat) (x : PageSt) : (s.setPage p x).flt = s.flt := rfl
@[simp] theorem setPage_tiles (p : Nat) (x : PageSt) : (s.setPage p x).tiles = s.tiles := rfl
@[simp] theorem setPage_osd (p : Nat) (x : PageSt) : (s.setPage p x).osd = s.osd := rfl
@[simp] theorem setPage_cad (p : Nat) (x : PageSt) : (s.setPage p x).cad = s.cad := rfl
@[simp] theorem setPage_mesh (p : Nat) (x : PageSt) : (s.setPage p x).mesh = s.mesh := rfl
@[simp] theorem setPage_edges (p : Nat) (x : PageSt) : (s.setPage p x).edges = s.edges := rfl
@[simp] theorem setPage_hbm (p : Nat) (x : PageSt) : (s.setPage p x).hbm = s.hbm := rfl
@[simp] theorem setPage_stake (p : Nat) (x : PageSt) : (s.setPage p x).stake = s.stake := rfl
@[simp] theorem setPage_stakeOld (p : Nat) (x : PageSt) : (s.setPage p x).stakeOld = s.stakeOld := rfl
@[simp] theorem setPage_sideRem (p : Nat) (x : PageSt) : (s.setPage p x).sideRem = s.sideRem := rfl
@[simp] theorem setPage_cool (p : Nat) (x : PageSt) : (s.setPage p x).cool = s.cool := rfl
@[simp] theorem setPage_scrubAt (p : Nat) (x : PageSt) : (s.setPage p x).scrubAt = s.scrubAt := rfl
@[simp] theorem setPage_ovb (p : Nat) (x : PageSt) : (s.setPage p x).ovb = s.ovb := rfl
@[simp] theorem setPage_ovbOver (p : Nat) (x : PageSt) : (s.setPage p x).ovbOver = s.ovbOver := rfl
@[simp] theorem setPage_quiet (p : Nat) (x : PageSt) : (s.setPage p x).quiet = s.quiet := rfl
@[simp] theorem setPage_engs (p : Nat) (x : PageSt) : (s.setPage p x).engs = s.engs := rfl
@[simp] theorem setPage_reads (p : Nat) (x : PageSt) : (s.setPage p x).reads = s.reads := rfl
@[simp] theorem setPage_loads (p : Nat) (x : PageSt) : (s.setPage p x).loads = s.loads := rfl
@[simp] theorem setPage_units (p : Nat) (x : PageSt) : (s.setPage p x).units = s.units := rfl
@[simp] theorem setPage_offers (p : Nat) (x : PageSt) : (s.setPage p x).offers = s.offers := rfl
@[simp] theorem setPage_reqs (p : Nat) (x : PageSt) : (s.setPage p x).reqs = s.reqs := rfl
@[simp] theorem setPage_nbq (p : Nat) (x : PageSt) : (s.setPage p x).nbq = s.nbq := rfl
@[simp] theorem setPage_arrivals (p : Nat) (x : PageSt) : (s.setPage p x).arrivals = s.arrivals := rfl
@[simp] theorem setPage_ces (p : Nat) (x : PageSt) : (s.setPage p x).ces = s.ces := rfl
@[simp] theorem setPage_cbuf (p : Nat) (x : PageSt) : (s.setPage p x).cbuf = s.cbuf := rfl
@[simp] theorem setPage_borders (p : Nat) (x : PageSt) : (s.setPage p x).borders = s.borders := rfl
@[simp] theorem setPage_aud (p : Nat) (x : PageSt) : (s.setPage p x).aud = s.aud := rfl
@[simp] theorem setPage_pkgt (p : Nat) (x : PageSt) : (s.setPage p x).pkgt = s.pkgt := rfl
@[simp] theorem setPage_wl (p : Nat) (x : PageSt) : (s.setPage p x).wl = s.wl := rfl
@[simp] theorem setPage_lanes (p : Nat) (x : PageSt) : (s.setPage p x).lanes = s.lanes := rfl
@[simp] theorem setPage_fibs (p : Nat) (x : PageSt) : (s.setPage p x).fibs = s.fibs := rfl
@[simp] theorem setPage_wfs (p : Nat) (x : PageSt) : (s.setPage p x).wfs = s.wfs := rfl
@[simp] theorem setPage_rds (p : Nat) (x : PageSt) : (s.setPage p x).rds = s.rds := rfl
@[simp] theorem setPage_lasers (p : Nat) (x : PageSt) : (s.setPage p x).lasers = s.lasers := rfl
@[simp] theorem setPage_cal (p : Nat) (x : PageSt) : (s.setPage p x).cal = s.cal := rfl
@[simp] theorem setPage_calSh (p : Nat) (x : PageSt) : (s.setPage p x).calSh = s.calSh := rfl
@[simp] theorem setPage_subs (p : Nat) (x : PageSt) : (s.setPage p x).subs = s.subs := rfl
@[simp] theorem setPage_grantAt (p : Nat) (x : PageSt) : (s.setPage p x).grantAt = s.grantAt := rfl
@[simp] theorem setPage_sbGen (p : Nat) (x : PageSt) : (s.setPage p x).sbGen = s.sbGen := rfl
@[simp] theorem setPage_notes (p : Nat) (x : PageSt) : (s.setPage p x).notes = s.notes := rfl
@[simp] theorem setPage_sqs (p : Nat) (x : PageSt) : (s.setPage p x).sqs = s.sqs := rfl
@[simp] theorem setPage_dmas (p : Nat) (x : PageSt) : (s.setPage p x).dmas = s.dmas := rfl
@[simp] theorem setPage_acks (p : Nat) (x : PageSt) : (s.setPage p x).acks = s.acks := rfl
@[simp] theorem setPage_pins (p : Nat) (x : PageSt) : (s.setPage p x).pins = s.pins := rfl
@[simp] theorem setPage_hoops (p : Nat) (x : PageSt) : (s.setPage p x).hoops = s.hoops := rfl
@[simp] theorem setPage_ring (p : Nat) (x : PageSt) : (s.setPage p x).ring = s.ring := rfl
@[simp] theorem setPage_snaps (p : Nat) (x : PageSt) : (s.setPage p x).snaps = s.snaps := rfl
@[simp] theorem setPage_com (p : Nat) (x : PageSt) : (s.setPage p x).com = s.com := rfl
@[simp] theorem setPage_sens (p : Nat) (x : PageSt) : (s.setPage p x).sens = s.sens := rfl
@[simp] theorem setPage_dth (p : Nat) (x : PageSt) : (s.setPage p x).dth = s.dth := rfl
@[simp] theorem setPage_thp (p : Nat) (x : PageSt) : (s.setPage p x).thp = s.thp := rfl
@[simp] theorem setPage_fits (p : Nat) (x : PageSt) : (s.setPage p x).fits = s.fits := rfl
@[simp] theorem setPage_agePend (p : Nat) (x : PageSt) : (s.setPage p x).agePend = s.agePend := rfl
@[simp] theorem setPage_flash (p : Nat) (x : PageSt) : (s.setPage p x).flash = s.flash := rfl
@[simp] theorem setPage_start (p : Nat) (x : PageSt) : (s.setPage p x).start = s.start := rfl
@[simp] theorem setPage_out (p : Nat) (x : PageSt) : (s.setPage p x).out = s.out := rfl
@[simp] theorem setPage_freeCtr (p : Nat) (x : PageSt) : (s.setPage p x).freeCtr = s.freeCtr := rfl
@[simp] theorem setPage_pending (p : Nat) (x : PageSt) : (s.setPage p x).pending = s.pending := rfl
@[simp] theorem setPage_rd (p : Nat) (x : PageSt) (i : Nat) (y : Fld) : (s.setPage p x).rd i y = s.rd i y := rfl
@[simp] theorem setPage_tile (p : Nat) (x : PageSt) (i j : Nat) : (s.setPage p x).tile i j = s.tile i j := rfl
@[simp] theorem setPage_od (p : Nat) (x : PageSt) (i : Nat) : (s.setPage p x).od i = s.od i := rfl
@[simp] theorem setPage_eng (p : Nat) (x : PageSt) (i j : Nat) : (s.setPage p x).eng i j = s.eng i j := rfl
@[simp] theorem setPage_ce (p : Nat) (x : PageSt) (i : Nat) : (s.setPage p x).ce i = s.ce i := rfl
@[simp] theorem setPage_hoop (p : Nat) (x : PageSt) (i : Nat) : (s.setPage p x).hoop i = s.hoop i := rfl
@[simp] theorem setPage_flashOf (p : Nat) (x : PageSt) (i : Nat) : (s.setPage p x).flashOf i = s.flashOf i := rfl
@[simp] theorem setPage_sq (p : Nat) (x : PageSt) (i j : Nat) : (s.setPage p x).sq i j = s.sq i j := rfl
@[simp] theorem setPage_wle (p : Nat) (x : PageSt) (i : Nat) : (s.setPage p x).wle i = s.wle i := rfl
@[simp] theorem setPage_sub (p : Nat) (x : PageSt) (i j : Nat) : (s.setPage p x).sub i j = s.sub i j := rfl
@[simp] theorem setPage_sensor (p : Nat) (x : PageSt) (i : Nat) : (s.setPage p x).sensor i = s.sensor i := rfl

/-! `wr` changes `regs` alone. -/
@[simp] theorem wr_clk (p : Nat) (f : Fld) (v : Nat) : (s.wr p f v).clk = s.clk := rfl
@[simp] theorem wr_pages (p : Nat) (f : Fld) (v : Nat) : (s.wr p f v).pages = s.pages := rfl
@[simp] theorem wr_flt (p : Nat) (f : Fld) (v : Nat) : (s.wr p f v).flt = s.flt := rfl
@[simp] theorem wr_tiles (p : Nat) (f : Fld) (v : Nat) : (s.wr p f v).tiles = s.tiles := rfl
@[simp] theorem wr_osd (p : Nat) (f : Fld) (v : Nat) : (s.wr p f v).osd = s.osd := rfl
@[simp] theorem wr_cad (p : Nat) (f : Fld) (v : Nat) : (s.wr p f v).cad = s.cad := rfl
@[simp] theorem wr_mesh (p : Nat) (f : Fld) (v : Nat) : (s.wr p f v).mesh = s.mesh := rfl
@[simp] theorem wr_edges (p : Nat) (f : Fld) (v : Nat) : (s.wr p f v).edges = s.edges := rfl
@[simp] theorem wr_hbm (p : Nat) (f : Fld) (v : Nat) : (s.wr p f v).hbm = s.hbm := rfl
@[simp] theorem wr_stake (p : Nat) (f : Fld) (v : Nat) : (s.wr p f v).stake = s.stake := rfl
@[simp] theorem wr_stakeOld (p : Nat) (f : Fld) (v : Nat) : (s.wr p f v).stakeOld = s.stakeOld := rfl
@[simp] theorem wr_sideRem (p : Nat) (f : Fld) (v : Nat) : (s.wr p f v).sideRem = s.sideRem := rfl
@[simp] theorem wr_cool (p : Nat) (f : Fld) (v : Nat) : (s.wr p f v).cool = s.cool := rfl
@[simp] theorem wr_scrubAt (p : Nat) (f : Fld) (v : Nat) : (s.wr p f v).scrubAt = s.scrubAt := rfl
@[simp] theorem wr_ovb (p : Nat) (f : Fld) (v : Nat) : (s.wr p f v).ovb = s.ovb := rfl
@[simp] theorem wr_ovbOver (p : Nat) (f : Fld) (v : Nat) : (s.wr p f v).ovbOver = s.ovbOver := rfl
@[simp] theorem wr_quiet (p : Nat) (f : Fld) (v : Nat) : (s.wr p f v).quiet = s.quiet := rfl
@[simp] theorem wr_engs (p : Nat) (f : Fld) (v : Nat) : (s.wr p f v).engs = s.engs := rfl
@[simp] theorem wr_reads (p : Nat) (f : Fld) (v : Nat) : (s.wr p f v).reads = s.reads := rfl
@[simp] theorem wr_loads (p : Nat) (f : Fld) (v : Nat) : (s.wr p f v).loads = s.loads := rfl
@[simp] theorem wr_units (p : Nat) (f : Fld) (v : Nat) : (s.wr p f v).units = s.units := rfl
@[simp] theorem wr_offers (p : Nat) (f : Fld) (v : Nat) : (s.wr p f v).offers = s.offers := rfl
@[simp] theorem wr_reqs (p : Nat) (f : Fld) (v : Nat) : (s.wr p f v).reqs = s.reqs := rfl
@[simp] theorem wr_nbq (p : Nat) (f : Fld) (v : Nat) : (s.wr p f v).nbq = s.nbq := rfl
@[simp] theorem wr_arrivals (p : Nat) (f : Fld) (v : Nat) : (s.wr p f v).arrivals = s.arrivals := rfl
@[simp] theorem wr_ces (p : Nat) (f : Fld) (v : Nat) : (s.wr p f v).ces = s.ces := rfl
@[simp] theorem wr_cbuf (p : Nat) (f : Fld) (v : Nat) : (s.wr p f v).cbuf = s.cbuf := rfl
@[simp] theorem wr_borders (p : Nat) (f : Fld) (v : Nat) : (s.wr p f v).borders = s.borders := rfl
@[simp] theorem wr_aud (p : Nat) (f : Fld) (v : Nat) : (s.wr p f v).aud = s.aud := rfl
@[simp] theorem wr_pkgt (p : Nat) (f : Fld) (v : Nat) : (s.wr p f v).pkgt = s.pkgt := rfl
@[simp] theorem wr_wl (p : Nat) (f : Fld) (v : Nat) : (s.wr p f v).wl = s.wl := rfl
@[simp] theorem wr_lanes (p : Nat) (f : Fld) (v : Nat) : (s.wr p f v).lanes = s.lanes := rfl
@[simp] theorem wr_fibs (p : Nat) (f : Fld) (v : Nat) : (s.wr p f v).fibs = s.fibs := rfl
@[simp] theorem wr_wfs (p : Nat) (f : Fld) (v : Nat) : (s.wr p f v).wfs = s.wfs := rfl
@[simp] theorem wr_rds (p : Nat) (f : Fld) (v : Nat) : (s.wr p f v).rds = s.rds := rfl
@[simp] theorem wr_lasers (p : Nat) (f : Fld) (v : Nat) : (s.wr p f v).lasers = s.lasers := rfl
@[simp] theorem wr_cal (p : Nat) (f : Fld) (v : Nat) : (s.wr p f v).cal = s.cal := rfl
@[simp] theorem wr_calSh (p : Nat) (f : Fld) (v : Nat) : (s.wr p f v).calSh = s.calSh := rfl
@[simp] theorem wr_subs (p : Nat) (f : Fld) (v : Nat) : (s.wr p f v).subs = s.subs := rfl
@[simp] theorem wr_grantAt (p : Nat) (f : Fld) (v : Nat) : (s.wr p f v).grantAt = s.grantAt := rfl
@[simp] theorem wr_sbGen (p : Nat) (f : Fld) (v : Nat) : (s.wr p f v).sbGen = s.sbGen := rfl
@[simp] theorem wr_notes (p : Nat) (f : Fld) (v : Nat) : (s.wr p f v).notes = s.notes := rfl
@[simp] theorem wr_sqs (p : Nat) (f : Fld) (v : Nat) : (s.wr p f v).sqs = s.sqs := rfl
@[simp] theorem wr_dmas (p : Nat) (f : Fld) (v : Nat) : (s.wr p f v).dmas = s.dmas := rfl
@[simp] theorem wr_acks (p : Nat) (f : Fld) (v : Nat) : (s.wr p f v).acks = s.acks := rfl
@[simp] theorem wr_pins (p : Nat) (f : Fld) (v : Nat) : (s.wr p f v).pins = s.pins := rfl
@[simp] theorem wr_hoops (p : Nat) (f : Fld) (v : Nat) : (s.wr p f v).hoops = s.hoops := rfl
@[simp] theorem wr_ring (p : Nat) (f : Fld) (v : Nat) : (s.wr p f v).ring = s.ring := rfl
@[simp] theorem wr_snaps (p : Nat) (f : Fld) (v : Nat) : (s.wr p f v).snaps = s.snaps := rfl
@[simp] theorem wr_com (p : Nat) (f : Fld) (v : Nat) : (s.wr p f v).com = s.com := rfl
@[simp] theorem wr_sens (p : Nat) (f : Fld) (v : Nat) : (s.wr p f v).sens = s.sens := rfl
@[simp] theorem wr_dth (p : Nat) (f : Fld) (v : Nat) : (s.wr p f v).dth = s.dth := rfl
@[simp] theorem wr_thp (p : Nat) (f : Fld) (v : Nat) : (s.wr p f v).thp = s.thp := rfl
@[simp] theorem wr_fits (p : Nat) (f : Fld) (v : Nat) : (s.wr p f v).fits = s.fits := rfl
@[simp] theorem wr_agePend (p : Nat) (f : Fld) (v : Nat) : (s.wr p f v).agePend = s.agePend := rfl
@[simp] theorem wr_flash (p : Nat) (f : Fld) (v : Nat) : (s.wr p f v).flash = s.flash := rfl
@[simp] theorem wr_start (p : Nat) (f : Fld) (v : Nat) : (s.wr p f v).start = s.start := rfl
@[simp] theorem wr_out (p : Nat) (f : Fld) (v : Nat) : (s.wr p f v).out = s.out := rfl
@[simp] theorem wr_freeCtr (p : Nat) (f : Fld) (v : Nat) : (s.wr p f v).freeCtr = s.freeCtr := rfl
@[simp] theorem wr_pending (p : Nat) (f : Fld) (v : Nat) : (s.wr p f v).pending = s.pending := rfl
@[simp] theorem wr_page (p : Nat) (f : Fld) (v : Nat) (i : Nat) : (s.wr p f v).page i = s.page i := rfl
@[simp] theorem wr_tile (p : Nat) (f : Fld) (v : Nat) (i j : Nat) : (s.wr p f v).tile i j = s.tile i j := rfl
@[simp] theorem wr_od (p : Nat) (f : Fld) (v : Nat) (i : Nat) : (s.wr p f v).od i = s.od i := rfl
@[simp] theorem wr_eng (p : Nat) (f : Fld) (v : Nat) (i j : Nat) : (s.wr p f v).eng i j = s.eng i j := rfl
@[simp] theorem wr_ce (p : Nat) (f : Fld) (v : Nat) (i : Nat) : (s.wr p f v).ce i = s.ce i := rfl
@[simp] theorem wr_hoop (p : Nat) (f : Fld) (v : Nat) (i : Nat) : (s.wr p f v).hoop i = s.hoop i := rfl
@[simp] theorem wr_flashOf (p : Nat) (f : Fld) (v : Nat) (i : Nat) : (s.wr p f v).flashOf i = s.flashOf i := rfl
@[simp] theorem wr_sq (p : Nat) (f : Fld) (v : Nat) (i j : Nat) : (s.wr p f v).sq i j = s.sq i j := rfl
@[simp] theorem wr_wle (p : Nat) (f : Fld) (v : Nat) (i : Nat) : (s.wr p f v).wle i = s.wle i := rfl
@[simp] theorem wr_sub (p : Nat) (f : Fld) (v : Nat) (i j : Nat) : (s.wr p f v).sub i j = s.sub i j := rfl
@[simp] theorem wr_sensor (p : Nat) (f : Fld) (v : Nat) (i : Nat) : (s.wr p f v).sensor i = s.sensor i := rfl

/-! `setEng` changes `engs` alone. -/
@[simp] theorem setEng_clk (d e : Nat) (x : Eng) : (s.setEng d e x).clk = s.clk := rfl
@[simp] theorem setEng_regs (d e : Nat) (x : Eng) : (s.setEng d e x).regs = s.regs := rfl
@[simp] theorem setEng_pages (d e : Nat) (x : Eng) : (s.setEng d e x).pages = s.pages := rfl
@[simp] theorem setEng_flt (d e : Nat) (x : Eng) : (s.setEng d e x).flt = s.flt := rfl
@[simp] theorem setEng_tiles (d e : Nat) (x : Eng) : (s.setEng d e x).tiles = s.tiles := rfl
@[simp] theorem setEng_osd (d e : Nat) (x : Eng) : (s.setEng d e x).osd = s.osd := rfl
@[simp] theorem setEng_cad (d e : Nat) (x : Eng) : (s.setEng d e x).cad = s.cad := rfl
@[simp] theorem setEng_mesh (d e : Nat) (x : Eng) : (s.setEng d e x).mesh = s.mesh := rfl
@[simp] theorem setEng_edges (d e : Nat) (x : Eng) : (s.setEng d e x).edges = s.edges := rfl
@[simp] theorem setEng_hbm (d e : Nat) (x : Eng) : (s.setEng d e x).hbm = s.hbm := rfl
@[simp] theorem setEng_stake (d e : Nat) (x : Eng) : (s.setEng d e x).stake = s.stake := rfl
@[simp] theorem setEng_stakeOld (d e : Nat) (x : Eng) : (s.setEng d e x).stakeOld = s.stakeOld := rfl
@[simp] theorem setEng_sideRem (d e : Nat) (x : Eng) : (s.setEng d e x).sideRem = s.sideRem := rfl
@[simp] theorem setEng_cool (d e : Nat) (x : Eng) : (s.setEng d e x).cool = s.cool := rfl
@[simp] theorem setEng_scrubAt (d e : Nat) (x : Eng) : (s.setEng d e x).scrubAt = s.scrubAt := rfl
@[simp] theorem setEng_ovb (d e : Nat) (x : Eng) : (s.setEng d e x).ovb = s.ovb := rfl
@[simp] theorem setEng_ovbOver (d e : Nat) (x : Eng) : (s.setEng d e x).ovbOver = s.ovbOver := rfl
@[simp] theorem setEng_quiet (d e : Nat) (x : Eng) : (s.setEng d e x).quiet = s.quiet := rfl
@[simp] theorem setEng_reads (d e : Nat) (x : Eng) : (s.setEng d e x).reads = s.reads := rfl
@[simp] theorem setEng_loads (d e : Nat) (x : Eng) : (s.setEng d e x).loads = s.loads := rfl
@[simp] theorem setEng_units (d e : Nat) (x : Eng) : (s.setEng d e x).units = s.units := rfl
@[simp] theorem setEng_offers (d e : Nat) (x : Eng) : (s.setEng d e x).offers = s.offers := rfl
@[simp] theorem setEng_reqs (d e : Nat) (x : Eng) : (s.setEng d e x).reqs = s.reqs := rfl
@[simp] theorem setEng_nbq (d e : Nat) (x : Eng) : (s.setEng d e x).nbq = s.nbq := rfl
@[simp] theorem setEng_arrivals (d e : Nat) (x : Eng) : (s.setEng d e x).arrivals = s.arrivals := rfl
@[simp] theorem setEng_ces (d e : Nat) (x : Eng) : (s.setEng d e x).ces = s.ces := rfl
@[simp] theorem setEng_cbuf (d e : Nat) (x : Eng) : (s.setEng d e x).cbuf = s.cbuf := rfl
@[simp] theorem setEng_borders (d e : Nat) (x : Eng) : (s.setEng d e x).borders = s.borders := rfl
@[simp] theorem setEng_aud (d e : Nat) (x : Eng) : (s.setEng d e x).aud = s.aud := rfl
@[simp] theorem setEng_pkgt (d e : Nat) (x : Eng) : (s.setEng d e x).pkgt = s.pkgt := rfl
@[simp] theorem setEng_wl (d e : Nat) (x : Eng) : (s.setEng d e x).wl = s.wl := rfl
@[simp] theorem setEng_lanes (d e : Nat) (x : Eng) : (s.setEng d e x).lanes = s.lanes := rfl
@[simp] theorem setEng_fibs (d e : Nat) (x : Eng) : (s.setEng d e x).fibs = s.fibs := rfl
@[simp] theorem setEng_wfs (d e : Nat) (x : Eng) : (s.setEng d e x).wfs = s.wfs := rfl
@[simp] theorem setEng_rds (d e : Nat) (x : Eng) : (s.setEng d e x).rds = s.rds := rfl
@[simp] theorem setEng_lasers (d e : Nat) (x : Eng) : (s.setEng d e x).lasers = s.lasers := rfl
@[simp] theorem setEng_cal (d e : Nat) (x : Eng) : (s.setEng d e x).cal = s.cal := rfl
@[simp] theorem setEng_calSh (d e : Nat) (x : Eng) : (s.setEng d e x).calSh = s.calSh := rfl
@[simp] theorem setEng_subs (d e : Nat) (x : Eng) : (s.setEng d e x).subs = s.subs := rfl
@[simp] theorem setEng_grantAt (d e : Nat) (x : Eng) : (s.setEng d e x).grantAt = s.grantAt := rfl
@[simp] theorem setEng_sbGen (d e : Nat) (x : Eng) : (s.setEng d e x).sbGen = s.sbGen := rfl
@[simp] theorem setEng_notes (d e : Nat) (x : Eng) : (s.setEng d e x).notes = s.notes := rfl
@[simp] theorem setEng_sqs (d e : Nat) (x : Eng) : (s.setEng d e x).sqs = s.sqs := rfl
@[simp] theorem setEng_dmas (d e : Nat) (x : Eng) : (s.setEng d e x).dmas = s.dmas := rfl
@[simp] theorem setEng_acks (d e : Nat) (x : Eng) : (s.setEng d e x).acks = s.acks := rfl
@[simp] theorem setEng_pins (d e : Nat) (x : Eng) : (s.setEng d e x).pins = s.pins := rfl
@[simp] theorem setEng_hoops (d e : Nat) (x : Eng) : (s.setEng d e x).hoops = s.hoops := rfl
@[simp] theorem setEng_ring (d e : Nat) (x : Eng) : (s.setEng d e x).ring = s.ring := rfl
@[simp] theorem setEng_snaps (d e : Nat) (x : Eng) : (s.setEng d e x).snaps = s.snaps := rfl
@[simp] theorem setEng_com (d e : Nat) (x : Eng) : (s.setEng d e x).com = s.com := rfl
@[simp] theorem setEng_sens (d e : Nat) (x : Eng) : (s.setEng d e x).sens = s.sens := rfl
@[simp] theorem setEng_dth (d e : Nat) (x : Eng) : (s.setEng d e x).dth = s.dth := rfl
@[simp] theorem setEng_thp (d e : Nat) (x : Eng) : (s.setEng d e x).thp = s.thp := rfl
@[simp] theorem setEng_fits (d e : Nat) (x : Eng) : (s.setEng d e x).fits = s.fits := rfl
@[simp] theorem setEng_agePend (d e : Nat) (x : Eng) : (s.setEng d e x).agePend = s.agePend := rfl
@[simp] theorem setEng_flash (d e : Nat) (x : Eng) : (s.setEng d e x).flash = s.flash := rfl
@[simp] theorem setEng_start (d e : Nat) (x : Eng) : (s.setEng d e x).start = s.start := rfl
@[simp] theorem setEng_out (d e : Nat) (x : Eng) : (s.setEng d e x).out = s.out := rfl
@[simp] theorem setEng_freeCtr (d e : Nat) (x : Eng) : (s.setEng d e x).freeCtr = s.freeCtr := rfl
@[simp] theorem setEng_pending (d e : Nat) (x : Eng) : (s.setEng d e x).pending = s.pending := rfl
@[simp] theorem setEng_rd (d e : Nat) (x : Eng) (i : Nat) (y : Fld) : (s.setEng d e x).rd i y = s.rd i y := rfl
@[simp] theorem setEng_page (d e : Nat) (x : Eng) (i : Nat) : (s.setEng d e x).page i = s.page i := rfl
@[simp] theorem setEng_tile (d e : Nat) (x : Eng) (i j : Nat) : (s.setEng d e x).tile i j = s.tile i j := rfl
@[simp] theorem setEng_od (d e : Nat) (x : Eng) (i : Nat) : (s.setEng d e x).od i = s.od i := rfl
@[simp] theorem setEng_ce (d e : Nat) (x : Eng) (i : Nat) : (s.setEng d e x).ce i = s.ce i := rfl
@[simp] theorem setEng_hoop (d e : Nat) (x : Eng) (i : Nat) : (s.setEng d e x).hoop i = s.hoop i := rfl
@[simp] theorem setEng_flashOf (d e : Nat) (x : Eng) (i : Nat) : (s.setEng d e x).flashOf i = s.flashOf i := rfl
@[simp] theorem setEng_sq (d e : Nat) (x : Eng) (i j : Nat) : (s.setEng d e x).sq i j = s.sq i j := rfl
@[simp] theorem setEng_wle (d e : Nat) (x : Eng) (i : Nat) : (s.setEng d e x).wle i = s.wle i := rfl
@[simp] theorem setEng_sub (d e : Nat) (x : Eng) (i j : Nat) : (s.setEng d e x).sub i j = s.sub i j := rfl
@[simp] theorem setEng_sensor (d e : Nat) (x : Eng) (i : Nat) : (s.setEng d e x).sensor i = s.sensor i := rfl

/-! `setCe` changes `ces` alone. -/
@[simp] theorem setCe_clk (d : Nat) (x : Ce) : (s.setCe d x).clk = s.clk := rfl
@[simp] theorem setCe_regs (d : Nat) (x : Ce) : (s.setCe d x).regs = s.regs := rfl
@[simp] theorem setCe_pages (d : Nat) (x : Ce) : (s.setCe d x).pages = s.pages := rfl
@[simp] theorem setCe_flt (d : Nat) (x : Ce) : (s.setCe d x).flt = s.flt := rfl
@[simp] theorem setCe_tiles (d : Nat) (x : Ce) : (s.setCe d x).tiles = s.tiles := rfl
@[simp] theorem setCe_osd (d : Nat) (x : Ce) : (s.setCe d x).osd = s.osd := rfl
@[simp] theorem setCe_cad (d : Nat) (x : Ce) : (s.setCe d x).cad = s.cad := rfl
@[simp] theorem setCe_mesh (d : Nat) (x : Ce) : (s.setCe d x).mesh = s.mesh := rfl
@[simp] theorem setCe_edges (d : Nat) (x : Ce) : (s.setCe d x).edges = s.edges := rfl
@[simp] theorem setCe_hbm (d : Nat) (x : Ce) : (s.setCe d x).hbm = s.hbm := rfl
@[simp] theorem setCe_stake (d : Nat) (x : Ce) : (s.setCe d x).stake = s.stake := rfl
@[simp] theorem setCe_stakeOld (d : Nat) (x : Ce) : (s.setCe d x).stakeOld = s.stakeOld := rfl
@[simp] theorem setCe_sideRem (d : Nat) (x : Ce) : (s.setCe d x).sideRem = s.sideRem := rfl
@[simp] theorem setCe_cool (d : Nat) (x : Ce) : (s.setCe d x).cool = s.cool := rfl
@[simp] theorem setCe_scrubAt (d : Nat) (x : Ce) : (s.setCe d x).scrubAt = s.scrubAt := rfl
@[simp] theorem setCe_ovb (d : Nat) (x : Ce) : (s.setCe d x).ovb = s.ovb := rfl
@[simp] theorem setCe_ovbOver (d : Nat) (x : Ce) : (s.setCe d x).ovbOver = s.ovbOver := rfl
@[simp] theorem setCe_quiet (d : Nat) (x : Ce) : (s.setCe d x).quiet = s.quiet := rfl
@[simp] theorem setCe_engs (d : Nat) (x : Ce) : (s.setCe d x).engs = s.engs := rfl
@[simp] theorem setCe_reads (d : Nat) (x : Ce) : (s.setCe d x).reads = s.reads := rfl
@[simp] theorem setCe_loads (d : Nat) (x : Ce) : (s.setCe d x).loads = s.loads := rfl
@[simp] theorem setCe_units (d : Nat) (x : Ce) : (s.setCe d x).units = s.units := rfl
@[simp] theorem setCe_offers (d : Nat) (x : Ce) : (s.setCe d x).offers = s.offers := rfl
@[simp] theorem setCe_reqs (d : Nat) (x : Ce) : (s.setCe d x).reqs = s.reqs := rfl
@[simp] theorem setCe_nbq (d : Nat) (x : Ce) : (s.setCe d x).nbq = s.nbq := rfl
@[simp] theorem setCe_arrivals (d : Nat) (x : Ce) : (s.setCe d x).arrivals = s.arrivals := rfl
@[simp] theorem setCe_cbuf (d : Nat) (x : Ce) : (s.setCe d x).cbuf = s.cbuf := rfl
@[simp] theorem setCe_borders (d : Nat) (x : Ce) : (s.setCe d x).borders = s.borders := rfl
@[simp] theorem setCe_aud (d : Nat) (x : Ce) : (s.setCe d x).aud = s.aud := rfl
@[simp] theorem setCe_pkgt (d : Nat) (x : Ce) : (s.setCe d x).pkgt = s.pkgt := rfl
@[simp] theorem setCe_wl (d : Nat) (x : Ce) : (s.setCe d x).wl = s.wl := rfl
@[simp] theorem setCe_lanes (d : Nat) (x : Ce) : (s.setCe d x).lanes = s.lanes := rfl
@[simp] theorem setCe_fibs (d : Nat) (x : Ce) : (s.setCe d x).fibs = s.fibs := rfl
@[simp] theorem setCe_wfs (d : Nat) (x : Ce) : (s.setCe d x).wfs = s.wfs := rfl
@[simp] theorem setCe_rds (d : Nat) (x : Ce) : (s.setCe d x).rds = s.rds := rfl
@[simp] theorem setCe_lasers (d : Nat) (x : Ce) : (s.setCe d x).lasers = s.lasers := rfl
@[simp] theorem setCe_cal (d : Nat) (x : Ce) : (s.setCe d x).cal = s.cal := rfl
@[simp] theorem setCe_calSh (d : Nat) (x : Ce) : (s.setCe d x).calSh = s.calSh := rfl
@[simp] theorem setCe_subs (d : Nat) (x : Ce) : (s.setCe d x).subs = s.subs := rfl
@[simp] theorem setCe_grantAt (d : Nat) (x : Ce) : (s.setCe d x).grantAt = s.grantAt := rfl
@[simp] theorem setCe_sbGen (d : Nat) (x : Ce) : (s.setCe d x).sbGen = s.sbGen := rfl
@[simp] theorem setCe_notes (d : Nat) (x : Ce) : (s.setCe d x).notes = s.notes := rfl
@[simp] theorem setCe_sqs (d : Nat) (x : Ce) : (s.setCe d x).sqs = s.sqs := rfl
@[simp] theorem setCe_dmas (d : Nat) (x : Ce) : (s.setCe d x).dmas = s.dmas := rfl
@[simp] theorem setCe_acks (d : Nat) (x : Ce) : (s.setCe d x).acks = s.acks := rfl
@[simp] theorem setCe_pins (d : Nat) (x : Ce) : (s.setCe d x).pins = s.pins := rfl
@[simp] theorem setCe_hoops (d : Nat) (x : Ce) : (s.setCe d x).hoops = s.hoops := rfl
@[simp] theorem setCe_ring (d : Nat) (x : Ce) : (s.setCe d x).ring = s.ring := rfl
@[simp] theorem setCe_snaps (d : Nat) (x : Ce) : (s.setCe d x).snaps = s.snaps := rfl
@[simp] theorem setCe_com (d : Nat) (x : Ce) : (s.setCe d x).com = s.com := rfl
@[simp] theorem setCe_sens (d : Nat) (x : Ce) : (s.setCe d x).sens = s.sens := rfl
@[simp] theorem setCe_dth (d : Nat) (x : Ce) : (s.setCe d x).dth = s.dth := rfl
@[simp] theorem setCe_thp (d : Nat) (x : Ce) : (s.setCe d x).thp = s.thp := rfl
@[simp] theorem setCe_fits (d : Nat) (x : Ce) : (s.setCe d x).fits = s.fits := rfl
@[simp] theorem setCe_agePend (d : Nat) (x : Ce) : (s.setCe d x).agePend = s.agePend := rfl
@[simp] theorem setCe_flash (d : Nat) (x : Ce) : (s.setCe d x).flash = s.flash := rfl
@[simp] theorem setCe_start (d : Nat) (x : Ce) : (s.setCe d x).start = s.start := rfl
@[simp] theorem setCe_out (d : Nat) (x : Ce) : (s.setCe d x).out = s.out := rfl
@[simp] theorem setCe_freeCtr (d : Nat) (x : Ce) : (s.setCe d x).freeCtr = s.freeCtr := rfl
@[simp] theorem setCe_pending (d : Nat) (x : Ce) : (s.setCe d x).pending = s.pending := rfl
@[simp] theorem setCe_rd (d : Nat) (x : Ce) (i : Nat) (y : Fld) : (s.setCe d x).rd i y = s.rd i y := rfl
@[simp] theorem setCe_page (d : Nat) (x : Ce) (i : Nat) : (s.setCe d x).page i = s.page i := rfl
@[simp] theorem setCe_tile (d : Nat) (x : Ce) (i j : Nat) : (s.setCe d x).tile i j = s.tile i j := rfl
@[simp] theorem setCe_od (d : Nat) (x : Ce) (i : Nat) : (s.setCe d x).od i = s.od i := rfl
@[simp] theorem setCe_eng (d : Nat) (x : Ce) (i j : Nat) : (s.setCe d x).eng i j = s.eng i j := rfl
@[simp] theorem setCe_hoop (d : Nat) (x : Ce) (i : Nat) : (s.setCe d x).hoop i = s.hoop i := rfl
@[simp] theorem setCe_flashOf (d : Nat) (x : Ce) (i : Nat) : (s.setCe d x).flashOf i = s.flashOf i := rfl
@[simp] theorem setCe_sq (d : Nat) (x : Ce) (i j : Nat) : (s.setCe d x).sq i j = s.sq i j := rfl
@[simp] theorem setCe_wle (d : Nat) (x : Ce) (i : Nat) : (s.setCe d x).wle i = s.wle i := rfl
@[simp] theorem setCe_sub (d : Nat) (x : Ce) (i j : Nat) : (s.setCe d x).sub i j = s.sub i j := rfl
@[simp] theorem setCe_sensor (d : Nat) (x : Ce) (i : Nat) : (s.setCe d x).sensor i = s.sensor i := rfl

/-! `setBord` changes `borders` alone. -/
@[simp] theorem setBord_clk (d : Nat) (x : Border) : (s.setBord d x).clk = s.clk := rfl
@[simp] theorem setBord_regs (d : Nat) (x : Border) : (s.setBord d x).regs = s.regs := rfl
@[simp] theorem setBord_pages (d : Nat) (x : Border) : (s.setBord d x).pages = s.pages := rfl
@[simp] theorem setBord_flt (d : Nat) (x : Border) : (s.setBord d x).flt = s.flt := rfl
@[simp] theorem setBord_tiles (d : Nat) (x : Border) : (s.setBord d x).tiles = s.tiles := rfl
@[simp] theorem setBord_osd (d : Nat) (x : Border) : (s.setBord d x).osd = s.osd := rfl
@[simp] theorem setBord_cad (d : Nat) (x : Border) : (s.setBord d x).cad = s.cad := rfl
@[simp] theorem setBord_mesh (d : Nat) (x : Border) : (s.setBord d x).mesh = s.mesh := rfl
@[simp] theorem setBord_edges (d : Nat) (x : Border) : (s.setBord d x).edges = s.edges := rfl
@[simp] theorem setBord_hbm (d : Nat) (x : Border) : (s.setBord d x).hbm = s.hbm := rfl
@[simp] theorem setBord_stake (d : Nat) (x : Border) : (s.setBord d x).stake = s.stake := rfl
@[simp] theorem setBord_stakeOld (d : Nat) (x : Border) : (s.setBord d x).stakeOld = s.stakeOld := rfl
@[simp] theorem setBord_sideRem (d : Nat) (x : Border) : (s.setBord d x).sideRem = s.sideRem := rfl
@[simp] theorem setBord_cool (d : Nat) (x : Border) : (s.setBord d x).cool = s.cool := rfl
@[simp] theorem setBord_scrubAt (d : Nat) (x : Border) : (s.setBord d x).scrubAt = s.scrubAt := rfl
@[simp] theorem setBord_ovb (d : Nat) (x : Border) : (s.setBord d x).ovb = s.ovb := rfl
@[simp] theorem setBord_ovbOver (d : Nat) (x : Border) : (s.setBord d x).ovbOver = s.ovbOver := rfl
@[simp] theorem setBord_quiet (d : Nat) (x : Border) : (s.setBord d x).quiet = s.quiet := rfl
@[simp] theorem setBord_engs (d : Nat) (x : Border) : (s.setBord d x).engs = s.engs := rfl
@[simp] theorem setBord_reads (d : Nat) (x : Border) : (s.setBord d x).reads = s.reads := rfl
@[simp] theorem setBord_loads (d : Nat) (x : Border) : (s.setBord d x).loads = s.loads := rfl
@[simp] theorem setBord_units (d : Nat) (x : Border) : (s.setBord d x).units = s.units := rfl
@[simp] theorem setBord_offers (d : Nat) (x : Border) : (s.setBord d x).offers = s.offers := rfl
@[simp] theorem setBord_reqs (d : Nat) (x : Border) : (s.setBord d x).reqs = s.reqs := rfl
@[simp] theorem setBord_nbq (d : Nat) (x : Border) : (s.setBord d x).nbq = s.nbq := rfl
@[simp] theorem setBord_arrivals (d : Nat) (x : Border) : (s.setBord d x).arrivals = s.arrivals := rfl
@[simp] theorem setBord_ces (d : Nat) (x : Border) : (s.setBord d x).ces = s.ces := rfl
@[simp] theorem setBord_cbuf (d : Nat) (x : Border) : (s.setBord d x).cbuf = s.cbuf := rfl
@[simp] theorem setBord_aud (d : Nat) (x : Border) : (s.setBord d x).aud = s.aud := rfl
@[simp] theorem setBord_pkgt (d : Nat) (x : Border) : (s.setBord d x).pkgt = s.pkgt := rfl
@[simp] theorem setBord_wl (d : Nat) (x : Border) : (s.setBord d x).wl = s.wl := rfl
@[simp] theorem setBord_lanes (d : Nat) (x : Border) : (s.setBord d x).lanes = s.lanes := rfl
@[simp] theorem setBord_fibs (d : Nat) (x : Border) : (s.setBord d x).fibs = s.fibs := rfl
@[simp] theorem setBord_wfs (d : Nat) (x : Border) : (s.setBord d x).wfs = s.wfs := rfl
@[simp] theorem setBord_rds (d : Nat) (x : Border) : (s.setBord d x).rds = s.rds := rfl
@[simp] theorem setBord_lasers (d : Nat) (x : Border) : (s.setBord d x).lasers = s.lasers := rfl
@[simp] theorem setBord_cal (d : Nat) (x : Border) : (s.setBord d x).cal = s.cal := rfl
@[simp] theorem setBord_calSh (d : Nat) (x : Border) : (s.setBord d x).calSh = s.calSh := rfl
@[simp] theorem setBord_subs (d : Nat) (x : Border) : (s.setBord d x).subs = s.subs := rfl
@[simp] theorem setBord_grantAt (d : Nat) (x : Border) : (s.setBord d x).grantAt = s.grantAt := rfl
@[simp] theorem setBord_sbGen (d : Nat) (x : Border) : (s.setBord d x).sbGen = s.sbGen := rfl
@[simp] theorem setBord_notes (d : Nat) (x : Border) : (s.setBord d x).notes = s.notes := rfl
@[simp] theorem setBord_sqs (d : Nat) (x : Border) : (s.setBord d x).sqs = s.sqs := rfl
@[simp] theorem setBord_dmas (d : Nat) (x : Border) : (s.setBord d x).dmas = s.dmas := rfl
@[simp] theorem setBord_acks (d : Nat) (x : Border) : (s.setBord d x).acks = s.acks := rfl
@[simp] theorem setBord_pins (d : Nat) (x : Border) : (s.setBord d x).pins = s.pins := rfl
@[simp] theorem setBord_hoops (d : Nat) (x : Border) : (s.setBord d x).hoops = s.hoops := rfl
@[simp] theorem setBord_ring (d : Nat) (x : Border) : (s.setBord d x).ring = s.ring := rfl
@[simp] theorem setBord_snaps (d : Nat) (x : Border) : (s.setBord d x).snaps = s.snaps := rfl
@[simp] theorem setBord_com (d : Nat) (x : Border) : (s.setBord d x).com = s.com := rfl
@[simp] theorem setBord_sens (d : Nat) (x : Border) : (s.setBord d x).sens = s.sens := rfl
@[simp] theorem setBord_dth (d : Nat) (x : Border) : (s.setBord d x).dth = s.dth := rfl
@[simp] theorem setBord_thp (d : Nat) (x : Border) : (s.setBord d x).thp = s.thp := rfl
@[simp] theorem setBord_fits (d : Nat) (x : Border) : (s.setBord d x).fits = s.fits := rfl
@[simp] theorem setBord_agePend (d : Nat) (x : Border) : (s.setBord d x).agePend = s.agePend := rfl
@[simp] theorem setBord_flash (d : Nat) (x : Border) : (s.setBord d x).flash = s.flash := rfl
@[simp] theorem setBord_start (d : Nat) (x : Border) : (s.setBord d x).start = s.start := rfl
@[simp] theorem setBord_out (d : Nat) (x : Border) : (s.setBord d x).out = s.out := rfl
@[simp] theorem setBord_freeCtr (d : Nat) (x : Border) : (s.setBord d x).freeCtr = s.freeCtr := rfl
@[simp] theorem setBord_pending (d : Nat) (x : Border) : (s.setBord d x).pending = s.pending := rfl
@[simp] theorem setBord_rd (d : Nat) (x : Border) (i : Nat) (y : Fld) : (s.setBord d x).rd i y = s.rd i y := rfl
@[simp] theorem setBord_page (d : Nat) (x : Border) (i : Nat) : (s.setBord d x).page i = s.page i := rfl
@[simp] theorem setBord_tile (d : Nat) (x : Border) (i j : Nat) : (s.setBord d x).tile i j = s.tile i j := rfl
@[simp] theorem setBord_od (d : Nat) (x : Border) (i : Nat) : (s.setBord d x).od i = s.od i := rfl
@[simp] theorem setBord_eng (d : Nat) (x : Border) (i j : Nat) : (s.setBord d x).eng i j = s.eng i j := rfl
@[simp] theorem setBord_ce (d : Nat) (x : Border) (i : Nat) : (s.setBord d x).ce i = s.ce i := rfl
@[simp] theorem setBord_hoop (d : Nat) (x : Border) (i : Nat) : (s.setBord d x).hoop i = s.hoop i := rfl
@[simp] theorem setBord_flashOf (d : Nat) (x : Border) (i : Nat) : (s.setBord d x).flashOf i = s.flashOf i := rfl
@[simp] theorem setBord_sq (d : Nat) (x : Border) (i j : Nat) : (s.setBord d x).sq i j = s.sq i j := rfl
@[simp] theorem setBord_wle (d : Nat) (x : Border) (i : Nat) : (s.setBord d x).wle i = s.wle i := rfl
@[simp] theorem setBord_sub (d : Nat) (x : Border) (i j : Nat) : (s.setBord d x).sub i j = s.sub i j := rfl
@[simp] theorem setBord_sensor (d : Nat) (x : Border) (i : Nat) : (s.setBord d x).sensor i = s.sensor i := rfl

/-! `setAu` changes `aud` alone. -/
@[simp] theorem setAu_clk (d : Nat) (x : AudSt) : (s.setAu d x).clk = s.clk := rfl
@[simp] theorem setAu_regs (d : Nat) (x : AudSt) : (s.setAu d x).regs = s.regs := rfl
@[simp] theorem setAu_pages (d : Nat) (x : AudSt) : (s.setAu d x).pages = s.pages := rfl
@[simp] theorem setAu_flt (d : Nat) (x : AudSt) : (s.setAu d x).flt = s.flt := rfl
@[simp] theorem setAu_tiles (d : Nat) (x : AudSt) : (s.setAu d x).tiles = s.tiles := rfl
@[simp] theorem setAu_osd (d : Nat) (x : AudSt) : (s.setAu d x).osd = s.osd := rfl
@[simp] theorem setAu_cad (d : Nat) (x : AudSt) : (s.setAu d x).cad = s.cad := rfl
@[simp] theorem setAu_mesh (d : Nat) (x : AudSt) : (s.setAu d x).mesh = s.mesh := rfl
@[simp] theorem setAu_edges (d : Nat) (x : AudSt) : (s.setAu d x).edges = s.edges := rfl
@[simp] theorem setAu_hbm (d : Nat) (x : AudSt) : (s.setAu d x).hbm = s.hbm := rfl
@[simp] theorem setAu_stake (d : Nat) (x : AudSt) : (s.setAu d x).stake = s.stake := rfl
@[simp] theorem setAu_stakeOld (d : Nat) (x : AudSt) : (s.setAu d x).stakeOld = s.stakeOld := rfl
@[simp] theorem setAu_sideRem (d : Nat) (x : AudSt) : (s.setAu d x).sideRem = s.sideRem := rfl
@[simp] theorem setAu_cool (d : Nat) (x : AudSt) : (s.setAu d x).cool = s.cool := rfl
@[simp] theorem setAu_scrubAt (d : Nat) (x : AudSt) : (s.setAu d x).scrubAt = s.scrubAt := rfl
@[simp] theorem setAu_ovb (d : Nat) (x : AudSt) : (s.setAu d x).ovb = s.ovb := rfl
@[simp] theorem setAu_ovbOver (d : Nat) (x : AudSt) : (s.setAu d x).ovbOver = s.ovbOver := rfl
@[simp] theorem setAu_quiet (d : Nat) (x : AudSt) : (s.setAu d x).quiet = s.quiet := rfl
@[simp] theorem setAu_engs (d : Nat) (x : AudSt) : (s.setAu d x).engs = s.engs := rfl
@[simp] theorem setAu_reads (d : Nat) (x : AudSt) : (s.setAu d x).reads = s.reads := rfl
@[simp] theorem setAu_loads (d : Nat) (x : AudSt) : (s.setAu d x).loads = s.loads := rfl
@[simp] theorem setAu_units (d : Nat) (x : AudSt) : (s.setAu d x).units = s.units := rfl
@[simp] theorem setAu_offers (d : Nat) (x : AudSt) : (s.setAu d x).offers = s.offers := rfl
@[simp] theorem setAu_reqs (d : Nat) (x : AudSt) : (s.setAu d x).reqs = s.reqs := rfl
@[simp] theorem setAu_nbq (d : Nat) (x : AudSt) : (s.setAu d x).nbq = s.nbq := rfl
@[simp] theorem setAu_arrivals (d : Nat) (x : AudSt) : (s.setAu d x).arrivals = s.arrivals := rfl
@[simp] theorem setAu_ces (d : Nat) (x : AudSt) : (s.setAu d x).ces = s.ces := rfl
@[simp] theorem setAu_cbuf (d : Nat) (x : AudSt) : (s.setAu d x).cbuf = s.cbuf := rfl
@[simp] theorem setAu_borders (d : Nat) (x : AudSt) : (s.setAu d x).borders = s.borders := rfl
@[simp] theorem setAu_pkgt (d : Nat) (x : AudSt) : (s.setAu d x).pkgt = s.pkgt := rfl
@[simp] theorem setAu_wl (d : Nat) (x : AudSt) : (s.setAu d x).wl = s.wl := rfl
@[simp] theorem setAu_lanes (d : Nat) (x : AudSt) : (s.setAu d x).lanes = s.lanes := rfl
@[simp] theorem setAu_fibs (d : Nat) (x : AudSt) : (s.setAu d x).fibs = s.fibs := rfl
@[simp] theorem setAu_wfs (d : Nat) (x : AudSt) : (s.setAu d x).wfs = s.wfs := rfl
@[simp] theorem setAu_rds (d : Nat) (x : AudSt) : (s.setAu d x).rds = s.rds := rfl
@[simp] theorem setAu_lasers (d : Nat) (x : AudSt) : (s.setAu d x).lasers = s.lasers := rfl
@[simp] theorem setAu_cal (d : Nat) (x : AudSt) : (s.setAu d x).cal = s.cal := rfl
@[simp] theorem setAu_calSh (d : Nat) (x : AudSt) : (s.setAu d x).calSh = s.calSh := rfl
@[simp] theorem setAu_subs (d : Nat) (x : AudSt) : (s.setAu d x).subs = s.subs := rfl
@[simp] theorem setAu_grantAt (d : Nat) (x : AudSt) : (s.setAu d x).grantAt = s.grantAt := rfl
@[simp] theorem setAu_sbGen (d : Nat) (x : AudSt) : (s.setAu d x).sbGen = s.sbGen := rfl
@[simp] theorem setAu_notes (d : Nat) (x : AudSt) : (s.setAu d x).notes = s.notes := rfl
@[simp] theorem setAu_sqs (d : Nat) (x : AudSt) : (s.setAu d x).sqs = s.sqs := rfl
@[simp] theorem setAu_dmas (d : Nat) (x : AudSt) : (s.setAu d x).dmas = s.dmas := rfl
@[simp] theorem setAu_acks (d : Nat) (x : AudSt) : (s.setAu d x).acks = s.acks := rfl
@[simp] theorem setAu_pins (d : Nat) (x : AudSt) : (s.setAu d x).pins = s.pins := rfl
@[simp] theorem setAu_hoops (d : Nat) (x : AudSt) : (s.setAu d x).hoops = s.hoops := rfl
@[simp] theorem setAu_ring (d : Nat) (x : AudSt) : (s.setAu d x).ring = s.ring := rfl
@[simp] theorem setAu_snaps (d : Nat) (x : AudSt) : (s.setAu d x).snaps = s.snaps := rfl
@[simp] theorem setAu_com (d : Nat) (x : AudSt) : (s.setAu d x).com = s.com := rfl
@[simp] theorem setAu_sens (d : Nat) (x : AudSt) : (s.setAu d x).sens = s.sens := rfl
@[simp] theorem setAu_dth (d : Nat) (x : AudSt) : (s.setAu d x).dth = s.dth := rfl
@[simp] theorem setAu_thp (d : Nat) (x : AudSt) : (s.setAu d x).thp = s.thp := rfl
@[simp] theorem setAu_fits (d : Nat) (x : AudSt) : (s.setAu d x).fits = s.fits := rfl
@[simp] theorem setAu_agePend (d : Nat) (x : AudSt) : (s.setAu d x).agePend = s.agePend := rfl
@[simp] theorem setAu_flash (d : Nat) (x : AudSt) : (s.setAu d x).flash = s.flash := rfl
@[simp] theorem setAu_start (d : Nat) (x : AudSt) : (s.setAu d x).start = s.start := rfl
@[simp] theorem setAu_out (d : Nat) (x : AudSt) : (s.setAu d x).out = s.out := rfl
@[simp] theorem setAu_freeCtr (d : Nat) (x : AudSt) : (s.setAu d x).freeCtr = s.freeCtr := rfl
@[simp] theorem setAu_pending (d : Nat) (x : AudSt) : (s.setAu d x).pending = s.pending := rfl
@[simp] theorem setAu_rd (d : Nat) (x : AudSt) (i : Nat) (y : Fld) : (s.setAu d x).rd i y = s.rd i y := rfl
@[simp] theorem setAu_page (d : Nat) (x : AudSt) (i : Nat) : (s.setAu d x).page i = s.page i := rfl
@[simp] theorem setAu_tile (d : Nat) (x : AudSt) (i j : Nat) : (s.setAu d x).tile i j = s.tile i j := rfl
@[simp] theorem setAu_od (d : Nat) (x : AudSt) (i : Nat) : (s.setAu d x).od i = s.od i := rfl
@[simp] theorem setAu_eng (d : Nat) (x : AudSt) (i j : Nat) : (s.setAu d x).eng i j = s.eng i j := rfl
@[simp] theorem setAu_ce (d : Nat) (x : AudSt) (i : Nat) : (s.setAu d x).ce i = s.ce i := rfl
@[simp] theorem setAu_hoop (d : Nat) (x : AudSt) (i : Nat) : (s.setAu d x).hoop i = s.hoop i := rfl
@[simp] theorem setAu_flashOf (d : Nat) (x : AudSt) (i : Nat) : (s.setAu d x).flashOf i = s.flashOf i := rfl
@[simp] theorem setAu_sq (d : Nat) (x : AudSt) (i j : Nat) : (s.setAu d x).sq i j = s.sq i j := rfl
@[simp] theorem setAu_wle (d : Nat) (x : AudSt) (i : Nat) : (s.setAu d x).wle i = s.wle i := rfl
@[simp] theorem setAu_sub (d : Nat) (x : AudSt) (i j : Nat) : (s.setAu d x).sub i j = s.sub i j := rfl
@[simp] theorem setAu_sensor (d : Nat) (x : AudSt) (i : Nat) : (s.setAu d x).sensor i = s.sensor i := rfl

/-! `setWle` changes `wl` alone. -/
@[simp] theorem setWle_clk (p : Nat) (x : WlEnd) : (s.setWle p x).clk = s.clk := rfl
@[simp] theorem setWle_regs (p : Nat) (x : WlEnd) : (s.setWle p x).regs = s.regs := rfl
@[simp] theorem setWle_pages (p : Nat) (x : WlEnd) : (s.setWle p x).pages = s.pages := rfl
@[simp] theorem setWle_flt (p : Nat) (x : WlEnd) : (s.setWle p x).flt = s.flt := rfl
@[simp] theorem setWle_tiles (p : Nat) (x : WlEnd) : (s.setWle p x).tiles = s.tiles := rfl
@[simp] theorem setWle_osd (p : Nat) (x : WlEnd) : (s.setWle p x).osd = s.osd := rfl
@[simp] theorem setWle_cad (p : Nat) (x : WlEnd) : (s.setWle p x).cad = s.cad := rfl
@[simp] theorem setWle_mesh (p : Nat) (x : WlEnd) : (s.setWle p x).mesh = s.mesh := rfl
@[simp] theorem setWle_edges (p : Nat) (x : WlEnd) : (s.setWle p x).edges = s.edges := rfl
@[simp] theorem setWle_hbm (p : Nat) (x : WlEnd) : (s.setWle p x).hbm = s.hbm := rfl
@[simp] theorem setWle_stake (p : Nat) (x : WlEnd) : (s.setWle p x).stake = s.stake := rfl
@[simp] theorem setWle_stakeOld (p : Nat) (x : WlEnd) : (s.setWle p x).stakeOld = s.stakeOld := rfl
@[simp] theorem setWle_sideRem (p : Nat) (x : WlEnd) : (s.setWle p x).sideRem = s.sideRem := rfl
@[simp] theorem setWle_cool (p : Nat) (x : WlEnd) : (s.setWle p x).cool = s.cool := rfl
@[simp] theorem setWle_scrubAt (p : Nat) (x : WlEnd) : (s.setWle p x).scrubAt = s.scrubAt := rfl
@[simp] theorem setWle_ovb (p : Nat) (x : WlEnd) : (s.setWle p x).ovb = s.ovb := rfl
@[simp] theorem setWle_ovbOver (p : Nat) (x : WlEnd) : (s.setWle p x).ovbOver = s.ovbOver := rfl
@[simp] theorem setWle_quiet (p : Nat) (x : WlEnd) : (s.setWle p x).quiet = s.quiet := rfl
@[simp] theorem setWle_engs (p : Nat) (x : WlEnd) : (s.setWle p x).engs = s.engs := rfl
@[simp] theorem setWle_reads (p : Nat) (x : WlEnd) : (s.setWle p x).reads = s.reads := rfl
@[simp] theorem setWle_loads (p : Nat) (x : WlEnd) : (s.setWle p x).loads = s.loads := rfl
@[simp] theorem setWle_units (p : Nat) (x : WlEnd) : (s.setWle p x).units = s.units := rfl
@[simp] theorem setWle_offers (p : Nat) (x : WlEnd) : (s.setWle p x).offers = s.offers := rfl
@[simp] theorem setWle_reqs (p : Nat) (x : WlEnd) : (s.setWle p x).reqs = s.reqs := rfl
@[simp] theorem setWle_nbq (p : Nat) (x : WlEnd) : (s.setWle p x).nbq = s.nbq := rfl
@[simp] theorem setWle_arrivals (p : Nat) (x : WlEnd) : (s.setWle p x).arrivals = s.arrivals := rfl
@[simp] theorem setWle_ces (p : Nat) (x : WlEnd) : (s.setWle p x).ces = s.ces := rfl
@[simp] theorem setWle_cbuf (p : Nat) (x : WlEnd) : (s.setWle p x).cbuf = s.cbuf := rfl
@[simp] theorem setWle_borders (p : Nat) (x : WlEnd) : (s.setWle p x).borders = s.borders := rfl
@[simp] theorem setWle_aud (p : Nat) (x : WlEnd) : (s.setWle p x).aud = s.aud := rfl
@[simp] theorem setWle_pkgt (p : Nat) (x : WlEnd) : (s.setWle p x).pkgt = s.pkgt := rfl
@[simp] theorem setWle_lanes (p : Nat) (x : WlEnd) : (s.setWle p x).lanes = s.lanes := rfl
@[simp] theorem setWle_fibs (p : Nat) (x : WlEnd) : (s.setWle p x).fibs = s.fibs := rfl
@[simp] theorem setWle_wfs (p : Nat) (x : WlEnd) : (s.setWle p x).wfs = s.wfs := rfl
@[simp] theorem setWle_rds (p : Nat) (x : WlEnd) : (s.setWle p x).rds = s.rds := rfl
@[simp] theorem setWle_lasers (p : Nat) (x : WlEnd) : (s.setWle p x).lasers = s.lasers := rfl
@[simp] theorem setWle_cal (p : Nat) (x : WlEnd) : (s.setWle p x).cal = s.cal := rfl
@[simp] theorem setWle_calSh (p : Nat) (x : WlEnd) : (s.setWle p x).calSh = s.calSh := rfl
@[simp] theorem setWle_subs (p : Nat) (x : WlEnd) : (s.setWle p x).subs = s.subs := rfl
@[simp] theorem setWle_grantAt (p : Nat) (x : WlEnd) : (s.setWle p x).grantAt = s.grantAt := rfl
@[simp] theorem setWle_sbGen (p : Nat) (x : WlEnd) : (s.setWle p x).sbGen = s.sbGen := rfl
@[simp] theorem setWle_notes (p : Nat) (x : WlEnd) : (s.setWle p x).notes = s.notes := rfl
@[simp] theorem setWle_sqs (p : Nat) (x : WlEnd) : (s.setWle p x).sqs = s.sqs := rfl
@[simp] theorem setWle_dmas (p : Nat) (x : WlEnd) : (s.setWle p x).dmas = s.dmas := rfl
@[simp] theorem setWle_acks (p : Nat) (x : WlEnd) : (s.setWle p x).acks = s.acks := rfl
@[simp] theorem setWle_pins (p : Nat) (x : WlEnd) : (s.setWle p x).pins = s.pins := rfl
@[simp] theorem setWle_hoops (p : Nat) (x : WlEnd) : (s.setWle p x).hoops = s.hoops := rfl
@[simp] theorem setWle_ring (p : Nat) (x : WlEnd) : (s.setWle p x).ring = s.ring := rfl
@[simp] theorem setWle_snaps (p : Nat) (x : WlEnd) : (s.setWle p x).snaps = s.snaps := rfl
@[simp] theorem setWle_com (p : Nat) (x : WlEnd) : (s.setWle p x).com = s.com := rfl
@[simp] theorem setWle_sens (p : Nat) (x : WlEnd) : (s.setWle p x).sens = s.sens := rfl
@[simp] theorem setWle_dth (p : Nat) (x : WlEnd) : (s.setWle p x).dth = s.dth := rfl
@[simp] theorem setWle_thp (p : Nat) (x : WlEnd) : (s.setWle p x).thp = s.thp := rfl
@[simp] theorem setWle_fits (p : Nat) (x : WlEnd) : (s.setWle p x).fits = s.fits := rfl
@[simp] theorem setWle_agePend (p : Nat) (x : WlEnd) : (s.setWle p x).agePend = s.agePend := rfl
@[simp] theorem setWle_flash (p : Nat) (x : WlEnd) : (s.setWle p x).flash = s.flash := rfl
@[simp] theorem setWle_start (p : Nat) (x : WlEnd) : (s.setWle p x).start = s.start := rfl
@[simp] theorem setWle_out (p : Nat) (x : WlEnd) : (s.setWle p x).out = s.out := rfl
@[simp] theorem setWle_freeCtr (p : Nat) (x : WlEnd) : (s.setWle p x).freeCtr = s.freeCtr := rfl
@[simp] theorem setWle_pending (p : Nat) (x : WlEnd) : (s.setWle p x).pending = s.pending := rfl
@[simp] theorem setWle_rd (p : Nat) (x : WlEnd) (i : Nat) (y : Fld) : (s.setWle p x).rd i y = s.rd i y := rfl
@[simp] theorem setWle_page (p : Nat) (x : WlEnd) (i : Nat) : (s.setWle p x).page i = s.page i := rfl
@[simp] theorem setWle_tile (p : Nat) (x : WlEnd) (i j : Nat) : (s.setWle p x).tile i j = s.tile i j := rfl
@[simp] theorem setWle_od (p : Nat) (x : WlEnd) (i : Nat) : (s.setWle p x).od i = s.od i := rfl
@[simp] theorem setWle_eng (p : Nat) (x : WlEnd) (i j : Nat) : (s.setWle p x).eng i j = s.eng i j := rfl
@[simp] theorem setWle_ce (p : Nat) (x : WlEnd) (i : Nat) : (s.setWle p x).ce i = s.ce i := rfl
@[simp] theorem setWle_hoop (p : Nat) (x : WlEnd) (i : Nat) : (s.setWle p x).hoop i = s.hoop i := rfl
@[simp] theorem setWle_flashOf (p : Nat) (x : WlEnd) (i : Nat) : (s.setWle p x).flashOf i = s.flashOf i := rfl
@[simp] theorem setWle_sq (p : Nat) (x : WlEnd) (i j : Nat) : (s.setWle p x).sq i j = s.sq i j := rfl
@[simp] theorem setWle_sub (p : Nat) (x : WlEnd) (i j : Nat) : (s.setWle p x).sub i j = s.sub i j := rfl
@[simp] theorem setWle_sensor (p : Nat) (x : WlEnd) (i : Nat) : (s.setWle p x).sensor i = s.sensor i := rfl

/-! `setLane` changes `lanes` alone. -/
@[simp] theorem setLane_clk (w f k dir : Nat) (x : Lane) : (s.setLane w f k dir x).clk = s.clk := rfl
@[simp] theorem setLane_regs (w f k dir : Nat) (x : Lane) : (s.setLane w f k dir x).regs = s.regs := rfl
@[simp] theorem setLane_pages (w f k dir : Nat) (x : Lane) : (s.setLane w f k dir x).pages = s.pages := rfl
@[simp] theorem setLane_flt (w f k dir : Nat) (x : Lane) : (s.setLane w f k dir x).flt = s.flt := rfl
@[simp] theorem setLane_tiles (w f k dir : Nat) (x : Lane) : (s.setLane w f k dir x).tiles = s.tiles := rfl
@[simp] theorem setLane_osd (w f k dir : Nat) (x : Lane) : (s.setLane w f k dir x).osd = s.osd := rfl
@[simp] theorem setLane_cad (w f k dir : Nat) (x : Lane) : (s.setLane w f k dir x).cad = s.cad := rfl
@[simp] theorem setLane_mesh (w f k dir : Nat) (x : Lane) : (s.setLane w f k dir x).mesh = s.mesh := rfl
@[simp] theorem setLane_edges (w f k dir : Nat) (x : Lane) : (s.setLane w f k dir x).edges = s.edges := rfl
@[simp] theorem setLane_hbm (w f k dir : Nat) (x : Lane) : (s.setLane w f k dir x).hbm = s.hbm := rfl
@[simp] theorem setLane_stake (w f k dir : Nat) (x : Lane) : (s.setLane w f k dir x).stake = s.stake := rfl
@[simp] theorem setLane_stakeOld (w f k dir : Nat) (x : Lane) : (s.setLane w f k dir x).stakeOld = s.stakeOld := rfl
@[simp] theorem setLane_sideRem (w f k dir : Nat) (x : Lane) : (s.setLane w f k dir x).sideRem = s.sideRem := rfl
@[simp] theorem setLane_cool (w f k dir : Nat) (x : Lane) : (s.setLane w f k dir x).cool = s.cool := rfl
@[simp] theorem setLane_scrubAt (w f k dir : Nat) (x : Lane) : (s.setLane w f k dir x).scrubAt = s.scrubAt := rfl
@[simp] theorem setLane_ovb (w f k dir : Nat) (x : Lane) : (s.setLane w f k dir x).ovb = s.ovb := rfl
@[simp] theorem setLane_ovbOver (w f k dir : Nat) (x : Lane) : (s.setLane w f k dir x).ovbOver = s.ovbOver := rfl
@[simp] theorem setLane_quiet (w f k dir : Nat) (x : Lane) : (s.setLane w f k dir x).quiet = s.quiet := rfl
@[simp] theorem setLane_engs (w f k dir : Nat) (x : Lane) : (s.setLane w f k dir x).engs = s.engs := rfl
@[simp] theorem setLane_reads (w f k dir : Nat) (x : Lane) : (s.setLane w f k dir x).reads = s.reads := rfl
@[simp] theorem setLane_loads (w f k dir : Nat) (x : Lane) : (s.setLane w f k dir x).loads = s.loads := rfl
@[simp] theorem setLane_units (w f k dir : Nat) (x : Lane) : (s.setLane w f k dir x).units = s.units := rfl
@[simp] theorem setLane_offers (w f k dir : Nat) (x : Lane) : (s.setLane w f k dir x).offers = s.offers := rfl
@[simp] theorem setLane_reqs (w f k dir : Nat) (x : Lane) : (s.setLane w f k dir x).reqs = s.reqs := rfl
@[simp] theorem setLane_nbq (w f k dir : Nat) (x : Lane) : (s.setLane w f k dir x).nbq = s.nbq := rfl
@[simp] theorem setLane_arrivals (w f k dir : Nat) (x : Lane) : (s.setLane w f k dir x).arrivals = s.arrivals := rfl
@[simp] theorem setLane_ces (w f k dir : Nat) (x : Lane) : (s.setLane w f k dir x).ces = s.ces := rfl
@[simp] theorem setLane_cbuf (w f k dir : Nat) (x : Lane) : (s.setLane w f k dir x).cbuf = s.cbuf := rfl
@[simp] theorem setLane_borders (w f k dir : Nat) (x : Lane) : (s.setLane w f k dir x).borders = s.borders := rfl
@[simp] theorem setLane_aud (w f k dir : Nat) (x : Lane) : (s.setLane w f k dir x).aud = s.aud := rfl
@[simp] theorem setLane_pkgt (w f k dir : Nat) (x : Lane) : (s.setLane w f k dir x).pkgt = s.pkgt := rfl
@[simp] theorem setLane_wl (w f k dir : Nat) (x : Lane) : (s.setLane w f k dir x).wl = s.wl := rfl
@[simp] theorem setLane_fibs (w f k dir : Nat) (x : Lane) : (s.setLane w f k dir x).fibs = s.fibs := rfl
@[simp] theorem setLane_wfs (w f k dir : Nat) (x : Lane) : (s.setLane w f k dir x).wfs = s.wfs := rfl
@[simp] theorem setLane_rds (w f k dir : Nat) (x : Lane) : (s.setLane w f k dir x).rds = s.rds := rfl
@[simp] theorem setLane_lasers (w f k dir : Nat) (x : Lane) : (s.setLane w f k dir x).lasers = s.lasers := rfl
@[simp] theorem setLane_cal (w f k dir : Nat) (x : Lane) : (s.setLane w f k dir x).cal = s.cal := rfl
@[simp] theorem setLane_calSh (w f k dir : Nat) (x : Lane) : (s.setLane w f k dir x).calSh = s.calSh := rfl
@[simp] theorem setLane_subs (w f k dir : Nat) (x : Lane) : (s.setLane w f k dir x).subs = s.subs := rfl
@[simp] theorem setLane_grantAt (w f k dir : Nat) (x : Lane) : (s.setLane w f k dir x).grantAt = s.grantAt := rfl
@[simp] theorem setLane_sbGen (w f k dir : Nat) (x : Lane) : (s.setLane w f k dir x).sbGen = s.sbGen := rfl
@[simp] theorem setLane_notes (w f k dir : Nat) (x : Lane) : (s.setLane w f k dir x).notes = s.notes := rfl
@[simp] theorem setLane_sqs (w f k dir : Nat) (x : Lane) : (s.setLane w f k dir x).sqs = s.sqs := rfl
@[simp] theorem setLane_dmas (w f k dir : Nat) (x : Lane) : (s.setLane w f k dir x).dmas = s.dmas := rfl
@[simp] theorem setLane_acks (w f k dir : Nat) (x : Lane) : (s.setLane w f k dir x).acks = s.acks := rfl
@[simp] theorem setLane_pins (w f k dir : Nat) (x : Lane) : (s.setLane w f k dir x).pins = s.pins := rfl
@[simp] theorem setLane_hoops (w f k dir : Nat) (x : Lane) : (s.setLane w f k dir x).hoops = s.hoops := rfl
@[simp] theorem setLane_ring (w f k dir : Nat) (x : Lane) : (s.setLane w f k dir x).ring = s.ring := rfl
@[simp] theorem setLane_snaps (w f k dir : Nat) (x : Lane) : (s.setLane w f k dir x).snaps = s.snaps := rfl
@[simp] theorem setLane_com (w f k dir : Nat) (x : Lane) : (s.setLane w f k dir x).com = s.com := rfl
@[simp] theorem setLane_sens (w f k dir : Nat) (x : Lane) : (s.setLane w f k dir x).sens = s.sens := rfl
@[simp] theorem setLane_dth (w f k dir : Nat) (x : Lane) : (s.setLane w f k dir x).dth = s.dth := rfl
@[simp] theorem setLane_thp (w f k dir : Nat) (x : Lane) : (s.setLane w f k dir x).thp = s.thp := rfl
@[simp] theorem setLane_fits (w f k dir : Nat) (x : Lane) : (s.setLane w f k dir x).fits = s.fits := rfl
@[simp] theorem setLane_agePend (w f k dir : Nat) (x : Lane) : (s.setLane w f k dir x).agePend = s.agePend := rfl
@[simp] theorem setLane_flash (w f k dir : Nat) (x : Lane) : (s.setLane w f k dir x).flash = s.flash := rfl
@[simp] theorem setLane_start (w f k dir : Nat) (x : Lane) : (s.setLane w f k dir x).start = s.start := rfl
@[simp] theorem setLane_out (w f k dir : Nat) (x : Lane) : (s.setLane w f k dir x).out = s.out := rfl
@[simp] theorem setLane_freeCtr (w f k dir : Nat) (x : Lane) : (s.setLane w f k dir x).freeCtr = s.freeCtr := rfl
@[simp] theorem setLane_pending (w f k dir : Nat) (x : Lane) : (s.setLane w f k dir x).pending = s.pending := rfl
@[simp] theorem setLane_rd (w f k dir : Nat) (x : Lane) (i : Nat) (y : Fld) : (s.setLane w f k dir x).rd i y = s.rd i y := rfl
@[simp] theorem setLane_page (w f k dir : Nat) (x : Lane) (i : Nat) : (s.setLane w f k dir x).page i = s.page i := rfl
@[simp] theorem setLane_tile (w f k dir : Nat) (x : Lane) (i j : Nat) : (s.setLane w f k dir x).tile i j = s.tile i j := rfl
@[simp] theorem setLane_od (w f k dir : Nat) (x : Lane) (i : Nat) : (s.setLane w f k dir x).od i = s.od i := rfl
@[simp] theorem setLane_eng (w f k dir : Nat) (x : Lane) (i j : Nat) : (s.setLane w f k dir x).eng i j = s.eng i j := rfl
@[simp] theorem setLane_ce (w f k dir : Nat) (x : Lane) (i : Nat) : (s.setLane w f k dir x).ce i = s.ce i := rfl
@[simp] theorem setLane_hoop (w f k dir : Nat) (x : Lane) (i : Nat) : (s.setLane w f k dir x).hoop i = s.hoop i := rfl
@[simp] theorem setLane_flashOf (w f k dir : Nat) (x : Lane) (i : Nat) : (s.setLane w f k dir x).flashOf i = s.flashOf i := rfl
@[simp] theorem setLane_sq (w f k dir : Nat) (x : Lane) (i j : Nat) : (s.setLane w f k dir x).sq i j = s.sq i j := rfl
@[simp] theorem setLane_wle (w f k dir : Nat) (x : Lane) (i : Nat) : (s.setLane w f k dir x).wle i = s.wle i := rfl
@[simp] theorem setLane_sub (w f k dir : Nat) (x : Lane) (i j : Nat) : (s.setLane w f k dir x).sub i j = s.sub i j := rfl
@[simp] theorem setLane_sensor (w f k dir : Nat) (x : Lane) (i : Nat) : (s.setLane w f k dir x).sensor i = s.sensor i := rfl

/-! `setFibre` changes `fibs` alone. -/
@[simp] theorem setFibre_clk (w f : Nat) (x : FibSt) : (s.setFibre w f x).clk = s.clk := rfl
@[simp] theorem setFibre_regs (w f : Nat) (x : FibSt) : (s.setFibre w f x).regs = s.regs := rfl
@[simp] theorem setFibre_pages (w f : Nat) (x : FibSt) : (s.setFibre w f x).pages = s.pages := rfl
@[simp] theorem setFibre_flt (w f : Nat) (x : FibSt) : (s.setFibre w f x).flt = s.flt := rfl
@[simp] theorem setFibre_tiles (w f : Nat) (x : FibSt) : (s.setFibre w f x).tiles = s.tiles := rfl
@[simp] theorem setFibre_osd (w f : Nat) (x : FibSt) : (s.setFibre w f x).osd = s.osd := rfl
@[simp] theorem setFibre_cad (w f : Nat) (x : FibSt) : (s.setFibre w f x).cad = s.cad := rfl
@[simp] theorem setFibre_mesh (w f : Nat) (x : FibSt) : (s.setFibre w f x).mesh = s.mesh := rfl
@[simp] theorem setFibre_edges (w f : Nat) (x : FibSt) : (s.setFibre w f x).edges = s.edges := rfl
@[simp] theorem setFibre_hbm (w f : Nat) (x : FibSt) : (s.setFibre w f x).hbm = s.hbm := rfl
@[simp] theorem setFibre_stake (w f : Nat) (x : FibSt) : (s.setFibre w f x).stake = s.stake := rfl
@[simp] theorem setFibre_stakeOld (w f : Nat) (x : FibSt) : (s.setFibre w f x).stakeOld = s.stakeOld := rfl
@[simp] theorem setFibre_sideRem (w f : Nat) (x : FibSt) : (s.setFibre w f x).sideRem = s.sideRem := rfl
@[simp] theorem setFibre_cool (w f : Nat) (x : FibSt) : (s.setFibre w f x).cool = s.cool := rfl
@[simp] theorem setFibre_scrubAt (w f : Nat) (x : FibSt) : (s.setFibre w f x).scrubAt = s.scrubAt := rfl
@[simp] theorem setFibre_ovb (w f : Nat) (x : FibSt) : (s.setFibre w f x).ovb = s.ovb := rfl
@[simp] theorem setFibre_ovbOver (w f : Nat) (x : FibSt) : (s.setFibre w f x).ovbOver = s.ovbOver := rfl
@[simp] theorem setFibre_quiet (w f : Nat) (x : FibSt) : (s.setFibre w f x).quiet = s.quiet := rfl
@[simp] theorem setFibre_engs (w f : Nat) (x : FibSt) : (s.setFibre w f x).engs = s.engs := rfl
@[simp] theorem setFibre_reads (w f : Nat) (x : FibSt) : (s.setFibre w f x).reads = s.reads := rfl
@[simp] theorem setFibre_loads (w f : Nat) (x : FibSt) : (s.setFibre w f x).loads = s.loads := rfl
@[simp] theorem setFibre_units (w f : Nat) (x : FibSt) : (s.setFibre w f x).units = s.units := rfl
@[simp] theorem setFibre_offers (w f : Nat) (x : FibSt) : (s.setFibre w f x).offers = s.offers := rfl
@[simp] theorem setFibre_reqs (w f : Nat) (x : FibSt) : (s.setFibre w f x).reqs = s.reqs := rfl
@[simp] theorem setFibre_nbq (w f : Nat) (x : FibSt) : (s.setFibre w f x).nbq = s.nbq := rfl
@[simp] theorem setFibre_arrivals (w f : Nat) (x : FibSt) : (s.setFibre w f x).arrivals = s.arrivals := rfl
@[simp] theorem setFibre_ces (w f : Nat) (x : FibSt) : (s.setFibre w f x).ces = s.ces := rfl
@[simp] theorem setFibre_cbuf (w f : Nat) (x : FibSt) : (s.setFibre w f x).cbuf = s.cbuf := rfl
@[simp] theorem setFibre_borders (w f : Nat) (x : FibSt) : (s.setFibre w f x).borders = s.borders := rfl
@[simp] theorem setFibre_aud (w f : Nat) (x : FibSt) : (s.setFibre w f x).aud = s.aud := rfl
@[simp] theorem setFibre_pkgt (w f : Nat) (x : FibSt) : (s.setFibre w f x).pkgt = s.pkgt := rfl
@[simp] theorem setFibre_wl (w f : Nat) (x : FibSt) : (s.setFibre w f x).wl = s.wl := rfl
@[simp] theorem setFibre_lanes (w f : Nat) (x : FibSt) : (s.setFibre w f x).lanes = s.lanes := rfl
@[simp] theorem setFibre_wfs (w f : Nat) (x : FibSt) : (s.setFibre w f x).wfs = s.wfs := rfl
@[simp] theorem setFibre_rds (w f : Nat) (x : FibSt) : (s.setFibre w f x).rds = s.rds := rfl
@[simp] theorem setFibre_lasers (w f : Nat) (x : FibSt) : (s.setFibre w f x).lasers = s.lasers := rfl
@[simp] theorem setFibre_cal (w f : Nat) (x : FibSt) : (s.setFibre w f x).cal = s.cal := rfl
@[simp] theorem setFibre_calSh (w f : Nat) (x : FibSt) : (s.setFibre w f x).calSh = s.calSh := rfl
@[simp] theorem setFibre_subs (w f : Nat) (x : FibSt) : (s.setFibre w f x).subs = s.subs := rfl
@[simp] theorem setFibre_grantAt (w f : Nat) (x : FibSt) : (s.setFibre w f x).grantAt = s.grantAt := rfl
@[simp] theorem setFibre_sbGen (w f : Nat) (x : FibSt) : (s.setFibre w f x).sbGen = s.sbGen := rfl
@[simp] theorem setFibre_notes (w f : Nat) (x : FibSt) : (s.setFibre w f x).notes = s.notes := rfl
@[simp] theorem setFibre_sqs (w f : Nat) (x : FibSt) : (s.setFibre w f x).sqs = s.sqs := rfl
@[simp] theorem setFibre_dmas (w f : Nat) (x : FibSt) : (s.setFibre w f x).dmas = s.dmas := rfl
@[simp] theorem setFibre_acks (w f : Nat) (x : FibSt) : (s.setFibre w f x).acks = s.acks := rfl
@[simp] theorem setFibre_pins (w f : Nat) (x : FibSt) : (s.setFibre w f x).pins = s.pins := rfl
@[simp] theorem setFibre_hoops (w f : Nat) (x : FibSt) : (s.setFibre w f x).hoops = s.hoops := rfl
@[simp] theorem setFibre_ring (w f : Nat) (x : FibSt) : (s.setFibre w f x).ring = s.ring := rfl
@[simp] theorem setFibre_snaps (w f : Nat) (x : FibSt) : (s.setFibre w f x).snaps = s.snaps := rfl
@[simp] theorem setFibre_com (w f : Nat) (x : FibSt) : (s.setFibre w f x).com = s.com := rfl
@[simp] theorem setFibre_sens (w f : Nat) (x : FibSt) : (s.setFibre w f x).sens = s.sens := rfl
@[simp] theorem setFibre_dth (w f : Nat) (x : FibSt) : (s.setFibre w f x).dth = s.dth := rfl
@[simp] theorem setFibre_thp (w f : Nat) (x : FibSt) : (s.setFibre w f x).thp = s.thp := rfl
@[simp] theorem setFibre_fits (w f : Nat) (x : FibSt) : (s.setFibre w f x).fits = s.fits := rfl
@[simp] theorem setFibre_agePend (w f : Nat) (x : FibSt) : (s.setFibre w f x).agePend = s.agePend := rfl
@[simp] theorem setFibre_flash (w f : Nat) (x : FibSt) : (s.setFibre w f x).flash = s.flash := rfl
@[simp] theorem setFibre_start (w f : Nat) (x : FibSt) : (s.setFibre w f x).start = s.start := rfl
@[simp] theorem setFibre_out (w f : Nat) (x : FibSt) : (s.setFibre w f x).out = s.out := rfl
@[simp] theorem setFibre_freeCtr (w f : Nat) (x : FibSt) : (s.setFibre w f x).freeCtr = s.freeCtr := rfl
@[simp] theorem setFibre_pending (w f : Nat) (x : FibSt) : (s.setFibre w f x).pending = s.pending := rfl
@[simp] theorem setFibre_rd (w f : Nat) (x : FibSt) (i : Nat) (y : Fld) : (s.setFibre w f x).rd i y = s.rd i y := rfl
@[simp] theorem setFibre_page (w f : Nat) (x : FibSt) (i : Nat) : (s.setFibre w f x).page i = s.page i := rfl
@[simp] theorem setFibre_tile (w f : Nat) (x : FibSt) (i j : Nat) : (s.setFibre w f x).tile i j = s.tile i j := rfl
@[simp] theorem setFibre_od (w f : Nat) (x : FibSt) (i : Nat) : (s.setFibre w f x).od i = s.od i := rfl
@[simp] theorem setFibre_eng (w f : Nat) (x : FibSt) (i j : Nat) : (s.setFibre w f x).eng i j = s.eng i j := rfl
@[simp] theorem setFibre_ce (w f : Nat) (x : FibSt) (i : Nat) : (s.setFibre w f x).ce i = s.ce i := rfl
@[simp] theorem setFibre_hoop (w f : Nat) (x : FibSt) (i : Nat) : (s.setFibre w f x).hoop i = s.hoop i := rfl
@[simp] theorem setFibre_flashOf (w f : Nat) (x : FibSt) (i : Nat) : (s.setFibre w f x).flashOf i = s.flashOf i := rfl
@[simp] theorem setFibre_sq (w f : Nat) (x : FibSt) (i j : Nat) : (s.setFibre w f x).sq i j = s.sq i j := rfl
@[simp] theorem setFibre_wle (w f : Nat) (x : FibSt) (i : Nat) : (s.setFibre w f x).wle i = s.wle i := rfl
@[simp] theorem setFibre_sub (w f : Nat) (x : FibSt) (i j : Nat) : (s.setFibre w f x).sub i j = s.sub i j := rfl
@[simp] theorem setFibre_sensor (w f : Nat) (x : FibSt) (i : Nat) : (s.setFibre w f x).sensor i = s.sensor i := rfl

/-! `setWf` changes `wfs` alone. -/
@[simp] theorem setWf_clk (w : Nat) (x : WfSt) : (s.setWf w x).clk = s.clk := rfl
@[simp] theorem setWf_regs (w : Nat) (x : WfSt) : (s.setWf w x).regs = s.regs := rfl
@[simp] theorem setWf_pages (w : Nat) (x : WfSt) : (s.setWf w x).pages = s.pages := rfl
@[simp] theorem setWf_flt (w : Nat) (x : WfSt) : (s.setWf w x).flt = s.flt := rfl
@[simp] theorem setWf_tiles (w : Nat) (x : WfSt) : (s.setWf w x).tiles = s.tiles := rfl
@[simp] theorem setWf_osd (w : Nat) (x : WfSt) : (s.setWf w x).osd = s.osd := rfl
@[simp] theorem setWf_cad (w : Nat) (x : WfSt) : (s.setWf w x).cad = s.cad := rfl
@[simp] theorem setWf_mesh (w : Nat) (x : WfSt) : (s.setWf w x).mesh = s.mesh := rfl
@[simp] theorem setWf_edges (w : Nat) (x : WfSt) : (s.setWf w x).edges = s.edges := rfl
@[simp] theorem setWf_hbm (w : Nat) (x : WfSt) : (s.setWf w x).hbm = s.hbm := rfl
@[simp] theorem setWf_stake (w : Nat) (x : WfSt) : (s.setWf w x).stake = s.stake := rfl
@[simp] theorem setWf_stakeOld (w : Nat) (x : WfSt) : (s.setWf w x).stakeOld = s.stakeOld := rfl
@[simp] theorem setWf_sideRem (w : Nat) (x : WfSt) : (s.setWf w x).sideRem = s.sideRem := rfl
@[simp] theorem setWf_cool (w : Nat) (x : WfSt) : (s.setWf w x).cool = s.cool := rfl
@[simp] theorem setWf_scrubAt (w : Nat) (x : WfSt) : (s.setWf w x).scrubAt = s.scrubAt := rfl
@[simp] theorem setWf_ovb (w : Nat) (x : WfSt) : (s.setWf w x).ovb = s.ovb := rfl
@[simp] theorem setWf_ovbOver (w : Nat) (x : WfSt) : (s.setWf w x).ovbOver = s.ovbOver := rfl
@[simp] theorem setWf_quiet (w : Nat) (x : WfSt) : (s.setWf w x).quiet = s.quiet := rfl
@[simp] theorem setWf_engs (w : Nat) (x : WfSt) : (s.setWf w x).engs = s.engs := rfl
@[simp] theorem setWf_reads (w : Nat) (x : WfSt) : (s.setWf w x).reads = s.reads := rfl
@[simp] theorem setWf_loads (w : Nat) (x : WfSt) : (s.setWf w x).loads = s.loads := rfl
@[simp] theorem setWf_units (w : Nat) (x : WfSt) : (s.setWf w x).units = s.units := rfl
@[simp] theorem setWf_offers (w : Nat) (x : WfSt) : (s.setWf w x).offers = s.offers := rfl
@[simp] theorem setWf_reqs (w : Nat) (x : WfSt) : (s.setWf w x).reqs = s.reqs := rfl
@[simp] theorem setWf_nbq (w : Nat) (x : WfSt) : (s.setWf w x).nbq = s.nbq := rfl
@[simp] theorem setWf_arrivals (w : Nat) (x : WfSt) : (s.setWf w x).arrivals = s.arrivals := rfl
@[simp] theorem setWf_ces (w : Nat) (x : WfSt) : (s.setWf w x).ces = s.ces := rfl
@[simp] theorem setWf_cbuf (w : Nat) (x : WfSt) : (s.setWf w x).cbuf = s.cbuf := rfl
@[simp] theorem setWf_borders (w : Nat) (x : WfSt) : (s.setWf w x).borders = s.borders := rfl
@[simp] theorem setWf_aud (w : Nat) (x : WfSt) : (s.setWf w x).aud = s.aud := rfl
@[simp] theorem setWf_pkgt (w : Nat) (x : WfSt) : (s.setWf w x).pkgt = s.pkgt := rfl
@[simp] theorem setWf_wl (w : Nat) (x : WfSt) : (s.setWf w x).wl = s.wl := rfl
@[simp] theorem setWf_lanes (w : Nat) (x : WfSt) : (s.setWf w x).lanes = s.lanes := rfl
@[simp] theorem setWf_fibs (w : Nat) (x : WfSt) : (s.setWf w x).fibs = s.fibs := rfl
@[simp] theorem setWf_rds (w : Nat) (x : WfSt) : (s.setWf w x).rds = s.rds := rfl
@[simp] theorem setWf_lasers (w : Nat) (x : WfSt) : (s.setWf w x).lasers = s.lasers := rfl
@[simp] theorem setWf_cal (w : Nat) (x : WfSt) : (s.setWf w x).cal = s.cal := rfl
@[simp] theorem setWf_calSh (w : Nat) (x : WfSt) : (s.setWf w x).calSh = s.calSh := rfl
@[simp] theorem setWf_subs (w : Nat) (x : WfSt) : (s.setWf w x).subs = s.subs := rfl
@[simp] theorem setWf_grantAt (w : Nat) (x : WfSt) : (s.setWf w x).grantAt = s.grantAt := rfl
@[simp] theorem setWf_sbGen (w : Nat) (x : WfSt) : (s.setWf w x).sbGen = s.sbGen := rfl
@[simp] theorem setWf_notes (w : Nat) (x : WfSt) : (s.setWf w x).notes = s.notes := rfl
@[simp] theorem setWf_sqs (w : Nat) (x : WfSt) : (s.setWf w x).sqs = s.sqs := rfl
@[simp] theorem setWf_dmas (w : Nat) (x : WfSt) : (s.setWf w x).dmas = s.dmas := rfl
@[simp] theorem setWf_acks (w : Nat) (x : WfSt) : (s.setWf w x).acks = s.acks := rfl
@[simp] theorem setWf_pins (w : Nat) (x : WfSt) : (s.setWf w x).pins = s.pins := rfl
@[simp] theorem setWf_hoops (w : Nat) (x : WfSt) : (s.setWf w x).hoops = s.hoops := rfl
@[simp] theorem setWf_ring (w : Nat) (x : WfSt) : (s.setWf w x).ring = s.ring := rfl
@[simp] theorem setWf_snaps (w : Nat) (x : WfSt) : (s.setWf w x).snaps = s.snaps := rfl
@[simp] theorem setWf_com (w : Nat) (x : WfSt) : (s.setWf w x).com = s.com := rfl
@[simp] theorem setWf_sens (w : Nat) (x : WfSt) : (s.setWf w x).sens = s.sens := rfl
@[simp] theorem setWf_dth (w : Nat) (x : WfSt) : (s.setWf w x).dth = s.dth := rfl
@[simp] theorem setWf_thp (w : Nat) (x : WfSt) : (s.setWf w x).thp = s.thp := rfl
@[simp] theorem setWf_fits (w : Nat) (x : WfSt) : (s.setWf w x).fits = s.fits := rfl
@[simp] theorem setWf_agePend (w : Nat) (x : WfSt) : (s.setWf w x).agePend = s.agePend := rfl
@[simp] theorem setWf_flash (w : Nat) (x : WfSt) : (s.setWf w x).flash = s.flash := rfl
@[simp] theorem setWf_start (w : Nat) (x : WfSt) : (s.setWf w x).start = s.start := rfl
@[simp] theorem setWf_out (w : Nat) (x : WfSt) : (s.setWf w x).out = s.out := rfl
@[simp] theorem setWf_freeCtr (w : Nat) (x : WfSt) : (s.setWf w x).freeCtr = s.freeCtr := rfl
@[simp] theorem setWf_pending (w : Nat) (x : WfSt) : (s.setWf w x).pending = s.pending := rfl
@[simp] theorem setWf_rd (w : Nat) (x : WfSt) (i : Nat) (y : Fld) : (s.setWf w x).rd i y = s.rd i y := rfl
@[simp] theorem setWf_page (w : Nat) (x : WfSt) (i : Nat) : (s.setWf w x).page i = s.page i := rfl
@[simp] theorem setWf_tile (w : Nat) (x : WfSt) (i j : Nat) : (s.setWf w x).tile i j = s.tile i j := rfl
@[simp] theorem setWf_od (w : Nat) (x : WfSt) (i : Nat) : (s.setWf w x).od i = s.od i := rfl
@[simp] theorem setWf_eng (w : Nat) (x : WfSt) (i j : Nat) : (s.setWf w x).eng i j = s.eng i j := rfl
@[simp] theorem setWf_ce (w : Nat) (x : WfSt) (i : Nat) : (s.setWf w x).ce i = s.ce i := rfl
@[simp] theorem setWf_hoop (w : Nat) (x : WfSt) (i : Nat) : (s.setWf w x).hoop i = s.hoop i := rfl
@[simp] theorem setWf_flashOf (w : Nat) (x : WfSt) (i : Nat) : (s.setWf w x).flashOf i = s.flashOf i := rfl
@[simp] theorem setWf_sq (w : Nat) (x : WfSt) (i j : Nat) : (s.setWf w x).sq i j = s.sq i j := rfl
@[simp] theorem setWf_wle (w : Nat) (x : WfSt) (i : Nat) : (s.setWf w x).wle i = s.wle i := rfl
@[simp] theorem setWf_sub (w : Nat) (x : WfSt) (i j : Nat) : (s.setWf w x).sub i j = s.sub i j := rfl
@[simp] theorem setWf_sensor (w : Nat) (x : WfSt) (i : Nat) : (s.setWf w x).sensor i = s.sensor i := rfl

/-! `setReed` changes `rds` alone. -/
@[simp] theorem setReed_clk (r : Nat) (x : RdSt) : (s.setReed r x).clk = s.clk := rfl
@[simp] theorem setReed_regs (r : Nat) (x : RdSt) : (s.setReed r x).regs = s.regs := rfl
@[simp] theorem setReed_pages (r : Nat) (x : RdSt) : (s.setReed r x).pages = s.pages := rfl
@[simp] theorem setReed_flt (r : Nat) (x : RdSt) : (s.setReed r x).flt = s.flt := rfl
@[simp] theorem setReed_tiles (r : Nat) (x : RdSt) : (s.setReed r x).tiles = s.tiles := rfl
@[simp] theorem setReed_osd (r : Nat) (x : RdSt) : (s.setReed r x).osd = s.osd := rfl
@[simp] theorem setReed_cad (r : Nat) (x : RdSt) : (s.setReed r x).cad = s.cad := rfl
@[simp] theorem setReed_mesh (r : Nat) (x : RdSt) : (s.setReed r x).mesh = s.mesh := rfl
@[simp] theorem setReed_edges (r : Nat) (x : RdSt) : (s.setReed r x).edges = s.edges := rfl
@[simp] theorem setReed_hbm (r : Nat) (x : RdSt) : (s.setReed r x).hbm = s.hbm := rfl
@[simp] theorem setReed_stake (r : Nat) (x : RdSt) : (s.setReed r x).stake = s.stake := rfl
@[simp] theorem setReed_stakeOld (r : Nat) (x : RdSt) : (s.setReed r x).stakeOld = s.stakeOld := rfl
@[simp] theorem setReed_sideRem (r : Nat) (x : RdSt) : (s.setReed r x).sideRem = s.sideRem := rfl
@[simp] theorem setReed_cool (r : Nat) (x : RdSt) : (s.setReed r x).cool = s.cool := rfl
@[simp] theorem setReed_scrubAt (r : Nat) (x : RdSt) : (s.setReed r x).scrubAt = s.scrubAt := rfl
@[simp] theorem setReed_ovb (r : Nat) (x : RdSt) : (s.setReed r x).ovb = s.ovb := rfl
@[simp] theorem setReed_ovbOver (r : Nat) (x : RdSt) : (s.setReed r x).ovbOver = s.ovbOver := rfl
@[simp] theorem setReed_quiet (r : Nat) (x : RdSt) : (s.setReed r x).quiet = s.quiet := rfl
@[simp] theorem setReed_engs (r : Nat) (x : RdSt) : (s.setReed r x).engs = s.engs := rfl
@[simp] theorem setReed_reads (r : Nat) (x : RdSt) : (s.setReed r x).reads = s.reads := rfl
@[simp] theorem setReed_loads (r : Nat) (x : RdSt) : (s.setReed r x).loads = s.loads := rfl
@[simp] theorem setReed_units (r : Nat) (x : RdSt) : (s.setReed r x).units = s.units := rfl
@[simp] theorem setReed_offers (r : Nat) (x : RdSt) : (s.setReed r x).offers = s.offers := rfl
@[simp] theorem setReed_reqs (r : Nat) (x : RdSt) : (s.setReed r x).reqs = s.reqs := rfl
@[simp] theorem setReed_nbq (r : Nat) (x : RdSt) : (s.setReed r x).nbq = s.nbq := rfl
@[simp] theorem setReed_arrivals (r : Nat) (x : RdSt) : (s.setReed r x).arrivals = s.arrivals := rfl
@[simp] theorem setReed_ces (r : Nat) (x : RdSt) : (s.setReed r x).ces = s.ces := rfl
@[simp] theorem setReed_cbuf (r : Nat) (x : RdSt) : (s.setReed r x).cbuf = s.cbuf := rfl
@[simp] theorem setReed_borders (r : Nat) (x : RdSt) : (s.setReed r x).borders = s.borders := rfl
@[simp] theorem setReed_aud (r : Nat) (x : RdSt) : (s.setReed r x).aud = s.aud := rfl
@[simp] theorem setReed_pkgt (r : Nat) (x : RdSt) : (s.setReed r x).pkgt = s.pkgt := rfl
@[simp] theorem setReed_wl (r : Nat) (x : RdSt) : (s.setReed r x).wl = s.wl := rfl
@[simp] theorem setReed_lanes (r : Nat) (x : RdSt) : (s.setReed r x).lanes = s.lanes := rfl
@[simp] theorem setReed_fibs (r : Nat) (x : RdSt) : (s.setReed r x).fibs = s.fibs := rfl
@[simp] theorem setReed_wfs (r : Nat) (x : RdSt) : (s.setReed r x).wfs = s.wfs := rfl
@[simp] theorem setReed_lasers (r : Nat) (x : RdSt) : (s.setReed r x).lasers = s.lasers := rfl
@[simp] theorem setReed_cal (r : Nat) (x : RdSt) : (s.setReed r x).cal = s.cal := rfl
@[simp] theorem setReed_calSh (r : Nat) (x : RdSt) : (s.setReed r x).calSh = s.calSh := rfl
@[simp] theorem setReed_subs (r : Nat) (x : RdSt) : (s.setReed r x).subs = s.subs := rfl
@[simp] theorem setReed_grantAt (r : Nat) (x : RdSt) : (s.setReed r x).grantAt = s.grantAt := rfl
@[simp] theorem setReed_sbGen (r : Nat) (x : RdSt) : (s.setReed r x).sbGen = s.sbGen := rfl
@[simp] theorem setReed_notes (r : Nat) (x : RdSt) : (s.setReed r x).notes = s.notes := rfl
@[simp] theorem setReed_sqs (r : Nat) (x : RdSt) : (s.setReed r x).sqs = s.sqs := rfl
@[simp] theorem setReed_dmas (r : Nat) (x : RdSt) : (s.setReed r x).dmas = s.dmas := rfl
@[simp] theorem setReed_acks (r : Nat) (x : RdSt) : (s.setReed r x).acks = s.acks := rfl
@[simp] theorem setReed_pins (r : Nat) (x : RdSt) : (s.setReed r x).pins = s.pins := rfl
@[simp] theorem setReed_hoops (r : Nat) (x : RdSt) : (s.setReed r x).hoops = s.hoops := rfl
@[simp] theorem setReed_ring (r : Nat) (x : RdSt) : (s.setReed r x).ring = s.ring := rfl
@[simp] theorem setReed_snaps (r : Nat) (x : RdSt) : (s.setReed r x).snaps = s.snaps := rfl
@[simp] theorem setReed_com (r : Nat) (x : RdSt) : (s.setReed r x).com = s.com := rfl
@[simp] theorem setReed_sens (r : Nat) (x : RdSt) : (s.setReed r x).sens = s.sens := rfl
@[simp] theorem setReed_dth (r : Nat) (x : RdSt) : (s.setReed r x).dth = s.dth := rfl
@[simp] theorem setReed_thp (r : Nat) (x : RdSt) : (s.setReed r x).thp = s.thp := rfl
@[simp] theorem setReed_fits (r : Nat) (x : RdSt) : (s.setReed r x).fits = s.fits := rfl
@[simp] theorem setReed_agePend (r : Nat) (x : RdSt) : (s.setReed r x).agePend = s.agePend := rfl
@[simp] theorem setReed_flash (r : Nat) (x : RdSt) : (s.setReed r x).flash = s.flash := rfl
@[simp] theorem setReed_start (r : Nat) (x : RdSt) : (s.setReed r x).start = s.start := rfl
@[simp] theorem setReed_out (r : Nat) (x : RdSt) : (s.setReed r x).out = s.out := rfl
@[simp] theorem setReed_freeCtr (r : Nat) (x : RdSt) : (s.setReed r x).freeCtr = s.freeCtr := rfl
@[simp] theorem setReed_pending (r : Nat) (x : RdSt) : (s.setReed r x).pending = s.pending := rfl
@[simp] theorem setReed_rd (r : Nat) (x : RdSt) (i : Nat) (y : Fld) : (s.setReed r x).rd i y = s.rd i y := rfl
@[simp] theorem setReed_page (r : Nat) (x : RdSt) (i : Nat) : (s.setReed r x).page i = s.page i := rfl
@[simp] theorem setReed_tile (r : Nat) (x : RdSt) (i j : Nat) : (s.setReed r x).tile i j = s.tile i j := rfl
@[simp] theorem setReed_od (r : Nat) (x : RdSt) (i : Nat) : (s.setReed r x).od i = s.od i := rfl
@[simp] theorem setReed_eng (r : Nat) (x : RdSt) (i j : Nat) : (s.setReed r x).eng i j = s.eng i j := rfl
@[simp] theorem setReed_ce (r : Nat) (x : RdSt) (i : Nat) : (s.setReed r x).ce i = s.ce i := rfl
@[simp] theorem setReed_hoop (r : Nat) (x : RdSt) (i : Nat) : (s.setReed r x).hoop i = s.hoop i := rfl
@[simp] theorem setReed_flashOf (r : Nat) (x : RdSt) (i : Nat) : (s.setReed r x).flashOf i = s.flashOf i := rfl
@[simp] theorem setReed_sq (r : Nat) (x : RdSt) (i j : Nat) : (s.setReed r x).sq i j = s.sq i j := rfl
@[simp] theorem setReed_wle (r : Nat) (x : RdSt) (i : Nat) : (s.setReed r x).wle i = s.wle i := rfl
@[simp] theorem setReed_sub (r : Nat) (x : RdSt) (i j : Nat) : (s.setReed r x).sub i j = s.sub i j := rfl
@[simp] theorem setReed_sensor (r : Nat) (x : RdSt) (i : Nat) : (s.setReed r x).sensor i = s.sensor i := rfl

/-! `setLaserSt` changes `lasers` alone. -/
@[simp] theorem setLaserSt_clk (r k : Nat) (x : LaserSt) : (s.setLaserSt r k x).clk = s.clk := rfl
@[simp] theorem setLaserSt_regs (r k : Nat) (x : LaserSt) : (s.setLaserSt r k x).regs = s.regs := rfl
@[simp] theorem setLaserSt_pages (r k : Nat) (x : LaserSt) : (s.setLaserSt r k x).pages = s.pages := rfl
@[simp] theorem setLaserSt_flt (r k : Nat) (x : LaserSt) : (s.setLaserSt r k x).flt = s.flt := rfl
@[simp] theorem setLaserSt_tiles (r k : Nat) (x : LaserSt) : (s.setLaserSt r k x).tiles = s.tiles := rfl
@[simp] theorem setLaserSt_osd (r k : Nat) (x : LaserSt) : (s.setLaserSt r k x).osd = s.osd := rfl
@[simp] theorem setLaserSt_cad (r k : Nat) (x : LaserSt) : (s.setLaserSt r k x).cad = s.cad := rfl
@[simp] theorem setLaserSt_mesh (r k : Nat) (x : LaserSt) : (s.setLaserSt r k x).mesh = s.mesh := rfl
@[simp] theorem setLaserSt_edges (r k : Nat) (x : LaserSt) : (s.setLaserSt r k x).edges = s.edges := rfl
@[simp] theorem setLaserSt_hbm (r k : Nat) (x : LaserSt) : (s.setLaserSt r k x).hbm = s.hbm := rfl
@[simp] theorem setLaserSt_stake (r k : Nat) (x : LaserSt) : (s.setLaserSt r k x).stake = s.stake := rfl
@[simp] theorem setLaserSt_stakeOld (r k : Nat) (x : LaserSt) : (s.setLaserSt r k x).stakeOld = s.stakeOld := rfl
@[simp] theorem setLaserSt_sideRem (r k : Nat) (x : LaserSt) : (s.setLaserSt r k x).sideRem = s.sideRem := rfl
@[simp] theorem setLaserSt_cool (r k : Nat) (x : LaserSt) : (s.setLaserSt r k x).cool = s.cool := rfl
@[simp] theorem setLaserSt_scrubAt (r k : Nat) (x : LaserSt) : (s.setLaserSt r k x).scrubAt = s.scrubAt := rfl
@[simp] theorem setLaserSt_ovb (r k : Nat) (x : LaserSt) : (s.setLaserSt r k x).ovb = s.ovb := rfl
@[simp] theorem setLaserSt_ovbOver (r k : Nat) (x : LaserSt) : (s.setLaserSt r k x).ovbOver = s.ovbOver := rfl
@[simp] theorem setLaserSt_quiet (r k : Nat) (x : LaserSt) : (s.setLaserSt r k x).quiet = s.quiet := rfl
@[simp] theorem setLaserSt_engs (r k : Nat) (x : LaserSt) : (s.setLaserSt r k x).engs = s.engs := rfl
@[simp] theorem setLaserSt_reads (r k : Nat) (x : LaserSt) : (s.setLaserSt r k x).reads = s.reads := rfl
@[simp] theorem setLaserSt_loads (r k : Nat) (x : LaserSt) : (s.setLaserSt r k x).loads = s.loads := rfl
@[simp] theorem setLaserSt_units (r k : Nat) (x : LaserSt) : (s.setLaserSt r k x).units = s.units := rfl
@[simp] theorem setLaserSt_offers (r k : Nat) (x : LaserSt) : (s.setLaserSt r k x).offers = s.offers := rfl
@[simp] theorem setLaserSt_reqs (r k : Nat) (x : LaserSt) : (s.setLaserSt r k x).reqs = s.reqs := rfl
@[simp] theorem setLaserSt_nbq (r k : Nat) (x : LaserSt) : (s.setLaserSt r k x).nbq = s.nbq := rfl
@[simp] theorem setLaserSt_arrivals (r k : Nat) (x : LaserSt) : (s.setLaserSt r k x).arrivals = s.arrivals := rfl
@[simp] theorem setLaserSt_ces (r k : Nat) (x : LaserSt) : (s.setLaserSt r k x).ces = s.ces := rfl
@[simp] theorem setLaserSt_cbuf (r k : Nat) (x : LaserSt) : (s.setLaserSt r k x).cbuf = s.cbuf := rfl
@[simp] theorem setLaserSt_borders (r k : Nat) (x : LaserSt) : (s.setLaserSt r k x).borders = s.borders := rfl
@[simp] theorem setLaserSt_aud (r k : Nat) (x : LaserSt) : (s.setLaserSt r k x).aud = s.aud := rfl
@[simp] theorem setLaserSt_pkgt (r k : Nat) (x : LaserSt) : (s.setLaserSt r k x).pkgt = s.pkgt := rfl
@[simp] theorem setLaserSt_wl (r k : Nat) (x : LaserSt) : (s.setLaserSt r k x).wl = s.wl := rfl
@[simp] theorem setLaserSt_lanes (r k : Nat) (x : LaserSt) : (s.setLaserSt r k x).lanes = s.lanes := rfl
@[simp] theorem setLaserSt_fibs (r k : Nat) (x : LaserSt) : (s.setLaserSt r k x).fibs = s.fibs := rfl
@[simp] theorem setLaserSt_wfs (r k : Nat) (x : LaserSt) : (s.setLaserSt r k x).wfs = s.wfs := rfl
@[simp] theorem setLaserSt_rds (r k : Nat) (x : LaserSt) : (s.setLaserSt r k x).rds = s.rds := rfl
@[simp] theorem setLaserSt_cal (r k : Nat) (x : LaserSt) : (s.setLaserSt r k x).cal = s.cal := rfl
@[simp] theorem setLaserSt_calSh (r k : Nat) (x : LaserSt) : (s.setLaserSt r k x).calSh = s.calSh := rfl
@[simp] theorem setLaserSt_subs (r k : Nat) (x : LaserSt) : (s.setLaserSt r k x).subs = s.subs := rfl
@[simp] theorem setLaserSt_grantAt (r k : Nat) (x : LaserSt) : (s.setLaserSt r k x).grantAt = s.grantAt := rfl
@[simp] theorem setLaserSt_sbGen (r k : Nat) (x : LaserSt) : (s.setLaserSt r k x).sbGen = s.sbGen := rfl
@[simp] theorem setLaserSt_notes (r k : Nat) (x : LaserSt) : (s.setLaserSt r k x).notes = s.notes := rfl
@[simp] theorem setLaserSt_sqs (r k : Nat) (x : LaserSt) : (s.setLaserSt r k x).sqs = s.sqs := rfl
@[simp] theorem setLaserSt_dmas (r k : Nat) (x : LaserSt) : (s.setLaserSt r k x).dmas = s.dmas := rfl
@[simp] theorem setLaserSt_acks (r k : Nat) (x : LaserSt) : (s.setLaserSt r k x).acks = s.acks := rfl
@[simp] theorem setLaserSt_pins (r k : Nat) (x : LaserSt) : (s.setLaserSt r k x).pins = s.pins := rfl
@[simp] theorem setLaserSt_hoops (r k : Nat) (x : LaserSt) : (s.setLaserSt r k x).hoops = s.hoops := rfl
@[simp] theorem setLaserSt_ring (r k : Nat) (x : LaserSt) : (s.setLaserSt r k x).ring = s.ring := rfl
@[simp] theorem setLaserSt_snaps (r k : Nat) (x : LaserSt) : (s.setLaserSt r k x).snaps = s.snaps := rfl
@[simp] theorem setLaserSt_com (r k : Nat) (x : LaserSt) : (s.setLaserSt r k x).com = s.com := rfl
@[simp] theorem setLaserSt_sens (r k : Nat) (x : LaserSt) : (s.setLaserSt r k x).sens = s.sens := rfl
@[simp] theorem setLaserSt_dth (r k : Nat) (x : LaserSt) : (s.setLaserSt r k x).dth = s.dth := rfl
@[simp] theorem setLaserSt_thp (r k : Nat) (x : LaserSt) : (s.setLaserSt r k x).thp = s.thp := rfl
@[simp] theorem setLaserSt_fits (r k : Nat) (x : LaserSt) : (s.setLaserSt r k x).fits = s.fits := rfl
@[simp] theorem setLaserSt_agePend (r k : Nat) (x : LaserSt) : (s.setLaserSt r k x).agePend = s.agePend := rfl
@[simp] theorem setLaserSt_flash (r k : Nat) (x : LaserSt) : (s.setLaserSt r k x).flash = s.flash := rfl
@[simp] theorem setLaserSt_start (r k : Nat) (x : LaserSt) : (s.setLaserSt r k x).start = s.start := rfl
@[simp] theorem setLaserSt_out (r k : Nat) (x : LaserSt) : (s.setLaserSt r k x).out = s.out := rfl
@[simp] theorem setLaserSt_freeCtr (r k : Nat) (x : LaserSt) : (s.setLaserSt r k x).freeCtr = s.freeCtr := rfl
@[simp] theorem setLaserSt_pending (r k : Nat) (x : LaserSt) : (s.setLaserSt r k x).pending = s.pending := rfl
@[simp] theorem setLaserSt_rd (r k : Nat) (x : LaserSt) (i : Nat) (y : Fld) : (s.setLaserSt r k x).rd i y = s.rd i y := rfl
@[simp] theorem setLaserSt_page (r k : Nat) (x : LaserSt) (i : Nat) : (s.setLaserSt r k x).page i = s.page i := rfl
@[simp] theorem setLaserSt_tile (r k : Nat) (x : LaserSt) (i j : Nat) : (s.setLaserSt r k x).tile i j = s.tile i j := rfl
@[simp] theorem setLaserSt_od (r k : Nat) (x : LaserSt) (i : Nat) : (s.setLaserSt r k x).od i = s.od i := rfl
@[simp] theorem setLaserSt_eng (r k : Nat) (x : LaserSt) (i j : Nat) : (s.setLaserSt r k x).eng i j = s.eng i j := rfl
@[simp] theorem setLaserSt_ce (r k : Nat) (x : LaserSt) (i : Nat) : (s.setLaserSt r k x).ce i = s.ce i := rfl
@[simp] theorem setLaserSt_hoop (r k : Nat) (x : LaserSt) (i : Nat) : (s.setLaserSt r k x).hoop i = s.hoop i := rfl
@[simp] theorem setLaserSt_flashOf (r k : Nat) (x : LaserSt) (i : Nat) : (s.setLaserSt r k x).flashOf i = s.flashOf i := rfl
@[simp] theorem setLaserSt_sq (r k : Nat) (x : LaserSt) (i j : Nat) : (s.setLaserSt r k x).sq i j = s.sq i j := rfl
@[simp] theorem setLaserSt_wle (r k : Nat) (x : LaserSt) (i : Nat) : (s.setLaserSt r k x).wle i = s.wle i := rfl
@[simp] theorem setLaserSt_sub (r k : Nat) (x : LaserSt) (i j : Nat) : (s.setLaserSt r k x).sub i j = s.sub i j := rfl
@[simp] theorem setLaserSt_sensor (r k : Nat) (x : LaserSt) (i : Nat) : (s.setLaserSt r k x).sensor i = s.sensor i := rfl

/-! `setSub` changes `subs` alone. -/
@[simp] theorem setSub_clk (w k : Nat) (x : SubLink) : (s.setSub w k x).clk = s.clk := rfl
@[simp] theorem setSub_regs (w k : Nat) (x : SubLink) : (s.setSub w k x).regs = s.regs := rfl
@[simp] theorem setSub_pages (w k : Nat) (x : SubLink) : (s.setSub w k x).pages = s.pages := rfl
@[simp] theorem setSub_flt (w k : Nat) (x : SubLink) : (s.setSub w k x).flt = s.flt := rfl
@[simp] theorem setSub_tiles (w k : Nat) (x : SubLink) : (s.setSub w k x).tiles = s.tiles := rfl
@[simp] theorem setSub_osd (w k : Nat) (x : SubLink) : (s.setSub w k x).osd = s.osd := rfl
@[simp] theorem setSub_cad (w k : Nat) (x : SubLink) : (s.setSub w k x).cad = s.cad := rfl
@[simp] theorem setSub_mesh (w k : Nat) (x : SubLink) : (s.setSub w k x).mesh = s.mesh := rfl
@[simp] theorem setSub_edges (w k : Nat) (x : SubLink) : (s.setSub w k x).edges = s.edges := rfl
@[simp] theorem setSub_hbm (w k : Nat) (x : SubLink) : (s.setSub w k x).hbm = s.hbm := rfl
@[simp] theorem setSub_stake (w k : Nat) (x : SubLink) : (s.setSub w k x).stake = s.stake := rfl
@[simp] theorem setSub_stakeOld (w k : Nat) (x : SubLink) : (s.setSub w k x).stakeOld = s.stakeOld := rfl
@[simp] theorem setSub_sideRem (w k : Nat) (x : SubLink) : (s.setSub w k x).sideRem = s.sideRem := rfl
@[simp] theorem setSub_cool (w k : Nat) (x : SubLink) : (s.setSub w k x).cool = s.cool := rfl
@[simp] theorem setSub_scrubAt (w k : Nat) (x : SubLink) : (s.setSub w k x).scrubAt = s.scrubAt := rfl
@[simp] theorem setSub_ovb (w k : Nat) (x : SubLink) : (s.setSub w k x).ovb = s.ovb := rfl
@[simp] theorem setSub_ovbOver (w k : Nat) (x : SubLink) : (s.setSub w k x).ovbOver = s.ovbOver := rfl
@[simp] theorem setSub_quiet (w k : Nat) (x : SubLink) : (s.setSub w k x).quiet = s.quiet := rfl
@[simp] theorem setSub_engs (w k : Nat) (x : SubLink) : (s.setSub w k x).engs = s.engs := rfl
@[simp] theorem setSub_reads (w k : Nat) (x : SubLink) : (s.setSub w k x).reads = s.reads := rfl
@[simp] theorem setSub_loads (w k : Nat) (x : SubLink) : (s.setSub w k x).loads = s.loads := rfl
@[simp] theorem setSub_units (w k : Nat) (x : SubLink) : (s.setSub w k x).units = s.units := rfl
@[simp] theorem setSub_offers (w k : Nat) (x : SubLink) : (s.setSub w k x).offers = s.offers := rfl
@[simp] theorem setSub_reqs (w k : Nat) (x : SubLink) : (s.setSub w k x).reqs = s.reqs := rfl
@[simp] theorem setSub_nbq (w k : Nat) (x : SubLink) : (s.setSub w k x).nbq = s.nbq := rfl
@[simp] theorem setSub_arrivals (w k : Nat) (x : SubLink) : (s.setSub w k x).arrivals = s.arrivals := rfl
@[simp] theorem setSub_ces (w k : Nat) (x : SubLink) : (s.setSub w k x).ces = s.ces := rfl
@[simp] theorem setSub_cbuf (w k : Nat) (x : SubLink) : (s.setSub w k x).cbuf = s.cbuf := rfl
@[simp] theorem setSub_borders (w k : Nat) (x : SubLink) : (s.setSub w k x).borders = s.borders := rfl
@[simp] theorem setSub_aud (w k : Nat) (x : SubLink) : (s.setSub w k x).aud = s.aud := rfl
@[simp] theorem setSub_pkgt (w k : Nat) (x : SubLink) : (s.setSub w k x).pkgt = s.pkgt := rfl
@[simp] theorem setSub_wl (w k : Nat) (x : SubLink) : (s.setSub w k x).wl = s.wl := rfl
@[simp] theorem setSub_lanes (w k : Nat) (x : SubLink) : (s.setSub w k x).lanes = s.lanes := rfl
@[simp] theorem setSub_fibs (w k : Nat) (x : SubLink) : (s.setSub w k x).fibs = s.fibs := rfl
@[simp] theorem setSub_wfs (w k : Nat) (x : SubLink) : (s.setSub w k x).wfs = s.wfs := rfl
@[simp] theorem setSub_rds (w k : Nat) (x : SubLink) : (s.setSub w k x).rds = s.rds := rfl
@[simp] theorem setSub_lasers (w k : Nat) (x : SubLink) : (s.setSub w k x).lasers = s.lasers := rfl
@[simp] theorem setSub_cal (w k : Nat) (x : SubLink) : (s.setSub w k x).cal = s.cal := rfl
@[simp] theorem setSub_calSh (w k : Nat) (x : SubLink) : (s.setSub w k x).calSh = s.calSh := rfl
@[simp] theorem setSub_grantAt (w k : Nat) (x : SubLink) : (s.setSub w k x).grantAt = s.grantAt := rfl
@[simp] theorem setSub_sbGen (w k : Nat) (x : SubLink) : (s.setSub w k x).sbGen = s.sbGen := rfl
@[simp] theorem setSub_notes (w k : Nat) (x : SubLink) : (s.setSub w k x).notes = s.notes := rfl
@[simp] theorem setSub_sqs (w k : Nat) (x : SubLink) : (s.setSub w k x).sqs = s.sqs := rfl
@[simp] theorem setSub_dmas (w k : Nat) (x : SubLink) : (s.setSub w k x).dmas = s.dmas := rfl
@[simp] theorem setSub_acks (w k : Nat) (x : SubLink) : (s.setSub w k x).acks = s.acks := rfl
@[simp] theorem setSub_pins (w k : Nat) (x : SubLink) : (s.setSub w k x).pins = s.pins := rfl
@[simp] theorem setSub_hoops (w k : Nat) (x : SubLink) : (s.setSub w k x).hoops = s.hoops := rfl
@[simp] theorem setSub_ring (w k : Nat) (x : SubLink) : (s.setSub w k x).ring = s.ring := rfl
@[simp] theorem setSub_snaps (w k : Nat) (x : SubLink) : (s.setSub w k x).snaps = s.snaps := rfl
@[simp] theorem setSub_com (w k : Nat) (x : SubLink) : (s.setSub w k x).com = s.com := rfl
@[simp] theorem setSub_sens (w k : Nat) (x : SubLink) : (s.setSub w k x).sens = s.sens := rfl
@[simp] theorem setSub_dth (w k : Nat) (x : SubLink) : (s.setSub w k x).dth = s.dth := rfl
@[simp] theorem setSub_thp (w k : Nat) (x : SubLink) : (s.setSub w k x).thp = s.thp := rfl
@[simp] theorem setSub_fits (w k : Nat) (x : SubLink) : (s.setSub w k x).fits = s.fits := rfl
@[simp] theorem setSub_agePend (w k : Nat) (x : SubLink) : (s.setSub w k x).agePend = s.agePend := rfl
@[simp] theorem setSub_flash (w k : Nat) (x : SubLink) : (s.setSub w k x).flash = s.flash := rfl
@[simp] theorem setSub_start (w k : Nat) (x : SubLink) : (s.setSub w k x).start = s.start := rfl
@[simp] theorem setSub_out (w k : Nat) (x : SubLink) : (s.setSub w k x).out = s.out := rfl
@[simp] theorem setSub_freeCtr (w k : Nat) (x : SubLink) : (s.setSub w k x).freeCtr = s.freeCtr := rfl
@[simp] theorem setSub_pending (w k : Nat) (x : SubLink) : (s.setSub w k x).pending = s.pending := rfl
@[simp] theorem setSub_rd (w k : Nat) (x : SubLink) (i : Nat) (y : Fld) : (s.setSub w k x).rd i y = s.rd i y := rfl
@[simp] theorem setSub_page (w k : Nat) (x : SubLink) (i : Nat) : (s.setSub w k x).page i = s.page i := rfl
@[simp] theorem setSub_tile (w k : Nat) (x : SubLink) (i j : Nat) : (s.setSub w k x).tile i j = s.tile i j := rfl
@[simp] theorem setSub_od (w k : Nat) (x : SubLink) (i : Nat) : (s.setSub w k x).od i = s.od i := rfl
@[simp] theorem setSub_eng (w k : Nat) (x : SubLink) (i j : Nat) : (s.setSub w k x).eng i j = s.eng i j := rfl
@[simp] theorem setSub_ce (w k : Nat) (x : SubLink) (i : Nat) : (s.setSub w k x).ce i = s.ce i := rfl
@[simp] theorem setSub_hoop (w k : Nat) (x : SubLink) (i : Nat) : (s.setSub w k x).hoop i = s.hoop i := rfl
@[simp] theorem setSub_flashOf (w k : Nat) (x : SubLink) (i : Nat) : (s.setSub w k x).flashOf i = s.flashOf i := rfl
@[simp] theorem setSub_sq (w k : Nat) (x : SubLink) (i j : Nat) : (s.setSub w k x).sq i j = s.sq i j := rfl
@[simp] theorem setSub_wle (w k : Nat) (x : SubLink) (i : Nat) : (s.setSub w k x).wle i = s.wle i := rfl
@[simp] theorem setSub_sensor (w k : Nat) (x : SubLink) (i : Nat) : (s.setSub w k x).sensor i = s.sensor i := rfl

/-! `setSq` changes `sqs` alone. -/
@[simp] theorem setSq_clk (h q : Nat) (x : Sq) : (s.setSq h q x).clk = s.clk := rfl
@[simp] theorem setSq_regs (h q : Nat) (x : Sq) : (s.setSq h q x).regs = s.regs := rfl
@[simp] theorem setSq_pages (h q : Nat) (x : Sq) : (s.setSq h q x).pages = s.pages := rfl
@[simp] theorem setSq_flt (h q : Nat) (x : Sq) : (s.setSq h q x).flt = s.flt := rfl
@[simp] theorem setSq_tiles (h q : Nat) (x : Sq) : (s.setSq h q x).tiles = s.tiles := rfl
@[simp] theorem setSq_osd (h q : Nat) (x : Sq) : (s.setSq h q x).osd = s.osd := rfl
@[simp] theorem setSq_cad (h q : Nat) (x : Sq) : (s.setSq h q x).cad = s.cad := rfl
@[simp] theorem setSq_mesh (h q : Nat) (x : Sq) : (s.setSq h q x).mesh = s.mesh := rfl
@[simp] theorem setSq_edges (h q : Nat) (x : Sq) : (s.setSq h q x).edges = s.edges := rfl
@[simp] theorem setSq_hbm (h q : Nat) (x : Sq) : (s.setSq h q x).hbm = s.hbm := rfl
@[simp] theorem setSq_stake (h q : Nat) (x : Sq) : (s.setSq h q x).stake = s.stake := rfl
@[simp] theorem setSq_stakeOld (h q : Nat) (x : Sq) : (s.setSq h q x).stakeOld = s.stakeOld := rfl
@[simp] theorem setSq_sideRem (h q : Nat) (x : Sq) : (s.setSq h q x).sideRem = s.sideRem := rfl
@[simp] theorem setSq_cool (h q : Nat) (x : Sq) : (s.setSq h q x).cool = s.cool := rfl
@[simp] theorem setSq_scrubAt (h q : Nat) (x : Sq) : (s.setSq h q x).scrubAt = s.scrubAt := rfl
@[simp] theorem setSq_ovb (h q : Nat) (x : Sq) : (s.setSq h q x).ovb = s.ovb := rfl
@[simp] theorem setSq_ovbOver (h q : Nat) (x : Sq) : (s.setSq h q x).ovbOver = s.ovbOver := rfl
@[simp] theorem setSq_quiet (h q : Nat) (x : Sq) : (s.setSq h q x).quiet = s.quiet := rfl
@[simp] theorem setSq_engs (h q : Nat) (x : Sq) : (s.setSq h q x).engs = s.engs := rfl
@[simp] theorem setSq_reads (h q : Nat) (x : Sq) : (s.setSq h q x).reads = s.reads := rfl
@[simp] theorem setSq_loads (h q : Nat) (x : Sq) : (s.setSq h q x).loads = s.loads := rfl
@[simp] theorem setSq_units (h q : Nat) (x : Sq) : (s.setSq h q x).units = s.units := rfl
@[simp] theorem setSq_offers (h q : Nat) (x : Sq) : (s.setSq h q x).offers = s.offers := rfl
@[simp] theorem setSq_reqs (h q : Nat) (x : Sq) : (s.setSq h q x).reqs = s.reqs := rfl
@[simp] theorem setSq_nbq (h q : Nat) (x : Sq) : (s.setSq h q x).nbq = s.nbq := rfl
@[simp] theorem setSq_arrivals (h q : Nat) (x : Sq) : (s.setSq h q x).arrivals = s.arrivals := rfl
@[simp] theorem setSq_ces (h q : Nat) (x : Sq) : (s.setSq h q x).ces = s.ces := rfl
@[simp] theorem setSq_cbuf (h q : Nat) (x : Sq) : (s.setSq h q x).cbuf = s.cbuf := rfl
@[simp] theorem setSq_borders (h q : Nat) (x : Sq) : (s.setSq h q x).borders = s.borders := rfl
@[simp] theorem setSq_aud (h q : Nat) (x : Sq) : (s.setSq h q x).aud = s.aud := rfl
@[simp] theorem setSq_pkgt (h q : Nat) (x : Sq) : (s.setSq h q x).pkgt = s.pkgt := rfl
@[simp] theorem setSq_wl (h q : Nat) (x : Sq) : (s.setSq h q x).wl = s.wl := rfl
@[simp] theorem setSq_lanes (h q : Nat) (x : Sq) : (s.setSq h q x).lanes = s.lanes := rfl
@[simp] theorem setSq_fibs (h q : Nat) (x : Sq) : (s.setSq h q x).fibs = s.fibs := rfl
@[simp] theorem setSq_wfs (h q : Nat) (x : Sq) : (s.setSq h q x).wfs = s.wfs := rfl
@[simp] theorem setSq_rds (h q : Nat) (x : Sq) : (s.setSq h q x).rds = s.rds := rfl
@[simp] theorem setSq_lasers (h q : Nat) (x : Sq) : (s.setSq h q x).lasers = s.lasers := rfl
@[simp] theorem setSq_cal (h q : Nat) (x : Sq) : (s.setSq h q x).cal = s.cal := rfl
@[simp] theorem setSq_calSh (h q : Nat) (x : Sq) : (s.setSq h q x).calSh = s.calSh := rfl
@[simp] theorem setSq_subs (h q : Nat) (x : Sq) : (s.setSq h q x).subs = s.subs := rfl
@[simp] theorem setSq_grantAt (h q : Nat) (x : Sq) : (s.setSq h q x).grantAt = s.grantAt := rfl
@[simp] theorem setSq_sbGen (h q : Nat) (x : Sq) : (s.setSq h q x).sbGen = s.sbGen := rfl
@[simp] theorem setSq_notes (h q : Nat) (x : Sq) : (s.setSq h q x).notes = s.notes := rfl
@[simp] theorem setSq_dmas (h q : Nat) (x : Sq) : (s.setSq h q x).dmas = s.dmas := rfl
@[simp] theorem setSq_acks (h q : Nat) (x : Sq) : (s.setSq h q x).acks = s.acks := rfl
@[simp] theorem setSq_pins (h q : Nat) (x : Sq) : (s.setSq h q x).pins = s.pins := rfl
@[simp] theorem setSq_hoops (h q : Nat) (x : Sq) : (s.setSq h q x).hoops = s.hoops := rfl
@[simp] theorem setSq_ring (h q : Nat) (x : Sq) : (s.setSq h q x).ring = s.ring := rfl
@[simp] theorem setSq_snaps (h q : Nat) (x : Sq) : (s.setSq h q x).snaps = s.snaps := rfl
@[simp] theorem setSq_com (h q : Nat) (x : Sq) : (s.setSq h q x).com = s.com := rfl
@[simp] theorem setSq_sens (h q : Nat) (x : Sq) : (s.setSq h q x).sens = s.sens := rfl
@[simp] theorem setSq_dth (h q : Nat) (x : Sq) : (s.setSq h q x).dth = s.dth := rfl
@[simp] theorem setSq_thp (h q : Nat) (x : Sq) : (s.setSq h q x).thp = s.thp := rfl
@[simp] theorem setSq_fits (h q : Nat) (x : Sq) : (s.setSq h q x).fits = s.fits := rfl
@[simp] theorem setSq_agePend (h q : Nat) (x : Sq) : (s.setSq h q x).agePend = s.agePend := rfl
@[simp] theorem setSq_flash (h q : Nat) (x : Sq) : (s.setSq h q x).flash = s.flash := rfl
@[simp] theorem setSq_start (h q : Nat) (x : Sq) : (s.setSq h q x).start = s.start := rfl
@[simp] theorem setSq_out (h q : Nat) (x : Sq) : (s.setSq h q x).out = s.out := rfl
@[simp] theorem setSq_freeCtr (h q : Nat) (x : Sq) : (s.setSq h q x).freeCtr = s.freeCtr := rfl
@[simp] theorem setSq_pending (h q : Nat) (x : Sq) : (s.setSq h q x).pending = s.pending := rfl
@[simp] theorem setSq_rd (h q : Nat) (x : Sq) (i : Nat) (y : Fld) : (s.setSq h q x).rd i y = s.rd i y := rfl
@[simp] theorem setSq_page (h q : Nat) (x : Sq) (i : Nat) : (s.setSq h q x).page i = s.page i := rfl
@[simp] theorem setSq_tile (h q : Nat) (x : Sq) (i j : Nat) : (s.setSq h q x).tile i j = s.tile i j := rfl
@[simp] theorem setSq_od (h q : Nat) (x : Sq) (i : Nat) : (s.setSq h q x).od i = s.od i := rfl
@[simp] theorem setSq_eng (h q : Nat) (x : Sq) (i j : Nat) : (s.setSq h q x).eng i j = s.eng i j := rfl
@[simp] theorem setSq_ce (h q : Nat) (x : Sq) (i : Nat) : (s.setSq h q x).ce i = s.ce i := rfl
@[simp] theorem setSq_hoop (h q : Nat) (x : Sq) (i : Nat) : (s.setSq h q x).hoop i = s.hoop i := rfl
@[simp] theorem setSq_flashOf (h q : Nat) (x : Sq) (i : Nat) : (s.setSq h q x).flashOf i = s.flashOf i := rfl
@[simp] theorem setSq_wle (h q : Nat) (x : Sq) (i : Nat) : (s.setSq h q x).wle i = s.wle i := rfl
@[simp] theorem setSq_sub (h q : Nat) (x : Sq) (i j : Nat) : (s.setSq h q x).sub i j = s.sub i j := rfl
@[simp] theorem setSq_sensor (h q : Nat) (x : Sq) (i : Nat) : (s.setSq h q x).sensor i = s.sensor i := rfl

/-! `setDma` changes `dmas` alone. -/
@[simp] theorem setDma_clk (h c : Nat) (x : Dma) : (s.setDma h c x).clk = s.clk := rfl
@[simp] theorem setDma_regs (h c : Nat) (x : Dma) : (s.setDma h c x).regs = s.regs := rfl
@[simp] theorem setDma_pages (h c : Nat) (x : Dma) : (s.setDma h c x).pages = s.pages := rfl
@[simp] theorem setDma_flt (h c : Nat) (x : Dma) : (s.setDma h c x).flt = s.flt := rfl
@[simp] theorem setDma_tiles (h c : Nat) (x : Dma) : (s.setDma h c x).tiles = s.tiles := rfl
@[simp] theorem setDma_osd (h c : Nat) (x : Dma) : (s.setDma h c x).osd = s.osd := rfl
@[simp] theorem setDma_cad (h c : Nat) (x : Dma) : (s.setDma h c x).cad = s.cad := rfl
@[simp] theorem setDma_mesh (h c : Nat) (x : Dma) : (s.setDma h c x).mesh = s.mesh := rfl
@[simp] theorem setDma_edges (h c : Nat) (x : Dma) : (s.setDma h c x).edges = s.edges := rfl
@[simp] theorem setDma_hbm (h c : Nat) (x : Dma) : (s.setDma h c x).hbm = s.hbm := rfl
@[simp] theorem setDma_stake (h c : Nat) (x : Dma) : (s.setDma h c x).stake = s.stake := rfl
@[simp] theorem setDma_stakeOld (h c : Nat) (x : Dma) : (s.setDma h c x).stakeOld = s.stakeOld := rfl
@[simp] theorem setDma_sideRem (h c : Nat) (x : Dma) : (s.setDma h c x).sideRem = s.sideRem := rfl
@[simp] theorem setDma_cool (h c : Nat) (x : Dma) : (s.setDma h c x).cool = s.cool := rfl
@[simp] theorem setDma_scrubAt (h c : Nat) (x : Dma) : (s.setDma h c x).scrubAt = s.scrubAt := rfl
@[simp] theorem setDma_ovb (h c : Nat) (x : Dma) : (s.setDma h c x).ovb = s.ovb := rfl
@[simp] theorem setDma_ovbOver (h c : Nat) (x : Dma) : (s.setDma h c x).ovbOver = s.ovbOver := rfl
@[simp] theorem setDma_quiet (h c : Nat) (x : Dma) : (s.setDma h c x).quiet = s.quiet := rfl
@[simp] theorem setDma_engs (h c : Nat) (x : Dma) : (s.setDma h c x).engs = s.engs := rfl
@[simp] theorem setDma_reads (h c : Nat) (x : Dma) : (s.setDma h c x).reads = s.reads := rfl
@[simp] theorem setDma_loads (h c : Nat) (x : Dma) : (s.setDma h c x).loads = s.loads := rfl
@[simp] theorem setDma_units (h c : Nat) (x : Dma) : (s.setDma h c x).units = s.units := rfl
@[simp] theorem setDma_offers (h c : Nat) (x : Dma) : (s.setDma h c x).offers = s.offers := rfl
@[simp] theorem setDma_reqs (h c : Nat) (x : Dma) : (s.setDma h c x).reqs = s.reqs := rfl
@[simp] theorem setDma_nbq (h c : Nat) (x : Dma) : (s.setDma h c x).nbq = s.nbq := rfl
@[simp] theorem setDma_arrivals (h c : Nat) (x : Dma) : (s.setDma h c x).arrivals = s.arrivals := rfl
@[simp] theorem setDma_ces (h c : Nat) (x : Dma) : (s.setDma h c x).ces = s.ces := rfl
@[simp] theorem setDma_cbuf (h c : Nat) (x : Dma) : (s.setDma h c x).cbuf = s.cbuf := rfl
@[simp] theorem setDma_borders (h c : Nat) (x : Dma) : (s.setDma h c x).borders = s.borders := rfl
@[simp] theorem setDma_aud (h c : Nat) (x : Dma) : (s.setDma h c x).aud = s.aud := rfl
@[simp] theorem setDma_pkgt (h c : Nat) (x : Dma) : (s.setDma h c x).pkgt = s.pkgt := rfl
@[simp] theorem setDma_wl (h c : Nat) (x : Dma) : (s.setDma h c x).wl = s.wl := rfl
@[simp] theorem setDma_lanes (h c : Nat) (x : Dma) : (s.setDma h c x).lanes = s.lanes := rfl
@[simp] theorem setDma_fibs (h c : Nat) (x : Dma) : (s.setDma h c x).fibs = s.fibs := rfl
@[simp] theorem setDma_wfs (h c : Nat) (x : Dma) : (s.setDma h c x).wfs = s.wfs := rfl
@[simp] theorem setDma_rds (h c : Nat) (x : Dma) : (s.setDma h c x).rds = s.rds := rfl
@[simp] theorem setDma_lasers (h c : Nat) (x : Dma) : (s.setDma h c x).lasers = s.lasers := rfl
@[simp] theorem setDma_cal (h c : Nat) (x : Dma) : (s.setDma h c x).cal = s.cal := rfl
@[simp] theorem setDma_calSh (h c : Nat) (x : Dma) : (s.setDma h c x).calSh = s.calSh := rfl
@[simp] theorem setDma_subs (h c : Nat) (x : Dma) : (s.setDma h c x).subs = s.subs := rfl
@[simp] theorem setDma_grantAt (h c : Nat) (x : Dma) : (s.setDma h c x).grantAt = s.grantAt := rfl
@[simp] theorem setDma_sbGen (h c : Nat) (x : Dma) : (s.setDma h c x).sbGen = s.sbGen := rfl
@[simp] theorem setDma_notes (h c : Nat) (x : Dma) : (s.setDma h c x).notes = s.notes := rfl
@[simp] theorem setDma_sqs (h c : Nat) (x : Dma) : (s.setDma h c x).sqs = s.sqs := rfl
@[simp] theorem setDma_acks (h c : Nat) (x : Dma) : (s.setDma h c x).acks = s.acks := rfl
@[simp] theorem setDma_pins (h c : Nat) (x : Dma) : (s.setDma h c x).pins = s.pins := rfl
@[simp] theorem setDma_hoops (h c : Nat) (x : Dma) : (s.setDma h c x).hoops = s.hoops := rfl
@[simp] theorem setDma_ring (h c : Nat) (x : Dma) : (s.setDma h c x).ring = s.ring := rfl
@[simp] theorem setDma_snaps (h c : Nat) (x : Dma) : (s.setDma h c x).snaps = s.snaps := rfl
@[simp] theorem setDma_com (h c : Nat) (x : Dma) : (s.setDma h c x).com = s.com := rfl
@[simp] theorem setDma_sens (h c : Nat) (x : Dma) : (s.setDma h c x).sens = s.sens := rfl
@[simp] theorem setDma_dth (h c : Nat) (x : Dma) : (s.setDma h c x).dth = s.dth := rfl
@[simp] theorem setDma_thp (h c : Nat) (x : Dma) : (s.setDma h c x).thp = s.thp := rfl
@[simp] theorem setDma_fits (h c : Nat) (x : Dma) : (s.setDma h c x).fits = s.fits := rfl
@[simp] theorem setDma_agePend (h c : Nat) (x : Dma) : (s.setDma h c x).agePend = s.agePend := rfl
@[simp] theorem setDma_flash (h c : Nat) (x : Dma) : (s.setDma h c x).flash = s.flash := rfl
@[simp] theorem setDma_start (h c : Nat) (x : Dma) : (s.setDma h c x).start = s.start := rfl
@[simp] theorem setDma_out (h c : Nat) (x : Dma) : (s.setDma h c x).out = s.out := rfl
@[simp] theorem setDma_freeCtr (h c : Nat) (x : Dma) : (s.setDma h c x).freeCtr = s.freeCtr := rfl
@[simp] theorem setDma_pending (h c : Nat) (x : Dma) : (s.setDma h c x).pending = s.pending := rfl
@[simp] theorem setDma_rd (h c : Nat) (x : Dma) (i : Nat) (y : Fld) : (s.setDma h c x).rd i y = s.rd i y := rfl
@[simp] theorem setDma_page (h c : Nat) (x : Dma) (i : Nat) : (s.setDma h c x).page i = s.page i := rfl
@[simp] theorem setDma_tile (h c : Nat) (x : Dma) (i j : Nat) : (s.setDma h c x).tile i j = s.tile i j := rfl
@[simp] theorem setDma_od (h c : Nat) (x : Dma) (i : Nat) : (s.setDma h c x).od i = s.od i := rfl
@[simp] theorem setDma_eng (h c : Nat) (x : Dma) (i j : Nat) : (s.setDma h c x).eng i j = s.eng i j := rfl
@[simp] theorem setDma_ce (h c : Nat) (x : Dma) (i : Nat) : (s.setDma h c x).ce i = s.ce i := rfl
@[simp] theorem setDma_hoop (h c : Nat) (x : Dma) (i : Nat) : (s.setDma h c x).hoop i = s.hoop i := rfl
@[simp] theorem setDma_flashOf (h c : Nat) (x : Dma) (i : Nat) : (s.setDma h c x).flashOf i = s.flashOf i := rfl
@[simp] theorem setDma_sq (h c : Nat) (x : Dma) (i j : Nat) : (s.setDma h c x).sq i j = s.sq i j := rfl
@[simp] theorem setDma_wle (h c : Nat) (x : Dma) (i : Nat) : (s.setDma h c x).wle i = s.wle i := rfl
@[simp] theorem setDma_sub (h c : Nat) (x : Dma) (i j : Nat) : (s.setDma h c x).sub i j = s.sub i j := rfl
@[simp] theorem setDma_sensor (h c : Nat) (x : Dma) (i : Nat) : (s.setDma h c x).sensor i = s.sensor i := rfl

/-! `setDieTh` changes `dth` alone. -/
@[simp] theorem setDieTh_clk (d : Nat) (x : DieTh) : (s.setDieTh d x).clk = s.clk := rfl
@[simp] theorem setDieTh_regs (d : Nat) (x : DieTh) : (s.setDieTh d x).regs = s.regs := rfl
@[simp] theorem setDieTh_pages (d : Nat) (x : DieTh) : (s.setDieTh d x).pages = s.pages := rfl
@[simp] theorem setDieTh_flt (d : Nat) (x : DieTh) : (s.setDieTh d x).flt = s.flt := rfl
@[simp] theorem setDieTh_tiles (d : Nat) (x : DieTh) : (s.setDieTh d x).tiles = s.tiles := rfl
@[simp] theorem setDieTh_osd (d : Nat) (x : DieTh) : (s.setDieTh d x).osd = s.osd := rfl
@[simp] theorem setDieTh_cad (d : Nat) (x : DieTh) : (s.setDieTh d x).cad = s.cad := rfl
@[simp] theorem setDieTh_mesh (d : Nat) (x : DieTh) : (s.setDieTh d x).mesh = s.mesh := rfl
@[simp] theorem setDieTh_edges (d : Nat) (x : DieTh) : (s.setDieTh d x).edges = s.edges := rfl
@[simp] theorem setDieTh_hbm (d : Nat) (x : DieTh) : (s.setDieTh d x).hbm = s.hbm := rfl
@[simp] theorem setDieTh_stake (d : Nat) (x : DieTh) : (s.setDieTh d x).stake = s.stake := rfl
@[simp] theorem setDieTh_stakeOld (d : Nat) (x : DieTh) : (s.setDieTh d x).stakeOld = s.stakeOld := rfl
@[simp] theorem setDieTh_sideRem (d : Nat) (x : DieTh) : (s.setDieTh d x).sideRem = s.sideRem := rfl
@[simp] theorem setDieTh_cool (d : Nat) (x : DieTh) : (s.setDieTh d x).cool = s.cool := rfl
@[simp] theorem setDieTh_scrubAt (d : Nat) (x : DieTh) : (s.setDieTh d x).scrubAt = s.scrubAt := rfl
@[simp] theorem setDieTh_ovb (d : Nat) (x : DieTh) : (s.setDieTh d x).ovb = s.ovb := rfl
@[simp] theorem setDieTh_ovbOver (d : Nat) (x : DieTh) : (s.setDieTh d x).ovbOver = s.ovbOver := rfl
@[simp] theorem setDieTh_quiet (d : Nat) (x : DieTh) : (s.setDieTh d x).quiet = s.quiet := rfl
@[simp] theorem setDieTh_engs (d : Nat) (x : DieTh) : (s.setDieTh d x).engs = s.engs := rfl
@[simp] theorem setDieTh_reads (d : Nat) (x : DieTh) : (s.setDieTh d x).reads = s.reads := rfl
@[simp] theorem setDieTh_loads (d : Nat) (x : DieTh) : (s.setDieTh d x).loads = s.loads := rfl
@[simp] theorem setDieTh_units (d : Nat) (x : DieTh) : (s.setDieTh d x).units = s.units := rfl
@[simp] theorem setDieTh_offers (d : Nat) (x : DieTh) : (s.setDieTh d x).offers = s.offers := rfl
@[simp] theorem setDieTh_reqs (d : Nat) (x : DieTh) : (s.setDieTh d x).reqs = s.reqs := rfl
@[simp] theorem setDieTh_nbq (d : Nat) (x : DieTh) : (s.setDieTh d x).nbq = s.nbq := rfl
@[simp] theorem setDieTh_arrivals (d : Nat) (x : DieTh) : (s.setDieTh d x).arrivals = s.arrivals := rfl
@[simp] theorem setDieTh_ces (d : Nat) (x : DieTh) : (s.setDieTh d x).ces = s.ces := rfl
@[simp] theorem setDieTh_cbuf (d : Nat) (x : DieTh) : (s.setDieTh d x).cbuf = s.cbuf := rfl
@[simp] theorem setDieTh_borders (d : Nat) (x : DieTh) : (s.setDieTh d x).borders = s.borders := rfl
@[simp] theorem setDieTh_aud (d : Nat) (x : DieTh) : (s.setDieTh d x).aud = s.aud := rfl
@[simp] theorem setDieTh_pkgt (d : Nat) (x : DieTh) : (s.setDieTh d x).pkgt = s.pkgt := rfl
@[simp] theorem setDieTh_wl (d : Nat) (x : DieTh) : (s.setDieTh d x).wl = s.wl := rfl
@[simp] theorem setDieTh_lanes (d : Nat) (x : DieTh) : (s.setDieTh d x).lanes = s.lanes := rfl
@[simp] theorem setDieTh_fibs (d : Nat) (x : DieTh) : (s.setDieTh d x).fibs = s.fibs := rfl
@[simp] theorem setDieTh_wfs (d : Nat) (x : DieTh) : (s.setDieTh d x).wfs = s.wfs := rfl
@[simp] theorem setDieTh_rds (d : Nat) (x : DieTh) : (s.setDieTh d x).rds = s.rds := rfl
@[simp] theorem setDieTh_lasers (d : Nat) (x : DieTh) : (s.setDieTh d x).lasers = s.lasers := rfl
@[simp] theorem setDieTh_cal (d : Nat) (x : DieTh) : (s.setDieTh d x).cal = s.cal := rfl
@[simp] theorem setDieTh_calSh (d : Nat) (x : DieTh) : (s.setDieTh d x).calSh = s.calSh := rfl
@[simp] theorem setDieTh_subs (d : Nat) (x : DieTh) : (s.setDieTh d x).subs = s.subs := rfl
@[simp] theorem setDieTh_grantAt (d : Nat) (x : DieTh) : (s.setDieTh d x).grantAt = s.grantAt := rfl
@[simp] theorem setDieTh_sbGen (d : Nat) (x : DieTh) : (s.setDieTh d x).sbGen = s.sbGen := rfl
@[simp] theorem setDieTh_notes (d : Nat) (x : DieTh) : (s.setDieTh d x).notes = s.notes := rfl
@[simp] theorem setDieTh_sqs (d : Nat) (x : DieTh) : (s.setDieTh d x).sqs = s.sqs := rfl
@[simp] theorem setDieTh_dmas (d : Nat) (x : DieTh) : (s.setDieTh d x).dmas = s.dmas := rfl
@[simp] theorem setDieTh_acks (d : Nat) (x : DieTh) : (s.setDieTh d x).acks = s.acks := rfl
@[simp] theorem setDieTh_pins (d : Nat) (x : DieTh) : (s.setDieTh d x).pins = s.pins := rfl
@[simp] theorem setDieTh_hoops (d : Nat) (x : DieTh) : (s.setDieTh d x).hoops = s.hoops := rfl
@[simp] theorem setDieTh_ring (d : Nat) (x : DieTh) : (s.setDieTh d x).ring = s.ring := rfl
@[simp] theorem setDieTh_snaps (d : Nat) (x : DieTh) : (s.setDieTh d x).snaps = s.snaps := rfl
@[simp] theorem setDieTh_com (d : Nat) (x : DieTh) : (s.setDieTh d x).com = s.com := rfl
@[simp] theorem setDieTh_sens (d : Nat) (x : DieTh) : (s.setDieTh d x).sens = s.sens := rfl
@[simp] theorem setDieTh_thp (d : Nat) (x : DieTh) : (s.setDieTh d x).thp = s.thp := rfl
@[simp] theorem setDieTh_fits (d : Nat) (x : DieTh) : (s.setDieTh d x).fits = s.fits := rfl
@[simp] theorem setDieTh_agePend (d : Nat) (x : DieTh) : (s.setDieTh d x).agePend = s.agePend := rfl
@[simp] theorem setDieTh_flash (d : Nat) (x : DieTh) : (s.setDieTh d x).flash = s.flash := rfl
@[simp] theorem setDieTh_start (d : Nat) (x : DieTh) : (s.setDieTh d x).start = s.start := rfl
@[simp] theorem setDieTh_out (d : Nat) (x : DieTh) : (s.setDieTh d x).out = s.out := rfl
@[simp] theorem setDieTh_freeCtr (d : Nat) (x : DieTh) : (s.setDieTh d x).freeCtr = s.freeCtr := rfl
@[simp] theorem setDieTh_pending (d : Nat) (x : DieTh) : (s.setDieTh d x).pending = s.pending := rfl
@[simp] theorem setDieTh_rd (d : Nat) (x : DieTh) (i : Nat) (y : Fld) : (s.setDieTh d x).rd i y = s.rd i y := rfl
@[simp] theorem setDieTh_page (d : Nat) (x : DieTh) (i : Nat) : (s.setDieTh d x).page i = s.page i := rfl
@[simp] theorem setDieTh_tile (d : Nat) (x : DieTh) (i j : Nat) : (s.setDieTh d x).tile i j = s.tile i j := rfl
@[simp] theorem setDieTh_od (d : Nat) (x : DieTh) (i : Nat) : (s.setDieTh d x).od i = s.od i := rfl
@[simp] theorem setDieTh_eng (d : Nat) (x : DieTh) (i j : Nat) : (s.setDieTh d x).eng i j = s.eng i j := rfl
@[simp] theorem setDieTh_ce (d : Nat) (x : DieTh) (i : Nat) : (s.setDieTh d x).ce i = s.ce i := rfl
@[simp] theorem setDieTh_hoop (d : Nat) (x : DieTh) (i : Nat) : (s.setDieTh d x).hoop i = s.hoop i := rfl
@[simp] theorem setDieTh_flashOf (d : Nat) (x : DieTh) (i : Nat) : (s.setDieTh d x).flashOf i = s.flashOf i := rfl
@[simp] theorem setDieTh_sq (d : Nat) (x : DieTh) (i j : Nat) : (s.setDieTh d x).sq i j = s.sq i j := rfl
@[simp] theorem setDieTh_wle (d : Nat) (x : DieTh) (i : Nat) : (s.setDieTh d x).wle i = s.wle i := rfl
@[simp] theorem setDieTh_sub (d : Nat) (x : DieTh) (i j : Nat) : (s.setDieTh d x).sub i j = s.sub i j := rfl
@[simp] theorem setDieTh_sensor (d : Nat) (x : DieTh) (i : Nat) : (s.setDieTh d x).sensor i = s.sensor i := rfl

/-! `setSensor` changes `sens` alone. -/
@[simp] theorem setSensor_clk (g : Nat) (x : Sensor) : (s.setSensor g x).clk = s.clk := rfl
@[simp] theorem setSensor_regs (g : Nat) (x : Sensor) : (s.setSensor g x).regs = s.regs := rfl
@[simp] theorem setSensor_pages (g : Nat) (x : Sensor) : (s.setSensor g x).pages = s.pages := rfl
@[simp] theorem setSensor_flt (g : Nat) (x : Sensor) : (s.setSensor g x).flt = s.flt := rfl
@[simp] theorem setSensor_tiles (g : Nat) (x : Sensor) : (s.setSensor g x).tiles = s.tiles := rfl
@[simp] theorem setSensor_osd (g : Nat) (x : Sensor) : (s.setSensor g x).osd = s.osd := rfl
@[simp] theorem setSensor_cad (g : Nat) (x : Sensor) : (s.setSensor g x).cad = s.cad := rfl
@[simp] theorem setSensor_mesh (g : Nat) (x : Sensor) : (s.setSensor g x).mesh = s.mesh := rfl
@[simp] theorem setSensor_edges (g : Nat) (x : Sensor) : (s.setSensor g x).edges = s.edges := rfl
@[simp] theorem setSensor_hbm (g : Nat) (x : Sensor) : (s.setSensor g x).hbm = s.hbm := rfl
@[simp] theorem setSensor_stake (g : Nat) (x : Sensor) : (s.setSensor g x).stake = s.stake := rfl
@[simp] theorem setSensor_stakeOld (g : Nat) (x : Sensor) : (s.setSensor g x).stakeOld = s.stakeOld := rfl
@[simp] theorem setSensor_sideRem (g : Nat) (x : Sensor) : (s.setSensor g x).sideRem = s.sideRem := rfl
@[simp] theorem setSensor_cool (g : Nat) (x : Sensor) : (s.setSensor g x).cool = s.cool := rfl
@[simp] theorem setSensor_scrubAt (g : Nat) (x : Sensor) : (s.setSensor g x).scrubAt = s.scrubAt := rfl
@[simp] theorem setSensor_ovb (g : Nat) (x : Sensor) : (s.setSensor g x).ovb = s.ovb := rfl
@[simp] theorem setSensor_ovbOver (g : Nat) (x : Sensor) : (s.setSensor g x).ovbOver = s.ovbOver := rfl
@[simp] theorem setSensor_quiet (g : Nat) (x : Sensor) : (s.setSensor g x).quiet = s.quiet := rfl
@[simp] theorem setSensor_engs (g : Nat) (x : Sensor) : (s.setSensor g x).engs = s.engs := rfl
@[simp] theorem setSensor_reads (g : Nat) (x : Sensor) : (s.setSensor g x).reads = s.reads := rfl
@[simp] theorem setSensor_loads (g : Nat) (x : Sensor) : (s.setSensor g x).loads = s.loads := rfl
@[simp] theorem setSensor_units (g : Nat) (x : Sensor) : (s.setSensor g x).units = s.units := rfl
@[simp] theorem setSensor_offers (g : Nat) (x : Sensor) : (s.setSensor g x).offers = s.offers := rfl
@[simp] theorem setSensor_reqs (g : Nat) (x : Sensor) : (s.setSensor g x).reqs = s.reqs := rfl
@[simp] theorem setSensor_nbq (g : Nat) (x : Sensor) : (s.setSensor g x).nbq = s.nbq := rfl
@[simp] theorem setSensor_arrivals (g : Nat) (x : Sensor) : (s.setSensor g x).arrivals = s.arrivals := rfl
@[simp] theorem setSensor_ces (g : Nat) (x : Sensor) : (s.setSensor g x).ces = s.ces := rfl
@[simp] theorem setSensor_cbuf (g : Nat) (x : Sensor) : (s.setSensor g x).cbuf = s.cbuf := rfl
@[simp] theorem setSensor_borders (g : Nat) (x : Sensor) : (s.setSensor g x).borders = s.borders := rfl
@[simp] theorem setSensor_aud (g : Nat) (x : Sensor) : (s.setSensor g x).aud = s.aud := rfl
@[simp] theorem setSensor_pkgt (g : Nat) (x : Sensor) : (s.setSensor g x).pkgt = s.pkgt := rfl
@[simp] theorem setSensor_wl (g : Nat) (x : Sensor) : (s.setSensor g x).wl = s.wl := rfl
@[simp] theorem setSensor_lanes (g : Nat) (x : Sensor) : (s.setSensor g x).lanes = s.lanes := rfl
@[simp] theorem setSensor_fibs (g : Nat) (x : Sensor) : (s.setSensor g x).fibs = s.fibs := rfl
@[simp] theorem setSensor_wfs (g : Nat) (x : Sensor) : (s.setSensor g x).wfs = s.wfs := rfl
@[simp] theorem setSensor_rds (g : Nat) (x : Sensor) : (s.setSensor g x).rds = s.rds := rfl
@[simp] theorem setSensor_lasers (g : Nat) (x : Sensor) : (s.setSensor g x).lasers = s.lasers := rfl
@[simp] theorem setSensor_cal (g : Nat) (x : Sensor) : (s.setSensor g x).cal = s.cal := rfl
@[simp] theorem setSensor_calSh (g : Nat) (x : Sensor) : (s.setSensor g x).calSh = s.calSh := rfl
@[simp] theorem setSensor_subs (g : Nat) (x : Sensor) : (s.setSensor g x).subs = s.subs := rfl
@[simp] theorem setSensor_grantAt (g : Nat) (x : Sensor) : (s.setSensor g x).grantAt = s.grantAt := rfl
@[simp] theorem setSensor_sbGen (g : Nat) (x : Sensor) : (s.setSensor g x).sbGen = s.sbGen := rfl
@[simp] theorem setSensor_notes (g : Nat) (x : Sensor) : (s.setSensor g x).notes = s.notes := rfl
@[simp] theorem setSensor_sqs (g : Nat) (x : Sensor) : (s.setSensor g x).sqs = s.sqs := rfl
@[simp] theorem setSensor_dmas (g : Nat) (x : Sensor) : (s.setSensor g x).dmas = s.dmas := rfl
@[simp] theorem setSensor_acks (g : Nat) (x : Sensor) : (s.setSensor g x).acks = s.acks := rfl
@[simp] theorem setSensor_pins (g : Nat) (x : Sensor) : (s.setSensor g x).pins = s.pins := rfl
@[simp] theorem setSensor_hoops (g : Nat) (x : Sensor) : (s.setSensor g x).hoops = s.hoops := rfl
@[simp] theorem setSensor_ring (g : Nat) (x : Sensor) : (s.setSensor g x).ring = s.ring := rfl
@[simp] theorem setSensor_snaps (g : Nat) (x : Sensor) : (s.setSensor g x).snaps = s.snaps := rfl
@[simp] theorem setSensor_com (g : Nat) (x : Sensor) : (s.setSensor g x).com = s.com := rfl
@[simp] theorem setSensor_dth (g : Nat) (x : Sensor) : (s.setSensor g x).dth = s.dth := rfl
@[simp] theorem setSensor_thp (g : Nat) (x : Sensor) : (s.setSensor g x).thp = s.thp := rfl
@[simp] theorem setSensor_fits (g : Nat) (x : Sensor) : (s.setSensor g x).fits = s.fits := rfl
@[simp] theorem setSensor_agePend (g : Nat) (x : Sensor) : (s.setSensor g x).agePend = s.agePend := rfl
@[simp] theorem setSensor_flash (g : Nat) (x : Sensor) : (s.setSensor g x).flash = s.flash := rfl
@[simp] theorem setSensor_start (g : Nat) (x : Sensor) : (s.setSensor g x).start = s.start := rfl
@[simp] theorem setSensor_out (g : Nat) (x : Sensor) : (s.setSensor g x).out = s.out := rfl
@[simp] theorem setSensor_freeCtr (g : Nat) (x : Sensor) : (s.setSensor g x).freeCtr = s.freeCtr := rfl
@[simp] theorem setSensor_pending (g : Nat) (x : Sensor) : (s.setSensor g x).pending = s.pending := rfl
@[simp] theorem setSensor_rd (g : Nat) (x : Sensor) (i : Nat) (y : Fld) : (s.setSensor g x).rd i y = s.rd i y := rfl
@[simp] theorem setSensor_page (g : Nat) (x : Sensor) (i : Nat) : (s.setSensor g x).page i = s.page i := rfl
@[simp] theorem setSensor_tile (g : Nat) (x : Sensor) (i j : Nat) : (s.setSensor g x).tile i j = s.tile i j := rfl
@[simp] theorem setSensor_od (g : Nat) (x : Sensor) (i : Nat) : (s.setSensor g x).od i = s.od i := rfl
@[simp] theorem setSensor_eng (g : Nat) (x : Sensor) (i j : Nat) : (s.setSensor g x).eng i j = s.eng i j := rfl
@[simp] theorem setSensor_ce (g : Nat) (x : Sensor) (i : Nat) : (s.setSensor g x).ce i = s.ce i := rfl
@[simp] theorem setSensor_hoop (g : Nat) (x : Sensor) (i : Nat) : (s.setSensor g x).hoop i = s.hoop i := rfl
@[simp] theorem setSensor_flashOf (g : Nat) (x : Sensor) (i : Nat) : (s.setSensor g x).flashOf i = s.flashOf i := rfl
@[simp] theorem setSensor_sq (g : Nat) (x : Sensor) (i j : Nat) : (s.setSensor g x).sq i j = s.sq i j := rfl
@[simp] theorem setSensor_wle (g : Nat) (x : Sensor) (i : Nat) : (s.setSensor g x).wle i = s.wle i := rfl
@[simp] theorem setSensor_sub (g : Nat) (x : Sensor) (i j : Nat) : (s.setSensor g x).sub i j = s.sub i j := rfl

/-! `setFlash` changes `flash` alone. -/
@[simp] theorem setFlash_clk (h : Nat) (x : Flash) : (s.setFlash h x).clk = s.clk := rfl
@[simp] theorem setFlash_regs (h : Nat) (x : Flash) : (s.setFlash h x).regs = s.regs := rfl
@[simp] theorem setFlash_pages (h : Nat) (x : Flash) : (s.setFlash h x).pages = s.pages := rfl
@[simp] theorem setFlash_flt (h : Nat) (x : Flash) : (s.setFlash h x).flt = s.flt := rfl
@[simp] theorem setFlash_tiles (h : Nat) (x : Flash) : (s.setFlash h x).tiles = s.tiles := rfl
@[simp] theorem setFlash_osd (h : Nat) (x : Flash) : (s.setFlash h x).osd = s.osd := rfl
@[simp] theorem setFlash_cad (h : Nat) (x : Flash) : (s.setFlash h x).cad = s.cad := rfl
@[simp] theorem setFlash_mesh (h : Nat) (x : Flash) : (s.setFlash h x).mesh = s.mesh := rfl
@[simp] theorem setFlash_edges (h : Nat) (x : Flash) : (s.setFlash h x).edges = s.edges := rfl
@[simp] theorem setFlash_hbm (h : Nat) (x : Flash) : (s.setFlash h x).hbm = s.hbm := rfl
@[simp] theorem setFlash_stake (h : Nat) (x : Flash) : (s.setFlash h x).stake = s.stake := rfl
@[simp] theorem setFlash_stakeOld (h : Nat) (x : Flash) : (s.setFlash h x).stakeOld = s.stakeOld := rfl
@[simp] theorem setFlash_sideRem (h : Nat) (x : Flash) : (s.setFlash h x).sideRem = s.sideRem := rfl
@[simp] theorem setFlash_cool (h : Nat) (x : Flash) : (s.setFlash h x).cool = s.cool := rfl
@[simp] theorem setFlash_scrubAt (h : Nat) (x : Flash) : (s.setFlash h x).scrubAt = s.scrubAt := rfl
@[simp] theorem setFlash_ovb (h : Nat) (x : Flash) : (s.setFlash h x).ovb = s.ovb := rfl
@[simp] theorem setFlash_ovbOver (h : Nat) (x : Flash) : (s.setFlash h x).ovbOver = s.ovbOver := rfl
@[simp] theorem setFlash_quiet (h : Nat) (x : Flash) : (s.setFlash h x).quiet = s.quiet := rfl
@[simp] theorem setFlash_engs (h : Nat) (x : Flash) : (s.setFlash h x).engs = s.engs := rfl
@[simp] theorem setFlash_reads (h : Nat) (x : Flash) : (s.setFlash h x).reads = s.reads := rfl
@[simp] theorem setFlash_loads (h : Nat) (x : Flash) : (s.setFlash h x).loads = s.loads := rfl
@[simp] theorem setFlash_units (h : Nat) (x : Flash) : (s.setFlash h x).units = s.units := rfl
@[simp] theorem setFlash_offers (h : Nat) (x : Flash) : (s.setFlash h x).offers = s.offers := rfl
@[simp] theorem setFlash_reqs (h : Nat) (x : Flash) : (s.setFlash h x).reqs = s.reqs := rfl
@[simp] theorem setFlash_nbq (h : Nat) (x : Flash) : (s.setFlash h x).nbq = s.nbq := rfl
@[simp] theorem setFlash_arrivals (h : Nat) (x : Flash) : (s.setFlash h x).arrivals = s.arrivals := rfl
@[simp] theorem setFlash_ces (h : Nat) (x : Flash) : (s.setFlash h x).ces = s.ces := rfl
@[simp] theorem setFlash_cbuf (h : Nat) (x : Flash) : (s.setFlash h x).cbuf = s.cbuf := rfl
@[simp] theorem setFlash_borders (h : Nat) (x : Flash) : (s.setFlash h x).borders = s.borders := rfl
@[simp] theorem setFlash_aud (h : Nat) (x : Flash) : (s.setFlash h x).aud = s.aud := rfl
@[simp] theorem setFlash_pkgt (h : Nat) (x : Flash) : (s.setFlash h x).pkgt = s.pkgt := rfl
@[simp] theorem setFlash_wl (h : Nat) (x : Flash) : (s.setFlash h x).wl = s.wl := rfl
@[simp] theorem setFlash_lanes (h : Nat) (x : Flash) : (s.setFlash h x).lanes = s.lanes := rfl
@[simp] theorem setFlash_fibs (h : Nat) (x : Flash) : (s.setFlash h x).fibs = s.fibs := rfl
@[simp] theorem setFlash_wfs (h : Nat) (x : Flash) : (s.setFlash h x).wfs = s.wfs := rfl
@[simp] theorem setFlash_rds (h : Nat) (x : Flash) : (s.setFlash h x).rds = s.rds := rfl
@[simp] theorem setFlash_lasers (h : Nat) (x : Flash) : (s.setFlash h x).lasers = s.lasers := rfl
@[simp] theorem setFlash_cal (h : Nat) (x : Flash) : (s.setFlash h x).cal = s.cal := rfl
@[simp] theorem setFlash_calSh (h : Nat) (x : Flash) : (s.setFlash h x).calSh = s.calSh := rfl
@[simp] theorem setFlash_subs (h : Nat) (x : Flash) : (s.setFlash h x).subs = s.subs := rfl
@[simp] theorem setFlash_grantAt (h : Nat) (x : Flash) : (s.setFlash h x).grantAt = s.grantAt := rfl
@[simp] theorem setFlash_sbGen (h : Nat) (x : Flash) : (s.setFlash h x).sbGen = s.sbGen := rfl
@[simp] theorem setFlash_notes (h : Nat) (x : Flash) : (s.setFlash h x).notes = s.notes := rfl
@[simp] theorem setFlash_sqs (h : Nat) (x : Flash) : (s.setFlash h x).sqs = s.sqs := rfl
@[simp] theorem setFlash_dmas (h : Nat) (x : Flash) : (s.setFlash h x).dmas = s.dmas := rfl
@[simp] theorem setFlash_acks (h : Nat) (x : Flash) : (s.setFlash h x).acks = s.acks := rfl
@[simp] theorem setFlash_pins (h : Nat) (x : Flash) : (s.setFlash h x).pins = s.pins := rfl
@[simp] theorem setFlash_hoops (h : Nat) (x : Flash) : (s.setFlash h x).hoops = s.hoops := rfl
@[simp] theorem setFlash_ring (h : Nat) (x : Flash) : (s.setFlash h x).ring = s.ring := rfl
@[simp] theorem setFlash_snaps (h : Nat) (x : Flash) : (s.setFlash h x).snaps = s.snaps := rfl
@[simp] theorem setFlash_com (h : Nat) (x : Flash) : (s.setFlash h x).com = s.com := rfl
@[simp] theorem setFlash_sens (h : Nat) (x : Flash) : (s.setFlash h x).sens = s.sens := rfl
@[simp] theorem setFlash_dth (h : Nat) (x : Flash) : (s.setFlash h x).dth = s.dth := rfl
@[simp] theorem setFlash_thp (h : Nat) (x : Flash) : (s.setFlash h x).thp = s.thp := rfl
@[simp] theorem setFlash_fits (h : Nat) (x : Flash) : (s.setFlash h x).fits = s.fits := rfl
@[simp] theorem setFlash_agePend (h : Nat) (x : Flash) : (s.setFlash h x).agePend = s.agePend := rfl
@[simp] theorem setFlash_start (h : Nat) (x : Flash) : (s.setFlash h x).start = s.start := rfl
@[simp] theorem setFlash_out (h : Nat) (x : Flash) : (s.setFlash h x).out = s.out := rfl
@[simp] theorem setFlash_freeCtr (h : Nat) (x : Flash) : (s.setFlash h x).freeCtr = s.freeCtr := rfl
@[simp] theorem setFlash_pending (h : Nat) (x : Flash) : (s.setFlash h x).pending = s.pending := rfl
@[simp] theorem setFlash_rd (h : Nat) (x : Flash) (i : Nat) (y : Fld) : (s.setFlash h x).rd i y = s.rd i y := rfl
@[simp] theorem setFlash_page (h : Nat) (x : Flash) (i : Nat) : (s.setFlash h x).page i = s.page i := rfl
@[simp] theorem setFlash_tile (h : Nat) (x : Flash) (i j : Nat) : (s.setFlash h x).tile i j = s.tile i j := rfl
@[simp] theorem setFlash_od (h : Nat) (x : Flash) (i : Nat) : (s.setFlash h x).od i = s.od i := rfl
@[simp] theorem setFlash_eng (h : Nat) (x : Flash) (i j : Nat) : (s.setFlash h x).eng i j = s.eng i j := rfl
@[simp] theorem setFlash_ce (h : Nat) (x : Flash) (i : Nat) : (s.setFlash h x).ce i = s.ce i := rfl
@[simp] theorem setFlash_hoop (h : Nat) (x : Flash) (i : Nat) : (s.setFlash h x).hoop i = s.hoop i := rfl
@[simp] theorem setFlash_sq (h : Nat) (x : Flash) (i j : Nat) : (s.setFlash h x).sq i j = s.sq i j := rfl
@[simp] theorem setFlash_wle (h : Nat) (x : Flash) (i : Nat) : (s.setFlash h x).wle i = s.wle i := rfl
@[simp] theorem setFlash_sub (h : Nat) (x : Flash) (i j : Nat) : (s.setFlash h x).sub i j = s.sub i j := rfl
@[simp] theorem setFlash_sensor (h : Nat) (x : Flash) (i : Nat) : (s.setFlash h x).sensor i = s.sensor i := rfl

/-! `setHoop` changes `hoops` alone. -/
@[simp] theorem setHoop_clk (h : Nat) (x : HoopSt) : (s.setHoop h x).clk = s.clk := rfl
@[simp] theorem setHoop_regs (h : Nat) (x : HoopSt) : (s.setHoop h x).regs = s.regs := rfl
@[simp] theorem setHoop_pages (h : Nat) (x : HoopSt) : (s.setHoop h x).pages = s.pages := rfl
@[simp] theorem setHoop_flt (h : Nat) (x : HoopSt) : (s.setHoop h x).flt = s.flt := rfl
@[simp] theorem setHoop_tiles (h : Nat) (x : HoopSt) : (s.setHoop h x).tiles = s.tiles := rfl
@[simp] theorem setHoop_osd (h : Nat) (x : HoopSt) : (s.setHoop h x).osd = s.osd := rfl
@[simp] theorem setHoop_cad (h : Nat) (x : HoopSt) : (s.setHoop h x).cad = s.cad := rfl
@[simp] theorem setHoop_mesh (h : Nat) (x : HoopSt) : (s.setHoop h x).mesh = s.mesh := rfl
@[simp] theorem setHoop_edges (h : Nat) (x : HoopSt) : (s.setHoop h x).edges = s.edges := rfl
@[simp] theorem setHoop_hbm (h : Nat) (x : HoopSt) : (s.setHoop h x).hbm = s.hbm := rfl
@[simp] theorem setHoop_stake (h : Nat) (x : HoopSt) : (s.setHoop h x).stake = s.stake := rfl
@[simp] theorem setHoop_stakeOld (h : Nat) (x : HoopSt) : (s.setHoop h x).stakeOld = s.stakeOld := rfl
@[simp] theorem setHoop_sideRem (h : Nat) (x : HoopSt) : (s.setHoop h x).sideRem = s.sideRem := rfl
@[simp] theorem setHoop_cool (h : Nat) (x : HoopSt) : (s.setHoop h x).cool = s.cool := rfl
@[simp] theorem setHoop_scrubAt (h : Nat) (x : HoopSt) : (s.setHoop h x).scrubAt = s.scrubAt := rfl
@[simp] theorem setHoop_ovb (h : Nat) (x : HoopSt) : (s.setHoop h x).ovb = s.ovb := rfl
@[simp] theorem setHoop_ovbOver (h : Nat) (x : HoopSt) : (s.setHoop h x).ovbOver = s.ovbOver := rfl
@[simp] theorem setHoop_quiet (h : Nat) (x : HoopSt) : (s.setHoop h x).quiet = s.quiet := rfl
@[simp] theorem setHoop_engs (h : Nat) (x : HoopSt) : (s.setHoop h x).engs = s.engs := rfl
@[simp] theorem setHoop_reads (h : Nat) (x : HoopSt) : (s.setHoop h x).reads = s.reads := rfl
@[simp] theorem setHoop_loads (h : Nat) (x : HoopSt) : (s.setHoop h x).loads = s.loads := rfl
@[simp] theorem setHoop_units (h : Nat) (x : HoopSt) : (s.setHoop h x).units = s.units := rfl
@[simp] theorem setHoop_offers (h : Nat) (x : HoopSt) : (s.setHoop h x).offers = s.offers := rfl
@[simp] theorem setHoop_reqs (h : Nat) (x : HoopSt) : (s.setHoop h x).reqs = s.reqs := rfl
@[simp] theorem setHoop_nbq (h : Nat) (x : HoopSt) : (s.setHoop h x).nbq = s.nbq := rfl
@[simp] theorem setHoop_arrivals (h : Nat) (x : HoopSt) : (s.setHoop h x).arrivals = s.arrivals := rfl
@[simp] theorem setHoop_ces (h : Nat) (x : HoopSt) : (s.setHoop h x).ces = s.ces := rfl
@[simp] theorem setHoop_cbuf (h : Nat) (x : HoopSt) : (s.setHoop h x).cbuf = s.cbuf := rfl
@[simp] theorem setHoop_borders (h : Nat) (x : HoopSt) : (s.setHoop h x).borders = s.borders := rfl
@[simp] theorem setHoop_aud (h : Nat) (x : HoopSt) : (s.setHoop h x).aud = s.aud := rfl
@[simp] theorem setHoop_pkgt (h : Nat) (x : HoopSt) : (s.setHoop h x).pkgt = s.pkgt := rfl
@[simp] theorem setHoop_wl (h : Nat) (x : HoopSt) : (s.setHoop h x).wl = s.wl := rfl
@[simp] theorem setHoop_lanes (h : Nat) (x : HoopSt) : (s.setHoop h x).lanes = s.lanes := rfl
@[simp] theorem setHoop_fibs (h : Nat) (x : HoopSt) : (s.setHoop h x).fibs = s.fibs := rfl
@[simp] theorem setHoop_wfs (h : Nat) (x : HoopSt) : (s.setHoop h x).wfs = s.wfs := rfl
@[simp] theorem setHoop_rds (h : Nat) (x : HoopSt) : (s.setHoop h x).rds = s.rds := rfl
@[simp] theorem setHoop_lasers (h : Nat) (x : HoopSt) : (s.setHoop h x).lasers = s.lasers := rfl
@[simp] theorem setHoop_cal (h : Nat) (x : HoopSt) : (s.setHoop h x).cal = s.cal := rfl
@[simp] theorem setHoop_calSh (h : Nat) (x : HoopSt) : (s.setHoop h x).calSh = s.calSh := rfl
@[simp] theorem setHoop_subs (h : Nat) (x : HoopSt) : (s.setHoop h x).subs = s.subs := rfl
@[simp] theorem setHoop_grantAt (h : Nat) (x : HoopSt) : (s.setHoop h x).grantAt = s.grantAt := rfl
@[simp] theorem setHoop_sbGen (h : Nat) (x : HoopSt) : (s.setHoop h x).sbGen = s.sbGen := rfl
@[simp] theorem setHoop_notes (h : Nat) (x : HoopSt) : (s.setHoop h x).notes = s.notes := rfl
@[simp] theorem setHoop_sqs (h : Nat) (x : HoopSt) : (s.setHoop h x).sqs = s.sqs := rfl
@[simp] theorem setHoop_dmas (h : Nat) (x : HoopSt) : (s.setHoop h x).dmas = s.dmas := rfl
@[simp] theorem setHoop_acks (h : Nat) (x : HoopSt) : (s.setHoop h x).acks = s.acks := rfl
@[simp] theorem setHoop_pins (h : Nat) (x : HoopSt) : (s.setHoop h x).pins = s.pins := rfl
@[simp] theorem setHoop_ring (h : Nat) (x : HoopSt) : (s.setHoop h x).ring = s.ring := rfl
@[simp] theorem setHoop_snaps (h : Nat) (x : HoopSt) : (s.setHoop h x).snaps = s.snaps := rfl
@[simp] theorem setHoop_com (h : Nat) (x : HoopSt) : (s.setHoop h x).com = s.com := rfl
@[simp] theorem setHoop_sens (h : Nat) (x : HoopSt) : (s.setHoop h x).sens = s.sens := rfl
@[simp] theorem setHoop_dth (h : Nat) (x : HoopSt) : (s.setHoop h x).dth = s.dth := rfl
@[simp] theorem setHoop_thp (h : Nat) (x : HoopSt) : (s.setHoop h x).thp = s.thp := rfl
@[simp] theorem setHoop_fits (h : Nat) (x : HoopSt) : (s.setHoop h x).fits = s.fits := rfl
@[simp] theorem setHoop_agePend (h : Nat) (x : HoopSt) : (s.setHoop h x).agePend = s.agePend := rfl
@[simp] theorem setHoop_flash (h : Nat) (x : HoopSt) : (s.setHoop h x).flash = s.flash := rfl
@[simp] theorem setHoop_start (h : Nat) (x : HoopSt) : (s.setHoop h x).start = s.start := rfl
@[simp] theorem setHoop_out (h : Nat) (x : HoopSt) : (s.setHoop h x).out = s.out := rfl
@[simp] theorem setHoop_freeCtr (h : Nat) (x : HoopSt) : (s.setHoop h x).freeCtr = s.freeCtr := rfl
@[simp] theorem setHoop_pending (h : Nat) (x : HoopSt) : (s.setHoop h x).pending = s.pending := rfl
@[simp] theorem setHoop_rd (h : Nat) (x : HoopSt) (i : Nat) (y : Fld) : (s.setHoop h x).rd i y = s.rd i y := rfl
@[simp] theorem setHoop_page (h : Nat) (x : HoopSt) (i : Nat) : (s.setHoop h x).page i = s.page i := rfl
@[simp] theorem setHoop_tile (h : Nat) (x : HoopSt) (i j : Nat) : (s.setHoop h x).tile i j = s.tile i j := rfl
@[simp] theorem setHoop_od (h : Nat) (x : HoopSt) (i : Nat) : (s.setHoop h x).od i = s.od i := rfl
@[simp] theorem setHoop_eng (h : Nat) (x : HoopSt) (i j : Nat) : (s.setHoop h x).eng i j = s.eng i j := rfl
@[simp] theorem setHoop_ce (h : Nat) (x : HoopSt) (i : Nat) : (s.setHoop h x).ce i = s.ce i := rfl
@[simp] theorem setHoop_flashOf (h : Nat) (x : HoopSt) (i : Nat) : (s.setHoop h x).flashOf i = s.flashOf i := rfl
@[simp] theorem setHoop_sq (h : Nat) (x : HoopSt) (i j : Nat) : (s.setHoop h x).sq i j = s.sq i j := rfl
@[simp] theorem setHoop_wle (h : Nat) (x : HoopSt) (i : Nat) : (s.setHoop h x).wle i = s.wle i := rfl
@[simp] theorem setHoop_sub (h : Nat) (x : HoopSt) (i j : Nat) : (s.setHoop h x).sub i j = s.sub i j := rfl
@[simp] theorem setHoop_sensor (h : Nat) (x : HoopSt) (i : Nat) : (s.setHoop h x).sensor i = s.sensor i := rfl

/-! `setFit` changes `fits` alone. -/
@[simp] theorem setFit_clk (d m : Nat) (x : Fit) : (s.setFit d m x).clk = s.clk := rfl
@[simp] theorem setFit_regs (d m : Nat) (x : Fit) : (s.setFit d m x).regs = s.regs := rfl
@[simp] theorem setFit_pages (d m : Nat) (x : Fit) : (s.setFit d m x).pages = s.pages := rfl
@[simp] theorem setFit_flt (d m : Nat) (x : Fit) : (s.setFit d m x).flt = s.flt := rfl
@[simp] theorem setFit_tiles (d m : Nat) (x : Fit) : (s.setFit d m x).tiles = s.tiles := rfl
@[simp] theorem setFit_osd (d m : Nat) (x : Fit) : (s.setFit d m x).osd = s.osd := rfl
@[simp] theorem setFit_cad (d m : Nat) (x : Fit) : (s.setFit d m x).cad = s.cad := rfl
@[simp] theorem setFit_mesh (d m : Nat) (x : Fit) : (s.setFit d m x).mesh = s.mesh := rfl
@[simp] theorem setFit_edges (d m : Nat) (x : Fit) : (s.setFit d m x).edges = s.edges := rfl
@[simp] theorem setFit_hbm (d m : Nat) (x : Fit) : (s.setFit d m x).hbm = s.hbm := rfl
@[simp] theorem setFit_stake (d m : Nat) (x : Fit) : (s.setFit d m x).stake = s.stake := rfl
@[simp] theorem setFit_stakeOld (d m : Nat) (x : Fit) : (s.setFit d m x).stakeOld = s.stakeOld := rfl
@[simp] theorem setFit_sideRem (d m : Nat) (x : Fit) : (s.setFit d m x).sideRem = s.sideRem := rfl
@[simp] theorem setFit_cool (d m : Nat) (x : Fit) : (s.setFit d m x).cool = s.cool := rfl
@[simp] theorem setFit_scrubAt (d m : Nat) (x : Fit) : (s.setFit d m x).scrubAt = s.scrubAt := rfl
@[simp] theorem setFit_ovb (d m : Nat) (x : Fit) : (s.setFit d m x).ovb = s.ovb := rfl
@[simp] theorem setFit_ovbOver (d m : Nat) (x : Fit) : (s.setFit d m x).ovbOver = s.ovbOver := rfl
@[simp] theorem setFit_quiet (d m : Nat) (x : Fit) : (s.setFit d m x).quiet = s.quiet := rfl
@[simp] theorem setFit_engs (d m : Nat) (x : Fit) : (s.setFit d m x).engs = s.engs := rfl
@[simp] theorem setFit_reads (d m : Nat) (x : Fit) : (s.setFit d m x).reads = s.reads := rfl
@[simp] theorem setFit_loads (d m : Nat) (x : Fit) : (s.setFit d m x).loads = s.loads := rfl
@[simp] theorem setFit_units (d m : Nat) (x : Fit) : (s.setFit d m x).units = s.units := rfl
@[simp] theorem setFit_offers (d m : Nat) (x : Fit) : (s.setFit d m x).offers = s.offers := rfl
@[simp] theorem setFit_reqs (d m : Nat) (x : Fit) : (s.setFit d m x).reqs = s.reqs := rfl
@[simp] theorem setFit_nbq (d m : Nat) (x : Fit) : (s.setFit d m x).nbq = s.nbq := rfl
@[simp] theorem setFit_arrivals (d m : Nat) (x : Fit) : (s.setFit d m x).arrivals = s.arrivals := rfl
@[simp] theorem setFit_ces (d m : Nat) (x : Fit) : (s.setFit d m x).ces = s.ces := rfl
@[simp] theorem setFit_cbuf (d m : Nat) (x : Fit) : (s.setFit d m x).cbuf = s.cbuf := rfl
@[simp] theorem setFit_borders (d m : Nat) (x : Fit) : (s.setFit d m x).borders = s.borders := rfl
@[simp] theorem setFit_aud (d m : Nat) (x : Fit) : (s.setFit d m x).aud = s.aud := rfl
@[simp] theorem setFit_pkgt (d m : Nat) (x : Fit) : (s.setFit d m x).pkgt = s.pkgt := rfl
@[simp] theorem setFit_wl (d m : Nat) (x : Fit) : (s.setFit d m x).wl = s.wl := rfl
@[simp] theorem setFit_lanes (d m : Nat) (x : Fit) : (s.setFit d m x).lanes = s.lanes := rfl
@[simp] theorem setFit_fibs (d m : Nat) (x : Fit) : (s.setFit d m x).fibs = s.fibs := rfl
@[simp] theorem setFit_wfs (d m : Nat) (x : Fit) : (s.setFit d m x).wfs = s.wfs := rfl
@[simp] theorem setFit_rds (d m : Nat) (x : Fit) : (s.setFit d m x).rds = s.rds := rfl
@[simp] theorem setFit_lasers (d m : Nat) (x : Fit) : (s.setFit d m x).lasers = s.lasers := rfl
@[simp] theorem setFit_cal (d m : Nat) (x : Fit) : (s.setFit d m x).cal = s.cal := rfl
@[simp] theorem setFit_calSh (d m : Nat) (x : Fit) : (s.setFit d m x).calSh = s.calSh := rfl
@[simp] theorem setFit_subs (d m : Nat) (x : Fit) : (s.setFit d m x).subs = s.subs := rfl
@[simp] theorem setFit_grantAt (d m : Nat) (x : Fit) : (s.setFit d m x).grantAt = s.grantAt := rfl
@[simp] theorem setFit_sbGen (d m : Nat) (x : Fit) : (s.setFit d m x).sbGen = s.sbGen := rfl
@[simp] theorem setFit_notes (d m : Nat) (x : Fit) : (s.setFit d m x).notes = s.notes := rfl
@[simp] theorem setFit_sqs (d m : Nat) (x : Fit) : (s.setFit d m x).sqs = s.sqs := rfl
@[simp] theorem setFit_dmas (d m : Nat) (x : Fit) : (s.setFit d m x).dmas = s.dmas := rfl
@[simp] theorem setFit_acks (d m : Nat) (x : Fit) : (s.setFit d m x).acks = s.acks := rfl
@[simp] theorem setFit_pins (d m : Nat) (x : Fit) : (s.setFit d m x).pins = s.pins := rfl
@[simp] theorem setFit_hoops (d m : Nat) (x : Fit) : (s.setFit d m x).hoops = s.hoops := rfl
@[simp] theorem setFit_ring (d m : Nat) (x : Fit) : (s.setFit d m x).ring = s.ring := rfl
@[simp] theorem setFit_snaps (d m : Nat) (x : Fit) : (s.setFit d m x).snaps = s.snaps := rfl
@[simp] theorem setFit_com (d m : Nat) (x : Fit) : (s.setFit d m x).com = s.com := rfl
@[simp] theorem setFit_sens (d m : Nat) (x : Fit) : (s.setFit d m x).sens = s.sens := rfl
@[simp] theorem setFit_dth (d m : Nat) (x : Fit) : (s.setFit d m x).dth = s.dth := rfl
@[simp] theorem setFit_thp (d m : Nat) (x : Fit) : (s.setFit d m x).thp = s.thp := rfl
@[simp] theorem setFit_agePend (d m : Nat) (x : Fit) : (s.setFit d m x).agePend = s.agePend := rfl
@[simp] theorem setFit_flash (d m : Nat) (x : Fit) : (s.setFit d m x).flash = s.flash := rfl
@[simp] theorem setFit_start (d m : Nat) (x : Fit) : (s.setFit d m x).start = s.start := rfl
@[simp] theorem setFit_out (d m : Nat) (x : Fit) : (s.setFit d m x).out = s.out := rfl
@[simp] theorem setFit_freeCtr (d m : Nat) (x : Fit) : (s.setFit d m x).freeCtr = s.freeCtr := rfl
@[simp] theorem setFit_pending (d m : Nat) (x : Fit) : (s.setFit d m x).pending = s.pending := rfl
@[simp] theorem setFit_rd (d m : Nat) (x : Fit) (i : Nat) (y : Fld) : (s.setFit d m x).rd i y = s.rd i y := rfl
@[simp] theorem setFit_page (d m : Nat) (x : Fit) (i : Nat) : (s.setFit d m x).page i = s.page i := rfl
@[simp] theorem setFit_tile (d m : Nat) (x : Fit) (i j : Nat) : (s.setFit d m x).tile i j = s.tile i j := rfl
@[simp] theorem setFit_od (d m : Nat) (x : Fit) (i : Nat) : (s.setFit d m x).od i = s.od i := rfl
@[simp] theorem setFit_eng (d m : Nat) (x : Fit) (i j : Nat) : (s.setFit d m x).eng i j = s.eng i j := rfl
@[simp] theorem setFit_ce (d m : Nat) (x : Fit) (i : Nat) : (s.setFit d m x).ce i = s.ce i := rfl
@[simp] theorem setFit_hoop (d m : Nat) (x : Fit) (i : Nat) : (s.setFit d m x).hoop i = s.hoop i := rfl
@[simp] theorem setFit_flashOf (d m : Nat) (x : Fit) (i : Nat) : (s.setFit d m x).flashOf i = s.flashOf i := rfl
@[simp] theorem setFit_sq (d m : Nat) (x : Fit) (i j : Nat) : (s.setFit d m x).sq i j = s.sq i j := rfl
@[simp] theorem setFit_wle (d m : Nat) (x : Fit) (i : Nat) : (s.setFit d m x).wle i = s.wle i := rfl
@[simp] theorem setFit_sub (d m : Nat) (x : Fit) (i j : Nat) : (s.setFit d m x).sub i j = s.sub i j := rfl
@[simp] theorem setFit_sensor (d m : Nat) (x : Fit) (i : Nat) : (s.setFit d m x).sensor i = s.sensor i := rfl

/-! `setFlog` changes `flt` alone. -/
@[simp] theorem setFlog_clk (h : Nat) (x : FLog) : (s.setFlog h x).clk = s.clk := rfl
@[simp] theorem setFlog_regs (h : Nat) (x : FLog) : (s.setFlog h x).regs = s.regs := rfl
@[simp] theorem setFlog_pages (h : Nat) (x : FLog) : (s.setFlog h x).pages = s.pages := rfl
@[simp] theorem setFlog_tiles (h : Nat) (x : FLog) : (s.setFlog h x).tiles = s.tiles := rfl
@[simp] theorem setFlog_osd (h : Nat) (x : FLog) : (s.setFlog h x).osd = s.osd := rfl
@[simp] theorem setFlog_cad (h : Nat) (x : FLog) : (s.setFlog h x).cad = s.cad := rfl
@[simp] theorem setFlog_mesh (h : Nat) (x : FLog) : (s.setFlog h x).mesh = s.mesh := rfl
@[simp] theorem setFlog_edges (h : Nat) (x : FLog) : (s.setFlog h x).edges = s.edges := rfl
@[simp] theorem setFlog_hbm (h : Nat) (x : FLog) : (s.setFlog h x).hbm = s.hbm := rfl
@[simp] theorem setFlog_stake (h : Nat) (x : FLog) : (s.setFlog h x).stake = s.stake := rfl
@[simp] theorem setFlog_stakeOld (h : Nat) (x : FLog) : (s.setFlog h x).stakeOld = s.stakeOld := rfl
@[simp] theorem setFlog_sideRem (h : Nat) (x : FLog) : (s.setFlog h x).sideRem = s.sideRem := rfl
@[simp] theorem setFlog_cool (h : Nat) (x : FLog) : (s.setFlog h x).cool = s.cool := rfl
@[simp] theorem setFlog_scrubAt (h : Nat) (x : FLog) : (s.setFlog h x).scrubAt = s.scrubAt := rfl
@[simp] theorem setFlog_ovb (h : Nat) (x : FLog) : (s.setFlog h x).ovb = s.ovb := rfl
@[simp] theorem setFlog_ovbOver (h : Nat) (x : FLog) : (s.setFlog h x).ovbOver = s.ovbOver := rfl
@[simp] theorem setFlog_quiet (h : Nat) (x : FLog) : (s.setFlog h x).quiet = s.quiet := rfl
@[simp] theorem setFlog_engs (h : Nat) (x : FLog) : (s.setFlog h x).engs = s.engs := rfl
@[simp] theorem setFlog_reads (h : Nat) (x : FLog) : (s.setFlog h x).reads = s.reads := rfl
@[simp] theorem setFlog_loads (h : Nat) (x : FLog) : (s.setFlog h x).loads = s.loads := rfl
@[simp] theorem setFlog_units (h : Nat) (x : FLog) : (s.setFlog h x).units = s.units := rfl
@[simp] theorem setFlog_offers (h : Nat) (x : FLog) : (s.setFlog h x).offers = s.offers := rfl
@[simp] theorem setFlog_reqs (h : Nat) (x : FLog) : (s.setFlog h x).reqs = s.reqs := rfl
@[simp] theorem setFlog_nbq (h : Nat) (x : FLog) : (s.setFlog h x).nbq = s.nbq := rfl
@[simp] theorem setFlog_arrivals (h : Nat) (x : FLog) : (s.setFlog h x).arrivals = s.arrivals := rfl
@[simp] theorem setFlog_ces (h : Nat) (x : FLog) : (s.setFlog h x).ces = s.ces := rfl
@[simp] theorem setFlog_cbuf (h : Nat) (x : FLog) : (s.setFlog h x).cbuf = s.cbuf := rfl
@[simp] theorem setFlog_borders (h : Nat) (x : FLog) : (s.setFlog h x).borders = s.borders := rfl
@[simp] theorem setFlog_aud (h : Nat) (x : FLog) : (s.setFlog h x).aud = s.aud := rfl
@[simp] theorem setFlog_pkgt (h : Nat) (x : FLog) : (s.setFlog h x).pkgt = s.pkgt := rfl
@[simp] theorem setFlog_wl (h : Nat) (x : FLog) : (s.setFlog h x).wl = s.wl := rfl
@[simp] theorem setFlog_lanes (h : Nat) (x : FLog) : (s.setFlog h x).lanes = s.lanes := rfl
@[simp] theorem setFlog_fibs (h : Nat) (x : FLog) : (s.setFlog h x).fibs = s.fibs := rfl
@[simp] theorem setFlog_wfs (h : Nat) (x : FLog) : (s.setFlog h x).wfs = s.wfs := rfl
@[simp] theorem setFlog_rds (h : Nat) (x : FLog) : (s.setFlog h x).rds = s.rds := rfl
@[simp] theorem setFlog_lasers (h : Nat) (x : FLog) : (s.setFlog h x).lasers = s.lasers := rfl
@[simp] theorem setFlog_cal (h : Nat) (x : FLog) : (s.setFlog h x).cal = s.cal := rfl
@[simp] theorem setFlog_calSh (h : Nat) (x : FLog) : (s.setFlog h x).calSh = s.calSh := rfl
@[simp] theorem setFlog_subs (h : Nat) (x : FLog) : (s.setFlog h x).subs = s.subs := rfl
@[simp] theorem setFlog_grantAt (h : Nat) (x : FLog) : (s.setFlog h x).grantAt = s.grantAt := rfl
@[simp] theorem setFlog_sbGen (h : Nat) (x : FLog) : (s.setFlog h x).sbGen = s.sbGen := rfl
@[simp] theorem setFlog_notes (h : Nat) (x : FLog) : (s.setFlog h x).notes = s.notes := rfl
@[simp] theorem setFlog_sqs (h : Nat) (x : FLog) : (s.setFlog h x).sqs = s.sqs := rfl
@[simp] theorem setFlog_dmas (h : Nat) (x : FLog) : (s.setFlog h x).dmas = s.dmas := rfl
@[simp] theorem setFlog_acks (h : Nat) (x : FLog) : (s.setFlog h x).acks = s.acks := rfl
@[simp] theorem setFlog_pins (h : Nat) (x : FLog) : (s.setFlog h x).pins = s.pins := rfl
@[simp] theorem setFlog_hoops (h : Nat) (x : FLog) : (s.setFlog h x).hoops = s.hoops := rfl
@[simp] theorem setFlog_ring (h : Nat) (x : FLog) : (s.setFlog h x).ring = s.ring := rfl
@[simp] theorem setFlog_snaps (h : Nat) (x : FLog) : (s.setFlog h x).snaps = s.snaps := rfl
@[simp] theorem setFlog_com (h : Nat) (x : FLog) : (s.setFlog h x).com = s.com := rfl
@[simp] theorem setFlog_sens (h : Nat) (x : FLog) : (s.setFlog h x).sens = s.sens := rfl
@[simp] theorem setFlog_dth (h : Nat) (x : FLog) : (s.setFlog h x).dth = s.dth := rfl
@[simp] theorem setFlog_thp (h : Nat) (x : FLog) : (s.setFlog h x).thp = s.thp := rfl
@[simp] theorem setFlog_fits (h : Nat) (x : FLog) : (s.setFlog h x).fits = s.fits := rfl
@[simp] theorem setFlog_agePend (h : Nat) (x : FLog) : (s.setFlog h x).agePend = s.agePend := rfl
@[simp] theorem setFlog_flash (h : Nat) (x : FLog) : (s.setFlog h x).flash = s.flash := rfl
@[simp] theorem setFlog_start (h : Nat) (x : FLog) : (s.setFlog h x).start = s.start := rfl
@[simp] theorem setFlog_out (h : Nat) (x : FLog) : (s.setFlog h x).out = s.out := rfl
@[simp] theorem setFlog_freeCtr (h : Nat) (x : FLog) : (s.setFlog h x).freeCtr = s.freeCtr := rfl
@[simp] theorem setFlog_pending (h : Nat) (x : FLog) : (s.setFlog h x).pending = s.pending := rfl
@[simp] theorem setFlog_rd (h : Nat) (x : FLog) (i : Nat) (y : Fld) : (s.setFlog h x).rd i y = s.rd i y := rfl
@[simp] theorem setFlog_page (h : Nat) (x : FLog) (i : Nat) : (s.setFlog h x).page i = s.page i := rfl
@[simp] theorem setFlog_tile (h : Nat) (x : FLog) (i j : Nat) : (s.setFlog h x).tile i j = s.tile i j := rfl
@[simp] theorem setFlog_od (h : Nat) (x : FLog) (i : Nat) : (s.setFlog h x).od i = s.od i := rfl
@[simp] theorem setFlog_eng (h : Nat) (x : FLog) (i j : Nat) : (s.setFlog h x).eng i j = s.eng i j := rfl
@[simp] theorem setFlog_ce (h : Nat) (x : FLog) (i : Nat) : (s.setFlog h x).ce i = s.ce i := rfl
@[simp] theorem setFlog_hoop (h : Nat) (x : FLog) (i : Nat) : (s.setFlog h x).hoop i = s.hoop i := rfl
@[simp] theorem setFlog_flashOf (h : Nat) (x : FLog) (i : Nat) : (s.setFlog h x).flashOf i = s.flashOf i := rfl
@[simp] theorem setFlog_sq (h : Nat) (x : FLog) (i j : Nat) : (s.setFlog h x).sq i j = s.sq i j := rfl
@[simp] theorem setFlog_wle (h : Nat) (x : FLog) (i : Nat) : (s.setFlog h x).wle i = s.wle i := rfl
@[simp] theorem setFlog_sub (h : Nat) (x : FLog) (i j : Nat) : (s.setFlog h x).sub i j = s.sub i j := rfl
@[simp] theorem setFlog_sensor (h : Nat) (x : FLog) (i : Nat) : (s.setFlog h x).sensor i = s.sensor i := rfl

/-! `putHline` changes `hbm` alone. -/
@[simp] theorem putHline_clk (m l : Nat) (x : FLine) : (s.putHline m l x).clk = s.clk := rfl
@[simp] theorem putHline_regs (m l : Nat) (x : FLine) : (s.putHline m l x).regs = s.regs := rfl
@[simp] theorem putHline_pages (m l : Nat) (x : FLine) : (s.putHline m l x).pages = s.pages := rfl
@[simp] theorem putHline_flt (m l : Nat) (x : FLine) : (s.putHline m l x).flt = s.flt := rfl
@[simp] theorem putHline_tiles (m l : Nat) (x : FLine) : (s.putHline m l x).tiles = s.tiles := rfl
@[simp] theorem putHline_osd (m l : Nat) (x : FLine) : (s.putHline m l x).osd = s.osd := rfl
@[simp] theorem putHline_cad (m l : Nat) (x : FLine) : (s.putHline m l x).cad = s.cad := rfl
@[simp] theorem putHline_mesh (m l : Nat) (x : FLine) : (s.putHline m l x).mesh = s.mesh := rfl
@[simp] theorem putHline_edges (m l : Nat) (x : FLine) : (s.putHline m l x).edges = s.edges := rfl
@[simp] theorem putHline_stake (m l : Nat) (x : FLine) : (s.putHline m l x).stake = s.stake := rfl
@[simp] theorem putHline_stakeOld (m l : Nat) (x : FLine) : (s.putHline m l x).stakeOld = s.stakeOld := rfl
@[simp] theorem putHline_sideRem (m l : Nat) (x : FLine) : (s.putHline m l x).sideRem = s.sideRem := rfl
@[simp] theorem putHline_cool (m l : Nat) (x : FLine) : (s.putHline m l x).cool = s.cool := rfl
@[simp] theorem putHline_scrubAt (m l : Nat) (x : FLine) : (s.putHline m l x).scrubAt = s.scrubAt := rfl
@[simp] theorem putHline_ovb (m l : Nat) (x : FLine) : (s.putHline m l x).ovb = s.ovb := rfl
@[simp] theorem putHline_ovbOver (m l : Nat) (x : FLine) : (s.putHline m l x).ovbOver = s.ovbOver := rfl
@[simp] theorem putHline_quiet (m l : Nat) (x : FLine) : (s.putHline m l x).quiet = s.quiet := rfl
@[simp] theorem putHline_engs (m l : Nat) (x : FLine) : (s.putHline m l x).engs = s.engs := rfl
@[simp] theorem putHline_reads (m l : Nat) (x : FLine) : (s.putHline m l x).reads = s.reads := rfl
@[simp] theorem putHline_loads (m l : Nat) (x : FLine) : (s.putHline m l x).loads = s.loads := rfl
@[simp] theorem putHline_units (m l : Nat) (x : FLine) : (s.putHline m l x).units = s.units := rfl
@[simp] theorem putHline_offers (m l : Nat) (x : FLine) : (s.putHline m l x).offers = s.offers := rfl
@[simp] theorem putHline_reqs (m l : Nat) (x : FLine) : (s.putHline m l x).reqs = s.reqs := rfl
@[simp] theorem putHline_nbq (m l : Nat) (x : FLine) : (s.putHline m l x).nbq = s.nbq := rfl
@[simp] theorem putHline_arrivals (m l : Nat) (x : FLine) : (s.putHline m l x).arrivals = s.arrivals := rfl
@[simp] theorem putHline_ces (m l : Nat) (x : FLine) : (s.putHline m l x).ces = s.ces := rfl
@[simp] theorem putHline_cbuf (m l : Nat) (x : FLine) : (s.putHline m l x).cbuf = s.cbuf := rfl
@[simp] theorem putHline_borders (m l : Nat) (x : FLine) : (s.putHline m l x).borders = s.borders := rfl
@[simp] theorem putHline_aud (m l : Nat) (x : FLine) : (s.putHline m l x).aud = s.aud := rfl
@[simp] theorem putHline_pkgt (m l : Nat) (x : FLine) : (s.putHline m l x).pkgt = s.pkgt := rfl
@[simp] theorem putHline_wl (m l : Nat) (x : FLine) : (s.putHline m l x).wl = s.wl := rfl
@[simp] theorem putHline_lanes (m l : Nat) (x : FLine) : (s.putHline m l x).lanes = s.lanes := rfl
@[simp] theorem putHline_fibs (m l : Nat) (x : FLine) : (s.putHline m l x).fibs = s.fibs := rfl
@[simp] theorem putHline_wfs (m l : Nat) (x : FLine) : (s.putHline m l x).wfs = s.wfs := rfl
@[simp] theorem putHline_rds (m l : Nat) (x : FLine) : (s.putHline m l x).rds = s.rds := rfl
@[simp] theorem putHline_lasers (m l : Nat) (x : FLine) : (s.putHline m l x).lasers = s.lasers := rfl
@[simp] theorem putHline_cal (m l : Nat) (x : FLine) : (s.putHline m l x).cal = s.cal := rfl
@[simp] theorem putHline_calSh (m l : Nat) (x : FLine) : (s.putHline m l x).calSh = s.calSh := rfl
@[simp] theorem putHline_subs (m l : Nat) (x : FLine) : (s.putHline m l x).subs = s.subs := rfl
@[simp] theorem putHline_grantAt (m l : Nat) (x : FLine) : (s.putHline m l x).grantAt = s.grantAt := rfl
@[simp] theorem putHline_sbGen (m l : Nat) (x : FLine) : (s.putHline m l x).sbGen = s.sbGen := rfl
@[simp] theorem putHline_notes (m l : Nat) (x : FLine) : (s.putHline m l x).notes = s.notes := rfl
@[simp] theorem putHline_sqs (m l : Nat) (x : FLine) : (s.putHline m l x).sqs = s.sqs := rfl
@[simp] theorem putHline_dmas (m l : Nat) (x : FLine) : (s.putHline m l x).dmas = s.dmas := rfl
@[simp] theorem putHline_acks (m l : Nat) (x : FLine) : (s.putHline m l x).acks = s.acks := rfl
@[simp] theorem putHline_pins (m l : Nat) (x : FLine) : (s.putHline m l x).pins = s.pins := rfl
@[simp] theorem putHline_hoops (m l : Nat) (x : FLine) : (s.putHline m l x).hoops = s.hoops := rfl
@[simp] theorem putHline_ring (m l : Nat) (x : FLine) : (s.putHline m l x).ring = s.ring := rfl
@[simp] theorem putHline_snaps (m l : Nat) (x : FLine) : (s.putHline m l x).snaps = s.snaps := rfl
@[simp] theorem putHline_com (m l : Nat) (x : FLine) : (s.putHline m l x).com = s.com := rfl
@[simp] theorem putHline_sens (m l : Nat) (x : FLine) : (s.putHline m l x).sens = s.sens := rfl
@[simp] theorem putHline_dth (m l : Nat) (x : FLine) : (s.putHline m l x).dth = s.dth := rfl
@[simp] theorem putHline_thp (m l : Nat) (x : FLine) : (s.putHline m l x).thp = s.thp := rfl
@[simp] theorem putHline_fits (m l : Nat) (x : FLine) : (s.putHline m l x).fits = s.fits := rfl
@[simp] theorem putHline_agePend (m l : Nat) (x : FLine) : (s.putHline m l x).agePend = s.agePend := rfl
@[simp] theorem putHline_flash (m l : Nat) (x : FLine) : (s.putHline m l x).flash = s.flash := rfl
@[simp] theorem putHline_start (m l : Nat) (x : FLine) : (s.putHline m l x).start = s.start := rfl
@[simp] theorem putHline_out (m l : Nat) (x : FLine) : (s.putHline m l x).out = s.out := rfl
@[simp] theorem putHline_freeCtr (m l : Nat) (x : FLine) : (s.putHline m l x).freeCtr = s.freeCtr := rfl
@[simp] theorem putHline_pending (m l : Nat) (x : FLine) : (s.putHline m l x).pending = s.pending := rfl
@[simp] theorem putHline_rd (m l : Nat) (x : FLine) (i : Nat) (y : Fld) : (s.putHline m l x).rd i y = s.rd i y := rfl
@[simp] theorem putHline_page (m l : Nat) (x : FLine) (i : Nat) : (s.putHline m l x).page i = s.page i := rfl
@[simp] theorem putHline_tile (m l : Nat) (x : FLine) (i j : Nat) : (s.putHline m l x).tile i j = s.tile i j := rfl
@[simp] theorem putHline_od (m l : Nat) (x : FLine) (i : Nat) : (s.putHline m l x).od i = s.od i := rfl
@[simp] theorem putHline_eng (m l : Nat) (x : FLine) (i j : Nat) : (s.putHline m l x).eng i j = s.eng i j := rfl
@[simp] theorem putHline_ce (m l : Nat) (x : FLine) (i : Nat) : (s.putHline m l x).ce i = s.ce i := rfl
@[simp] theorem putHline_hoop (m l : Nat) (x : FLine) (i : Nat) : (s.putHline m l x).hoop i = s.hoop i := rfl
@[simp] theorem putHline_flashOf (m l : Nat) (x : FLine) (i : Nat) : (s.putHline m l x).flashOf i = s.flashOf i := rfl
@[simp] theorem putHline_sq (m l : Nat) (x : FLine) (i j : Nat) : (s.putHline m l x).sq i j = s.sq i j := rfl
@[simp] theorem putHline_wle (m l : Nat) (x : FLine) (i : Nat) : (s.putHline m l x).wle i = s.wle i := rfl
@[simp] theorem putHline_sub (m l : Nat) (x : FLine) (i j : Nat) : (s.putHline m l x).sub i j = s.sub i j := rfl
@[simp] theorem putHline_sensor (m l : Nat) (x : FLine) (i : Nat) : (s.putHline m l x).sensor i = s.sensor i := rfl

/-! `putBline` changes `cbuf` alone. -/
@[simp] theorem putBline_clk (d a : Nat) (x : FLine) : (s.putBline d a x).clk = s.clk := rfl
@[simp] theorem putBline_regs (d a : Nat) (x : FLine) : (s.putBline d a x).regs = s.regs := rfl
@[simp] theorem putBline_pages (d a : Nat) (x : FLine) : (s.putBline d a x).pages = s.pages := rfl
@[simp] theorem putBline_flt (d a : Nat) (x : FLine) : (s.putBline d a x).flt = s.flt := rfl
@[simp] theorem putBline_tiles (d a : Nat) (x : FLine) : (s.putBline d a x).tiles = s.tiles := rfl
@[simp] theorem putBline_osd (d a : Nat) (x : FLine) : (s.putBline d a x).osd = s.osd := rfl
@[simp] theorem putBline_cad (d a : Nat) (x : FLine) : (s.putBline d a x).cad = s.cad := rfl
@[simp] theorem putBline_mesh (d a : Nat) (x : FLine) : (s.putBline d a x).mesh = s.mesh := rfl
@[simp] theorem putBline_edges (d a : Nat) (x : FLine) : (s.putBline d a x).edges = s.edges := rfl
@[simp] theorem putBline_hbm (d a : Nat) (x : FLine) : (s.putBline d a x).hbm = s.hbm := rfl
@[simp] theorem putBline_stake (d a : Nat) (x : FLine) : (s.putBline d a x).stake = s.stake := rfl
@[simp] theorem putBline_stakeOld (d a : Nat) (x : FLine) : (s.putBline d a x).stakeOld = s.stakeOld := rfl
@[simp] theorem putBline_sideRem (d a : Nat) (x : FLine) : (s.putBline d a x).sideRem = s.sideRem := rfl
@[simp] theorem putBline_cool (d a : Nat) (x : FLine) : (s.putBline d a x).cool = s.cool := rfl
@[simp] theorem putBline_scrubAt (d a : Nat) (x : FLine) : (s.putBline d a x).scrubAt = s.scrubAt := rfl
@[simp] theorem putBline_ovb (d a : Nat) (x : FLine) : (s.putBline d a x).ovb = s.ovb := rfl
@[simp] theorem putBline_ovbOver (d a : Nat) (x : FLine) : (s.putBline d a x).ovbOver = s.ovbOver := rfl
@[simp] theorem putBline_quiet (d a : Nat) (x : FLine) : (s.putBline d a x).quiet = s.quiet := rfl
@[simp] theorem putBline_engs (d a : Nat) (x : FLine) : (s.putBline d a x).engs = s.engs := rfl
@[simp] theorem putBline_reads (d a : Nat) (x : FLine) : (s.putBline d a x).reads = s.reads := rfl
@[simp] theorem putBline_loads (d a : Nat) (x : FLine) : (s.putBline d a x).loads = s.loads := rfl
@[simp] theorem putBline_units (d a : Nat) (x : FLine) : (s.putBline d a x).units = s.units := rfl
@[simp] theorem putBline_offers (d a : Nat) (x : FLine) : (s.putBline d a x).offers = s.offers := rfl
@[simp] theorem putBline_reqs (d a : Nat) (x : FLine) : (s.putBline d a x).reqs = s.reqs := rfl
@[simp] theorem putBline_nbq (d a : Nat) (x : FLine) : (s.putBline d a x).nbq = s.nbq := rfl
@[simp] theorem putBline_arrivals (d a : Nat) (x : FLine) : (s.putBline d a x).arrivals = s.arrivals := rfl
@[simp] theorem putBline_ces (d a : Nat) (x : FLine) : (s.putBline d a x).ces = s.ces := rfl
@[simp] theorem putBline_borders (d a : Nat) (x : FLine) : (s.putBline d a x).borders = s.borders := rfl
@[simp] theorem putBline_aud (d a : Nat) (x : FLine) : (s.putBline d a x).aud = s.aud := rfl
@[simp] theorem putBline_pkgt (d a : Nat) (x : FLine) : (s.putBline d a x).pkgt = s.pkgt := rfl
@[simp] theorem putBline_wl (d a : Nat) (x : FLine) : (s.putBline d a x).wl = s.wl := rfl
@[simp] theorem putBline_lanes (d a : Nat) (x : FLine) : (s.putBline d a x).lanes = s.lanes := rfl
@[simp] theorem putBline_fibs (d a : Nat) (x : FLine) : (s.putBline d a x).fibs = s.fibs := rfl
@[simp] theorem putBline_wfs (d a : Nat) (x : FLine) : (s.putBline d a x).wfs = s.wfs := rfl
@[simp] theorem putBline_rds (d a : Nat) (x : FLine) : (s.putBline d a x).rds = s.rds := rfl
@[simp] theorem putBline_lasers (d a : Nat) (x : FLine) : (s.putBline d a x).lasers = s.lasers := rfl
@[simp] theorem putBline_cal (d a : Nat) (x : FLine) : (s.putBline d a x).cal = s.cal := rfl
@[simp] theorem putBline_calSh (d a : Nat) (x : FLine) : (s.putBline d a x).calSh = s.calSh := rfl
@[simp] theorem putBline_subs (d a : Nat) (x : FLine) : (s.putBline d a x).subs = s.subs := rfl
@[simp] theorem putBline_grantAt (d a : Nat) (x : FLine) : (s.putBline d a x).grantAt = s.grantAt := rfl
@[simp] theorem putBline_sbGen (d a : Nat) (x : FLine) : (s.putBline d a x).sbGen = s.sbGen := rfl
@[simp] theorem putBline_notes (d a : Nat) (x : FLine) : (s.putBline d a x).notes = s.notes := rfl
@[simp] theorem putBline_sqs (d a : Nat) (x : FLine) : (s.putBline d a x).sqs = s.sqs := rfl
@[simp] theorem putBline_dmas (d a : Nat) (x : FLine) : (s.putBline d a x).dmas = s.dmas := rfl
@[simp] theorem putBline_acks (d a : Nat) (x : FLine) : (s.putBline d a x).acks = s.acks := rfl
@[simp] theorem putBline_pins (d a : Nat) (x : FLine) : (s.putBline d a x).pins = s.pins := rfl
@[simp] theorem putBline_hoops (d a : Nat) (x : FLine) : (s.putBline d a x).hoops = s.hoops := rfl
@[simp] theorem putBline_ring (d a : Nat) (x : FLine) : (s.putBline d a x).ring = s.ring := rfl
@[simp] theorem putBline_snaps (d a : Nat) (x : FLine) : (s.putBline d a x).snaps = s.snaps := rfl
@[simp] theorem putBline_com (d a : Nat) (x : FLine) : (s.putBline d a x).com = s.com := rfl
@[simp] theorem putBline_sens (d a : Nat) (x : FLine) : (s.putBline d a x).sens = s.sens := rfl
@[simp] theorem putBline_dth (d a : Nat) (x : FLine) : (s.putBline d a x).dth = s.dth := rfl
@[simp] theorem putBline_thp (d a : Nat) (x : FLine) : (s.putBline d a x).thp = s.thp := rfl
@[simp] theorem putBline_fits (d a : Nat) (x : FLine) : (s.putBline d a x).fits = s.fits := rfl
@[simp] theorem putBline_agePend (d a : Nat) (x : FLine) : (s.putBline d a x).agePend = s.agePend := rfl
@[simp] theorem putBline_flash (d a : Nat) (x : FLine) : (s.putBline d a x).flash = s.flash := rfl
@[simp] theorem putBline_start (d a : Nat) (x : FLine) : (s.putBline d a x).start = s.start := rfl
@[simp] theorem putBline_out (d a : Nat) (x : FLine) : (s.putBline d a x).out = s.out := rfl
@[simp] theorem putBline_freeCtr (d a : Nat) (x : FLine) : (s.putBline d a x).freeCtr = s.freeCtr := rfl
@[simp] theorem putBline_pending (d a : Nat) (x : FLine) : (s.putBline d a x).pending = s.pending := rfl
@[simp] theorem putBline_rd (d a : Nat) (x : FLine) (i : Nat) (y : Fld) : (s.putBline d a x).rd i y = s.rd i y := rfl
@[simp] theorem putBline_page (d a : Nat) (x : FLine) (i : Nat) : (s.putBline d a x).page i = s.page i := rfl
@[simp] theorem putBline_tile (d a : Nat) (x : FLine) (i j : Nat) : (s.putBline d a x).tile i j = s.tile i j := rfl
@[simp] theorem putBline_od (d a : Nat) (x : FLine) (i : Nat) : (s.putBline d a x).od i = s.od i := rfl
@[simp] theorem putBline_eng (d a : Nat) (x : FLine) (i j : Nat) : (s.putBline d a x).eng i j = s.eng i j := rfl
@[simp] theorem putBline_ce (d a : Nat) (x : FLine) (i : Nat) : (s.putBline d a x).ce i = s.ce i := rfl
@[simp] theorem putBline_hoop (d a : Nat) (x : FLine) (i : Nat) : (s.putBline d a x).hoop i = s.hoop i := rfl
@[simp] theorem putBline_flashOf (d a : Nat) (x : FLine) (i : Nat) : (s.putBline d a x).flashOf i = s.flashOf i := rfl
@[simp] theorem putBline_sq (d a : Nat) (x : FLine) (i j : Nat) : (s.putBline d a x).sq i j = s.sq i j := rfl
@[simp] theorem putBline_wle (d a : Nat) (x : FLine) (i : Nat) : (s.putBline d a x).wle i = s.wle i := rfl
@[simp] theorem putBline_sub (d a : Nat) (x : FLine) (i j : Nat) : (s.putBline d a x).sub i j = s.sub i j := rfl
@[simp] theorem putBline_sensor (d a : Nat) (x : FLine) (i : Nat) : (s.putBline d a x).sensor i = s.sensor i := rfl

/-! `sendRec` changes `flt` alone. -/
@[simp] theorem sendRec_clk (r : FaultRec) : (s.sendRec r).clk = s.clk := rfl
@[simp] theorem sendRec_regs (r : FaultRec) : (s.sendRec r).regs = s.regs := rfl
@[simp] theorem sendRec_pages (r : FaultRec) : (s.sendRec r).pages = s.pages := rfl
@[simp] theorem sendRec_tiles (r : FaultRec) : (s.sendRec r).tiles = s.tiles := rfl
@[simp] theorem sendRec_osd (r : FaultRec) : (s.sendRec r).osd = s.osd := rfl
@[simp] theorem sendRec_cad (r : FaultRec) : (s.sendRec r).cad = s.cad := rfl
@[simp] theorem sendRec_mesh (r : FaultRec) : (s.sendRec r).mesh = s.mesh := rfl
@[simp] theorem sendRec_edges (r : FaultRec) : (s.sendRec r).edges = s.edges := rfl
@[simp] theorem sendRec_hbm (r : FaultRec) : (s.sendRec r).hbm = s.hbm := rfl
@[simp] theorem sendRec_stake (r : FaultRec) : (s.sendRec r).stake = s.stake := rfl
@[simp] theorem sendRec_stakeOld (r : FaultRec) : (s.sendRec r).stakeOld = s.stakeOld := rfl
@[simp] theorem sendRec_sideRem (r : FaultRec) : (s.sendRec r).sideRem = s.sideRem := rfl
@[simp] theorem sendRec_cool (r : FaultRec) : (s.sendRec r).cool = s.cool := rfl
@[simp] theorem sendRec_scrubAt (r : FaultRec) : (s.sendRec r).scrubAt = s.scrubAt := rfl
@[simp] theorem sendRec_ovb (r : FaultRec) : (s.sendRec r).ovb = s.ovb := rfl
@[simp] theorem sendRec_ovbOver (r : FaultRec) : (s.sendRec r).ovbOver = s.ovbOver := rfl
@[simp] theorem sendRec_quiet (r : FaultRec) : (s.sendRec r).quiet = s.quiet := rfl
@[simp] theorem sendRec_engs (r : FaultRec) : (s.sendRec r).engs = s.engs := rfl
@[simp] theorem sendRec_reads (r : FaultRec) : (s.sendRec r).reads = s.reads := rfl
@[simp] theorem sendRec_loads (r : FaultRec) : (s.sendRec r).loads = s.loads := rfl
@[simp] theorem sendRec_units (r : FaultRec) : (s.sendRec r).units = s.units := rfl
@[simp] theorem sendRec_offers (r : FaultRec) : (s.sendRec r).offers = s.offers := rfl
@[simp] theorem sendRec_reqs (r : FaultRec) : (s.sendRec r).reqs = s.reqs := rfl
@[simp] theorem sendRec_nbq (r : FaultRec) : (s.sendRec r).nbq = s.nbq := rfl
@[simp] theorem sendRec_arrivals (r : FaultRec) : (s.sendRec r).arrivals = s.arrivals := rfl
@[simp] theorem sendRec_ces (r : FaultRec) : (s.sendRec r).ces = s.ces := rfl
@[simp] theorem sendRec_cbuf (r : FaultRec) : (s.sendRec r).cbuf = s.cbuf := rfl
@[simp] theorem sendRec_borders (r : FaultRec) : (s.sendRec r).borders = s.borders := rfl
@[simp] theorem sendRec_aud (r : FaultRec) : (s.sendRec r).aud = s.aud := rfl
@[simp] theorem sendRec_pkgt (r : FaultRec) : (s.sendRec r).pkgt = s.pkgt := rfl
@[simp] theorem sendRec_wl (r : FaultRec) : (s.sendRec r).wl = s.wl := rfl
@[simp] theorem sendRec_lanes (r : FaultRec) : (s.sendRec r).lanes = s.lanes := rfl
@[simp] theorem sendRec_fibs (r : FaultRec) : (s.sendRec r).fibs = s.fibs := rfl
@[simp] theorem sendRec_wfs (r : FaultRec) : (s.sendRec r).wfs = s.wfs := rfl
@[simp] theorem sendRec_rds (r : FaultRec) : (s.sendRec r).rds = s.rds := rfl
@[simp] theorem sendRec_lasers (r : FaultRec) : (s.sendRec r).lasers = s.lasers := rfl
@[simp] theorem sendRec_cal (r : FaultRec) : (s.sendRec r).cal = s.cal := rfl
@[simp] theorem sendRec_calSh (r : FaultRec) : (s.sendRec r).calSh = s.calSh := rfl
@[simp] theorem sendRec_subs (r : FaultRec) : (s.sendRec r).subs = s.subs := rfl
@[simp] theorem sendRec_grantAt (r : FaultRec) : (s.sendRec r).grantAt = s.grantAt := rfl
@[simp] theorem sendRec_sbGen (r : FaultRec) : (s.sendRec r).sbGen = s.sbGen := rfl
@[simp] theorem sendRec_notes (r : FaultRec) : (s.sendRec r).notes = s.notes := rfl
@[simp] theorem sendRec_sqs (r : FaultRec) : (s.sendRec r).sqs = s.sqs := rfl
@[simp] theorem sendRec_dmas (r : FaultRec) : (s.sendRec r).dmas = s.dmas := rfl
@[simp] theorem sendRec_acks (r : FaultRec) : (s.sendRec r).acks = s.acks := rfl
@[simp] theorem sendRec_pins (r : FaultRec) : (s.sendRec r).pins = s.pins := rfl
@[simp] theorem sendRec_hoops (r : FaultRec) : (s.sendRec r).hoops = s.hoops := rfl
@[simp] theorem sendRec_ring (r : FaultRec) : (s.sendRec r).ring = s.ring := rfl
@[simp] theorem sendRec_snaps (r : FaultRec) : (s.sendRec r).snaps = s.snaps := rfl
@[simp] theorem sendRec_com (r : FaultRec) : (s.sendRec r).com = s.com := rfl
@[simp] theorem sendRec_sens (r : FaultRec) : (s.sendRec r).sens = s.sens := rfl
@[simp] theorem sendRec_dth (r : FaultRec) : (s.sendRec r).dth = s.dth := rfl
@[simp] theorem sendRec_thp (r : FaultRec) : (s.sendRec r).thp = s.thp := rfl
@[simp] theorem sendRec_fits (r : FaultRec) : (s.sendRec r).fits = s.fits := rfl
@[simp] theorem sendRec_agePend (r : FaultRec) : (s.sendRec r).agePend = s.agePend := rfl
@[simp] theorem sendRec_flash (r : FaultRec) : (s.sendRec r).flash = s.flash := rfl
@[simp] theorem sendRec_start (r : FaultRec) : (s.sendRec r).start = s.start := rfl
@[simp] theorem sendRec_out (r : FaultRec) : (s.sendRec r).out = s.out := rfl
@[simp] theorem sendRec_freeCtr (r : FaultRec) : (s.sendRec r).freeCtr = s.freeCtr := rfl
@[simp] theorem sendRec_pending (r : FaultRec) : (s.sendRec r).pending = s.pending := rfl
@[simp] theorem sendRec_rd (r : FaultRec) (i : Nat) (y : Fld) : (s.sendRec r).rd i y = s.rd i y := rfl
@[simp] theorem sendRec_page (r : FaultRec) (i : Nat) : (s.sendRec r).page i = s.page i := rfl
@[simp] theorem sendRec_tile (r : FaultRec) (i j : Nat) : (s.sendRec r).tile i j = s.tile i j := rfl
@[simp] theorem sendRec_od (r : FaultRec) (i : Nat) : (s.sendRec r).od i = s.od i := rfl
@[simp] theorem sendRec_eng (r : FaultRec) (i j : Nat) : (s.sendRec r).eng i j = s.eng i j := rfl
@[simp] theorem sendRec_ce (r : FaultRec) (i : Nat) : (s.sendRec r).ce i = s.ce i := rfl
@[simp] theorem sendRec_hoop (r : FaultRec) (i : Nat) : (s.sendRec r).hoop i = s.hoop i := rfl
@[simp] theorem sendRec_flashOf (r : FaultRec) (i : Nat) : (s.sendRec r).flashOf i = s.flashOf i := rfl
@[simp] theorem sendRec_sq (r : FaultRec) (i j : Nat) : (s.sendRec r).sq i j = s.sq i j := rfl
@[simp] theorem sendRec_wle (r : FaultRec) (i : Nat) : (s.sendRec r).wle i = s.wle i := rfl
@[simp] theorem sendRec_sub (r : FaultRec) (i j : Nat) : (s.sendRec r).sub i j = s.sub i j := rfl
@[simp] theorem sendRec_sensor (r : FaultRec) (i : Nat) : (s.sendRec r).sensor i = s.sensor i := rfl

/-! `msix` changes `out` alone. -/
@[simp] theorem msix_clk (h v : Nat) : (s.msix h v).clk = s.clk := rfl
@[simp] theorem msix_regs (h v : Nat) : (s.msix h v).regs = s.regs := rfl
@[simp] theorem msix_pages (h v : Nat) : (s.msix h v).pages = s.pages := rfl
@[simp] theorem msix_flt (h v : Nat) : (s.msix h v).flt = s.flt := rfl
@[simp] theorem msix_tiles (h v : Nat) : (s.msix h v).tiles = s.tiles := rfl
@[simp] theorem msix_osd (h v : Nat) : (s.msix h v).osd = s.osd := rfl
@[simp] theorem msix_cad (h v : Nat) : (s.msix h v).cad = s.cad := rfl
@[simp] theorem msix_mesh (h v : Nat) : (s.msix h v).mesh = s.mesh := rfl
@[simp] theorem msix_edges (h v : Nat) : (s.msix h v).edges = s.edges := rfl
@[simp] theorem msix_hbm (h v : Nat) : (s.msix h v).hbm = s.hbm := rfl
@[simp] theorem msix_stake (h v : Nat) : (s.msix h v).stake = s.stake := rfl
@[simp] theorem msix_stakeOld (h v : Nat) : (s.msix h v).stakeOld = s.stakeOld := rfl
@[simp] theorem msix_sideRem (h v : Nat) : (s.msix h v).sideRem = s.sideRem := rfl
@[simp] theorem msix_cool (h v : Nat) : (s.msix h v).cool = s.cool := rfl
@[simp] theorem msix_scrubAt (h v : Nat) : (s.msix h v).scrubAt = s.scrubAt := rfl
@[simp] theorem msix_ovb (h v : Nat) : (s.msix h v).ovb = s.ovb := rfl
@[simp] theorem msix_ovbOver (h v : Nat) : (s.msix h v).ovbOver = s.ovbOver := rfl
@[simp] theorem msix_quiet (h v : Nat) : (s.msix h v).quiet = s.quiet := rfl
@[simp] theorem msix_engs (h v : Nat) : (s.msix h v).engs = s.engs := rfl
@[simp] theorem msix_reads (h v : Nat) : (s.msix h v).reads = s.reads := rfl
@[simp] theorem msix_loads (h v : Nat) : (s.msix h v).loads = s.loads := rfl
@[simp] theorem msix_units (h v : Nat) : (s.msix h v).units = s.units := rfl
@[simp] theorem msix_offers (h v : Nat) : (s.msix h v).offers = s.offers := rfl
@[simp] theorem msix_reqs (h v : Nat) : (s.msix h v).reqs = s.reqs := rfl
@[simp] theorem msix_nbq (h v : Nat) : (s.msix h v).nbq = s.nbq := rfl
@[simp] theorem msix_arrivals (h v : Nat) : (s.msix h v).arrivals = s.arrivals := rfl
@[simp] theorem msix_ces (h v : Nat) : (s.msix h v).ces = s.ces := rfl
@[simp] theorem msix_cbuf (h v : Nat) : (s.msix h v).cbuf = s.cbuf := rfl
@[simp] theorem msix_borders (h v : Nat) : (s.msix h v).borders = s.borders := rfl
@[simp] theorem msix_aud (h v : Nat) : (s.msix h v).aud = s.aud := rfl
@[simp] theorem msix_pkgt (h v : Nat) : (s.msix h v).pkgt = s.pkgt := rfl
@[simp] theorem msix_wl (h v : Nat) : (s.msix h v).wl = s.wl := rfl
@[simp] theorem msix_lanes (h v : Nat) : (s.msix h v).lanes = s.lanes := rfl
@[simp] theorem msix_fibs (h v : Nat) : (s.msix h v).fibs = s.fibs := rfl
@[simp] theorem msix_wfs (h v : Nat) : (s.msix h v).wfs = s.wfs := rfl
@[simp] theorem msix_rds (h v : Nat) : (s.msix h v).rds = s.rds := rfl
@[simp] theorem msix_lasers (h v : Nat) : (s.msix h v).lasers = s.lasers := rfl
@[simp] theorem msix_cal (h v : Nat) : (s.msix h v).cal = s.cal := rfl
@[simp] theorem msix_calSh (h v : Nat) : (s.msix h v).calSh = s.calSh := rfl
@[simp] theorem msix_subs (h v : Nat) : (s.msix h v).subs = s.subs := rfl
@[simp] theorem msix_grantAt (h v : Nat) : (s.msix h v).grantAt = s.grantAt := rfl
@[simp] theorem msix_sbGen (h v : Nat) : (s.msix h v).sbGen = s.sbGen := rfl
@[simp] theorem msix_notes (h v : Nat) : (s.msix h v).notes = s.notes := rfl
@[simp] theorem msix_sqs (h v : Nat) : (s.msix h v).sqs = s.sqs := rfl
@[simp] theorem msix_dmas (h v : Nat) : (s.msix h v).dmas = s.dmas := rfl
@[simp] theorem msix_acks (h v : Nat) : (s.msix h v).acks = s.acks := rfl
@[simp] theorem msix_pins (h v : Nat) : (s.msix h v).pins = s.pins := rfl
@[simp] theorem msix_hoops (h v : Nat) : (s.msix h v).hoops = s.hoops := rfl
@[simp] theorem msix_ring (h v : Nat) : (s.msix h v).ring = s.ring := rfl
@[simp] theorem msix_snaps (h v : Nat) : (s.msix h v).snaps = s.snaps := rfl
@[simp] theorem msix_com (h v : Nat) : (s.msix h v).com = s.com := rfl
@[simp] theorem msix_sens (h v : Nat) : (s.msix h v).sens = s.sens := rfl
@[simp] theorem msix_dth (h v : Nat) : (s.msix h v).dth = s.dth := rfl
@[simp] theorem msix_thp (h v : Nat) : (s.msix h v).thp = s.thp := rfl
@[simp] theorem msix_fits (h v : Nat) : (s.msix h v).fits = s.fits := rfl
@[simp] theorem msix_agePend (h v : Nat) : (s.msix h v).agePend = s.agePend := rfl
@[simp] theorem msix_flash (h v : Nat) : (s.msix h v).flash = s.flash := rfl
@[simp] theorem msix_start (h v : Nat) : (s.msix h v).start = s.start := rfl
@[simp] theorem msix_freeCtr (h v : Nat) : (s.msix h v).freeCtr = s.freeCtr := rfl
@[simp] theorem msix_pending (h v : Nat) : (s.msix h v).pending = s.pending := rfl
@[simp] theorem msix_rd (h v : Nat) (i : Nat) (y : Fld) : (s.msix h v).rd i y = s.rd i y := rfl
@[simp] theorem msix_page (h v : Nat) (i : Nat) : (s.msix h v).page i = s.page i := rfl
@[simp] theorem msix_tile (h v : Nat) (i j : Nat) : (s.msix h v).tile i j = s.tile i j := rfl
@[simp] theorem msix_od (h v : Nat) (i : Nat) : (s.msix h v).od i = s.od i := rfl
@[simp] theorem msix_eng (h v : Nat) (i j : Nat) : (s.msix h v).eng i j = s.eng i j := rfl
@[simp] theorem msix_ce (h v : Nat) (i : Nat) : (s.msix h v).ce i = s.ce i := rfl
@[simp] theorem msix_hoop (h v : Nat) (i : Nat) : (s.msix h v).hoop i = s.hoop i := rfl
@[simp] theorem msix_flashOf (h v : Nat) (i : Nat) : (s.msix h v).flashOf i = s.flashOf i := rfl
@[simp] theorem msix_sq (h v : Nat) (i j : Nat) : (s.msix h v).sq i j = s.sq i j := rfl
@[simp] theorem msix_wle (h v : Nat) (i : Nat) : (s.msix h v).wle i = s.wle i := rfl
@[simp] theorem msix_sub (h v : Nat) (i j : Nat) : (s.msix h v).sub i j = s.sub i j := rfl
@[simp] theorem msix_sensor (h v : Nat) (i : Nat) : (s.msix h v).sensor i = s.sensor i := rfl

/-! `complete` changes `out` alone. -/
@[simp] theorem complete_clk (c : Cpl) : (s.complete c).clk = s.clk := rfl
@[simp] theorem complete_regs (c : Cpl) : (s.complete c).regs = s.regs := rfl
@[simp] theorem complete_pages (c : Cpl) : (s.complete c).pages = s.pages := rfl
@[simp] theorem complete_flt (c : Cpl) : (s.complete c).flt = s.flt := rfl
@[simp] theorem complete_tiles (c : Cpl) : (s.complete c).tiles = s.tiles := rfl
@[simp] theorem complete_osd (c : Cpl) : (s.complete c).osd = s.osd := rfl
@[simp] theorem complete_cad (c : Cpl) : (s.complete c).cad = s.cad := rfl
@[simp] theorem complete_mesh (c : Cpl) : (s.complete c).mesh = s.mesh := rfl
@[simp] theorem complete_edges (c : Cpl) : (s.complete c).edges = s.edges := rfl
@[simp] theorem complete_hbm (c : Cpl) : (s.complete c).hbm = s.hbm := rfl
@[simp] theorem complete_stake (c : Cpl) : (s.complete c).stake = s.stake := rfl
@[simp] theorem complete_stakeOld (c : Cpl) : (s.complete c).stakeOld = s.stakeOld := rfl
@[simp] theorem complete_sideRem (c : Cpl) : (s.complete c).sideRem = s.sideRem := rfl
@[simp] theorem complete_cool (c : Cpl) : (s.complete c).cool = s.cool := rfl
@[simp] theorem complete_scrubAt (c : Cpl) : (s.complete c).scrubAt = s.scrubAt := rfl
@[simp] theorem complete_ovb (c : Cpl) : (s.complete c).ovb = s.ovb := rfl
@[simp] theorem complete_ovbOver (c : Cpl) : (s.complete c).ovbOver = s.ovbOver := rfl
@[simp] theorem complete_quiet (c : Cpl) : (s.complete c).quiet = s.quiet := rfl
@[simp] theorem complete_engs (c : Cpl) : (s.complete c).engs = s.engs := rfl
@[simp] theorem complete_reads (c : Cpl) : (s.complete c).reads = s.reads := rfl
@[simp] theorem complete_loads (c : Cpl) : (s.complete c).loads = s.loads := rfl
@[simp] theorem complete_units (c : Cpl) : (s.complete c).units = s.units := rfl
@[simp] theorem complete_offers (c : Cpl) : (s.complete c).offers = s.offers := rfl
@[simp] theorem complete_reqs (c : Cpl) : (s.complete c).reqs = s.reqs := rfl
@[simp] theorem complete_nbq (c : Cpl) : (s.complete c).nbq = s.nbq := rfl
@[simp] theorem complete_arrivals (c : Cpl) : (s.complete c).arrivals = s.arrivals := rfl
@[simp] theorem complete_ces (c : Cpl) : (s.complete c).ces = s.ces := rfl
@[simp] theorem complete_cbuf (c : Cpl) : (s.complete c).cbuf = s.cbuf := rfl
@[simp] theorem complete_borders (c : Cpl) : (s.complete c).borders = s.borders := rfl
@[simp] theorem complete_aud (c : Cpl) : (s.complete c).aud = s.aud := rfl
@[simp] theorem complete_pkgt (c : Cpl) : (s.complete c).pkgt = s.pkgt := rfl
@[simp] theorem complete_wl (c : Cpl) : (s.complete c).wl = s.wl := rfl
@[simp] theorem complete_lanes (c : Cpl) : (s.complete c).lanes = s.lanes := rfl
@[simp] theorem complete_fibs (c : Cpl) : (s.complete c).fibs = s.fibs := rfl
@[simp] theorem complete_wfs (c : Cpl) : (s.complete c).wfs = s.wfs := rfl
@[simp] theorem complete_rds (c : Cpl) : (s.complete c).rds = s.rds := rfl
@[simp] theorem complete_lasers (c : Cpl) : (s.complete c).lasers = s.lasers := rfl
@[simp] theorem complete_cal (c : Cpl) : (s.complete c).cal = s.cal := rfl
@[simp] theorem complete_calSh (c : Cpl) : (s.complete c).calSh = s.calSh := rfl
@[simp] theorem complete_subs (c : Cpl) : (s.complete c).subs = s.subs := rfl
@[simp] theorem complete_grantAt (c : Cpl) : (s.complete c).grantAt = s.grantAt := rfl
@[simp] theorem complete_sbGen (c : Cpl) : (s.complete c).sbGen = s.sbGen := rfl
@[simp] theorem complete_notes (c : Cpl) : (s.complete c).notes = s.notes := rfl
@[simp] theorem complete_sqs (c : Cpl) : (s.complete c).sqs = s.sqs := rfl
@[simp] theorem complete_dmas (c : Cpl) : (s.complete c).dmas = s.dmas := rfl
@[simp] theorem complete_acks (c : Cpl) : (s.complete c).acks = s.acks := rfl
@[simp] theorem complete_pins (c : Cpl) : (s.complete c).pins = s.pins := rfl
@[simp] theorem complete_hoops (c : Cpl) : (s.complete c).hoops = s.hoops := rfl
@[simp] theorem complete_ring (c : Cpl) : (s.complete c).ring = s.ring := rfl
@[simp] theorem complete_snaps (c : Cpl) : (s.complete c).snaps = s.snaps := rfl
@[simp] theorem complete_com (c : Cpl) : (s.complete c).com = s.com := rfl
@[simp] theorem complete_sens (c : Cpl) : (s.complete c).sens = s.sens := rfl
@[simp] theorem complete_dth (c : Cpl) : (s.complete c).dth = s.dth := rfl
@[simp] theorem complete_thp (c : Cpl) : (s.complete c).thp = s.thp := rfl
@[simp] theorem complete_fits (c : Cpl) : (s.complete c).fits = s.fits := rfl
@[simp] theorem complete_agePend (c : Cpl) : (s.complete c).agePend = s.agePend := rfl
@[simp] theorem complete_flash (c : Cpl) : (s.complete c).flash = s.flash := rfl
@[simp] theorem complete_start (c : Cpl) : (s.complete c).start = s.start := rfl
@[simp] theorem complete_freeCtr (c : Cpl) : (s.complete c).freeCtr = s.freeCtr := rfl
@[simp] theorem complete_pending (c : Cpl) : (s.complete c).pending = s.pending := rfl
@[simp] theorem complete_rd (c : Cpl) (i : Nat) (y : Fld) : (s.complete c).rd i y = s.rd i y := rfl
@[simp] theorem complete_page (c : Cpl) (i : Nat) : (s.complete c).page i = s.page i := rfl
@[simp] theorem complete_tile (c : Cpl) (i j : Nat) : (s.complete c).tile i j = s.tile i j := rfl
@[simp] theorem complete_od (c : Cpl) (i : Nat) : (s.complete c).od i = s.od i := rfl
@[simp] theorem complete_eng (c : Cpl) (i j : Nat) : (s.complete c).eng i j = s.eng i j := rfl
@[simp] theorem complete_ce (c : Cpl) (i : Nat) : (s.complete c).ce i = s.ce i := rfl
@[simp] theorem complete_hoop (c : Cpl) (i : Nat) : (s.complete c).hoop i = s.hoop i := rfl
@[simp] theorem complete_flashOf (c : Cpl) (i : Nat) : (s.complete c).flashOf i = s.flashOf i := rfl
@[simp] theorem complete_sq (c : Cpl) (i j : Nat) : (s.complete c).sq i j = s.sq i j := rfl
@[simp] theorem complete_wle (c : Cpl) (i : Nat) : (s.complete c).wle i = s.wle i := rfl
@[simp] theorem complete_sub (c : Cpl) (i j : Nat) : (s.complete c).sub i j = s.sub i j := rfl
@[simp] theorem complete_sensor (c : Cpl) (i : Nat) : (s.complete c).sensor i = s.sensor i := rfl

/-! `passSlots` changes `clk` alone. -/
@[simp] theorem passSlots_regs (k : Nat) : (s.passSlots k).regs = s.regs := rfl
@[simp] theorem passSlots_pages (k : Nat) : (s.passSlots k).pages = s.pages := rfl
@[simp] theorem passSlots_flt (k : Nat) : (s.passSlots k).flt = s.flt := rfl
@[simp] theorem passSlots_tiles (k : Nat) : (s.passSlots k).tiles = s.tiles := rfl
@[simp] theorem passSlots_osd (k : Nat) : (s.passSlots k).osd = s.osd := rfl
@[simp] theorem passSlots_cad (k : Nat) : (s.passSlots k).cad = s.cad := rfl
@[simp] theorem passSlots_mesh (k : Nat) : (s.passSlots k).mesh = s.mesh := rfl
@[simp] theorem passSlots_edges (k : Nat) : (s.passSlots k).edges = s.edges := rfl
@[simp] theorem passSlots_hbm (k : Nat) : (s.passSlots k).hbm = s.hbm := rfl
@[simp] theorem passSlots_stake (k : Nat) : (s.passSlots k).stake = s.stake := rfl
@[simp] theorem passSlots_stakeOld (k : Nat) : (s.passSlots k).stakeOld = s.stakeOld := rfl
@[simp] theorem passSlots_sideRem (k : Nat) : (s.passSlots k).sideRem = s.sideRem := rfl
@[simp] theorem passSlots_cool (k : Nat) : (s.passSlots k).cool = s.cool := rfl
@[simp] theorem passSlots_scrubAt (k : Nat) : (s.passSlots k).scrubAt = s.scrubAt := rfl
@[simp] theorem passSlots_ovb (k : Nat) : (s.passSlots k).ovb = s.ovb := rfl
@[simp] theorem passSlots_ovbOver (k : Nat) : (s.passSlots k).ovbOver = s.ovbOver := rfl
@[simp] theorem passSlots_quiet (k : Nat) : (s.passSlots k).quiet = s.quiet := rfl
@[simp] theorem passSlots_engs (k : Nat) : (s.passSlots k).engs = s.engs := rfl
@[simp] theorem passSlots_reads (k : Nat) : (s.passSlots k).reads = s.reads := rfl
@[simp] theorem passSlots_loads (k : Nat) : (s.passSlots k).loads = s.loads := rfl
@[simp] theorem passSlots_units (k : Nat) : (s.passSlots k).units = s.units := rfl
@[simp] theorem passSlots_offers (k : Nat) : (s.passSlots k).offers = s.offers := rfl
@[simp] theorem passSlots_reqs (k : Nat) : (s.passSlots k).reqs = s.reqs := rfl
@[simp] theorem passSlots_nbq (k : Nat) : (s.passSlots k).nbq = s.nbq := rfl
@[simp] theorem passSlots_arrivals (k : Nat) : (s.passSlots k).arrivals = s.arrivals := rfl
@[simp] theorem passSlots_ces (k : Nat) : (s.passSlots k).ces = s.ces := rfl
@[simp] theorem passSlots_cbuf (k : Nat) : (s.passSlots k).cbuf = s.cbuf := rfl
@[simp] theorem passSlots_borders (k : Nat) : (s.passSlots k).borders = s.borders := rfl
@[simp] theorem passSlots_aud (k : Nat) : (s.passSlots k).aud = s.aud := rfl
@[simp] theorem passSlots_pkgt (k : Nat) : (s.passSlots k).pkgt = s.pkgt := rfl
@[simp] theorem passSlots_wl (k : Nat) : (s.passSlots k).wl = s.wl := rfl
@[simp] theorem passSlots_lanes (k : Nat) : (s.passSlots k).lanes = s.lanes := rfl
@[simp] theorem passSlots_fibs (k : Nat) : (s.passSlots k).fibs = s.fibs := rfl
@[simp] theorem passSlots_wfs (k : Nat) : (s.passSlots k).wfs = s.wfs := rfl
@[simp] theorem passSlots_rds (k : Nat) : (s.passSlots k).rds = s.rds := rfl
@[simp] theorem passSlots_lasers (k : Nat) : (s.passSlots k).lasers = s.lasers := rfl
@[simp] theorem passSlots_cal (k : Nat) : (s.passSlots k).cal = s.cal := rfl
@[simp] theorem passSlots_calSh (k : Nat) : (s.passSlots k).calSh = s.calSh := rfl
@[simp] theorem passSlots_subs (k : Nat) : (s.passSlots k).subs = s.subs := rfl
@[simp] theorem passSlots_grantAt (k : Nat) : (s.passSlots k).grantAt = s.grantAt := rfl
@[simp] theorem passSlots_sbGen (k : Nat) : (s.passSlots k).sbGen = s.sbGen := rfl
@[simp] theorem passSlots_notes (k : Nat) : (s.passSlots k).notes = s.notes := rfl
@[simp] theorem passSlots_sqs (k : Nat) : (s.passSlots k).sqs = s.sqs := rfl
@[simp] theorem passSlots_dmas (k : Nat) : (s.passSlots k).dmas = s.dmas := rfl
@[simp] theorem passSlots_acks (k : Nat) : (s.passSlots k).acks = s.acks := rfl
@[simp] theorem passSlots_pins (k : Nat) : (s.passSlots k).pins = s.pins := rfl
@[simp] theorem passSlots_hoops (k : Nat) : (s.passSlots k).hoops = s.hoops := rfl
@[simp] theorem passSlots_ring (k : Nat) : (s.passSlots k).ring = s.ring := rfl
@[simp] theorem passSlots_snaps (k : Nat) : (s.passSlots k).snaps = s.snaps := rfl
@[simp] theorem passSlots_com (k : Nat) : (s.passSlots k).com = s.com := rfl
@[simp] theorem passSlots_sens (k : Nat) : (s.passSlots k).sens = s.sens := rfl
@[simp] theorem passSlots_dth (k : Nat) : (s.passSlots k).dth = s.dth := rfl
@[simp] theorem passSlots_thp (k : Nat) : (s.passSlots k).thp = s.thp := rfl
@[simp] theorem passSlots_fits (k : Nat) : (s.passSlots k).fits = s.fits := rfl
@[simp] theorem passSlots_agePend (k : Nat) : (s.passSlots k).agePend = s.agePend := rfl
@[simp] theorem passSlots_flash (k : Nat) : (s.passSlots k).flash = s.flash := rfl
@[simp] theorem passSlots_start (k : Nat) : (s.passSlots k).start = s.start := rfl
@[simp] theorem passSlots_out (k : Nat) : (s.passSlots k).out = s.out := rfl
@[simp] theorem passSlots_freeCtr (k : Nat) : (s.passSlots k).freeCtr = s.freeCtr := rfl
@[simp] theorem passSlots_pending (k : Nat) : (s.passSlots k).pending = s.pending := rfl
@[simp] theorem passSlots_rd (k : Nat) (i : Nat) (y : Fld) : (s.passSlots k).rd i y = s.rd i y := rfl
@[simp] theorem passSlots_page (k : Nat) (i : Nat) : (s.passSlots k).page i = s.page i := rfl
@[simp] theorem passSlots_tile (k : Nat) (i j : Nat) : (s.passSlots k).tile i j = s.tile i j := rfl
@[simp] theorem passSlots_od (k : Nat) (i : Nat) : (s.passSlots k).od i = s.od i := rfl
@[simp] theorem passSlots_eng (k : Nat) (i j : Nat) : (s.passSlots k).eng i j = s.eng i j := rfl
@[simp] theorem passSlots_ce (k : Nat) (i : Nat) : (s.passSlots k).ce i = s.ce i := rfl
@[simp] theorem passSlots_hoop (k : Nat) (i : Nat) : (s.passSlots k).hoop i = s.hoop i := rfl
@[simp] theorem passSlots_flashOf (k : Nat) (i : Nat) : (s.passSlots k).flashOf i = s.flashOf i := rfl
@[simp] theorem passSlots_sq (k : Nat) (i j : Nat) : (s.passSlots k).sq i j = s.sq i j := rfl
@[simp] theorem passSlots_wle (k : Nat) (i : Nat) : (s.passSlots k).wle i = s.wle i := rfl
@[simp] theorem passSlots_sub (k : Nat) (i j : Nat) : (s.passSlots k).sub i j = s.sub i j := rfl
@[simp] theorem passSlots_sensor (k : Nat) (i : Nat) : (s.passSlots k).sensor i = s.sensor i := rfl

end Sys2Proof.Machine
end

