-- ==== Sys2Proof/Laws/Regs.lean ====
section
/-! SUPPORT. Register fields: what a read gives after a write, and that reset is canonical. -/

namespace Sys2Proof.Machine

variable {s t : State}

/-- Fields of a page have keys of their own: the key gives page, offset and lowest bit back. -/
theorem key_inj {f g : Fld} {p q : Nat} (hf : f.off < 4096) (hg : g.off < 4096) (lf : f.lo < 32) (lg : g.lo < 32) :
    f.key p = g.key q ↔ p = q ∧ f.off = g.off ∧ f.lo = g.lo := by
  unfold Fld.key
  constructor
  · intro h; omega
  · rintro ⟨rfl, h1, h2⟩; rw [h1, h2]

/-- The page of a field's key. -/
theorem keyPage_key {f : Fld} (p : Nat) (hf : f.off < 4096) (lf : f.lo < 32) : keyPage (f.key p) = p := by
  unfold keyPage Fld.key; omega

/-- A read of the field written gives the value, cut to the field's width. -/
theorem rd_wr_self (w : Wf s) (p : Nat) (f : Fld) (v : Nat) : (s.wr p f v).rd p f = v % 2 ^ f.w :=
  look_put_self _ _ w.regs

/-- A write leaves every field with another key alone. -/
theorem rd_wr_ne (w : Wf s) {p q : Nat} {f g : Fld} (v : Nat) (h : g.key q ≠ f.key p) : (s.wr p f v).rd q g = s.rd q g :=
  look_put_ne _ h w.regs

/-- A write changes nothing but the register file. -/
theorem wr_regs (s : State) (p : Nat) (f : Fld) (v : Nat) : { s.wr p f v with regs := s.regs } = s := rfl


/-- What a helper keeps, from the state itself. -/
theorem Kept.start (s : State) : Kept s s := Kept.refl s

/-- A write keeps canonical maps canonical. -/
theorem wf_wr (w : Wf s) (p : Nat) (f : Fld) (v : Nat) : Wf (s.wr p f v) := (kept_wr (Kept.refl s) p f v).wf w
theorem wf_wb (w : Wf s) (p : Nat) (f : Fld) (b : Bool) : Wf (s.wb p f b) := (kept_wb (Kept.refl s) p f b).wf w
theorem wf_zero (w : Wf s) (p : Nat) (fs : List Fld) : Wf (s.zero p fs) := (kept_zero (Kept.refl s) p fs).wf w

/-- Zeroing reads zero. -/
theorem rd_zero_mem (w : Wf s) (p : Nat) (fs : List Fld) (f : Fld) (h : f ∈ fs) : (s.zero p fs).rd p f = 0 := by
  have key : ∀ (fs : List Fld) (s : State), Wf s → (s.rd p f = 0 ∨ f ∈ fs) → (s.zero p fs).rd p f = 0 := by
    intro fs
    induction fs with
    | nil => intro s _ h; simpa [State.zero] using h
    | cons g fs ih =>
      intro s w h
      refine ih (s.wr p g 0) (wf_wr w ..) ?_
      by_cases hk : f.key p = g.key p
      · left
        show look resetVal (s.wr p g 0).regs (f.key p) = 0
        rw [hk]; exact (rd_wr_self w p g 0).trans (Nat.zero_mod _)
      · rcases h with h | h
        · left; rw [rd_wr_ne w 0 hk]; exact h
        · rcases List.mem_cons.mp h with h | h
          · subst h; exact absurd rfl hk
          · exact Or.inr h
  exact key fs s w (Or.inr h)

/-- Zeroing leaves every other field alone. -/
theorem rd_zero_ne (w : Wf s) (p q : Nat) (fs : List Fld) (g : Fld) (h : ∀ f ∈ fs, g.key q ≠ f.key p) :
    (s.zero p fs).rd q g = s.rd q g := by
  induction fs generalizing s with
  | nil => rfl
  | cons f fs ih =>
    show ((s.wr p f 0).zero p fs).rd q g = _
    rw [ih (wf_wr w ..) (fun f hf => h f (List.mem_cons_of_mem _ hf)), rd_wr_ne w 0 (h f List.mem_cons_self)]

/-- Zeroing changes nothing but the register file. -/
theorem zero_frame (s : State) (p : Nat) (fs : List Fld) : { s.zero p fs with regs := s.regs } = s := by
  unfold State.zero
  induction fs generalizing s with
  | nil => rfl
  | cons f fs ih =>
    have := ih (s.wr p f 0)
    simp only [List.foldl_cons]
    exact Eq.trans (congrArg (fun x : State => { x with regs := s.regs }) this) rfl

end Sys2Proof.Machine
end

