-- ==== Sys2Proof/Laws/Tile.lean ====
section
/-! SUPPORT. What issuing one slot of a tile does, once for every slot instruction. -/

namespace Sys2Proof.Machine

variable {s t : State}

/-- What a tile's reports leave alone: `a` names the tile. -/
structure Quiet (a : TileAt) (s t : State) : Prop where
  clk : t.clk = s.clk
  tiles : t.tiles = s.tiles
  regs : ∀ k, keyPage k ∉ tilePages a → look resetVal t.regs k = look resetVal s.regs k
  pages : ∀ p, p ∉ tilePages a → t.page p = s.page p
  rest : { t with clk := s.clk, regs := s.regs, pages := s.pages, flt := s.flt, tiles := s.tiles, mesh := s.mesh } = s
  wf : Wf t

namespace Quiet
variable {a : TileAt} {u : State}

theorem refl (a : TileAt) (w : Wf s) : Quiet a s s := ⟨rfl, rfl, fun _ _ => rfl, fun _ _ => rfl, rfl, w⟩

theorem trans (h : Quiet a s t) (g : Quiet a t u) : Quiet a s u where
  clk := g.clk.trans h.clk
  tiles := g.tiles.trans h.tiles
  regs := fun k hk => (g.regs k hk).trans (h.regs k hk)
  pages := fun p hp => (g.pages p hp).trans (h.pages p hp)
  rest := by
    have e := congrArg (fun x : State => { x with clk := s.clk, regs := s.regs, pages := s.pages, flt := s.flt, tiles := s.tiles, mesh := s.mesh }) g.rest
    exact e.trans h.rest
  wf := g.wf

theorem wr (h : Quiet a s t) {p : Nat} (hp : p ∈ tilePages a) {f : Fld} (hf : f.off < 4096) (hl : f.lo < 32) (v : Nat) :
    Quiet a s (t.wr p f v) :=
  h.trans ⟨rfl, rfl, fun k hk => look_put_ne _ (fun e => hk (by rw [e, keyPage_key p hf hl]; exact hp)) h.wf.regs, fun _ _ => rfl, rfl,
    wf_wr h.wf ..⟩

theorem setPage (h : Quiet a s t) {p : Nat} (hp : p ∈ tilePages a) (x : PageSt) : Quiet a s (t.setPage p x) :=
  h.trans ⟨rfl, rfl, fun _ _ => rfl, fun _ hq => look_put_ne _ (fun e => hq (e ▸ hp)) h.wf.pages, rfl, (kept_setPage (Kept.refl t) p x).wf h.wf⟩

theorem flight (h : Quiet a s t) (r : FaultRec) : Quiet a s (t.sendRec r) :=
  h.trans ⟨rfl, rfl, fun _ _ => rfl, fun _ _ => rfl, rfl, (kept_sendRec (Kept.refl t) r).wf h.wf⟩

theorem mesh (h : Quiet a s t) (m : List MeshFlit) : Quiet a s { t with mesh := m } :=
  h.trans ⟨rfl, rfl, fun _ _ => rfl, fun _ _ => rfl, rfl, (Kept.upd (Kept.refl t) rfl).wf h.wf⟩

theorem inc (h : Quiet a s t) {p : Nat} (hp : p ∈ tilePages a) {f : Fld} (hf : f.off < 4096) (hl : f.lo < 32) : Quiet a s (t.inc p f) :=
  h.wr hp hf hl _

theorem raiseX (h : Quiet a s t) {p : Nat} (hp : p ∈ tilePages a) (src last extra : Nat) : Quiet a s (t.raiseX p src last extra) := by
  unfold State.raiseX
  split
  · exact h
  split
  · exact h.setPage hp _
  · dsimp only
    unfold State.startGrace
    dsimp only
    split
    · exact (((h.wr hp (by decide) (by decide) _).flight _).setPage hp _).setPage hp _
    · exact ((h.wr hp (by decide) (by decide) _).flight _).setPage hp _

theorem raise (h : Quiet a s t) {p : Nat} (hp : p ∈ tilePages a) (src : Nat) : Quiet a s (t.raise p src) := h.raiseX hp src _ _

end Quiet

theorem rowPg_mem (a : TileAt) : rowPg a.die (a.tile / 8) ∈ tilePages a := by simp [tilePages]
theorem osTop_mem (a : TileAt) : osTop a.die ∈ tilePages a := by simp [tilePages]

theorem meshEvent_quiet {a : TileAt} (h : Quiet a s t) (src node port : Nat) : Quiet a s (t.meshEvent a.die src node port) := by
  unfold State.meshEvent
  have hp := osTop_mem a
  exact (((((h.wr hp (by decide) (by decide) _).wr hp (by decide) (by decide) _).wr hp (by decide) (by decide) _).wr hp (by decide) (by decide) _).inc
    hp (by decide) (by decide)).raise hp src

/-- One report of a tile. -/
theorem tileEvent_quiet {a : TileAt} (h : Quiet a s t) (e : TEv) : Quiet a s (t.tileEvent a.die a.tile e) := by
  have hp := rowPg_mem a
  cases e with
  | conflict src cyc =>
    exact ((((h.inc hp (by decide) (by decide)).wr hp (by decide) (by decide) _).wr hp (by decide) (by decide) _).wr hp (by decide) (by decide) _).raise hp _
  | ecc mem ue line =>
    refine Quiet.raise (Quiet.wr (Quiet.wr (Quiet.wr (Quiet.wr ?_ hp (by decide) (by decide) _) hp (by decide) (by decide) _) hp (by decide) (by decide) _)
      hp (by decide) (by decide) _) hp _
    cases ue <;> exact h.inc hp (by decide) (by decide)
  | poisonLine => exact h.inc hp (by decide) (by decide)
  | flitOut cyc f => exact h.mesh _
  | recvEmpty => exact meshEvent_quiet h 2 _ 4
  | flitLost => exact meshEvent_quiet h 1 _ 4

theorem events_quiet {a : TileAt} (es : List TEv) (h : Quiet a s t) : Quiet a s (es.foldl (fun t e => t.tileEvent a.die a.tile e) t) := by
  induction es generalizing t with
  | nil => exact h
  | cons e es ih => exact ih (tileEvent_quiet h e)

/-- Bringing time to a cycle changes the clock alone. -/
theorem toCc_clk (s : State) (c : Nat) : s.toCc c = { s with clk := (s.toCc c).clk } := by
  unfold State.toCc State.passSlots
  split <;> rfl

/-- What a tile does in its cycle `c`, and everything else. -/
theorem onTile_done (w : Wf s) (a : TileAt) (c : Nat) (g : Tile → Tile) : TileDone s a c g (.next ((s.toCc c).onTile a.die a.tile g)) := by
  have hc := toCc_clk s c
  generalize (s.toCc c).clk = k at hc
  rw [hc]
  have w1 : Wf ({ s with clk := k }) := (Kept.upd (Kept.refl s) rfl).wf w
  unfold State.onTile
  set x := g (s.tile a.die a.tile) with hx
  have hx' : g ({ s with clk := k }.tile a.die a.tile) = x := rfl
  rw [hx']
  unfold State.drainTile
  have w2 : Wf ({ s with clk := k }.setTile a.die a.tile x) := (kept_setTile (Kept.refl _) a.die a.tile x).wf w1
  have ht : ({ s with clk := k }.setTile a.die a.tile x).tile a.die a.tile = x := look_put_self _ _ w1.tiles
  rw [ht]
  set u := ({ s with clk := k }.setTile a.die a.tile x).setTile a.die a.tile { x with evs := [] } with hu
  have wu : Wf u := (kept_setTile (Kept.refl _) a.die a.tile _).wf w2
  have hq : Quiet a u (x.evs.foldl (fun t e => t.tileEvent a.die a.tile e) u) := events_quiet x.evs (Quiet.refl a wu)
  refine ⟨_, rfl, ?_, ?_, ?_, ?_, ?_, ?_, ?_⟩
  · show look tileZero _ _ = _
    rw [hq.tiles]
    exact look_put_self _ _ w2.tiles
  · intro k hk
    rw [hq.tiles]
    exact (look_put_ne _ hk w2.tiles).trans (look_put_ne _ hk w1.tiles)
  · rw [hc]; exact hq.clk
  · exact fun k hk => hq.regs k hk
  · exact fun p hp => hq.pages p hp
  · exact congrArg (fun y : State => { y with clk := s.clk, regs := s.regs, pages := s.pages, flt := s.flt, tiles := s.tiles, mesh := s.mesh }) hq.rest
  · intro he
    have e2 : x.evs.foldl (fun t e => t.tileEvent a.die a.tile e) u = u := by rw [show x.evs = [] from he]; rfl
    rw [e2]
    rfl

/-- Every slot instruction: what it does to its tile and to everything else. -/
theorem issue_spec (w : Wf s) (a : TileAt) (sl : Slot) (last : Bool) (f : Tile → Tile) (h : s.canIssue a sl = true) :
    SlotDone s a sl last f (.next (s.issue a sl last f)) := by
  have hI : s.issue a sl last f = (s.toCc (s.tile a.die a.tile).next).onTile a.die a.tile fun t => t.issue sl last f := by
    unfold State.issue
    exact if_pos h
  have hr : (s.tile a.die a.tile).ready sl = true := by
    unfold State.canIssue at h
    revert h; cases s.tileUp a <;> simp
  have hi : (s.tile a.die a.tile).issue sl last f = (f (s.tile a.die a.tile).openBundle).finish sl last := by
    unfold Tile.issue Tile.finish
    rw [if_pos hr]
  rw [hI]
  have d := onTile_done w a (s.tile a.die a.tile).next fun t => t.issue sl last f
  unfold TileDone at d
  simp only [hi] at d
  exact d

/-- The same for a slot whose work is `f` in other words. -/
theorem issue_as (w : Wf s) {a : TileAt} {sl : Slot} {last : Bool} {f g : Tile → Tile} (h : s.canIssue a sl = true) (e : ∀ b, g b = f b) :
    SlotDone s a sl last f (.next (s.issue a sl last g)) := by
  rw [show g = f from funext e]
  exact issue_spec w a sl last f h

end Sys2Proof.Machine
end

