-- ==== Sys2Proof/Laws/Write.lean ====
section
/-! SUPPORT. A register write that its page takes is the writes of the fields of its word. -/

namespace Sys2Proof.Machine
open Sys2Proof

variable {s : State}

/-- What a taken word does: each of its fields acts, on what the word found there. -/
theorem takes_write {h p : Nat} {b : Blk} {off val : Nat} (t : s.takes h p b off val = true) (ho : off % 0x1000 / 4 * 4 = off) (x : WrX) :
    s.hostWrite h p off val 15 x = ((touched b off 15).map fun f => (f, (s.judged h p).asked p b f off (val % 2 ^ 32) 15)).foldl
      (fun (s : State) e => s.fieldAct p b e.1 off (val % 2 ^ 32) e.2 x) (s.taken h p b off val) := by
  unfold State.takes at t
  simp only [Bool.and_eq_true, decide_eq_true_eq, Bool.not_eq_true'] at t
  obtain ⟨⟨⟨⟨⟨⟨hb, hs⟩, hr⟩, hv⟩, hw⟩, hc⟩, hf⟩ := t
  have both : ∀ f ∈ touched b off 15, (!(s.judged h p).stages b f && !(stageable b f && (s.judged h p).overtaken p off)) = true :=
    fun f m => List.all_eq_true.mp hf f m
  have hall : ∀ f ∈ touched b off 15, (!(s.judged h p).stages b f) = true := fun f m => (Bool.and_eq_true _ _ ▸ both f m).1
  have hlater : (touched b off 15).filter ((s.judged h p).stages b) = [] := by
    rw [List.filter_eq_nil_iff]; intro f hf; simpa using hall f hf
  have hnow : (touched b off 15).filter (fun f => !(s.judged h p).stages b f && !(stageable b f && (s.judged h p).overtaken p off))
      = touched b off 15 := List.filter_eq_self.mpr both
  unfold State.hostWrite
  simp only [ho, hs, hr, hv, Bool.not_true, Bool.or_self, Bool.false_eq_true, if_false]
  simp only [State.judged] at hw hc hlater hnow ⊢
  simp only [hw, State.deliver, hc, reduceCtorEq, Bool.and_eq_true, decide_eq_true_eq, and_false, if_false,
    State.pageWrite, hb, hlater, hnow, List.isEmpty_nil, if_true, State.wordAct, State.taken, Nat.reduceMod]
  by_cases hfen : (touched b off 15).any (fenced b) = true <;> simp [hfen, State.judged]

/-- The row of a register write on a page of its kind. -/
theorem takes_row {h p : Nat} {b : Blk} {off val : Nat} (t : s.takes h p b off val = true) (ho : off % 0x1000 / 4 * 4 = off) (x : WrX) :
    s.rowWrite h p b off val x = ((touched b off 15).map fun f => (f, (s.judged h p).asked p b f off (val % 2 ^ 32) 15)).foldl
      (fun (s : State) e => s.fieldAct p b e.1 off (val % 2 ^ 32) e.2 x) (s.taken h p b off val) := by
  have hb : pageBlk p = some b := by
    unfold State.takes at t
    simp only [Bool.and_eq_true, decide_eq_true_eq] at t
    exact t.1.1.1.1.1.1
  unfold State.rowWrite
  rw [if_pos hb, takes_write t ho]

/-- The bytes of a whole word. -/
theorem beMask_all : beMask 15 = 2 ^ 32 - 1 := by decide

/-- A field that lies in one word is asked for its bits of the word. -/
theorem asked_bits (s : State) (p : Nat) (b : Blk) (f : Fld) (val : Nat) (h : f.lo + f.w ≤ 32) :
    s.asked p b f f.off (val % 2 ^ 32) 15 = bits val f.lo f.w := by
  have hfw : ∀ w, f.fromWord f.off w = w / 2 ^ f.lo % 2 ^ f.w := by
    intro w
    unfold Fld.fromWord
    by_cases hl : f.lo = 0
    · simp [hl]
    · have : ¬ f.off * 8 + f.lo ≤ f.off * 8 := by omega
      simp only [this, if_false]
      congr 3; omega
  have hnew : f.fromWord f.off (val % 2 ^ 32 &&& beMask 15) = bits val f.lo f.w := by
    rw [hfw, beMask_all, Nat.and_two_pow_sub_one_eq_mod, Nat.mod_mod]
    unfold bits
    have e : (2:Nat) ^ 32 = 2 ^ f.lo * 2 ^ (32 - f.lo) := by rw [← Nat.pow_add]; congr 1; omega
    rw [e, Nat.mod_mul_right_div_self]
    exact Nat.mod_mod_of_dvd _ (Nat.pow_dvd_pow 2 (by omega))
  have hm : f.fromWord f.off (beMask 15) = 2 ^ f.w - 1 := by
    rw [hfw, beMask_all]
    have e : (2:Nat) ^ 32 - 1 = (2 ^ (32 - f.lo) - 1) * 2 ^ f.lo + (2 ^ f.lo - 1) := by
      have : (2:Nat) ^ 32 = 2 ^ (32 - f.lo) * 2 ^ f.lo := by rw [← Nat.pow_add]; congr 1; omega
      rw [this, Nat.sub_mul]
      have h1 := Nat.one_le_two_pow (n := f.lo)
      have h2 : 2 ^ f.lo ≤ 2 ^ (32 - f.lo) * 2 ^ f.lo := Nat.le_mul_of_pos_left _ (Nat.two_pow_pos _)
      omega
    rw [e, Nat.mul_comm, Nat.mul_add_div (Nat.two_pow_pos _), Nat.div_eq_of_lt (by have := Nat.one_le_two_pow (n := f.lo); omega), Nat.add_zero]
    have e2 : (2:Nat) ^ (32 - f.lo) - 1 = (2 ^ f.w - 1) + 2 ^ f.w * (2 ^ (32 - f.lo - f.w) - 1) := by
      have : (2:Nat) ^ (32 - f.lo) = 2 ^ f.w * 2 ^ (32 - f.lo - f.w) := by rw [← Nat.pow_add]; congr 1; omega
      rw [this, Nat.mul_sub, Nat.mul_one]
      have h1 := Nat.one_le_two_pow (n := f.w)
      have h2 : 2 ^ f.w ≤ 2 ^ f.w * 2 ^ (32 - f.lo - f.w) := Nat.le_mul_of_pos_right _ (Nat.two_pow_pos _)
      omega
    rw [e2, Nat.add_mul_mod_self_left]
    exact Nat.mod_eq_of_lt (by have := Nat.one_le_two_pow (n := f.w); omega)
  unfold State.asked
  simp only [hnew, hm]
  cases f.acc <;> simp only [] <;>
    first | rfl | (rw [Nat.and_two_pow_sub_one_eq_mod, Nat.mod_mod, Nat.xor_self, Nat.zero_or])

/-- A request bit set in the word is asked for. -/
theorem bits_or_bit (val lo : Nat) : bits (val ||| 2 ^ lo) lo 1 = 1 := by
  unfold bits
  have : ((val ||| 2 ^ lo) / 2 ^ lo % 2 = 1) ↔ (val ||| 2 ^ lo).testBit lo = true := by
    rw [Nat.testBit_eq_decide_div_mod_eq]; simp
  rw [show (2:Nat)^1 = 2 from rfl, this, Nat.testBit_or, Nat.testBit_two_pow_self, Bool.or_true]

theorem takes_blk {h p : Nat} {b : Blk} {off val : Nat} (t : s.takes h p b off val = true) : pageBlk p = some b := by
  unfold State.takes at t
  simp only [Bool.and_eq_true, decide_eq_true_eq] at t
  exact t.1.1.1.1.1.1

/-- A taken word of one field: that field acts on its bits of the word. -/
theorem takes_one {h p : Nat} {b : Blk} {off val : Nat} (t : s.takes h p b off val = true) (f : Fld) (hf : touched b off 15 = [f])
    (ho : off % 0x1000 / 4 * 4 = off) (hfo : f.off = off) (hl : f.lo + f.w ≤ 32) (x : WrX) :
    s.rowWrite h p b off val x = (s.taken h p b off val).fieldAct p b f off (val % 2 ^ 32) (bits val f.lo f.w) x := by
  subst hfo
  rw [takes_row t ho, hf]
  simp only [List.map, List.foldl, asked_bits _ _ _ _ _ hl]

/-- A taken word of several fields: they act one after the other, each on its bits of the word. -/
theorem takes_list {h p : Nat} {b : Blk} {off val : Nat} (t : s.takes h p b off val = true) (fs : List Fld) (hf : touched b off 15 = fs)
    (ho : off % 0x1000 / 4 * 4 = off) (hfo : ∀ f ∈ fs, f.off = off ∧ f.lo + f.w ≤ 32) (x : WrX) :
    s.rowWrite h p b off val x = fs.foldl (fun (s : State) f => s.fieldAct p b f off (val % 2 ^ 32) (bits val f.lo f.w) x) (s.taken h p b off val) := by
  rw [takes_row t ho, hf]
  have key : ∀ (fs : List Fld) (u : State), (∀ f ∈ fs, f.off = off ∧ f.lo + f.w ≤ 32) →
      (fs.map fun f => (f, (s.judged h p).asked p b f off (val % 2 ^ 32) 15)).foldl (fun (s : State) e => s.fieldAct p b e.1 off (val % 2 ^ 32) e.2 x) u
      = fs.foldl (fun (s : State) f => s.fieldAct p b f off (val % 2 ^ 32) (bits val f.lo f.w) x) u := by
    intro fs
    induction fs with
    | nil => intro u _; rfl
    | cons f fs ih =>
      intro u hh
      have a := asked_bits (s.judged h p) p b f val (hh f List.mem_cons_self).2
      rw [(hh f List.mem_cons_self).1] at a
      simp only [List.map_cons, List.foldl_cons, a]
      exact ih _ fun g hg => hh g (List.mem_cons_of_mem _ hg)
  exact key fs _ hfo

/-- A taken word keeps canonical maps canonical. -/
theorem wf_taken (w : Wf s) (h p : Nat) (b : Blk) (off val : Nat) : Wf (s.taken h p b off val) := by
  unfold State.taken State.judged
  have w1 : Wf (s.inOrder h (dieOf p)) := (kept_inOrder (Kept.refl s) ..).wf w
  by_cases hf : (touched b off 15).any (fenced b) = true
  · simp only [hf, if_true]; exact (kept_epochUp (Kept.refl _) ..).wf w1
  · simp only [hf]; exact w1

/-! Pages by their kind. -/

/-- A page is its die and its number. -/
theorem pg_self (p : Nat) : pg (dieOf p) (pageOf p) = p := by unfold pg dieOf pageOf; omega

/-! Where the pages of a kind stand (Table 2-2). -/

theorem kind_os {p : Nat} (h : pageBlk p = some .os) : pageOf p = 0 ∧ dieOf p < 8 := by
  unfold pageBlk at h
  simp only [ite_eq_iff, Option.some.injEq, reduceCtorEq, and_false, or_false, and_true, Bool.and_eq_true, decide_eq_true_eq,
    Bool.or_eq_true] at h
  omega

theorem kind_tg {p : Nat} (h : pageBlk p = some .tg) : 1 ≤ pageOf p ∧ pageOf p ≤ 8 ∧ dieOf p < 8 := by
  unfold pageBlk at h
  simp only [ite_eq_iff, Option.some.injEq, reduceCtorEq, and_false, or_false, false_or, and_true, Bool.and_eq_true, decide_eq_true_eq,
    Bool.or_eq_true] at h
  omega

theorem kind_mc {p : Nat} (h : pageBlk p = some .mc) : 0x10 ≤ pageOf p ∧ pageOf p ≤ 0x12 ∧ dieOf p < 8 := by
  unfold pageBlk at h
  simp only [ite_eq_iff, Option.some.injEq, reduceCtorEq, and_false, or_false, false_or, and_true, Bool.and_eq_true, decide_eq_true_eq,
    Bool.or_eq_true] at h
  omega

theorem kind_st {p : Nat} (h : pageBlk p = some .st) : 0x20 ≤ pageOf p ∧ pageOf p ≤ 0x2F ∧ dieOf p < 8 := by
  unfold pageBlk at h
  simp only [ite_eq_iff, Option.some.injEq, reduceCtorEq, and_false, or_false, false_or, and_true, Bool.and_eq_true, decide_eq_true_eq,
    Bool.or_eq_true] at h
  omega

theorem kind_ce {p : Nat} (h : pageBlk p = some .ce) : pageOf p = 0x30 ∧ dieOf p < 8 := by
  unfold pageBlk at h
  simp only [ite_eq_iff, Option.some.injEq, reduceCtorEq, and_false, or_false, false_or, and_true, Bool.and_eq_true, decide_eq_true_eq,
    Bool.or_eq_true] at h
  omega

theorem kind_wf {p : Nat} (h : pageBlk p = some .wf) : pageOf p = 0 ∧ 8 ≤ dieOf p ∧ dieOf p < 16 := by
  unfold pageBlk at h
  simp only [ite_eq_iff, Option.some.injEq, reduceCtorEq, and_false, or_false, false_or, and_true, Bool.and_eq_true, decide_eq_true_eq,
    Bool.or_eq_true] at h
  omega

theorem kind_fib {p : Nat} (h : pageBlk p = some .fib) : 0x10 ≤ pageOf p ∧ pageOf p ≤ 0x1F ∧ 8 ≤ dieOf p ∧ dieOf p < 16 := by
  unfold pageBlk at h
  simp only [ite_eq_iff, Option.some.injEq, reduceCtorEq, and_false, or_false, false_or, and_true, Bool.and_eq_true, decide_eq_true_eq,
    Bool.or_eq_true] at h
  omega

theorem kind_sb {p : Nat} (h : pageBlk p = some .sb) : pageOf p = 0x20 ∧ 8 ≤ dieOf p ∧ dieOf p < 16 := by
  unfold pageBlk at h
  simp only [ite_eq_iff, Option.some.injEq, reduceCtorEq, and_false, or_false, false_or, and_true, Bool.and_eq_true, decide_eq_true_eq,
    Bool.or_eq_true] at h
  omega

theorem kind_sbk {p : Nat} (h : pageBlk p = some .sbk) : 0x21 ≤ pageOf p ∧ pageOf p ≤ 0x2F ∧ 8 ≤ dieOf p ∧ dieOf p < 16 := by
  unfold pageBlk at h
  simp only [ite_eq_iff, Option.some.injEq, reduceCtorEq, and_false, or_false, false_or, and_true, Bool.and_eq_true, decide_eq_true_eq,
    Bool.or_eq_true] at h
  omega

theorem kind_rd {p : Nat} (h : pageBlk p = some .rd) : pageOf p = 0 ∧ 16 ≤ dieOf p ∧ dieOf p < 18 := by
  unfold pageBlk at h
  simp only [ite_eq_iff, Option.some.injEq, reduceCtorEq, and_false, or_false, false_or, and_true, Bool.and_eq_true, decide_eq_true_eq,
    Bool.or_eq_true] at h
  omega

theorem kind_rdl {p : Nat} (h : pageBlk p = some .rdl) : 0x10 ≤ pageOf p ∧ pageOf p ≤ 0x1F ∧ 16 ≤ dieOf p ∧ dieOf p < 18 := by
  unfold pageBlk at h
  simp only [ite_eq_iff, Option.some.injEq, reduceCtorEq, and_false, or_false, false_or, and_true, Bool.and_eq_true, decide_eq_true_eq,
    Bool.or_eq_true] at h
  omega

theorem kind_th {p : Nat} (h : pageBlk p = some .th) : pageOf p = 0x50 ∧ dieOf p < 20 := by
  unfold pageBlk at h
  simp only [ite_eq_iff, Option.some.injEq, reduceCtorEq, and_false, or_false, false_or, and_true, Bool.and_eq_true, decide_eq_true_eq,
    Bool.or_eq_true] at h
  omega

theorem kind_age {p : Nat} (h : pageBlk p = some .age) : pageOf p = 0x60 ∧ dieOf p < 20 := by
  unfold pageBlk at h
  simp only [ite_eq_iff, Option.some.injEq, reduceCtorEq, and_false, or_false, false_or, and_true, Bool.and_eq_true, decide_eq_true_eq,
    Bool.or_eq_true] at h
  omega

theorem kind_hp {p : Nat} (h : pageBlk p = some .hp) : pageOf p = 0 ∧ 18 ≤ dieOf p ∧ dieOf p < 20 := by
  unfold pageBlk at h
  simp only [ite_eq_iff, Option.some.injEq, reduceCtorEq, and_false, or_false, false_or, and_true, Bool.and_eq_true, decide_eq_true_eq,
    Bool.or_eq_true] at h
  omega

theorem kind_pcie {p : Nat} (h : pageBlk p = some .pcie) : pageOf p = 0x10 ∧ 18 ≤ dieOf p ∧ dieOf p < 20 := by
  unfold pageBlk at h
  simp only [ite_eq_iff, Option.some.injEq, reduceCtorEq, and_false, or_false, false_or, and_true, Bool.and_eq_true, decide_eq_true_eq,
    Bool.or_eq_true] at h
  omega

theorem kind_fault {p : Nat} (h : pageBlk p = some .fault) : pageOf p = 0x20 ∧ 18 ≤ dieOf p ∧ dieOf p < 20 := by
  unfold pageBlk at h
  simp only [ite_eq_iff, Option.some.injEq, reduceCtorEq, and_false, or_false, false_or, and_true, Bool.and_eq_true, decide_eq_true_eq,
    Bool.or_eq_true] at h
  omega

theorem kind_pr {p : Nat} (h : pageBlk p = some .pr) : pageOf p = 0x30 ∧ 18 ≤ dieOf p ∧ dieOf p < 20 := by
  unfold pageBlk at h
  simp only [ite_eq_iff, Option.some.injEq, reduceCtorEq, and_false, or_false, false_or, and_true, Bool.and_eq_true, decide_eq_true_eq,
    Bool.or_eq_true] at h
  omega

theorem kind_sec {p : Nat} (h : pageBlk p = some .sec) : pageOf p = 0x40 ∧ 18 ≤ dieOf p ∧ dieOf p < 20 := by
  unfold pageBlk at h
  simp only [ite_eq_iff, Option.some.injEq, reduceCtorEq, and_false, or_false, false_or, and_true, Bool.and_eq_true, decide_eq_true_eq,
    Bool.or_eq_true] at h
  omega

theorem kind_sq {p : Nat} (h : pageBlk p = some .sq) : 0x100 ≤ pageOf p ∧ pageOf p ≤ 0x14F ∧ 18 ≤ dieOf p ∧ dieOf p < 20 := by
  unfold pageBlk at h
  simp only [ite_eq_iff, Option.some.injEq, reduceCtorEq, and_false, or_false, false_or, and_true, Bool.and_eq_true, decide_eq_true_eq,
    Bool.or_eq_true] at h
  omega

theorem kind_pkg0 {p : Nat} (h : pageBlk p = some .pkg0) : p = pkg0 := by
  have := pg_self p
  unfold pageBlk at h
  simp only [ite_eq_iff, Option.some.injEq, reduceCtorEq, and_false, or_false, false_or, and_true, Bool.and_eq_true, decide_eq_true_eq,
    Bool.or_eq_true] at h
  unfold pg at this
  unfold pkg0 pg
  omega

theorem kind_pkg1 {p : Nat} (h : pageBlk p = some .pkg1) : p = pkg1 := by
  have := pg_self p
  unfold pageBlk at h
  simp only [ite_eq_iff, Option.some.injEq, reduceCtorEq, and_false, or_false, false_or, and_true, Bool.and_eq_true, decide_eq_true_eq,
    Bool.or_eq_true] at h
  unfold pg at this
  unfold pkg1 pg
  omega

theorem kind_pkg2 {p : Nat} (h : pageBlk p = some .pkg2) : p = pkg2 := by
  have := pg_self p
  unfold pageBlk at h
  simp only [ite_eq_iff, Option.some.injEq, reduceCtorEq, and_false, or_false, false_or, and_true, Bool.and_eq_true, decide_eq_true_eq,
    Bool.or_eq_true] at h
  unfold pg at this
  unfold pkg2 pg
  omega

/-! A page is the page its die and number give. -/

theorem self_os {p : Nat} (h : pageBlk p = some .os) : osTop (dieOf p) = p := by
  have k := kind_os h
  unfold osTop
  rw [← k.1]
  exact pg_self p

theorem self_tg {p : Nat} (h : pageBlk p = some .tg) : rowPg (dieOf p) (pageOf p - 1) = p := by
  have k := kind_tg h
  unfold rowPg
  rw [show 1 + (pageOf p - 1) = pageOf p by omega]
  exact pg_self p

theorem self_mc {p : Nat} (h : pageBlk p = some .mc) : mcPg (dieOf p) (pageOf p - 0x10) = p := by
  have k := kind_mc h
  unfold mcPg
  rw [show 0x10 + (pageOf p - 0x10) = pageOf p by omega]
  exact pg_self p

theorem self_st {p : Nat} (h : pageBlk p = some .st) : stPg (dieOf p) (pageOf p - 0x20) = p := by
  have k := kind_st h
  unfold stPg
  rw [show 0x20 + (pageOf p - 0x20) = pageOf p by omega]
  exact pg_self p

theorem self_ce {p : Nat} (h : pageBlk p = some .ce) : cePg (dieOf p) = p := by
  have k := kind_ce h
  unfold cePg
  rw [← k.1]
  exact pg_self p

theorem self_wf {p : Nat} (h : pageBlk p = some .wf) : wfTop (dieOf p - 8) = p := by
  have k := kind_wf h
  unfold wfTop
  rw [show 8 + (dieOf p - 8) = dieOf p by omega]
  rw [← k.1]
  exact pg_self p

theorem self_fib {p : Nat} (h : pageBlk p = some .fib) : fibPg (dieOf p - 8) (pageOf p - 0x10) = p := by
  have k := kind_fib h
  unfold fibPg
  rw [show 8 + (dieOf p - 8) = dieOf p by omega]
  rw [show 0x10 + (pageOf p - 0x10) = pageOf p by omega]
  exact pg_self p

theorem self_sb {p : Nat} (h : pageBlk p = some .sb) : sbPg (dieOf p - 8) = p := by
  have k := kind_sb h
  unfold sbPg
  rw [show 8 + (dieOf p - 8) = dieOf p by omega]
  rw [← k.1]
  exact pg_self p

theorem self_sbk {p : Nat} (h : pageBlk p = some .sbk) : subPg (dieOf p - 8) (pageOf p - 0x20) = p := by
  have k := kind_sbk h
  unfold subPg
  rw [show 8 + (dieOf p - 8) = dieOf p by omega]
  rw [show 0x20 + (pageOf p - 0x20) = pageOf p by omega]
  exact pg_self p

theorem self_rd {p : Nat} (h : pageBlk p = some .rd) : rdTop (dieOf p - 0x10) = p := by
  have k := kind_rd h
  unfold rdTop
  rw [show 0x10 + (dieOf p - 0x10) = dieOf p by omega]
  rw [← k.1]
  exact pg_self p

theorem self_rdl {p : Nat} (h : pageBlk p = some .rdl) : rdPg (dieOf p - 0x10) (pageOf p - 0x10) = p := by
  have k := kind_rdl h
  unfold rdPg
  rw [show 0x10 + (dieOf p - 0x10) = dieOf p by omega]
  rw [show 0x10 + (pageOf p - 0x10) = pageOf p by omega]
  exact pg_self p

theorem self_th {p : Nat} (h : pageBlk p = some .th) : thPg (dieOf p) = p := by
  have k := kind_th h
  unfold thPg
  rw [← k.1]
  exact pg_self p

theorem self_age {p : Nat} (h : pageBlk p = some .age) : agePg (dieOf p) = p := by
  have k := kind_age h
  unfold agePg
  rw [← k.1]
  exact pg_self p

theorem self_hp {p : Nat} (h : pageBlk p = some .hp) : hpTop (dieOf p - 0x12) = p := by
  have k := kind_hp h
  unfold hpTop
  rw [show 0x12 + (dieOf p - 0x12) = dieOf p by omega]
  rw [← k.1]
  exact pg_self p

theorem self_pcie {p : Nat} (h : pageBlk p = some .pcie) : pciePg (dieOf p - 0x12) = p := by
  have k := kind_pcie h
  unfold pciePg
  rw [show 0x12 + (dieOf p - 0x12) = dieOf p by omega]
  rw [← k.1]
  exact pg_self p

theorem self_fault {p : Nat} (h : pageBlk p = some .fault) : faultPg (dieOf p - 0x12) = p := by
  have k := kind_fault h
  unfold faultPg
  rw [show 0x12 + (dieOf p - 0x12) = dieOf p by omega]
  rw [← k.1]
  exact pg_self p

theorem self_pr {p : Nat} (h : pageBlk p = some .pr) : prPg (dieOf p - 0x12) = p := by
  have k := kind_pr h
  unfold prPg held
  rw [show 0x12 + (dieOf p - 0x12) = dieOf p by omega]
  rw [← k.1]
  exact pg_self p

theorem self_sec {p : Nat} (h : pageBlk p = some .sec) : secPg (dieOf p - 0x12) = p := by
  have k := kind_sec h
  unfold secPg held
  rw [show 0x12 + (dieOf p - 0x12) = dieOf p by omega]
  rw [← k.1]
  exact pg_self p

theorem self_sq {p : Nat} (h : pageBlk p = some .sq) : sqPg (dieOf p - 0x12) (pageOf p - 0x100) = p := by
  have k := kind_sq h
  unfold sqPg
  rw [show 0x12 + (dieOf p - 0x12) = dieOf p by omega]
  rw [show 0x100 + (pageOf p - 0x100) = pageOf p by omega]
  exact pg_self p

end Sys2Proof.Machine
end

