-- ==== Sys2Proof/WellFormed.lean ====
section
/-! DEFINITION. Which commands are well formed: every operand names something the package could have. A command that is
not well formed, or whose target is absent, has no effect (log entry 6). -/

namespace Sys2Proof

/-- One of the two Hoop dies (Table 2-1). -/
def isHoopNo (h : Nat) : Bool := decide (h < 2)

/-- A die index of the BAR0 map (R41). -/
def isDie (d : Nat) : Bool := decide (d < 32)

/-- A mesh row (R70). -/
def isRow (r : Nat) : Bool := decide (r < 8)

/-- A 32-bit register word (R43). -/
def isWord (v : Nat) : Bool := decide (v < 2 ^ 32)

/-- A page as die * 512 + page number (R41). -/
def isPage (p : Nat) : Bool := decide (p < 2 ^ 14)

/-- A BAR0 offset (R41). -/
def isOff (o : Nat) : Bool := decide (o < 2 ^ 26)

/-- A tile of an Osier die (R70). -/
def TileAt.ok (a : TileAt) : Bool := decide (a.die < 8) && decide (a.tile < 64)

/-- Whether a command's operands are in range. -/
def Instr.wf (i : Instr) : Bool :=
  match i with
  | .bar0Write hoop page off val _ => isHoopNo hoop && isPage page && isOff off && isWord val
  | .multiwordLowRead hoop page off _ _ => isHoopNo hoop && isPage page && isOff off
  | .noAnswer hoop page off => isHoopNo hoop && isPage page && isOff off
  | .keyUnlock hoop page val => isHoopNo hoop && isPage page && isWord val
  | .softReset hoop page val => isHoopNo hoop && isPage page && isWord val
  | .softResetComplete page => isPage page
  | .fstatClear hoop page val => isHoopNo hoop && isPage page && isWord val
  | .snapshotRequest hoop val => isHoopNo hoop && isWord val
  | .snapFrame die hoop => isDie die && isHoopNo hoop
  | .snapshotLatch hoop => isHoopNo hoop
  | .snapshotComplete hoop => isHoopNo hoop
  | .snapshotTimeout hoop => isHoopNo hoop
  | .stageOpen hoop => isHoopNo hoop
  | .stageClose hoop => isHoopNo hoop
  | .commit hoop val => isHoopNo hoop && isWord val
  | .prepare die => isDie die
  | .stageAns die => isDie die
  | .commitAckTimeout => true
  | .commitMark die => isDie die
  | .commitApply => true
  | .stageDiscard die => isDie die
  | .frozenBufferTimeout die => isDie die
  | .tagSave hoop val => isHoopNo hoop && isWord val
  | .tagSaveComplete _ => true
  | .tileEnable hoop page val => isHoopNo hoop && isPage page && isWord val
  | .accModeWrite hoop page val => isHoopNo hoop && isPage page && isWord val
  | .tileZero hoop page val => isHoopNo hoop && isPage page && isWord val
  | .tileZeroComplete at' => TileAt.ok at'
  | .tgCounterClear hoop page val => isHoopNo hoop && isPage page && isWord val
  | .emptyBundle at' _ _ _ => TileAt.ok at'
  | .invalidBlockIssue at' _ => TileAt.ok at'
  | .resultLand at' => TileAt.ok at'
  | .residentChunkRead at' => TileAt.ok at'
  | .mmaRowUpdate at' => TileAt.ok at'
  | .loadDelivery die _ => isDie die
  | .tileEnterHeld at' => TileAt.ok at'
  | .tileEnterIdle at' => TileAt.ok at'
  | .sli at' _ _ _ => TileAt.ok at'
  | .sadd at' _ _ _ _ => TileAt.ok at'
  | .saddi at' _ _ _ _ => TileAt.ok at'
  | .ssub at' _ _ _ _ => TileAt.ok at'
  | .smul at' _ _ _ _ => TileAt.ok at'
  | .smuli at' _ _ _ _ => TileAt.ok at'
  | .sand at' _ _ _ _ => TileAt.ok at'
  | .sandi at' _ _ _ _ => TileAt.ok at'
  | .sor at' _ _ _ _ => TileAt.ok at'
  | .sori at' _ _ _ _ => TileAt.ok at'
  | .sxor at' _ _ _ _ => TileAt.ok at'
  | .sxori at' _ _ _ _ => TileAt.ok at'
  | .sshl at' _ _ _ _ => TileAt.ok at'
  | .sshli at' _ _ _ _ => TileAt.ok at'
  | .sshr at' _ _ _ _ => TileAt.ok at'
  | .sshri at' _ _ _ _ => TileAt.ok at'
  | .ssra at' _ _ _ _ => TileAt.ok at'
  | .ssrai at' _ _ _ _ => TileAt.ok at'
  | .smin at' _ _ _ _ => TileAt.ok at'
  | .smax at' _ _ _ _ => TileAt.ok at'
  | .sslt at' _ _ _ _ => TileAt.ok at'
  | .ssltu at' _ _ _ _ => TileAt.ok at'
  | .ali at' _ _ _ => TileAt.ok at'
  | .aaddi at' _ _ _ _ => TileAt.ok at'
  | .aadd at' _ _ _ _ => TileAt.ok at'
  | .amov at' _ _ _ => TileAt.ok at'
  | .srda at' _ _ _ => TileAt.ok at'
  | .loop at' _ _ _ => TileAt.ok at'
  | .cset at' _ _ _ => TileAt.ok at'
  | .srdc at' _ _ _ => TileAt.ok at'
  | .pxkey at' _ _ _ => TileAt.ok at'
  | .pxstep at' _ _ _ => TileAt.ok at'
  | .pxinc at' _ _ => TileAt.ok at'
  | .scyc at' _ _ => TileAt.ok at'
  | .sync at' _ _ _ _ => TileAt.ok at'
  | .tileEnd at' _ => TileAt.ok at'
  | .vld at' _ _ _ _ _ _ _ _ => TileAt.ok at'
  | .vst at' _ _ _ _ _ _ _ _ => TileAt.ok at'
  | .vldbc at' _ _ _ _ _ _ _ _ => TileAt.ok at'
  | .sld at' _ _ _ _ _ _ _ => TileAt.ok at'
  | .sst at' _ _ _ _ _ _ _ => TileAt.ok at'
  | .sld2 at' _ _ _ _ _ _ _ => TileAt.ok at'
  | .sst2 at' _ _ _ _ _ _ _ => TileAt.ok at'
  | .nmSend at' _ _ _ _ _ => TileAt.ok at'
  | .nmReceive at' _ _ _ _ _ _ => TileAt.ok at'
  | .vmov at' _ _ _ _ => TileAt.ok at'
  | .viadd at' _ _ _ _ _ => TileAt.ok at'
  | .visub at' _ _ _ _ _ => TileAt.ok at'
  | .vimul at' _ _ _ _ _ => TileAt.ok at'
  | .vimin at' _ _ _ _ _ => TileAt.ok at'
  | .vimax at' _ _ _ _ _ => TileAt.ok at'
  | .vand at' _ _ _ _ _ => TileAt.ok at'
  | .vor at' _ _ _ _ _ => TileAt.ok at'
  | .vxor at' _ _ _ _ _ => TileAt.ok at'
  | .vandn at' _ _ _ _ _ => TileAt.ok at'
  | .vshl at' _ _ _ _ _ => TileAt.ok at'
  | .vshr at' _ _ _ _ _ => TileAt.ok at'
  | .vsra at' _ _ _ _ _ => TileAt.ok at'
  | .vshli at' _ _ _ _ _ => TileAt.ok at'
  | .vshri at' _ _ _ _ _ => TileAt.ok at'
  | .vsrai at' _ _ _ _ _ => TileAt.ok at'
  | .vsel at' _ _ _ _ _ _ => TileAt.ok at'
  | .vbcs at' _ _ _ _ => TileAt.ok at'
  | .vext at' _ _ _ _ _ _ => TileAt.ok at'
  | .vins at' _ _ _ _ _ _ => TileAt.ok at'
  | .vrot at' _ _ _ _ _ => TileAt.ok at'
  | .vlane at' _ _ _ => TileAt.ok at'
  | .vfabs at' _ _ _ _ => TileAt.ok at'
  | .vfneg at' _ _ _ _ => TileAt.ok at'
  | .vcmpf at' _ _ _ _ _ _ => TileAt.ok at'
  | .vcmpi at' _ _ _ _ _ _ => TileAt.ok at'
  | .mand at' _ _ _ _ _ => TileAt.ok at'
  | .mor at' _ _ _ _ _ => TileAt.ok at'
  | .mxor at' _ _ _ _ _ => TileAt.ok at'
  | .mandn at' _ _ _ _ _ => TileAt.ok at'
  | .mfromv at' _ _ _ _ => TileAt.ok at'
  | .mtov at' _ _ _ _ => TileAt.ok at'
  | .vfadd at' _ _ _ _ _ _ => TileAt.ok at'
  | .vfsub at' _ _ _ _ _ _ => TileAt.ok at'
  | .vfmul at' _ _ _ _ _ _ => TileAt.ok at'
  | .vffma at' _ _ _ _ _ _ _ => TileAt.ok at'
  | .vfmax at' _ _ _ _ _ => TileAt.ok at'
  | .vfmin at' _ _ _ _ _ => TileAt.ok at'
  | .vbadd at' _ _ _ _ _ _ => TileAt.ok at'
  | .vbmul at' _ _ _ _ _ _ => TileAt.ok at'
  | .vbfma at' _ _ _ _ _ _ _ => TileAt.ok at'
  | .vcvtn at' _ _ _ _ _ _ _ _ _ _ _ _ _ => TileAt.ok at'
  | .vcvtw at' _ _ _ _ _ _ _ _ _ _ => TileAt.ok at'
  | .vcvti at' _ _ _ _ _ _ => TileAt.ok at'
  | .vcvtf at' _ _ _ _ _ => TileAt.ok at'
  | .vmxs at' _ _ _ _ _ _ _ _ => TileAt.ok at'
  | .vexp2 at' _ _ _ _ => TileAt.ok at'
  | .vlog2 at' _ _ _ _ => TileAt.ok at'
  | .vrcp at' _ _ _ _ => TileAt.ok at'
  | .vrsqrt at' _ _ _ _ => TileAt.ok at'
  | .vsqrt at' _ _ _ _ => TileAt.ok at'
  | .vtanh at' _ _ _ _ => TileAt.ok at'
  | .vsint at' _ _ _ _ => TileAt.ok at'
  | .vcost at' _ _ _ _ => TileAt.ok at'
  | .vrand at' _ _ _ _ _ => TileAt.ok at'
  | .vacr at' _ _ _ _ _ _ _ _ => TileAt.ok at'
  | .vacrr at' _ _ _ _ _ _ _ _ => TileAt.ok at'
  | .vacw at' _ _ _ _ _ _ => TileAt.ok at'
  | .vacwr at' _ _ _ _ _ _ _ => TileAt.ok at'
  | .mma at' _ _ row _ _ _ _ _ _ _ _ _ => TileAt.ok at' && isRow row
  | .rload at' _ _ _ _ _ _ _ _ => TileAt.ok at'
  | .frameCheck die _ => isDie die
  | .cadenceMessage die _ => isDie die
  | .cadenceApply => true
  | .alignIssue hoop _ => isHoopNo hoop
  | .alignEffect _ => true
  | .alignAttemptTimeout => true
  | .meshFlitForward die _ _ _ => isDie die
  | .dieReady die => isDie die
  | .dieArrival die => isDie die
  | .syncNotice die => isDie die
  | .syncRelease => true
  | .syncTimeout die => isDie die
  | .programArm hoop page val => isHoopNo hoop && isPage page && isWord val
  | .programLoaded hoop page val => isHoopNo hoop && isPage page && isWord val
  | .programEnd die => isDie die
  | .programStop hoop page val => isHoopNo hoop && isPage page && isWord val
  | .stopComplete die => isDie die
  | .waleProgramSlot die _ => isDie die
  | .sideFlitService page _ => isPage page
  | .imageLoad hoop _ => isHoopNo hoop
  | .tableWrite hoop page val => isHoopNo hoop && isPage page && isWord val
  | .eventDoorbell hoop page val => isHoopNo hoop && isPage page && isWord val
  | .osCounterClear hoop page val => isHoopNo hoop && isPage page && isWord val
  | .stNop die _ _ => isDie die
  | .stRd die _ => isDie die
  | .stWr die _ => isDie die
  | .rdw die _ => isDie die
  | .wrw die _ => isDie die
  | .mw die _ => isDie die
  | .wm die _ => isDie die
  | .sload die _ _ => isDie die
  | .bread die _ _ _ => isDie die
  | .bwrite die _ _ _ _ _ => isDie die
  | .loadt die _ _ => isDie die
  | .stEndseg die _ => isDie die
  | .transactionIssue die _ _ => isDie die
  | .readUnitRelease die _ _ _ => isDie die
  | .refreshRateChange die _ _ => isDie die
  | .patrolScrub die _ _ => isDie die
  | .neighbourRequest die _ => isDie die
  | .lenderRequest die _ _ off _ _ _ _ _ => isDie die && isOff off
  | .borrowComplete die _ _ _ _ _ => isDie die
  | .borrowTimeout die _ _ => isDie die
  | .hostWindowAccess hoop off _ _ _ _ _ => isHoopNo hoop && isOff off
  | .stakeWrite hoop page val => isHoopNo hoop && isPage page && isWord val
  | .stSchedWrite hoop page val => isHoopNo hoop && isPage page && isWord val
  | .stCounterClear hoop page val => isHoopNo hoop && isPage page && isWord val
  | .mcCounterClear hoop page val => isHoopNo hoop && isPage page && isWord val
  | .engineAbortDone die _ => isDie die
  | .ceNop die _ => isDie die
  | .edin die => isDie die
  | .edout die => isDie die
  | .win die => isDie die
  | .wout die => isDie die
  | .lcomb die _ => isDie die
  | .ceGrid die _ => isDie die
  | .cePack die _ => isDie die
  | .roundGrid die _ => isDie die
  | .rnd96 die _ => isDie die
  | .ceSend die => isDie die
  | .ceRecv die => isDie die
  | .ceEndseg die => isDie die
  | .ceItem die _ => isDie die
  | .seberTransmitSlot die _ => isDie die
  | .seberDeliverySlot die _ => isDie die
  | .ceAbortDone die => isDie die
  | .rankTableWrite hoop page val => isHoopNo hoop && isPage page && isWord val
  | .ceSchedWrite hoop page val => isHoopNo hoop && isPage page && isWord val
  | .ceCounterClear hoop page val => isHoopNo hoop && isPage page && isWord val
  | .pkgTimeArm hoop val => isHoopNo hoop && isWord val
  | .epochInEdge _ => true
  | .epochStuck => true
  | .borderArrival die _ _ _ _ => isDie die
  | .borderRelease die => isDie die
  | .auditCollect => true
  | .dlatAck hoop page val => isHoopNo hoop && isPage page && isWord val
  | .breakpointRelease hoop val => isHoopNo hoop && isWord val
  | .waleIdleFlit page _ => isPage page
  | .waleSideFlit page _ => isPage page
  | .waleProgFlit page _ => isPage page
  | .waleNullFlit page _ => isPage page
  | .waleEmptyFlit page _ => isPage page
  | .waleTrainFlit page => isPage page
  | .waleTokenFlit page _ => isPage page
  | .programFlitRelease page => isPage page
  | .retrain hoop page val => isHoopNo hoop && isPage page && isWord val
  | .holdReq hoop page val => isHoopNo hoop && isPage page && isWord val
  | .trainingPhaseDone page _ _ _ => isPage page
  | .waleTrainFail page => isPage page
  | .clockLoss page => isPage page
  | .holdPattern page => isPage page
  | .repairWrite hoop page val => isHoopNo hoop && isPage page && isWord val
  | .wlCounterClear hoop page val => isHoopNo hoop && isPage page && isWord val
  | .planeEnable hoop page val => isHoopNo hoop && isPage page && isWord val
  | .inputLit _ _ _ _ _ => true
  | .inputDark _ _ _ _ => true
  | .acquireDone _ _ _ _ _ _ _ _ => true
  | .acquireRetry _ _ _ _ => true
  | .fibSlip hoop page val => isHoopNo hoop && isPage page && isWord val
  | .blockLock _ _ _ => true
  | .lockLoss _ _ _ _ => true
  | .wordAlignRound _ _ => true
  | .reacqTx hoop page val => isHoopNo hoop && isPage page && isWord val
  | .reacqRx hoop page val => isHoopNo hoop && isPage page && isWord val
  | .adaptationWindowEnd _ _ _ _ _ => true
  | .plausibilityCheck _ _ _ _ => true
  | .calRecompute die => isDie die
  | .calCommit hoop page val _ => isHoopNo hoop && isPage page && isWord val
  | .calBankExchange die => isDie die
  | .rdCalCommit hoop page val => isHoopNo hoop && isPage page && isWord val
  | .recal hoop page val => isHoopNo hoop && isPage page && isWord val
  | .loopbackIdentity _ _ _ _ => true
  | .loopbackTimeout _ _ => true
  | .laserGroupStart _ => true
  | .laserWarmEnd _ _ _ => true
  | .laserOnWrite hoop page val => isHoopNo hoop && isPage page && isWord val
  | .allOff hoop page val => isHoopNo hoop && isPage page && isWord val
  | .rdLaserFail _ _ _ _ _ => true
  | .rdPwrLow _ _ _ _ => true
  | .spare hoop page val => isHoopNo hoop && isPage page && isWord val
  | .rdSwitchFail _ _ => true
  | .fibCounterClear hoop page val => isHoopNo hoop && isPage page && isWord val
  | .seberEnable hoop page val => isHoopNo hoop && isPage page && isWord val
  | .seberTrainSend _ _ => true
  | .trainCell _ _ _ _ => true
  | .idleCell _ _ _ _ _ => true
  | .lockedTimeout _ _ => true
  | .dataCell _ _ _ _ => true
  | .ackCell _ _ _ _ => true
  | .nakCell _ _ _ _ _ _ => true
  | .creditCell _ _ _ _ => true
  | .lanesetCell _ _ _ _ => true
  | .lsackCell _ _ _ _ => true
  | .collideCell _ _ _ _ => true
  | .relayCell _ _ _ _ => true
  | .drainCell _ _ _ _ => true
  | .reservedCell _ _ _ _ => true
  | .cellTransmit _ _ => true
  | .cellDelivery _ _ _ _ _ => true
  | .ackTimeout _ _ _ _ => true
  | .periodicAck _ _ => true
  | .periodicCredit _ _ => true
  | .bulkGrant _ => true
  | .lanesetRepeat _ _ => true
  | .retirementWindowEnd _ _ _ => true
  | .sbLaneReturn _ _ _ => true
  | .sbFailed _ _ => true
  | .sbDrain hoop page val => isHoopNo hoop && isPage page && isWord val
  | .drainComplete _ _ => true
  | .sbDrainTmo _ _ => true
  | .sbReset hoop page val => isHoopNo hoop && isPage page && isWord val
  | .sbLaneDrop hoop page val => isHoopNo hoop && isPage page && isWord val
  | .sbLaneReturnWrite hoop page val => isHoopNo hoop && isPage page && isWord val
  | .sbCounterClear hoop page val => isHoopNo hoop && isPage page && isWord val
  | .twineWriteFrame _ => true
  | .twineReadFrame _ => true
  | .readRespFrame hoop => isHoopNo hoop
  | .faultFrame hoop _ _ => isHoopNo hoop
  | .sensorFrame hoop die => isHoopNo hoop && isDie die
  | .noticeFrame die => isDie die
  | .twineGapSkip _ _ => true
  | .hopDown die _ => isDie die
  | .leaseGrant hoop => isHoopNo hoop
  | .leaseRenew hoop => isHoopNo hoop
  | .leaseStandby hoop => isHoopNo hoop
  | .leaseExpired hoop => isHoopNo hoop
  | .renewalRequest hoop => isHoopNo hoop
  | .takeoverDone hoop => isHoopNo hoop
  | .epochRaise die => isDie die
  | .overlapEnd hoop => isHoopNo hoop
  | .heartbeatSend hoop => isHoopNo hoop
  | .heartbeat hoop => isHoopNo hoop
  | .hoopPeerLost hoop => isHoopNo hoop
  | .soloHoldoff => true
  | .soloEntry => true
  | .wdogKick hoop page val => isHoopNo hoop && isPage page && isWord val
  | .wdogExpired hoop => isHoopNo hoop
  | .hoopRebootDone hoop _ => isHoopNo hoop
  | .mirrorSend hoop => isHoopNo hoop
  | .mirrorFrame hoop _ => isHoopNo hoop
  | .mirrorCommit hoop _ => isHoopNo hoop
  | .mirrorResync hoop page val => isHoopNo hoop && isPage page && isWord val
  | .hpCounterClear hoop page val => isHoopNo hoop && isPage page && isWord val
  | .repeatRecord page _ => isPage page
  | .containExpiry page _ => isPage page
  | .haltExpiry page _ => isPage page
  | .haltNotice die => isDie die
  | .faultAck hoop page val => isHoopNo hoop && isPage page && isWord val
  | .ackAtPage hoop => isHoopNo hoop
  | .ackNoAnswer hoop => isHoopNo hoop
  | .faultIntClear hoop page val => isHoopNo hoop && isPage page && isWord val
  | .faultPinClear hoop page val => isHoopNo hoop && isPage page && isWord val
  | .faultCoalWrite hoop page val => isHoopNo hoop && isPage page && isWord val
  | .crashLogClear hoop page val => isHoopNo hoop && isPage page && isWord val
  | .faultCounterClear hoop page val => isHoopNo hoop && isPage page && isWord val
  | .perst hoop => isHoopNo hoop
  | .pcieWinWrite hoop page val => isHoopNo hoop && isPage page && isWord val
  | .cmdDataWrite hoop _ _ _ _ => isHoopNo hoop
  | .cmdDataEndWrite hoop _ _ _ _ => isHoopNo hoop
  | .cmdStatusRead hoop _ _ _ => isHoopNo hoop
  | .eventPop hoop _ _ _ _ => isHoopNo hoop
  | .eventPeek hoop _ _ _ _ => isHoopNo hoop
  | .cmdQueueRead hoop _ _ => isHoopNo hoop
  | .bankSwap hoop _ => isHoopNo hoop
  | .eventPacketOffer hoop _ _ _ => isHoopNo hoop
  | .slewPtr hoop _ => isHoopNo hoop
  | .sqMark hoop page val => isHoopNo hoop && isPage page && isWord val
  | .sqRewind hoop page val => isHoopNo hoop && isPage page && isWord val
  | .sqRelease hoop page val => isHoopNo hoop && isPage page && isWord val
  | .wmHitClear hoop page val => isHoopNo hoop && isPage page && isWord val
  | .sqFlush hoop page val => isHoopNo hoop && isPage page && isWord val
  | .flushTrunc hoop _ => isHoopNo hoop
  | .sqReset hoop page val => isHoopNo hoop && isPage page && isWord val
  | .sqCounterClear hoop page val => isHoopNo hoop && isPage page && isWord val
  | .dmaDescriptor hoop _ => isHoopNo hoop
  | .dmaComplete hoop _ _ _ _ _ _ _ => isHoopNo hoop
  | .dmaRestart hoop page val => isHoopNo hoop && isPage page && isWord val
  | .dmaEnable hoop page val => isHoopNo hoop && isPage page && isWord val
  | .ptmDialogue hoop _ => isHoopNo hoop
  | .huabelNextWrite hoop page val => isHoopNo hoop && isPage page && isWord val
  | .pcieCounterClear hoop page val => isHoopNo hoop && isPage page && isWord val
  | .sensorSample die _ => isDie die
  | .tempWarn die => isDie die
  | .tempWarnClear die => isDie die
  | .throttle => true
  | .sensorForceSet hoop page val => isHoopNo hoop && isPage page && isWord val
  | .sensorForceClr hoop page val => isHoopNo hoop && isPage page && isWord val
  | .powerUpdate _ _ => true
  | .overcurrent die _ => isDie die
  | .safeClear hoop page val => isHoopNo hoop && isPage page && isWord val
  | .driverLimitWrite hoop page val => isHoopNo hoop && isPage page && isWord val
  | .thermalTrip die _ => isDie die
  | .boardTrip => true
  | .tripRestart _ _ => true
  | .ageLogRetry hoop => isHoopNo hoop
  | .ageingSample hoop _ => isHoopNo hoop
  | .ageLogClear hoop page val => isHoopNo hoop && isPage page && isWord val
  | .thCounterClear hoop page val => isHoopNo hoop && isPage page && isWord val
  | .stage0Entry => true
  | .secureBoot hoop _ _ _ => isHoopNo hoop
  | .startGo hoop val => isHoopNo hoop && isWord val
  | .stage2Entry => true
  | .stage3Entry => true
  | .stage4Entry => true
  | .stageLate _ => true
  | .i3cRead _ => true
  | .profSelChange _ => true
  | .profileStagingLoad hoop page val => isHoopNo hoop && isPage page && isWord val
  | .profileSave hoop page val => isHoopNo hoop && isPage page && isWord val
  | .keyProgram hoop page val _ => isHoopNo hoop && isPage page && isWord val
  | .keyRevoke hoop page val _ => isHoopNo hoop && isPage page && isWord val
  | .lifecycleRequest hoop page val _ _ _ => isHoopNo hoop && isPage page && isWord val
  | .debugRequest hoop page val => isHoopNo hoop && isPage page && isWord val
  | .debugResponse hoop page val _ => isHoopNo hoop && isPage page && isWord val
  | .vendorScrubDone => true
  | .jtagAccess _ _ => true
  | .jtagSkip hoop page val => isHoopNo hoop && isPage page && isWord val
  | .resetAssert => true
  | .resetRelease _ => true
  | .railFault _ die => isDie die
  | .refclkLoss => true
  | .aonFault => true
  | .epochOutPulse => true
  | .hbmPhyTrained die _ => isDie die
  | .quietWindow die _ _ _ => isDie die
  | .caParityError die _ => isDie die
  | .linkLeftL0 hoop _ _ _ _ => isHoopNo hoop
  | .aerError hoop _ => isHoopNo hoop
  | .vddAonInBand _ => true
  | .stuckClear => true
  | .firmwareMemoryUe hoop => isHoopNo hoop
  | .profileSaveComplete _ _ => true
  | .doeMailbox hoop => isHoopNo hoop

end Sys2Proof
end

