-- ==== Sys2Proof/Tests/Slice0.lean ====
section
/-! SUPPORT. Tests: ill-formed commands are refused, states that meet the hypotheses of the obligations, and effects the spec's own tables give. -/

namespace Sys2Proof.Tests
set_option Elab.async false
open Sys2Proof Sys2Proof.Machine

/-! Ill-formed commands: one for each check of WellFormed. -/

theorem test_wf_hoop : (Instr.leaseGrant 2).wf = false ∧ (Instr.leaseGrant 1).wf = true := by decide
theorem test_wf_die : (Instr.prepare 32).wf = false ∧ (Instr.prepare 31).wf = true := by decide
theorem test_wf_word : (Instr.snapshotRequest 0 (2 ^ 32)).wf = false ∧ (Instr.snapshotRequest 0 (2 ^ 32 - 1)).wf = true := by decide
theorem test_wf_page : (Instr.keyUnlock 0 (2 ^ 14) 0).wf = false ∧ (Instr.keyUnlock 0 (2 ^ 14 - 1) 0).wf = true := by decide
theorem test_wf_off : (Instr.noAnswer 0 0 (2 ^ 26)).wf = false ∧ (Instr.noAnswer 0 0 (2 ^ 26 - 1)).wf = true := by decide
theorem test_wf_tile : (Instr.resultLand ⟨8, 0⟩).wf = false ∧ (Instr.resultLand ⟨0, 64⟩).wf = false ∧ (Instr.resultLand ⟨7, 63⟩).wf = true := by decide

/-! Small states. -/

/-- The canonical form as a test. -/
def sound (s : State) : Bool :=
  swf resetVal s.regs && swf pageZero s.pages && swf flogZero s.flt.logs && swf tileZero s.tiles && swf osdZero s.osd && swf lineZero s.hbm
    && swf natZero s.stake && swf engZero s.engs && swf ceZero s.ces && swf lineZero s.cbuf && swf borderZero s.borders && swf audZero s.aud
    && swf wlZero s.wl && swf laneZero s.lanes && swf fibZero s.fibs && swf wfZero s.wfs && swf rdZero s.rds && swf laserZero s.lasers
    && swf calZero s.cal && swf calZero s.calSh && swf subZero s.subs && swf sqZero s.sqs && swf dmaZero s.dmas && swf hoopZero s.hoops
    && swf (fun _ => none) s.snaps && swf sensZero s.sens && swf dthZero s.dth && swf fitZero s.fits && swf flashZero s.flash

theorem sound_wf {s : State} (h : sound s = true) : Wf s := by
  simp only [sound, Bool.and_eq_true] at h
  constructor <;> simp only [h]

/-- EveryStepKeepsSoundStates, and StepRunsTheFrontCommand's two cases. -/
theorem wit_Step : sound State.reset = true ∧ State.reset.pending = [] ∧ ({ State.reset with pending := [.resetAssert] } : State).pending = .resetAssert :: [] := by
  decide +kernel

/-- Pages up with their keys open, Hoop 0 in SOLO. -/
def on (ps : List Nat) : State :=
  (ps.foldl (fun (s : State) p => (s.setUp p .up).wb p R.PG_STATUS_KEY_OPEN true) (State.reset.setUp (hpTop 0) .up)).wr (hpTop 0) R.HP_ROLE_ROLE roleSolo

/-- Whether each of the writes (page, kind, offset, value) is taken by its page, the page up. -/
def allTaken (xs : List (Nat × Blk × Nat × Nat)) : Bool := xs.all fun x => (on [x.1]).takes 0 x.1 x.2.1 x.2.2.1 x.2.2.2 && sound (on [x.1])

theorem wit_CounterClears : allTaken
  [(osTop 3, .os, 0x170, 1), (rowPg 3 2, .tg, 0x130, 1), (mcPg 3 1, .mc, 0x128, 1), (stPg 3 2, .st, 0x134, 1), (cePg 3, .ce, 0x134, 1),
   (hpTop 0, .hp, 0x148, 1), (faultPg 0, .fault, 0x158, 1), (pciePg 0, .pcie, 0x138, 1), (sqPg 0 5, .sq, 0x140, 1), (thPg 5, .th, 0x1AC, 1),
   (sbPg 1, .sb, 0x12C, 1), (subPg 1 3, .sbk, 0x174, 1), (wlPg 3 1, .wl, 0x164, 1), (fibPg 1 2, .fib, 0x13C, 1)] = true := by decide +kernel

theorem wit_PackageControl : allTaken [(pkg0, .pkg0, 0x110, 1), (pkg0, .pkg0, 0x120, 1), (pkg0, .pkg0, 0x120, 0), (pkg1, .pkg1, 0x200, 1),
    (pkg2, .pkg2, 0x108, 1), (pkg2, .pkg2, 0x14C, 1), (pkg0, .pkg0, 0x140, 1)] = true ∧
  (∀ x ∈ [(pkg0, Blk.pkg0, 0x110, 1), (pkg0, .pkg0, 0x120, 1), (pkg0, .pkg0, 0x120, 0), (pkg1, .pkg1, 0x200, 1)],
    let e := (on [x.1]).taken 0 x.1 x.2.1 x.2.2.1 x.2.2.2
    e.acting = some 0 ∧ e.bit (hpTop 0) R.HP_ROLE_OVERLAP = false) ∧
  (let s := (on [pkg0]).wr pkg0 R.PKG_STAGE_STAT_STATE 1
   let e := s.taken 0 pkg0 .pkg0 0x120 2
   sound s = true ∧ s.takes 0 pkg0 .pkg0 0x120 2 = true ∧ e.acting = some 0 ∧ e.bit (hpTop 0) R.HP_ROLE_OVERLAP = false ∧ e.stageSt = 1) := by
  decide +kernel

theorem wit_TileRowProgramAndScheduleWrites : allTaken [(rowPg 3 2, .tg, 0x100, 0xFF), (rowPg 3 2, .tg, 0x104, 0x80), (rowPg 3 2, .tg, 0x118, 1),
    (osTop 3, .os, 0x104, 1), (osTop 3, .os, 0x104, 4), (osTop 3, .os, 0x104, 2), (osTop 3, .os, 0x150, 7), (osTop 3, .os, 0x154, 0x10003),
    (stPg 3 2, .st, 0x10C, 5), (cePg 3, .ce, 0x108, 5), (stPg 3 0, .st, 0x184, 1), (cePg 3, .ce, 0x110, 0x101), (stPg 3 0, .st, 0x154, 1)] = true ∧
  ((on [osTop 3]).taken 0 (osTop 3) .os 0x104 2).bit (osTop 3) R.OS_PROG_CTRL_STOP = false ∧
  (∀ v ∈ [0, 2], let s := (on [stPg 3 2, cePg 3]).wr (osTop 3) R.OS_PROG_STAT_STATE v
    s.takes 0 (stPg 3 2) .st 0x10C 5 = true ∧ (s.taken 0 (stPg 3 2) .st 0x10C 5).prog 3 = v ∧
    s.takes 0 (cePg 3) .ce 0x108 5 = true ∧ (s.taken 0 (cePg 3) .ce 0x108 5).prog 3 = v) := by
  decide +kernel

theorem wit_LinkWrites : allTaken [(wlPg 3 1, .wl, 0x100, 1), (wlPg 3 1, .wl, 0x100, 0x10), (wlPg 3 1, .wl, 0x110, 127), (wfTop 1, .wf, 0x104, 0xFFFF),
    (fibPg 1 2, .fib, 0x108, 1), (fibPg 1 2, .fib, 0x10C, 1), (wfTop 1, .wf, 0x108, 1), (rdTop 1, .rd, 0x110, 1), (rdTop 1, .rd, 0x110, 2),
    (rdPg 1 3, .rdl, 0x100, 1), (rdPg 1 3, .rdl, 0x100, 2), (rdTop 1, .rd, 0x104, 4), (sbPg 1, .sb, 0x100, 1), (subPg 1 3, .sbk, 0x100, 2),
    (subPg 1 3, .sbk, 0x100, 1), (subPg 1 3, .sbk, 0x16C, 1), (subPg 1 3, .sbk, 0x16C, 2)] = true ∧
  ((on [wfTop 1]).taken 0 (wfTop 1) .wf 0x108 1).bit (wfTop 1) R.WF_CAL_CTRL_COMMIT = false ∧ ((on [rdTop 1]).reed 1).armed = false ∧
  (let p := wlPg 3 1
   let s := ((on [p]).wr p R.WL_REPAIR_SEL_MODULE 15).setWle p { (State.reset.wle p) with repairs := (List.range 40).map fun i => (i, 9) }
   let e := s.taken 0 p .wl 0x110 5
   sound s = true ∧ s.takes 0 p .wl 0x110 5 = true ∧ 5 % 128 ≠ 0x7F ∧
     (e.wle p).repair (e.rd p R.WL_REPAIR_SEL_DIR) (e.rd p R.WL_REPAIR_SEL_MODULE) (e.rd p R.WL_REPAIR_SEL_ENTRY) = 0x7F ∧
     maxRepairs (e.wlMods p) ≤ e.repairsAll p (e.rd p R.WL_REPAIR_SEL_DIR)) := by decide +kernel

theorem wit_HostWrites : allTaken [(sqPg 0 5, .sq, 0x114, 1), (sqPg 0 5, .sq, 0x114, 2), (sqPg 0 5, .sq, 0x114, 4), (sqPg 0 70, .sq, 0x108, 1),
    (sqPg 0 70, .sq, 0x118, 1), (sqPg 0 5, .sq, 0x118, 2), (pciePg 0, .pcie, 0x110, 0xFF00), (pciePg 0, .pcie, 0x10C, 2), (pciePg 0, .pcie, 0x108, 4095),
    (hpTop 0, .hp, 0x10C, 1), (hpTop 0, .hp, 0x10C, 2), (hpTop 0, .hp, 0x10C, 3), (hpTop 0, .hp, 0x128, 1), (hpTop 0, .hp, 0x134, 1),
    (faultPg 0, .fault, 0x140, 0x80000000), (faultPg 0, .fault, 0x148, 1), (faultPg 0, .fault, 0x14C, 1), (faultPg 0, .fault, 0x104, 16383),
    (faultPg 0, .fault, 0x154, 0x10000)] = true ∧
  ((on [faultPg 0]).taken 0 (faultPg 0) .fault 0x140 0x80000000).bit (faultPg 0) R.FAULT_ACK_GO = false := by decide +kernel

theorem wit_ThermalAndSecurityWrites : allTaken [(thPg 5, .th, 0x11C, 0x100), (thPg 5, .th, 0x11C, 0x200), (thPg 0x12, .th, 0x1A0, 0x200),
    (thPg 0x12, .th, 0x190, 64), (agePg 0x12, .age, 0x184, 0x1000000), (thPg 5, .th, 0x1A0, 0x200), (thPg 5, .th, 0x190, 16),
    (agePg 5, .age, 0x184, 0x1000000), (prPg 0, .pr, 0x110, 1), (prPg 0, .pr, 0x110, 2), (secPg 0, .sec, 0x10C, 1),
    (secPg 0, .sec, 0x100, 0x100), (secPg 0, .sec, 0x140, 0x10), (secPg 0, .sec, 0x1DC, 1), (secPg 0, .sec, 0x1E0, 1)] = true ∧
  (let s := (on [secPg 0]).setFlash 0 { (State.reset.flashOf 0) with life := 1 }
   sound s = true ∧ s.takes 0 (secPg 0) .sec 0x10C 0x4000 = true) := by decide +kernel

theorem wit_PageControl : allTaken [(osTop 3, .os, 8, 0x5EB30001), (osTop 3, .os, 8, 2), (osTop 3, .os, 0x10, 1)] = true ∧
  (let s := (on [thPg 5]).setUp (thPg 5) .resetting
   sound s = true ∧ (s.page (thPg 5)).up = .resetting ∧ s.resetEnds (thPg 5) .th = true) ∧
  (let s := ((on [osTop 3]).setUp (osTop 3) .resetting).setOd 3 { (State.reset.od 3) with stopping := true }
   sound s = true ∧ (s.page (osTop 3)).up = .resetting ∧ s.resetEnds (osTop 3) .os = false) := by decide +kernel

theorem wit_RejectedWrites :
  (let s := on [osTop 3]
   sound s = true ∧ s.serves 0 = true ∧ s.reaches 0 (osTop 3) = true ∧ s.overlapBars 0 (osTop 3) 0x800 = false ∧
   ((s.judged 0 (osTop 3)).writeCause (osTop 3) 0x800 0 15 ((s.judged 0 (osTop 3)).writeEpoch 0 (osTop 3) 0x800 0) false).isSome = true ∧
   ((s.judged 0 (osTop 3)).writeCause (osTop 3) 0xFFC 0 15 ((s.judged 0 (osTop 3)).writeEpoch 0 (osTop 3) 0xFFC 0) false).isSome = true) := by decide +kernel

theorem wit_NeverUp : pageBlk (osTop 3) = some .os ∧ (State.reset.page (osTop 3)).up = .never := by decide +kernel

theorem wit_HostAccess :
  (let s := on [osTop 3]
   sound s = true ∧ s.serves 0 = true ∧ s.reaches 0 (osTop 3) = true ∧ s.takes 0 (osTop 3) .os 0x18 5 = true ∧
   (s.judged 0 (osTop 3)).alive (osTop 3) = true) ∧
  (let s := (on [pkg0, mcPg 3 1]).wr pkg0 R.PKG_STAGE_STAT_STATE 1
   let e := s.judged 0 (mcPg 3 1)
   let w := e.overlapWord 0 (mcPg 3 1) 0x120 1
   sound s = true ∧ s.overlapBars 0 (mcPg 3 1) 0x120 = false ∧ touched .mc 0x120 15 ≠ [] ∧ (∀ f ∈ touched .mc 0x120 15, e.stages .mc f = true) ∧
   e.writeCause (mcPg 3 1) 0x120 w 15 (e.writeEpoch 0 (mcPg 3 1) 0x120 w) false = none) := by decide +kernel

/-! Tiles. -/

/-- Tile 0 of die 0 in RUN, its row up. -/
def tileRun : State := (State.reset.setUp (rowPg 0 0) .up).setTile 0 0 { Tile.reset with st := .run }
def t00 : TileAt := ⟨0, 0⟩

/-- Every slot can issue: the hypothesis of ScalarForms, AddressAndLoopRegisterForms, LoopOpensOrIsIllegal, SyncStopsIssueUnlessALoopEndsThere,
LoadsAndStoresScheduleTheirAccess, MeshSlotsSendAndReceive, the VX forms and MatrixForms. -/
theorem wit_Slots : sound tileRun = true ∧ ∀ sl ∈ [Slot.sc, .ls, .nm, .nmr, .vx, .mx], tileRun.canIssue t00 sl = true := by decide +kernel

/-- LOOP's clauses: four loops open; END at p; END past the innermost loop's; none of these, TRIP zero or not. SYNC's: a loop ends there or none. -/
theorem wit_LoopAndSync :
  (∀ x ∈ [([⟨0, 9, 1, 0⟩, ⟨0, 9, 1, 0⟩, ⟨0, 9, 1, 0⟩, ⟨0, 9, 1, 0⟩], 5, true), ([], 0, true), ([⟨0, 4, 1, 0⟩], 5, true), ([⟨0, 5, 1, 0⟩], 5, false), ([], 8191, false)],
    let s := tileRun.setTile 0 0 { Tile.reset with st := .run, loops := x.1 }
    let b := s.opened t00
    sound s = true ∧ s.canIssue t00 .sc = true ∧
      x.2.2 = (decide (4 ≤ b.loops.length) || decide (x.2.1 ≤ b.pc) || (match b.loops with | l :: _ => decide (l.last < x.2.1) | [] => false))) ∧
  (let s := tileRun.setTile 0 0 { Tile.reset with st := .run, loops := [⟨0, 0, 1, 0⟩] }
   s.canIssue t00 .sc = true ∧ (∃ l ∈ (s.opened t00).loops, l.last = (s.opened t00).pc)) := by decide +kernel

/-- A chunk read and a row update under way. -/
def tileBusy : Tile := { Tile.reset with st := .run, next := 40, accs := [⟨32, 0, .rchunk 0 0 0, []⟩], mmas := [⟨33, 0, false, false, false, 4, [], [], none, [], false, []⟩] }

/-- A delivery of four lines for tile `(row 1, column 0)` of die 0, the tile as given. -/
def loadIn (x : Tile) (hdr : Nat) : State :=
  { ((State.reset.setUp (rowPg 0 1) .up).setTile 0 8 x) with loads := [⟨0, 0, 0, hdr, [lineZero 0, lineZero 0, lineZero 0, lineZero 0], []⟩] }

theorem wit_TileManagement :
  (let x := tileRun.tile 0 0
   tileRun.tileUp t00 = true ∧ x.fresh = true ∧ x.blockValid x.pc = true ∧ x.st = .run ∧ x.halt = none ∧ x.cur = 0 ∧ 32 / 32 % 8 ≠ 0) ∧
  (let x : Tile := { Tile.reset with st := .run, cur := 1 }
   (x.halt = none ∨ x.cur ≠ 0) ∧ x.blockValid x.pc = true ∧ x.cur ≠ 0) ∧
  (let x : Tile := { Tile.reset with st := .run, imemValid := 0 }
   x.fresh = true ∧ x.blockValid x.pc = false) ∧
  (let x : Tile := { Tile.reset with st := .run, pend := [⟨0, 4, .scal 1 7#32 false⟩], clk := 0 }
   0 ∈ x.pend.map Pend.due ∧ ∀ k ∈ x.pend.map Pend.due, 0 ≤ k) ∧
  (let x : Tile := { Tile.reset with st := .run, pend := [⟨32, 4, .scal 1 7#32 false⟩], next := 40 }
   x.clk < 32 ∧ 32 ≤ x.clk + 32 ∧ x.accs = [] ∧ x.mmas = [] ∧ x.flitIn = [] ∧ x.accHold = [] ∧ (x.fresh = false ∨ 32 ≤ x.next)) ∧
  (let x : Tile := { Tile.reset with st := .run, halt := some ⟨false, 1, 2, false⟩ }
   x.cur = 0 ∧ x.halt = some ⟨false, 1, 2, false⟩) := by decide +kernel

theorem wit_TileAccessesAndLoads :
  (let x : Tile := { Tile.reset with st := .run, halt := some ⟨true, 0, 0, false⟩ }
   x.cur = 0 ∧ x.halt = some ⟨true, 0, 0, false⟩) ∧
  (32 ∈ (tileBusy.accs.filter isChunk).map AccessAt.cyc ∧ (∀ k ∈ (tileBusy.accs.filter isChunk).map AccessAt.cyc, 32 ≤ k) ∧ 32 ≤ tileBusy.next ∧
    33 ∈ tileBusy.mmas.map MmaOp.due ∧ (∀ k ∈ tileBusy.mmas.map MmaOp.due, 33 ≤ k) ∧ 33 ≤ tileBusy.next) ∧
  (∀ z ∈ [true, false], let s := loadIn { Tile.reset with st := .idle, zeroing := z } (2 ^ 63 + 1)
    sound s = true ∧ s.loads.find? (fun r => decide (r.die = 0) && decide (r.col = 0)) = some ⟨0, 0, 0, 2 ^ 63 + 1, [lineZero 0, lineZero 0, lineZero 0, lineZero 0], []⟩ ∧
      (2 ^ 63 + 1).testBit 63 = true ∧ s.prog 0 = 0 ∧ (s.tile 0 8).st = .idle ∧ (s.tile 0 8).zeroing = z ∧ s.alive (rowPg 0 1) = true) ∧
  (let s := loadIn { Tile.reset with st := .run } (2 ^ 63 + 1)
   sound s = true ∧ (s.tile 0 8).st ≠ .idle) ∧
  State.reset.loads = [] := by decide +kernel

/-! Cadence, sync and the mesh. -/

theorem wit_Cadence :
  (∀ k ∈ [true, false],
   let s : State := { on [osTop 0] with cad := { msgs := [(3, 1)], nextN := some (64, 5), taken := k, alignAt := some 9, aligning := true },
                                        notes := [(0x12, .align 4 false)] }
   sound s = true ∧ s.cad.msgs.find? (fun m => decide (m.1 = 3)) = some (3, 1) ∧ s.cad.nextN = some (64, 5) ∧ s.cad.taken = k ∧ s.cad.alignAt = some 9 ∧
   s.drives 0 = true ∧ s.anyRunning = false ∧ s.alive (osTop 0) = true ∧ s.cad.aligning = true ∧ s.cad.alignOk.contains 19 = false ∧
   ¬ (s.rd pkg0 R.PKG_STAGE_STAGE = 2 ∧ 3 ≤ s.cad.attempts) ∧
   s.notes.find? (fun n => decide (n.1 = 0x12)) = some (0x12, .align 4 false) ∧ isHoop 0x12 = true ∧ s.hoopUp 0 = true) := by decide +kernel

/-- Die 0 running with no tile enabled and every engine idle: ready to meet a sync. -/
def dieRun : State := (State.reset.setUp (osTop 0) .up).wr (osTop 0) R.OS_PROG_STAT_STATE 2

theorem wit_SyncPoints :
  (sound dieRun = true ∧ (dieRun.engMarks 0).isSome = true ∧ dieRun.prog 0 = 2 ∧ (dieRun.od 0).ready = none ∧ (dieRun.od 0).stopping = false ∧
    dieRun.enTiles 0 = []) ∧
  (let s := ((State.reset.setUp (osTop 0) .up).wr (osTop 0) R.OS_TG_ENABLE_TILE_EN 0).setOd 0 { (State.reset.od 0) with
      ready := some 5, metA := some 4, metB := some 6, tmoSaid := false }
   let o := s.od 0
   o.arrive = none ∧ o.stopping = false ∧ o.brkHit = false ∧ o.noArrive = false ∧ o.doubt = false ∧ o.mismatch = false ∧ s.portDown 0 = false ∧
     syncBorder (s.syncEntry 0) = false) ∧
  (let s := (State.reset.setUp (osTop 0) .up).wr (osTop 0) R.OS_SYNC_TMO_MS 1
   s.rd (osTop 0) R.OS_SYNC_TMO_MS ≠ 0) ∧
  (let s := State.reset.setOd 0 { (State.reset.od 0) with stopping := true }
   (∀ e, e < 16 → (s.eng 0 e).abort = false) ∧ (s.ce 0).abort = false) ∧
  (let s : State := (List.range 8).foldl (fun (s : State) d => (s.setUp (osTop d) .up).setOd d { (State.reset.od d) with ready := some 100, arrive := some (100 + d) })
      State.reset
   sound s = true ∧ ∀ d, d < 8 → s.alive (osTop d) = true ∧ (s.od d).arrive ≠ none ∧ (s.od d).mismatch = false ∧ (s.od d).waitId = (s.od 0).waitId ∧
     (s.od d).waitEnd = (s.od 0).waitEnd) := by decide +kernel

/-- Die 0 in a phase with one flit at a router's input, whose entry routes it. -/
def meshIn (node port o : Nat) (x : OsDie) : State :=
  { (State.reset.setOd 0 { x with phaseOn := true, routes := [(node * 4096, 2 ^ (5 * port + o))] }) with
    mesh := [⟨0, node, port, 0, ⟨[lineZero 0, lineZero 0, lineZero 0, lineZero 0]⟩, none⟩] }

/-- A flit that goes on inside the mesh, one that leaves it, one for a running tile; a ready die; a die outside a phase. -/
theorem wit_MeshRouters :
  (∀ x ∈ [(9, 3, 1), (0, 3, 0), (9, 3, 4)],
   let s := (meshIn x.1 x.2.1 x.2.2 (State.reset.od 0)).setTile 0 9 { Tile.reset with st := .run }
   sound s = true ∧ (s.od 0).phaseOn = true ∧ (s.od 0).ready = none ∧ (s.toCc 0).routeEntry 0 x.1 0 = 2 ^ (5 * x.2.1 + x.2.2) ∧
   (∀ k, k < 5 → ((List.range 5).filter fun i => (routeOuts (2 ^ (5 * x.2.1 + x.2.2)) i).contains k).length ≤ 1) ∧
   routeOuts (2 ^ (5 * x.2.1 + x.2.2)) x.2.1 = [x.2.2] ∧ (s.tile 0 9).st = .run) ∧
  (meshNext 9 1 = some (10, 3) ∧ meshNext 0 0 = none) ∧
  (let s := meshIn 9 3 1 { (State.reset.od 0) with ready := some 0 }
   (s.od 0).phaseOn = true ∧ (s.od 0).ready ≠ none) ∧ (State.reset.od 0).phaseOn = false := by decide +kernel

/-- An image that passes every check, or fails its signature. -/
def imageOf (sig : Bool) : Image := ⟨2, sig, 0x0B01, 0, 1, 1, true, 7, [0], [], [], [], [], [], [], []⟩

theorem wit_MeshAndPorts :
  (∀ up ∈ [3, 4], ∀ rq ∈ [[], [(⟨0, 0, 2, 0, 1, 5⟩ : ReqW)]],
   let p := wlPg 0 0
   let s := (((State.reset.setUp p .up).wr p R.WL_STAT_STATE up).wr ((walePeer p).getD 0) R.WL_STAT_STATE 3).setOd 0 { (State.reset.od 0) with phaseOn := true }
   let s : State := { s with reqs := rq }
   let f := ((s.toCc 0).settleDie 0 0).enterFlits 0 0
   sound s = true ∧ progSlot s.clk.cc = true ∧ (s.od 0).phaseOn = true ∧ (s.wle p).sent ≠ some 0 ∧ f.portAlive p = decide (up = 3) ∧ f.reqs = rq) ∧
  (∀ q ∈ [[], [(⟨1, 3, .other 5, []⟩ : SideFlit)]], let p := wlPg 0 0
   let s := (((State.reset.setUp p .up).wr p R.WL_STAT_STATE 3).wr ((walePeer p).getD 0) R.WL_STAT_STATE 3).setWle p { (State.reset.wle p) with side := q }
   sound s = true ∧ s.portAlive p = true ∧ s.alive p = true ∧ ({ s with clk := { s.clk with n := 32, j := 0 } } : State).sideSlot p = some false ∧
     ({ s with clk := { s.clk with cc := 7, tick := 7 } } : State).sideSlot p = some true) ∧
  (∀ g ∈ [true, false],
   let s := (on []).setFlash 0 { ((on []).flashOf 0) with fused := 4 }
   let s : State := { s with start := { s.start with prof := { s.start.prof with grade := 0, size := 1, count := 1 } } }
   sound s = true ∧ s.serves 0 = true ∧ s.acting = some 0 ∧ (s.loadStatus 0 (imageOf g) = .ok) = (g = true)) := by decide +kernel

/-! Stream engines. -/

/-- Engine 2 of die 0 going, its page up, with one descriptor word. -/
def engOn (w : BitVec 128) : State :=
  (State.reset.setUp (stPg 0 2) .up).setEng 0 2 { (State.reset.eng 0 2) with on := true, sched := [(0, w)] }

/-- Eight descriptors that still have transactions to issue. -/
def eight : List Desc := (List.range 8).map fun k => ⟨k, 4096#128, 0#128, 0, 0⟩

theorem wit_Descriptors :
  (∀ op ∈ [0, 1, 2, 3, 4, 5, 6, 7, 8, 9, 10, 11, 14, 15], let s := engOn (BitVec.ofNat 128 (op * 4096))
     sound s = true ∧ s.engOk 0 2 = true ∧ (s.eng 0 2).going = true ∧ dbits (look (fun _ => 0#128) (s.eng 0 2).sched 0) 12 4 = op ∧
     ((s.eng 0 2).running.filter ((s.eng 0 2).runs 0)).length < 8) ∧
  (let s := engOn (BitVec.ofNat 128 (3 * 4096))
   let s := s.setEng 0 2 { (s.eng 0 2) with running := eight }
   s.engOk 0 2 = true ∧ (s.eng 0 2).going = true ∧ 8 ≤ ((s.eng 0 2).running.filter ((s.eng 0 2).runs 0)).length) := by decide +kernel

/-- BREAD and BWRITE: a BORROW entry of the own pod, or of another; a write-protected one; another kind; a local source that resolves, or does not; sixteen
operations in flight. -/
theorem wit_BorrowStarts :
  (∀ op ∈ [8, 9], ∀ k ∈ [3 + 2 ^ 20, 3 + 2 ^ 24, 3 + 2 ^ 19 + 2 ^ 20, 1], let s := engOn (BitVec.ofNat 128 (op * 4096))
     let s : State := { s with stake := [(0, k), (1, 1)] }
     let s := s.setEng 0 2 { (s.eng 0 2) with sched := [(0, BitVec.ofNat 128 (op * 4096)), (1, BitVec.ofNat 128 (2 ^ 26))] }
     let en := s.stakeE 0 0
     sound s = true ∧ en = k ∧ (s.eng 0 2).going = true ∧ (s.eng 0 2).borrow.length < 16 ∧
       (s.resolve 0 (2 ^ 26) false false false matches .here _ _) = true ∧ (s.resolve 0 0 false false false matches .here _ _) = decide (k = 1)) ∧
  (skKind (3 + 2 ^ 20) = 3 ∧ skWp (3 + 2 ^ 20) = false ∧ State.reset.samePod (skPeer (3 + 2 ^ 20)) = true ∧ State.reset.samePod (skPeer (3 + 2 ^ 24)) = false ∧
   skKind (3 + 2 ^ 19 + 2 ^ 20) = 3 ∧ skWp (3 + 2 ^ 19 + 2 ^ 20) = true ∧ skKind 1 ≠ 3) ∧
  (let b : Borrow := ⟨0, false, 1, 0, 0, 0, 1, 500, none⟩
   let s := (engOn (BitVec.ofNat 128 (8 * 4096))).setEng 0 2 { ((engOn (BitVec.ofNat 128 (8 * 4096))).eng 0 2) with borrow := List.replicate 16 b }
   s.engOk 0 2 = true ∧ (s.eng 0 2).going = true ∧ 16 ≤ (s.eng 0 2).borrow.length) := by decide +kernel

theorem wit_Transactions :
  (∀ op ∈ [1, 2, 3, 4, 5, 6, 7, 10],
   let r : Desc := ⟨0, BitVec.ofNat 128 (op * 4096), 0#128, 4, 0⟩
   let s : State := { engOn 0#128 with stake := [(0, 1)] }
   let s := s.setEng 0 2 { (s.eng 0 2) with running := [r] }
   let f := (((s.toCc 4).settleDie 0 4).takeDue 0 4).enterDue 0 (ctlKey 4 2 (if r.op = 1 ∨ r.op = 2 ∨ r.op = 10 then r.lane else 2))
   sound s = true ∧ s.engOk 0 2 = true ∧ (s.eng 0 2).abort = false ∧ nextIssue (s.eng 0 2).running = some r ∧ r.op = op ∧ r.start + r.j * r.period = 4 ∧
     (f.eng 0 2).out = [] ∧ f.txnWeight 0 r ≤ 256 ∧ (f.resolve 0 (r.addrAt 0) false false false matches .here _ _) = true ∧
     (∀ c ∈ [4, 5, 484, 485], f.laneUsers 0 2 r.lane c = [])) ∧
  (let s := (engOn 0#128).setEng 0 2 { ((engOn 0#128).eng 0 2) with running := [⟨0, 4096#128, 0#128, 4, 0⟩], out := [⟨7, 256, 999, 999⟩] }
   (s.eng 0 2).out.filter (fun q => decide (4 ≤ q.ends)) = [⟨7, 256, 999, 999⟩]) := by decide +kernel

theorem wit_ReadUnits :
  (∀ k ∈ [Sink.edge 1, .wale 1, .sched 5],
   let r : RUnit := { die := 0, eng := 2, cyc := 9, idx := 0, lane := 0, sink := k, lines := [lineZero 0], mc := some 1, us := [], nb := none, dig := none, evt := none }
   let s : State := { engOn 0#128 with reads := [r] }
   sound s = true ∧ s.engOk 0 2 = true ∧ s.firstRead 0 2 = some r ∧ s.offers = []) ∧
  (let s := (engOn 0#128).setEng 0 2 { ((engOn 0#128).eng 0 2) with abort := true }
   s.engOk 0 2 = true ∧ (s.eng 0 2).abort = true ∧ (s.eng 0 2).borrow = []) := by decide +kernel

/-! Memory, lending, the collective engine. -/

theorem wit_Memory :
  (let p := mcPg 0 1
   ∀ b ∈ [true, false], ∀ c ∈ [[], [(1, some 5)]],
   let s : State := { ((State.reset.setUp p .up).wb p R.MC_STAT_REF2X b).wb p R.MC_SCRUB_EN false with cool := c }
   sound s = true ∧ s.alive p = true ∧ s.bit p R.MC_STAT_REF2X = b ∧ s.bit p R.MC_SCRUB_EN = false ∧
     look (fun _ => none) s.cool 1 = if c = [] then none else some 5) ∧
  (let p := mcPg 0 1
   let s := ((State.reset.setUp p .up).wb p R.MC_STAT_TRAINED true).wb p R.MC_SCRUB_EN true
   s.mcUp 1 = true ∧ s.bit p R.MC_SCRUB_EN = true ∧ look natZero s.scrubAt 1 < 2 ^ 30) ∧
  (∀ w ∈ [1 + 2 ^ 40, 1 + 2 + 2 ^ 40, 0, 1 + 3 * 2 ^ 40],
   let q : NbReq := ⟨0, 0, 9, w, [], 0⟩
   let s : State := { State.reset.setUp (mcPg 0 1) .up with nbq := [q] }
   sound s = true ∧ s.nbq.find? (fun q => decide (q.die = 0) && decide (q.port = 0)) = some q ∧ s.alive (mcPage 1) = true) ∧
  (bits (1 + 2 ^ 40) 40 2 = 1 ∧ bits (1 + 2 ^ 40) 1 1 = 0 ∧ bits (1 + 2 + 2 ^ 40) 1 1 = 1 ∧ bits (1 + 3 * 2 ^ 40) 40 2 = 3 ∧ State.reset.nbq = []) := by decide +kernel

theorem wit_Lending :
  (∀ k ∈ [0, 1 + 2 ^ 18 + 2 ^ 20], let s := ((State.reset.setUp (stPg 0 0) .up).setUp (mcPg 0 0) .up).wb (mcPg 0 0) R.MC_STAT_TRAINED true
   let s : State := { s with stake := put natZero [] 0 k }
   let en := s.stakeE 0 0
   sound s = true ∧ s.alive (stPg 0 0) = true ∧ en = k ∧ s.mcUp 0 = true ∧
     (decide (skKind en = 1) && decide (skStack en < 3) && skLent en && decide (skPeer en = 1) && !(true && skWp en) && decide (1 / 16 = s.pkgId / 16)) = decide (k ≠ 0)) ∧
  (∀ wr ∈ [true, false], ∀ ev ∈ [none, some 3], let b : Borrow := ⟨0, wr, 1, 0, 0, 0, 1, 500, ev⟩
   let s := State.reset.setEng 0 2 { (State.reset.eng 0 2) with borrow := [b] }
   let s : State := { s with stake := [(0, 1)] }
   sound s = true ∧ (s.eng 0 2).borrow[0]? = some b ∧ (s.resolve 0 0 true false false matches .here _ _) = true ∧
     (List.replicate 4 (lineZero 0)).length = 4 * b.count) ∧
  (∀ k ∈ [0, 1], let s := ((State.reset.setUp (pciePg 0) .up).setUp (mcPg 0 0) .up).wb (mcPg 0 0) R.MC_STAT_TRAINED true
   let s : State := { s with stake := put natZero [] 0 k }
   sound s = true ∧ s.alive (pg (0x12 + 0) 0x10) = true ∧ s.mcUp 0 = true ∧ 31 % 32 + 1 ≤ 32 ∧ (s.resolve 0 31 true false false matches .here _ _) = decide (k = 1) ∧
     (s.resolve 0 31 true false false matches .bad _) = decide (k = 0) ∧
     (k = 1 → (hostLines 31 33 = 2 ∧ s.hostPlace (hostPart 31 33 0).1 false false = .inl (0, 0) ∧ s.hostPlace (hostPart 31 33 1).1 false false = .inl (0, 1)))) := by
  decide +kernel

/-- The collective engine of die 0 going, its page up, with one entry. -/
def ceOn (w : BitVec 128) : State :=
  (State.reset.setUp (cePg 0) .up).setCe 0 { (State.reset.ce 0) with on := true, sched := [(0, w)] }

theorem wit_Collective :
  (∀ op ∈ [0, 1, 2, 3, 4, 5, 6, 7, 8, 9, 12, 14, 15], ∀ p3 ∈ [0, 3], let s := ceOn (BitVec.ofNat 128 (op * 4096 + p3 * 2 ^ 74))
     let r : Desc := ⟨0, BitVec.ofNat 128 (op * 4096 + p3 * 2 ^ 74), 0#128, 0, 0⟩
     sound s = true ∧ s.ceOk 0 = true ∧ (s.ce 0).going = true ∧ dbits (look (fun _ => 0#128) (s.ce 0).sched 0) 12 4 = op ∧ r.cPort = p3 ∧
     (op < 12 → r.cLegal (s.ce 0) = decide (p3 = 0)) ∧ (s.ce 0).running = []) ∧
  (∀ op ∈ [10, 11], ∀ rk ∈ [[], [(0, 256 + 5)]], let w := BitVec.ofNat 128 (op * 4096 + 2 ^ 16)
     let s := (ceOn w).setCe 0 { ((ceOn w).ce 0) with ranks := rk }
     let r : Desc := ⟨0, w, 0#128, 0, 0⟩
     sound s = true ∧ s.ceOk 0 = true ∧ (s.ce 0).going = true ∧ r.cPort ≠ 3 ∧ r.cCount = 1 ∧ r.cCmb ≤ 4 ∧ (s.ce 0).sends.length < 16 ∧
       (decide (look natZero (s.ce 0).ranks r.cRank / 256 % 2 = 0) || decide (look natZero (s.ce 0).ranks r.cRank % 256 = s.rd pkg0 R.PKG_IDENT_PKG_ID)) = decide (rk = [])) ∧
  (let s := (ceOn 4096#128).setCe 0 { ((ceOn 4096#128).ce 0) with running := eight }
   s.ceOk 0 = true ∧ (s.ce 0).going = true ∧ 8 ≤ ((s.ce 0).running.filter fun q => decide (q.j < q.cCount)).length) ∧
  (let s := (ceOn 0#128).setCe 0 { ((ceOn 0#128).ce 0) with abort := true, unacked := [(1, 1)] }
   let s := s.wr (subPg 0 1) R.SB_STAT_STATE 5
   (s.ce 0).abort = true ∧ ∀ u ∈ (s.ce 0).unacked, s.rd (subPg (u.1 / 16) (u.1 % 16)) R.SB_STAT_STATE = 5) := by decide +kernel

theorem wit_CollectiveItems :
  ∀ op ∈ [1, 2, 3, 4, 5, 6, 7, 8, 9],
   let r : Desc := ⟨0, BitVec.ofNat 128 (op * 4096), 0#128, 4, 0⟩
   let s := (ceOn 0#128).setCe 0 { ((ceOn 0#128).ce 0) with running := [r] }
   let f := ((s.toCc 4).settleDie 0 4).ceSettle 0 4
   sound s = true ∧ s.ceOk 0 = true ∧ (s.ce 0).abort = false ∧ nextItem (s.ce 0).running = some r ∧ r.op = op ∧ r.start + r.j * r.cPeriod = 4 ∧
     (ceClash (f.ce 0).uses 4 (f.ceCost 0 r) r.idx).2 = [] := by decide +kernel

/-- Die 0's collective engine and its X port up, in a phase whose transmit and delivery slots are the engine's (code 16). -/
def xOn (x : Ce) (y : WlEnd) : State :=
  let p := wlPg 0 3
  let s := (((ceOn 0#128).setUp p .up).wr p R.WL_STAT_STATE 3).wr ((walePeer p).getD 0) R.WL_STAT_STATE 3
  (((s.setOd 0 { (s.od 0) with phaseOn := true, plans := [(3 * 4096, 16 + 256 * 16)] }).setCe 0 x).setWle p y).wr (osTop 0) R.OS_PROG_STAT_STATE 2

def plainTag (o : Nat) (last : Bool) : PTag := ⟨5, o, last, false, List.replicate 8 (lineZero 0)⟩

/-- A send whose turn it is; a slot with nothing buffered; a payload of an unposted message, past its receive's end, within it, and its last one; an abort. -/
theorem wit_SeberSlots :
  (let v : CeSend := ⟨0, 0, 5, 0, 4, 0, none, 1⟩
   let s := xOn { (State.reset.ce 0) with on := true, sends := [v] } { (State.reset.wle (wlPg 0 3)) with room := 65535 }
   let x := ((s.toCc 0).ceSettle 0 0).ce 0
   sound s = true ∧ s.ceOk 0 = true ∧ s.portAlive (wlPg 0 3) = true ∧ (s.wle (wlPg 0 3)).sent ≠ some 0 ∧ s.slotPlan 0 3 0 = (16, 16) ∧
     rrNext x.served (x.sends.filter (((s.toCc 0).ceSettle 0 0).sendable 0 x)) = (if (s.direct 0 5).isSome then some v else none)) ∧
  (∀ y ∈ [([], 2), ([[plainTag 2 false]], 2), ([[plainTag 2 true]], 2), ([[plainTag 2 false]], 1)],
   ∀ rs ∈ [[], [(⟨0, 0, 5, 0, 1, 0, [], none, 0⟩ : CeRecv)], [⟨0, 0, 5, 0, 4, 0, [0, 1, 3], none, 0⟩]],
   let s := (xOn { (State.reset.ce 0) with on := true, recvs := rs } { (State.reset.wle (wlPg 0 3)) with xbuf := y.1 }).wr (osTop 0) R.OS_PROG_STAT_STATE y.2
   let x := ((s.toCc 0).ceSettle 0 (0 - 1)).ce 0
   sound s = true ∧ s.ceOk 0 = true ∧ s.portAlive (wlPg 0 3) = true ∧ (s.slotPlan 0 3 0).2 = 16 ∧ (s.wle (wlPg 0 3)).drawn ≠ some 0 ∧
     (s.wle (wlPg 0 3)).xbuf = y.1 ∧ s.prog 0 = y.2 ∧ x.abort = false ∧
     (x.recvs.find? fun u => decide (u.pkg = 5) && decide (u.nth = look natZero x.messages 5)) = rs.head?) := by decide +kernel

/-! Border and time. -/

theorem wit_Border :
  (∀ b ∈ [true, false],
   let s : State := { (((on [pkg2]).wb pkg2 R.PKG_TIME_CTRL_ZEROED b).wb pkg2 R.PKG_TIME_CTRL_CHECK_EN true) with pins := { resetN := true }, pkgt := { lastEdge := some 0 }, clk := { tick := 99 } }
   let u := s.wb pkg2 R.PKG_TIME_CTRL_ARMED true
   sound s = true ∧ s.pins.resetN = true ∧ s.pkgt.lastEdge = some 0 ∧ (s.toTick 99).thaw.clk.tick < 0 + 100 ∧ ¬ ((s.toTick 100).thaw.clk.tick < 0 + 100) ∧
     s.clk.frozen = none ∧ s.clk.base ≤ s.clk.tick ∧ s.bit pkg2 R.PKG_TIME_CTRL_ZEROED = b ∧ s.bit pkg2 R.PKG_TIME_CTRL_ARMED = false ∧
     u.bit pkg2 R.PKG_TIME_CTRL_ARMED = true ∧ s.bit pkg2 R.PKG_TIME_STAT_STUCK = false ∧ s.bit pkg2 R.PKG_TIME_CTRL_CHECK_EN = true) := by decide +kernel

theorem wit_Audit :
  (∀ full ∈ [true, false], ∀ en ∈ [true, false],
   let s := (((on [pkg2]).setAu 0 { (State.reset.au 0) with held := some ⟨1, 2, 3, 4, 5, false⟩ }).wb pkg2 R.PKG_AUDIT_CTRL_EN en)
   let s := osDies.foldl (fun (t : State) d => t.wb (stPg d 0) R.ST_DLAT_STAT_FULL full) s
   sound s = true ∧ s.acting = some 0 ∧ (s.au 0).held = some ⟨1, 2, 3, 4, 5, false⟩ ∧ (osDies.all fun d => s.bit (stPg d 0) R.ST_DLAT_STAT_FULL) = full ∧
     (s.bit pkg2 R.PKG_AUDIT_CTRL_EN && !s.start.huabel) = en) := by decide +kernel

/-- Die 0 waiting at a border sync of a group of packages 5 (and its own, 0), its own arrival made; or not waiting. -/
def borderIn (waits : Bool) (x : Border) : State :=
  let s := State.reset.setUp (osTop 0) .up
  let s := s.setOd 0 { (s.od 0) with ready := if waits then some 4 else none, waitId := 0, syncs := [(0, 64)] }
  (s.setCe 0 { (s.ce 0) with ranks := [(0, 256), (1, 256 + 5)] }).setBord 0 x

theorem wit_Barrier :
  (let s := borderIn true { (State.reset.bord 0) with seq := 1, own := some 4 }
   let held := (s.bord 0).held ++ [⟨5, 1, 0, 9⟩]
   let got := held.filter fun (x : BArr) => decide (x.seq = 1) && (s.members 0).contains x.pkg
   sound s = true ∧ s.alive (osTop 0) = true ∧ s.atBorder 0 = true ∧ (s.bord 0).own = some 4 ∧ (s.bord 0).tr = none ∧ (s.bord 0).bad = false ∧
     s.members 0 = [5] ∧ (∀ m ∈ s.members 0, ∃ x ∈ got, x.pkg = m) ∧ (s.od 0).waitId = 0) ∧
  ((borderIn false {}).atBorder 0 = false ∧ (borderIn false {}).alive (osTop 0) = true) ∧
  (∀ w ∈ [true, false], let s := borderIn w { (State.reset.bord 0) with tr := some 7 }
   sound s = true ∧ s.alive (osTop 0) = true ∧ (s.bord 0).tr = some 7 ∧ s.atBorder 0 = w ∧ (s.bord 0).bad = false ∧ s.clk.frozen = none) := by decide +kernel

/-! Wale. -/

/-- Both ends of a link ALIVE (or `p`'s not), with a flit of a kind on the wire and one in the buffer; `sdie` is the die a side flit goes to. -/
def wireIn (p st sdie : Nat) (k : WKind) (ls : List FLine) : State :=
  let f : WireFlit := { kind := k, cyc := true, cc := 4, ccl := 4, lines := ls, sdie := sdie }
  (((State.reset.setUp p .up).wr p R.WL_STAT_STATE st).wr ((walePeer p).getD 0) R.WL_STAT_STATE 3).setWle p { (State.reset.wle p) with wire := [f], rx := [f] }

/-- E of die 0, X of die 0, X of Weft die 0 and H: every kind of flit, the port ALIVE or not, with and without a correctable, an uncorrectable or a slip. -/
theorem wit_WaleFlits :
  (∀ p ∈ [wlPg 0 0, wlPg 0 3, pg 8 0x40, wlPg 0 4], ∀ st ∈ [3, 4], ∀ k ∈ [WKind.idle, .side, .prog, .null, .empty],
   let s := wireIn p st 3 k [lineZero 0, lineZero 0, lineZero 0, lineZero 0]
   let w := s.wle p
   sound s = true ∧ s.alive p = true ∧ w.wire.length = 1 ∧ w.rx.length < 32 ∧ s.portAlive p = decide (st = 3) ∧
     (w.wire.head?.map fun f => (f.kind, f.cyc, f.sdie)) = some (k, true, 3) ∧
     (w.wire.head?.map fun f => decide (f.ccl = (f.cc + (w.off + 0)) % 16)) = some true ∧ (w.wire.head?.map fun f => decide (f.ccl = (f.cc + (w.off + 1)) % 16)) = some false ∧
     (w.wire.head?.map WireFlit.tags) = some [] ∧ s.ceDrops 0 = true ∧ (s.wr (osTop 0) R.OS_PROG_STAT_STATE 2).ceDrops 0 = false ∧
     s.sideNext 0 3 ≠ [] ∧ (dieOf (wlPg 3 0)) = 3) ∧
  (timedEnd (wlPg 0 0) = true ∧ isEWV (wlPg 0 0) = true ∧ timedEnd (wlPg 0 3) = false ∧ isH (wlPg 0 3) = false ∧ timedEnd (pg 8 0x40) = true ∧ isH (wlPg 0 4) = true ∧
     codeFix 64 8 [0] = some ([], some 0) ∧ codeFix 64 8 [0, 1] = none) := by decide +kernel

/-- PROGRAM_FLIT_RELEASE: the slot plan names a destination or none; a flit with a request or without; a port that is down while its die runs. -/
theorem wit_FlitRelease :
  (∀ d1 ∈ [2, 31], let s := wireIn (wlPg 0 0) 3 0 .prog []
   let s := s.setOd 0 { (s.od 0) with phaseOn := true, plans := [(4 + 12, d1 * 256)] }
   sound s = true ∧ timedEnd (wlPg 0 0) = true ∧ s.portAlive (wlPg 0 0) = true ∧ ((s.wle (wlPg 0 0)).rx.map fun f => (f.kind, f.cc, f.req)) = [(.prog, 4, none)] ∧
     (s.od 0).phaseOn = true ∧ progSlot (4 + 12) = true ∧ s.slotPlan 0 0 (4 + 12) = (0, d1)) ∧
  (let s := (State.reset.wr (osTop 0) R.OS_PROG_STAT_STATE 2).setOd 0 { (State.reset.od 0) with phaseOn := true }
   sound s = true ∧ s.prog 0 = 2 ∧ s.alive (wlPg 0 0) = false ∧ (s.slotPlan 0 0 s.clk.cc).2 ≠ 31 ∧ s.arrivals = []) := by decide +kernel

theorem wit_WaleTraining :
  (let p := wlPg 0 0
   let q := (walePeer p).getD 0
   walePeer p = some q ∧ p ≠ q ∧ (∀ st ∈ [1, 2, 3], ∀ st2 ∈ [1, 2, 4], ∀ ph ∈ [1, 2, 3, 4, 5],
     let s := (((State.reset.setUp p .up).wr p R.WL_STAT_STATE st).wr p R.WL_STAT_PHASE ph).wr q R.WL_STAT_STATE st2
     let s := s.setWle p { (s.wle p) with wire := [{ kind := .train, cyc := false, cc := 0 }] }
     sound s = true ∧ s.alive p = true ∧ s.rd p R.WL_STAT_STATE = st ∧ s.rd p R.WL_STAT_PHASE = ph ∧ s.rd q R.WL_STAT_STATE = st2 ∧
       ((s.wle p).wire.map WireFlit.kind) = [.train])) ∧
  (assignRepairs [] (State.reset.wle 0) [] = some (State.reset.wle 0) ∧ assignRepairs [(0, 3)] (State.reset.wle 0) [(0, 5)] = none) ∧
  (∀ m ∈ [0, 63], ∀ tok ∈ [0, 1], let p := wlPg 0 0
   let q := (walePeer p).getD 0
   let s := ((((State.reset.setUp p .up).wr p R.WL_STAT_STATE 2).wr q R.WL_STAT_STATE 2).wr p R.WL_TOKEN_LOCAL tok).setWle p { (State.reset.wle p) with matched := m }
   sound s = true ∧ s.alive p = true ∧ (s.wle p).matched = m ∧ decide (s.wlToken q = s.rd p R.WL_TOKEN_LOCAL) = decide (tok = 0)) := by decide +kernel

/-! Snapshots and commits. -/

theorem wit_SnapshotProtocol :
  (let r : SnapRun := ⟨1, 500, [3], [4], [], false⟩
   let s : State := { on [pkg0] with snaps := [(0, some r)] }
   sound s = true ∧ s.snapRun 0 = some r ∧ r.sent.contains 3 = true ∧ s.answers 3 = true ∧ s.joined 0 3 = true ∧ s.clk.tick < r.target ∧ s.acts 0 = true ∧
     r.done.contains 3 = false ∧ s.stagePages 3 ≠ []) ∧
  (let r : SnapRun := ⟨1, 0, [3], [], List.range 20, false⟩
   let s : State := { on [pkg0] with snaps := [(0, some r)] }
   s.snapRun 0 = some r ∧ r.target ≤ s.clk.tick ∧ r.sent.contains 3 = true ∧ s.answers 3 = true ∧ s.joined 0 3 = true ∧ s.acts 0 = true ∧
     ∀ x, x < 20 → r.done.contains x = true) := by decide +kernel

theorem wit_StagedCommitProtocol :
  (let s : State := { on [pkg0] with com := { prep := [3], answers := [(3, 0)], mark := [3], frozen := [(3, 7)], discard := [3] } }
   sound s = true ∧ s.acting = some 0 ∧ s.com.prep.contains 3 = true ∧ s.joined 0 3 = true ∧ s.answers 3 = true ∧ look natZero s.cad.epochs 3 ≤ s.hpEpoch 0 ∧
     (s.discardIn 3).answers 3 = true ∧ s.com.mark.contains 3 = true ∧ s.com.discard.contains 3 = true ∧
     (s.com.frozen.any fun x => decide (x.1 = 3)) = true ∧ s.com.frozen.find? (fun y => decide (y.1 = 3)) = some (3, 7) ∧
     s.com.answers.find? (fun y => decide (y.1 = 3)) = some (3, 0) ∧ s.stageSt ≠ 2 ∧ s.com.armed.contains 3 = false) ∧
  (let s := { (on [pkg0]).wr pkg0 R.PKG_STAGE_STAT_STATE 2 with com := { taken := [(3, 0)] } }
   s.stageSt = 2 ∧ (s.com.taken.any fun z => decide (z.1 = 4)) = false) ∧
  (let t : State := { on [pkg0] with ring := { hops := [(3, ringPos (held 0)), (3, (ringPos (held 0) + 19) % 20)] }, com := { prep := [3] } }
   t.com.prep.contains 3 = true ∧ t.acting = some 0 ∧ t.joined 0 3 = false ∧ 3 ≠ held 0) ∧
  (let s := { (on [pkg0]).wr pkg0 R.PKG_STAGE_STAT_STATE 2 with com := { taken := (List.range 19).map fun d => (d, 0), answers := [(19, 1)] } }
   s.stageSt = 2 ∧ (s.com.taken.any fun z => decide (z.1 = 19)) = false ∧ s.com.answers.find? (fun y => decide (y.1 = 19)) = some (19, 1) ∧
     ∀ y, y < 20 → ((s.com.taken ++ [(19, 1)]).any fun z => decide (z.1 = y)) = true) ∧
  (let s := { (on [pkg0]).wr pkg0 R.PKG_STAGE_STAT_STATE 3 with com := { armed := [3] } }
   s.stageSt = 3 ∧ s.com.mark = [] ∧ s.com.armed ≠ []) := by decide +kernel

/-! Optics. -/

/-- Plane 0 of Weft die 0 enabled, its pages up, lane (0, 0, DIR) as given. -/
def laneIn (dir : Nat) (x : Lane) : State :=
  (((((on [pkg0]).setUp (wfTop 0) .up).setUp (fibPg 0 0) .up).wr (wfTop 0) R.WF_PLANE_EN_EN 1).wr (wfTop 0) R.WF_LASER_ON_ON 1).setLane 0 0 0 dir x

theorem wit_Lanes :
  (∀ st ∈ [LaneSt.parked, .acquire, .slip, .locked, .dark, .frozen], ∀ swp ∈ [true, false], ∀ dir ∈ [0, 1], ∀ en ∈ [0, 1],
    let s := (laneIn dir { st := st, lit := true, sync := true, sweeping := swp, hist := [(0, 9)], dfrz := swp }).wr (wfTop 0) R.WF_PLANE_EN_EN en
    sound s = true ∧ s.laneUp 0 0 0 dir = true ∧ s.planeOn 0 0 = decide (en = 1) ∧ (s.lane 0 0 0 dir).st = st ∧ (s.lane 0 0 0 dir).sync = true ∧
      s.acting = some 0 ∧ (s.rd (wfTop 0) R.WF_LASER_ON_ON).testBit 0 = true ∧ s.rd (fibPg 0 0) R.PG_EPOCH_EPOCH ≤ s.hpEpoch 0 ∧
      ((s.wr (fibPg 0 0) R.PG_EPOCH_EPOCH 9).hpEpoch 0 < (s.wr (fibPg 0 0) R.PG_EPOCH_EPOCH 9).rd (fibPg 0 0) R.PG_EPOCH_EPOCH)) ∧
  (∀ h ∈ [90, 10], let s : State := { laneIn 0 { st := .locked, heat := h, hist := [(0, 9)] } with clk := { tick := 1000000 } }
   ((s.lane 0 0 0 0).hist.filter fun x => decide (x.1 + 1000000 ≤ s.clk.tick)).getLast? = some (0, 9) ∧
     decide ((h - 9) + (9 - h) ≤ s.rd (wfTop 0) R.WF_RING_PLAUS_STEP) = decide (h = 10)) ∧
  (∀ b ∈ [true, false], let s := ((laneIn 1 { st := .locked }).setWf 0 { on0 := some 0 }).setFibre 0 0 { (State.reset.fibre 0 0) with spent := b }
   sound s = true ∧ (s.wf 0).on0 = some 0 ∧ s.planeOn 0 0 = true ∧ (s.fibre 0 0).spent = b ∧ (s.lane 0 0 0 1).st = .locked ∧ bits 0x4C 0 8 = 0x4C ∧ bits 0x4D 0 8 ≠ 0x4C) := by
  decide +kernel

/-- Recomputation of a Weft die and of a Reed die, whose sensors have moved or not since the last commit. -/
theorem wit_Calibration :
  (∀ m ∈ [true, false],
    let s := ((on []).setUp (wfTop 1) .up).setUp (rdTop 1) .up
    let ts (d : Nat) : List Int := if m then [] else (List.range 8).map (s.reading d)
    let s := (s.setWf 1 { armed := true, calT := ts 9, calAt := some 3 }).setReed 1 { armed := true, calT := ts 0x11, calAt := some 3 }
    sound s = true ∧ s.alive (pg 9 0) = true ∧ s.alive (wfTop 1) = true ∧ s.alive (rdTop 1) = true ∧ s.acting = some 0 ∧
      s.rd (wfTop 1) R.PG_EPOCH_EPOCH ≤ s.hpEpoch 0 ∧ s.rd (rdTop 1) R.PG_EPOCH_EPOCH ≤ s.hpEpoch 0 ∧ s.rd (pg 9 0) R.PG_EPOCH_EPOCH ≤ s.hpEpoch 0 ∧
      calMoved (s.calLast 9).1 ((List.range 8).map (s.reading 9)) = m ∧ calMoved (s.wf 1).calT ((List.range 8).map (s.reading 9)) = m ∧
      calMoved (s.reed 1).calT ((List.range 8).map (s.reading 0x11)) = m ∧ (s.wf 1).armed = true ∧ (s.reed 1).armed = true) := by decide +kernel

theorem wit_Lasers :
  (∀ st ∈ [0, 1, 2, 3], ∀ off ∈ [true, false],
    let s := (((((((on []).setUp (rdTop 1) .up).setUp (rdPg 1 3) .up).wr (rdPg 1 3) R.RD_L_STAT_STATE st).setReed 1
      { lightAt := some 5, groups := 3 }).wb (rdTop 1) R.RD_CTRL_LIGHT_OK true).wb (rdTop 1) R.RD_CTRL_ALL_OFF off)
   sound s = true ∧ s.alive (rdTop 1) = true ∧ s.alive (rdPg 1 3) = true ∧ s.bit (rdTop 1) R.RD_CTRL_LIGHT_OK = true ∧
     (s.reed 1).lightAt = some 5 ∧ (s.reed 1).groups < 4 ∧ s.rd (rdPg 1 3) R.RD_L_STAT_STATE = st ∧ s.bit (rdTop 1) R.RD_CTRL_ALL_OFF = off ∧
     s.bankFailed 1 12 = false ∧ s.rd (rdPg 1 12) R.RD_L_STAT_STATE = 0 ∧
     (let tgt := s.rd (rdTop 1) R.RD_PWR_TGT_MW * 10
      20 * ((tgt - tgt) + (tgt - tgt)) ≤ tgt ∧ 0 * 100 < tgt * s.rd (rdTop 1) R.RD_PWR_TGT_LOW_PCT ∧ 0 * 100 < tgt * s.rd (rdTop 1) R.RD_PWR_TGT_FAIL_PCT ∧
      (s.laserSt 1 3).since + s.rd (rdTop 1) R.RD_WARM_MS * 100000 ≤ 2 ^ 40 ∧ ¬ 4000 * 100 < tgt * s.rd (rdTop 1) R.RD_PWR_TGT_FAIL_PCT)) := by decide +kernel

/-! Seber. -/

/-- Sub-link (0, 3) in a state, its pages up, EN set, with all lanes LOCKED. -/
def subIn (st : Nat) (x : SubLink) : State :=
  let s := ((((((on [pkg0]).setUp (sbPg 0) .up).setUp (subPg 0 3) .up).wb (sbPg 0) R.SB_COM_CTRL_EN true).wr (sbPg 0) R.SB_COM_ID_POD_SIZE 16).wr (subPg 0 3) R.SB_STAT_STATE st).setSub 0 3 x
  ((s.setLane 0 0 3 0 { st := .locked, lit := true }).setLane 0 0 13 1 { st := .locked, lit := true, sync := true })

def cellOf (typ : Nat) (c : Cell) : Cell := { { c with typ := typ } with crc := cellSum { c with typ := typ } }

def plain : Cell := ⟨0, 0, 0, 0, 0, false, false, false, 0, 0, 0, [], 0, 0, 0⟩

theorem cellOf_good (typ : Nat) (c : Cell) : (cellOf typ c).crc = cellSum (cellOf typ c) ∧ (cellOf typ c).typ = typ := by
  simp [cellOf, cellSum, cellHeader]

theorem wit_SeberBadCell : (plain.crc ≠ cellSum plain) ∨ ({ plain with crc := 1 } : Cell).crc ≠ cellSum { plain with crc := 1 } := by
  have : cellSum { plain with crc := 1 } = cellSum plain := by simp [cellSum, cellHeader]
  rw [this]; by_cases h : cellSum plain = 0 <;> simp [plain] <;> omega

theorem wit_SeberCells :
  (∀ st ∈ [1, 2, 3, 4], let s := subIn st { change := none }
    sound s = true ∧ s.sbHears 0 3 = true ∧ s.rd (subPg 0 3) R.SB_STAT_STATE = st ∧ s.txOk 0 3 = 1 ∧ s.rxOk 0 3 = 1) ∧
  (subIn 0 {}).sbHears 0 3 = false := by decide +kernel

theorem wit_SeberTrain :
  let s := subIn 1 {}
  let v := s.peerPkg 0 3 + 13 * 2 ^ 12 + 2 ^ 16 + s.rd (sbPg 0) R.SB_COM_CTRL_CLUSTER * 2 ^ 17 + s.rd (sbPg 0) R.SB_COM_ID_POD_SIZE * 2 ^ 24 + 2 ^ 32
  let b := cellBits { plain with lines := [⟨BitVec.ofNat 256 v, false⟩] }
  bits b 0 8 = s.peerPkg 0 3 ∧ bits b 8 3 = 0 ∧ bits b 12 4 = (16 - 3) % 16 ∧ bits b 17 1 = s.rd (sbPg 0) R.SB_COM_CTRL_CLUSTER ∧
    bits b 24 5 = s.rd (sbPg 0) R.SB_COM_ID_POD_SIZE ∧ bits b 16 1 = 1 ∧ bits b 32 16 &&& s.txOk 0 3 ≠ 0 ∧ s.sbHears 0 3 = true := by
  decide +kernel

theorem wit_SeberOrder :
  (let s := (subIn 3 {}).wr (subPg 0 3) R.SB_RSEQ_CUMACK 5
   let c : Cell := { plain with seq := 5 }
   c.epoch = s.rd (subPg 0 3) R.SB_EPOCH_RX ∧ c.seq = s.rd (subPg 0 3) R.SB_RSEQ_CUMACK ∧ (s.sub 0 3).got = [] ∧ (s.sub 0 3).pool = [] ∧
     c.dst = s.rd pkg0 R.PKG_IDENT_PKG_ID ∧ c.rdie = 0 ∧ 65536 - 4096 ≤ (4 + 65536 - s.rd (subPg 0 3) R.SB_RSEQ_CUMACK) % 65536) ∧
  (let s := (subIn 3 {}).wr (subPg 0 3) R.SB_TSEQ_NEXT 4
   0 < seqDist (s.rd (subPg 0 3) R.SB_TSEQ_OLDEST) 3 ∧ seqDist (s.rd (subPg 0 3) R.SB_TSEQ_OLDEST) 3 ≤ seqDist 0 (s.rd (subPg 0 3) R.SB_TSEQ_NEXT)) ∧
  (let s := subIn 3 { change := none }
   let c : Cell := { plain with lines := [⟨BitVec.ofNat 256 (1 + 2 ^ 16 + 2 ^ 21 + (1 - s.txDir 0 3) * 2 ^ 20), false⟩] }
   (cellLs c).commit = true ∧ (cellLs c).dir ≠ s.txDir 0 3 ∧ (cellLs c).epoch = (s.rd (subPg 0 3) R.SB_EPOCH_RX + 1) % 16 ∧ (cellLs c).map = 1) ∧
  (let o : LsOpen := ⟨true, 0, 1, 1, 0, true, 3, 9⟩
   let s := (subIn 3 { change := some o }).wr pkg0 R.PKG_IDENT_PKG_ID 0x0F
   (s.sub 0 3).change = some o ∧ s.peerPkg 0 3 < s.rd pkg0 R.PKG_IDENT_PKG_ID) := by decide +kernel

theorem wit_SeberSends :
  (let s := subIn 1 {}
   sound s = true ∧ s.sbOk 0 3 = true ∧ (s.sbWake 0 3).sbHears 0 3 = true ∧ (s.sbWake 0 3).rd (subPg 0 3) R.SB_STAT_STATE = 1) ∧
  (let s := ((subIn 3 { queue := [(plain, false)], txLim := [64, 256, 64, 32], txCnt := [0, 0, 0, 0], replay := [⟨plain, 0, false⟩], got := [1] }).wr (subPg 0 3)
     R.SB_MAP_TX 1).wr (subPg 0 3) R.SB_MAP_RX 1
   let e := s.sbTakeIn 0
   (e.sub 0 3).pickClass = some 0 ∧ nextLane (s.rd (subPg 0 3) R.SB_MAP_TX) (e.sub 0 3).lane = some 0 ∧
     (e.sub 0 3).queue.find? (fun c => decide (c.1.cls = 0)) = some (plain, false) ∧ s.sbUp 0 3 = true ∧ (s.sub 0 3).replay ≠ [] ∧ (s.sub 0 3).got ≠ [] ∧
     (s.rd (subPg 0 3) R.SB_MAP_RX).testBit 0 = true ∧ swf sbLaneZero (s.sub 0 3).lanes = true ∧
     ([(s.sub 0 3).txEmptyAt, (s.sub 0 3).rxEmptyAt, some (s.sub 0 3).oldAt].filterMap id) = [0] ∧ 64 ≤ s.bulkFree 0 ∧
     s.sbOk 0 3 = true ∧ s.rd (subPg 0 3) R.SB_STAT_STATE = 3 ∧ (s.sub 0 3).granted + 64 ≤ 4096) ∧
  (∀ cls ∈ [0, 1], let c : Cell := { plain with cls := cls }
   let s := ((((subIn 3 { pool := [⟨0, c⟩] }).wr (subPg 0 3) R.SB_RSEQ_CUMACK 1).wr (pg 8 0x40) R.WL_STAT_STATE 3).wr (wlPg 0 3) R.WL_STAT_STATE 3).setWle (pg 8 0x40)
     { (State.reset.wle (pg 8 0x40)) with xcredit := 1 }
   let e := s.sbForward 0 3 256
   sound s = true ∧ s.sbOk 0 3 = true ∧ (e.wle (pg 8 0x40)).xcredit ≠ 0 ∧ e.portAlive (pg 8 0x40) = true ∧ (e.sbDue 0 3 cls 1 0).2 = [c] ∧
     (e.sbDue 0 3 (1 - cls) 1 0).2 = []) ∧
  (let s := subIn 3 { change := some ⟨true, 0, 1, 1, 0, true, 3, 9⟩ }
   s.sbOk 0 3 = true ∧ s.sbUp 0 3 = true ∧ (s.sub 0 3).change = some ⟨true, 0, 1, 1, 0, true, 3, 9⟩ ∧ ((s.sbForward 0 3 256).wle (pg 8 0x40)).xcredit = 0) ∧
  (let s := (subIn 3 { lanes := [(0, { retired := true, allowed := true })] }).setLane 0 0 13 1
     { st := .locked, lit := true, sync := true, testBits := 2 ^ 20 }
   let l := (s.sub 0 3).lane' 0
   l.retired = true ∧ l.allowed = true ∧ swf sbLaneZero (s.sub 0 3).lanes = true ∧ (s.lane 0 0 13 1).ok = true ∧ (s.lane 0 0 13 1).sync = true ∧
     2 ^ max 30 (min 40 (s.rd (sbPg 0) R.SB_RTN_LOG2_BITS)) ≤ (2 ^ 20 - l.bits0) * 2 ^ 20 ∧ 0 - l.errs0 ≤ s.rd (sbPg 0) R.SB_RTN_ERR) ∧
  (let s := subIn 4 { peerDrain := true }
   s.sbOk 0 3 = true ∧ s.rd (subPg 0 3) R.SB_STAT_STATE = 4 ∧ (s.sub 0 3).queue = [] ∧ (s.sub 0 3).replay = [] ∧ (s.sub 0 3).peerDrain = true) ∧
  (subIn 2 {}).rd (subPg 0 3) R.SB_STAT_STATE = 2 := by decide +kernel

/-! The Twine ring and the Hoop pair. -/

/-- A Hoop role set on `on [..]` for Hoop `h`. -/
def roleIn (h r : Nat) (x : HoopSt) : State := ((on [pkg0, hpTop 1]).wr (hpTop h) R.HP_ROLE_ROLE r).setHoop h x

theorem wit_TwineFrames :
  (let f : TwFrame := twSealed { typ := 1, src := 0x12, dst := 3, seq := 0, page := 0, off := 0x150, data := 7, epoch := 0 }
   let s := on [osTop 3]
   let x := look pairZero s.ring.pairs (f.src * 32 + f.dst)
   sound s = true ∧ isHoop f.src = true ∧ s.answers f.dst = true ∧ f.src ≠ f.dst ∧ f.dst < 20 ∧ f.crc = twSum f ∧ ({ f with crc := f.crc + 1 } : TwFrame).crc ≠ twSum f ∧ f.typ < 14 ∧ f.typ ≠ 2 ∧
     s.gated 0 = false ∧ s.joined 0 3 = true ∧
     f.seq % 65536 = x.next ∧ x.held = [] ∧ 32768 ≤ (65535 + 65536 - x.next) % 65536 ∧ (1 + 65536 - x.next) % 65536 < 32768) ∧
  (let f : TwFrame := { typ := 2, src := 0x12, dst := 3, seq := 1, page := 0, off := 0x150, data := 7, epoch := 0 }
   let s : State := { on [hpTop 0] with ring := { pairs := [(0x12 * 32 + 3, { held := [f] })], resps := [⟨0, 96, 0x150, 7⟩], raises := [(3, 9)] },
                                        notes := [(8, .laser 0 1 true)] }
   sound s = true ∧ (look pairZero s.ring.pairs (0x12 * 32 + 3)).held = [f] ∧ (s.ring.resps.find? fun r => decide (r.hoop = 0)) ≠ none ∧
     s.ring.raises.find? (fun r => decide (r.1 = 3)) = some (3, 9) ∧ s.notes.find? (fun n => decide (n.1 = 8)) = some (8, .laser 0 1 true) ∧
     s.alive (hpTop 0) = true ∧ (3, ringPos 3) ∉ s.ring.hops ∧ ringDies.getD (ringPos 3) 32 = 3 ∧ s.joined 0 3 = true) ∧
  (let s : State := { on [hpTop 0] with ring := { hops := [(3, ringPos 0x12), (3, (ringPos 0x12 + 19) % 20)], raises := [(0x12, 9)] } }
   sound s = true ∧ s.joined 0 3 = false ∧ s.ring.raises.find? (fun r => decide (r.1 = 0x12)) = some (0x12, 9) ∧ isHoop 0x12 = true ∧ s.acts 0 = true ∧ s.hpEpoch 0 < 9) ∧
  (let s : State := { on [hpTop 0] with notes := [(0x12, .align 4 true)] }
   s.notes.find? (fun n => decide (n.1 = 0x12)) = some (0x12, .align 4 true) ∧ s.hoopUp 0 = true) := by decide +kernel

theorem wit_HoopRoles :
  (∀ h ∈ [0, 1], ∀ r ∈ [0, 1, 2, 3, 4], let s := (roleIn h r { granted := some 5, rebootAt := some 3, soloAt := if h = 0 then some 4 else none })
     sound s = true ∧ s.alive (hpTop h) = true ∧ s.role h = r) ∧
  (let s := (roleIn 0 0 {}).wb (hpTop 0) R.HP_SOLO_EN true
   s.role 0 = roleStandby ∧ s.bit (hpTop 0) R.HP_SOLO_EN = true ∧ (s.hoop 0).soloAt = none ∧ s.bit (hpTop 0) R.HP_ROLE_PEER_ALIVE = false) ∧
  ((roleIn 0 roleSolo {}).drives 0 = true ∧ (roleIn 0 roleSolo {}).acts 0 = true) ∧
  (let s := (roleIn 0 roleSolo {}).wb (hpTop 0) R.HP_ROLE_OVERLAP true
   s.acts 0 = true ∧ s.bit (hpTop 0) R.HP_ROLE_OVERLAP = true) ∧
  (let s := (roleIn 1 roleStandby {}).wb (hpTop 1) R.HP_ROLE_PEER_ALIVE true
   s.bit (hpTop 1) R.HP_ROLE_PEER_ALIVE = true) ∧
  (let f : HbFrame := ⟨1, 1, false, true, 0, 2, 2, 5⟩
   let s : State := { roleIn 1 roleActive {} with ring := { hbs := [f] } }
   s.ring.hbs.find? (fun f => decide (f.dst = 1)) = some f ∧ s.acts 1 = true ∧ s.hpEpoch 1 < max f.epoch f.seen) := by decide +kernel

theorem wit_Mirror :
  (∀ f ∈ [MirFrame.data 1 0 32 0 [1, 2], .commit 1 1 7 0 0 (crc32c [])], let s : State := { roleIn 1 roleStandby {} with ring := { mirs := [f] } }
     sound s = true ∧ s.ring.mirs.find? (fun f => decide (f.dst = 1)) = some f ∧ s.hpSeen 1 ≤ 0 ∧ s.rd (hpTop 1) R.HP_MIR_SEQ < 7) := by decide +kernel

/-! Faults. -/

theorem wit_Faults :
  (let s := on [wfTop 1]
   (s.rd (wfTop 1) R.PG_FMASK_MASK).testBit 3 = false ∧ (s.rd (wfTop 1) R.PG_FSTAT_SRC).testBit 3 = false ∧ sound s = true) ∧
  (let s := (on [wfTop 1]).wr (wfTop 1) R.PG_FMASK_MASK 8
   (s.rd (wfTop 1) R.PG_FMASK_MASK).testBit 3 = true) ∧
  (let s := ((on [wfTop 1]).wr (wfTop 1) R.PG_FSTAT_SRC 8).setPage (wfTop 1) { ((on [wfTop 1]).page (wfTop 1)) with pendRep := [(3, 2)] }
   (s.rd (wfTop 1) R.PG_FMASK_MASK).testBit 3 = false ∧ (s.rd (wfTop 1) R.PG_FSTAT_SRC).testBit 3 = true ∧ (s.page (wfTop 1)).up ≠ .never ∧
     look natZero (s.page (wfTop 1)).pendRep 3 ≠ 0) := by decide +kernel

theorem wit_TimersAndAcknowledgments :
  (∀ b ∈ [true, false], let s := (on [osTop 1]).setPage (osTop 1) { ((on [osTop 1]).page (osTop 1)) with timers := [⟨3, 500, b⟩], ended := [4] }
     let g : GTimer := ⟨3, 500, b⟩
     sound s = true ∧ s.timerOf (osTop 1) 3 = some g ∧ isHoop (dieOf (osTop 1)) = false ∧ dieOf (osTop 1) ≠ 0x1F ∧ pageBlk (osTop 1) = some .os ∧
       s.alive (osTop 1) = true ∧ s.timerOf (osTop 1) 4 = none ∧ 4 ∈ (s.page (osTop 1)).ended ∧ s.clk.tick < g.ends ∧ 5 ∉ (s.page (osTop 1)).ended ∧
       s.timerOf (osTop 1) 5 = none ∧ (({ s with clk := { tick := 500 } } : State).timerOf (osTop 1) 3) = some g ∧ g.ends ≤ 500) := by decide +kernel

theorem wit_AcknowledgmentsAndRecords :
  (∀ e ∈ [0, 7], let s : State := { (on [osTop 1]).wr (osTop 1) R.PG_EPOCH_EPOCH e with acks := [⟨0, osTop 1, 3, 0, 5⟩] }
     sound s = true ∧ s.acks.find? (fun a => decide (a.hoop = 0)) = some ⟨0, osTop 1, 3, 0, 5⟩ ∧ (pageBlk (osTop 1)).isSome = true ∧ (s.page (osTop 1)).up ≠ .never ∧
       decide (0 < s.rd (osTop 1) R.PG_EPOCH_EPOCH) = decide (e = 7)) ∧
  (let f : FaultRec := ⟨0, 1, 0, 3, 2, .detect, 0, 1, 0, 0, 0⟩
   let s : State := { on [faultPg 0] with flt := { flight := [(0, f)] }, ring := { hops := [(1, ringPos 0x12), (1, (ringPos 0x12 + 19) % 20)] } }
   sound s = true ∧ s.flt.flight.find? (fun f => decide (f.1 = 0)) = some (0, f) ∧ s.joined 0 1 = false) ∧
  (let f : FaultRec := ⟨0, 1, 0, 3, 2, .detect, 0, 1, 0, 0, 0⟩
   let s : State := { on [faultPg 0] with acks := [⟨0, osTop 1, 3, 0, 5⟩], flt := { flight := [(0, f)], haltNotices := [(3, 9), (0x12, 9)] } }
   sound s = true ∧ s.acks.find? (fun a => decide (a.hoop = 0)) = some ⟨0, osTop 1, 3, 0, 5⟩ ∧ s.flt.flight.find? (fun f => decide (f.1 = 0)) = some (0, f) ∧
     s.flt.haltNotices.find? (fun n => decide (n.1 = 3)) = some (3, 9) ∧ s.flt.haltNotices.find? (fun n => decide (n.1 = 0x12)) = some (0x12, 9) ∧
     s.hoopUp 0 = true ∧ s.joined 0 1 = true ∧ s.bit (faultPg 0) R.FAULT_INT_PEND = false ∧ s.alive (faultPg 0) = true ∧ s.acts 0 = true ∧
     (s.page (osTop 1)).up = .never ∧ s.role 0 ≠ roleFailed) := by decide +kernel

/-! Host interface. -/

/-- Hoop 0's endpoint and queue `q` up, the queue as given. -/
def sqIn (q : Nat) (x : Sq) : State := (on [pciePg 0, sqPg 0 q]).setSq 0 q x

theorem wit_SlewQueues :
  (∀ q ∈ [5, 70], ∀ d ∈ [true, false], let s := sqIn q { drop := d }
     sound s = true ∧ s.alive (pciePg 0) = true ∧ s.alive (sqPg 0 q) = true ∧ (s.sq 0 q).drop = d ∧ (s.sq 0 q).flushing = none ∧ (s.sq 0 q).reg = [] ∧
       0 < (s.sq 0 q).free ∧ (s.sq 0 q).rest = [] ∧ (s.dma 0 q).active = none ∧ (s.sq 0 q).drain = []) ∧
  (let l : SqLine := ⟨[1, 2, 3, 4, 5, 6, 7], true, true, false, 56, false, 0, 0⟩
   let s := sqIn 70 { fill := [l], reg := [1, 2, 3, 4, 5, 6], flushing := some 9, used := 10000 }
   sound s = true ∧ (s.sq 0 70).fill ≠ [] ∧ (s.sq 0 70).drain = [] ∧ (s.sq 0 70).reg.length = 6 ∧ (s.sq 0 70).flushing = some 9 ∧ (s.sq 0 70).free = 0 ∧
     (s.sq 0 70).free < ([1].length + 6) / 7) ∧
  (∀ n ∈ [0, 1], ∀ u ∈ [0, 10000], let s := sqIn 5 { reg := [1, 2, 3, 4, 5, 6], lines := n, used := u }
   sound s = true ∧ (s.sq 0 5).drop = false ∧ (s.sq 0 5).flushing = none ∧ (s.sq 0 5).reg.length = 6 ∧ (s.sq 0 5).lines = n ∧ decide ((s.sq 0 5).free = 0) = decide (u = 10000)) ∧
  (let s := sqIn 70 { reg := [1], rest := [2, 3], inside := true }
   sound s = true ∧ (s.sq 0 70).rest ≠ [] ∧ (s.sq 0 70).reg.length + (s.sq 0 70).rest.length ≤ 7 ∧ (s.sq 0 70).drop = false ∧ (s.sq 0 70).flushing = none ∧
     0 < (s.sq 0 70).free) ∧
  (let s := sqIn 70 { drain := [⟨[1, 2, 3, 4, 5, 6, 7], true, true, false, 56, false, 0, 0⟩] }
   sound s = true ∧ (s.sq 0 70).drain ≠ []) := by decide +kernel

theorem wit_EndpointAndDma :
  (let l : SqLine := ⟨[0, 0, 8, 0, 0, 0, 0], true, true, false, 32, false, 0, 0⟩
   let s := ((sqIn 5 { drain := [l] }).wr (pciePg 0) R.PCIE_DMA_CTRL_EN 0xFF)
   sound s = true ∧ (s.rd (pciePg 0) R.PCIE_DMA_CTRL_EN).testBit 5 = true ∧ (s.rd (pciePg 0) R.PCIE_DMA_CTRL_STOPPED).testBit 5 = false ∧
     (s.dma 0 5).active = none ∧ (s.dma 0 5).skip = false ∧ (s.sq 0 5).drain[(s.sq 0 5).rd]? = some l ∧ dmaGood (l.words.take 4) = true ∧ l.vbytes = 32 ∧
     dmaGood [0, 0, 7, 0] = false) ∧
  (∀ out ∈ [0, 1], let d := [0, 0, 8 + out * 2 ^ 32, 0]
   let s := (((sqIn 5 {}).setUp (mcPg 0 0) .up).wb (mcPg 0 0) R.MC_STAT_TRAINED true).setDma 0 5 { active := some d }
   let s : State := { s with stake := [(0, 1)] }
   sound s = true ∧ (s.dma 0 5).active = some d ∧ bits (d.getD 2 0) 0 32 = 8 ∧ bits (d.getD 2 0) 32 1 = out ∧ s.mcUp 0 = true ∧
     s.hostLine 0 false = some (0, 0) ∧ s.hostLine 0 true = some (0, 0)) := by decide +kernel

/-! Temperature, power, ageing. -/

theorem wit_Thermal :
  (let s : State := { on [thPg 0x12, thPg 3, agePg 3, osTop 3] with start := { rails := true }, thp := { ntLow := some 4 } }
   sound s = true ∧ s.start.rails = true ∧ (List.replicate 27 (⟨9, true, 100⟩ : Sample)).length = sensCount 3 ∧ s.thHoop = some 0 ∧ s.thp.ntLow = some 4 ∧
     s.thp.ntSaid = false ∧ s.hoopUp 0 = true ∧ s.nvOk 0 = true ∧ 0 < (monitors 3).length ∧ s.alive (agePg 3) = true ∧
     s.alive ((monitors 3).getD 0 (0, 0)).2 = true ∧ s.ageGives 0 3 0 = true ∧ (s.setHoop 1 {}).acts 0 = true ∧ s.acts 0 = true ∧ isOsier 3 = true ∧ s.alive (thPg 3) = true ∧ s.rd (thPg 3) R.TH_OCP_A < 100000 ∧
     s.thp.ovc = none) ∧
  (let s := (on [thPg 3]).setDieTh 3 { cold := some 7 }
   let u := ((on [thPg 3]).setSensor (sensIdx 3 2) { hot := some 7 })
   sound s = true ∧ sound u = true ∧ (s.dieTh 3).cold = some 7 ∧ (s.wb (thPg 3) R.TH_STAT_WARN true).bit (thPg 3) R.TH_STAT_WARN = true ∧
     ((List.range (sensCount 3)).filterMap fun i => (u.sensor (sensIdx 3 i)).hot) = [7] ∧ u.thUp 3 = true ∧ u.bit (thPg 3) R.TH_STAT_WARN = false) ∧
  (let s : State := { on [] with thp := { tripAt := some 5, below := some 6, comps := [(0x12, 0)] }, agePend := [(0, [⟨3, 0, 1, 2⟩])] }
   s.thp.tripAt = some 5 ∧ s.thp.below = some 6 ∧ (∃ c ∈ s.thp.comps, c.1 = 0x12 + 0) ∧ (¬ ∃ c ∈ s.thp.comps, c.1 = 0x12 + 1) ∧
     look (fun _ => []) s.agePend 0 ≠ [] ∧ s.hoopUp 0 = true) := by decide +kernel

/-! Start-up. -/

theorem wit_StartUp :
  (State.reset.pins.vidOn = false ∧ State.reset.pins.resetN = false) ∧
  (let s : State := { State.reset with start := { rails := true } }
   sound s = true ∧ s.start.rails = true ∧ s.pins.resetN = false) ∧
  (let s : State := { State.reset with pins := { resetN := true } }
   s.pins.resetN = true ∧ (s.page (hpTop 0)).up = .never ∧ s.thp.tripAt = none ∧ (s.flashOf 0).bootOk (0, true, 0) = true ∧ (s.flashOf 0).bootOk (0, false, 0) = false ∧
     s.clk.frozen = none) ∧
  (∀ n ∈ [2, 3, 4], let s : State := { (on [pkg0]).wr pkg0 R.PKG_STAGE_STAGE (n - 1) with
       start := { going := true, work := true }, cad := { alignOk := List.range 20 } }
     s.acting ≠ none ∧ s.start.going = true ∧ s.start.held = false ∧ s.rd pkg0 R.PKG_STAGE_STAGE + 1 = n ∧ s.rd pkg0 R.PKG_START_HOLD_AT ≠ n ∧
       (∀ d ∈ allDies, d ∈ s.cad.alignOk) ∧ s.cad.aligning = false) ∧
  (let s := on [pkg0]
   s.takes 0 pkg0 .pkg0 0x140 (0 ||| 1) = true ∧ (s.taken 0 pkg0 .pkg0 0x140 (0 ||| 1)).start.held = false ∧
     (s.alive (mcPg 0 0) = false ∧ (s.setUp (mcPg 0 0) .up).alive (mcPg 0 0) = true)) ∧
  (let s : State := { on [pkg0] with start := { held := true } }
   sound s = true ∧ s.takes 0 pkg0 .pkg0 0x140 (0 ||| 1) = true ∧ (s.taken 0 pkg0 .pkg0 0x140 (0 ||| 1)).start.held = true ∧
     (s.taken 0 pkg0 .pkg0 0x140 (0 ||| 1)).thp.tripAt = none) := by decide +kernel

theorem wit_ProfilesAndKeys :
  (let s : State := { (on [prPg 0, pkg0]).wr (secPg 0) R.SEC_DBG_LEVEL 1 with
     pins := { resetN := true }, clk := { tick := 2000000 },
     start := { rails := true, save := some (0, 1, [5]), tagSave := some [6], scrub := some (0, 2) } }
   sound s = true ∧ s.pins.profSel ≠ 3 ∧ s.start.save = some (0, 1, [5]) ∧ s.start.tagSave = some [6] ∧ s.start.scrub = some (0, 2) ∧ s.pins.resetN = true ∧
     1000000 ≤ s.clk.tick ∧ s.role 0 ≠ roleFailed ∧ s.alive pkg0 = true ∧ sensIdx 3 5 ≤ 341 ∧ s.start.selSaid = false ∧ s.acts 0 = true ∧
     s.jtagOpen (.reg pkg0 0x100) false = true ∧ s.jtagOpen (.secret 0) false = false) ∧
  (let s : State := { (on [prPg 0, pkg0]).wr (secPg 0) R.SEC_DBG_LEVEL 3 with pins := { resetN := true }, start := { rails := true } }
   s.jtagOpen (.reg pkg0 0x100) true = true ∧ s.jtagOpen (.hbm 0 5) false = true ∧ s.jtagOpen (.hbm 0 5) true = true) := by decide +kernel

/-! Effects the spec's own examples and tables give. -/

/-- The state after a command, or nothing where it does not answer one. -/
def aft (i : Instr) (s : State) : Option State := match exec i s with
  | .next t => some t
  | _ => none

/-- 05, after R171: 0x3E99999A in an MXFP8 E4M3 block. -/
theorem test_narrow_mxfp8 : mxScale 5 [0x3E99999A#32] = 0x75 ∧ narrowCode 5 .rne true 0x75 0x3E99999A#32 = 0x7A ∧
    narrowCode 5 .rtz true 0x75 0x3E99999A#32 = 0x79 ∧ narrowCode 5 (.stoch 0x66666000) true 0x75 0x3E99999A#32 = 0x7A ∧
    narrowCode 5 (.stoch 0x66665FFF) true 0x75 0x3E99999A#32 = 0x79 := by decide +kernel

/-- 05, after R177: three E5M2 products in two orders, open weave. -/
theorem test_open_weave_order :
    let p (m : Nat) (n : Bool) : List FV := [.fin n m 0]
    let go (xs : List (List FV)) : BitVec 96 := (xs.foldl (fun e x => openUpdate false false x false e) ⟨0, 0, false⟩).n
    go [p (2 ^ 24) false, p 1 false, p (2 ^ 24) true] = 0 ∧ go [p (2 ^ 24) false, p (2 ^ 24) true, p 1 false] = 0x3F800000 := by decide +kernel

/-- 05, after R185: the same products in close weave with tag 0x130. -/
theorem test_close_weave_order :
    let p (m : Nat) (n : Bool) : List FV := [.fin n m 0]
    let go (xs : List (List FV)) : AccE := xs.foldl (fun e x => closeUpdate false 64 (some 12) (some 12) x false e) ⟨0, 0x130, false⟩
    (go [p (2 ^ 24) false, p 1 false, p (2 ^ 24) true]).n = BitVec.ofNat 96 (2 ^ 47) ∧
    (go [p (2 ^ 24) false, p (2 ^ 24) true, p 1 false]).n = BitVec.ofNat 96 (2 ^ 47) ∧
    accRound .rne ⟨BitVec.ofNat 96 (2 ^ 47), 0x130, false⟩ = 0x3F800000#32 := by decide +kernel

/-- 05, after R188: two slots reduce a block. -/
theorem test_grid_reduction : gridByte [some (.fin false 1 0)] = 0x80 ∧ gridByte [some (.fin false 3 (-2))] = 0x7F ∧
    packGrid 0x80 (.fin false 1 0) = 0x0040000000000000#64 ∧ packGrid 0x80 (.fin false 3 (-2)) = 0x0030000000000000#64 ∧
    toF32 .rne (unpackGrid 0x80 0x0070000000000000#64) = 0x3FE00000#32 ∧ packGrid 0x80 (.fin false 1 (-60)) = 0#64 := by decide +kernel

/-- 02, after Table 2-1: the V-port page of OS5 lies at 0x00A42000. -/
theorem test_page_address : wlPg 5 2 * 0x1000 + 0x100 = 0x00A42100 := by decide +kernel

/-- 04, after Table 4-5: a LOOP at 0x0100 with END = 0x0102 and TRIP = 3 opens a loop over 0x0101-0x0102. -/
theorem test_loop_opens :
    let s := tileRun.setTile 0 0 { Tile.reset with st := .run, pc := 0x0100, next := 0 }
    (aft (.loop t00 0x102 3 true) s).map (fun t => (t.tile 0 0).loops.map fun l => (l.start, l.last)) = some [(0x101, 0x102)] := by decide +kernel

/-- 01, after R30: package 3 reaches package 10 on wavelength 7, and 10 reaches 3 on 9. -/
theorem test_wavelengths : ((State.reset.wr pkg0 R.PKG_IDENT_PKG_ID 3).peerPkg 2 7) = 10 ∧ ((State.reset.wr pkg0 R.PKG_IDENT_PKG_ID 10).peerPkg 2 9) = 3 := by
  decide +kernel

/-- 11, after R370: seeds 1812 at 65 °C and 1537 at 80 °C read 1725 at 69.75 °C and 1702 at 71.00 °C; drives 96 and 104 read 99. -/
theorem test_interpolation : interpolate (fun n => if n = 2 then 1812 else 1537) 279 = 1725 ∧ interpolate (fun n => if n = 2 then 1812 else 1537) 284 = 1702 ∧
    interpolate (fun n => if n = 2 then 96 else 104) 284 = 99 := by decide +kernel

/-- 15, after Table 15-5: the first and last tag of audit record 0x0012. -/
theorem test_slew_tags : (sqBytes {} (some ⟨List.replicate 7 0, false, true, false, 56, false, 0x12, 0x253⟩) false).drop 56 = (leBytes 8 0x0000025300120385).map (BitVec.ofNat 8) ∧
    (sqBytes {} (some ⟨List.replicate 7 0, true, false, false, 32, false, 0x12, 0x257⟩) false).drop 56 = (leBytes 8 0x0000025700120203).map (BitVec.ofNat 8) := by
  decide +kernel

/-- 16, after R496: Q of 2, 3, 2 gives Qh of 2, 3, 3 and N_T of 61, 60, 60; Q = 16 gives 43 and Qh = 5 gives 57. -/
theorem test_thermal_controller : followQ 2 0 = 2 ∧ followQ 3 2 = 3 ∧ followQ 2 3 = 3 ∧ thermalN 32 2 = 61 ∧ thermalN 32 3 = 60 ∧ thermalN 32 16 = 43 ∧
    followQ 4 16 = 5 ∧ thermalN 32 5 = 57 := by decide +kernel

/-- 16, after R500: 6300 W at CAP 6000 W and N_P 64 gives 60, which rises only below 5820 W. -/
theorem test_power_controller : powerN 6000 6300 64 = 60 ∧ powerN 6000 5820 60 = 60 ∧ powerN 6000 5819 60 = 61 := by decide +kernel

/-- 16, after R497: a substituted sensor 5 of OS2 reads the highest of sensors 51, 52 and 55 plus 5 °C. -/
theorem test_neighbours : (∀ j, j < 27 → ((neighbours 2 5).contains j = true ↔ j = 3 ∨ j = 4 ∨ j = 7)) ∧ sensIdx 2 5 = 53 := by decide +kernel

/-- Table 4-5: SADDI adds its immediate, and the result lands later (Table 4-3). -/
theorem test_saddi :
    (aft (.saddi t00 1 0 0xFFFFFFFF true) tileRun).map (fun t => (t.tile 0 0).pend.map fun p => match p.res with
      | .scal d v _ => (d, v)
      | _ => (0, 0#32)) = some [(1, 0xFFFFFFFF#32)] := by decide +kernel

/-- 04, Tables 4-18 and 4-19: the worked bundle spells its four slots, the last of them marked. -/
theorem test_worked_bundle : decodeBundle t00 (0x22848400_0000011B + 0x00000008_96000000 * 2 ^ 64 + 0x00000002_A0000000 * 2 ^ 128 + 0x12A40003_00006020 * 2 ^ 192) =
    [.aaddi t00 4 4 1 false, .vst t00 9 6 0 0 2 true [] false, .vacr t00 8 0 0 0 5 true [] false, .mma t00 2 4 0 0 3 0 true true false false [] true] := by
  decide +kernel

/-- R114, R115: the empty bundle, and an illegal opcode beside nothing (R120). -/
theorem test_empty_bundles : decodeBundle t00 0 = [.emptyBundle t00 0 0 true] ∧ decodeBundle t00 (1 + 0x3E * 2 ^ 50) = [.emptyBundle t00 0 1 true] := by decide +kernel

/-- R474: a word of a command joins the packing register; R475: the packet's end closes the line. -/
theorem test_slew_word_and_end :
    (aft (.cmdDataWrite 0 5 0 [1, 0, 0, 0, 0, 0, 0, 0] false) (sqIn 5 {})).map (fun t => ((t.sq 0 5).reg, (t.sq 0 5).fill)) = some ([1], []) ∧
    (aft (.cmdDataEndWrite 0 5 0x800 [1, 0, 0, 0, 0, 0, 0, 0] false) (sqIn 5 {})).map (fun t => ((t.sq 0 5).reg, (t.sq 0 5).fill.map fun l => (l.words, l.vbytes, l.fin)))
      = some ([], [([1, 0, 0, 0, 0, 0, 0], 8, true)]) := by decide +kernel

/-- R430: a lease that runs out fences its Hoop (role 2). -/
theorem test_lease_expires : (aft (.leaseExpired 0) (roleIn 0 roleActive { leaseEnd := 7 })).map (fun t => (t.role 0, t.clk.tick)) = some (2, 7) := by decide +kernel

/-- R448: the first detection of an unmasked source sends a record to both Hoops. -/
theorem test_detection : ((on [wfTop 1]).raise (wfTop 1) 3).flt.flight.map (fun r => (r.1, r.2.die, r.2.source, r.2.kind)) =
    [(0, 9, 3, .detect), (1, 9, 3, .detect)] := by decide +kernel

/-- R66: a PREPARE of a die with nothing staged is answered 0. -/
theorem test_prepare : (aft (.prepare 3) { on [pkg0] with com := { prep := [3] } }).map (fun t => (t.com.answers, t.com.frozen)) = some ([(3, 0)], [(3, 0)]) := by
  decide +kernel

/-- The tag of a truncation line (R476), and that of the first line of an audit record in the example of chapter 15. -/
theorem test_line_tags :
    ((sqBytes {} (some ⟨List.replicate 7 0, true, false, true, 0, false, 5, 9⟩) false).drop 56 = [0x0B, 0, 5, 0, 9, 0, 0, 0] ∧
     (sqBytes {} (some ⟨List.replicate 7 0, false, true, false, 56, false, 0x12, 0x253⟩) false).drop 56 = [0x85, 3, 0x12, 0, 0x53, 2, 0, 0]) := by
  decide

end Sys2Proof.Tests
end

section
/-! SUPPORT. Where the register tables place their fields, and what every field of a page reads after reset (O3). -/

namespace Sys2Proof.Machine

/-- The place of a field in its page: the bit at which its key stands. -/
def Fld.place (f : Fld) : Nat := f.off * 32 + f.lo

/-- Every register table holds word-aligned fields of a 4 KiB page, and the header's fields alone lie below 0x100. -/
theorem blkFields_range (b : Blk) :
    ∀ f ∈ blkFields b, f.off % 4 = 0 ∧ f.off < 4096 ∧ f.lo < 128 ∧ (f.off < 0x100 ↔ b = .hdr) := by
  cases b <;> decide +kernel

/-- No two fields of a register table share a place. -/
theorem blkFields_places_nodup (b : Blk) : ((blkFields b).map Fld.place).Nodup := by
  cases b <;> decide +kernel

/-- A field of a register table is known by its place. -/
theorem place_inj {b : Blk} {f g : Fld} (hf : f ∈ blkFields b) (hg : g ∈ blkFields b) (h : f.place = g.place) : f = g :=
  List.inj_on_of_nodup_map (blkFields_places_nodup b) hf hg h

/-- A page of kind `b` has its header's fields and its block's own. -/
theorem exists_table_of_mem_fieldsIn {b : Blk} {off : Nat} {f : Fld} (h : f ∈ fieldsIn b off) :
    ∃ c, (c = .hdr ∨ c = b) ∧ f ∈ blkFields c := by
  unfold fieldsIn at h
  have hmem := List.mem_of_mem_filter h
  split at hmem
  · exact ⟨.hdr, .inl rfl, hmem⟩
  · exact ⟨b, .inr rfl, hmem⟩

/-- The place of a field tells which of the page's two tables holds it. -/
theorem table_of_place {b c : Blk} {f : Fld} (hc : c = .hdr ∨ c = b) (hf : f ∈ blkFields c) :
    (if f.place < 0x2000 then flds_hdr else blkFields b) = blkFields c := by
  obtain ⟨haligned, -, hlo, hhdr⟩ := blkFields_range c f hf
  unfold Fld.place
  by_cases h : c = .hdr
  · have hoff := hhdr.mpr h
    rw [if_pos (by omega), h]
    rfl
  · have hoff := mt hhdr.mp h
    rw [if_neg (by omega), hc.resolve_left h]

/-- A page finds each of its fields at the field's own place. -/
theorem fieldAt_place {b c : Blk} {f : Fld} (hc : c = .hdr ∨ c = b) (hf : f ∈ blkFields c) : fieldAt b f.place = some f := by
  unfold fieldAt
  rw [table_of_place hc hf]
  have hsome : ((blkFields c).find? fun g => decide (g.off * 32 + g.lo = f.place)).isSome :=
    List.find?_isSome.mpr ⟨f, hf, decide_eq_true rfl⟩
  obtain ⟨g, hg⟩ := Option.isSome_iff_exists.mp hsome
  have hplace := List.find?_some hg
  rw [hg, place_inj (List.mem_of_find?_eq_some hg) hf (of_decide_eq_true hplace)]

/-- The reset value of a key is what its field's table gives, for the page where it depends on the page. -/
theorem resetVal_key {p : Nat} {b c : Blk} {f : Fld} (hb : pageBlk p = some b) (hc : c = .hdr ∨ c = b) (hf : f ∈ blkFields c) :
    resetVal (f.key p) = (pageRst b p f.off f.lo).getD f.rst := by
  obtain ⟨haligned, hoff, hlo, -⟩ := blkFields_range c f hf
  have hpage : keyPage (f.key p) = p := by unfold keyPage Fld.key; omega
  have hplace : f.key p % 131072 = f.place := by unfold Fld.key Fld.place; omega
  have hword : f.place / 32 / 4 * 4 = f.off := by unfold Fld.place; omega
  have hbit : f.place - f.off * 32 = f.lo := by unfold Fld.place; omega
  simp only [resetVal, hpage, hb, hplace, hword, hbit, fieldAt_place hc hf]
  cases pageRst b p f.off f.lo <;> rfl

/-- Reset is canonical: every sparse map is empty. -/
theorem wf_reset : Wf State.reset := by constructor <;> rfl

/-- Every field of an occupied page reads its reset value. -/
theorem rd_reset {p : Nat} {b : Blk} {off : Nat} {f : Fld} (hb : pageBlk p = some b) (hf : f ∈ fieldsIn b off) :
    State.reset.rd p f = (pageRst b p f.off f.lo).getD f.rst :=
  have ⟨_, hc, hmem⟩ := exists_table_of_mem_fieldsIn hf
  resetVal_key hb hc hmem

/-- Examples of the header's reset values (Table 2-3), on pages of three kinds. -/
theorem rd_reset_header : ∀ p ∈ [pkg0, osTop 3, sqPg 1 64],
    State.reset.rd p R.PG_FTIMER_GRACE_MS = 200 ∧ State.reset.rd p R.PG_CTRL_ENABLE = 0 := by
  decide +kernel

/-- Examples of the reset values of a Hoop die's pages (Tables 14-10, 15-13 and 16-9). -/
theorem rd_reset_hoop : ∀ h, h < 2 →
    State.reset.rd (sqPg h 64) R.SQ_CFG_WM = 256 ∧ State.reset.rd (sqPg h 0) R.SQ_FLUSH_TMO_US = 100 ∧
    State.reset.rd (faultPg h) R.FAULT_COAL_MS = 100 ∧ State.reset.rd (faultPg h) R.FAULT_CFG_QUEUE = 65 ∧
    State.reset.rd (thPg (0x12 + h)) R.TH_PKG_N_N = 64 ∧ State.reset.rd (thPg (0x12 + h)) R.TH_SAFE_N = 32 := by
  decide +kernel

/-- Settles O3: reset lists no entry in any map, so each map is canonical and reads as its default, which for the
register file is the reset value of the field's table. -/
theorem resetIsSoundAndHoldsTheSpecsValues : Obligations.ResetIsSoundAndHoldsTheSpecsValues :=
  ⟨wf_reset, rfl, rfl, rfl, fun _ => rfl, fun _ _ => rfl, fun _ _ => rfl, fun _ _ _ _ => rd_reset,
    rd_reset_header, rd_reset_hoop⟩

end Sys2Proof.Machine
end

section
/-! SUPPORT. What a command keeps: each answers a next state with the queue untouched and every sparse map still canonical (O1, O2). Commands whose
meaning is one helper of the model are covered by that helper's law in Laws/Kept*.lean. -/

namespace Sys2Proof.Machine
open Sys2Proof

/-- The outcome is a next state with the queue of `s`, and canonical if `s` is. -/
def Runs (s : State) (o : Host.Outcome State Fault Refusal) : Prop := ∃ t, o = .next t ∧ Kept s t

theorem Kept.runs {s t : State} (h : Kept s t) : Runs s (.next t) := ⟨t, rfl, h⟩

/-! Commands of tiles, memory, streams and lending. -/

theorem runs_tileZeroComplete (at' : TileAt) (s : State) : Runs s (execTileZeroComplete at' s) := by
  unfold execTileZeroComplete
  exact Kept.runs (by grind [Kept.refl s, kept_setTile, kept_clrBit])

theorem runs_emptyBundle (at' : TileAt) (hdr bad : Nat) (last : Bool) (s : State) : Runs s (execEmptyBundle at' hdr bad last s) := by
  unfold execEmptyBundle
  exact Kept.runs (by grind [Kept.refl s, kept_toCc, kept_onTile])

theorem runs_invalidBlockIssue (at' : TileAt) (err : FetchErr) (s : State) : Runs s (execInvalidBlockIssue at' err s) := by
  unfold execInvalidBlockIssue
  exact Kept.runs (by grind [Kept.refl s, Kept.upd, kept_toCc, kept_onTile])

theorem runs_tileEnterHeld (at' : TileAt) (s : State) : Runs s (execTileEnterHeld at' s) := by
  unfold execTileEnterHeld
  exact Kept.runs (by grind [Kept.refl s, Kept.upd, kept_toCc, kept_onTile])

theorem runs_tileEnterIdle (at' : TileAt) (s : State) : Runs s (execTileEnterIdle at' s) := by
  unfold execTileEnterIdle
  exact Kept.runs (by grind [Kept.refl s, Kept.upd, kept_toCc, kept_onTile, kept_setTile, kept_tileIdle])

theorem runs_stNop (die eng : Nat) (ue : Bool) (s : State) : Runs s (execStNop die eng ue s) := by
  unfold execStNop
  exact Kept.runs (by grind [Kept.refl s, Kept.upd, kept_toCc, kept_setEng, kept_engErr, kept_startDesc])

theorem runs_stEndseg (die eng : Nat) (s : State) : Runs s (execStEndseg die eng s) := by
  unfold execStEndseg
  exact Kept.runs (by grind [Kept.refl s, Kept.upd, kept_startDesc, kept_setEng])

theorem runs_transactionIssue (die eng : Nat) (stk : Option Bool) (s : State) : Runs s (execTransactionIssue die eng stk s) := by
  unfold execTransactionIssue
  exact Kept.runs (by grind [Kept.refl s, kept_issueTxn])

theorem runs_loadDelivery (die col : Nat) (s : State) : Runs s (execLoadDelivery die col s) := by
  unfold execLoadDelivery
  exact Kept.runs (by grind [Kept.refl s, Kept.upd, kept_toCc, kept_loadDeliver])

theorem runs_readUnitRelease (die eng : Nat) (late : List Nat) (hits : List EccHit) (s : State) :
    Runs s (execReadUnitRelease die eng late hits s) := by
  refine Kept.runs ?_
  split
  · exact Kept.refl s
  refine Kept.ite ?_ (Kept.refl s)
  extract_lets t got src u v w
  have ht : Kept s t := kept_toCc (Kept.refl s) _
  have hgot : Kept s got.1 := by
    unfold got
    split
    · exact kept_mcDeliver ht ..
    · exact ht
    · exact ht
  have hu : Kept s u := Kept.upd hgot rfl
  have hv : Kept s v := by
    unfold v
    split
    · exact Kept.ite (kept_engErr hu ..) hu
    · exact hu
  have hw : Kept s w := by
    unfold w
    split
    · exact Kept.ite hv (Kept.upd hv rfl)
    · exact hv
  exact kept_evtOpt (kept_deliverUnit (kept_digAdd hw ..) ..) ..

theorem runs_refreshRateChange (die stack temp : Nat) (s : State) : Runs s (execRefreshRateChange die stack temp s) := by
  unfold execRefreshRateChange
  exact Kept.runs (by grind [Kept.refl s, Kept.upd, kept_wr, kept_toTick, kept_wb, kept_raise, kept_refreshSeen])

theorem runs_patrolScrub (die stack : Nat) (hits : List EccHit) (s : State) : Runs s (execPatrolScrub die stack hits s) := by
  unfold execPatrolScrub
  exact Kept.runs (by grind [Kept.refl s, Kept.upd, Kept.foldl, kept_sideBytes, kept_mcEvent, kept_putHline])

theorem runs_neighbourRequest (die port : Nat) (s : State) : Runs s (execNeighbourRequest die port s) := by
  unfold execNeighbourRequest
  exact Kept.runs (by grind [Kept.refl s, Kept.upd, Kept.foldl, kept_toCc, kept_settleDie, kept_enterDue, kept_budget, kept_putHunit, kept_addRead])

theorem runs_lenderRequest (die peer lgran off : Nat) (write : Bool) (count : Nat) (data : List FLine) (hits : List EccHit) (stk : Option Bool)
    (s : State) : Runs s (execLenderRequest die peer lgran off write count data hits stk s) := by
  refine Kept.runs (Kept.ite ?_ (Kept.refl s))
  have ce := kept_stakeCe (Kept.refl s) die stk (fun s => s.zeroErr die 1) fun t k => kept_zeroErr k ..
  refine Kept.ite (Kept.ite (kept_sideQueue (Kept.foldl _ (fun _ _ k => Kept.ite (kept_putHunit k ..) k) (kept_sideBytes ?_ ..)) ..) 
     (kept_sideQueue (kept_mcRead (kept_sideBytes ?_ ..) ..) ..)) (kept_sideQueue (kept_raise ?_ ..) ..) <;> exact Kept.ite (kept_zeroErr ce ..) ce

theorem runs_borrowComplete (die eng n : Nat) (granted : Bool) (data : List FLine) (stk : Option Bool) (s : State) :
    Runs s (execBorrowComplete die eng n granted data stk s) := by
  unfold execBorrowComplete
  exact Kept.runs (by grind [Kept.refl s, Kept.upd, kept_borrowEnd])

theorem runs_borrowTimeout (die eng n : Nat) (s : State) : Runs s (execBorrowTimeout die eng n s) := by
  unfold execBorrowTimeout
  exact Kept.runs (by grind [Kept.refl s, Kept.upd, kept_toTick, kept_borrowEnd])

theorem runs_hostWindowAccess (hoop off len : Nat) (write : Bool) (data : List Byte) (hits : List EccHit) (stk : Option Bool) (s : State) :
    Runs s (execHostWindowAccess hoop off len write data hits stk s) := by
  unfold execHostWindowAccess
  exact Kept.runs (by grind [Kept.refl s, Kept.upd, kept_hostRun])

theorem runs_engineAbortDone (die eng : Nat) (s : State) : Runs s (execEngineAbortDone die eng s) := by
  unfold execEngineAbortDone
  exact Kept.runs (by grind [Kept.refl s, Kept.upd, kept_setEng])

/-! Commands of collectives, the schedule, borders and Wale links. -/

theorem runs_ceNop (die : Nat) (ue : Bool) (s : State) : Runs s (execCeNop die ue s) := by
  unfold execCeNop
  exact Kept.runs (by grind [Kept.refl s, Kept.upd, kept_toCc, kept_setCe, kept_ceErr, kept_ceStart])

theorem runs_ceSend (die : Nat) (s : State) : Runs s (execCeSend die s) := by
  unfold execCeSend
  exact Kept.runs (by grind [Kept.refl s, Kept.upd, kept_ceStart, kept_ceErr, kept_evtOpt, kept_setCe])

theorem runs_ceRecv (die : Nat) (s : State) : Runs s (execCeRecv die s) := by
  unfold execCeRecv
  exact Kept.runs (by grind [Kept.refl s, Kept.upd, kept_ceStart, kept_ceErr, kept_poisonRest, kept_evtOpt, kept_setCe])

theorem runs_ceEndseg (die : Nat) (s : State) : Runs s (execCeEndseg die s) := by
  unfold execCeEndseg
  exact Kept.runs (by grind [Kept.refl s, Kept.upd, kept_ceStart, kept_setCe])

theorem runs_ceItem (die : Nat) (hits : List EccHit) (s : State) : Runs s (execCeItem die hits s) := by
  unfold execCeItem
  exact Kept.runs (by grind [Kept.refl s, kept_ceNext])

theorem runs_seberTransmitSlot (die : Nat) (hits : List EccHit) (s : State) : Runs s (execSeberTransmitSlot die hits s) := by
  unfold execSeberTransmitSlot
  exact Kept.runs (by grind [Kept.refl s, kept_toCc, kept_ceSettle, kept_bufHits, kept_drawPayloads, kept_toWire])

theorem runs_seberDeliverySlot (die : Nat) (hits : List EccHit) (s : State) : Runs s (execSeberDeliverySlot die hits s) := by
  unfold execSeberDeliverySlot
  exact Kept.runs (by grind [Kept.refl s, Kept.upd, kept_toCc, kept_ceSettle, kept_setWle, kept_ceTake])

theorem runs_ceAbortDone (die : Nat) (s : State) : Runs s (execCeAbortDone die s) := by
  unfold execCeAbortDone
  exact Kept.runs (by grind [Kept.refl s, Kept.upd, kept_setCe])

theorem runs_meshFlitForward (die node : Nat) (par : List (Nat × Nat)) (ecc : Option Bool) (s : State) :
    Runs s (execMeshFlitForward die node par ecc s) := by
  unfold execMeshFlitForward
  exact Kept.runs (by grind [Kept.refl s, Kept.upd, Kept.foldl, kept_toCc, kept_raise, kept_inc, kept_router, kept_meshEvent])

theorem runs_dieReady (die : Nat) (s : State) : Runs s (execDieReady die s) := by
  unfold execDieReady
  exact Kept.runs (by grind [Kept.refl s, kept_dieReady])

theorem runs_dieArrival (die : Nat) (s : State) : Runs s (execDieArrival die s) := by
  unfold execDieArrival
  exact Kept.runs (by grind [Kept.refl s, kept_dieArrive])

theorem runs_syncNotice (die : Nat) (s : State) : Runs s (execSyncNotice die s) := by
  unfold execSyncNotice
  exact Kept.runs (by grind [Kept.refl s, kept_learn])

theorem runs_syncRelease (s : State) : Runs s (execSyncRelease s) := by
  unfold execSyncRelease
  exact Kept.runs (by grind [Kept.refl s, kept_syncRelease])

theorem runs_syncTimeout (die : Nat) (s : State) : Runs s (execSyncTimeout die s) := by
  unfold execSyncTimeout
  exact Kept.runs (by grind [Kept.refl s, Kept.upd, kept_toTick, kept_setOd, kept_raise])

theorem runs_programEnd (die : Nat) (s : State) : Runs s (execProgramEnd die s) := by
  unfold execProgramEnd
  exact Kept.runs (by grind [Kept.refl s, kept_programEnd])

theorem runs_stopComplete (die : Nat) (s : State) : Runs s (execStopComplete die s) := by
  unfold execStopComplete
  exact Kept.runs (by grind [Kept.refl s, kept_stopComplete])

theorem runs_borderArrival (die pkg seq id tick : Nat) (s : State) : Runs s (execBorderArrival die pkg seq id tick s) := by
  unfold execBorderArrival
  exact Kept.runs (by grind [Kept.refl s, kept_borderArrival])

theorem runs_borderRelease (die : Nat) (s : State) : Runs s (execBorderRelease die s) := by
  unfold execBorderRelease
  exact Kept.runs (by grind [Kept.refl s, kept_borderRelease])

theorem runs_epochInEdge (tick : Nat) (s : State) : Runs s (execEpochInEdge tick s) := by
  unfold execEpochInEdge
  exact Kept.runs (by grind [Kept.refl s, Kept.upd, kept_toTick, kept_thaw, kept_inc, kept_epochEdge])

theorem runs_epochStuck (s : State) : Runs s (execEpochStuck s) := by
  unfold execEpochStuck
  exact Kept.runs (by grind [Kept.refl s, Kept.upd, kept_toTick, kept_wb, kept_raise])

theorem runs_stuckClear (s : State) : Runs s (execStuckClear s) := by
  unfold execStuckClear
  exact Kept.runs (by grind [Kept.refl s, kept_wb])

theorem runs_epochOutPulse (s : State) : Runs s (execEpochOutPulse s) := by
  unfold execEpochOutPulse
  exact Kept.runs (by grind [Kept.refl s, Kept.upd, kept_toTick])

theorem runs_waleProgramSlot (die port : Nat) (s : State) : Runs s (execWaleProgramSlot die port s) := by
  unfold execWaleProgramSlot
  exact Kept.runs (by grind [Kept.refl s, kept_programSlot])

theorem runs_sideFlitService (page : Nat) (hits : List EccHit) (s : State) : Runs s (execSideFlitService page hits s) := by
  unfold execSideFlitService
  exact Kept.runs (by grind [Kept.refl s, kept_sideService])

theorem runs_programFlitRelease (page : Nat) (s : State) : Runs s (execProgramFlitRelease page s) := by
  unfold execProgramFlitRelease
  exact Kept.runs (by grind [Kept.refl s, Kept.upd, kept_downRelease, kept_toCc, kept_setWle, kept_inc, kept_flitReleased])

theorem runs_trainingPhaseDone (page : Nat) (found : List WireTest) (eyes : List Nat) (slack : Nat) (s : State) :
    Runs s (execTrainingPhaseDone page found eyes slack s) := by
  unfold execTrainingPhaseDone
  exact Kept.runs (by grind [Kept.refl s, Kept.upd, kept_phaseDone])

theorem runs_waleTrainFlit (page : Nat) (s : State) : Runs s (execWaleTrainFlit page s) := by
  unfold execWaleTrainFlit
  exact Kept.runs (by grind [Kept.refl s, Kept.upd, kept_setWle, kept_wlFollow])

theorem runs_waleTokenFlit (page n : Nat) (s : State) : Runs s (execWaleTokenFlit page n s) := by
  unfold execWaleTokenFlit
  exact Kept.runs (by grind [Kept.refl s, Kept.upd, Kept.foldl, kept_wr, kept_setWle, kept_addSat, kept_wlHold, kept_raise])

theorem runs_waleTrainFail (page : Nat) (s : State) : Runs s (execWaleTrainFail page s) := by
  unfold execWaleTrainFail
  exact Kept.runs (by grind [Kept.refl s, kept_toTick, kept_wlHold, kept_raise])

theorem runs_holdPattern (page : Nat) (s : State) : Runs s (execHoldPattern page s) := by
  unfold execHoldPattern
  exact Kept.runs (by grind [Kept.refl s, Kept.upd, kept_wlHold])

/-! Commands of Seber and the optics. -/

theorem runs_seberTrainSend (weft sub : Nat) (s : State) : Runs s (execSeberTrainSend weft sub s) := by
  unfold execSeberTrainSend
  exact Kept.runs (by grind [Kept.refl s, kept_sbWake, kept_toTick, kept_sbTrain])

theorem runs_lockedTimeout (weft sub : Nat) (s : State) : Runs s (execLockedTimeout weft sub s) := by
  unfold execLockedTimeout
  exact Kept.runs (by grind [Kept.refl s, kept_toTick, kept_sbEnter])

theorem runs_ackCell (weft sub fib : Nat) (c : Cell) (s : State) : Runs s (execAckCell weft sub fib c s) := by
  unfold execAckCell
  exact Kept.runs (by grind [Kept.refl s, Kept.upd, kept_sbRx, kept_sbAcked, kept_setSub, kept_sbGood])

theorem runs_nakCell (weft sub fib : Nat) (c : Cell) (ues : List Nat) (ces : Nat) (s : State) : Runs s (execNakCell weft sub fib c ues ces s) := by
  unfold execNakCell
  exact Kept.runs (by grind [Kept.refl s, kept_sbRx, kept_inc, kept_sbResend])

theorem runs_creditCell (weft sub fib : Nat) (c : Cell) (s : State) : Runs s (execCreditCell weft sub fib c s) := by
  unfold execCreditCell
  exact Kept.runs (by grind [Kept.refl s, Kept.foldl, kept_sbRx, kept_setSub, kept_sbGood])

theorem runs_lanesetCell (weft sub fib : Nat) (c : Cell) (s : State) : Runs s (execLanesetCell weft sub fib c s) := by
  unfold execLanesetCell
  exact Kept.runs (by grind [Kept.refl s, kept_sbRx, kept_laneSet])

theorem runs_lsackCell (weft sub fib : Nat) (c : Cell) (s : State) : Runs s (execLsackCell weft sub fib c s) := by
  unfold execLsackCell
  exact Kept.runs (by grind [Kept.refl s, Kept.upd, kept_sbRx, kept_lsClose, kept_lsApply, kept_sbAdjust])

theorem runs_collideCell (weft sub fib : Nat) (c : Cell) (s : State) : Runs s (execCollideCell weft sub fib c s) := by
  unfold execCollideCell
  exact Kept.runs (by grind [Kept.refl s, kept_sbRx, kept_lsYield])

theorem runs_drainCell (weft sub fib : Nat) (c : Cell) (s : State) : Runs s (execDrainCell weft sub fib c s) := by
  unfold execDrainCell
  exact Kept.runs (by grind [Kept.refl s, Kept.upd, kept_sbRx, kept_sbTake, kept_setSub, kept_sbDrain])

theorem runs_drainComplete (weft sub : Nat) (s : State) : Runs s (execDrainComplete weft sub s) := by
  unfold execDrainComplete
  exact Kept.runs (by grind [Kept.refl s, kept_sbDarken])

theorem runs_sbDrainTmo (weft sub : Nat) (s : State) : Runs s (execSbDrainTmo weft sub s) := by
  unfold execSbDrainTmo
  exact Kept.runs (by grind [Kept.refl s, kept_toTick, kept_sbEnter, kept_sbRaise])

theorem runs_sbFailed (weft sub : Nat) (s : State) : Runs s (execSbFailed weft sub s) := by
  unfold execSbFailed
  exact Kept.runs (by grind [Kept.refl s, Kept.upd, Kept.foldl, kept_toTick, kept_sbEnter, kept_sbRaise])

theorem runs_cellTransmit (weft sub : Nat) (s : State) : Runs s (execCellTransmit weft sub s) := by
  unfold execCellTransmit
  exact Kept.runs (by grind [Kept.refl s, kept_sbTransmit])

theorem runs_cellDelivery (weft sub cls n : Nat) (hits : List EccHit) (s : State) : Runs s (execCellDelivery weft sub cls n hits s) := by
  unfold execCellDelivery
  exact Kept.runs (by grind [Kept.refl s, kept_sbDeliver])

theorem runs_ackTimeout (weft sub : Nat) (ues : List Nat) (ces : Nat) (s : State) : Runs s (execAckTimeout weft sub ues ces s) := by
  unfold execAckTimeout
  exact Kept.runs (by grind [Kept.refl s, Kept.upd, Kept.foldl, kept_toTick, kept_inc, kept_sbRaise, kept_sbResend])

theorem runs_periodicAck (weft sub : Nat) (s : State) : Runs s (execPeriodicAck weft sub s) := by
  unfold execPeriodicAck
  exact Kept.runs (by grind [Kept.refl s, kept_sbSend])

theorem runs_periodicCredit (weft sub : Nat) (s : State) : Runs s (execPeriodicCredit weft sub s) := by
  unfold execPeriodicCredit
  exact Kept.runs (by grind [Kept.refl s, kept_sbSend])

theorem runs_bulkGrant (weft : Nat) (s : State) : Runs s (execBulkGrant weft s) := by
  unfold execBulkGrant
  exact Kept.runs (by grind [Kept.refl s, Kept.upd, kept_setSub])

theorem runs_lanesetRepeat (weft sub : Nat) (s : State) : Runs s (execLanesetRepeat weft sub s) := by
  unfold execLanesetRepeat
  exact Kept.runs (by grind [Kept.refl s, Kept.upd, kept_toTick, kept_lsClose, kept_sbRaise, kept_setSub, kept_lsSend])

theorem runs_retirementWindowEnd (weft sub fib : Nat) (s : State) : Runs s (execRetirementWindowEnd weft sub fib s) := by
  unfold execRetirementWindowEnd
  exact Kept.runs (by grind [Kept.refl s, Kept.upd, kept_setSub, kept_sbRaise, kept_sbAdjust])

theorem runs_sbLaneReturn (weft sub fib : Nat) (s : State) : Runs s (execSbLaneReturn weft sub fib s) := by
  unfold execSbLaneReturn
  exact Kept.runs (by grind [Kept.refl s, Kept.upd, kept_setSub, kept_sbRaise, kept_sbAdjust])

theorem runs_inputLit (weft fib k dir since : Nat) (s : State) : Runs s (execInputLit weft fib k dir since s) := by
  unfold execInputLit
  exact Kept.runs (by grind [Kept.refl s, Kept.upd, kept_losFlush, kept_setLane, kept_acquire, kept_toTick])

theorem runs_inputDark (weft fib k dir : Nat) (s : State) : Runs s (execInputDark weft fib k dir s) := by
  unfold execInputDark
  exact Kept.runs (by grind [Kept.refl s, Kept.upd, kept_inputDark, kept_setLane])

theorem runs_acquireDone (weft fib k dir : Nat) (found : Bool) (code peak pow : Nat) (s : State) :
    Runs s (execAcquireDone weft fib k dir found code peak pow s) := by
  unfold execAcquireDone
  exact Kept.runs (by grind [Kept.refl s, Kept.upd, kept_acquire, kept_lockLane, kept_slip, kept_toTick, kept_setLane, kept_fibRaise])

theorem runs_acquireRetry (weft fib k dir : Nat) (s : State) : Runs s (execAcquireRetry weft fib k dir s) := by
  unfold execAcquireRetry
  exact Kept.runs (by grind [Kept.refl s, Kept.upd, kept_acquire, kept_toTick, kept_setLane])

theorem runs_blockLock (weft fib k : Nat) (s : State) : Runs s (execBlockLock weft fib k s) := by
  unfold execBlockLock
  exact Kept.runs (by grind [Kept.refl s, Kept.upd, kept_slip, kept_setFibre, kept_lockLane])

theorem runs_lockLoss (weft fib k bad : Nat) (s : State) : Runs s (execLockLoss weft fib k bad s) := by
  unfold execLockLoss
  exact Kept.runs (by grind [Kept.refl s, Kept.upd, kept_slip, kept_fibRaise])

theorem runs_adaptationWindowEnd (weft fib k dir : Nat) (v : Window) (s : State) : Runs s (execAdaptationWindowEnd weft fib k dir v s) := by
  unfold execAdaptationWindowEnd
  exact Kept.runs (by grind [Kept.refl s, kept_windowEnd])

theorem runs_plausibilityCheck (weft fib k dir : Nat) (s : State) : Runs s (execPlausibilityCheck weft fib k dir s) := by
  refine Kept.runs (Kept.ite ?_ (Kept.refl s))
  split
  · exact Kept.refl s
  · exact Kept.ite (kept_fibRaise (kept_laneTo (Kept.refl s) ..) ..) (Kept.refl s)

theorem runs_loopbackIdentity (weft fib word n : Nat) (s : State) : Runs s (execLoopbackIdentity weft fib word n s) := by
  unfold execLoopbackIdentity
  exact Kept.runs (by grind [Kept.refl s, Kept.upd, kept_wr, kept_wb, kept_setFibre, kept_loopEval])

theorem runs_loopbackTimeout (weft fib : Nat) (s : State) : Runs s (execLoopbackTimeout weft fib s) := by
  refine Kept.runs ?_
  split
  · exact Kept.refl s
  · exact Kept.ite (kept_fibRaise (kept_planeSet (kept_clrBit (kept_setFibre (kept_toTick (Kept.refl s) _) ..) ..) ..) ..) (Kept.refl s)

theorem runs_calBankExchange (die : Nat) (s : State) : Runs s (execCalBankExchange die s) := by
  have hkeys : ∀ (l : List Nat) (f : Nat → Nat) m, swf calZero m = true → swf calZero (l.foldl (fun m k => put calZero m k (f k)) m) = true :=
    fun l f m => swf_foldl l fun _ _ => swf_put _ _
  refine Kept.runs (Kept.ite ?_ (Kept.ite ?_ (Kept.refl s)))
  · refine kept_setWf (kept_addWrap (kept_wr (kept_wb (Kept.calSh (Kept.cal (kept_toFrame (Kept.refl s)) fun w => hkeys _ _ _ w) ?_) ..) ..) ..) ..
    exact swf_foldl _ fun m k w => by split; exacts [swf_put _ _ w, w]
  · exact kept_setReed (kept_wb (kept_wb (Kept.foldl _ (fun _ _ k => Kept.ite (kept_wr (kept_wr k ..) ..) k) (kept_toFrame (Kept.refl s))) ..) ..) ..

theorem runs_laserGroupStart (reed : Nat) (s : State) : Runs s (execLaserGroupStart reed s) := by
  refine Kept.runs ?_
  split
  · exact Kept.refl s
  · exact Kept.ite (Kept.foldl _ (fun _ _ k => kept_laserWant (kept_wb k ..) ..) (kept_setReed (kept_toTick (Kept.refl s) _) ..)) (Kept.refl s)

theorem runs_laserWarmEnd (reed k out : Nat) (s : State) : Runs s (execLaserWarmEnd reed k out s) := by
  refine Kept.runs (Kept.ite (kept_laserTell (Kept.ite (kept_raise (kept_spareRecord (kept_wr (kept_wb (kept_setBit (kept_wb ?_ ..) ..) ..) ..) ..) ..) ?_) ..)
    (Kept.refl s)) <;> exact kept_wr (kept_wr (kept_toTick (Kept.refl s) _) ..) ..

theorem runs_rdLaserFail (reed k since out : Nat) (driver : Bool) (s : State) : Runs s (execRdLaserFail reed k since out driver s) := by
  unfold execRdLaserFail
  exact Kept.runs (by grind [Kept.refl s, kept_toTick, kept_laserFail])

theorem runs_rdPwrLow (reed k since out : Nat) (s : State) : Runs s (execRdPwrLow reed k since out s) := by
  unfold execRdPwrLow
  exact Kept.runs (by grind [Kept.refl s, kept_toTick, kept_wr, kept_raise])

theorem runs_rdSwitchFail (reed k : Nat) (s : State) : Runs s (execRdSwitchFail reed k s) := by
  unfold execRdSwitchFail
  exact Kept.runs (by grind [Kept.refl s, kept_toTick, kept_raise, kept_laserFail])

/-! Commands of queues, heat, faults and the Hoop pair. -/

theorem runs_cmdDataWrite (hoop q off : Nat) (data : List Byte) (poi : Bool) (s : State) : Runs s (execCmdDataWrite hoop q off data poi s) := by
  unfold execCmdDataWrite
  exact Kept.runs (by grind [Kept.refl s, kept_cmdWrite])

theorem runs_cmdDataEndWrite (hoop q off : Nat) (data : List Byte) (poi : Bool) (s : State) : Runs s (execCmdDataEndWrite hoop q off data poi s) := by
  unfold execCmdDataEndWrite
  exact Kept.runs (by grind [Kept.refl s, kept_cmdWrite])

theorem runs_cmdStatusRead (hoop q off len : Nat) (s : State) : Runs s (execCmdStatusRead hoop q off len s) := by
  unfold execCmdStatusRead
  exact Kept.runs (by grind [Kept.refl s, kept_accepted, kept_complete, kept_badRead])

theorem runs_eventPop (hoop q off len : Nat) (par : List Nat) (s : State) : Runs s (execEventPop hoop q off len par s) := by
  unfold execEventPop
  exact Kept.runs (by grind [Kept.refl s, kept_eventRead, kept_badRead])

theorem runs_eventPeek (hoop q off len : Nat) (par : List Nat) (s : State) : Runs s (execEventPeek hoop q off len par s) := by
  unfold execEventPeek
  exact Kept.runs (by grind [Kept.refl s, kept_eventRead, kept_badRead])

theorem runs_cmdQueueRead (hoop q : Nat) (par : List Nat) (s : State) : Runs s (execCmdQueueRead hoop q par s) := by
  unfold execCmdQueueRead
  exact Kept.runs (by grind [Kept.refl s, kept_cmdRead])

theorem runs_bankSwap (hoop q : Nat) (s : State) : Runs s (execBankSwap hoop q s) := by
  unfold execBankSwap
  exact Kept.runs (by grind [Kept.refl s, Kept.upd, kept_setSq])

theorem runs_eventPacketOffer (hoop q : Nat) (ws : List Nat) (now : Nat) (s : State) : Runs s (execEventPacketOffer hoop q ws now s) := by
  unfold execEventPacketOffer
  exact Kept.runs (by grind [Kept.refl s, Kept.upd, kept_sqFinish, kept_sqOffer, kept_setSq, kept_sqWords])

theorem runs_slewPtr (hoop q : Nat) (s : State) : Runs s (execSlewPtr hoop q s) := by
  unfold execSlewPtr
  exact Kept.runs (by grind [Kept.refl s, kept_dmaStop, kept_sqReset, kept_wb, kept_inc, kept_raise])

theorem runs_flushTrunc (hoop q : Nat) (s : State) : Runs s (execFlushTrunc hoop q s) := by
  unfold execFlushTrunc
  exact Kept.runs (by grind [Kept.refl s, Kept.upd, kept_toTick, kept_setSq, kept_wb, kept_raise])

theorem runs_dmaDescriptor (hoop chan : Nat) (s : State) : Runs s (execDmaDescriptor hoop chan s) := by
  unfold execDmaDescriptor
  exact Kept.runs (by grind [Kept.refl s, Kept.upd, kept_sqCons, kept_setSq, kept_setDma, kept_dmaRecord])

theorem runs_perst (hoop : Nat) (s : State) : Runs s (execPerst hoop s) := by
  unfold execPerst
  exact Kept.runs (by grind [Kept.refl s, kept_perst])

theorem runs_linkLeftL0 (hoop speed width : Nat) (flit up : Bool) (s : State) : Runs s (execLinkLeftL0 hoop speed width flit up s) := by
  unfold execLinkLeftL0
  exact Kept.runs (by grind [Kept.refl s, kept_wr, kept_wb, kept_raise])

theorem runs_aerError (hoop kind : Nat) (s : State) : Runs s (execAerError hoop kind s) := by
  unfold execAerError
  exact Kept.runs (by grind [Kept.refl s, Kept.upd, kept_inc, kept_raise])

theorem runs_ptmDialogue (hoop host : Nat) (s : State) : Runs s (execPtmDialogue hoop host s) := by
  unfold execPtmDialogue
  exact Kept.runs (by grind [Kept.refl s, kept_wr])

theorem runs_auditCollect (s : State) : Runs s (execAuditCollect s) := by
  unfold execAuditCollect
  exact Kept.runs (by grind [Kept.refl s, Kept.upd, Kept.foldl, kept_dlatAck, kept_sqOffer, kept_addWrap, kept_inc, kept_raise])

theorem runs_sensorSample (die : Nat) (samples : List Sample) (s : State) : Runs s (execSensorSample die samples s) := by
  refine Kept.runs (Kept.ite (kept_thermalUpdate (kept_safeEval (Kept.ite (Kept.foldl _ ?_ ?_) ?_))) (Kept.refl s))
  · exact fun _ _ k => Kept.ite (kept_refreshSeen (kept_wr k ..) ..) k
  all_goals
    refine Kept.upd (kept_dieTimes (Kept.foldl _ ?_ (Kept.foldl _ ?_ (kept_toTick (Kept.refl s) _))) _) rfl
    · exact fun _ _ k => Kept.ite (Kept.ite (kept_raise (kept_inc (kept_substitute k ..) ..) ..) (kept_substitute k ..)) k
    · exact fun _ _ k => kept_setSensor k ..

theorem runs_tempWarn (die : Nat) (s : State) : Runs s (execTempWarn die s) := by
  unfold execTempWarn
  exact Kept.runs (by grind [Kept.refl s, Kept.upd, Kept.foldl, kept_toTick, kept_wb, kept_raise])

theorem runs_tempWarnClear (die : Nat) (s : State) : Runs s (execTempWarnClear die s) := by
  unfold execTempWarnClear
  exact Kept.runs (by grind [Kept.refl s, Kept.upd, kept_toTick, kept_wb])

theorem runs_throttle (s : State) : Runs s (execThrottle s) := by
  unfold execThrottle
  exact Kept.runs (by grind [Kept.refl s, Kept.upd, kept_toTick, kept_raiseX])

theorem runs_powerUpdate (watts : Nat) (badRail : Bool) (s : State) : Runs s (execPowerUpdate watts badRail s) := by
  refine Kept.runs ?_
  split
  · exact Kept.refl s
  · refine kept_sendN (kept_safeEval (Kept.ite (kept_raise ?_ ..) ?_)) <;>
      exact kept_wr (kept_wr (kept_wr (Kept.upd (kept_toTick (Kept.refl s) _) rfl) ..) ..) ..

theorem runs_overcurrent (die amps : Nat) (s : State) : Runs s (execOvercurrent die amps s) := by
  unfold execOvercurrent
  exact Kept.runs (by grind [Kept.refl s, Kept.upd, kept_toFrame, kept_wr, kept_raise, kept_sendN])

theorem runs_thermalTrip (die comp : Nat) (s : State) : Runs s (execThermalTrip die comp s) := by
  unfold execThermalTrip
  exact Kept.runs (by grind [Kept.refl s, kept_trip, kept_safeEval])

theorem runs_boardTrip (s : State) : Runs s (execBoardTrip s) := by
  unfold execBoardTrip
  exact Kept.runs (by grind [Kept.refl s, kept_trip])

theorem runs_tripRestart (armed high : Bool) (s : State) : Runs s (execTripRestart armed high s) := by
  refine Kept.runs ?_
  split
  · refine Kept.ite (kept_wb (kept_wr (Kept.upd (Kept.foldl _ ?_ (kept_toTick (Kept.refl s) _)) rfl) ..) ..) (Kept.refl s)
    exact fun t x k => Kept.ite (kept_setHoop k ..) k
  · exact Kept.refl s

theorem runs_ageingSample (hoop : Nat) (vals : List (Nat × Nat × Option Nat)) (s : State) : Runs s (execAgeingSample hoop vals s) := by
  unfold execAgeingSample
  exact Kept.runs (by grind [Kept.refl s, Kept.upd, Kept.foldl, kept_toTick, kept_setHoop, kept_setFlash, kept_ageAppend, kept_ageSeen, kept_raise,
      kept_ageFit])

theorem runs_ageLogRetry (hoop : Nat) (s : State) : Runs s (execAgeLogRetry hoop s) := by
  refine Kept.runs (Kept.ite ?_ (Kept.refl s))
  have h := fun t => kept_setHoop (kept_toTick (Kept.refl s) t) hoop
  exact Kept.ite (Kept.upd (kept_setFlash (h ..) ..) rfl) (kept_nvRefuse (h ..) ..)

theorem runs_repeatRecord (page src : Nat) (s : State) : Runs s (execRepeatRecord page src s) := by
  unfold execRepeatRecord
  exact Kept.runs (by grind [Kept.refl s, Kept.upd, kept_toTick, kept_sendRec, kept_setPage])

theorem runs_containExpiry (page src : Nat) (s : State) : Runs s (execContainExpiry page src s) := by
  unfold execContainExpiry
  exact Kept.runs (by grind [Kept.refl s, Kept.upd, kept_timerEnd, kept_isolate, kept_safeEval, kept_sendRec])

theorem runs_haltExpiry (page src : Nat) (s : State) : Runs s (execHaltExpiry page src s) := by
  unfold execHaltExpiry
  exact Kept.runs (by grind [Kept.refl s, Kept.upd, kept_timerEnd, kept_haltSend])

theorem runs_haltNotice (die : Nat) (s : State) : Runs s (execHaltNotice die s) := by
  unfold execHaltNotice
  exact Kept.runs (by grind [Kept.refl s, Kept.upd, kept_haltDie])

theorem runs_ackAtPage (hoop : Nat) (s : State) : Runs s (execAckAtPage hoop s) := by
  unfold execAckAtPage
  exact Kept.runs (by grind [Kept.refl s, Kept.upd, kept_reject, kept_wb, kept_ackResult, kept_raiseX, kept_setPage, kept_sendRec])

theorem runs_ackNoAnswer (hoop : Nat) (s : State) : Runs s (execAckNoAnswer hoop s) := by
  unfold execAckNoAnswer
  exact Kept.runs (by grind [Kept.refl s, Kept.upd, kept_toTick, kept_ackResult])

theorem runs_faultFrame (hoop : Nat) (good flashOk : Bool) (s : State) : Runs s (execFaultFrame hoop good flashOk s) := by
  unfold execFaultFrame
  exact Kept.runs (by grind [Kept.refl s, Kept.upd, kept_logRec])

theorem runs_leaseExpired (hoop : Nat) (s : State) : Runs s (execLeaseExpired hoop s) := by
  unfold execLeaseExpired
  exact Kept.runs (by grind [Kept.refl s, kept_toTick, kept_setRole, kept_raise])

theorem runs_renewalRequest (hoop : Nat) (s : State) : Runs s (execRenewalRequest hoop s) := by
  unfold execRenewalRequest
  exact Kept.runs (by grind [Kept.refl s, Kept.upd, kept_toTick, kept_setHoop, kept_msix])

theorem runs_takeoverDone (hoop : Nat) (s : State) : Runs s (execTakeoverDone hoop s) := by
  unfold execTakeoverDone
  exact Kept.runs (by grind [Kept.refl s, Kept.upd, kept_setHoop, kept_wb, kept_msix])

theorem runs_epochRaise (die : Nat) (s : State) : Runs s (execEpochRaise die s) := by
  unfold execEpochRaise
  exact Kept.runs (by grind [Kept.refl s, Kept.upd, kept_raiseDie, kept_meetEpoch])

theorem runs_overlapEnd (hoop : Nat) (s : State) : Runs s (execOverlapEnd hoop s) := by
  unfold execOverlapEnd
  exact Kept.runs (by grind [Kept.refl s, Kept.upd, kept_toTick, kept_wb, kept_frame, kept_sendN])

theorem runs_heartbeatSend (hoop : Nat) (s : State) : Runs s (execHeartbeatSend hoop s) := by
  unfold execHeartbeatSend
  exact Kept.runs (by grind [Kept.refl s, Kept.upd, kept_toTick, kept_setHoop])

theorem runs_heartbeat (hoop : Nat) (s : State) : Runs s (execHeartbeat hoop s) := by
  refine Kept.runs ?_
  split
  · exact Kept.refl s
  · refine Kept.ite (kept_meetEpoch (Kept.ite (kept_soloStop ?_ _) ?_) ..) (Kept.upd (Kept.refl s) rfl) <;>
      exact kept_setHoop (kept_wb (kept_wr (kept_addSat (Kept.upd (Kept.refl s) rfl) ..) ..) ..) ..

theorem runs_hoopPeerLost (hoop : Nat) (s : State) : Runs s (execHoopPeerLost hoop s) := by
  unfold execHoopPeerLost
  exact Kept.runs (by grind [Kept.refl s, Kept.upd, kept_toTick, kept_setHoop, kept_addSat, kept_wb, kept_raise])

theorem runs_soloHoldoff (s : State) : Runs s (execSoloHoldoff s) := by
  unfold execSoloHoldoff
  exact Kept.runs (by grind [Kept.refl s, Kept.upd, kept_toTick, kept_setHoop, kept_wb])

theorem runs_soloEntry (s : State) : Runs s (execSoloEntry s) := by
  unfold execSoloEntry
  exact Kept.runs (by grind [Kept.refl s, Kept.upd, kept_toTick, kept_promote, kept_inc, kept_raise])

theorem runs_wdogExpired (hoop : Nat) (s : State) : Runs s (execWdogExpired hoop s) := by
  unfold execWdogExpired
  exact Kept.runs (by grind [Kept.refl s, kept_toTick, kept_hoopFail, kept_raise])

theorem runs_firmwareMemoryUe (hoop : Nat) (s : State) : Runs s (execFirmwareMemoryUe hoop s) := by
  unfold execFirmwareMemoryUe
  exact Kept.runs (by grind [Kept.refl s, kept_hoopFail])

theorem runs_mirrorSend (hoop : Nat) (s : State) : Runs s (execMirrorSend hoop s) := by
  unfold execMirrorSend
  exact Kept.runs (by grind [Kept.refl s, kept_toTick, kept_mirrorOut])

theorem runs_mirrorFrame (hoop : Nat) (good : Bool) (s : State) : Runs s (execMirrorFrame hoop good s) := by
  unfold execMirrorFrame
  exact Kept.runs (by grind [Kept.refl s, Kept.upd, Kept.foldl, kept_setHoop, kept_mirValid, kept_wb])

theorem runs_mirrorCommit (hoop : Nat) (good : Bool) (s : State) : Runs s (execMirrorCommit hoop good s) := by
  unfold execMirrorCommit
  exact Kept.runs (by grind [Kept.refl s, Kept.upd, kept_wb, kept_mirValid, kept_wr, kept_inc, kept_raise])

theorem runs_hoopRebootDone (hoop : Nat) (ok : Bool) (s : State) : Runs s (execHoopRebootDone hoop ok s) := by
  unfold execHoopRebootDone
  exact Kept.runs (by grind [Kept.refl s, Kept.upd, kept_hoopPages, kept_wb, kept_setRole, kept_setHoop, kept_raise])

theorem runs_sensorFrame (hoop die : Nat) (s : State) : Runs s (execSensorFrame hoop die s) := by
  refine Kept.runs (Kept.ite (Kept.upd (Kept.ite ?_ ?_) rfl) (Kept.refl s))
  · exact kept_hopReport (kept_addSat (Kept.refl s) ..) ..
  · rcases State.acting _ with _ | a
    · exact kept_hopReport (kept_addSat (Kept.refl s) ..) ..
    · exact kept_raise (kept_inc (kept_hopReport (kept_addSat (Kept.refl s) ..) ..) ..) ..

theorem runs_hopDown (die hop : Nat) (s : State) : Runs s (execHopDown die hop s) := by
  unfold execHopDown
  exact Kept.runs (by grind [Kept.refl s, Kept.upd, kept_hopReport])

theorem runs_cadenceMessage (die : Nat) (good : Bool) (s : State) : Runs s (execCadenceMessage die good s) := by
  unfold execCadenceMessage
  exact Kept.runs (by grind [Kept.refl s, Kept.upd, kept_raise])

theorem runs_cadenceApply (s : State) : Runs s (execCadenceApply s) := by
  unfold execCadenceApply
  exact Kept.runs (by grind [Kept.refl s, Kept.upd, kept_frame, kept_passSlots, kept_toFrame, kept_showN])

theorem runs_alignIssue (hoop delay : Nat) (s : State) : Runs s (execAlignIssue hoop delay s) := by
  unfold execAlignIssue
  exact Kept.runs (by grind [Kept.refl s, Kept.upd])

theorem runs_alignEffect (silent : List Nat) (s : State) : Runs s (execAlignEffect silent s) := by
  unfold execAlignEffect
  exact Kept.runs (by grind [Kept.refl s, Kept.upd, Kept.foldl, kept_toTick, kept_inc, kept_wb, kept_showN])

theorem runs_alignAttemptTimeout (s : State) : Runs s (execAlignAttemptTimeout s) := by
  unfold execAlignAttemptTimeout
  exact Kept.runs (by grind [Kept.refl s, kept_toTick, kept_alignFail])

theorem runs_noticeFrame (die : Nat) (s : State) : Runs s (execNoticeFrame die s) := by
  unfold execNoticeFrame
  exact Kept.runs (by grind [Kept.refl s, Kept.upd, kept_laserNote, kept_alignFail, kept_breakTake])

theorem runs_frameCheck (die count : Nat) (s : State) : Runs s (execFrameCheck die count s) := by
  unfold execFrameCheck
  exact Kept.runs (by grind [Kept.refl s, Kept.upd, kept_frame, kept_passSlots, kept_wb, kept_raise])

/-! Commands of start-up, register access and commits. -/

theorem runs_wordAlignRound (weft fib : Nat) (s : State) : Runs s (execWordAlignRound weft fib s) := by
  unfold execWordAlignRound
  exact Kept.runs (by grind [Kept.refl s, kept_fwWrite, kept_fibSlip])

theorem runs_calRecompute (die : Nat) (s : State) : Runs s (execCalRecompute die s) := by
  unfold execCalRecompute
  exact Kept.runs (by grind [Kept.refl s, kept_fwWrite, kept_calDue])

theorem runs_stage3Entry (s : State) : Runs s (execStage3Entry s) := by
  unfold execStage3Entry
  exact Kept.runs (by grind [Kept.refl s, kept_enterStage])

theorem runs_stage4Entry (s : State) : Runs s (execStage4Entry s) := by
  unfold execStage4Entry
  exact Kept.runs (by grind [Kept.refl s, kept_toTick, kept_light, kept_enterStage])

theorem runs_stageLate (stage : Nat) (s : State) : Runs s (execStageLate stage s) := by
  unfold execStageLate
  exact Kept.runs (by grind [Kept.refl s, kept_toTick, kept_stageLate])

theorem runs_hbmPhyTrained (die stack : Nat) (s : State) : Runs s (execHbmPhyTrained die stack s) := by
  unfold execHbmPhyTrained
  exact Kept.runs (by grind [Kept.refl s, kept_wb])

theorem runs_quietWindow (die : Nat) (pcs : List Nat) (len : Nat) (reject : Bool) (s : State) : Runs s (execQuietWindow die pcs len reject s) := by
  unfold execQuietWindow
  exact Kept.runs (by grind [Kept.refl s, Kept.upd, Kept.foldl, kept_raise])

theorem runs_caParityError (die stack : Nat) (s : State) : Runs s (execCaParityError die stack s) := by
  unfold execCaParityError
  exact Kept.runs (by grind [Kept.refl s, kept_raise])

theorem runs_vddAonInBand (codes : List Nat) (s : State) : Runs s (execVddAonInBand codes s) := by
  unfold execVddAonInBand
  exact Kept.runs (by grind [Kept.refl s, Kept.upd])

theorem runs_stage0Entry (s : State) : Runs s (execStage0Entry s) := by
  unfold execStage0Entry
  exact Kept.runs (by grind [Kept.refl s, Kept.upd])

theorem runs_resetAssert (s : State) : Runs s (execResetAssert s) := by
  unfold execResetAssert
  exact Kept.runs (by grind [Kept.refl s, kept_powerReset])

theorem runs_aonFault (s : State) : Runs s (execAonFault s) := by
  unfold execAonFault
  exact Kept.runs (by grind [Kept.refl s, kept_powerReset])

theorem runs_resetRelease (unstable : Bool) (s : State) : Runs s (execResetRelease unstable s) := by
  unfold execResetRelease
  exact Kept.runs (by grind [Kept.refl s, Kept.upd, Kept.foldl, kept_wr, kept_wb])

theorem runs_profSelChange (level : Nat) (s : State) : Runs s (execProfSelChange level s) := by
  unfold execProfSelChange
  exact Kept.runs (by grind [Kept.refl s, Kept.upd, Kept.foldl, kept_wr, kept_raise])

theorem runs_railFault (rail die : Nat) (s : State) : Runs s (execRailFault rail die s) := by
  unfold execRailFault
  exact Kept.runs (by grind [Kept.refl s, kept_haltNow])

theorem runs_refclkLoss (s : State) : Runs s (execRefclkLoss s) := by
  unfold execRefclkLoss
  exact Kept.runs (by grind [Kept.refl s, Kept.upd, kept_wb, kept_haltNow])

theorem runs_secureBoot (hoop : Nat) (a b : Nat × Bool × Nat) (selftest : Bool) (s : State) : Runs s (execSecureBoot hoop a b selftest s) := by
  refine Kept.runs (Kept.ite ?_ (Kept.refl s))
  dsimp only
  split
  · refine Kept.ite (Kept.ite (kept_raise (kept_stage1 ?_ _) ..) (kept_stage1 ?_ _))
      (kept_raise (Kept.ite (kept_raise (kept_wr (kept_hoopPages ?_ _) ..) ..) (kept_wr (kept_hoopPages ?_ _) ..)) ..) <;>
      exact kept_wr (kept_wr (Kept.refl s) ..) ..
  · exact kept_raise (kept_wr (Kept.foldl _ (fun _ _ k => kept_wb (kept_setUp k ..) ..) (Kept.refl s)) ..) ..

theorem runs_i3cRead (sensor : Nat) (s : State) : Runs s (execI3cRead sensor s) := by
  unfold execI3cRead
  exact Kept.runs (by grind [Kept.refl s, Kept.upd])

theorem runs_profileSaveComplete (ok0 ok1 : Bool) (s : State) : Runs s (execProfileSaveComplete ok0 ok1 s) := by
  refine Kept.runs ?_
  split
  · exact Kept.refl s
  · have into : ∀ {t : State} {h f}, Kept s t → Kept s ((t.setFlash h f).showValid h) := fun k => kept_showValid (kept_setFlash k ..) _
    refine Kept.ite ?_ (kept_saveErr ?_ _) <;> refine Kept.ite (into (Kept.ite (into ?_) ?_)) (Kept.ite (into ?_) ?_) <;>
      exact kept_wb (Kept.upd (Kept.refl s) rfl) ..

theorem runs_tagSaveComplete (ok : Bool) (s : State) : Runs s (execTagSaveComplete ok s) := by
  unfold execTagSaveComplete
  exact Kept.runs (by grind [Kept.refl s, Kept.upd, Kept.foldl, kept_tagSave, kept_wb, kept_setFlash, kept_raise])

theorem runs_vendorScrubDone (s : State) : Runs s (execVendorScrubDone s) := by
  refine Kept.runs ?_
  split
  · exact Kept.refl s
  · refine Kept.ite ?_ (kept_wb (kept_wr (Kept.upd (Kept.foldl _ (fun _ _ k => kept_dieReset k _) ?_) rfl) ..) ..) <;>
      exact kept_setLevel (kept_wb (kept_wb (kept_scrub (Kept.upd (Kept.refl s) rfl)) ..) ..) ..

theorem runs_doeMailbox (hoop : Nat) (s : State) : Runs s (execDoeMailbox hoop s) := by
  unfold execDoeMailbox
  exact Kept.runs (by grind [Kept.refl s, Kept.upd, kept_draw])

theorem runs_softResetComplete (page : Nat) (s : State) : Runs s (execSoftResetComplete page s) := by
  unfold execSoftResetComplete
  exact Kept.runs (by grind [Kept.refl s, Kept.upd, kept_softDone])

theorem runs_readRespFrame (hoop : Nat) (s : State) : Runs s (execReadRespFrame hoop s) := by
  unfold execReadRespFrame
  exact Kept.runs (by grind [Kept.refl s, Kept.upd, kept_complete])

theorem runs_twineGapSkip (src dst : Nat) (s : State) : Runs s (execTwineGapSkip src dst s) := by
  unfold execTwineGapSkip
  exact Kept.runs (by grind [Kept.refl s, Kept.upd, Kept.foldl, kept_toTick, kept_inc, kept_raise, kept_drainPair])

theorem runs_multiwordLowRead (hoop page off len : Nat) (ue : Bool) (s : State) : Runs s (execMultiwordLowRead hoop page off len ue s) := by
  unfold execMultiwordLowRead
  exact Kept.runs (by grind [Kept.refl s, kept_hostRead])

theorem runs_noAnswer (hoop page off : Nat) (s : State) : Runs s (execNoAnswer hoop page off s) := by
  unfold execNoAnswer
  exact Kept.runs (by grind [Kept.refl s, Kept.upd, kept_toTick, kept_reject, kept_complete])

theorem runs_bar0Write (hoop page off val be : Nat) (s : State) : Runs s (execBar0Write hoop page off val be s) := by
  unfold execBar0Write
  exact Kept.runs (by grind [Kept.refl s, kept_hostWrite])

theorem runs_dmaComplete (hoop chan : Nat) (data : List Byte) (poi : Bool) (err moved : Nat) (hits : List EccHit) (stk : Option Bool) (s : State) :
    Runs s (execDmaComplete hoop chan data poi err moved hits stk s) := by
  unfold execDmaComplete
  exact Kept.runs (by grind [Kept.refl s, kept_dmaComplete])

theorem runs_sbCounterClear (hoop page val : Nat) (s : State) : Runs s (execSbCounterClear hoop page val s) := by
  unfold execSbCounterClear
  exact Kept.runs (by grind [Kept.refl s, kept_hostWrite, kept_rowWrite])

theorem runs_calCommit (hoop page val : Nat) (ecc : Option Bool) (s : State) : Runs s (execCalCommit hoop page val ecc s) := by
  unfold execCalCommit
  exact Kept.runs (by grind [Kept.refl s, kept_rowWrite])

theorem runs_snapFrame (die hoop : Nat) (s : State) : Runs s (execSnapFrame die hoop s) := by
  unfold execSnapFrame
  exact Kept.runs (by grind [Kept.refl s, Kept.upd, kept_setSnap, kept_latchDie])

theorem runs_snapshotLatch (hoop : Nat) (s : State) : Runs s (execSnapshotLatch hoop s) := by
  unfold execSnapshotLatch
  exact Kept.runs (by grind [Kept.refl s, Kept.upd, kept_toTick, kept_latchAll])

theorem runs_snapshotComplete (hoop : Nat) (s : State) : Runs s (execSnapshotComplete hoop s) := by
  unfold execSnapshotComplete
  exact Kept.runs (by grind [Kept.refl s, Kept.upd, kept_snapDone])

theorem runs_snapshotTimeout (hoop : Nat) (s : State) : Runs s (execSnapshotTimeout hoop s) := by
  unfold execSnapshotTimeout
  exact Kept.runs (by grind [Kept.refl s, Kept.upd, kept_toTick, kept_snapDone])

theorem runs_prepare (die : Nat) (s : State) : Runs s (execPrepare die s) := by
  unfold execPrepare
  exact Kept.runs (by grind [Kept.refl s, Kept.upd, kept_discardIn, kept_prepare])

theorem runs_stageAns (die : Nat) (s : State) : Runs s (execStageAns die s) := by
  unfold execStageAns
  exact Kept.runs (by grind [Kept.refl s, Kept.upd, kept_judge])

theorem runs_commitAckTimeout (s : State) : Runs s (execCommitAckTimeout s) := by
  unfold execCommitAckTimeout
  exact Kept.runs (by grind [Kept.refl s, kept_toTick, kept_judge])

theorem runs_commitMark (die : Nat) (s : State) : Runs s (execCommitMark die s) := by
  unfold execCommitMark
  exact Kept.runs (by grind [Kept.refl s, Kept.upd])

theorem runs_commitApply (s : State) : Runs s (execCommitApply s) := by
  unfold execCommitApply
  exact Kept.runs (by grind [Kept.refl s, Kept.upd, Kept.foldl, kept_latchDue, kept_toFrame, kept_applyPage, kept_dropStage, kept_stageIdle, kept_wb,
      kept_frame, kept_addWrap])

theorem runs_stageDiscard (die : Nat) (s : State) : Runs s (execStageDiscard die s) := by
  unfold execStageDiscard
  exact Kept.runs (by grind [Kept.refl s, Kept.upd, kept_discardIn])

theorem runs_frozenBufferTimeout (die : Nat) (s : State) : Runs s (execFrozenBufferTimeout die s) := by
  unfold execFrozenBufferTimeout
  exact Kept.runs (by grind [Kept.refl s, Kept.upd, kept_toTick, kept_dropStage])

theorem runs_imageLoad (hoop : Nat) (im : Image) (s : State) : Runs s (execImageLoad hoop im s) := by
  unfold execImageLoad
  exact Kept.runs (by grind [Kept.refl s, Kept.upd, Kept.foldl, kept_hostWrite, kept_preload, kept_loadDeliver])

theorem runs_jtagAccess (tgt : JtagAt) (wr : Option Nat) (s : State) : Runs s (execJtagAccess tgt wr s) := by
  unfold execJtagAccess
  exact Kept.runs (by grind [Kept.refl s, Kept.upd, kept_jtagWrite])

/-- Every command answers a next state, leaves the queue alone and keeps every sparse map canonical. -/
theorem exec_runs (i : Instr) (s : State) : Runs s (exec i s) := by
  cases i with
  | keyUnlock | softReset | fstatClear =>
    exact (kept_hostWrite (Kept.refl s) ..).runs
  | snapshotRequest | stageOpen | stageClose | commit | tagSave | tileEnable | accModeWrite | tileZero | tgCounterClear | programArm
  | programLoaded | programStop | tableWrite | eventDoorbell | osCounterClear | stakeWrite | stSchedWrite | stCounterClear | mcCounterClear
  | rankTableWrite | ceSchedWrite | ceCounterClear | pkgTimeArm | dlatAck | breakpointRelease | retrain | holdReq | repairWrite
  | wlCounterClear | planeEnable | fibSlip | reacqTx | reacqRx | rdCalCommit | recal | laserOnWrite | allOff | spare | fibCounterClear
  | seberEnable | sbDrain | sbReset | sbLaneDrop | sbLaneReturnWrite | leaseGrant | leaseRenew | leaseStandby | wdogKick | mirrorResync
  | hpCounterClear | faultAck | faultIntClear | faultPinClear | faultCoalWrite | crashLogClear | faultCounterClear | pcieWinWrite | sqMark
  | sqRewind | sqRelease | wmHitClear | sqFlush | sqReset | sqCounterClear | dmaRestart | dmaEnable | huabelNextWrite | pcieCounterClear
  | sensorForceSet | sensorForceClr | safeClear | driverLimitWrite | ageLogClear | thCounterClear | startGo | profileStagingLoad
  | profileSave | keyProgram | keyRevoke | lifecycleRequest | debugRequest | debugResponse | jtagSkip =>
    exact (kept_rowWrite (Kept.refl s) ..).runs
  | resultLand | residentChunkRead | mmaRowUpdate =>
    exact (kept_tileTo (Kept.refl s) ..).runs
  | sli | sadd | saddi | ssub | smul | smuli | sand | sandi | sor | sori | sxor | sxori | sshl | sshli | sshr | sshri | ssra | ssrai | smin
  | smax | sslt | ssltu | ali | aaddi | aadd | amov | srda | loop | cset | srdc | pxkey | pxstep | pxinc | scyc | sync | tileEnd =>
    exact (kept_scSlot (Kept.refl s) ..).runs
  | vld | vst | vldbc | sld | sst | sld2 | sst2 =>
    exact (kept_lsSlot (Kept.refl s) ..).runs
  | nmSend | nmReceive =>
    exact (kept_issue (Kept.refl s) ..).runs
  | vmov | viadd | visub | vimul | vimin | vimax | vand | vor | vxor | vandn | vshl | vshr | vsra | vshli | vshri | vsrai | vsel | vbcs
  | vext | vins | vrot | vlane | vfabs | vfneg | vcmpf | vcmpi | mand | mor | mxor | mandn | mfromv | mtov | vfadd | vfsub | vfmul | vffma
  | vfmax | vfmin | vbadd | vbmul | vbfma | vcvtn | vcvtw | vcvti | vcvtf | vmxs | vexp2 | vlog2 | vrcp | vrsqrt | vsqrt | vtanh | vsint
  | vcost | vrand | vacr | vacrr | vacw | vacwr =>
    exact (kept_vxSlot (Kept.refl s) ..).runs
  | mma | rload =>
    exact (kept_mxSlot (Kept.refl s) ..).runs
  | stRd | stWr | rdw | wrw | mw | wm | sload | loadt =>
    exact (kept_startDesc (Kept.refl s) _ _ _ _ _ fun _ _ k => kept_runDesc k ..).runs
  | bread | bwrite =>
    exact (kept_startDesc (Kept.refl s) _ _ _ _ _ fun _ _ k => kept_borrowStart k ..).runs
  | edin | edout | win | wout | lcomb | ceGrid | cePack | roundGrid | rnd96 =>
    exact (kept_ceStart (Kept.refl s) _ _ _ _ fun _ _ k => kept_ceRun k ..).runs
  | waleIdleFlit | waleSideFlit | waleProgFlit | waleNullFlit | waleEmptyFlit =>
    exact (kept_rxKind (Kept.refl s) ..).runs
  | clockLoss =>
    exact (kept_wlFollow (Kept.refl s) ..).runs
  | trainCell =>
    exact (kept_sbRx (Kept.refl s) _ _ _ _ _ _ fun _ k => kept_trainIn k ..).runs
  | idleCell =>
    exact (kept_sbRx (Kept.refl s) _ _ _ _ _ _ fun _ k => kept_sbGood k ..).runs
  | dataCell | relayCell =>
    exact (kept_sbRx (Kept.refl s) _ _ _ _ _ _ fun _ k => kept_sbTake k ..).runs
  | reservedCell =>
    exact (kept_sbRx (Kept.refl s) _ _ _ _ _ _ fun _ k => kept_inc k ..).runs
  | twineWriteFrame | twineReadFrame =>
    exact (kept_frame (Kept.refl s) ..).runs
  | stage2Entry =>
    exact (kept_enterStage (Kept.refl s) ..).runs
  | bar0Write => exact runs_bar0Write ..
  | multiwordLowRead => exact runs_multiwordLowRead ..
  | noAnswer => exact runs_noAnswer ..
  | softResetComplete => exact runs_softResetComplete ..
  | snapFrame => exact runs_snapFrame ..
  | snapshotLatch => exact runs_snapshotLatch ..
  | snapshotComplete => exact runs_snapshotComplete ..
  | snapshotTimeout => exact runs_snapshotTimeout ..
  | prepare => exact runs_prepare ..
  | stageAns => exact runs_stageAns ..
  | commitAckTimeout => exact runs_commitAckTimeout ..
  | commitMark => exact runs_commitMark ..
  | commitApply => exact runs_commitApply ..
  | stageDiscard => exact runs_stageDiscard ..
  | frozenBufferTimeout => exact runs_frozenBufferTimeout ..
  | tagSaveComplete => exact runs_tagSaveComplete ..
  | tileZeroComplete => exact runs_tileZeroComplete ..
  | emptyBundle => exact runs_emptyBundle ..
  | invalidBlockIssue => exact runs_invalidBlockIssue ..
  | loadDelivery => exact runs_loadDelivery ..
  | tileEnterHeld => exact runs_tileEnterHeld ..
  | tileEnterIdle => exact runs_tileEnterIdle ..
  | frameCheck => exact runs_frameCheck ..
  | cadenceMessage => exact runs_cadenceMessage ..
  | cadenceApply => exact runs_cadenceApply ..
  | alignIssue => exact runs_alignIssue ..
  | alignEffect => exact runs_alignEffect ..
  | alignAttemptTimeout => exact runs_alignAttemptTimeout ..
  | meshFlitForward => exact runs_meshFlitForward ..
  | dieReady => exact runs_dieReady ..
  | dieArrival => exact runs_dieArrival ..
  | syncNotice => exact runs_syncNotice ..
  | syncRelease => exact runs_syncRelease ..
  | syncTimeout => exact runs_syncTimeout ..
  | programEnd => exact runs_programEnd ..
  | stopComplete => exact runs_stopComplete ..
  | waleProgramSlot => exact runs_waleProgramSlot ..
  | sideFlitService => exact runs_sideFlitService ..
  | imageLoad => exact runs_imageLoad ..
  | stNop => exact runs_stNop ..
  | stEndseg => exact runs_stEndseg ..
  | transactionIssue => exact runs_transactionIssue ..
  | readUnitRelease => exact runs_readUnitRelease ..
  | refreshRateChange => exact runs_refreshRateChange ..
  | patrolScrub => exact runs_patrolScrub ..
  | neighbourRequest => exact runs_neighbourRequest ..
  | lenderRequest => exact runs_lenderRequest ..
  | borrowComplete => exact runs_borrowComplete ..
  | borrowTimeout => exact runs_borrowTimeout ..
  | hostWindowAccess => exact runs_hostWindowAccess ..
  | engineAbortDone => exact runs_engineAbortDone ..
  | ceNop => exact runs_ceNop ..
  | ceSend => exact runs_ceSend ..
  | ceRecv => exact runs_ceRecv ..
  | ceEndseg => exact runs_ceEndseg ..
  | ceItem => exact runs_ceItem ..
  | seberTransmitSlot => exact runs_seberTransmitSlot ..
  | seberDeliverySlot => exact runs_seberDeliverySlot ..
  | ceAbortDone => exact runs_ceAbortDone ..
  | epochInEdge => exact runs_epochInEdge ..
  | epochStuck => exact runs_epochStuck ..
  | borderArrival => exact runs_borderArrival ..
  | borderRelease => exact runs_borderRelease ..
  | auditCollect => exact runs_auditCollect ..
  | waleTrainFlit => exact runs_waleTrainFlit ..
  | waleTokenFlit => exact runs_waleTokenFlit ..
  | programFlitRelease => exact runs_programFlitRelease ..
  | trainingPhaseDone => exact runs_trainingPhaseDone ..
  | waleTrainFail => exact runs_waleTrainFail ..
  | holdPattern => exact runs_holdPattern ..
  | inputLit => exact runs_inputLit ..
  | inputDark => exact runs_inputDark ..
  | acquireDone => exact runs_acquireDone ..
  | acquireRetry => exact runs_acquireRetry ..
  | blockLock => exact runs_blockLock ..
  | lockLoss => exact runs_lockLoss ..
  | wordAlignRound => exact runs_wordAlignRound ..
  | adaptationWindowEnd => exact runs_adaptationWindowEnd ..
  | plausibilityCheck => exact runs_plausibilityCheck ..
  | calRecompute => exact runs_calRecompute ..
  | calCommit => exact runs_calCommit ..
  | calBankExchange => exact runs_calBankExchange ..
  | loopbackIdentity => exact runs_loopbackIdentity ..
  | loopbackTimeout => exact runs_loopbackTimeout ..
  | laserGroupStart => exact runs_laserGroupStart ..
  | laserWarmEnd => exact runs_laserWarmEnd ..
  | rdLaserFail => exact runs_rdLaserFail ..
  | rdPwrLow => exact runs_rdPwrLow ..
  | rdSwitchFail => exact runs_rdSwitchFail ..
  | seberTrainSend => exact runs_seberTrainSend ..
  | lockedTimeout => exact runs_lockedTimeout ..
  | ackCell => exact runs_ackCell ..
  | nakCell => exact runs_nakCell ..
  | creditCell => exact runs_creditCell ..
  | lanesetCell => exact runs_lanesetCell ..
  | lsackCell => exact runs_lsackCell ..
  | collideCell => exact runs_collideCell ..
  | drainCell => exact runs_drainCell ..
  | cellTransmit => exact runs_cellTransmit ..
  | cellDelivery => exact runs_cellDelivery ..
  | ackTimeout => exact runs_ackTimeout ..
  | periodicAck => exact runs_periodicAck ..
  | periodicCredit => exact runs_periodicCredit ..
  | bulkGrant => exact runs_bulkGrant ..
  | lanesetRepeat => exact runs_lanesetRepeat ..
  | retirementWindowEnd => exact runs_retirementWindowEnd ..
  | sbLaneReturn => exact runs_sbLaneReturn ..
  | sbFailed => exact runs_sbFailed ..
  | drainComplete => exact runs_drainComplete ..
  | sbDrainTmo => exact runs_sbDrainTmo ..
  | sbCounterClear => exact runs_sbCounterClear ..
  | readRespFrame => exact runs_readRespFrame ..
  | faultFrame => exact runs_faultFrame ..
  | sensorFrame => exact runs_sensorFrame ..
  | noticeFrame => exact runs_noticeFrame ..
  | twineGapSkip => exact runs_twineGapSkip ..
  | hopDown => exact runs_hopDown ..
  | leaseExpired => exact runs_leaseExpired ..
  | renewalRequest => exact runs_renewalRequest ..
  | takeoverDone => exact runs_takeoverDone ..
  | epochRaise => exact runs_epochRaise ..
  | overlapEnd => exact runs_overlapEnd ..
  | heartbeatSend => exact runs_heartbeatSend ..
  | heartbeat => exact runs_heartbeat ..
  | hoopPeerLost => exact runs_hoopPeerLost ..
  | soloHoldoff => exact runs_soloHoldoff ..
  | soloEntry => exact runs_soloEntry ..
  | wdogExpired => exact runs_wdogExpired ..
  | hoopRebootDone => exact runs_hoopRebootDone ..
  | mirrorSend => exact runs_mirrorSend ..
  | mirrorFrame => exact runs_mirrorFrame ..
  | mirrorCommit => exact runs_mirrorCommit ..
  | repeatRecord => exact runs_repeatRecord ..
  | containExpiry => exact runs_containExpiry ..
  | haltExpiry => exact runs_haltExpiry ..
  | haltNotice => exact runs_haltNotice ..
  | ackAtPage => exact runs_ackAtPage ..
  | ackNoAnswer => exact runs_ackNoAnswer ..
  | perst => exact runs_perst ..
  | cmdDataWrite => exact runs_cmdDataWrite ..
  | cmdDataEndWrite => exact runs_cmdDataEndWrite ..
  | cmdStatusRead => exact runs_cmdStatusRead ..
  | eventPop => exact runs_eventPop ..
  | eventPeek => exact runs_eventPeek ..
  | cmdQueueRead => exact runs_cmdQueueRead ..
  | bankSwap => exact runs_bankSwap ..
  | eventPacketOffer => exact runs_eventPacketOffer ..
  | slewPtr => exact runs_slewPtr ..
  | flushTrunc => exact runs_flushTrunc ..
  | dmaDescriptor => exact runs_dmaDescriptor ..
  | dmaComplete => exact runs_dmaComplete ..
  | ptmDialogue => exact runs_ptmDialogue ..
  | sensorSample => exact runs_sensorSample ..
  | tempWarn => exact runs_tempWarn ..
  | tempWarnClear => exact runs_tempWarnClear ..
  | throttle => exact runs_throttle ..
  | powerUpdate => exact runs_powerUpdate ..
  | overcurrent => exact runs_overcurrent ..
  | thermalTrip => exact runs_thermalTrip ..
  | boardTrip => exact runs_boardTrip ..
  | tripRestart => exact runs_tripRestart ..
  | ageLogRetry => exact runs_ageLogRetry ..
  | ageingSample => exact runs_ageingSample ..
  | stage0Entry => exact runs_stage0Entry ..
  | secureBoot => exact runs_secureBoot ..
  | stage3Entry => exact runs_stage3Entry ..
  | stage4Entry => exact runs_stage4Entry ..
  | stageLate => exact runs_stageLate ..
  | i3cRead => exact runs_i3cRead ..
  | profSelChange => exact runs_profSelChange ..
  | vendorScrubDone => exact runs_vendorScrubDone ..
  | jtagAccess => exact runs_jtagAccess ..
  | resetAssert => exact runs_resetAssert ..
  | resetRelease => exact runs_resetRelease ..
  | railFault => exact runs_railFault ..
  | refclkLoss => exact runs_refclkLoss ..
  | aonFault => exact runs_aonFault ..
  | epochOutPulse => exact runs_epochOutPulse ..
  | hbmPhyTrained => exact runs_hbmPhyTrained ..
  | quietWindow => exact runs_quietWindow ..
  | caParityError => exact runs_caParityError ..
  | linkLeftL0 => exact runs_linkLeftL0 ..
  | aerError => exact runs_aerError ..
  | vddAonInBand => exact runs_vddAonInBand ..
  | stuckClear => exact runs_stuckClear ..
  | firmwareMemoryUe => exact runs_firmwareMemoryUe ..
  | profileSaveComplete => exact runs_profileSaveComplete ..
  | doeMailbox => exact runs_doeMailbox ..

/-- Settles O1: both clauses are `step` unfolded at its two shapes of queue. -/
theorem stepRunsTheFrontCommand : Obligations.StepRunsTheFrontCommand := by
  unfold Obligations.StepRunsTheFrontCommand step
  exact ⟨fun _ _ _ => rfl, fun s h => by rw [h]⟩

/-- Settles O2, by the law of the command at the front; an empty queue only lets time pass. -/
theorem everyStepKeepsSoundStates : Obligations.EveryStepKeepsSoundStates := by
  unfold Obligations.EveryStepKeepsSoundStates step
  intro s w
  cases hq : s.pending with
  | nil =>
    have k := kept_passSlots (Kept.refl s) 1
    exact ⟨_, rfl, k.wf w, k.pending.trans hq⟩
  | cons c r =>
    obtain ⟨t, ht, k⟩ := exec_runs c { s with pending := r }
    exact ⟨t, ht, k.wf { w with }, k.pending⟩

end Sys2Proof.Machine
end

section
/-! SUPPORT. Pages whose block was never brought up (R55): what they read and that they refuse every write (O30). -/

namespace Sys2Proof.Machine
open Sys2Proof

/-- The fields of PG_STATUS. -/
theorem fieldsIn_status (b : Blk) : fieldsIn b 0xC = [R.PG_STATUS_ALIVE, R.PG_STATUS_KEY_OPEN, R.PG_STATUS_STAGE_PEND, R.PG_STATUS_STAGE_OVF,
    R.PG_STATUS_FENCE_REJ, R.PG_STATUS_REJ, R.PG_STATUS_BLOCK] := rfl

/-- A field above bit 0 of its word leaves that bit of the word 0. -/
theorem partIn_even {f : Fld} (h : 0 < f.lo) (v : Nat) : f.partIn f.off v % 2 = 0 := by
  have hstart : ¬ f.off * 8 + f.lo ≤ f.off * 8 := by omega
  have heven : 2 ∣ v * 2 ^ f.lo := Dvd.dvd.mul_left (dvd_pow_self 2 (by omega)) v
  simp only [Fld.partIn, hstart, if_false, Nat.add_sub_cancel_left]
  omega

/-- A word keeps its parity when fields above bit 0 are added. -/
theorem foldl_partIn_even {off : Nat} {fs : List Fld} (v : Fld → Nat) (h : ∀ f ∈ fs, f.off = off ∧ 0 < f.lo) (a : Nat) :
    (fs.foldl (fun a f => a + f.partIn off (v f)) a) % 2 = a % 2 := by
  induction fs generalizing a with
  | nil => rfl
  | cons f fs ih =>
    obtain ⟨rfl, hlo⟩ := h f List.mem_cons_self
    rw [List.foldl_cons, ih (fun g hg => h g (List.mem_cons_of_mem _ hg)), Nat.add_mod, partIn_even hlo, Nat.add_zero, Nat.mod_mod]

/-- Bit 0 of PG_STATUS is ALIVE. -/
theorem liveWord_status_of_not_alive {s : State} {p : Nat} (b : Blk) (h : s.alive p = false) : s.liveWord p b 0xC % 2 = 0 := by
  have hlive : s.live p b R.PG_STATUS_ALIVE = 0 := by simp [State.live, State.liveHdr, R.PG_STATUS_ALIVE, h]
  rw [State.liveWord, fieldsIn_status, List.foldl_cons, foldl_partIn_even _ (by decide), hlive]
  rfl

/-- A read of a page that shows no registers is the page's own and fills no holding register. -/
theorem busRead_of_not_shows {s : State} {h p off : Nat} (hs : s.shows p off = false) : s.busRead h p off = (s, s.readAt p off) := by
  unfold State.busRead State.readAt
  split <;> simp_all

variable {s : State} {p : Nat} {b : Blk}

theorem shows_never (hn : (s.page p).up = .never) (off : Nat) : s.shows p off = false := by simp [State.shows, hn]

/-- A page never brought up reads PG_ID and PG_STATUS alone (R55). -/
theorem readAt_never (hb : pageBlk p = some b) (hn : (s.page p).up = .never) (off : Nat) :
    s.readAt p off = if off = 0 || off = 0xC then s.liveWord p b off else 0 := by
  simp [State.readAt, hb, hn]

/-- A page never brought up refuses every write with NOT_ALIVE (R55). -/
theorem writeCause_never (hb : pageBlk p = some b) (hn : (s.page p).up = .never) (off val be epoch : Nat) (own : Bool) :
    s.writeCause p off val be epoch own = some 1 := by
  simp [State.writeCause, hb, hn]

/-- Settles O30, by the read and the write of a page that was never brought up. -/
theorem neverUpPagesReadZeroAndRejectWrites : Obligations.NeverUpPagesReadZeroAndRejectWrites := by
  unfold Obligations.NeverUpPagesReadZeroAndRejectWrites
  refine ⟨fun s h p off val be epoch own b hb hn => ?_, fun _ => rfl⟩
  have hread (off : Nat) : s.busRead h p off = (s, if off = 0 || off = 0xC then s.liveWord p b off else 0) := by
    rw [busRead_of_not_shows (shows_never hn off), readAt_never hb hn]
  have halive : s.alive p = false := by simp [State.alive, hn]
  refine ⟨by rw [hread], by simp [hread], by simp [hread], ?_, fun h0 h12 => by simp [hread, h0, h12], writeCause_never hb hn ..⟩
  simpa [hread] using liveWord_status_of_not_alive b halive
end Sys2Proof.Machine
end

section
/-! SUPPORT. Host accesses through BAR0 (02_register_pages.md): how a write reaches its page, what a rejected one leaves behind, and what a read
gives (O29, O30, O31). -/

namespace Sys2Proof.Machine
open Sys2Proof

section
variable {s : State} {h p off : Nat}

/-- A word-aligned offset of a page is the offset its access acts on. -/
theorem wordOff_self (h4 : off % 4 = 0) (hlt : off < 0x1000) : off % 0x1000 / 4 * 4 = off := by omega

/-- The word that leaves the Hoop for page `p`, of the word `val` the host writes. -/
def State.sentWord (s : State) (h p off val : Nat) : Nat := (s.judged h p).overlapWord h p off (val % 2 ^ 32)

/-- A host write that reaches its page is judged there. -/
theorem hostWrite_reached (h4 : off % 4 = 0) (hlt : off < 0x1000) (hs : s.serves h = true) (hr : s.reaches h p = true)
    (hv : s.overlapBars h p off = false) (val be : Nat) (x : WrX) :
    s.hostWrite h p off val be x = (s.judged h p).deliver h p off (s.sentWord h p off val) (be % 16)
      ((s.judged h p).writeEpoch h p off (s.sentWord h p off val)) x := by
  simp only [State.hostWrite, wordOff_self h4 hlt, hs, hr, hv, State.judged, State.sentWord]
  rfl

theorem exec_bar0Write (h p off val be : Nat) (s : State) :
    exec (.bar0Write h p off val be) s = .next (if be / 16 % 16 = 0 then s.hostWrite h p off val be {}
      else (if be % 16 = 0 then s else s.hostWrite h p off val be {}).hostWrite h p (off + 4) (val / 2 ^ 32) (be / 16) {}) := rfl

/-- A BAR0_WRITE of at most four byte enables is one host write. -/
theorem exec_bar0Write_one {be : Nat} (hbe : be < 16) (h p off val : Nat) (s : State) :
    exec (.bar0Write h p off val be) s = .next (s.hostWrite h p off val be {}) := by
  rw [exec_bar0Write, if_pos (by omega)]

theorem exec_noAnswer (h p off : Nat) (s : State) :
    exec (.noAnswer h p off) s = .next (if s.serves h then
      let e := s.toTick (s.clk.tick + 150)
      (State.reject { e with ring := { e.ring with resps := e.ring.resps.filter fun r => !(decide (r.hoop = h) && decide (r.page = p)) } } p
        (off % 0x1000 / 4 * 4) 7).complete ⟨h, cplBytes 0xFFFFFFFF, false, false⟩
    else s) := rfl

theorem toTick_out (s : State) (n : Nat) : (s.toTick n).out = s.out := by
  unfold State.toTick
  split <;> rfl

/-! Rejections (R57). -/

/-- A rejection counts, keeps page, offset and cause, and marks a page that is alive. -/
theorem reject_eq (e : State) (p off c : Nat) (hc : c ≠ 7) :
    e.reject p off c =
      let f := ((e.inc pkg0 R.PKG_REJ_CNT).wr pkg0 R.PKG_REJ_LAST_OFFSET (p * 0x1000 + off)).wr pkg0 R.PKG_REJ_LAST_CAUSE c
      if e.alive p then (if c = 3 then f.wb p R.PG_STATUS_FENCE_REJ true else f.wb p R.PG_STATUS_REJ true) else f := by
  have halive : (((e.inc pkg0 R.PKG_REJ_CNT).wr pkg0 R.PKG_REJ_LAST_OFFSET (p * 0x1000 + off)).wr pkg0 R.PKG_REJ_LAST_CAUSE c).alive p = e.alive p := rfl
  simp only [State.reject, halive, hc, ne_eq, not_false_eq_true, decide_true, Bool.and_true]

/-- Table 2-4 gives NO_ANSWER to no write that reaches its page. -/
theorem writeCause_ne_noAnswer {val be epoch c : Nat} {own : Bool} (h : s.writeCause p off val be epoch own = some c) : c ≠ 7 := by
  unfold State.writeCause at h
  rintro rfl
  split at h
  · cases h
  · dsimp only at h
    split_ifs at h <;> cases h

/-- A write with a cause is rejected; an acting Hoop meets the higher epoch that fenced it. -/
theorem deliver_rejected {val be epoch c : Nat} {x : WrX}
    (hc : s.writeCause p off val be epoch (decide (dieOf p = held h)) = some c) :
    s.deliver h p off val be epoch x =
      if c = 3 && s.acts h then (s.reject p off c).meetEpoch h (s.rd p R.PG_EPOCH_EPOCH) else (s.reject p off c).saveBarred p off val c := by
  have hfence : (s.reject p off 3).saveBarred p off val 3 = s.reject p off 3 := by simp [State.saveBarred]
  simp only [State.deliver, State.pageWrite, hc, Option.some.injEq]
  by_cases h3 : c = 3
  · subst h3
    simp [hfence]
  · simp [h3]

/-- Settles O29: the write is rejected where its page judges it; an unanswered read is rejected with NO_ANSWER, which marks no page. -/
theorem rejectedWritesAreCountedAndChangeNothingElse : Obligations.RejectedWritesAreCountedAndChangeNothingElse := by
  unfold Obligations.RejectedWritesAreCountedAndChangeNothingElse
  intro s h p off val be c _ h4 hlt hbe
  refine ⟨fun hs hr hv hc => ?_, fun hs hc => ?_⟩
  · rw [exec_bar0Write_one hbe, hostWrite_reached h4 hlt hs hr hv, Nat.mod_eq_of_lt hbe, State.sentWord, deliver_rejected hc,
      reject_eq _ _ _ _ (writeCause_ne_noAnswer hc)]
    rfl
  · subst hc
    rw [exec_noAnswer, if_pos hs, wordOff_self h4 hlt]
    simp only [State.reject, ne_eq, not_true_eq_false, decide_false, Bool.and_false, Bool.false_eq_true, if_false, ← toTick_out s (s.clk.tick + 150)]
    rfl

end

/-! Reads (R43, R44). -/

/-- The holding register that a read of the word at `off` fills: the whole field that begins there. -/
def State.holdsAt (e : State) (p off : Nat) : Option HoldReg :=
  match pageBlk p with
  | none => none
  | some b =>
    if e.shows p off then ((fieldsIn b off).find? fun f => f.multi && decide (f.off = off)).map fun f => ⟨f.off, f.lo, e.live p b f % 2 ^ f.w⟩ else none

/-- The word a read through Hoop `h` gives. -/
def State.busWord (e : State) (h p off : Nat) : Nat :=
  match pageBlk p with
  | none => 0
  | some b => if e.shows p off then (fieldsIn b off).foldl (fun a f => a + f.partIn off (e.heldOr h p b off f)) 0 else e.readAt p off

/-- A page with its Hoop's holding register filled, or as it was. -/
def State.holding (e : State) (h p : Nat) : Option HoldReg → State
  | none => e
  | some r => e.setPage p ((e.page p).setHold h r)

/-- A read gives the word shown and fills the Hoop's holding register where a wide field begins. -/
theorem busRead_eq (e : State) (h p off : Nat) : e.busRead h p off = (e.holding h p (e.holdsAt p off), e.busWord h p off) := by
  unfold State.busRead State.holdsAt State.busWord
  cases pageBlk p with
  | none => rfl
  | some b =>
    dsimp only
    by_cases hsh : e.shows p off = true
    · simp only [hsh, if_true]
      cases (fieldsIn b off).find? fun f => f.multi && decide (f.off = off) <;> rfl
    · simp only [hsh]
      rfl

section
variable {s : State} {h p off : Nat}

/-- A read that reaches its page completes with the bytes of the word shown. -/
theorem hostRead_reached (h4 : off % 4 = 0) (hlt : off < 0x1000) (hs : s.serves h = true) (hr : s.reaches h p = true) (len : Nat) :
    s.hostRead h p off len false = ((s.judged h p).holding h p ((s.judged h p).holdsAt p off)).complete
      ⟨h, (cplBytes ((s.judged h p).busWord h p off)).take len, false, false⟩ := by
  simp only [State.hostRead, wordOff_self h4 hlt, hs, hr, h4, State.logUe, busRead_eq]
  rfl

theorem exec_multiwordLowRead (h p off len : Nat) (ue : Bool) (s : State) :
    exec (.multiwordLowRead h p off len ue) s = .next (if 4 < len then
      (s.hostRead h p off (min 4 len) ue).hostRead h p (off + 4) (min 4 (len - 4)) ue else s.hostRead h p off (min 4 len) ue) := rfl

/-- A read of at most four bytes is one access. -/
theorem exec_multiwordLowRead_one {len : Nat} (hlen : len ≤ 4) (h p off : Nat) (ue : Bool) (s : State) :
    exec (.multiwordLowRead h p off len ue) s = .next (s.hostRead h p off len ue) := by
  rw [exec_multiwordLowRead, if_neg (by omega), Nat.min_eq_right hlen]

/-- A read of five to eight bytes is the low word's and then the high word's. -/
theorem exec_multiwordLowRead_two {len : Nat} (h4 : 4 < len) (h8 : len ≤ 8) (h p off : Nat) (ue : Bool) (s : State) :
    exec (.multiwordLowRead h p off len ue) s = exec (.multiwordLowRead h p (off + 4) (len - 4) ue) (s.hostRead h p off 4 ue) := by
  rw [exec_multiwordLowRead_one (len := len - 4) (by omega), exec_multiwordLowRead, if_pos h4, Nat.min_eq_left (by omega), Nat.min_eq_right (by omega)]

/-- A write of eight byte enables is the low word's, where it enables a byte, and then the high word's. -/
theorem exec_bar0Write_two {be : Nat} (h16 : 16 ≤ be) (h256 : be < 256) (h p off val : Nat) (s : State) :
    exec (.bar0Write h p off val be) s =
      exec (.bar0Write h p (off + 4) (val / 2 ^ 32) (be / 16)) (if be % 16 = 0 then s else s.hostWrite h p off val (be % 16) {}) := by
  have hlow : s.hostWrite h p off val (be % 16) {} = s.hostWrite h p off val be {} := by simp only [State.hostWrite, Nat.mod_mod]
  rw [exec_bar0Write_one (be := be / 16) (by omega), hlow, exec_bar0Write, if_neg (by omega)]

/-! Taken writes. -/

theorem takes_iff {b : Blk} {val : Nat} : s.takes h p b off val = true ↔
    pageBlk p = some b ∧ s.serves h = true ∧ s.reaches h p = true ∧ s.overlapBars h p off = false ∧ s.sentWord h p off val = val % 2 ^ 32 ∧
    (s.judged h p).writeCause p off (val % 2 ^ 32) 15 ((s.judged h p).writeEpoch h p off (val % 2 ^ 32)) (decide (dieOf p = held h)) = none ∧
    ∀ f ∈ touched b off 15, (s.judged h p).stages b f = false ∧ (stageable b f && (s.judged h p).overtaken p off) = false := by
  simp only [State.takes, State.sentWord, List.all_eq_true, and_assoc, Bool.and_eq_true, decide_eq_true_eq, Bool.not_eq_true']

/-- A taken word, written as BAR0_WRITE: its fields act in order, each on what the word asks of it. -/
theorem exec_bar0Write_taken {b : Blk} {val : Nat} (ht : s.takes h p b off val = true) (h4 : off % 4 = 0) (hlt : off < 0x1000) :
    exec (.bar0Write h p off val 15) s = .next ((touched b off 15).foldl
      (fun (t : State) f => t.fieldAct p b f off (val % 2 ^ 32) ((s.judged h p).asked p b f off (val % 2 ^ 32) 15) {}) (s.taken h p b off val)) := by
  rw [exec_bar0Write_one (by decide), takes_write ht (wordOff_self h4 hlt), List.foldl_map]

end

/-! The tag of a page (R43): plain bytes, written one by one. -/

/-- The words of PG_TAG hold nothing else. -/
theorem fieldsIn_tag (b : Blk) {off : Nat} (h4 : off % 4 = 0) (hlo : 0x40 ≤ off) (hhi : off < 0x80) : fieldsIn b off = [R.PG_TAG] := by
  have hword : ∀ i < 16, flds_hdr.filter (fun f => f.meets (0x40 + 4 * i)) = [R.PG_TAG] := by decide
  have hoff : off = 0x40 + 4 * (off / 4 - 16) := by omega
  rw [fieldsIn, if_pos (by omega), hoff]
  exact hword _ (by omega)

/-- The bits that byte enables open. -/
theorem testBit_beMask {be : Nat} (hbe : be < 16) (j : Nat) : (beMask be).testBit j = (decide (j < 32) && be.testBit (j / 8)) := by
  have hlow : ∀ be < 16, ∀ j < 32, (beMask be).testBit j = be.testBit (j / 8) := by decide
  have hhigh : ∀ be < 16, beMask be < 2 ^ 32 := by decide
  by_cases hj : j < 32
  · simp [hj, hlow be hbe j hj]
  · have hle : (2 : Nat) ^ 32 ≤ 2 ^ j := Nat.pow_le_pow_right (by decide) (by omega)
    simp [hj, Nat.testBit_lt_two_pow (Nat.lt_of_lt_of_le (hhigh be hbe) hle)]

/-- Where a word lies in the tag. -/
theorem testBit_tag_fromWord {off i : Nat} (h4 : off % 4 = 0) (hlo : 0x40 ≤ off) (hi : i < 512) {w : Nat} (hw : w < 2 ^ 32) :
    (R.PG_TAG.fromWord off w).testBit i = (decide (i / 32 = off / 4 - 0x10) && w.testBit (i % 32)) := by
  have hstart : R.PG_TAG.off * 8 + R.PG_TAG.lo ≤ off * 8 := by show 0x40 * 8 + 0 ≤ off * 8; omega
  have hplace : off * 8 - (R.PG_TAG.off * 8 + R.PG_TAG.lo) = 32 * (off / 4 - 0x10) := by show off * 8 - (0x40 * 8 + 0) = _; omega
  rw [Fld.fromWord, if_pos hstart, hplace, Nat.testBit_mod_two_pow, Nat.testBit_mul_two_pow, show R.PG_TAG.w = 512 from rfl]
  by_cases hin : i / 32 = off / 4 - 0x10
  · have hge : 32 * (off / 4 - 0x10) ≤ i := by omega
    have hsub : i - 32 * (off / 4 - 0x10) = i % 32 := by omega
    simp [hi, hin, hge, hsub]
  · by_cases hge : 32 * (off / 4 - 0x10) ≤ i
    · have hle : (2 : Nat) ^ 32 ≤ 2 ^ (i - 32 * (off / 4 - 0x10)) := Nat.pow_le_pow_right (by decide) (by omega)
      simp [hin, Nat.testBit_lt_two_pow (Nat.lt_of_lt_of_le hw hle)]
    · simp [hin, hge]

section
variable {s : State} {h p off : Nat} {b : Blk}

/-- A write of the tag touches the tag, where it enables a byte. -/
theorem touched_tag (h4 : off % 4 = 0) (hlo : 0x40 ≤ off) (hhi : off < 0x80) (be : Nat) :
    touched b off be = if R.PG_TAG.fromWord off (beMask be) = 0 then [] else [R.PG_TAG] := by
  rw [touched, fieldsIn_tag b h4 hlo hhi]
  by_cases hz : R.PG_TAG.fromWord off (beMask be) = 0 <;> simp [hz]

theorem fenced_tag (b : Blk) : fenced b R.PG_TAG = false := by simp [fenced, R.PG_TAG, R.PKG_BREAK_STAT_HIT]

theorem stageable_tag (b : Blk) : stageable b R.PG_TAG = false := by simp [stageable, R.PG_TAG]

/-- A live page takes a write of any bytes of its tag. -/
theorem writeCause_tag (hb : pageBlk p = some b) (ha : s.alive p = true) (h4 : off % 4 = 0) (hlo : 0x40 ≤ off) (hhi : off < 0x80)
    (val be epoch : Nat) (own : Bool) : s.writeCause p off val be epoch own = none := by
  have hup : (s.page p).up = .up := of_decide_eq_true ha
  have hfs : ∀ f ∈ touched b off be, f = R.PG_TAG := by
    rw [touched_tag h4 hlo hhi]
    split <;> simp
  have hnone {q : Fld → Bool} (hq : q R.PG_TAG = false) : (touched b off be).any q = false :=
    List.any_eq_false.mpr fun f hf => by rw [hfs f hf, hq]; simp
  have hany : (fieldsIn b off).any isTag = true := by rw [fieldsIn_tag b h4 hlo hhi]; rfl
  simp only [State.writeCause, hb, hup, hany, hnone (fenced_tag b), hnone (stageable_tag b), ha]
  rw [hnone (by simp [R.PG_TAG])]
  simp [show ¬ 0x800 ≤ off by omega]

/-- What a write asks of the tag: the enabled bytes of the word. -/
theorem testBit_asked_tag (h4 : off % 4 = 0) (hlo : 0x40 ≤ off) {val be i : Nat} (hval : val < 2 ^ 32) (hbe : be < 16) (hi : i < 512) :
    (s.asked p b R.PG_TAG off val be).testBit i =
      if i / 32 = off / 4 - 0x10 ∧ be.testBit (i % 32 / 8) = true then val.testBit (i % 32) else (s.rd p R.PG_TAG).testBit i := by
  have hmask : beMask be < 2 ^ 32 := (by decide : ∀ be < 16, beMask be < 2 ^ 32) be hbe
  have hand : val &&& beMask be < 2 ^ 32 := Nat.lt_of_le_of_lt Nat.and_le_left hval
  have hold : s.oldOf p b R.PG_TAG = s.rd p R.PG_TAG := rfl
  have hasked : s.asked p b R.PG_TAG off val be =
      (s.rd p R.PG_TAG % 2 ^ R.PG_TAG.w ^^^ (s.rd p R.PG_TAG % 2 ^ R.PG_TAG.w &&& R.PG_TAG.fromWord off (beMask be))) ||| R.PG_TAG.fromWord off (val &&& beMask be) := rfl
  have hj : i % 32 < 32 := Nat.mod_lt _ (by decide)
  rw [hasked, Nat.testBit_or, Nat.testBit_xor, Nat.testBit_and, Nat.testBit_mod_two_pow, testBit_tag_fromWord h4 hlo hi hmask,
    testBit_tag_fromWord h4 hlo hi hand, Nat.testBit_and, testBit_beMask hbe]
  by_cases hin : i / 32 = off / 4 - 0x10 <;> cases be.testBit (i % 32 / 8) <;> simp [show i < R.PG_TAG.w from hi, hin, hj]

/-- A taken write of the tag changes the enabled bytes of its word and nothing else. -/
theorem pageWrite_tag (w : Wf s) (hb : pageBlk p = some b) (ha : s.alive p = true) (h4 : off % 4 = 0) (hlo : 0x40 ≤ off) (hhi : off < 0x80)
    {val be : Nat} (hval : val < 2 ^ 32) (hbe : be < 16) (epoch : Nat) (own : Bool) (x : WrX) :
    let t := s.pageWrite p off val be epoch own x
    (∀ i, i < 512 → (t.rd p R.PG_TAG).testBit i =
      if i / 32 = off / 4 - 0x10 ∧ be.testBit (i % 32 / 8) = true then val.testBit (i % 32) else (s.rd p R.PG_TAG).testBit i) ∧
    (∀ k, k ≠ R.PG_TAG.key p → look resetVal t.regs k = look resetVal s.regs k) ∧ { t with regs := s.regs } = s := by
  have hst : s.stages b R.PG_TAG = false := by simp [State.stages, stageable_tag]
  by_cases hz : R.PG_TAG.fromWord off (beMask be) = 0
  · have ht : s.pageWrite p off val be epoch own x = s := by
      simp [State.pageWrite, writeCause_tag hb ha h4 hlo hhi, hb, touched_tag h4 hlo hhi, hz, State.wordAct]
    rw [ht]
    refine ⟨fun i hi => ?_, fun _ _ => rfl, rfl⟩
    have hoff := testBit_tag_fromWord h4 hlo hi ((by decide : ∀ be < 16, beMask be < 2 ^ 32) be hbe)
    rw [hz, Nat.zero_testBit, testBit_beMask hbe, decide_eq_true (Nat.mod_lt i (by decide)), Bool.true_and] at hoff
    rw [if_neg (by rintro ⟨hin, hen⟩; simp [hin, hen] at hoff)]
  · have ht : s.pageWrite p off val be epoch own x = s.wr p R.PG_TAG (s.asked p b R.PG_TAG off val be) := by
      simp only [State.pageWrite, writeCause_tag hb ha h4 hlo hhi, hb, touched_tag h4 hlo hhi, hz, if_false]
      simp [hst, stageable_tag, State.wordAct, fenced_tag]
      rfl
    rw [ht]
    refine ⟨fun i hi => ?_, fun k hk => look_put_ne _ hk w.regs, rfl⟩
    rw [rd_wr_self w, Nat.testBit_mod_two_pow, testBit_asked_tag h4 hlo hval hbe hi, decide_eq_true (show i < R.PG_TAG.w from hi), Bool.true_and]
end

/-! Staged writes (R65). -/

section
variable {s : State} {h p off : Nat} {b : Blk}

/-- A write that its page takes and whose fields all wait enters the stage buffer. -/
theorem pageWrite_staged {val epoch : Nat} {own : Bool} (hb : pageBlk p = some b) (hne : touched b off 15 ≠ [])
    (hst : ∀ f ∈ touched b off 15, s.stages b f = true) (hc : s.writeCause p off val 15 epoch own = none) (x : WrX) :
    s.pageWrite p off val 15 epoch own x = s.stageIn p off val epoch := by
  have hlater : (touched b off 15).filter (s.stages b) = touched b off 15 := List.filter_eq_self.mpr hst
  have hnow : (touched b off 15).filter (fun f => !s.stages b f && !(stageable b f && s.overtaken p off)) = [] := by
    rw [List.filter_eq_nil_iff]
    intro f hf
    simp [hst f hf]
  simp only [State.pageWrite, hc, hb, hlater, hnow, State.wordAct, List.isEmpty_eq_false_iff.mpr hne]
  rfl

/-- A Hoop in OVERLAP keeps back no word of a page's header but PG_CTRL. -/
theorem overlap_header (hlo : 0x40 ≤ off) (hhi : off < 0x80) (e : State) (val : Nat) :
    s.overlapBars h p off = false ∧ e.overlapWord h p off val = val := by
  have h8 : off ≠ 8 := by omega
  have h100 : off ≠ 0x100 := by omega
  have h108 : off ≠ 0x108 := by omega
  have h110 : off ≠ 0x110 := by omega
  refine ⟨?_, by simp [State.overlapWord, h8]⟩
  unfold State.overlapBars
  split <;> simp [R.RD_L_CTRL_SPARE, R.WF_CAL_CTRL_COMMIT, R.RD_CAL_CTRL_COMMIT, h100, h108, h110]

theorem deliver_of_no_cause {val be epoch : Nat} {x : WrX}
    (hc : s.writeCause p off val be epoch (decide (dieOf p = held h)) = none) :
    s.deliver h p off val be epoch x = s.pageWrite p off val be epoch (decide (dieOf p = held h)) x := by
  simp [State.deliver, hc]

end

/-- The Hoop's own holding register is filled; the other Hoop's is untouched. -/
theorem holding_hold {e : State} (w : Wf e) (h p : Nat) (r : HoldReg) :
    ((e.holding h p (some r)).page p).hold h = some r ∧ (h = 0 → ((e.holding h p (some r)).page p).hold1 = (e.page p).hold1) ∧
      (h = 1 → ((e.holding h p (some r)).page p).hold0 = (e.page p).hold0) := by
  have hpage : (e.holding h p (some r)).page p = (e.page p).setHold h r := look_put_self _ _ w.pages
  rw [hpage]
  by_cases h0 : h = 0
  · simp [PageSt.hold, PageSt.setHold, h0]
  · simp [PageSt.hold, PageSt.setHold, h0]

/-- Filling a holding register changes one page. -/
theorem holding_frame {e : State} (w : Wf e) (h p : Nat) (r : Option HoldReg) :
    (∀ q, q ≠ p → (e.holding h p r).page q = e.page q) ∧ { e.holding h p r with pages := e.pages } = e := by
  cases r with
  | none => exact ⟨fun _ _ => rfl, rfl⟩
  | some r => exact ⟨fun _ hq => look_put_ne _ hq w.pages, rfl⟩

theorem wf_judged {s : State} (w : Wf s) (h p : Nat) : Wf (s.judged h p) := (kept_inOrder (Kept.refl s) ..).wf w

/-- The first clause of O31: a read of one word. -/
theorem read_completes {s : State} (w : Wf s) {h p off len : Nat} (h4 : off % 4 = 0) (hlt : off < 0x1000) (hlen : len ≤ 4)
    (hs : s.serves h = true) (hr : s.reaches h p = true) :
    let e := s.judged h p
    ∃ t, exec (.multiwordLowRead h p off len false) s = .next t ∧
      t.out.cpls = e.out.cpls ++ [⟨h, (cplBytes (e.busWord h p off)).take len, false, false⟩] ∧
      (∀ r, e.holdsAt p off = some r → (t.page p).hold h = some r) ∧ (e.holdsAt p off = none → t.pages = e.pages) ∧
      (h = 0 → (t.page p).hold1 = (e.page p).hold1) ∧ (h = 1 → (t.page p).hold0 = (e.page p).hold0) ∧
      (∀ q, q ≠ p → t.page q = e.page q) ∧ { t with pages := e.pages, out := e.out } = e := by
  intro e
  have we : Wf e := wf_judged w h p
  refine ⟨_, by rw [exec_multiwordLowRead_one hlen, hostRead_reached h4 hlt hs hr], ?_⟩
  obtain ⟨hpages, hframe⟩ := holding_frame we h p (e.holdsAt p off)
  change _ ∧ _ ∧ _ ∧ _ ∧ _ ∧ _ ∧ { e.holding h p (e.holdsAt p off) with pages := e.pages, out := e.out } = e
  refine ⟨?_, ?_, ?_, ?_, ?_, hpages, ?_⟩
  · cases e.holdsAt p off <;> rfl
  · intro r hr
    rw [hr]
    exact (holding_hold we h p r).1
  · intro hr
    rw [hr]
    rfl
  · intro h0
    cases e.holdsAt p off with
    | none => rfl
    | some r => exact (holding_hold we h p r).2.1 h0
  · intro h1
    cases e.holdsAt p off with
    | none => rfl
    | some r => exact (holding_hold we h p r).2.2 h1
  · cases e.holdsAt p off <;> rfl

/-- Settles O31: reads by what the page shows, wide accesses as two, taken words field by field, tags byte by byte, staged words by the buffer. -/
theorem hostAccessThroughBar0 : Obligations.HostAccessThroughBar0 := by
  unfold Obligations.HostAccessThroughBar0
  refine ⟨fun s h p off len w h4 hlt hlen hs hr => read_completes w h4 hlt hlen hs hr, fun s h p off val be len ue h4 => ⟨?_, ?_, ?_⟩,
    fun s h p off val be b w h4 hlt hbe => ⟨fun ht => exec_bar0Write_taken ht h4 hlt, ?_, ?_⟩⟩
  · exact fun hlen h8 => ⟨_, exec_multiwordLowRead_one (Nat.le_refl 4) .., exec_multiwordLowRead_two hlen h8 ..⟩
  · intro h16 h256 hlow
    refine ⟨_, exec_bar0Write_one (Nat.mod_lt be (by decide)) .., ?_⟩
    rw [exec_bar0Write_two h16 h256, if_neg hlow]
  · intro h16 h256 hlow
    rw [exec_bar0Write_two h16 h256, if_pos hlow]
  · intro e hs hr hb ha hlo hhi
    obtain ⟨hv, hw⟩ := overlap_header (s := s) (h := h) (p := p) hlo hhi e (val % 2 ^ 32)
    have hval : val % 2 ^ 32 < 2 ^ 32 := Nat.mod_lt _ (by decide)
    obtain ⟨hbits, hregs, hrest⟩ := pageWrite_tag (wf_judged w h p) hb ha h4 hlo hhi hval hbe (e.writeEpoch h p off (val % 2 ^ 32))
      (decide (dieOf p = held h)) {}
    refine ⟨_, ?_, fun i hi => ?_, hregs, hrest⟩
    · rw [exec_bar0Write_one hbe, hostWrite_reached h4 hlt hs hr hv, State.sentWord, hw, Nat.mod_eq_of_lt hbe,
        deliver_of_no_cause (writeCause_tag hb ha h4 hlo hhi ..)]
    · rw [hbits i hi, Nat.testBit_mod_two_pow, decide_eq_true (Nat.mod_lt i (by decide)), Bool.true_and]
  · intro e word hs hr hv hb hne hst hc
    rw [exec_bar0Write_one (by decide), hostWrite_reached h4 hlt hs hr hv, Nat.mod_eq_of_lt (by decide)]
    rw [State.sentWord, deliver_of_no_cause hc, pageWrite_staged hb hne hst hc]
    rfl

end Sys2Proof.Machine
end

section
/-! SUPPORT. The counter clears: a register of one request bit, and what its page zeroes (O17). -/

namespace Sys2Proof.Machine
open Sys2Proof

section
variable {s : State} {h p off val : Nat} {b : Blk}

/-- A taken word whose one field is a request bit at bit 0 asks for it. -/
theorem takes_request (t : s.takes h p b off (val ||| 1) = true) {f : Fld} (hf : touched b off 15 = [f]) (ho : off % 0x1000 / 4 * 4 = off)
    (hplace : f.off = off ∧ f.lo = 0 ∧ f.w = 1) (x : WrX) :
    s.rowWrite h p b off (val ||| 1) x = (s.taken h p b off (val ||| 1)).fieldAct p b f off ((val ||| 1) % 2 ^ 32) 1 x := by
  obtain ⟨hoff, hlo, hw⟩ := hplace
  rw [takes_one t f hf ho hoff (by omega), hlo, hw, show val ||| 1 = val ||| 2 ^ 0 from rfl, bits_or_bit]

/-- A row that only clears counters: the page's counters are zeroed in the state the write found, and read 0. -/
theorem clears_of_zero (w : Wf s) {f : Fld} {fs : List Fld} (hf : touched b off 15 = [f]) (ho : off % 0x1000 / 4 * 4 = off)
    (hplace : f.off = off ∧ f.lo = 0 ∧ f.w = 1) (hact : pageBlk p = some b → ∀ (e : State) v, e.fieldAct p b f off v 1 {} = e.zero p fs)
    {c : Instr} (hc : pageBlk p = some b → exec c s = .next (s.rowWrite h p b off (val ||| 1) {})) (t : s.takes h p b off (val ||| 1) = true) :
    exec c s = .next ((s.taken h p b off (val ||| 1)).zero p fs) ∧ ∀ g ∈ fs, ((s.taken h p b off (val ||| 1)).zero p fs).rd p g = 0 := by
  have hb := takes_blk t
  refine ⟨?_, fun g hg => rd_zero_mem (wf_taken w ..) p fs g hg⟩
  rw [hc hb, takes_request t hf ho hplace, hact hb]

end

/-- Settles O17: each clear is its page's `zero`; four of them drop what is counted beside the registers too. -/
theorem counterClearsZeroTheirCounters : Obligations.CounterClearsZeroTheirCounters := by
  unfold Obligations.CounterClearsZeroTheirCounters
  intro s h p val w clears
  refine ⟨?os, ?tg, ?mc, ?st, ?ce, ?hp, ?fault, ?pcie, ?sq, ?th, ?sb, ?sbk, ?wl, ?fib⟩
  case os => exact clears_of_zero w (f := R.OS_CNT_CLR_CLR) rfl rfl ⟨rfl, rfl, rfl⟩ (fun hb e _ => congrArg (e.zero · _) (self_os hb)) fun _ => rfl
  case tg => exact clears_of_zero w (f := R.OS_TG_CNT_CLR_CLR) rfl rfl ⟨rfl, rfl, rfl⟩ (fun hb e _ => congrArg (e.zero · _) (self_tg hb)) fun _ => rfl
  case mc =>
    intro t e fs u
    have we : Wf { e with sideRem := put natZero e.sideRem (dieOf p * 4 + (pageOf p - 0x10)) 0 } := (Kept.upd (Kept.refl e) rfl).wf (wf_taken w ..)
    refine ⟨?_, fun g hg => rd_zero_mem we p fs g hg⟩
    exact congrArg Host.Outcome.next (takes_request t (f := R.MC_CNT_CLR_CLR) rfl rfl ⟨rfl, rfl, rfl⟩ {})
  case st => exact clears_of_zero w (f := R.ST_CNT_CLR_CLR) rfl rfl ⟨rfl, rfl, rfl⟩ (fun _ _ _ => rfl) fun _ => rfl
  case ce => exact clears_of_zero w (f := R.CE_CNT_CLR_CLR) rfl rfl ⟨rfl, rfl, rfl⟩ (fun _ _ _ => rfl) fun _ => rfl
  case hp => exact clears_of_zero w (f := R.HP_CNT_CLR_CLR) rfl rfl ⟨rfl, rfl, rfl⟩ (fun hb e _ => congrArg (e.zero · _) (self_hp hb)) fun _ => rfl
  case fault =>
    exact clears_of_zero w (f := R.FAULT_CNT_CLR_CLR) rfl rfl ⟨rfl, rfl, rfl⟩ (fun hb e _ => congrArg (e.zero · _) (self_fault hb)) fun _ => rfl
  case pcie =>
    exact clears_of_zero w (f := R.PCIE_CNT_CLR_CLR) rfl rfl ⟨rfl, rfl, rfl⟩ (fun hb e _ => congrArg (e.zero · _) (self_pcie hb)) fun _ => rfl
  case sq =>
    refine clears_of_zero (off := 0x140) w (f := R.SQ_CNT_CLR_CLR) rfl rfl ⟨rfl, rfl, rfl⟩ (fun hb e v => ?_) fun _ => rfl
    have hact : e.fieldAct p .sq R.SQ_CNT_CLR_CLR 0x140 v 1 {} = e.sqCntClr (dieOf p - 0x12) (pageOf p - 0x100) := rfl
    rw [hact, State.sqCntClr, self_sq hb]
  case th => exact clears_of_zero w (f := R.TH_CNT_CLR_CLR) rfl rfl ⟨rfl, rfl, rfl⟩ (fun hb e _ => congrArg (e.zero · _) (self_th hb)) fun _ => rfl
  case sb =>
    refine clears_of_zero w (f := R.SB_COM_CNT_CLR_CLR) rfl rfl ⟨rfl, rfl, rfl⟩ (fun hb e _ => congrArg (e.zero · _) (self_sb hb)) fun hb => ?_
    show Host.Outcome.next (if _ then _ else _) = .next (if _ then _ else _)
    rw [if_pos hb, if_pos hb]
    rfl
  case sbk =>
    refine clears_of_zero w (f := R.SB_CNT_CLR_CLR) rfl rfl ⟨rfl, rfl, rfl⟩ (fun hb e _ => ?_) fun hb => ?_
    · have hk : pageOf p - 0x20 ≠ 0 := by have := kind_sbk hb; omega
      exact (if_neg hk).trans (congrArg (e.zero · _) (self_sbk hb))
    · exact congrArg Host.Outcome.next (if_neg (by simp [hb]))
  case wl =>
    intro t e
    exact congrArg Host.Outcome.next (takes_request t (f := R.WL_CNT_CLR_CLR) rfl rfl ⟨rfl, rfl, rfl⟩ {})
  case fib =>
    intro t e k f
    have hact : e.fieldAct p .fib R.WF_FIB_CNT_CLR_CLR 0x13C ((val ||| 1) % 2 ^ 32) 1 {} = e.fibCntClr k f := rfl
    have hself : fibPg k f = p := self_fib (takes_blk t)
    refine congrArg Host.Outcome.next ((takes_request t (f := R.WF_FIB_CNT_CLR_CLR) rfl rfl ⟨rfl, rfl, rfl⟩ {}).trans (hact.trans ?_))
    rw [State.fibCntClr, hself]

end Sys2Proof.Machine
end

section
/-! SUPPORT. Reads of one register field after writes of another, by the fields' places and by their pages. -/

namespace Sys2Proof.Machine
open Sys2Proof

section
variable {s : State} {p q : Nat} {f g : Fld}

/-- A field has a place of its own in a page of 32-bit words. -/
def Fld.placed (f : Fld) : Bool := decide (f.off < 4096) && decide (f.lo < 32)

theorem key_ne_of_place (hf : f.placed = true) (hg : g.placed = true) (h : ¬ (g.off = f.off ∧ g.lo = f.lo)) : g.key q ≠ f.key p := by
  simp only [Fld.placed, Bool.and_eq_true, decide_eq_true_eq] at hf hg
  exact fun e => h ((key_inj hg.1 hf.1 hg.2 hf.2).mp e).2

theorem key_ne_of_page (hf : f.placed = true) (hg : g.placed = true) (h : q ≠ p) : g.key q ≠ f.key p := by
  simp only [Fld.placed, Bool.and_eq_true, decide_eq_true_eq] at hf hg
  exact fun e => h ((key_inj hg.1 hf.1 hg.2 hf.2).mp e).1

/-- A write leaves a field at another place of a page alone. -/
theorem rd_wr_place (w : Wf s) (v : Nat) (hf : f.placed = true) (hg : g.placed = true) (h : ¬ (g.off = f.off ∧ g.lo = f.lo)) :
    (s.wr p f v).rd q g = s.rd q g := rd_wr_ne w v (key_ne_of_place hf hg h)

/-- A write leaves the fields of another page alone. -/
theorem rd_wr_page (w : Wf s) (v : Nat) (hf : f.placed = true) (hg : g.placed = true) (h : q ≠ p) : (s.wr p f v).rd q g = s.rd q g :=
  rd_wr_ne w v (key_ne_of_page hf hg h)

/-- A one-bit field reads what was written. -/
theorem bit_wb_self (w : Wf s) (p : Nat) (b : Bool) (hw : f.w = 1) : (s.wb p f b).bit p f = b := by
  cases b <;> simp [State.bit, State.wb, rd_wr_self w, hw]

theorem bit_wr_place (w : Wf s) (v : Nat) (hf : f.placed = true) (hg : g.placed = true) (h : ¬ (g.off = f.off ∧ g.lo = f.lo)) :
    (s.wr p f v).bit q g = s.bit q g := by
  rw [State.bit, rd_wr_place w v hf hg h]
  rfl

end

/-! The acting Hoop after a write elsewhere. -/

theorem hpTop_ne_pkg {h k : Nat} (hh : h < 2) (hk : k < 512) : hpTop h ≠ pg 0x1F k := by unfold hpTop pg; omega

/-- A Hoop acts after a write of a page that is none of the Hoop pair's top pages as it did before. -/
theorem acts_wr {s : State} (w : Wf s) {p : Nat} {f : Fld} (hf : f.placed = true) {h : Nat} (hp : hpTop h ≠ p) (v : Nat) :
    (s.wr p f v).acts h = s.acts h := by
  simp only [State.acts, State.role, rd_wr_page w v hf (show R.HP_ROLE_ROLE.placed = true from rfl) hp]
  rfl

theorem acting_wr {s : State} (w : Wf s) {p : Nat} {f : Fld} (hf : f.placed = true) (hp : ∀ h, h < 2 → hpTop h ≠ p) (v : Nat) :
    (s.wr p f v).acting = s.acting := by
  simp only [State.acting, acts_wr w hf (hp 0 (by decide)), acts_wr w hf (hp 1 (by decide))]

theorem acting_lt_two {s : State} {a : Nat} (h : s.acting = some a) : a < 2 := by
  unfold State.acting at h
  split_ifs at h <;> cases h <;> decide

end Sys2Proof.Machine
end

section
/-! SUPPORT. The control registers of the package pages: snapshots, staging, the tag, package time and breakpoints (O18). -/

namespace Sys2Proof.Machine
open Sys2Proof

section
variable {e : State} {a : Nat}

/-- A snapshot request of the acting Hoop, after LEAD has been written (R60). -/
theorem snapReq_after_lead (w : Wf e) (ha : e.acting = some a) {lead : Nat} (hl : lead < 65536) :
    (e.wr pkg0 R.PKG_SNAP_CTRL_LEAD lead).snapReq = if e.bit pkg0 R.PKG_SNAP_CTRL_BUSY then e.wr pkg0 R.PKG_SNAP_CTRL_LEAD lead else
      { (e.wr pkg0 R.PKG_SNAP_CTRL_LEAD lead).wb pkg0 R.PKG_SNAP_CTRL_BUSY true with
        snaps := put (fun _ => none) e.snaps a (some ⟨(e.rd pkg0 R.PKG_SNAP_STAT_SEQ + 1) % 65536, e.clk.tick + lead, allDies, [], [], false⟩) } := by
  have hacting : (e.wr pkg0 R.PKG_SNAP_CTRL_LEAD lead).acting = some a :=
    (acting_wr w rfl (fun h hh => hpTop_ne_pkg hh (by decide)) lead).trans ha
  have hlead : (e.wr pkg0 R.PKG_SNAP_CTRL_LEAD lead).rd pkg0 R.PKG_SNAP_CTRL_LEAD = lead := (rd_wr_self w ..).trans (Nat.mod_eq_of_lt hl)
  simp only [State.snapReq, hacting, hlead, bit_wr_place (g := R.PKG_SNAP_CTRL_BUSY) (f := R.PKG_SNAP_CTRL_LEAD) w lead rfl rfl (by decide),
    rd_wr_place (g := R.PKG_SNAP_STAT_SEQ) (f := R.PKG_SNAP_CTRL_LEAD) w lead rfl rfl (by decide)]
  rfl

/-- STATE after staging has been opened. -/
theorem stageSt_opened (w : Wf e) : ((e.wr pkg0 R.PKG_STAGE_STAT_STATE stOpen).wb pkg0 R.PKG_STAGE_CTRL_OPEN true).stageSt = stOpen := by
  rw [State.stageSt, State.wb, rd_wr_place (wf_wr w ..) _ rfl rfl (by decide), rd_wr_self w]
  rfl

variable (ha : e.acting = some a) (ho : e.bit (hpTop a) R.HP_ROLE_OVERLAP = false)
include ha ho

/-- OPEN opens staging from IDLE and has no other effect (R65). -/
theorem stageCtrl_open (w : Wf e) : e.stageCtrl true false =
    if e.stageSt = stIdle then (e.wr pkg0 R.PKG_STAGE_STAT_STATE stOpen).wb pkg0 R.PKG_STAGE_CTRL_OPEN true else e := by
  simp only [State.stageCtrl, ha, ho, Bool.or_false]
  by_cases hi : e.stageSt = stIdle
  · simp [hi, stIdle, stPrep, stMarked, stageSt_opened w]
  · simp [hi]

/-- A write without OPEN and COMMIT fails staging that is open (R67). -/
theorem stageCtrl_close : e.stageCtrl false false = if e.stageSt = stOpen then e.stageFail 0x1F 4 else e := by
  simp only [State.stageCtrl, ha, ho, Bool.or_false]
  by_cases hst : e.stageSt = stOpen
  · simp [hst, stOpen, stPrep, stMarked]
  · simp [hst]

/-- COMMIT of open staging sends PREPARE to every die (R66). -/
theorem stageCtrl_commit (hst : e.stageSt = stOpen) (opn : Bool) : e.stageCtrl opn true =
    let f := (e.wr pkg0 R.PKG_STAGE_STAT_STATE stPrep).wb pkg0 R.PKG_STAGE_CTRL_COMMIT true
    { f with com := { f.com with at' := e.clk.tick, prep := allDies, ahead := [], answers := [], taken := [], mark := [], armed := [] } } := by
  simp only [State.stageCtrl, ha, ho, hst, Bool.or_false]
  simp [stOpen, stPrep, stMarked, stIdle, hst]
  rfl

end

/-- A bit set in the word is set in its low half. -/
theorem testBit_low_word (v : Nat) {i : Nat} (hi : i < 32) : (v % 2 ^ 32).testBit i = v.testBit i := by
  rw [Nat.testBit_mod_two_pow, decide_eq_true hi, Bool.true_and]

/-- Bits above bit 0 do not see it set. -/
theorem bits_or_one {lo n : Nat} (v : Nat) (hlo : 0 < lo) : bits (v ||| 1) lo n = bits v lo n := by
  unfold bits
  congr 1
  refine Nat.eq_of_testBit_eq fun i => ?_
  have hbit : Nat.testBit 1 (lo + i) = false := Nat.testBit_lt_two_pow (Nat.one_lt_two_pow (by omega))
  rw [Nat.testBit_div_two_pow, Nat.testBit_div_two_pow, Nat.testBit_or, Nat.add_comm, hbit, Bool.or_false]

/-- One bit of a word. -/
theorem bits_one (v lo : Nat) : bits v lo 1 = if v.testBit lo then 1 else 0 := by
  rw [bits, Nat.testBit_eq_decide_div_mod_eq]
  rcases Nat.mod_two_eq_zero_or_one (v / 2 ^ lo) with h | h <;> simp [h]

/-- A write of one bit of a field that ones clear (1.8): the bit is cleared where the word has it, else kept. -/
theorem wr_toggle {e : State} {p : Nat} {f : Fld} {lo : Nat} (hw : f.w = 1) (v : Nat) :
    e.wr p f (e.rd p f ^^^ (e.rd p f &&& bits v lo 1)) = e.wr p f (if v.testBit lo then 0 else e.rd p f) := by
  have hone (n : Nat) : (n ^^^ (n &&& 1)) % 2 ^ 1 = 0 := by
    rw [Nat.xor_mod_two_pow, Nat.and_mod_two_pow]
    rcases Nat.mod_two_eq_zero_or_one n with h | h <;> simp [h]
  simp only [State.wr, bits_one, hw]
  split
  · rw [hone, Nat.zero_mod]
  · rw [Nat.and_zero, Nat.xor_zero]

/-- Settles O18: the fields of each word act one by one; its request acts last. -/
theorem packageControlWrites : Obligations.PackageControlWrites := by
  unfold Obligations.PackageControlWrites
  intro s h val a w
  refine ⟨fun t => ?snap, fun t => ?opn, fun t => ?close, fun t => ?commit, fun t => ?tag, fun t => ?arm, fun t => ?release⟩
  case snap =>
    intro e lead e1 run ha
    have hl : lead < 65536 := by
      have := Nat.mod_lt ((val ||| 1) / 2 ^ 16) (show 0 < 2 ^ 16 by decide)
      simp only [lead, bits]
      omega
    have hreq (u : State) : u.fieldAct pkg0 .pkg0 R.PKG_SNAP_CTRL_REQ 0x110 ((val ||| 1) % 2 ^ 32) (bits (val ||| 1) 0 1) {} = u.snapReq := by
      rw [show val ||| 1 = val ||| 2 ^ 0 from rfl, bits_or_bit]
      rfl
    have hrow := takes_list t [R.PKG_SNAP_CTRL_LEAD, R.PKG_SNAP_CTRL_BUSY, R.PKG_SNAP_CTRL_REQ] rfl rfl (by decide) {}
    exact congrArg Host.Outcome.next (hrow.trans ((hreq _).trans (snapReq_after_lead (wf_taken w ..) ha hl)))
  case opn =>
    intro e ha ho
    have hrow := takes_list t [R.PKG_STAGE_CTRL_COMMIT, R.PKG_STAGE_CTRL_OPEN] rfl rfl (by decide) {}
    have hact : e.fieldAct pkg0 .pkg0 R.PKG_STAGE_CTRL_OPEN 0x120 (1 % 2 ^ 32) 1 {} = e.stageCtrl true false := rfl
    have we : Wf e := wf_taken w ..
    exact congrArg Host.Outcome.next (hrow.trans (hact.trans (stageCtrl_open ha ho we)))
  case close =>
    intro e f g ha ho
    have hrow := takes_list t [R.PKG_STAGE_CTRL_COMMIT, R.PKG_STAGE_CTRL_OPEN] rfl rfl (by decide) {}
    exact congrArg Host.Outcome.next (hrow.trans (stageCtrl_close ha ho))
  case commit =>
    intro e f ha ho hst
    have hcommit : ((val ||| 2) % 2 ^ 32).testBit 1 = true := by
      rw [testBit_low_word _ (by decide), Nat.testBit_or, show Nat.testBit 2 1 = true from rfl, Bool.or_true]
    have hact (u : State) : u.fieldAct pkg0 .pkg0 R.PKG_STAGE_CTRL_OPEN 0x120 ((val ||| 2) % 2 ^ 32) (bits (val ||| 2) 0 1) {} =
        u.stageCtrl (((val ||| 2) % 2 ^ 32).testBit 0) true := hcommit ▸ rfl
    have hrow := takes_list t [R.PKG_STAGE_CTRL_COMMIT, R.PKG_STAGE_CTRL_OPEN] rfl rfl (by decide) {}
    exact congrArg Host.Outcome.next (hrow.trans ((hact _).trans (stageCtrl_commit ha ho hst _)))
  case tag =>
    intro e e1 words ha
    have we : Wf e := wf_taken w ..
    have hreq (u : State) : u.fieldAct pkg1 .pkg1 R.PKG_TAG_CTRL_SAVE 0x200 ((val ||| 1) % 2 ^ 32) (bits (val ||| 1) 0 1) {} = u.tagSave := by
      rw [show val ||| 1 = val ||| 2 ^ 0 from rfl, bits_or_bit]
      rfl
    have hrow := takes_list t [R.PKG_TAG_CTRL_SAVE_ERR, R.PKG_TAG_CTRL_SAVE] rfl rfl (by decide) {}
    have herr (v : Nat) : e.fieldAct pkg1 .pkg1 R.PKG_TAG_CTRL_SAVE_ERR 0x200 v (bits (val ||| 1) 1 1) {} = e1 := by
      rw [bits_or_one val (by decide)]
      exact wr_toggle (by decide) val
    have hacting : e1.acting = some a := (acting_wr we rfl (fun h hh => hpTop_ne_pkg hh (by decide)) _).trans ha
    have htag : e1.rd pkg1 R.PKG_TAG = e.rd pkg1 R.PKG_TAG := rd_wr_place we _ rfl rfl (by decide)
    refine congrArg Host.Outcome.next (hrow.trans ((hreq _).trans ((congrArg State.tagSave (herr _)).trans ?_)))
    simp only [State.tagSave, hacting, htag, Option.getD_some]
    rw [show (e1.nvOk 0 && e1.nvOk 1) = (e.nvOk 0 && e.nvOk 1) from rfl]
    cases e.nvOk 0 && e.nvOk 1 <;> rfl
  case arm =>
    have hreq (u : State) : u.fieldAct pkg2 .pkg2 R.PKG_TIME_CTRL_ARM 0x108 ((val ||| 1) % 2 ^ 32) (bits (val ||| 1) 0 1) {} = u.timeArm := by
      rw [show val ||| 1 = val ||| 2 ^ 0 from rfl, bits_or_bit]
      rfl
    have hrow := takes_list t [R.PKG_TIME_CTRL_TOL, R.PKG_TIME_CTRL_CHECK_EN, R.PKG_TIME_CTRL_ZEROED, R.PKG_TIME_CTRL_ARMED, R.PKG_TIME_CTRL_ARM]
      rfl rfl (by decide) {}
    rw [← bits_or_one (lo := 8) val (by decide), ← bits_or_one (lo := 3) val (by decide)]
    exact congrArg Host.Outcome.next (hrow.trans (hreq _))
  case release =>
    intro e f copies
    have hreq (u : State) : u.fieldAct pkg2 .pkg2 R.PKG_BREAK_STAT_HIT 0x14C ((val ||| 1) % 2 ^ 32) (bits (val ||| 1) 0 1) {} = u.breakRelease := by
      rw [show val ||| 1 = val ||| 2 ^ 0 from rfl, bits_or_bit]
      rfl
    have hrow := takes_list t [R.PKG_BREAK_STAT_ID, R.PKG_BREAK_STAT_HIT] rfl rfl (by decide) {}
    have hcopies : (fun n : Nat × Note => !copies n) = fun n => match n.2 with | .brk _ _ => false | _ => true := by
      funext ⟨d, n⟩
      cases n <;> rfl
    rw [hcopies]
    exact congrArg Host.Outcome.next (hrow.trans (hreq _))

end Sys2Proof.Machine
end

section
/-! SUPPORT. PG_CTRL and PG_FSTAT: the header fields of every page that act (O28). -/

namespace Sys2Proof.Machine
open Sys2Proof

/-- UNLOCK opens the key with 0x5EB3 and closes it with any other value. -/
def State.unlocks (e : State) (p v : Nat) : State := e.wb p R.PG_STATUS_KEY_OPEN (decide (v / 2 ^ 16 % 2 ^ 16 = 0x5EB3))

/-- ENABLE takes bit 0 of the word. -/
def State.enables (e : State) (p : Nat) (b : Blk) (v : Nat) : State :=
  let f := e.wb p R.PG_CTRL_ENABLE (v.testBit 0)
  if v.testBit 0 = true ∧ (e.page p).up = .down then f.blockUp p b
  else if b = .wl ∧ e.alive p = true ∧ e.bit p R.PG_CTRL_ENABLE ≠ v.testBit 0 then (if v.testBit 0 then f.wlEnable p else f.wlOff p)
  else f

theorem enableWrite_bit (e : State) (p : Nat) (b : Blk) (v : Nat) : e.enableWrite p b (bits v 0 1) = e.enables p b v := by
  have hup (n : Nat) : ((e.wr p R.PG_CTRL_ENABLE n).page p).up = (e.page p).up := rfl
  have halive (n : Nat) : (e.wr p R.PG_CTRL_ENABLE n).alive p = e.alive p := rfl
  rw [bits_one, State.enableWrite, State.enables]
  simp only [hup, halive]
  cases v.testBit 0 <;> simp [State.wb, and_assoc]

section
variable {s : State} {h p val : Nat} {b : Blk}

/-- Every page has the same header fields. -/
theorem touched_header (b : Blk) {off : Nat} (hlt : off < 0x100) (be : Nat) : touched b off be = touched .hdr off be := by
  simp only [touched, fieldsIn, if_pos hlt, show ¬ 0x100 ≤ off by omega, decide_false, Bool.and_false, Bool.false_eq_true, if_false]

/-- A taken PG_CTRL word: UNLOCK, SOFT_RESET and ENABLE act in that order. -/
theorem pgCtrl_taken (t : s.takes h p b 8 val = true) :
    s.hostWrite h p 8 val 15 {} =
      (let e := (s.taken h p b 8 val).unlocks p val
       if val.testBit 1 then e.softReset p b else e).enables p b val := by
  have hrow := takes_list t [R.PG_CTRL_UNLOCK, R.PG_CTRL_SOFT_RESET, R.PG_CTRL_ENABLE] (touched_header b (by decide) 15) rfl (by decide) {}
  rw [State.rowWrite, if_pos (takes_blk t)] at hrow
  have hreset (u : State) : u.fieldAct p b R.PG_CTRL_SOFT_RESET 8 (val % 2 ^ 32) (bits val 1 1) {} = if val.testBit 1 then u.softReset p b else u := by
    rw [bits_one]
    cases val.testBit 1 <;> rfl
  have henable (u : State) : u.fieldAct p b R.PG_CTRL_ENABLE 8 (val % 2 ^ 32) (bits val 0 1) {} = u.enables p b val := enableWrite_bit ..
  exact hrow.trans ((henable _).trans (congrArg (State.enables · p b val) (hreset _)))

end

/-- Bits above bit 1 and bit 0 itself are those of the word without SOFT_RESET. -/
theorem unlocks_or_two (e : State) (p v : Nat) : e.unlocks p (v ||| 2) = e.unlocks p v := by
  have hbits : (v ||| 2) / 2 ^ 16 = v / 2 ^ 16 := by
    rw [Nat.or_div_two_pow, show 2 / 2 ^ 16 = 0 from rfl, Nat.or_zero]
  rw [State.unlocks, hbits, State.unlocks]

theorem testBit_or_two (v : Nat) : (v ||| 2).testBit 0 = v.testBit 0 ∧ (v ||| 2).testBit 1 = true := by
  constructor
  · rw [Nat.testBit_or, show Nat.testBit 2 0 = false from rfl, Bool.or_false]
  · rw [Nat.testBit_or, show Nat.testBit 2 1 = true from rfl, Bool.or_true]

/-- Clearing bits of PG_FSTAT. -/
theorem fstatClear_spec {e : State} (w : Wf e) (p v : Nat) :
    (∀ i, i < 32 → ((e.fstatClear p v).rd p R.PG_FSTAT_SRC).testBit i = ((e.rd p R.PG_FSTAT_SRC).testBit i && !v.testBit i)) ∧
    (e.fstatClear p v).page p = { e.page p with pendRep := forgetIf (e.page p).pendRep fun i => v.testBit i } ∧
    (∀ q, q ≠ p → (e.fstatClear p v).page q = e.page q) ∧
    (∀ k, k ≠ R.PG_FSTAT_SRC.key p → look resetVal (e.fstatClear p v).regs k = look resetVal e.regs k) ∧
    { e.fstatClear p v with regs := e.regs, pages := e.pages } = e := by
  refine ⟨fun i hi => ?_, look_put_self _ _ w.pages, fun q hq => look_put_ne _ hq w.pages, fun k hk => look_put_ne _ hk w.regs, rfl⟩
  have hrd : (e.fstatClear p v).rd p R.PG_FSTAT_SRC = (e.rd p R.PG_FSTAT_SRC ^^^ (e.rd p R.PG_FSTAT_SRC &&& v)) % 2 ^ R.PG_FSTAT_SRC.w := rd_wr_self w ..
  rw [hrd, Nat.testBit_mod_two_pow, decide_eq_true (show i < R.PG_FSTAT_SRC.w from hi), Bool.true_and, Nat.testBit_xor, Nat.testBit_and]
  cases (e.rd p R.PG_FSTAT_SRC).testBit i <;> simp

theorem exec_softResetComplete (s : State) {p : Nat} {b : Blk} (hb : pageBlk p = some b) :
    exec (.softResetComplete p) s = .next (if decide ((s.page p).up = .resetting) && s.resetEnds p b then s.softDone p b else s) := by
  show Host.Outcome.next (match pageBlk p with | some b => _ | none => _) = _
  rw [hb]

/-- Settles O28: PG_CTRL is its three fields in order, the reset ends as `softDone`, and PG_FSTAT loses the bits written 1. -/
theorem pageControlWrites : Obligations.PageControlWrites := by
  unfold Obligations.PageControlWrites
  intro s h p val b w hb unlocks resets enables
  refine ⟨?ctrl, ?reset, ?done, ?fstat⟩
  case ctrl =>
    intro t e
    exact congrArg Host.Outcome.next (pgCtrl_taken t)
  case reset =>
    intro t
    have hctrl := pgCtrl_taken t
    simp only [unlocks_or_two, State.enables, (testBit_or_two val).1, (testBit_or_two val).2, if_true] at hctrl
    exact congrArg Host.Outcome.next hctrl
  case done =>
    intro hup e f
    refine ⟨fun hends => ?_, fun hends => ?_⟩
    · rw [exec_softResetComplete s hb, hends, Bool.and_false, if_neg Bool.false_ne_true]
    · rw [exec_softResetComplete s hb, hends, hup, if_pos (by decide)]
      rfl
  case fstat =>
    intro t e
    have hrow := takes_list t [R.PG_FSTAT_SRC] (touched_header b (by decide) 15) rfl (by decide) {}
    rw [State.rowWrite, if_pos (takes_blk t)] at hrow
    have hact : e.fieldAct p b R.PG_FSTAT_SRC 0x10 (val % 2 ^ 32) (bits val 0 32) {} = e.fstatClear p (val % 2 ^ 32) := by
      rw [bits, Nat.pow_zero, Nat.div_one]
      rfl
    obtain ⟨hsrc, hpage, hpages, hregs, hrest⟩ := fstatClear_spec (e := e) (wf_taken w ..) p (val % 2 ^ 32)
    refine ⟨_, congrArg Host.Outcome.next (hrow.trans hact), fun i hi => ?_, hpage, hpages, hregs, hrest⟩
    rw [hsrc i hi, testBit_low_word val hi]

end Sys2Proof.Machine
end

section
/-! SUPPORT. Snapshots and staged commits: several fields written in one page, what a walk over a die's pages does to one of them, and what the passing
of time leaves alone (O32, O33). -/

namespace Sys2Proof.Machine
open Sys2Proof

/-! Several fields of one page. -/

/-- Fields of page `p` written one after the other. -/
def State.writes (s : State) (p : Nat) (l : List (Fld × Nat)) : State := l.foldl (fun (t : State) x => t.wr p x.1 x.2) s

/-- The fields have places of their own, each another. -/
def distinctPlaces (fs : List Fld) : Prop := (∀ f ∈ fs, f.placed = true) ∧ fs.Pairwise fun f g => ¬ (g.off = f.off ∧ g.lo = f.lo)

section
variable {p : Nat} {g : Fld}

/-- Fields written elsewhere in the page leave a field alone. -/
theorem rd_writes_place (hg : g.placed = true) (l : List (Fld × Nat))
    (h : ∀ f ∈ l.map Prod.fst, f.placed = true ∧ ¬ (g.off = f.off ∧ g.lo = f.lo)) {s : State} (w : Wf s) :
    (s.writes p l).rd p g = s.rd p g := by
  induction l generalizing s with
  | nil => rfl
  | cons x l ih =>
    obtain ⟨hx, hne⟩ := h x.1 List.mem_cons_self
    exact (ih (fun f hf => h f (List.mem_cons_of_mem _ hf)) (wf_wr w ..)).trans (rd_wr_place w _ hx hg hne)

/-- Each field reads what was written to it. -/
theorem rd_writes {l : List (Fld × Nat)} (hd : distinctPlaces (l.map Prod.fst)) {v : Nat} (h : (g, v) ∈ l) {s : State} (w : Wf s) :
    (s.writes p l).rd p g = v % 2 ^ g.w := by
  induction l generalizing s with
  | nil => cases h
  | cons x l ih =>
    obtain ⟨hplaced, hpair⟩ := hd
    obtain ⟨hfirst, hrest⟩ := List.pairwise_cons.mp hpair
    rcases List.mem_cons.mp h with rfl | h
    · have hout := rd_writes_place (p := p) (hplaced g List.mem_cons_self) l
        (fun f hf => ⟨hplaced f (List.mem_cons_of_mem _ hf), fun e => hfirst f hf ⟨e.1.symm, e.2.symm⟩⟩) (wf_wr w p g v)
      exact hout.trans (rd_wr_self w ..)
    · exact ih ⟨fun f hf => hplaced f (List.mem_cons_of_mem _ hf), hrest⟩ h (wf_wr w ..)

/-- The registers of other pages stand. -/
theorem look_writes_page {l : List (Fld × Nat)} (hd : ∀ f ∈ l.map Prod.fst, f.placed = true) {k : Nat} (hk : keyPage k ≠ p) {s : State} (w : Wf s) :
    look resetVal (s.writes p l).regs k = look resetVal s.regs k := by
  induction l generalizing s with
  | nil => rfl
  | cons x l ih =>
    have hx := hd x.1 List.mem_cons_self
    simp only [Fld.placed, Bool.and_eq_true, decide_eq_true_eq] at hx
    have hne : k ≠ x.1.key p := fun e => hk (by rw [e, keyPage_key p hx.1 hx.2])
    exact (ih (fun f hf => hd f (List.mem_cons_of_mem _ hf)) (wf_wr w ..)).trans (look_put_ne _ hne w.regs)

/-- Only registers change. -/
theorem writes_regs (l : List (Fld × Nat)) (s : State) : { s.writes p l with regs := s.regs } = s := by
  induction l generalizing s with
  | nil => rfl
  | cons x l ih => exact congrArg (fun t : State => { t with regs := s.regs }) (ih (s.wr p x.1 x.2))

end

/-! Walks over pages. -/

/-- What each step of a walk keeps, the walk keeps. -/
theorem foldl_keeps {α β : Type} (g : State → β) {f : State → α → State} (h : ∀ t x, g (f t x) = g t) (l : List α) (s : State) :
    g (l.foldl f s) = g s := by
  induction l generalizing s with
  | nil => rfl
  | cons x l ih => exact (ih _).trans (h s x)

/-- A walk makes `P` true of every page it visits, where a visit makes it true of its page and keeps it of the others. -/
theorem foldl_visits {P : State → Nat → Prop} {f : State → Nat → State} (hself : ∀ t p, Wf t → P (f t p) p)
    (hother : ∀ t q p, Wf t → q ≠ p → P t p → P (f t q) p) (hf : ∀ t p, Wf t → Wf (f t p)) {l : List Nat} {p : Nat} {s : State} (w : Wf s)
    (h : p ∈ l ∨ P s p) : P (l.foldl f s) p := by
  induction l generalizing s with
  | nil => exact h.resolve_left List.not_mem_nil
  | cons q l ih =>
    refine ih (hf s q w) ?_
    by_cases hq : q = p
    · exact .inr (hq ▸ hself s q w)
    · refine h.imp (fun hm => (List.mem_cons.mp hm).resolve_left (Ne.symm hq)) (hother s q p w hq)

/-! Time. -/

/-- The passing of time changes the clock alone, and not the zero of package time. -/
theorem toTick_clk (s : State) (n : Nat) : ∃ c : Clock, c.base = s.clk.base ∧ s.toTick n = { s with clk := c } := by
  unfold State.toTick
  split
  · exact ⟨s.clk, rfl, rfl⟩
  · exact ⟨s.clk.pass s.ratio ((n - s.clk.tick) * s.ratio - s.clk.sub), rfl, rfl⟩

/-! Snapshots. -/

/-- A page is latched: its shadow window and PG_SNAP (R60). -/
def State.snapPage (t : State) (p : Nat) (shadow : List (Nat × Nat)) (seq : Nat) (late : Bool) : State :=
  (((t.setPage p { t.page p with shadow := shadow }).wr p R.PG_SNAP_SEQ seq).wb p R.PG_SNAP_LATE late).wb p R.PG_SNAP_VALID true

/-- What a latched page shows. -/
def State.Snapped (t : State) (p : Nat) (shadow : List (Nat × Nat)) (seq : Nat) (late : Bool) : Prop :=
  (t.page p).shadow = shadow ∧ t.rd p R.PG_SNAP_SEQ = seq % 2 ^ 16 ∧ t.bit p R.PG_SNAP_LATE = late ∧ t.bit p R.PG_SNAP_VALID = true

theorem latchDie_eq (s : State) (d seq : Nat) (late : Bool) :
    s.latchDie d seq late = (s.stagePages d).foldl (fun (t : State) p => t.snapPage p (s.shadowOf p) seq late) s := rfl

section
variable {t : State} {p q seq : Nat} {sh : List (Nat × Nat)} {late : Bool}

theorem wf_snapPage (w : Wf t) : Wf (t.snapPage p sh seq late) :=
  wf_wb (wf_wb (wf_wr ((kept_setPage (Kept.refl t) ..).wf w) ..) ..) ..

theorem snapped_snapPage (w : Wf t) : (t.snapPage p sh seq late).Snapped p sh seq late := by
  have w1 : Wf (t.setPage p { t.page p with shadow := sh }) := (kept_setPage (Kept.refl t) ..).wf w
  have w2 := wf_wr w1 p R.PG_SNAP_SEQ seq
  have w3 := wf_wb w2 p R.PG_SNAP_LATE late
  refine ⟨congrArg PageSt.shadow (look_put_self _ _ w.pages), ?_, ?_, bit_wb_self w3 p true rfl⟩
  · exact (rd_wr_place w3 _ rfl rfl (by decide)).trans ((rd_wr_place w2 _ rfl rfl (by decide)).trans (rd_wr_self w1 ..))
  · exact (bit_wr_place w3 _ rfl rfl (by decide)).trans (bit_wb_self w2 p late rfl)

theorem snapped_snapPage_ne {sh' : List (Nat × Nat)} (w : Wf t) (hq : q ≠ p) (h : t.Snapped p sh seq late) :
    (t.snapPage q sh' seq late).Snapped p sh seq late := by
  have w1 : Wf (t.setPage q { t.page q with shadow := sh' }) := (kept_setPage (Kept.refl t) ..).wf w
  have w2 := wf_wr w1 q R.PG_SNAP_SEQ seq
  have w3 := wf_wb w2 q R.PG_SNAP_LATE late
  have hrd {g : Fld} (hg : g.placed = true) : (t.snapPage q sh' seq late).rd p g = t.rd p g :=
    (rd_wr_page w3 _ rfl hg hq.symm).trans ((rd_wr_page w2 _ rfl hg hq.symm).trans (rd_wr_page w1 _ rfl hg hq.symm))
  obtain ⟨hsh, hseq, hlate, hvalid⟩ := h
  refine ⟨(congrArg PageSt.shadow (look_put_ne _ hq.symm w.pages)).trans hsh, (hrd rfl).trans hseq, ?_, ?_⟩
  · rw [State.bit, hrd rfl]; exact hlate
  · rw [State.bit, hrd rfl]; exact hvalid

end

/-- A die's latch shows in every page it holds. -/
theorem latchDie_snapped {s : State} (w : Wf s) (d seq : Nat) (late : Bool) {p : Nat} (h : p ∈ s.stagePages d) :
    (s.latchDie d seq late).Snapped p (s.shadowOf p) seq late := by
  rw [latchDie_eq]
  exact foldl_visits (P := fun t p => t.Snapped p (s.shadowOf p) seq late) (fun _ _ w => snapped_snapPage w)
    (fun _ _ _ w hq => snapped_snapPage_ne w hq) (fun _ _ w => wf_snapPage w) w (.inl h)

theorem snapPage_frame (t : State) (p seq : Nat) (sh : List (Nat × Nat)) (late : Bool) (m : Sparse Nat) (x : Sparse PageSt) :
    { t.snapPage p sh seq late with regs := m, pages := x } = { t with regs := m, pages := x } := rfl

/-- A die's latch changes registers and pages alone. -/
theorem latchDie_frame (s : State) (d seq : Nat) (late : Bool) (m : Sparse Nat) (x : Sparse PageSt) :
    { s.latchDie d seq late with regs := m, pages := x } = { s with regs := m, pages := x } := by
  rw [latchDie_eq]
  exact foldl_keeps (fun t : State => { t with regs := m, pages := x }) (fun t p => snapPage_frame t p seq _ late m x) _ s

theorem latchDie_snaps (s : State) (d seq : Nat) (late : Bool) : (s.latchDie d seq late).snaps = s.snaps := by
  have h := congrArg State.snaps (latchDie_frame s d seq late [] [])
  generalize s.latchDie d seq late = t at h ⊢
  exact h

/-- What the completion of a snapshot reports of the dies (R60-R62). -/
def snapHead (r : SnapRun) : List (Fld × Nat) :=
  let missing := allDies.filter fun x => !r.done.contains x
  [(R.PKG_SNAP_MISS, missing.foldl (fun a x => a + 2 ^ x) 0), (R.PKG_SNAP_STAT_MISSING, if !missing.isEmpty then 1 else 0),
    (R.PKG_SNAP_STAT_SEQ, r.seq), (R.PKG_SNAP_STAT_LATE, if r.late then 1 else 0)]

/-- The fields that the completion of a snapshot writes (R60-R62); `n` is the new count of late snapshots. -/
def snapDoneFields (r : SnapRun) (base n : Nat) : List (Fld × Nat) :=
  snapHead r ++ (if r.late then [(R.PKG_SNAP_STAT_LATE_CNT, n)] else []) ++ [(R.PKG_SNAP_TICK, r.target - base), (R.PKG_SNAP_CTRL_BUSY, 0)]

theorem snapDone_eq (s : State) (h : Nat) (r : SnapRun) :
    ∃ n, s.snapDone h r = (s.writes pkg0 (snapDoneFields r s.clk.base n)).setSnap h none := by
  cases hl : r.late with
  | false => exact ⟨0, by simp only [State.snapDone, snapDoneFields, snapHead, hl]; rfl⟩
  | true =>
    refine ⟨min ((s.writes pkg0 (snapHead r)).rd pkg0 R.PKG_SNAP_STAT_LATE_CNT + 1) (2 ^ 8 - 1), ?_⟩
    simp only [State.snapDone, snapDoneFields, snapHead, hl, if_true]
    rfl

theorem snapDoneFields_distinct (r : SnapRun) (base n : Nat) : distinctPlaces ((snapDoneFields r base n).map Prod.fst) := by
  cases hl : r.late
  · have hfs : (snapDoneFields r base n).map Prod.fst = [R.PKG_SNAP_MISS, R.PKG_SNAP_STAT_MISSING, R.PKG_SNAP_STAT_SEQ, R.PKG_SNAP_STAT_LATE,
        R.PKG_SNAP_TICK, R.PKG_SNAP_CTRL_BUSY] := by simp only [snapDoneFields, snapHead, hl]; rfl
    rw [hfs, distinctPlaces]
    decide
  · have hfs : (snapDoneFields r base n).map Prod.fst = [R.PKG_SNAP_MISS, R.PKG_SNAP_STAT_MISSING, R.PKG_SNAP_STAT_SEQ, R.PKG_SNAP_STAT_LATE,
        R.PKG_SNAP_STAT_LATE_CNT, R.PKG_SNAP_TICK, R.PKG_SNAP_CTRL_BUSY] := by simp only [snapDoneFields, snapHead, hl]; rfl
    rw [hfs, distinctPlaces]
    decide

/-- Distinct bits below `n` add up to less than 2^n. -/
theorem foldl_bits_lt (q : Nat → Bool) (n : Nat) : ((List.range n).filter q).foldl (fun a x => a + 2 ^ x) 0 < 2 ^ n := by
  induction n with
  | zero => exact Nat.one_pos
  | succ n ih =>
    rw [List.range_succ, List.filter_append, List.foldl_append, Nat.pow_succ]
    cases hq : q n <;> simp [hq] <;> omega

/-- What the acting Hoop leaves when it completes its snapshot (R60-R62). -/
theorem snapDone_spec {s : State} (w : Wf s) (h : Nat) (r : SnapRun) :
    let t := s.snapDone h r
    let missing := allDies.filter fun x => !r.done.contains x
    t.bit pkg0 R.PKG_SNAP_CTRL_BUSY = false ∧ t.rd pkg0 R.PKG_SNAP_STAT_SEQ = r.seq % 2 ^ 16 ∧
    t.rd pkg0 R.PKG_SNAP_MISS = missing.foldl (fun a x => a + 2 ^ x) 0 ∧ t.bit pkg0 R.PKG_SNAP_STAT_MISSING = !missing.isEmpty ∧
    t.bit pkg0 R.PKG_SNAP_STAT_LATE = r.late ∧ t.rd pkg0 R.PKG_SNAP_TICK = (r.target - s.clk.base) % 2 ^ 64 ∧ t.snapRun h = none ∧
    (∀ k, k ≠ h → t.snapRun k = s.snapRun k) ∧ (∀ k, keyPage k ≠ pkg0 → look resetVal t.regs k = look resetVal s.regs k) ∧
    { t with regs := s.regs, snaps := s.snaps } = s := by
  intro t missing
  obtain ⟨n, ht⟩ := snapDone_eq s h r
  have hd := snapDoneFields_distinct r s.clk.base n
  have hsnaps : (s.writes pkg0 (snapDoneFields r s.clk.base n)).snaps = s.snaps := by
    have hregs := congrArg State.snaps (writes_regs (p := pkg0) (snapDoneFields r s.clk.base n) s)
    exact hregs
  have hrd {g : Fld} {v : Nat} (hg : (g, v) ∈ snapDoneFields r s.clk.base n) : t.rd pkg0 g = v % 2 ^ g.w := by
    rw [show t = _ from ht]
    exact rd_writes hd hg w
  have hbit {g : Fld} {b : Bool} (hw : g.w = 1) (hg : (g, if b then 1 else 0) ∈ snapDoneFields r s.clk.base n) : t.bit pkg0 g = b := by
    rw [State.bit, hrd hg, hw]
    cases b <;> rfl
  refine ⟨hbit (b := false) rfl (by simp [snapDoneFields]), hrd (by simp [snapDoneFields, snapHead]),
    (hrd (v := missing.foldl (fun a x => a + 2 ^ x) 0) (by simp [snapDoneFields, snapHead, missing])).trans (Nat.mod_eq_of_lt (foldl_bits_lt _ 20)),
    hbit rfl (by simp [snapDoneFields, snapHead, missing]), hbit rfl (by simp [snapDoneFields, snapHead]), hrd (by simp [snapDoneFields]),
    ?_, fun k hk => ?_, fun k hk => ?_, ?_⟩
  · exact (congrArg (State.snapRun · h) ht).trans (look_put_self _ _ (hsnaps ▸ w.snaps))
  · exact (congrArg (State.snapRun · k) ht).trans ((look_put_ne _ hk (hsnaps ▸ w.snaps)).trans (by rw [hsnaps]; rfl))
  · exact (congrArg (fun t : State => look resetVal t.regs k) ht).trans (look_writes_page hd.1 hk w)
  · exact (congrArg (fun t : State => { t with regs := s.regs, snaps := s.snaps }) ht).trans
      (congrArg (fun t : State => { t with snaps := s.snaps }) (writes_regs (p := pkg0) (snapDoneFields r s.clk.base n) s))

/-! Hoop `h` has the snapshot `r` under way: what the events of R60-R62 do. -/

section
variable {s : State} {h : Nat} {r : SnapRun}

theorem exec_snapFrame (hr : s.snapRun h = some r) {d : Nat} (hs : r.sent.contains d = true) (ha : s.answers d = true)
    (hj : d = held h ∨ s.joined h d = true) :
    exec (.snapFrame d h) s = .next (
      let left := { r with sent := r.sent.filter (· ≠ d) }
      if r.target ≤ s.clk.tick then (s.latchDie d r.seq true).setSnap h (some { left with done := r.done ++ [d], late := true })
      else s.setSnap h (some { left with holds := r.holds ++ [d] })) := by
  have hreach : (decide (d = held h) || s.joined h d) = true := by simpa using hj
  show execSnapFrame d h s = _
  simp only [execSnapFrame, hr, hs, ha, hreach]
  rfl

theorem exec_snapshotLatch (hr : s.snapRun h = some r) : exec (.snapshotLatch h) s = .next ((s.toTick r.target).latchAll h r) := by
  show execSnapshotLatch h s = _
  rw [execSnapshotLatch, hr]

theorem exec_snapshotComplete (hr : s.snapRun h = some r) :
    exec (.snapshotComplete h) s = .next (if s.acts h && allDies.all r.done.contains then s.snapDone h r else s) := by
  show execSnapshotComplete h s = _
  rw [execSnapshotComplete, hr]

theorem exec_snapshotTimeout (hr : s.snapRun h = some r) :
    exec (.snapshotTimeout h) s =
      .next (if s.acts h && !allDies.all r.done.contains then (s.toTick (r.target + 100000)).snapDone h r else s) := by
  show execSnapshotTimeout h s = _
  rw [execSnapshotTimeout, hr]

/-- The latches of the dies that hold the target change no snapshot's record. -/
theorem latchAll_eq (e : State) (h : Nat) (r : SnapRun) :
    e.latchAll h r = { (r.holds.foldl (fun (t : State) x => t.latchDie x r.seq false) e) with
      snaps := put (fun _ => none) e.snaps h (some { r with holds := [], done := r.done ++ r.holds }) } := by
  rw [State.latchAll, State.setSnap, foldl_keeps State.snaps (fun t x => latchDie_snaps t x r.seq false)]

end

/-- Settles O32: a frame, the latch, and the completion with all dies or after 1 ms. -/
theorem snapshotProtocol : Obligations.SnapshotProtocol := by
  unfold Obligations.SnapshotProtocol
  intro s h d r w hr completed
  have hall : allDies.all r.done.contains = true ↔ ∀ x, x < 20 → r.done.contains x = true := by simp [allDies]
  refine ⟨fun hs ha hj => ?frame, ?latch, fun hacts hdone => ?complete, fun x hacts hx hmiss => ?timeout⟩
  case frame =>
    intro left
    refine ⟨fun hlt => ?_, fun hle => ⟨?_, fun p hp => latchDie_snapped w d r.seq true hp⟩⟩
    · rw [exec_snapFrame hr hs ha hj]
      exact congrArg Host.Outcome.next (if_neg (by omega))
    · rw [exec_snapFrame hr hs ha hj, ← latchDie_snaps s d r.seq true]
      exact congrArg Host.Outcome.next (if_pos hle)
  case latch =>
    intro e
    have hsnaps : e.snaps = s.snaps := by
      obtain ⟨c, -, he⟩ := toTick_clk s r.target
      rw [show e = _ from he]
    rw [exec_snapshotLatch hr, latchAll_eq, ← hsnaps]
  case complete =>
    refine ⟨_, exec_snapshotComplete hr, ?_⟩
    rw [hacts, hall.mpr hdone]
    exact snapDone_spec w h r
  case timeout =>
    intro e
    refine ⟨_, exec_snapshotTimeout hr, ?_⟩
    have hnot : allDies.all r.done.contains = false := by
      rw [Bool.eq_false_iff]
      intro hd
      rw [hall.mp hd x hx] at hmiss
      cases hmiss
    have we : Wf e := (kept_toTick (Kept.refl s) _).wf w
    have hspec := snapDone_spec we h r
    rw [hacts, hnot]
    obtain ⟨c, hbase, he⟩ := toTick_clk s (r.target + 100000)
    have hb : e.clk.base = s.clk.base := by rw [show e = _ from he]; exact hbase
    have hruns (k : Nat) : e.snapRun k = s.snapRun k := by rw [show e = _ from he]; rfl
    simp only [hb, hruns] at hspec
    exact hspec

end Sys2Proof.Machine
end

section
/-! SUPPORT. Staged commits after PKG_STAGE_CTRL (R65-R69): a die's stage buffers emptied, its answer, the judgement, the mark and the application (O33). -/

namespace Sys2Proof.Machine
open Sys2Proof

/-- What each step of a walk keeps of a sound state, the walk keeps. -/
theorem foldl_keeps_wf {α β : Type} (g : State → β) {f : State → α → State} (hf : ∀ t x, Wf t → Wf (f t x))
    (h : ∀ t x, Wf t → g (f t x) = g t) (l : List α) {s : State} (w : Wf s) : g (l.foldl f s) = g s := by
  induction l generalizing s with
  | nil => rfl
  | cons x l ih => exact (ih (hf s x w)).trans (h s x w)

/-- A walk leaves a page alone that it does not visit. -/
theorem foldl_avoids {f : State → Nat → State} (hf : ∀ t x, Wf t → Wf (f t x))
    (hother : ∀ t q p, Wf t → p ≠ q → (f t q).page p = t.page p) {l : List Nat} {p : Nat} (hp : p ∉ l) {s : State} (w : Wf s) : (l.foldl f s).page p = s.page p := by
  induction l generalizing s with
  | nil => rfl
  | cons q l ih =>
    obtain ⟨hq, hl⟩ := not_or.mp (fun h => hp (List.mem_cons.mpr h))
    exact (ih hl (hf s q w)).trans (hother s q p w hq)

/-! Emptied buffers. -/

/-- A page's stage buffer is emptied. -/
def State.dropPage (t : State) (p : Nat) : State := (t.setPage p { t.page p with stage := [] }).wb p R.PG_STATUS_STAGE_OVF false

/-- What concerns die `d` alone leaves the commit's messages. -/
def CommitRun.without (c : CommitRun) (d : Nat) : CommitRun :=
  { c with discard := c.discard.filter (· ≠ d), ahead := c.ahead.filter (· ≠ d), frozen := c.frozen.filter fun x => decide (x.1 ≠ d),
           mark := c.mark.filter (· ≠ d), armed := c.armed.filter (· ≠ d) }

theorem without_self (c : CommitRun) (d : Nat) : (c.without d).discard.contains d = false ∧
    ((c.without d).frozen.any fun x => decide (x.1 = d)) = false ∧ (c.without d).armed.contains d = false := by
  simp [CommitRun.without]

theorem wf_dropPage {t : State} (w : Wf t) (p : Nat) : Wf (t.dropPage p) := wf_wb ((kept_setPage (Kept.refl t) ..).wf w) ..

/-- The pages of a die emptied, one after the other. -/
def State.dropPages (s : State) (l : List Nat) : State := l.foldl State.dropPage s

theorem dropPages_frame (s : State) (l : List Nat) : { s.dropPages l with regs := s.regs, pages := s.pages } = s :=
  foldl_keeps (fun t : State => { t with regs := s.regs, pages := s.pages }) (f := State.dropPage) (fun _ _ => rfl) l s

theorem dropPages_com (s : State) (l : List Nat) : (s.dropPages l).com = s.com := foldl_keeps State.com (f := State.dropPage) (fun _ _ => rfl) l s

theorem dropStage_eq (s : State) (d : Nat) : s.dropStage d = { s.dropPages (s.stagePages d) with com := s.com.without d } := by
  unfold State.dropStage
  generalize s.stagePages d = l
  rw [← dropPages_com s l]
  rfl

/-- A die's buffers emptied: its own pages hold nothing, the others stand. -/
theorem dropStage_pages {s : State} (w : Wf s) (d p : Nat) :
    (p ∈ s.stagePages d → ((s.dropStage d).page p).stage = [] ∧ (s.dropStage d).bit p R.PG_STATUS_STAGE_OVF = false) ∧
    (p ∉ s.stagePages d → (s.dropStage d).page p = s.page p) := by
  have hwf (t : State) (q : Nat) (wt : Wf t) : Wf (t.dropPage q) := wf_dropPage wt q
  rw [dropStage_eq]
  generalize s.stagePages d = l
  refine ⟨fun hp => ?_, fun hp => foldl_avoids hwf (fun t q p wt hq => look_put_ne _ hq wt.pages) hp w⟩
  refine foldl_visits (P := fun t p => (t.page p).stage = [] ∧ t.bit p R.PG_STATUS_STAGE_OVF = false) (f := State.dropPage) (fun t q wt => ⟨?_, ?_⟩)
    (fun t q p wt hq h => ⟨?_, ?_⟩) hwf w (.inl hp)
  · exact congrArg PageSt.stage (look_put_self _ _ wt.pages)
  · exact bit_wb_self ((kept_setPage (Kept.refl t) ..).wf wt) q false rfl
  · exact (congrArg PageSt.stage (look_put_ne _ hq.symm wt.pages)).trans h.1
  · exact (congrArg (fun n => decide (n = 1)) (rd_wr_page ((kept_setPage (Kept.refl t) ..).wf wt) _ rfl rfl hq.symm)).trans h.2

theorem dropStage_frame (s : State) (d : Nat) : { s.dropStage d with regs := s.regs, pages := s.pages, com := s.com } = s := by
  rw [dropStage_eq]
  exact congrArg (fun t : State => { t with com := s.com }) (dropPages_frame s (s.stagePages d))

theorem dropStage_com (s : State) (d : Nat) : (s.dropStage d).com = s.com.without d := by rw [dropStage_eq]

/-- Emptied buffers change no Hoop's role. -/
theorem dropStage_acting {s : State} (w : Wf s) (d : Nat) : (s.dropStage d).acting = s.acting := by
  rw [dropStage_eq]
  generalize s.stagePages d = l
  refine foldl_keeps_wf State.acting (f := State.dropPage) (fun t q wt => wf_dropPage wt q) (fun t q wt => ?_) l w
  have hrole (h : Nat) : (t.dropPage q).role h = t.role h := rd_wr_place ((kept_setPage (Kept.refl t) ..).wf wt) _ rfl rfl (by decide)
  have hacts (h : Nat) : (t.dropPage q).acts h = t.acts h := by simp only [State.acts, hrole]
  simp only [State.acting, hacts]

/-! Prepare and discard. -/

section
variable {s : State} {a d : Nat}

/-- A die that answers on the ring freezes its buffers and answers (R66). -/
theorem prepare_eq (ha : s.acting = some a) (hans : s.answers d = true) : s.prepare d =
    let ps := s.stagePages d
    let ans := if ps.any fun p => s.bit p R.PG_STATUS_STAGE_OVF then 1
      else if ps.any fun p => (s.page p).stage.any fun x => decide (x.epoch < max (s.hpEpoch a) (s.rd p R.PG_EPOCH_EPOCH)) then 2 else 0
    { s with com := { s.com with prep := s.com.prep.filter (· ≠ d), answers := s.com.answers ++ [(d, ans)],
                                 frozen := (s.com.frozen.filter fun x => decide (x.1 ≠ d)) ++ [(d, s.clk.tick)] } } := by
  have hanswer (c : CommitRun) : ({ s with com := c } : State).stageAnswer d =
      if (s.stagePages d).any fun p => s.bit p R.PG_STATUS_STAGE_OVF then 1
      else if (s.stagePages d).any fun p => (s.page p).stage.any fun x => decide (x.epoch < max (s.hpEpoch a) (s.rd p R.PG_EPOCH_EPOCH)) then 2 else 0 := by
    have hacting : ({ s with com := c } : State).acting = some a := ha
    simp only [State.stageAnswer, hacting]
    rfl
  have hans' (c : CommitRun) : ({ s with com := c } : State).answers d = true := hans
  simp only [State.prepare, hans', if_true, hanswer]

theorem acting_any (ha : s.acting = some a) : (s.acting.any fun h => decide (held h = d) || s.joined h d) = true ↔ d = held a ∨ s.joined a d = true := by
  rw [ha, Option.any_some, Bool.or_eq_true, decide_eq_true_eq, eq_comm]

/-- A prepare changes the commit's messages alone. -/
theorem prepare_com (s : State) (d : Nat) : ∃ c : CommitRun, s.prepare d = { s with com := c } := by
  simp only [State.prepare]
  split
  · exact ⟨_, rfl⟩
  · exact ⟨_, rfl⟩

/-- A discard that is on its way empties the die's buffers, whatever was prepared before. -/
theorem discardIn_eq (hd : s.com.discard.contains d = true) : ∃ c : CommitRun, s.discardIn d = State.dropStage { s with com := c } d := by
  rw [State.discardIn, if_pos hd]
  split
  · obtain ⟨c, hc⟩ := prepare_com s d
    exact ⟨c, by rw [hc]⟩
  · exact ⟨s.com, rfl⟩

theorem wf_com (w : Wf s) (c : CommitRun) : Wf { s with com := c } := (Kept.upd (Kept.refl s) rfl).wf w

theorem discardIn_acting (w : Wf s) : (s.discardIn d).acting = s.acting := by
  by_cases hd : s.com.discard.contains d = true
  · obtain ⟨c, hc⟩ := discardIn_eq hd
    rw [hc, dropStage_acting (wf_com w c)]
    rfl
  · rw [State.discardIn, if_neg hd]

end

/-! The judgement. -/

/-- The answers as the acting Hoop holds them: 3, ACK_TIMEOUT, for a die that has not answered. -/
def ansOf (l : List (Nat × Nat)) (x : Nat) : Nat := ((l.find? fun y => decide (y.1 = x)).map Prod.snd).getD 3

theorem answerOf_eq (s : State) (d : Nat) : s.answerOf d = ansOf s.com.taken d := by
  unfold State.answerOf ansOf
  cases s.com.taken.find? _ <;> rfl

/-- The lowest die that failed or was silent fails the commit; where none did it is marked (R66, R67). -/
theorem judge_spec (s : State) :
    (∀ x, x < 20 → ansOf s.com.taken x ≠ 0 → (∀ y, y < x → ansOf s.com.taken y = 0) → s.judge = s.stageFail x (ansOf s.com.taken x)) ∧
    ((∀ x, x < 20 → ansOf s.com.taken x = 0) →
      s.judge = { (s.wr pkg0 R.PKG_STAGE_STAT_STATE 3) with com := { s.com with mark := allDies, markAt := s.clk.tick } }) := by
  simp only [State.judge, answerOf_eq]
  refine ⟨fun x hx hne hlow => ?_, fun hz => ?_⟩
  · have hfind : (allDies.find? fun d => decide (ansOf s.com.taken d ≠ 0)) = some x := by
      rw [allDies, List.find?_range_eq_some]
      simpa [hne, hx] using hlow
    rw [hfind]
  · have hfind : (allDies.find? fun d => decide (ansOf s.com.taken d ≠ 0)) = none := by
      simpa [allDies] using hz
    rw [hfind]
    rfl

/-! The application. -/

/-- Snapshots that latch before a commit leave its messages alone. -/
theorem latchDue_com (s : State) (h : Nat) : (s.latchDue h).com = s.com := by
  have hdie (t : State) (d seq : Nat) (late : Bool) : (t.latchDie d seq late).com = t.com := by
    have hframe := congrArg State.com (latchDie_frame t d seq late [] [])
    generalize t.latchDie d seq late = u at hframe ⊢
    exact hframe
  unfold State.latchDue
  split
  · rfl
  · rename_i r _
    split
    · rw [latchAll_eq]
      exact foldl_keeps State.com (fun t x => hdie t x r.seq false) r.holds s
    · rfl

section
variable {s : State} {d : Nat}

theorem exec_stageAns {x : Nat × Nat} (hx : s.com.answers.find? (fun y => decide (y.1 = d)) = some x) :
    exec (.stageAns d) s = .next (
      let e : State := { s with com := { s.com with answers := s.com.answers.erase x, taken := s.com.taken ++ [x] } }
      if s.acting.isSome && decide (s.stageSt = 2) && allDies.all fun y => e.com.taken.any fun z => decide (z.1 = y) then e.judge else e) := by
  show execStageAns d s = _
  rw [execStageAns, hx]
  rfl

theorem exec_commitAckTimeout (s : State) :
    exec .commitAckTimeout s = .next (
      if s.acting.isSome && decide (s.stageSt = 2) && !allDies.all fun y => s.com.taken.any fun z => decide (z.1 = y) then
        (s.toTick (s.com.at' + 10000)).judge
      else s) := rfl

theorem exec_prepare (s : State) (d : Nat) :
    exec (.prepare d) s = .next (
      if s.com.prep.contains d then
        if s.acting.any fun h => decide (held h = d) || s.joined h d then (if s.com.ahead.contains d then s else s.discardIn d).prepare d
        else { s with com := { s.com with prep := s.com.prep.filter (· ≠ d) } }
      else s) := rfl

theorem exec_commitMark (s : State) (d : Nat) :
    exec (.commitMark d) s = .next (
      if s.com.mark.contains d then
        if look natZero s.cad.epochs d ≤ s.acting.elim 0 s.hpEpoch && s.com.frozen.any fun x => decide (x.1 = d) then
          { s with com := { s.com with mark := s.com.mark.filter (· ≠ d), armed := s.com.armed ++ [d] } }
        else { s with com := { s.com with mark := s.com.mark.filter (· ≠ d) } }
      else s) := rfl

theorem exec_commitApply (s : State) :
    exec .commitApply s = .next (
      if decide (s.stageSt = 3) && s.com.mark.isEmpty && !s.com.armed.isEmpty then
        let e := [0, 1].foldl State.latchDue s.toFrame
        let words := e.com.armed.flatMap fun x => (e.stagePages x).flatMap fun p => (e.page p).stage.map fun w => (p, w.off)
        let f := e.com.armed.foldl (fun (t : State) x => (t.stagePages x).foldl State.applyPage t) e
        let g := e.com.armed.foldl State.dropStage f
        let k := (g.zero pkg0 [R.PKG_STAGE_STAT_STATE, R.PKG_STAGE_CTRL_OPEN, R.PKG_STAGE_CTRL_COMMIT]).wb pkg0 R.PKG_STAGE_STAT_DONE true
        ({ k with com := { k.com with boundary := k.clk.frame, applied := words } } : State).addWrap pkg0 R.PKG_STAGE_STAT_COMMIT_SEQ 1
      else s) := rfl

theorem exec_stageDiscard (s : State) (d : Nat) :
    exec (.stageDiscard d) s = .next (
      if s.com.discard.contains d then
        if s.answers d && s.acting.any fun h => decide (held h = d) || s.joined h d then s.discardIn d
        else { s with com := { s.com with discard := s.com.discard.filter (· ≠ d) } }
      else s) := rfl

theorem exec_frozenBufferTimeout {x : Nat × Nat} (hx : s.com.frozen.find? (fun y => decide (y.1 = d)) = some x) :
    exec (.frozenBufferTimeout d) s = .next (if s.com.armed.contains d then s else (s.toTick (x.2 + 100000)).dropStage d) := by
  show execFrozenBufferTimeout d s = _
  rw [execFrozenBufferTimeout, hx]
  rfl

end

theorem toTick_com (s : State) (n : Nat) : (s.toTick n).com = s.com := by
  obtain ⟨c, -, hc⟩ := toTick_clk s n
  rw [hc]

/-- Settles O33: prepare, answers, judgement, mark, application and discards, each by its event. -/
theorem stagedCommitProtocol : Obligations.StagedCommitProtocol := by
  unfold Obligations.StagedCommitProtocol
  intro s d a w ha reached judged answers
  have hjoin : (s.acting.any fun h => decide (held h = d) || s.joined h d) = true ↔ reached := acting_any ha
  have hjudged (e : State) : judged e (answers e.com.taken) e.judge := judge_spec e
  have hall (l : List (Nat × Nat)) : (allDies.all fun y => l.any fun z => decide (z.1 = y)) = true ↔
      ∀ y, y < 20 → (l.any fun z => decide (z.1 = y)) = true := by simp [allDies]
  refine ⟨?unreached, ?prepare, ?answer, ?timeout, ?mark, ?apply, ?discard, ?frozen⟩
  case unreached =>
    intro hp hr
    rw [exec_prepare, if_pos hp, if_neg (fun h => hr (hjoin.mp h))]
  case prepare =>
    intro e hp hr hans ps ans icy left
    have hacting : e.acting = some a := by
      show (if s.com.ahead.contains d then s else s.discardIn d).acting = some a
      split
      · exact ha
      · exact (discardIn_acting w).trans ha
    rw [exec_prepare, if_pos hp, if_pos (hjoin.mpr hr)]
    exact congrArg Host.Outcome.next (prepare_eq hacting hans)
  case answer =>
    intro x hx e
    have hstep := exec_stageAns hx
    refine ⟨fun h => hstep.trans (congrArg Host.Outcome.next (if_neg fun hc => ?_)), fun hst hfull =>
      ⟨_, hstep.trans (congrArg Host.Outcome.next (if_pos ?_)), hjudged e⟩⟩
    · obtain ⟨hc, hfull⟩ := Bool.and_eq_true_iff.mp hc
      obtain ⟨-, hst⟩ := Bool.and_eq_true_iff.mp hc
      rcases h with hne | ⟨y, hy, hmiss⟩
      · exact hne (of_decide_eq_true hst)
      · exact Bool.eq_false_iff.mp hmiss ((hall _).mp hfull y hy)
    · exact Bool.and_eq_true_iff.mpr ⟨Bool.and_eq_true_iff.mpr ⟨by rw [ha]; rfl, decide_eq_true hst⟩, (hall _).mpr hfull⟩
  case timeout =>
    intro y hst hy hmiss
    have hnot : (allDies.all fun y => s.com.taken.any fun z => decide (z.1 = y)) = false := by
      rw [Bool.eq_false_iff]
      intro h
      rw [(hall _).mp h y hy] at hmiss
      cases hmiss
    refine ⟨_, (exec_commitAckTimeout s).trans (congrArg Host.Outcome.next (if_pos (by rw [ha, hnot, decide_eq_true hst]; rfl))), ?_⟩
    have hj := hjudged (s.toTick (s.com.at' + 10000))
    rwa [toTick_com] at hj
  case mark =>
    intro hm he hf
    have hmet : look natZero s.cad.epochs d ≤ s.acting.elim 0 s.hpEpoch := by rw [ha]; exact he
    rw [exec_commitMark, if_pos hm, hf, Bool.and_true, if_pos (decide_eq_true hmet)]
  case apply =>
    intro hst hm harmed e
    have hcom : e.com = s.com := (latchDue_com _ 1).trans (latchDue_com _ 0)
    rw [exec_commitApply, if_pos (by simp [hst, hm, harmed]), ← hcom]
  case discard =>
    intro hd hr hans
    obtain ⟨c, hc⟩ := discardIn_eq hd
    have wc : Wf { s with com := c } := wf_com w c
    have hpages (p : Nat) := dropStage_pages wc d p
    have hstep : exec (.stageDiscard d) s = .next (s.discardIn d) := by
      rw [exec_stageDiscard, if_pos hd, hans, hjoin.mpr hr]
      rfl
    obtain ⟨hdiscard, hfrozen, harmed⟩ := without_self c d
    rw [hc] at hstep
    refine ⟨_, hstep, fun p => (hpages p).1, fun p => (hpages p).2, ?_, ?_, ?_, ?_⟩
    · rw [dropStage_com]; exact hdiscard
    · rw [dropStage_com]; exact hfrozen
    · rw [dropStage_com]; exact harmed
    · have hframe := dropStage_frame { s with com := c } d
      generalize State.dropStage { s with com := c } d = t at hframe ⊢
      exact congrArg (fun t : State => { t with com := s.com }) hframe
  case frozen =>
    intro x hx hn
    rw [exec_frozenBufferTimeout hx, hn]
    rfl

end Sys2Proof.Machine
end

section
/-! SUPPORT. What a register write leaves on the JTAG port: nothing. One frame lemma per operation a field's write can reach, by the files of the model,
up to `wordAct` (O60). -/

namespace Sys2Proof.Machine
open Sys2Proof

@[simp] theorem jtag_ite {c : Prop} [Decidable c] (a b : State) : (if c then a else b).out.jtag = if c then a.out.jtag else b.out.jtag :=
  apply_ite (fun t : State => t.out.jtag) c a b

/-- A step of a walk that puts nothing on the JTAG port. -/
def Mute {α : Type} (f : State → α → State) : Prop := ∀ t x, (f t x).out.jtag = t.out.jtag

/-- `simp` proves a step mute by its own equations; the two sides of the `↔` are the same proposition. -/
@[simp] theorem mute_iff {α : Type} {f : State → α → State} : Mute f ↔ ∀ t x, (f t x).out.jtag = t.out.jtag := ⟨fun h => h, fun h => h⟩

@[simp] theorem foldl_jtag {α : Type} {f : State → α → State} (h : Mute f) (l : List α) (s : State) : (l.foldl f s).out.jtag = s.out.jtag :=
  foldl_keeps (fun t : State => t.out.jtag) h l s


/-! Ops -/

@[simp] theorem wb_jtag (s : State) (p : Nat) (f : Fld) (b : Bool) : (s.wb p f b).out.jtag = s.out.jtag := rfl
@[simp] theorem addSat_jtag (s : State) (p : Nat) (f : Fld) (n : Nat) : (s.addSat p f n).out.jtag = s.out.jtag := rfl
@[simp] theorem inc_jtag (s : State) (p : Nat) (f : Fld) : (s.inc p f).out.jtag = s.out.jtag := rfl
@[simp] theorem addWrap_jtag (s : State) (p : Nat) (f : Fld) (n : Nat) : (s.addWrap p f n).out.jtag = s.out.jtag := rfl
@[simp] theorem setBit_jtag (s : State) (p : Nat) (f : Fld) (i : Nat) : (s.setBit p f i).out.jtag = s.out.jtag := rfl
@[simp] theorem clrBit_jtag (s : State) (p : Nat) (f : Fld) (i : Nat) : (s.clrBit p f i).out.jtag = s.out.jtag := rfl
@[simp] theorem putBit_jtag (s : State) (p : Nat) (f : Fld) (i : Nat) (b : Bool) : (s.putBit p f i b).out.jtag = s.out.jtag := by simp [State.putBit]
@[simp] theorem epochUp_jtag (s : State) (p epoch : Nat) : (s.epochUp p epoch).out.jtag = s.out.jtag := by simp [State.epochUp]
@[simp] theorem zero_jtag (s : State) (p : Nat) (fs : List Fld) : (s.zero p fs).out.jtag = s.out.jtag := by simp [State.zero]
@[simp] theorem resetRegs_jtag (s : State) (p : Nat) (kept : List Fld) : (s.resetRegs p kept).out.jtag = s.out.jtag := rfl
@[simp] theorem setUp_jtag (s : State) (p : Nat) (u : PageUp) : (s.setUp p u).out.jtag = s.out.jtag := rfl
@[simp] theorem toCc_jtag (s : State) (c : Nat) : (s.toCc c).out.jtag = s.out.jtag := by simp [State.toCc]
@[simp] theorem startGrace_jtag (s : State) (p src sev : Nat) : (s.startGrace p src sev).out.jtag = s.out.jtag := by simp [State.startGrace]
@[simp] theorem raiseX_jtag (s : State) (p src last extra : Nat) : (s.raiseX p src last extra).out.jtag = s.out.jtag := by simp [State.raiseX]
@[simp] theorem raise_jtag (s : State) (p src : Nat) : (s.raise p src).out.jtag = s.out.jtag := by simp [State.raise]
@[simp] theorem msix_jtag (s : State) (h v : Nat) : (s.msix h v).out.jtag = s.out.jtag := rfl
@[simp] theorem draw_jtag (s : State) : s.draw.1.out.jtag = s.out.jtag := rfl
@[simp] theorem meshEvent_jtag (s : State) (d src node port : Nat) : (s.meshEvent d src node port).out.jtag = s.out.jtag := by simp [State.meshEvent]
@[simp] theorem tileEvent_jtag (s : State) (d t : Nat) (e : TEv) : (s.tileEvent d t e).out.jtag = s.out.jtag := by
  unfold State.tileEvent
  split <;> simp
@[simp] theorem drainTile_jtag (s : State) (d t : Nat) : (s.drainTile d t).out.jtag = s.out.jtag := by simp [State.drainTile]
@[simp] theorem onTile_jtag (s : State) (d t : Nat) (f : Tile → Tile) : (s.onTile d t f).out.jtag = s.out.jtag := by simp [State.onTile]

/-! Memory -/

@[simp] theorem putHunit_jtag (s : State) (mc u : Nat) (ls : List FLine) : (s.putHunit mc u ls).out.jtag = s.out.jtag := by simp [State.putHunit]
@[simp] theorem sideBytes_jtag (s : State) (mc n : Nat) : (s.sideBytes mc n).out.jtag = s.out.jtag := rfl
@[simp] theorem stakeWrite_jtag (s : State) (d g v : Nat) : (s.stakeWrite d g v).out.jtag = s.out.jtag := rfl
@[simp] theorem condNote_jtag (s : State) (d c : Nat) : (s.condNote d c).out.jtag = s.out.jtag := by simp [State.condNote]
@[simp] theorem evtAdd_jtag (s : State) (d c n : Nat) : (s.evtAdd d c n).out.jtag = s.out.jtag := by simp [State.evtAdd]
@[simp] theorem evtOpt_jtag (s : State) (d : Nat) (e : Option Nat) : (s.evtOpt d e).out.jtag = s.out.jtag := by
  unfold State.evtOpt
  split <;> simp
@[simp] theorem engErr_jtag (s : State) (d e idx src : Nat) : (s.engErr d e idx src).out.jtag = s.out.jtag := by simp [State.engErr]
@[simp] theorem stakeCe_jtag (s : State) (d : Nat) (stk : Option Bool) (err : State → State) (h : ∀ t, (err t).out.jtag = t.out.jtag) :
    (s.stakeCe d stk err).out.jtag = s.out.jtag := by
  simp [State.stakeCe, h]
@[simp] theorem placeErr_jtag (s : State) (d e idx : Nat) (pl : Place) : (s.placeErr d e idx pl).out.jtag = s.out.jtag := by
  unfold State.placeErr
  split <;> simp
@[simp] theorem digAdd_jtag (s : State) (d e : Nat) (g : Option (Nat × Nat)) (ls : List FLine) : (s.digAdd d e g ls).out.jtag = s.out.jtag := by
  unfold State.digAdd
  split <;> simp

/-! TileCtl -/

@[simp] theorem tileIdle_jtag (s : State) (d t : Nat) : (s.tileIdle d t).out.jtag = s.out.jtag := rfl
@[simp] theorem rowFollow_jtag (s : State) (d r : Nat) : (s.rowFollow d r).out.jtag = s.out.jtag := by simp [State.rowFollow]
@[simp] theorem zeroReq_jtag (s : State) (d r v : Nat) : (s.zeroReq d r v).out.jtag = s.out.jtag := by simp [State.zeroReq]
@[simp] theorem tgCntClr_jtag (s : State) (d r : Nat) : (s.tgCntClr d r).out.jtag = s.out.jtag := rfl

/-! Stream -/

@[simp] theorem edgeEvent_jtag (s : State) (d src ep : Nat) : (s.edgeEvent d src ep).out.jtag = s.out.jtag := by simp [State.edgeEvent]
@[simp] theorem takeDue_jtag (s : State) (d c : Nat) : (s.takeDue d c).out.jtag = s.out.jtag := by
  refine foldl_jtag (fun t w => ?_) _ _
  dsimp only
  split
  · refine (digAdd_jtag ..).trans ?_
    split <;> simp
  · rfl
@[simp] theorem stageFlit_jtag (s : State) (d port e c idx : Nat) (ls : List FLine) : (s.stageFlit d port e c idx ls).out.jtag = s.out.jtag := by
  unfold State.stageFlit
  split <;> simp
@[simp] theorem enterUnit_jtag (s : State) (w : WUnit) : (s.enterUnit w).out.jtag = s.out.jtag := by
  unfold State.enterUnit
  split <;> simp
@[simp] theorem enterDue_jtag (s : State) (d k : Nat) : (s.enterDue d k).out.jtag = s.out.jtag := by simp [State.enterDue]
@[simp] theorem edgesLost_jtag (s : State) (d c : Nat) : (s.edgesLost d c).out.jtag = s.out.jtag := by simp [State.edgesLost]
@[simp] theorem arrivalsLost_jtag (s : State) (d c : Nat) : (s.arrivalsLost d c).out.jtag = s.out.jtag := by simp [State.arrivalsLost]
@[simp] theorem settleDie_jtag (s : State) (d c : Nat) : (s.settleDie d c).out.jtag = s.out.jtag := by simp [State.settleDie]

/-! Lending -/

@[simp] theorem borrowEnd_jtag (s : State) (d e : Nat) (b : Borrow) (data : Option (List FLine)) (src : Option Nat) (stk : Option Bool) :
    (s.borrowEnd d e b data src stk).out.jtag = s.out.jtag := by
  unfold State.borrowEnd
  dsimp only
  (repeat' split) <;> simp
@[simp] theorem engAbort_jtag (s : State) (d e : Nat) : (s.engAbort d e).out.jtag = s.out.jtag := rfl

/-! Collective -/

@[simp] theorem toWire_jtag (s : State) (p : Nat) (f : WireFlit) : (s.toWire p f).out.jtag = s.out.jtag := by
  unfold State.toWire
  split <;> simp
@[simp] theorem ceAbort_jtag (s : State) (d : Nat) : (s.ceAbort d).out.jtag = s.out.jtag := rfl

/-! Sched -/

@[simp] theorem pkg2Raise_jtag (s : State) (src d : Nat) : (s.pkg2Raise src d).out.jtag = s.out.jtag := by simp [State.pkg2Raise]
@[simp] theorem breakMatch_jtag (s : State) (d id : Nat) : (s.breakMatch d id).out.jtag = s.out.jtag := by simp [State.breakMatch]
@[simp] theorem becomeReady_jtag (s : State) (d c id : Nat) (isEnd mis : Bool) : (s.becomeReady d c id isEnd mis).out.jtag = s.out.jtag := by
  simp [State.becomeReady]
@[simp] theorem unready_jtag (s : State) (d : Nat) : (s.unready d).out.jtag = s.out.jtag := rfl
@[simp] theorem startWait_jtag (s : State) (d : Nat) : (s.startWait d).out.jtag = s.out.jtag := by simp [State.startWait]
@[simp] theorem armWrite_jtag (s : State) (d : Nat) (v : Bool) : (s.armWrite d v).out.jtag = s.out.jtag := by simp [State.armWrite]
@[simp] theorem loadedWrite_jtag (s : State) (d : Nat) (v : Bool) : (s.loadedWrite d v).out.jtag = s.out.jtag := by simp [State.loadedWrite]
@[simp] theorem toEmpty_jtag (s : State) (d : Nat) : (s.toEmpty d).out.jtag = s.out.jtag := by simp [State.toEmpty]
@[simp] theorem progStop_jtag (s : State) (d : Nat) : (s.progStop d).out.jtag = s.out.jtag := by simp [State.progStop]
@[simp] theorem tblWrite_jtag (s : State) (d v : Nat) : (s.tblWrite d v).out.jtag = s.out.jtag := by simp [State.tblWrite]
@[simp] theorem evtDoorbell_jtag (s : State) (d v : Nat) : (s.evtDoorbell d v).out.jtag = s.out.jtag := by simp [State.evtDoorbell]
@[simp] theorem osCntClr_jtag (s : State) (d : Nat) : (s.osCntClr d).out.jtag = s.out.jtag := rfl

/-! Border -/

@[simp] theorem timeArm_jtag (s : State) : s.timeArm.out.jtag = s.out.jtag := rfl
@[simp] theorem breakTake_jtag (s : State) (d : Nat) (b : BreakAt) (count : Bool) : (s.breakTake d b count).out.jtag = s.out.jtag := rfl
@[simp] theorem breakWrite_jtag (s : State) (count staged : Bool) : (s.breakWrite count staged).out.jtag = s.out.jtag := by simp [State.breakWrite]
@[simp] theorem breakRelease_jtag (s : State) : s.breakRelease.out.jtag = s.out.jtag := by simp [State.breakRelease]
@[simp] theorem stepCopy_jtag (s : State) : s.stepCopy.out.jtag = s.out.jtag := rfl
@[simp] theorem dlatAck_jtag (s : State) (d : Nat) : (s.dlatAck d).out.jtag = s.out.jtag := rfl

/-! Wale -/

@[simp] theorem wlDown_jtag (s : State) (p : Nat) : (s.wlDown p).out.jtag = s.out.jtag := by simp [State.wlDown]
@[simp] theorem wlTrain_jtag (s : State) (p : Nat) : (s.wlTrain p).out.jtag = s.out.jtag := by simp [State.wlTrain]
@[simp] theorem wlHold_jtag (s : State) (p : Nat) : (s.wlHold p).out.jtag = s.out.jtag := by simp [State.wlHold]
@[simp] theorem supersede_jtag (s : State) (p : Nat) : (s.supersede p).out.jtag = s.out.jtag := by
  unfold State.supersede
  split <;> simp
@[simp] theorem wlRetrain_jtag (s : State) (p : Nat) : (s.wlRetrain p).out.jtag = s.out.jtag := by simp [State.wlRetrain]
@[simp] theorem wlHoldReq_jtag (s : State) (p : Nat) : (s.wlHoldReq p).out.jtag = s.out.jtag := by simp [State.wlHoldReq]
@[simp] theorem wlEnable_jtag (s : State) (p : Nat) : (s.wlEnable p).out.jtag = s.out.jtag := by simp [State.wlEnable]
@[simp] theorem wlOff_jtag (s : State) (p : Nat) : (s.wlOff p).out.jtag = s.out.jtag := by simp [State.wlOff]
@[simp] theorem flitLost_jtag (s : State) (d : Nat) : (s.flitLost d).out.jtag = s.out.jtag := by simp [State.flitLost]
@[simp] theorem repairWrite_jtag (s : State) (p wire : Nat) : (s.repairWrite p wire).out.jtag = s.out.jtag := by simp [State.repairWrite]
@[simp] theorem wlCntClr_jtag (s : State) (p : Nat) : (s.wlCntClr p).out.jtag = s.out.jtag := rfl

/-! Seber -/

@[simp] theorem sbRaise_jtag (s : State) (w k src : Nat) (f : Option Nat) : (s.sbRaise w k src f).out.jtag = s.out.jtag := by simp [State.sbRaise]
@[simp] theorem setMap_jtag (s : State) (w k : Nat) (tx : Bool) (m : Nat) : (s.setMap w k tx m).out.jtag = s.out.jtag := by simp [State.setMap]
@[simp] theorem sbDiscard_jtag (s : State) (w k : Nat) : (s.sbDiscard w k).out.jtag = s.out.jtag := rfl
@[simp] theorem sbZero_jtag (s : State) (w k : Nat) : (s.sbZero w k).out.jtag = s.out.jtag := rfl
@[simp] theorem sbEnter_jtag (s : State) (w k st : Nat) : (s.sbEnter w k st).out.jtag = s.out.jtag := by simp [State.sbEnter]
@[simp] theorem sbDarken_jtag (s : State) (w k : Nat) : (s.sbDarken w k).out.jtag = s.out.jtag := by simp [State.sbDarken]
@[simp] theorem sbWake_jtag (s : State) (w k : Nat) : (s.sbWake w k).out.jtag = s.out.jtag := by simp [State.sbWake]
@[simp] theorem sbEmit_jtag (s : State) (w k f : Nat) (c : Cell) : (s.sbEmit w k f c).out.jtag = s.out.jtag := rfl
@[simp] theorem lsSend_jtag (s : State) (w k : Nat) (l : LsOpen) : (s.lsSend w k l).out.jtag = s.out.jtag := by simp [State.lsSend]
@[simp] theorem lsOpen_jtag (s : State) (w k : Nat) (l : LsOpen) : (s.lsOpen w k l).out.jtag = s.out.jtag := by simp [State.lsOpen]
@[simp] theorem sbAdjust_jtag (s : State) (w k : Nat) : (s.sbAdjust w k).out.jtag = s.out.jtag := by simp [State.sbAdjust]
@[simp] theorem sbLane_jtag (s : State) (w f k dir : Nat) : (s.sbLane w f k dir).out.jtag = s.out.jtag := by simp [State.sbLane]
@[simp] theorem sbDrain_jtag (s : State) (w k : Nat) : (s.sbDrain w k).out.jtag = s.out.jtag := by simp [State.sbDrain]
@[simp] theorem sbEnable_jtag (s : State) (w : Nat) (on : Bool) : (s.sbEnable w on).out.jtag = s.out.jtag := by simp [State.sbEnable]
@[simp] theorem sbDrop_jtag (s : State) (w k : Nat) : (s.sbDrop w k).out.jtag = s.out.jtag := by simp [State.sbDrop]
@[simp] theorem sbAllow_jtag (s : State) (w k : Nat) : (s.sbAllow w k).out.jtag = s.out.jtag := by simp [State.sbAllow]
@[simp] theorem sbCntClr_jtag (s : State) (w k : Nat) : (s.sbCntClr w k).out.jtag = s.out.jtag := by simp [State.sbCntClr]

/-! Sensors -/

@[simp] theorem nvRefuse_jtag (s : State) (h : Nat) : (s.nvRefuse h).out.jtag = s.out.jtag := by simp [State.nvRefuse]

/-! Optics -/

@[simp] theorem fibRaise_jtag (s : State) (w f k dir src : Nat) : (s.fibRaise w f k dir src).out.jtag = s.out.jtag := by simp [State.fibRaise]
@[simp] theorem loopEval_jtag (s : State) (w f : Nat) : (s.loopEval w f).out.jtag = s.out.jtag := by simp [State.loopEval]
@[simp] theorem loopTx_jtag (s : State) (w f : Nat) : (s.loopTx w f).out.jtag = s.out.jtag := by
  unfold State.loopTx
  dsimp only
  (repeat' split) <;> simp
@[simp] theorem laneTo_jtag (s : State) (w f k dir : Nat) (x : Lane) : (s.laneTo w f k dir x).out.jtag = s.out.jtag := by simp [State.laneTo]
@[simp] theorem park_jtag (s : State) (w f k dir : Nat) : (s.park w f k dir).out.jtag = s.out.jtag := by simp [State.park]
@[simp] theorem acquire_jtag (s : State) (w f k dir : Nat) : (s.acquire w f k dir).out.jtag = s.out.jtag := by simp [State.acquire]
@[simp] theorem slip_jtag (s : State) (w f k : Nat) (x : Lane) : (s.slip w f k x).out.jtag = s.out.jtag := by simp [State.slip]
@[simp] theorem fibSlip_jtag (s : State) (w f mask : Nat) : (s.fibSlip w f mask).out.jtag = s.out.jtag := by simp [State.fibSlip]
@[simp] theorem reacq_jtag (s : State) (w f mask dir : Nat) : (s.reacq w f mask dir).out.jtag = s.out.jtag := by simp [State.reacq]
@[simp] theorem planeSet_jtag (s : State) (w f : Nat) (on : Bool) : (s.planeSet w f on).out.jtag = s.out.jtag := by simp [State.planeSet]
@[simp] theorem planeWrite_jtag (s : State) (w v : Nat) : (s.planeWrite w v).out.jtag = s.out.jtag := by simp [State.planeWrite]
@[simp] theorem fibCntClr_jtag (s : State) (w f : Nat) : (s.fibCntClr w f).out.jtag = s.out.jtag := rfl
@[simp] theorem calCommit_jtag (s : State) (w : Nat) (ue ce : Bool) : (s.calCommit w ue ce).out.jtag = s.out.jtag := by
  unfold State.calCommit
  dsimp only
  (repeat' split) <;> simp
@[simp] theorem rdCommit_jtag (s : State) (r : Nat) : (s.rdCommit r).out.jtag = s.out.jtag := by simp [State.rdCommit]
@[simp] theorem laserTell_jtag (s : State) (r k : Nat) (on : Bool) : (s.laserTell r k on).out.jtag = s.out.jtag := by simp [State.laserTell]
@[simp] theorem laserOff_jtag (s : State) (r k st : Nat) : (s.laserOff r k st).out.jtag = s.out.jtag := by simp [State.laserOff]
@[simp] theorem laserWarm_jtag (s : State) (r k st : Nat) : (s.laserWarm r k st).out.jtag = s.out.jtag := by simp [State.laserWarm]
@[simp] theorem laserWant_jtag (s : State) (r k : Nat) : (s.laserWant r k).out.jtag = s.out.jtag := by simp [State.laserWant]
@[simp] theorem spareStart_jtag (s : State) (r k since : Nat) : (s.spareStart r k since).out.jtag = s.out.jtag := by simp [State.spareStart]
@[simp] theorem laserOnWrite_jtag (s : State) (r k : Nat) (on : Bool) : (s.laserOnWrite r k on).out.jtag = s.out.jtag := by simp [State.laserOnWrite]
@[simp] theorem allOffWrite_jtag (s : State) (r : Nat) (off : Bool) : (s.allOffWrite r off).out.jtag = s.out.jtag := by simp [State.allOffWrite]
@[simp] theorem spareWrite_jtag (s : State) (r k : Nat) : (s.spareWrite r k).out.jtag = s.out.jtag := by simp [State.spareWrite]
@[simp] theorem recal_jtag (s : State) (r : Nat) : (s.recal r).out.jtag = s.out.jtag := by simp [State.recal]
@[simp] theorem spareBanks_jtag (s : State) (r : Nat) : (s.spareBanks r).out.jtag = s.out.jtag := by simp [State.spareBanks]
@[simp] theorem light_jtag (s : State) (r : Nat) (on : Bool) : (s.light r on).out.jtag = s.out.jtag := by simp [State.light]

/-! Slew -/

@[simp] theorem sqEval_jtag (s : State) (h q : Nat) : (s.sqEval h q).out.jtag = s.out.jtag := by simp [State.sqEval]
@[simp] theorem sqWord_jtag (s : State) (h q w : Nat) (last short poi : Bool) : (s.sqWord h q w last short poi).out.jtag = s.out.jtag := by
  simp [State.sqWord]
@[simp] theorem sqWords_jtag (s : State) (h q : Nat) (ws : List Nat) (close short poi : Bool) :
    (s.sqWords h q ws close short poi).out.jtag = s.out.jtag := by
  induction ws generalizing s with
  | nil => rfl
  | cons w ws ih => cases ws <;> simp [State.sqWords, ih]
@[simp] theorem sqFinish_jtag (s : State) (h q : Nat) : (s.sqFinish h q).out.jtag = s.out.jtag := by
  unfold State.sqFinish
  split <;> simp
@[simp] theorem sqOffer_jtag (s : State) (h q : Nat) (ws : List Nat) : (s.sqOffer h q ws).1.out.jtag = s.out.jtag := by
  unfold State.sqOffer
  dsimp only
  (repeat' split) <;> simp
@[simp] theorem sqReset_jtag (s : State) (h q : Nat) : (s.sqReset h q).out.jtag = s.out.jtag := rfl
@[simp] theorem dmaStop_jtag (s : State) (h c status moved : Nat) (rec : Bool) : (s.dmaStop h c status moved rec).out.jtag = s.out.jtag := by
  unfold State.dmaStop
  split <;> simp
@[simp] theorem sqCons_jtag (s : State) (h q : Nat) (mark rewind release : Bool) : (s.sqCons h q mark rewind release).out.jtag = s.out.jtag := by
  simp [State.sqCons]
@[simp] theorem wmClear_jtag (s : State) (h q : Nat) : (s.wmClear h q).out.jtag = s.out.jtag := by simp [State.wmClear]
@[simp] theorem sqFlush_jtag (s : State) (h q : Nat) : (s.sqFlush h q).out.jtag = s.out.jtag := by simp [State.sqFlush]
@[simp] theorem sqResetWrite_jtag (s : State) (h q : Nat) : (s.sqResetWrite h q).out.jtag = s.out.jtag := by simp [State.sqResetWrite]
@[simp] theorem sqCntClr_jtag (s : State) (h q : Nat) : (s.sqCntClr h q).out.jtag = s.out.jtag := rfl
@[simp] theorem dmaRestart_jtag (s : State) (h mask : Nat) : (s.dmaRestart h mask).out.jtag = s.out.jtag := by simp [State.dmaRestart]
@[simp] theorem dmaEnable_jtag (s : State) (h v : Nat) : (s.dmaEnable h v).out.jtag = s.out.jtag := by simp [State.dmaEnable]
@[simp] theorem pcieCntClr_jtag (s : State) (h : Nat) : (s.pcieCntClr h).out.jtag = s.out.jtag := rfl

/-! Thermal -/

@[simp] theorem sendN_jtag (s : State) : s.sendN.out.jtag = s.out.jtag := by
  unfold State.sendN
  split <;> simp
@[simp] theorem safeEval_jtag (s : State) : s.safeEval.out.jtag = s.out.jtag := by
  unfold State.safeEval
  split <;> simp
@[simp] theorem thermalUpdate_jtag (s : State) : s.thermalUpdate.out.jtag = s.out.jtag := by
  unfold State.thermalUpdate
  split <;> simp
@[simp] theorem substitute_jtag (s : State) (g code : Nat) : (s.substitute g code).out.jtag = s.out.jtag := rfl
@[simp] theorem forceSet_jtag (s : State) (d : Nat) : (s.forceSet d).out.jtag = s.out.jtag := by simp [State.forceSet]
@[simp] theorem forceClr_jtag (s : State) (d : Nat) : (s.forceClr d).out.jtag = s.out.jtag := by simp [State.forceClr]
@[simp] theorem safeClear_jtag (s : State) (h : Nat) : (s.safeClear h).out.jtag = s.out.jtag := by simp [State.safeClear]
@[simp] theorem drvLimit_jtag (s : State) (h : Nat) : (s.drvLimit h).out.jtag = s.out.jtag := by simp [State.drvLimit]
@[simp] theorem thCntClr_jtag (s : State) (d : Nat) : (s.thCntClr d).out.jtag = s.out.jtag := rfl
@[simp] theorem ageFit_jtag (s : State) (h d m : Nat) : (s.ageFit h d m).out.jtag = s.out.jtag := by simp [State.ageFit]
@[simp] theorem ageLogClr_jtag (s : State) (h : Nat) : (s.ageLogClr h).out.jtag = s.out.jtag := by simp [State.ageLogClr]

/-! Faults -/

@[simp] theorem fstatClear_jtag (s : State) (p v : Nat) : (s.fstatClear p v).out.jtag = s.out.jtag := rfl
@[simp] theorem reject_jtag (s : State) (p off cause : Nat) : (s.reject p off cause).out.jtag = s.out.jtag := by simp [State.reject]
@[simp] theorem ackResult_jtag (s : State) (h result : Nat) : (s.ackResult h result).out.jtag = s.out.jtag := rfl
@[simp] theorem ackWrite_jtag (s : State) (h : Nat) : (s.ackWrite h).out.jtag = s.out.jtag := by simp [State.ackWrite]
@[simp] theorem queueOffer_jtag (s : State) (h : Nat) (r : FaultRec) : (s.queueOffer h r).out.jtag = s.out.jtag := by simp [State.queueOffer]
@[simp] theorem logPut_jtag (s : State) (h : Nat) (r : FaultRec) : (s.logPut h r).out.jtag = s.out.jtag := rfl
@[simp] theorem intClear_jtag (s : State) (h : Nat) : (s.intClear h).out.jtag = s.out.jtag := by simp [State.intClear]
@[simp] theorem pinClr_jtag (s : State) (h : Nat) : (s.pinClr h).out.jtag = s.out.jtag := rfl
@[simp] theorem logRdWrite_jtag (s : State) (h v : Nat) : (s.logRdWrite h v).out.jtag = s.out.jtag := rfl
@[simp] theorem coalCopy_jtag (s : State) (h : Nat) : (s.coalCopy h).out.jtag = s.out.jtag := by simp [State.coalCopy]
@[simp] theorem coalWrite_jtag (s : State) (h v : Nat) : (s.coalWrite h v).out.jtag = s.out.jtag := by simp [State.coalWrite]
@[simp] theorem crashClear_jtag (s : State) (h : Nat) : (s.crashClear h).out.jtag = s.out.jtag := by simp [State.crashClear]
@[simp] theorem faultCntClr_jtag (s : State) (h : Nat) : (s.faultCntClr h).out.jtag = s.out.jtag := rfl

/-! Hoop -/

@[simp] theorem meet_jtag (s : State) (h e : Nat) : (s.meet h e).out.jtag = s.out.jtag := rfl
@[simp] theorem setRole_jtag (s : State) (h r : Nat) : (s.setRole h r).out.jtag = s.out.jtag := by simp [State.setRole]
@[simp] theorem soloStop_jtag (s : State) (h : Nat) : (s.soloStop h).out.jtag = s.out.jtag := rfl
@[simp] theorem meetEpoch_jtag (s : State) (h e : Nat) : (s.meetEpoch h e).out.jtag = s.out.jtag := by simp [State.meetEpoch]
@[simp] theorem raiseDie_jtag (s : State) (d e : Nat) : (s.raiseDie d e).out.jtag = s.out.jtag := by simp [State.raiseDie]
@[simp] theorem raiseAll_jtag (s : State) (h e : Nat) : (s.raiseAll h e).out.jtag = s.out.jtag := by simp [State.raiseAll]
@[simp] theorem takeOver_jtag (s : State) (h : Nat) : (s.takeOver h).out.jtag = s.out.jtag := rfl
@[simp] theorem stageRestart_jtag (s : State) : s.stageRestart.out.jtag = s.out.jtag := by simp [State.stageRestart]
@[simp] theorem mergeTail_jtag (s : State) (h : Nat) : (s.mergeTail h).out.jtag = s.out.jtag := by
  unfold State.mergeTail
  cases s.mirrorBank h with
  | none => rfl
  | some b =>
    refine (logRdWrite_jtag ..).trans (foldl_jtag (fun t r => ?_) _ _)
    simp
@[simp] theorem offerAgain_jtag (s : State) (h : Nat) : (s.offerAgain h).out.jtag = s.out.jtag := by simp [State.offerAgain]
@[simp] theorem promote_jtag (s : State) (h e r : Nat) : (s.promote h e r).out.jtag = s.out.jtag := by simp [State.promote]
@[simp] theorem leaseReject_jtag (s : State) (h : Nat) : (s.leaseReject h).out.jtag = s.out.jtag := by simp [State.leaseReject]
@[simp] theorem accepted_jtag (s : State) (h : Nat) : (s.accepted h).out.jtag = s.out.jtag := rfl
@[simp] theorem leaseGrant_jtag (s : State) (h : Nat) : (s.leaseGrant h).out.jtag = s.out.jtag := by simp [State.leaseGrant]
@[simp] theorem leaseRenew_jtag (s : State) (h : Nat) : (s.leaseRenew h).out.jtag = s.out.jtag := by simp [State.leaseRenew]
@[simp] theorem leaseStandby_jtag (s : State) (h : Nat) : (s.leaseStandby h).out.jtag = s.out.jtag := by simp [State.leaseStandby]
@[simp] theorem leaseCmd_jtag (s : State) (h cmd : Nat) : (s.leaseCmd h cmd).out.jtag = s.out.jtag := by
  unfold State.leaseCmd
  split <;> simp
@[simp] theorem wdogKick_jtag (s : State) (h : Nat) : (s.wdogKick h).out.jtag = s.out.jtag := rfl
@[simp] theorem profileHoop_jtag (s : State) (h : Nat) : (s.profileHoop h).out.jtag = s.out.jtag := rfl
@[simp] theorem mirrorOut_jtag (s : State) (h : Nat) : (s.mirrorOut h).out.jtag = s.out.jtag := by simp [State.mirrorOut]
@[simp] theorem mirResync_jtag (s : State) (h : Nat) : (s.mirResync h).out.jtag = s.out.jtag := by simp [State.mirResync]
@[simp] theorem hpCntClr_jtag (s : State) (h : Nat) : (s.hpCntClr h).out.jtag = s.out.jtag := rfl

/-! Startup -/

@[simp] theorem showValid_jtag (s : State) (h : Nat) : (s.showValid h).out.jtag = s.out.jtag := rfl
@[simp] theorem dieUp_jtag (s : State) (d e : Nat) : (s.dieUp d e).out.jtag = s.out.jtag := by simp [State.dieUp]
@[simp] theorem fwWrite_jtag (s : State) (p off : Nat) (act : State → State) (h : ∀ t, (act t).out.jtag = t.out.jtag) :
    (s.fwWrite p off act).out.jtag = s.out.jtag := by
  simp [State.fwWrite, h]
@[simp] theorem stageWork_jtag (s : State) (n : Nat) : (s.stageWork n).out.jtag = s.out.jtag := by
  unfold State.stageWork
  split <;> simp
@[simp] theorem startGo_jtag (s : State) : s.startGo.out.jtag = s.out.jtag := by simp [State.startGo]
@[simp] theorem putStaging_jtag (s : State) (h w v : Nat) : (s.putStaging h w v).out.jtag = s.out.jtag := rfl
@[simp] theorem profLoad_jtag (s : State) (h : Nat) : (s.profLoad h).out.jtag = s.out.jtag := rfl
@[simp] theorem saveErr_jtag (s : State) (h : Nat) : (s.saveErr h).out.jtag = s.out.jtag := by simp [State.saveErr]
@[simp] theorem profSave_jtag (s : State) (h : Nat) : (s.profSave h).out.jtag = s.out.jtag := by simp [State.profSave]
@[simp] theorem tagSave_jtag (s : State) : s.tagSave.out.jtag = s.out.jtag := by simp [State.tagSave]
@[simp] theorem setLevel_jtag (s : State) (h v : Nat) : (s.setLevel h v).out.jtag = s.out.jtag := by simp [State.setLevel]
@[simp] theorem keyProgram_jtag (s : State) (h : Nat) (ok : Bool) : (s.keyProgram h ok).out.jtag = s.out.jtag := by simp [State.keyProgram]
@[simp] theorem keyRevoke_jtag (s : State) (h v : Nat) (ok : Bool) : (s.keyRevoke h v ok).out.jtag = s.out.jtag := by simp [State.keyRevoke]
@[simp] theorem scrub_jtag (s : State) : s.scrub.out.jtag = s.out.jtag := rfl
@[simp] theorem lifeTo_jtag (s : State) (h v : Nat) (ok0 ok1 : Bool) : (s.lifeTo h v ok0 ok1).out.jtag = s.out.jtag := by simp [State.lifeTo]
@[simp] theorem dbgFail_jtag (s : State) (h : Nat) : (s.dbgFail h).out.jtag = s.out.jtag := rfl
@[simp] theorem newNonce_jtag (s : State) (h : Nat) : (s.newNonce h).out.jtag = s.out.jtag := rfl
@[simp] theorem authFail_jtag (s : State) (h : Nat) : (s.authFail h).out.jtag = s.out.jtag := by simp [State.authFail]
@[simp] theorem lifeReq_jtag (s : State) (h v : Nat) (owner ok0 ok1 : Bool) : (s.lifeReq h v owner ok0 ok1).out.jtag = s.out.jtag := by
  simp [State.lifeReq]
@[simp] theorem scrubStart_jtag (s : State) (h v : Nat) : (s.scrubStart h v).out.jtag = s.out.jtag := by simp [State.scrubStart]
@[simp] theorem dbgReq_jtag (s : State) (h v : Nat) : (s.dbgReq h v).out.jtag = s.out.jtag := by simp [State.dbgReq]
@[simp] theorem dbgResp_jtag (s : State) (h : Nat) (good : Bool) : (s.dbgResp h good).out.jtag = s.out.jtag := by simp [State.dbgResp]

/-! Access -/

@[simp] theorem plain_jtag (s : State) (p : Nat) (f : Fld) (v : Nat) : (s.plain p f v).out.jtag = s.out.jtag := by
  unfold State.plain
  split <;> simp
@[simp] theorem actOs_jtag (s : State) (p : Nat) (f : Fld) (v val : Nat) : (s.actOs p f v val).out.jtag = s.out.jtag := by simp [State.actOs]
@[simp] theorem actTg_jtag (s : State) (p : Nat) (f : Fld) (v : Nat) : (s.actTg p f v).out.jtag = s.out.jtag := by simp [State.actTg]
@[simp] theorem actMc_jtag (s : State) (p : Nat) (f : Fld) (v : Nat) : (s.actMc p f v).out.jtag = s.out.jtag := by simp [State.actMc]
@[simp] theorem actSt_jtag (s : State) (p : Nat) (f : Fld) (v : Nat) : (s.actSt p f v).out.jtag = s.out.jtag := by simp [State.actSt]
@[simp] theorem actCe_jtag (s : State) (p : Nat) (f : Fld) (v : Nat) (staged : Bool) : (s.actCe p f v staged).out.jtag = s.out.jtag := by
  simp [State.actCe]
@[simp] theorem actWl_jtag (s : State) (p : Nat) (f : Fld) (v : Nat) : (s.actWl p f v).out.jtag = s.out.jtag := by simp [State.actWl]
@[simp] theorem actTh_jtag (s : State) (p : Nat) (f : Fld) (v : Nat) : (s.actTh p f v).out.jtag = s.out.jtag := by simp [State.actTh]
@[simp] theorem actAge_jtag (s : State) (p : Nat) (f : Fld) (v : Nat) : (s.actAge p f v).out.jtag = s.out.jtag := by simp [State.actAge]
@[simp] theorem actWf_jtag (s : State) (p : Nat) (f : Fld) (v : Nat) (ue ce : Bool) : (s.actWf p f v ue ce).out.jtag = s.out.jtag := by
  simp [State.actWf]
@[simp] theorem actFib_jtag (s : State) (p : Nat) (f : Fld) (v : Nat) : (s.actFib p f v).out.jtag = s.out.jtag := by simp [State.actFib]
@[simp] theorem actSb_jtag (s : State) (p : Nat) (f : Fld) (v : Nat) : (s.actSb p f v).out.jtag = s.out.jtag := by simp [State.actSb]
@[simp] theorem actSbk_jtag (s : State) (p : Nat) (f : Fld) (v : Nat) : (s.actSbk p f v).out.jtag = s.out.jtag := by simp [State.actSbk]
@[simp] theorem actRd_jtag (s : State) (p : Nat) (f : Fld) (v : Nat) : (s.actRd p f v).out.jtag = s.out.jtag := by simp [State.actRd]
@[simp] theorem actHp_jtag (s : State) (p : Nat) (f : Fld) (v : Nat) : (s.actHp p f v).out.jtag = s.out.jtag := by simp [State.actHp]
@[simp] theorem huabelNext_jtag (s : State) (h v : Nat) : (s.huabelNext h v).out.jtag = s.out.jtag := by simp [State.huabelNext]
@[simp] theorem actPcie_jtag (s : State) (p : Nat) (f : Fld) (v : Nat) : (s.actPcie p f v).out.jtag = s.out.jtag := by simp [State.actPcie]
@[simp] theorem actFault_jtag (s : State) (p : Nat) (f : Fld) (v : Nat) : (s.actFault p f v).out.jtag = s.out.jtag := by simp [State.actFault]
@[simp] theorem overrideWrite_jtag (s : State) (h val : Nat) : (s.overrideWrite h val).out.jtag = s.out.jtag := by simp [State.overrideWrite]
@[simp] theorem actPr_jtag (s : State) (p : Nat) (f : Fld) (v val : Nat) : (s.actPr p f v val).out.jtag = s.out.jtag := by simp [State.actPr]
@[simp] theorem actSec_jtag (s : State) (p : Nat) (f : Fld) (off v : Nat) (x : WrX) : (s.actSec p f off v x).out.jtag = s.out.jtag := by
  simp [State.actSec]
@[simp] theorem actSq_jtag (s : State) (p : Nat) (f : Fld) (v val : Nat) : (s.actSq p f v val).out.jtag = s.out.jtag := by simp [State.actSq]
@[simp] theorem snapReq_jtag (s : State) : s.snapReq.out.jtag = s.out.jtag := by
  unfold State.snapReq
  split <;> simp
@[simp] theorem stageIdle_jtag (s : State) : s.stageIdle.out.jtag = s.out.jtag := rfl
@[simp] theorem stageFail_jtag (s : State) (die cause : Nat) : (s.stageFail die cause).out.jtag = s.out.jtag := rfl
@[simp] theorem stageCtrl_jtag (s : State) (opn commit : Bool) : (s.stageCtrl opn commit).out.jtag = s.out.jtag := by
  unfold State.stageCtrl
  split <;> simp
@[simp] theorem actPkg0_jtag (s : State) (f : Fld) (v val : Nat) : (s.actPkg0 f v val).out.jtag = s.out.jtag := by simp [State.actPkg0]
@[simp] theorem actPkg1_jtag (s : State) (f : Fld) (v : Nat) : (s.actPkg1 f v).out.jtag = s.out.jtag := by simp [State.actPkg1]
@[simp] theorem actPkg2_jtag (s : State) (f : Fld) (v : Nat) (staged : Bool) : (s.actPkg2 f v staged).out.jtag = s.out.jtag := by simp [State.actPkg2]

/-! SoftReset -/

@[simp] theorem resetTg_jtag (s : State) (p : Nat) : (s.resetTg p).out.jtag = s.out.jtag := rfl
@[simp] theorem resetMc_jtag (s : State) (p : Nat) : (s.resetMc p).out.jtag = s.out.jtag := rfl
@[simp] theorem resetSt_jtag (s : State) (p : Nat) : (s.resetSt p).out.jtag = s.out.jtag := by simp [State.resetSt]
@[simp] theorem resetCe_jtag (s : State) (p : Nat) : (s.resetCe p).out.jtag = s.out.jtag := rfl
@[simp] theorem resetWl_jtag (s : State) (p : Nat) : (s.resetWl p).out.jtag = s.out.jtag := by simp [State.resetWl]
@[simp] theorem resetTh_jtag (s : State) (p : Nat) : (s.resetTh p).out.jtag = s.out.jtag := by simp [State.resetTh]
@[simp] theorem resetAge_jtag (s : State) (p : Nat) : (s.resetAge p).out.jtag = s.out.jtag := by
  unfold State.resetAge
  dsimp only
  (repeat' split) <;> simp
@[simp] theorem startFibre_jtag (s : State) (w f : Nat) : (s.startFibre w f).out.jtag = s.out.jtag := by simp [State.startFibre]
@[simp] theorem resetWf_jtag (s : State) (p : Nat) : (s.resetWf p).out.jtag = s.out.jtag := by simp [State.resetWf]
@[simp] theorem resetFib_jtag (s : State) (p : Nat) : (s.resetFib p).out.jtag = s.out.jtag := by simp [State.resetFib]
@[simp] theorem profileSeber_jtag (s : State) (w : Nat) : (s.profileSeber w).out.jtag = s.out.jtag := rfl
@[simp] theorem resetSb_jtag (s : State) (p : Nat) : (s.resetSb p).out.jtag = s.out.jtag := by simp [State.resetSb]
@[simp] theorem resetSbk_jtag (s : State) (p : Nat) : (s.resetSbk p).out.jtag = s.out.jtag := by simp [State.resetSbk]
@[simp] theorem resetRd_jtag (s : State) (p : Nat) : (s.resetRd p).out.jtag = s.out.jtag := by simp [State.resetRd]
@[simp] theorem resetRdl_jtag (s : State) (p : Nat) : (s.resetRdl p).out.jtag = s.out.jtag := by simp [State.resetRdl]
@[simp] theorem resetHp_jtag (s : State) (p : Nat) : (s.resetHp p).out.jtag = s.out.jtag := rfl
@[simp] theorem resetPcie_jtag (s : State) (p : Nat) : (s.resetPcie p).out.jtag = s.out.jtag := by simp [State.resetPcie]
@[simp] theorem resetFault_jtag (s : State) (p : Nat) : (s.resetFault p).out.jtag = s.out.jtag := by simp [State.resetFault]
@[simp] theorem resetPr_jtag (s : State) (p : Nat) : (s.resetPr p).out.jtag = s.out.jtag := rfl
@[simp] theorem resetSec_jtag (s : State) (p : Nat) : (s.resetSec p).out.jtag = s.out.jtag := by simp [State.resetSec]
@[simp] theorem tagLoad_jtag (s : State) (h : Nat) : (s.tagLoad h).out.jtag = s.out.jtag := rfl
@[simp] theorem resetPkg2_jtag (s : State) : s.resetPkg2.out.jtag = s.out.jtag := by simp [State.resetPkg2]
@[simp] theorem resetBlock_jtag (s : State) (p : Nat) (b : Blk) : (s.resetBlock p b).out.jtag = s.out.jtag := by
  unfold State.resetBlock
  split <;> simp
@[simp] theorem softReset_jtag (s : State) (p : Nat) (b : Blk) : (s.softReset p b).out.jtag = s.out.jtag := by simp [State.softReset]
@[simp] theorem restartBlock_jtag (s : State) (p : Nat) (b : Blk) : (s.restartBlock p b).out.jtag = s.out.jtag := by
  unfold State.restartBlock
  split <;> simp
@[simp] theorem blockUp_jtag (s : State) (p : Nat) (b : Blk) : (s.blockUp p b).out.jtag = s.out.jtag := by simp [State.blockUp]
@[simp] theorem enableWrite_jtag (s : State) (p : Nat) (b : Blk) (v : Nat) : (s.enableWrite p b v).out.jtag = s.out.jtag := by
  simp [State.enableWrite]

/-! Write -/

@[simp] theorem actHdr_jtag (s : State) (p : Nat) (b : Blk) (f : Fld) (v : Nat) : (s.actHdr p b f v).out.jtag = s.out.jtag := by simp [State.actHdr]
@[simp] theorem fieldAct_jtag (s : State) (p : Nat) (b : Blk) (f : Fld) (off val v : Nat) (x : WrX) :
    (s.fieldAct p b f off val v x).out.jtag = s.out.jtag := by
  unfold State.fieldAct
  split_ifs
  · rfl
  · exact actHdr_jtag ..
  · cases b <;> simp
@[simp] theorem wordAct_jtag (s : State) (p : Nat) (b : Blk) (fs : List Fld) (off val be epoch : Nat) (x : WrX) :
    (s.wordAct p b fs off val be epoch x).out.jtag = s.out.jtag := by
  simp [State.wordAct]

end Sys2Proof.Machine
end

section
/-! SUPPORT. A detection (R447, R448) as a frame rule: what it changes, and the bit of PG_FSTAT it sets (O60). -/

namespace Sys2Proof.Machine
open Sys2Proof

section
variable {e : State} {p q src last extra : Nat} {g : Fld}

theorem startGrace_frame (e : State) (p src sev : Nat) (x : Sparse PageSt) : { e.startGrace p src sev with pages := x } = { e with pages := x } := by
  simp only [State.startGrace]
  split <;> rfl

theorem startGrace_regs (e : State) (p src sev : Nat) : (e.startGrace p src sev).regs = e.regs := by
  simp only [State.startGrace]
  split <;> rfl

/-- A detection changes registers, fault records and pages alone. -/
theorem raiseX_frame (e : State) (p src last extra : Nat) (m : Sparse Nat) (f : FaultSt) (x : Sparse PageSt) :
    { e.raiseX p src last extra with regs := m, flt := f, pages := x } = { e with regs := m, flt := f, pages := x } := by
  simp only [State.raiseX]
  split_ifs
  · rfl
  · rfl
  · exact congrArg (fun t : State => { t with regs := m, flt := f }) (startGrace_frame _ p src _ x)

theorem raise_frame (e : State) (p src : Nat) (m : Sparse Nat) (f : FaultSt) (x : Sparse PageSt) :
    { e.raise p src with regs := m, flt := f, pages := x } = { e with regs := m, flt := f, pages := x } := raiseX_frame ..

/-- Of the registers a detection writes its own page's PG_FSTAT, or nothing. -/
theorem raise_regs (e : State) (p src : Nat) :
    (e.raise p src).regs = if (e.rd p R.PG_FMASK_MASK).testBit src || (e.rd p R.PG_FSTAT_SRC).testBit src then e.regs
      else (e.setBit p R.PG_FSTAT_SRC src).regs := by
  simp only [State.raise, State.raiseX]
  by_cases hm : (e.rd p R.PG_FMASK_MASK).testBit src = true
  · simp [hm]
  · by_cases hs : (e.rd p R.PG_FSTAT_SRC).testBit src = true
    · simp [hm, hs]
    · simp only [hm, hs, Bool.false_or, Bool.false_eq_true, if_false]
      rw [startGrace_regs]
      rfl

/-- A detection leaves every field alone but PG_FSTAT. -/
theorem rd_raise (w : Wf e) (hg : g.placed = true) (h : ¬ (g.off = R.PG_FSTAT_SRC.off ∧ g.lo = R.PG_FSTAT_SRC.lo)) : (e.raise p src).rd q g = e.rd q g := by
  rw [State.rd, raise_regs]
  split
  · rfl
  · exact rd_wr_place w _ rfl hg h

theorem bit_raise (w : Wf e) (hg : g.placed = true) (h : ¬ (g.off = R.PG_FSTAT_SRC.off ∧ g.lo = R.PG_FSTAT_SRC.lo)) :
    (e.raise p src).bit q g = e.bit q g := by
  rw [State.bit, rd_raise w hg h]
  rfl

/-- A source that is not masked stands in PG_FSTAT after its detection. -/
theorem fstat_raise (w : Wf e) (hsrc : src < 32) (hm : (e.rd p R.PG_FMASK_MASK).testBit src = false) :
    ((e.raise p src).rd p R.PG_FSTAT_SRC).testBit src = true := by
  rw [State.rd, raise_regs, hm, Bool.false_or]
  by_cases hs : (e.rd p R.PG_FSTAT_SRC).testBit src = true
  · rw [if_pos hs]
    exact hs
  · have hset : (e.setBit p R.PG_FSTAT_SRC src).rd p R.PG_FSTAT_SRC = (e.rd p R.PG_FSTAT_SRC ||| 2 ^ src) % 2 ^ 32 := rd_wr_self w ..
    rw [if_neg hs]
    change ((e.setBit p R.PG_FSTAT_SRC src).rd p R.PG_FSTAT_SRC).testBit src = true
    rw [hset, Nat.testBit_mod_two_pow, Nat.testBit_or, Nat.testBit_two_pow_self, Bool.or_true, decide_eq_true hsrc, Bool.and_self]

/-- A detection in another page leaves PG_FSTAT alone. -/
theorem rd_raise_page (w : Wf e) (hg : g.placed = true) (h : q ≠ p) : (e.raise p src).rd q g = e.rd q g := by
  rw [State.rd, raise_regs]
  split
  · rfl
  · exact rd_wr_page w _ rfl hg h

theorem wf_raise (w : Wf e) : Wf (e.raise p src) := (kept_raise (Kept.refl e) p src).wf w

end

/-! A detection that depends on a condition. -/

def State.raiseIf (e : State) (b : Bool) (p src : Nat) : State := if b then e.raise p src else e

section
variable {e : State} {b : Bool} {p q src : Nat} {g : Fld}

theorem raiseIf_frame (e : State) (b : Bool) (p src : Nat) (m : Sparse Nat) (f : FaultSt) (x : Sparse PageSt) :
    { e.raiseIf b p src with regs := m, flt := f, pages := x } = { e with regs := m, flt := f, pages := x } := by
  cases b
  · rfl
  · exact raise_frame ..

theorem rd_raiseIf (w : Wf e) (hg : g.placed = true) (h : ¬ (g.off = R.PG_FSTAT_SRC.off ∧ g.lo = R.PG_FSTAT_SRC.lo)) :
    (e.raiseIf b p src).rd q g = e.rd q g := by
  cases b
  · rfl
  · exact rd_raise w hg h

theorem rd_raiseIf_page (w : Wf e) (hg : g.placed = true) (h : q ≠ p) : (e.raiseIf b p src).rd q g = e.rd q g := by
  cases b
  · rfl
  · exact rd_raise_page w hg h

theorem wf_raiseIf (w : Wf e) : Wf (e.raiseIf b p src) := by
  cases b
  · exact w
  · exact wf_raise w

end

end Sys2Proof.Machine
end

section
/-! SUPPORT. PROF_SEL, and the saves of profile and tag (R523, R526, R508; O60). -/

namespace Sys2Proof.Machine
open Sys2Proof

/-- A Hoop acts by its role alone. -/
theorem acts_congr {s t : State} {h : Nat} (hrole : t.rd (hpTop h) R.HP_ROLE_ROLE = s.rd (hpTop h) R.HP_ROLE_ROLE) : t.acts h = s.acts h := by
  rw [State.acts, State.role, hrole]
  rfl

/-! PROF_SEL (R523). -/

/-- A changed PROF_SEL as both Hoops show it. -/
def State.pinNow (s : State) (v : Nat) : State :=
  (({ s with pins := { s.pins with profSel := v } } : State).wr (prPg 0) R.PR_STAT_PIN_NOW v).wr (prPg 1) R.PR_STAT_PIN_NOW v

/-- The first change after sampling: the acting Hoop records it. -/
def State.pinSaid (e : State) : State :=
  let a : State := { e with start := { e.start with selSaid := true } }
  let b := a.raiseIf (a.acts 0) (prPg 0) 2
  b.raiseIf (b.acts 1) (prPg 1) 2

theorem exec_profSelChange {s : State} {v : Nat} (hv : v < 4) (hne : v ≠ s.pins.profSel) :
    exec (.profSelChange v) s = .next (if s.pins.resetN then (if s.start.selSaid then s.pinNow v else (s.pinNow v).pinSaid)
      else { s with pins := { s.pins with profSel := v } }) := by
  show execProfSelChange v s = _
  have hchange : (decide (v < 4) && decide (v ≠ s.pins.profSel)) = true := by simp [hv, hne]
  simp only [execProfSelChange, hchange]
  rfl

theorem prPg_ne : prPg 0 ≠ prPg 1 := by decide

/-- PIN_NOW follows in both Hoops; every other field stands. -/
theorem rd_pinNow {s : State} (w : Wf s) {v : Nat} (hv : v < 4) :
    (∀ h, h < 2 → (s.pinNow v).rd (prPg h) R.PR_STAT_PIN_NOW = v) ∧
    ∀ q g, g.placed = true → ¬ (g.off = R.PR_STAT_PIN_NOW.off ∧ g.lo = R.PR_STAT_PIN_NOW.lo) → (s.pinNow v).rd q g = s.rd q g := by
  have w0 : Wf { s with pins := { s.pins with profSel := v } } := (Kept.upd (Kept.refl s) rfl).wf w
  have w1 := wf_wr w0 (prPg 0) R.PR_STAT_PIN_NOW v
  refine ⟨fun h hh => ?_, fun q g hg hne => (rd_wr_place w1 v rfl hg hne).trans (rd_wr_place w0 v rfl hg hne)⟩
  have hself : v % 2 ^ R.PR_STAT_PIN_NOW.w = v := Nat.mod_eq_of_lt hv
  obtain rfl | rfl : h = 0 ∨ h = 1 := by omega
  · exact (rd_wr_page w1 v rfl rfl prPg_ne).trans ((rd_wr_self w0 ..).trans hself)
  · exact (rd_wr_self w1 ..).trans hself

/-- The record of a change: the bit of the acting Hoop's page is set, and nothing else is written. -/
theorem pinSaid_spec {e : State} (w : Wf e) :
    e.pinSaid.pins = e.pins ∧ e.pinSaid.clk = e.clk ∧ e.pinSaid.start.selSaid = true ∧
    (∀ q g, g.placed = true → ¬ (g.off = R.PG_FSTAT_SRC.off ∧ g.lo = R.PG_FSTAT_SRC.lo) → e.pinSaid.rd q g = e.rd q g) ∧
    ∀ h, h < 2 → e.acts h = true → (e.rd (prPg h) R.PG_FMASK_MASK).testBit 2 = false → (e.pinSaid.rd (prPg h) R.PG_FSTAT_SRC).testBit 2 = true := by
  let a : State := { e with start := { e.start with selSaid := true } }
  have wa : Wf a := (Kept.upd (Kept.refl e) rfl).wf w
  have wb : Wf (a.raiseIf (a.acts 0) (prPg 0) 2) := wf_raiseIf wa
  have hrd (q : Nat) {g : Fld} (hg : g.placed = true) (hne : ¬ (g.off = R.PG_FSTAT_SRC.off ∧ g.lo = R.PG_FSTAT_SRC.lo)) :
    (a.raiseIf (a.acts 0) (prPg 0) 2).rd q g = e.rd q g := rd_raiseIf wa hg hne
  have hacts (h : Nat) : (a.raiseIf (a.acts 0) (prPg 0) 2).acts h = e.acts h := acts_congr (hrd (hpTop h) rfl (by decide))
  have hframe : ({ e.pinSaid with regs := [], flt := e.flt, pages := [] } : State) = { a with regs := [], flt := e.flt, pages := [] } :=
    (raiseIf_frame ..).trans (raiseIf_frame ..)
  refine ⟨(congrArg State.pins hframe :), (congrArg State.clk hframe :), (congrArg (fun t : State => t.start.selSaid) hframe :),
    fun q g hg hne => (rd_raiseIf wb hg hne).trans (hrd q hg hne), fun h hh hact hmask => ?_⟩
  obtain rfl | rfl : h = 0 ∨ h = 1 := by omega
  · have hself : a.raiseIf (a.acts 0) (prPg 0) 2 = a.raise (prPg 0) 2 := if_pos hact
    rw [State.pinSaid, rd_raiseIf_page wb rfl prPg_ne]
    rw [hself]
    exact fstat_raise wa (by decide) hmask
  · rw [State.pinSaid, State.raiseIf, if_pos ((hacts 1).trans hact)]
    exact fstat_raise wb (by decide) ((congrArg (Nat.testBit · 2) (hrd (prPg 1) rfl (by decide))).trans hmask)

/-- PROF_SEL_CHANGE, as O60 states it. -/
theorem profSelChange_spec {s : State} (w : Wf s) {v : Nat} (hv : v < 4) (hne : v ≠ s.pins.profSel) :
    ∃ t, exec (.profSelChange v) s = .next t ∧ t.pins = { s.pins with profSel := v } ∧ t.clk = s.clk ∧
      (s.pins.resetN = true → t.start.selSaid = true ∧ ∀ h, h < 2 → t.rd (prPg h) R.PR_STAT_PIN_NOW = v ∧
        t.rd (prPg h) R.PR_STAT_PIN_SAMPLED = s.rd (prPg h) R.PR_STAT_PIN_SAMPLED ∧
        (s.start.selSaid = false → s.acts h = true → (s.rd (prPg h) R.PG_FMASK_MASK).testBit 2 = false →
          (t.rd (prPg h) R.PG_FSTAT_SRC).testBit 2 = true)) ∧
      (s.pins.resetN = false → t.regs = s.regs) := by
  refine ⟨_, exec_profSelChange hv hne, ?_⟩
  obtain ⟨hnow, hrest⟩ := rd_pinNow w hv
  have wp : Wf (s.pinNow v) := wf_wr (wf_wr ((Kept.upd (Kept.refl s) rfl).wf w) ..) ..
  obtain ⟨hpins, hclk, hsaid, hrd, hfstat⟩ := pinSaid_spec wp
  cases hreset : s.pins.resetN with
  | false => exact ⟨rfl, rfl, nofun, fun _ => rfl⟩
  | true =>
    cases hsel : s.start.selSaid with
    | true =>
      exact ⟨rfl, rfl, fun _ => ⟨hsel, fun h hh => ⟨hnow h hh, hrest _ _ rfl (by decide), nofun⟩⟩, nofun⟩
    | false =>
      refine ⟨hpins, hclk, fun _ => ⟨hsaid, fun h hh => ⟨?_, ?_, fun _ hact hmask => hfstat h hh ?_ ?_⟩⟩, nofun⟩
      · exact (hrd _ _ rfl (by decide)).trans (hnow h hh)
      · exact (hrd _ _ rfl (by decide)).trans (hrest _ _ rfl (by decide))
      · exact (acts_congr (hrest (hpTop h) R.HP_ROLE_ROLE rfl (by decide))).trans hact
      · rw [hrest _ _ rfl (by decide)]
        exact hmask

end Sys2Proof.Machine
end

section
/-! SUPPORT. The ends of the saves of profile and tag (R59, R508, R526; O60). -/

namespace Sys2Proof.Machine
open Sys2Proof

/-! A Hoop die's flash, and PR_STAT.VALID that shows it (R536). -/

/-- A Hoop die's flash holds `f`, and its profile page shows which profiles are valid. -/
def State.storeFlash (e : State) (k : Nat) (f : Flash) : State := (e.setFlash k f).showValid k

/-- Four bits by their conditions. -/
theorem testBit_four (q : Nat → Bool) {i : Nat} (hi : i < 4) :
    ((List.range 4).foldl (fun a i => if q i then a + 2 ^ i else a) 0 % 2 ^ 4).testBit i = q i := by
  have hbits : ∀ b0 b1 b2 b3 : Bool, ∀ i < 4,
      ((List.range 4).foldl (fun a i => if [b0, b1, b2, b3].getD i false then a + 2 ^ i else a) 0 % 2 ^ 4).testBit i =
      [b0, b1, b2, b3].getD i false := by decide
  have hq : ∀ i < 4, [q 0, q 1, q 2, q 3].getD i false = q i := by
    intro i hi
    obtain rfl | rfl | rfl | rfl : i = 0 ∨ i = 1 ∨ i = 2 ∨ i = 3 := by omega
    all_goals rfl
  exact (hbits (q 0) (q 1) (q 2) (q 3) i hi).trans (hq i hi)

section
variable {e : State} {k j : Nat} {f : Flash}

theorem wf_setFlash (w : Wf e) (k : Nat) (f : Flash) : Wf (e.setFlash k f) := (kept_setFlash (Kept.refl e) k f).wf w

theorem wf_storeFlash (w : Wf e) (k : Nat) (f : Flash) : Wf (e.storeFlash k f) := wf_wr (wf_setFlash w k f) ..

theorem storeFlash_self (w : Wf e) (k : Nat) (f : Flash) : (e.storeFlash k f).flashOf k = f := look_put_self _ _ w.flash

theorem storeFlash_ne (w : Wf e) (h : j ≠ k) : (e.storeFlash k f).flashOf j = e.flashOf j := look_put_ne _ h w.flash

/-- The page shows the profiles of the flash as it now is. -/
theorem storeFlash_valid (w : Wf e) (k : Nat) (f : Flash) {i : Nat} (hi : i < 4) :
    ((e.storeFlash k f).rd (prPg k) R.PR_STAT_VALID).testBit i = profValid (f.prof i) f.grade := by
  have hself : (e.setFlash k f).flashOf k = f := look_put_self _ _ w.flash
  rw [State.storeFlash, State.showValid, hself, rd_wr_self (wf_setFlash w k f)]
  exact testBit_four (fun i => profValid (f.prof i) f.grade) hi

theorem rd_storeFlash {q : Nat} {g : Fld} (w : Wf e) (hg : g.placed = true)
    (h : q ≠ prPg k ∨ ¬ (g.off = R.PR_STAT_VALID.off ∧ g.lo = R.PR_STAT_VALID.lo)) :
    (e.storeFlash k f).rd q g = e.rd q g := by
  rcases h with h | h
  · exact rd_wr_page (wf_setFlash w k f) _ rfl hg h
  · exact rd_wr_place (wf_setFlash w k f) _ rfl hg h

theorem storeFlash_frame (e : State) (k : Nat) (f : Flash) (m : Sparse Nat) (x : Sparse Flash) :
    { e.storeFlash k f with regs := m, flash := x } = { e with regs := m, flash := x } := rfl

end

/-! PROFILE_SAVE_COMPLETE (R526). -/

/-- The words of a saved profile in their slot. -/
def Flash.withProfile (f : Flash) (slot : Nat) (ws : List Nat) : Flash :=
  { f with profs := ws.zipIdx.foldl (fun m v => put erased m (slot * 128 + v.2) v.1) f.profs }

/-- Hoop die `k`'s flash takes the save, or not. -/
def State.saveInto (e : State) (b : Bool) (k slot : Nat) (ws : List Nat) : State :=
  if b then e.storeFlash k ((e.flashOf k).withProfile slot ws) else e

/-- The save is no longer under way. -/
def State.saveEnds (s : State) (h : Nat) : State := ({ s with start := { s.start with save := none } } : State).wb (prPg h) R.PR_CTRL_SAVE false

section
variable {e : State} {b : Bool} {k j slot : Nat} {ws : List Nat}

theorem wf_saveInto (w : Wf e) : Wf (e.saveInto b k slot ws) := by
  cases b
  · exact w
  · exact wf_storeFlash w ..

theorem saveInto_self (w : Wf e) : (e.saveInto b k slot ws).flashOf k = if b then (e.flashOf k).withProfile slot ws else e.flashOf k := by
  cases b
  · rfl
  · exact storeFlash_self w ..

theorem saveInto_ne (w : Wf e) (h : j ≠ k) : (e.saveInto b k slot ws).flashOf j = e.flashOf j := by
  cases b
  · rfl
  · exact storeFlash_ne w h

theorem rd_saveInto {q : Nat} {g : Fld} (w : Wf e) (hg : g.placed = true)
    (h : q ≠ prPg k ∨ ¬ (g.off = R.PR_STAT_VALID.off ∧ g.lo = R.PR_STAT_VALID.lo)) :
    (e.saveInto b k slot ws).rd q g = e.rd q g := by
  cases b
  · rfl
  · exact rd_storeFlash w hg h

theorem saveInto_frame (m : Sparse Nat) (x : Sparse Flash) : { e.saveInto b k slot ws with regs := m, flash := x } = { e with regs := m, flash := x } := by
  cases b
  · rfl
  · exact storeFlash_frame ..

end

/-- Both flashes as the save left them. -/
def State.savedBoth (s : State) (ok0 ok1 : Bool) (h slot : Nat) (ws : List Nat) : State :=
  (((s.saveEnds h).saveInto ok0 0 slot ws).saveInto ok1 1 slot ws)

theorem exec_profileSaveComplete {s : State} {h slot : Nat} {ws : List Nat} (hs : s.start.save = some (h, slot, ws)) (ok0 ok1 : Bool) :
    exec (.profileSaveComplete ok0 ok1) s = .next (
      let t := s.savedBoth (ok0 && s.nvOk 0) (ok1 && s.nvOk 1) h slot ws
      if (ok0 && s.nvOk 0) && (ok1 && s.nvOk 1) then t else t.saveErr h) := by
  show execProfileSaveComplete ok0 ok1 s = _
  rw [execProfileSaveComplete, hs]
  rfl

/-- The flashes and the profile pages after a save has ended. -/
theorem savedBoth_spec {s : State} (w : Wf s) (ok : Nat → Bool) (h slot : Nat) (ws : List Nat) :
    let t := s.savedBoth (ok 0) (ok 1) h slot ws
    Wf t ∧ t.clk = s.clk ∧ t.start.save = none ∧ t.bit (prPg h) R.PR_CTRL_SAVE = false ∧
    (t.rd (prPg h) R.PG_FMASK_MASK = s.rd (prPg h) R.PG_FMASK_MASK) ∧
    ∀ k, k < 2 → t.flashOf k = (if ok k then (s.flashOf k).withProfile slot ws else s.flashOf k) ∧
      (ok k = true → ∀ i, i < 4 → (t.rd (prPg k) R.PR_STAT_VALID).testBit i = profValid ((t.flashOf k).prof i) (t.flashOf k).grade) := by
  intro t
  have ws0 : Wf { s with start := { s.start with save := none } } := (Kept.upd (Kept.refl s) rfl).wf w
  have w0 : Wf (s.saveEnds h) := wf_wb ws0 ..
  have w1 : Wf ((s.saveEnds h).saveInto (ok 0) 0 slot ws) := wf_saveInto w0
  have hrd {g : Fld} (hg : g.placed = true) (hne : ¬ (g.off = R.PR_STAT_VALID.off ∧ g.lo = R.PR_STAT_VALID.lo)) (q : Nat) :
      t.rd q g = (s.saveEnds h).rd q g :=
    (rd_saveInto w1 hg (.inr hne)).trans (rd_saveInto w0 hg (.inr hne))
  have hframe : ({ t with regs := [], flash := [] } : State) = { s.saveEnds h with regs := [], flash := [] } :=
    (saveInto_frame ..).trans (saveInto_frame ..)
  refine ⟨wf_saveInto w1, (congrArg State.clk hframe :), (congrArg (fun t : State => t.start.save) hframe :), ?_, ?_, fun k hk => ?_⟩
  · exact (congrArg (fun n => decide (n = 1)) (hrd rfl (by decide) (prPg h))).trans (bit_wb_self ws0 _ false rfl)
  · exact (hrd rfl (by decide) _).trans (rd_wr_place ws0 _ rfl rfl (by decide))
  · obtain rfl | rfl : k = 0 ∨ k = 1 := by omega
    · have hself : t.flashOf 0 = _ := (saveInto_ne w1 (by decide)).trans (saveInto_self w0)
      refine ⟨hself, fun hok i hi => ?_⟩
      have hpage : t.rd (prPg 0) R.PR_STAT_VALID = _ := rd_saveInto w1 rfl (.inl prPg_ne)
      rw [hpage, hself, hok]
      exact storeFlash_valid w0 0 _ hi
    · have hflash : ((s.saveEnds h).saveInto (ok 0) 0 slot ws).flashOf 1 = s.flashOf 1 := saveInto_ne w0 (by decide)
      have hself : t.flashOf 1 = _ := saveInto_self w1
      rw [hflash] at hself
      refine ⟨hself, fun hok i hi => ?_⟩
      have ht : t = State.storeFlash _ 1 _ := if_pos hok
      rw [hself, hok, ht, hflash]
      exact storeFlash_valid w1 1 _ hi

/-- A save that failed shows its error (R526). -/
theorem saveErr_spec {e : State} (w : Wf e) (h : Nat) :
    (e.saveErr h).bit (prPg h) R.PR_CTRL_ERR = true ∧
    ((e.rd (prPg h) R.PG_FMASK_MASK).testBit 4 = false → ((e.saveErr h).rd (prPg h) R.PG_FSTAT_SRC).testBit 4 = true) ∧
    (∀ q g, g.placed = true → ¬ (g.off = R.PG_FSTAT_SRC.off ∧ g.lo = R.PG_FSTAT_SRC.lo) →
      ¬ (g.off = R.PR_CTRL_ERR.off ∧ g.lo = R.PR_CTRL_ERR.lo) →
      (e.saveErr h).rd q g = e.rd q g) ∧
    ({ e.saveErr h with regs := [], flt := e.flt, pages := [] } : State) = { e with regs := [], pages := [] } := by
  have we := wf_wb w (prPg h) R.PR_CTRL_ERR true
  refine ⟨?_, fun hm => fstat_raise we (by decide) ?_, fun q g hg h1 h2 => (rd_raise we hg h1).trans (rd_wr_place w _ rfl hg h2), raise_frame ..⟩
  · exact (bit_raise we rfl (by decide)).trans (bit_wb_self w _ true rfl)
  · exact (congrArg (Nat.testBit · 4) (rd_wr_place w _ rfl rfl (by decide))).trans hm

/-- PROFILE_SAVE_COMPLETE, as O60 states it. -/
theorem profileSaveComplete_spec {s : State} (w : Wf s) (ok0 ok1 : Bool) {h slot : Nat} {ws : List Nat} (hs : s.start.save = some (h, slot, ws)) :
    let ok (k : Nat) : Bool := (if k = 0 then ok0 else ok1) && s.nvOk k
    ∃ t, exec (.profileSaveComplete ok0 ok1) s = .next t ∧ t.clk = s.clk ∧ t.start.save = none ∧ t.bit (prPg h) R.PR_CTRL_SAVE = false ∧
      (∀ k, k < 2 → t.flashOf k = (if ok k then (s.flashOf k).withProfile slot ws else s.flashOf k) ∧
        (ok k = true → ∀ i, i < 4 → (t.rd (prPg k) R.PR_STAT_VALID).testBit i = profValid ((t.flashOf k).prof i) (t.flashOf k).grade)) ∧
      (¬ (ok 0 = true ∧ ok 1 = true) → t.bit (prPg h) R.PR_CTRL_ERR = true ∧
        ((s.rd (prPg h) R.PG_FMASK_MASK).testBit 4 = false → (t.rd (prPg h) R.PG_FSTAT_SRC).testBit 4 = true)) := by
  intro ok
  obtain ⟨wt, hclk, hsave, hbit, hmask, hflash⟩ := savedBoth_spec w ok h slot ws
  refine ⟨_, exec_profileSaveComplete hs ok0 ok1, ?_⟩
  by_cases hok : ok 0 = true ∧ ok 1 = true
  · have hand : (ok0 && s.nvOk 0 && (ok1 && s.nvOk 1)) = true := Bool.and_eq_true_iff.mpr hok
    rw [if_pos hand]
    exact ⟨hclk, hsave, hbit, hflash, fun hn => absurd hok hn⟩
  · have hand : ¬ (ok0 && s.nvOk 0 && (ok1 && s.nvOk 1)) = true := fun h => hok (Bool.and_eq_true_iff.mp h)
    obtain ⟨herr, hfstat, hrd, hframe⟩ := saveErr_spec wt h
    have hflashes : (State.saveErr (s.savedBoth (ok 0) (ok 1) h slot ws) h).flash = (s.savedBoth (ok 0) (ok 1) h slot ws).flash :=
      (congrArg State.flash hframe :)
    rw [if_neg hand]
    refine ⟨(congrArg State.clk hframe :).trans hclk, (congrArg (fun t : State => t.start.save) hframe :).trans hsave, ?_,
      fun k hk => ?_, fun _ => ⟨herr, fun hm => ?_⟩⟩
    · exact (congrArg (fun n => decide (n = 1)) (hrd _ _ rfl (by decide) (by decide))).trans hbit
    · obtain ⟨hself, hvalid⟩ := hflash k hk
      have hof : (State.saveErr (s.savedBoth (ok 0) (ok 1) h slot ws) h).flashOf k = (s.savedBoth (ok 0) (ok 1) h slot ws).flashOf k := by
        rw [State.flashOf, hflashes]
        rfl
      refine ⟨hof.trans hself, fun hk1 i hi => ?_⟩
      have hpage := hrd (prPg k) R.PR_STAT_VALID rfl (by decide) (by decide)
      exact (congrArg (Nat.testBit · i) hpage).trans ((hvalid hk1 i hi).trans (by rw [← hof]; rfl))
    · exact hfstat ((congrArg (Nat.testBit · 4) hmask).trans hm)

/-! TAG_SAVE_COMPLETE (R59). -/

/-- The words of a saved tag. -/
def Flash.withTag (f : Flash) (ws : List Nat) : Flash := { f with tag := ws.zipIdx.foldl (fun m v => put natZero m v.2 v.1) [] }

/-- The tag's save is no longer under way. -/
def State.tagEnds (s : State) : State := ({ s with start := { s.start with tagSave := none } } : State).wb pkg1 R.PKG_TAG_CTRL_SAVE false

theorem exec_tagSaveComplete {s : State} {ws : List Nat} (hs : s.start.tagSave = some ws) (ok : Bool) :
    exec (.tagSaveComplete ok) s = .next (
      let a := s.tagEnds.setFlash 0 ((s.tagEnds.flashOf 0).withTag ws)
      if ok then a.setFlash 1 ((a.flashOf 1).withTag ws) else (s.tagEnds.wb pkg1 R.PKG_TAG_CTRL_SAVE_ERR true).raise pkg1 0) := by
  show execTagSaveComplete ok s = _
  rw [execTagSaveComplete, hs]
  rfl

/-- TAG_SAVE_COMPLETE, as O60 states it. -/
theorem tagSaveComplete_spec {s : State} (w : Wf s) (ok : Bool) {ws : List Nat} (hs : s.start.tagSave = some ws) :
    ∃ t, exec (.tagSaveComplete ok) s = .next t ∧ t.clk = s.clk ∧ t.start.tagSave = none ∧ t.bit pkg1 R.PKG_TAG_CTRL_SAVE = false ∧
      (ok = true → ∀ h, h < 2 → t.flashOf h = (s.flashOf h).withTag ws) ∧
      (ok = false → t.flash = s.flash ∧ t.bit pkg1 R.PKG_TAG_CTRL_SAVE_ERR = true) := by
  have w0 : Wf { s with start := { s.start with tagSave := none } } := (Kept.upd (Kept.refl s) rfl).wf w
  have we : Wf s.tagEnds := wf_wb w0 ..
  refine ⟨_, exec_tagSaveComplete hs ok, ?_⟩
  cases ok with
  | true =>
    refine ⟨rfl, rfl, bit_wb_self w0 _ false rfl, fun _ h hh => ?_, nofun⟩
    obtain rfl | rfl : h = 0 ∨ h = 1 := by omega
    · exact (look_put_ne _ (by decide) (wf_setFlash we ..).flash).trans (look_put_self _ _ we.flash)
    · refine (look_put_self _ _ (wf_setFlash we ..).flash).trans (congrArg (Flash.withTag · ws) ?_)
      exact look_put_ne _ (by decide) we.flash
  | false =>
    have we1 := wf_wb we pkg1 R.PKG_TAG_CTRL_SAVE_ERR true
    have hframe := raise_frame (s.tagEnds.wb pkg1 R.PKG_TAG_CTRL_SAVE_ERR true) pkg1 0 [] s.flt []
    refine ⟨(congrArg State.clk hframe :), (congrArg (fun t : State => t.start.tagSave) hframe :), ?_, nofun,
      fun _ => ⟨(congrArg State.flash hframe :), ?_⟩⟩
    · exact (bit_raise we1 rfl (by decide)).trans ((bit_wr_place we _ rfl rfl (by decide)).trans (bit_wb_self w0 _ false rfl))
    · exact (bit_raise we1 rfl (by decide)).trans (bit_wb_self we _ true rfl)

end Sys2Proof.Machine
end

section
/-! SUPPORT. I3C, the VENDOR scrub and JTAG (R520, R532, R533), and the rest of chapter 17 settled (O60). -/

namespace Sys2Proof.Machine
open Sys2Proof

/-! I3C (R520). -/

theorem mem_allSensors {x : Nat × Nat} : x ∈ allSensors ↔ x.1 < 20 ∧ x.2 < sensCount x.1 := by
  obtain ⟨d, i⟩ := x
  simp [allSensors, allDies]

/-- Table 16-1: the sensors of the Osier dies, their stacks, and the Weft, Reed and Hoop dies. -/
theorem sensIdx_cases {d i : Nat} (hd : d < 20) (hi : i < sensCount d) :
    (d < 8 ∧ i < 24 ∧ sensIdx d i = 24 * d + i) ∨ (d < 8 ∧ 24 ≤ i ∧ i < 27 ∧ sensIdx d i = 312 + 3 * d + (i - 24)) ∨
    (8 ≤ d ∧ d < 16 ∧ i < 12 ∧ sensIdx d i = 192 + 12 * (d - 8) + i) ∨ (16 ≤ d ∧ d < 18 ∧ i < 8 ∧ sensIdx d i = 288 + 8 * (d - 16) + i) ∨
    (18 ≤ d ∧ i < 4 ∧ sensIdx d i = 304 + 4 * (d - 18) + i) := by
  unfold sensCount at hi
  unfold sensIdx
  simp only [isOsier, isWeft, isReed, isHoop, Bool.and_eq_true, Bool.or_eq_true, decide_eq_true_eq] at hi ⊢
  split_ifs at hi ⊢ <;> omega

theorem sensIdx_lt {d i : Nat} (hd : d < 20) (hi : i < sensCount d) : sensIdx d i < 336 := by
  have h := sensIdx_cases hd hi
  omega

/-- Each number is one sensor's. -/
theorem sensIdx_inj {d i e j : Nat} (hd : d < 20) (hi : i < sensCount d) (he : e < 20) (hj : j < sensCount e) (h : sensIdx d i = sensIdx e j) :
    d = e ∧ i = j := by
  have h1 := sensIdx_cases hd hi
  have h2 := sensIdx_cases he hj
  omega

/-- The number of a sensor finds it. -/
theorem find_sensor {d i : Nat} (hd : d < 20) (hi : i < sensCount d) :
    (allSensors.find? fun x => decide (sensIdx x.1 x.2 = sensIdx d i)) = some (d, i) := by
  obtain ⟨y, hy⟩ : ∃ y, (allSensors.find? fun x => decide (sensIdx x.1 x.2 = sensIdx d i)) = some y :=
    Option.isSome_iff_exists.mp (List.find?_isSome.mpr ⟨(d, i), mem_allSensors.mpr ⟨hd, hi⟩, decide_eq_true rfl⟩)
  have hidx : sensIdx y.1 y.2 = sensIdx d i := by simpa using List.find?_some hy
  obtain ⟨hy1, hy2⟩ := mem_allSensors.mp (List.mem_of_find?_eq_some hy)
  obtain ⟨h1, h2⟩ := sensIdx_inj hy1 hy2 hd hi hidx
  rw [hy, ← h1, ← h2]

theorem exec_i3cRead {s : State} {k : Nat} (hr : s.pins.resetN = true) (ht : 1000000 ≤ s.clk.tick) (hk : k ≤ 341)
    (hrole : s.role 0 ≠ roleFailed ∨ s.role 1 ≠ roleFailed) :
    exec (.i3cRead k) s = .next { s with out := { s.out with i3c := s.out.i3c ++ [if s.alive pkg0 then some (s.i3cValue k) else none] },
                                         start := { s.start with alert := false } } := by
  have hopen : (s.pins.resetN && decide (10 * msTicks ≤ s.clk.tick) && decide (k ≤ 341) &&
      ([0, 1].any fun h => decide (s.role h ≠ roleFailed))) = true := by
    simpa [hr, hk, msTicks, ht] using hrole
  show execI3cRead k s = _
  rw [execI3cRead, if_pos hopen]

/-- I3C_READ, as O60 states it. -/
theorem i3cRead_spec {s : State} {k : Nat} (hr : s.pins.resetN = true) (ht : 1000000 ≤ s.clk.tick) (hk : k ≤ 341)
    (hrole : s.role 0 ≠ roleFailed ∨ s.role 1 ≠ roleFailed) :
    ∃ v, exec (.i3cRead k) s = .next { s with out := { s.out with i3c := s.out.i3c ++ [v] }, start := { s.start with alert := false } } ∧
      (s.alive pkg0 = false → v = none) ∧ (s.alive pkg0 = true → k = 338 → v = some (s.clk.n : Int)) ∧
      (s.alive pkg0 = true → k = 339 → v = some (s.rd pkg0 R.PKG_STAGE_STAGE : Int)) ∧
      (s.alive pkg0 = true → ∀ d i, d < 20 → i < sensCount d → k = sensIdx d i → v = some (s.reading d i)) := by
  refine ⟨_, exec_i3cRead hr ht hk hrole, fun ha => by rw [ha]; rfl, fun ha h => ?_, fun ha h => ?_, fun ha d i hd hi h => ?_⟩
  · rw [ha, h]; rfl
  · rw [ha, h]; rfl
  · rw [if_pos ha, h, State.i3cValue, if_pos (sensIdx_lt hd hi), find_sensor hd hi]
    rfl

/-! VENDOR_SCRUB_DONE (R532). -/

/-- A tile whose memories, accumulators and instructions are zero. -/
def Tile.Blank (x : Tile) : Prop := x.mem = [] ∧ x.acc = [] ∧ x.imem = []

/-- What a list of blank tiles reads, listed or not, is blank. -/
theorem blank_look {m : Sparse Tile} (h : ∀ e ∈ m, e.2.Blank) (k : Nat) : (look tileZero m k).Blank := by
  induction m with
  | nil => exact ⟨rfl, rfl, rfl⟩
  | cons e m ih =>
    obtain ⟨j, x⟩ := e
    simp only [look]
    split
    · exact h (j, x) List.mem_cons_self
    · split
      · exact ⟨rfl, rfl, rfl⟩
      · exact ih fun e he => h e (List.mem_cons_of_mem _ he)

/-- The scrub zeroes every memory (R532). -/
theorem scrub_blank (s : State) : ∀ e ∈ s.scrub.tiles, e.2.Blank := by
  intro e he
  obtain ⟨x, -, rfl⟩ := List.mem_map.mp (List.mem_filter.mp he).1
  exact ⟨rfl, rfl, rfl⟩

/-- The level stands in both Hoop dies and no scrub is under way. -/
def State.levelTaken (s : State) (h lvl : Nat) : State :=
  ((s.wb (secPg 0) R.SEC_DBG_SCRUB false).wb (secPg 1) R.SEC_DBG_SCRUB false).setLevel h lvl

/-- The package returns to Stage 1, with its work dies in reset. -/
def State.toStage1 (s : State) : State :=
  let t := workDies.foldl State.dieReset s
  (({ t with cad := {}, start := { t.start with going := false, held := false, work := false } } : State).wr pkg0 R.PKG_STAGE_STAGE 1).wb pkg0
    R.PKG_STAGE_READY false

theorem exec_vendorScrubDone {s : State} {h lvl : Nat} (hs : s.start.scrub = some (h, lvl)) :
    exec .vendorScrubDone s = .next (
      let t := (State.scrub { s with start := { s.start with scrub := none } }).levelTaken h lvl
      if lvl = 3 then t else t.toStage1) := by
  show execVendorScrubDone s = _
  rw [execVendorScrubDone, hs]
  rfl

/-! A die held in reset (R455, R506). -/

theorem dieReset_regs (s : State) (d : Nat) : (s.dieReset d).regs = forgetIf s.regs fun k => decide (dieOf (keyPage k) = d) := by
  unfold State.dieReset
  split_ifs <;> rfl

theorem dieReset_pages (s : State) (d : Nat) : (s.dieReset d).pages = forgetIf s.pages fun p => decide (dieOf p = d) := by
  unfold State.dieReset
  split_ifs <;> rfl

theorem dieReset_time (s : State) (d : Nat) : ((s.dieReset d).clk, (s.dieReset d).start) = (s.clk, s.start) := by
  unfold State.dieReset
  split_ifs <;> rfl

/-- No memory gains a line, and no tile a content, when a die is reset. -/
theorem dieReset_memories (s : State) (d : Nat) :
    (s.hbm = [] → (s.dieReset d).hbm = []) ∧ (s.cbuf = [] → (s.dieReset d).cbuf = []) ∧ ∀ e ∈ (s.dieReset d).tiles, e ∈ s.tiles := by
  unfold State.dieReset
  split_ifs
  · refine ⟨fun h => ?_, fun h => ?_, fun e he => (List.mem_filter.mp he).1⟩
    · show forgetIf s.hbm (fun k => decide (k / 2 ^ 34 = d)) = []
      rw [h]
      rfl
    · show forgetIf s.cbuf (fun k => decide (k / 2 ^ 20 = d)) = []
      rw [h]
      rfl
  all_goals exact ⟨id, id, fun _ => id⟩

/-- Memories and tiles without contents. -/
def State.Blank (t : State) : Prop := t.hbm = [] ∧ t.cbuf = [] ∧ ∀ e ∈ t.tiles, e.2.Blank

theorem blank_dieReset {t : State} (h : t.Blank) (d : Nat) : (t.dieReset d).Blank := by
  obtain ⟨hhbm, hcbuf, htiles⟩ := h
  obtain ⟨h1, h2, h3⟩ := dieReset_memories t d
  exact ⟨h1 hhbm, h2 hcbuf, fun e he => htiles e (h3 e he)⟩

theorem wf_dieReset {t : State} (w : Wf t) (d : Nat) : Wf (t.dieReset d) := (kept_dieReset (Kept.refl t) d).wf w

/-- The registers of the Hoop dies and of the package stand when the work dies are reset. -/
theorem workDies_regs {s : State} (w : Wf s) {k : Nat} (hk : 18 ≤ dieOf (keyPage k)) :
    look resetVal (workDies.foldl State.dieReset s).regs k = look resetVal s.regs k := by
  refine (List.foldlRecOn (motive := fun t => Wf t ∧ look resetVal t.regs k = look resetVal s.regs k) workDies State.dieReset ⟨w, rfl⟩
    fun t ht d hd => ⟨wf_dieReset ht.1 d, ?_⟩).2
  have hd18 : d < 18 := List.mem_range.mp hd
  have hne : decide (dieOf (keyPage k) = d) = false := decide_eq_false (by omega)
  rw [dieReset_regs, look_forgetIf _ _ ht.1.regs, hne]
  exact ht.2

/-- The pages of the work dies are as RESET_N leaves them. -/
theorem workDies_pages {s : State} (w : Wf s) {q : Nat} (hq : dieOf q < 18) : (workDies.foldl State.dieReset s).page q = pageZero q := by
  have hself (t : State) (d : Nat) (wt : Wf t) (q : Nat) : (t.dieReset d).page q = if decide (dieOf q = d) then pageZero q else t.page q := by
    rw [State.page, dieReset_pages]
    exact look_forgetIf _ _ wt.pages
  refine foldl_visits (P := fun t d => ∀ q, dieOf q = d → t.page q = pageZero q) (fun t d wt q hq => ?_) (fun t d e wt hne h q hq => ?_)
    (fun t d wt => wf_dieReset wt d) w (.inl (List.mem_range.mpr hq)) q rfl
  · rw [hself t d wt, if_pos (decide_eq_true hq)]
  · rw [hself t d wt]
    split
    · rfl
    · exact h q hq

theorem workDies_time (s : State) : ((workDies.foldl State.dieReset s).clk, (workDies.foldl State.dieReset s).start) = (s.clk, s.start) :=
  foldl_keeps (fun t : State => (t.clk, t.start)) dieReset_time workDies s

theorem wf_workDies {s : State} (w : Wf s) : Wf (workDies.foldl State.dieReset s) :=
  List.foldlRecOn (motive := fun t => Wf t) workDies State.dieReset w fun _ ht d _ => wf_dieReset ht d

theorem blank_workDies {s : State} (h : s.Blank) : (workDies.foldl State.dieReset s).Blank :=
  List.foldlRecOn (motive := State.Blank) workDies State.dieReset h fun _ ht d _ => blank_dieReset ht d

/-- What the return to Stage 1 leaves. -/
theorem toStage1_spec {s : State} (w : Wf s) :
    s.toStage1.clk = s.clk ∧ s.toStage1.start.scrub = s.start.scrub ∧ (s.Blank → s.toStage1.Blank) ∧
    s.toStage1.rd pkg0 R.PKG_STAGE_STAGE = 1 ∧ s.toStage1.bit pkg0 R.PKG_STAGE_READY = false ∧ s.toStage1.start.going = false ∧
    (∀ q, dieOf q < 18 → s.toStage1.page q = pageZero q) ∧
    ∀ q g, g.placed = true → 18 ≤ dieOf q → q ≠ pkg0 → s.toStage1.rd q g = s.rd q g := by
  obtain ⟨hclk, hstart⟩ := Prod.mk.inj (workDies_time s)
  have wt := wf_workDies w
  have hregs {k : Nat} (hk : 18 ≤ dieOf (keyPage k)) := workDies_regs w hk
  have hpages {q : Nat} (hq : dieOf q < 18) := workDies_pages w hq
  have hblank : s.Blank → _ := blank_workDies
  rw [State.toStage1]
  generalize workDies.foldl State.dieReset s = t at *
  have wu : Wf { t with cad := {}, start := { t.start with going := false, held := false, work := false } } := (Kept.upd (Kept.refl t) rfl).wf wt
  have wv := wf_wr wu pkg0 R.PKG_STAGE_STAGE 1
  refine ⟨hclk, (congrArg StartSt.scrub hstart :), hblank, ?_, bit_wb_self wv _ false rfl, rfl, fun q hq => hpages hq, fun q g hg hq hne => ?_⟩
  · exact (rd_wr_place wv _ rfl rfl (by decide)).trans (rd_wr_self wu ..)
  · refine (rd_wr_page wv _ rfl hg hne).trans ((rd_wr_page wu _ rfl hg hne).trans (hregs ?_))
    simp only [Fld.placed, Bool.and_eq_true, decide_eq_true_eq] at hg
    rw [keyPage_key q hg.1 hg.2]
    exact hq

theorem setLevel_frame (e : State) (h lvl : Nat) (m : Sparse Nat) (f : FaultSt) (x : Sparse PageSt) :
    { e.setLevel h lvl with regs := m, flt := f, pages := x } = { e with regs := m, flt := f, pages := x } := by
  unfold State.setLevel
  dsimp only
  split
  · rfl
  · exact raise_frame ..

/-- Both Hoop dies show the level and the end of the scrub. -/
theorem levelTaken_spec {s : State} (w : Wf s) (h lvl : Nat) : Wf (s.levelTaken h lvl) ∧
    ∀ k, k < 2 → (s.levelTaken h lvl).rd (secPg k) R.SEC_DBG_LEVEL = lvl % 4 ∧ (s.levelTaken h lvl).bit (secPg k) R.SEC_DBG_SCRUB = false := by
  have w1 := wf_wb w (secPg 0) R.SEC_DBG_SCRUB false
  have w2 := wf_wb w1 (secPg 1) R.SEC_DBG_SCRUB false
  have w3 := wf_wr w2 (secPg 0) R.SEC_DBG_LEVEL lvl
  have w4 := wf_wr w3 (secPg 1) R.SEC_DBG_LEVEL lvl
  have hsec : secPg 0 ≠ secPg 1 := by decide
  have hrd {g : Fld} (hg : g.placed = true) (hne : ¬ (g.off = R.PG_FSTAT_SRC.off ∧ g.lo = R.PG_FSTAT_SRC.lo)) (q : Nat) :
      (s.levelTaken h lvl).rd q g = ((((s.wb (secPg 0) R.SEC_DBG_SCRUB false).wb (secPg 1) R.SEC_DBG_SCRUB false).wr (secPg 0) R.SEC_DBG_LEVEL lvl).wr
        (secPg 1) R.SEC_DBG_LEVEL lvl).rd q g := by
    unfold State.levelTaken State.setLevel
    dsimp only
    split
    · rfl
    · exact rd_raise w4 hg hne
  refine ⟨(kept_setLevel (Kept.refl _) h lvl).wf w2, fun k hk => ⟨(hrd rfl (by decide) _).trans ?_, ?_⟩⟩
  · obtain rfl | rfl : k = 0 ∨ k = 1 := by omega
    · exact (rd_wr_page w3 _ rfl rfl hsec).trans (rd_wr_self w2 ..)
    · exact rd_wr_self w3 ..
  · rw [State.bit, hrd rfl (by decide), rd_wr_place w3 _ rfl rfl (by decide), rd_wr_place w2 _ rfl rfl (by decide)]
    obtain rfl | rfl : k = 0 ∨ k = 1 := by omega
    · exact (congrArg (fun n => decide (n = 1)) (rd_wr_page w1 _ rfl rfl hsec)).trans (bit_wb_self w _ false rfl)
    · exact bit_wb_self w1 _ false rfl

/-- VENDOR_SCRUB_DONE, as O60 states it. -/
theorem vendorScrubDone_spec {s : State} (w : Wf s) {h lvl : Nat} (hs : s.start.scrub = some (h, lvl)) :
    ∃ t, exec .vendorScrubDone s = .next t ∧ t.clk = s.clk ∧ t.start.scrub = none ∧
      t.hbm = [] ∧ t.cbuf = [] ∧ (∀ d k, d < 8 → k < 64 → (t.tile d k).mem = [] ∧ (t.tile d k).acc = [] ∧ (t.tile d k).imem = []) ∧
      (∀ k, k < 2 → t.rd (secPg k) R.SEC_DBG_LEVEL = lvl % 4 ∧ t.bit (secPg k) R.SEC_DBG_SCRUB = false) ∧
      (lvl ≠ 3 → t.rd pkg0 R.PKG_STAGE_STAGE = 1 ∧ t.bit pkg0 R.PKG_STAGE_READY = false ∧ t.start.going = false ∧
        ∀ q, dieOf q < 18 → t.page q = pageZero q) := by
  have w0 : Wf (State.scrub { s with start := { s.start with scrub := none } }) := (kept_scrub (Kept.upd (Kept.refl s) rfl)).wf w
  obtain ⟨we, hlevel⟩ := levelTaken_spec w0 h lvl
  have hframe : ({ (State.scrub { s with start := { s.start with scrub := none } }).levelTaken h lvl with regs := [], flt := s.flt, pages := [] } : State) =
      { State.scrub { s with start := { s.start with scrub := none } } with regs := [], pages := [] } := setLevel_frame ..
  refine ⟨_, exec_vendorScrubDone hs, ?_⟩
  generalize (State.scrub { s with start := { s.start with scrub := none } }).levelTaken h lvl = e at *
  have hblank : e.Blank := ⟨(congrArg State.hbm hframe :), (congrArg State.cbuf hframe :),
    fun x hx => scrub_blank _ x ((congrArg State.tiles hframe :) ▸ hx)⟩
  have hclk : e.clk = s.clk := (congrArg State.clk hframe :)
  have hscrub : e.start.scrub = none := (congrArg (fun t : State => t.start.scrub) hframe :)
  have htiles {t : State} (hb : t.Blank) (d k : Nat) : (t.tile d k).Blank := blank_look hb.2.2 _
  by_cases h3 : lvl = 3
  · dsimp only
    rw [if_pos h3]
    exact ⟨hclk, hscrub, hblank.1, hblank.2.1, fun d k _ _ => htiles hblank d k, hlevel, fun hn => absurd h3 hn⟩
  · obtain ⟨hc, hsc, hb, hstage, hready, hgoing, hpages, hrd⟩ := toStage1_spec we
    dsimp only
    rw [if_neg h3]
    refine ⟨hc.trans hclk, hsc.trans hscrub, (hb hblank).1, (hb hblank).2.1, fun d k _ _ => htiles (hb hblank) d k, fun k hk => ?_,
      fun _ => ⟨hstage, hready, hgoing, hpages⟩⟩
    obtain ⟨hl, hsb⟩ := hlevel k hk
    have hdie : 18 ≤ dieOf (secPg k) := by unfold secPg held pg dieOf; omega
    have hne : secPg k ≠ pkg0 := by unfold secPg held pg pkg0 pg; omega
    exact ⟨(hrd _ _ rfl hdie hne).trans hl, (congrArg (fun n => decide (n = 1)) (hrd _ _ rfl hdie hne)).trans hsb⟩

/-! JTAG (R533). -/

section
variable {s : State} {a : JtagAt}

theorem exec_jtagAccess (a : JtagAt) (wr : Option Nat) (s : State) :
    exec (.jtagAccess a wr) s = .next (
      if s.jtagOpen a wr.isSome then
        match wr with
        | some v => { s.jtagWrite a v with out := { (s.jtagWrite a v).out with jtag := (s.jtagWrite a v).out.jtag ++ [some v] } }
        | none => { s with out := { s.out with jtag := s.out.jtag ++ [some (s.jtagRead a)] } }
      else { s with out := { s.out with jtag := s.out.jtag ++ [none] } }) := rfl

/-- What a JTAG write does puts nothing on the port before its own answer. -/
theorem jtagWrite_jtag (s : State) (a : JtagAt) (v : Nat) : (s.jtagWrite a v).out.jtag = s.out.jtag := by
  cases a with
  | reg p off =>
    simp only [State.jtagWrite]
    cases pageBlk p with
    | none => rfl
    | some b => simp
  | _ => rfl

/-- JTAG_ACCESS, as O60 states it: a write. -/
theorem jtagAccess_write (w : Wf s) (v : Nat) (ho : s.jtagOpen a true = true) :
    ∃ t, exec (.jtagAccess a (some v)) s = .next t ∧ t.out.jtag = s.out.jtag ++ [some v] ∧
      (∀ mc l, a = .hbm mc l → t.hbm = (s.putHline mc l ⟨BitVec.ofNat 256 v, false⟩).hbm ∧ t.regs = s.regs) ∧
      (∀ h w, a = .flash h w → t.flashOf h = { s.flashOf h with profs := put erased (s.flashOf h).profs (w % 512) (v % 2 ^ 32) } ∧
        ∀ i, i < 4 → (t.rd (prPg h) R.PR_STAT_VALID).testBit i = profValid ((t.flashOf h).prof i) (t.flashOf h).grade) := by
  refine ⟨_, (exec_jtagAccess a (some v) s).trans (congrArg Host.Outcome.next (if_pos ho)), ?_, ?_, ?_⟩
  · exact congrArg (· ++ [some v]) (jtagWrite_jtag s a v)
  · rintro mc l rfl
    exact ⟨rfl, rfl⟩
  · rintro h x rfl
    have hself := storeFlash_self w h { s.flashOf h with profs := put erased (s.flashOf h).profs (x % 512) (v % 2 ^ 32) }
    refine ⟨hself, fun i hi => (storeFlash_valid w h _ hi).trans ?_⟩
    rw [← hself]
    rfl

end

/-- Settles O60: PROF_SEL, the saves, I3C, the VENDOR scrub and JTAG, each by its event. -/
theorem profilesKeysAndAccess : Obligations.ProfilesKeysAndAccess := by
  unfold Obligations.ProfilesKeysAndAccess
  intro s w
  refine ⟨fun v hv hne => profSelChange_spec w hv hne, fun ok0 ok1 h slot ws hs => profileSaveComplete_spec w ok0 ok1 hs,
    fun ok ws hs => tagSaveComplete_spec w ok hs, fun k hr ht hk hrole => i3cRead_spec hr ht hk hrole, fun h lvl hs => vendorScrubDone_spec w hs,
    fun a wr ho => ?_, fun a ho => ?_, fun a v ho => jtagAccess_write w v ho⟩
  · rw [exec_jtagAccess, ho]
    rfl
  · refine ⟨s.jtagRead a, (exec_jtagAccess a none s).trans (congrArg Host.Outcome.next (if_pos ho)), ?_, ?_, ?_⟩
    · rintro p off rfl
      rfl
    · rintro mc l rfl
      rfl
    · rintro c l rfl
      rfl

end Sys2Proof.Machine
end

section
/-! SUPPORT. The load/store, accumulator and matrix slots: what each instruction does to the tile of its issue cycle (O8, O15, O16). -/

namespace Sys2Proof.Machine
open Sys2Proof

theorem scField_iff (r : Nat) : scField r = true ↔ r % 64 < 32 := by simp [scField]

theorem pairField_iff (r : Nat) : pairField r = true ↔ r % 64 < 32 ∧ r % 2 = 0 := by simp [pairField, scField]

/-- Settles O8: the access and the new base are the model's own; a field that names no scalar or no even pair is illegal. -/
theorem loadsAndStoresScheduleTheirAccess : Obligations.LoadsAndStoresScheduleTheirAccess := by
  unfold Obligations.LoadsAndStoresScheduleTheirAccess
  intro s a r q off m inc post hits last w hi addr acc only sc pair
  have hsc := scField_iff r
  have hpair := pairField_iff r
  exact ⟨issue_as w hi fun _ => rfl, issue_as w hi fun _ => rfl, issue_as w hi fun _ => rfl, issue_as w hi fun _ => if_congr hsc rfl rfl,
    issue_as w hi fun _ => if_congr hsc rfl rfl, issue_as w hi fun _ => if_congr hpair rfl rfl, issue_as w hi fun _ => if_congr hpair rfl rfl⟩

/-- A row exists in the tile's weave (Table 3-9). -/
theorem row_lt_accRows (b : Tile) (row : Nat) : (row < if b.accClose then 1024 else 3072) ↔ ¬ b.accRows ≤ row := by
  rw [Nat.not_le]
  rfl

/-- Settles O15: in each form the model's test for an illegal slot is the negation of the stated one. -/
theorem accumulatorForms : Obligations.AccumulatorForms := by
  unfold Obligations.AccumulatorForms
  intro s a r m rnd part imm xa xen hits last w hi row there bad acc mk ws
  have legal (b : Tile) {no yes : Bool} (hno : no = !yes) (x : Tile) :
      (if b.accRows ≤ row b || no then bad b else x) = if there b && yes then x else bad b := by
    simp only [there, row_lt_accRows, hno]
    by_cases hr : b.accRows ≤ row b <;> cases yes <;> simp [hr]
  have hrnd (b : Tile) : (b.accClose && decide (2 ≤ rnd % 4)) = !(!b.accClose || decide (rnd % 4 < 2)) := by
    rw [Bool.not_or, Bool.not_not, ← decide_not]
    simp only [Nat.not_lt]
  exact ⟨issue_as w hi fun b => legal b (hrnd b) _, issue_as w hi fun b => legal b rfl _, issue_as w hi fun b => legal b (Bool.not_not _).symm _,
    issue_as w hi fun b => legal b rfl _⟩

/-- Steps of two address registers, by a tile with the registers and in the cycle of `b`. -/
theorem advance_twice {t b : Tile} (hn : t.next = b.next) (ha : t.a = b.a) (sl : Slot) (on₁ on₂ : Bool) (r₁ r₂ : Nat) (k₁ k₂ : Int) :
    (let u := if on₁ then t.advance sl r₁ k₁ else t
     if on₂ then u.advance sl r₂ k₂ else u) =
    (let step (on : Bool) (r : Nat) (k : Int) (t : Tile) : Tile :=
      if on then t.later (b.next + 1) sl.num (.addr r (BitVec.ofInt 22 ((b.ad r).toNat + k))) else t
     step on₂ r₂ k₂ (step on₁ r₁ k₁ t)) := by
  cases on₁ <;> cases on₂ <;> simp [Tile.advance, Tile.later, Tile.ad, hn, ha]

/-- Settles O16: an illegal slot, a busy unit, or the operands, the steps of the two registers and the occupancy. -/
theorem matrixForms : Obligations.MatrixForms := by
  unfold Obligations.MatrixForms
  intro s a sa xa row buf sfmt ca spost xen ovw cpost hits last w hi f bad r step c mma busyFor chunks scale load
  refine ⟨issue_as w hi fun b => ?_, issue_as w hi fun b => ?_⟩
  · have hlegal : (!(b.buf (buf % 2)).loaded || !mmaPair f (b.buf (buf % 2)).fmt || decide (b.accRows ≤ r b)) = true ↔
        ¬ ((b.buf (buf % 2)).loaded = true ∧ mmaPair f (b.buf (buf % 2)).fmt = true ∧ r b < if b.accClose then 1024 else 3072) := by
      simp only [row_lt_accRows, Bool.or_eq_true, Bool.not_eq_true', decide_eq_true_eq, not_and_or, Bool.not_eq_true, Decidable.not_not, or_assoc]
    have hbusy : (b.accClose && decide (b.next < b.mmaFree)) = true ↔ b.accClose = true ∧ b.next < b.mmaFree := by simp
    refine if_congr hlegal rfl (if_congr hbusy rfl ?_)
    cases spost <;> cases cpost && fmtMx f <;> simp only [busyFor, step] <;> rfl
  · have hload : (load b).next = b.next ∧ (load b).a = b.a := by
      simp only [load, Tile.putBuf]
      split <;> exact ⟨rfl, rfl⟩
    exact if_congr Iff.rfl rfl (if_congr Iff.rfl rfl (advance_twice hload.1 hload.2 ..))

end Sys2Proof.Machine
end

section
/-! SUPPORT. Writes of a row of tiles: a walk over the row's eight tiles changes each by itself (O19). -/

namespace Sys2Proof.Machine
open Sys2Proof

/-- A walk over `0 .. n - 1` whose step at `c` keeps `P`, gives place `c` its new content and leaves the other places alone. -/
theorem walk_each {α : Type} {P : State → Prop} {f : State → Nat → State} {view : State → Nat → α} {g : Nat → α → α} {n : Nat}
    (hstep : ∀ t c, c < n → P t → P (f t c) ∧ view (f t c) c = g c (view t c) ∧ ∀ j, j < n → j ≠ c → view (f t c) j = view t j)
    {s : State} (hs : P s) : P ((List.range n).foldl f s) ∧ ∀ c, c < n → view ((List.range n).foldl f s) c = g c (view s c) := by
  have upTo (m : Nat) : m ≤ n → P ((List.range m).foldl f s) ∧
      ∀ c, c < n → view ((List.range m).foldl f s) c = if c < m then g c (view s c) else view s c := by
    induction m with
    | zero => exact fun _ => ⟨hs, fun _ _ => rfl⟩
    | succ m ih =>
      intro hm
      obtain ⟨hP, hview⟩ := ih (by omega)
      obtain ⟨hP', hself, hother⟩ := hstep _ m hm hP
      rw [List.range_succ, List.foldl_append]
      refine ⟨hP', fun c hc => ?_⟩
      by_cases hcm : c = m
      · subst hcm
        rw [if_pos (Nat.lt_succ_self c)]
        exact hself.trans (congrArg (g c) ((hview c hc).trans (if_neg (Nat.lt_irrefl c))))
      · exact (hother c hc hcm).trans ((hview c hc).trans (if_congr (by omega) rfl rfl))
  obtain ⟨hP, hview⟩ := upTo n (Nat.le_refl n)
  exact ⟨hP, fun c hc => (hview c hc).trans (if_pos hc)⟩

/-- The tiles outside row `r` of die `d` are those of `e`. -/
def State.keepsTilesBut (t e : State) (d r : Nat) : Prop :=
  ∀ k, (∀ c, c < 8 → k ≠ d * 64 + (8 * r + c)) → look tileZero t.tiles k = look tileZero e.tiles k

theorem tile_setTile_self {s : State} (w : Wf s) (d k : Nat) (x : Tile) : (s.setTile d k x).tile d k = x := look_put_self _ _ w.tiles

theorem tile_setTile_ne {s : State} (w : Wf s) {d k j : Nat} (h : j ≠ k) (x : Tile) : (s.setTile d k x).tile d j = s.tile d j :=
  look_put_ne _ (by omega) w.tiles

theorem wf_setTile {s : State} (w : Wf s) (d k : Nat) (x : Tile) : Wf (s.setTile d k x) := (kept_setTile (Kept.refl s) d k x).wf w

/-- A tile of the row is none of the tiles outside it. -/
theorem keepsTilesBut_setTile {t e : State} {d r c : Nat} (w : Wf t) (h : t.keepsTilesBut e d r) (hc : c < 8) (x : Tile) :
    (t.setTile d (8 * r + c) x).keepsTilesBut e d r :=
  fun k hk => (look_put_ne _ (hk c hc) w.tiles).trans (h k hk)

/-- What a tile becomes when the bits of its row are written (R96, R109, Table 3-3). -/
def State.followed (e : State) (d k : Nat) (x : Tile) : Tile :=
  if x.st = .idle ∨ (x.st = .off ∧ e.tileEn d k = true ∧ e.prog d = 0 ∧ e.alive (rowPg d (k / 8)) = true) then x.rest (e.tileEn d k) (e.tileClose d k)
  else x

/-- Column `c` of row `r` follows the bits of the row. -/
def State.followCol (d r : Nat) (t : State) (c : Nat) : State :=
  let x := t.tile d (8 * r + c)
  if x.st = .idle || (x.st = .off && t.tileEn d (8 * r + c) && decide (t.rd (osTop d) R.OS_PROG_STAT_STATE = 0) && t.alive (rowPg d r))
  then t.setTile d (8 * r + c) (x.rest (t.tileEn d (8 * r + c)) (t.tileClose d (8 * r + c))) else t

theorem rowFollow_cols (s : State) (d r : Nat) : s.rowFollow d r = (List.range 8).foldl (State.followCol d r) s := by
  rw [State.rowFollow, rowTiles, List.foldl_map]
  rfl

/-- A column follows the bits of `e` where only tiles are not those of `e`. -/
theorem followCol_eq {t e : State} {d r c : Nat} (ht : { t with tiles := e.tiles } = e) (hc : c < 8) :
    t.followCol d r c = t ∧ e.followed d (8 * r + c) (t.tile d (8 * r + c)) = t.tile d (8 * r + c) ∨
    t.followCol d r c = t.setTile d (8 * r + c) (e.followed d (8 * r + c) (t.tile d (8 * r + c))) := by
  have hrow : (8 * r + c) / 8 = r := by omega
  have hen : t.tileEn d (8 * r + c) = e.tileEn d (8 * r + c) := (congrArg (State.tileEn · d (8 * r + c)) ht :)
  have hcl : t.tileClose d (8 * r + c) = e.tileClose d (8 * r + c) := (congrArg (State.tileClose · d (8 * r + c)) ht :)
  have hprog : t.rd (osTop d) R.OS_PROG_STAT_STATE = e.prog d := (congrArg (State.prog · d) ht :)
  have halive : t.alive (rowPg d r) = e.alive (rowPg d r) := (congrArg (State.alive · (rowPg d r)) ht :)
  simp only [State.followCol, State.followed, hen, hcl, hprog, halive, hrow, Bool.or_eq_true, Bool.and_eq_true, decide_eq_true_eq, and_assoc]
  split_ifs
  · exact .inr rfl
  · exact .inl ⟨rfl, rfl⟩

/-- The tiles of a row follow its enable and weave bits, each by itself. -/
theorem rowFollow_spec {e : State} (w : Wf e) (d r : Nat) :
    (∀ c, c < 8 → (e.rowFollow d r).tile d (8 * r + c) = e.followed d (8 * r + c) (e.tile d (8 * r + c))) ∧
    (e.rowFollow d r).keepsTilesBut e d r ∧ { e.rowFollow d r with tiles := e.tiles } = e := by
  rw [rowFollow_cols]
  have hwalk := walk_each (P := fun t => Wf t ∧ t.keepsTilesBut e d r ∧ { t with tiles := e.tiles } = e) (f := State.followCol d r)
    (view := fun t c => t.tile d (8 * r + c)) (g := fun c x => e.followed d (8 * r + c) x)
    (fun t c hc ⟨wt, htiles, ht⟩ => by
      rcases followCol_eq ht hc with ⟨h, hsame⟩ | h <;> rw [h]
      · exact ⟨⟨wt, htiles, ht⟩, hsame.symm, fun _ _ _ => rfl⟩
      · exact ⟨⟨wf_setTile wt .., keepsTilesBut_setTile wt htiles hc _, ht⟩, tile_setTile_self wt .., fun j _ hj => tile_setTile_ne wt (by omega) _⟩)
    (s := e) ⟨w, fun _ _ => rfl, rfl⟩
  exact ⟨hwalk.2, hwalk.1.2⟩

/-- Column `c` of row `r` takes a zero request. -/
def State.zeroCol (d r v : Nat) (t : State) (c : Nat) : State :=
  if v.testBit c && decide ((t.tile d (8 * r + c)).st = .idle)
  then (t.setTile d (8 * r + c) { t.tile d (8 * r + c) with zeroing := true }).setBit (rowPg d r) R.OS_TG_ZERO_REQ c else t

theorem zeroReq_cols (s : State) (d r v : Nat) : s.zeroReq d r v = (List.range 8).foldl (State.zeroCol d r v) s := by
  rw [State.zeroReq, rowTiles, List.foldl_map]
  refine List.foldl_ext _ _ _ fun t c hc => ?_
  have hcol : (8 * r + c) % 8 = c := by have := List.mem_range.mp hc; omega
  simp only [hcol]
  rfl

/-- What a zero request makes of a tile and of its request bit: an IDLE tile it names starts zeroing (R110). -/
def zeroAsked (v c : Nat) (x : Tile × Bool) : Tile × Bool :=
  let z := v.testBit c && decide (x.1.st = .idle)
  (if z then { x.1 with zeroing := true } else x.1, x.2 || z)

/-- Bit `j` of a field of eight bits in which bit `c` was set. -/
theorem testBit_setBit {s : State} (w : Wf s) (p : Nat) {f : Fld} (hw : f.w = 8) (c : Nat) {j : Nat} (hj : j < 8) :
    ((s.setBit p f c).rd p f).testBit j = ((s.rd p f).testBit j || decide (c = j)) := by
  rw [State.setBit, rd_wr_self w, hw, Nat.testBit_mod_two_pow, decide_eq_true hj, Bool.true_and, Nat.testBit_or, Nat.testBit_two_pow]

/-- A zero request reaches each tile of the row by itself. -/
theorem zeroReq_spec {e : State} (w : Wf e) (d r v : Nat) :
    (∀ c, c < 8 → ((e.zeroReq d r v).tile d (8 * r + c), ((e.zeroReq d r v).rd (rowPg d r) R.OS_TG_ZERO_REQ).testBit c) =
      zeroAsked v c (e.tile d (8 * r + c), (e.rd (rowPg d r) R.OS_TG_ZERO_REQ).testBit c)) ∧
    (e.zeroReq d r v).keepsTilesBut e d r ∧
    (∀ k, k ≠ R.OS_TG_ZERO_REQ.key (rowPg d r) → look resetVal (e.zeroReq d r v).regs k = look resetVal e.regs k) ∧
    { e.zeroReq d r v with regs := e.regs, tiles := e.tiles } = e := by
  rw [zeroReq_cols]
  have hwalk := walk_each (P := fun t => Wf t ∧ t.keepsTilesBut e d r ∧
      (∀ k, k ≠ R.OS_TG_ZERO_REQ.key (rowPg d r) → look resetVal t.regs k = look resetVal e.regs k) ∧ { t with regs := e.regs, tiles := e.tiles } = e)
    (f := State.zeroCol d r v) (view := fun t c => (t.tile d (8 * r + c), (t.rd (rowPg d r) R.OS_TG_ZERO_REQ).testBit c)) (g := zeroAsked v)
    (fun t c hc ⟨wt, htiles, hregs, ht⟩ => by
      simp only [State.zeroCol, zeroAsked]
      cases hz : v.testBit c && decide ((t.tile d (8 * r + c)).st = .idle)
      · exact ⟨⟨wt, htiles, hregs, ht⟩, Prod.ext rfl (Bool.or_false _).symm, fun _ _ _ => rfl⟩
      · have wx := wf_setTile wt d (8 * r + c) { t.tile d (8 * r + c) with zeroing := true }
        have hbit {j : Nat} (hj : j < 8) := testBit_setBit wx (rowPg d r) (f := R.OS_TG_ZERO_REQ) rfl c hj
        refine ⟨⟨(kept_setBit (Kept.refl _) ..).wf wx, keepsTilesBut_setTile wt htiles hc _, fun k hk => (look_put_ne _ hk wx.regs).trans (hregs k hk), ht⟩,
          Prod.ext (tile_setTile_self wt ..) ((hbit hc).trans ?_), fun j hj hne => Prod.ext (tile_setTile_ne wt (by omega) _) ((hbit hj).trans ?_)⟩
        · rw [decide_eq_true rfl]
          rfl
        · rw [decide_eq_false (Ne.symm hne), Bool.or_false]
          rfl)
    (s := e) ⟨w, fun _ _ => rfl, fun _ _ => rfl, rfl⟩
  exact ⟨hwalk.2, hwalk.1.2⟩

/-- A row's bits written: the tiles follow the bits now in force. -/
theorem rowWritten_spec {e : State} (w : Wf e) {p : Nat} (hb : pageBlk p = some .tg) {f : Fld} (hf : f.placed = true)
    (hne : ¬ (R.OS_PROG_STAT_STATE.off = f.off ∧ R.OS_PROG_STAT_STATE.lo = f.lo)) (v : Nat) :
    let d := dieOf p
    let r := pageOf p - 1
    let u := e.wr p f v
    let t := u.rowFollow d r
    t.regs = u.regs ∧
    (∀ c, c < 8 → t.tile d (8 * r + c) =
      let x := e.tile d (8 * r + c)
      let en := (u.rd p R.OS_TG_ENABLE_TILE_EN).testBit c
      if x.st = .idle ∨ (x.st = .off ∧ en = true ∧ e.prog d = 0 ∧ e.alive p = true) then x.rest en ((u.rd p R.OS_TG_ACC_MODE_CLOSE).testBit c) else x) ∧
    (∀ k, (∀ c, c < 8 → k ≠ d * 64 + (8 * r + c)) → look tileZero t.tiles k = look tileZero e.tiles k) ∧
    { t with regs := e.regs, tiles := e.tiles } = e := by
  intro d r u t
  have hself : rowPg d r = p := self_tg hb
  have hprog : u.prog d = e.prog d := rd_wr_place w v hf rfl hne
  have hspec := rowFollow_spec (wf_wr w p f v) d r
  rw [show (e.wr p f v).rowFollow d r = t from rfl] at hspec
  clear_value t
  obtain ⟨htile, hout, hrest⟩ := hspec
  refine ⟨(congrArg State.regs hrest :), fun c hc => (htile c hc).trans ?_, hout, (congrArg (fun y : State => { y with regs := e.regs }) hrest :)⟩
  have hrow : (8 * r + c) / 8 = r := by omega
  have hcol : (8 * r + c) % 8 = c := by omega
  simp only [State.followed, State.tileEn, State.tileClose, hrow, hcol, hself]
  exact if_congr (or_congr Iff.rfl (and_congr Iff.rfl (and_congr Iff.rfl (and_congr (hprog ▸ Iff.rfl) Iff.rfl)))) rfl rfl

/-- Settles O19: the written bits act on each tile of the row by itself, and so does a zero request. -/
theorem tileRowWrites : Obligations.TileRowWrites := by
  unfold Obligations.TileRowWrites
  intro s h p val w d r follows rowDone
  have hval : val % 2 ^ 8 = bits val 0 8 := by rw [bits, Nat.pow_zero, Nat.div_one]
  refine ⟨fun t => ?enable, fun t => ?weave, fun t => ?zero⟩
  case enable =>
    intro e
    have hrow := takes_one t R.OS_TG_ENABLE_TILE_EN rfl rfl rfl (by decide) {}
    have hact : e.fieldAct p .tg R.OS_TG_ENABLE_TILE_EN 0x100 (val % 2 ^ 32) (bits val 0 8) {} = (e.wr p R.OS_TG_ENABLE_TILE_EN (bits val 0 8)).rowFollow d r := rfl
    rw [hval]
    exact ⟨_, congrArg Host.Outcome.next (hrow.trans hact), rowWritten_spec (wf_taken w ..) (takes_blk t) rfl (by decide) _⟩
  case weave =>
    intro e
    have hrow := takes_one t R.OS_TG_ACC_MODE_CLOSE rfl rfl rfl (by decide) {}
    have hact : e.fieldAct p .tg R.OS_TG_ACC_MODE_CLOSE 0x104 (val % 2 ^ 32) (bits val 0 8) {} = (e.wr p R.OS_TG_ACC_MODE_CLOSE (bits val 0 8)).rowFollow d r := rfl
    rw [hval]
    exact ⟨_, congrArg Host.Outcome.next (hrow.trans hact), rowWritten_spec (wf_taken w ..) (takes_blk t) rfl (by decide) _⟩
  case zero =>
    intro e zeroes
    have hrow := takes_one t R.OS_TG_ZERO_REQ rfl rfl rfl (by decide) {}
    have hact : e.fieldAct p .tg R.OS_TG_ZERO_REQ 0x118 (val % 2 ^ 32) (bits val 0 8) {} = e.zeroReq d r (bits val 0 8) := rfl
    have hself : rowPg d r = p := self_tg (takes_blk t)
    obtain ⟨hcells, hout, hregs, hrest⟩ := zeroReq_spec (e := e) (wf_taken w ..) d r (bits val 0 8)
    rw [hself] at hcells hregs
    have hbit {c : Nat} (hc : c < 8) : (bits val 0 8).testBit c = val.testBit c := by
      rw [← hval, Nat.testBit_mod_two_pow, decide_eq_true hc, Bool.true_and]
    have hcell {c : Nat} (hc : c < 8) := Prod.mk.inj (hcells c hc)
    exact ⟨_, congrArg Host.Outcome.next (hrow.trans hact), fun c hc => (hcell hc).1.trans (by rw [hbit hc]), hout,
      fun c hc => (hcell hc).2.trans (by rw [hbit hc]), hregs, hrest⟩

end Sys2Proof.Machine
end

section
/-! SUPPORT. What a tile does without a slot of its own: the cycle in which a lone result lands, what stands until the tile comes to rest, how time comes to
a cycle, and the loads that reach it (O34). -/

namespace Sys2Proof.Machine
open Sys2Proof

/-- What each step of a walk keeps of a tile, the walk keeps. -/
theorem tile_foldl_keeps {α β : Type} (g : Tile → β) {f : Tile → α → Tile} (h : ∀ t x, g (f t x) = g t) (l : List α) (t : Tile) :
    g (l.foldl f t) = g t := by
  induction l generalizing t with
  | nil => rfl
  | cons x l ih => exact (ih _).trans (h t x)

/-! Landing. -/

/-- Tile `t` with the registers, the tile memory and the reports of `u`: what a landing result can change. -/
def Tile.withRegs (t u : Tile) : Tile :=
  { t with v := u.v, mr := u.mr, s := u.s, a := u.a, c := u.c, pxKey := u.pxKey, pxStep := u.pxStep, mem := u.mem, memPoi := u.memPoi, evs := u.evs }

theorem putLine_withRegs (t : Tile) (w : LineW) (u : Tile) : (t.putLine w).withRegs u = t.withRegs u := by
  unfold Tile.putLine
  dsimp only
  split <;> rfl

theorem putMask_withRegs (t : Tile) (r : Nat) (m : BitVec 128) (u : Tile) : (t.putMask r m).withRegs u = t.withRegs u := by
  unfold Tile.putMask
  split <;> rfl

/-- A result changes registers, tile memory and reports alone. -/
theorem land_withRegs (t : Tile) (r : Res) (u : Tile) : (t.land r).withRegs u = t.withRegs u := by
  cases r with
  | vec r ws =>
    refine tile_foldl_keeps (Tile.withRegs · u) ?_ ws t
    exact fun _ _ => rfl
  | mask r which val => exact putMask_withRegs ..
  | mem ws => exact tile_foldl_keeps (Tile.withRegs · u) (fun t w => putLine_withRegs t w u) ws t
  | _ => rfl

/-- What a landing result leaves alone. -/
theorem land_keeps {β : Type} {g : Tile → β} (hg : ∀ t u : Tile, g (t.withRegs u) = g t) (t : Tile) (r : Res) : g (t.land r) = g t :=
  (hg _ t).symm.trans ((congrArg g (land_withRegs t r t)).trans (hg t t))

/-- The tile with its clock at cycle `c`. -/
def Tile.atClk (t : Tile) (c : Nat) : Tile := { t with clk := c }

theorem putLine_atClk (t : Tile) (w : LineW) (c : Nat) : (t.atClk c).putLine w = (t.putLine w).atClk c := by
  unfold Tile.putLine
  symm
  exact apply_ite (Tile.atClk · c) ..

/-- Landing does not look at the tile's clock. -/
theorem land_atClk (t : Tile) (r : Res) (c : Nat) : (t.atClk c).land r = (t.land r).atClk c := by
  cases r with
  | vec r ws =>
    refine List.foldl_hom (Tile.atClk · c) ?_
    exact fun _ _ => rfl
  | mask r which val =>
    unfold Tile.land Tile.putMask
    symm
    exact apply_ite (Tile.atClk · c) ..
  | mem ws => exact List.foldl_hom (Tile.atClk · c) fun t w => putLine_atClk t w c
  | _ => rfl

/-- A lone result lands in its cycle. -/
theorem landAll_one {t : Tile} {p : Pend} (h : t.pend = [p]) {c : Nat} (hc : p.due ≤ c) : t.landAll c = ({ t with pend := [] } : Tile).land p.res := by
  have hlate : ¬ c < p.due := Nat.not_lt.mpr hc
  have hwins : loses [(0, p)] 0 p = false := by
    unfold loses
    cases p.res.target <;> simp
  simp [Tile.landAll, h, hc, hlate, List.range_succ, hwins]

/-- Before it, nothing lands. -/
theorem landAll_none {t : Tile} {p : Pend} (h : t.pend = [p]) {c : Nat} (hc : c < p.due) : t.landAll c = t := by
  have hnow : ¬ p.due ≤ c := Nat.not_le.mpr hc
  have hsame : { t with pend := [p] } = t := by rw [← h]
  simpa [Tile.landAll, h, hc, hnow] using hsame

/-! A cycle without accesses. -/

/-- No access, no row update and no flit is on its way in the tile. -/
def Tile.noAccess (t : Tile) : Prop := t.accs = [] ∧ t.mmas = [] ∧ t.flitIn = [] ∧ t.accHold = []

theorem conflictBanks_nil : conflictBanks [] = [] := rfl

/-- In such a tile a cycle is the landing of its results. -/
theorem cycle_of_landAll {t u : Tile} {c : Nat} (hu : t.landAll c = u) (hn : u.noAccess) : t.cycle c = { u with clk := c } := by
  obtain ⟨haccs, hmmas, hflits, hhold⟩ := hn
  simp only [Tile.cycle, hu, haccs, hmmas, hflits, hhold, List.filter_nil, List.foldl_nil, conflictBanks_nil, List.isEmpty_nil, if_true]

theorem cycle_before {t : Tile} {p : Pend} (h : t.pend = [p]) (hn : t.noAccess) {c : Nat} (hc : c < p.due) : t.cycle c = { t with clk := c } :=
  cycle_of_landAll (landAll_none h hc) hn

theorem cycle_lands {t : Tile} {p : Pend} (h : t.pend = [p]) (hn : t.noAccess) {c : Nat} (hc : p.due ≤ c) :
    t.cycle c = { ({ t with pend := [] } : Tile).land p.res with clk := c } :=
  cycle_of_landAll (landAll_one h hc) (((land_keeps (g := Tile.noAccess) (fun _ _ => rfl) { t with pend := [] } p.res)).mpr hn)

/-- A lone result, brought to its cycle. -/
theorem settleN_one {t : Tile} {p : Pend} (h : t.pend = [p]) (hn : t.noAccess) (hlo : t.clk < p.due) (n : Nat) (hhi : p.due ≤ t.clk + n) :
    Tile.settleN n t p.due = { ({ t with pend := [] } : Tile).land p.res with clk := p.due } := by
  induction n generalizing t with
  | zero => omega
  | succ n ih =>
    rw [Tile.settleN, if_neg (by omega)]
    by_cases hlast : t.clk + 1 = p.due
    · rw [cycle_lands h hn (by omega), hlast]
      cases n <;> simp [Tile.settleN]
    · rw [cycle_before h hn (by omega)]
      exact (ih (t := { t with clk := t.clk + 1 }) h hn (by show t.clk + 1 < p.due; omega) (by show p.due ≤ t.clk + 1 + n; omega)).trans
        (congrArg (Tile.atClk · p.due) (land_atClk { t with pend := [] } p.res (t.clk + 1)) :)

/-! The sync point or program end that a tile has met stands until the tile has come to rest. -/

/-- A step of a walk that leaves it. -/
def KeepsHalt {α : Type} (f : Tile → α → Tile) : Prop := ∀ t x, (f t x).halt = t.halt

/-- `simp` proves that a step leaves it by the step's own equation; the two sides of the `↔` are the same proposition. -/
@[simp] theorem keepsHalt_iff {α : Type} {f : Tile → α → Tile} : KeepsHalt f ↔ ∀ t x, (f t x).halt = t.halt := ⟨fun h => h, fun h => h⟩

@[simp] theorem foldl_halt {α : Type} {f : Tile → α → Tile} (h : KeepsHalt f) (l : List α) (t : Tile) :
    (l.foldl f t).halt = t.halt := tile_foldl_keeps Tile.halt h l t

@[simp] theorem event_halt (t : Tile) (e : TEv) : (t.event e).halt = t.halt := rfl
@[simp] theorem conflict_halt (t : Tile) (src c : Nat) : (t.conflict src c).halt = t.halt := rfl
@[simp] theorem later_halt (t : Tile) (due slot : Nat) (r : Res) : (t.later due slot r).halt = t.halt := rfl
@[simp] theorem putAcE_halt (t : Tile) (row l : Nat) (e : AccE) : (t.putAcE row l e).halt = t.halt := rfl
@[simp] theorem writeBundle_halt (t : Tile) (a : Nat) (d : BitVec 256) : (t.writeBundle a d).halt = t.halt := rfl
@[simp] theorem eccEvents_halt (t : Tile) (mem line : Nat) (hits : List EccHit) : (t.eccEvents mem line hits).halt = t.halt := by
  simp [Tile.eccEvents]
@[simp] theorem putBuf_halt (t : Tile) (i : Nat) (b : ResBuf) : (t.putBuf i b).halt = t.halt := by
  unfold Tile.putBuf
  split <;> rfl
@[simp] theorem poisonRow_halt (t : Tile) (row : Nat) (hits : List EccHit) : (t.poisonRow row hits).halt = t.halt :=
  foldl_halt (fun _ _ => by dsimp only; split <;> rfl) hits t
@[simp] theorem mmaFetch_halt (t : Tile) (c : Nat) (conf : List Nat) (hits : List EccHit) (a : Nat) (sa : Option Nat) (soff row bufNo sfmt rfmt : Nat)
    (ovw close : Bool) : (t.mmaFetch c conf hits a sa soff row bufNo sfmt rfmt ovw close).halt = t.halt := by
  cases sa <;> rfl

@[simp] theorem access_halt (t : Tile) (c : Nat) (conf : List Nat) (x : AccessAt) : (t.access c conf x).halt = t.halt := by
  obtain ⟨cyc, slot, acc, hits⟩ := x
  cases acc with
  | nmRecv a n im =>
    simp only [Tile.access]
    split
    · rfl
    · cases im <;> simp
  | mma a sa soff row bi sf rf ovw close => cases sa <;> simp [Tile.access]
  | vacw row ws =>
    simp only [Tile.access]
    split <;> simp
  | vacwr row part ws =>
    simp only [Tile.access]
    split_ifs <;> simp
  | _ => simp [Tile.access]

@[simp] theorem mmaUpdate_halt (t : Tile) (m : MmaOp) : (t.mmaUpdate m).halt = t.halt := by
  unfold Tile.mmaUpdate
  split <;> simp

@[simp] theorem land_halt (t : Tile) (r : Res) : (t.land r).halt = t.halt := land_keeps (fun _ _ => rfl) t r

@[simp] theorem landAll_halt (t : Tile) (c : Nat) : (t.landAll c).halt = t.halt :=
  foldl_halt (fun t x => by split <;> simp) _ _

@[simp] theorem cycle_halt (t : Tile) (c : Nat) : (t.cycle c).halt = t.halt := by
  unfold Tile.cycle
  dsimp only
  split <;> simp

theorem settleN_halt (n : Nat) (t : Tile) (c : Nat) : (Tile.settleN n t c).halt = t.halt := by
  induction n generalizing t with
  | zero => rfl
  | succ n ih =>
    rw [Tile.settleN]
    split
    · rfl
    · exact (ih _).trans (cycle_halt ..)

theorem settle_halt (t : Tile) (c : Nat) : (t.settle c).halt = t.halt := settleN_halt ..

/-! Time that has come to a cycle has come to cycle 0 too. -/

/-- The cycles enabled from a frame boundary on, by whole frames. -/
theorem enabledIn_frames (n f x : Nat) : enabledIn n (64 * f + x) = f * n + enabledIn n x := by
  rw [enabledIn, enabledIn, show (64 * f + x) / 64 = f + x / 64 by omega, show (64 * f + x) % 64 = x % 64 by omega, Nat.add_mul, Nat.add_assoc]

/-- The cycles enabled in the first `x` of a frame. -/
theorem enabledIn_frame (n : Nat) {x : Nat} (hx : x ≤ 64) : enabledIn n x = x * n / 64 := by
  rcases Nat.lt_or_eq_of_le hx with h | rfl
  · rw [enabledIn, Nat.div_eq_of_lt h, Nat.mod_eq_of_lt h, Nat.zero_mul, Nat.zero_add]
  · rw [Nat.mul_div_cancel_left n (by decide)]
    simp [enabledIn]

theorem enabledIn_succ (n x : Nat) : enabledIn n x ≤ enabledIn n (x + 1) := by
  have hx : x % 64 + 1 ≤ 64 := Nat.mod_lt x (by decide)
  have hle : x % 64 * n ≤ (x % 64 + 1) * n := Nat.mul_le_mul_right n (Nat.le_succ _)
  rw [← Nat.div_add_mod x 64, Nat.add_assoc, enabledIn_frames, enabledIn_frames, enabledIn_frame n hx, enabledIn_frame n (Nat.le_of_succ_le hx)]
  exact Nat.add_le_add_left (Nat.div_le_div_right hle) _

theorem enabledIn_mono (n : Nat) : Monotone (enabledIn n) := monotone_nat_of_le_succ (enabledIn_succ n)

/-- The CCLK cycle of `forEnabled`: frame `f` is the last with fewer than `t` cycles enabled before it, and it lacks `r` of them. -/
theorem enabledIn_reached {n t f r : Nat} (hn : 0 < n) (hr : r ≤ n) (ht : t = f * n + r) : t ≤ enabledIn n (f * 64 + (r * 64 + n - 1) / n) := by
  have hrem : (r * 64 + n - 1) % n < n := Nat.mod_lt _ hn
  have hdiv := Nat.div_add_mod (r * 64 + n - 1) n
  generalize (r * 64 + n - 1) / n = q at *
  have hq : q ≤ 64 := by
    have hlt : n * q < n * 65 := by omega
    exact Nat.lt_succ_iff.mp (Nat.lt_of_mul_lt_mul_left hlt)
  have hlack : r ≤ q * n / 64 := by
    rw [Nat.mul_comm q n]
    omega
  rw [Nat.mul_comm f 64, enabledIn_frames, enabledIn_frame n hq, ht]
  exact Nat.add_le_add_left hlack _

/-- As many CCLK cycles enable `d` more cycles (R192). -/
theorem forEnabled_reaches {c : Clock} (hn : c.n ≠ 0) {d : Nat} (hd : d ≠ 0) :
    0 < c.forEnabled d ∧ enabledIn c.n c.j + d ≤ enabledIn c.n (c.j + c.forEnabled d) := by
  have hval : c.forEnabled d = (enabledIn c.n c.j + d - 1) / c.n * 64 +
      ((enabledIn c.n c.j + d - (enabledIn c.n c.j + d - 1) / c.n * c.n) * 64 + c.n - 1) / c.n - c.j := by
    simp [Clock.forEnabled, hn, hd]
  have hpos : 0 < c.n := Nat.pos_of_ne_zero hn
  have hmod : (enabledIn c.n c.j + d - 1) % c.n < c.n := Nat.mod_lt _ hpos
  have hdiv := Nat.div_add_mod' (enabledIn c.n c.j + d - 1) c.n
  have hreach := enabledIn_reached (t := enabledIn c.n c.j + d) hpos
    (f := (enabledIn c.n c.j + d - 1) / c.n) (r := enabledIn c.n c.j + d - (enabledIn c.n c.j + d - 1) / c.n * c.n) (by omega) (by omega)
  have hlater := (enabledIn_mono c.n).reflect_lt (Nat.lt_of_lt_of_le (Nat.lt_add_of_pos_right (Nat.pos_of_ne_zero hd)) hreach)
  rw [hval, Nat.add_sub_of_le hlater.le]
  exact ⟨Nat.sub_pos_of_lt hlater, hreach⟩

/-- The present CCLK cycle after `k` more. -/
theorem live_pass (c : Clock) (ratio k : Nat) : (c.pass ratio k).live = true ↔ enabledIn c.n (c.j + k) < enabledIn c.n (c.j + k + 1) := by
  have hsplit : c.j + k = 64 * ((c.j + k) / 64) + (c.j + k) % 64 := (Nat.div_add_mod ..).symm
  rw [Clock.live, decide_eq_true_eq, hsplit, Nat.add_assoc, enabledIn_frames, enabledIn_frames, Nat.add_lt_add_iff_left]
  rfl

theorem pass_pass_zero (c : Clock) (ratio k : Nat) : (c.pass ratio k).pass ratio 0 = c.pass ratio k := by
  simp [Clock.pass]

theorem passSlots_zero (s : State) (k : Nat) : (s.passSlots k).passSlots 0 = s.passSlots k :=
  congrArg (fun c : Clock => { s with clk := c }) (pass_pass_zero s.clk s.ratio k)

/-- Time that has come to a cycle does not pass to reach it. -/
theorem toCc_of_reached {s : State} {c : Nat} (h : c < s.clk.cc ∨ c = s.clk.cc ∧ s.clk.live = true) : s.toCc c = s := by
  rw [State.toCc, if_pos (by simpa using h)]

theorem toCc_of_not_reached {s : State} {c : Nat} (h : ¬ (c < s.clk.cc ∨ c = s.clk.cc ∧ s.clk.live = true)) :
    s.toCc c = s.passSlots (s.clk.forEnabled (c + 1 - s.clk.cc) - 1) := by
  rw [State.toCc, if_neg (by simpa using h)]

/-- Where no cycle is ever enabled, a wait for one ends at once. -/
theorem toCc_stopped {s : State} (hn : s.clk.n = 0) {c : Nat} (h : ¬ (c < s.clk.cc ∨ c = s.clk.cc ∧ s.clk.live = true)) : s.toCc c = s.passSlots 0 := by
  rw [toCc_of_not_reached h, show s.clk.forEnabled _ = 0 by simp [Clock.forEnabled, hn]]

/-- After the wait for a cycle the clock stands in an enabled cycle, or has counted one, unless none is ever enabled. -/
theorem toCc_toCc_zero (s : State) (c : Nat) : (s.toCc c).toCc 0 = s.toCc c := by
  by_cases hnow : c < s.clk.cc ∨ c = s.clk.cc ∧ s.clk.live = true
  · rw [toCc_of_reached hnow]
    exact toCc_of_reached ((Nat.eq_zero_or_pos s.clk.cc).symm.imp id fun hzero => ⟨hzero.symm, (hnow.resolve_left (by omega)).2⟩)
  by_cases hn : s.clk.n = 0
  · rw [toCc_stopped hn hnow]
    by_cases hnow' : 0 < (s.passSlots 0).clk.cc ∨ 0 = (s.passSlots 0).clk.cc ∧ (s.passSlots 0).clk.live = true
    · exact toCc_of_reached hnow'
    · exact (toCc_stopped (s := s.passSlots 0) hn hnow').trans (passSlots_zero s 0)
  · rw [toCc_of_not_reached hnow]
    obtain ⟨hpos, hreach⟩ := forEnabled_reaches hn (show c + 1 - s.clk.cc ≠ 0 by omega)
    generalize s.clk.forEnabled (c + 1 - s.clk.cc) = k at *
    have hcc : (s.passSlots (k - 1)).clk.cc = s.clk.cc + (enabledIn s.clk.n (s.clk.j + (k - 1)) - enabledIn s.clk.n s.clk.j) := rfl
    refine toCc_of_reached ((Nat.eq_zero_or_pos (s.passSlots (k - 1)).clk.cc).symm.imp id fun hzero => ⟨hzero.symm, (live_pass ..).mpr ?_⟩)
    rw [Nat.add_assoc, Nat.sub_add_cancel hpos]
    omega

/-! Commands of a tile beside its slots. -/

/-- Only what the tile becomes counts. -/
theorem tileDone_congr {s : State} {a : TileAt} {c : Nat} {f g : Tile → Tile} {o : Host.Outcome State Fault Refusal}
    (h : f (s.tile a.die a.tile) = g (s.tile a.die a.tile)) (hd : TileDone s a c f o) : TileDone s a c g o := by
  unfold TileDone at hd ⊢
  rwa [← h]

theorem minOf_eq {l : List Nat} {c : Nat} (h : c ∈ l ∧ ∀ k ∈ l, c ≤ k) : minOf l = some c := by
  have hmin : minOf l = l.min? := by cases l <;> rfl
  exact hmin.trans (List.min?_eq_some_iff.mpr h)

section
variable {s : State} {a : TileAt} {hdr bad c : Nat} {last : Bool} {q : HaltReq}

/-- EMPTY_BUNDLE at a tile that can issue (R114). -/
theorem exec_emptyBundle (hup : s.tileUp a = true) (hrun : (s.tile a.die a.tile).st = .run)
    (hopen : (s.tile a.die a.tile).halt = none ∨ (s.tile a.die a.tile).cur ≠ 0)
    (hvalid : (s.tile a.die a.tile).blockValid (s.tile a.die a.tile).pc = true) :
    exec (.emptyBundle a hdr bad last) s = .next (
      if hdr / 32 % 8 ≠ 0 then
        if (s.tile a.die a.tile).cur = 0 then (s.toCc (s.tile a.die a.tile).next).onTile a.die a.tile fun t => t.issueEmpty Tile.illegal else s
      else (s.toCc (s.tile a.die a.tile).next).onTile a.die a.tile fun t =>
        let u := t.openBundle.badSlots bad
        if last || decide (u.cur = 0) then u.closeBundle else u) :=
  congrArg Host.Outcome.next (if_pos (by simpa [hup, hrun, hvalid] using hopen))

/-- What the tile does in place of a bundle it could not fetch, or with one it fetched with a corrected error (R104). -/
def Tile.fetchErr (err : FetchErr) (t : Tile) : Tile :=
  match err with
  | .invalid => t.issueEmpty fun t => t.bad 9
  | .ue => t.issueEmpty fun t => { t.event (.ecc 2 true t.pc) with taint := true }
  | .ce => t.event (.ecc 2 false t.pc)

/-- INVALID_BLOCK_ISSUE at a tile that can start a bundle (R104). -/
theorem invalidBlockIssue_done (w : Wf s) (hup : s.tileUp a = true) (hfresh : (s.tile a.die a.tile).fresh = true) {err : FetchErr}
    (hvalid : (s.tile a.die a.tile).blockValid (s.tile a.die a.tile).pc = !decide (err = .invalid)) :
    TileDone s a (s.tile a.die a.tile).next (Tile.fetchErr err) (exec (.invalidBlockIssue a err) s) := by
  have hcond : (s.tileUp a && (s.tile a.die a.tile).fresh &&
      (decide (err = .invalid) != (s.tile a.die a.tile).blockValid (s.tile a.die a.tile).pc)) = true := by
    rw [hup, hfresh, hvalid]
    cases decide (err = .invalid) <;> rfl
  have hex : exec (.invalidBlockIssue a err) s = .next ((s.toCc (s.tile a.die a.tile).next).onTile a.die a.tile (Tile.fetchErr err)) :=
    congrArg Host.Outcome.next (if_pos hcond)
  rw [hex]
  exact onTile_done w ..

/-- A tile runs up to the cycle in which something is due. -/
theorem tileTo_done (w : Wf s) (hup : s.tileUp a = true) {due : Tile → Option Nat} (hdue : due (s.tile a.die a.tile) = some c)
    (hin : (s.tile a.die a.tile).fresh = false ∨ c ≤ (s.tile a.die a.tile).next) : TileDone s a c (fun t => t.settle c) (.next (s.tileTo a due)) := by
  have hto : s.tileTo a due = (s.toCc c).onTile a.die a.tile fun t => t.settle c := by
    simp only [State.tileTo, hdue]
    exact if_pos (by simpa [hup] using hin)
  rw [hto]
  exact onTile_done w ..

/-- A lone result lands in its cycle and is waiting no more (R75). -/
theorem settle_one {t : Tile} {p : Pend} (h : t.pend = [p]) (hn : t.noAccess) (hlo : t.clk < p.due) (hhi : p.due ≤ t.clk + 32) :
    t.settle p.due = { ({ t with pend := [] } : Tile).land p.res with clk := p.due } := settleN_one h hn hlo 32 hhi

/-- A tile that has met its SYNC or END and closed that bundle. -/
theorem halting_eq {x : Tile} (hrun : x.st = .run) (hcur : x.cur = 0) (hq : x.halt = some q) {b : Bool} (hb : q.isEnd = b) : x.halting b = true := by
  simp [Tile.halting, hrun, hcur, hq, hb]

/-- TILE_ENTER_HELD (R127). -/
theorem tileEnterHeld_done (w : Wf s) (hup : s.tileUp a = true) (hrun : (s.tile a.die a.tile).st = .run) (hcur : (s.tile a.die a.tile).cur = 0)
    (hq : (s.tile a.die a.tile).halt = some q) (hend : q.isEnd = false) :
    let m := (s.tile a.die a.tile).quietAt
    TileDone s a m (fun t => { t.settle m with st := .held, next := m, heldId := q.id, clk := m }) (exec (.tileEnterHeld a) s) := by
  intro m
  have hex : exec (.tileEnterHeld a) s = .next ((s.toCc m).onTile a.die a.tile fun t =>
      { t.settle m with st := .held, next := m, heldId := ((t.settle m).halt.map HaltReq.id).getD 0, clk := m }) :=
    congrArg Host.Outcome.next (if_pos (by rw [hup, halting_eq hrun hcur hq hend, Bool.and_self]))
  rw [hex]
  refine tileDone_congr ?_ (onTile_done w ..)
  simp only [settle_halt, hq]
  rfl

/-- A tile with nothing in flight, its loops closed, nothing left to report: what a program's end leaves (R129). -/
def Tile.ended (x : Tile) (id : Nat) : Tile :=
  { x with halt := none, loops := [], cur := 0, skip := none, pend := [], accs := [], mmas := [], flitIn := [], accHold := [], heldId := id, evs := [] }

/-- TILE_ENTER_IDLE (R129). -/
theorem tileEnterIdle_spec (w : Wf s) (hup : s.tileUp a = true) (hrun : (s.tile a.die a.tile).st = .run) (hcur : (s.tile a.die a.tile).cur = 0)
    (hq : (s.tile a.die a.tile).halt = some q) (hend : q.isEnd = true) :
    ∃ t, exec (.tileEnterIdle a) s = .next t ∧
      t.tile a.die a.tile = (((s.tile a.die a.tile).settle ((s.tile a.die a.tile).quietAt + 2)).ended q.id).rest (t.tileEn a.die a.tile)
        (t.tileClose a.die a.tile) ∧
      (∀ k, k ≠ a.die * 64 + a.tile → look tileZero t.tiles k = look tileZero s.tiles k) ∧
      t.clk = (s.toCc (s.tile a.die a.tile).quietAt).clk ∧
      (∀ k, keyPage k ∉ tilePages a → look resetVal t.regs k = look resetVal s.regs k) ∧
      { t with clk := s.clk, regs := s.regs, pages := s.pages, flt := s.flt, tiles := s.tiles, mesh := s.mesh } = s := by
  set m := (s.tile a.die a.tile).quietAt with hm
  obtain ⟨u, hu, htile, hothers, hclk, hregs, -, hrest, -⟩ := onTile_done w a m fun t => t.settle (m + 2)
  have hu' := Host.Outcome.next.inj hu
  have wu : Wf u := hu' ▸ (kept_onTile (kept_toCc (Kept.refl s) m) ..).wf w
  have hex : exec (.tileEnterIdle a) s = .next ((u.setTile a.die a.tile { u.tile a.die a.tile with heldId := q.id }).tileIdle a.die a.tile) := by
    refine congrArg Host.Outcome.next ((if_pos (by rw [hup, halting_eq hrun hcur hq hend, Bool.and_self])).trans ?_)
    simp only [← hm, hu', hq]
    rfl
  have wx : Wf (u.setTile a.die a.tile { u.tile a.die a.tile with heldId := q.id }) := (kept_setTile (Kept.refl u) ..).wf wu
  refine ⟨_, hex, (look_put_self _ _ wx.tiles).trans ?_, fun k hk => (look_put_ne _ hk wx.tiles).trans ((look_put_ne _ hk wu.tiles).trans (hothers k hk)),
    hclk, hregs, hrest⟩
  rw [show State.tile (u.setTile a.die a.tile _) a.die a.tile = _ from look_put_self _ _ wu.tiles, htile]
  rfl

/-- TILE_ZERO_COMPLETE (R110). -/
theorem exec_tileZeroComplete (hup : s.tileUp a = true) (hz : (s.tile a.die a.tile).zeroing = true) :
    exec (.tileZeroComplete a) s = .next ((s.setTile a.die a.tile ((s.tile a.die a.tile).zeroed.rest (s.tileEn a.die a.tile) (s.tileClose a.die a.tile))).clrBit
      (rowPg a.die (a.tile / 8)) R.OS_TG_ZERO_REQ (a.tile % 8)) :=
  congrArg Host.Outcome.next (if_pos (by rw [hup, hz, Bool.and_self]))

end

/-! Loads (R262-R265). -/

section
variable {s : State} {d col : Nat}

theorem toCc_loads (s : State) (c : Nat) (l : List LoadRun) : ({ s with loads := l } : State).toCc c = { s.toCc c with loads := l } := by
  unfold State.toCc
  split_ifs <;> rfl

theorem bits_low (v n : Nat) : bits v 0 n = v % 2 ^ n := by rw [bits, Nat.pow_zero, Nat.div_one]

/-- LOAD_DELIVERY without a delivery on its way. -/
theorem exec_loadDelivery_none (h : s.loads.find? (fun r => decide (r.die = d) && decide (r.col = col)) = none) :
    exec (.loadDelivery d col) s = .next s := by
  show execLoadDelivery d col s = _
  rw [execLoadDelivery, h]

/-- The oldest delivery of the column, in the cycle in which its last flit arrives. -/
theorem exec_loadDelivery_some {r : LoadRun} (h : s.loads.find? (fun r => decide (r.die = d) && decide (r.col = col)) = some r) :
    exec (.loadDelivery d col) s = .next (
      let e : State := { s.toCc (r.cyc + r.hdr % 8 + r.lines.length / 4) with loads := s.loads.erase r }
      if r.gone.contains 0 then e else e.loadDeliver d col r.hdr r.lines r.gone) := by
  have hloads (c : Nat) : (s.toCc c).loads = s.loads := by rw [toCc_clk]
  show execLoadDelivery d col s = _
  simp only [execLoadDelivery, h, hloads, bits_low]
  rfl

/-- What an IDLE tile takes of a delivery: its lines but for those of a lost flit, as memory or as bundles (R262, R263). -/
def Tile.takeLoad (hdr : Nat) (data : List FLine) (gone : List Nat) (t : Tile) : Tile :=
  let n := 4 * (hdr / 16 % 4 + 1)
  let addr := hdr / 2 ^ 8 % 2 ^ 22 / 128 * 128
  let ls := ((List.range n).zip (data.take n)).filter fun l => !gone.contains (l.1 / 4 + 1)
  if hdr.testBit 3 then ls.foldl (fun t l => t.writeBundle (addr / 128 % 2048 * 4 + l.1) l.2.data) t
  else ls.foldl (fun t l => t.putLine (lineWhole ((addr / 32 + l.1) % 2 ^ 17) l.2)) t

/-- A delivery at the tile its header names. -/
theorem loadDeliver_eq (e : State) (d col hdr : Nat) (data : List FLine) (gone : List Nat) :
    e.loadDeliver d col hdr data gone =
      if hdr.testBit 63 = true ∧ (e.prog d = 0 ∨ e.prog d = 1) ∧ (e.tile d (hdr % 8 * 8 + col % 8)).st = .idle ∧ e.alive (rowPg d (hdr % 8)) = true then
        if (e.tile d (hdr % 8 * 8 + col % 8)).zeroing then e.inc (rowPg d (hdr % 8)) R.OS_TG_CONFLICT_CNT
        else e.onTile d (hdr % 8 * 8 + col % 8) (Tile.takeLoad hdr data gone)
      else e := by
  have hrow : (hdr % 8 * 8 + col % 8) / 8 = hdr % 8 := by omega
  simp only [State.loadDeliver, bits_low, Nat.reducePow, hrow, Bool.and_eq_true, Bool.or_eq_true, decide_eq_true_eq, and_assoc]
  rfl

end

/-- Settles O34: each command is what its tile does in its cycle; a load reaches the tile its header names. -/
theorem tileManagementAndLoads : Obligations.TileManagementAndLoads := by
  unfold Obligations.TileManagementAndLoads
  refine ⟨fun s a hdr bad c last w hup => ?tile, fun s d col w hd => ?load⟩
  case tile =>
    intro x due inTime closes
    refine ⟨fun hrun hopen hvalid => ⟨fun hh hcur => ?illegal, fun hh hcur => ?begun, fun hh => ?slots⟩,
      fun hfresh hvalid => ⟨invalidBlockIssue_done (err := .ue) w hup hfresh hvalid, invalidBlockIssue_done (err := .ce) w hup hfresh hvalid⟩,
      fun hfresh hvalid => invalidBlockIssue_done (err := .invalid) w hup hfresh hvalid,
      fun hdue hin => tileTo_done w hup (minOf_eq hdue) hin, fun p hp hc hlo hhi haccs hmmas hflits hhold hin => ?alone,
      fun hdue hin => tileTo_done w hup (minOf_eq hdue) hin, fun hdue hin => tileTo_done w hup (minOf_eq hdue) hin,
      fun q hrun hcur hq hend => tileEnterHeld_done w hup hrun hcur hq hend, fun q hrun hcur hq hend => tileEnterIdle_spec w hup hrun hcur hq hend,
      exec_tileZeroComplete hup⟩
    case illegal =>
      rw [exec_emptyBundle hup hrun hopen hvalid, if_pos hh, if_pos hcur]
      exact onTile_done w ..
    case begun => rw [exec_emptyBundle hup hrun hopen hvalid, if_pos hh, if_neg hcur]
    case slots =>
      rw [exec_emptyBundle hup hrun hopen hvalid, if_neg (not_not.mpr hh)]
      refine tileDone_congr ?_ (onTile_done w ..)
      simp only [Bool.or_eq_true, decide_eq_true_eq]
    case alone =>
      subst hc
      have hmin : minOf (x.pend.map Pend.due) = some p.due := by rw [hp]; rfl
      exact tileDone_congr (settle_one hp ⟨haccs, hmmas, hflits, hhold⟩ hlo hhi) (tileTo_done w hup hmin hin)
  case load =>
    intro mine
    refine ⟨exec_loadDelivery_none, fun r hr => ?_⟩
    intro a e x n addr ls takes
    have he : e.toCc 0 = e := (toCc_loads ..).trans (congrArg (fun t : State => { t with loads := s.loads.erase r }) (toCc_toCc_zero ..))
    have we : Wf e := (Kept.upd (kept_toCc (Kept.refl s) _) rfl).wf w
    have hex : exec (.loadDelivery d col) s = .next (if r.gone.contains 0 then e else e.loadDeliver d col r.hdr r.lines r.gone) := exec_loadDelivery_some hr
    rw [hex, loadDeliver_eq]
    refine ⟨fun hno => ?_, fun ⟨hheader, htile⟩ hz => ?_, fun ⟨hheader, htile⟩ hz => ?_⟩
    · cases hheader : r.gone.contains 0 with
      | true => rw [if_pos rfl]
      | false => rw [if_neg Bool.false_ne_true, if_neg fun htile => hno ⟨hheader, htile⟩]
    · rw [hheader, if_neg Bool.false_ne_true, if_pos htile, if_pos hz]
    · rw [hheader, if_neg Bool.false_ne_true, if_pos htile, if_neg (ne_true_of_eq_false hz)]
      have hdone := onTile_done we a 0 (Tile.takeLoad r.hdr r.lines r.gone)
      rw [he] at hdone
      exact hdone

end Sys2Proof.Machine
end

section
/-! SUPPORT. The scalar, mesh and vector slots: what each instruction does to the tile of its issue cycle (O4 to O7, O9 to O14). -/

namespace Sys2Proof.Machine
open Sys2Proof

/-! The tables' signed and unsigned comparisons, as comparisons of the numbers that the words stand for. -/

theorem signedMin_eq : (fun x y : Word => if x.sle y then x else y) = fun x y => if x.toInt ≤ y.toInt then x else y :=
  funext₂ fun _ _ => if_congr BitVec.sle_iff_toInt_le rfl rfl

theorem signedMax_eq : (fun x y : Word => if x.sle y then y else x) = fun x y => if x.toInt ≤ y.toInt then y else x :=
  funext₂ fun _ _ => if_congr BitVec.sle_iff_toInt_le rfl rfl

theorem signedLess_eq : (fun x y : Word => if x.slt y then 1#32 else 0#32) = fun x y => if x.toInt < y.toInt then 1#32 else 0#32 :=
  funext₂ fun _ _ => if_congr BitVec.slt_iff_toInt_lt rfl rfl

theorem unsignedLess_eq : (fun x y : Word => if x.ult y then 1#32 else 0#32) = fun x y => if x.toNat < y.toNat then 1#32 else 0#32 :=
  funext₂ fun _ _ => if_congr BitVec.ult_iff_toNat_lt rfl rfl

/-- A command that issues slot `sl` with the work `f`, in whatever words. -/
theorem exec_as {s : State} (w : Wf s) {a : TileAt} {sl : Slot} {last : Bool} {c : Instr} {f g : Tile → Tile} (h : s.canIssue a sl = true)
    (hc : exec c s = .next (s.issue a sl last g)) (e : ∀ b, g b = f b) : SlotDone s a sl last f (exec c s) := by
  rw [hc]
  exact issue_as w h e

/-! The scalar and control slot. -/

/-- Settles O4: a register form and an immediate form, each issued with the operation of Table 4-5. -/
theorem scalarForms : Obligations.ScalarForms := by
  unfold Obligations.ScalarForms
  constructor
  case left =>
    intro s a d i j last w hi gives
    have form {c : Instr} {op op' : Word → Word → Word} (hc : exec c s = .next (s.scSlot a last (Tile.scRR op' d i j))) (hop : op' = op) :
        gives c op := by
      subst hop
      exact exec_as w hi hc fun _ => rfl
    -- with `gives` opaque each clause is matched by its instruction and its operation
    clear_value gives
    exact ⟨form rfl rfl, form rfl rfl, form rfl rfl, form rfl rfl, form rfl rfl, form rfl rfl, -- SADD to SXOR
      form rfl rfl, form rfl rfl, form rfl rfl, -- the shifts
      form rfl signedMin_eq, form rfl signedMax_eq, form rfl signedLess_eq, form rfl unsignedLess_eq⟩
  case right =>
    intro s a d i imm last w hi gives
    have form {c : Instr} {op : Word → Word → Word} (hc : exec c s = .next (s.scSlot a last (Tile.scRI op d i imm))) : gives c op :=
      exec_as w hi hc fun _ => rfl
    clear_value gives
    exact ⟨form rfl, form rfl, form rfl, form rfl, form rfl, form rfl, form rfl, form rfl, issue_as w hi fun _ => rfl⟩

theorem addrField_iff (r : Nat) : addrField r = true ↔ r % 32 < 16 := decide_eq_true_iff

theorem addrField_and_iff (r q : Nat) : (addrField r && addrField q) = true ↔ r % 32 < 16 ∧ q % 32 < 16 := by
  rw [Bool.and_eq_true, addrField_iff, addrField_iff]

/-- Settles O5: each form is the model's own; a field that names no address register is illegal. -/
theorem addressAndLoopRegisterForms : Obligations.AddressAndLoopRegisterForms := by
  unfold Obligations.AddressAndLoopRegisterForms
  intro s a d i j imm last w hi does out tainted illegal
  have one (r : Nat) (x y : Tile) : (if addrField r then x else y) = if r % 32 < 16 then x else y := if_congr (addrField_iff r) rfl rfl
  have both (x y : Tile) : (if addrField d && addrField i then x else y) = if d % 32 < 16 ∧ i % 32 < 16 then x else y :=
    if_congr (addrField_and_iff d i) rfl rfl
  refine ⟨issue_as w hi fun _ => one d .., issue_as w hi fun _ => both .., issue_as w hi fun _ => both .., issue_as w hi fun _ => one d ..,
    issue_as w hi fun _ => one i .., ?cset, ?srdc, ?pxkey, ?pxstep, ?pxinc, ?scyc⟩
  all_goals exact issue_as w hi fun _ => rfl

/-- A slot whose work on the tile of its issue cycle is `f`. -/
theorem issue_at {s : State} (w : Wf s) {a : TileAt} {sl : Slot} {last : Bool} {f g : Tile → Tile} (h : s.canIssue a sl = true)
    (e : g (s.opened a) = f (s.opened a)) : SlotDone s a sl last f (.next (s.issue a sl last g)) :=
  tileDone_congr (congrArg (Tile.finish · sl last) e) (issue_spec w a sl last g h)

/-- R124's three cases. -/
def Tile.loopBarred (b : Tile) (e : Nat) : Prop := 4 ≤ b.loops.length ∨ e ≤ b.pc ∨ ∃ l r, b.loops = l :: r ∧ l.last < e

/-- LOOP by R124 and R125: illegal, or with TRIP 0 passed over, or one more loop open. -/
theorem loop_cases (b : Tile) {e trip : Nat} (he : e < 8192) (ht : trip < 65536) :
    b.loopBarred e ∧ b.loop e trip = b.illegal ∨
    ¬ b.loopBarred e ∧ b.loop e trip =
      let t := b.later (b.next + 1) 4 (.loopc b.loops.length 0#16 true)
      if trip = 0 then { t with skip := some (e + 1) } else { t with loops := ⟨b.pc + 1, e, trip, 0⟩ :: b.loops } := by
  unfold Tile.loop
  simp only [Nat.mod_eq_of_lt he, Nat.mod_eq_of_lt ht]
  by_cases hb : b.loopBarred e
  · refine .inl ⟨hb, if_pos ?_⟩
    unfold Tile.loopBarred at hb
    cases hl : b.loops <;> simpa [hl, or_assoc] using hb
  · refine .inr ⟨hb, if_neg ?_⟩
    unfold Tile.loopBarred at hb
    cases hl : b.loops <;> simpa [hl, and_assoc] using hb

/-- Settles O6: the cases of LOOP are told apart by R124's three conditions and by TRIP. -/
theorem loopOpensOrIsIllegal : Obligations.LoopOpensOrIsIllegal := by
  unfold Obligations.LoopOpensOrIsIllegal
  intro s a e trip last w hi he ht b bad c0
  obtain ⟨hbarred, hloop⟩ | ⟨hfree, hloop⟩ := loop_cases b he ht
  · exact ⟨fun _ => issue_at w hi hloop, fun hn => absurd hbarred hn, fun hn => absurd hbarred hn⟩
  · exact ⟨fun hb => absurd hb hfree, fun _ h0 => issue_at w hi (hloop.trans (if_neg h0)), fun _ h0 => issue_at w hi (hloop.trans (if_pos h0))⟩

/-- The end of a bundle leaves a request of SYNC or END, and no slot of the next bundle taken. -/
theorem closeBundle_halt_cur (t : Tile) : t.closeBundle.halt = t.halt ∧ t.closeBundle.cur = 0 := by
  unfold Tile.closeBundle
  dsimp only
  split <;> exact ⟨rfl, rfl⟩

/-- With a request of SYNC or END left, no slot of a new bundle is ready (R127). -/
theorem halted_not_ready {t : Tile} {h : HaltReq} (hh : t.halt = some h) (hc : t.cur = 0) (sl : Slot) : t.ready sl = false := by
  simp [Tile.ready, hh, hc]

/-- What the last slot of a bundle leaves, its reports read, is not ready after SYNC or END. -/
theorem finish_not_ready {x u : Tile} {h : HaltReq} {sl : Slot} (hu : u = { x.finish sl true with evs := [] }) (hx : x.halt = some h) (sl' : Slot) :
    u.ready sl' = false := by
  subst hu
  have hclose := closeBundle_halt_cur { x with cur := x.cur + 2 ^ sl.bit }
  exact halted_not_ready (t := x.finish sl true) (hclose.1.trans hx) hclose.2 sl'

/-- A slot that leaves a request and is the last of its bundle is the last to issue. -/
theorem slotDone_halts {s : State} {a : TileAt} {sl : Slot} {last : Bool} {f : Tile → Tile} {o : Host.Outcome State Fault Refusal} {h : HaltReq}
    (hf : (f (s.opened a)).halt = some h) (hd : SlotDone s a sl last f o) :
    ∃ t, o = .next t ∧ (last = true → ∀ sl', t.canIssue a sl' = false) := by
  obtain ⟨t, ho, htile, -⟩ := hd
  refine ⟨t, ho, ?_⟩
  rintro rfl sl'
  rw [State.canIssue, finish_not_ready (x := f (s.opened a)) htile hf, Bool.and_false]

/-- Settles O7: SYNC is illegal where a loop ends; a request that is left, by SYNC or by END (log entry 10), stops issue after its
bundle. -/
theorem syncStopsIssueUnlessALoopEndsThere : Obligations.SyncStopsIssueUnlessALoopEndsThere := by
  unfold Obligations.SyncStopsIssueUnlessALoopEndsThere
  intro s a entry id keep last w hi hentry hid b ends halted
  have hends : (b.loops.any fun l => decide (l.last = b.pc)) = true ↔ ends := by
    simp only [ends, List.any_eq_true, decide_eq_true_eq]
  have leaves {h : HaltReq} {o : Host.Outcome State Fault Refusal}
      (hd : SlotDone s a .sc last (fun b => { b with halt := some h }) o) : halted h o := ⟨hd, slotDone_halts rfl hd⟩
  refine ⟨fun he => issue_at w hi ?illegal, fun he => leaves (issue_at w hi ?request), leaves (issue_as w hi fun _ => rfl)⟩
  case illegal => exact if_pos (hends.mpr he)
  case request =>
    refine (if_neg (mt hends.mp he)).trans ?_
    rw [Nat.mod_eq_of_lt hentry, Nat.mod_eq_of_lt hid]

/-! The mesh slots. -/

/-- Settles O9: each half schedules its access and steps its register as stated, the signed INC in units of 128. -/
theorem meshSlotsSendAndReceive : Obligations.MeshSlotsSendAndReceive := by
  unfold Obligations.MeshSlotsSendAndReceive
  intro s a r len inc im hits last w acc
  exact ⟨fun hi => issue_as w hi fun _ => rfl, fun hi => issue_as w hi fun _ => rfl⟩

/-! The vector slot. -/

/-- Settles O10: a form of one source and a form of two, each issued with the operation of Table 4-11. -/
theorem vectorIntegerAndLogicForms : Obligations.VectorIntegerAndLogicForms := by
  unfold Obligations.VectorIntegerAndLogicForms
  intro s a d i j m imm last w hi lanes one two
  have oneSource {c : Instr} {op : Word → Word} (hc : exec c s = .next (s.vxSlot a last (Tile.vx1 op 2 d i m))) : one c op :=
    exec_as w hi hc fun _ => rfl
  have twoSources {c : Instr} {op op' : Word → Word → Word} (hc : exec c s = .next (s.vxSlot a last (Tile.vx2 op' 2 d i j m))) (hop : op' = op) :
      two c op := by
    subst hop
    exact exec_as w hi hc fun _ => rfl
  clear_value one two
  exact ⟨oneSource rfl, twoSources rfl rfl, twoSources rfl rfl, twoSources rfl rfl, twoSources rfl signedMin_eq, twoSources rfl signedMax_eq,
    twoSources rfl rfl, twoSources rfl rfl, twoSources rfl rfl, twoSources rfl rfl, -- the logic forms
    twoSources rfl rfl, twoSources rfl rfl, twoSources rfl rfl, oneSource rfl, oneSource rfl, oneSource rfl, -- the shifts
    oneSource rfl, oneSource rfl⟩

theorem vxScalar_iff (r : Nat) : vxScalar r = true ↔ r % 64 < 32 := decide_eq_true_iff

theorem vxMask_iff (r : Nat) : vxMask r = true ↔ r % 64 < 16 := decide_eq_true_iff

/-- Settles O11: a field that names no mask or no scalar is illegal; else the lanes are the model's own. -/
theorem laneMoveForms : Obligations.LaneMoveForms := by
  unfold Obligations.LaneMoveForms
  intro s a d i j c m imm xa xen last w hi lanes vec idx only
  have hpair : (vxScalar i && vxScalar j) = true ↔ i % 64 < 32 ∧ j % 64 < 32 := by rw [Bool.and_eq_true, vxScalar_iff, vxScalar_iff]
  refine ⟨issue_as w hi fun _ => ?vsel, issue_as w hi fun _ => ?vbcs, issue_as w hi fun _ => ?vext, issue_as w hi fun _ => ?vins,
    issue_as w hi fun _ => rfl, issue_as w hi fun _ => rfl, issue_as w hi fun _ => ?vrand⟩
  case vsel => exact if_congr (vxMask_iff c) rfl rfl
  case vbcs => exact if_congr (vxScalar_iff i) rfl rfl
  case vext => exact if_congr (vxScalar_iff d) rfl rfl
  case vins => exact if_congr (vxScalar_iff i) rfl rfl
  case vrand => exact if_congr hpair rfl rfl

/-- Settles O12: a field that names no mask and a reserved code are illegal; else the tests, lane by lane, are the model's own. -/
theorem compareAndMaskForms : Obligations.CompareAndMaskForms := by
  unfold Obligations.CompareAndMaskForms
  intro s a d i j m imm last w hi sel res taintOn only x y bothP masks
  have hcode (codes : Nat) : (vxMask d && decide (imm % 8 < codes)) = true ↔ d % 64 < 16 ∧ imm % 8 < codes := by
    rw [Bool.and_eq_true, vxMask_iff, decide_eq_true_iff]
  have hmasks : (vxMask d && vxMask i && vxMask j) = true ↔ d % 64 < 16 ∧ i % 64 < 16 ∧ j % 64 < 16 := by
    rw [Bool.and_eq_true, Bool.and_eq_true, vxMask_iff, vxMask_iff, vxMask_iff, and_assoc]
  have form {c : Instr} {op : Bool → Bool → Bool} (hc : exec c s = .next (s.vxSlot a last (Tile.maskOp op d i j m))) :
      SlotDone s a .vx last (masks op) (exec c s) := exec_as w hi hc fun _ => if_congr hmasks rfl rfl
  clear_value masks
  refine ⟨issue_as w hi fun _ => ?vcmpf, issue_as w hi fun _ => ?vcmpi, form rfl, form rfl, form rfl, form rfl, issue_as w hi fun _ => ?mfromv,
    issue_as w hi fun _ => ?mtov⟩
  case vcmpf => exact if_congr (hcode 5) rfl rfl
  -- code by code the model's test is the stated one by definition
  case vcmpi => exact if_congr (hcode 6) rfl rfl
  case mfromv => exact if_congr (vxMask_iff d) rfl rfl
  case mtov => exact if_congr (vxMask_iff i) rfl rfl

/-- Settles O13: two and three sources, conversions and the transcendental unit, each form issued with its function of chapter 5. -/
theorem floatingPointForms : Obligations.FloatingPointForms := by
  unfold Obligations.FloatingPointForms
  intro s a d i j k m rnd sat last w hi lanes put x y z one two three bad legal tu gives
  have twoSources {c : Instr} {op : Word → Word → Word} (hc : exec c s = .next (s.vxSlot a last (Tile.rndLegal rnd (Tile.vx2 op 4 d i j m)))) :
      gives c (legal (two op)) := exec_as w hi hc fun _ => rfl
  have threeSources {c : Instr} {op : Word → Word → Word → Word} (hc : exec c s = .next (s.vxSlot a last (Tile.rndLegal rnd (Tile.vx3 op 4 d i j k m)))) :
      gives c (legal (three op)) := exec_as w hi hc fun _ => rfl
  have conversion {c : Instr} {op : Word → Word} (hc : exec c s = .next (s.vxSlot a last (Tile.rndLegal rnd (Tile.vx1 op 3 d i m)))) :
      gives c (legal (one 3 op)) := exec_as w hi hc fun _ => rfl
  have transcendental {c : Instr} {op : Word → Word} (hc : exec c s = .next (s.vxSlot a last (Tile.tu op d i m))) : gives c (tu op) :=
    exec_as w hi hc fun _ => rfl
  exact ⟨twoSources rfl, twoSources rfl, twoSources rfl, threeSources rfl, issue_as w hi fun _ => rfl, issue_as w hi fun _ => rfl,
    twoSources rfl, twoSources rfl, threeSources rfl, conversion rfl, conversion rfl, transcendental rfl, transcendental rfl, transcendental rfl,
    transcendental rfl, transcendental rfl, transcendental rfl, transcendental rfl, transcendental rfl⟩

/-- Settles O14: the stated condition for a legal slot is the negation of the model's for an illegal one; the lanes are the model's own. -/
theorem packedConversionForms : Obligations.PackedConversionForms := by
  unfold Obligations.PackedConversionForms
  intro s a d i j c m rnd fmt part imm xa sat xen last w hi f inc idx bad part' elems pads
  have legal {no yes : Bool} (hno : no = !yes) (x y : Tile) : (if no then x else y) = if yes then y else x := by
    subst hno
    cases yes <;> rfl
  have hpart : (!fmtPacked f || decide (fmtParts f ≤ part % 8)) = !part' := by
    simp only [part', Bool.not_and, ← decide_not, Nat.not_lt]
  have hrnd : (decide (rnd % 4 = 3) || !fmtPacked f || decide (fmtParts f ≤ part % 8)) = !(decide (rnd % 4 ≠ 3) && part') := by
    rw [Bool.or_assoc, hpart, Bool.not_and (decide _), decide_not, Bool.not_not]
  exact ⟨issue_as w hi fun b => legal hrnd .., issue_as w hi fun b => legal hpart .., issue_as w hi fun b => legal rfl ..⟩

end Sys2Proof.Machine
end

section
/-! SUPPORT. The windows of the stream and collective engines (O21). -/

namespace Sys2Proof.Machine
open Sys2Proof

/-- What an engine of a die was last given stands. -/
theorem ce_setCe_self {s : State} (w : Wf s) (d : Nat) (x : Ce) : (s.setCe d x).ce d = x := look_put_self _ _ w.ces

theorem setCe_setCe {s : State} (w : Wf s) (d : Nat) (x y : Ce) : (s.setCe d x).setCe d y = s.setCe d y :=
  congrArg (fun m : Sparse Ce => { s with ces := m }) (put_put _ _ _ w.ces)

/-- CE_RANK_DATA.VALID and .PKG of the selected rank, one after the other (R286). -/
theorem rankWord {e : State} (w : Wf e) {p : Nat} (hrun : e.prog (dieOf p) ≠ stRunning) (pkg valid : Nat) :
    let k := e.rd p R.CE_RANK_SEL_RANK
    let x := e.ce (dieOf p)
    let m := put natZero x.ranks k (x.rank k % 256 + 256 * valid)
    (e.actCe p R.CE_RANK_DATA_VALID valid false).actCe p R.CE_RANK_DATA_PKG pkg false =
      e.setCe (dieOf p) { x with ranks := put natZero m k (look natZero m k / 256 * 256 + pkg) } := by
  intro k x m
  have hvalid : e.actCe p R.CE_RANK_DATA_VALID valid false = e.setCe (dieOf p) { x with ranks := m } := if_pos (decide_eq_true hrun)
  have hpkg (u : State) (hu : u.prog (dieOf p) ≠ stRunning) : u.actCe p R.CE_RANK_DATA_PKG pkg false = u.setCe (dieOf p) { u.ce (dieOf p) with
      ranks := put natZero (u.ce (dieOf p)).ranks (u.rd p R.CE_RANK_SEL_RANK) ((u.ce (dieOf p)).rank (u.rd p R.CE_RANK_SEL_RANK) / 256 * 256 + pkg) } :=
    if_pos (decide_eq_true hu)
  rw [hvalid, hpkg (e.setCe (dieOf p) _) hrun, ce_setCe_self w, setCe_setCe w]
  rfl

/-- The Stake window and the digest latch are registers of engine 0 alone (R257, R328). -/
theorem engineZero (g : Nat) (s t : State) : (if (decide (g ≠ 0) && true) = true then s else t) = if g = 0 then t else s := by
  by_cases hg : g = 0 <;> simp [hg]

/-- Settles O21: each window is one field of its page, but for a rank, whose VALID is written before its package. -/
theorem scheduleWindowWrites : Obligations.ScheduleWindowWrites := by
  unfold Obligations.ScheduleWindowWrites
  intro s h p val w d g open'
  have hopen (e : State) : (e.prog d = stEmpty || e.prog d = stLoaded) = true ↔ open' e := by
    rw [Bool.or_eq_true, decide_eq_true_iff, decide_eq_true_iff]
    rfl
  refine ⟨fun t => ?st, fun t => ?ce, fun t => ?stake, fun t => ?rank, fun t => ?ack⟩
  case st =>
    intro e x y
    have hrow := takes_one t R.ST_SCHED_DATA rfl rfl rfl (by decide) {}
    have hact : e.fieldAct p .st R.ST_SCHED_DATA 0x10C (val % 2 ^ 32) (bits val 0 32) {} =
        if e.prog d = stEmpty || e.prog d = stLoaded then e.setEng d g { x with sched := y.1, segs := y.2 } else e := by
      rw [bits_low]
      rfl
    have hword := hrow.trans hact
    exact ⟨fun ho => congrArg Host.Outcome.next (hword.trans (if_pos ((hopen e).mpr ho))),
      fun ho => congrArg Host.Outcome.next (hword.trans (if_neg (mt (hopen e).mp ho)))⟩
  case ce =>
    intro e x y
    have hrow := takes_one t R.CE_SCHED_DATA rfl rfl rfl (by decide) {}
    have hact : e.fieldAct p .ce R.CE_SCHED_DATA 0x108 (val % 2 ^ 32) (bits val 0 32) {} =
        if e.prog d = stEmpty || e.prog d = stLoaded then e.setCe d { x with sched := y.1, segs := y.2 } else e := by
      rw [bits_low]
      rfl
    have hword := hrow.trans hact
    exact ⟨fun ho => congrArg Host.Outcome.next (hword.trans (if_pos ((hopen e).mpr ho))),
      fun ho => congrArg Host.Outcome.next (hword.trans (if_neg (mt (hopen e).mp ho)))⟩
  case stake =>
    intro e
    have hrow := takes_one t R.ST_STAKE_DATA rfl rfl rfl (by decide) {}
    have hact : e.fieldAct p .st R.ST_STAKE_DATA 0x184 (val % 2 ^ 32) (bits val 0 32) {} =
        if (decide (g ≠ 0) && true) = true then e else e.stakeWrite d (e.rd p R.ST_STAKE_SEL_GRANULE) (val % 2 ^ 32) := by
      rw [bits_low]
      rfl
    exact congrArg Host.Outcome.next ((hrow.trans hact).trans (engineZero ..))
  case rank =>
    intro e k x m
    have hrow := takes_list t [R.CE_RANK_DATA_VALID, R.CE_RANK_DATA_PKG] rfl rfl (by decide) {}
    have hact : (e.fieldAct p .ce R.CE_RANK_DATA_VALID 0x110 (val % 2 ^ 32) (bits val 8 1) {}).fieldAct p .ce R.CE_RANK_DATA_PKG 0x110 (val % 2 ^ 32)
        (bits val 0 8) {} = (e.actCe p R.CE_RANK_DATA_VALID (bits val 8 1) false).actCe p R.CE_RANK_DATA_PKG (val % 256) false := by
      rw [bits_low]
      rfl
    refine congrArg Host.Outcome.next ((hrow.trans hact).trans ?_)
    by_cases hrun : e.prog d = 2
    · have hstay {f : Fld} (hf : f = R.CE_RANK_DATA_VALID ∨ f = R.CE_RANK_DATA_PKG) (v : Nat) : e.actCe p f v false = e := by
        rcases hf with rfl | rfl <;> exact if_neg (not_not.mpr hrun ∘ of_decide_eq_true)
      rw [if_pos hrun, hstay (.inl rfl), hstay (.inr rfl)]
    · rw [if_neg hrun]
      exact rankWord (wf_taken w ..) hrun _ _
  case ack =>
    intro e
    have hrow := takes_request t (f := R.ST_DLAT_ACK_ACK) rfl rfl ⟨rfl, rfl, rfl⟩ {}
    have hact : e.fieldAct p .st R.ST_DLAT_ACK_ACK 0x154 ((val ||| 1) % 2 ^ 32) 1 {} =
        if (decide (g ≠ 0) && true) = true then e else e.dlatAck d := rfl
    refine congrArg Host.Outcome.next ((hrow.trans hact).trans ((engineZero ..).trans ?_))
    refine ite_congr rfl (fun hg => ?_) fun _ => rfl
    have hself : stPg d 0 = p := hg ▸ self_st (takes_blk t)
    rw [State.dlatAck, hself]

end Sys2Proof.Machine
end

section
/-! SUPPORT. OS_PROG_CTRL, the table window and the event doorbell (O20). -/

namespace Sys2Proof.Machine
open Sys2Proof

theorem decide_bits_one (v lo : Nat) : decide (bits v lo 1 = 1) = v.testBit lo := by
  rw [bits_one]
  cases v.testBit lo <;> rfl

/-! Reads that a step leaves alone. -/

/-- The field stands apart from the places of `fs`. -/
def Fld.apart (g : Fld) (fs : List Fld) : Bool := g.placed && fs.all fun f => f.placed && !(decide (g.off = f.off) && decide (g.lo = f.lo))

theorem Fld.apart_of_mem {g f : Fld} {fs : List Fld} (h : g.apart fs = true) (hf : f ∈ fs) :
    g.placed = true ∧ f.placed = true ∧ ¬ (g.off = f.off ∧ g.lo = f.lo) := by
  obtain ⟨hg, hall⟩ := Bool.and_eq_true_iff.mp h
  obtain ⟨hplaced, hne⟩ := Bool.and_eq_true_iff.mp (List.all_eq_true.mp hall f hf)
  exact ⟨hg, hplaced, fun ⟨ho, hl⟩ => by simp [ho, hl] at hne⟩

/-- From `s` to `t` field `g` of page `q` is left alone. -/
structure Spares (q : Nat) (g : Fld) (s t : State) : Prop where
  kept : Kept s t
  rd : Wf s → t.rd q g = s.rd q g

namespace Spares
variable {q : Nat} {g : Fld} {s t u : State}

theorem refl (q : Nat) (g : Fld) (s : State) : Spares q g s s := ⟨Kept.refl s, fun _ => rfl⟩

theorem trans (h : Spares q g s t) (k : Spares q g t u) : Spares q g s u := ⟨h.kept.trans k.kept, fun w => (k.rd (h.kept.wf w)).trans (h.rd w)⟩

/-- What leaves the registers alone spares every field. -/
theorem of_regs (h : Kept s t) (hr : t.regs = s.regs) : Spares q g s t := ⟨h, fun _ => congrArg (look resetVal · (g.key q)) hr⟩

theorem wr {f : Fld} {fs : List Fld} (h : g.apart fs = true) (hf : f ∈ fs) (s : State) (p v : Nat) : Spares q g s (s.wr p f v) := by
  obtain ⟨hg, hplaced, hne⟩ := Fld.apart_of_mem h hf
  exact ⟨kept_wr (Kept.refl s) .., fun w => rd_wr_place w v hplaced hg hne⟩

theorem ite {c : Prop} [Decidable c] (h : Spares q g s t) (k : Spares q g s u) : Spares q g s (if c then t else u) := by
  split
  · exact h
  · exact k

theorem foldl {α : Type} {f : State → α → State} (hf : ∀ t x, Spares q g t (f t x)) (l : List α) (s : State) : Spares q g s (l.foldl f s) := by
  induction l generalizing s with
  | nil => exact refl q g s
  | cons x l ih => exact (hf s x).trans (ih _)

theorem bit (h : Spares q g s t) (w : Wf s) : t.bit q g = s.bit q g := by
  rw [State.bit, h.rd w]
  rfl

end Spares

/-- Of the registers a detection writes PG_FSTAT. -/
theorem raiseX_regs (e : State) (p src last extra : Nat) :
    (e.raiseX p src last extra).regs = if (e.rd p R.PG_FMASK_MASK).testBit src || (e.rd p R.PG_FSTAT_SRC).testBit src then e.regs
      else (e.setBit p R.PG_FSTAT_SRC src).regs := by
  simp only [State.raiseX]
  by_cases hm : (e.rd p R.PG_FMASK_MASK).testBit src = true
  · simp [hm]
  · by_cases hs : (e.rd p R.PG_FSTAT_SRC).testBit src = true
    · simp [hm, hs]
    · simp only [hm, hs, Bool.false_or, Bool.false_eq_true, if_false]
      rw [startGrace_regs]
      rfl

theorem spares_raiseX {q : Nat} {g : Fld} (h : g.apart [R.PG_FSTAT_SRC] = true) (s : State) (p src last extra : Nat) :
    Spares q g s (s.raiseX p src last extra) := by
  refine ⟨kept_raiseX (Kept.refl s) .., fun w => ?_⟩
  rw [State.rd, raiseX_regs]
  split
  · rfl
  · exact (Spares.wr h List.mem_cons_self s p _).rd w

/-- The die with what it has noted of its sync conditions (R210). -/
def OsDie.noted (o : OsDie) (a b : Option Nat) (k : Nat) : OsDie := { o with metA := a, metB := b, metTick := k }

/-- A note of a counter's condition changes what the die has noted, and nothing else. -/
theorem condNote_cases (s : State) (d c : Nat) : s.condNote d c = s ∨ ∃ a b k, s.condNote d c = s.setOd d ((s.od d).noted a b k) := by
  unfold State.condNote
  dsimp only
  by_cases hwaits : ((s.od d).ready.isSome && ((s.od d).metA.isNone || (s.od d).metB.isNone)) = true
  · exact .inr ⟨_, _, _, (if_pos hwaits).trans (congrArg (s.setOd d) (apply_ite ((s.od d).noted _ _) _ _ _).symm)⟩
  · exact .inl (if_neg hwaits)

theorem condNote_frame (s : State) (d c : Nat) (m : Sparse OsDie) : { s.condNote d c with osd := m } = { s with osd := m } := by
  rcases condNote_cases s d c with h | ⟨a, b, k, h⟩
  · rw [h]
  · rw [h]
    rfl

theorem spares_condNote {q : Nat} {g : Fld} (s : State) (d c : Nat) : Spares q g s (s.condNote d c) :=
  .of_regs (kept_condNote (Kept.refl s) ..) (congrArg State.regs (condNote_frame s d c []) :)

/-- The fields that a die's readiness writes. -/
def readyFields : List Fld := [R.PG_FSTAT_SRC, R.OS_PROG_STAT_HELD, R.PKG_BREAK_STAT_HIT, R.PKG_BREAK_STAT_ID]

theorem apart_fstat {g : Fld} (h : g.apart readyFields = true) : g.apart [R.PG_FSTAT_SRC] = true := by
  simp only [Fld.apart, readyFields, List.all_cons, Bool.and_eq_true] at h ⊢
  exact ⟨h.1, h.2.1, rfl⟩

theorem spares_breakMatch {q : Nat} {g : Fld} (h : g.apart readyFields = true) (s : State) (d id : Nat) : Spares q g s (s.breakMatch d id) := by
  unfold State.breakMatch
  dsimp only
  refine .ite ?_ (.refl q g s)
  refine .trans (t := s.setAu d _) (.of_regs (kept_setAu (Kept.refl s) ..) rfl) (.ite ?_ (.refl q g _))
  exact (Spares.wr h (by decide) _ _ _).trans ((Spares.wr h (by decide) _ _ _).trans (.of_regs (kept_setOd (Kept.refl _) ..) rfl))

theorem spares_becomeReady {q : Nat} {g : Fld} (h : g.apart readyFields = true) (s : State) (d c id : Nat) (isEnd mis : Bool) :
    Spares q g s (s.becomeReady d c id isEnd mis) := by
  unfold State.becomeReady
  dsimp only
  refine .trans ?_ (.foldl (fun t k => spares_condNote t d k) _ _)
  refine .trans ?_ (spares_condNote _ d c)
  refine .trans ?_ (.ite (.refl q g _) (spares_breakMatch h _ d id))
  refine .trans ?_ (.ite (spares_raiseX (apart_fstat h) _ pkg2 4 _ _) (.refl q g _))
  refine .trans ?_ (.ite (.of_regs (kept_setBord (Kept.refl _) ..) rfl) (.refl q g _))
  exact .trans (.of_regs (kept_setOd (Kept.refl s) ..) rfl) (Spares.wr h (by decide) _ _ _)

/-! The program control word. -/

/-- A die that is LOADED and armed, neither ready nor stopping, becomes ready at sync 0 (R216). -/
theorem startWait_eq {p : Nat} (hself : osTop (dieOf p) = p) (e : State) : e.startWait (dieOf p) =
    if e.prog (dieOf p) = 1 ∧ e.bit p R.OS_PROG_CTRL_ARM = true ∧ (e.od (dieOf p)).ready = none ∧ (e.od (dieOf p)).stopping = false
    then (e.toCc e.clk.cc).becomeReady (dieOf p) e.clk.cc 0 false false else e := by
  rw [State.startWait, hself]
  refine if_congr ?_ rfl rfl
  simp only [Bool.and_eq_true, decide_eq_true_eq, Bool.not_eq_true', Option.isNone_iff_eq_none, and_assoc]
  rfl

/-- STATE after a write of a bit of OS_PROG_CTRL. -/
theorem prog_wb_ctrl {e : State} (w : Wf e) (p d : Nat) (b : Bool) {f : Fld} (hf : f.apart [R.OS_PROG_STAT_STATE] = true) :
    (e.wb p f b).prog d = e.prog d := by
  obtain ⟨hplaced, hstate, hne⟩ := Fld.apart_of_mem hf List.mem_cons_self
  exact rd_wr_place w _ hplaced hstate fun ⟨ho, hl⟩ => hne ⟨ho.symm, hl.symm⟩

theorem loadedWrite_eq {e : State} (w : Wf e) {p : Nat} (hself : osTop (dieOf p) = p) (b : Bool) :
    e.loadedWrite (dieOf p) b =
      let f := e.wb p R.OS_PROG_CTRL_LOADED b
      if b then (if e.prog (dieOf p) = 0 then f.wr p R.OS_PROG_STAT_STATE 1 else f).startWait (dieOf p) else f := by
  simp only [State.loadedWrite, hself, prog_wb_ctrl w p (dieOf p) b (f := R.OS_PROG_CTRL_LOADED) rfl]
  rfl

theorem armWrite_true_eq {e : State} (w : Wf e) {p : Nat} (hself : osTop (dieOf p) = p) :
    e.armWrite (dieOf p) true =
      let f := e.wb p R.OS_PROG_CTRL_ARM true
      (if e.prog (dieOf p) = 3 then f.wr p R.OS_PROG_STAT_STATE 1 else f).startWait (dieOf p) := by
  simp only [State.armWrite, hself, prog_wb_ctrl w p (dieOf p) true (f := R.OS_PROG_CTRL_ARM) rfl, Bool.true_and, decide_eq_true_eq, if_true]
  rfl

/-- STOP of a die that is not stopping yet (R219). -/
def State.stopBit (e : State) (p : Nat) (b : Bool) : State := if b && !e.bit p R.OS_PROG_CTRL_STOP then e.progStop (dieOf p) else e

/-- A taken word of OS_PROG_CTRL: LOADED, STOP and ARM act in that order. -/
theorem progWord {s : State} {h p v : Nat} (t : s.takes h p .os 0x104 v = true) :
    s.rowWrite h p .os 0x104 v {} =
      (((s.taken h p .os 0x104 v).loadedWrite (dieOf p) (v.testBit 2)).stopBit p (v.testBit 1)).armWrite (dieOf p) (v.testBit 0) := by
  have hrow := takes_list t [R.OS_PROG_CTRL_LOADED, R.OS_PROG_CTRL_STOP, R.OS_PROG_CTRL_ARM] rfl rfl (by decide) {}
  rw [← decide_bits_one, ← decide_bits_one, ← decide_bits_one]
  exact hrow

/-- The flits in the meshes and at their edges, the arrivals and the neighbour requests. -/
def State.traffic (s : State) : List MeshFlit × List EdgeFlit × List Arrival × List NbReq := (s.mesh, s.edges, s.arrivals, s.nbq)

/-- Die `d` has none of it. -/
def State.clearOf (s : State) (d : Nat) : Prop :=
  (∀ x ∈ s.mesh, x.die ≠ d) ∧ (∀ x ∈ s.edges, x.die ≠ d) ∧ (∀ x ∈ s.arrivals, x.die ≠ d) ∧ ∀ x ∈ s.nbq, x.die ≠ d

theorem clearOf_congr {s t : State} {d : Nat} (h : t.traffic = s.traffic) (hs : s.clearOf d) : t.clearOf d := by
  simp only [State.traffic, Prod.mk.injEq] at h
  obtain ⟨hmesh, hedges, harrivals, hnbq⟩ := h
  simpa only [State.clearOf, hmesh, hedges, harrivals, hnbq] using hs

theorem mem_filter_ne {α : Type} {f : α → Nat} {l : List α} {d : Nat} : ∀ x ∈ l.filter (fun y => decide (f y ≠ d)), f x ≠ d :=
  fun _ hx => of_decide_eq_true (List.mem_filter.mp hx).2

/-- A stop ends with HELD cleared and the die stopping, after its traffic has been dropped (R219). -/
theorem progStop_ends (e : State) (d : Nat) : ∃ v : State, Kept e v ∧ v.clearOf d ∧
    e.progStop d = (v.wb (osTop d) R.OS_PROG_STAT_HELD false).setOd d { (v.wb (osTop d) R.OS_PROG_STAT_HELD false).od d with
      stopping := true, phaseOn := false, ready := none, arrive := none, notices := [], mismatch := false,
      runAcc := e.runCyc d, runCc := v.clk.cc, brkHit := (e.od d).brkHit } := by
  refine ⟨_, ?kept, ?clear, rfl⟩
  case kept =>
    refine kept_ceAbort (Kept.foldl _ (fun t k h => kept_engAbort h d k) (Kept.foldl _ (fun t k h => kept_setWle h ..) (Kept.upd ?_ rfl))) d
    exact Kept.foldl _ (fun t k h => Kept.ite (kept_tileIdle (Kept.ite (kept_onTile h ..) h) ..) h) (kept_wb (kept_settleDie (Kept.refl e) ..) ..)
  case clear =>
    have hce (t : State) : (t.ceAbort d).traffic = t.traffic := rfl
    have hengine (t : State) (k : Nat) : (t.engAbort d k).traffic = t.traffic := rfl
    refine clearOf_congr (hce _) (clearOf_congr (foldl_keeps State.traffic hengine _ _) (clearOf_congr (foldl_keeps State.traffic ?_ _ _) ?_))
    · exact fun _ _ => rfl
    · exact ⟨mem_filter_ne, mem_filter_ne, mem_filter_ne, mem_filter_ne⟩

/-- A stop leaves nothing of the die's traffic, and the die not held (R219). -/
theorem progStop_spec {e : State} (w : Wf e) (d : Nat) :
    (e.progStop d).clearOf d ∧ (e.progStop d).bit (osTop d) R.OS_PROG_STAT_HELD = false ∧ ((e.progStop d).od d).stopping = true ∧
      ((e.progStop d).od d).ready = none := by
  obtain ⟨v, hkept, hclear, heq⟩ := progStop_ends e d
  have hdie (x : OsDie) : ((v.wb (osTop d) R.OS_PROG_STAT_HELD false).setOd d x).od d = x := look_put_self _ _ (hkept.wf w).osd
  rw [heq, hdie]
  exact ⟨clearOf_congr rfl hclear, bit_wb_self (hkept.wf w) _ false rfl, rfl, rfl⟩

theorem wf_loadedWrite {e : State} (w : Wf e) (d : Nat) (b : Bool) : Wf (e.loadedWrite d b) := (kept_loadedWrite (Kept.refl e) d b).wf w

theorem wf_stopBit {e : State} (w : Wf e) (p : Nat) (b : Bool) : Wf (e.stopBit p b) :=
  (Kept.ite (kept_progStop (Kept.refl e) _) (Kept.refl e)).wf w

/-- A write of LOADED leaves STOP alone. -/
theorem bit_stop_loadedWrite {e : State} (w : Wf e) {p : Nat} (hself : osTop (dieOf p) = p) (b : Bool) :
    (e.loadedWrite (dieOf p) b).bit p R.OS_PROG_CTRL_STOP = e.bit p R.OS_PROG_CTRL_STOP := by
  have hready (u : State) : Spares p R.OS_PROG_CTRL_STOP u (u.startWait (dieOf p)) :=
    .ite (.trans (.of_regs (kept_toCc (Kept.refl u) _) (by rw [toCc_clk])) (spares_becomeReady (by decide) ..)) (.refl ..)
  have happart : R.OS_PROG_CTRL_STOP.apart [R.OS_PROG_CTRL_LOADED, R.OS_PROG_STAT_STATE] = true := by decide
  have hloaded : Spares p R.OS_PROG_CTRL_STOP e (e.wb p R.OS_PROG_CTRL_LOADED b) := .wr happart (by decide) ..
  rw [loadedWrite_eq w hself]
  exact (Spares.ite (hloaded.trans (.trans (.ite (.wr happart (by decide) ..) (.refl ..)) (hready _))) hloaded).bit w

/-- Settles O20: OS_PROG_CTRL is its three bits in order; the table window and the doorbell are one field each. -/
theorem programControlWrites : Obligations.ProgramControlWrites := by
  unfold Obligations.ProgramControlWrites
  intro s h p val w d waits loads stops arms
  have hloads {e : State} (we : Wf e) (hself : osTop d = p) (v : Nat) : e.loadedWrite d (v.testBit 2) = loads v e := by
    simp only [loads, loadedWrite_eq we hself, startWait_eq hself, d, waits]
  have harms {e : State} (we : Wf e) (hself : osTop d = p) : e.armWrite d true = arms e := by
    simp only [arms, armWrite_true_eq we hself, startWait_eq hself, d, waits]
  have hword {v : Nat} (t : s.takes h p .os 0x104 v = true) : s.rowWrite h p .os 0x104 v {} =
      if v.testBit 0 then arms (stops v (loads v (s.taken h p .os 0x104 v)))
      else (stops v (loads v (s.taken h p .os 0x104 v))).armWrite d false := by
    have hself : osTop d = p := self_os (takes_blk t)
    have we := wf_taken w h p .os 0x104 v
    rw [progWord t, ← hloads we hself]
    cases v.testBit 0
    · rfl
    · exact harms (wf_stopBit (wf_loadedWrite we ..) ..) hself
  have loads_congr {u v : Nat} (huv : u.testBit 2 = v.testBit 2) : loads u = loads v := by simp only [loads, huv]
  have stops_congr {u v : Nat} (huv : u.testBit 1 = v.testBit 1) : stops u = stops v := by simp only [stops, huv]
  have hbit (i j : Nat) : (val ||| 2 ^ i).testBit j = (val.testBit j || decide (i = j)) := by rw [Nat.testBit_or, Nat.testBit_two_pow]
  have hother {i j : Nat} (hij : i ≠ j) : (val ||| 2 ^ i).testBit j = val.testBit j := by rw [hbit, decide_eq_false hij, Bool.or_false]
  have hset (i : Nat) : (val ||| 2 ^ i).testBit i = true := by rw [hbit, decide_eq_true rfl, Bool.or_true]
  refine ⟨fun t => ?arm, fun t => ?loaded, fun t => ?stop, fun t => ?table, fun t => ?doorbell⟩
  case arm =>
    rw [← loads_congr (hother (i := 0) (by decide)), ← stops_congr (hother (i := 0) (by decide))]
    exact congrArg Host.Outcome.next ((hword t).trans (if_pos (hset 0)))
  case loaded =>
    rw [← loads_congr (hset 2), ← stops_congr (hother (i := 2) (by decide)), ← hother (i := 2) (j := 0) (by decide)]
    exact congrArg Host.Outcome.next (hword t)
  case stop =>
    rw [← loads_congr (hother (i := 1) (by decide)), ← stops_congr (hset 1), ← hother (i := 1) (j := 0) (by decide)]
    refine ⟨congrArg Host.Outcome.next (hword t), fun hstop => ?_⟩
    have hself : osTop d = p := self_os (takes_blk t)
    have we := wf_taken w h p .os 0x104 (val ||| 2)
    have wl := wf_loadedWrite we d ((val ||| 2).testBit 2)
    have hgoes : stops (val ||| 2 ^ 1) (loads (val ||| 2) (s.taken h p .os 0x104 (val ||| 2))) =
        ((s.taken h p .os 0x104 (val ||| 2)).loadedWrite d ((val ||| 2).testBit 2)).progStop d := by
      rw [← hloads we hself]
      exact if_pos (by rw [hset 1, bit_stop_loadedWrite we hself, hstop]; rfl)
    obtain ⟨⟨hmesh, hedges, harrivals, hnbq⟩, hheld, hstopping, hready⟩ := progStop_spec wl d
    rw [hself] at hheld
    simp only [show 2 ^ 1 = 2 from rfl] at hgoes ⊢
    rw [hgoes]
    exact ⟨hmesh, hedges, harrivals, hnbq, hheld, hstopping, hready⟩
  case table =>
    intro e i u x o old half o' f
    have hself : osTop d = p := self_os (takes_blk t)
    have we : Wf e := wf_taken w ..
    have hrow := takes_one t R.OS_TBL_DATA rfl rfl rfl (by decide) {}
    have hact : e.fieldAct p .os R.OS_TBL_DATA 0x150 (val % 2 ^ 32) (bits val 0 32) {} = e.tblWrite d x := by
      rw [bits_low]
      rfl
    have hprog : f.prog d = e.prog d := prog_wb_ctrl (f := R.OS_PROG_CTRL_LOADED) ((kept_setOd (Kept.refl e) ..).wf we) p d false rfl
    refine congrArg Host.Outcome.next ((hrow.trans hact).trans ?_)
    rw [State.tblWrite, hself]
    refine if_congr (by rw [Bool.or_eq_true, decide_eq_true_iff, decide_eq_true_iff]; rfl) rfl ?_
    have hx : x % 2 ^ 32 = x := Nat.mod_mod ..
    simp only [hx]
    exact if_congr (hprog ▸ Iff.rfl) rfl rfl
  case doorbell =>
    intro e c f g
    have hself : osTop d = p := self_os (takes_blk t)
    have hrow := takes_list t [R.OS_EVT_ADD_AMOUNT, R.OS_EVT_ADD_CNT] rfl rfl (by decide) {}
    have hact : e.fieldAct p .os R.OS_EVT_ADD_CNT 0x154 (val % 2 ^ 32) (bits val 0 4) {} = e.evtDoorbell d (val % 2 ^ 32) := rfl
    refine congrArg Host.Outcome.next ((hrow.trans hact).trans ?_)
    have hc : val % 2 ^ 32 % 16 = c := Nat.mod_mod_of_dvd val (by decide)
    have hcc : c % 16 = c := Nat.mod_mod ..
    have hn : bits (val % 2 ^ 32) 16 16 = bits val 16 16 := by unfold bits; omega
    simp only [State.evtDoorbell, State.evtAdd, hc, hcc, hn, hself]
    rfl

end Sys2Proof.Machine
end

section
/-! SUPPORT. Sensors, SAFE, the driver limit, the ageing log and the security registers (O27). -/

namespace Sys2Proof.Machine
open Sys2Proof

/-- A field that a request bit of the word lies outside is asked for its bits of the word alone. -/
theorem bits_or_outside (v : Nat) {lo n i : Nat} (h : i < lo ∨ lo + n ≤ i) : bits (v ||| 2 ^ i) lo n = bits v lo n := by
  unfold bits
  refine Nat.eq_of_testBit_eq fun j => ?_
  rw [Nat.testBit_mod_two_pow, Nat.testBit_mod_two_pow, Nat.testBit_div_two_pow, Nat.testBit_div_two_pow, Nat.testBit_or, Nat.testBit_two_pow]
  by_cases hj : j < n
  · rw [decide_eq_false (show ¬ i = j + lo by omega), Bool.or_false]
  · rw [decide_eq_false hj, Bool.false_and, Bool.false_and]

theorem bits_lt (v lo n : Nat) : bits v lo n < 2 ^ n := Nat.mod_lt _ (Nat.two_pow_pos n)

/-- A read of the field written, where the value fits it. -/
theorem rd_wr_fits {s : State} (w : Wf s) (p : Nat) {f : Fld} {v : Nat} (h : v < 2 ^ f.w) : (s.wr p f v).rd p f = v :=
  (rd_wr_self w p f v).trans (Nat.mod_eq_of_lt h)

/-! Sensors (R499). -/

theorem forceSet_named {e : State} (w : Wf e) {p i : Nat} (hself : thPg (dieOf p) = p) (hi : i < 32) :
    (e.wr p R.TH_FORCE_SENSOR i).forceSet (dieOf p) =
      let f := e.wr p R.TH_FORCE_SENSOR i
      if i < sensCount (dieOf p) ∧ (f.sensor (sensIdx (dieOf p) i)).sub = 0 then ((f.substitute (sensIdx (dieOf p) i) 2).safeEval).thermalUpdate else f := by
  have hrd : (e.wr p R.TH_FORCE_SENSOR i).rd p R.TH_FORCE_SENSOR = i := rd_wr_fits w p hi
  simp only [State.forceSet, hself, hrd, Bool.and_eq_true, decide_eq_true_eq]

theorem forceClr_named {e : State} (w : Wf e) {p i : Nat} (hself : thPg (dieOf p) = p) (hi : i < 32) :
    (e.wr p R.TH_FORCE_SENSOR i).forceClr (dieOf p) =
      let f := e.wr p R.TH_FORCE_SENSOR i
      let x := f.sensor (sensIdx (dieOf p) i)
      if i < sensCount (dieOf p) ∧ x.sub ≠ 0 ∧ 1000 ≤ x.good then (f.setSensor (sensIdx (dieOf p) i) { x with sub := 0 }).thermalUpdate else f := by
  have hrd : (e.wr p R.TH_FORCE_SENSOR i).rd p R.TH_FORCE_SENSOR = i := rd_wr_fits w p hi
  simp only [State.forceClr, hself, hrd, Bool.and_eq_true, decide_eq_true_eq, and_assoc]

/-- A taken word of TH_FORCE: the sensor is named, then SET and CLR act. -/
theorem forceWord {s : State} {h p v : Nat} (t : s.takes h p .th 0x11C v = true) : s.rowWrite h p .th 0x11C v {} =
    (let e := (s.taken h p .th 0x11C v).wr p R.TH_FORCE_SENSOR (bits v 0 5)
     let f := if v.testBit 8 then e.forceSet (dieOf p) else e
     if v.testBit 9 then f.forceClr (dieOf p) else f) := by
  have hrow := takes_list t [R.TH_FORCE_SENSOR, R.TH_FORCE_SET, R.TH_FORCE_CLR] rfl rfl (by decide) {}
  have hsensor (e : State) (u : Nat) : e.fieldAct p .th R.TH_FORCE_SENSOR 0x11C (v % 2 ^ 32) u {} = e.wr p R.TH_FORCE_SENSOR u := by
    have hchain : e.fieldAct p .th R.TH_FORCE_SENSOR 0x11C (v % 2 ^ 32) u {} = if (!isHoop (dieOf p) && false) = true then e else e.wr p R.TH_FORCE_SENSOR u := rfl
    rw [hchain, Bool.and_false, if_neg Bool.false_ne_true]
  have hset (e : State) (u : Nat) : e.fieldAct p .th R.TH_FORCE_SET 0x11C (v % 2 ^ 32) u {} = if u = 1 then e.forceSet (dieOf p) else e := rfl
  have hclr (e : State) (u : Nat) : e.fieldAct p .th R.TH_FORCE_CLR 0x11C (v % 2 ^ 32) u {} = if u = 1 then e.forceClr (dieOf p) else e := rfl
  simp only [List.foldl_cons, List.foldl_nil, hsensor, hset, hclr] at hrow
  simp only [← decide_bits_one, decide_eq_true_eq]
  exact hrow

/-! SAFE and the driver's limit (R195, R503, R504). -/

/-- The registers from 0x180 on stand in Hoop dies alone (log entry 52). -/
theorem hoopOnly (d : Nat) (s t : State) : (if (!isHoop d && true) = true then s else t) = if isHoop d then t else s := by
  cases isHoop d <;> rfl

/-- A taken word of TH_SAFE: N, FORCE, then CLR; nothing off a Hoop die. -/
theorem safeWord {s : State} {h p v : Nat} (t : s.takes h p .th 0x1A0 v = true) : s.rowWrite h p .th 0x1A0 v {} =
    if isHoop (dieOf p) then
      let e := ((s.taken h p .th 0x1A0 v).wr p R.TH_SAFE_N (max 16 (min 64 (bits v 0 7)))).sendN
      let f := (e.wr p R.TH_SAFE_FORCE (bits v 8 1)).safeEval
      if v.testBit 9 then f.safeClear (dieOf p - 0x12) else f
    else s.taken h p .th 0x1A0 v := by
  have hrow := takes_list t [R.TH_SAFE_N, R.TH_SAFE_FORCE, R.TH_SAFE_CLR, R.TH_SAFE_CAUSE] rfl rfl (by decide) {}
  have hn (e : State) (u : Nat) : e.fieldAct p .th R.TH_SAFE_N 0x1A0 (v % 2 ^ 32) u {} =
      if isHoop (dieOf p) then (e.wr p R.TH_SAFE_N (max 16 (min 64 u))).sendN else e := hoopOnly ..
  have hforce (e : State) (u : Nat) : e.fieldAct p .th R.TH_SAFE_FORCE 0x1A0 (v % 2 ^ 32) u {} =
      if isHoop (dieOf p) then (e.wr p R.TH_SAFE_FORCE u).safeEval else e := hoopOnly ..
  have hclr (e : State) (u : Nat) : e.fieldAct p .th R.TH_SAFE_CLR 0x1A0 (v % 2 ^ 32) u {} =
      if isHoop (dieOf p) then (if u = 1 then e.safeClear (dieOf p - 0x12) else e) else e := hoopOnly ..
  have hcause (e : State) (u : Nat) : e.fieldAct p .th R.TH_SAFE_CAUSE 0x1A0 (v % 2 ^ 32) u {} = e := rfl
  simp only [List.foldl_cons, List.foldl_nil, hn, hforce, hclr, hcause] at hrow
  cases hh : isHoop (dieOf p)
  · simpa only [hh, Bool.false_eq_true, if_false] using hrow
  · simp only [hh, if_true] at hrow ⊢
    simp only [← decide_bits_one, decide_eq_true_eq]
    exact hrow

/-- A taken word of TH_DRV_LIMIT. -/
theorem driverWord {s : State} {h p v : Nat} (t : s.takes h p .th 0x190 v = true) : s.rowWrite h p .th 0x190 v {} =
    if isHoop (dieOf p) then ((s.taken h p .th 0x190 v).wr p R.TH_DRV_LIMIT_N (v % 2 ^ 7)).drvLimit (dieOf p - 0x12)
    else s.taken h p .th 0x190 v := by
  rw [← bits_low]
  exact (takes_one t R.TH_DRV_LIMIT_N rfl rfl rfl (by decide) {}).trans (hoopOnly ..)

/-- A request to N changes the cadence tree alone. -/
theorem sendN_frame (e : State) (c : CadSt) : { e.sendN with cad := c } = { e with cad := c } := by
  unfold State.sendN
  split
  · rfl
  · dsimp only
    split <;> rfl

/-- The driver's limit is held within 16 to 64 and is the driver's request (R195). -/
theorem drvLimit_spec {e : State} (w : Wf e) {p v : Nat} (hself : thPg (0x12 + (dieOf p - 0x12)) = p) (hv : v < 2 ^ 7) :
    let t := (e.wr p R.TH_DRV_LIMIT_N v).drvLimit (dieOf p - 0x12)
    t.rd p R.TH_DRV_LIMIT_N = max 16 (min 64 v) ∧ t.rd p R.TH_PKG_N_ND = max 16 (min 64 v) ∧
      { t with regs := [], cad := {} } = { e with regs := [], cad := {} } := by
  have hrd : (e.wr p R.TH_DRV_LIMIT_N v).rd p R.TH_DRV_LIMIT_N = v := rd_wr_fits w p hv
  have hfits : max 16 (min 64 v) < 2 ^ 7 := by omega
  have w1 := wf_wr w p R.TH_DRV_LIMIT_N v
  have w2 := wf_wr w1 p R.TH_DRV_LIMIT_N (max 16 (min 64 v))
  have hsend (u : State) (g : Fld) : u.sendN.rd p g = u.rd p g := (congrArg (State.rd · p g) (sendN_frame u u.cad) :)
  simp only [State.drvLimit, hself, hrd, hsend]
  refine ⟨?_, rd_wr_fits w2 p hfits, ?_⟩
  · exact (rd_wr_place (q := p) (g := R.TH_DRV_LIMIT_N) w2 _ rfl rfl (by decide)).trans (rd_wr_fits w1 p hfits)
  · exact (congrArg (fun t : State => { t with regs := [] }) (sendN_frame _ {}) :)

/-! What a taken word finds. -/

/-- The state but for registers, pages and the messages of a commit. -/
def State.sansStage (s : State) : State := { s with regs := [], pages := [], com := {} }

theorem sansStage_eq {s t : State} (h : t.sansStage = s.sansStage) : { t with regs := s.regs, pages := s.pages, com := s.com } = s :=
  congrArg (fun u : State => { u with regs := s.regs, pages := s.pages, com := s.com }) h

theorem sansStage_prepare (s : State) (d : Nat) : (s.prepare d).sansStage = s.sansStage := by
  obtain ⟨k, hk⟩ := prepare_com s d
  rw [hk]
  rfl

theorem sansStage_dropStage (s : State) (d : Nat) : (s.dropStage d).sansStage = s.sansStage := by
  rw [dropStage_eq]
  generalize s.stagePages d = l
  exact foldl_keeps State.sansStage (f := State.dropPage) (fun _ _ => rfl) l s

/-- What a Hoop sent earlier empties stage buffers and moves the messages of a commit, nothing else (R45, R65). -/
theorem sansStage_inOrder (s : State) (h d : Nat) : (s.inOrder h d).sansStage = s.sansStage := by
  have hdiscard (k : Nat) : (s.discardIn k).sansStage = s.sansStage := by
    unfold State.discardIn
    split
    · refine (sansStage_dropStage _ k).trans ?_
      split
      · exact sansStage_prepare s k
      · rfl
    · rfl
  unfold State.inOrder
  split
  · rfl
  · generalize (if d = 0x1F then held h else d) = k
    dsimp only
    split
    · exact (sansStage_prepare _ _).trans (hdiscard k)
    · exact hdiscard k

/-- A word that a page takes finds everything as it was but for registers, stage buffers and the messages of a commit. -/
theorem sansStage_taken (s : State) (h p : Nat) (b : Blk) (off val : Nat) : (s.taken h p b off val).sansStage = s.sansStage := by
  have hepoch (u : State) (q n : Nat) : (u.epochUp q n).sansStage = u.sansStage := by
    unfold State.epochUp
    split <;> rfl
  unfold State.taken
  dsimp only
  split
  · exact (hepoch ..).trans (sansStage_inOrder s _ _)
  · exact sansStage_inOrder s _ _

/-! The ageing log and the profile store (R508, R526, R536). -/

/-- A taken word of AGE_LOG. -/
theorem ageLogWord {s : State} {h p v : Nat} (t : s.takes h p .age 0x184 v = true) : s.rowWrite h p .age 0x184 v {} =
    if v.testBit 24 && isHoop (dieOf p) then (s.taken h p .age 0x184 v).ageLogClr (dieOf p - 0x12) else s.taken h p .age 0x184 v := by
  rw [← decide_bits_one]
  exact takes_list t [R.AGE_LOG_CLR, R.AGE_LOG_DROPPED, R.AGE_LOG_PENDING] rfl rfl (by decide) {}

/-- A taken word of PR_CTRL: ERR is cleared, then SAVE and LOAD act. -/
theorem profileWord {s : State} {h p v : Nat} (t : s.takes h p .pr 0x110 v = true) : s.rowWrite h p .pr 0x110 v {} =
    (let e := s.taken h p .pr 0x110 v
     let e1 := e.wr p R.PR_CTRL_ERR (if v.testBit 2 then 0 else e.rd p R.PR_CTRL_ERR)
     let e2 := if v.testBit 1 then e1.profSave (dieOf p - 0x12) else e1
     if v.testBit 0 then e2.profLoad (dieOf p - 0x12) else e2) := by
  have hrow := takes_list t [R.PR_CTRL_ERR, R.PR_CTRL_SAVE, R.PR_CTRL_LOAD] rfl rfl (by decide) {}
  have herr (e : State) : e.fieldAct p .pr R.PR_CTRL_ERR 0x110 (v % 2 ^ 32) (bits v 2 1) {} =
      e.wr p R.PR_CTRL_ERR (if v.testBit 2 then 0 else e.rd p R.PR_CTRL_ERR) := wr_toggle rfl v
  have hsave (e : State) (u : Nat) : e.fieldAct p .pr R.PR_CTRL_SAVE 0x110 (v % 2 ^ 32) u {} = if u = 1 then e.profSave (dieOf p - 0x12) else e := rfl
  have hload (e : State) (u : Nat) : e.fieldAct p .pr R.PR_CTRL_LOAD 0x110 (v % 2 ^ 32) u {} = if u = 1 then e.profLoad (dieOf p - 0x12) else e := rfl
  simp only [List.foldl_cons, List.foldl_nil, show R.PR_CTRL_ERR.lo = 2 from rfl, show R.PR_CTRL_ERR.w = 1 from rfl, herr, hsave, hload] at hrow
  simp only [← decide_bits_one (lo := 1), ← decide_bits_one (lo := 0), decide_eq_true_eq]
  exact hrow

/-! Keys, lifecycle, debug and JTAG (R529-R534). -/

/-- A taken word of SEC_KEY_CTRL: bits are revoked, then a slot is programmed. -/
theorem keyWord {s : State} {h p v : Nat} (t : s.takes h p .sec 0x10C v = true) (x : WrX) : s.rowWrite h p .sec 0x10C v x =
    (let e := (s.taken h p .sec 0x10C v).keyRevoke (dieOf p - 0x12) (bits v 8 8) x.ok0
     if v.testBit 0 then e.keyProgram (dieOf p - 0x12) x.ok0 else e) := by
  have hrow := takes_list t [R.SEC_KEY_CTRL_FUSED, R.SEC_KEY_CTRL_REVOKE, R.SEC_KEY_CTRL_PROGRAM] rfl rfl (by decide) x
  have hfused (e : State) (u : Nat) : e.fieldAct p .sec R.SEC_KEY_CTRL_FUSED 0x10C (v % 2 ^ 32) u x = e := rfl
  have hrevoke (e : State) (u : Nat) : e.fieldAct p .sec R.SEC_KEY_CTRL_REVOKE 0x10C (v % 2 ^ 32) u x = e.keyRevoke (dieOf p - 0x12) u x.ok0 := rfl
  have hprogram (e : State) (u : Nat) : e.fieldAct p .sec R.SEC_KEY_CTRL_PROGRAM 0x10C (v % 2 ^ 32) u x =
    if u = 1 then e.keyProgram (dieOf p - 0x12) x.ok0 else e := rfl
  simp only [List.foldl_cons, List.foldl_nil, hfused, hrevoke, hprogram] at hrow
  simp only [← decide_bits_one, decide_eq_true_eq]
  exact hrow

theorem keyRevoke_none {e : State} (a : Nat) (ok : Bool) : e.keyRevoke a 0 ok = e := if_pos (Nat.or_zero _)

/-- A taken word of SEC_DBG: FAIL is cleared, then the request acts. -/
theorem debugWord {s : State} {h p v : Nat} (t : s.takes h p .sec 0x140 v = true) : s.rowWrite h p .sec 0x140 v {} =
    (let e := s.taken h p .sec 0x140 v
     (e.wr p R.SEC_DBG_FAIL (if v.testBit 9 then 0 else e.rd p R.SEC_DBG_FAIL)).dbgReq (dieOf p - 0x12) (bits v 4 2)) := by
  have hrow := takes_list t [R.SEC_DBG_FAIL, R.SEC_DBG_SCRUB, R.SEC_DBG_REQ, R.SEC_DBG_LEVEL] rfl rfl (by decide) {}
  have hfail (e : State) : e.fieldAct p .sec R.SEC_DBG_FAIL 0x140 (v % 2 ^ 32) (bits v 9 1) {} =
      e.wr p R.SEC_DBG_FAIL (if v.testBit 9 then 0 else e.rd p R.SEC_DBG_FAIL) := wr_toggle rfl v
  exact hrow.trans (congrArg (State.dbgReq · (dieOf p - 0x12) (bits v 4 2)) (hfail _))

/-- A word written over the bits from `k` on of a number that ends with it. -/
theorem word_replaced {old w k : Nat} (ho : old < 2 ^ (k + 32)) (hw : w < 2 ^ 32) :
    (old ^^^ (old &&& (2 ^ 32 - 1) * 2 ^ k)) ||| w * 2 ^ k = old % 2 ^ k + w * 2 ^ k := by
  refine Nat.eq_of_testBit_eq fun j => ?_
  have hsum := Nat.testBit_two_pow_mul_add w (Nat.mod_lt old (Nat.two_pow_pos k)) j
  rw [Nat.mul_comm, Nat.add_comm] at hsum
  rw [hsum, Nat.testBit_or, Nat.testBit_xor, Nat.testBit_and, Nat.testBit_mul_two_pow, Nat.testBit_mul_two_pow, Nat.testBit_two_pow_sub_one,
    Nat.testBit_mod_two_pow]
  by_cases hj : j < k
  · simp [hj, show ¬ k ≤ j by omega]
  · by_cases hin : j - k < 32
    · simp [hj, hin, show k ≤ j by omega]
    · have hold : old.testBit j = false := Nat.testBit_lt_two_pow (Nat.lt_of_lt_of_le ho (Nat.pow_le_pow_right (by decide) (by omega)))
      have hnew : w.testBit (j - k) = false := Nat.testBit_lt_two_pow (Nat.lt_of_lt_of_le hw (Nat.pow_le_pow_right (by decide) (by omega)))
      simp [hj, hin, hold, hnew]

/-- The last word of a register of several words: the others stand. -/
theorem asked_last_word {s : State} {p : Nat} {b : Blk} {f : Fld} {off v k : Nat} (hacc : f.acc = .rwe) (hplace : f.off * 8 + f.lo + k = off * 8)
    (hwidth : f.w = k + 32) (hv : v < 2 ^ 32) :
    s.asked p b f off v 15 = s.oldOf p b f % 2 ^ f.w % 2 ^ k + v * 2 ^ k := by
  have hword {n : Nat} (hn : n < 2 ^ 32) : f.fromWord off n = n * 2 ^ k := by
    unfold Fld.fromWord
    dsimp only
    rw [if_pos (show f.off * 8 + f.lo ≤ off * 8 by omega), show off * 8 - (f.off * 8 + f.lo) = k by omega, hwidth]
    refine Nat.mod_eq_of_lt ?_
    rw [Nat.add_comm, Nat.pow_add]
    exact Nat.mul_lt_mul_of_pos_right hn (Nat.two_pow_pos k)
  have hold : s.oldOf p b f % 2 ^ f.w < 2 ^ (k + 32) := hwidth ▸ Nat.mod_lt _ (Nat.two_pow_pos _)
  unfold State.asked
  rw [hacc, beMask_all, Nat.and_two_pow_sub_one_eq_mod, Nat.mod_eq_of_lt hv, hword hv, hword (by decide)]
  exact word_replaced hold hv

/-- A word that a page takes writes at most the page's epoch and its key before it acts. -/
theorem spares_taken {q : Nat} {g : Fld} (hg : g.apart [R.PG_EPOCH_EPOCH, R.PG_STATUS_KEY_OPEN] = true) (s : State) (h p : Nat) (b : Blk) (off v : Nat) :
    Spares q g (s.judged h p) (s.taken h p b off v) := by
  unfold State.taken State.epochUp State.wb
  exact .ite (.ite ((Spares.wr hg List.mem_cons_self _ p _).trans (.wr hg (List.mem_cons_of_mem _ List.mem_cons_self) ..)) (.refl ..)) (.refl ..)

/-- The last word of the response (R531), which stands from bit `k` on. -/
theorem responseWord {s : State} (w : Wf s) {h p v k n : Nat} (hk : k = 736) (hn : n = 768) (t : s.takes h p .sec 0x1DC v = true) (x : WrX) :
    s.rowWrite h p .sec 0x1DC v x =
    (let e := s.taken h p .sec 0x1DC v
     (e.wr p R.SEC_RESP (e.rd p R.SEC_RESP % 2 ^ n % 2 ^ k + v % 2 ^ 32 * 2 ^ k)).dbgResp (dieOf p - 0x12) x.good) := by
  have hasked := asked_last_word (s := s.judged h p) (p := p) (b := .sec) (f := R.SEC_RESP) (off := 0x1DC) (k := k) rfl (hk ▸ rfl) (hk ▸ rfl)
    (Nat.mod_lt v (Nat.two_pow_pos 32))
  have hact (e : State) (u : Nat) : e.fieldAct p .sec R.SEC_RESP 0x1DC (v % 2 ^ 32) u x = (e.wr p R.SEC_RESP u).dbgResp (dieOf p - 0x12) x.good := rfl
  have hrow := takes_row t rfl x
  rw [show touched .sec 0x1DC 15 = [R.SEC_RESP] from by decide +kernel, List.map_singleton, List.foldl_cons, List.foldl_nil, hact,
    hasked, show R.SEC_RESP.w = n from hn.symm, show (s.judged h p).oldOf p .sec R.SEC_RESP = (s.judged h p).rd p R.SEC_RESP from rfl,
    ← (spares_taken (q := p) (g := R.SEC_RESP) (by decide) s h p .sec 0x1DC v).rd ((kept_inOrder (Kept.refl s) ..).wf w)] at hrow
  exact hrow

/-! Request bits that an operation sets in its word. -/

theorem testBit_or_same (v i : Nat) : (v ||| 2 ^ i).testBit i = true := by rw [Nat.testBit_or, Nat.testBit_two_pow_self, Bool.or_true]

theorem testBit_or_other (v : Nat) {i j : Nat} (h : i ≠ j) : (v ||| 2 ^ i).testBit j = v.testBit j := by
  rw [Nat.testBit_or, Nat.testBit_two_pow, decide_eq_false h, Bool.or_false]

theorem hoop_die {d : Nat} (h : isHoop d = true) : 0x12 + (d - 0x12) = d := by
  unfold isHoop at h
  simp only [Bool.or_eq_true, decide_eq_true_eq] at h
  omega

/-! One lemma per operation of O27. -/

section
variable {s : State} {h p : Nat}

theorem exec_sensorForceSet (w : Wf s) (val : Nat) (t : s.takes h p .th 0x11C (val ||| 0x100) = true) :
    exec (.sensorForceSet h p val) s = .next (
      let f := (s.taken h p .th 0x11C (val ||| 0x100)).wr p R.TH_FORCE_SENSOR (bits val 0 5)
      let g := sensIdx (dieOf p) (bits val 0 5)
      let e := if bits val 0 5 < sensCount (dieOf p) ∧ (f.sensor g).sub = 0 then ((f.substitute g 2).safeEval).thermalUpdate else f
      if val.testBit 9 then e.forceClr (dieOf p) else e) := by
  refine congrArg Host.Outcome.next ((forceWord t).trans ?_)
  have hbits : bits (val ||| 0x100) 0 5 = bits val 0 5 := bits_or_outside val (i := 8) (by decide)
  have hset : (val ||| 0x100).testBit 8 = true := testBit_or_same val 8
  have hclr : (val ||| 0x100).testBit 9 = val.testBit 9 := testBit_or_other val (i := 8) (by decide)
  have hnamed := forceSet_named (wf_taken w h p .th 0x11C (val ||| 0x100)) (self_th (takes_blk t)) (bits_lt val 0 5)
  simp only [hbits, hset, hclr, if_true, hnamed]

theorem exec_sensorForceClr (w : Wf s) {val : Nat} (t : s.takes h p .th 0x11C (val ||| 0x200) = true) (hv : val.testBit 8 = false) :
    exec (.sensorForceClr h p val) s = .next (
      let f := (s.taken h p .th 0x11C (val ||| 0x200)).wr p R.TH_FORCE_SENSOR (bits val 0 5)
      let x := f.sensor (sensIdx (dieOf p) (bits val 0 5))
      if bits val 0 5 < sensCount (dieOf p) ∧ x.sub ≠ 0 ∧ 1000 ≤ x.good then
        (f.setSensor (sensIdx (dieOf p) (bits val 0 5)) { x with sub := 0 }).thermalUpdate else f) := by
  refine congrArg Host.Outcome.next ((forceWord t).trans ?_)
  have hbits : bits (val ||| 0x200) 0 5 = bits val 0 5 := bits_or_outside val (i := 9) (by decide)
  have hset : (val ||| 0x200).testBit 8 = false := (testBit_or_other val (i := 9) (by decide)).trans hv
  have hclr : (val ||| 0x200).testBit 9 = true := testBit_or_same val 9
  have hnamed := forceClr_named (wf_taken w h p .th 0x11C (val ||| 0x200)) (self_th (takes_blk t)) (bits_lt val 0 5)
  simp only [hbits, hset, hclr, if_true, Bool.false_eq_true, if_false, hnamed]

theorem exec_safeClear {val : Nat} (t : s.takes h p .th 0x1A0 (val ||| 0x200) = true) (hh : isHoop (dieOf p) = true) :
    exec (.safeClear h p val) s = .next (
      let e := ((s.taken h p .th 0x1A0 (val ||| 0x200)).wr p R.TH_SAFE_N (max 16 (min 64 (bits val 0 7)))).sendN
      let f := (e.wr p R.TH_SAFE_FORCE (bits val 8 1)).safeEval
      if f.safeNow (dieOf p - 0x12) = 0 then (f.wr p R.TH_SAFE_CAUSE 0).sendN else f.safeEval) := by
  refine congrArg Host.Outcome.next ((safeWord t).trans ((if_pos hh).trans ?_))
  have hn : bits (val ||| 0x200) 0 7 = bits val 0 7 := bits_or_outside val (i := 9) (by decide)
  have hforce : bits (val ||| 0x200) 8 1 = bits val 8 1 := bits_or_outside val (i := 9) (by decide)
  have hclr : (val ||| 0x200).testBit 9 = true := testBit_or_same val 9
  simp only [hn, hforce, hclr, if_true, State.safeClear, hoop_die hh, self_th (takes_blk t)]

theorem exec_driverLimitWrite (w : Wf s) {val : Nat} (t : s.takes h p .th 0x190 val = true) (hh : isHoop (dieOf p) = true) :
    ∃ t, exec (.driverLimitWrite h p val) s = .next t ∧ t.rd p R.TH_DRV_LIMIT_N = max 16 (min 64 (val % 2 ^ 7)) ∧
      t.rd p R.TH_PKG_N_ND = max 16 (min 64 (val % 2 ^ 7)) ∧ { t with regs := s.regs, cad := s.cad, pages := s.pages, com := s.com } = s := by
  have hself : thPg (0x12 + (dieOf p - 0x12)) = p := by rw [hoop_die hh, self_th (takes_blk t)]
  obtain ⟨hlimit, hnd, hframe⟩ := drvLimit_spec (wf_taken w h p .th 0x190 val) hself (Nat.mod_lt val (Nat.two_pow_pos 7))
  refine ⟨_, congrArg Host.Outcome.next ((driverWord t).trans (if_pos hh)), hlimit, hnd, ?_⟩
  have htaken := sansStage_eq (sansStage_taken s h p .th 0x190 val)
  exact (congrArg (fun u : State => { u with regs := s.regs, cad := s.cad, pages := s.pages, com := s.com }) hframe).trans
    (congrArg (fun u : State => { u with cad := s.cad }) htaken)

theorem exec_ageLogClear {val : Nat} (t : s.takes h p .age 0x184 (val ||| 0x1000000) = true) :
    exec (.ageLogClear h p val) s = .next (
      let e := s.taken h p .age 0x184 (val ||| 0x1000000)
      if isHoop (dieOf p) then e.ageLogClr (dieOf p - 0x12) else e) := by
  refine congrArg Host.Outcome.next ((ageLogWord t).trans ?_)
  have hclr : (val ||| 0x1000000).testBit 24 = true := testBit_or_same val 24
  rw [hclr, Bool.true_and]

theorem exec_profileStagingLoad {val : Nat} (t : s.takes h p .pr 0x110 (val ||| 1) = true) :
    exec (.profileStagingLoad h p val) s = .next (
      let e := s.taken h p .pr 0x110 (val ||| 1)
      let e1 := e.wr p R.PR_CTRL_ERR (if val.testBit 2 then 0 else e.rd p R.PR_CTRL_ERR)
      let e2 := if val.testBit 1 then e1.profSave (dieOf p - 0x12) else e1
      ((e2.flashOf (dieOf p - 0x12)).prof (e2.rd p R.PR_SEL_PROF)).zipIdx.foldl (fun (t : State) x => t.putStaging (dieOf p - 0x12) x.2 x.1) e2) := by
  refine congrArg Host.Outcome.next ((profileWord t).trans ?_)
  have herr : (val ||| 1).testBit 2 = val.testBit 2 := testBit_or_other val (i := 0) (by decide)
  have hsave : (val ||| 1).testBit 1 = val.testBit 1 := testBit_or_other val (i := 0) (by decide)
  have hload : (val ||| 1).testBit 0 = true := testBit_or_same val 0
  simp only [herr, hsave, hload, if_true, State.profLoad, self_pr (takes_blk t)]

theorem exec_profileSave (w : Wf s) {val : Nat} (t : s.takes h p .pr 0x110 (val ||| 2) = true) (hv : val.testBit 0 = false) :
    exec (.profileSave h p val) s = .next (
      let a := dieOf p - 0x12
      let e := s.taken h p .pr 0x110 (val ||| 2)
      let e1 := e.wr p R.PR_CTRL_ERR (if val.testBit 2 then 0 else e.rd p R.PR_CTRL_ERR)
      if e.start.save.isSome then e1
      else if !profValid (e.staging a) (e.flashOf a).grade then e1.saveErr a
      else if !(e.nvOk 0 && e.nvOk 1) then (e1.nvRefuse a).saveErr a
      else { (e1.wb p R.PR_CTRL_SAVE true) with start := { e.start with save := some (a, e.rd p R.PR_SEL_PROF, e.staging a) } }) := by
  refine congrArg Host.Outcome.next ((profileWord t).trans ?_)
  have herr : (val ||| 2).testBit 2 = val.testBit 2 := testBit_or_other val (i := 1) (by decide)
  have hsave : (val ||| 2).testBit 1 = true := testBit_or_same val 1
  have hload : (val ||| 2).testBit 0 = false := (testBit_or_other val (i := 1) (by decide)).trans hv
  have hsel (e : State) (we : Wf e) (v : Nat) : (e.wr p R.PR_CTRL_ERR v).rd p R.PR_SEL_PROF = e.rd p R.PR_SEL_PROF :=
    rd_wr_place we v rfl rfl (by decide)
  simp only [herr, hsave, hload, if_true, Bool.false_eq_true, if_false, State.profSave, self_pr (takes_blk t),
    hsel _ (wf_taken w h p .pr 0x110 (val ||| 2))]
  rfl

theorem exec_keyProgram (w : Wf s) {val : Nat} (ok : Bool) (t : s.takes h p .sec 0x10C (val ||| 1) = true) (hv : bits val 8 8 = 0) :
    exec (.keyProgram h p val ok) s = .next (
      let a := dieOf p - 0x12
      let e := s.taken h p .sec 0x10C (val ||| 1)
      let slot := e.rd p R.SEC_KEY_SEL_SLOT
      let x := e.flashOf a
      if x.fused.testBit slot then e else if !e.nvOk a then e.nvRefuse a else if !ok then e.raise p 4
      else (e.setFlash a { x with keys := put natZero x.keys slot (e.rd p R.SEC_KEYHASH), fused := x.fused + 2 ^ slot }).wr p
        R.SEC_KEY_CTRL_FUSED (x.fused + 2 ^ slot)) := by
  refine congrArg Host.Outcome.next ((keyWord t _).trans ?_)
  have hrevoke : bits (val ||| 1) 8 8 = 0 := (bits_or_outside val (i := 0) (by decide)).trans hv
  have hprogram : (val ||| 1).testBit 0 = true := testBit_or_same val 0
  have hflash (x : Flash) : ((s.taken h p .sec 0x10C (val ||| 1)).setFlash (dieOf p - 0x12) x).flashOf (dieOf p - 0x12) = x :=
    look_put_self _ _ (wf_taken w h p .sec 0x10C (val ||| 1)).flash
  simp only [hrevoke, hprogram, if_true, keyRevoke_none, State.keyProgram, self_sec (takes_blk t), hflash]

theorem exec_keyRevoke {val : Nat} (ok : Bool) (t : s.takes h p .sec 0x10C val = true) (hv : val.testBit 0 = false) :
    exec (.keyRevoke h p val ok) s = .next (
      let a := dieOf p - 0x12
      let e := s.taken h p .sec 0x10C val
      let x := e.flashOf a
      let new := x.revoked ||| bits val 8 8
      if new = x.revoked then e else if !e.nvOk a then e.nvRefuse a else if !ok then e.raise p 4
      else (e.setFlash a { x with revoked := new }).wr p R.SEC_KEY_CTRL_REVOKE new) := by
  refine congrArg Host.Outcome.next ((keyWord t _).trans ?_)
  have hfits : bits val 8 8 % 256 = bits val 8 8 := Nat.mod_eq_of_lt (bits_lt val 8 8)
  simp only [hv, Bool.false_eq_true, if_false, State.keyRevoke, self_sec (takes_blk t), hfits]

theorem exec_lifecycleRequest {val : Nat} (owner ok ok1 : Bool) (t : s.takes h p .sec 0x100 val = true) :
    exec (.lifecycleRequest h p val owner ok ok1) s = .next ((s.taken h p .sec 0x100 val).lifeReq (dieOf p - 0x12) (bits val 8 2) owner ok ok1) :=
  congrArg Host.Outcome.next (takes_list t [R.SEC_LC_REQ, R.SEC_LC_STATE] rfl rfl (by decide) _)

theorem exec_jtagSkip {val : Nat} (t : s.takes h p .sec 0x1E0 val = true) :
    exec (.jtagSkip h p val) s = .next (((s.taken h p .sec 0x1E0 val).wr (secPg 0) R.SEC_JTAG_SKIP (val % 2 ^ 20)).wr (secPg 1) R.SEC_JTAG_SKIP
      (val % 2 ^ 20)) := by
  rw [← bits_low]
  exact congrArg Host.Outcome.next (takes_one t R.SEC_JTAG_SKIP rfl rfl rfl (by decide) {})

end

/-- The requests that R530 lets through, as one chain. -/
theorem lifeReq_eq (e : State) (a v : Nat) (owner ok ok1 : Bool) : e.lifeReq a v owner ok ok1 =
    (let goes (f : State) : State := if f.nvOk 0 && f.nvOk 1 then f.lifeTo a v ok ok1 else f.nvRefuse a
     if v = 1 ∧ e.life = 0 ∧ (e.flashOf a).fused / 4 % 16 ≠ 0 then goes e
     else if v = 2 ∧ e.life = 1 ∧ e.dbgLevel = 3 then goes e
     else if v = 2 ∧ e.life = 1 ∧ e.start.refuse ≤ e.clk.tick then
       (if owner && (e.flashOf a).fused.testBit 6 && !(e.flashOf a).revoked.testBit 6 then goes (e.newNonce a) else (e.newNonce a).authFail a)
     else e) := by
  have hgo (f : State) : (if !(f.nvOk 0 && f.nvOk 1) then f.nvRefuse a else f.lifeTo a v ok ok1) =
      if f.nvOk 0 && f.nvOk 1 then f.lifeTo a v ok ok1 else f.nvRefuse a := by cases f.nvOk 0 && f.nvOk 1 <;> rfl
  have hcounts : ((e.newNonce a).flashOf a).respOk 6 owner = (owner && (e.flashOf a).fused.testBit 6 && !(e.flashOf a).revoked.testBit 6) := rfl
  simp only [State.lifeReq, hgo, hcounts, Bool.and_eq_true, decide_eq_true_eq, and_assoc]
  by_cases hfirst : v = 1 ∧ e.life = 0 ∧ (e.flashOf a).fused / 4 % 16 ≠ 0
  · rw [if_pos hfirst, if_pos hfirst]
  rw [if_neg hfirst, if_neg hfirst]
  by_cases hret : v = 2 ∧ e.life = 1
  · simp only [hret, true_and, and_self, if_true, ← not_lt, ite_not]
  · rw [if_neg hret, if_neg fun k => hret ⟨k.1, k.2.1⟩, if_neg fun k => hret ⟨k.1, k.2.1⟩]

/-- The requests that R531 lets through. -/
theorem dbgReq_eq {p : Nat} (hself : secPg (dieOf p - 0x12) = p) (e : State) (v : Nat) : e.dbgReq (dieOf p - 0x12) v =
    if e.start.scrub.isSome = true ∨ v = e.dbgLevel then e
    else if v < e.dbgLevel then (if e.dbgLevel = 3 then e.scrubStart (dieOf p - 0x12) v else e.setLevel (dieOf p - 0x12) v)
    else if v = 1 then (if e.bit p R.PG_STATUS_KEY_OPEN then e.setLevel (dieOf p - 0x12) 1 else e.dbgFail (dieOf p - 0x12))
    else if e.clk.tick < e.start.refuse ∨ (v = 2 ∧ e.life ≠ 1) ∨ (v = 3 ∧ e.anyRunning = true) then e.dbgFail (dieOf p - 0x12)
    else { e with start := { e.start with respLvl := 4 * (dieOf p - 0x12) + v } } := by
  simp only [State.dbgReq, hself, Bool.or_eq_true, Bool.and_eq_true, decide_eq_true_eq, or_assoc]

/-- Settles O27: one lemma per operation over the row that its taken word is. -/
theorem thermalAndSecurityRegisterWrites : Obligations.ThermalAndSecurityRegisterWrites := by
  unfold Obligations.ThermalAndSecurityRegisterWrites
  intro s h p val ok ok1 owner w
  dsimp only
  refine ⟨exec_sensorForceSet w val, exec_sensorForceClr w, exec_safeClear, exec_driverLimitWrite w, ?age, fun hh => ⟨?safeOff, ?driverOff, ?ageOff⟩,
    exec_profileStagingLoad, exec_profileSave w, exec_keyProgram w ok, exec_keyRevoke ok, ?life, ?debug, ?response, exec_jtagSkip⟩
  case age => exact fun t hh => (exec_ageLogClear t).trans (congrArg Host.Outcome.next (if_pos hh))
  case safeOff => exact fun t => congrArg Host.Outcome.next ((safeWord t).trans (if_neg (ne_true_of_eq_false hh)))
  case driverOff => exact fun t => congrArg Host.Outcome.next ((driverWord t).trans (if_neg (ne_true_of_eq_false hh)))
  case ageOff => exact fun t => (exec_ageLogClear t).trans (congrArg Host.Outcome.next (if_neg (ne_true_of_eq_false hh)))
  case life => exact fun t => (exec_lifecycleRequest owner ok ok1 t).trans (congrArg Host.Outcome.next (lifeReq_eq ..))
  case debug => exact fun t => congrArg Host.Outcome.next ((debugWord t).trans (dbgReq_eq (self_sec (takes_blk t)) ..))
  case response => exact fun t => congrArg Host.Outcome.next (responseWord w rfl rfl t _)

end Sys2Proof.Machine
end

section
/-! SUPPORT. The cadence tree: the shown N, ALIGN and its reports (O35). -/

namespace Sys2Proof.Machine
open Sys2Proof

/-! The fields that report N. -/

/-- An Osier die's part of showing N. -/
def State.showOs (n : Nat) (s : State) (d : Nat) : State := if s.alive (osTop d) then s.wr (osTop d) R.OS_CAD_N n else s

/-- A Hoop die's part of showing N. -/
def State.showHp (n : Nat) (s : State) (h : Nat) : State :=
  (if s.alive (hpTop h) then s.wr (hpTop h) R.HP_CAD_N n else s).wr (thPg (held h)) R.TH_PKG_N_N n

theorem showN_walks (s : State) (n : Nat) : s.showN n = [0, 1].foldl (State.showHp n) (osDies.foldl (State.showOs n) s) := rfl

/-- The fields that showing N writes. -/
def shownFields : List Fld := [R.OS_CAD_N, R.HP_CAD_N, R.TH_PKG_N_N]

section
variable {q : Nat} {g : Fld}

theorem spares_showOs (hg : g.apart [R.OS_CAD_N] = true) (n : Nat) (s : State) (d : Nat) : Spares q g s (s.showOs n d) :=
  .ite (.wr hg List.mem_cons_self s _ n) (.refl q g s)

theorem spares_showHp (hg : g.apart [R.HP_CAD_N, R.TH_PKG_N_N] = true) (n : Nat) (s : State) (h : Nat) : Spares q g s (s.showHp n h) :=
  .trans (.ite (.wr hg List.mem_cons_self s _ n) (.refl q g s)) (.wr hg (List.mem_cons_of_mem _ List.mem_cons_self) _ _ n)

theorem spares_showN (hos : g.apart [R.OS_CAD_N] = true) (hhp : g.apart [R.HP_CAD_N, R.TH_PKG_N_N] = true) (s : State) (n : Nat) :
    Spares q g s (s.showN n) :=
  (Spares.foldl (spares_showOs hos n) osDies s).trans (.foldl (spares_showHp hhp n) [0, 1] _)

end

theorem kept_showOs (n : Nat) (s : State) (d : Nat) : Kept s (s.showOs n d) := Kept.ite (kept_wr (Kept.refl s) ..) (Kept.refl s)

theorem kept_showHp (n : Nat) (s : State) (h : Nat) : Kept s (s.showHp n h) := kept_wr (Kept.ite (kept_wr (Kept.refl s) ..) (Kept.refl s)) ..

/-- The state but for its registers. -/
def State.sansRegs (s : State) : State := { s with regs := [] }

theorem alive_of_sansRegs {s t : State} (h : t.sansRegs = s.sansRegs) (p : Nat) : t.alive p = s.alive p := (congrArg (State.alive · p) h :)

theorem with_regs {s t : State} (h : t.sansRegs = s.sansRegs) (m : Sparse Nat) : { t with regs := m } = { s with regs := m } :=
  congrArg (fun u : State => { u with regs := m }) h

theorem clk_of_sansRegs {s t : State} (h : t.sansRegs = s.sansRegs) : t.clk = s.clk := (congrArg State.clk h :)

theorem cad_of_sansRegs {s t : State} (h : t.sansRegs = s.sansRegs) : t.cad = s.cad := (congrArg State.cad h :)

theorem notes_of_sansRegs {s t : State} (h : t.sansRegs = s.sansRegs) : t.notes = s.notes := (congrArg State.notes h :)

theorem sansRegs_showOs (n : Nat) (s : State) (d : Nat) : (s.showOs n d).sansRegs = s.sansRegs := by unfold State.showOs; split <;> rfl

theorem sansRegs_showHp (n : Nat) (s : State) (h : Nat) : (s.showHp n h).sansRegs = s.sansRegs := by unfold State.showHp; split <;> rfl

theorem sansRegs_walkOs (n : Nat) (s : State) : (osDies.foldl (State.showOs n) s).sansRegs = s.sansRegs :=
  foldl_keeps State.sansRegs (sansRegs_showOs n) osDies s

theorem sansRegs_walkHp (n : Nat) (s : State) : ([0, 1].foldl (State.showHp n) s).sansRegs = s.sansRegs :=
  foldl_keeps State.sansRegs (sansRegs_showHp n) [0, 1] s

/-- Showing N writes registers only. -/
theorem sansRegs_showN (s : State) (n : Nat) : (s.showN n).sansRegs = s.sansRegs := by
  rw [showN_walks, sansRegs_walkHp, sansRegs_walkOs]

/-- The registers of an Osier die show N. -/
theorem showOs_reads {s : State} (w : Wf s) {n k : Nat} (hn : n < 2 ^ 7) (hk : k < 8) (ha : s.alive (osTop k) = true) :
    (osDies.foldl (State.showOs n) s).rd (osTop k) R.OS_CAD_N = n := by
  have hpage (t : State) (q d : Nat) := alive_of_sansRegs (sansRegs_showOs n t q) (osTop d)
  have hself (t : State) (d : Nat) (wt : Wf t) (hd : (t.showOs n d).alive (osTop d) = true) : (t.showOs n d).rd (osTop d) R.OS_CAD_N = n := by
    rw [hpage] at hd
    rw [State.showOs, if_pos hd]
    exact rd_wr_fits wt _ hn
  have hother (t : State) (q d : Nat) (wt : Wf t) (hq : q ≠ d) (hP : t.alive (osTop d) = true → t.rd (osTop d) R.OS_CAD_N = n)
      (hd : (t.showOs n q).alive (osTop d) = true) : (t.showOs n q).rd (osTop d) R.OS_CAD_N = n := by
    rw [hpage] at hd
    unfold State.showOs
    split
    · exact (rd_wr_page wt n rfl rfl (show osTop d ≠ osTop q by unfold osTop pg; omega)).trans (hP hd)
    · exact hP hd
  have hwalk := foldl_visits (P := fun t d => t.alive (osTop d) = true → t.rd (osTop d) R.OS_CAD_N = n) (f := State.showOs n)
    hself hother (fun t d => (kept_showOs n t d).wf) w (.inl (List.mem_range.mpr hk))
  exact hwalk ((alive_of_sansRegs (sansRegs_walkOs n s) _).trans ha)

/-- A Hoop die's registers show N. -/
def State.hpShows (n : Nat) (s : State) (h : Nat) : Prop :=
  (s.alive (hpTop h) = true → s.rd (hpTop h) R.HP_CAD_N = n) ∧ s.rd (thPg (0x12 + h)) R.TH_PKG_N_N = n

theorem showHp_shows {t : State} (w : Wf t) {n : Nat} (hn : n < 2 ^ 7) (h : Nat) : (t.showHp n h).hpShows n h := by
  constructor
  · intro hd
    rw [alive_of_sansRegs (sansRegs_showHp n t h)] at hd
    rw [State.showHp, if_pos hd]
    exact (rd_wr_place (wf_wr w ..) n rfl rfl (by decide)).trans (rd_wr_fits w _ hn)
  · exact rd_wr_fits ((Kept.ite (kept_wr (Kept.refl t) ..) (Kept.refl t)).wf w) _ hn

theorem showHp_keeps {t : State} (w : Wf t) {n q h : Nat} (hq : q ≠ h) (hP : t.hpShows n h) : (t.showHp n q).hpShows n h := by
  obtain ⟨htop, hth⟩ := hP
  have wtop : Wf (if t.alive (hpTop q) then t.wr (hpTop q) R.HP_CAD_N n else t) := (Kept.ite (kept_wr (Kept.refl t) ..) (Kept.refl t)).wf w
  constructor
  · intro hd
    rw [alive_of_sansRegs (sansRegs_showHp n t q)] at hd
    refine (rd_wr_place wtop n rfl rfl (by decide)).trans ?_
    split
    · exact (rd_wr_page w n rfl rfl (show hpTop h ≠ hpTop q by unfold hpTop pg; omega)).trans (htop hd)
    · exact htop hd
  · refine (rd_wr_page wtop n rfl rfl (show thPg (0x12 + h) ≠ thPg (held q) by unfold thPg held pg; omega)).trans ?_
    split
    · exact (rd_wr_place w n rfl rfl (by decide)).trans hth
    · exact hth

/-- The registers of a Hoop die show N. -/
theorem showHp_reads {s : State} (w : Wf s) {n k : Nat} (hn : n < 2 ^ 7) (hk : k < 2) : ([0, 1].foldl (State.showHp n) s).hpShows n k :=
  foldl_visits (P := fun t h => t.hpShows n h) (f := State.showHp n) (fun _ h wt => showHp_shows wt hn h) (fun _ _ _ wt hq hP => showHp_keeps wt hq hP)
    (fun t h => (kept_showHp n t h).wf) w (.inl (show k ∈ [0, 1] by simp; omega))

/-- Every die that runs shows N, and both thermal pages do. -/
theorem showN_reads {s : State} (w : Wf s) {n : Nat} (hn : n ≤ 64) :
    (∀ k, k < 8 → s.alive (osTop k) = true → (s.showN n).rd (osTop k) R.OS_CAD_N = n) ∧
      (∀ k, k < 2 → s.alive (hpTop k) = true → (s.showN n).rd (hpTop k) R.HP_CAD_N = n) ∧
      (∀ k, k < 2 → (s.showN n).rd (thPg (0x12 + k)) R.TH_PKG_N_N = n) := by
  have hfits : n < 2 ^ 7 := by omega
  have w1 : Wf (osDies.foldl (State.showOs n) s) := (Kept.foldl osDies (fun t d k => k.trans (kept_showOs n t d)) (Kept.refl s)).wf w
  refine ⟨fun k hk ha => ?_, fun k hk ha => (showHp_reads w1 hfits hk).1 ?_, fun k hk => (showHp_reads w1 hfits hk).2⟩
  · exact ((Spares.foldl (spares_showHp (by decide) n) [0, 1] _).rd w1).trans (showOs_reads w hfits hk ha)
  · exact (alive_of_sansRegs (sansRegs_showN s n) _).trans ha

/-! ALIGN's reports. -/

/-- An Osier die's part of an ALIGN: it is counted, and whether it reports shows. -/
def State.alignOs (ok : List Nat) (s : State) (d : Nat) : State :=
  if s.alive (osTop d) then (s.inc (osTop d) R.OS_CAD_ALIGN_CNT).wb (osTop d) R.OS_CAD_ALIGN_OK (ok.contains d) else s

theorem kept_alignOs (ok : List Nat) (s : State) (d : Nat) : Kept s (s.alignOs ok d) :=
  Kept.ite (kept_wb (kept_inc (Kept.refl s) ..) ..) (Kept.refl s)

theorem sansRegs_alignOs (ok : List Nat) (s : State) (d : Nat) : (s.alignOs ok d).sansRegs = s.sansRegs := by unfold State.alignOs; split <;> rfl

theorem sansRegs_walkAlign (ok : List Nat) (s : State) : (osDies.foldl (State.alignOs ok) s).sansRegs = s.sansRegs :=
  foldl_keeps State.sansRegs (sansRegs_alignOs ok) osDies s

theorem alignOs_reads (ok : List Nat) {s : State} (w : Wf s) {k : Nat} (hk : k < 8) (ha : s.alive (osTop k) = true) :
    (osDies.foldl (State.alignOs ok) s).bit (osTop k) R.OS_CAD_ALIGN_OK = ok.contains k := by
  have hpage (t : State) (q d : Nat) := alive_of_sansRegs (sansRegs_alignOs ok t q) (osTop d)
  have hself (t : State) (d : Nat) (wt : Wf t) (hd : (t.alignOs ok d).alive (osTop d) = true) :
      (t.alignOs ok d).bit (osTop d) R.OS_CAD_ALIGN_OK = ok.contains d := by
    rw [hpage] at hd
    rw [State.alignOs, if_pos hd]
    exact bit_wb_self ((kept_inc (Kept.refl t) ..).wf wt) _ _ rfl
  have hother (t : State) (q d : Nat) (wt : Wf t) (hq : q ≠ d) (hP : t.alive (osTop d) = true → t.bit (osTop d) R.OS_CAD_ALIGN_OK = ok.contains d)
      (hd : (t.alignOs ok q).alive (osTop d) = true) : (t.alignOs ok q).bit (osTop d) R.OS_CAD_ALIGN_OK = ok.contains d := by
    rw [hpage] at hd
    unfold State.alignOs
    split
    · have hpages : osTop d ≠ osTop q := by unfold osTop pg; omega
      have hread : ((t.inc (osTop q) R.OS_CAD_ALIGN_CNT).wb (osTop q) R.OS_CAD_ALIGN_OK (ok.contains q)).rd (osTop d) R.OS_CAD_ALIGN_OK =
          t.rd (osTop d) R.OS_CAD_ALIGN_OK :=
        (rd_wr_page ((kept_inc (Kept.refl t) ..).wf wt) _ rfl rfl hpages).trans (rd_wr_page wt _ rfl rfl hpages)
      rw [State.bit, hread]
      exact hP hd
    · exact hP hd
  have hwalk := foldl_visits (P := fun t d => t.alive (osTop d) = true → t.bit (osTop d) R.OS_CAD_ALIGN_OK = ok.contains d) (f := State.alignOs ok)
    hself hother (fun t d => (kept_alignOs ok t d).wf) w (.inl (List.mem_range.mpr hk))
  exact hwalk ((alive_of_sansRegs (sansRegs_walkAlign ok s) _).trans ha)

/-! One lemma per command. -/

theorem exec_cadenceMessage {s : State} {d : Nat} {m : Nat × Nat} (hm : s.cad.msgs.find? (fun m => decide (m.1 = d)) = some m) (good : Bool) :
    exec (.cadenceMessage d good) s = .next (
      let e : State := { s with cad := { s.cad with msgs := s.cad.msgs.erase m } }
      if !good then (if isOsier d && s.alive (osTop d) then e.raise (osTop d) 10 else e)
      else if look natZero s.cad.epochs d ≤ m.2 then { e with cad := { e.cad with epochs := put natZero s.cad.epochs d m.2, taken := true } } else e) := by
  refine congrArg Host.Outcome.next ?_
  rw [hm]
  rfl

/-- The time from which a new N counts: the frame boundary that its message named. -/
def State.toBoundary (s : State) (f : Nat) : State :=
  if s.clk.frame < f then s.passSlots ((f - s.clk.frame) * 64 - s.clk.j) else if s.clk.j = 0 then s else s.toFrame

theorem exec_cadenceApply_taken {s : State} {x : Nat × Nat} (hx : s.cad.nextN = some x) (ht : s.cad.taken = true) :
    ∃ c : Clock, c = { (s.toBoundary x.2).clk with n := x.1 } ∧
      exec .cadenceApply s = .next (({ s with clk := c, cad := { s.cad with nextN := none, msgs := [], taken := false } } : State).showN x.1) := by
  refine ⟨_, rfl, congrArg Host.Outcome.next ?_⟩
  rw [hx]
  simp only [ht, if_true]
  refine congrArg (State.showN · x.1) ?_
  unfold State.toBoundary
  split
  · rfl
  · split <;> rfl

/-- Frame, cycle and N start anew. -/
def State.alignStart (e : State) : State := { e with clk := { e.clk with sub := 0, frame := 0, j := 0, n := 64, cc := 0 } }

/-- The alignment is under way, and the dies of `ok` report it; reports of an earlier attempt are dropped. -/
def State.withReports (u : State) (ok : List Nat) : State :=
  { u with
    cad := { u.cad with alignAt := none, since := u.clk.tick, aligning := true }
    notes := (u.notes.filter fun n => match n.2 with | .align _ _ => false | _ => true) ++ ok.map fun x => (0x12 + u.acting.getD 0, Note.align x true) }

/-- ALIGN's sixteenth edge (R196): time starts anew, the Osier dies note it, every die that is not silent reports. -/
theorem exec_alignEffect {s : State} {k : Nat} (hk : s.cad.alignAt = some k) (silent : List Nat) :
    exec (.alignEffect silent) s = .next (
      let ok := allDies.filter fun x => !silent.contains x
      ((osDies.foldl (State.alignOs ok) (s.toTick (k + 16)).alignStart).withReports ok).showN 64) := by
  show execAlignEffect silent s = _
  unfold execAlignEffect
  rw [hk]
  dsimp only
  generalize (allDies.filter fun x => !silent.contains x) = ok
  generalize osDies = l
  rfl

theorem sansRegs_withReports {s t : State} (h : t.sansRegs = s.sansRegs) (ha : t.acting = s.acting) (ok : List Nat) :
    (t.withReports ok).sansRegs = (s.withReports ok).sansRegs := by
  unfold State.withReports
  have hgiven (c : Clock) (a : CadSt) (l : List (Nat × Note)) :
      ({ t with clk := c, cad := a, notes := l } : State).sansRegs = ({ s with clk := c, cad := a, notes := l } : State).sansRegs :=
    congrArg (fun u : State => { u with clk := c, cad := a, notes := l }) h
  rw [ha, clk_of_sansRegs h, cad_of_sansRegs h, notes_of_sansRegs h]
  exact hgiven _ _ _

/-- A report that a die does not follow fails an alignment under way when it arrives. -/
theorem exec_noticeFrame_fails {s : State} {d x : Nat} {n : Nat × Note} (hn : s.notes.find? (fun n => decide (n.1 = d)) = some n)
    (hx : n.2 = .align x false) (hh : isHoop d = true) (hu : s.hoopUp (d - 0x12) = true) :
    exec (.noticeFrame d) s = .next (
      let e : State := { s with notes := s.notes.erase n }
      if s.cad.aligning then e.alignFail else e) := by
  refine congrArg Host.Outcome.next ?_
  rw [hn]
  simp only [hx]
  exact if_pos (by rw [hh]; exact hu)

theorem alignFail_spec (e : State) : e.alignFail.cad.aligning = false ∧ (¬ (e.rd pkg0 R.PKG_STAGE_STAGE = 2 ∧ 3 ≤ e.cad.attempts) →
    e.alignFail = { e with cad := { e.cad with alignFailed := true, aligning := false } }) := by
  have hcond : (e.rd pkg0 R.PKG_STAGE_STAGE = 2 && 3 ≤ e.cad.attempts) = true ↔ e.rd pkg0 R.PKG_STAGE_STAGE = 2 ∧ 3 ≤ e.cad.attempts := by
    rw [Bool.and_eq_true, decide_eq_true_iff, decide_eq_true_iff]
  refine ⟨?_, fun h => if_neg (mt hcond.mp h)⟩
  unfold State.alignFail
  dsimp only
  split
  · generalize workDies.foldl State.dieReset _ = u
    exact congrArg (fun t : State => t.cad.aligning) (raise_frame (State.wr _ pkg0 _ _) pkg0 1 [] {} [])
  · rfl

/-- The frame of a check: a multiple of 4,096, not before 4,096 (R198). -/
def State.toCheck (s : State) : State :=
  let f := max 1 ((s.clk.frame + 4095) / 4096) * 4096
  if s.clk.frame < f then s.passSlots ((f - s.clk.frame) * 64 - s.clk.j) else s

/-- Die `d` has checked its frame count. -/
def CadSt.withCheck (c : CadSt) (d : Nat) : CadSt :=
  let g : CadSt := { c with checked := d :: c.checked.filter (· ≠ d) }
  if allDies.all g.checked.contains && allDies.all g.alignOk.contains then { g with aligning := false, attempts := 0 } else g

theorem withCheck_checked (c : CadSt) (d : Nat) : (c.withCheck d).checked.contains d = true := by
  unfold CadSt.withCheck
  dsimp only
  split <;> exact List.contains_iff_mem.mpr List.mem_cons_self

theorem withCheck_eq (e : State) (d : Nat) :
    (let g : State := { e with cad := { e.cad with checked := d :: e.cad.checked.filter (· ≠ d) } }
     if allDies.all g.cad.checked.contains && allDies.all g.cad.alignOk.contains then { g with cad := { g.cad with aligning := false, attempts := 0 } } else g)
      = { e with cad := e.cad.withCheck d } := by
  unfold CadSt.withCheck
  dsimp only
  split <;> rfl

theorem exec_frameCheck_agrees {d count : Nat} (hd : d < 20) (s : State) (hc : count = s.toCheck.clk.frame % 65536) :
    exec (.frameCheck d count) s = .next { s.toCheck with cad := s.toCheck.cad.withCheck d } :=
  congrArg Host.Outcome.next ((if_pos hd).trans ((if_pos hc).trans (withCheck_eq s.toCheck d)))

theorem toCheck_pages (s : State) : s.toCheck.pages = s.pages := by
  unfold State.toCheck
  dsimp only
  split <;> rfl

/-- A die whose frame count differs: an Osier die that runs shows and raises it. -/
def State.checkFails (s : State) (d : Nat) : State :=
  if isOsier d && s.alive (osTop d) then (s.toCheck.wb (osTop d) R.OS_CAD_ALIGN_OK false).raise (osTop d) 9 else s.toCheck

theorem exec_frameCheck_differs {d count : Nat} (hd : d < 20) (s : State) (hc : count ≠ s.toCheck.clk.frame % 65536) :
    exec (.frameCheck d count) s = .next { s.checkFails d with
      notes := (s.checkFails d).notes ++ [(0x12 + (s.checkFails d).acting.getD 0, Note.align d false)] } := by
  have hexec : exec (.frameCheck d count) s = .next (
      let e := s.toCheck
      let g := if isOsier d && e.alive (osTop d) then (e.wb (osTop d) R.OS_CAD_ALIGN_OK false).raise (osTop d) 9 else e
      { g with notes := g.notes ++ [(0x12 + g.acting.getD 0, Note.align d false)] }) := congrArg Host.Outcome.next ((if_pos hd).trans (if_neg hc))
  have halive : s.toCheck.alive (osTop d) = s.alive (osTop d) := by
    unfold State.alive State.page
    rw [toCheck_pages]
  dsimp only at hexec
  rw [halive] at hexec
  exact hexec

/-- Which Hoop acts stands where both roles do. -/
theorem acting_of_spares {s t : State} (w : Wf s) (h : ∀ q, Spares q R.HP_ROLE_ROLE s t) : t.acting = s.acting := by
  simp only [State.acting, acts_congr ((h (hpTop 0)).rd w), acts_congr ((h (hpTop 1)).rd w)]

theorem spares_alignOs {q : Nat} {g : Fld} (hg : g.apart [R.OS_CAD_ALIGN_CNT, R.OS_CAD_ALIGN_OK] = true) (ok : List Nat) (s : State) (d : Nat) :
    Spares q g s (s.alignOs ok d) :=
  .ite ((Spares.wr hg List.mem_cons_self s _ _).trans (.wr hg (List.mem_cons_of_mem _ List.mem_cons_self) _ _ _)) (.refl q g s)

/-- Showing N, as a state that differs in registers only and shows N. -/
theorem showN_done {e : State} (w : Wf e) {n : Nat} (hn : n ≤ 64) : ∃ t, e.showN n = t ∧ t.sansRegs = e.sansRegs ∧ (∀ q, Spares q R.OS_CAD_ALIGN_OK e t) ∧
    (∀ k, k < 8 → e.alive (osTop k) = true → t.rd (osTop k) R.OS_CAD_N = n) ∧
    (∀ k, k < 2 → e.alive (hpTop k) = true → t.rd (hpTop k) R.HP_CAD_N = n) ∧ (∀ k, k < 2 → t.rd (thPg (0x12 + k)) R.TH_PKG_N_N = n) :=
  ⟨_, rfl, sansRegs_showN e n, fun _ => spares_showN (by decide) (by decide) e n, showN_reads w hn⟩

theorem clk_cad_back {s t : State} {c : Clock} {a : CadSt} (h : t.sansRegs = ({ s with clk := c, cad := a } : State).sansRegs) :
    { t with clk := s.clk, regs := s.regs, cad := s.cad } = s :=
  congrArg (fun u : State => { u with clk := s.clk, regs := s.regs, cad := s.cad }) h

theorem checkFails_acting {s : State} (w : Wf s) (d : Nat) : (s.checkFails d).acting = s.acting := by
  have hrole : R.HP_ROLE_ROLE.apart [R.OS_CAD_ALIGN_OK] = true := by decide
  have hstat : R.HP_ROLE_ROLE.apart [R.PG_FSTAT_SRC] = true := by decide
  have hcheck (q : Nat) : Spares q R.HP_ROLE_ROLE s s.toCheck := .ite (.of_regs (kept_passSlots (Kept.refl s) _) rfl) (.refl q _ s)
  exact acting_of_spares w fun q => (hcheck q).trans (.ite ((Spares.wr hrole List.mem_cons_self _ _ _).trans (spares_raiseX hstat ..)) (.refl q _ _))

/-- The state when ALIGN takes effect, before the dies note it. -/
theorem wf_alignStart {s : State} (w : Wf s) (n : Nat) : Wf (s.toTick n).alignStart := ((kept_toTick (Kept.refl s) n).upd rfl).wf w

/-- What an ALIGN has done: time anew, N shown, and a report of every die that is not silent. -/
theorem alignEffect_done {s : State} (w : Wf s) {k : Nat} (hk : s.cad.alignAt = some k) (silent : List Nat) :
    let ok := allDies.filter fun x => !silent.contains x
    ∃ t, exec (.alignEffect silent) s = .next t ∧ t.sansRegs = ((s.toTick (k + 16)).alignStart.withReports ok).sansRegs ∧
      (∀ k, k < 8 → s.alive (osTop k) = true → t.bit (osTop k) R.OS_CAD_ALIGN_OK = ok.contains k) ∧
      (∀ k, k < 8 → s.alive (osTop k) = true → t.rd (osTop k) R.OS_CAD_N = 64) ∧
      (∀ k, k < 2 → s.alive (hpTop k) = true → t.rd (hpTop k) R.HP_CAD_N = 64) ∧ (∀ k, k < 2 → t.rd (thPg (0x12 + k)) R.TH_PKG_N_N = 64) := by
  intro ok
  have w0 := wf_alignStart w (k + 16)
  have halive (p : Nat) : (s.toTick (k + 16)).alignStart.alive p = s.alive p := by
    obtain ⟨c, -, hc⟩ := toTick_clk s (k + 16)
    rw [hc]
    rfl
  have hok := fun k hk ha => alignOs_reads ok w0 (k := k) hk ((halive _).trans ha)
  have hexec := exec_alignEffect hk silent
  generalize (s.toTick (k + 16)).alignStart = e at *
  have hwalk : Kept e (osDies.foldl (State.alignOs ok) e) := Kept.foldl osDies (fun t d k => k.trans (kept_alignOs ok t d)) (Kept.refl e)
  have hsans := sansRegs_walkAlign ok e
  have hacts := acting_of_spares w0 fun q => Spares.foldl (spares_alignOs (q := q) (g := R.HP_ROLE_ROLE) (by decide) ok) osDies e
  change exec (.alignEffect silent) s = .next (((osDies.foldl (State.alignOs ok) e).withReports ok).showN 64) at hexec
  generalize osDies.foldl (State.alignOs ok) e = u at *
  have wu : Wf (u.withReports ok) := ((Kept.refl u).upd rfl).wf (hwalk.wf w0)
  obtain ⟨t, ht, htsans, hspares, hos, hhp, hth⟩ := showN_done wu (n := 64) le_rfl
  have hlive (p : Nat) : (u.withReports ok).alive p = s.alive p := (alive_of_sansRegs hsans p).trans (halive p)
  exact ⟨t, hexec.trans (congrArg Host.Outcome.next ht), htsans.trans (sansRegs_withReports hsans hacts ok),
    fun k hk ha => ((hspares _).bit wu).trans (hok k hk ha), fun k hk ha => hos k hk ((hlive _).trans ha), fun k hk ha => hhp k hk ((hlive _).trans ha), hth⟩

/-- Settles O35: what showing N and an ALIGN write is read off their walks over the dies, the rest off the commands' own equations. -/
theorem cadenceTreeCommands : Obligations.CadenceTreeCommands := by
  unfold Obligations.CadenceTreeCommands
  intro s d h delay count silent w shows
  refine ⟨fun m hm => ⟨?good, ?garbled⟩, fun x hx => ⟨fun ht => ?untaken, fun ht hx64 => ?taken⟩, fun hh hd hr => ?issue, fun k hk => ?effect,
    fun hd => ⟨fun hc => ?agrees, fun hc => ?differs⟩, fun n hn x hx hh hu => ?notice, fun x ha hx hc => ?timeout⟩
  case good => exact exec_cadenceMessage hm true
  case garbled => exact exec_cadenceMessage hm false
  case untaken =>
    refine congrArg Host.Outcome.next ?_
    rw [hx]
    simp only [ht, Bool.false_eq_true, if_false]
  case taken =>
    obtain ⟨c, hc, hexec⟩ := exec_cadenceApply_taken hx ht
    have we : Wf { s with clk := c, cad := { s.cad with nextN := none, msgs := [], taken := false } } := ((Kept.refl s).upd rfl).wf w
    obtain ⟨t, ht, hsans, _, hreads⟩ := showN_done we hx64
    exact ⟨t, hexec.trans (congrArg Host.Outcome.next ht), (clk_of_sansRegs hsans).trans hc, hreads, cad_of_sansRegs hsans, clk_cad_back hsans⟩
  case issue =>
    have hgo : (h < 2 && s.drives h && !s.anyRunning) = true := by simp [hh, hd, hr]
    exact congrArg Host.Outcome.next (if_pos hgo)
  case effect =>
    obtain ⟨t, hexec, hsans, hok, hreads⟩ := alignEffect_done w hk silent
    obtain ⟨c, -, hc⟩ := toTick_clk s (k + 16)
    rw [hc] at hsans ⊢
    exact ⟨t, hexec, clk_of_sansRegs hsans, hreads, hok, cad_of_sansRegs hsans, notes_of_sansRegs hsans,
      congrArg (fun u : State => { u with clk := s.clk, regs := s.regs, cad := s.cad, notes := s.notes }) hsans⟩
  case agrees => exact ⟨_, exec_frameCheck_agrees hd s hc, withCheck_checked _ d, rfl⟩
  case differs =>
    refine (exec_frameCheck_differs hd s hc).trans ?_
    rw [checkFails_acting w]
    rfl
  case notice => exact exec_noticeFrame_fails hn hx hh hu
  case timeout =>
    have hgo : (s.cad.aligning && !(allDies.all s.cad.alignOk.contains)) = true := by
      have hout : allDies.all s.cad.alignOk.contains = false :=
        List.all_eq_false.mpr ⟨x, List.mem_range.mpr hx, by simp only [hc, Bool.false_eq_true, not_false_eq_true]⟩
      rw [ha, hout]
      rfl
    obtain ⟨c, -, hclk⟩ := toTick_clk s (s.cad.since + msTicks)
    obtain ⟨hal, hstay⟩ := alignFail_spec (s.toTick (s.cad.since + msTicks))
    refine ⟨_, congrArg Host.Outcome.next (if_pos hgo), hal, fun hn => ?_⟩
    rw [show msTicks = 100000 from rfl] at hclk hstay ⊢
    rw [hclk] at hstay ⊢
    exact hstay hn

end Sys2Proof.Machine
end

section
/-! SUPPORT. What reports, conditions, latches and the engines' own steps leave alone: the state without the parts they write. -/

namespace Sys2Proof.Machine
open Sys2Proof

/-- The state but for what reports write. -/
def State.sansReport (s : State) : State := { s with regs := [], pages := [], flt := {} }

/-- The state but for what reports, latches and border arrivals write. -/
def State.sansLatch (s : State) : State := { s with regs := [], pages := [], flt := {}, engs := [], aud := [], borders := [], wl := [] }

/-- The state but for that and what the dies keep of their sync points. -/
def State.sansDie (s : State) : State := { s with regs := [], pages := [], flt := {}, engs := [], aud := [], borders := [], wl := [], osd := [] }

/-- The state but for that and what the engines move. -/
def State.sansWork (s : State) : State :=
  { s with regs := [], pages := [], flt := {}, engs := [], aud := [], borders := [], wl := [], osd := [], hbm := [], units := [], edges := [],
           offers := [], reqs := [], arrivals := [], freeCtr := 0 }

section
variable {s t : State}

theorem latch_of_report (h : t.sansReport = s.sansReport) : t.sansLatch = s.sansLatch := (congrArg State.sansLatch h :)
theorem die_of_latch (h : t.sansLatch = s.sansLatch) : t.sansDie = s.sansDie := (congrArg State.sansDie h :)
theorem work_of_die (h : t.sansDie = s.sansDie) : t.sansWork = s.sansWork := (congrArg State.sansWork h :)
theorem die_of_report (h : t.sansReport = s.sansReport) : t.sansDie = s.sansDie := die_of_latch (latch_of_report h)
theorem work_of_report (h : t.sansReport = s.sansReport) : t.sansWork = s.sansWork := work_of_die (die_of_report h)
theorem work_of_regs (h : t.sansRegs = s.sansRegs) : t.sansWork = s.sansWork := (congrArg State.sansWork h :)

end

/-! Reports. -/

theorem sansReport_raise (s : State) (p src : Nat) : (s.raise p src).sansReport = s.sansReport := raise_frame s p src [] {} []

theorem sansReport_raiseX (s : State) (p src last extra : Nat) : (s.raiseX p src last extra).sansReport = s.sansReport :=
  raiseX_frame s p src last extra [] {} []

theorem sansReport_meshEvent (s : State) (d src node port : Nat) : (s.meshEvent d src node port).sansReport = s.sansReport :=
  (sansReport_raise ..).trans rfl

theorem sansReport_edgeEvent (s : State) (d src ep : Nat) : (s.edgeEvent d src ep).sansReport = s.sansReport := sansReport_meshEvent ..

theorem sansReport_engErr (s : State) (d e idx src : Nat) : (s.engErr d e idx src).sansReport = s.sansReport := by
  unfold State.engErr
  refine (sansReport_raise ..).trans ?_
  split <;> rfl

/-! What a die keeps of its sync point. -/

theorem sansDie_condNote (s : State) (d c : Nat) : (s.condNote d c).sansDie = s.sansDie := by
  obtain h | ⟨a, b, k, h⟩ := condNote_cases s d c <;> rw [h]
  rfl

theorem sansDie_evtAdd (s : State) (d c n : Nat) : (s.evtAdd d c n).sansDie = s.sansDie := (sansDie_condNote ..).trans rfl

theorem sansDie_evtOpt (s : State) (d : Nat) (e : Option Nat) : (s.evtOpt d e).sansDie = s.sansDie := by
  unfold State.evtOpt
  split
  · rfl
  · exact sansDie_evtAdd ..

/-! What the engines of a die do by themselves. -/

theorem sansWork_putHunit (s : State) (mc u : Nat) (ls : List FLine) : (s.putHunit mc u ls).sansWork = s.sansWork :=
  foldl_keeps State.sansWork (f := fun t (x : Nat × FLine) => t.putHline mc (4 * u + x.1) x.2) (fun _ _ => rfl) _ s

theorem sansWork_digAdd (s : State) (d e : Nat) (g : Option (Nat × Nat)) (ls : List FLine) : (s.digAdd d e g ls).sansWork = s.sansWork := by
  unfold State.digAdd
  split <;> rfl

theorem sansWork_stageFlit (s : State) (d port e c idx : Nat) (ls : List FLine) : (s.stageFlit d port e c idx ls).sansWork = s.sansWork := by
  unfold State.stageFlit
  split
  · rfl
  · split
    · rfl
    · dsimp only
      refine Eq.trans ?_ (work_of_report (sansReport_engErr s d e idx 4))
      split <;> rfl

theorem sansWork_enterUnit (s : State) (w : WUnit) : (s.enterUnit w).sansWork = s.sansWork := by
  unfold State.enterUnit
  refine (work_of_die (sansDie_evtOpt ..)).trans ?_
  split
  · split
    · exact sansWork_putHunit ..
    · rfl
  · refine (sansWork_stageFlit ..).trans ?_
    split <;> rfl
  · exact sansWork_stageFlit ..
  · rfl

theorem sansWork_takeDue (s : State) (d c : Nat) : (s.takeDue d c).sansWork = s.sansWork := by
  refine foldl_keeps State.sansWork (fun t w => ?_) _ s
  dsimp only
  split
  · refine (sansWork_digAdd ..).trans ?_
    split
    · split <;> rfl
    · split
      · rfl
      · exact work_of_report (sansReport_edgeEvent ..)
  · rfl

theorem sansWork_enterDue (s : State) (d k : Nat) : (s.enterDue d k).sansWork = s.sansWork :=
  foldl_keeps State.sansWork sansWork_enterUnit _ _

theorem sansWork_edgesLost (s : State) (d c : Nat) : (s.edgesLost d c).sansWork = s.sansWork :=
  foldl_keeps State.sansWork (fun _ _ => work_of_report (sansReport_edgeEvent ..)) _ _

theorem sansWork_arrivalsLost (s : State) (d c : Nat) : (s.arrivalsLost d c).sansWork = s.sansWork :=
  foldl_keeps State.sansWork (f := fun t (_ : Arrival) => t.draw.1.draw.1.meshEvent d 1 (t.draw.2 % 64) (t.draw.1.draw.2 % 5))
    (fun t _ => (work_of_report (sansReport_meshEvent t.draw.1.draw.1 d 1 _ _)).trans rfl) _ _

/-- What the engines of a die do by themselves touches no tile, no clock and no flit of the mesh. -/
theorem sansWork_settleDie (s : State) (d c : Nat) : (s.settleDie d c).sansWork = s.sansWork :=
  (sansWork_arrivalsLost ..).trans ((sansWork_edgesLost ..).trans ((sansWork_enterDue ..).trans (sansWork_takeDue ..)))

end Sys2Proof.Machine
end

section
/-! SUPPORT. Readiness, arrival, notices, stop and the release (O36). -/

namespace Sys2Proof.Machine
open Sys2Proof

theorem od_setOd_self {s : State} (w : Wf s) (d : Nat) (o : OsDie) : (s.setOd d o).od d = o := look_put_self _ _ w.osd

theorem od_of_report {s t : State} (h : t.sansReport = s.sansReport) (d : Nat) : t.od d = s.od d := (congrArg (State.od · d) h :)

/-! Steps that leave time, tiles and flits alone, and a view of what a die keeps of its sync point. -/

/-- From `s` to `t` only registers, reports, latches, borders and the dies' sync points change, and the view `v` of die `d` does not. -/
structure Steady {β : Type} (d : Nat) (v : OsDie → β) (s t : State) : Prop where
  kept : Kept s t
  rest : t.sansDie = s.sansDie
  view : Wf s → v (t.od d) = v (s.od d)

namespace Steady
variable {β : Type} {d : Nat} {v : OsDie → β} {s t u : State}

theorem refl (d : Nat) (v : OsDie → β) (s : State) : Steady d v s s := ⟨Kept.refl s, rfl, fun _ => rfl⟩

theorem trans (h : Steady d v s t) (k : Steady d v t u) : Steady d v s u :=
  ⟨h.kept.trans k.kept, k.rest.trans h.rest, fun w => (k.view (h.kept.wf w)).trans (h.view w)⟩

theorem of_latch (k : Kept s t) (h : t.sansLatch = s.sansLatch) : Steady d v s t :=
  ⟨k, die_of_latch h, fun _ => (congrArg (fun u : State => v (u.od d)) h :)⟩

theorem wr (s : State) (p : Nat) (f : Fld) (x : Nat) : Steady d v s (s.wr p f x) := of_latch (kept_wr (Kept.refl s) ..) rfl

theorem setBord (s : State) (k : Nat) (x : Border) : Steady d v s (s.setBord k x) := of_latch (kept_setBord (Kept.refl s) ..) rfl

theorem setAu (s : State) (k : Nat) (x : AudSt) : Steady d v s (s.setAu k x) := of_latch (kept_setAu (Kept.refl s) ..) rfl

theorem raise (s : State) (p src : Nat) : Steady d v s (s.raise p src) := of_latch (kept_raise (Kept.refl s) ..) (latch_of_report (sansReport_raise ..))

theorem raiseX (s : State) (p src last extra : Nat) : Steady d v s (s.raiseX p src last extra) :=
  of_latch (kept_raiseX (Kept.refl s) ..) (latch_of_report (sansReport_raiseX ..))

/-- A die's part of the step keeps the view. -/
theorem setOd {o : OsDie} (h : v o = v (s.od d)) : Steady d v s (s.setOd d o) :=
  ⟨kept_setOd (Kept.refl s) .., rfl, fun w => (congrArg v (od_setOd_self w d o)).trans h⟩

theorem ite {c : Prop} [Decidable c] (h : Steady d v s t) (k : Steady d v s u) : Steady d v s (if c then t else u) := by
  split
  · exact h
  · exact k

theorem foldl {α : Type} {f : State → α → State} (hf : ∀ t x, Steady d v t (f t x)) (l : List α) (s : State) : Steady d v s (l.foldl f s) := by
  induction l generalizing s with
  | nil => exact refl d v s
  | cons x l ih => exact (hf s x).trans (ih _)

end Steady

/-! Readiness (R210). -/

/-- Where a die stands: its readiness, the sync it waits at, whether that is program end, whether its IDs differ, and its arrival. -/
def OsDie.point (o : OsDie) : Option Nat × Nat × Bool × Bool × Option Nat := (o.ready, o.waitId, o.waitEnd, o.mismatch, o.arrive)

theorem steady_condNote (s : State) (d c : Nat) : Steady d OsDie.point s (s.condNote d c) := by
  obtain h | ⟨a, b, k, h⟩ := condNote_cases s d c <;> rw [h]
  · exact .refl ..
  · exact .setOd rfl

theorem steady_breakMatch (s : State) (d id : Nat) : Steady d OsDie.point s (s.breakMatch d id) := by
  unfold State.breakMatch
  dsimp only
  refine .ite ?_ (.refl ..)
  refine .trans (t := s.setAu d _) (.setAu ..) (.ite ?_ (.refl ..))
  exact (Steady.wr _ _ _ _).trans ((Steady.wr _ _ _ _).trans (.setOd rfl))

/-- The die once it is ready. -/
theorem becomeReady_point {s : State} (w : Wf s) (d c id : Nat) (isEnd mis : Bool) :
    ((s.becomeReady d c id isEnd mis).od d).point = (some c, id, isEnd, mis, none) ∧ (s.becomeReady d c id isEnd mis).sansDie = s.sansDie := by
  unfold State.becomeReady
  dsimp only
  generalize hu : s.setOd d _ = u
  have hpoint : (u.od d).point = (some c, id, isEnd, mis, none) := by
    rw [← hu, od_setOd_self w]
    rfl
  have wu : Wf u := hu ▸ (kept_setOd (Kept.refl s) ..).wf w
  have hrest : u.sansDie = s.sansDie := hu ▸ rfl
  suffices h : Steady d OsDie.point u _ from ⟨(h.view wu).trans hpoint, h.rest.trans hrest⟩
  refine .trans ?_ (.foldl (fun t k => steady_condNote t d k) _ _)
  refine .trans ?_ (steady_condNote _ d c)
  refine .trans ?_ (.ite (.refl ..) (steady_breakMatch _ d id))
  refine .trans ?_ (.ite (.raiseX _ pkg2 4 _ _) (.refl ..))
  refine .trans ?_ (.ite (.setBord ..) (.refl ..))
  exact .wr ..

/-! Flits left at readiness (R203, R210). -/

theorem mesh_of_report {s t : State} (h : t.sansReport = s.sansReport) : t.mesh = s.mesh := (congrArg State.mesh h :)
theorem edges_of_report {s t : State} (h : t.sansReport = s.sansReport) : t.edges = s.edges := (congrArg State.edges h :)
theorem tiles_of_report {s t : State} (h : t.sansReport = s.sansReport) : t.tiles = s.tiles := (congrArg State.tiles h :)

/-- Losing the flits at routers. -/
def State.meshGone (s : State) (d : Nat) : State :=
  (s.mesh.filter fun f => decide (f.die = d)).foldl (fun s f => s.meshEvent d 1 f.node f.port) { s with mesh := s.mesh.filter fun f => !decide (f.die = d) }

/-- Losing the flits on the way to a tile. -/
def State.tileGone (d : Nat) (s : State) (t : Nat) : State :=
  let n := (s.tile d t).flitIn
  if n.isEmpty then s else n.foldl (fun s _ => s.meshEvent d 1 t 4) (s.setTile d t { s.tile d t with flitIn := [] })

/-- Losing the flits at edge endpoints. -/
def State.edgeGone (s : State) (d : Nat) : State :=
  (s.edges.filter fun f => decide (f.die = d)).foldl (fun s f => s.edgeEvent d 1 f.edge) { s with edges := s.edges.filter fun f => !decide (f.die = d) }

/-- Losing the flits on the way to the tiles of `l`. -/
def State.tilesGone (s : State) (d : Nat) (l : List Nat) : State := l.foldl (State.tileGone d) s

theorem meshLost_steps (s : State) (d : Nat) : ∃ l, s.meshLost d = ((s.meshGone d).tilesGone d l).edgeGone d := ⟨List.range 64, rfl⟩

theorem meshGone_report (s : State) (d : Nat) : (s.meshGone d).sansReport = ({ s with mesh := s.mesh.filter fun f => !decide (f.die = d) } : State).sansReport :=
  foldl_keeps State.sansReport (fun _ _ => sansReport_meshEvent ..) _ _

theorem edgeGone_report (s : State) (d : Nat) : (s.edgeGone d).sansReport = ({ s with edges := s.edges.filter fun f => !decide (f.die = d) } : State).sansReport :=
  foldl_keeps State.sansReport (fun _ _ => sansReport_edgeEvent ..) _ _

theorem tileGone_report (d : Nat) (s : State) (t : Nat) :
    (s.tileGone d t).sansReport = s.sansReport ∨ (s.tileGone d t).sansReport = (s.setTile d t { s.tile d t with flitIn := [] }).sansReport := by
  unfold State.tileGone
  dsimp only
  split
  · exact .inl rfl
  · exact .inr (foldl_keeps State.sansReport (fun _ _ => sansReport_meshEvent ..) _ _)

theorem tileGone_flits (d : Nat) (s : State) (t : Nat) : (s.tileGone d t).mesh = s.mesh ∧ (s.tileGone d t).edges = s.edges := by
  obtain h | h := tileGone_report d s t
  · exact ⟨mesh_of_report h, edges_of_report h⟩
  · exact ⟨(mesh_of_report h).trans rfl, (edges_of_report h).trans rfl⟩

theorem tileGone_heldId {s : State} (w : Wf s) (d t k : Nat) : ((s.tileGone d t).tile d k).heldId = (s.tile d k).heldId := by
  obtain h | h := tileGone_report d s t
  · rw [State.tile, tiles_of_report h]
    rfl
  · rw [State.tile, tiles_of_report h]
    change ((s.setTile d t _).tile d k).heldId = _
    by_cases hk : k = t
    · rw [hk, tile_setTile_self w]
    · rw [tile_setTile_ne w hk]

theorem kept_tileGone (d : Nat) (s : State) (t : Nat) : Kept s (s.tileGone d t) := by
  unfold State.tileGone
  exact Kept.ite (Kept.refl s) (Kept.foldl _ (fun _ _ h => kept_meshEvent h ..) (kept_setTile (Kept.refl s) ..))

theorem kept_meshGone (s : State) (d : Nat) : Kept s (s.meshGone d) := Kept.foldl _ (fun _ _ h => kept_meshEvent h ..) ((Kept.refl s).upd rfl)

theorem not_mem_filter_die {α : Type} (die : α → Nat) (l : List α) (d : Nat) : ∀ x ∈ l.filter fun f => !decide (die f = d), die x ≠ d := by
  intro x hx
  simpa using (List.mem_filter.mp hx).2

theorem tilesGone_mesh (s : State) (d : Nat) (l : List Nat) : (s.tilesGone d l).mesh = s.mesh := foldl_keeps State.mesh (fun t k => (tileGone_flits d t k).1) l s

theorem tilesGone_heldId {s : State} (w : Wf s) (d : Nat) (l : List Nat) (k : Nat) : ((s.tilesGone d l).tile d k).heldId = (s.tile d k).heldId :=
  foldl_keeps_wf (fun t => (t.tile d k).heldId) (fun t x => (kept_tileGone d t x).wf) (fun _ x wt => tileGone_heldId wt d x k) l w

theorem tile_of_tiles {s t : State} (h : t.tiles = s.tiles) (d k : Nat) : t.tile d k = s.tile d k := congrArg (look tileZero · (d * 64 + k)) h

/-- At readiness no flit of the die is left in the mesh or at its edges, and its tiles stand. -/
theorem meshLost_spec {s : State} (w : Wf s) (d : Nat) : (∀ x ∈ (s.meshLost d).mesh, x.die ≠ d) ∧ (∀ x ∈ (s.meshLost d).edges, x.die ≠ d) ∧
    ∀ k, ((s.meshLost d).tile d k).heldId = (s.tile d k).heldId := by
  obtain ⟨l, hl⟩ := meshLost_steps s d
  have hedge := edgeGone_report ((s.meshGone d).tilesGone d l) d
  rw [hl]
  refine ⟨?_, ?_, fun k => ?_⟩
  · rw [mesh_of_report hedge]
    dsimp only
    rw [tilesGone_mesh, mesh_of_report (meshGone_report s d)]
    exact not_mem_filter_die MeshFlit.die _ d
  · rw [edges_of_report hedge]
    exact not_mem_filter_die EdgeFlit.die _ d
  · rw [tile_of_tiles (tiles_of_report hedge)]
    refine (tilesGone_heldId ((kept_meshGone s d).wf w) d l k).trans ?_
    rw [tile_of_tiles (tiles_of_report (meshGone_report s d))]
    rfl

/-- The state of a die in which everything it waited for has ended: time is at `c`, what was due by then is done, and its flits are gone. -/
def State.atReady (s : State) (d c : Nat) : State := ((s.toCc c).settleDie d (c + 1)).meshLost d

theorem atReady_spec {s : State} (w : Wf s) (d c : Nat) : Wf (s.atReady d c) ∧ (∀ x ∈ (s.atReady d c).mesh, x.die ≠ d) ∧
    (∀ x ∈ (s.atReady d c).edges, x.die ≠ d) ∧ ∀ k, ((s.atReady d c).tile d k).heldId = (s.tile d k).heldId := by
  have wsettle : Wf ((s.toCc c).settleDie d (c + 1)) := (kept_settleDie (kept_toCc (Kept.refl s) c) d (c + 1)).wf w
  obtain ⟨hmesh, hedges, htiles⟩ := meshLost_spec wsettle d
  have hsettled : ((s.toCc c).settleDie d (c + 1)).tiles = s.tiles := by
    refine (congrArg State.tiles (sansWork_settleDie (s.toCc c) d (c + 1)) :).trans ?_
    rw [toCc_clk s c]
    rfl
  exact ⟨(kept_meshLost (Kept.refl _) d).wf wsettle, hmesh, hedges, fun k => (htiles k).trans (by unfold State.tile; rw [hsettled])⟩

/-- Die `d` runs, waits at no sync, and has every engine at its marker and every enabled tile in `st`. -/
def State.quietAt (s : State) (d m : Nat) (st : TileSt) : Prop :=
  s.engMarks d = some m ∧ s.prog d = 2 ∧ (s.od d).ready = none ∧ (s.od d).stopping = false ∧ ∀ k ∈ s.enTiles d, (s.tile d k).st = st

theorem quietAt_cond {s : State} {d m : Nat} {st : TileSt} (q : s.quietAt d m st) :
    (s.prog d = stRunning && (s.od d).ready.isNone && !(s.od d).stopping && (s.enTiles d).all fun t => decide ((s.tile d t).st = st)) = true := by
  obtain ⟨_, hprog, hready, hstop, htiles⟩ := q
  have hall : ((s.enTiles d).all fun t => decide ((s.tile d t).st = st)) = true := List.all_eq_true.mpr fun k hk => decide_eq_true (htiles k hk)
  rw [hprog, hready, hstop, hall]
  rfl

/-- The cycle of the last of a die's tiles and engines. -/
def State.lastCc (s : State) (d m : Nat) : Nat := (s.enTiles d).foldl (fun a k => max a (s.tile d k).clk) (max m (s.od d).phaseCc)

theorem dieReady_eq {s : State} {d m : Nat} (q : s.quietAt d m .held) : s.dieReady d =
    (let ids := (s.enTiles d).map fun t => ((s.atReady d (s.lastCc d m)).tile d t).heldId
     let mis := ids.any fun i => !(i == ids.headD 0)
     let t := (s.atReady d (s.lastCc d m)).becomeReady d (s.lastCc d m) (ids.headD 0) false mis
     if mis then t.raise (osTop d) 4 else t) := by
  have hmarks := q.1
  unfold State.dieReady
  simp only [hmarks]
  exact if_pos (quietAt_cond q)

theorem programEnd_eq {s : State} {d m : Nat} (q : s.quietAt d m .idle) :
    s.programEnd d = (s.atReady d (s.lastCc d m)).becomeReady d (s.lastCc d m) 0 true false := by
  have hmarks := q.1
  unfold State.programEnd
  simp only [hmarks]
  exact if_pos (quietAt_cond q)

/-- The die is ready in cycle `c`, at sync `id` or at program end, with no flit of its own left. -/
def State.isReady (t : State) (d c id : Nat) (isEnd mis : Bool) : Prop :=
  (t.od d).ready = some c ∧ (t.od d).waitId = id ∧ (t.od d).waitEnd = isEnd ∧ (t.od d).mismatch = mis ∧ (t.od d).arrive = none ∧
    (∀ x ∈ t.mesh, x.die ≠ d) ∧ (∀ x ∈ t.edges, x.die ≠ d)

theorem isReady_of_point {s t : State} {d c id : Nat} {isEnd mis : Bool} (hp : (t.od d).point = (some c, id, isEnd, mis, none))
    (hr : t.sansDie = s.sansDie) (hm : ∀ x ∈ s.mesh, x.die ≠ d) (he : ∀ x ∈ s.edges, x.die ≠ d) : t.isReady d c id isEnd mis := by
  simp only [OsDie.point, Prod.mk.injEq] at hp
  obtain ⟨hready, hid, hend, hmis, harrive⟩ := hp
  have hmesh : t.mesh = s.mesh := (congrArg State.mesh hr :)
  have hedges : t.edges = s.edges := (congrArg State.edges hr :)
  exact ⟨hready, hid, hend, hmis, harrive, hmesh ▸ hm, hedges ▸ he⟩

theorem dieReady_isReady {s : State} (w : Wf s) {d m : Nat} (q : s.quietAt d m .held) :
    let ids := (s.enTiles d).map fun k => (s.tile d k).heldId
    (s.dieReady d).isReady d (s.lastCc d m) (ids.headD 0) false (ids.any fun i => !(i == ids.headD 0)) := by
  obtain ⟨wr, hmesh, hedges, hheld⟩ := atReady_spec w d (s.lastCc d m)
  rw [dieReady_eq q]
  simp only [hheld]
  generalize (s.enTiles d).map (fun k => (s.tile d k).heldId) = ids
  obtain ⟨hpoint, hrest⟩ := becomeReady_point wr d (s.lastCc d m) (ids.headD 0) false (ids.any fun i => !(i == ids.headD 0))
  generalize (s.atReady d (s.lastCc d m)).becomeReady d (s.lastCc d m) (ids.headD 0) false (ids.any fun i => !(i == ids.headD 0)) = t at *
  split
  · have hreport := sansReport_raise t (osTop d) 4
    exact isReady_of_point ((congrArg OsDie.point (od_of_report hreport d)).trans hpoint) ((die_of_report hreport).trans hrest) hmesh hedges
  · exact isReady_of_point hpoint hrest hmesh hedges

theorem programEnd_isReady {s : State} (w : Wf s) {d m : Nat} (q : s.quietAt d m .idle) : (s.programEnd d).isReady d (s.lastCc d m) 0 true false := by
  obtain ⟨wr, hmesh, hedges, _⟩ := atReady_spec w d (s.lastCc d m)
  rw [programEnd_eq q]
  obtain ⟨hpoint, hrest⟩ := becomeReady_point wr d (s.lastCc d m) 0 true false
  exact isReady_of_point hpoint hrest hmesh hedges

/-! Arrival (R210). -/

theorem od_toCc (s : State) (c d : Nat) : (s.toCc c).od d = s.od d := (congrArg (State.od · d) (toCc_clk s c) :)

theorem dieArrive_eq {s : State} {d r a b br : Nat} (hr : (s.od d).ready = some r) (ha : (s.od d).metA = some a) (hb : (s.od d).metB = some b)
    (hbr : (if (s.od d).waitEnd || !syncBorder (s.syncEntry d) then some 0 else (s.bord d).released) = some br)
    (hgo : ((s.od d).arrive.isSome || (s.od d).stopping || (s.od d).brkHit || (s.od d).noArrive || (s.od d).doubt || (s.od d).mismatch || s.portDown d) = false) :
    s.dieArrive d =
      (let o := s.od d
       let e := s.syncEntry d
       let c := max (max r (max a b)) (max br o.freeAt)
       let cond := if c = r then 0 else if br = c && syncBorder e && !o.waitEnd then 3 else if b = c && (syncB e).2 ≠ 0 then 2
         else if a = c && (syncA e).2 ≠ 0 then 1 else 0
       (s.toCc c).setOd d { o with arrive := some c, condLast := cond }) := by
  unfold State.dieArrive
  simp only [hr, ha, hb, hbr, hgo, od_toCc]
  rfl

/-! Notices (R211). -/

theorem sansLatch_auditLatch (s : State) (d id l : Nat) : (s.auditLatch d id l).sansLatch = s.sansLatch := by
  unfold State.auditLatch
  dsimp only
  refine (foldl_keeps State.sansLatch ?step _ _).trans ?_
  case step => exact fun _ _ => rfl
  split <;> rfl

theorem sansLatch_borderForm (s : State) (d : Nat) : (s.borderForm d).sansLatch = s.sansLatch := by
  unfold State.borderForm
  dsimp only
  split
  · split <;> rfl
  · rfl

theorem sansLatch_borderSend (s : State) (d tick : Nat) : (s.borderSend d tick).sansLatch = s.sansLatch := by
  unfold State.borderSend
  dsimp only
  refine (sansLatch_borderForm ..).trans ((foldl_keeps State.sansLatch ?step _ _).trans ?_)
  case step => exact fun _ _ => rfl
  rfl

/-- What a die has heard: the notices, whether IDs differ, and its own readiness. -/
def OsDie.heardPart (o : OsDie) : List Notice × Bool × Option Nat := (o.notices, o.mismatch, o.ready)

theorem steady_borderSend {d : Nat} (s : State) (tick : Nat) : Steady d OsDie.heardPart s (s.borderSend d tick) :=
  .of_latch (kept_borderSend (Kept.refl s) ..) (sansLatch_borderSend ..)

theorem steady_auditLatch {d : Nat} (s : State) (id l : Nat) : Steady d OsDie.heardPart s (s.auditLatch d id l) :=
  .of_latch (kept_auditLatch (Kept.refl s) ..) (sansLatch_auditLatch ..)

/-- The digest latch of a die that knows L0 (R319). -/
def State.digestDue (s : State) (d : Nat) : State :=
  let o := s.od d
  match o.l0 with
  | some l =>
    if o.latched || o.waitEnd || o.mismatch then s
    else
      let s := s.setOd d { o with latched := true }
      let s := if s.prog d = stLoaded then s.wr (stPg d 0) R.ST_DLAT_STAT_SEQ 0 else s
      if s.idMask R.PKG_AUDIT_MASK o.waitId then s.auditLatch d o.waitId l else s
  | none => s

/-- The border arrival of a die that knows L1 (R309). -/
def State.arrivalDue (s : State) (d : Nat) : State :=
  let o := s.od d
  match o.l1 with
  | some l => if o.waitEnd || !syncBorder (s.syncEntry d) || (s.bord d).sent then s else s.borderSend d l.2
  | none => s

theorem steady_digestDue (s : State) (d : Nat) : Steady d OsDie.heardPart s (s.digestDue d) := by
  unfold State.digestDue
  dsimp only
  split
  · refine .ite (.refl ..) ?_
    have hset : Steady d OsDie.heardPart s (s.setOd d { s.od d with latched := true }) := .setOd rfl
    refine hset.trans (.trans (.ite (.wr _ (stPg d 0) R.ST_DLAT_STAT_SEQ 0) (.refl ..)) (.ite (steady_auditLatch _ _ _) (.refl ..)))
  · exact .refl ..

theorem steady_arrivalDue (s : State) (d : Nat) : Steady d OsDie.heardPart s (s.arrivalDue d) := by
  unfold State.arrivalDue
  dsimp only
  split
  · exact .ite (.refl ..) (steady_borderSend _ _)
  · exact .refl ..

/-- A die takes in what the sync field has brought. -/
theorem learn_spec {s : State} (w : Wf s) {d r : Nat} (hr : (s.od d).ready = some r) :
    let ns := osDies.filterMap (s.heard d)
    let mis := ns.any fun n => decide (n.id ≠ (s.od d).waitId) || (n.isEnd != (s.od d).waitEnd) || (s.od n.die).mismatch
    ((s.learn d).od d).heardPart = (ns, (s.od d).mismatch || mis, some r) ∧ (s.learn d).sansDie = s.sansDie := by
  intro ns mis
  have hsteps : s.learn d = ((if mis && !(s.od d).mismatch then (s.setOd d { s.od d with notices := ns, mismatch := (s.od d).mismatch || mis }).raise (osTop d) 4
      else s.setOd d { s.od d with notices := ns, mismatch := (s.od d).mismatch || mis }).digestDue d).arrivalDue d := by
    unfold State.learn
    dsimp only
    split
    · rename_i hnone
      exact absurd (hnone.symm.trans hr) (by simp)
    · rfl
  rw [hsteps]
  have wu : Wf (s.setOd d { s.od d with notices := ns, mismatch := (s.od d).mismatch || mis }) := (kept_setOd (Kept.refl s) ..).wf w
  have hheard : ((s.setOd d { s.od d with notices := ns, mismatch := (s.od d).mismatch || mis }).od d).heardPart = (ns, (s.od d).mismatch || mis, some r) := by
    rw [od_setOd_self w, ← hr]
    rfl
  have h : Steady d OsDie.heardPart (s.setOd d { s.od d with notices := ns, mismatch := (s.od d).mismatch || mis }) _ :=
    .trans (.ite (c := (mis && !(s.od d).mismatch) = true) (.raise _ (osTop d) 4) (.refl ..)) ((steady_digestDue _ d).trans (steady_arrivalDue _ d))
  exact ⟨(h.view wu).trans hheard, h.rest.trans rfl⟩

/-! Timeout, stop and release (R211-R215, R219). -/

theorem exec_syncTimeout {s : State} {d r : Nat} (hd : d < 8) (ha : s.alive (osTop d) = true) (hr : (s.od d).ready = some r) (ht : (s.od d).tmoSaid = false)
    (hms : s.rd (osTop d) R.OS_SYNC_TMO_MS ≠ 0) :
    exec (.syncTimeout d) s = .next (((s.toTick ((s.od d).readyTick + s.rd (osTop d) R.OS_SYNC_TMO_MS * 100000)).setOd d
      { s.od d with tmoSaid := true }).raise (osTop d) 5) := by
  refine congrArg Host.Outcome.next (if_pos ?_)
  rw [decide_eq_true hd, ha, hr, ht, decide_eq_true hms]
  rfl

/-- The state but for registers, borders and the dies' sync points. -/
def State.sansStop (s : State) : State := { s with regs := [], osd := [], borders := [] }

/-- The registers of a die that has stopped. -/
def State.stoppedRegs (s : State) (d : Nat) : State :=
  ((if s.prog d = 0 then s else s.wr (osTop d) R.OS_PROG_STAT_STATE 1).wb (osTop d) R.OS_PROG_CTRL_STOP false).wb (osTop d) R.OS_PROG_CTRL_ARM false

theorem stoppedRegs_reads {s : State} (w : Wf s) (d : Nat) : (s.stoppedRegs d).prog d = (if s.prog d = 0 then 0 else 1) ∧
    (s.stoppedRegs d).bit (osTop d) R.OS_PROG_CTRL_STOP = false ∧ (s.stoppedRegs d).bit (osTop d) R.OS_PROG_CTRL_ARM = false := by
  have w1 : Wf (if s.prog d = 0 then s else s.wr (osTop d) R.OS_PROG_STAT_STATE 1) := (Kept.ite (Kept.refl s) (kept_wr (Kept.refl s) ..)).wf w
  have w2 := wf_wb w1 (osTop d) R.OS_PROG_CTRL_STOP false
  refine ⟨?_, ?_, bit_wb_self w2 _ _ rfl⟩
  · refine (prog_wb_ctrl w2 _ d false (by decide)).trans ((prog_wb_ctrl w1 _ d false (by decide)).trans ?_)
    split
    · assumption
    · exact rd_wr_fits w _ (by decide)
  · exact (bit_wr_place w2 _ rfl rfl (by decide)).trans (bit_wb_self w1 _ _ rfl)

theorem stopComplete_eq {s : State} {d : Nat} (hs : (s.od d).stopping = true) (he : ∀ e, e < 16 → (s.eng d e).abort = false) (hc : (s.ce d).abort = false) :
    ∃ b, s.stopComplete d = ((s.stoppedRegs d).setBord d b).setOd d { s.od d with stopping := false, noArrive := false, doubt := false, brkHit := false } := by
  have hall : ((List.range 16).all fun e => !(s.eng d e).abort) = true := List.all_eq_true.mpr fun e h => by rw [he e (List.mem_range.mp h)]; rfl
  have hod : (s.stoppedRegs d).od d = s.od d := by unfold State.stoppedRegs; split <;> rfl
  rw [← hod]
  exact ⟨{ (s.stoppedRegs d).bord d with seq := 0, own := none, sent := false, tr := none, released := none, bad := false, held := [] },
    if_pos (by rw [hs, hall, hc]; rfl)⟩

/-- The release cycle: the first multiple of 8 at or after 60 cycles past the latest arrival. -/
theorem releaseAt_spec (l : Nat) : releaseAt l % 8 = 0 ∧ l + 60 ≤ releaseAt l ∧ releaseAt l < l + 68 := by
  unfold releaseAt
  omega

/-- Die `d` has arrived at the sync that die 0 waits at, without a mismatch. -/
def State.arrivedWith (s : State) (d : Nat) : Prop :=
  (s.od d).arrive ≠ none ∧ (s.od d).mismatch = false ∧ (s.od d).waitId = (s.od 0).waitId ∧ (s.od d).waitEnd = (s.od 0).waitEnd

theorem release_cond (s : State) (ha : ∀ d, d < 8 → s.alive (osTop d) = true) :
    (osDies.all (fun d => s.alive (osTop d)) && (osDies.map s.od).all (fun o => o.arrive.isSome && !o.mismatch)
      && (osDies.map s.od).all (fun o => decide (o.waitId = (s.od 0).waitId) && (o.waitEnd == (s.od 0).waitEnd))) = true ↔ ∀ d, d < 8 → s.arrivedWith d := by
  have halive : osDies.all (fun d => s.alive (osTop d)) = true := List.all_eq_true.mpr fun d hd => ha d (List.mem_range.mp hd)
  rw [halive]
  simp only [osDies, List.all_map, Bool.true_and, Bool.and_eq_true, List.all_eq_true, List.mem_range, Function.comp, decide_eq_true_eq, beq_iff_eq,
    Bool.not_eq_true', Option.isSome_iff_ne_none, State.arrivedWith]
  exact ⟨fun h d hd => ⟨(h.1 d hd).1, (h.1 d hd).2, h.2 d hd⟩, fun h => ⟨fun d hd => ⟨(h d hd).1, (h d hd).2.1⟩, fun d hd => (h d hd).2.2⟩⟩

theorem foldl_max_map (l : List Nat) (f : Nat → OsDie) (g : OsDie → Nat) :
    (l.map f).foldl (fun a o => max a (g o)) 0 = (l.map fun d => g (f d)).foldl max 0 := by
  rw [List.foldl_map, List.foldl_map]

/-- What a release of all dies at `rel` does, `l` being the latest arrival and `l0` the latest readiness. -/
def State.releaseAll (s : State) (l l0 rel : Nat) : State :=
  let e := osDies.foldl State.learn (s.toCc rel)
  let last := (osDies.find? fun d => decide ((e.od d).arrive = some l)).getD 0
  let e1 := if e.prog 0 = 1 then e.wr pkg2 R.PKG_BORDER_SEQ 0 else e
  let e2 := if (e.od 0).waitEnd = false ∧ syncBorder (e.syncEntry 0) = true then e1.addWrap pkg2 R.PKG_BORDER_SEQ 1 else e1
  let f := osDies.foldl (fun (t : State) d => t.releaseDie d rel (rel - releaseAt l0) last (e.od last).condLast) e2
  f.wr pkg2 R.PKG_STEP (f.au 0).step

theorem syncRelease_eq {s : State} (ha : ∀ d, d < 8 → s.alive (osTop d) = true) (h : ∀ d, d < 8 → s.arrivedWith d) :
    let l := (osDies.map fun d => (s.od d).arrive.getD 0).foldl max 0
    let l0 := (osDies.map fun d => (s.od d).ready.getD 0).foldl max 0
    s.syncRelease = s.releaseAll l l0 (releaseAt l) := by
  intro l l0
  refine (if_pos ((release_cond s ha).mpr h)).trans ?_
  unfold State.releaseAll
  rw [foldl_max_map osDies s.od fun o => o.arrive.getD 0, foldl_max_map osDies s.od fun o => o.ready.getD 0]
  generalize osDies.foldl State.learn (s.toCc (releaseAt l)) = e
  simp only [Bool.and_eq_true, Bool.not_eq_true', decide_eq_true_eq]
  rfl

/-- What the border condition asks for: nothing, or the release of the die's border (R210). -/
theorem border_met {o : OsDie} {border : Bool} {released : Option Nat} {br : Nat}
    (h : br = 0 ∧ (o.waitEnd = true ∨ border = false) ∨ o.waitEnd = false ∧ border = true ∧ released = some br) :
    (if o.waitEnd || !border then some 0 else released) = some br := by
  rcases h with ⟨rfl, hend | hb⟩ | ⟨hend, hb, hr⟩
  · simp [hend]
  · simp [hb]
  · simp [hend, hb, hr]

/-- Settles O36: a die's part is read off the view that each step keeps, the release off its condition and its cycle. -/
theorem syncPointsAndRelease : Obligations.SyncPointsAndRelease := by
  unfold Obligations.SyncPointsAndRelease
  refine ⟨fun s d m w hd ha => ?die, fun s w ha => ?release⟩
  case die =>
    have halive : (decide (d < 8) && s.alive (osTop d)) = true := by rw [ha, decide_eq_true hd]; rfl
    refine ⟨fun q => ⟨_, congrArg Host.Outcome.next (if_pos halive), dieReady_isReady w q⟩,
      fun q => ⟨_, congrArg Host.Outcome.next (if_pos halive), programEnd_isReady w q⟩, ?arrival, fun r hr => ?notice, fun r hr ht hms => exec_syncTimeout hd ha hr ht hms,
      fun hs he hc => ?stop⟩
    case arrival =>
      intro r a b br hr ha' hb harr hstop hbrk hno hdoubt hmis hport hbr k cond
      refine congrArg Host.Outcome.next ((if_pos halive).trans ((dieArrive_eq hr ha' hb (border_met hbr) ?_).trans ?_))
      · rw [harr, hstop, hbrk, hno, hdoubt, hmis, hport]
        rfl
      · simp only [Bool.and_eq_true, decide_eq_true_eq, Bool.not_eq_true', and_assoc]
        rfl
    case notice =>
      obtain ⟨hheard, hrest⟩ := learn_spec w hr
      simp only [OsDie.heardPart, Prod.mk.injEq] at hheard
      obtain ⟨hns, hmis, hready⟩ := hheard
      exact ⟨_, congrArg Host.Outcome.next (if_pos halive), hns, hmis, hready, (congrArg State.clk hrest :), (congrArg State.tiles hrest :),
        (congrArg State.mesh hrest :)⟩
    case stop =>
      obtain ⟨b, hb⟩ := stopComplete_eq hs he hc
      obtain ⟨hprog, hstop, harm⟩ := stoppedRegs_reads w d
      have wb : Wf ((s.stoppedRegs d).setBord d b) :=
        (kept_setBord (kept_wb (kept_wb (Kept.ite (Kept.refl s) (kept_wr (Kept.refl s) ..)) ..) ..) d b).wf w
      refine ⟨_, congrArg Host.Outcome.next ((if_pos hd).trans hb), hprog, hstop, harm, od_setOd_self wb d _, ?_⟩
      unfold State.stoppedRegs
      split <;> rfl
  case release =>
    refine ⟨fun ⟨d, hd, hn⟩ => congrArg Host.Outcome.next (if_neg fun h => hn ((release_cond s ha).mp h d hd)), fun hall => ?_⟩
    obtain ⟨hmod, hlo, hhi⟩ := releaseAt_spec ((osDies.map fun d => (s.od d).arrive.getD 0).foldl max 0)
    refine ⟨_, hmod, hlo, hhi, congrArg Host.Outcome.next (syncRelease_eq ha hall)⟩

end Sys2Proof.Machine
end

section
/-! SUPPORT. Routers, slots and image loads (O37). -/

namespace Sys2Proof.Machine
open Sys2Proof

/-! Lists. -/

/-- What stays out of a filter. -/
theorem filter_not_contains {α : Type} [DecidableEq α] (l : List α) (g : α → Bool) :
    (l.filter fun x => !(l.filter g).contains x) = l.filter fun x => !g x := by
  refine List.filter_congr fun x hx => ?_
  by_cases hg : g x = true
  · rw [hg, List.contains_iff_mem.mpr (List.mem_filter.mpr ⟨hx, hg⟩)]
  · have hout : (l.filter g).contains x = false := by
      rw [List.contains_eq_mem, decide_eq_false]
      exact fun h => hg (List.mem_filter.mp h).2
    rw [hout, Bool.eq_false_iff.mpr hg]

/-- A walk in which one element acts alone. -/
theorem foldl_once {α β : Type} {f : β → α → β} {o : α} {l : List α} (hother : ∀ t, ∀ x ∈ l, x ≠ o → f t x = t) (hn : l.Nodup) (ho : o ∈ l) (t : β) :
    l.foldl f t = f t o := by
  have hskip (l : List α) (h : ∀ t, ∀ x ∈ l, f t x = t) (t : β) : l.foldl f t = t := by
    induction l generalizing t with
    | nil => rfl
    | cons x l ih => rw [List.foldl_cons, h t x List.mem_cons_self, ih fun t y hy => h t y (List.mem_cons_of_mem _ hy)]
  induction l generalizing t with
  | nil => exact absurd ho List.not_mem_nil
  | cons x l ih =>
    obtain ⟨hx, hn⟩ := List.nodup_cons.mp hn
    rw [List.foldl_cons]
    by_cases hxo : x = o
    · subst hxo
      exact hskip l (fun t y hy => hother t y (List.mem_cons_of_mem _ hy) fun e => hx (e ▸ hy)) _
    · rw [hother t x List.mem_cons_self hxo]
      exact ih (fun t y hy => hother t y (List.mem_cons_of_mem _ hy)) hn ((List.mem_cons.mp ho).resolve_left (Ne.symm hxo)) t

/-! Routers (R200-R207). -/

/-- The flits that wait at a router in a cycle. -/
def MeshFlit.atNode (d node c : Nat) (x : MeshFlit) : Bool := decide (x.die = d) && decide (x.node = node) && decide (x.cyc = c)

/-- The mesh without the flits that a router handles. -/
def State.passed (s : State) (d node c : Nat) : State := { s with mesh := s.mesh.filter fun x => !x.atNode d node c }

/-- The earliest cycle in which a flit waits at a router, or the present one. -/
theorem waiting_cycle {s : State} {d node c : Nat} (hle : ∀ x ∈ s.mesh, x.die = d → x.node = node → c ≤ x.cyc)
    (hc : (∃ x ∈ s.mesh, x.die = d ∧ x.node = node ∧ x.cyc = c) ∨ (∀ x ∈ s.mesh, x.die = d → x.node ≠ node) ∧ c = s.clk.cc) :
    (minOf ((s.mesh.filter fun f => decide (f.die = d) && decide (f.node = node)).map MeshFlit.cyc)).getD s.clk.cc = c := by
  have hmem (x : MeshFlit) : x ∈ (s.mesh.filter fun f => decide (f.die = d) && decide (f.node = node)) ↔ x ∈ s.mesh ∧ x.die = d ∧ x.node = node := by
    rw [List.mem_filter, Bool.and_eq_true, decide_eq_true_iff, decide_eq_true_iff]
  rcases hc with ⟨x, hx, hd, hn, hxc⟩ | ⟨hnone, hcc⟩
  · have hmin := minOf_eq (c := c) ⟨List.mem_map.mpr ⟨x, (hmem x).mpr ⟨hx, hd, hn⟩, hxc⟩, fun k hk => by
      obtain ⟨z, hz, rfl⟩ := List.mem_map.mp hk
      obtain ⟨hz, hzd, hzn⟩ := (hmem z).mp hz
      exact hle z hz hzd hzn⟩
    rw [hmin]
    rfl
  · have hempty : (s.mesh.filter fun f => decide (f.die = d) && decide (f.node = node)) = [] :=
      List.eq_nil_iff_forall_not_mem.mpr fun x hx => hnone x ((hmem x).mp hx).1 ((hmem x).mp hx).2.1 ((hmem x).mp hx).2.2
    rw [hempty]
    exact hcc.symm

/-- The router's route entry is read, and an error of it is reported (R205). -/
def State.routeRead (e : State) (d : Nat) (ecc : Option Bool) : State :=
  match ecc with
  | some true => e.raise (osTop d) 8
  | some false => (e.inc (osTop d) R.OS_ROUTE_CE_CNT).raise (osTop d) 7
  | none => e

theorem exec_meshFlitForward {s : State} {d node c : Nat} (hd : d < 8) (hn : node < 64)
    (hc : (minOf ((s.mesh.filter fun f => decide (f.die = d) && decide (f.node = node)).map MeshFlit.cyc)).getD s.clk.cc = c) (par : List (Nat × Nat))
    (ecc : Option Bool) :
    exec (.meshFlitForward d node par ecc) s = .next (
      let e := s.toCc c
      if (s.od d).phaseOn && (s.od d).ready.isNone then
        (e.routeRead d ecc).router d node c (if ecc = some true then 0 else (e.routeRead d ecc).routeEntry d node c) par
      else if (s.od d).phaseOn then (s.mesh.filter (MeshFlit.atNode d node c)).foldl (fun t x => t.meshEvent d 1 node x.port) (e.passed d node c)
      else e.passed d node c) := by
  have hmesh : (s.toCc c).mesh = s.mesh := (congrArg State.mesh (toCc_clk s c) :)
  have hgo : (decide (d < 8) && decide (node < 64)) = true := by rw [decide_eq_true hd, decide_eq_true hn]; rfl
  have hexec : exec (.meshFlitForward d node par ecc) s = .next (
      let e := s.toCc c
      if (e.od d).phaseOn && (e.od d).ready.isNone then
        (e.routeRead d ecc).router d node c (if ecc = some true then 0 else (e.routeRead d ecc).routeEntry d node c) par
      else
        let gone := e.mesh.filter (MeshFlit.atNode d node c)
        let t : State := { e with mesh := e.mesh.filter fun f => !gone.contains f }
        if (t.od d).phaseOn then gone.foldl (fun t x => t.meshEvent d 1 node x.port) t else t) := by
    subst hc
    exact congrArg Host.Outcome.next (if_pos hgo)
  rw [hexec]
  dsimp only
  have hpassed : ({ s.toCc c with mesh := s.mesh.filter fun x => !x.atNode d node c } : State) = (s.toCc c).passed d node c := by
    unfold State.passed
    rw [hmesh]
  have hod : ((s.toCc c).passed d node c).od d = s.od d := od_toCc s c d
  rw [filter_not_contains, od_toCc, hmesh, hpassed, hod]

/-! A lone flit (R200, R206). -/

/-- The inputs of a router that select output `k`. -/
def selecting (entry k : Nat) : List Nat := (List.range 5).filter fun i => (routeOuts entry i).contains k

theorem zip_range_snd {α : Type} (l : List α) : ((List.range l.length).zip l).map Prod.snd = l :=
  List.map_snd_zip (by rw [List.length_range])

/-- A flit that the collective engine or the stream engine offers while the entry selects the other. -/
def MeshFlit.wrong (entry : Nat) (f : MeshFlit) : Bool :=
  match f.ce with
  | some b => b != decide (bits entry (25 + f.port) 1 = 1)
  | none => false

/-- The flit as read where no line has a parity error. -/
def MeshFlit.asRead (f : MeshFlit) : MeshFlit := { f with flit := ⟨((List.range f.flit.lines.length).zip f.flit.lines).map fun x => x.2⟩ }

theorem asRead_eq (f : MeshFlit) : f.asRead = f := by
  unfold MeshFlit.asRead
  rw [show ((List.range f.flit.lines.length).zip f.flit.lines).map (fun x => x.2) = f.flit.lines from zip_range_snd _]

/-- One output of a router: a conflict, a flit, or nothing. -/
def State.routeOut (here : List MeshFlit) (d node w entry : Nat) (s : State) (k : Nat) : State :=
  if 2 ≤ (selecting entry k).length then (s.meshEvent d 0 node k).meshOut d node k w entry ⟨noData 4⟩
  else match here.find? fun f => (selecting entry k).contains f.port with
    | some f => s.meshOut d node k w entry f.flit
    | none => s

/-- A router in a cycle without parity errors. -/
theorem router_steps (s : State) (d node w entry : Nat) : s.router d node w entry [] =
    (let here := s.mesh.filter (MeshFlit.atNode d node w)
     let s1 : State := { s with mesh := s.mesh.filter fun f => !here.contains f }
     let s2 := (here.filter (MeshFlit.wrong entry)).foldl (fun s f => s.meshEvent d 1 node f.port) s1
     let rest := here.filter fun f => !f.wrong entry
     let s3 := rest.foldl (fun s _ => (List.range 4).foldl (fun s _ => s) s) s2
     let s4 := (rest.map MeshFlit.asRead).foldl (fun s f => if (routeOuts entry f.port).isEmpty then s.meshEvent d 1 node f.port else s) s3
     (List.range 5).foldl (State.routeOut (rest.map MeshFlit.asRead) d node w entry) s4) := rfl

theorem contains_selecting {entry i o : Nat} (hi : i < 5) (hout : routeOuts entry i = [o]) (k : Nat) : (selecting entry k).contains i = decide (k = o) := by
  rw [Bool.eq_iff_iff, List.contains_iff_mem, decide_eq_true_iff]
  unfold selecting
  rw [List.mem_filter, List.contains_iff_mem, hout, List.mem_singleton]
  exact ⟨fun h => h.2, fun h => ⟨List.mem_range.mpr hi, h⟩⟩

/-- A lone flit whose input selects one output leaves by it. -/
theorem router_lone {s : State} {d node c entry o : Nat} {x : MeshFlit} (hx : s.mesh.filter (MeshFlit.atNode d node c) = [x]) (hport : x.port < 5)
    (hce : ∀ b, x.ce = some b → b = decide (bits entry (25 + x.port) 1 = 1)) (hone : ∀ k, k < 5 → (selecting entry k).length ≤ 1)
    (hout : routeOuts entry x.port = [o]) : s.router d node c entry [] = (s.passed d node c).meshOut d node o c entry x.flit := by
  have hright : x.wrong entry = false := by
    unfold MeshFlit.wrong
    split
    · rename_i b hb
      simp [hce b hb]
    · rfl
  have hpassed : ({ s with mesh := s.mesh.filter fun f => !(s.mesh.filter (MeshFlit.atNode d node c)).contains f } : State) = s.passed d node c := by
    rw [filter_not_contains]
    rfl
  have ho : o < 5 := by
    have hmem : o ∈ routeOuts entry x.port := hout ▸ List.mem_singleton_self o
    exact List.mem_range.mp (List.mem_filter.mp hmem).1
  have hfind (k : Nat) : [x].find? (fun f => (selecting entry k).contains f.port) = if k = o then some x else none := by
    rw [List.find?_singleton, contains_selecting hport hout]
    simp only [decide_eq_true_eq]
  rw [router_steps]
  dsimp only
  rw [hpassed, hx]
  simp only [List.filter_cons, hright, Bool.false_eq_true, if_false, Bool.not_false, if_true, List.filter_nil, List.foldl_nil, List.foldl_cons, List.map_cons,
    List.map_nil, asRead_eq, hout, List.isEmpty_cons]
  have hstep (t : State) {k : Nat} (hk : k < 5) : t.routeOut [x] d node c entry k = if k = o then t.meshOut d node o c entry x.flit else t := by
    unfold State.routeOut
    rw [if_neg (show ¬ 2 ≤ (selecting entry k).length from Nat.not_le.mpr (Nat.lt_succ_of_le (hone k hk))), hfind]
    by_cases hko : k = o
    · simp only [hko, if_true]
    · simp only [hko, if_false]
  refine (foldl_once (fun t k hk hko => ?_) List.nodup_range (List.mem_range.mpr ho) _).trans ((hstep _ ho).trans (if_pos rfl))
  exact (hstep t (List.mem_range.mp hk)).trans (if_neg hko)

/-- What a lone flit leaves by an output becomes: a flit at the next router, one at an edge endpoint, or one in the node's tile. -/
theorem meshOut_next {s : State} {node o n i : Nat} (ho : o ≠ 4) (hn : meshNext node o = some (n, i)) (d c entry : Nat) (f : Flit) :
    s.meshOut d node o c entry f = { s with mesh := s.mesh ++ [⟨d, n, i, c + 1, f, none⟩] } := by
  unfold State.meshOut
  rw [if_neg ho, hn]

theorem meshOut_edge {s : State} {node o : Nat} (ho : o ≠ 4) (hn : meshNext node o = none) (d c entry : Nat) (f : Flit) :
    s.meshOut d node o c entry f = { s with edges := s.edges ++ [⟨d, edgeOf node o, decide (bits entry (25 + o) 1 = 1), c + 1, f⟩] } := by
  unfold State.meshOut
  rw [if_neg ho, hn]

theorem meshOut_tile {s : State} {d node : Nat} (hr : (s.tile d node).st = .run) (c entry : Nat) (f : Flit) :
    s.meshOut d node 4 c entry f = s.setTile d node { s.tile d node with flitIn := (s.tile d node).flitIn ++ [(c + 1, f)] } := by
  unfold State.meshOut
  rw [if_pos rfl]
  exact if_pos hr

end Sys2Proof.Machine
end

section
/-! SUPPORT. Program slots and side slots (O37). -/

namespace Sys2Proof.Machine
open Sys2Proof

theorem wle_setWle_self {s : State} (w : Wf s) (p : Nat) (x : WlEnd) : (s.setWle p x).wle p = x := look_put_self _ _ w.wl

theorem wle_setWle_ne {s : State} (w : Wf s) {p q : Nat} (h : q ≠ p) (x : WlEnd) : (s.setWle p x).wle q = s.wle q := look_put_ne _ h w.wl

/-- No port end is its own peer. -/
theorem walePeer_ne {d port k : Nat} (hd : d < 8) (hp : port < 4) (h : walePeer (wlPg d port) = some k) : k ≠ wlPg d port := by
  have hall : ∀ d, d < 8 → ∀ port, port < 4 → walePeer (wlPg d port) ≠ some (wlPg d port) := by decide
  exact fun e => hall d hd port hp (e ▸ h)

/-- A flit put on the wires: it joins the peer's slots, with what the link adds. -/
theorem toWire_spec {s : State} (w : Wf s) {p q : Nat} (hq : walePeer p = some q) (hne : q ≠ p) (f : WireFlit) :
    ∃ g : WireFlit, ((s.toWire p f).wle q).wire = (s.wle q).wire ++ [g] ∧ (f.cyc = true → ((s.toWire p f).wle p).sent = some f.cc) ∧
      g.kind = f.kind ∧ g.cyc = f.cyc ∧ g.cc = f.cc ∧ g.lines = f.lines ∧ g.req = f.req := by
  unfold State.toWire
  simp only [hq]
  have w1 (x : WlEnd) : Wf (s.setWle p x) := (kept_setWle (Kept.refl s) p x).wf w
  refine ⟨{ f with
      credit := decide (f.kind ≠ .train) && isWeft (dieOf q) && decide (0 < (s.wle p).owed)
      ccl := if f.cyc && !isWeft (dieOf p) && !isWeft (dieOf q) then f.cc % 16 else 0 }, ?_, fun hc => ?_, rfl, rfl, rfl, rfl, rfl⟩
  · rw [wle_setWle_self (w1 _), wle_setWle_ne w hne]
  · rw [wle_setWle_ne (w1 _) (Ne.symm hne), wle_setWle_self w]
    exact if_pos hc

theorem toWire_none {s : State} {p : Nat} (h : walePeer p = none) (f : WireFlit) : s.toWire p f = s := by
  unfold State.toWire
  rw [h]

/-- The state but for what the link ends hold. -/
def State.sansWl (s : State) : State := { s with wl := [] }

theorem sansWl_toWire (s : State) (p : Nat) (f : WireFlit) : (s.toWire p f).sansWl = s.sansWl := by
  unfold State.toWire
  split <;> rfl

theorem sansWl_sendFlit (s : State) (p : Nat) (f : WireFlit) : (s.sendFlit p f).sansWl = s.sansWl := sansWl_toWire ..

/-! Program slots (R221, R252). -/

/-- The die when a program slot of cycle `c` leaves: what was due is done. -/
def State.slotReady (s : State) (d c : Nat) : State := ((s.toCc c).settleDie d c).enterFlits d c

theorem wf_slotReady {s : State} (w : Wf s) (d c : Nat) : Wf (s.slotReady d c) :=
  (kept_enterFlits (kept_settleDie (kept_toCc (Kept.refl s) c) d c) d c).wf w

/-- The requests of a port's slot. -/
def ReqW.due (d port c : Nat) (q : ReqW) : Bool := decide (q.die = d) && decide (q.port = port) && decide (q.cyc ≤ c)

/-- The offers of a port's slot. -/
def Offer.due (d port c : Nat) (o : Offer) : Bool := decide (o.die = d) && decide (o.port = port) && decide (o.cyc ≤ c)

/-- Whether a request word may travel (R252). -/
def State.able (f : State) (p c src : Nat) (q : ReqW) : Bool := decide (q.cyc = c) && f.portAlive p && (bits q.word 1 1 = 0 || decide (src = q.eng))

/-- The request of the lowest engine. -/
def lowestEng (l : List ReqW) : Option ReqW :=
  l.foldl (fun (b : Option ReqW) q => match b with
    | none => some q
    | some x => if q.eng < x.eng then some q else some x) none

/-- The requests that do not travel fail (R253). -/
def State.failOthers (f : State) (d : Nat) (pick : Option ReqW) (l : List ReqW) : State :=
  l.foldl (fun s q => if some q = pick then s else s.engErr d q.eng q.idx 5) f

theorem failOthers_report (f : State) (d : Nat) (pick : Option ReqW) (l : List ReqW) : (f.failOthers d pick l).sansReport = f.sansReport := by
  refine foldl_keeps State.sansReport (fun t q => ?_) l f
  split
  · rfl
  · exact sansReport_engErr ..

theorem spares_engErr {q : Nat} {g : Fld} (hg : g.apart [R.ST_ERR_LAST_INDEX, R.ST_ERR_LAST_SRC, R.PG_FSTAT_SRC] = true) (hstat : g.apart [R.PG_FSTAT_SRC] = true)
    (s : State) (d e idx src : Nat) : Spares q g s (s.engErr d e idx src) := by
  unfold State.engErr
  exact .trans (.ite ((Spares.wr hg List.mem_cons_self _ _ _).trans (.wr hg (List.mem_cons_of_mem _ List.mem_cons_self) _ _ _)) (.refl q g s))
    (spares_raiseX hstat _ _ _ _ _)

theorem failOthers_spares (f : State) (d : Nat) (pick : Option ReqW) (l : List ReqW) (q : Nat) : Spares q R.WL_STAT_STATE f (f.failOthers d pick l) :=
  Spares.foldl (fun t _ => .ite (.refl q _ t) (spares_engErr (by decide) (by decide) ..)) l f

/-- Whether a port is ALIVE stands where both ends' states do. -/
theorem portAlive_of_spares {s t : State} (w : Wf s) (h : ∀ q, Spares q R.WL_STAT_STATE s t) (p : Nat) : t.portAlive p = s.portAlive p := by
  unfold State.portAlive
  rw [(h p).rd w]
  cases walePeer p with
  | none => rfl
  | some q => simp only [(h q).rd w]

theorem reqs_of_report {s t : State} (h : t.sansReport = s.sansReport) : t.reqs = s.reqs := (congrArg State.reqs h :)
theorem offers_of_report {s t : State} (h : t.sansReport = s.sansReport) : t.offers = s.offers := (congrArg State.offers h :)

/-- The slot of cycle `c` leaves from a state in which what was due is done. -/
def State.slotFrom (s : State) (d port c : Nat) : State :=
  let p := wlPg d port
  let src := (s.slotPlan d port c).1
  let offer := s.offers.find? fun o => decide (o.die = d) && decide (o.port = port) && decide (o.src = src) && decide (o.cyc = c)
  let mine := s.reqs.filter (ReqW.due d port c)
  let pick := lowestEng (mine.filter (s.able p c src))
  let s := s.failOthers d pick mine
  let s := { s with reqs := s.reqs.filter (fun q => !(mine.contains q)), offers := s.offers.filter fun o => !o.due d port c }
  if s.portAlive p then
    let lines := match offer with | some o => o.lines | none => []
    s.sendFlit p { kind := if lines.isEmpty then .empty else .prog, cyc := true, cc := c, lines := lines, req := pick.map fun q => (q.word, q.idx) }
  else s

theorem programSlot_from (s : State) (d port : Nat) : s.programSlot d port = (s.slotReady d s.clk.cc).slotFrom d port s.clk.cc := by
  unfold State.programSlot State.slotReady
  dsimp only
  generalize ((s.toCc s.clk.cc).settleDie d s.clk.cc).enterFlits d s.clk.cc = f
  generalize s.clk.cc = c
  rfl

/-- The lines of the source's flit, none without an offer. -/
theorem offer_lines (o : Option Offer) : (match o with | some o => o.lines | none => []) = (o.map Offer.lines).getD [] := by
  cases o <;> rfl

/-- The state that a slot leaves behind, but for the wires. -/
def State.slotLeft (f : State) (d port c : Nat) (pick : Option ReqW) : State :=
  let mine := f.reqs.filter (ReqW.due d port c)
  { f.failOthers d pick mine with
    reqs := f.reqs.filter fun q => !mine.contains q
    offers := f.offers.filter fun o => !o.due d port c }

/-- The flit of a slot. -/
def slotFlit (ls : List FLine) (c : Nat) (pick : Option ReqW) : WireFlit :=
  { kind := if ls.isEmpty then .empty else .prog, cyc := true, cc := c, lines := ls, req := pick.map fun q => (q.word, q.idx) }

theorem slotFrom_eq {f : State} (w : Wf f) (d port c : Nat) :
    let p := wlPg d port
    let src := (f.slotPlan d port c).1
    let ls := ((f.offers.find? fun o => decide (o.die = d) && decide (o.port = port) && decide (o.src = src) && decide (o.cyc = c)).map Offer.lines).getD []
    let pick := lowestEng ((f.reqs.filter (ReqW.due d port c)).filter (f.able p c src))
    f.slotFrom d port c = if f.portAlive p then (f.slotLeft d port c pick).sendFlit p (slotFlit ls c pick) else f.slotLeft d port c pick := by
  intro p src ls pick
  have hreport := failOthers_report f d pick (f.reqs.filter (ReqW.due d port c))
  have halive : (f.failOthers d pick (f.reqs.filter (ReqW.due d port c))).portAlive p = f.portAlive p :=
    portAlive_of_spares w (failOthers_spares f d pick _) p
  have hleft : ({ f.failOthers d pick (f.reqs.filter (ReqW.due d port c)) with
      reqs := (f.failOthers d pick (f.reqs.filter (ReqW.due d port c))).reqs.filter (fun q => !((f.reqs.filter (ReqW.due d port c)).contains q)),
      offers := (f.failOthers d pick (f.reqs.filter (ReqW.due d port c))).offers.filter fun o => !o.due d port c } : State) = f.slotLeft d port c pick := by
    rw [reqs_of_report hreport, offers_of_report hreport]
    rfl
  have hlive : (f.slotLeft d port c pick).portAlive p = f.portAlive p := halive
  unfold State.slotFrom
  dsimp only
  rw [hleft, hlive, offer_lines]
  rfl

theorem wf_slotLeft {f : State} (w : Wf f) (d port c : Nat) (pick : Option ReqW) : Wf (f.slotLeft d port c pick) :=
  ((failOthers_spares f d pick _ 0).kept.upd rfl).wf w

/-- A slot fails requests, takes what was offered for it, and touches nothing else but the wires. -/
theorem slotLeft_frame (f : State) (d port c : Nat) (pick : Option ReqW) : (f.slotLeft d port c pick).sansReport =
    ({ f with reqs := f.reqs.filter fun q => !(f.reqs.filter (ReqW.due d port c)).contains q, offers := f.offers.filter fun o => !o.due d port c } : State).sansReport :=
  congrArg (fun u : State => { u with
    reqs := f.reqs.filter fun q => !(f.reqs.filter (ReqW.due d port c)).contains q
    offers := f.offers.filter fun o => !o.due d port c }) (failOthers_report f d pick (f.reqs.filter (ReqW.due d port c)))

theorem exec_waleProgramSlot {s : State} {d port : Nat} (hd : d < 8) (hp : port < 4) (hon : (s.od d).phaseOn = true) (hslot : progSlot s.clk.cc = true)
    (hsrc : port ≠ 3 ∨ (s.slotPlan d 3 s.clk.cc).1 ≠ 16) (hsent : (s.wle (wlPg d port)).sent ≠ some s.clk.cc) :
    exec (.waleProgramSlot d port) s = .next ((s.slotReady d s.clk.cc).slotFrom d port s.clk.cc) := by
  refine congrArg Host.Outcome.next ((if_pos ?_).trans (programSlot_from s d port))
  have hfree : s.slotFree (wlPg d port) = true := decide_eq_true hsent
  have hother : (!(decide (port = 3) && decide ((s.slotPlan d 3 s.clk.cc).1 = 16))) = true := by
    rcases hsrc with h | h
    · rw [decide_eq_false h]; rfl
    · rw [decide_eq_false h, Bool.and_false]; rfl
  rw [decide_eq_true hd, decide_eq_true hp, hon, hslot, hfree, hother]
  rfl

theorem lowestEng_singleton {able : ReqW → Bool} {x : ReqW} (h : able x = true) : lowestEng ([x].filter able) = some x := by
  rw [List.filter_cons_of_pos h]
  rfl

/-- What a slot that leaves does: time, tiles and units stand, its requests and offers are gone, and an ALIVE port carries its flit. -/
theorem slotFrom_spec {f : State} (w : Wf f) {d port : Nat} (c : Nat) (hd : d < 8) (hp : port < 4) :
    let q := wlPg d port
    let src := (f.slotPlan d port c).1
    let mine := f.reqs.filter fun x => decide (x.die = d) && decide (x.port = port) && decide (x.cyc ≤ c)
    let ls := ((f.offers.find? fun o => decide (o.die = d) && decide (o.port = port) && decide (o.src = src) && decide (o.cyc = c)).map Offer.lines).getD []
    let t := f.slotFrom d port c
    t.clk = f.clk ∧ t.hbm = f.hbm ∧ t.tiles = f.tiles ∧ t.units = f.units ∧ t.reqs = f.reqs.filter (fun x => !mine.contains x) ∧
      t.offers = f.offers.filter (fun o => !(decide (o.die = d) && decide (o.port = port) && decide (o.cyc ≤ c))) ∧
      (∀ k, f.portAlive q = true → walePeer q = some k → ∃ w : WireFlit, (t.wle k).wire = (f.wle k).wire ++ [w] ∧ (t.wle q).sent = some c ∧
        w.kind = (if ls.isEmpty then .empty else .prog) ∧ w.cyc = true ∧ w.cc = c ∧ w.lines = ls ∧
        (mine = [] → w.req = none) ∧ (∀ x, mine = [x] → x.cyc = c → (bits x.word 1 1 = 0 ∨ src = x.eng) → w.req = some (x.word, x.idx))) ∧
      (f.portAlive q = false → t.wl = f.wl) := by
  intro q src mine ls t
  have heq := slotFrom_eq w d port c
  dsimp only at heq
  have hmine : (f.reqs.filter (ReqW.due d port c)) = mine := rfl
  generalize hpick : lowestEng ((f.reqs.filter (ReqW.due d port c)).filter (f.able (wlPg d port) c (f.slotPlan d port c).1)) = pick at heq
  have hframe := slotLeft_frame f d port c pick
  have wleft := wf_slotLeft w d port c pick
  have ht : t.sansWl.sansReport = (f.slotLeft d port c pick).sansWl.sansReport := by
    refine congrArg State.sansReport (Eq.trans (congrArg State.sansWl heq) ?_)
    split
    · exact sansWl_sendFlit ..
    · rfl
  generalize f.slotLeft d port c pick = u at *
  have huw : u.wl = f.wl := (congrArg State.wl hframe :)
  refine ⟨?_, ?_, ?_, ?_, ?_, ?_, fun k ha hk => ?_, fun ha => ?_⟩
  · exact (congrArg State.clk ht :).trans (congrArg State.clk hframe :)
  · exact (congrArg State.hbm ht :).trans (congrArg State.hbm hframe :)
  · exact (congrArg State.tiles ht :).trans (congrArg State.tiles hframe :)
  · exact (congrArg State.units ht :).trans (congrArg State.units hframe :)
  · exact (congrArg State.reqs ht :).trans (congrArg State.reqs hframe :)
  · exact (congrArg State.offers ht :).trans (congrArg State.offers hframe :)
  · rw [if_pos ha] at heq
    obtain ⟨g, hwire, hsent, hkind, hcyc, hcc, hlines, hreq⟩ := toWire_spec wleft hk (walePeer_ne hd hp hk)
      { slotFlit ls c pick with sync := if (slotFlit ls c pick).cyc && isEWV q then u.syncField (dieOf q) else 0 }
    have htq : t = u.toWire q { slotFlit ls c pick with sync := if (slotFlit ls c pick).cyc && isEWV q then u.syncField (dieOf q) else 0 } := heq
    have huk : u.wle k = f.wle k := congrArg (look wlZero · k) huw
    rw [← htq, huk] at hwire
    rw [← htq] at hsent
    refine ⟨g, hwire, hsent rfl, hkind, hcyc, hcc, hlines, fun hnone => ?_, fun x hx hxc hable => ?_⟩
    · rw [hmine, hnone] at hpick
      rw [hreq, ← hpick]
      rfl
    · have hgo : f.able q c src x = true := by
        have hword : (bits x.word 1 1 = 0 || decide (src = x.eng)) = true := by
          rw [Bool.or_eq_true, decide_eq_true_iff, decide_eq_true_iff]
          exact hable
        unfold State.able
        rw [decide_eq_true hxc, ha, hword]
        rfl
      rw [hmine, hx, lowestEng_singleton hgo] at hpick
      rw [hreq, ← hpick]
      rfl
  · rw [if_neg (ne_true_of_eq_false ha)] at heq
    exact (congrArg State.wl heq).trans huw

end Sys2Proof.Machine
end

section
/-! SUPPORT. Side slots and image loads (O37). -/

namespace Sys2Proof.Machine
open Sys2Proof

theorem put_look_from {α : Type} [DecidableEq α] {d : Nat → α} (m : Sparse α) (k : Nat) : ∀ lo, wfFrom d lo m = true → put d m k (look d m k) = m := by
  induction m with
  | nil => exact fun _ _ => by simp [put, look]
  | cons e r ih =>
    obtain ⟨a, v⟩ := e
    intro lo h
    simp only [wfFrom, Bool.and_eq_true, decide_eq_true_eq] at h
    obtain ⟨⟨ha, hv⟩, hr⟩ := h
    rcases Nat.lt_trichotomy k a with hlt | heq | hgt
    · have hne : k ≠ a := by omega
      simp [put, look, hne, hlt]
    · subst heq
      simp [put, look, hv]
    · have hne : k ≠ a := by omega
      have hnl : ¬ k < a := by omega
      simp [put, look, hne, hnl, ih _ hr]

/-- Writing back what is read changes nothing. -/
theorem put_look {α : Type} [DecidableEq α] {d : Nat → α} {m : Sparse α} (k : Nat) (h : swf d m = true) : put d m k (look d m k) = m :=
  put_look_from m k 0 h

theorem setWle_wle {s : State} (w : Wf s) (p : Nat) : s.setWle p (s.wle p) = s := congrArg (fun m => { s with wl := m }) (put_look p w.wl)

theorem setWle_setWle {s : State} (w : Wf s) (p : Nat) (x y : WlEnd) : (s.setWle p x).setWle p y = s.setWle p y :=
  congrArg (fun m => { s with wl := m }) (put_put p x y w.wl)

/-! Side slots (R222, R223). -/

theorem toSide_now {s : State} {p : Nat} {cyc : Bool} (h : s.sideSlot p = some cyc) (n : Nat) : s.toSide p (n + 1) = s := by
  unfold State.toSide
  rw [h]
  rfl

theorem clk_of_report {s t : State} (h : t.sansReport = s.sansReport) : t.clk = s.clk := (congrArg State.clk h :)

theorem clk_evtOpt (s : State) (d : Nat) (e : Option Nat) : (s.evtOpt d e).clk = s.clk := (congrArg State.clk (sansDie_evtOpt s d e) :)

theorem clk_bufHits (s : State) (d : Nat) (hits : List EccHit) : (s.bufHits d hits).clk = s.clk := by
  refine foldl_keeps State.clk (fun t h => ?_) hits s
  split
  · exact clk_of_report (sansReport_raise ..)
  · exact (clk_of_report (sansReport_raise ..)).trans rfl

theorem clk_drawPayload (s : State) (d : Nat) (ok : Ce → CeSend → Bool) (bad : List Nat) : (s.drawPayload d ok bad).1.clk = s.clk := by
  unfold State.drawPayload
  dsimp only
  split
  · rfl
  · dsimp only
    split
    · exact clk_evtOpt ..
    · rfl

theorem clk_relayFill (s : State) (p : Nat) (hits : List EccHit) : (s.relayFill p hits).clk = s.clk := by
  unfold State.relayFill
  dsimp only
  split
  · split
    · rename_i t x hdraw
      refine (clk_bufHits t _ hits).trans ?_
      rw [show t = (t, some x).1 from rfl, ← hdraw]
      exact clk_drawPayload ..
    · rename_i t hdraw
      rw [show t = (t, (none : Option PTag)).1 from rfl, ← hdraw]
      exact clk_drawPayload ..
  · rfl

/-- What a Weft die has room for does not see a link end's other parts. -/
theorem roomBits_setWle {s : State} (w : Wf s) {p : Nat} {x : WlEnd} (h : x.side = (s.wle p).side) (k : Nat) : (s.setWle p x).roomBits k = s.roomBits k := by
  have hside (q : Nat) : ((s.setWle p x).wle q).side = (s.wle q).side := by
    by_cases hq : q = p
    · rw [hq, wle_setWle_self w, h]
    · rw [wle_setWle_ne w hq]
  have hfwd : (s.setWle p x).fwdQ k = s.fwdQ k := congrArg (List.filter _) (hside (pg (8 + k) 0x40))
  unfold State.roomBits
  rw [hfwd]
  rfl

/-- The link end that serves a slot: a spare wire slot of the present CCLK cycle is counted. -/
def WlEnd.serving (x : WlEnd) (cyc : Bool) (now : Nat) : WlEnd := if cyc then x else { x with spare := (now, (if x.spare.1 = now then x.spare.2 else 0) + 1) }

theorem serving_side (x : WlEnd) (cyc : Bool) (now : Nat) : (x.serving cyc now).side = x.side := by
  cases cyc <;> rfl

/-- The next slot of a port end that has one in the present cycle. -/
theorem sideService_eq {s : State} (w : Wf s) {p : Nat} {cyc : Bool} (hslot : s.sideSlot p = some cyc) (hits : List EccHit) :
    s.sideService p hits =
      (let e := s.relayFill p hits
       let x := (e.wle p).serving cyc (s.clk.tick * 16 + s.clk.sub)
       let room := if isWeft (dieOf p) then e.roomBits (dieOf p - 8) else 0
       match sideNextFlit x with
       | none => (e.setWle p x).sendFlit p { kind := .idle, cyc := cyc, cc := s.clk.cc, room := room }
       | some f =>
         let lo := x.side.foldl (fun a g => max a g.cls) 0
         (e.setWle p { x with side := x.side.erase f, sinceLow := if f.cls = lo then 0 else x.sinceLow + 1 }).sendFlit p
           { kind := .side, cyc := cyc, cc := s.clk.cc, lines := f.lines, sclass := f.cls, sdie := f.die, what := f.what, room := room }) := by
  have we : Wf (s.relayFill p hits) := (kept_relayFill (Kept.refl s) p hits).wf w
  have hclk := clk_relayFill s p hits
  unfold State.sideService
  rw [toSide_now hslot 15]
  simp only [hslot]
  generalize s.relayFill p hits = e at *
  have hset : (if cyc then e else e.setWle p { e.wle p with spare := (e.clk.tick * 16 + e.clk.sub, (if (e.wle p).spare.1 = e.clk.tick * 16 + e.clk.sub then
      (e.wle p).spare.2 else 0) + 1) }) = e.setWle p ((e.wle p).serving cyc (e.clk.tick * 16 + e.clk.sub)) := by
    cases cyc
    · rfl
    · exact (setWle_wle we p).symm
  rw [hset, hclk, wle_setWle_self we, roomBits_setWle we (serving_side ..)]
  cases sideNextFlit ((e.wle p).serving cyc (s.clk.tick * 16 + s.clk.sub)) with
  | none =>
    dsimp only
    rw [show (e.setWle p ((e.wle p).serving cyc (s.clk.tick * 16 + s.clk.sub))).clk = s.clk from hclk]
  | some f =>
    dsimp only
    rw [show (e.setWle p ((e.wle p).serving cyc (s.clk.tick * 16 + s.clk.sub))).clk = s.clk from hclk, setWle_setWle we]

theorem exec_sideFlitService {s : State} {p : Nat} (hp : s.portAlive p = true) (ha : s.alive p = true) (hits : List EccHit) :
    exec (.sideFlitService p hits) s = .next (s.sideService p hits) :=
  congrArg Host.Outcome.next (if_pos (by rw [hp, ha]; rfl))

/-! Image loads (R225, R226). -/

/-- The dies that take an image. -/
theorem taking_eq (e : State) :
    (((osDies.map e.loadable).zip osDies).filterMap fun x => if x.1 then some x.2 else none) = osDies.filter e.loadable := by
  have hlist (l : List Nat) : (((l.map e.loadable).zip l).filterMap fun x => if x.1 then some x.2 else none) = l.filter e.loadable := by
    induction l with
    | nil => rfl
    | cons d l ih =>
      rw [List.map_cons, List.zip_cons_cons, List.filterMap_cons, List.filter_cons, ih]
      cases e.loadable d <;> rfl
  exact hlist osDies

/-- A die takes a part of an image unless it is an Osier die that is not loadable. -/
theorem takes_part (e : State) (k : Nat) : (!isOsier k || (osDies.filter e.loadable).contains k) = (!isOsier k || e.loadable k) := by
  by_cases hk : k < 8
  · have hmem : (osDies.filter e.loadable).contains k = e.loadable k := by
      rw [Bool.eq_iff_iff, List.contains_iff_mem, List.mem_filter]
      exact ⟨fun h => h.2, fun h => ⟨List.mem_range.mpr hk, h⟩⟩
    rw [hmem]
  · have hout : isOsier k = false := decide_eq_false hk
    rw [hout]
    rfl

/-- The parts of an image that `ok` lets through are written, and the dies `takes` are marked LOADED with its ID. -/
def State.loadImage (e : State) (h : Nat) (im : Image) (ok : Nat → Bool) (takes : List Nat) : State :=
  let f := im.writes.foldl (fun (t : State) w => if ok (dieOf w.1) then t.hostWrite h w.1 w.2.1 w.2.2 15 {} else t) e
  let f := im.data.foldl (fun (t : State) x => if ok (x.1 % 2 ^ 42 / 2 ^ 39) then t.preload x.1 x.2 else t) f
  let f := im.code.foldl (fun (t : State) x => if x.1 < 8 && ok x.1 then t.loadDeliver x.1 x.2.1 x.2.2.1 x.2.2.2 [] else t) f
  takes.foldl (fun (t : State) k => ((t.hostWrite h (osTop k) 0x10C (im.id % 2 ^ 32) 15 {}).hostWrite h (osTop k)
    0x110 (im.id / 2 ^ 32) 15 {}).hostWrite h (osTop k) 0x104 4 15 {}) f

theorem exec_imageLoad {s : State} {h a : Nat} (hs : s.serves h = true) (ha : s.acting = some a) (im : Image) :
    let e : State := { s with out := { s.out with loads := s.out.loads ++ [s.loadStatus h im] } }
    exec (.imageLoad h im) s = .next (if s.loadStatus h im = .ok then e.loadImage h im (fun k => !isOsier k || e.loadable k) (osDies.filter e.loadable) else e) := by
  intro e
  have hgo : (s.serves h && s.acting.isSome) = true := by rw [hs, ha]; rfl
  have hexec : exec (.imageLoad h im) s = .next (if s.loadStatus h im = .ok then
      let takes := ((osDies.map e.loadable).zip osDies).filterMap fun x => if x.1 then some x.2 else none
      e.loadImage h im (fun k => !isOsier k || takes.contains k) takes else e) := congrArg Host.Outcome.next (if_pos hgo)
  rw [hexec, taking_eq]
  dsimp only
  rw [funext (takes_part e)]

/-- Settles O37: the router of a lone flit, a slot that leaves, a port end's next side slot, and an image load, each through its own equation. -/
theorem meshAndPortSlots : Obligations.MeshAndPortSlots := by
  unfold Obligations.MeshAndPortSlots
  intro s d node port p h par ecc im hits w
  refine ⟨fun c hd hn hle hc => ?mesh, fun hd hp hon hslot hsrc => ?slot, fun hp ha cyc hslot => ?side, fun a hs ha => ?load⟩
  case mesh =>
    have hexec := exec_meshFlitForward hd hn (waiting_cycle hle hc) par ecc
    have hmesh : (s.toCc c).mesh = s.mesh := (congrArg State.mesh (toCc_clk s c) :)
    have hedges : (s.toCc c).edges = s.edges := (congrArg State.edges (toCc_clk s c) :)
    have htile : (s.toCc c).tile d node = s.tile d node := (congrArg (State.tile · d node) (toCc_clk s c) :)
    intro e f here rest
    have hrest : (s.toCc c).passed d node c = rest := by
      unfold State.passed
      rw [hmesh]
      rfl
    refine ⟨fun hon hr => ?phase, fun hon hr => ?late, fun hoff => ?off⟩
    case phase =>
      have hgo : ((s.od d).phaseOn && (s.od d).ready.isNone) = true := by rw [hon, hr]; rfl
      have hrouter := hexec.trans (congrArg Host.Outcome.next (if_pos hgo))
      refine ⟨hrouter, ?_⟩
      intro x o hx hpar hecc hport en hce hone hout
      subst hpar hecc
      have hlone : (s.toCc c).router d node c en [] = rest.meshOut d node o c en x.flit := by
        rw [← hrest]
        exact router_lone (by rw [hmesh]; exact hx) hport hce hone hout
      have hleaves := hrouter.trans (congrArg Host.Outcome.next hlone)
      refine ⟨fun n i ho hnext => hleaves.trans (congrArg Host.Outcome.next (meshOut_next ho hnext d c en x.flit)), fun ho hnext => ?_, fun ho hrun => ?_⟩
      · refine hleaves.trans (congrArg Host.Outcome.next ((meshOut_edge ho hnext d c en x.flit).trans ?_))
        rw [show rest.edges = s.edges from hedges]
      · subst ho
        have htr : rest.tile d node = s.tile d node := htile
        refine hleaves.trans (congrArg Host.Outcome.next ((meshOut_tile (htr ▸ hrun) c en x.flit).trans ?_))
        rw [htr]
    case late =>
      have hstop : ((s.od d).phaseOn && (s.od d).ready.isNone) = false := by
        rw [hon, Bool.true_and]
        exact Option.isNone_eq_false_iff.mpr (Option.isSome_iff_ne_none.mpr hr)
      refine hexec.trans (congrArg Host.Outcome.next ((if_neg (ne_true_of_eq_false hstop)).trans ((if_pos hon).trans ?_)))
      rw [hrest]
      rfl
    case off =>
      have hstop : ((s.od d).phaseOn && (s.od d).ready.isNone) = false := by rw [hoff]; rfl
      exact hexec.trans (congrArg Host.Outcome.next ((if_neg (ne_true_of_eq_false hstop)).trans ((if_neg (ne_true_of_eq_false hoff)).trans hrest)))
  case slot =>
    intro c q hsent
    exact ⟨_, exec_waleProgramSlot hd hp hon hslot hsrc hsent, slotFrom_spec (wf_slotReady w d c) c hd hp⟩
  case side =>
    intro e now x room lo hi
    have hexec := (exec_sideFlitService hp ha hits).trans (congrArg Host.Outcome.next (sideService_eq w hslot hits))
    refine ⟨fun hnone => hexec.trans ?_, fun f hf => hexec.trans ?_⟩
    · have hnext : sideNextFlit ((e.wle p).serving cyc now) = none := by
        unfold sideNextFlit
        rw [show ((e.wle p).serving cyc now).side = [] from hnone]
        rfl
      dsimp only
      rw [show sideNextFlit (((s.relayFill p hits).wle p).serving cyc (s.clk.tick * 16 + s.clk.sub)) = none from hnext]
      rfl
    · have hnext : sideNextFlit ((e.wle p).serving cyc now) = some f := hf
      dsimp only
      rw [show sideNextFlit (((s.relayFill p hits).wle p).serving cyc (s.clk.tick * 16 + s.clk.sub)) = some f from hnext]
      rfl
  case load =>
    intro st e
    have hexec := exec_imageLoad hs ha im
    refine ⟨fun hst => hexec.trans (congrArg Host.Outcome.next (if_neg hst)), fun hst => ?_⟩
    intro ok f1 f2 f3
    refine hexec.trans (congrArg Host.Outcome.next ((if_pos hst).trans ?_))
    unfold State.loadImage
    simp only [Bool.and_eq_true, decide_eq_true_eq]
    rfl

end Sys2Proof.Machine
end

section
/-! SUPPORT. Released read units (O40): the late counter saturates at what it can hold, and a canonical state may hold more in it. -/

namespace Sys2Proof.Machine
open Sys2Proof

/-- A unit of stack 1 that engine 2 of die 0 releases in cycle 900, in time. -/
def timelyUnit : RUnit :=
  { die := 0, eng := 2, cyc := 900, idx := 0, lane := 0, sink := .edge 16, lines := List.replicate 4 ⟨7#256, false⟩, mc := some 1, us := [3],
    nb := none, dig := none, evt := none }

/-- A canonical state with the engine and the controller up whose MC_LATE_CNT holds one more than its 32 bits can: `Wf` bounds no register. -/
def overfull : State :=
  { (State.reset.setUp (stPg 0 2) .up).setUp (mcPage 1) .up with
    reads := [timelyUnit]
    regs := put resetVal (put resetVal State.reset.regs (R.MC_STAT_TRAINED.key (mcPage 1)) 1) (R.MC_LATE_CNT.key (mcPage 1)) (2 ^ 32) }

theorem overfull_wf : Wf overfull :=
  { wf_reset with regs := swf_put _ _ (swf_put _ _ wf_reset.regs), pages := swf_put _ _ (swf_put _ _ wf_reset.pages) }

/-- MC_LATE_CNT of stack 1 after a command. -/
def lateAfter (c : Instr) (s : State) : Option Nat :=
  match exec c s with
  | .next t => some (t.rd (mcPage 1) R.MC_LATE_CNT)
  | _ => none

theorem lateAfter_of_next {c : Instr} {s t : State} (h : exec c s = .next t) : lateAfter c s = some (t.rd (mcPage 1) R.MC_LATE_CNT) := by
  rw [lateAfter, h]

/-- The release of a timely unit leaves the late counter as it stands. -/
theorem overfull_release : lateAfter (.readUnitRelease 0 2 [] []) overfull = some (2 ^ 32) := by decide +kernel

/-- Refutes O40: with no unit late the controller leaves MC_LATE_CNT alone, so one that holds 2 ^ 32 keeps it, where the statement has it cut to 2 ^ 32 - 1. -/
theorem not_readUnitsAreReleased : ¬ Obligations.ReadUnitsAreReleased := by
  unfold Obligations.ReadUnitsAreReleased
  intro h
  obtain ⟨t, hexec, _, _, _, _, _, _, _, _, _, hlate⟩ :=
    (h overfull 0 2 1 timelyUnit [] [] overfull_wf (by decide +kernel)).1 (by decide +kernel) rfl rfl (fun _ _ => nofun)
  have hkept : t.rd (mcPage 1) R.MC_LATE_CNT = 2 ^ 32 := Option.some.inj ((lateAfter_of_next hexec).symm.trans overfull_release)
  have hcut : t.rd (mcPage 1) R.MC_LATE_CNT ≤ 2 ^ 32 - 1 := hlate ▸ min_le_right _ _
  omega

end Sys2Proof.Machine
end

section
/-! SUPPORT. Lending, the end of borrowed operations and the host window (O42). -/

namespace Sys2Proof.Machine
open Sys2Proof

/-! Event counters (R209). -/

theorem evtCnt_apart : ∀ k, k < 16 → (Fld.idx R.OS_EVT_CNT k).apart [R.MC_SIDE_BYTES] = true ∧
    (Fld.idx R.OS_EVT_CNT k).apart [R.ST_ERR_LAST_INDEX, R.ST_ERR_LAST_SRC, R.PG_FSTAT_SRC] = true ∧
    (Fld.idx R.OS_EVT_CNT k).apart [R.PG_FSTAT_SRC] = true := by decide

theorem evtCnt_key_ne {j k : Nat} (h : j ≠ k) (p : Nat) :
    (Fld.idx R.OS_EVT_CNT k).key p ≠ (Fld.idx R.OS_EVT_CNT j).key p := by
  unfold Fld.key Fld.idx R.OS_EVT_CNT
  dsimp only
  omega

theorem evtAdd_eq (s : State) (d c n : Nat) :
    ∃ x, s.evtAdd d c n = ((s.setOd d x).addSat (osTop d) (Fld.idx R.OS_EVT_CNT (c % 16)) n).condNote d s.clk.seen := ⟨_, rfl⟩

theorem rd_evtAdd {s : State} (w : Wf s) (d c n k : Nat) :
    (s.evtAdd d c n).rd (osTop d) (Fld.idx R.OS_EVT_CNT k) =
      if c % 16 = k then min (s.rd (osTop d) (Fld.idx R.OS_EVT_CNT k) + n) (2 ^ R.OS_EVT_CNT.w - 1) else s.rd (osTop d) (Fld.idx R.OS_EVT_CNT k) := by
  obtain ⟨x, hx⟩ := evtAdd_eq s d c n
  have w1 : Wf (s.setOd d x) := (kept_setOd (Kept.refl s) d x).wf w
  rw [hx, (spares_condNote _ d _).rd ((kept_addSat (Kept.refl _) ..).wf w1)]
  split
  case isTrue h =>
    subst h
    refine (rd_wr_self w1 _ _ _).trans (Nat.mod_eq_of_lt ?_)
    exact lt_of_le_of_lt (min_le_right _ _) (Nat.sub_one_lt (Nat.two_pow_pos _).ne')
  case isFalse h => exact rd_wr_ne w1 _ (evtCnt_key_ne h _)

theorem rd_evtOpt {s : State} (w : Wf s) (d : Nat) (e : Option Nat) (k : Nat) :
    (s.evtOpt d e).rd (osTop d) (Fld.idx R.OS_EVT_CNT k) =
      if e.map (· % 16) = some k then min (s.rd (osTop d) (Fld.idx R.OS_EVT_CNT k) + 1) (2 ^ R.OS_EVT_CNT.w - 1)
      else s.rd (osTop d) (Fld.idx R.OS_EVT_CNT k) := by
  cases e with
  | none => rfl
  | some c => simpa [State.evtOpt] using rd_evtAdd w d c 1 k

/-! The side share of a controller. -/

/-- From `s` to `t` a controller has served in its side share: it has counted, and nothing else changed. -/
structure Served (s t : State) : Prop where
  frame : { t with regs := s.regs, sideRem := s.sideRem } = s
  spares : ∀ q g, g.apart [R.MC_SIDE_BYTES, R.MC_POISON_RD_CNT] = true → Spares q g s t

namespace Served
variable {s t u : State}

theorem refl (s : State) : Served s s := ⟨rfl, fun _ _ _ => .refl _ _ s⟩

theorem trans (h : Served s t) (k : Served t u) : Served s u :=
  ⟨by rw [← h.frame, ← k.frame], fun q g hg => (h.spares q g hg).trans (k.spares q g hg)⟩

end Served

theorem spares_sideBytes {q : Nat} {g : Fld} {fs : List Fld} (h : g.apart fs = true) (hf : R.MC_SIDE_BYTES ∈ fs) (s : State) (mc n : Nat) :
    Spares q g s (s.sideBytes mc n) :=
  .trans (t := { s with sideRem := put natZero s.sideRem mc ((look natZero s.sideRem mc + n) % 1024) }) (.of_regs ((Kept.refl s).upd rfl) rfl)
    (.wr h hf _ _ _)

theorem sideBytes_served (s : State) (mc n : Nat) : Served s (s.sideBytes mc n) where
  frame := rfl
  spares := fun _ _ hg => spares_sideBytes hg List.mem_cons_self ..

/-- The controller counts the poisoned lines that it reads (R241). -/
theorem poisonRead_served (s : State) (mc n : Nat) : Served s (s.addSat (mcPage mc) R.MC_POISON_RD_CNT n) where
  frame := rfl
  spares := fun _ _ hg => .wr hg (List.mem_cons_of_mem _ List.mem_cons_self) _ _ _

section
variable {s t : State}

theorem Served.mcUp (h : Served s t) (w : Wf s) (mc : Nat) : t.mcUp mc = s.mcUp mc := by
  have hpages : t.pages = s.pages := (congrArg State.pages h.frame :)
  unfold State.mcUp State.alive State.page
  rw [hpages, (h.spares _ _ (by decide)).bit w]

theorem Served.wf (h : Served s t) (w : Wf s) : Wf t := (h.spares 0 R.WL_STAT_STATE (by decide)).kept.wf w

theorem Served.resolve (h : Served s t) (w : Wf s) (d addr : Nat) (wr op ue : Bool) : t.resolve d addr wr op ue = s.resolve d addr wr op ue := by
  have halive := portAlive_of_spares w fun q => h.spares q R.WL_STAT_STATE (by decide)
  have hclk : t.clk = s.clk := (congrArg State.clk h.frame :)
  have hstake : t.stake = s.stake := (congrArg State.stake h.frame :)
  have hold : t.stakeOld = s.stakeOld := (congrArg State.stakeOld h.frame :)
  have hentry (g : Nat) : t.stakeE d g = s.stakeE d g := by
    unfold State.stakeE State.stakeNow
    rw [hclk, hstake, hold]
  unfold State.resolve
  simp only [hentry, halive]

theorem Served.hline (h : Served s t) (mc line : Nat) : t.hline mc line = s.hline mc line := by
  have hhbm : t.hbm = s.hbm := (congrArg State.hbm h.frame :)
  rw [State.hline, hhbm]
  rfl

end

/-- A controller that serves reads the lines as they are, but for errors of the read. -/
theorem mcRead_clean {s : State} {mc : Nat} (h : s.mcUp mc = true) (us : List Nat) (ls : List FLine) :
    s.mcRead mc us ls [] = (s.addSat (mcPage mc) R.MC_POISON_RD_CNT (ls.filter FLine.poi).length, ls) := by
  simp [State.mcRead, h, List.zipIdx_map_fst]

/-! Units stored in a stack. -/

/-- The units `us` of a stack stored in order, four lines each. -/
def State.storeUnits (s : State) (mc : Nat) (data : List FLine) (us : List (Nat × Nat)) : State :=
  us.foldl (fun (g : State) v => g.putHunit mc v.2 ((data.drop (4 * v.1)).take 4)) s

/-- The state but for the stacks. -/
def State.sansHbm (s : State) : State := { s with hbm := [] }

theorem sansHbm_putHunit (s : State) (mc u : Nat) (ls : List FLine) : (s.putHunit mc u ls).sansHbm = s.sansHbm :=
  foldl_keeps State.sansHbm (f := fun t (x : Nat × FLine) => t.putHline mc (4 * u + x.1) x.2) (fun _ _ => rfl) _ s

theorem sansHbm_storeUnits (s : State) (mc : Nat) (data : List FLine) (us : List (Nat × Nat)) : (s.storeUnits mc data us).sansHbm = s.sansHbm :=
  foldl_keeps State.sansHbm (f := fun t (v : Nat × Nat) => t.putHunit mc v.2 ((data.drop (4 * v.1)).take 4)) (fun _ _ => sansHbm_putHunit ..) _ s

/-- A walk whose steps take memory from memory alone takes it so as a whole. -/
theorem hbm_foldl {α : Type} {f : State → α → State} (hf : ∀ s t x, t.hbm = s.hbm → (f t x).hbm = (f s x).hbm) (l : List α) {s t : State}
    (h : t.hbm = s.hbm) : (l.foldl f t).hbm = (l.foldl f s).hbm := by
  induction l generalizing s t with
  | nil => exact h
  | cons x l ih => exact ih (hf s t x h)

theorem hbm_storeUnits {s t : State} (h : t.hbm = s.hbm) (mc : Nat) (data : List FLine) (us : List (Nat × Nat)) :
    (t.storeUnits mc data us).hbm = (s.storeUnits mc data us).hbm := by
  have hline (s t : State) (l : Nat) (f : FLine) (h : t.hbm = s.hbm) : (t.putHline mc l f).hbm = (s.putHline mc l f).hbm :=
    congrArg (put lineZero · _ _) h
  have hunit (s t : State) (u : Nat) (ls : List FLine) (h : t.hbm = s.hbm) : (t.putHunit mc u ls).hbm = (s.putHunit mc u ls).hbm :=
    hbm_foldl (f := fun t (x : Nat × FLine) => t.putHline mc (4 * u + x.1) x.2) (fun s t _ => hline s t _ _) _ h
  exact hbm_foldl (f := fun t (v : Nat × Nat) => t.putHunit mc v.2 ((data.drop (4 * v.1)).take 4)) (fun s t _ => hunit s t _ _) us h

theorem alive_of_hbm {s t : State} (h : t.sansHbm = s.sansHbm) (p : Nat) : t.alive p = s.alive p := (congrArg (State.alive · p) h :)

/-- A stack that is up takes every unit. -/
theorem storeUnits_of_alive {s : State} {mc : Nat} (h : s.alive (mcPage mc) = true) (data : List FLine) (us : List (Nat × Nat)) :
    us.foldl (fun (g : State) v => if g.alive (mcPage mc) then g.putHunit mc v.2 ((data.drop (4 * v.1)).take 4) else g) s = s.storeUnits mc data us := by
  induction us generalizing s with
  | nil => rfl
  | cons v us ih =>
    rw [List.foldl_cons, if_pos h]
    exact ih ((alive_of_hbm (sansHbm_putHunit ..) _).trans h)

theorem rd_sideBytes {s : State} (w : Wf s) (mc n : Nat) : (s.sideBytes mc n).rd (mcPage mc) R.MC_SIDE_BYTES =
    (s.rd (mcPage mc) R.MC_SIDE_BYTES + (look natZero s.sideRem mc + n) / 1024) % 2 ^ R.MC_SIDE_BYTES.w :=
  rd_wr_self (((Kept.refl s).upd rfl).wf w) _ _ _

/-! Lender requests (R259, R260). -/

/-- The answer leaves over the X port. -/
theorem sideQueue_side {s : State} (w : Wf s) (p : Nat) (f : SideFlit) : ((s.sideQueue p f).wle p).side = (s.wle p).side ++ [f] :=
  congrArg WlEnd.side (wle_setWle_self w p _)

/-- A lender's request of `count` units. -/
structure Loan where
  die : Nat
  peer : Nat
  lgran : Nat
  off : Nat
  write : Bool
  count : Nat

section
variable (s : State) (q : Loan)

def State.loanMc : Nat := q.die * 4 + skStack (s.stakeE q.die q.lgran)

def State.loanUnits : List Nat :=
  (List.range q.count).map fun k => skUnit (s.stakeE q.die q.lgran) (flitAddr (q.lgran * 2 ^ 26 + q.off % 2 ^ 26 / 128 * 128) k)

/-- Whether the unit is lent to the package that asks, of the own pod and not protected. -/
def State.grants : Bool :=
  let en := s.stakeE q.die q.lgran
  decide (skKind en = 1) && decide (skStack en < 3) && skLent en && decide (skPeer en = q.peer) && !(q.write && skWp en) && s.samePod q.peer

def State.refuseLoan : State := (s.raise (stPg q.die 0) 10).sideQueue (wlPg q.die 3) ⟨1, 8 + q.die, .memAns q.peer false, []⟩

/-- A granted write stores its lines. -/
def State.loanWrite (data : List FLine) : State :=
  ((s.sideBytes (s.loanMc q) (128 * q.count)).storeUnits (s.loanMc q) data ((List.range q.count).zip (s.loanUnits q))).sideQueue (wlPg q.die 3)
    ⟨1, 8 + q.die, .memAns q.peer true, []⟩

/-- What a granted read answers with. -/
def State.loanLines : List FLine := (s.loanUnits q).flatMap fun u => s.hunit (s.loanMc q) u

/-- A granted read answers with its lines. -/
def State.loanRead : State :=
  ((s.sideBytes (s.loanMc q) (128 * q.count)).addSat (mcPage (s.loanMc q)) R.MC_POISON_RD_CNT ((s.loanLines q).filter FLine.poi).length).sideQueue
    (wlPg q.die 3) ⟨1, 8 + q.die, .memAns q.peer true, s.loanLines q⟩

def Loan.cmd (data : List FLine) (hits : List EccHit) (stk : Option Bool) : Instr :=
  .lenderRequest q.die q.peer q.lgran q.off q.write q.count data hits stk

end

section
variable {s : State} {q : Loan}

theorem exec_loan_refused (hd : q.die < 8) (ha : s.alive (stPg q.die 0) = true) (h : s.grants q = false) (data : List FLine) (hits : List EccHit) :
    exec (q.cmd data hits none) s = .next (s.refuseLoan q) := by
  have hgo : (decide (q.die < 8) && s.alive (stPg q.die 0)) = true := by simp [hd, ha]
  refine congrArg Host.Outcome.next ((if_pos hgo).trans (if_neg ?_))
  change ¬ (s.grants q && decide ((none : Option Bool) ≠ some true)) = true
  simp [h]

theorem exec_loan_ue (hd : q.die < 8) (ha : s.alive (stPg q.die 0) = true) (data : List FLine) (hits : List EccHit) :
    exec (q.cmd data hits (some true)) s = .next ((s.zeroErr q.die 2).refuseLoan q) := by
  have hgo : (decide (q.die < 8) && s.alive (stPg q.die 0)) = true := by simp [hd, ha]
  refine congrArg Host.Outcome.next ((if_pos hgo).trans (if_neg ?_))
  change ¬ ((s.zeroErr q.die 2).grants q && decide (some true ≠ some true)) = true
  simp

theorem exec_loan_write (hd : q.die < 8) (ha : s.alive (stPg q.die 0) = true) (h : s.grants q = true) (hup : s.mcUp (s.loanMc q) = true)
    (hw : q.write = true) (data : List FLine) : exec (q.cmd data [] none) s = .next (s.loanWrite q data) := by
  have hgo : (decide (q.die < 8) && s.alive (stPg q.die 0)) = true := by simp [hd, ha]
  have hok : (s.grants q && decide ((none : Option Bool) ≠ some true)) = true := by simp [h]
  have hstack : (s.sideBytes (s.loanMc q) (128 * q.count)).alive (mcPage (s.loanMc q)) = true := (Bool.and_eq_true_iff.mp hup).1
  refine congrArg Host.Outcome.next ((if_pos hgo).trans ((if_pos hok).trans ((if_pos hw).trans ?_)))
  unfold State.loanWrite
  rw [← storeUnits_of_alive hstack]
  rfl

theorem exec_loan_read (hd : q.die < 8) (ha : s.alive (stPg q.die 0) = true) (h : s.grants q = true) (hup : s.mcUp (s.loanMc q) = true) (w : Wf s)
    (hw : q.write = false) (data : List FLine) : exec (q.cmd data [] none) s = .next (s.loanRead q) := by
  have hgo : (decide (q.die < 8) && s.alive (stPg q.die 0)) = true := by simp [hd, ha]
  have hok : (s.grants q && decide ((none : Option Bool) ≠ some true)) = true := by simp [h]
  have hread := mcRead_clean (((sideBytes_served s (s.loanMc q) (128 * q.count)).mcUp w _).trans hup) (s.loanUnits q) (s.loanLines q)
  refine congrArg Host.Outcome.next ((if_pos hgo).trans ((if_pos hok).trans ((if_neg (by simp [hw])).trans ?_)))
  exact congrArg (fun x : State × List FLine => x.1.sideQueue (wlPg q.die 3) ⟨1, 8 + q.die, .memAns q.peer true, x.2⟩) hread

end

end Sys2Proof.Machine
end

section
/-! SUPPORT. Lender requests answered, and the end of borrowed operations (O42). -/

namespace Sys2Proof.Machine
open Sys2Proof

theorem kept_storeUnits (s : State) (mc : Nat) (data : List FLine) (us : List (Nat × Nat)) : Kept s (s.storeUnits mc data us) :=
  Kept.foldl _ (fun _ _ h => kept_putHunit h ..) (Kept.refl s)

theorem spares_storeUnits {q : Nat} {g : Fld} (s : State) (mc : Nat) (data : List FLine) (us : List (Nat × Nat)) : Spares q g s (s.storeUnits mc data us) :=
  .of_regs (kept_storeUnits ..) (congrArg State.regs (sansHbm_storeUnits ..) :)

section
variable {s t : State}

theorem Served.clk (h : Served s t) : t.clk = s.clk := (congrArg State.clk h.frame :)
theorem Served.tiles (h : Served s t) : t.tiles = s.tiles := (congrArg State.tiles h.frame :)
theorem Served.hbm (h : Served s t) : t.hbm = s.hbm := (congrArg State.hbm h.frame :)
theorem Served.out (h : Served s t) : t.out = s.out := (congrArg State.out h.frame :)
theorem Served.wle (h : Served s t) (p : Nat) : t.wle p = s.wle p := (congrArg (State.wle · p) h.frame :)

theorem clk_of_hbm (h : t.sansHbm = s.sansHbm) : t.clk = s.clk := (congrArg State.clk h :)
theorem tiles_of_hbm (h : t.sansHbm = s.sansHbm) : t.tiles = s.tiles := (congrArg State.tiles h :)
theorem wle_of_hbm (h : t.sansHbm = s.sansHbm) (p : Nat) : t.wle p = s.wle p := (congrArg (State.wle · p) h :)

end

/-! What a granted request leaves. -/

section
variable {s : State} {q : Loan}

theorem loanWrite_spec (w : Wf s) (data : List FLine) :
    let t := s.loanWrite q data
    t.clk = s.clk ∧ t.tiles = s.tiles ∧ (t.wle (wlPg q.die 3)).side = (s.wle (wlPg q.die 3)).side ++ [⟨1, 8 + q.die, .memAns q.peer true, []⟩] ∧
      t.rd (mcPage (s.loanMc q)) R.MC_SIDE_BYTES = (s.rd (mcPage (s.loanMc q)) R.MC_SIDE_BYTES +
        (look natZero s.sideRem (s.loanMc q) + 128 * q.count) / 1024) % 2 ^ R.MC_SIDE_BYTES.w ∧
      t.hbm = (s.storeUnits (s.loanMc q) data ((List.range q.count).zip (s.loanUnits q))).hbm := by
  unfold State.loanWrite
  have hserved := sideBytes_served s (s.loanMc q) (128 * q.count)
  have hcount := rd_sideBytes w (s.loanMc q) (128 * q.count)
  generalize (List.range q.count).zip (s.loanUnits q) = us
  generalize s.sideBytes (s.loanMc q) (128 * q.count) = b at *
  have wb := hserved.wf w
  have hhbm := hbm_storeUnits hserved.hbm (s.loanMc q) data us
  have hframe := sansHbm_storeUnits b (s.loanMc q) data us
  have hside := sideQueue_side ((kept_storeUnits b (s.loanMc q) data us).wf wb) (wlPg q.die 3) ⟨1, 8 + q.die, .memAns q.peer true, []⟩
  have hrd := ((spares_storeUnits b (s.loanMc q) data us).rd wb).trans hcount
  generalize b.storeUnits (s.loanMc q) data us = u at *
  have hwle := (wle_of_hbm hframe (wlPg q.die 3)).trans (hserved.wle _)
  exact ⟨(clk_of_hbm hframe).trans hserved.clk, (tiles_of_hbm hframe).trans hserved.tiles, hside.trans (by rw [hwle]), hrd, hhbm⟩

theorem loanRead_spec (w : Wf s) :
    let t := s.loanRead q
    t.clk = s.clk ∧ t.tiles = s.tiles ∧ (t.wle (wlPg q.die 3)).side = (s.wle (wlPg q.die 3)).side ++ [⟨1, 8 + q.die, .memAns q.peer true, s.loanLines q⟩] ∧
      t.rd (mcPage (s.loanMc q)) R.MC_SIDE_BYTES = (s.rd (mcPage (s.loanMc q)) R.MC_SIDE_BYTES +
        (look natZero s.sideRem (s.loanMc q) + 128 * q.count) / 1024) % 2 ^ R.MC_SIDE_BYTES.w ∧ t.hbm = s.hbm := by
  unfold State.loanRead
  have hserved := sideBytes_served s (s.loanMc q) (128 * q.count)
  have hcount := rd_sideBytes w (s.loanMc q) (128 * q.count)
  generalize (List.filter FLine.poi (s.loanLines q)).length = n
  generalize s.sideBytes (s.loanMc q) (128 * q.count) = b at *
  have hpoison := poisonRead_served b (s.loanMc q) n
  have hrd : (b.addSat (mcPage (s.loanMc q)) R.MC_POISON_RD_CNT n).rd (mcPage (s.loanMc q)) R.MC_SIDE_BYTES = _ :=
    (rd_wr_place (hserved.wf w) _ rfl rfl (by decide)).trans hcount
  generalize b.addSat (mcPage (s.loanMc q)) R.MC_POISON_RD_CNT n = u at *
  have hboth := hserved.trans hpoison
  have hside := sideQueue_side (hboth.wf w) (wlPg q.die 3) ⟨1, 8 + q.die, .memAns q.peer true, s.loanLines q⟩
  exact ⟨hboth.clk, hboth.tiles, hside.trans (by rw [hboth.wle]), hrd, hboth.hbm⟩

/-- A granted request is answered, with the lines of the units or with what it stored. -/
theorem loan_granted (w : Wf s) (hd : q.die < 8) (ha : s.alive (stPg q.die 0) = true) (h : s.grants q = true) (hup : s.mcUp (s.loanMc q) = true)
    (data : List FLine) : ∃ t, exec (q.cmd data [] none) s = .next t ∧ t.clk = s.clk ∧ t.tiles = s.tiles ∧
      (t.wle (wlPg q.die 3)).side = (s.wle (wlPg q.die 3)).side ++ [⟨1, 8 + q.die, .memAns q.peer true, if q.write then [] else s.loanLines q⟩] ∧
      t.rd (mcPage (s.loanMc q)) R.MC_SIDE_BYTES = (s.rd (mcPage (s.loanMc q)) R.MC_SIDE_BYTES +
        (look natZero s.sideRem (s.loanMc q) + 128 * q.count) / 1024) % 2 ^ R.MC_SIDE_BYTES.w ∧
      t.hbm = if q.write then (s.storeUnits (s.loanMc q) data ((List.range q.count).zip (s.loanUnits q))).hbm else s.hbm := by
  cases hw : q.write with
  | true => exact ⟨_, exec_loan_write hd ha h hup hw data, loanWrite_spec w data⟩
  | false => exact ⟨_, exec_loan_read hd ha h hup w hw data, loanRead_spec w⟩

end

/-! The end of a borrowed operation (R260). -/

/-- The state but for what counters and faults write. -/
def State.sansNote (s : State) : State := { s with regs := [], pages := [], flt := {}, osd := [] }

/-- The state but for that and what a read stores. -/
def State.sansLand (s : State) : State := { s with regs := [], pages := [], flt := {}, osd := [], hbm := [], sideRem := [] }

section
variable {s t : State}

theorem note_of_report (h : t.sansReport = s.sansReport) : t.sansNote = s.sansNote := (congrArg State.sansNote h :)
theorem land_of_note (h : t.sansNote = s.sansNote) : t.sansLand = s.sansLand := (congrArg State.sansLand h :)
theorem clk_of_land (h : t.sansLand = s.sansLand) : t.clk = s.clk := (congrArg State.clk h :)
theorem tiles_of_land (h : t.sansLand = s.sansLand) : t.tiles = s.tiles := (congrArg State.tiles h :)
theorem eng_of_land (h : t.sansLand = s.sansLand) (d e : Nat) : t.eng d e = s.eng d e := (congrArg (State.eng · d e) h :)
theorem hbm_of_note (h : t.sansNote = s.sansNote) : t.hbm = s.hbm := (congrArg State.hbm h :)

end

theorem sansNote_evtOpt (s : State) (d : Nat) (e : Option Nat) : (s.evtOpt d e).sansNote = s.sansNote := by
  cases e with
  | none => rfl
  | some c =>
    obtain ⟨x, hx⟩ := evtAdd_eq s d c 1
    refine (congrArg State.sansNote hx).trans ?_
    obtain h | ⟨a, b, k, h⟩ := condNote_cases ((s.setOd d x).addSat (osTop d) (Fld.idx R.OS_EVT_CNT (c % 16)) 1) d s.clk.seen <;> rw [h] <;> rfl

/-- Where the data of a read lands: in a local stack, or nowhere with the fault of its destination. -/
def State.landLoan (s : State) (d e : Nat) (b : Borrow) (data : Option (List FLine)) : State :=
  if b.write then s
  else
    match s.resolve d b.addr2 true false false with
    | .here mc _ =>
      (s.storeUnits mc (data.getD (noData (4 * b.count))) ((List.range b.count).zip (s.rangeUnits d b.addr2 b.count))).sideBytes mc (128 * b.count)
    | pl => s.placeErr d e b.idx pl

/-- The fault that says why an operation failed, if any. -/
def State.sayFault (s : State) (d e idx : Nat) (src : Option Nat) : State :=
  match src with
  | none => s
  | some k => s.engErr d e idx k

/-- The engine without the operation. -/
def Eng.without (x : Eng) (b : Borrow) : Eng := { x with borrow := x.borrow.filter (· ≠ b) }

/-! Each part of it. -/

theorem sansNote_engErr (s : State) (d e idx src : Nat) : (s.engErr d e idx src).sansNote = s.sansNote := note_of_report (sansReport_engErr ..)

theorem sansNote_sayFault (s : State) (d e idx : Nat) (src : Option Nat) : (s.sayFault d e idx src).sansNote = s.sansNote := by
  cases src with
  | none => rfl
  | some k => exact sansNote_engErr ..

theorem sansNote_placeErr (s : State) (d e idx : Nat) (pl : Place) : (s.placeErr d e idx pl).sansNote = s.sansNote := by
  unfold State.placeErr
  split
  · exact sansNote_engErr ..
  · rfl

theorem sansLand_landLoan (s : State) (d e : Nat) (b : Borrow) (data : Option (List FLine)) : (s.landLoan d e b data).sansLand = s.sansLand := by
  unfold State.landLoan
  split
  · rfl
  · split
    · exact (congrArg State.sansLand (sansHbm_storeUnits ..) :)
    · exact land_of_note (sansNote_placeErr ..)

theorem landLoan_write {b : Borrow} (h : b.write = true) (s : State) (d e : Nat) (data : Option (List FLine)) : s.landLoan d e b data = s := if_pos h

theorem hbm_landLoan_read {s : State} {d : Nat} {b : Borrow} {mc v : Nat} (hb : b.write = false) (h : s.resolve d b.addr2 true false false = .here mc v)
    (e : Nat) (data : Option (List FLine)) : (s.landLoan d e b data).hbm =
      (s.storeUnits mc (data.getD (noData (4 * b.count))) ((List.range b.count).zip (s.rangeUnits d b.addr2 b.count))).hbm := by
  unfold State.landLoan
  rw [if_neg (by simp [hb]), h]
  rfl

/-- What the end of an operation leaves of the registers: where its data lands neither the counters nor their pages are touched. -/
theorem spares_landLoan {q : Nat} {g : Fld} (hside : g.apart [R.MC_SIDE_BYTES] = true)
    (herr : g.apart [R.ST_ERR_LAST_INDEX, R.ST_ERR_LAST_SRC, R.PG_FSTAT_SRC] = true) (hstat : g.apart [R.PG_FSTAT_SRC] = true)
    (s : State) (d e : Nat) (b : Borrow) (data : Option (List FLine)) : Spares q g s (s.landLoan d e b data) := by
  unfold State.landLoan
  refine .ite (.refl q g s) ?_
  split
  · exact .trans (spares_storeUnits ..) (spares_sideBytes hside List.mem_cons_self ..)
  · unfold State.placeErr
    split
    · exact spares_engErr herr hstat ..
    · exact .refl q g s

theorem spares_sayFault {q : Nat} {g : Fld} (herr : g.apart [R.ST_ERR_LAST_INDEX, R.ST_ERR_LAST_SRC, R.PG_FSTAT_SRC] = true)
    (hstat : g.apart [R.PG_FSTAT_SRC] = true) (s : State) (d e idx : Nat) (src : Option Nat) : Spares q g s (s.sayFault d e idx src) := by
  cases src with
  | none => exact .refl q g s
  | some k => exact spares_engErr herr hstat ..

theorem eng_setEng_self {s : State} (w : Wf s) (d e : Nat) (x : Eng) : (s.setEng d e x).eng d e = x := look_put_self _ _ w.engs

/-- ST_ERR_LAST names the descriptor and the source of the last fault (Table 7-12). -/
theorem engErr_last {s : State} (w : Wf s) (d e idx : Nat) {src : Nat} (h : src ≤ 9) :
    (s.engErr d e idx src).rd (stPg d e) R.ST_ERR_LAST_INDEX = idx % 2 ^ R.ST_ERR_LAST_INDEX.w ∧
      (s.engErr d e idx src).rd (stPg d e) R.ST_ERR_LAST_SRC = src % 2 ^ R.ST_ERR_LAST_SRC.w := by
  have w1 : Wf (s.wr (stPg d e) R.ST_ERR_LAST_INDEX idx) := (kept_wr (Kept.refl s) ..).wf w
  have w2 : Wf ((s.wr (stPg d e) R.ST_ERR_LAST_INDEX idx).wr (stPg d e) R.ST_ERR_LAST_SRC src) := (kept_wr (Kept.refl _) ..).wf w1
  have heq : s.engErr d e idx src = (((s.wr (stPg d e) R.ST_ERR_LAST_INDEX idx).wr (stPg d e) R.ST_ERR_LAST_SRC src).raise (stPg d e) src) :=
    congrArg (State.raise · (stPg d e) src) (if_pos h)
  rw [heq]
  refine ⟨((spares_raiseX (by decide) _ _ _ _ _).rd w2).trans ?_, ((spares_raiseX (by decide) _ _ _ _ _).rd w2).trans (rd_wr_self w1 ..)⟩
  exact (rd_wr_place w1 _ rfl rfl (by decide)).trans (rd_wr_self w ..)

/-- What follows when the operation has left those in flight. -/
def State.borrowRest (s : State) (d e : Nat) (b : Borrow) (data : Option (List FLine)) (src : Option Nat) : State :=
  ((s.landLoan d e b data).evtOpt d b.evt).sayFault d e b.idx src

theorem borrowEnd_eq (s : State) (d e : Nat) (b : Borrow) (data : Option (List FLine)) (src : Option Nat) :
    s.borrowEnd d e b data src none = (s.setEng d e ((s.eng d e).without b)).borrowRest d e b data src := rfl

theorem kept_landLoan (s : State) (d e : Nat) (b : Borrow) (data : Option (List FLine)) : Kept s (s.landLoan d e b data) :=
  (spares_landLoan (q := 0) (g := R.WL_STAT_STATE) (by decide) (by decide) (by decide) s d e b data).kept

/-- The data lands, the counter counts and a failure is named (R209, R260). -/
theorem borrowRest_spec {s : State} (w : Wf s) (d e : Nat) (b : Borrow) (data : Option (List FLine)) (src : Option Nat) :
    let t := s.borrowRest d e b data src
    t.sansLand = s.sansLand ∧ (b.write = true → t.hbm = s.hbm) ∧
      (∀ mc v, b.write = false → s.resolve d b.addr2 true false false = .here mc v →
        t.hbm = (s.storeUnits mc (data.getD (noData (4 * b.count))) ((List.range b.count).zip (s.rangeUnits d b.addr2 b.count))).hbm) ∧
      (∀ k, k < 16 → t.rd (osTop d) (Fld.idx R.OS_EVT_CNT k) =
        if b.evt.map (· % 16) = some k then min (s.rd (osTop d) (Fld.idx R.OS_EVT_CNT k) + 1) (2 ^ R.OS_EVT_CNT.w - 1)
        else s.rd (osTop d) (Fld.idx R.OS_EVT_CNT k)) ∧
      ∀ k, src = some k → k ≤ 9 → t.rd (stPg d e) R.ST_ERR_LAST_INDEX = b.idx % 2 ^ R.ST_ERR_LAST_INDEX.w ∧
        t.rd (stPg d e) R.ST_ERR_LAST_SRC = k % 2 ^ R.ST_ERR_LAST_SRC.w := by
  intro t
  have hnote : t.sansNote = (s.landLoan d e b data).sansNote := (sansNote_sayFault ..).trans (sansNote_evtOpt ..)
  have wl : Wf (s.landLoan d e b data) := (kept_landLoan s d e b data).wf w
  have we : Wf ((s.landLoan d e b data).evtOpt d b.evt) := (kept_evtOpt (Kept.refl _) ..).wf wl
  refine ⟨(land_of_note hnote).trans (sansLand_landLoan ..), fun hw => (hbm_of_note hnote).trans (congrArg State.hbm (landLoan_write hw ..)),
    fun mc v hw h => (hbm_of_note hnote).trans (hbm_landLoan_read hw h e data), fun k hk => ?count, fun k hk hk9 => ?fault⟩
  case count =>
    obtain ⟨hside, herr, hstat⟩ := evtCnt_apart k hk
    have hland : (s.landLoan d e b data).rd (osTop d) (Fld.idx R.OS_EVT_CNT k) = s.rd (osTop d) (Fld.idx R.OS_EVT_CNT k) :=
      (spares_landLoan hside herr hstat s d e b data).rd w
    have hsay : t.rd (osTop d) (Fld.idx R.OS_EVT_CNT k) = ((s.landLoan d e b data).evtOpt d b.evt).rd (osTop d) (Fld.idx R.OS_EVT_CNT k) :=
      (spares_sayFault herr hstat _ d e b.idx src).rd we
    rw [hsay, rd_evtOpt wl, hland]
  case fault =>
    subst hk
    exact engErr_last we d e b.idx hk9

/-- The end of an operation: it leaves those in flight, then its data lands, its counter counts and its failure is named. -/
theorem borrowEnd_spec {s : State} (w : Wf s) (d e : Nat) (b : Borrow) (data : Option (List FLine)) (src : Option Nat) :
    let t := s.borrowEnd d e b data src none
    t.clk = s.clk ∧ t.tiles = s.tiles ∧ t.eng d e = (s.eng d e).without b ∧ (b.write = true → t.hbm = s.hbm) ∧
      (∀ mc v, b.write = false → s.resolve d b.addr2 true false false = .here mc v →
        t.hbm = (s.storeUnits mc (data.getD (noData (4 * b.count))) ((List.range b.count).zip (s.rangeUnits d b.addr2 b.count))).hbm) ∧
      (∀ k, k < 16 → t.rd (osTop d) (Fld.idx R.OS_EVT_CNT k) =
        if b.evt.map (· % 16) = some k then min (s.rd (osTop d) (Fld.idx R.OS_EVT_CNT k) + 1) (2 ^ R.OS_EVT_CNT.w - 1)
        else s.rd (osTop d) (Fld.idx R.OS_EVT_CNT k)) ∧
      ∀ k, src = some k → k ≤ 9 → t.rd (stPg d e) R.ST_ERR_LAST_INDEX = b.idx % 2 ^ R.ST_ERR_LAST_INDEX.w ∧
        t.rd (stPg d e) R.ST_ERR_LAST_SRC = k % 2 ^ R.ST_ERR_LAST_SRC.w := by
  rw [borrowEnd_eq]
  have heng := eng_setEng_self w d e ((s.eng d e).without b)
  have hstore (mc : Nat) (ls : List FLine) (us : List (Nat × Nat)) :
      ((s.setEng d e ((s.eng d e).without b)).storeUnits mc ls us).hbm = (s.storeUnits mc ls us).hbm :=
    hbm_storeUnits (s := s) (t := s.setEng d e ((s.eng d e).without b)) rfl mc ls us
  obtain ⟨hframe, hwrite, hread, hcount, hfault⟩ :=
    borrowRest_spec ((kept_setEng (Kept.refl s) d e ((s.eng d e).without b)).wf w) d e b data src
  exact ⟨(clk_of_land hframe :), (tiles_of_land hframe :), (eng_of_land hframe d e).trans heng, hwrite,
    fun mc v hb h => (hread mc v hb h).trans (hstore ..), hcount, hfault⟩

end Sys2Proof.Machine
end

section
/-! SUPPORT. The host window (O42). -/

namespace Sys2Proof.Machine
open Sys2Proof

/-- One line of a host access; nothing more is done once the access is refused. -/
def hostStep (m : HostMove) (x : State × HostDone) (k : Nat) : State × HostDone :=
  if x.2.refused then x
  else
    match x.1.hostTouch m k with
    | (s, some b) => (s, { data := x.2.data ++ b.1, moved := x.2.moved + (hostPart m.at' m.len k).2.2, poi := x.2.poi || b.2, refused := false })
    | (s, none) => (s, { x.2 with refused := true })

theorem hostRun_eq (s : State) (m : HostMove) {stk : Option Bool} (h : stk ≠ some false) :
    s.hostRun m stk = (List.range (hostLines m.at' m.len)).foldl (hostStep m) (s, {}) := by
  unfold State.hostRun
  dsimp only
  rw [State.stakeCe, if_neg h]
  rfl

theorem hostSteps_refused (m : HostMove) (l : List Nat) {x : State × HostDone} (h : x.2.refused = true) : l.foldl (hostStep m) x = x := by
  induction l with
  | nil => rfl
  | cons k l ih => rw [List.foldl_cons, hostStep, if_pos h, ih]

/-! The lines that an access touches. -/

theorem hostLines_pos {a len : Nat} (h : 0 < len) : 0 < hostLines a len := by
  unfold hostLines
  split <;> omega

theorem hostLines_one {a len : Nat} (h : 0 < len) (hfit : a % 32 + len ≤ 32) : hostLines a len = 1 := by
  unfold hostLines
  split <;> omega

/-- The first line's part starts at the access's own address. -/
theorem hostPart_zero (a len : Nat) (h : a < 2 ^ 42) : hostPart a len 0 = (a, 0, min (a + len) (a / 32 * 32 + 32) - a) := by
  unfold hostPart
  have hmax : max a (a / 32 * 32) = a := by omega
  simp only [Nat.mul_zero, Nat.add_zero, hmax, Nat.mod_eq_of_lt h, Nat.sub_self]

theorem hostPart_zero_fits {a len : Nat} (h : a < 2 ^ 42) (hfit : a % 32 + len ≤ 32) : hostPart a len 0 = (a, 0, len) := by
  rw [hostPart_zero a len h, show min (a + len) (a / 32 * 32 + 32) - a = len by omega]

/-! A read. -/

/-- What a read of the window moves. -/
def HostMove.clean (at' len : Nat) (write : Bool) (data : List Byte) : HostMove := ⟨at', len, write, data, false, [], false⟩

/-- The bytes of part `k` of an access, of a line. -/
def partBytes (a len k : Nat) (f : FLine) : List Byte :=
  ((lineBytes f).drop ((hostPart a len k).1 % 32)).take (hostPart a len k).2.2 |>.map (BitVec.ofNat 8)

/-- A line that resolves to a stack that serves is read as it is. -/
theorem hostTouch_read {s : State} (w : Wf s) {a len k mc line : Nat} (hp : s.hostPlace (hostPart a len k).1 false false = .inl (mc, line))
    (hup : s.mcUp mc = true) (data : List Byte) :
    ∃ t, Served s t ∧ s.hostTouch (.clean a len false data) k = (t, some (partBytes a len k (s.hline mc line), (s.hline mc line).poi)) := by
  have hside := sideBytes_served s mc (hostPart a len k).2.2
  have hread := mcRead_clean ((hside.mcUp w mc).trans hup) [line / 4] [s.hline mc line]
  refine ⟨_, hside.trans (poisonRead_served _ mc ([s.hline mc line].filter FLine.poi).length), ?_⟩
  unfold State.hostTouch HostMove.clean
  dsimp only
  rw [Bool.false_and, hp]
  exact congrArg (fun x : State × List FLine => (x.1, some (partBytes a len k (x.2.headD poisonLine), (x.2.headD poisonLine).poi))) hread

theorem Served.hostPlace {s t : State} (h : Served s t) (w : Wf s) (a : Nat) (wr ue : Bool) : t.hostPlace a wr ue = s.hostPlace a wr ue := by
  unfold State.hostPlace
  rw [h.resolve w]

/-- The lines of a read, in order. -/
theorem hostSteps_read {s : State} (w : Wf s) {a len : Nat} {at' : Nat → Nat × Nat} (data : List Byte) (n : Nat)
    (h : ∀ k, k < n → s.hostPlace (hostPart a len k).1 false false = .inl (at' k) ∧ s.mcUp (at' k).1 = true) :
    ∃ t m, Served s t ∧ (List.range n).foldl (hostStep (.clean a len false data)) (s, {}) =
      (t, ⟨(List.range n).flatMap fun k => partBytes a len k (s.hline (at' k).1 (at' k).2), m,
        (List.range n).any fun k => (s.hline (at' k).1 (at' k).2).poi, false⟩) := by
  induction n with
  | zero => exact ⟨s, 0, .refl s, rfl⟩
  | succ n ih =>
    obtain ⟨t, m, hserved, hfold⟩ := ih fun k hk => h k (by omega)
    obtain ⟨hplace, hup⟩ := h n (Nat.lt_succ_self n)
    obtain ⟨u, hu, htouch⟩ := hostTouch_read (hserved.wf w) ((hserved.hostPlace w ..).trans hplace) ((hserved.mcUp w _).trans hup) data
    rw [hserved.hline] at htouch
    refine ⟨u, m + (hostPart a len n).2.2, hserved.trans hu, ?_⟩
    rw [List.range_succ, List.foldl_append, hfold, List.foldl_cons, List.foldl_nil, List.flatMap_append, List.any_append, List.flatMap_singleton,
      List.any_cons, List.any_nil, Bool.or_false, hostStep]
    dsimp only
    rw [htouch]
    rfl

/-! A write inside one line, and a refused access. -/

/-- The bytes of a write with their places in the line. -/
theorem zipIdx_take_eq (data : List Byte) (len a : Nat) :
    ((data.drop 0).take len).zipIdx.map (fun x => (a + x.2, x.1)) = ((List.range len).zip data).map fun x => (a + x.1, x.2) := by
  refine List.ext_getElem (by simp) fun i _ _ => ?_
  simp

/-- A write inside one line merges its bytes into that line. -/
theorem hostRun_write {s : State} {a len mc line : Nat} (ha : a < 2 ^ 42) (hlen : 0 < len) (hfit : a % 32 + len ≤ 32)
    (hp : s.hostPlace a true false = .inl (mc, line)) (hup : s.mcUp mc = true) (data : List Byte) :
    (s.hostRun (.clean a len true data) none).1 = (s.sideBytes mc len).putHline mc line
      (lineMerge (s.hline mc line) (((List.range len).zip data).map fun x => (a % 32 + x.1, x.2))) := by
  have halive : (s.sideBytes mc len).alive (mcPage mc) = true := (Bool.and_eq_true_iff.mp hup).1
  have htouch : s.hostTouch (.clean a len true data) 0 =
      ((s.sideBytes mc len).hostPut mc line a ((data.drop 0).take len) false, some ([], false)) := by
    unfold State.hostTouch HostMove.clean
    dsimp only
    rw [hostPart_zero_fits ha hfit, Bool.false_and]
    dsimp only
    rw [hp]
    rfl
  rw [hostRun_eq s _ (by simp)]
  change ((List.range (hostLines a len)).foldl (hostStep (.clean a len true data)) (s, {})).1 = _
  rw [hostLines_one hlen hfit]
  change (hostStep (.clean a len true data) (s, {}) 0).1 = _
  rw [hostStep, if_neg (by simp)]
  dsimp only
  rw [htouch]
  dsimp only
  rw [State.hostPut, if_pos halive, zipIdx_take_eq]
  rfl

/-- An access whose first line is refused ends there. -/
theorem hostRun_refused {s : State} {m : HostMove} {stk : Option Bool} {src : Nat} (ha : m.at' < 2 ^ 42) (hlen : 0 < m.len) (hstk : stk ≠ some false)
    (hp : s.hostPlace m.at' m.write m.ue = .inr src) : s.hostRun m stk = (s.zeroErr (m.at' / 2 ^ 39) src, { refused := true }) := by
  have htouch : s.hostTouch m 0 = (s.zeroErr (m.at' / 2 ^ 39) src, none) := by
    unfold State.hostTouch
    dsimp only
    rw [hostPart_zero _ _ ha]
    dsimp only
    rw [Nat.mod_eq_of_lt ha, decide_eq_true rfl, Bool.and_true, hp]
  have hfirst : hostStep m (s, {}) 0 = (s.zeroErr (m.at' / 2 ^ 39) src, { refused := true }) := by
    rw [hostStep, if_neg (by simp)]
    dsimp only
    rw [htouch]
  obtain ⟨n, hn⟩ := Nat.exists_eq_succ_of_ne_zero (hostLines_pos (a := m.at') hlen).ne'
  rw [hostRun_eq s m hstk, hn, List.range_succ_eq_map, List.foldl_cons, hfirst]
  exact hostSteps_refused m _ rfl

/-! The command. -/

/-- What the endpoint answers. -/
def windowEnds (r : State × HostDone) (h : Nat) (wr : Bool) : State :=
  if wr then r.1
  else { r.1 with out := { r.1.out with cpls := r.1.out.cpls ++ [⟨h, if r.2.refused then [] else r.2.data, r.2.poi && !r.2.refused, r.2.refused⟩] } }

theorem exec_hostWindow {s : State} {h : Nat} (hh : h < 2) (ha : s.alive (pg (0x12 + h) 0x10) = true) (off len : Nat) (wr : Bool) (data : List Byte)
    (stk : Option Bool) : exec (.hostWindowAccess h off len wr data [] stk) s = .next (windowEnds
      (s.hostRun ⟨(s.rd (pg (0x12 + h) 0x10) R.PCIE_WIN_BASE * 2 ^ 30 + off) % 2 ^ 42, len, wr, data, false, [], stk == some true⟩ stk) h wr) := by
  have hgo : (decide (h < 2) && s.alive (pg (0x12 + h) 0x10)) = true := by simp [hh, ha]
  exact congrArg Host.Outcome.next (if_pos hgo)

end Sys2Proof.Machine
end

section
/-! SUPPORT. LendingAndTheHostWindow (O42). -/

namespace Sys2Proof.Machine
open Sys2Proof

/-! The three forms of a window access. -/

section
variable {s : State} {h off len : Nat} (hh : h < 2) (ha : s.alive (pg (0x12 + h) 0x10) = true)

/-- The address that a window offset names. -/
def State.windowAt (s : State) (h off : Nat) : Nat := (s.rd (pg (0x12 + h) 0x10) R.PCIE_WIN_BASE * 2 ^ 30 + off) % 2 ^ 42

theorem windowAt_lt (s : State) (h off : Nat) : s.windowAt h off < 2 ^ 42 := Nat.mod_lt _ (Nat.two_pow_pos 42)

/-- The state that a completion joins. -/
def State.withCpl (s : State) (c : Cpl) : State := { s with out := { s.out with cpls := s.out.cpls ++ [c] } }

include hh ha

/-- A read of lines that all resolve to stacks that serve. -/
theorem exec_window_read (w : Wf s) (data : List Byte) {at' : Nat → Nat × Nat}
    (hat : ∀ k, k < hostLines (s.windowAt h off) len →
      s.hostPlace (hostPart (s.windowAt h off) len k).1 false false = .inl (at' k) ∧ s.mcUp (at' k).1 = true) :
    let n := hostLines (s.windowAt h off) len
    ∃ t, Served s t ∧ exec (.hostWindowAccess h off len false data [] none) s = .next (t.withCpl
      ⟨h, (List.range n).flatMap fun k => partBytes (s.windowAt h off) len k (s.hline (at' k).1 (at' k).2),
        (List.range n).any fun k => (s.hline (at' k).1 (at' k).2).poi, false⟩) := by
  obtain ⟨t, m, hserved, hfold⟩ := hostSteps_read w data _ hat
  refine ⟨t, hserved, (exec_hostWindow hh ha off len false data none).trans (congrArg Host.Outcome.next ?_)⟩
  have hrun := (hostRun_eq s (.clean (s.windowAt h off) len false data) (stk := none) (by simp)).trans hfold
  refine (congrArg (windowEnds · h false) hrun).trans ?_
  simp [windowEnds, State.withCpl]

/-- A read inside one line. -/
theorem exec_window_read_line (w : Wf s) {mc line : Nat} (hlen : 0 < len) (hfit : s.windowAt h off % 32 + len ≤ 32)
    (hp : s.hostPlace (s.windowAt h off) false false = .inl (mc, line)) (hup : s.mcUp mc = true) (data : List Byte) :
    ∃ t, Served s t ∧ exec (.hostWindowAccess h off len false data [] none) s = .next (t.withCpl
      ⟨h, (((lineBytes (s.hline mc line)).drop (s.windowAt h off % 32)).take len).map (BitVec.ofNat 8), (s.hline mc line).poi, false⟩) := by
  have hone := hostLines_one hlen hfit
  have hpart := hostPart_zero_fits (windowAt_lt s h off) hfit
  have hat : ∀ k, k < hostLines (s.windowAt h off) len →
      s.hostPlace (hostPart (s.windowAt h off) len k).1 false false = .inl (mc, line) ∧ s.mcUp mc = true := by
    intro k hk
    obtain rfl : k = 0 := by omega
    exact ⟨hpart ▸ hp, hup⟩
  obtain ⟨t, hserved, hexec⟩ := exec_window_read hh ha w data (at' := fun _ => (mc, line)) hat
  refine ⟨t, hserved, hexec.trans ?_⟩
  simp [hone, partBytes, hpart]

/-- A write inside one line. -/
theorem exec_window_write {mc line : Nat} (hlen : 0 < len) (hfit : s.windowAt h off % 32 + len ≤ 32)
    (hp : s.hostPlace (s.windowAt h off) true false = .inl (mc, line)) (hup : s.mcUp mc = true) (data : List Byte) :
    exec (.hostWindowAccess h off len true data [] none) s = .next ((s.sideBytes mc len).putHline mc line
      (lineMerge (s.hline mc line) (((List.range len).zip data).map fun x => (s.windowAt h off % 32 + x.1, x.2)))) :=
  (exec_hostWindow hh ha off len true data none).trans
    (congrArg Host.Outcome.next (hostRun_write (windowAt_lt s h off) hlen hfit hp hup data))

/-- An access refused at its first line. -/
theorem exec_window_refused {src : Nat} {stk : Option Bool} {wr : Bool} (hlen : 0 < len) (hstk : stk ≠ some false)
    (hp : s.hostPlace (s.windowAt h off) wr (stk == some true) = .inr src) (data : List Byte) :
    let f := s.zeroErr (s.windowAt h off / 2 ^ 39) src
    exec (.hostWindowAccess h off len wr data [] stk) s = .next (if wr then f else { f with out := { s.out with cpls := s.out.cpls ++ [⟨h, [], false, true⟩] } }) := by
  intro f
  have hrun := hostRun_refused (m := ⟨s.windowAt h off, len, wr, data, false, [], stk == some true⟩) (windowAt_lt s h off) hlen hstk hp
  refine (exec_hostWindow hh ha off len wr data stk).trans (congrArg Host.Outcome.next ((congrArg (windowEnds · h wr) hrun).trans ?_))
  have hout : f.out = s.out := (congrArg State.out (sansReport_engErr ..) :)
  rw [← hout]
  rfl

end

/-- Where an address of the window goes, by what its home die's table says. -/
theorem hostPlace_of_resolve {s : State} {a mc u : Nat} (ha : a < 2 ^ 42) {wr ue : Bool}
    (h : s.resolve (a / 2 ^ 39) a wr false ue = .here mc u ∨ ∃ port, s.resolve (a / 2 ^ 39) a wr false ue = .nbr port mc u) :
    s.hostPlace a wr ue = .inl (mc, 4 * u + a % 128 / 32) := by
  unfold State.hostPlace
  rw [Nat.mod_eq_of_lt ha]
  obtain h | ⟨port, h⟩ := h <;> rw [h]

theorem hostPlace_of_bad {s : State} {a src : Nat} (ha : a < 2 ^ 42) {wr ue : Bool} (h : s.resolve (a / 2 ^ 39) a wr false ue = .bad src) :
    s.hostPlace a wr ue = .inr src := by
  unfold State.hostPlace
  rw [Nat.mod_eq_of_lt ha, h]

/-- A stored line is read back, without data where it is poisoned; the others stand. -/
theorem look_putHline {s : State} (w : Wf s) (mc line : Nat) (f : FLine) (k : Nat) : look lineZero (s.putHline mc line f).hbm k =
    if k = mc * 2 ^ 32 + line % 2 ^ 32 then (if f.poi then poisonLine else f) else look lineZero s.hbm k := by
  split
  · next h => rw [h]; exact look_put_self _ _ w.hbm
  · next h => exact look_put_ne _ h w.hbm

/-- The answer to a borrowed operation, or its timeout. -/
theorem exec_borrow {s : State} {d e n : Nat} {b : Borrow} (hb : (s.eng d e).borrow[n]? = some b) {data : Option (List FLine)} {late : Bool}
    (hlate : late = true → data = none) (hlen : ∀ l, data = some l → b.write = false → l.length = 4 * b.count) :
    exec (if late then .borrowTimeout d e n else .borrowComplete d e n data.isSome (data.getD []) none) s =
      .next ((if late then s.toTick b.tmo else s).borrowEnd d e b data (if data.isSome then none else some (if late then 8 else 7)) none) := by
  cases late with
  | true =>
    have hexec : exec (.borrowTimeout d e n) s = .next (match (s.eng d e).borrow[n]? with
      | none => s
      | some b => (s.toTick b.tmo).borrowEnd d e b none (some 8) none) := rfl
    rw [hb] at hexec
    rw [hlate rfl]
    exact hexec
  | false =>
    have hexec (g : Bool) (l : List FLine) : exec (.borrowComplete d e n g l none) s = .next (match (s.eng d e).borrow[n]? with
      | none => s
      | some b =>
        if g && !b.write && decide (l.length ≠ 4 * b.count) then s
        else s.borrowEnd d e b (if g then some l else none) (if g then none else some 7) none) := rfl
    simp only [hb] at hexec
    cases data with
    | none => exact hexec false []
    | some l =>
      refine (hexec true l).trans (congrArg Host.Outcome.next (if_neg ?_))
      cases hw : b.write with
      | true => simp
      | false => simp [hlen l rfl hw]

/-- Settles O42: what the side share serves changes memory alone, and each operation ends with its answer, its count and its fault. -/
theorem lendingAndTheHostWindow : Obligations.LendingAndTheHostWindow := by
  unfold Obligations.LendingAndTheHostWindow
  intro s d e w hd he
  refine ⟨fun peer lgran off count wr data ha => ?lend, fun n b data late hb hlate hlen => ?borrow, fun h off len wr data hh ha hpos => ?window⟩
  case lend =>
    intro en mc us ok side no
    have hgrant : s.grants ⟨d, peer, lgran, off, wr, count⟩ = ok := rfl
    refine ⟨fun h => exec_loan_refused (q := ⟨d, peer, lgran, off, wr, count⟩) hd ha (hgrant.trans h) data [],
      fun hits => exec_loan_ue (q := ⟨d, peer, lgran, off, wr, count⟩) hd ha data hits, fun h hup => ?_⟩
    exact loan_granted (q := ⟨d, peer, lgran, off, wr, count⟩) w hd ha (hgrant.trans h) hup data
  case borrow =>
    intro cmd cnt f
    obtain ⟨c, hc⟩ : ∃ c, f = { s with clk := c } := by
      cases late with
      | true =>
        obtain ⟨c, -, hc⟩ := toTick_clk s b.tmo
        exact ⟨c, hc⟩
      | false => exact ⟨s.clk, rfl⟩
    have wf : Wf f := hc ▸ ((Kept.refl s).upd rfl).wf w
    obtain ⟨hclk, htiles, heng, hwrite, hread, hcount, hfault⟩ :=
      borrowEnd_spec wf d e b data (if data.isSome then none else some (if late then 8 else 7))
    have hexec : exec cmd s = .next (f.borrowEnd d e b data (if data.isSome then none else some (if late then 8 else 7)) none) := exec_borrow hb hlate hlen
    generalize f = g at *
    subst hc
    refine ⟨_, hexec, hclk, htiles, heng, hwrite,
      fun mc v hb h => (hread mc v hb h).trans (hbm_storeUnits (s := s) (t := { s with clk := c }) rfl ..), hcount, fun hdata => ?_⟩
    subst hdata
    cases late <;> exact hfault _ rfl (by decide)
  case window =>
    intro a home pl
    have ha42 := windowAt_lt s h off
    refine ⟨fun mc u hfit hpl hup => ?one, fun at' hr hat => ?lines, fun src stk hbad => ?refused⟩
    case one =>
      intro key old m
      have hplace := hostPlace_of_resolve ha42 hpl
      cases wr with
      | true =>
        refine ⟨_, exec_window_write hh ha hpos hfit hplace hup data, rfl, fun _ => ⟨rfl, fun k => ?_⟩, nofun⟩
        exact look_putHline ((sideBytes_served s mc len).wf w) ..
      | false =>
        obtain ⟨t, hserved, hexec⟩ := exec_window_read_line hh ha w hpos hfit hplace hup data
        exact ⟨_, hexec, congrArg (fun v : State => { v with hbm := s.hbm, out := s.out }) hserved.frame, nofun,
          fun _ => ⟨hserved.hbm, by rw [State.withCpl, hserved.out]; rfl⟩⟩
    case lines =>
      intro line
      obtain ⟨t, hserved, hexec⟩ := exec_window_read hh ha w data hat
      exact ⟨_, hexec, hserved.hbm, by rw [State.withCpl, hserved.out]; rfl⟩
    case refused =>
      intro f
      obtain ⟨hb, rfl⟩ | ⟨rfl, rfl⟩ := hbad
      · exact exec_window_refused (stk := none) hh ha hpos (by simp) (hostPlace_of_bad (ue := false) ha42 hb) data
      · exact exec_window_refused (stk := some true) hh ha hpos (by simp) (hostPlace_of_bad (ue := true) ha42 rfl) data

end Sys2Proof.Machine
end

section
/-! SUPPORT. Wire slots received (O47). -/

namespace Sys2Proof.Machine
open Sys2Proof

/-- The commands of the wire slots, by the kind they take. -/
def waleCmds (p : Nat) : List (WKind × (RxErr → Instr)) :=
  [(.idle, .waleIdleFlit p), (.side, .waleSideFlit p), (.prog, .waleProgFlit p), (.null, .waleNullFlit p), (.empty, .waleEmptyFlit p)]

theorem exec_waleCmd {p : Nat} {c : WKind × (RxErr → Instr)} (hc : c ∈ waleCmds p) (er : RxErr) (s : State) :
    exec (c.2 er) s = .next (s.rxKind p c.1 er) := by
  simp only [waleCmds, List.mem_cons, List.not_mem_nil, or_false] at hc
  rcases hc with rfl | rfl | rfl | rfl | rfl <;> rfl

/-! The slot leaves the wire. -/

/-- The end without the slot, its expected cycle slipped (R337). -/
def WlEnd.opened (w : WlEnd) (r : List WireFlit) (slip : Nat) : WlEnd := { w with wire := r, off := (w.off + slip) % 16 }

/-- What the flit hands over: its X credit, and the Weft die's ROOM (R338, R405). -/
def WlEnd.credited (w : WlEnd) (p : Nat) (f : WireFlit) : WlEnd :=
  { w with xcredit := w.xcredit + (if f.credit then 1 else 0), room := if isWeft ((walePeer p).elim 0 dieOf) then f.room else w.room }

/-- The state in which the words of a slot are read. -/
def State.rxOpen (s : State) (p : Nat) (r : List WireFlit) (er : RxErr) : State :=
  (s.setWle p ((s.wle p).opened r er.slip)).addSat p R.WL_TEST_ERR er.test

/-- Whether the cycle bits of a flit are not those that the end expects. -/
def WireFlit.slipped (f : WireFlit) (p off cc : Nat) : Bool := f.cyc && isEWV p && decide (f.ccl ≠ (cc + off) % 16)

/-- A slot without sideband errors read: its data words corrected, its cycle bits compared. -/
def State.rxWords (e : State) (p : Nat) (f : WireFlit) (er : RxErr) (off : Nat) : State × Option WireFlit :=
  let a := er.main.foldl (fun (x : State × List FLine) m => x.1.mainWord p x.2 m) (e, f.body)
  let g := if er.main.isEmpty then f else f.withBody a.2
  let slip := g.slipped p off f.cc
  let t := if slip then (a.1.inc p R.WL_SLIP_CNT).raise p 6 else a.1
  let t := if slip && g.cyc && isEWV p then t.doubtful p else t
  (t.setWle p ((t.wle p).credited p g), some (if slip then g.spoilt else g))

/-- A slot read: its sideband words, its data words, and its cycle bits compared. -/
def State.rxRead (e : State) (p : Nat) (f : WireFlit) (er : RxErr) (off : Nat) : State × Option WireFlit :=
  let v := e.sbContent p f
  let b := e.sbWords p er.sb v
  let g := if b.2.1 = v then f else b.1.sbParse p f b.2.1
  let a := er.main.foldl (fun (x : State × List FLine) m => x.1.mainWord p x.2 m) (b.1, g.body)
  let g := if er.main.isEmpty then g else g.withBody a.2
  let slip := g.slipped p off f.cc
  let t := if slip then (a.1.inc p R.WL_SLIP_CNT).raise p 6 else a.1
  let bad := slip || b.2.2
  let t := if bad && g.cyc && isEWV p then t.doubtful p else t
  (t.setWle p ((t.wle p).credited p g), some (if bad then g.spoilt else g))

/-- Without sideband errors the flit is read as it was sent. -/
theorem rxRead_of_sb (e : State) (p : Nat) (f : WireFlit) {er : RxErr} (h : er.sb = []) (off : Nat) : e.rxRead p f er off = e.rxWords p f er off := by
  have hclean (v : Nat) : e.sbWords p er.sb v = (e, v, false) := by
    rw [h]
    rfl
  unfold State.rxRead
  dsimp only
  rw [hclean]
  simp only [if_true, Bool.or_false]
  rfl

section
variable {s : State} {p : Nat} {f : WireFlit} {r : List WireFlit} {er : RxErr}

theorem rxSlot_none {k : WKind} (hw : ∀ f, (s.wle p).wire.head? = some f → f.kind ≠ k) : s.rxSlot p k er = (s, none) := by
  unfold State.rxSlot
  cases hwire : (s.wle p).wire with
  | nil => simp only [hwire]
  | cons f r =>
    have hk : f.kind ≠ k := hw f (by rw [hwire]; rfl)
    simp only [hwire]
    exact if_pos (by simp [hk])

theorem rxSlot_guard (hroom : (s.wle p).rx.length < 32 ∨ timedEnd p = false) :
    ¬ (decide (f.kind ≠ f.kind) || (timedEnd p && decide (32 ≤ (s.wle p).rx.length))) = true := by
  obtain h | h := hroom <;> simp [h]

theorem rxSlot_dead (hw : (s.wle p).wire = f :: r) (hroom : (s.wle p).rx.length < 32 ∨ timedEnd p = false) (hdead : s.portAlive p = false) :
    s.rxSlot p f.kind er = (s.setWle p ((s.wle p).opened r er.slip), none) := by
  have hdead' : (!(s.setWle p ((s.wle p).opened r er.slip)).portAlive p || !(s.setWle p ((s.wle p).opened r er.slip)).alive p) = true := by
    rw [show (s.setWle p ((s.wle p).opened r er.slip)).portAlive p = false from hdead]
    rfl
  unfold State.rxSlot
  simp only [hw]
  exact (if_neg (rxSlot_guard hroom)).trans (if_pos hdead')

theorem rxSlot_live (hw : (s.wle p).wire = f :: r) (hroom : (s.wle p).rx.length < 32 ∨ timedEnd p = false) (hlive : s.portAlive p = true)
    (ha : s.alive p = true) (hsb : er.sb = []) :
    s.rxSlot p f.kind er = (s.rxOpen p r er).rxWords p f er (((s.wle p).off + er.slip) % 16) := by
  have hlive' : ¬ (!(s.setWle p ((s.wle p).opened r er.slip)).portAlive p || !(s.setWle p ((s.wle p).opened r er.slip)).alive p) = true := by
    rw [show (s.setWle p ((s.wle p).opened r er.slip)).portAlive p = true from hlive,
      show (s.setWle p ((s.wle p).opened r er.slip)).alive p = true from ha]
    simp
  unfold State.rxSlot
  simp only [hw]
  refine (if_neg (rxSlot_guard hroom)).trans ((if_neg hlive').trans ?_)
  exact rxRead_of_sb (s.rxOpen p r er) p f hsb (((s.wle p).off + er.slip) % 16)

end

/-! Cycle bits (R337). -/

theorem slipped_iff {f : WireFlit} {p off slip : Nat} : f.slipped p ((off + slip) % 16) f.cc = false ↔
    (f.cyc = true → isEWV p = true → f.ccl = (f.cc + (off + slip)) % 16) := by
  have hcc : (f.cc + (off + slip) % 16) % 16 = (f.cc + (off + slip)) % 16 := by omega
  unfold WireFlit.slipped
  rw [hcc]
  cases f.cyc <;> cases isEWV p <;> simp

theorem withBody_kind (f : WireFlit) (ls : List FLine) : (f.withBody ls).kind = f.kind := by
  unfold WireFlit.withBody
  split <;> rfl

theorem slipped_withBody (f : WireFlit) (ls : List FLine) (p off cc : Nat) : (f.withBody ls).slipped p off cc = f.slipped p off cc := by
  unfold WireFlit.withBody
  split <;> rfl

/-- Of lists of one length joined, the piece of each. -/
theorem take_drop_flatMap {α β : Type} {g : α → List β} {n : Nat} (l : List α) (h : ∀ u ∈ l, (g u).length = n) (k : Nat) (hk : k < l.length) :
    ((l.flatMap g).drop (n * k)).take n = g l[k] := by
  induction l generalizing k with
  | nil => simp at hk
  | cons u l ih =>
    have hu : (g u).length = n := h u List.mem_cons_self
    cases k with
    | zero => simp [← hu]
    | succ k =>
      have hdrop : (g u ++ l.flatMap g).drop (n * (k + 1)) = (l.flatMap g).drop (n * k) := by
        rw [Nat.mul_succ, Nat.add_comm, ← List.drop_drop, ← hu, List.drop_left]
      rw [List.flatMap_cons, hdrop]
      exact ih (fun v hv => h v (List.mem_cons_of_mem _ hv)) k (by simpa using hk)

/-- The lines of whole payloads put back where they were. -/
theorem withBody_body (f : WireFlit) (h : ∀ u ∈ f.tags, u.lines.length = 8) : f.withBody f.body = f := by
  unfold WireFlit.withBody WireFlit.body
  split
  · rfl
  · have htags : (f.tags.zipIdx.map fun t => { t.1 with lines := ((f.tags.flatMap PTag.lines).drop (8 * t.2)).take 8 }) = f.tags := by
      refine List.ext_getElem (by simp) fun k _ hk => ?_
      simp only [List.getElem_map, List.getElem_zipIdx, Nat.zero_add, take_drop_flatMap f.tags h k hk]
    rw [htags]

/-! The slot read. -/

section
variable {e : State} {p : Nat} {f : WireFlit} {er : RxErr} {off : Nat}

/-- The state that has taken a flit over. -/
def State.credit (e : State) (p : Nat) (f : WireFlit) : State := e.setWle p ((e.wle p).credited p f)

theorem rxWords_clean (hm : er.main = []) (hs : f.slipped p off f.cc = false) : e.rxWords p f er off = (e.credit p f, some f) := by
  unfold State.rxWords
  rw [hm]
  simp only [List.foldl_nil, List.isEmpty_nil, if_true, hs, Bool.false_eq_true, if_false, Bool.false_and]
  rfl

/-- A slip of the cycle bits is counted and raised, and a die that runs is in doubt (R337, R351). -/
def State.slipSeen (e : State) (p : Nat) : State := ((e.inc p R.WL_SLIP_CNT).raise p 6).doubtful p

theorem rxWords_slip (hm : er.main = []) (hs : f.slipped p off f.cc = true) (hc : f.cyc = true) (hp : isEWV p = true) :
    e.rxWords p f er off = ((e.slipSeen p).credit p f, some f.spoilt) := by
  unfold State.rxWords
  rw [hm]
  simp only [List.foldl_nil, List.isEmpty_nil, if_true, hs, hc, hp, Bool.and_self]
  rfl

theorem rxWords_one {m : LinkErr} (hm : er.main = [m]) (hs : f.slipped p off f.cc = false) :
    e.rxWords p f er off = ((e.mainWord p f.body m).1.credit p (f.withBody (e.mainWord p f.body m).2), some (f.withBody (e.mainWord p f.body m).2)) := by
  unfold State.rxWords
  rw [hm]
  simp only [List.foldl_cons, List.foldl_nil, List.isEmpty_cons, Bool.false_eq_true, if_false, slipped_withBody, hs, Bool.false_and]
  rfl

end

/-! The flit taken by its kind (R336). -/

section
variable {e : State} {p : Nat} {f : WireFlit}

/-- The end when a flit that is no side flit has been taken. -/
def WlEnd.taking (x : WlEnd) (p : Nat) (f : WireFlit) : WlEnd :=
  if timedEnd p then (if f.kind = .idle ∧ f.cyc = false then x else { x with rx := x.rx ++ [f] })
  else if f.kind = .prog ∧ isH p = false ∧ x.xbuf.length < 4 then { x with xbuf := x.xbuf ++ [f.tags] } else x

theorem rxTake_taking (w : Wf e) (hk : f.kind = .idle ∨ f.kind = .prog ∨ f.kind = .null ∨ f.kind = .empty)
    (hdrop : f.kind = .prog → timedEnd p = false → isH p = false → e.ceDrops (dieOf p) = false) :
    e.rxTake p f = e.setWle p ((e.wle p).taking p f) := by
  have hstay : e.setWle p (e.wle p) = e := setWle_wle w p
  unfold State.rxTake WlEnd.taking State.rxBuffer
  rcases hk with hk | hk | hk | hk
  · cases hc : f.cyc <;> cases ht : timedEnd p <;> simp [hk, hstay]
  · cases ht : timedEnd p
    · cases hh : isH p
      · by_cases hx : (e.wle p).xbuf.length < 4 <;> simp [hk, hx, hstay, hdrop hk ht hh]
      · simp [hk, hstay]
    · simp [hk]
  · cases ht : timedEnd p <;> simp [hk, hstay]
  · cases ht : timedEnd p <;> simp [hk, hstay]

end

end Sys2Proof.Machine
end

section
/-! SUPPORT. What received slots leave behind (O47). -/

namespace Sys2Proof.Machine
open Sys2Proof

theorem kept_rxOpen (s : State) (p : Nat) (r : List WireFlit) (er : RxErr) : Kept s (s.rxOpen p r er) :=
  kept_addSat (kept_setWle (Kept.refl s) ..) ..

theorem spares_rxOpen {q : Nat} {g : Fld} (h : g.apart [R.WL_TEST_ERR] = true) (s : State) (p : Nat) (r : List WireFlit) (er : RxErr) :
    Spares q g s (s.rxOpen p r er) :=
  .trans (.of_regs (kept_setWle (Kept.refl s) p ((s.wle p).opened r er.slip)) rfl) (.wr h List.mem_cons_self _ _ _)

theorem spares_setWle {q : Nat} {g : Fld} (s : State) (p : Nat) (x : WlEnd) : Spares q g s (s.setWle p x) := .of_regs (kept_setWle (Kept.refl s) ..) rfl

theorem spares_credit {q : Nat} {g : Fld} (s : State) (p : Nat) (f : WireFlit) : Spares q g s (s.credit p f) := spares_setWle ..

/-! A slot read without error. -/

/-- No error of the wires, and no slip. -/
def noErr : RxErr := ⟨[], [], 0, 0⟩

section
variable {s : State} {p : Nat} {f : WireFlit} {r : List WireFlit}

/-- The end that has taken the slot over. -/
def WlEnd.got (w : WlEnd) (p : Nat) (r : List WireFlit) (f : WireFlit) : WlEnd := (w.opened r 0).credited p f

/-- The state that has taken a slot without error over. -/
def State.rxGot (s : State) (p : Nat) (r : List WireFlit) (f : WireFlit) : State := (s.rxOpen p r noErr).credit p f

theorem rxGot_eq (w : Wf s) : s.rxGot p r f = (s.addSat p R.WL_TEST_ERR 0).setWle p ((s.wle p).got p r f) := by
  have hopen : (s.rxOpen p r noErr).wle p = (s.wle p).opened r 0 := wle_setWle_self w p _
  unfold State.rxGot State.credit
  rw [hopen]
  exact setWle_setWle (s := s.addSat p R.WL_TEST_ERR 0) ((kept_addSat (Kept.refl s) ..).wf w) p _ _

theorem kept_rxGot (s : State) (p : Nat) (r : List WireFlit) (f : WireFlit) : Kept s (s.rxGot p r f) :=
  (kept_rxOpen s p r noErr).trans (kept_setWle (Kept.refl _) ..)

theorem spares_rxGot {q : Nat} {g : Fld} (h : g.apart [R.WL_TEST_ERR] = true) (s : State) (p : Nat) (r : List WireFlit) (f : WireFlit) :
    Spares q g s (s.rxGot p r f) := .trans (spares_rxOpen h s p r noErr) (spares_credit ..)

theorem wle_rxGot_self (w : Wf s) : (s.rxGot p r f).wle p = (s.wle p).got p r f := by
  rw [rxGot_eq w]
  exact wle_setWle_self ((kept_addSat (Kept.refl s) ..).wf w) ..

theorem wle_rxGot_ne (w : Wf s) {k : Nat} (h : k ≠ p) : (s.rxGot p r f).wle k = s.wle k := by
  rw [rxGot_eq w]
  exact wle_setWle_ne (s := s.addSat p R.WL_TEST_ERR 0) ((kept_addSat (Kept.refl s) ..).wf w) h _

/-- But for the link ends, the registers and the free values the state is as it was. -/
def State.Beside (s t : State) : Prop := { t with wl := s.wl, regs := s.regs, freeCtr := s.freeCtr } = s

theorem rxGot_beside (s : State) (p : Nat) (r : List WireFlit) (f : WireFlit) (x : WlEnd) : s.Beside ((s.rxGot p r f).setWle p x) := rfl

theorem rxKind_none {k : WKind} {er : RxErr} (hw : ∀ f, (s.wle p).wire.head? = some f → f.kind ≠ k) : s.rxKind p k er = s := by
  unfold State.rxKind
  rw [rxSlot_none hw]

theorem rxKind_dead {er : RxErr} (hw : (s.wle p).wire = f :: r) (hroom : (s.wle p).rx.length < 32 ∨ timedEnd p = false) (hdead : s.portAlive p = false) :
    s.rxKind p f.kind er = s.setWle p ((s.wle p).opened r er.slip) := by
  unfold State.rxKind
  rw [rxSlot_dead hw hroom hdead]

section
variable (hw : (s.wle p).wire = f :: r) (hroom : (s.wle p).rx.length < 32 ∨ timedEnd p = false) (hlive : s.portAlive p = true) (ha : s.alive p = true)
include hw hroom hlive ha

theorem rxKind_clean (hs : f.slipped p (((s.wle p).off + 0) % 16) f.cc = false) : s.rxKind p f.kind noErr = (s.rxGot p r f).rxTake p f := by
  unfold State.rxKind
  rw [rxSlot_live hw hroom hlive ha rfl, rxWords_clean (off := ((s.wle p).off + noErr.slip) % 16) rfl hs]
  rfl

theorem rxKind_slip {er : RxErr} (hm : er.main = []) (hsb : er.sb = []) (hs : f.slipped p (((s.wle p).off + er.slip) % 16) f.cc = true)
    (hc : f.cyc = true) (hp : isEWV p = true) :
    s.rxKind p f.kind er = (((s.rxOpen p r er).slipSeen p).credit p f).rxTake p f.spoilt := by
  unfold State.rxKind
  rw [rxSlot_live hw hroom hlive ha hsb, rxWords_slip hm hs hc hp]

theorem rxKind_one {er : RxErr} {m : LinkErr} (hm : er.main = [m]) (hsb : er.sb = []) (hs : f.slipped p (((s.wle p).off + er.slip) % 16) f.cc = false) :
    let a := (s.rxOpen p r er).mainWord p f.body m
    s.rxKind p f.kind er = (a.1.credit p (f.withBody a.2)).rxTake p (f.withBody a.2) := by
  intro a
  unfold State.rxKind
  rw [rxSlot_live hw hroom hlive ha hsb, rxWords_one hm hs]

end

/-! Flits that are no side flits. -/

theorem ceDrops_rxGot (w : Wf s) (d : Nat) : (s.rxGot p r f).ceDrops d = s.ceDrops d := by
  have hprog : (s.rxGot p r f).prog d = s.prog d := (spares_rxGot (by decide) s p r f).rd w
  unfold State.ceDrops
  rw [hprog]
  rfl

/-- The reserved cycle bits matter at E, W and V alone. -/
theorem isEWV_of_not_timed (h : timedEnd p = false) : isEWV p = false := by
  unfold timedEnd at h
  exact (Bool.or_eq_false_iff.mp h).1

theorem slipped_of_not_timed (h : timedEnd p = false) (f : WireFlit) (off cc : Nat) : f.slipped p off cc = false := by
  unfold WireFlit.slipped
  rw [isEWV_of_not_timed h]
  cases f.cyc <;> rfl

/-- A program flit that its engine drops owes a credit and counts its payloads (R296, R338). -/
theorem rxTake_drops {e : State} (hk : f.kind = .prog) (ht : timedEnd p = false) (hh : isH p = false) (hd : e.ceDrops (dieOf p) = true) :
    e.rxTake p f = (e.setWle p { e.wle p with owed := (e.wle p).owed + 1 }).addSat (cePg (dieOf p)) R.CE_RX_DROP f.tags.length := by
  have hdrop : (e.setWle p { e.wle p with owed := (e.wle p).owed + 1 }).ceDrops (dieOf p) = true := hd
  unfold State.rxTake
  simp only [hk, ht, hh, hd, Bool.false_eq_true, if_false, if_true]
  exact if_pos hdrop

theorem rd_addSat_self {e : State} (w : Wf e) (q : Nat) (g : Fld) (n : Nat) : (e.addSat q g n).rd q g = min (e.rd q g + n) (2 ^ g.w - 1) :=
  (rd_wr_self w q g _).trans (Nat.mod_eq_of_lt (lt_of_le_of_lt (min_le_right _ _) (Nat.sub_one_lt (Nat.two_pow_pos _).ne')))

end

end Sys2Proof.Machine
end

section
/-! SUPPORT. Side flits, slips and errors of a slot (O47). -/

namespace Sys2Proof.Machine
open Sys2Proof

/-! Side flits (R223, R336). -/

section
variable {s e : State} {p : Nat} {f : WireFlit} {r : List WireFlit}

theorem hoopVia_congr (h : ∀ q, e.portAlive q = s.portAlive q) (d t : Nat) : e.hoopVia d t = s.hoopVia d t := by
  unfold State.hoopVia
  simp only [h]

theorem sideNext_congr (h : ∀ q, e.portAlive q = s.portAlive q) (d t : Nat) : e.sideNext d t = s.sideNext d t := by
  unfold State.sideNext
  simp only [h, hoopVia_congr h]

/-- What a side flit carries: a cell keeps what the wires made of its lines. -/
def WireFlit.carried (f : WireFlit) : SideWhat :=
  match f.what with
  | .cell c => .cell { c with lines := f.lines, poi := c.poi || f.lines.any FLine.poi }
  | v => v

def WireFlit.sideFlit (f : WireFlit) : SideFlit := ⟨f.sclass, f.sdie, f.carried, f.lines⟩

/-- A side flit that leaves the links here waits to be taken, but for a Bulk cell of this package. -/
theorem sideLand_waits {g : SideFlit} (h : ∀ c, g.what = .cell c → dieOf p < 8 → c.cls = 0 → c.dst ≠ e.pkgId) :
    e.sideLand p g = e.setWle p { e.wle p with sideIn := (e.wle p).sideIn ++ [g] } := by
  unfold State.sideLand
  dsimp only
  split
  · next c hc =>
    refine if_neg fun hb => ?_
    simp only [Bool.and_eq_true, decide_eq_true_eq] at hb
    exact h c hc hb.1.1 hb.1.2 hb.2
  · rfl

theorem sideIn_here (hd : f.sdie = dieOf p) : e.sideIn p f = e.sideLand p f.sideFlit := if_pos hd

/-- A side flit for another die goes one hop nearer to it. -/
theorem sideIn_nearer (hd : f.sdie ≠ dieOf p) (hn : e.sideNext (dieOf p) f.sdie ≠ []) :
    ∃ a ∈ e.sideNext (dieOf p) f.sdie, ∃ n, e.sideIn p f = ({ e with freeCtr := n } : State).sideQueue a f.sideFlit := by
  have hpass : e.sideIn p f = (match e.sideNext (dieOf p) f.sdie with
      | [] => e.sideLand p f.sideFlit
      | [a] => e.sideQueue a f.sideFlit
      | a :: r => let x := e.draw; x.1.sideQueue ((a :: r).getD (x.2 % (r.length + 1)) a) f.sideFlit) := if_neg hd
  rw [hpass]
  cases hl : e.sideNext (dieOf p) f.sdie with
  | nil => exact absurd hl hn
  | cons a l =>
    cases l with
    | nil => exact ⟨a, List.mem_cons_self, e.freeCtr, rfl⟩
    | cons b l =>
      refine ⟨_, ?_, e.freeCtr + 1, rfl⟩
      have hlt : e.draw.2 % ((b :: l).length + 1) < (a :: b :: l).length := Nat.mod_lt _ (Nat.succ_pos _)
      rw [List.getD_eq_getElem _ _ hlt]
      exact List.getElem_mem hlt

/-- The cycle flit that a side flit was, as an IDLE that stands for its enabled cycle. -/
def WlEnd.held (x : WlEnd) (p : Nat) (f : WireFlit) : WlEnd :=
  if f.cyc && isEWV p then { x with rx := x.rx ++ [{ f with kind := .idle, lines := [] }] } else x

theorem timed_of_EWV (h : isEWV p = true) : timedEnd p = true := by
  unfold timedEnd
  exact Bool.or_eq_true_iff.mpr (.inl h)

theorem rxTake_side (w : Wf e) (hk : f.kind = .side) : e.rxTake p f = (e.setWle p ((e.wle p).held p f)).sideIn p f := by
  have hstay : e.setWle p (e.wle p) = e := setWle_wle w p
  unfold State.rxTake WlEnd.held
  simp only [hk]
  split
  · next h =>
    rw [if_pos (timed_of_EWV (Bool.and_eq_true_iff.mp h).2)]
    rfl
  · rw [hstay]

/-- The state in which a side flit without error is passed or taken. -/
def State.sideGot (s : State) (p : Nat) (r : List WireFlit) (f : WireFlit) : State := (s.rxGot p r f).setWle p (((s.wle p).got p r f).held p f)

theorem spares_sideGot {q : Nat} {g : Fld} (h : g.apart [R.WL_TEST_ERR] = true) (s : State) (p : Nat) (r : List WireFlit) (f : WireFlit) :
    Spares q g s (s.sideGot p r f) := .trans (spares_rxGot h s p r f) (spares_setWle ..)

theorem wf_sideGot (w : Wf s) : Wf (s.sideGot p r f) := (kept_setWle (kept_rxGot s p r f) ..).wf w

theorem wle_sideGot_self (w : Wf s) : (s.sideGot p r f).wle p = ((s.wle p).got p r f).held p f := wle_setWle_self ((kept_rxGot s p r f).wf w) ..

theorem wle_sideGot_ne (w : Wf s) {k : Nat} (h : k ≠ p) : (s.sideGot p r f).wle k = s.wle k :=
  (wle_setWle_ne ((kept_rxGot s p r f).wf w) h _).trans (wle_rxGot_ne w h)

theorem sideNext_sideGot (w : Wf s) (d t : Nat) : (s.sideGot p r f).sideNext d t = s.sideNext d t :=
  sideNext_congr (portAlive_of_spares w fun _ => spares_sideGot (by decide) s p r f) d t

theorem pkgId_sideGot (w : Wf s) : (s.sideGot p r f).pkgId = s.pkgId := (spares_sideGot (by decide) s p r f).rd w

section
variable (hw : (s.wle p).wire = f :: r) (hroom : (s.wle p).rx.length < 32 ∨ timedEnd p = false) (hlive : s.portAlive p = true) (ha : s.alive p = true)
  (hk : f.kind = .side) (hs : f.slipped p (((s.wle p).off + 0) % 16) f.cc = false) (w : Wf s)
include hw hroom hlive ha hk hs w

theorem exec_side : exec (.waleSideFlit p noErr) s = .next ((s.sideGot p r f).sideIn p f) := by
  have hexec : exec (.waleSideFlit p noErr) s = .next (s.rxKind p f.kind noErr) := by
    rw [hk]
    rfl
  rw [hexec, rxKind_clean hw hroom hlive ha hs, rxTake_side ((kept_rxGot s p r f).wf w) hk, wle_rxGot_self w]
  rfl

/-- A side flit whose links end here waits here. -/
theorem exec_side_here (hd : f.sdie = dieOf p) (hcell : ∀ c, f.carried = .cell c → dieOf p < 8 → c.cls = 0 → c.dst ≠ s.pkgId) :
    ∃ t, exec (.waleSideFlit p noErr) s = .next t ∧ s.Beside t ∧
      t.wle p = { ((s.wle p).got p r f).held p f with sideIn := (s.wle p).sideIn ++ [f.sideFlit] } := by
  have hself := wle_sideGot_self (p := p) (r := r) (f := f) w
  have hin : (((s.wle p).got p r f).held p f).sideIn = (s.wle p).sideIn := by
    unfold WlEnd.held
    split <;> rfl
  refine ⟨_, exec_side hw hroom hlive ha hk hs w, ?_⟩
  rw [sideIn_here hd, sideLand_waits (by rw [pkgId_sideGot w]; exact hcell)]
  refine ⟨rfl, (wle_setWle_self (wf_sideGot w) ..).trans ?_⟩
  rw [hself, hin]

/-- A side flit for another die waits at a port nearer to it. -/
theorem exec_side_nearer (hd : f.sdie ≠ dieOf p) (hn : s.sideNext (dieOf p) f.sdie ≠ []) :
    ∃ t, exec (.waleSideFlit p noErr) s = .next t ∧ s.Beside t ∧ ∃ a ∈ s.sideNext (dieOf p) f.sdie, (t.wle a).side = (s.wle a).side ++ [f.sideFlit] ∧
      (t.wle p).wire = r ∧ (t.wle p).rx = (((s.wle p).got p r f).held p f).rx ∧ ∀ k, k ≠ p → k ≠ a → t.wle k = s.wle k := by
  have hnext := sideNext_sideGot (p := p) (r := r) (f := f) w (dieOf p) f.sdie
  have hself := wle_sideGot_self (p := p) (r := r) (f := f) w
  have hkeeps : (((s.wle p).got p r f).held p f).side = (s.wle p).side ∧ (((s.wle p).got p r f).held p f).wire = r := by
    unfold WlEnd.held
    split <;> exact ⟨rfl, rfl⟩
  obtain ⟨a, ha', n, hpass⟩ := sideIn_nearer (e := s.sideGot p r f) (p := p) hd (by rw [hnext]; exact hn)
  have wn : Wf ({ s.sideGot p r f with freeCtr := n } : State) := ((Kept.refl _).upd rfl).wf (wf_sideGot w)
  refine ⟨_, exec_side hw hroom hlive ha hk hs w, ?_⟩
  rw [hpass]
  refine ⟨rfl, a, hnext ▸ ha', (sideQueue_side wn a _).trans ?_, ?_⟩
  · have hside : ((s.sideGot p r f).wle a).side = (s.wle a).side := by
      by_cases h : a = p
      · rw [h, hself, hkeeps.1]
      · rw [wle_sideGot_ne w h]
    exact congrArg (· ++ [f.sideFlit]) hside
  · have hport : (({ s.sideGot p r f with freeCtr := n } : State).sideQueue a f.sideFlit).wle p =
        { ((s.wle p).got p r f).held p f with side := if p = a then (s.wle p).side ++ [f.sideFlit] else (s.wle p).side } := by
      by_cases h : p = a
      · subst h
        refine (wle_setWle_self wn p _).trans ?_
        rw [if_pos rfl, ← hkeeps.1, ← hself]
        rfl
      · refine (wle_setWle_ne wn h _).trans (hself.trans ?_)
        rw [if_neg h, ← hkeeps.1]
    rw [hport]
    exact ⟨hkeeps.2, rfl, fun k hp hka => (wle_setWle_ne wn hka _).trans (wle_sideGot_ne w hp)⟩

end
end

end Sys2Proof.Machine
end

section
/-! SUPPORT. Slips, corrected wires and uncorrectable words of a slot (O47). -/

namespace Sys2Proof.Machine
open Sys2Proof

section
variable {s e : State} {p : Nat} {f : WireFlit} {r : List WireFlit}

theorem wle_of_report {t : State} (h : t.sansReport = s.sansReport) (q : Nat) : t.wle q = s.wle q := (congrArg (State.wle · q) h :)

/-- A program flit at an end that times its release is buffered (R340). -/
theorem rxTake_prog (hk : f.kind = .prog) (ht : timedEnd p = true) : e.rxTake p f = e.rxBuffer p f := by
  unfold State.rxTake
  simp only [hk, ht, if_true]

/-- What the buffering of a flit taken over leaves. -/
theorem rx_buffered (w : Wf e) (f g : WireFlit) : (((e.credit p f).rxBuffer p g).wle p).rx = (e.wle p).rx ++ [g] := by
  have hcredit : (e.credit p f).wle p = (e.wle p).credited p f := wle_setWle_self w ..
  refine (congrArg WlEnd.rx (wle_setWle_self ((kept_setWle (Kept.refl e) ..).wf w) p _)).trans ?_
  rw [hcredit]
  rfl

theorem spares_buffered {q : Nat} {g : Fld} (e : State) (p : Nat) (f h : WireFlit) : Spares q g e ((e.credit p f).rxBuffer p h) :=
  .trans (spares_credit ..) (spares_setWle ..)

theorem rx_rxOpen (w : Wf s) (er : RxErr) : ((s.rxOpen p r er).wle p).rx = (s.wle p).rx :=
  (congrArg WlEnd.rx (wle_setWle_self w p ((s.wle p).opened r er.slip)) :)

/-! A slip of the cycle bits (R337, R351). -/

theorem doubtful_regs (e : State) (p : Nat) : (e.doubtful p).regs = e.regs := by
  unfold State.doubtful
  dsimp only
  split <;> rfl

theorem wle_doubtful (e : State) (p q : Nat) : (e.doubtful p).wle q = e.wle q := by
  unfold State.doubtful
  dsimp only
  split <;> rfl

theorem doubt_doubtful (w : Wf e) (hd : dieOf p < 8) (hr : e.prog (dieOf p) = 2) : ((e.doubtful p).od (dieOf p)).doubt = true := by
  have hrun : (decide (dieOf p < 8) && decide (e.prog (dieOf p) = stRunning)) = true := by
    rw [hr]
    simp [hd, stRunning]
  unfold State.doubtful
  dsimp only
  rw [if_pos hrun]
  exact congrArg OsDie.doubt (look_put_self _ _ w.osd)

theorem slipSeen_spec (w : Wf e) (p : Nat) : Wf (e.slipSeen p) ∧ (e.slipSeen p).wle p = e.wle p ∧
    (e.slipSeen p).rd p R.WL_SLIP_CNT = min (e.rd p R.WL_SLIP_CNT + 1) (2 ^ R.WL_SLIP_CNT.w - 1) ∧
    (dieOf p < 8 → e.prog (dieOf p) = 2 → ((e.slipSeen p).od (dieOf p)).doubt = true) := by
  have w1 : Wf (e.inc p R.WL_SLIP_CNT) := (kept_inc (Kept.refl e) ..).wf w
  have w2 : Wf ((e.inc p R.WL_SLIP_CNT).raise p 6) := (kept_raise (Kept.refl _) ..).wf w1
  have hcount : ((e.inc p R.WL_SLIP_CNT).raise p 6).rd p R.WL_SLIP_CNT = min (e.rd p R.WL_SLIP_CNT + 1) (2 ^ R.WL_SLIP_CNT.w - 1) :=
    ((spares_raiseX (by decide) _ _ _ _ _).rd w1).trans (rd_addSat_self w ..)
  have hprog (d : Nat) : ((e.inc p R.WL_SLIP_CNT).raise p 6).prog d = e.prog d :=
    ((spares_raiseX (by decide) _ _ _ _ _).rd w1).trans (rd_wr_place w _ rfl rfl (by decide))
  refine ⟨(kept_doubtful (Kept.refl _) ..).wf w2, (wle_doubtful ..).trans (wle_of_report (sansReport_raise ..) p), ?_,
    fun hd hr => doubt_doubtful w2 hd ((hprog _).trans hr)⟩
  exact (congrArg (look resetVal · (R.WL_SLIP_CNT.key p)) (doubtful_regs ..)).trans hcount

theorem exec_prog (hk : f.kind = .prog) (er : RxErr) : exec (.waleProgFlit p er) s = .next (s.rxKind p f.kind er) := by
  rw [hk]
  rfl

section
variable (hw : (s.wle p).wire = f :: r) (hroom : (s.wle p).rx.length < 32 ∨ timedEnd p = false) (hlive : s.portAlive p = true) (ha : s.alive p = true)
  (hk : f.kind = .prog) (w : Wf s)
include hw hroom hlive ha hk w

theorem exec_prog_slip {er : RxErr} (hm : er.main = []) (hsb : er.sb = []) (hs : f.slipped p (((s.wle p).off + er.slip) % 16) f.cc = true)
    (hc : f.cyc = true) (hp : isEWV p = true) : ∃ t, exec (.waleProgFlit p er) s = .next t ∧ (t.wle p).rx = (s.wle p).rx ++ [f.spoilt] ∧
      t.rd p R.WL_SLIP_CNT = min (s.rd p R.WL_SLIP_CNT + 1) (2 ^ R.WL_SLIP_CNT.w - 1) ∧ (s.prog (dieOf p) = 2 → (t.od (dieOf p)).doubt = true) := by
  have hd : dieOf p < 8 := of_decide_eq_true (Bool.and_eq_true_iff.mp hp).1
  have wo : Wf (s.rxOpen p r er) := (kept_rxOpen s p r er).wf w
  obtain ⟨wu, hwle, hcount, hdoubt⟩ := slipSeen_spec wo p
  have hold : (s.rxOpen p r er).rd p R.WL_SLIP_CNT = s.rd p R.WL_SLIP_CNT := (spares_rxOpen (by decide) s p r er).rd w
  have hprog : (s.rxOpen p r er).prog (dieOf p) = s.prog (dieOf p) := (spares_rxOpen (by decide) s p r er).rd w
  refine ⟨_, (exec_prog hk er).trans (congrArg Host.Outcome.next
    ((rxKind_slip hw hroom hlive ha hm hsb hs hc hp).trans (rxTake_prog (f := f.spoilt) hk (timed_of_EWV hp)))), ?_, ?_, fun hr => hdoubt hd (hprog.trans hr)⟩
  · rw [rx_buffered wu, hwle, rx_rxOpen w]
  · rw [(spares_buffered _ p f f.spoilt).rd wu, hcount, hold]

end

/-! One word of the main code (R331, R332). -/

/-- A correction counted and raised. -/
def State.corrected (e : State) (p : Nat) (x : WlEnd) : State := ((e.setWle p x).inc p R.WL_CE_CNT).raise p 0

/-- A wire whose corrections have reached the threshold, named and raised (R347). -/
def State.flagWire (e : State) (p m i : Nat) : State :=
  (((e.wr p R.WL_WIRE_LAST_MODULE m).wr p R.WL_WIRE_LAST_WIRE i).wb p R.WL_WIRE_LAST_NOSPARE
    (!((e.wr p R.WL_WIRE_LAST_MODULE m).wr p R.WL_WIRE_LAST_WIRE i).spare p m)).raise p 3

theorem wireCorrected_eq (e : State) (p m i : Nat) :
    ∃ (x : WlEnd) (b : Bool), e.wireCorrected p m i = (if b then (e.corrected p x).flagWire p m i else e.corrected p x) ∧ x.rx = (e.wle p).rx :=
  ⟨_, _, rfl, rfl⟩

theorem flagWire_spec (w : Wf e) (p m i : Nat) : (e.flagWire p m i).wle p = e.wle p ∧ (e.flagWire p m i).rd p R.WL_CE_CNT = e.rd p R.WL_CE_CNT := by
  have hmodule : Spares p R.WL_CE_CNT e (e.flagWire p m i) :=
    .trans (.wr (fs := [R.WL_WIRE_LAST_MODULE]) (by decide) List.mem_cons_self _ _ _)
      (.trans (.wr (fs := [R.WL_WIRE_LAST_WIRE]) (by decide) List.mem_cons_self _ _ _)
        (.trans (.wr (fs := [R.WL_WIRE_LAST_NOSPARE]) (by decide) List.mem_cons_self _ _ _) (spares_raiseX (by decide) _ _ _ _ _)))
  exact ⟨wle_of_report (sansReport_raise ..) p, hmodule.rd w⟩

theorem corrected_spec (w : Wf e) (p : Nat) (x : WlEnd) : (e.corrected p x).wle p = x ∧
    (e.corrected p x).rd p R.WL_CE_CNT = min (e.rd p R.WL_CE_CNT + 1) (2 ^ R.WL_CE_CNT.w - 1) := by
  have w1 : Wf (e.setWle p x) := (kept_setWle (Kept.refl e) ..).wf w
  exact ⟨(wle_of_report (sansReport_raise ..) p).trans (wle_setWle_self w p x),
    ((spares_raiseX (by decide) _ _ _ _ _).rd ((kept_inc (Kept.refl _) ..).wf w1)).trans (rd_addSat_self w1 ..)⟩

theorem wireCorrected_spec (w : Wf e) (p m i : Nat) : ((e.wireCorrected p m i).wle p).rx = (e.wle p).rx ∧
    (e.wireCorrected p m i).rd p R.WL_CE_CNT = min (e.rd p R.WL_CE_CNT + 1) (2 ^ R.WL_CE_CNT.w - 1) := by
  obtain ⟨x, b, heq, hrx⟩ := wireCorrected_eq e p m i
  have wc : Wf (e.corrected p x) := (kept_raise (kept_inc (kept_setWle (Kept.refl e) ..) ..) ..).wf w
  obtain ⟨hwle, hcount⟩ := corrected_spec w p x
  obtain ⟨hflag, hstays⟩ := flagWire_spec wc p m i
  rw [heq]
  cases b with
  | false => exact ⟨(congrArg WlEnd.rx hwle).trans hrx, hcount⟩
  | true => exact ⟨(congrArg WlEnd.rx (hflag.trans hwle)).trans hrx, hstays.trans hcount⟩

/-- A word whose error is corrected leaves the lines alone (R331). -/
theorem mainWord_corrected {ls : List FLine} {m : LinkErr} {i : Nat} (h : codeFix 64 8 m.wires = some ([], some i)) :
    e.mainWord p ls m = (e.wireCorrected p m.module i, ls) := by
  unfold State.mainWord
  rw [h]
  rfl

theorem flipBit_length (ls : List FLine) (k : Nat) : (flipBit ls k).length = ls.length := by simp [flipBit]

theorem foldl_flipBit_length (g : Nat → Nat) (l : List Nat) (ls : List FLine) : (l.foldl (fun ls i => flipBit ls (g i)) ls).length = ls.length := by
  induction l generalizing ls with
  | nil => rfl
  | cons i l ih => exact (ih _).trans (flipBit_length ls _)

theorem poisonAt_length (ls : List FLine) (k : Nat) : (poisonAt ls k).length = ls.length := by simp [poisonAt]

/-- The line that is poisoned. -/
theorem poisonAt_poi {ls : List FLine} {k : Nat} {l : FLine} (h : (poisonAt ls k)[k]? = some l) : l.poi = true := by
  unfold poisonAt at h
  rw [List.getElem?_map, Option.map_eq_some_iff] at h
  obtain ⟨x, hx, rfl⟩ := h
  have hk : x.1 = k := by
    obtain ⟨hi, hx⟩ := List.getElem?_eq_some_iff.mp hx
    rw [← hx]
    simp
  rw [if_pos hk]

/-- A word with an uncorrectable error is counted and poisons its line (R332). -/
theorem mainWord_lost {ls : List FLine} {m : LinkErr} (h : codeFix 64 8 m.wires = none) :
    ∃ (k : Nat) (out : List FLine), e.mainWord p ls m = ((e.inc p R.WL_UE_CNT).raise p k, out) ∧ out.length = ls.length ∧
      ∀ l, out[e.flitBit p m.ui m.module 0 / 256]? = some l → l.poi = true := by
  refine ⟨if e.spare p m.module then 1 else 2, poisonAt
    ((m.wires.filter fun i => decide (i < 64)).foldl (fun ls i => flipBit ls (e.flitBit p m.ui m.module i)) ls) (e.flitBit p m.ui m.module 0 / 256), ?_, ?_, ?_⟩
  · unfold State.mainWord
    rw [h]
  · exact (poisonAt_length ..).trans (foldl_flipBit_length ..)
  · exact fun l hl => poisonAt_poi hl

theorem flitBit_of_spares (w : Wf s) {t : State} (h8 : Spares p R.WL_STAT_W8 s t) (hh : Spares p R.WL_STAT_HALF s t) (ui m i : Nat) :
    t.flitBit p ui m i = s.flitBit p ui m i := by
  unfold State.flitBit State.wlMods State.wlBase
  rw [h8.bit w, hh.bit w]

section
variable (hw : (s.wle p).wire = f :: r) (hroom : (s.wle p).rx.length < 32 ∨ timedEnd p = false) (hlive : s.portAlive p = true) (ha : s.alive p = true)
  (hk : f.kind = .prog) (w : Wf s) (ht : timedEnd p = true) {er : RxErr} {m : LinkErr} (hm : er.main = [m]) (hsb : er.sb = [])
  (hs : f.slipped p (((s.wle p).off + er.slip) % 16) f.cc = false)
include hw hroom hlive ha hk w ht hm hsb hs

omit w in
/-- The flit of a slot with one word in error is buffered as its lines have come out. -/
theorem exec_prog_one {u : State} {ls : List FLine} (hu : (s.rxOpen p r er).mainWord p f.body m = (u, ls)) :
    exec (.waleProgFlit p er) s = .next ((u.credit p (f.withBody ls)).rxBuffer p (f.withBody ls)) := by
  have hread := rxKind_one hw hroom hlive ha hm hsb hs
  rw [hu] at hread
  exact (exec_prog hk er).trans (congrArg Host.Outcome.next (hread.trans (rxTake_prog ((withBody_kind f ls).trans hk) ht)))

/-- A corrected wire is counted and changes nothing of the flit. -/
theorem exec_prog_corrected (htags : ∀ u ∈ f.tags, u.lines.length = 8) {i : Nat} (hfix : codeFix 64 8 m.wires = some ([], some i)) :
    ∃ t, exec (.waleProgFlit p er) s = .next t ∧ (t.wle p).rx = (s.wle p).rx ++ [f] ∧
      t.rd p R.WL_CE_CNT = min (s.rd p R.WL_CE_CNT + 1) (2 ^ R.WL_CE_CNT.w - 1) := by
  have wo : Wf (s.rxOpen p r er) := (kept_rxOpen s p r er).wf w
  have wu : Wf ((s.rxOpen p r er).wireCorrected p m.module i) := (kept_wireCorrected (Kept.refl _) ..).wf wo
  obtain ⟨hrx, hcount⟩ := wireCorrected_spec wo p m.module i
  have hexec := exec_prog_one hw hroom hlive ha hk ht hm hsb hs (mainWord_corrected hfix)
  rw [withBody_body f htags] at hexec
  refine ⟨_, hexec, ?_, ?_⟩
  · rw [rx_buffered wu, hrx, rx_rxOpen w]
  · rw [(spares_buffered _ p f f).rd wu, hcount, (spares_rxOpen (by decide) s p r er).rd w]

/-- An uncorrectable word is counted and poisons its line. -/
theorem exec_prog_lost (hfix : codeFix 64 8 m.wires = none) :
    ∃ t ls, exec (.waleProgFlit p er) s = .next t ∧ (t.wle p).rx = (s.wle p).rx ++ [f.withBody ls] ∧ ls.length = f.body.length ∧
      (∀ i l, ls[i]? = some l → i = s.flitBit p m.ui m.module 0 / 256 → l.poi = true) ∧
      t.rd p R.WL_UE_CNT = min (s.rd p R.WL_UE_CNT + 1) (2 ^ R.WL_UE_CNT.w - 1) := by
  have wo : Wf (s.rxOpen p r er) := (kept_rxOpen s p r er).wf w
  obtain ⟨k, ls, hword, hlen, hpoi⟩ := mainWord_lost (e := s.rxOpen p r er) (p := p) (ls := f.body) hfix
  have wi : Wf ((s.rxOpen p r er).inc p R.WL_UE_CNT) := (kept_inc (Kept.refl _) ..).wf wo
  have wu : Wf (((s.rxOpen p r er).inc p R.WL_UE_CNT).raise p k) := (kept_raise (Kept.refl _) ..).wf wi
  rw [flitBit_of_spares w (spares_rxOpen (by decide) s p r er) (spares_rxOpen (by decide) s p r er)] at hpoi
  refine ⟨_, ls, exec_prog_one hw hroom hlive ha hk ht hm hsb hs hword, ?_, hlen, fun i l hl hi => hpoi l (hi ▸ hl), ?_⟩
  · rw [rx_buffered wu, wle_of_report (sansReport_raise ..) p]
    exact congrArg (· ++ [f.withBody ls]) (rx_rxOpen w er)
  · refine ((spares_buffered _ p _ _).rd wu).trans (((spares_raiseX (by decide) _ _ _ _ _).rd wi).trans ?_)
    exact (rd_addSat_self wo ..).trans (by rw [(spares_rxOpen (by decide) s p r er).rd w])

end

end

end Sys2Proof.Machine
end

section
/-! SUPPORT. The release of buffered flits, and WaleFlitsArrive (O47). -/

namespace Sys2Proof.Machine
open Sys2Proof

/-! A flit released (R340). -/

/-- An event of the mesh at a router and a port that are free values. -/
def State.meshDrawn (s : State) (d src : Nat) : State := s.draw.1.draw.1.meshEvent d src (s.draw.2 % 64) (s.draw.1.draw.2 % 5)

/-- The request word of a flit goes to the controllers. -/
def State.asks (s : State) (d port c : Nat) (f : WireFlit) : State :=
  match f.req with
  | some q => { s with nbq := s.nbq ++ [⟨d, port, c, q.1, f.lines, q.2⟩] }
  | none => s

/-- Whether the request word asks for a write. -/
def WireFlit.isWrite (f : WireFlit) : Bool :=
  match f.req with
  | some q => decide (bits q.1 1 1 = 1)
  | none => false

theorem flitReleased_eq (s : State) (d port c : Nat) (f : WireFlit) : s.flitReleased d port c f =
    let dest := (s.slotPlan d port c).2
    let e := s.asks d port c f
    if f.kind = .prog && !f.isWrite then
      (if dest = 31 then e.meshDrawn d 1 else { e with arrivals := e.arrivals ++ [⟨d, port, dest, c, f.lines⟩] })
    else if dest = 31 || !(s.od d).phaseOn || !progSlot c then e else e.meshDrawn d 2 := by
  unfold State.flitReleased State.asks WireFlit.isWrite
  cases f.req <;> rfl

theorem meshEvent_cnt {s : State} (w : Wf s) (d src node port : Nat) :
    (s.meshEvent d src node port).rd (osTop d) R.OS_MESH_CNT = min (s.rd (osTop d) R.OS_MESH_CNT + 1) (2 ^ R.OS_MESH_CNT.w - 1) := by
  have hlast : R.OS_MESH_CNT.apart [R.OS_MESH_LAST_ROUTER, R.OS_MESH_LAST_PORT, R.OS_MESH_LAST_SOURCE, R.OS_MESH_LAST_CYCLE] = true := by decide
  have hnames (n c : Nat) : Spares (osTop d) R.OS_MESH_CNT s ((((s.wr (osTop d) R.OS_MESH_LAST_ROUTER node).wr (osTop d) R.OS_MESH_LAST_PORT port).wr
      (osTop d) R.OS_MESH_LAST_SOURCE n).wr (osTop d) R.OS_MESH_LAST_CYCLE c) :=
    .trans (.wr hlast (by simp) _ _ _) (.trans (.wr hlast (by simp) _ _ _) (.trans (.wr hlast (by simp) _ _ _) (.wr hlast (by simp) _ _ _)))
  unfold State.meshEvent
  dsimp only
  generalize State.runCyc _ d = c
  have w1 := (hnames src c).kept.wf w
  have h1 := (hnames src c).rd w
  refine ((spares_raiseX (by decide) _ _ _ _ _).rd ((kept_inc (Kept.refl _) ..).wf w1)).trans ?_
  exact (rd_addSat_self w1 ..).trans (by rw [h1])

theorem meshDrawn_spec {s : State} (w : Wf s) (d src : Nat) : (s.meshDrawn d src).nbq = s.nbq ∧ (s.meshDrawn d src).arrivals = s.arrivals ∧
    (∀ p, (s.meshDrawn d src).wle p = s.wle p) ∧
    (s.meshDrawn d src).rd (osTop d) R.OS_MESH_CNT = min (s.rd (osTop d) R.OS_MESH_CNT + 1) (2 ^ R.OS_MESH_CNT.w - 1) := by
  have wd : Wf s.draw.1.draw.1 := (kept_draw (kept_draw (Kept.refl s))).wf w
  have hreport := sansReport_meshEvent s.draw.1.draw.1 d src (s.draw.2 % 64) (s.draw.1.draw.2 % 5)
  exact ⟨(congrArg State.nbq hreport :), (congrArg State.arrivals hreport :), fun p => wle_of_report hreport p, meshEvent_cnt wd ..⟩

/-! The command. -/

theorem isH_of_timed {p : Nat} (ht : timedEnd p = true) : isH p = false := by
  unfold timedEnd isWeft at ht
  unfold isH isHoop
  simp only [Bool.or_eq_true, Bool.and_eq_true, decide_eq_true_eq] at ht
  simp only [Bool.or_eq_false_iff, Bool.and_eq_false_iff, decide_eq_false_iff_not]
  omega

section
variable {s : State} {p : Nat} {f : WireFlit} {r : List WireFlit}

/-- The cycle in which a buffered flit is released. -/
def releaseCc (p : Nat) (f : WireFlit) : Nat := f.cc + if isWeft (dieOf p) then 18 else 12

/-- The state in which the oldest flit has left its buffer. -/
def State.unbuffered (s : State) (p : Nat) (r : List WireFlit) (c : Nat) : State := (s.toCc c).setWle p { s.wle p with rx := r }

theorem exec_release (ht : timedEnd p = true) (hlive : s.portAlive p = true) (ha : s.alive p = true) (hrx : (s.wle p).rx = f :: r) :
    exec (.programFlitRelease p) s = .next (
      let out := s.unbuffered p r (releaseCc p f)
      if isWeft (dieOf p) then
        if f.kind = .prog then
          if f.tags.isEmpty then out.inc p R.WL_SLIP_CNT
          else out.setWle p { out.wle p with xbuf := (out.wle p).xbuf ++ [f.tags] }
        else out
      else out.flitReleased (dieOf p) (pageOf p - 0x40) (releaseCc p f) f) := by
  have hup : ¬ (decide (dieOf p < 8) && !(s.portAlive p && s.alive p)) = true := by simp [hlive, ha]
  have hgo : ¬ (!timedEnd p || !s.alive p || !s.portAlive p) = true := by simp [ht, hlive, ha]
  have hh : ¬ isH p = true := by simp [isH_of_timed ht]
  have hexec : exec (.programFlitRelease p) s = .next (match (s.wle p).rx with
      | [] => s
      | f :: r =>
        let out := s.unbuffered p r (releaseCc p f)
        if isWeft (dieOf p) then
          if f.kind = .prog then
            if f.tags.isEmpty then out.inc p R.WL_SLIP_CNT
            else out.setWle p { out.wle p with xbuf := (out.wle p).xbuf ++ [f.tags] }
          else out
        else out.flitReleased (dieOf p) (pageOf p - 0x40) (releaseCc p f) f) :=
    congrArg Host.Outcome.next ((if_neg hh).trans ((if_neg hup).trans (if_neg hgo)))
  rw [hrx] at hexec
  exact hexec

end

/-- A port that is down releases poisoned zeros in place of the flit (R350). -/
theorem exec_release_down {s : State} {d port : Nat} (hd : d < 8) (hp : port < 4) (hrun : s.prog d = 2)
    (hdown : s.alive (wlPg d port) = false ∨ s.portAlive (wlPg d port) = false) (hdest : (s.slotPlan d port s.clk.cc).2 ≠ 31)
    (hx : port ≠ 3 ∨ (s.slotPlan d port s.clk.cc).2 ≠ 16) (hdup : ∀ a ∈ s.arrivals, ¬ (a.die = d ∧ a.port = port ∧ a.cyc = s.clk.cc)) :
    exec (.programFlitRelease (wlPg d port)) s = .next { s with
      arrivals := s.arrivals ++ [⟨d, port, (s.slotPlan d port s.clk.cc).2, s.clk.cc, List.replicate (s.flitLines (wlPg d port)) poisonLine⟩] } := by
  have hdie : dieOf (wlPg d port) = d := by unfold dieOf wlPg pg; omega
  have hport : pageOf (wlPg d port) - 0x40 = port := by unfold pageOf wlPg pg; omega
  have hh : ¬ isH (wlPg d port) = true := by
    unfold isH isHoop
    rw [hdie]
    simp only [Bool.or_eq_true, Bool.and_eq_true, decide_eq_true_eq]
    unfold pageOf wlPg pg
    omega
  have hgo : (decide (dieOf (wlPg d port) < 8) && !(s.portAlive (wlPg d port) && s.alive (wlPg d port))) = true := by
    rw [hdie]
    obtain h | h := hdown <;> simp [h, hd]
  have hfirst : (s.arrivals.any fun a => decide (a.die = d) && decide (a.port = port) && decide (a.cyc = s.clk.cc)) = false := by
    rw [List.any_eq_false]
    intro a ha hb
    simp only [Bool.and_eq_true, decide_eq_true_eq] at hb
    exact hdup a ha ⟨hb.1.1, hb.1.2, hb.2⟩
  have hsent : (decide (s.prog d = stRunning) && decide ((s.slotPlan d port s.clk.cc).2 ≠ 31) &&
      !(decide (port = 3) && decide ((s.slotPlan d port s.clk.cc).2 = 16)) &&
      !(s.arrivals.any fun a => decide (a.die = d) && decide (a.port = port) && decide (a.cyc = s.clk.cc))) = true := by
    rw [hfirst, hrun]
    obtain h | h := hx <;> simp [h, hdest, stRunning]
  refine congrArg Host.Outcome.next ((if_neg hh).trans ((if_pos hgo).trans ?_))
  rw [hdie, hport]
  exact if_pos hsent

end Sys2Proof.Machine
end

section
/-! SUPPORT. WaleFlitsArrive (O47). -/

namespace Sys2Proof.Machine
open Sys2Proof

section
variable {s : State} {p : Nat} {f : WireFlit} {r : List WireFlit}

/-- A slot received without error at a port that is ALIVE. -/
theorem exec_slot_clean (w : Wf s) (hw : (s.wle p).wire = f :: r) (hroom : (s.wle p).rx.length < 32 ∨ timedEnd p = false)
    (hlive : s.portAlive p = true) (ha : s.alive p = true) {c : WKind × (RxErr → Instr)} (hc : c ∈ waleCmds p) (hk : f.kind = c.1) (hside : f.kind ≠ .side)
    (hs : f.slipped p (((s.wle p).off + 0) % 16) f.cc = false)
    (hdrop : f.kind = .prog → timedEnd p = false → isH p = false → s.ceDrops (dieOf p) = false) :
    ∃ t, exec (c.2 noErr) s = .next t ∧ s.Beside t ∧ (∀ k, k ≠ p → t.wle k = s.wle k) ∧ t.wle p = ((s.wle p).got p r f).taking p f := by
  have wg : Wf (s.rxGot p r f) := (kept_rxGot s p r f).wf w
  have hkind : f.kind = .idle ∨ f.kind = .prog ∨ f.kind = .null ∨ f.kind = .empty := by
    simp only [waleCmds, List.mem_cons, List.not_mem_nil, or_false] at hc
    rcases hc with rfl | rfl | rfl | rfl | rfl
    · exact .inl hk
    · exact absurd hk hside
    · exact .inr (.inl hk)
    · exact .inr (.inr (.inl hk))
    · exact .inr (.inr (.inr hk))
  have htake := rxTake_taking (f := f) wg hkind fun h1 h2 h3 => (ceDrops_rxGot w _).trans (hdrop h1 h2 h3)
  refine ⟨(s.rxGot p r f).setWle p (((s.wle p).got p r f).taking p f), (exec_waleCmd hc noErr s).trans (congrArg Host.Outcome.next ?_),
    rxGot_beside s p r f _, fun k h => ?_, ?_⟩
  · rw [← hk, rxKind_clean hw hroom hlive ha hs, htake, wle_rxGot_self w]
  · exact (wle_setWle_ne wg h _).trans (wle_rxGot_ne w h)
  · exact wle_setWle_self wg ..

/-- A program flit that its engine drops. -/
theorem exec_slot_dropped (w : Wf s) (hw : (s.wle p).wire = f :: r) (hlive : s.portAlive p = true) (ha : s.alive p = true) (hk : f.kind = .prog)
    (ht : timedEnd p = false) (hh : isH p = false) (hd : s.ceDrops (dieOf p) = true) :
    ∃ t, exec (.waleProgFlit p noErr) s = .next t ∧ s.Beside t ∧ t.wle p = { (s.wle p).got p r f with owed := (s.wle p).owed + 1 } ∧
      t.rd (cePg (dieOf p)) R.CE_RX_DROP = min (s.rd (cePg (dieOf p)) R.CE_RX_DROP + f.tags.length) (2 ^ R.CE_RX_DROP.w - 1) := by
  have wg : Wf (s.rxGot p r f) := (kept_rxGot s p r f).wf w
  have hself := wle_rxGot_self (p := p) (r := r) (f := f) w
  have hread := rxKind_clean hw (.inr ht) hlive ha (slipped_of_not_timed ht f _ _)
  rw [rxTake_drops hk ht hh ((ceDrops_rxGot w _).trans hd)] at hread
  refine ⟨_, (exec_prog hk noErr).trans (congrArg Host.Outcome.next hread), rfl, ?_, ?_⟩
  · refine (wle_setWle_self wg p _).trans ?_
    rw [hself]
    rfl
  · refine (rd_addSat_self ((kept_setWle (Kept.refl _) ..).wf wg) ..).trans ?_
    rw [(spares_setWle (s.rxGot p r f) p _).rd wg, (spares_rxGot (by decide) s p r f).rd w]

end

/-! What a release finds. -/

section
variable (s : State) (p : Nat) (r : List WireFlit) (c : Nat)

theorem slotPlan_unbuffered (d port : Nat) : (s.unbuffered p r c).slotPlan d port c = s.slotPlan d port c := by
  unfold State.unbuffered
  rw [toCc_clk]
  rfl

theorem od_unbuffered (d : Nat) : (s.unbuffered p r c).od d = s.od d := by
  unfold State.unbuffered
  rw [toCc_clk]
  rfl

theorem arrivals_unbuffered : (s.unbuffered p r c).arrivals = s.arrivals := by
  unfold State.unbuffered
  rw [toCc_clk]
  rfl

theorem asks_unbuffered (d port : Nat) (f : WireFlit) : (s.unbuffered p r c).asks d port c f =
    match f.req with
    | some q => { s.unbuffered p r c with nbq := s.nbq ++ [⟨d, port, c, q.1, f.lines, q.2⟩] }
    | none => s.unbuffered p r c := by
  have hnbq : (s.unbuffered p r c).nbq = s.nbq := by
    unfold State.unbuffered
    rw [toCc_clk]
    rfl
  rw [← hnbq]
  rfl

end

section
variable {s : State} {p : Nat} {f : WireFlit} {r : List WireFlit} {c : Nat}

theorem kept_unbuffered (s : State) (p : Nat) (r : List WireFlit) (c : Nat) : Kept s (s.unbuffered p r c) := kept_setWle (kept_toCc (Kept.refl s) c) ..

theorem wle_unbuffered (w : Wf s) : (s.unbuffered p r c).wle p = { s.wle p with rx := r } := wle_setWle_self ((kept_toCc (Kept.refl s) c).wf w) ..

/-- A payload released at a Weft die leaves its receive buffer for the delivery buffer. -/
theorem unbuffered_deliver (w : Wf s) (ts : List PTag) :
    (s.unbuffered p r c).setWle p { (s.unbuffered p r c).wle p with xbuf := ((s.unbuffered p r c).wle p).xbuf ++ [ts] } =
      (s.toCc c).setWle p { s.wle p with rx := r, xbuf := (s.wle p).xbuf ++ [ts] } := by
  rw [wle_unbuffered w]
  exact setWle_setWle ((kept_toCc (Kept.refl s) c).wf w) ..

/-- What a release asks changes neither the link ends, nor the arrivals, nor a register. -/
theorem asks_spec (e : State) (d port c : Nat) (f : WireFlit) : Kept e (e.asks d port c f) ∧ (e.asks d port c f).arrivals = e.arrivals ∧
    (∀ q, (e.asks d port c f).wle q = e.wle q) ∧ ∀ q g, (e.asks d port c f).rd q g = e.rd q g := by
  unfold State.asks
  split
  · exact ⟨(Kept.refl e).upd rfl, rfl, fun _ => rfl, fun _ _ => rfl⟩
  · exact ⟨Kept.refl e, rfl, fun _ => rfl, fun _ _ => rfl⟩

theorem rd_unbuffered (q : Nat) (g : Fld) : (s.unbuffered p r c).rd q g = s.rd q g := by
  unfold State.unbuffered
  rw [toCc_clk]
  rfl

/-- A release whose flit has no place, or whose slot expects one that has not come, is an event of the mesh. -/
theorem release_lost (w : Wf s) (d port src : Nat) (f : WireFlit) :
    let e := (s.unbuffered p r c).asks d port c f
    let t := e.meshDrawn d src
    t.nbq = e.nbq ∧ t.arrivals = s.arrivals ∧ (t.wle p).rx = r ∧
      t.rd (osTop d) R.OS_MESH_CNT = min (s.rd (osTop d) R.OS_MESH_CNT + 1) (2 ^ R.OS_MESH_CNT.w - 1) := by
  intro e t
  obtain ⟨hkept, harr, hwle, hrd⟩ := asks_spec (s.unbuffered p r c) d port c f
  obtain ⟨hnbq, harrivals, hends, hcount⟩ := meshDrawn_spec (hkept.wf ((kept_unbuffered s p r c).wf w)) d src
  refine ⟨hnbq, harrivals.trans (harr.trans (arrivals_unbuffered ..)), ?_, ?_⟩
  · rw [hends p, hwle p, wle_unbuffered w]
  · rw [hcount, hrd, rd_unbuffered]

section
variable (ht : timedEnd p = true) (hlive : s.portAlive p = true) (ha : s.alive p = true) (hrx : (s.wle p).rx = f :: r)
include ht hlive ha hrx

/-- A release at the Weft die (R338). -/
theorem exec_release_weft (w : Wf s) (hw : isWeft (dieOf p) = true) : exec (.programFlitRelease p) s = .next (
    if f.kind ≠ .prog then s.unbuffered p r (releaseCc p f)
    else if f.tags = [] then (s.unbuffered p r (releaseCc p f)).inc p R.WL_SLIP_CNT
    else (s.toCc (releaseCc p f)).setWle p { s.wle p with rx := r, xbuf := (s.wle p).xbuf ++ [f.tags] }) := by
  refine (exec_release ht hlive ha hrx).trans (congrArg Host.Outcome.next ((if_pos hw).trans ?_))
  rw [unbuffered_deliver w, ite_not]
  simp only [List.isEmpty_iff]

/-- A release at an Osier die (R340). -/
theorem exec_release_osier (hw : isWeft (dieOf p) = false) :
    let d := dieOf p
    let c := releaseCc p f
    let dest := (s.slotPlan d (pageOf p - 0x40) c).2
    let e := (s.unbuffered p r c).asks d (pageOf p - 0x40) c f
    exec (.programFlitRelease p) s = .next (
      if f.kind = .prog && !f.isWrite then
        (if dest = 31 then e.meshDrawn d 1 else { e with arrivals := s.arrivals ++ [⟨d, pageOf p - 0x40, dest, c, f.lines⟩] })
      else if dest = 31 || !(s.od d).phaseOn || !progSlot c then e else e.meshDrawn d 2) := by
  intro d c dest e
  have hharr : e.arrivals = s.arrivals := (asks_spec ..).2.1.trans (arrivals_unbuffered ..)
  refine (exec_release ht hlive ha hrx).trans (congrArg Host.Outcome.next ((if_neg (by simp [hw])).trans ?_))
  rw [flitReleased_eq, slotPlan_unbuffered, od_unbuffered, ← hharr]

end

end

/-- Settles O47: the slot's reading and the flit's release are each a short chain of state updates, and what they leave is read off it. -/
theorem waleFlitsArrive : Obligations.WaleFlitsArrive := by
  unfold Obligations.WaleFlitsArrive
  refine ⟨fun s p w ha => ?port, fun s d port w hd hp hrun => ?down⟩
  case down =>
    intro q dest hdown hdest hx hdup
    exact exec_release_down hd hp hrun hdown hdest hx hdup
  case port =>
    intro v d cmds
    refine ⟨fun c hc e hf => ?other, fun f r hw hroom => ?slot, fun ht hlive f r hrx => ?release⟩
    case other => exact (exec_waleCmd hc e s).trans (congrArg Host.Outcome.next (rxKind_none hf))
    case slot =>
      intro seen only x kept clean
      have hseen (e : RxErr) : seen e ↔ f.slipped p ((v.off + e.slip) % 16) f.cc = false := slipped_iff.symm
      refine ⟨fun c hc e hk hdead => ?dead, fun hlive => ⟨fun c hc hk hside hs hdrop => ?taken, fun hk ht hh hd => ?dropped, fun hk hs => ?side,
        fun e hk hcyc hp hm hsb hs => ?slip, fun e m hk ht hm hsb hs htags => ⟨fun i hi => ?corrected, fun hi => ?lost⟩⟩⟩
      case dead =>
        refine (exec_waleCmd hc e s).trans (congrArg Host.Outcome.next ?_)
        rw [← hk]
        exact rxKind_dead hw hroom hdead
      case taken => exact exec_slot_clean w hw hroom hlive ha hc hk hside ((hseen clean).mp hs) hdrop
      case dropped => exact exec_slot_dropped w hw hlive ha hk ht hh hd
      case side =>
        intro what g y
        refine ⟨fun hd hcell => ?_, fun hd hn => ?_⟩
        · exact exec_side_here hw hroom hlive ha hk ((hseen clean).mp hs) w hd hcell
        · exact exec_side_nearer hw hroom hlive ha hk ((hseen clean).mp hs) w hd hn
      case slip =>
        have hs' := Bool.eq_true_of_not_eq_false (mt (hseen e).mpr hs)
        exact exec_prog_slip hw hroom hlive ha hk w hm hsb hs' hcyc hp
      case corrected => exact exec_prog_corrected hw hroom hlive ha hk w ht hm hsb ((hseen e).mp hs) htags hi
      case lost => exact exec_prog_lost hw hroom hlive ha hk w ht hm hsb ((hseen e).mp hs) hi
    case release =>
      intro c dest out asked isWr
      have hasked : (s.unbuffered p r c).asks d (pageOf p - 0x40) c f = asked := asks_unbuffered s p r c d (pageOf p - 0x40) f
      have hwrite : f.isWrite = isWr := rfl
      have hosier (h : isWeft d = false) := exec_release_osier ht hlive ha hrx h
      dsimp only at hosier
      refine ⟨fun h => exec_release_weft ht hlive ha hrx w h, fun h hprog hwr hdest => ?arrives, fun h hnone hdest => ?nothing, fun h hlost => ?lost⟩
      case arrives =>
        refine (hosier h).trans (congrArg Host.Outcome.next ((if_pos ?_).trans ((if_neg hdest).trans ?_)))
        · simp [hprog, hwrite, hwr]
        · rw [← hasked]
          rfl
      case nothing =>
        refine (hosier h).trans (congrArg Host.Outcome.next ((if_neg ?_).trans ((if_pos ?_).trans hasked)))
        · obtain hk | hk := hnone <;> simp [hk, hwrite]
        · rw [show (s.slotPlan (dieOf p) (pageOf p - 0x40) (releaseCc p f)).2 = 31 from hdest]
          rfl
      case lost =>
        rw [← hasked]
        obtain ⟨hprog, hwr, hdest⟩ | ⟨hnone, hdest, hphase, hslot⟩ := hlost
        · refine ⟨_, (hosier h).trans (congrArg Host.Outcome.next ((if_pos ?_).trans (if_pos hdest))), release_lost w d (pageOf p - 0x40) 1 f⟩
          simp [hprog, hwrite, hwr]
        · refine ⟨_, (hosier h).trans (congrArg Host.Outcome.next ((if_neg ?_).trans (if_neg ?_))), release_lost w d (pageOf p - 0x40) 2 f⟩
          · obtain hk | hk := hnone <;> simp [hk, hwrite]
          · rw [show (s.od (dieOf p)).phaseOn = true from hphase, show progSlot (releaseCc p f) = true from hslot,
              decide_eq_false (show ¬ (s.slotPlan (dieOf p) (pageOf p - 0x40) (releaseCc p f)).2 = 31 from hdest)]
            simp

end Sys2Proof.Machine
end

section
/-! SUPPORT. Descriptors of the stream engines start (O38). -/

namespace Sys2Proof.Machine
open Sys2Proof

/-! The next descriptor of an engine (R247, R248). -/

section
variable (x : Eng)

def Eng.nextOp : Nat := dbits x.next.2.1 12 4

/-- The descriptor as it starts. -/
def Eng.nextDesc : Desc :=
  ⟨x.next.1, x.next.2.1, if twoWord x.nextOp then look (fun _ => 0#128) x.sched ((x.next.1 + 1) % 8192) else 0#128, x.next.2.2, 0⟩

/-- The descriptors that still run when the next one starts. -/
def Eng.stillRunning : List Desc := x.running.filter fun q => x.runs x.next.2.2 q

/-- The engine past its next descriptor. -/
def Eng.pastNext : Eng := { x with pc := (x.next.1 + if twoWord x.nextOp then 2 else 1) % 8192, prev := x.next.2.2, running := x.stillRunning }

end

/-- The state in the start cycle of the engine's next descriptor, the engine past it. -/
def State.atStart (s : State) (d e : Nat) : State := (s.toCc (s.eng d e).next.2.2).setEng d e (s.eng d e).pastNext

/-- The state in which the descriptor acts: a digest request that R317 does not allow has raised ST_ILLEGAL. -/
def State.atLegalStart (s : State) (d e : Nat) : State :=
  let r := (s.eng d e).nextDesc
  if r.digen && !r.digOk then (s.atStart d e).engErr d e r.idx 9 else s.atStart d e

section
variable {s : State} {d e : Nat} {ok : Nat → Bool} {ue2 : Bool} {f : Desc → State → State}

theorem startDesc_other (h : ok (s.eng d e).nextOp = false) : s.startDesc d e ok ue2 f = s :=
  if_neg fun hgo => ne_true_of_eq_false h (Bool.and_eq_true_iff.mp hgo).2

variable (hok : s.engOk d e = true) (hgo : (s.eng d e).going = true) (hop : ok (s.eng d e).nextOp = true)
include hok hgo hop

/-- A descriptor whose command comes acts, or it is illegal and does nothing. -/
theorem startDesc_eq : s.startDesc d e ok ue2 f =
    if !stOps.contains (s.eng d e).nextOp || decide (8 ≤ (s.eng d e).stillRunning.length) || (twoWord (s.eng d e).nextOp && ue2)
    then (s.atStart d e).engErr d e (s.eng d e).next.1 9 else f (s.eng d e).nextDesc (s.atLegalStart d e) := by
  have hstarts : (s.engOk d e && (s.eng d e).going && ok (s.eng d e).nextOp) = true := by rw [hok, hgo, hop]; rfl
  exact if_pos hstarts

theorem startDesc_unassigned (h : stOps.contains (s.eng d e).nextOp = false) :
    s.startDesc d e ok ue2 f = (s.atStart d e).engErr d e (s.eng d e).next.1 9 :=
  (startDesc_eq hok hgo hop).trans (if_pos (by rw [h]; rfl))

theorem startDesc_ninth (h : 8 ≤ (s.eng d e).stillRunning.length) : s.startDesc d e ok ue2 f = (s.atStart d e).engErr d e (s.eng d e).next.1 9 :=
  (startDesc_eq hok hgo hop).trans (if_pos (by rw [decide_eq_true h, Bool.or_true, Bool.true_or]))

theorem startDesc_second_ue (h : twoWord (s.eng d e).nextOp = true) :
    s.startDesc d e ok true f = (s.atStart d e).engErr d e (s.eng d e).next.1 9 :=
  (startDesc_eq hok hgo hop).trans (if_pos (by rw [h, Bool.and_true, Bool.or_true]))

theorem startDesc_legal (hst : stOps.contains (s.eng d e).nextOp = true) (h : (s.eng d e).stillRunning.length < 8) :
    s.startDesc d e ok false f = f (s.eng d e).nextDesc (s.atLegalStart d e) :=
  (startDesc_eq hok hgo hop).trans (if_neg (by rw [hst, decide_eq_false (Nat.not_le.mpr h)]; simp))

end

/-! What an engine and the registers hold when a descriptor acts. -/

theorem eng_of_report {s t : State} (h : t.sansReport = s.sansReport) (d e : Nat) : t.eng d e = s.eng d e := (congrArg (State.eng · d e) h :)

theorem atLegalStart_report (s : State) (d e : Nat) : (s.atLegalStart d e).sansReport = (s.atStart d e).sansReport := by
  unfold State.atLegalStart
  dsimp only
  split
  · exact sansReport_engErr ..
  · rfl

theorem atLegalStart_eng {s : State} (w : Wf s) (d e : Nat) : (s.atLegalStart d e).eng d e = (s.eng d e).pastNext :=
  (eng_of_report (atLegalStart_report s d e) d e).trans (eng_setEng_self ((kept_toCc (Kept.refl s) _).wf w) d e _)

theorem atLegalStart_clk (s : State) (d e : Nat) : (s.atLegalStart d e).clk = (s.toCc (s.eng d e).next.2.2).clk :=
  (congrArg State.clk (atLegalStart_report s d e) :)

theorem rd_atLegalStart {s : State} (w : Wf s) (d e q : Nat) {g : Fld} (hg : g.apart [R.ST_ERR_LAST_INDEX, R.ST_ERR_LAST_SRC, R.PG_FSTAT_SRC] = true)
    (hstat : g.apart [R.PG_FSTAT_SRC] = true) : (s.atLegalStart d e).rd q g = s.rd q g := by
  have hstart : Spares q g s (s.atStart d e) :=
    .of_regs (kept_setEng (kept_toCc (Kept.refl s) _) ..) (congrArg State.regs (toCc_clk s (s.eng d e).next.2.2) :)
  exact (hstart.trans (.ite (spares_engErr hg hstat ..) (.refl ..))).rd w

theorem runDesc_atLegalStart {s : State} (w : Wf s) (d e : Nat) (r : Desc) :
    (s.atLegalStart d e).runDesc d e r = (s.atLegalStart d e).setEng d e { (s.eng d e).pastNext with running := (s.eng d e).stillRunning ++ [r] } := by
  unfold State.runDesc
  rw [atLegalStart_eng w]
  rfl

/-! The commands, by the operation they start (Table 7-3). -/

/-- The commands of operations that run, by operation. -/
def runCmds (d e : Nat) : List (Nat × Instr) :=
  [(1, .stRd d e), (2, .stWr d e), (3, .rdw d e), (4, .wrw d e), (5, .mw d e), (6, .wm d e), (7, .sload d e false), (10, .loadt d e false)]

/-- The commands of all operations but NOP. -/
def startCmds (d e : Nat) : List (Nat × Instr) :=
  runCmds d e ++ [(8, .bread d e false none), (9, .bwrite d e false none none []), (15, .stEndseg d e)]

/-- The commands of a descriptor whose second word has an uncorrectable error. -/
def secondUeCmds (d e : Nat) : List (Nat × Instr) := [(7, .sload d e true), (8, .bread d e true none), (9, .bwrite d e true none none []), (10, .loadt d e true)]

section
variable {s : State} {d e : Nat} {q : Nat × Instr}

theorem exec_runCmd (h : q ∈ runCmds d e) (s : State) : exec q.2 s = .next (s.startDesc d e (· == q.1) false fun r s => s.runDesc d e r) := by
  simp only [runCmds, List.mem_cons, List.not_mem_nil, or_false] at h
  obtain rfl | rfl | rfl | rfl | rfl | rfl | rfl | rfl := h <;> rfl

theorem exec_startCmd (h : q ∈ startCmds d e) (s : State) :
    (∃ f, exec q.2 s = .next (s.startDesc d e (· == q.1) false f)) ∧ stOps.contains q.1 = true := by
  obtain h | h := List.mem_append.mp h
  · refine ⟨⟨_, exec_runCmd h s⟩, ?_⟩
    simp only [runCmds, List.mem_cons, List.not_mem_nil, or_false] at h
    obtain rfl | rfl | rfl | rfl | rfl | rfl | rfl | rfl := h <;> rfl
  · simp only [List.mem_cons, List.not_mem_nil, or_false] at h
    obtain rfl | rfl | rfl := h <;> exact ⟨⟨_, rfl⟩, rfl⟩

theorem exec_secondUeCmd (h : q ∈ secondUeCmds d e) (s : State) :
    (∃ f, exec q.2 s = .next (s.startDesc d e (· == q.1) true f)) ∧ twoWord q.1 = true := by
  simp only [secondUeCmds, List.mem_cons, List.not_mem_nil, or_false] at h
  obtain rfl | rfl | rfl | rfl := h <;> exact ⟨⟨_, rfl⟩, rfl⟩

theorem exec_stNop (s : State) (d e : Nat) :
    exec (.stNop d e false) s = .next (s.startDesc d e (fun op => decide (op = 0) || !stOps.contains op) false fun _ s => s) := rfl

variable (hok : s.engOk d e = true) (hgo : (s.eng d e).going = true)
include hok hgo

/-- An entry with an uncorrectable error only advances the engine (R269). -/
theorem exec_stNop_ue : exec (.stNop d e true) s =
    .next (((s.toCc (s.eng d e).prev).setEng d e { s.eng d e with pc := ((s.eng d e).next.1 + 1) % 8192 }).engErr d e (s.eng d e).next.1 9) :=
  congrArg Host.Outcome.next ((if_pos rfl).trans (if_pos (by rw [hok, hgo]; rfl)))

theorem exec_run (w : Wf s) (h : q ∈ runCmds d e) (hop : (s.eng d e).nextOp = q.1) (hlen : (s.eng d e).stillRunning.length < 8) :
    exec q.2 s = .next ((s.atLegalStart d e).setEng d e
      { (s.eng d e).pastNext with running := (s.eng d e).stillRunning ++ [(s.eng d e).nextDesc] }) := by
  have hst : stOps.contains (s.eng d e).nextOp = true := hop ▸ (exec_startCmd (List.mem_append_left _ h) s).2
  rw [exec_runCmd h, startDesc_legal hok hgo (by exact beq_of_eq hop) hst hlen, runDesc_atLegalStart w]

theorem exec_ninth (h : q ∈ (0, Instr.stNop d e false) :: startCmds d e) (hop : (s.eng d e).nextOp = q.1)
    (hlen : 8 ≤ (s.eng d e).stillRunning.length) : exec q.2 s = .next ((s.atStart d e).engErr d e (s.eng d e).next.1 9) := by
  obtain rfl | h := List.mem_cons.mp h
  · exact (exec_stNop s d e).trans <| congrArg Host.Outcome.next (startDesc_ninth hok hgo (by rw [hop]; rfl) hlen)
  · obtain ⟨⟨f, hf⟩, _⟩ := exec_startCmd h s
    rw [hf, startDesc_ninth hok hgo (by exact beq_of_eq hop) hlen]

theorem exec_second_ue (h : q ∈ secondUeCmds d e) (hop : (s.eng d e).nextOp = q.1) :
    exec q.2 s = .next ((s.atStart d e).engErr d e (s.eng d e).next.1 9) := by
  obtain ⟨⟨f, hf⟩, htwo⟩ := exec_secondUeCmd h s
  rw [hf, startDesc_second_ue hok hgo (by exact beq_of_eq hop) (hop ▸ htwo)]

theorem exec_endseg (w : Wf s) (hop : (s.eng d e).nextOp = 15) (hlen : (s.eng d e).stillRunning.length < 8) :
    exec (.stEndseg d e) s = .next ((s.atLegalStart d e).setEng d e { (s.eng d e).pastNext with ended := some (s.eng d e).next.2.2 }) := by
  refine congrArg Host.Outcome.next ((startDesc_legal hok hgo (by exact beq_of_eq hop) (by rw [hop]; rfl) hlen).trans ?_)
  dsimp only
  rw [atLegalStart_eng w]
  rfl

theorem exec_nop (hop : (s.eng d e).nextOp = 0) (hlen : (s.eng d e).stillRunning.length < 8) :
    exec (.stNop d e false) s = .next (s.atLegalStart d e) :=
  (exec_stNop s d e).trans <| congrArg Host.Outcome.next (startDesc_legal hok hgo (by rw [hop]; rfl) (by rw [hop]; rfl) hlen)

theorem exec_unassigned (hlo : 11 ≤ (s.eng d e).nextOp) (hhi : (s.eng d e).nextOp ≤ 14) :
    exec (.stNop d e false) s = .next ((s.atStart d e).engErr d e (s.eng d e).next.1 9) := by
  have hno : stOps.contains (s.eng d e).nextOp = false := by
    generalize (s.eng d e).nextOp = op at *
    interval_cases op <;> rfl
  exact (exec_stNop s d e).trans <| congrArg Host.Outcome.next (startDesc_unassigned hok hgo (by rw [hno]; simp) hno)

end

/-! Borrowed operations (R259, R260). -/

/-- The operation that a descriptor starts in state `g`. -/
def State.loanOf (g : State) (d e : Nat) (r : Desc) (write : Bool) : Borrow :=
  let en := g.stakeE d (r.addr / 2 ^ 26)
  ⟨r.idx, write, skPeer en, skLgran en, r.addr, dbits r.word2 0 42 / 128 * 128, r.count,
    g.clk.tick + max 1 (min 10000 (g.rd (stPg d e) R.ST_BORROW_TMO_MS)) * msTicks, r.evt⟩

/-- The request for `b` leaves through the X port. -/
def State.askLoan (t : State) (d : Nat) (b : Borrow) (ls : List FLine) : State :=
  t.sideQueue (wlPg d 3) ⟨1, 8 + d, .memReq b.peer (b.lgran * 2 ^ 26 + b.addr % 2 ^ 26) b.count b.write, ls⟩

/-- The operation in flight sends its request, a BWRITE with the lines of its source. -/
def State.sendLoan (h : State) (d e : Nat) (b : Borrow) : State :=
  let y := if b.write then h.borrowSource d e b [] none else (h, [])
  y.1.askLoan d b y.2

/-- The state in which the operation is in flight. -/
def State.inFlight (g : State) (d e : Nat) (b : Borrow) : State := g.setEng d e { g.eng d e with borrow := (g.eng d e).borrow ++ [b] }

section
variable {g : State} {d e : Nat} {r : Desc} {write : Bool}

theorem borrowStart_miss (h : skKind (g.stakeE d (r.addr / 2 ^ 26)) ≠ 3) :
    g.borrowStart d e r write none none [] = (g.engErr d e r.idx 0).borrowEnd d e (g.loanOf d e r write) none none none :=
  if_pos h

theorem borrowStart_protected (h : skKind (g.stakeE d (r.addr / 2 ^ 26)) = 3) (hw : write = true) (hp : skWp (g.stakeE d (r.addr / 2 ^ 26)) = true) :
    g.borrowStart d e r write none none [] = (g.engErr d e r.idx 6).borrowEnd d e (g.loanOf d e r write) none none none :=
  (if_neg (not_not_intro h)).trans (if_pos (by rw [hw, hp]; rfl))

variable (hk : skKind (g.stakeE d (r.addr / 2 ^ 26)) = 3) (hp : write = true → skWp (g.stakeE d (r.addr / 2 ^ 26)) = false)
include hk hp

theorem borrowStart_lender : g.borrowStart d e r write none none [] =
    if decide (16 ≤ (g.eng d e).borrow.length) || !g.samePod (skPeer (g.stakeE d (r.addr / 2 ^ 26))) then
      g.borrowEnd d e (g.loanOf d e r write) none (some 7) none
    else
      (g.inFlight d e (g.loanOf d e r write)).sendLoan d e (g.loanOf d e r write) := by
  have hfree : ¬ (write && skWp (g.stakeE d (r.addr / 2 ^ 26))) = true := by
    cases write with
    | false => exact nofun
    | true => rw [hp rfl]; exact nofun
  exact (if_neg (not_not_intro hk)).trans (if_neg hfree)

theorem borrowStart_refused (h : 16 ≤ (g.eng d e).borrow.length ∨ g.samePod (skPeer (g.stakeE d (r.addr / 2 ^ 26))) = false) :
    g.borrowStart d e r write none none [] = g.borrowEnd d e (g.loanOf d e r write) none (some 7) none :=
  (borrowStart_lender hk hp).trans (if_pos (by simpa using h))

theorem borrowStart_asks (hn : (g.eng d e).borrow.length < 16) (hpod : g.samePod (skPeer (g.stakeE d (r.addr / 2 ^ 26))) = true) :
    g.borrowStart d e r write none none [] =
      (g.inFlight d e (g.loanOf d e r write)).sendLoan d e (g.loanOf d e r write) :=
  (borrowStart_lender hk hp).trans (if_neg (by rw [hpod, decide_eq_false (Nat.not_le.mpr hn)]; exact nofun))

end

/-- The lines that a BWRITE carries: its source's, read in the side share. -/
theorem borrowSource_here {h : State} {d mc v : Nat} {b : Borrow} (hr : h.resolve d b.addr2 false false false = .here mc v) (e : Nat) :
    h.borrowSource d e b [] none = (h.sideBytes mc (128 * b.count)).mcRead mc (h.rangeUnits d b.addr2 b.count)
      ((h.rangeUnits d b.addr2 b.count).flatMap fun u => h.hunit mc u) [] := by
  unfold State.borrowSource
  dsimp only [State.stakeCe]
  change (match h.resolve d b.addr2 false false false with | .here _ _ => _ | _ => _) = _
  rw [hr]
  rfl

/-- A source that is no local unit: its fault, and poisoned lines. -/
theorem borrowSource_not_here {h : State} {d : Nat} {b : Borrow} (hr : ∀ mc v, h.resolve d b.addr2 false false false ≠ .here mc v) (e : Nat) :
    h.borrowSource d e b [] none = (h.placeErr d e b.idx (h.resolve d b.addr2 false false false), noData (4 * b.count)) := by
  unfold State.borrowSource
  dsimp only [State.stakeCe]
  change (match h.resolve d b.addr2 false false false with | .here _ _ => _ | _ => _) = _
  generalize h.resolve d b.addr2 false false false = pl at *
  cases pl with
  | here mc v => exact absurd rfl (hr mc v)
  | nbr _ _ _ => rfl
  | bad _ => rfl

theorem sendLoan_read {b : Borrow} (hw : b.write = false) (h : State) (d e : Nat) : h.sendLoan d e b = h.askLoan d b [] := by
  unfold State.sendLoan
  rw [hw]
  rfl

theorem sendLoan_write {b : Borrow} (hw : b.write = true) {h : State} {d e : Nat} {z : State × List FLine} (hs : h.borrowSource d e b [] none = z) :
    h.sendLoan d e b = z.1.askLoan d b z.2 := by
  unfold State.sendLoan
  rw [hw, if_pos rfl, hs]

/-- Its time limit counts from the start cycle, and the page's limit is the one before the start. -/
theorem loanOf_atLegalStart {s : State} (w : Wf s) (d e : Nat) (r : Desc) (write : Bool) :
    (s.atLegalStart d e).loanOf d e r write =
      let en := (s.atLegalStart d e).stakeE d (r.addr / 2 ^ 26)
      ⟨r.idx, write, skPeer en, skLgran en, r.addr, dbits r.word2 0 42 / 128 * 128, r.count,
        (s.toCc (s.eng d e).next.2.2).clk.tick + max 1 (min 10000 (s.rd (stPg d e) R.ST_BORROW_TMO_MS)) * msTicks, r.evt⟩ := by
  unfold State.loanOf
  rw [atLegalStart_clk, rd_atLegalStart w d e _ (by decide) (by decide)]

/-- The command that starts a borrowed operation. -/
def borrowCmd (d e : Nat) (write : Bool) : Instr := if write then .bwrite d e false none none [] else .bread d e false none

theorem exec_borrowCmd {s : State} {d e : Nat} (hok : s.engOk d e = true) (hgo : (s.eng d e).going = true) {write : Bool}
    (hop : (s.eng d e).nextOp = if write then 9 else 8) (hlen : (s.eng d e).stillRunning.length < 8) :
    exec (borrowCmd d e write) s = .next ((s.atLegalStart d e).borrowStart d e (s.eng d e).nextDesc write none none []) := by
  cases write with
  | false => exact congrArg Host.Outcome.next (startDesc_legal hok hgo (by exact beq_of_eq hop) (by rw [hop]; rfl) hlen)
  | true => exact congrArg Host.Outcome.next (startDesc_legal hok hgo (by exact beq_of_eq hop) (by rw [hop]; rfl) hlen)

/-- Settles O38: a command starts its operation alone, past the entry's words, and a borrowed operation asks or ends at once. -/
theorem streamDescriptorsStart : Obligations.StreamDescriptorsStart := by
  unfold Obligations.StreamDescriptorsStart
  intro s d e w hok hgo x i wd c op two run y r f g runs cmds
  refine ⟨fun q hq hop => ?other, fun q hq hop hlen => exec_run hok hgo w hq hop hlen, fun q hq hop hlen => exec_ninth hok hgo hq hop hlen,
    fun q hq hop => exec_second_ue hok hgo hq hop, fun hop hlen => exec_endseg hok hgo w hop hlen, fun hop hlen => exec_nop hok hgo hop hlen,
    fun hlo hhi => exec_unassigned hok hgo hlo hhi, exec_stNop_ue hok hgo, fun wr hop hlen => ?borrow⟩
  case other =>
    obtain ⟨⟨f, hf⟩, _⟩ := exec_startCmd hq s
    rw [hf, startDesc_other (by exact beq_eq_false_iff_ne.mpr hop)]
  case borrow =>
    intro cmd en a2 b h ask
    have hexec : exec cmd s = .next (g.borrowStart d e r wr none none []) := exec_borrowCmd hok hgo hop hlen
    have heng : g.eng d e = y := atLegalStart_eng w d e
    have hb : g.loanOf d e r wr = b := loanOf_atLegalStart w d e r wr
    have hflight : g.inFlight d e b = h := congrArg (fun z : Eng => g.setEng d e { z with borrow := z.borrow ++ [b] }) heng
    have hn : (g.eng d e).borrow = x.borrow := (congrArg Eng.borrow heng).trans rfl
    refine ⟨fun hk hp hlen16 hpod => ?lender, fun hk hp hno => ?refused, fun hk hw hp => ?guarded, fun hk => ?miss⟩
    case lender =>
      rw [borrowStart_asks hk hp (hn ▸ hlen16) hpod, hb, hflight] at hexec
      have hask (t : State) (ls : List FLine) : t.askLoan d b ls = ask t ls := rfl
      refine ⟨fun hw => ?read, fun hw mc v hr => ?write, fun hw hr => ?missing⟩
      case read => rw [hexec, sendLoan_read (b := b) hw, hask]
      case write => rw [hexec, sendLoan_write (b := b) hw (borrowSource_here (b := b) hr e), hask]
      case missing => rw [hexec, sendLoan_write (b := b) hw (borrowSource_not_here (b := b) hr e), hask]; rfl
    case refused => exact hb ▸ hexec.trans (congrArg Host.Outcome.next (borrowStart_refused hk hp (hn ▸ hno)))
    case guarded => exact hb ▸ hexec.trans (congrArg Host.Outcome.next (borrowStart_protected hk hw hp))
    case miss => exact hb ▸ hexec.trans (congrArg Host.Outcome.next (borrowStart_miss hk))

end Sys2Proof.Machine
end

section
/-! SUPPORT. What detections, counters and the engines' own steps leave standing: blocks that are up, and all but a few fields of a page (O39, O41). -/

namespace Sys2Proof.Machine
open Sys2Proof

/-- A field apart from several places is apart from the first. -/
theorem apart_head {g f : Fld} {fs : List Fld} (h : g.apart (f :: fs) = true) : g.apart [f] = true := by
  unfold Fld.apart at h ⊢
  rw [List.all_cons, Bool.and_eq_true, Bool.and_eq_true] at h
  rw [List.all_cons, h.1, h.2.1]
  rfl

theorem pages_digAdd (s : State) (d e : Nat) (g : Option (Nat × Nat)) (ls : List FLine) : (s.digAdd d e g ls).pages = s.pages := by
  cases g <;> rfl

/-- From `s` to `t` no block comes up or goes down. -/
structure StaysUp (s t : State) : Prop where
  kept : Kept s t
  alive : Wf s → ∀ p, t.alive p = s.alive p

namespace StaysUp
variable {s t u : State}

theorem refl (s : State) : StaysUp s s := ⟨Kept.refl s, fun _ _ => rfl⟩

theorem trans (h : StaysUp s t) (k : StaysUp t u) : StaysUp s u :=
  ⟨h.kept.trans k.kept, fun w p => (k.alive (h.kept.wf w) p).trans (h.alive w p)⟩

theorem of_pages (k : Kept s t) (h : t.pages = s.pages) : StaysUp s t := ⟨k, fun _ p => by unfold State.alive State.page; rw [h]⟩

theorem ite {c : Prop} [Decidable c] (h : StaysUp s t) (k : StaysUp s u) : StaysUp s (if c then t else u) := by
  split
  · exact h
  · exact k

theorem foldl {α : Type} {f : State → α → State} (hf : ∀ t x, StaysUp t (f t x)) (l : List α) (s : State) : StaysUp s (l.foldl f s) := by
  induction l generalizing s with
  | nil => exact refl s
  | cons x l ih => exact (hf s x).trans (ih _)

theorem wr (s : State) (p : Nat) (f : Fld) (v : Nat) : StaysUp s (s.wr p f v) := of_pages (kept_wr (Kept.refl s) ..) rfl

/-- A page's bookkeeping changes, its block does not. -/
theorem setPage {p : Nat} {x : PageSt} (h : x.up = (s.page p).up) : StaysUp s (s.setPage p x) := by
  refine ⟨kept_setPage (Kept.refl s) .., fun w q => ?_⟩
  unfold State.alive
  by_cases hq : q = p
  · have hself : (s.setPage p x).page p = x := look_put_self _ _ w.pages
    rw [hq, hself, h]
  · have hother : (s.setPage p x).page q = s.page q := look_put_ne _ hq w.pages
    rw [hother]

theorem startGrace (s : State) (p src sev : Nat) : StaysUp s (s.startGrace p src sev) := .ite (.setPage rfl) (.refl s)

/-- A detection takes no block down by itself (R447). -/
theorem raiseX (s : State) (p src last extra : Nat) : StaysUp s (s.raiseX p src last extra) := by
  unfold State.raiseX
  refine .ite (.refl s) (.ite (.setPage rfl) ?_)
  refine .trans ?_ (.startGrace _ p src _)
  refine .trans ?_ (.setPage rfl)
  exact .trans (.wr s p _ _) (.of_pages (kept_sendRec (Kept.refl _) _) rfl)

theorem raise (s : State) (p src : Nat) : StaysUp s (s.raise p src) := raiseX ..

theorem meshEvent (s : State) (d src node port : Nat) : StaysUp s (s.meshEvent d src node port) := by
  unfold State.meshEvent
  refine .trans ?_ (.raise _ _ src)
  exact .trans (.trans (.trans (.trans (.wr s _ _ _) (.wr _ _ _ _)) (.wr _ _ _ _)) (.wr _ _ _ _)) (.wr _ _ _ _)

theorem engErr (s : State) (d e idx src : Nat) : StaysUp s (s.engErr d e idx src) := by
  unfold State.engErr
  exact .trans (.ite (.trans (.wr s _ _ _) (.wr _ _ _ _)) (.refl s)) (.raise _ _ src)

theorem evtOpt (s : State) (d : Nat) (e : Option Nat) : StaysUp s (s.evtOpt d e) := by
  refine .of_pages (kept_evtOpt (Kept.refl s) ..) ?_
  cases e with
  | none => rfl
  | some c =>
    obtain ⟨x, hx⟩ := evtAdd_eq s d c 1
    exact (congrArg State.pages hx).trans (congrArg State.pages (condNote_frame _ d _ []) :)

theorem putHunit (s : State) (mc u : Nat) (ls : List FLine) : StaysUp s (s.putHunit mc u ls) :=
  .of_pages (kept_putHunit (Kept.refl s) ..) (congrArg State.pages (sansHbm_putHunit s mc u ls) :)

theorem stageFlit (s : State) (d port e c idx : Nat) (ls : List FLine) : StaysUp s (s.stageFlit d port e c idx ls) := by
  unfold State.stageFlit
  split
  · exact .of_pages ((Kept.refl s).upd rfl) rfl
  · refine .ite (.of_pages ((Kept.refl s).upd rfl) rfl) (.trans (.engErr s d e idx 4) (.ite ?_ (.refl _)))
    exact .of_pages ((Kept.refl _).upd rfl) rfl

theorem enterUnit (s : State) (w : WUnit) : StaysUp s (s.enterUnit w) := by
  unfold State.enterUnit
  refine .trans ?_ (.evtOpt _ w.die w.evt)
  split
  · exact .ite (.putHunit ..) (.refl s)
  · refine .trans ?_ (.stageFlit ..)
    exact .ite (.refl s) (.of_pages ((Kept.refl s).upd rfl) rfl)
  · exact .stageFlit ..
  · exact .refl s

theorem takeDue (s : State) (d c : Nat) : StaysUp s (s.takeDue d c) := by
  refine .foldl (fun t w => ?_) _ s
  refine .ite ?_ (.refl t)
  refine .trans ?_ (.of_pages ((Kept.refl _).upd rfl) rfl)
  refine .trans ?_ (.of_pages (kept_digAdd (Kept.refl _) ..) (pages_digAdd ..))
  split
  · exact .ite (.refl t) (.of_pages ((Kept.refl t).upd rfl) rfl)
  · exact .ite (.refl t) (.meshEvent ..)

theorem enterDue (s : State) (d k : Nat) : StaysUp s (s.enterDue d k) := by
  refine .trans ?_ (.foldl .enterUnit _ _)
  exact .of_pages ((Kept.refl s).upd rfl) rfl

theorem edgesLost (s : State) (d c : Nat) : StaysUp s (s.edgesLost d c) := by
  refine .trans ?_ (.foldl (fun t _ => .meshEvent t ..) _ _)
  exact .of_pages ((Kept.refl s).upd rfl) rfl

theorem arrivalsLost (s : State) (d c : Nat) : StaysUp s (s.arrivalsLost d c) := by
  unfold State.arrivalsLost
  refine .trans ?_ (.foldl (fun t _ => ?_) _ _)
  · exact .of_pages ((Kept.refl s).upd rfl) rfl
  · refine .trans ?_ (.meshEvent t.draw.1.draw.1 d 1 _ _)
    exact .of_pages ((Kept.refl t).upd rfl) rfl

/-- What the engines of a die do by themselves takes no block down. -/
theorem settleDie (s : State) (d c : Nat) : StaysUp s (s.settleDie d c) :=
  .trans (.takeDue s d c) (.trans (.enterDue _ d _) (.trans (.edgesLost _ d c) (.arrivalsLost _ d c)))

end StaysUp

/-! The budget check (R224). -/

/-- The state but for what the budget check writes. -/
def State.sansBudget (s : State) : State := { s with regs := [], pages := [], flt := {}, ovb := [], ovbOver := [] }

/-- The fields that the budget check writes. -/
def budgetFields : List Fld := [R.PG_FSTAT_SRC, R.OS_OVB_LAST_PC, R.OS_OVB_LAST_BYTES, R.OS_OVB_CNT]

/-- From `s` to `t` a budget check was made, and nothing else. -/
structure Budgeted (s t : State) : Prop where
  frame : t.sansBudget = s.sansBudget
  up : StaysUp s t
  spares : ∀ q g, g.apart budgetFields = true → Spares q g s t

namespace Budgeted
variable {s t u : State}

theorem refl (s : State) : Budgeted s s := ⟨rfl, .refl s, fun _ _ _ => .refl _ _ s⟩

theorem trans (h : Budgeted s t) (k : Budgeted t u) : Budgeted s u :=
  ⟨k.frame.trans h.frame, h.up.trans k.up, fun q g hg => (h.spares q g hg).trans (k.spares q g hg)⟩

theorem foldl {α : Type} {f : State → α → State} (hf : ∀ t x, Budgeted t (f t x)) (l : List α) (s : State) : Budgeted s (l.foldl f s) := by
  induction l generalizing s with
  | nil => exact refl s
  | cons x l ih => exact (hf s x).trans (ih _)

theorem of_regs (k : Kept s t) (h : t.sansBudget = s.sansBudget) (hp : t.pages = s.pages) (hr : t.regs = s.regs) : Budgeted s t :=
  ⟨h, .of_pages k hp, fun _ _ _ => .of_regs k hr⟩

theorem wr (s : State) (p : Nat) {f : Fld} (hf : f ∈ budgetFields) (v : Nat) : Budgeted s (s.wr p f v) :=
  ⟨rfl, .wr s p f v, fun _ _ hg => .wr hg hf s p v⟩

theorem raise (s : State) (p src : Nat) : Budgeted s (s.raise p src) :=
  ⟨(congrArg State.sansBudget (sansReport_raise s p src) :), .raise s p src, fun _ _ hg => spares_raiseX (apart_head hg) s p src _ _⟩

theorem clk (h : Budgeted s t) : t.clk = s.clk := (congrArg State.clk h.frame :)
theorem tiles (h : Budgeted s t) : t.tiles = s.tiles := (congrArg State.tiles h.frame :)
theorem nbq (h : Budgeted s t) : t.nbq = s.nbq := (congrArg State.nbq h.frame :)
theorem hbm (h : Budgeted s t) : t.hbm = s.hbm := (congrArg State.hbm h.frame :)
theorem reads (h : Budgeted s t) : t.reads = s.reads := (congrArg State.reads h.frame :)
theorem units (h : Budgeted s t) : t.units = s.units := (congrArg State.units h.frame :)
theorem stakeE (h : Budgeted s t) (d g : Nat) : t.stakeE d g = s.stakeE d g := (congrArg (State.stakeE · d g) h.frame :)
theorem laneUsers (h : Budgeted s t) (d e lane c : Nat) : t.laneUsers d e lane c = s.laneUsers d e lane c :=
  (congrArg (State.laneUsers · d e lane c) h.frame :)
theorem hunit (h : Budgeted s t) (mc u : Nat) : t.hunit mc u = s.hunit mc u := (congrArg (State.hunit · mc u) h.frame :)

end Budgeted

theorem budgeted_budget (s : State) (mc : Nat) (us : List Nat) (t : Nat) : Budgeted s (s.budget mc us t) := by
  unfold State.budget
  have hadd : Budgeted s (us.foldl (fun s u => s.ovbAdd mc t u) s) :=
    .foldl (fun x u => .of_regs (kept_ovbAdd (Kept.refl x) mc t u) rfl rfl rfl) us s
  dsimp only
  generalize us.foldl (fun s u => s.ovbAdd mc t u) s = x at *
  split
  · exact hadd
  · refine hadd.trans (.trans ?_ (.raise _ _ 3))
    refine .trans ?_ (.wr _ _ (by decide) _)
    refine .trans ?_ (.wr _ _ (by decide) _)
    refine .trans ?_ (.wr _ _ (by decide) _)
    refine .foldl (fun y u => ?_) _ _
    exact .of_regs ((Kept.refl y).upd rfl) rfl rfl rfl

/-- The state with more units in the return buffer. -/
def State.withReads (s : State) (rs : List RUnit) : State := { s with reads := s.reads ++ rs }

end Sys2Proof.Machine
end

section
/-! SUPPORT. Refresh, patrol scrub and neighbour requests (O41). -/

namespace Sys2Proof.Machine
open Sys2Proof

/-! The refresh rate (R238). -/

section
variable {s : State} {d k temp : Nat}

/-- The state with the reading of a stack's sensor. -/
def State.sensed (s : State) (d k temp : Nat) : State := s.wr (mcPg d k) R.MC_STAT_TEMP temp

/-- The state with the tick since which a stack has been cool, if it is. -/
def State.coolSince (s : State) (mc : Nat) (v : Option Nat) : State := { s with cool := put (fun _ => none) s.cool mc v }

theorem cool_wb_toTick (s : State) (n p : Nat) (f : Fld) (b : Bool) : ((s.toTick n).wb p f b).cool = s.cool := by
  obtain ⟨c, -, hc⟩ := toTick_clk s n
  rw [hc]
  rfl

variable (w : Wf s) (hd : d < 8) (hk : k < 3) (ha : s.alive (mcPg d k) = true)

theorem bit_sensed (w : Wf s) (d k temp : Nat) : (s.sensed d k temp).bit (mcPg d k) R.MC_STAT_REF2X = s.bit (mcPg d k) R.MC_STAT_REF2X :=
  bit_wr_place w _ rfl rfl (by decide)

include hd hk ha

theorem refresh_goes : (stackOk d k && s.alive (mcPg d k)) = true := by
  rw [ha, stackOk, decide_eq_true hd, decide_eq_true hk]
  rfl

include w

theorem exec_refresh_hot (h2 : s.bit (mcPg d k) R.MC_STAT_REF2X = false) (ht : 85 < temp) : exec (.refreshRateChange d k temp) s =
    .next (((s.sensed d k temp).wb (mcPg d k) R.MC_STAT_REF2X true).raise (mcPg d k) 4) :=
  congrArg Host.Outcome.next ((if_pos (refresh_goes hd hk ha)).trans
    ((if_neg (ne_true_of_eq_false ((bit_sensed w d k temp).trans h2))).trans (if_pos ht)))

theorem exec_refresh_normal (h2 : s.bit (mcPg d k) R.MC_STAT_REF2X = false) (ht : temp ≤ 85) :
    exec (.refreshRateChange d k temp) s = .next (s.sensed d k temp) :=
  congrArg Host.Outcome.next ((if_pos (refresh_goes hd hk ha)).trans
    ((if_neg (ne_true_of_eq_false ((bit_sensed w d k temp).trans h2))).trans (if_neg (Nat.not_lt.mpr ht))))

/-- While the rate is doubled a reading starts, goes on with or ends the 10 ms below 83 degrees. -/
theorem exec_refresh_doubled (h2 : s.bit (mcPg d k) R.MC_STAT_REF2X = true) : exec (.refreshRateChange d k temp) s = .next (
    match look (fun _ => none) s.cool (d * 4 + k) with
    | some t =>
      if temp < 83 then ((((s.sensed d k temp).toTick (t + 1000000)).wb (mcPg d k) R.MC_STAT_REF2X false).coolSince (d * 4 + k) none).raise (mcPg d k) 4
      else (s.sensed d k temp).refreshSeen d k temp
    | none => (s.sensed d k temp).refreshSeen d k temp) :=
  congrArg Host.Outcome.next ((if_pos (refresh_goes hd hk ha)).trans (if_pos ((bit_sensed w d k temp).trans h2)))

omit w hd hk ha in
theorem refreshSeen_warm (h2 : s.bit (mcPg d k) R.MC_STAT_REF2X = true) (ht : 83 ≤ temp) :
    s.refreshSeen d k temp = s.coolSince (d * 4 + k) none := (if_pos h2).trans (if_neg (Nat.not_lt.mpr ht))

omit w hd hk ha in
theorem refreshSeen_cool (h2 : s.bit (mcPg d k) R.MC_STAT_REF2X = true) (ht : temp < 83) (hc : look (fun _ => none) s.cool (d * 4 + k) = none) :
    s.refreshSeen d k temp = s.coolSince (d * 4 + k) (some s.clk.tick) := by
  refine (if_pos h2).trans ((if_pos ht).trans ?_)
  rw [hc]
  rfl

theorem exec_refresh_warm (h2 : s.bit (mcPg d k) R.MC_STAT_REF2X = true) (ht : 83 ≤ temp) :
    exec (.refreshRateChange d k temp) s = .next ((s.sensed d k temp).coolSince (d * 4 + k) none) := by
  have hseen := refreshSeen_warm ((bit_sensed w d k temp).trans h2) ht
  refine (exec_refresh_doubled w hd hk ha h2).trans (congrArg Host.Outcome.next ?_)
  cases look (fun _ => none) s.cool (d * 4 + k) with
  | none => exact hseen
  | some t => exact (if_neg (Nat.not_lt.mpr ht)).trans hseen

theorem exec_refresh_cools (h2 : s.bit (mcPg d k) R.MC_STAT_REF2X = true) (ht : temp < 83) (hc : look (fun _ => none) s.cool (d * 4 + k) = none) :
    exec (.refreshRateChange d k temp) s = .next ((s.sensed d k temp).coolSince (d * 4 + k) (some s.clk.tick)) := by
  rw [exec_refresh_doubled w hd hk ha h2, hc, refreshSeen_cool ((bit_sensed w d k temp).trans h2) ht hc]
  rfl

theorem exec_refresh_returns (h2 : s.bit (mcPg d k) R.MC_STAT_REF2X = true) (ht : temp < 83) {t : Nat}
    (hc : look (fun _ => none) s.cool (d * 4 + k) = some t) : exec (.refreshRateChange d k temp) s =
      .next (((((s.sensed d k temp).toTick (t + 1000000)).wb (mcPg d k) R.MC_STAT_REF2X false).coolSince (d * 4 + k) none).raise (mcPg d k) 4) := by
  rw [exec_refresh_doubled w hd hk ha h2, hc]
  exact congrArg Host.Outcome.next (if_pos ht)

end

/-! The patrol scrub (R242). -/

/-- The errors that a scrub of unit `u` meets are reported. -/
def State.scrubReports (s : State) (mc u : Nat) (hits : List EccHit) : State :=
  hits.foldl (fun s h => s.mcEvent mc (if h.ue then 1 else 0) (u * 128 + 32 * h.word)) s

/-- Its words with an uncorrectable error become poisoned. -/
def State.scrubPoisons (s : State) (mc u : Nat) (hits : List EccHit) : State :=
  hits.foldl (fun s h => if h.ue && decide (h.word < 4) then s.putHline mc (4 * u + h.word) poisonLine else s) s

/-- Whether a scrub of unit `u` that meets `h` poisons the line at a key. -/
def scrubsAway (mc u key : Nat) (h : EccHit) : Bool := h.ue && decide (h.word < 4) && decide (key = mc * 2 ^ 32 + (4 * u + h.word))

theorem exec_patrolScrub {s : State} {d k : Nat} (hd : d < 8) (hk : k < 3) (hup : s.mcUp (d * 4 + k) = true)
    (hen : s.bit (mcPg d k) R.MC_SCRUB_EN = true) (hits : List EccHit) : exec (.patrolScrub d k hits) s = .next (
      let u := look natZero s.scrubAt (d * 4 + k)
      let t := ((s.sideBytes (d * 4 + k) 128).scrubReports (d * 4 + k) u hits).scrubPoisons (d * 4 + k) u hits
      { t with scrubAt := put natZero t.scrubAt (d * 4 + k) ((u + 1) % 2 ^ 30) }) :=
  congrArg Host.Outcome.next (if_pos (by rw [hup, hen, stackOk, decide_eq_true hd, decide_eq_true hk]; rfl))

theorem exec_patrolScrub_rests {s : State} {d k : Nat} (h : s.mcUp (d * 4 + k) = false ∨ s.bit (mcPg d k) R.MC_SCRUB_EN = false) (hits : List EccHit) :
    exec (.patrolScrub d k hits) s = .next s :=
  congrArg Host.Outcome.next (if_neg (by obtain h | h := h <;> simp [h]))

theorem sansReport_mcEvent (s : State) (mc src addr : Nat) : (s.mcEvent mc src addr).sansReport = s.sansReport := (sansReport_raise ..).trans rfl

theorem sansReport_scrubReports (s : State) (mc u : Nat) (hits : List EccHit) : (s.scrubReports mc u hits).sansReport = s.sansReport :=
  foldl_keeps State.sansReport (fun _ _ => sansReport_mcEvent ..) hits s

theorem sansHbm_scrubPoisons (s : State) (mc u : Nat) (hits : List EccHit) : (s.scrubPoisons mc u hits).sansHbm = s.sansHbm :=
  foldl_keeps State.sansHbm (fun _ _ => by split <;> rfl) hits s

/-- Of a scrub's unit the erring words are poisoned, and no other line changes. -/
theorem look_scrubPoisons {s : State} (w : Wf s) (mc : Nat) {u : Nat} (hu : u < 2 ^ 30) (hits : List EccHit) (key : Nat) :
    look lineZero (s.scrubPoisons mc u hits).hbm key = if hits.any (scrubsAway mc u key) then poisonLine else look lineZero s.hbm key := by
  induction hits generalizing s with
  | nil => rfl
  | cons h hits ih =>
    change look lineZero ((if h.ue && decide (h.word < 4) then s.putHline mc (4 * u + h.word) poisonLine else s).scrubPoisons mc u hits).hbm key = _
    have hstep : look lineZero (if h.ue && decide (h.word < 4) then s.putHline mc (4 * u + h.word) poisonLine else s).hbm key =
        if scrubsAway mc u key h then poisonLine else look lineZero s.hbm key := by
      unfold scrubsAway
      by_cases hgo : (h.ue && decide (h.word < 4)) = true
      · have hword : h.word < 4 := of_decide_eq_true (Bool.and_eq_true_iff.mp hgo).2
        have hline : (4 * u + h.word) % 2 ^ 32 = 4 * u + h.word := Nat.mod_eq_of_lt (by omega)
        rw [if_pos hgo, look_putHline w, hline, hgo]
        simp [poisonLine]
      · rw [if_neg hgo, Bool.eq_false_of_not_eq_true hgo]
        rfl
    have hkept : Kept s (if h.ue && decide (h.word < 4) then s.putHline mc (4 * u + h.word) poisonLine else s) :=
      Kept.ite (kept_putHline (Kept.refl s) ..) (Kept.refl s)
    rw [ih (hkept.wf w), hstep, List.any_cons]
    cases hits.any (scrubsAway mc u key) <;> cases scrubsAway mc u key h <;> rfl

theorem kept_scrubReports (s : State) (mc u : Nat) (hits : List EccHit) : Kept s (s.scrubReports mc u hits) :=
  Kept.foldl hits (fun _ _ h => kept_mcEvent h ..) (Kept.refl s)

/-- A scrub moves to the next unit and poisons what it cannot correct; time and tiles stand. -/
theorem scrub_spec {s : State} (w : Wf s) {d k : Nat} (hd : d < 8) (hk : k < 3) (hup : s.mcUp (d * 4 + k) = true)
    (hen : s.bit (mcPg d k) R.MC_SCRUB_EN = true) (hu : look natZero s.scrubAt (d * 4 + k) < 2 ^ 30) (hits : List EccHit) :
    let mc := d * 4 + k
    let u := look natZero s.scrubAt mc
    ∃ t, exec (.patrolScrub d k hits) s = .next t ∧ t.scrubAt = put natZero s.scrubAt mc ((u + 1) % 2 ^ 30) ∧ t.clk = s.clk ∧ t.tiles = s.tiles ∧
      ∀ key, look lineZero t.hbm key = if hits.any (scrubsAway mc u key) then poisonLine else look lineZero s.hbm key := by
  intro mc u
  have hserved := sideBytes_served s mc 128
  have hreports := sansReport_scrubReports (s.sideBytes mc 128) mc u hits
  have hpoisons := sansHbm_scrubPoisons ((s.sideBytes mc 128).scrubReports mc u hits) mc u hits
  have hlook := look_scrubPoisons ((kept_scrubReports _ mc u hits).wf (hserved.wf w)) mc hu hits
  have hhbm : ((s.sideBytes mc 128).scrubReports mc u hits).hbm = s.hbm := (congrArg State.hbm hreports :)
  refine ⟨_, exec_patrolScrub hd hk hup hen hits, congrArg (put natZero · mc _) ?_, ?_, ?_, fun key => (hlook key).trans (by rw [hhbm])⟩
  · exact (congrArg State.scrubAt hpoisons :).trans (congrArg State.scrubAt hreports :)
  · exact (congrArg State.clk hpoisons :).trans (congrArg State.clk hreports :)
  · exact (congrArg State.tiles hpoisons :).trans (congrArg State.tiles hreports :)

/-! Neighbour requests (R252). -/

section
variable (q : NbReq)

/-- The stack that a request word names. -/
def NbReq.stack (d : Nat) : Nat := d * 4 + bits q.word 40 2

/-- Its units: of at most four, inside their 512 bytes. -/
def NbReq.units : List Nat :=
  (List.range (bits q.word 6 4 + 1)).map fun i =>
    if bits q.word 6 4 + 1 ≤ 4 then bits q.word 10 30 / 4 * 4 + (bits q.word 10 30 + i) % 4 else bits q.word 10 30 + i

/-- The state in which the owner has taken the request, in its cycle. -/
def State.taking (s : State) : State := { (s.toCc q.cyc) with nbq := s.nbq.filter (· ≠ q) }

/-- That state once the owner's engines have done what was due. -/
def State.serving (s : State) (d port : Nat) : State := ((s.taking q).settleDie d q.cyc).enterDue d (nbKey q.cyc port)

/-- What a read asked for, on its way back in the program slot 480 cycles later. -/
def State.nbAnswer (s : State) (d port : Nat) : RUnit :=
  { die := d, eng := bits q.word 2 4, cyc := q.cyc + 480, idx := q.idx, lane := 2, sink := .wale port,
    lines := q.units.flatMap fun v => s.hunit (q.stack d) v, mc := some (q.stack d), us := q.units, nb := some (port, q.cyc + 480, 0), dig := none,
    evt := none }

/-- The units of a write with their places in its data. -/
def NbReq.places : List (Nat × Nat) := (List.range (bits q.word 6 4 + 1)).zip q.units

/-- A write stores its lines in a stack that is up. -/
def State.nbStore (s : State) (d : Nat) : State :=
  q.places.foldl (fun s x => if s.alive (mcPage (q.stack d)) then s.putHunit (q.stack d) x.2 ((q.lines.drop (4 * x.1)).take 4) else s) s

/-- The request word is valid and names one of the three stacks. -/
def NbReq.valid : Bool := !(decide (q.word % 2 = 0) || decide (bits q.word 40 2 = 3))

theorem NbReq.valid_iff : q.valid = true ↔ q.word % 2 = 1 ∧ bits q.word 40 2 ≠ 3 := by simp [NbReq.valid]

/-- The owner's answer: it stores what a write carries, and sends back what a read asks for. -/
def State.nbServe (s : State) (d port : Nat) : State :=
  let g := (s.serving q d port).budget (q.stack d) q.units q.cyc
  if bits q.word 1 1 = 1 then g.nbStore q d else g.withReads [g.nbAnswer q d port]

end

/-- The owner takes the first request of a port. -/
theorem exec_neighbourRequest {s : State} {d port : Nat} {q : NbReq}
    (hq : s.nbq.find? (fun q => decide (q.die = d) && decide (q.port = port)) = some q) :
    exec (.neighbourRequest d port) s = .next (if q.valid then s.nbServe q d port else s.taking q) := by
  have hnbq : (s.toCc q.cyc).nbq = s.nbq := (congrArg State.nbq (toCc_clk s q.cyc) :)
  have hmodel : exec (.neighbourRequest d port) s = .next (if decide (q.word % 2 = 0) || decide (bits q.word 40 2 = 3) then s.taking q
      else s.nbServe q d port) := by
    refine congrArg Host.Outcome.next ?_
    rw [hq]
    dsimp only
    rw [hnbq]
    rfl
  rw [hmodel]
  unfold NbReq.valid
  cases decide (q.word % 2 = 0) || decide (bits q.word 40 2 = 3) <;> rfl

theorem exec_neighbourRequest_none {s : State} {d port : Nat} (hq : s.nbq.find? (fun q => decide (q.die = d) && decide (q.port = port)) = none) :
    exec (.neighbourRequest d port) s = .next s := by
  refine congrArg Host.Outcome.next ?_
  rw [hq]

theorem serving_work (s : State) (q : NbReq) (d port : Nat) : (s.serving q d port).sansWork = (s.taking q).sansWork :=
  (sansWork_enterDue ..).trans (sansWork_settleDie ..)

theorem serving_up (s : State) (q : NbReq) (d port : Nat) : StaysUp (s.taking q) (s.serving q d port) := .trans (.settleDie ..) (.enterDue ..)

theorem kept_taking (s : State) (q : NbReq) : Kept s (s.taking q) := (kept_toCc (Kept.refl s) q.cyc).upd rfl

theorem alive_taking (s : State) (q : NbReq) (p : Nat) : (s.taking q).alive p = s.alive p := (congrArg (State.alive · p) (toCc_clk s q.cyc) :)

theorem clk_taking (s : State) (q : NbReq) : (s.taking q).clk = (s.toCc q.cyc).clk := rfl

theorem tiles_taking (s : State) (q : NbReq) : (s.taking q).tiles = s.tiles := (congrArg State.tiles (toCc_clk s q.cyc) :)

section
variable {s t : State}

theorem nbq_of_work (h : t.sansWork = s.sansWork) : t.nbq = s.nbq := (congrArg State.nbq h :)
theorem clk_of_work (h : t.sansWork = s.sansWork) : t.clk = s.clk := (congrArg State.clk h :)
theorem tiles_of_work (h : t.sansWork = s.sansWork) : t.tiles = s.tiles := (congrArg State.tiles h :)
theorem nbq_of_hbm (h : t.sansHbm = s.sansHbm) : t.nbq = s.nbq := (congrArg State.nbq h :)
theorem reads_of_hbm (h : t.sansHbm = s.sansHbm) : t.reads = s.reads := (congrArg State.reads h :)

theorem nbAnswer_budgeted (h : Budgeted s t) (q : NbReq) (d port : Nat) : t.nbAnswer q d port = s.nbAnswer q d port := by
  simp only [State.nbAnswer, h.hunit]

end

theorem sansHbm_nbStore (s : State) (q : NbReq) (d : Nat) : (s.nbStore q d).sansHbm = s.sansHbm := by
  refine foldl_keeps State.sansHbm (fun t x => ?_) _ s
  split
  · exact sansHbm_putHunit ..
  · rfl

/-- A request served: a read is answered with the units as they are, a write stores its lines. -/
theorem nbServe_spec {s : State} (w : Wf s) (q : NbReq) (d port : Nat) :
    let f := s.serving q d port
    let t := s.nbServe q d port
    t.nbq = s.nbq.filter (· ≠ q) ∧ t.clk = (s.toCc q.cyc).clk ∧ t.tiles = s.tiles ∧
      (bits q.word 1 1 = 0 → t.hbm = f.hbm ∧ t.reads = f.reads ++ [f.nbAnswer q d port]) ∧
      (bits q.word 1 1 = 1 → s.alive (mcPage (q.stack d)) = true → t.reads = f.reads ∧ t.hbm = (f.storeUnits (q.stack d) q.lines q.places).hbm) := by
  have hbudget := budgeted_budget (s.serving q d port) (q.stack d) q.units q.cyc
  have hwork := serving_work s q d port
  have halive (p : Nat) := (((serving_up s q d port).trans hbudget.up).alive ((kept_taking s q).wf w) p).trans (alive_taking s q p)
  unfold State.nbServe
  generalize (s.serving q d port).budget (q.stack d) q.units q.cyc = g at *
  generalize s.serving q d port = f at *
  intro f t
  have hnbq : g.nbq = s.nbq.filter (· ≠ q) := hbudget.nbq.trans (nbq_of_work hwork)
  have hclk : g.clk = (s.toCc q.cyc).clk := hbudget.clk.trans ((clk_of_work hwork).trans (clk_taking s q))
  have htiles : g.tiles = s.tiles := hbudget.tiles.trans ((tiles_of_work hwork).trans (tiles_taking s q))
  by_cases h : bits q.word 1 1 = 1
  · have ht : t = g.nbStore q d := if_pos h
    have hframe := sansHbm_nbStore g q d
    rw [ht]
    refine ⟨(nbq_of_hbm hframe).trans hnbq, (clk_of_hbm hframe).trans hclk, (tiles_of_hbm hframe).trans htiles,
      fun h0 => absurd (h0.symm.trans h) (by decide), fun _ ha => ⟨(reads_of_hbm hframe).trans hbudget.reads, ?_⟩⟩
    exact (congrArg State.hbm (storeUnits_of_alive ((halive _).trans ha) q.lines q.places)).trans (hbm_storeUnits hbudget.hbm ..)
  · have ht : t = g.withReads [g.nbAnswer q d port] := if_neg h
    rw [ht]
    refine ⟨hnbq, hclk, htiles, fun _ => ⟨hbudget.hbm, ?_⟩, fun h1 => absurd h1 h⟩
    rw [State.withReads, hbudget.reads, nbAnswer_budgeted hbudget]

/-- Settles O41: each reading finds the rate that holds, a scrub poisons the erring words alone, and a request is served from what the engines have left. -/
theorem memoryBesideTheSchedule : Obligations.MemoryBesideTheSchedule := by
  unfold Obligations.MemoryBesideTheSchedule
  intro s d k temp port hits w hd hk ha mc p v mark twice u
  refine ⟨exec_refresh_hot w hd hk ha, exec_refresh_normal w hd hk ha, exec_refresh_warm w hd hk ha, exec_refresh_cools w hd hk ha,
    fun t0 h2 ht hc => ?returns, fun hup hen hu => scrub_spec w hd hk hup hen hu hits,
    fun h => exec_patrolScrub_rests h hits, fun q hq => ?request, exec_neighbourRequest_none⟩
  case returns =>
    refine (exec_refresh_returns w hd hk ha h2 ht hc).trans ?_
    rw [State.coolSince, cool_wb_toTick]
    rfl
  case request =>
    intro e f n m u us
    refine ⟨fun h => ?ignored, fun hv h3 => ?served⟩
    case ignored =>
      refine (exec_neighbourRequest hq).trans (congrArg Host.Outcome.next (if_neg fun hvalid => ?_))
      obtain ⟨hv, h3⟩ := q.valid_iff.mp hvalid
      exact h.elim (fun h0 => absurd (h0.symm.trans hv) (by decide)) h3
    case served =>
      exact ⟨_, (exec_neighbourRequest hq).trans (congrArg Host.Outcome.next (if_pos (q.valid_iff.mpr ⟨hv, h3⟩))), nbServe_spec w q d port⟩

end Sys2Proof.Machine
end

section
/-! SUPPORT. What issuing a transaction touches (O39). -/

namespace Sys2Proof.Machine
open Sys2Proof

/-- The state but for what the issue of a transaction writes. -/
def State.sansIssue (s : State) : State :=
  { s with regs := [], pages := [], flt := {}, osd := [], ovb := [], ovbOver := [], reqs := [], reads := [], units := [], arrivals := [] }

/-- From `s` to `t` units, requests and lane cycles were claimed: time, tiles, stacks and engines stand, and so do the counts of transactions. -/
structure Issued (s t : State) : Prop where
  frame : t.sansIssue = s.sansIssue
  spares : ∀ q, Spares q R.ST_TX_CNT s t

namespace Issued
variable {s t u : State}

theorem refl (s : State) : Issued s s := ⟨rfl, fun _ => .refl _ _ s⟩

theorem trans (h : Issued s t) (k : Issued t u) : Issued s u := ⟨k.frame.trans h.frame, fun q => (h.spares q).trans (k.spares q)⟩

theorem ite {c : Prop} [Decidable c] (h : Issued s t) (k : Issued s u) : Issued s (if c then t else u) := by
  split
  · exact h
  · exact k

theorem foldl {α : Type} {f : State → α → State} (hf : ∀ t x, Issued t (f t x)) (l : List α) (s : State) : Issued s (l.foldl f s) := by
  induction l generalizing s with
  | nil => exact refl s
  | cons x l ih => exact (hf s x).trans (ih _)

theorem of_regs (k : Kept s t) (h : t.sansIssue = s.sansIssue) (hr : t.regs = s.regs) : Issued s t := ⟨h, fun _ => .of_regs k hr⟩

theorem of_budgeted (h : Budgeted s t) : Issued s t := ⟨(congrArg State.sansIssue h.frame :), fun q => h.spares q _ (by decide)⟩

theorem engErr (s : State) (d e idx src : Nat) : Issued s (s.engErr d e idx src) :=
  ⟨(congrArg State.sansIssue (sansReport_engErr s d e idx src) :), fun _ => spares_engErr (by decide) (by decide) ..⟩

theorem evtOpt (s : State) (d : Nat) (e : Option Nat) : Issued s (s.evtOpt d e) := by
  refine ⟨(congrArg State.sansIssue (sansNote_evtOpt s d e) :), fun q => ?_⟩
  cases e with
  | none => exact .refl ..
  | some c =>
    obtain ⟨x, hx⟩ := evtAdd_eq s d c 1
    have hcounter : ∀ k, k < 16 → R.ST_TX_CNT.apart [Fld.idx R.OS_EVT_CNT k] = true := by decide
    rw [State.evtOpt, hx]
    refine .trans ?_ (spares_condNote ..)
    exact .trans (t := s.setOd d x) (.of_regs (kept_setOd (Kept.refl s) ..) rfl) (.wr (hcounter _ (Nat.mod_lt _ (by decide))) List.mem_cons_self _ _ _)

theorem placeErr (s : State) (d e idx : Nat) (pl : Place) : Issued s (s.placeErr d e idx pl) := by
  cases pl with
  | bad src => exact engErr ..
  | here _ _ => exact refl s
  | nbr _ _ _ => exact refl s

theorem budgets (s : State) (pl : Place) (us : List Nat) (c : Nat) : Issued s (s.budgets pl us c) := by
  cases pl with
  | here mc _ => exact of_budgeted (budgeted_budget ..)
  | bad _ => exact refl s
  | nbr _ _ _ => exact refl s

/-- A transaction that goes has met its place, and its units have been counted against the budget. -/
theorem placed (s : State) (d e idx : Nat) (go : Bool) (pl : Place) (us : List Nat) (c : Nat) :
    Issued s ((if go then s.placeErr d e idx pl else s).budgets pl us c) := .trans (.ite (.placeErr ..) (.refl s)) (.budgets ..)

/-! Lane cycles and units. -/

theorem laneClaim (s : State) (d e lane c idx : Nat) : Issued s (s.laneClaim d e lane c idx).1 := by
  unfold State.laneClaim
  dsimp only
  split
  · exact refl s
  · split
    · exact .trans (.engErr s d e idx 4) (.of_regs (kept_laneTake (Kept.refl _) ..) rfl rfl)
    · exact .engErr s d e idx 4

theorem laneClaims (l : List Nat) (claim : State × List Nat → Nat → State × List Nat)
    (h : ∀ x k, Issued x.1 (claim x k).1) (x : State × List Nat) : Issued x.1 (l.foldl claim x).1 := by
  induction l generalizing x with
  | nil => exact refl x.1
  | cons k l ih => exact (h x k).trans (ih _)

theorem reads (s : State) (rs : List RUnit) : Issued s { s with reads := rs } := .of_regs ((Kept.refl s).upd rfl) rfl rfl

theorem units (s : State) (us : List WUnit) : Issued s { s with units := us } := .of_regs ((Kept.refl s).upd rfl) rfl rfl

theorem addRead (s : State) (r : RUnit) : Issued s (s.addRead r) := by
  unfold State.addRead
  split
  · have hclaim := laneClaim s r.die r.eng r.lane r.cyc r.idx
    exact .ite (hclaim.trans (.reads ..)) (hclaim.trans (.evtOpt ..))
  · refine .trans ?_ (.reads ..)
    exact laneClaims _ _ (fun x k => laneClaim x.1 ..) (s, [])
  · exact .reads ..

theorem addTake (s : State) (w : WUnit) : Issued s (s.addTake w) := .trans (.laneClaim ..) (.units ..)

theorem takeArrival (s : State) (d port dest c : Nat) : Issued s (s.takeArrival d port dest c).1 := by
  unfold State.takeArrival
  split
  · exact .of_regs ((Kept.refl s).upd rfl) rfl rfl
  · exact refl s

theorem requests (s : State) (rs : List ReqW) : Issued s { s with reqs := rs } := .of_regs ((Kept.refl s).upd rfl) rfl rfl

end Issued

/-! The operations (Table 7-6). -/

section
variable (s : State) (d e : Nat) (r : Desc) (c a : Nat) (go ue : Bool) (evt : Option Nat)

theorem issued_issueRd : Issued s (s.issueRd d e r c a go ue evt) := by
  unfold State.issueRd
  dsimp only
  refine .trans ?_ (.foldl (fun _ _ => .addRead ..) _ _)
  split
  · exact .trans (.placed ..) (.ite (.requests ..) (.engErr ..))
  · exact .placed ..

theorem issued_issueWr : Issued s (s.issueWr d e r c a go ue evt) := by
  unfold State.issueWr
  dsimp only
  refine .trans ?_ (.foldl (fun _ _ => .addTake ..) _ _)
  split
  · exact .trans (.placed ..) (.ite (.refl _) (.engErr ..))
  · exact .placed ..

theorem issued_issueRdw : Issued s (s.issueRdw d e r c a go ue evt) := by
  unfold State.issueRdw
  exact .trans (.placed ..) (.addRead ..)

theorem issued_issueWrw : Issued s (s.issueWrw d e r c a go ue evt) := by
  unfold State.issueWrw
  refine .trans (.trans (.ite (.trans (.takeArrival s d r.port e c) (.placeErr ..)) (.takeArrival ..)) (.budgets ..)) (.units ..)

theorem issued_issueMw : Issued s (s.issueMw d e r c go evt) := .foldl (fun _ _ => .addTake ..) _ _

theorem issued_issueWm : Issued s (s.issueWm d e r c go evt) := .trans (.takeArrival s d r.port e c) (.foldl (fun _ _ => .addRead ..) _ _)

theorem issued_issueSload : Issued s (s.issueSload d e r c a go ue evt) := by
  unfold State.issueSload
  exact .trans (.placed ..) (.addRead ..)

theorem issued_issueLoadt : Issued s (s.issueLoadt d e r c a go ue evt) := by
  unfold State.issueLoadt
  exact .trans (.placed ..) (.addRead ..)

/-- What the operation of a descriptor does when its transaction issues. -/
def State.issueOp : State :=
  match r.op with
  | 1 => s.issueRd d e r c a go false evt
  | 2 => s.issueWr d e r c a go false evt
  | 3 => s.issueRdw d e r c a go false evt
  | 4 => s.issueWrw d e r c a go false evt
  | 5 => s.issueMw d e r c go evt
  | 6 => s.issueWm d e r c go evt
  | 7 => s.issueSload d e r c a go false evt
  | 10 => s.issueLoadt d e r c a go false evt
  | _ => s

theorem issued_issueOp : Issued s (s.issueOp d e r c a go evt) := by
  unfold State.issueOp
  split
  · exact issued_issueRd ..
  · exact issued_issueWr ..
  · exact issued_issueRdw ..
  · exact issued_issueWrw ..
  · exact issued_issueMw ..
  · exact issued_issueWm ..
  · exact issued_issueSload ..
  · exact issued_issueLoadt ..
  · exact .refl s

end

end Sys2Proof.Machine
end

section
/-! SUPPORT. Lane cycles that are free: what they are claimed for goes ahead (O39). -/

namespace Sys2Proof.Machine
open Sys2Proof

/-- The state with more units to take. -/
def State.withUnits (s : State) (us : List WUnit) : State := { s with units := s.units ++ us }

section
variable {s : State} {d e lane c : Nat}

theorem laneClaim_free (h : s.laneUsers d e lane c = []) (idx : Nat) : s.laneClaim d e lane c idx = (s, true) := by
  unfold State.laneClaim
  rw [h]
  rfl

/-- Units that are released in other cycles leave a lane cycle free. -/
theorem laneUsers_withReads {rs : List RUnit} (h : s.laneUsers d e lane c = []) (hrs : ∀ r ∈ rs, r.onLane c = false) :
    (s.withReads rs).laneUsers d e lane c = [] := by
  unfold State.laneUsers at h ⊢
  obtain ⟨hreads, hunits⟩ := List.append_eq_nil_iff.mp h
  have hnew : rs.filter (fun r => decide (r.die = d) && decide (r.eng = e) && decide (r.lane = lane) && r.onLane c) = [] :=
    List.filter_eq_nil_iff.mpr fun r hr => by rw [hrs r hr, Bool.and_false]; exact nofun
  refine List.append_eq_nil_iff.mpr ⟨?_, hunits⟩
  rw [State.withReads, List.filter_append, hnew, List.append_nil]
  exact hreads

/-- Units that are taken in other cycles leave a lane cycle free. -/
theorem laneUsers_withUnits {us : List WUnit} (h : s.laneUsers d e lane c = []) (hus : ∀ u ∈ us, u.cyc ≠ c) :
    (s.withUnits us).laneUsers d e lane c = [] := by
  unfold State.laneUsers at h ⊢
  obtain ⟨hreads, hunits⟩ := List.append_eq_nil_iff.mp h
  have hnew : us.filter (fun w => decide (w.die = d) && decide (w.eng = e) && decide (w.lane = lane) && decide (w.cyc = c) && !w.lost && w.lines.isNone) = [] :=
    List.filter_eq_nil_iff.mpr fun u hu => by rw [decide_eq_false (hus u hu)]; simp
  refine List.append_eq_nil_iff.mpr ⟨hreads, ?_⟩
  rw [State.withUnits, List.filter_append, hnew, List.append_nil]
  exact hunits

end

/-! Reads. -/

section
variable {s : State} {r : RUnit}

theorem addRead_edge_free {p : Nat} (hs : r.sink = .edge p) (h : s.laneUsers r.die r.eng r.lane r.cyc = []) : s.addRead r = s.withReads [r] := by
  unfold State.addRead
  rw [hs]
  dsimp only
  rw [laneClaim_free h]
  rfl

theorem addRead_wale {p : Nat} (hs : r.sink = .wale p) (s : State) : s.addRead r = s.withReads [r] := by
  unfold State.addRead
  rw [hs]
  rfl

theorem addRead_sched {i : Nat} (hs : r.sink = .sched i) (s : State) : s.addRead r = s.withReads [r] := by
  unfold State.addRead
  rw [hs]
  rfl

/-- Where every cycle is free, every claim is met. -/
theorem claims_free {s : State} {claim : State × List Nat → Nat → State × List Nat} {l : List Nat} (h : ∀ k ∈ l, claim (s, []) k = (s, [])) :
    l.foldl claim (s, []) = (s, []) := by
  induction l with
  | nil => rfl
  | cons k l ih =>
    rw [List.foldl_cons, h k List.mem_cons_self]
    exact ih fun j hj => h j (List.mem_cons_of_mem _ hj)

/-- A load delivery takes a lane cycle for its header and one for each unit (R264). -/
theorem addRead_load_free {col hdr : Nat} (hs : r.sink = .load col hdr) (hg : r.gone = [])
    (h : ∀ k, k < r.lines.length / 4 + 1 → s.laneUsers r.die r.eng r.lane (r.cyc + k) = []) : s.addRead r = s.withReads [r] := by
  unfold State.addRead
  rw [hs]
  dsimp only
  rw [claims_free fun k hk => by rw [laneClaim_free (h k (List.mem_range.mp hk))]; rfl]
  have hr : { r with gone := [] } = r := by rw [← hg]
  rw [← hs, hr]
  rfl

/-- Units that follow each other on a free lane all enter the return buffer. -/
theorem foldl_addRead_free {g : Nat → RUnit} {f : State → Nat → State} {c port : Nat} (n : Nat)
    (hf : ∀ rs k, k < n → f (s.withReads rs) k = (s.withReads rs).addRead (g k)) (hsink : ∀ k, (g k).sink = .edge port)
    (hcyc : ∀ k, (g k).cyc = c + k) (h : ∀ k, k < n → s.laneUsers (g k).die (g k).eng (g k).lane (c + k) = []) :
    (List.range n).foldl f s = s.withReads ((List.range n).map g) := by
  induction n with
  | zero => exact (congrArg (fun l => { s with reads := l }) (List.append_nil s.reads)).symm
  | succ n ih =>
    have hfree : (s.withReads ((List.range n).map g)).laneUsers (g n).die (g n).eng (g n).lane (g n).cyc = [] := by
      rw [hcyc]
      refine laneUsers_withReads (h n (Nat.lt_succ_self n)) fun r hr => ?_
      obtain ⟨k, hk, rfl⟩ := List.mem_map.mp hr
      have hlt := List.mem_range.mp hk
      unfold RUnit.onLane
      rw [hsink]
      exact decide_eq_false (by rw [hcyc]; omega)
    rw [List.range_succ, List.foldl_append, ih (fun rs k hk => hf rs k (Nat.lt_succ_of_lt hk)) (fun k hk => h k (Nat.lt_succ_of_lt hk)),
      List.foldl_cons, List.foldl_nil, hf _ n (Nat.lt_succ_self n), addRead_edge_free (hsink n) hfree, List.map_append]
    exact congrArg (fun l => { s with reads := l }) (List.append_assoc ..)

end

/-! Units to take. -/

section
variable {s : State}

theorem addTake_free {u : WUnit} (h : s.laneUsers u.die u.eng u.lane u.cyc = []) : s.addTake u = s.withUnits [u] := by
  unfold State.addTake
  rw [laneClaim_free h]
  rfl

/-- Units that follow each other on a free lane are all to be taken. -/
theorem foldl_addTake_free {g : Nat → WUnit} {f : State → Nat → State} {c : Nat} (n : Nat)
    (hf : ∀ us k, k < n → f (s.withUnits us) k = (s.withUnits us).addTake (g k)) (hcyc : ∀ k, (g k).cyc = c + k)
    (h : ∀ k, k < n → s.laneUsers (g k).die (g k).eng (g k).lane (c + k) = []) :
    (List.range n).foldl f s = s.withUnits ((List.range n).map g) := by
  induction n with
  | zero => exact (congrArg (fun l => { s with units := l }) (List.append_nil s.units)).symm
  | succ n ih =>
    have hfree : (s.withUnits ((List.range n).map g)).laneUsers (g n).die (g n).eng (g n).lane (g n).cyc = [] := by
      rw [hcyc]
      refine laneUsers_withUnits (h n (Nat.lt_succ_self n)) fun u hu => ?_
      obtain ⟨k, hk, rfl⟩ := List.mem_map.mp hu
      have hlt := List.mem_range.mp hk
      rw [hcyc]
      omega
    rw [List.range_succ, List.foldl_append, ih (fun us k hk => hf us k (Nat.lt_succ_of_lt hk)) (fun k hk => h k (Nat.lt_succ_of_lt hk)),
      List.foldl_cons, List.foldl_nil, hf _ n (Nat.lt_succ_self n), addTake_free hfree, List.map_append]
    exact congrArg (fun l => { s with units := l }) (List.append_assoc ..)

end

end Sys2Proof.Machine
end

section
/-! SUPPORT. What each operation does when its place is a local unit and its lane cycles are free (O39). -/

namespace Sys2Proof.Machine
open Sys2Proof

section
variable (s : State) (d e : Nat) (r : Desc) (c a mc : Nat) (evt : Option Nat)

/-- The stack-local unit `k` of a transaction, inside its 512-byte block (R244). -/
def State.unitOf (k : Nat) : Nat := skUnit (s.stakeE d (a / 2 ^ 26)) (unitAddr a k)

/-- The stack-local unit `k` of a Wale flit, inside its granule (R244). -/
def State.flitUnitOf (k : Nat) : Nat := skUnit (s.stakeE d (a / 2 ^ 26)) (flitAddr a k)

/-- The units of a port's flit (R220). -/
def State.flitUnits (port : Nat) : Nat := s.flitLines (wlPg d port) / 4

/-- The event counter goes with the last of `n` units. -/
def lastOf (n : Nat) (evt : Option Nat) (k : Nat) : Option Nat := if k + 1 = n then evt else none

/-- The `k`-th unit of an RD, stack-local unit `u`. -/
def State.rdUnit (u k : Nat) : RUnit :=
  { die := d, eng := e, cyc := c + 480 + k, idx := r.idx, lane := r.lane, sink := .edge (edgePort e r.lane), lines := s.hunit mc u,
    mc := some mc, us := [u], nb := none, dig := r.dig (unitAddr a k), evt := lastOf r.units evt k }

/-- The `k`-th unit of a WR, stack-local unit `u`. -/
def Desc.wrUnit (u k : Nat) : WUnit :=
  ⟨d, e, c + k, c + r.units, r.idx, r.lane, .hbm mc u, none, false, r.dig (unitAddr a k), lastOf r.units evt k⟩

/-- The flit of an RDW. -/
def State.rdwUnit : RUnit :=
  { die := d, eng := e, cyc := c + 480, idx := r.idx, lane := r.lane, sink := .wale r.port,
    lines := (List.range (s.flitUnits d r.port)).flatMap fun k => s.hunit mc (s.flitUnitOf d a k), mc := some mc,
    us := (List.range (s.flitUnits d r.port)).map (s.flitUnitOf d a), nb := none, dig := none, evt := evt }

/-- The flit that a slot brought to an engine, poisoned lines if none came (R249). -/
def State.slotLines (port : Nat) : List FLine :=
  ((s.arrivals.find? fun q => decide (q.die = d) && decide (q.port = port) && decide (q.dest = e) && decide (q.cyc = c)).map Arrival.lines).getD
    (List.replicate (4 * s.flitUnits d port) poisonLine)

/-- The `k`-th of `n` units of a WRW, stack-local unit `u`, of a flit with the lines `ls`. -/
def Desc.wrwUnit (n : Nat) (ls : List FLine) (u k : Nat) : WUnit :=
  ⟨d, e, c, c + 1, r.idx, 2, .hbm mc u, some ((ls.drop (4 * k)).take 4), false, none, lastOf n evt k⟩

/-- The `k`-th of `n` units of an MW. -/
def Desc.mwUnit (n k : Nat) : WUnit := ⟨d, e, c + k, c + k + 1, r.idx, r.lane, .wale r.port (c + 10), none, false, none, lastOf n evt k⟩

/-- The `k`-th of `n` units of a WM, of a flit with the lines `ls`. -/
def Desc.wmUnit (n : Nat) (ls : List FLine) (k : Nat) : RUnit :=
  { die := d, eng := e, cyc := c + 1 + k, idx := r.idx, lane := r.lane, sink := .edge (edgePort e r.lane), lines := (ls.drop (4 * k)).take 4,
    mc := none, us := [], nb := none, dig := none, evt := lastOf n evt k }

/-- The unit of an SLOAD, stack-local unit `u`. -/
def State.sloadUnit (u : Nat) : RUnit :=
  { die := d, eng := e, cyc := c + 480, idx := r.idx, lane := 2, sink := .sched ((dbits r.word2 0 13 + r.j) % 8192), lines := s.hunit mc u,
    mc := some mc, us := [u], nb := none, dig := none, evt := evt }

/-- The header word of a load delivery (R262, R264). -/
def Desc.loadHeader : Nat :=
  dbits r.word2 0 3 + 8 * dbits r.word2 3 1 + 16 * (r.units - 1) + 256 * ((dbits r.word2 4 22 + r.j * r.units * 128) % 2 ^ 22) + 2 ^ 63

/-- A load delivery of the stack-local units `us`. -/
def State.loadtUnit (us : List Nat) : RUnit :=
  { die := d, eng := e, cyc := c + 480, idx := r.idx, lane := r.lane, sink := .load e r.loadHeader, lines := us.flatMap fun u => s.hunit mc u,
    mc := some mc, us := us, nb := none, dig := none, evt := evt }

end

theorem State.loadtUnit_budgeted {s t : State} (h : Budgeted s t) (d e : Nat) (r : Desc) (c mc : Nat) (evt : Option Nat) (us : List Nat) :
    t.loadtUnit d e r c mc evt us = s.loadtUnit d e r c mc evt us := by simp only [State.loadtUnit, h.hunit]

theorem flitAddr_zero (a : Nat) : flitAddr a 0 = a := Nat.div_add_mod' ..

theorem length_units (s : State) (mc : Nat) (us : List Nat) : (us.flatMap fun u => s.hunit mc u).length = 4 * us.length := by
  induction us with
  | nil => rfl
  | cons u us ih =>
    rw [List.flatMap_cons, List.length_append, ih, List.length_cons]
    change 4 + 4 * us.length = _
    omega

section
variable {s : State} {d e : Nat} {r : Desc} {c a mc v : Nat} {evt : Option Nat}

theorem getD_units {n k : Nat} (g : Nat → Nat) (h : k < n) : ((List.range n).map g).getD k 0 = g k := by simp [h]

theorem issueRd_here (h : s.resolve d a false false false = .here mc v) (hfree : ∀ k, k < r.units → s.laneUsers d e r.lane (c + 480 + k) = []) :
    (s.issueRd d e r c a true false evt).reads =
      s.reads ++ (List.range r.units).map fun k => s.rdUnit d e r c a mc evt (s.unitOf d a k) k := by
  have hbudget := budgeted_budget s mc ((List.range r.units).map (s.unitOf d a)) c
  unfold State.issueRd
  rw [h]
  change (List.foldl _ (s.budget mc ((List.range r.units).map (s.unitOf d a)) c) _).reads = _
  rw [foldl_addRead_free (g := fun k => s.rdUnit d e r c a mc evt (s.unitOf d a k) k) (c := c + 480) r.units ?unit (fun _ => rfl) (fun _ => rfl)
    (fun k hk => (hbudget.laneUsers ..).trans (hfree k hk))]
  case unit =>
    intro rs k hk
    change State.addRead _ (State.rdUnit (s.budget mc _ c) d e r c a mc evt (((List.range r.units).map (s.unitOf d a)).getD k 0) k) = _
    rw [getD_units _ hk, State.rdUnit, hbudget.hunit]
    rfl
  exact congrArg (· ++ _) hbudget.reads

theorem issueWr_here (h : s.resolve d a true false false = .here mc v) (hfree : ∀ k, k < r.units → s.laneUsers d e r.lane (c + k) = []) :
    (s.issueWr d e r c a true false evt).units =
      s.units ++ (List.range r.units).map fun k => r.wrUnit d e c a mc evt (s.unitOf d a k) k := by
  have hbudget := budgeted_budget s mc ((List.range r.units).map (s.unitOf d a)) c
  unfold State.issueWr
  rw [h]
  change (List.foldl _ (s.budget mc ((List.range r.units).map (s.unitOf d a)) c) _).units = _
  rw [foldl_addTake_free (g := fun k => r.wrUnit d e c a mc evt (s.unitOf d a k) k) (c := c) r.units ?unit (fun _ => rfl)
    (fun k hk => (hbudget.laneUsers ..).trans (hfree k hk))]
  case unit =>
    intro us k hk
    change State.addTake _ (r.wrUnit d e c a mc evt (((List.range r.units).map (s.unitOf d a)).getD k 0) k) = _
    rw [getD_units _ hk]
  exact congrArg (· ++ _) hbudget.units

theorem localFlit_here (h : s.resolve d a false true false = .here mc v) (n : Nat) :
    s.localFlit d a n false = (.here mc (skUnit (s.stakeE d (a / 2 ^ 26)) a), (List.range n).flatMap fun k => s.hunit mc (s.flitUnitOf d a k)) := by
  unfold State.localFlit
  rw [h]
  rfl

theorem issueRdw_here (h : s.resolve d a false true false = .here mc v) :
    (s.issueRdw d e r c a true false evt).reads = s.reads ++ [s.rdwUnit d e r c a mc evt] := by
  unfold State.issueRdw
  dsimp only
  rw [localFlit_here h]
  exact (congrArg State.reads (addRead_wale rfl _)).trans (congrArg (· ++ _) (budgeted_budget ..).reads)

theorem issueSload_here (h : s.resolve d a false true false = .here mc v) :
    (s.issueSload d e r c a true false evt).reads = s.reads ++ [s.sloadUnit d e r c mc evt (s.flitUnitOf d a 0)] := by
  have hunit : s.flitUnitOf d a 0 = skUnit (s.stakeE d (a / 2 ^ 26)) a := congrArg (skUnit _) (flitAddr_zero a)
  have hlocal : s.localFlit d a 1 false = (.here mc (skUnit (s.stakeE d (a / 2 ^ 26)) a), s.hunit mc (s.flitUnitOf d a 0)) :=
    (localFlit_here h 1).trans (congrArg (Prod.mk _) (List.append_nil _))
  unfold State.issueSload
  rw [hlocal, hunit]
  exact (congrArg State.reads (addRead_sched rfl _)).trans (congrArg (· ++ _) (budgeted_budget ..).reads)

theorem issueLoadt_here (h : s.resolve d a false true false = .here mc v)
    (hfree : ∀ k, k < r.units + 1 → s.laneUsers d e r.lane (c + 480 + k) = []) :
    (s.issueLoadt d e r c a true false evt).reads = s.reads ++ [s.loadtUnit d e r c mc evt ((List.range r.units).map (s.unitOf d a))] := by
  have hbudget := budgeted_budget s mc ((List.range r.units).map (s.unitOf d a)) c
  have hlen : (s.loadtUnit d e r c mc evt ((List.range r.units).map (s.unitOf d a))).lines.length / 4 = r.units := by
    change (List.flatMap _ ((List.range r.units).map (s.unitOf d a))).length / 4 = _
    rw [length_units, List.length_map, List.length_range]
    omega
  unfold State.issueLoadt
  rw [h]
  change (State.addRead (s.budget mc ((List.range r.units).map (s.unitOf d a)) c)
    (State.loadtUnit (s.budget mc ((List.range r.units).map (s.unitOf d a)) c) d e r c mc evt ((List.range r.units).map (s.unitOf d a)))).reads = _
  rw [State.loadtUnit_budgeted hbudget, addRead_load_free rfl rfl fun k hk => (hbudget.laneUsers ..).trans (hfree k (hlen ▸ hk))]
  exact congrArg (· ++ _) hbudget.reads

theorem takeArrival_lines (s : State) (d port e c : Nat) : (s.takeArrival d port e c).2.getD (noData (4 * s.flitUnits d port)) = s.slotLines d e c port := by
  unfold State.takeArrival State.slotLines
  cases s.arrivals.find? fun q => decide (q.die = d) && decide (q.port = port) && decide (q.dest = e) && decide (q.cyc = c) <;> rfl

/-- Taking a flit touches no lane and no unit. -/
theorem takeArrival_frame (s : State) (d port e c : Nat) : ∃ l, (s.takeArrival d port e c).1 = { s with arrivals := l } := by
  unfold State.takeArrival
  split
  · exact ⟨_, rfl⟩
  · exact ⟨_, rfl⟩

theorem issueWrw_here (h : s.resolve d a true true false = .here mc v) :
    (s.issueWrw d e r c a true false evt).units = s.units ++ (List.range (s.flitUnits d r.port)).map fun k =>
      r.wrwUnit d e c mc evt (s.flitUnits d r.port) (s.slotLines d e c r.port) (s.flitUnitOf d a k) k := by
  obtain ⟨l, hl⟩ := takeArrival_frame s d r.port e c
  unfold State.issueWrw
  rw [h, ← takeArrival_lines]
  generalize s.takeArrival d r.port e c = t at *
  have hbudget := budgeted_budget t.1 mc ((List.range (s.flitUnits d r.port)).map (t.1.flitUnitOf d a)) c
  have hentry : t.1.stakeE d (a / 2 ^ 26) = s.stakeE d (a / 2 ^ 26) := by rw [hl]; rfl
  change (t.1.budget mc ((List.range (s.flitUnits d r.port)).map (t.1.flitUnitOf d a)) c).units ++ (List.range (s.flitUnits d r.port)).map (fun k =>
    r.wrwUnit d e c mc evt (s.flitUnits d r.port) (t.2.getD (noData (4 * s.flitUnits d r.port)))
      ((t.1.budget mc ((List.range (s.flitUnits d r.port)).map (t.1.flitUnitOf d a)) c).flitUnitOf d a k) k) = _
  have hunits : (t.1.budget mc ((List.range (s.flitUnits d r.port)).map (t.1.flitUnitOf d a)) c).flitUnitOf d a = s.flitUnitOf d a :=
    funext fun k => congrArg (skUnit · _) ((hbudget.stakeE ..).trans hentry)
  rw [hunits, hbudget.units, hl]

theorem issueMw_free (hfree : ∀ k, k < s.flitUnits d r.port → s.laneUsers d e r.lane (c + k) = []) :
    (s.issueMw d e r c true evt).units = s.units ++ (List.range (s.flitUnits d r.port)).map (r.mwUnit d e c evt (s.flitUnits d r.port)) := by
  unfold State.issueMw
  change (List.foldl _ s (List.range (s.flitUnits d r.port))).units = _
  rw [foldl_addTake_free (g := r.mwUnit d e c evt (s.flitUnits d r.port)) (c := c) _ (fun us k _ => rfl) (fun _ => rfl) hfree]
  rfl

theorem issueWm_free (hfree : ∀ k, k < s.flitUnits d r.port → s.laneUsers d e r.lane (c + 1 + k) = []) :
    (s.issueWm d e r c true evt).reads = s.reads ++
      (List.range (s.flitUnits d r.port)).map (r.wmUnit d e c evt (s.flitUnits d r.port) (s.slotLines d e c r.port)) := by
  obtain ⟨l, hl⟩ := takeArrival_frame s d r.port e c
  unfold State.issueWm
  rw [← takeArrival_lines]
  generalize s.takeArrival d r.port e c = t at *
  change (List.foldl _ t.1 (List.range (s.flitUnits d r.port))).reads = _
  rw [foldl_addRead_free (g := r.wmUnit d e c evt (s.flitUnits d r.port) (t.2.getD (noData (4 * s.flitUnits d r.port)))) (c := c + 1) _
    (fun rs k _ => rfl) (fun _ => rfl) (fun _ => rfl) (fun k hk => ?free)]
  case free =>
    rw [hl]
    exact hfree k hk
  rw [hl]
  rfl

end

end Sys2Proof.Machine
end

section
/-! SUPPORT. The issue of a transaction (O39). -/

namespace Sys2Proof.Machine
open Sys2Proof

/-! What a transaction finds, and what it leaves with its engine (R244, R245). -/

/-- The state in the issue cycle of the next transaction of `r`: what the die's engines had due before it has happened. -/
def State.atIssue (s : State) (d e : Nat) (r : Desc) : State :=
  (((s.toCc (r.at' r.j)).settleDie d (r.at' r.j)).takeDue d (r.at' r.j)).enterDue d (ctlKey (r.at' r.j) e r.ctl)

theorem ctl_eq (r : Desc) : r.ctl = if r.op = 1 ∨ r.op = 2 ∨ r.op = 10 then r.lane else 2 := by
  unfold Desc.ctl
  simp only [Bool.or_eq_true, decide_eq_true_eq, or_assoc]

theorem kept_atIssue (s : State) (d e : Nat) (r : Desc) : Kept s (s.atIssue d e r) :=
  kept_enterDue (kept_takeDue (kept_settleDie (kept_toCc (Kept.refl s) _) ..) ..) ..

theorem atIssue_work (s : State) (d e : Nat) (r : Desc) : (s.atIssue d e r).sansWork = (s.toCc (r.at' r.j)).sansWork :=
  (sansWork_enterDue ..).trans ((sansWork_takeDue ..).trans (sansWork_settleDie ..))

section
variable (f : State) (d e : Nat) (r : Desc) (c a : Nat)

/-- How many transactions of an engine are outstanding in cycle `c`. -/
def Eng.load (x : Eng) : Nat := (x.out.filter fun q => decide (c ≤ q.ends)).foldl (fun k q => k + q.n) 0

/-- Whether the transaction goes: at most 256 stay outstanding (R244). -/
def State.txnGoes : Bool := decide ((f.eng d e).load c + f.txnWeight d r ≤ 256)

/-- The engine once the descriptor has counted the transaction. -/
def State.counted : Eng :=
  { f.eng d e with
    running := (f.eng d e).running.map fun q => if q = r then { r with j := r.j + 1 } else q
    out := ((f.eng d e).out.filter fun q => decide (c ≤ q.ends)) ++
      [⟨r.idx, if f.txnGoes d e r c then f.txnWeight d r else 0, c + (f.span d r a).1, c + (f.span d r a).2⟩] }

/-- One that goes counts in ST_TX_CNT and in the peak. -/
def State.booked : State :=
  let g := (f.setEng d e (f.counted d e r c a)).addSat (stPg d e) R.ST_TX_CNT (f.txnWeight d r)
  g.wr (stPg d e) R.ST_OUTST_PEAK (max (g.rd (stPg d e) R.ST_OUTST_PEAK) ((f.eng d e).load c + f.txnWeight d r))

/-- The state in which the operation acts. -/
def State.charged : State := if f.txnGoes d e r c then f.booked d e r c a else (f.setEng d e (f.counted d e r c a)).engErr d e r.idx 3

end

/-- The event counter goes with the last transaction. -/
def Desc.lastEvt (r : Desc) : Option Nat := if r.j + 1 = r.count then r.evt else none

theorem issueTxn_eq {s : State} {d e : Nat} {r : Desc} (h : nextIssue (s.eng d e).running = some r) : s.issueTxn d e none =
    ((s.atIssue d e r).charged d e r (r.at' r.j) (r.addrAt r.j)).issueOp d e r (r.at' r.j) (r.addrAt r.j) ((s.atIssue d e r).txnGoes d e r (r.at' r.j))
      r.lastEvt := by
  unfold State.issueTxn
  extract_lets x
  rw [h]
  rfl

section
variable {f : State} (w : Wf f) (d e : Nat) (r : Desc) (c a : Nat)

/-- A transaction that is counted changes its engine, registers and reports. -/
theorem charged_frame : (f.charged d e r c a).sansReport = (f.setEng d e (f.counted d e r c a)).sansReport := by
  unfold State.charged
  split
  · rfl
  · exact sansReport_engErr ..

theorem kept_charged : Kept f (f.charged d e r c a) :=
  Kept.ite (kept_wr (kept_addSat (kept_setEng (Kept.refl f) ..) ..) ..) (kept_engErr (kept_setEng (Kept.refl f) ..) ..)

theorem charged_go (h : f.txnGoes d e r c = true) : f.charged d e r c a = f.booked d e r c a := if_pos h

include w

theorem charged_count : (f.charged d e r c a).rd (stPg d e) R.ST_TX_CNT =
    if f.txnGoes d e r c then min (f.rd (stPg d e) R.ST_TX_CNT + f.txnWeight d r) (2 ^ R.ST_TX_CNT.w - 1) else f.rd (stPg d e) R.ST_TX_CNT := by
  have wc : Wf (f.setEng d e (f.counted d e r c a)) := (kept_setEng (Kept.refl f) ..).wf w
  unfold State.charged
  split
  · have hcut : min (f.rd (stPg d e) R.ST_TX_CNT + f.txnWeight d r) (2 ^ R.ST_TX_CNT.w - 1) < 2 ^ R.ST_TX_CNT.w :=
      lt_of_le_of_lt (min_le_right _ _) (Nat.sub_one_lt (Nat.two_pow_pos _).ne')
    exact (rd_wr_place (kept_addSat (Kept.refl _) ..|>.wf wc) _ rfl rfl (by decide)).trans ((rd_wr_self wc ..).trans (Nat.mod_eq_of_lt hcut))
  · exact (spares_engErr (by decide) (by decide) ..).rd wc

/-- The fields of links stand. -/
theorem rd_booked (q : Nat) {g : Fld} (hg : g.apart [R.ST_TX_CNT, R.ST_OUTST_PEAK] = true) : (f.booked d e r c a).rd q g = f.rd q g := by
  have hset : Spares q g f (f.setEng d e (f.counted d e r c a)) := .of_regs (kept_setEng (Kept.refl f) ..) rfl
  exact (hset.trans (.trans (.wr hg List.mem_cons_self _ _ _) (.wr hg (List.mem_cons_of_mem _ List.mem_cons_self) _ _ _))).rd w

theorem resolve_booked (x : Nat) (wr op ue : Bool) : (f.booked d e r c a).resolve d x wr op ue = f.resolve d x wr op ue := by
  have halive (p : Nat) : (f.booked d e r c a).portAlive p = f.portAlive p := by
    have hstate (q : Nat) := rd_booked w d e r c a q (g := R.WL_STAT_STATE) (by decide)
    unfold State.portAlive
    simp only [hstate]
  have hentry (g : Nat) : (f.booked d e r c a).stakeE d g = f.stakeE d g := rfl
  unfold State.resolve
  simp only [hentry, halive]

theorem flitUnits_booked (port : Nat) : (f.booked d e r c a).flitUnits d port = f.flitUnits d port := by
  unfold State.flitUnits State.flitLines State.bit
  rw [rd_booked w d e r c a _ (by decide)]

end

/-! The command. -/

theorem exec_transactionIssue {s : State} {d e : Nat} {r : Desc} (hok : s.engOk d e = true) (hrun : (s.eng d e).abort = false)
    (h : nextIssue (s.eng d e).running = some r) : exec (.transactionIssue d e none) s = .next
      (((s.atIssue d e r).charged d e r (r.at' r.j) (r.addrAt r.j)).issueOp d e r (r.at' r.j) (r.addrAt r.j) ((s.atIssue d e r).txnGoes d e r (r.at' r.j))
        r.lastEvt) :=
  congrArg Host.Outcome.next ((if_pos (by rw [hok, hrun]; rfl)).trans (issueTxn_eq h))

section
variable {s t : State} (h : Issued s t)
include h

theorem Issued.clk : t.clk = s.clk := (congrArg State.clk h.frame :)
theorem Issued.tiles : t.tiles = s.tiles := (congrArg State.tiles h.frame :)
theorem Issued.hbm : t.hbm = s.hbm := (congrArg State.hbm h.frame :)
theorem Issued.engs : t.engs = s.engs := (congrArg State.engs h.frame :)

end

/-- Whatever the operation, the transaction is counted once, and time, tiles, stacks and the other engines stand. -/
theorem issueOp_charged {f : State} (w : Wf f) (d e : Nat) (r : Desc) (c a : Nat) (evt : Option Nat) :
    let t := (f.charged d e r c a).issueOp d e r c a (f.txnGoes d e r c) evt
    t.clk = f.clk ∧ t.tiles = f.tiles ∧ t.hbm = f.hbm ∧ t.eng d e = f.counted d e r c a ∧
      (∀ k, k ≠ d * 16 + e → look engZero t.engs k = look engZero f.engs k) ∧
      t.rd (stPg d e) R.ST_TX_CNT = if f.txnGoes d e r c then min (f.rd (stPg d e) R.ST_TX_CNT + f.txnWeight d r) (2 ^ R.ST_TX_CNT.w - 1)
        else f.rd (stPg d e) R.ST_TX_CNT := by
  intro t
  have hissued := issued_issueOp (f.charged d e r c a) d e r c a (f.txnGoes d e r c) evt
  have hcharged := charged_frame (f := f) d e r c a
  have hengs : t.engs = (f.setEng d e (f.counted d e r c a)).engs := hissued.engs.trans (congrArg State.engs hcharged :)
  refine ⟨hissued.clk.trans (congrArg State.clk hcharged :), hissued.tiles.trans (congrArg State.tiles hcharged :),
    hissued.hbm.trans (congrArg State.hbm hcharged :), ?_, fun k hk => ?_, ?_⟩
  · exact (congrArg (look engZero · (d * 16 + e)) hengs).trans (eng_setEng_self w ..)
  · exact (congrArg (look engZero · k) hengs).trans (look_put_ne _ hk w.engs)
  · exact ((hissued.spares _).rd ((kept_charged d e r c a).wf w)).trans (charged_count w d e r c a)

/-! Each operation, on a place that is a local unit and with its lane cycles free. -/

section
variable {f : State} {d e : Nat} {r : Desc} {c a mc v : Nat} {evt : Option Nat}

variable (w : Wf f)
include w

theorem rd_booked_here (hop : r.op = 1) (h : f.resolve d a false false false = .here mc v)
    (hfree : ∀ k, k < r.units → f.laneUsers d e r.lane (c + 480 + k) = []) : ((f.booked d e r c a).issueOp d e r c a true evt).reads =
      f.reads ++ (List.range r.units).map fun k => f.rdUnit d e r c a mc evt (f.unitOf d a k) k := by
  rw [State.issueOp, hop]
  exact issueRd_here ((resolve_booked w ..).trans h) hfree

theorem wr_booked_here (hop : r.op = 2) (h : f.resolve d a true false false = .here mc v)
    (hfree : ∀ k, k < r.units → f.laneUsers d e r.lane (c + k) = []) : ((f.booked d e r c a).issueOp d e r c a true evt).units =
      f.units ++ (List.range r.units).map fun k => r.wrUnit d e c a mc evt (f.unitOf d a k) k := by
  rw [State.issueOp, hop]
  exact issueWr_here ((resolve_booked w ..).trans h) hfree

theorem rdw_booked_here (hop : r.op = 3) (h : f.resolve d a false true false = .here mc v) :
    ((f.booked d e r c a).issueOp d e r c a true evt).reads = f.reads ++ [f.rdwUnit d e r c a mc evt] := by
  have hunits := flitUnits_booked w d e r c a r.port
  rw [State.issueOp, hop, State.rdwUnit, ← hunits]
  exact issueRdw_here ((resolve_booked w ..).trans h)

theorem wrw_booked_here (hop : r.op = 4) (h : f.resolve d a true true false = .here mc v) :
    ((f.booked d e r c a).issueOp d e r c a true evt).units = f.units ++ (List.range (f.flitUnits d r.port)).map fun k =>
      r.wrwUnit d e c mc evt (f.flitUnits d r.port) (f.slotLines d e c r.port) (f.flitUnitOf d a k) k := by
  have hunits := flitUnits_booked w d e r c a r.port
  rw [State.issueOp, hop, State.slotLines, ← hunits]
  exact issueWrw_here ((resolve_booked w ..).trans h)

theorem mw_booked_free (hop : r.op = 5) (hfree : ∀ k, k < f.flitUnits d r.port → f.laneUsers d e r.lane (c + k) = []) :
    ((f.booked d e r c a).issueOp d e r c a true evt).units =
      f.units ++ (List.range (f.flitUnits d r.port)).map (r.mwUnit d e c evt (f.flitUnits d r.port)) := by
  have hunits := flitUnits_booked w d e r c a r.port
  rw [State.issueOp, hop, ← hunits]
  exact issueMw_free (hunits ▸ hfree)

theorem wm_booked_free (hop : r.op = 6) (hfree : ∀ k, k < f.flitUnits d r.port → f.laneUsers d e r.lane (c + 1 + k) = []) :
    ((f.booked d e r c a).issueOp d e r c a true evt).reads =
      f.reads ++ (List.range (f.flitUnits d r.port)).map (r.wmUnit d e c evt (f.flitUnits d r.port) (f.slotLines d e c r.port)) := by
  have hunits := flitUnits_booked w d e r c a r.port
  rw [State.issueOp, hop, State.slotLines, ← hunits]
  exact issueWm_free (hunits ▸ hfree)

theorem sload_booked_here (hop : r.op = 7) (h : f.resolve d a false true false = .here mc v) :
    ((f.booked d e r c a).issueOp d e r c a true evt).reads = f.reads ++ [f.sloadUnit d e r c mc evt (f.flitUnitOf d a 0)] := by
  rw [State.issueOp, hop]
  exact issueSload_here ((resolve_booked w ..).trans h)

theorem loadt_booked_here (hop : r.op = 10) (h : f.resolve d a false true false = .here mc v)
    (hfree : ∀ k, k < r.units + 1 → f.laneUsers d e r.lane (c + 480 + k) = []) : ((f.booked d e r c a).issueOp d e r c a true evt).reads =
      f.reads ++ [f.loadtUnit d e r c mc evt ((List.range r.units).map (f.unitOf d a))] := by
  rw [State.issueOp, hop]
  exact issueLoadt_here ((resolve_booked w ..).trans h) hfree

end

/-- Settles O39: the transaction is counted in the state that the engines leave, and its units follow each other on lane cycles that are free. -/
theorem transactionsIssue : Obligations.TransactionsIssue := by
  unfold Obligations.TransactionsIssue
  intro s d e r w hok hrun hnext c a p f x live busy n go ev run
  have hf : s.atIssue d e r = f := by
    unfold State.atIssue
    rw [ctl_eq]
    rfl
  have hexec := exec_transactionIssue hok hrun hnext
  have hwork := atIssue_work s d e r
  have wf := (kept_atIssue s d e r).wf w
  rw [hf] at hexec hwork wf
  obtain ⟨hclk, htiles, hhbm, heng, hother, hcount⟩ := issueOp_charged wf d e r c a ev
  have hgone (h : go = true) : (f.charged d e r c a).issueOp d e r c a go ev = (f.booked d e r c a).issueOp d e r c a true ev := by
    rw [h, charged_go d e r c a h]
  refine ⟨_, hexec, hclk.trans (clk_of_work hwork), htiles.trans ((tiles_of_work hwork).trans (congrArg State.tiles (toCc_clk s c) :)), hhbm, heng,
    hother, fun h => hcount.trans (if_pos h), fun h => hcount.trans (if_neg (ne_true_of_eq_false h)), fun mc v h hres => ?placed, fun h => ?mesh⟩
  case placed =>
    intro en fl flit free
    refine ⟨fun hop hfree => ?rd, fun hop hfree => ?wr, fun hop => ?rdw, fun hop => ?wrw, fun hop => ?sload, fun hop hfree => ?loadt⟩ <;>
      rw [hop] at hres
    case rd => exact (congrArg State.reads (hgone h)).trans (rd_booked_here wf hop hres hfree)
    case wr => exact (congrArg State.units (hgone h)).trans (wr_booked_here wf hop hres hfree)
    case rdw => exact (congrArg State.reads (hgone h)).trans (rdw_booked_here wf hop hres)
    case wrw => exact (congrArg State.units (hgone h)).trans (wrw_booked_here wf hop hres)
    case sload => exact (congrArg State.reads (hgone h)).trans (sload_booked_here wf hop hres)
    case loadt =>
      refine (congrArg State.reads (hgone h)).trans ((loadt_booked_here wf hop hres hfree).trans ?_)
      rw [State.loadtUnit, List.flatMap_map]
      rfl
  case mesh =>
    intro fl hit ls
    refine ⟨fun hop hfree => ?mw, fun hop hfree => ?wm⟩
    case mw => exact (congrArg State.units (hgone h)).trans (mw_booked_free wf hop hfree)
    case wm => exact (congrArg State.reads (hgone h)).trans (wm_booked_free wf hop hfree)

end Sys2Proof.Machine
end

section
/-! SUPPORT. Entries of the collective engine start (O43). -/

namespace Sys2Proof.Machine
open Sys2Proof

/-! Registers that time and the landing of static writes leave alone. -/

/-- The state but for the collective engines and their buffers. -/
def State.sansCe (s : State) : State := { s with ces := [], cbuf := [] }

theorem sansCe_ceLand (s : State) (d : Nat) (x : CeWrite) : (s.ceLand d x).sansCe = s.sansCe := by
  unfold State.ceLand
  split
  · rfl
  · refine foldl_keeps State.sansCe (fun t x => ?_) _ s
    rfl

/-- The writes that land change the engine and its buffer alone. -/
theorem sansCe_ceSettle (s : State) (d c : Nat) : (s.ceSettle d c).sansCe = s.sansCe :=
  foldl_keeps State.sansCe (fun t x => sansCe_ceLand t d x) _ (s.setCe d _)

theorem regs_of_ce {s t : State} (h : t.sansCe = s.sansCe) : t.regs = s.regs := (congrArg State.regs h :)

theorem clk_of_ce {s t : State} (h : t.sansCe = s.sansCe) : t.clk = s.clk := (congrArg State.clk h :)

/-! The next entry of an engine (R274, R275). -/

/-- The operation of the next entry. -/
def Ce.nextOp (x : Ce) : Nat := dbits x.next'.2.1 12 4

/-- The state in the start cycle of the engine's next entry, the static writes due landed. -/
def State.ceDue (s : State) (d : Nat) : State := (s.toCc (s.ce d).next'.2.2).ceSettle d (s.ce d).next'.2.2

/-- The engine past its next entry. -/
def State.cePast (s : State) (d : Nat) : Ce :=
  { (s.ceDue d).ce d with
    pc := ((s.ce d).next'.1 + if ceTwo (s.ce d).nextOp then 2 else 1) % 8192
    prev := (s.ce d).next'.2.2
    running := ((s.ceDue d).ce d).running.filter fun q => decide (q.j < q.cCount) }

/-- The state in which the entry acts. -/
def State.ceBegun (s : State) (d : Nat) : State := (s.ceDue d).setCe d (s.cePast d)

/-- The entry as it starts. -/
def State.ceEntry (s : State) (d : Nat) : Desc :=
  ⟨(s.ce d).next'.1, (s.ce d).next'.2.1,
    if ceTwo (s.ce d).nextOp then look (fun _ => 0#128) ((s.ceDue d).ce d).sched (((s.ce d).next'.1 + 1) % 8192) else 0#128,
    (s.ce d).next'.2.2, 0⟩

theorem wf_ceDue {s : State} (w : Wf s) (d : Nat) : Wf (s.ceDue d) := (kept_ceSettle (kept_toCc (Kept.refl s) _) ..).wf w

theorem rd_ceBegun (s : State) (d p : Nat) (g : Fld) : (s.ceBegun d).rd p g = s.rd p g := by
  have hregs : (s.ceBegun d).regs = s.regs :=
    (regs_of_ce (sansCe_ceSettle ..)).trans (congrArg State.regs (toCc_clk s (s.ce d).next'.2.2) :)
  exact congrArg (look resetVal · (g.key p)) hregs

theorem ce_ceBegun {s : State} (w : Wf s) (d : Nat) : (s.ceBegun d).ce d = s.cePast d := ce_setCe_self (wf_ceDue w d) ..

theorem setCe_ceBegun {s : State} (w : Wf s) (d : Nat) (x : Ce) : (s.ceBegun d).setCe d x = (s.ceDue d).setCe d x := setCe_setCe (wf_ceDue w d) ..

/-! What a command does with the next entry. -/

section
variable {s : State} {d : Nat} {ok : Nat → Bool} {ue2 : Bool} {f : Desc → State → State}

theorem ceStart_other (h : ok (s.ce d).nextOp = false) : s.ceStart d ok ue2 f = s :=
  if_neg fun hgo => ne_true_of_eq_false h (Bool.and_eq_true_iff.mp hgo).2

variable (hok : s.ceOk d = true) (hgo : (s.ce d).going = true) (hop : ok (s.ce d).nextOp = true)
include hok hgo hop

/-- An entry whose command comes acts, or it is reported and does nothing. -/
theorem ceStart_eq : s.ceStart d ok ue2 f =
    if ceTwo (s.ce d).nextOp && ue2 then (s.ceBegun d).ceErr d (s.ce d).next'.1 1 none
    else if !(s.ceEntry d).cLegal (s.cePast d) || decide (8 ≤ (s.cePast d).running.length) then (s.ceBegun d).ceErr d (s.ce d).next'.1 0 none
    else f (s.ceEntry d) (s.ceBegun d) := by
  have hstarts : (s.ceOk d && (s.ce d).going && ok (s.ce d).nextOp) = true := by rw [hok, hgo, hop]; rfl
  exact if_pos hstarts

theorem ceStart_second_ue (h : ceTwo (s.ce d).nextOp = true) : s.ceStart d ok true f = (s.ceBegun d).ceErr d (s.ce d).next'.1 1 none :=
  (ceStart_eq hok hgo hop).trans (if_pos (by rw [h]; rfl))

theorem ceStart_refused (h : (s.ceEntry d).cLegal (s.cePast d) = false ∨ 8 ≤ (s.cePast d).running.length) :
    s.ceStart d ok false f = (s.ceBegun d).ceErr d (s.ce d).next'.1 0 none :=
  (ceStart_eq hok hgo hop).trans <| (if_neg (by rw [Bool.and_false]; exact nofun)).trans (if_pos (by simpa using h))

theorem ceStart_legal (h : (s.ceEntry d).cLegal (s.cePast d) = true) (hlen : (s.cePast d).running.length < 8) :
    s.ceStart d ok false f = f (s.ceEntry d) (s.ceBegun d) :=
  (ceStart_eq hok hgo hop).trans <| (if_neg (by rw [Bool.and_false]; exact nofun)).trans (if_neg (by simpa [h] using hlen))

end

/-! Which entries are legal (R275). -/

section
variable {r : Desc} {x : Ce}

theorem cLegal_port (h : r.cPort = 3) : r.cLegal x = false := by
  rw [Desc.cLegal, h]
  rfl

theorem cLegal_of_port (h : r.cPort ≠ 3) (hop : r.op = 0 ∨ r.op = 15) : r.cLegal x = true := by
  unfold Desc.cLegal
  obtain hop | hop := hop <;> simp [hop, h]

theorem cLegal_send (h : r.cPort ≠ 3) (hop : r.op = 10) (hcount : r.cCount ≤ 65536) (hopen : x.sends.length < 16) : r.cLegal x = true := by
  unfold Desc.cLegal
  simp [hop, h, hcount, hopen]

theorem cLegal_recv (h : r.cPort ≠ 3) (hop : r.op = 11) (hcount : r.cCount ≤ 65536) (hopen : x.recvs.length < 16) (hcmb : r.cCmb ≤ 4) :
    r.cLegal x = true := by
  unfold Desc.cLegal
  simp [hop, h, hcount, hopen, hcmb]

/-- The operations 12 to 14 are unassigned (Table 8-4). -/
theorem cLegal_unassigned (hlo : 12 ≤ r.op) (hhi : r.op ≤ 14) : r.cLegal x = false := by
  unfold Desc.cLegal
  generalize r.op = op at *
  interval_cases op <;> exact Bool.and_false _

end

/-! The commands, by the operation they start (Table 8-4). -/

/-- The commands of operations that run item by item, by operation. -/
def ceRunCmds (d : Nat) : List (Nat × Instr) :=
  [(1, .edin d), (2, .edout d), (3, .win d), (4, .wout d), (5, .lcomb d false), (6, .ceGrid d false), (7, .cePack d false), (8, .roundGrid d false),
    (9, .rnd96 d false)]

/-- The commands of all operations but NOP. -/
def ceStartCmds (d : Nat) : List (Nat × Instr) := ceRunCmds d ++ [(10, .ceSend d), (11, .ceRecv d), (15, .ceEndseg d)]

/-- The commands of an operation whose second entry has an uncorrectable error. -/
def ceSecondUeCmds (d : Nat) : List (Nat × Instr) :=
  [(5, .lcomb d true), (6, .ceGrid d true), (7, .cePack d true), (8, .roundGrid d true), (9, .rnd96 d true)]

section
variable {s : State} {d : Nat} {q : Nat × Instr}

theorem exec_ceRunCmd (h : q ∈ ceRunCmds d) (s : State) : exec q.2 s = .next (s.ceStart d (· == q.1) false fun r s => s.ceRun d r) := by
  simp only [ceRunCmds, List.mem_cons, List.not_mem_nil, or_false] at h
  obtain rfl | rfl | rfl | rfl | rfl | rfl | rfl | rfl | rfl := h <;> rfl

theorem exec_ceStartCmd (h : q ∈ ceStartCmds d) (s : State) : ∃ f, exec q.2 s = .next (s.ceStart d (· == q.1) false f) := by
  obtain h | h := List.mem_append.mp h
  · exact ⟨_, exec_ceRunCmd h s⟩
  · simp only [List.mem_cons, List.not_mem_nil, or_false] at h
    obtain rfl | rfl | rfl := h <;> exact ⟨_, rfl⟩

theorem exec_ceSecondUeCmd (h : q ∈ ceSecondUeCmds d) (s : State) :
    (∃ f, exec q.2 s = .next (s.ceStart d (· == q.1) true f)) ∧ ceTwo q.1 = true := by
  simp only [ceSecondUeCmds, List.mem_cons, List.not_mem_nil, or_false] at h
  obtain rfl | rfl | rfl | rfl | rfl := h <;> exact ⟨⟨_, rfl⟩, rfl⟩

theorem exec_ceNop (s : State) (d : Nat) :
    exec (.ceNop d false) s = .next (s.ceStart d (fun op => decide (op = 0) || !ceOps.contains op) false fun _ s => s) := rfl

theorem exec_ce_other (h : q ∈ ceStartCmds d) (hop : (s.ce d).nextOp ≠ q.1) : exec q.2 s = .next s := by
  obtain ⟨f, hf⟩ := exec_ceStartCmd h s
  rw [hf, ceStart_other (by exact beq_eq_false_iff_ne.mpr hop)]

/-- The end of an abort (R296). -/
theorem exec_ceAbortDone (hd : d < 8) (ha : (s.ce d).abort = true)
    (hacked : ∀ u ∈ (s.ce d).unacked, s.rd (subPg (u.1 / 16) (u.1 % 16)) R.SB_STAT_STATE = 5) :
    exec (.ceAbortDone d) s = .next (s.setCe d { s.ce d with abort := false, on := false, unacked := [] }) := by
  have hall : ((s.ce d).unacked.all fun e => decide (s.rd (subPg (e.1 / 16) (e.1 % 16)) R.SB_STAT_STATE = sbFailed)) = true :=
    List.all_eq_true.mpr fun u hu => decide_eq_true (hacked u hu)
  exact congrArg Host.Outcome.next (if_pos (by rw [ha, hall, decide_eq_true hd]; rfl))

variable (hok : s.ceOk d = true) (hgo : (s.ce d).going = true)
include hok hgo

/-- An entry with an uncorrectable error only advances the engine (R278). -/
theorem exec_ceNop_ue : exec (.ceNop d true) s =
    .next (((s.toCc (s.ce d).prev).setCe d { s.ce d with pc := ((s.ce d).pc + 1) % 8192 }).ceErr d ((s.ce d).pc % 8192) 1 none) :=
  congrArg Host.Outcome.next ((if_pos rfl).trans (if_pos (by rw [hok, hgo]; rfl)))

theorem exec_ce_runs (w : Wf s) (h : q ∈ ceRunCmds d) (hop : (s.ce d).nextOp = q.1) (hlegal : (s.ceEntry d).cLegal (s.cePast d) = true)
    (hlen : (s.cePast d).running.length < 8) :
    exec q.2 s = .next ((s.ceDue d).setCe d { s.cePast d with running := (s.cePast d).running ++ [s.ceEntry d] }) := by
  rw [exec_ceRunCmd h, ceStart_legal hok hgo (by exact beq_of_eq hop) hlegal hlen]
  dsimp only [State.ceRun]
  rw [ce_ceBegun w, setCe_ceBegun w]

theorem exec_ce_refused (h : q ∈ (0, Instr.ceNop d false) :: ceStartCmds d) (hop : (s.ce d).nextOp = q.1)
    (hno : (s.ceEntry d).cLegal (s.cePast d) = false ∨ 8 ≤ (s.cePast d).running.length) :
    exec q.2 s = .next ((s.ceBegun d).ceErr d (s.ce d).next'.1 0 none) := by
  obtain rfl | h := List.mem_cons.mp h
  · exact (exec_ceNop s d).trans <| congrArg Host.Outcome.next (ceStart_refused hok hgo (by rw [hop]; rfl) hno)
  · obtain ⟨f, hf⟩ := exec_ceStartCmd h s
    rw [hf, ceStart_refused hok hgo (by exact beq_of_eq hop) hno]

theorem exec_ce_second_ue (h : q ∈ ceSecondUeCmds d) (hop : (s.ce d).nextOp = q.1) :
    exec q.2 s = .next ((s.ceBegun d).ceErr d (s.ce d).next'.1 1 none) := by
  obtain ⟨⟨f, hf⟩, htwo⟩ := exec_ceSecondUeCmd h s
  rw [hf, ceStart_second_ue hok hgo (by exact beq_of_eq hop) (hop ▸ htwo)]

theorem exec_ce_unassigned (hlo : 12 ≤ (s.ce d).nextOp) (hhi : (s.ce d).nextOp ≤ 14) :
    exec (.ceNop d false) s = .next ((s.ceBegun d).ceErr d (s.ce d).next'.1 0 none) := by
  have hno : ceOps.contains (s.ce d).nextOp = false := by
    generalize (s.ce d).nextOp = op at *
    interval_cases op <;> rfl
  exact (exec_ceNop s d).trans <| congrArg Host.Outcome.next
    (ceStart_refused hok hgo (by rw [hno]; simp) (.inl (cLegal_unassigned (r := s.ceEntry d) hlo hhi)))

variable (hport : (s.ceEntry d).cPort ≠ 3) (hlen : (s.cePast d).running.length < 8)
include hport hlen

theorem exec_ce_nop (hop : (s.ce d).nextOp = 0) : exec (.ceNop d false) s = .next (s.ceBegun d) :=
  (exec_ceNop s d).trans <| congrArg Host.Outcome.next (ceStart_legal hok hgo (by rw [hop]; rfl) (cLegal_of_port hport (.inl hop)) hlen)

theorem exec_ce_endseg (w : Wf s) (hop : (s.ce d).nextOp = 15) :
    exec (.ceEndseg d) s = .next ((s.ceDue d).setCe d { s.cePast d with ended := some (s.ce d).next'.2.2 }) := by
  refine congrArg Host.Outcome.next ((ceStart_legal hok hgo (by exact beq_of_eq hop) (cLegal_of_port hport (.inr hop)) hlen).trans ?_)
  dsimp only
  rw [ce_ceBegun w, setCe_ceBegun w]
  rfl

end

/-! Messages (R281, R282, R286). -/

/-- Whether a rank-table entry is invalid or names this package. -/
def State.noCarrier (s : State) (e : Nat) : Bool := decide (e / 256 % 2 = 0) || decide (e % 256 = s.rd pkg0 R.PKG_IDENT_PKG_ID)

theorem noCarrier_eq (s : State) (e : Nat) : (e / 256 % 2 = 0 || e % 256 = s.pkgId) = s.noCarrier e := rfl

section
variable {s : State} {d : Nat} (w : Wf s) (hok : s.ceOk d = true) (hgo : (s.ce d).going = true) (hport : (s.ceEntry d).cPort ≠ 3)
  (hlen : (s.cePast d).running.length < 8) (hcount : (s.ceEntry d).cCount ≤ 65536)
include w hok hgo hport hlen hcount

theorem exec_ceSend (hop : (s.ce d).nextOp = 10) (hopen : (s.cePast d).sends.length < 16) :
    let r := s.ceEntry d
    let e := (s.cePast d).rank r.cRank
    exec (.ceSend d) s = .next (if s.noCarrier e then ((s.ceBegun d).ceErr d r.idx 8 (some r.cRank)).evtOpt d r.cEvt
      else (s.ceDue d).setCe d { s.cePast d with
        serial := (s.cePast d).serial + 1
        sends := (s.cePast d).sends ++ [⟨r.idx, r.cRank, e % 256, r.cAddr, r.cCount, 0, r.cEvt, (s.cePast d).serial + 1⟩] }) := by
  intro r e
  refine congrArg Host.Outcome.next ((ceStart_legal hok hgo (by exact beq_of_eq hop) (cLegal_send hport hop hcount hopen) hlen).trans ?_)
  dsimp only
  rw [noCarrier_eq, ce_ceBegun w, setCe_ceBegun w, State.noCarrier, rd_ceBegun]
  rfl

theorem exec_ceRecv (hop : (s.ce d).nextOp = 11) (hopen : (s.cePast d).recvs.length < 16) (hcmb : (s.ceEntry d).cCmb ≤ 4) :
    let r := s.ceEntry d
    let e := (s.cePast d).rank r.cRank
    let nth := look natZero (s.cePast d).posted (e % 256)
    let v : CeRecv := ⟨r.idx, r.cRank, e % 256, r.cAddr, r.cCount, r.cCmb, [], r.cEvt, nth⟩
    exec (.ceRecv d) s = .next (if s.noCarrier e then (((s.ceBegun d).ceErr d r.idx 8 (some r.cRank)).poisonRest d v).evtOpt d r.cEvt
      else (s.ceDue d).setCe d { s.cePast d with
        posted := put natZero (s.cePast d).posted (e % 256) (nth + 1)
        recvs := (s.cePast d).recvs ++ [v] }) := by
  intro r e nth v
  refine congrArg Host.Outcome.next ((ceStart_legal hok hgo (by exact beq_of_eq hop) (cLegal_recv hport hop hcount hopen hcmb) hlen).trans ?_)
  dsimp only
  rw [noCarrier_eq, ce_ceBegun w, setCe_ceBegun w, State.noCarrier, rd_ceBegun]
  rfl

end

/-- Settles O43: a command starts its operation alone, in the state that the writes due have left; a message is opened at the rank's carrier. -/
theorem collectiveEntriesStart : Obligations.CollectiveEntriesStart := by
  unfold Obligations.CollectiveEntriesStart
  intro s d w hd
  refine ⟨fun hok hgo => ?starts, fun ha hacked => exec_ceAbortDone hd ha hacked⟩
  intro i wd c op two f x run y r g e nobody runs cmds
  exact ⟨fun q hq hop => exec_ce_other hq hop, fun q hq hop hlegal hlen => exec_ce_runs hok hgo w hq hop hlegal hlen,
    fun q hq hop hno => exec_ce_refused hok hgo hq hop hno, fun q hq hop => exec_ce_second_ue hok hgo hq hop, cLegal_port,
    fun hop hport hcount hopen hlen => exec_ceSend w hok hgo hport hlen hcount hop hopen,
    fun hop hport hcount hopen hcmb hlen => exec_ceRecv w hok hgo hport hlen hcount hop hopen hcmb,
    fun hop hport hlen => exec_ce_endseg hok hgo hport hlen w hop, fun hop hport hlen => exec_ce_nop hok hgo hport hlen hop,
    fun hlo hhi => exec_ce_unassigned hok hgo hlo hhi, exec_ceNop_ue hok hgo⟩

end Sys2Proof.Machine
end

section
/-! SUPPORT. Items of the collective engine (O44). -/

namespace Sys2Proof.Machine
open Sys2Proof

/-! What the engine reports (Table 8-10). -/

/-- The fields that a report of the engine writes. -/
def ceReports : List Fld := [R.CE_ERR_LAST_INDEX, R.CE_ERR_LAST_SRC, R.CE_ERR_LAST_RANK, R.CE_BUF_CE_CNT, R.PG_FSTAT_SRC]

theorem Fld.apart_of_subset {g : Fld} {fs gs : List Fld} (h : g.apart fs = true) (hs : ∀ f ∈ gs, f ∈ fs) : g.apart gs = true := by
  obtain ⟨hg, hall⟩ := Bool.and_eq_true_iff.mp h
  exact Bool.and_eq_true_iff.mpr ⟨hg, List.all_eq_true.mpr fun f hf => List.all_eq_true.mp hall f (hs f hf)⟩

/-- From `s` to `t` the engine has reported, and nothing else changed. -/
structure Reported (s t : State) : Prop where
  frame : t.sansReport = s.sansReport
  spares : ∀ q g, g.apart ceReports = true → Spares q g s t

namespace Reported
variable {s t u : State}

theorem refl (s : State) : Reported s s := ⟨rfl, fun _ _ _ => .refl _ _ s⟩

theorem trans (h : Reported s t) (k : Reported t u) : Reported s u :=
  ⟨k.frame.trans h.frame, fun q g hg => (h.spares q g hg).trans (k.spares q g hg)⟩

theorem ite {c : Prop} [Decidable c] (h : Reported s t) (k : Reported s u) : Reported s (if c then t else u) := by
  split
  · exact h
  · exact k

theorem foldl {α : Type} {f : State → α → State} (hf : ∀ t x, Reported t (f t x)) (l : List α) (s : State) : Reported s (l.foldl f s) := by
  induction l generalizing s with
  | nil => exact refl s
  | cons x l ih => exact (hf s x).trans (ih _)

theorem wr (s : State) (p : Nat) {f : Fld} (hf : f ∈ ceReports) (v : Nat) : Reported s (s.wr p f v) := ⟨rfl, fun _ _ hg => .wr hg hf ..⟩

theorem raise (s : State) (p src : Nat) : Reported s (s.raise p src) :=
  ⟨sansReport_raise .., fun _ _ hg => spares_raiseX (Fld.apart_of_subset hg (by decide)) ..⟩

theorem ceErr (s : State) (d idx src : Nat) (rank : Option Nat) : Reported s (s.ceErr d idx src rank) := by
  have hlast : Reported s ((s.wr (cePg d) R.CE_ERR_LAST_INDEX idx).wr (cePg d) R.CE_ERR_LAST_SRC src) :=
    .trans (.wr _ _ (by decide) _) (.wr _ _ (by decide) _)
  cases rank with
  | none => exact hlast.trans (.raise ..)
  | some k => exact hlast.trans (.trans (.wr _ _ (by decide) _) (.raise ..))

theorem touch (s : State) (d idx a : Nat) (write : Bool) : Reported s (s.touch d idx a write) := by
  have hrecv : Reported s (if (s.ce d).recvs.any fun r => inRegion a r.addr (256 * r.count) then s.ceErr d idx 5 none else s) :=
    .ite (.ceErr ..) (.refl s)
  exact hrecv.trans (.ite (.ceErr ..) (.refl _))

theorem bufHits (s : State) (d : Nat) (hits : List EccHit) : Reported s (s.bufHits d hits) :=
  .foldl (fun t _ => .ite (.raise ..) (.trans (.wr t _ (by decide) _) (.raise ..))) hits s

theorem flitLines (h : Reported s t) (w : Wf s) (p : Nat) : t.flitLines p = s.flitLines p := by
  unfold State.flitLines
  rw [(h.spares p _ (by decide)).bit w]

end Reported

/-! The writes that an item schedules (Table 8-5). -/

/-- A write of lines by an item: of poisoned lines where the item lost (R277). -/
def lineWrite (lost : Bool) (at' a cmb : Nat) (ls : List FLine) (err : List Nat) : CeWrite :=
  if lost then ⟨at', a % 2 ^ 25, 0, ls.map fun _ => poisonLine, none, []⟩ else ⟨at', a % 2 ^ 25, cmb, ls, none, err⟩

def Ce.writing (x : Ce) (ws : List CeWrite) : Ce := { x with writes := x.writes ++ ws }

/-- The state but for what reports write and the flits that items take and send. -/
def State.sansMoves (s : State) : State := { s with regs := [], pages := [], flt := {}, edges := [], arrivals := [], mesh := [], offers := [] }

/-- The state but for that and the engines. -/
def State.sansItem (s : State) : State :=
  { s with regs := [], pages := [], flt := {}, edges := [], arrivals := [], mesh := [], offers := [], ces := [] }

/-- From `s` to `t` the engine of die `d` has scheduled the writes `ws`: its buffer, time, tiles and stacks stand. -/
structure Wrote (d : Nat) (ws : List CeWrite) (s t : State) : Prop where
  frame : t.sansItem = s.sansItem
  ce : t.ce d = (s.ce d).writing ws

section
variable {s t : State}

theorem moves_of_report (h : t.sansReport = s.sansReport) : t.sansMoves = s.sansMoves := (congrArg State.sansMoves h :)
theorem ces_of_moves (h : t.sansMoves = s.sansMoves) : t.ces = s.ces := (congrArg State.ces h :)
theorem blines_of_moves (h : t.sansMoves = s.sansMoves) (d a k : Nat) : t.blines d a k = s.blines d a k := (congrArg (State.blines · d a k) h :)

end

namespace Wrote
variable {d : Nat} {s t : State} {ws : List CeWrite}

theorem of_moves (h : t.sansMoves = s.sansMoves) : Wrote d [] s t where
  frame := (congrArg State.sansItem h :)
  ce := by
    rw [State.ce, ces_of_moves h, Ce.writing, List.append_nil]
    rfl

theorem after (h : t.sansMoves = s.sansMoves) (hces : swf ceZero s.ces = true) : Wrote d ws s (t.setCe d ((t.ce d).writing ws)) where
  frame := (congrArg State.sansItem h :)
  ce := by
    refine (look_put_self _ _ (ces_of_moves h ▸ hces)).trans ?_
    rw [State.ce, ces_of_moves h]
    rfl

theorem lines (h : t.sansMoves = s.sansMoves) (hces : swf ceZero s.ces = true) (c a cmb : Nat) (ls : List FLine) (lost : Bool) (bad : List Nat) :
    Wrote d [lineWrite lost c a cmb ls bad] s (t.ceWrite d c a cmb ls lost bad) := by
  cases lost <;> exact after h hces

theorem byte (h : t.sansMoves = s.sansMoves) (hces : swf ceZero s.ces = true) (c a cmb v : Nat) (p : Bool) (bad : List Nat) :
    Wrote d [⟨c, a % 2 ^ 25, cmb, [], some (v, p), bad⟩] s (t.ceByte d c a cmb v p bad) := after h hces

theorem of_report {u : State} (k : Wrote d ws t u) (h : t.sansReport = s.sansReport) : Wrote d ws s u where
  frame := k.frame.trans (congrArg State.sansItem h :)
  ce := k.ce.trans (congrArg (fun v : State => (v.ce d).writing ws) h :)

theorem clk (h : Wrote d ws s t) : t.clk = s.clk := (congrArg State.clk h.frame :)
theorem tiles (h : Wrote d ws s t) : t.tiles = s.tiles := (congrArg State.tiles h.frame :)
theorem hbm (h : Wrote d ws s t) : t.hbm = s.hbm := (congrArg State.hbm h.frame :)
theorem cbuf (h : Wrote d ws s t) : t.cbuf = s.cbuf := (congrArg State.cbuf h.frame :)

end Wrote

/-! What an item reads and writes. -/

section
variable (s : State) (d : Nat) (r : Desc) (t j : Nat) (hits : List EccHit) (lost : Bool)

/-- Lines as an item reads them, where its operand follows `at'` others (R272). -/
def State.operand (at' a k : Nat) : List FLine := readBad (badWords hits at' k) (s.blines d a k)

/-- The grid byte at an address, as it is read (Table 8-2). -/
def State.gridAt (at' a : Nat) : Nat × Bool :=
  let f := lineBad (badWords hits at' 1) (s.bline d a)
  (bits f.data.toNat (8 * (a % 32)) 8, f.poi)

/-- Units of a flit on the item's port (R220). -/
def State.itemUnits : Nat := s.flitLines (wlPg d r.cPort) / 4

/-- The flit present for EDIN (Table 8-5). -/
def State.edgeFlit : Option EdgeFlit :=
  s.edges.find? fun q => decide (q.die = d) && decide (q.edge = r.cEp) && q.ce && decide (q.cyc = t)

/-- The flit received in WIN's slot. -/
def State.slotFlit : Option Arrival :=
  s.arrivals.find? fun q => decide (q.die = d) && decide (q.port = r.cPort) && decide (q.dest = 16) && decide (q.cyc = t)

/-- The writes of item `j`, handled in cycle `t`, where a flit of its port has `n` units (Table 8-5, R277). -/
def State.itemWrites (n : Nat) : List CeWrite :=
  let g := if lost then (0, true) else ceGridByte (s.operand d hits 0 (r.cAddr + 512 * j) 16)
  if r.op = 1 then
    [lineWrite lost (t + 3) (r.cAddr + 128 * j) r.cCmb (((s.edgeFlit d r t).map fun q => q.flit.lines).getD (noData 4)) (badWords hits 0 4)]
  else if r.op = 3 then
    if (s.slotPlan d r.cPort t).2 = 16 then
      [lineWrite lost (t + 3) (r.cAddr + j * n * 128) r.cCmb (((s.slotFlit d r t).map fun q => q.lines).getD (noData (4 * n))) (badWords hits 0 (4 * n))]
    else []
  else if r.op = 5 then
    if r.cCmb = 5 then
      [lineWrite lost (t + 3) (r.cAddr + 2048 * j) 0
        (add96 (s.operand d hits 64 (r.cAddr2 + 2048 * j) 64) (s.operand d hits 0 (r.cAddr + 2048 * j) 64)) []]
    else
      [lineWrite lost (t + 3) (r.cAddr + 128 * j) 0 (((s.operand d hits 4 (r.cAddr2 / 128 * 128 + 128 * j) 4).zip
        (s.operand d hits 0 (r.cAddr + 128 * j) 4)).map fun u => combineLine r.cCmb u.1 u.2) []]
  else if r.op = 6 then [⟨t + 7, (r.cAddr3 + j) % 2 ^ 25, if lost then 0 else r.cCmb, [], some g, badWords hits 16 1⟩]
  else if r.op = 7 then
    [lineWrite lost (t + 7) (r.cAddr3 / 128 * 128 + 1024 * j) r.cCmb (cePackBlock (s.gridAt d hits 16 (r.cAddr2 + j)).1
      (s.gridAt d hits 16 (r.cAddr2 + j)).2 (s.operand d hits 0 (r.cAddr + 512 * j) 16)).1 (badWords hits 17 32)]
  else if r.op = 8 then
    [lineWrite lost (t + 7) (r.cAddr3 / 128 * 128 + (if r.cBf then 256 else 512) * j) 0 (ceRoundBlock (s.gridAt d hits 32 (r.cAddr2 + j)).1
      (s.gridAt d hits 32 (r.cAddr2 + j)).2 r.cBf r.cRnd (s.operand d hits 0 (r.cAddr + 1024 * j) 32)) []]
  else if r.op = 9 then
    [lineWrite lost (t + 7) (r.cAddr3 / 128 * 128 + 512 * j) 0 (ceRnd96Block r.cRnd (s.operand d hits 0 (r.cAddr + 2048 * j) 64)) []]
  else []

/-- The accesses of an item that touch open messages (R285). -/
def State.touches (s : State) (d idx : Nat) (as : List Nat) (write : Bool) : State := as.foldl (fun s a => s.touch d idx a write) s

end

theorem Reported.touches (s : State) (d idx : Nat) (as : List Nat) (write : Bool) : Reported s (s.touches d idx as write) :=
  .foldl (fun _ _ => .touch ..) as s

theorem moves_touches (s : State) (d idx : Nat) (as : List Nat) (write : Bool) : (s.touches d idx as write).sansMoves = s.sansMoves :=
  moves_of_report (Reported.touches ..).frame

theorem moves_touches_twice (s : State) (d idx : Nat) (as bs : List Nat) (v x : Bool) :
    ((s.touches d idx as v).touches d idx bs x).sansMoves = s.sansMoves :=
  (moves_touches ..).trans (moves_touches ..)

/-- The state after EDIN has taken its unit, or has reported that none is present (R203). -/
def State.edinTaken (s : State) (d : Nat) (r : Desc) (t : Nat) (lost : Bool) : State :=
  match s.edgeFlit d r t with
  | some f => if lost then s else { s with edges := s.edges.filter (· ≠ f) }
  | none => if lost then s else s.edgeEvent d 2 r.cEp

theorem moves_edinTaken (s : State) (d : Nat) (r : Desc) (t : Nat) (lost : Bool) : (s.edinTaken d r t lost).sansMoves = s.sansMoves := by
  unfold State.edinTaken
  cases lost <;> split
  · rfl
  · exact moves_of_report (sansReport_edgeEvent ..)
  · rfl
  · rfl

/-- The state after EDOUT: its unit is in the mesh, two cycles on. -/
def State.edoutSent (s : State) (d : Nat) (r : Desc) (t j : Nat) (hits : List EccHit) (lost : Bool) : State :=
  let u := s.touches d r.idx [r.cAddr + 128 * j] false
  if lost then u
  else { u with mesh := u.mesh ++ [⟨d, (edgeNode r.cEp).1, (edgeNode r.cEp).2, t + 2, ⟨s.operand d hits 0 (r.cAddr + 128 * j) 4⟩, some true⟩] }

/-- The state after WOUT: its flit is offered to the slot two cycles on, if that slot is the engine's (R277). -/
def State.woutSent (s : State) (d : Nat) (r : Desc) (t j : Nat) (hits : List EccHit) (lost : Bool) : State :=
  let n := s.itemUnits d r
  let a := r.cAddr + j * n * 128
  let u := s.touches d r.idx ((List.range n).map fun k => a + 128 * k) false
  if lost then u
  else if (u.slotPlan d r.cPort (t + 2)).1 ≠ 16 then u.ceErr d r.idx 2 none
  else { u with offers := u.offers ++ [⟨d, r.cPort, 16, t + 2, s.operand d hits 0 a (4 * n), r.idx⟩] }

theorem moves_edoutSent (s : State) (d : Nat) (r : Desc) (t j : Nat) (hits : List EccHit) (lost : Bool) :
    (s.edoutSent d r t j hits lost).sansMoves = s.sansMoves := by
  refine .trans ?_ (moves_touches s d r.idx [r.cAddr + 128 * j] false)
  cases lost <;> rfl

theorem moves_woutSent (s : State) (d : Nat) (r : Desc) (t j : Nat) (hits : List EccHit) (lost : Bool) :
    (s.woutSent d r t j hits lost).sansMoves = s.sansMoves := by
  unfold State.woutSent
  dsimp only
  split
  · exact moves_touches ..
  · split
    · exact (moves_of_report (Reported.ceErr ..).frame).trans (moves_touches ..)
    · exact moves_touches s d r.idx _ false

theorem moves_takeArrival (s : State) (d port dest c : Nat) : (s.takeArrival d port dest c).1.sansMoves = s.sansMoves := by
  obtain ⟨l, hl⟩ := takeArrival_frame s d port dest c
  rw [hl]
  rfl

theorem takeArrival_flit (s : State) (d : Nat) (r : Desc) (t : Nat) : (s.takeArrival d r.cPort 16 t).2 = (s.slotFlit d r t).map fun q => q.lines := by
  unfold State.takeArrival State.slotFlit
  split <;> rename_i h <;> rw [h] <;> rfl

section
variable {s : State} (d : Nat) {r : Desc} (t j : Nat) (hits : List EccHit) (lost : Bool)

theorem ceItem_edin (hop : r.op = 1) : s.ceItem d r t j hits lost =
    ((s.edinTaken d r t lost).touches d r.idx [r.cAddr + 128 * j] true).ceWrite d (t + 3) (r.cAddr + 128 * j) r.cCmb
      (((s.edgeFlit d r t).map fun f => f.flit.lines).getD (noData 4)) lost (badWords hits 0 4) := by
  unfold State.ceItem
  rw [hop]
  rfl

theorem ceItem_edout (hop : r.op = 2) : s.ceItem d r t j hits lost = s.edoutSent d r t j hits lost := by
  unfold State.ceItem
  rw [hop]
  rfl

theorem ceItem_wout (hop : r.op = 4) : s.ceItem d r t j hits lost = s.woutSent d r t j hits lost := by
  unfold State.ceItem
  rw [hop]
  rfl

/-- An item writes what Table 8-5 says, and its other effects are flits and reports. -/
theorem ceItem_wrote (hces : swf ceZero s.ces = true) (r : Desc) :
    Wrote d (s.itemWrites d r t j hits lost (s.itemUnits d r)) s (s.ceItem d r t j hits lost) := by
  unfold State.ceItem
  split
  case h_1 hop =>
    simp only [State.itemWrites, hop, Nat.reduceEqDiff, if_true, if_false]
    exact .lines ((moves_touches ..).trans (moves_edinTaken s d r t lost)) hces ..
  case h_2 hop =>
    simp only [State.itemWrites, hop, Nat.reduceEqDiff, if_false]
    exact .of_moves (moves_edoutSent s d r t j hits lost)
  case h_3 hop =>
    simp only [State.itemWrites, hop, Nat.reduceEqDiff, if_true, if_false, ite_not, ← takeArrival_flit]
    split
    · exact .lines ((moves_touches ..).trans (moves_takeArrival ..)) hces ..
    · exact .of_moves rfl
  case h_4 hop =>
    simp only [State.itemWrites, hop, Nat.reduceEqDiff, if_false]
    exact .of_moves (moves_woutSent s d r t j hits lost)
  case h_5 hop =>
    simp only [State.itemWrites, hop, Nat.reduceEqDiff, if_true, if_false]
    split
    · have hm := moves_touches_twice s d r.idx ((List.range 16).map fun k => r.cAddr2 + 2048 * j + 128 * k)
        ((List.range 16).map fun k => r.cAddr + 2048 * j + 128 * k) false true
      rw [State.operand, ← blines_of_moves hm]
      exact .lines hm hces ..
    · have hm := moves_touches_twice s d r.idx [r.cAddr2 / 128 * 128 + 128 * j] [r.cAddr + 128 * j] false true
      rw [State.operand, ← blines_of_moves hm]
      exact .lines hm hces ..
  case h_6 hop =>
    simp only [State.itemWrites, hop, Nat.reduceEqDiff, if_true, if_false]
    cases lost <;> exact .byte (moves_touches_twice ..) hces ..
  case h_7 hop =>
    simp only [State.itemWrites, hop, Nat.reduceEqDiff, if_true, if_false]
    refine .lines ((moves_of_report (Reported.ite (.ceErr ..) (.refl _)).frame).trans ?_) hces ..
    exact moves_touches_twice ..
  case h_8 hop =>
    simp only [State.itemWrites, hop, Nat.reduceEqDiff, if_true, if_false]
    exact .lines (moves_touches_twice ..) hces ..
  case h_9 hop =>
    simp only [State.itemWrites, hop, Nat.reduceEqDiff, if_true, if_false]
    exact .lines (moves_touches_twice ..) hces ..
  case h_10 h1 h2 h3 h4 h5 h6 h7 h8 h9 =>
    have hno : s.itemWrites d r t j hits lost (s.itemUnits d r) = [] := by
      simp only [State.itemWrites]
      rw [if_neg h1, if_neg h3, if_neg h5, if_neg h6, if_neg h7, if_neg h8, if_neg h9]
    rw [hno]
    exact .of_moves rfl

end

/-! The item whose turn it is (R276, R277). -/

/-- The state in which an item is handled in cycle `c`: what was due has landed. -/
def State.itemDue (s : State) (d c : Nat) : State := ((s.toCc c).settleDie d c).ceSettle d c

section
variable (f : State) (d c : Nat) (r : Desc)

/-- Whether the item loses to those of a lower index, and the ones it displaces. -/
def State.itemClash : Bool × List CeUse := ceClash (f.ce d).uses c (f.ceCost d r) r.idx

/-- The engine with the item counted and the use of its port and units kept. -/
def State.itemCounted : Ce :=
  { f.ce d with
    running := (f.ce d).running.map fun q => if q = r then { r with j := r.j + 1 } else q
    lastDone := max (f.ce d).lastDone c
    uses := (f.ce d).uses ++ if (f.itemClash d c r).1 then [] else
      [⟨c + (f.ceCost d r).2.2.2, (f.ceCost d r).1, 0, 0, r.idx⟩, ⟨c, none, (f.ceCost d r).2.1, (f.ceCost d r).2.2.1, r.idx⟩] }

/-- The state in which the item acts: a lost one is reported, and so are the errors that its reads meet. -/
def State.itemActs (hits : List EccHit) : State :=
  let u := f.setCe d (f.itemCounted d c r)
  (if (f.itemClash d c r).1 then u.ceErr d r.idx 2 none else u).bufHits d hits

theorem itemActs_reported (hits : List EccHit) : Reported (f.setCe d (f.itemCounted d c r)) (f.itemActs d c r hits) :=
  .trans (.ite (.ceErr ..) (.refl _)) (.bufHits ..)

end

/-- The item acts where it displaces no other. -/
theorem exec_ceItem {s : State} {d : Nat} {r : Desc} (hok : s.ceOk d = true) (ha : (s.ce d).abort = false) (hr : nextItem (s.ce d).running = some r)
    (hits : List EccHit) (hnone : ((s.itemDue d (r.cAt r.j)).itemClash d (r.cAt r.j) r).2 = []) :
    exec (.ceItem d hits) s = .next (((s.itemDue d (r.cAt r.j)).itemActs d (r.cAt r.j) r hits).ceItem d r (r.cAt r.j) r.j hits
      ((s.itemDue d (r.cAt r.j)).itemClash d (r.cAt r.j) r).1) := by
  refine congrArg Host.Outcome.next ((if_pos (by rw [hok, ha]; rfl)).trans ?_)
  unfold State.ceNext
  rw [hr]
  simp only [State.itemActs, State.itemCounted]
  unfold State.itemClash State.itemDue at *
  generalize ((s.toCc (r.cAt r.j)).settleDie d (r.cAt r.j)).ceSettle d (r.cAt r.j) = f at *
  generalize ceClash (f.ce d).uses (r.cAt r.j) (f.ceCost d r) r.idx = cl at *
  obtain ⟨lost, gone⟩ := cl
  obtain rfl : gone = [] := hnone
  have hall (l : List CeUse) : (l.filter fun u => !([] : List CeUse).contains u) = l := List.filter_eq_self.mpr fun _ _ => rfl
  simp only [hall]
  cases lost <;> rfl

/-! What the item finds in its cycle. -/

section
variable {s : State} {d : Nat} {r : Desc} (t j : Nat) (hits : List EccHit) (lost : Bool)

theorem edges_edin (hop : r.op = 1) : (s.ceItem d r t j hits lost).edges =
    if lost then s.edges else s.edges.filter fun q => decide (s.edgeFlit d r t ≠ some q) := by
  have htaken : (s.ceItem d r t j hits lost).edges = (s.edinTaken d r t lost).edges := by
    rw [ceItem_edin d t j hits lost hop]
    change ((s.edinTaken d r t lost).touches d r.idx [r.cAddr + 128 * j] true).edges = _
    exact edges_of_report (Reported.touches ..).frame
  rw [htaken, State.edinTaken]
  cases lost
  · cases hflit : s.edgeFlit d r t with
    | some q =>
      refine List.filter_congr fun x _ => ?_
      simp [eq_comm]
    | none => exact (edges_of_report (sansReport_edgeEvent ..)).trans (List.filter_eq_self.mpr fun _ _ => rfl).symm
  · split <;> rfl

theorem mesh_edout (hop : r.op = 2) : (s.ceItem d r t j hits lost).mesh = if lost then s.mesh
    else s.mesh ++ [⟨d, (edgeNode r.cEp).1, (edgeNode r.cEp).2, t + 2, ⟨s.operand d hits 0 (r.cAddr + 128 * j) 4⟩, some true⟩] := by
  have htouched : (s.touches d r.idx [r.cAddr + 128 * j] false).mesh = s.mesh := mesh_of_report (Reported.touches ..).frame
  rw [ceItem_edout d t j hits lost hop]
  cases lost
  · exact congrArg (· ++ _) htouched
  · exact htouched

theorem offers_wout (hop : r.op = 4) : (s.ceItem d r t j hits lost).offers = if lost = false ∧ (s.slotPlan d r.cPort (t + 2)).1 = 16
    then s.offers ++ [⟨d, r.cPort, 16, t + 2, s.operand d hits 0 (r.cAddr + j * s.itemUnits d r * 128) (4 * s.itemUnits d r), r.idx⟩] else s.offers := by
  rw [ceItem_wout d t j hits lost hop, State.woutSent]
  have hrep := (Reported.touches s d r.idx ((List.range (s.itemUnits d r)).map fun k => r.cAddr + j * s.itemUnits d r * 128 + 128 * k) false).frame
  generalize s.touches d r.idx ((List.range (s.itemUnits d r)).map fun k => r.cAddr + j * s.itemUnits d r * 128 + 128 * k) false = u at *
  have hplan : u.slotPlan d r.cPort (t + 2) = s.slotPlan d r.cPort (t + 2) := (congrArg (State.slotPlan · d r.cPort (t + 2)) hrep :)
  rw [hplan]
  cases lost
  · by_cases hslot : (s.slotPlan d r.cPort (t + 2)).1 = 16
    · simp [hslot, offers_of_report hrep]
    · simp [hslot, (offers_of_report (Reported.ceErr u d r.idx 2 none).frame).trans (offers_of_report hrep)]
  · simp [offers_of_report hrep]

end

/-- The state but for what reports write and the engines. -/
def State.sansEngine (s : State) : State := { s with regs := [], pages := [], flt := {}, ces := [] }

section
variable (f : State) (d c : Nat) (r : Desc) (hits : List EccHit)

/-- Booking the item and reporting touch no flit, no plan and no line of the buffer. -/
theorem itemActs_frame : (f.itemActs d c r hits).sansEngine = f.sansEngine := (congrArg State.sansEngine (itemActs_reported f d c r hits).frame :)

theorem itemActs_units (w : Wf f) : (f.itemActs d c r hits).itemUnits d r = f.itemUnits d r :=
  congrArg (· / 4) ((itemActs_reported f d c r hits).flitLines ((kept_setCe (Kept.refl f) ..).wf w) (wlPg d r.cPort))

theorem itemActs_ces : (f.itemActs d c r hits).ces = (f.setCe d (f.itemCounted d c r)).ces :=
  (congrArg State.ces (itemActs_reported f d c r hits).frame :)

/-- What item `r` has done in cycle `c`, in the terms of the state `f` in which that cycle's landings stand. -/
structure State.itemDone (lost : Bool) (t : State) : Prop where
  wrote : Wrote d (f.itemWrites d r c r.j hits lost (f.itemUnits d r)) (f.setCe d (f.itemCounted d c r)) t
  edges : r.op = 1 → t.edges = if lost then f.edges else f.edges.filter fun q => decide (f.edgeFlit d r c ≠ some q)
  mesh : r.op = 2 → t.mesh = if lost then f.mesh
    else f.mesh ++ [⟨d, (edgeNode r.cEp).1, (edgeNode r.cEp).2, c + 2, ⟨f.operand d hits 0 (r.cAddr + 128 * r.j) 4⟩, some true⟩]
  offers : r.op = 4 → t.offers = if lost = false ∧ (f.slotPlan d r.cPort (c + 2)).1 = 16
    then f.offers ++ [⟨d, r.cPort, 16, c + 2, f.operand d hits 0 (r.cAddr + r.j * f.itemUnits d r * 128) (4 * f.itemUnits d r), r.idx⟩] else f.offers

theorem item_spec (w : Wf f) (lost : Bool) : f.itemDone d c r hits lost ((f.itemActs d c r hits).ceItem d r c r.j hits lost) := by
  have hframe := itemActs_frame f d c r hits
  have hunits := itemActs_units f d c r hits w
  have hrep := (itemActs_reported f d c r hits).frame
  have hces : swf ceZero (f.itemActs d c r hits).ces = true := itemActs_ces f d c r hits ▸ ((kept_setCe (Kept.refl f) ..).wf w).ces
  generalize f.itemActs d c r hits = u at *
  have hwrites (n : Nat) : u.itemWrites d r c r.j hits lost n = f.itemWrites d r c r.j hits lost n :=
    (congrArg (fun v : State => v.itemWrites d r c r.j hits lost n) hframe :)
  have hoperand (a k : Nat) : u.operand d hits 0 a k = f.operand d hits 0 a k := (congrArg (fun v : State => v.operand d hits 0 a k) hframe :)
  have hedges : u.edges = f.edges := (congrArg State.edges hframe :)
  have hflit : u.edgeFlit d r c = f.edgeFlit d r c := (congrArg (fun v : State => v.edgeFlit d r c) hframe :)
  have hmesh : u.mesh = f.mesh := (congrArg State.mesh hframe :)
  have hoffers : u.offers = f.offers := (congrArg State.offers hframe :)
  have hplan : u.slotPlan d r.cPort (c + 2) = f.slotPlan d r.cPort (c + 2) := (congrArg (State.slotPlan · d r.cPort (c + 2)) hframe :)
  refine ⟨?_, fun hop => ?_, fun hop => ?_, fun hop => ?_⟩
  · rw [← hunits, ← hwrites]
    exact (ceItem_wrote d c r.j hits lost hces r).of_report hrep
  · rw [← hedges, ← hflit]
    exact edges_edin c r.j hits lost hop
  · rw [← hmesh, ← hoperand]
    exact mesh_edout c r.j hits lost hop
  · rw [← hoffers, ← hplan, ← hoperand, ← hunits]
    exact offers_wout c r.j hits lost hop

end

theorem tiles_of_ce {s t : State} (h : t.sansCe = s.sansCe) : t.tiles = s.tiles := (congrArg State.tiles h :)

section
variable {f : State} {d c : Nat} {r : Desc} {hits : List EccHit} {lost : Bool} {t : State} (h : f.itemDone d c r hits lost t)
include h

theorem State.itemDone.clk : t.clk = f.clk := h.wrote.clk
theorem State.itemDone.tiles : t.tiles = f.tiles := h.wrote.tiles
theorem State.itemDone.hbm : t.hbm = f.hbm := h.wrote.hbm
theorem State.itemDone.cbuf : t.cbuf = f.cbuf := h.wrote.cbuf

theorem State.itemDone.ce (w : Wf f) : t.ce d = (f.itemCounted d c r).writing (f.itemWrites d r c r.j hits lost (f.itemUnits d r)) :=
  h.wrote.ce.trans (congrArg (Ce.writing · _) (ce_setCe_self w d _))

end

/-- Time and tiles in an item's cycle. -/
theorem itemDue_frame (s : State) (d c : Nat) : (s.itemDue d c).clk = (s.toCc c).clk ∧ (s.itemDue d c).tiles = s.tiles := by
  have hwork : ((s.toCc c).settleDie d c).sansWork = (s.toCc c).sansWork := sansWork_settleDie ..
  have hland : (s.itemDue d c).sansCe = ((s.toCc c).settleDie d c).sansCe := sansCe_ceSettle ..
  exact ⟨(clk_of_ce hland).trans (clk_of_work hwork),
    (tiles_of_ce hland).trans ((tiles_of_work hwork).trans (congrArg State.tiles (toCc_clk s c) :))⟩

/-- The item's command does it. -/
theorem ceItem_spec {s : State} {d : Nat} {r : Desc} (w : Wf s) (hok : s.ceOk d = true) (ha : (s.ce d).abort = false)
    (hr : nextItem (s.ce d).running = some r) (hits : List EccHit) (hnone : ((s.itemDue d (r.cAt r.j)).itemClash d (r.cAt r.j) r).2 = []) :
    ∃ t, exec (.ceItem d hits) s = .next t ∧
      (s.itemDue d (r.cAt r.j)).itemDone d (r.cAt r.j) r hits ((s.itemDue d (r.cAt r.j)).itemClash d (r.cAt r.j) r).1 t :=
  ⟨_, exec_ceItem hok ha hr hits hnone, item_spec _ _ _ _ _ ((kept_ceSettle (kept_settleDie (kept_toCc (Kept.refl s) _) ..) ..).wf w) _⟩

/-- Settles O44: the item's own writes and flits are read off the state in which it acts, where its cycle's landings stand. -/
theorem collectiveItems : Obligations.CollectiveItems := by
  unfold Obligations.CollectiveItems
  intro s d r hits w hok ha hr j c f x cost n grid cl bad get write edge flit block ws run hnone
  have wf : Wf f := (kept_ceSettle (kept_settleDie (kept_toCc (Kept.refl s) c) d c) d c).wf w
  obtain ⟨hclk, htiles⟩ : f.clk = (s.toCc c).clk ∧ f.tiles = s.tiles := itemDue_frame s d c
  obtain ⟨t, hexec, hdone⟩ : ∃ t, exec (.ceItem d hits) s = .next t ∧ f.itemDone d c r hits cl.1 t := ceItem_spec w hok ha hr hits hnone
  refine ⟨t, hexec, hdone.clk.trans hclk, hdone.tiles.trans htiles, hdone.hbm, hdone.cbuf, ?_, hdone.edges, hdone.mesh, hdone.offers⟩
  clear_value f
  exact hdone.ce wf

end Sys2Proof.Machine
end

section
/-! SUPPORT. The Seber slots of the X port (O45). -/

namespace Sys2Proof.Machine
open Sys2Proof

/-! The present enabled cycle (R192). -/

/-- The last CCLK cycle before `f * n + r` cycles are enabled has enabled fewer. -/
theorem enabledIn_before {n f r : Nat} (hn : 0 < n) (hr : 0 < r) (hrn : r ≤ n) : enabledIn n (f * 64 + (r * 64 + n - 1) / n - 1) < f * n + r := by
  have hdiv := Nat.div_mul_le_self (r * 64 + n - 1) n
  have hpos : 0 < (r * 64 + n - 1) / n := Nat.div_pos (by omega) hn
  generalize (r * 64 + n - 1) / n = q at *
  obtain ⟨y, rfl⟩ : ∃ y, q = y + 1 := ⟨q - 1, by omega⟩
  have hlow : y * n < 64 * r := by
    rw [Nat.add_mul] at hdiv
    omega
  have hy : y ≤ 64 := by
    have hlt : n * y < n * 65 := by nlinarith
    exact Nat.lt_succ_iff.mp (Nat.lt_of_mul_lt_mul_left hlt)
  rw [show f * 64 + (y + 1) - 1 = 64 * f + y by omega, enabledIn_frames, enabledIn_frame n hy]
  exact Nat.add_lt_add_left (by omega) _

/-- The wait for the present cycle to be enabled does not pass it. -/
theorem toCc_present (s : State) : (s.toCc s.clk.cc).clk.cc = s.clk.cc := by
  by_cases hnow : s.clk.cc < s.clk.cc ∨ s.clk.cc = s.clk.cc ∧ s.clk.live = true
  · rw [toCc_of_reached hnow]
  by_cases hn : s.clk.n = 0
  · rw [toCc_stopped hn hnow]
    simp [State.passSlots, Clock.pass]
  rw [toCc_of_not_reached hnow, Nat.add_sub_cancel_left]
  have hpos := Nat.pos_of_ne_zero hn
  have hmod := Nat.mod_lt (enabledIn s.clk.n s.clk.j) hpos
  have hdiv := Nat.div_add_mod' (enabledIn s.clk.n s.clk.j) s.clk.n
  have hbefore := enabledIn_before (f := enabledIn s.clk.n s.clk.j / s.clk.n) (r := enabledIn s.clk.n s.clk.j % s.clk.n + 1) hpos (by omega) hmod
  have hwait : s.clk.forEnabled 1 =
      enabledIn s.clk.n s.clk.j / s.clk.n * 64 + ((enabledIn s.clk.n s.clk.j % s.clk.n + 1) * 64 + s.clk.n - 1) / s.clk.n - s.clk.j := by
    have hrest : enabledIn s.clk.n s.clk.j + 1 - enabledIn s.clk.n s.clk.j / s.clk.n * s.clk.n = enabledIn s.clk.n s.clk.j % s.clk.n + 1 := by omega
    simp [Clock.forEnabled, hn, hrest]
  change s.clk.cc + (enabledIn s.clk.n (s.clk.j + (s.clk.forEnabled 1 - 1)) - enabledIn s.clk.n s.clk.j) = s.clk.cc
  generalize enabledIn s.clk.n s.clk.j / s.clk.n * 64 + ((enabledIn s.clk.n s.clk.j % s.clk.n + 1) * 64 + s.clk.n - 1) / s.clk.n = k at *
  obtain hk | hk : s.clk.j + (s.clk.forEnabled 1 - 1) = k - 1 ∨ s.clk.j + (s.clk.forEnabled 1 - 1) = s.clk.j := by omega
  · rw [hk]
    omega
  · rw [hk, Nat.sub_self, Nat.add_zero]

/-! The state in which a slot of the present cycle is served. -/

/-- The static writes due by cycle `c` have landed. -/
def State.atSlot (s : State) (d c : Nat) : State := (s.toCc s.clk.cc).ceSettle d c

section
variable (s : State) (d c : Nat)

theorem atSlot_frame : { s.atSlot d c with clk := s.clk, ces := s.ces, cbuf := s.cbuf } = s := by
  have h : (s.atSlot d c).sansCe = (s.toCc s.clk.cc).sansCe := sansCe_ceSettle ..
  have hclk : (s.toCc s.clk.cc).sansCe = { s.sansCe with clk := (s.toCc s.clk.cc).clk } := by
    conv_lhs => rw [toCc_clk]
    rfl
  exact (congrArg (fun t : State => { t with clk := s.clk, ces := s.ces, cbuf := s.cbuf }) (h.trans hclk) :)

theorem atSlot_cc : (s.atSlot d c).clk.cc = s.clk.cc := (congrArg Clock.cc (clk_of_ce (sansCe_ceSettle ..))).trans (toCc_present s)
theorem atSlot_wle (p : Nat) : (s.atSlot d c).wle p = s.wle p := (congrArg (State.wle · p) (atSlot_frame s d c) :)
theorem atSlot_rd (p : Nat) (g : Fld) : (s.atSlot d c).rd p g = s.rd p g := (congrArg (State.rd · p g) (atSlot_frame s d c) :)
theorem atSlot_tiles : (s.atSlot d c).tiles = s.tiles := (congrArg State.tiles (atSlot_frame s d c) :)
theorem atSlot_portAlive (p : Nat) : (s.atSlot d c).portAlive p = s.portAlive p := (congrArg (State.portAlive · p) (atSlot_frame s d c) :)
theorem wf_atSlot {s : State} (w : Wf s) (d c : Nat) : Wf (s.atSlot d c) := (kept_ceSettle (kept_toCc (Kept.refl s) _) ..).wf w

end

/-! The transmit slot (R284, R338). -/

/-- The payload that a send hands over next; `bad` are the uncorrectable words of its 256 bytes. -/
def State.payloadOf (s : State) (d : Nat) (v : CeSend) (bad : List Nat) : PTag :=
  let ls := readBad bad (s.blines d (v.addr + 256 * v.next) 8)
  ⟨v.pkg, v.next, decide (v.next + 1 = v.count), ls.any FLine.poi, ls⟩

/-- The state but for what handing payloads over writes. -/
def State.sansDrawn (s : State) : State := { s with regs := [], pages := [], flt := {}, osd := [], ces := [] }

/-- From `s` to `t` the engine has handed `n` payloads over. -/
structure Drawn (d n : Nat) (s t : State) : Prop where
  kept : Kept s t
  frame : t.sansDrawn = s.sansDrawn
  count : Wf s → t.rd (cePg d) R.CE_TX_BYTES =
    if n = 0 then s.rd (cePg d) R.CE_TX_BYTES else (s.rd (cePg d) R.CE_TX_BYTES + 256 * n) % 2 ^ R.CE_TX_BYTES.w

/-- An event counted spares every field that is no event counter. -/
theorem spares_evtOpt {q : Nat} {g : Fld} (h : ∀ k, k < 16 → g.apart [Fld.idx R.OS_EVT_CNT k] = true) (s : State) (d : Nat) (e : Option Nat) :
    Spares q g s (s.evtOpt d e) := by
  cases e with
  | none => exact .refl ..
  | some c =>
    obtain ⟨x, hx⟩ := evtAdd_eq s d c 1
    rw [State.evtOpt, hx]
    refine .trans ?_ (spares_condNote ..)
    exact .trans (t := s.setOd d x) (.of_regs (kept_setOd (Kept.refl s) ..) rfl) (.wr (h _ (Nat.mod_lt _ (by decide))) List.mem_cons_self _ _ _)

namespace Drawn
variable {d n : Nat} {s t u : State}

theorem refl (d : Nat) (s : State) : Drawn d 0 s s := ⟨Kept.refl s, rfl, fun _ => (if_pos rfl).symm⟩

theorem trans (h : Drawn d 1 s t) (k : Drawn d n t u) : Drawn d (n + 1) s u where
  kept := h.kept.trans k.kept
  frame := k.frame.trans h.frame
  count := fun w => by
    have hone : t.rd (cePg d) R.CE_TX_BYTES = (s.rd (cePg d) R.CE_TX_BYTES + 256) % 2 ^ R.CE_TX_BYTES.w := h.count w
    rw [k.count (h.kept.wf w), hone, if_neg (Nat.succ_ne_zero n)]
    split
    · next hn => rw [hn]
    · rw [Nat.mod_add_mod]
      congr 1
      omega

/-- One payload: the engine moves on, its bytes count, and a complete send counts its event (R281). -/
theorem one (s : State) (d : Nat) (x : Ce) (done : Bool) (e : Option Nat) :
    let t := (s.setCe d x).addWrap (cePg d) R.CE_TX_BYTES 256
    Drawn d 1 s (if done then t.evtOpt d e else t) := by
  intro t
  have hcount : Wf s → t.rd (cePg d) R.CE_TX_BYTES = (s.rd (cePg d) R.CE_TX_BYTES + 256 * 1) % 2 ^ R.CE_TX_BYTES.w :=
    fun w => rd_wr_self ((kept_setCe (Kept.refl s) d x).wf w) ..
  have hkept : Kept s t := kept_addWrap (kept_setCe (Kept.refl s) d x) ..
  cases done
  · exact ⟨hkept, rfl, hcount⟩
  · refine ⟨kept_evtOpt hkept .., ((congrArg State.sansDrawn (sansNote_evtOpt t d e) :).trans rfl), fun w => ?_⟩
    exact ((spares_evtOpt (by decide) t d e).rd (hkept.wf w)).trans (hcount w)

end Drawn

section
variable {s : State} {d : Nat} {ok : Ce → CeSend → Bool} {bad : List Nat}

theorem drawPayload_none (h : rrNext (s.ce d).served ((s.ce d).sends.filter (ok (s.ce d))) = none) : s.drawPayload d ok bad = (s, none) := by
  unfold State.drawPayload
  dsimp only
  rw [h]

theorem drawPayload_some {v : CeSend} (h : rrNext (s.ce d).served ((s.ce d).sends.filter (ok (s.ce d))) = some v) :
    ∃ t, s.drawPayload d ok bad = (t, some (s.payloadOf d v bad)) ∧ Drawn d 1 s t := by
  unfold State.drawPayload
  dsimp only
  rw [h]
  exact ⟨_, rfl, Drawn.one ..⟩

end

/-- The send whose turn it is (R284). -/
def State.turn (s : State) (d : Nat) : Option CeSend := rrNext (s.ce d).served ((s.ce d).sends.filter (s.sendable d (s.ce d)))

section
variable {s : State} {d : Nat} {hits : List EccHit}

theorem drawPayloads_none (h : s.turn d = none) (n k : Nat) : s.drawPayloads d hits n k = (s, []) := by
  cases n with
  | zero => rfl
  | succ n =>
    unfold State.drawPayloads
    rw [drawPayload_none h]

theorem drawPayloads_some {v : CeSend} (h : s.turn d = some v) (n k : Nat) : ∃ t, Drawn d 1 s t ∧ s.drawPayloads d hits (n + 1) k =
    ((t.drawPayloads d hits n (k + 1)).1, s.payloadOf d v (badWords hits (8 * k) 8) :: (t.drawPayloads d hits n (k + 1)).2) := by
  obtain ⟨t, ht, hdrawn⟩ := drawPayload_some (bad := badWords hits (8 * k) 8) h
  refine ⟨t, hdrawn, ?_⟩
  conv_lhs => unfold State.drawPayloads
  rw [ht]

/-- A slot's flit carries no more payloads than it has places, and each one counts. -/
theorem drawPayloads_drawn (s : State) (d : Nat) (hits : List EccHit) (n k : Nat) :
    (s.drawPayloads d hits n k).2.length ≤ n ∧ Drawn d (s.drawPayloads d hits n k).2.length s (s.drawPayloads d hits n k).1 := by
  induction n generalizing s k with
  | zero => exact ⟨le_rfl, .refl d s⟩
  | succ n ih =>
    cases h : s.turn d with
    | none =>
      rw [drawPayloads_none h]
      exact ⟨Nat.zero_le _, .refl d s⟩
    | some v =>
      obtain ⟨t, hdrawn, heq⟩ := drawPayloads_some (hits := hits) h n k
      obtain ⟨hlen, hrest⟩ := ih t (k + 1)
      rw [heq]
      exact ⟨Nat.succ_le_succ hlen, hdrawn.trans hrest⟩

end

/-- A flit that leaves the X port of an Osier die: it carries the credit that is owed (R338). -/
theorem toWire_xport {s : State} (w : Wf s) {d : Nat} (hd : d < 8) {f : WireFlit} (hcyc : f.cyc = true) (hk : f.kind ≠ .train) (hccl : f.ccl = 0) :
    ((s.toWire (wlPg d 3) f).wle (pg (8 + d) 0x40)).wire =
      (s.wle (pg (8 + d) 0x40)).wire ++ [{ f with credit := decide (0 < (s.wle (wlPg d 3)).owed) }] ∧
    (s.toWire (wlPg d 3) f).wle (wlPg d 3) = { s.wle (wlPg d 3) with owed := (s.wle (wlPg d 3)).owed - 1, sent := some f.cc } := by
  have hport : ∀ d, d < 8 →
      walePeer (wlPg d 3) = some (pg (8 + d) 0x40) ∧ isWeft (dieOf (pg (8 + d) 0x40)) = true ∧ pg (8 + d) 0x40 ≠ wlPg d 3 := by decide
  obtain ⟨hpeer, hweft, hne⟩ := hport d hd
  have w1 (x : WlEnd) : Wf (s.setWle (wlPg d 3) x) := (kept_setWle (Kept.refl s) ..).wf w
  have howed : (if decide (0 < (s.wle (wlPg d 3)).owed) then (s.wle (wlPg d 3)).owed - 1 else (s.wle (wlPg d 3)).owed) =
      (s.wle (wlPg d 3)).owed - 1 := by
    split
    · rfl
    · next h => simp at h; omega
  unfold State.toWire
  simp only [hpeer, hweft, hcyc, decide_eq_true hk, Bool.true_and, Bool.and_true, Bool.not_true, Bool.and_false,
    Bool.false_eq_true, if_true, if_false, howed]
  refine ⟨?_, ?_⟩
  · rw [wle_setWle_self (w1 _), wle_setWle_ne w hne, ← hccl]
  · rw [wle_setWle_ne (w1 _) hne.symm, wle_setWle_self w]

/-! What reports leave of the choice of a send. -/

namespace Reported
variable {s t : State} (h : Reported s t) (w : Wf s)
include h w

theorem direct (d q : Nat) : t.direct d q = s.direct d q := by
  unfold State.direct State.pathOf State.pkgId
  rw [(h.spares pkg0 R.PKG_IDENT_PKG_ID (by decide)).rd w, (h.spares (sbPg d) R.SB_COM_CTRL_CLUSTER (by decide)).bit w]

theorem turn (d : Nat) : t.turn d = s.turn d := by
  have hce : t.ce d = s.ce d := (congrArg (State.ce · d) h.frame :)
  have hsend : t.sendable d = s.sendable d := by
    funext x v
    unfold State.sendable
    rw [h.direct w, wle_of_report h.frame]
  unfold State.turn
  rw [hce, hsend]

end Reported

theorem Reported.payloadOf {s t : State} (h : Reported s t) (d : Nat) (v : CeSend) (bad : List Nat) : t.payloadOf d v bad = s.payloadOf d v bad :=
  (congrArg (fun u : State => u.payloadOf d v bad) h.frame :)

/-- The payloads that a transmit slot draws, none while the engine aborts (R296). -/
def State.slotDraw (e : State) (d : Nat) (hits : List EccHit) : State × List PTag :=
  if (e.ce d).abort then (e, []) else (e.bufHits d hits).drawPayloads d hits (e.flitPayloads d) 0

/-- The send that a transmit slot serves first. -/
def State.slotTurn (e : State) (d : Nat) : Option CeSend := if (e.ce d).abort then none else e.turn d

section
variable {e : State} (d : Nat) (hits : List EccHit)

theorem slotDraw_none (w : Wf e) (h : e.slotTurn d = none) : (e.slotDraw d hits).2 = [] := by
  unfold State.slotDraw State.slotTurn at *
  split
  · rfl
  · next ha =>
    rw [if_neg ha] at h
    rw [drawPayloads_none (((Reported.bufHits e d hits).turn w d).trans h)]

theorem slotDraw_some (w : Wf e) {v : CeSend} (h : e.slotTurn d = some v) :
    (e.slotDraw d hits).2.head? = some (e.payloadOf d v (badWords hits 0 8)) := by
  unfold State.slotDraw State.slotTurn at *
  split
  · next ha => rw [if_pos ha] at h; exact nomatch h
  · next ha =>
    rw [if_neg ha] at h
    obtain ⟨n, hn⟩ : ∃ n, e.flitPayloads d = n + 1 := by
      unfold State.flitPayloads
      split
      · exact ⟨1, rfl⟩
      · exact ⟨4, rfl⟩
    obtain ⟨t, -, heq⟩ := drawPayloads_some (hits := hits) (((Reported.bufHits e d hits).turn w d).trans h) n 0
    rw [hn, heq]
    exact congrArg some ((Reported.bufHits e d hits).payloadOf ..)

theorem slotDraw_drawn : (e.slotDraw d hits).2.length ≤ e.flitPayloads d ∧ Drawn d (e.slotDraw d hits).2.length e (e.slotDraw d hits).1 := by
  unfold State.slotDraw
  split
  · exact ⟨Nat.zero_le _, .refl d e⟩
  · have hrep := Reported.bufHits e d hits
    obtain ⟨hlen, hkept, hframe, hcount⟩ := drawPayloads_drawn (e.bufHits d hits) d hits (e.flitPayloads d) 0
    have hstart : Kept e (e.bufHits d hits) := (hrep.spares 0 R.CE_TX_BYTES (by decide)).kept
    refine ⟨hlen, hstart.trans hkept, hframe.trans (congrArg State.sansDrawn hrep.frame :), fun w => ?_⟩
    rw [hcount (hstart.wf w), (hrep.spares _ R.CE_TX_BYTES (by decide)).rd w]

end

/-- The flit of a transmit slot of cycle `c`. -/
def slotOf (c : Nat) (tags : List PTag) : WireFlit := { kind := if tags.isEmpty then .null else .prog, cyc := true, cc := c, tags := tags }

theorem exec_transmit {s : State} {d : Nat} (hok : s.ceOk d = true)
    (hlive : s.portAlive (wlPg d 3) = true) (hsent : (s.wle (wlPg d 3)).sent ≠ some s.clk.cc)
    (hplan : (s.slotPlan d 3 s.clk.cc).1 = 16) (hits : List EccHit) :
    exec (.seberTransmitSlot d hits) s = .next (((s.atSlot d s.clk.cc).slotDraw d hits).1.toWire (wlPg d 3)
      (slotOf s.clk.cc ((s.atSlot d s.clk.cc).slotDraw d hits).2)) := by
  have hgo : (s.ceOk d && s.portAlive (wlPg d 3) && s.slotFree (wlPg d 3) && decide ((s.slotPlan d 3 s.clk.cc).1 = 16)) = true := by
    rw [hok, hlive, hplan, State.slotFree, decide_eq_true hsent]
    rfl
  exact congrArg Host.Outcome.next ((if_pos hgo).trans (congrArg (fun c => ((s.atSlot d s.clk.cc).slotDraw d hits).1.toWire (wlPg d 3)
    (slotOf c ((s.atSlot d s.clk.cc).slotDraw d hits).2)) (atSlot_cc s d s.clk.cc)))

/-- What a transmit slot leaves (R284, R338). -/
structure State.transmits (e : State) (d c : Nat) (tags : List PTag) (t : State) : Prop where
  clk : t.clk = e.clk
  cbuf : t.cbuf = e.cbuf
  tiles : t.tiles = e.tiles
  wire : (t.wle (pg (8 + d) 0x40)).wire = (e.wle (pg (8 + d) 0x40)).wire ++ [{ slotOf c tags with credit := decide (0 < (e.wle (wlPg d 3)).owed) }]
  port : t.wle (wlPg d 3) = { e.wle (wlPg d 3) with owed := (e.wle (wlPg d 3)).owed - 1, sent := some c }
  bytes : tags ≠ [] → t.rd (cePg d) R.CE_TX_BYTES = (e.rd (cePg d) R.CE_TX_BYTES + 256 * tags.length) % 2 ^ R.CE_TX_BYTES.w

theorem transmits_slotOf {e u : State} (w : Wf e) {d : Nat} (hd : d < 8) (c : Nat) {tags : List PTag} (h : Drawn d tags.length e u) :
    e.transmits d c tags (u.toWire (wlPg d 3) (slotOf c tags)) := by
  have hkind : (slotOf c tags).kind ≠ .train := by
    unfold slotOf
    dsimp only
    split <;> exact nofun
  have hwle (p : Nat) : u.wle p = e.wle p := (congrArg (State.wle · p) h.frame :)
  have hwl := sansWl_toWire u (wlPg d 3) (slotOf c tags)
  obtain ⟨hwire, hport⟩ := toWire_xport (h.kept.wf w) hd (f := slotOf c tags) rfl hkind rfl
  rw [hwle, hwle] at hwire
  rw [hwle] at hport
  generalize u.toWire (wlPg d 3) (slotOf c tags) = t at *
  refine ⟨(congrArg State.clk hwl :).trans (congrArg State.clk h.frame :), (congrArg State.cbuf hwl :).trans (congrArg State.cbuf h.frame :),
    (congrArg State.tiles hwl :).trans (congrArg State.tiles h.frame :), hwire, hport, fun hne => ?_⟩
  have hrd : t.rd (cePg d) R.CE_TX_BYTES = u.rd (cePg d) R.CE_TX_BYTES := (congrArg (State.rd · (cePg d) R.CE_TX_BYTES) hwl :)
  rw [hrd, h.count w, if_neg (mt List.length_eq_zero_iff.mp hne)]

/-! The delivery slot (R283, R284, R338). -/

/-- The port end whose delivery slot of cycle `c` is past. -/
def WlEnd.past (x : WlEnd) (c : Nat) : WlEnd := { x with drawn := some c }

/-- The port end past the slot that took the oldest of its flits: a credit is owed. -/
def WlEnd.took (x : WlEnd) (r : List (List PTag)) (c : Nat) : WlEnd := { x with xbuf := r, owed := x.owed + 1, drawn := some c }

/-- What a delivery slot of cycle `c` does in the state in which it is served. -/
def State.deliverSlot (e : State) (d c : Nat) (hits : List EccHit) : State :=
  if decide (e.prog d = stRunning) && !e.portAlive (wlPg d 3) then e.setWle (wlPg d 3) ((e.wle (wlPg d 3)).past c)
  else match (e.wle (wlPg d 3)).xbuf with
    | [] => e.setWle (wlPg d 3) ((e.wle (wlPg d 3)).past c)
    | f :: r => (e.setWle (wlPg d 3) ((e.wle (wlPg d 3)).took r c)).ceTake d hits f

section
variable {e : State} {d : Nat}

theorem deliver_idle (h : (e.wle (wlPg d 3)).xbuf = [] ∨ e.prog d = 2 ∧ e.portAlive (wlPg d 3) = false) (c : Nat) (hits : List EccHit) :
    e.deliverSlot d c hits = e.setWle (wlPg d 3) ((e.wle (wlPg d 3)).past c) := by
  unfold State.deliverSlot
  obtain h | ⟨hrun, hdown⟩ := h
  · rw [h]
    exact ite_self _
  · rw [hrun, hdown]
    rfl

theorem deliver_flit {f : List PTag} {r : List (List PTag)} (hup : e.prog d = 2 → e.portAlive (wlPg d 3) = true)
    (hbuf : (e.wle (wlPg d 3)).xbuf = f :: r) (c : Nat) (hits : List EccHit) :
    e.deliverSlot d c hits = (e.setWle (wlPg d 3) ((e.wle (wlPg d 3)).took r c)).ceTake d hits f := by
  unfold State.deliverSlot
  rw [hbuf]
  refine if_neg fun h => ?_
  obtain ⟨hrun, hdown⟩ := Bool.and_eq_true_iff.mp h
  rw [hup (of_decide_eq_true hrun)] at hdown
  exact nomatch hdown

end

theorem exec_delivery {s : State} {d : Nat} (hok : s.ceOk d = true) (hplan : (s.slotPlan d 3 s.clk.cc).2 = 16)
    (hdrawn : (s.wle (wlPg d 3)).drawn ≠ some s.clk.cc) (hits : List EccHit) :
    exec (.seberDeliverySlot d hits) s = .next ((s.atSlot d (s.clk.cc - 1)).deliverSlot d s.clk.cc hits) := by
  have hgo : (s.ceOk d && decide ((s.wle (wlPg d 3)).drawn ≠ some s.clk.cc) && decide ((s.slotPlan d 3 s.clk.cc).2 = 16)) = true := by
    rw [hok, hplan, decide_eq_true hdrawn]
    rfl
  exact congrArg Host.Outcome.next ((if_pos hgo).trans
    (congrArg (fun c => (s.atSlot d (s.clk.cc - 1)).deliverSlot d c hits) (atSlot_cc s d (s.clk.cc - 1))))

/-! A payload reaches the engine (R282, R283). -/

/-- The engine that has seen a payload: the last one of a message ends it. -/
def Ce.seen (x : Ce) (q : PTag) : Ce :=
  { x with messages := if q.last then put natZero x.messages q.pkg (look natZero x.messages q.pkg + 1) else x.messages }

/-- The receive that has combined a payload. -/
def CeRecv.reached (v : CeRecv) (q : PTag) : CeRecv := { v with got := if v.got.contains q.offset then v.got else v.got ++ [q.offset] }

/-- The state in which the engine has seen a payload. -/
def State.seen (s : State) (d : Nat) (q : PTag) : State := s.setCe d ((s.ce d).seen q)

/-- A payload is combined into its region, line by line; `bad` are the uncorrectable words it is combined with. -/
def State.combined (s : State) (d : Nat) (v : CeRecv) (q : PTag) (bad : List Nat) : State :=
  ((List.range 8).zip (if q.poi then q.lines.map fun l => { l with poi := true } else q.lines)).foldl (fun (g : State) l =>
    g.putBline d (v.addr + 256 * q.offset + 32 * l.1) (combineLine v.cmb l.2
      (lineBad ((bad.filter fun w => decide (w / 4 = l.1)).map (· % 4)) (g.bline d (v.addr + 256 * q.offset + 32 * l.1))))) s

/-- The state in which a payload inside its receive is combined and counted. -/
def State.landed (s : State) (d : Nat) (v : CeRecv) (q : PTag) (bad : List Nat) : State :=
  ((s.seen d q).combined d v q bad).addWrap (cePg d) R.CE_RX_BYTES 256

theorem setCe_ce {s : State} (w : Wf s) (d : Nat) : s.setCe d (s.ce d) = s := congrArg (fun m => { s with ces := m }) (put_look d w.ces)

theorem seen_eq {s : State} (w : Wf s) (d : Nat) (q : PTag) :
    (if q.last then s.setCe d { s.ce d with messages := put natZero (s.ce d).messages q.pkg (look natZero (s.ce d).messages q.pkg + 1) } else s) =
      s.seen d q := by
  unfold State.seen Ce.seen
  split
  · rfl
  · exact (setCe_ce w d).symm

section
variable {s : State} (w : Wf s) {d : Nat} {q : PTag} {v : CeRecv} (bad : List Nat)
include w

theorem landPayload_unmatched (h : (s.ce d).matched q.pkg = none) : s.landPayload d q bad = (s.seen d q).inc (cePg d) R.CE_RX_DROP := by
  unfold State.landPayload
  dsimp only
  rw [h, seen_eq w]

theorem landPayload_beyond (h : (s.ce d).matched q.pkg = some v) (hbeyond : v.count ≤ q.offset) :
    s.landPayload d q bad = ((s.seen d q).inc (cePg d) R.CE_RX_DROP).ceErr d v.idx 7 (some v.rank) := by
  unfold State.landPayload
  dsimp only
  rw [h, seen_eq w]
  exact if_pos hbeyond

/-- A payload that is not the last one of its message. -/
theorem landPayload_more (h : (s.ce d).matched q.pkg = some v) (hin : q.offset < v.count) (hlast : q.last = false) :
    s.landPayload d q bad = (s.landed d v q bad).setCe d { (s.landed d v q bad).ce d with
      recvs := ((s.landed d v q bad).ce d).recvs.map fun u => if u = v then v.reached q else u } := by
  unfold State.landPayload
  dsimp only
  rw [h, seen_eq w]
  exact (if_neg (Nat.not_le.mpr hin)).trans (if_neg (ne_true_of_eq_false hlast))

/-- The last payload of a message completes its receive. -/
theorem landPayload_last (h : (s.ce d).matched q.pkg = some v) (hin : q.offset < v.count) (hlast : q.last = true) :
    let z := (s.landed d v q bad).setCe d { (s.landed d v q bad).ce d with recvs := ((s.landed d v q bad).ce d).recvs.filter (· ≠ v) }
    s.landPayload d q bad =
      (if (v.reached q).got.length < v.count then (z.poisonRest d (v.reached q)).ceErr d v.idx 7 (some v.rank) else z).evtOpt d v.evt := by
  unfold State.landPayload
  dsimp only
  rw [h, seen_eq w]
  exact (if_neg (Nat.not_le.mpr hin)).trans (if_pos hlast)

end

/-! What a payload that lands, or is dropped, leaves. -/

/-- The state but for the collective engines' buffers. -/
def State.sansBuf (s : State) : State := { s with cbuf := [] }

section
variable (s : State) (d : Nat) (v : CeRecv) (q : PTag) (bad : List Nat)

theorem combined_frame : (s.combined d v q bad).sansBuf = s.sansBuf := by
  refine foldl_keeps State.sansBuf (fun t x => ?_) _ s
  rfl

theorem kept_landed : Kept s (s.landed d v q bad) :=
  kept_addWrap (Kept.foldl _ (fun _ _ h => kept_putBline h ..) (kept_setCe (Kept.refl s) ..)) ..

/-- Combining looks at the buffer alone. -/
theorem cbuf_combined {t : State} (h : t.cbuf = s.cbuf) : (t.combined d v q bad).cbuf = (s.combined d v q bad).cbuf := by
  unfold State.combined
  generalize (List.range 8).zip _ = l
  induction l generalizing s t with
  | nil => exact h
  | cons x l ih =>
    refine ih _ ?_
    simp only [State.putBline, State.bline, h]

theorem sansCe_landed : (s.landed d v q bad).sansCe = (s.addWrap (cePg d) R.CE_RX_BYTES 256).sansCe := by
  have hframe := combined_frame (s.seen d q) d v q bad
  unfold State.landed
  generalize (s.seen d q).combined d v q bad = t at *
  exact (congrArg (fun u : State => (u.addWrap (cePg d) R.CE_RX_BYTES 256).sansCe) hframe :)

theorem ce_landed (w : Wf s) : (s.landed d v q bad).ce d = (s.ce d).seen q :=
  (congrArg (State.ce · d) (combined_frame (s.seen d q) d v q bad) :).trans (ce_setCe_self w ..)

theorem cbuf_landed : (s.landed d v q bad).cbuf = (s.combined d v q bad).cbuf := cbuf_combined s d v q bad rfl

theorem rd_landed (w : Wf s) : (s.landed d v q bad).rd (cePg d) R.CE_RX_BYTES = (s.rd (cePg d) R.CE_RX_BYTES + 256) % 2 ^ R.CE_RX_BYTES.w :=
  (congrArg (State.rd · (cePg d) R.CE_RX_BYTES) (sansCe_landed s d v q bad) :).trans (rd_wr_self w ..)

theorem spares_landed {p : Nat} {g : Fld} (h : g.apart [R.CE_RX_BYTES] = true) : Spares p g s (s.landed d v q bad) where
  kept := kept_landed s d v q bad
  rd := fun w => (congrArg (State.rd · p g) (sansCe_landed s d v q bad) :).trans ((Spares.wr h List.mem_cons_self s _ _).rd w)

theorem poisonRest_frame : (s.poisonRest d v).sansBuf = s.sansBuf := by
  refine foldl_keeps State.sansBuf (fun t o => ?_) _ s
  split
  · rfl
  · refine foldl_keeps State.sansBuf (fun u i => ?_) _ t
    rfl

end

/-- A payload of no open receive, or beyond its receive's count, is dropped and counted (log entry 25). -/
theorem landPayload_drops {s : State} (w : Wf s) {d : Nat} {q : PTag}
    (h : (s.ce d).matched q.pkg = none ∨ ∃ v, (s.ce d).matched q.pkg = some v ∧ v.count ≤ q.offset) (bad : List Nat) :
    Reported ((s.seen d q).inc (cePg d) R.CE_RX_DROP) (s.landPayload d q bad) := by
  obtain h | ⟨v, h, hbeyond⟩ := h
  · rw [landPayload_unmatched w bad h]
    exact .refl _
  · rw [landPayload_beyond w bad h hbeyond]
    exact .ceErr ..

/-- What landing a payload inside its receive leaves. -/
structure State.lands (s : State) (d : Nat) (v : CeRecv) (q : PTag) (bad : List Nat) (t : State) : Prop where
  wle : ∀ p, t.wle p = s.wle p
  bytes : t.rd (cePg d) R.CE_RX_BYTES = (s.rd (cePg d) R.CE_RX_BYTES + 256) % 2 ^ R.CE_RX_BYTES.w
  more : q.last = false → t.cbuf = (s.combined d v q bad).cbuf ∧
    t.ce d = { s.ce d with recvs := (s.ce d).recvs.map fun u => if u = v then v.reached q else u }
  last : q.last = true → v.count ≤ (v.reached q).got.length → t.cbuf = (s.combined d v q bad).cbuf ∧
    t.ce d = { (s.ce d).seen q with recvs := (s.ce d).recvs.filter (· ≠ v) } ∧
    ∀ k, k < 16 → t.rd (osTop d) (Fld.idx R.OS_EVT_CNT k) = if v.evt.map (· % 16) = some k
      then min (s.rd (osTop d) (Fld.idx R.OS_EVT_CNT k) + 1) (2 ^ R.OS_EVT_CNT.w - 1) else s.rd (osTop d) (Fld.idx R.OS_EVT_CNT k)

theorem evtCnt_apart_rx : ∀ k, k < 16 → (Fld.idx R.OS_EVT_CNT k).apart [R.CE_RX_BYTES] = true := by decide

/-- A message that ends short poisons what it did not reach and is reported (R282). -/
def State.endsShort (z : State) (d : Nat) (u : CeRecv) : State :=
  if u.got.length < u.count then (z.poisonRest d u).ceErr d u.idx 7 (some u.rank) else z

/-- Neither touches the ports or the bytes counted. -/
theorem endsShort_spares (z : State) (d : Nat) (u : CeRecv) : (z.endsShort d u).wl = z.wl ∧ ∀ p, Spares p R.CE_RX_BYTES z (z.endsShort d u) := by
  have hframe := poisonRest_frame z d u
  have hrep := Reported.ceErr (z.poisonRest d u) d u.idx 7 (some u.rank)
  have hpoison (p : Nat) : Spares p R.CE_RX_BYTES z (z.poisonRest d u) := .of_regs (kept_poisonRest (Kept.refl z) ..) (congrArg State.regs hframe :)
  refine ⟨?_, fun p => .ite ((hpoison p).trans (hrep.spares p _ (by decide))) (.refl ..)⟩
  unfold State.endsShort
  split
  · exact (congrArg State.wl hrep.frame :).trans (congrArg State.wl hframe :)
  · rfl

/-- A receive completes: its event counts, and a complete message leaves the buffer alone. -/
theorem completed_spec {y : State} (w : Wf y) (d : Nat) (x : Ce) (u : CeRecv) :
    let t := ((y.setCe d x).endsShort d u).evtOpt d u.evt
    (∀ p, t.wle p = y.wle p) ∧ t.rd (cePg d) R.CE_RX_BYTES = y.rd (cePg d) R.CE_RX_BYTES ∧
      (u.count ≤ u.got.length → t.cbuf = y.cbuf ∧ t.ce d = x ∧
        ∀ k, t.rd (osTop d) (Fld.idx R.OS_EVT_CNT k) = if u.evt.map (· % 16) = some k
          then min (y.rd (osTop d) (Fld.idx R.OS_EVT_CNT k) + 1) (2 ^ R.OS_EVT_CNT.w - 1) else y.rd (osTop d) (Fld.idx R.OS_EVT_CNT k)) := by
  intro t
  have wz : Wf (y.setCe d x) := (kept_setCe (Kept.refl y) d x).wf w
  obtain ⟨hwl, hspares⟩ := endsShort_spares (y.setCe d x) d u
  have hnote := sansNote_evtOpt ((y.setCe d x).endsShort d u) d u.evt
  refine ⟨fun p => ?_, ?_, fun hfull => ?_⟩
  · exact (congrArg (State.wle · p) hnote :).trans (congrArg (look wlZero · p) hwl)
  · exact ((spares_evtOpt (by decide) ..).rd ((hspares 0).kept.wf wz)).trans ((hspares _).rd wz)
  · have hno : (y.setCe d x).endsShort d u = y.setCe d x := if_neg (Nat.not_lt.mpr hfull)
    unfold t
    rw [hno] at hnote ⊢
    exact ⟨(congrArg State.cbuf hnote :), (congrArg (State.ce · d) hnote :).trans (ce_setCe_self w ..), fun k => rd_evtOpt wz d u.evt k⟩

section
variable {s : State} (w : Wf s) {d : Nat} {q : PTag} {v : CeRecv} (bad : List Nat) (h : (s.ce d).matched q.pkg = some v) (hin : q.offset < v.count)
include w h hin

theorem landPayload_more_spec (hlast : q.last = false) : s.lands d v q bad (s.landPayload d q bad) := by
  rw [landPayload_more w bad h hin hlast]
  have wl := (kept_landed s d v q bad).wf w
  refine ⟨fun p => (congrArg (State.wle · p) (sansCe_landed s d v q bad) :), rd_landed s d v q bad w, fun _ => ⟨cbuf_landed s d v q bad, ?_⟩,
    fun hl => absurd hl (ne_true_of_eq_false hlast)⟩
  rw [ce_setCe_self wl, ce_landed s d v q bad w]
  simp [Ce.seen, hlast]

theorem landPayload_last_spec (hlast : q.last = true) : s.lands d v q bad (s.landPayload d q bad) := by
  rw [landPayload_last w bad h hin hlast]
  have hce := ce_landed s d v q bad w
  obtain ⟨hwle, hbytes, hfull⟩ := completed_spec ((kept_landed s d v q bad).wf w) d
    { (s.landed d v q bad).ce d with recvs := ((s.landed d v q bad).ce d).recvs.filter (· ≠ v) } (v.reached q)
  refine ⟨fun p => (hwle p).trans (congrArg (State.wle · p) (sansCe_landed s d v q bad) :), hbytes.trans (rd_landed s d v q bad w),
    fun hl => absurd hlast (ne_true_of_eq_false hl), fun _ hlen => ?_⟩
  obtain ⟨hcbuf, hengine, hevt⟩ := hfull hlen
  refine ⟨hcbuf.trans (cbuf_landed s d v q bad), hengine.trans ?_, fun k hk => (hevt k).trans ?_⟩
  · rw [hce]
    rfl
  · rw [(spares_landed s d v q bad (evtCnt_apart_rx k hk)).rd w]
    rfl

end

/-! What the slots leave. -/

theorem ceTake_drops {u : State} {d : Nat} (h : u.ceDrops d = true) (hits : List EccHit) (ts : List PTag) :
    u.ceTake d hits ts = u.addSat (cePg d) R.CE_RX_DROP ts.length := if_pos h

theorem ceTake_one {u : State} {d : Nat} (h : u.ceDrops d = false) (hits : List EccHit) (q : PTag) :
    u.ceTake d hits [q] = (u.bufHits d hits).landPayload d q (badWords hits 0 8) := if_neg (ne_true_of_eq_false h)

theorem evtCnt_apart_reports : ∀ k, k < 16 → (Fld.idx R.OS_EVT_CNT k).apart ceReports = true := by decide

/-- What dropping a payload leaves. -/
structure State.drops (s : State) (d : Nat) (q : PTag) (t : State) : Prop where
  wle : ∀ p, t.wle p = s.wle p
  cbuf : t.cbuf = s.cbuf
  ce : t.ce d = (s.ce d).seen q
  count : t.rd (cePg d) R.CE_RX_DROP = min (s.rd (cePg d) R.CE_RX_DROP + 1) (2 ^ R.CE_RX_DROP.w - 1)

theorem landPayload_drops_spec {s : State} (w : Wf s) {d : Nat} {q : PTag}
    (h : (s.ce d).matched q.pkg = none ∨ ∃ v, (s.ce d).matched q.pkg = some v ∧ v.count ≤ q.offset) (bad : List Nat) :
    s.drops d q (s.landPayload d q bad) := by
  have hland := landPayload_drops w h bad
  have ws : Wf (s.seen d q) := (kept_setCe (Kept.refl s) ..).wf w
  refine ⟨fun p => (congrArg (State.wle · p) hland.frame :), (congrArg State.cbuf hland.frame :),
    (congrArg (State.ce · d) hland.frame :).trans (ce_setCe_self w ..), ?_⟩
  exact ((hland.spares _ R.CE_RX_DROP (by decide)).rd (wf_wr ws ..)).trans (rd_addSat_self ws ..)

theorem landPayload_lands {s : State} (w : Wf s) {d : Nat} {q : PTag} {v : CeRecv} (h : (s.ce d).matched q.pkg = some v) (hin : q.offset < v.count)
    (bad : List Nat) : s.lands d v q bad (s.landPayload d q bad) := by
  cases hlast : q.last with
  | false => exact landPayload_more_spec w bad h hin hlast
  | true => exact landPayload_last_spec w bad h hin hlast

section
variable {s a t : State} (h : Reported s a) (w : Wf s) {d : Nat} {q : PTag}
include h w

/-- The reports of reads before it do not change what a payload leaves. -/
theorem State.drops.of_reported (k : a.drops d q t) : s.drops d q t where
  wle := fun p => (k.wle p).trans (wle_of_report h.frame p)
  cbuf := k.cbuf.trans (congrArg State.cbuf h.frame :)
  ce := k.ce.trans (congrArg (fun u : State => (u.ce d).seen q) h.frame :)
  count := by rw [k.count, (h.spares _ R.CE_RX_DROP (by decide)).rd w]

theorem State.lands.of_reported {v : CeRecv} {bad : List Nat} (k : a.lands d v q bad t) : s.lands d v q bad t := by
  have hcombined : (a.combined d v q bad).cbuf = (s.combined d v q bad).cbuf := cbuf_combined s d v q bad (congrArg State.cbuf h.frame :)
  have hce : a.ce d = s.ce d := (congrArg (State.ce · d) h.frame :)
  refine ⟨fun p => (k.wle p).trans (wle_of_report h.frame p), ?_, fun hlast => ?_, fun hlast hfull => ?_⟩
  · rw [k.bytes, (h.spares _ R.CE_RX_BYTES (by decide)).rd w]
  · rw [← hcombined, ← hce]
    exact k.more hlast
  · obtain ⟨hcbuf, hengine, hevt⟩ := k.last hlast hfull
    refine ⟨hcbuf.trans hcombined, hce ▸ hengine, fun j hj => ?_⟩
    rw [hevt j hj, (h.spares _ _ (evtCnt_apart_reports j hj)).rd w]

end

section
variable {u : State} (w : Wf u) {d : Nat} (hkeep : u.ceDrops d = false) (hits : List EccHit) {q : PTag}
include w hkeep

theorem ceTake_one_drops (h : (u.ce d).matched q.pkg = none ∨ ∃ v, (u.ce d).matched q.pkg = some v ∧ v.count ≤ q.offset) :
    u.drops d q (u.ceTake d hits [q]) := by
  have hrep := Reported.bufHits u d hits
  have hce : (u.bufHits d hits).ce d = u.ce d := (congrArg (State.ce · d) hrep.frame :)
  rw [ceTake_one hkeep]
  exact (landPayload_drops_spec ((hrep.spares 0 R.CE_RX_DROP (by decide)).kept.wf w) (hce ▸ h) _).of_reported hrep w

theorem ceTake_one_lands {v : CeRecv} (h : (u.ce d).matched q.pkg = some v) (hin : q.offset < v.count) :
    u.lands d v q (badWords hits 0 8) (u.ceTake d hits [q]) := by
  have hrep := Reported.bufHits u d hits
  have hce : (u.bufHits d hits).ce d = u.ce d := (congrArg (State.ce · d) hrep.frame :)
  rw [ceTake_one hkeep]
  exact (landPayload_lands ((hrep.spares 0 R.CE_RX_DROP (by decide)).kept.wf w) (hce ▸ h) hin _).of_reported hrep w

end

/-- What a transmit slot does (R284). -/
theorem transmit_spec {s : State} (w : Wf s) {d : Nat} (hok : s.ceOk d = true) (hlive : s.portAlive (wlPg d 3) = true)
    (hsent : (s.wle (wlPg d 3)).sent ≠ some s.clk.cc) (hplan : (s.slotPlan d 3 s.clk.cc).1 = 16) (hits : List EccHit) :
    let e := s.atSlot d s.clk.cc
    ∃ t tags, exec (.seberTransmitSlot d hits) s = .next t ∧ e.transmits d s.clk.cc tags t ∧ tags.length ≤ e.flitPayloads d ∧
      (e.slotTurn d = none → tags = []) ∧ ∀ v, e.slotTurn d = some v → tags.head? = some (e.payloadOf d v (badWords hits 0 8)) := by
  intro e
  have hd : d < 8 := of_decide_eq_true (Bool.and_eq_true_iff.mp hok).1
  have we := wf_atSlot w d s.clk.cc
  obtain ⟨hlen, hdrawn⟩ := slotDraw_drawn (e := e) d hits
  exact ⟨_, _, exec_transmit hok hlive hsent hplan hits, transmits_slotOf we hd s.clk.cc hdrawn, hlen,
    slotDraw_none d hits we, fun v => slotDraw_some d hits we⟩

/-- Settles O45: the payloads drawn are counted one by one, and a delivered one lands in the state its slot has found. -/
theorem seberSlotsOfTheXPort : Obligations.SeberSlotsOfTheXPort := by
  unfold Obligations.SeberSlotsOfTheXPort
  intro s d hits w hok p c bad
  refine ⟨fun hlive hsent hplan => ?transmit, fun hplan hdrawn hidle => ?idle, fun f r hplan hdrawn hup hbuf => ?delivery⟩
  case transmit =>
    intro e x n turn
    obtain ⟨t, tags, hexec, hsends, hlen, hnone, hsome⟩ := transmit_spec w hok hlive hsent hplan hits
    obtain ⟨hclk, hcbuf, htiles, hwire, hport, hbytes⟩ := hsends
    rw [atSlot_wle, atSlot_wle] at hwire
    rw [atSlot_wle] at hport
    rw [atSlot_rd] at hbytes
    have hn : (s.atSlot d s.clk.cc).flitPayloads d = n := by
      unfold State.flitPayloads State.bit
      rw [atSlot_rd]
      rfl
    exact ⟨t, tags, hexec, hclk, hcbuf, htiles.trans (atSlot_tiles ..), hwire, hport, hn ▸ hlen, hnone, hsome, hbytes⟩
  case idle =>
    intro e
    have hwle : e.wle p = s.wle p := atSlot_wle ..
    have hprog : e.prog d = s.prog d := atSlot_rd ..
    have hlive : e.portAlive p = s.portAlive p := atSlot_portAlive ..
    have hslot := deliver_idle (e := e) (d := d) (by rwa [hwle, hprog, hlive]) c hits
    rw [hwle] at hslot
    exact (exec_delivery hok hplan hdrawn hits).trans (congrArg Host.Outcome.next hslot)
  case delivery =>
    intro e x drop taken
    have we : Wf e := wf_atSlot w ..
    have hwle : e.wle p = s.wle p := atSlot_wle ..
    have hrd (q : Nat) (g : Fld) : e.rd q g = s.rd q g := atSlot_rd ..
    have hlive : e.portAlive p = s.portAlive p := atSlot_portAlive ..
    have hslot := deliver_flit (e := e) (d := d) (fun hrun => hlive.trans (hup ((hrd ..).symm.trans hrun)))
      ((congrArg WlEnd.xbuf hwle).trans hbuf) c hits
    rw [hwle] at hslot
    have hexec : exec (.seberDeliverySlot d hits) s = .next ((e.setWle p taken).ceTake d hits f) :=
      (exec_delivery hok hplan hdrawn hits).trans (congrArg Host.Outcome.next hslot)
    clear_value e
    have wu : Wf (e.setWle p taken) := (kept_setWle (Kept.refl e) ..).wf we
    have hport : (e.setWle p taken).wle p = taken := wle_setWle_self we ..
    have hdrop : (e.setWle p taken).ceDrops d = drop := congrArg (fun k => x.abort || decide (k ≠ 2)) (hrd (osTop d) R.OS_PROG_STAT_STATE)
    refine ⟨fun hd _ => ?aborts, fun q hd hf => ?dropped, fun q v hd hf => ?landed⟩
    case aborts =>
      refine ⟨_, hexec.trans (congrArg Host.Outcome.next (ceTake_drops (hdrop.trans hd) hits f)), hport, rfl, rfl, ?_⟩
      rw [← hrd]
      exact rd_addSat_self wu ..
    case dropped =>
      intro msgs found hno
      have hdrops := ceTake_one_drops wu (hdrop.trans hd) hits hno
      rw [hf] at hexec
      refine ⟨_, hexec, (hdrops.wle p).trans hport, hdrops.cbuf, hdrops.ce, ?_⟩
      rw [← hrd]
      exact hdrops.count
    case landed =>
      intro msgs hv hin got ls g
      have hlands := ceTake_one_lands wu (hdrop.trans hd) hits hv hin
      have hcombined : ((e.setWle p taken).combined d v q bad).cbuf = g.cbuf := cbuf_combined e d v q bad rfl
      rw [hf] at hexec
      refine ⟨_, hexec, (hlands.wle p).trans hport, ?_, fun hlast => ?more, fun hlast hfull => ?last⟩
      · rw [← hrd]
        exact hlands.bytes
      case more => exact ⟨(hlands.more hlast).1.trans hcombined, (hlands.more hlast).2⟩
      case last =>
        obtain ⟨hcbuf, hce, hevt⟩ := hlands.last hlast hfull
        refine ⟨hcbuf.trans hcombined, hce, fun k hk => ?_⟩
        rw [← hrd]
        exact hevt k hk

end Sys2Proof.Machine
end
